-- ==== Sys2Proof/Word.lean ====
section
/-! DEFINITION. The words of the model and its one container for sparse data: the module's registers are
64 bits wide and little-endian (spec 00_scope.md R9), memory is addressed by the byte. -/

namespace Sys2Proof

/-- A byte of memory, of a packet or of a message. -/
abbrev Byte := BitVec 8

/-- A 16-bit field. -/
abbrev U16 := BitVec 16

/-- A 32-bit register of a thread (R107), or a 32-bit field. -/
abbrev U32 := BitVec 32

/-- A 64-bit register (R9) or uniform register (R109). -/
abbrev U64 := BitVec 64

/-- Sparse data by key: pairs with keys strictly rising and no entry equal to what an unlisted key reads as. -/
abbrev Map (α : Type) := List (Nat × α)

end Sys2Proof
end

