-- ==== Sys2Proof/Syntax.lean ====
section
/-! DEFINITION. The syntax: the commands of the block, one constructor per row of spec/opcode_table.json, with the
operands that name what acts, and what comes from outside the module (an access, a frame, a reading). -/

namespace Sys2Proof

/-- A crew by logical core, quarter and slot (R77, R102). -/
structure CrewId where
  core : Nat
  quarter : Nat
  slot : Nat
  deriving DecidableEq, Repr

/-- A register access (R9, R12): function 0 to 8, BAR0 offset, size in bytes, and the data of a write. -/
structure HostAccess where
  fn : Nat
  off : Nat
  size : Nat
  data : Nat
  deriving DecidableEq, Repr

/-- A KFT packet that arrives (R312, R313): its sub-port, whether it is marked CE, the bytes of its frame, and the UDP
payload. -/
structure KftPacket where
  sub : Nat
  ce : Bool
  len : Nat
  bytes : List Byte
  deriving DecidableEq, Repr

/-- The header of a KFT packet (Table 12-3). -/
structure KftHeader where
  verType : Nat
  flags : Nat
  path : Nat
  epoch : Nat
  dstTag : Nat
  ctr : Nat
  psn : Nat
  ts : Nat
  deriving DecidableEq, Repr

/-- What every `HANDSHAKE` packet carries that arrives (R312, R313): its sub-port, whether it is marked CE, the bytes of its frame, and its
header. -/
structure HsPacket where
  sub : Nat
  ce : Bool
  len : Nat
  head : KftHeader
  deriving DecidableEq, Repr

/-- A `HELLO` or `REPLY` (Table 12-8) that arrives. -/
structure Handshake where
  pkt : HsPacket
  assoc : Nat
  epoch : Nat
  tag : Nat
  pub : List Byte
  random : List Byte
  deviceCert : List Byte
  partCert : List Byte
  sig : List Byte
  deriving DecidableEq, Repr

/-- The body of a `CLOSE` (Table 12-8) that arrives. -/
structure CloseBody where
  assoc : Nat
  reason : Nat
  sig : List Byte
  deriving DecidableEq, Repr

/-- What a way is found to hold (R230, R231): a number of errors that are corrected, the sets whose line has one that is not, and whether the
slice's tags or directory have one. -/
structure WayFound where
  errors : Nat
  bad : List Nat := []
  tags : Bool := false
  deriving DecidableEq, Repr

/-- What the patrol scrub of a stack finds (R254): the half-lines with an error that is corrected, and those with one that is not, as
pseudo-channel × 2 × lines + 2 × line + half. -/
structure ScrubFound where
  fixed : List Nat := []
  bad : List Nat := []
  deriving DecidableEq, Repr

/-- A host core's access to a landing access page (R281, Table 10-9): its offset and size, and the data of a store. -/
structure PageAccess where
  off : Nat
  size : Nat
  store : Bool
  data : Nat := 0
  deriving DecidableEq, Repr

/-- An MCTP message, assembled from its packets (R355): its type, and the body behind it. -/
structure MctpMessage where
  typ : Nat
  body : List Byte
  deriving DecidableEq, Repr

/-- A frame of the neighbour protocols (R311): 0 ARP request, 1 neighbour solicitation, 2 echo request, 3 ARP reply or
neighbour advertisement, 4 echo reply; the address asked for or answered, the other end's addresses, and an echo's payload. -/
structure NetFrame where
  sub : Nat
  kind : Nat
  target : List Byte
  ip : List Byte
  mac : List Byte
  payload : List Byte
  deriving DecidableEq, Repr

/-- The commands, one per row of spec/opcode_table.json. A command names the unit that acts; what the unit does is read
from the state. -/
inductive Instr where
  /-- REGISTER_WRITE (R9). -/
  | registerWrite (a : HostAccess)
  /-- BAD_REGISTER_ACCESS (R12). -/
  | badRegisterAccess (a : HostAccess) (write : Bool)
  /-- POWER_ON (R432). -/
  | powerOn (pwrEn : Bool)
  /-- MITOR_READY (R433). -/
  | mitorReady
  /-- PWR_EN_ASSERT (R433). -/
  | pwrEnAssert
  /-- PWR_EN_DEASSERT (R437). -/
  | pwrEnDeassert
  /-- SUPPLY_LOSS (R351). -/
  | supplyLoss
  /-- SUPPLY_LOCKOUT (R381). -/
  | supplyLockout
  /-- LOCKOUT_RECOVERY (R381). -/
  | lockoutRecovery
  /-- MITOR_SOFT_RESET (R442). -/
  | mitorSoftReset
  /-- FLIT_REPLAY (R16). -/
  | flitReplay (link lane : Nat)
  /-- DIE_LANE_FAIL (R408). -/
  | dieLaneFail (link lane : Nat)
  /-- LOCKSTEP_MISMATCH (R411). -/
  | lockstepMismatch (unit : Nat)
  /-- STANDBY_SELF_TEST (R410). -/
  | standbySelfTest (pass : Bool)
  /-- INGRESS_GRANULE (R41). -/
  | ingressGranule (fn ctx off : Nat) (bytes : List Byte)
  /-- PACKET_DECODE (R54). -/
  | packetDecode
  /-- PACKET_SKIP (R64). -/
  | packetSkip (ctx : Nat)
  /-- NOP (R49). -/
  | nop (ctx : Nat)
  /-- SET_IDS (R47). -/
  | setIds (ctx : Nat)
  /-- TIMESTAMP (R55). -/
  | timestamp (ctx : Nat)
  /-- REPORT (R66). -/
  | report (ctx : Nat)
  /-- FENCE (R55). -/
  | fence (ctx : Nat)
  /-- LANDING_ARRIVE (R53). -/
  | landingArrive (ctx : Nat)
  /-- LANDING_WAIT (R53). -/
  | landingWait (ctx : Nat)
  /-- IF_FLAG (R58). -/
  | ifFlag (ctx : Nat)
  /-- ELSE (R58). -/
  | elsePacket (ctx : Nat)
  /-- END_IF (R58). -/
  | endIf (ctx : Nat)
  /-- FETCH_CHAIN (R57). -/
  | fetchChain (ctx : Nat)
  /-- CHAIN_FAULT (R57). -/
  | chainFault (ctx : Nat)
  /-- CHAIN_END (R59). -/
  | chainEnd (ctx : Nat)
  /-- COPY (R52). -/
  | copy (ctx : Nat)
  /-- FILL (R52). -/
  | fill (ctx : Nat)
  /-- LAUNCH_CREWS (R73). -/
  | launchCrews (ctx : Nat)
  /-- LAUNCH_COX (R51). -/
  | launchCox (ctx : Nat)
  /-- BROADCAST_COX (R51). -/
  | broadcastCox (ctx : Nat)
  /-- PACKET_COMPLETE (R54). -/
  | packetComplete (ctx pid : Nat)
  /-- FAULT_CREDIT_RECORD (R37). -/
  | faultCreditRecord (ctx : Nat)
  /-- PACKET_RETIRE (R54). -/
  | packetRetire (ctx : Nat)
  /-- CREW_PLACE (R74). -/
  | crewPlace (core : Nat)
  /-- CREW_LEAVE (R78). -/
  | crewLeave (c : CrewId)
  /-- LAUNCH_FAULT_SIGNAL (R95). -/
  | launchFaultSignal (launch core : Nat)
  /-- WATCHDOG (R97). -/
  | watchdog (c : CrewId)
  /-- RESULT_ARRIVAL (R111). -/
  | resultArrival (c : CrewId) (n : Nat)
  /-- SCRATCH_RETRY (R211). -/
  | scratchRetry (c : CrewId)
  /-- IADD (R120). -/
  | iadd (c : CrewId)
  /-- ISUB (R120). -/
  | isub (c : CrewId)
  /-- IMUL (R120). -/
  | imul (c : CrewId)
  /-- IMULH (R120). -/
  | imulh (c : CrewId)
  /-- IMAD (R120). -/
  | imad (c : CrewId)
  /-- IMIN (R120). -/
  | imin (c : CrewId)
  /-- IMAX (R120). -/
  | imax (c : CrewId)
  /-- IABS (R120). -/
  | iabs (c : CrewId)
  /-- AND (R120). -/
  | andOp (c : CrewId)
  /-- OR (R120). -/
  | orOp (c : CrewId)
  /-- XOR (R120). -/
  | xorOp (c : CrewId)
  /-- ANDN (R120). -/
  | andn (c : CrewId)
  /-- SHL (R120). -/
  | shl (c : CrewId)
  /-- SHR (R120). -/
  | shr (c : CrewId)
  /-- POPC (R120). -/
  | popc (c : CrewId)
  /-- CLZ (R120). -/
  | clz (c : CrewId)
  /-- BREV (R120). -/
  | brev (c : CrewId)
  /-- BFE (R120). -/
  | bfe (c : CrewId)
  /-- BFI (R120). -/
  | bfi (c : CrewId)
  /-- IDIV (R120). -/
  | idiv (c : CrewId)
  /-- IREM (R120). -/
  | irem (c : CrewId)
  /-- DADD (R121). -/
  | dadd (c : CrewId)
  /-- DSUB (R121). -/
  | dsub (c : CrewId)
  /-- DMUL (R121). -/
  | dmul (c : CrewId)
  /-- DFMA (R121). -/
  | dfma (c : CrewId)
  /-- DMIN (R121). -/
  | dmin (c : CrewId)
  /-- DMAX (R121). -/
  | dmax (c : CrewId)
  /-- DDIV (R121). -/
  | ddiv (c : CrewId)
  /-- DSQRT (R121). -/
  | dsqrt (c : CrewId)
  /-- FADD (R121). -/
  | fadd (c : CrewId)
  /-- FSUB (R121). -/
  | fsub (c : CrewId)
  /-- FMUL (R121). -/
  | fmul (c : CrewId)
  /-- FFMA (R121). -/
  | ffma (c : CrewId)
  /-- FMIN (R121). -/
  | fmin (c : CrewId)
  /-- FMAX (R121). -/
  | fmax (c : CrewId)
  /-- FDIV (R121). -/
  | fdiv (c : CrewId)
  /-- FSQRT (R121). -/
  | fsqrt (c : CrewId)
  /-- FRCP (R121). -/
  | frcp (c : CrewId)
  /-- FRSQ (R121). -/
  | frsq (c : CrewId)
  /-- FEXP2 (R121). -/
  | fexp2 (c : CrewId)
  /-- FLOG2 (R121). -/
  | flog2 (c : CrewId)
  /-- HADD2 (R121). -/
  | hadd2 (c : CrewId)
  /-- HSUB2 (R121). -/
  | hsub2 (c : CrewId)
  /-- HMUL2 (R121). -/
  | hmul2 (c : CrewId)
  /-- HFMA2 (R121). -/
  | hfma2 (c : CrewId)
  /-- HMIN2 (R121). -/
  | hmin2 (c : CrewId)
  /-- HMAX2 (R121). -/
  | hmax2 (c : CrewId)
  /-- HDOT2 (R121). -/
  | hdot2 (c : CrewId)
  /-- CVT (R122). -/
  | cvt (c : CrewId)
  /-- FRND (R122). -/
  | frnd (c : CrewId)
  /-- ICMP (R124). -/
  | icmp (c : CrewId)
  /-- DCMP (R124). -/
  | dcmp (c : CrewId)
  /-- FCMP (R124). -/
  | fcmp (c : CrewId)
  /-- SEL (R119). -/
  | sel (c : CrewId)
  /-- PLOP (R119). -/
  | plop (c : CrewId)
  /-- BRC (R125). -/
  | brc (c : CrewId)
  /-- BRX (R125). -/
  | brx (c : CrewId)
  /-- CALL (R125). -/
  | call (c : CrewId)
  /-- JOIN (R83). -/
  | join (c : CrewId)
  /-- EXIT (R453). -/
  | exitOp (c : CrewId)
  /-- CBAR (R89). -/
  | cbar (c : CrewId)
  /-- LD (R128). -/
  | ld (c : CrewId)
  /-- ST (R128). -/
  | st (c : CrewId)
  /-- LDU (R119). -/
  | ldu (c : CrewId)
  /-- MEMORY_FENCE (R240). -/
  | memoryFence (c : CrewId)
  /-- AADD (R129). -/
  | aadd (c : CrewId)
  /-- AMIN (R129). -/
  | amin (c : CrewId)
  /-- AMAX (R129). -/
  | amax (c : CrewId)
  /-- AAND (R129). -/
  | aand (c : CrewId)
  /-- AOR (R129). -/
  | aor (c : CrewId)
  /-- AXOR (R129). -/
  | axor (c : CrewId)
  /-- AXCH (R129). -/
  | axch (c : CrewId)
  /-- ACAS (R129). -/
  | acas (c : CrewId)
  /-- AFADD (R129). -/
  | afadd (c : CrewId)
  /-- ADFADD (R129). -/
  | adfadd (c : CrewId)
  /-- LARRIVE (R131). -/
  | larrive (c : CrewId)
  /-- LWAIT (R131). -/
  | lwait (c : CrewId)
  /-- LARRWAIT (R131). -/
  | larrwait (c : CrewId)
  /-- LTEST (R131). -/
  | ltest (c : CrewId)
  /-- SHFL_IDX (R132). -/
  | shflIdx (c : CrewId)
  /-- SHFL_UP (R132). -/
  | shflUp (c : CrewId)
  /-- SHFL_DOWN (R132). -/
  | shflDown (c : CrewId)
  /-- SHFL_XOR (R132). -/
  | shflXor (c : CrewId)
  /-- VOTE_ANY (R119). -/
  | voteAny (c : CrewId)
  /-- VOTE_ALL (R119). -/
  | voteAll (c : CrewId)
  /-- BALLOT (R119). -/
  | ballot (c : CrewId)
  /-- REDUX_ADD (R132). -/
  | reduxAdd (c : CrewId)
  /-- REDUX_MIN (R132). -/
  | reduxMin (c : CrewId)
  /-- REDUX_MAX (R132). -/
  | reduxMax (c : CrewId)
  /-- UFROM (R119). -/
  | ufrom (c : CrewId)
  /-- FDMA (R133). -/
  | fdma (c : CrewId)
  /-- PF_L1 (R134). -/
  | pfL1 (c : CrewId)
  /-- PF_GC (R134). -/
  | pfGc (c : CrewId)
  /-- INV_L1 (R134). -/
  | invL1 (c : CrewId)
  /-- INV_L1ALL (R134). -/
  | invL1all (c : CrewId)
  /-- INV_IC (R134). -/
  | invIc (c : CrewId)
  /-- NOP_INSTRUCTION (R119). -/
  | nopInstruction (c : CrewId)
  /-- MOV (R119). -/
  | mov (c : CrewId)
  /-- UMOV (R119). -/
  | umov (c : CrewId)
  /-- RDS (R112). -/
  | rds (c : CrewId)
  /-- WRS (R112). -/
  | wrs (c : CrewId)
  /-- BRK (R104). -/
  | brk (c : CrewId)
  /-- HALT (R102). -/
  | haltCrew (path : Nat)
  /-- READ_STATE (R102). -/
  | readState (path : Nat)
  /-- WRITE_STATE (R102). -/
  | writeState (path : Nat)
  /-- STEP (R103). -/
  | stepCrew (path : Nat)
  /-- RESUME (R102). -/
  | resume (path : Nat)
  /-- COX_PROGRAM_LOAD (R164). -/
  | coxProgramLoad (core ctx pid : Nat)
  /-- PROGRAM_START (R167). -/
  | programStart (core : Nat)
  /-- LOAD (R143). -/
  | load (core : Nat)
  /-- RESULT (R152). -/
  | result (core : Nat)
  /-- SLICE (R156). -/
  | slice (core : Nat)
  /-- SLICE_PASS (R156). -/
  | slicePass (core : Nat)
  /-- ROW_COMMIT (R143). -/
  | rowCommit (core : Nat)
  /-- RESULT_ROW_LANDS (R152). -/
  | resultRowLands (core : Nat)
  /-- TO_A (R172). -/
  | toA (core : Nat)
  /-- TO_B (R172). -/
  | toB (core : Nat)
  /-- STG (R172). -/
  | stg (core : Nat)
  /-- SR_TO_A (R172). -/
  | srToA (core : Nat)
  /-- SR_TO_B (R172). -/
  | srToB (core : Nat)
  /-- STORE (R173). -/
  | store (core : Nat)
  /-- STREAMER_DELIVERY (R181). -/
  | streamerDelivery (core : Nat)
  /-- STAGING_LANDS (R181). -/
  | stagingLands (core : Nat)
  /-- STORE_LANDS (R181). -/
  | storeLands (core : Nat)
  /-- SET (R175). -/
  | setScalar (core : Nat)
  /-- ADD (R175). -/
  | addScalar (core : Nat)
  /-- LOOP (R186). -/
  | loop (core : Nat)
  /-- BR (R175). -/
  | br (core : Nat)
  /-- X_BRC (R176). -/
  | xBrc (core : Nat)
  /-- CMPCFG (R176). -/
  | cmpcfg (core : Nat)
  /-- BRF (R175). -/
  | brf (core : Nat)
  /-- END (R189). -/
  | endProgram (core : Nat)
  /-- ARRIVE (R177). -/
  | arrive (core : Nat)
  /-- WAIT (R177). -/
  | wait (core : Nat)
  /-- ARRWAIT (R177). -/
  | arrwait (core : Nat)
  /-- WAITGEN (R177). -/
  | waitgen (core : Nat)
  /-- FLAGSET (R177). -/
  | flagset (core : Nat)
  /-- FLAGCLR (R177). -/
  | flagclr (core : Nat)
  /-- MARK (R177). -/
  | mark (core : Nat)
  /-- STROKE_LIMIT (R191). -/
  | strokeLimit (core : Nat)
  /-- DRAIN_END (R158). -/
  | drainEnd (core : Nat)
  /-- COX_LAUNCH_COMPLETE (R194). -/
  | coxLaunchComplete (launch : Nat)
  /-- FDMA_CHAIN_START (R215). -/
  | fdmaChainStart (core : Nat)
  /-- DESCRIPTOR_COPY (R216). -/
  | descriptorCopy (core : Nat)
  /-- DESCRIPTOR_FILL (R216). -/
  | descriptorFill (core : Nat)
  /-- CONVERT (R217). -/
  | convertDesc (core : Nat)
  /-- LINK (R216). -/
  | linkDesc (core : Nat)
  /-- FDMA_CHAIN_COMPLETE (R215). -/
  | fdmaChainComplete (core : Nat)
  /-- BAD_DESC_CLEAR (R220). -/
  | badDescClear (a : HostAccess)
  /-- GC_ENABLE (R228). -/
  | gcEnable (a : HostAccess)
  /-- GC_DISABLE (R228). -/
  | gcDisable (a : HostAccess)
  /-- SLICE_DISABLED (R228). -/
  | sliceDisabled (g : Nat)
  /-- GC_INVALIDATE (R228). -/
  | gcInvalidate (a : HostAccess)
  /-- INVALIDATE_DONE (R228). -/
  | invalidateDone (g : Nat)
  /-- GC_WAYS_WRITE (R229). -/
  | gcWaysWrite (a : HostAccess)
  /-- WAY_DISABLE (R231). -/
  | wayDisable (g way : Nat) (found : WayFound)
  /-- RD_SHARED (R235). -/
  | rdShared (part line agent : Nat)
  /-- RD_UNIQUE (R235). -/
  | rdUnique (part line agent : Nat)
  /-- WR_THROUGH (R235). -/
  | wrThrough (part line agent mask : Nat) (bytes : List Byte)
  /-- ATOMIC (R235). -/
  | atomic (part line agent : Nat) (op size off a b : Nat) (sgn : Bool)
  /-- IO_READ (R235). -/
  | ioRead (part line agent : Nat)
  /-- IO_WRITE (R235). -/
  | ioWrite (part line agent mask : Nat) (bytes : List Byte)
  /-- WRITEBACK (R235). -/
  | writeback (part line agent : Nat) (bytes : List Byte)
  /-- EVICT_CLEAN (R235). -/
  | evictClean (part line agent : Nat)
  /-- DATA (R236). -/
  | dataFill (part line : Nat)
  /-- INV (R237). -/
  | inv (part line agent : Nat)
  /-- DOWNGRADE (R235). -/
  | downgrade (part line agent : Nat)
  /-- ACK (R234). -/
  | ack (part line : Nat)
  /-- INV_ACK (R235). -/
  | invAck (part line agent : Nat) (bytes : List Byte)
  /-- DOWN_ACK (R235). -/
  | downAck (part line agent : Nat) (bytes : List Byte)
  /-- COMP_ACK (R234). -/
  | compAck (part line agent : Nat)
  /-- HOLD_EXPIRY (R236). -/
  | holdExpiry (part line agent : Nat)
  /-- HBM_READ (R252). -/
  | hbmRead (pc line half symbols : Nat)
  /-- PATROL_SCRUB (R254). -/
  | patrolScrub (stack : Nat) (found : ScrubFound)
  /-- ROW_REPAIR (R255). -/
  | rowRepair (pc row : Nat)
  /-- LINE_MOVE (R258). -/
  | lineMove
  /-- STACK_TEMP_REPORT (R260). -/
  | stackTempReport (stack temp : Nat)
  /-- SLOT_RETURN (R277). -/
  | slotReturn (slot : Nat)
  /-- TIMEOUT (R279). -/
  | timeout (slot n : Nat)
  /-- LANDING_MOVE (R276). -/
  | landingMove
  /-- MIRROR_FORWARD (R280). -/
  | mirrorForward (slot : Nat)
  /-- LDG_ARRIVE (R281). -/
  | ldgArrive (h ctx : Nat) (a : PageAccess)
  /-- PREEMPT_SAVE (R287). -/
  | preemptSave (ctx : Nat)
  /-- PREEMPT_TIMEOUT (R287). -/
  | preemptTimeout (ctx : Nat)
  /-- XLT_INV_CONTEXT (R294). -/
  | xltInvContext (a : HostAccess)
  /-- XLT_INV_PAGE (R294). -/
  | xltInvPage (a : HostAccess)
  /-- INVALIDATION_DONE (R295). -/
  | invalidationDone (ctx : Nat)
  /-- SEGMENT_RESTORE (R299). -/
  | segmentRestore (seg line : Nat)
  /-- SEGMENT_HOLD_EXPIRY (R298). -/
  | segmentHoldExpiry (seg n : Nat)
  /-- DRAIN_TIMEOUT (R300). -/
  | drainTimeout (n : Nat)
  /-- DRAIN_COMPLETE (R302). -/
  | drainComplete (n : Nat)
  /-- CORE_SUBSTITUTION (R409). -/
  | coreSubstitution (core : Nat)
  /-- LINK_UP (R306). -/
  | linkUp (sub : Nat)
  /-- TRAIN_RETRY (R306). -/
  | trainRetry (sub : Nat)
  /-- OFFER (R307). -/
  | offer (sub : Nat) (payload : List Byte)
  /-- ACCEPT (R308). -/
  | accept (sub : Nat) (payload : List Byte)
  /-- OFFER_REPEAT (R307). -/
  | offerRepeat (port : Nat)
  /-- SPARE_ASSIGN (R308). -/
  | spareAssign (port sub : Nat)
  /-- LANE_FAIL (R309). -/
  | laneFail (port lane : Nat)
  /-- SHADOW_REQ (R309). -/
  | shadowReq (sub : Nat) (payload : List Byte)
  /-- SHADOW_ON (R309). -/
  | shadowOn (sub : Nat) (payload : List Byte)
  /-- SWAP_DONE (R309). -/
  | swapDone (sub : Nat) (own : Bool) (payload : List Byte)
  /-- SHADOW_OFF (R309). -/
  | shadowOff (sub : Nat) (own : Bool) (payload : List Byte)
  /-- SHADOW_REQ_REPEAT (R309). -/
  | shadowReqRepeat (port : Nat)
  /-- FOREIGN (R312). -/
  | foreign (sub : Nat) (corrupt : Bool)
  /-- KFT_ACK (R322). -/
  | kftAck (k : KftPacket)
  /-- PROBE (R314). -/
  | probe (k : KftPacket)
  /-- HELLO (R328). -/
  | hello (h : Handshake)
  /-- REPLY (R328). -/
  | reply (h : Handshake)
  /-- CONFIRM (R329). -/
  | confirm (k : KftPacket)
  /-- CLOSE (R332). -/
  | close (p : HsPacket) (b : CloseBody)
  /-- MSG_WRITE (R318). -/
  | msgWrite (k : KftPacket)
  /-- READ_REQ (R318). -/
  | readReq (k : KftPacket)
  /-- READ_RESP (R317). -/
  | readResp (k : KftPacket)
  /-- MSG_ATOMIC (R318). -/
  | msgAtomic (k : KftPacket)
  /-- ATOMIC_RESP (R317). -/
  | atomicResp (k : KftPacket)
  /-- WRITE_ACK (R319). -/
  | writeAck (k : KftPacket)
  /-- MSG_LDG_ARRIVE (R320). -/
  | msgLdgArrive (k : KftPacket)
  /-- LDG_RELEASE (R280). -/
  | ldgRelease (k : KftPacket)
  /-- LDG_LOSS (R280). -/
  | ldgLoss (k : KftPacket)
  /-- NAK (R317). -/
  | nak (k : KftPacket)
  /-- REMOTE_WRITE (R316). -/
  | remoteWrite (ctx queue : Nat)
  /-- REMOTE_READ (R316). -/
  | remoteRead (ctx queue : Nat)
  /-- REMOTE_ATOMIC (R316). -/
  | remoteAtomic (ctx queue : Nat)
  /-- REMOTE_LANDING_ARRIVE (R316). -/
  | remoteLandingArrive (ctx queue : Nat)
  /-- KFT_SEND (R324). -/
  | kftSend (assoc room : Nat)
  /-- ACK_DELAY (R322). -/
  | ackDelay (assoc path : Nat)
  /-- RETX_TIMER (R323). -/
  | retxTimer (assoc path psn : Nat)
  /-- SEGMENT_TIMEOUT (R323). -/
  | segmentTimeout (assoc path psn : Nat)
  /-- PROBE_TIMER (R321). -/
  | probeTimer (assoc path : Nat)
  /-- PATH_MOVE (R321). -/
  | pathMove (assoc path : Nat)
  /-- REKEY_START (R330). -/
  | rekeyStart (assoc : Nat)
  /-- REKEY_TIMEOUT (R330). -/
  | rekeyTimeout (assoc : Nat)
  /-- OLD_EPOCH_ERASE (R330). -/
  | oldEpochErase (assoc : Nat)
  /-- STRANGER_ATTENTION (R333). -/
  | strangerAttention (port : Nat)
  /-- BAR2_READ (R340). -/
  | bar2Read (fn addr n : Nat)
  /-- BAR2_WRITE (R340). -/
  | bar2Write (fn addr : Nat) (bytes : List Byte)
  /-- ATT_SUMMARY_WRITE (R342). -/
  | attSummaryWrite (a : HostAccess)
  /-- ATT_REARM (R345). -/
  | attRearm (a : HostAccess)
  /-- MODERATION_TIMER (R345). -/
  | moderationTimer (fn : Nat)
  /-- VECTOR_UNMASK (R345). -/
  | vectorUnmask (fn : Nat) (enable : Bool)
  /-- BUS_MASTER_ENABLE (R345). -/
  | busMasterEnable (fn : Nat)
  /-- VF_ENABLE (R337). -/
  | vfEnable (n : Nat)
  /-- FLR_VF (R441). -/
  | flrVf (vf : Nat)
  /-- FLR_PF0 (R439). -/
  | flrPf0
  /-- PERST_N_ASSERT (R440). -/
  | perstNAssert
  /-- PERST_N_RELEASE (R436). -/
  | perstNRelease (refclk : Bool)
  /-- PCIE_LINK_UP (R435). -/
  | pcieLinkUp
  /-- REQUEST_POST (R353). -/
  | requestPost (a : HostAccess)
  /-- REQUEST_TAKE (R353). -/
  | requestTake (path : Nat)
  /-- RESPONSE_RELEASE (R353). -/
  | responseRelease (a : HostAccess)
  /-- SIDEBAND_MESSAGE (R355). -/
  | sidebandMessage (bus : Option Nat) (ep : Nat) (m : MctpMessage)
  /-- STORE_RECORD_CURRENT (R370). -/
  | storeRecordCurrent (ok : Bool)
  /-- STORE_RECOVERY (R369). -/
  | storeRecovery (image sig : List Byte)
  /-- INFO (R362). -/
  | info (path : Nat)
  /-- SENSOR_READ (R400). -/
  | sensorRead (path : Nat)
  /-- EVENT_READ (R363). -/
  | eventRead (path : Nat)
  /-- NOTIFY_READ (R363). -/
  | notifyRead (path : Nat)
  /-- COUNTER_READ (R424). -/
  | counterRead (path : Nat)
  /-- ATTEST (R379). -/
  | attest (path : Nat)
  /-- KEY_STATUS (R361). -/
  | keyStatus (path : Nat)
  /-- CTX_CREATE (R34). -/
  | ctxCreate (path : Nat)
  /-- CTX_DESTROY (R34). -/
  | ctxDestroy (path : Nat)
  /-- CTX_RESET (R38). -/
  | ctxReset (path : Nat)
  /-- CTX_PREEMPT (R287). -/
  | ctxPreempt (path : Nat)
  /-- CTX_RESUME (R288). -/
  | ctxResume (path : Nat)
  /-- CTX_DISABLE (R300). -/
  | ctxDisable (path : Nat)
  /-- LDG_MAP (R274). -/
  | ldgMap (path : Nat)
  /-- LDG_UNMAP (R274). -/
  | ldgUnmap (path : Nat)
  /-- LDG_ARM (R262). -/
  | ldgArm (path : Nat)
  /-- SQ_CREATE (R316). -/
  | sqCreate (path : Nat)
  /-- SQ_DESTROY (R316). -/
  | sqDestroy (path : Nat)
  /-- KFT_WINDOW (R318). -/
  | kftWindow (path : Nat)
  /-- REGION_CREATE (R244). -/
  | regionCreate (path : Nat)
  /-- REGION_CHANGE (R247). -/
  | regionChange (path : Nat)
  /-- REGION_DESTROY (R247). -/
  | regionDestroy (path : Nat)
  /-- STAGE2_MAP (R291). -/
  | stage2Map (path : Nat)
  /-- SEG_CREATE (R296). -/
  | segCreate (path : Nat)
  /-- SEG_MAP (R297). -/
  | segMap (path : Nat)
  /-- SEG_DESTROY (R297). -/
  | segDestroy (path : Nat)
  /-- SEG_REPAIR (R299). -/
  | segRepair (path : Nat)
  /-- CHANNEL_RETIRE (R256). -/
  | channelRetire (path : Nat)
  /-- PART_CREATE (R282). -/
  | partCreate (path : Nat)
  /-- PART_RESIZE (R286). -/
  | partResize (path : Nat)
  /-- PART_DESTROY (R301). -/
  | partDestroy (path : Nat)
  /-- DISABLE (R300). -/
  | disable (path : Nat)
  /-- REG_SET (R249). -/
  | regSet (path : Nat)
  /-- HOSTCORE_BOOT (R283). -/
  | hostcoreBoot (path : Nat)
  /-- HOSTCORE_STOP (R285). -/
  | hostcoreStop (path : Nat)
  /-- PORT_MODE (R303). -/
  | portMode (path : Nat)
  /-- FAB_ADDR (R311). -/
  | fabAddr (path : Nat)
  /-- ASSOC_SET (R327). -/
  | assocSet (path : Nat)
  /-- ASSOC_REMOVE (R332). -/
  | assocRemove (path : Nat)
  /-- POWER_CAP (R385). -/
  | powerCap (path : Nat)
  /-- THRESHOLDS (R365). -/
  | thresholds (path : Nat)
  /-- SELF_TEST (R412). -/
  | selfTest (path : Nat)
  /-- SELF_TEST_RUN (R412). -/
  | selfTestRun (n : Nat) (pass : Bool) (locator : Nat)
  /-- SELF_TEST_TIMEOUT (R412). -/
  | selfTestTimeout (n : Nat)
  /-- PREPARE_REMOVAL (R350). -/
  | prepareRemoval (path : Nat)
  /-- DEBUG_OPEN (R102). -/
  | debugOpen (path : Nat)
  /-- DEBUG_CLOSE (R102). -/
  | debugClose (path : Nat)
  /-- KEY_ENROL (R359). -/
  | keyEnrol (path : Nat)
  /-- KEY_REVOKE (R359). -/
  | keyRevoke (path : Nat)
  /-- MAKER_ALLOW (R374). -/
  | makerAllow (path : Nat)
  /-- MAKER_TOKEN (R374). -/
  | makerToken (path : Nat)
  /-- MAKER_SCOPE_LAPSE (R374). -/
  | makerScopeLapse
  /-- IDENTITY_ENROL (R373). -/
  | identityEnrol (path : Nat)
  /-- FW_WRITE (R376). -/
  | fwWrite (path : Nat)
  /-- FW_ACTIVATE (R377). -/
  | fwActivate (path : Nat)
  /-- STANDBY_READY (R377). -/
  | standbyReady
  /-- ACTIVATION_TIMEOUT (R377). -/
  | activationTimeout
  /-- FW_SET_FLOOR (R376). -/
  | fwSetFloor (path : Nat)
  /-- AUDIT_READ (R371). -/
  | auditRead (path : Nat)
  /-- STORE_STATUS (R369). -/
  | storeStatus (path : Nat)
  /-- RAIL_THROTTLE (R382). -/
  | railThrottle (rail : Nat)
  /-- THROTTLE_RELEASE_STEP (R382). -/
  | throttleReleaseStep (rail : Nat)
  /-- DROOP_STRETCH (R383). -/
  | droopStretch (g : Nat) (low : Bool)
  /-- POWER_ALLOCATION (R386). -/
  | powerAllocation (d1 d2 iin : Nat) (draws : List Nat)
  /-- PADDLE_STEP (R390). -/
  | paddleStep (g : Nat)
  /-- CLOCK_GATE_ENTRY (R395). -/
  | clockGateEntry (g : Nat)
  /-- RETENTION_ENTRY (R395). -/
  | retentionEntry (g : Nat)
  /-- GALLERY_WAKE (R395). -/
  | galleryWake (g : Nat)
  /-- MU_SLEEP (R397). -/
  | muSleep
  /-- MU_WAKE (R397). -/
  | muWake
  /-- STACK_POWER_DOWN (R397). -/
  | stackPowerDown (stack : Nat)
  /-- THERMAL_SAMPLE (R398). -/
  | thermalSample (die : Nat) (temp : Int)
  /-- CORRECTED_ATTENTION (R403). -/
  | correctedAttention (fn : Nat)
  /-- RECALIBRATION (R414). -/
  | recalibration (kind unit lane : Nat)
  /-- CTR_CFG_WRITE (R420). -/
  | ctrCfgWrite (a : HostAccess)
  /-- CTR_SAMPLE (R424). -/
  | ctrSample (a : HostAccess)
  /-- GCTR_SAMPLE (R424). -/
  | gctrSample (a : HostAccess)
  /-- TRC_CTRL_WRITE (R428). -/
  | trcCtrlWrite (a : HostAccess)
  /-- TRC_RING_WRITE (R428). -/
  | trcRingWrite (a : HostAccess)
  /-- TRACE_DRAIN (R427). -/
  | traceDrain (buffer : Nat)
  /-- STROKE_ISSUE (R180). -/
  | strokeIssue (core : Nat)
  /-- INPUT_VOLTAGE_MEASUREMENT (R381). -/
  | inputVoltageMeasurement (mv : Nat)
  /-- RAIL_OUT_OF_REGULATION (R404). -/
  | railOutOfRegulation (rail : Nat)
  /-- COOLANT_REPORT (R398). -/
  | coolantReport (inlet outlet : Int)
  /-- UNCORE_IDLE_ENTRY (R397). -/
  | uncoreIdleEntry (die : Nat)
  /-- DATA_LINK_LAYER_DOWN (R436). -/
  | dataLinkLayerDown
  /-- COMPLETION_TIMEOUT (R336). -/
  | completionTimeout (fn ctx addr : Nat)
  /-- ARP_ND_ICMP_FRAME (R311). -/
  | arpNdIcmpFrame (f : NetFrame)
  /-- STRANGER_PACKET (R333). -/
  | strangerPacket (k : KftPacket)
  /-- STAGE2_TABLE_MOVE (R292). -/
  | stage2TableMove
  /-- LANE8_PATTERN_TIMEOUT (R308). -/
  | lane8PatternTimeout (port : Nat)
  /-- HOST_CORE_ERROR (R404). -/
  | hostCoreError (h : Nat) (arch : Bool) (addr : Nat)
  /-- REPAIR_MAP_CLEAR (R416). -/
  | repairMapClear (kind a b : Nat)
  /-- INSTRUCTION_CACHE_FILL (R113). -/
  | instructionCacheFill (c : CrewId)
  deriving DecidableEq, Repr

end Sys2Proof
end

