-- ==== Sys2Proof/WellFormed.lean ====
section
/-! DEFINITION. Well-formed commands: those whose operands name units that the module has (00_scope.md R1, Table 1-1 and the rules that
number the units). A command that is not well-formed leaves every state as it is, or acts on nothing. -/

namespace Sys2Proof

/-- A crew slot of a core (R17, R77). -/
def CrewId.wf (c : CrewId) : Bool := decide (c.core < 160) && decide (c.quarter < 4) && decide (c.slot < 48)

/-- An access of one to eight bytes by a function, within BAR0 or its configuration registers (R9, R12; log entry 53). -/
def HostAccess.wf (a : HostAccess) : Bool :=
  decide (a.fn ≤ 8) && (decide (a.off < 2 ^ 26) || (decide (2 ^ 32 ≤ a.off) && decide (a.off < 2 ^ 32 + 32))) && decide (1 ≤ a.size) && decide (a.size ≤ 8) && decide (a.data < 2 ^ (8 * a.size))

/-- A packet on a sub-port (R304). -/
def KftPacket.wf (k : KftPacket) : Bool := decide (k.sub < 32)

/-- A handshake packet on a sub-port, with the fields of its header in their sizes (Table 12-3). -/
def HsPacket.wf (k : HsPacket) : Bool :=
  decide (k.sub < 32) && decide (k.head.verType < 256) && decide (k.head.flags < 256) && decide (k.head.path < 256) &&
    decide (k.head.epoch < 256) && decide (k.head.dstTag < 2 ^ 32) && decide (k.head.ctr < 2 ^ 64) && decide (k.head.psn < 2 ^ 32) &&
    decide (k.head.ts < 2 ^ 32)

/-- A handshake message, with its one-byte and four-byte fields (R328). -/
def Handshake.wf (h : Handshake) : Bool :=
  h.pkt.wf && decide (h.assoc < 256) && decide (h.epoch < 256) && decide (h.tag < 2 ^ 32)

/-- A `CLOSE`, with its fields in their sizes (log entry 20). -/
def CloseBody.wf (b : CloseBody) : Bool := decide (b.assoc < 256) && decide (b.reason < 65536)

/-- A frame of the neighbour protocols on a sub-port, of one of the five kinds (R311). -/
def NetFrame.wf (f : NetFrame) : Bool := decide (f.sub < 32) && decide (f.kind < 5)

/-- A Mitor path: a mailbox pair, or a sideband endpoint (R352, R355). -/
def pathOk (p : Nat) : Bool := decide (p ≤ 10) || decide (16 ≤ p)

/-- Whether a command is well-formed. -/
def Instr.wf : Instr → Bool
  | .registerWrite a => a.wf
  | .badRegisterAccess a _ => a.wf
  | .powerOn _ => true
  | .mitorReady => true
  | .pwrEnAssert => true
  | .pwrEnDeassert => true
  | .supplyLoss => true
  | .supplyLockout => true
  | .lockoutRecovery => true
  | .mitorSoftReset => true
  | .flitReplay link _ => decide (link < 16)
  | .dieLaneFail link _ => decide (link < 16)
  | .lockstepMismatch unit => decide (unit < 2)
  | .standbySelfTest _ => true
  | .ingressGranule fn ctx _ _ => decide (fn ≤ 8) && decide (ctx < 64)
  | .packetDecode => true
  | .packetSkip ctx => decide (ctx < 64)
  | .nop ctx => decide (ctx < 64)
  | .setIds ctx => decide (ctx < 64)
  | .timestamp ctx => decide (ctx < 64)
  | .report ctx => decide (ctx < 64)
  | .fence ctx => decide (ctx < 64)
  | .landingArrive ctx => decide (ctx < 64)
  | .landingWait ctx => decide (ctx < 64)
  | .ifFlag ctx => decide (ctx < 64)
  | .elsePacket ctx => decide (ctx < 64)
  | .endIf ctx => decide (ctx < 64)
  | .fetchChain ctx => decide (ctx < 64)
  | .chainFault ctx => decide (ctx < 64)
  | .chainEnd ctx => decide (ctx < 64)
  | .copy ctx => decide (ctx < 64)
  | .fill ctx => decide (ctx < 64)
  | .launchCrews ctx => decide (ctx < 64)
  | .launchCox ctx => decide (ctx < 64)
  | .broadcastCox ctx => decide (ctx < 64)
  | .packetComplete ctx _ => decide (ctx < 64)
  | .faultCreditRecord ctx => decide (ctx < 64)
  | .packetRetire ctx => decide (ctx < 64)
  | .crewPlace core => decide (core < 160)
  | .crewLeave c => c.wf
  | .launchFaultSignal _ core => decide (core < 160)
  | .watchdog c => c.wf
  | .resultArrival c _ => c.wf
  | .scratchRetry c => c.wf
  | .iadd c => c.wf
  | .isub c => c.wf
  | .imul c => c.wf
  | .imulh c => c.wf
  | .imad c => c.wf
  | .imin c => c.wf
  | .imax c => c.wf
  | .iabs c => c.wf
  | .andOp c => c.wf
  | .orOp c => c.wf
  | .xorOp c => c.wf
  | .andn c => c.wf
  | .shl c => c.wf
  | .shr c => c.wf
  | .popc c => c.wf
  | .clz c => c.wf
  | .brev c => c.wf
  | .bfe c => c.wf
  | .bfi c => c.wf
  | .idiv c => c.wf
  | .irem c => c.wf
  | .dadd c => c.wf
  | .dsub c => c.wf
  | .dmul c => c.wf
  | .dfma c => c.wf
  | .dmin c => c.wf
  | .dmax c => c.wf
  | .ddiv c => c.wf
  | .dsqrt c => c.wf
  | .fadd c => c.wf
  | .fsub c => c.wf
  | .fmul c => c.wf
  | .ffma c => c.wf
  | .fmin c => c.wf
  | .fmax c => c.wf
  | .fdiv c => c.wf
  | .fsqrt c => c.wf
  | .frcp c => c.wf
  | .frsq c => c.wf
  | .fexp2 c => c.wf
  | .flog2 c => c.wf
  | .hadd2 c => c.wf
  | .hsub2 c => c.wf
  | .hmul2 c => c.wf
  | .hfma2 c => c.wf
  | .hmin2 c => c.wf
  | .hmax2 c => c.wf
  | .hdot2 c => c.wf
  | .cvt c => c.wf
  | .frnd c => c.wf
  | .icmp c => c.wf
  | .dcmp c => c.wf
  | .fcmp c => c.wf
  | .sel c => c.wf
  | .plop c => c.wf
  | .brc c => c.wf
  | .brx c => c.wf
  | .call c => c.wf
  | .join c => c.wf
  | .exitOp c => c.wf
  | .cbar c => c.wf
  | .ld c => c.wf
  | .st c => c.wf
  | .ldu c => c.wf
  | .memoryFence c => c.wf
  | .aadd c => c.wf
  | .amin c => c.wf
  | .amax c => c.wf
  | .aand c => c.wf
  | .aor c => c.wf
  | .axor c => c.wf
  | .axch c => c.wf
  | .acas c => c.wf
  | .afadd c => c.wf
  | .adfadd c => c.wf
  | .larrive c => c.wf
  | .lwait c => c.wf
  | .larrwait c => c.wf
  | .ltest c => c.wf
  | .shflIdx c => c.wf
  | .shflUp c => c.wf
  | .shflDown c => c.wf
  | .shflXor c => c.wf
  | .voteAny c => c.wf
  | .voteAll c => c.wf
  | .ballot c => c.wf
  | .reduxAdd c => c.wf
  | .reduxMin c => c.wf
  | .reduxMax c => c.wf
  | .ufrom c => c.wf
  | .fdma c => c.wf
  | .pfL1 c => c.wf
  | .pfGc c => c.wf
  | .invL1 c => c.wf
  | .invL1all c => c.wf
  | .invIc c => c.wf
  | .nopInstruction c => c.wf
  | .mov c => c.wf
  | .umov c => c.wf
  | .rds c => c.wf
  | .wrs c => c.wf
  | .brk c => c.wf
  | .haltCrew path => pathOk path
  | .readState path => pathOk path
  | .writeState path => pathOk path
  | .stepCrew path => pathOk path
  | .resume path => pathOk path
  | .coxProgramLoad core ctx _ => decide (core < 160) && decide (ctx < 64)
  | .programStart core => decide (core < 160)
  | .load core => decide (core < 160)
  | .result core => decide (core < 160)
  | .slice core => decide (core < 160)
  | .slicePass core => decide (core < 160)
  | .rowCommit core => decide (core < 160)
  | .resultRowLands core => decide (core < 160)
  | .toA core => decide (core < 160)
  | .toB core => decide (core < 160)
  | .stg core => decide (core < 160)
  | .srToA core => decide (core < 160)
  | .srToB core => decide (core < 160)
  | .store core => decide (core < 160)
  | .streamerDelivery core => decide (core < 160)
  | .stagingLands core => decide (core < 160)
  | .storeLands core => decide (core < 160)
  | .setScalar core => decide (core < 160)
  | .addScalar core => decide (core < 160)
  | .loop core => decide (core < 160)
  | .br core => decide (core < 160)
  | .xBrc core => decide (core < 160)
  | .cmpcfg core => decide (core < 160)
  | .brf core => decide (core < 160)
  | .endProgram core => decide (core < 160)
  | .arrive core => decide (core < 160)
  | .wait core => decide (core < 160)
  | .arrwait core => decide (core < 160)
  | .waitgen core => decide (core < 160)
  | .flagset core => decide (core < 160)
  | .flagclr core => decide (core < 160)
  | .mark core => decide (core < 160)
  | .strokeLimit core => decide (core < 160)
  | .drainEnd core => decide (core < 160)
  | .coxLaunchComplete _ => true
  | .fdmaChainStart core => decide (core < 160)
  | .descriptorCopy core => decide (core < 160)
  | .descriptorFill core => decide (core < 160)
  | .convertDesc core => decide (core < 160)
  | .linkDesc core => decide (core < 160)
  | .fdmaChainComplete core => decide (core < 160)
  | .badDescClear a => a.wf
  | .gcEnable a => a.wf
  | .gcDisable a => a.wf
  | .sliceDisabled g => decide (g < 20)
  | .gcInvalidate a => a.wf
  | .invalidateDone g => decide (g < 20)
  | .gcWaysWrite a => a.wf
  | .wayDisable g way _ => decide (g < 20) && decide (way < 16)
  | .rdShared part _ agent => decide (part < 8) && decide (agent < 200)
  | .rdUnique part _ agent => decide (part < 8) && decide (agent < 200)
  | .wrThrough part _ agent _ _ => decide (part < 8) && decide (agent < 200)
  | .atomic part _ agent _ _ _ _ _ _ => decide (part < 8) && decide (agent < 200)
  | .ioRead part _ agent => decide (part < 8) && decide (agent < 200)
  | .ioWrite part _ agent _ _ => decide (part < 8) && decide (agent < 200)
  | .writeback part _ agent _ => decide (part < 8) && decide (agent < 200)
  | .evictClean part _ agent => decide (part < 8) && decide (agent < 200)
  | .dataFill part _ => decide (part < 8)
  | .inv part _ agent => decide (part < 8) && decide (agent < 200)
  | .downgrade part _ agent => decide (part < 8) && decide (agent < 200)
  | .ack part _ => decide (part < 8)
  | .invAck part _ agent _ => decide (part < 8) && decide (agent < 200)
  | .downAck part _ agent _ => decide (part < 8) && decide (agent < 200)
  | .compAck part _ agent => decide (part < 8) && decide (agent < 200)
  | .holdExpiry part _ agent => decide (part < 8) && decide (agent < 200)
  | .hbmRead pc _ half _ => decide (pc < 512) && decide (half < 2)
  | .patrolScrub stack _ => decide (stack < 8)
  | .rowRepair pc _ => decide (pc < 512)
  | .lineMove => true
  | .stackTempReport stack _ => decide (stack < 8)
  | .slotReturn _ => true
  | .timeout _ _ => true
  | .landingMove => true
  | .mirrorForward _ => true
  | .ldgArrive h ctx _ => decide (h < 40) && decide (ctx < 64)
  | .preemptSave ctx => decide (ctx < 64)
  | .preemptTimeout ctx => decide (ctx < 64)
  | .xltInvContext a => a.wf
  | .xltInvPage a => a.wf
  | .invalidationDone ctx => decide (ctx < 64)
  | .segmentRestore seg _ => decide (seg < 16)
  | .segmentHoldExpiry seg _ => decide (seg < 16)
  | .drainTimeout _ => true
  | .drainComplete _ => true
  | .coreSubstitution core => decide (core < 160)
  | .linkUp sub => decide (sub < 32)
  | .trainRetry sub => decide (sub < 32)
  | .offer sub _ => decide (sub < 32)
  | .accept sub _ => decide (sub < 32)
  | .offerRepeat port => decide (port < 8)
  | .spareAssign port sub => decide (port < 8) && decide (sub < 32)
  | .laneFail port _ => decide (port < 8)
  | .shadowReq sub _ => decide (sub < 32)
  | .shadowOn sub _ => decide (sub < 32)
  | .swapDone sub _ _ => decide (sub < 32)
  | .shadowOff sub _ _ => decide (sub < 32)
  | .shadowReqRepeat port => decide (port < 8)
  | .foreign sub _ => decide (sub < 32)
  | .kftAck k => k.wf
  | .probe k => k.wf
  | .hello h => h.wf
  | .reply h => h.wf
  | .confirm k => k.wf
  | .close p b => p.wf && b.wf
  | .msgWrite k => k.wf
  | .readReq k => k.wf
  | .readResp k => k.wf
  | .msgAtomic k => k.wf
  | .atomicResp k => k.wf
  | .writeAck k => k.wf
  | .msgLdgArrive k => k.wf
  | .ldgRelease k => k.wf
  | .ldgLoss k => k.wf
  | .nak k => k.wf
  | .remoteWrite ctx queue => decide (ctx < 64) && decide (queue < 8)
  | .remoteRead ctx queue => decide (ctx < 64) && decide (queue < 8)
  | .remoteAtomic ctx queue => decide (ctx < 64) && decide (queue < 8)
  | .remoteLandingArrive ctx queue => decide (ctx < 64) && decide (queue < 8)
  | .kftSend assoc _ => decide (assoc < 128)
  | .ackDelay assoc path => decide (assoc < 128) && decide (path < 64)
  | .retxTimer assoc path _ => decide (assoc < 128) && decide (path < 64)
  | .segmentTimeout assoc path _ => decide (assoc < 128) && decide (path < 64)
  | .probeTimer assoc path => decide (assoc < 128) && decide (path < 64)
  | .pathMove assoc path => decide (assoc < 128) && decide (path < 64)
  | .rekeyStart assoc => decide (assoc < 128)
  | .rekeyTimeout assoc => decide (assoc < 128)
  | .oldEpochErase assoc => decide (assoc < 128)
  | .strangerAttention port => decide (port < 8)
  | .bar2Read fn _ _ => decide (fn ≤ 8)
  | .bar2Write fn _ _ => decide (fn ≤ 8)
  | .attSummaryWrite a => a.wf
  | .attRearm a => a.wf
  | .moderationTimer fn => decide (fn ≤ 8)
  | .vectorUnmask fn _ => decide (fn ≤ 8)
  | .busMasterEnable fn => decide (fn ≤ 8)
  | .vfEnable n => decide (n ≤ 8)
  | .flrVf vf => (decide (1 ≤ vf) && decide (vf ≤ 8))
  | .flrPf0 => true
  | .perstNAssert => true
  | .perstNRelease _ => true
  | .pcieLinkUp => true
  | .requestPost a => a.wf
  | .requestTake path => pathOk path
  | .responseRelease a => a.wf
  | .sidebandMessage _ _ _ => true
  | .storeRecordCurrent _ => true
  | .storeRecovery _ _ => true
  | .info path => pathOk path
  | .sensorRead path => pathOk path
  | .eventRead path => pathOk path
  | .notifyRead path => pathOk path
  | .counterRead path => pathOk path
  | .attest path => pathOk path
  | .keyStatus path => pathOk path
  | .ctxCreate path => pathOk path
  | .ctxDestroy path => pathOk path
  | .ctxReset path => pathOk path
  | .ctxPreempt path => pathOk path
  | .ctxResume path => pathOk path
  | .ctxDisable path => pathOk path
  | .ldgMap path => pathOk path
  | .ldgUnmap path => pathOk path
  | .ldgArm path => pathOk path
  | .sqCreate path => pathOk path
  | .sqDestroy path => pathOk path
  | .kftWindow path => pathOk path
  | .regionCreate path => pathOk path
  | .regionChange path => pathOk path
  | .regionDestroy path => pathOk path
  | .stage2Map path => pathOk path
  | .segCreate path => pathOk path
  | .segMap path => pathOk path
  | .segDestroy path => pathOk path
  | .segRepair path => pathOk path
  | .channelRetire path => pathOk path
  | .partCreate path => pathOk path
  | .partResize path => pathOk path
  | .partDestroy path => pathOk path
  | .disable path => pathOk path
  | .regSet path => pathOk path
  | .hostcoreBoot path => pathOk path
  | .hostcoreStop path => pathOk path
  | .portMode path => pathOk path
  | .fabAddr path => pathOk path
  | .assocSet path => pathOk path
  | .assocRemove path => pathOk path
  | .powerCap path => pathOk path
  | .thresholds path => pathOk path
  | .selfTest path => pathOk path
  | .selfTestRun _ _ _ => true
  | .selfTestTimeout _ => true
  | .prepareRemoval path => pathOk path
  | .debugOpen path => pathOk path
  | .debugClose path => pathOk path
  | .keyEnrol path => pathOk path
  | .keyRevoke path => pathOk path
  | .makerAllow path => pathOk path
  | .makerToken path => pathOk path
  | .makerScopeLapse => true
  | .identityEnrol path => pathOk path
  | .fwWrite path => pathOk path
  | .fwActivate path => pathOk path
  | .standbyReady => true
  | .activationTimeout => true
  | .fwSetFloor path => pathOk path
  | .auditRead path => pathOk path
  | .storeStatus path => pathOk path
  | .railThrottle rail => decide (rail < 24)
  | .throttleReleaseStep rail => decide (rail < 24)
  | .droopStretch g _ => decide (g < 20)
  | .powerAllocation _ _ _ _ => true
  | .paddleStep g => decide (g < 20)
  | .clockGateEntry g => decide (g < 20)
  | .retentionEntry g => decide (g < 20)
  | .galleryWake g => decide (g < 20)
  | .muSleep => true
  | .muWake => true
  | .stackPowerDown stack => decide (stack < 8)
  | .thermalSample die _ => decide (die ≤ 4)
  | .correctedAttention fn => decide (fn ≤ 8)
  | .recalibration _ _ _ => true
  | .ctrCfgWrite a => a.wf
  | .ctrSample a => a.wf
  | .gctrSample a => a.wf
  | .trcCtrlWrite a => a.wf
  | .trcRingWrite a => a.wf
  | .traceDrain _ => true
  | .strokeIssue core => decide (core < 160)
  | .inputVoltageMeasurement _ => true
  | .railOutOfRegulation rail => decide (rail < 24)
  | .coolantReport _ _ => true
  | .uncoreIdleEntry die => decide (die ≤ 4)
  | .dataLinkLayerDown => true
  | .completionTimeout fn ctx _ => decide (fn ≤ 8) && decide (ctx < 64)
  | .arpNdIcmpFrame f => f.wf
  | .strangerPacket k => k.wf
  | .stage2TableMove => true
  | .lane8PatternTimeout port => decide (port < 8)
  | .hostCoreError h _ _ => decide (h < 40)
  | .repairMapClear _ _ _ => true
  | .instructionCacheFill c => c.wf

end Sys2Proof
end

