-- ==== Sys2Proof/Decode.lean ====
section
/-! DEFINITION. The command that a word spells by the bits of the opcode table. No row of spec/opcode_table.json has bits: a command of this
block is an event at its boundary or a step of one of its engines, and no word spells it. The words that the block's own
programs are made of (thread instructions, packets, strokes, tile descriptors, requests) are read from State by the meanings
that use them (Threads.lean, Feeder.lean, Cox.lean, Streams.lean, MitorOps.lean). -/

namespace Sys2Proof

/-- The command that a word of nbits bits spells: none, since no row of the table gives bits. -/
def decodeTableWord (_nbits _w : Nat) : Option Instr := none

end Sys2Proof
end

