-- ==== Sys2Proof/Config.lean ====
section
/-! DEFINITION. What an implementation fixes and what the spec leaves open: every constant here is opaque, so
that no proof can see its value and a claim holds whatever it is. -/

namespace Sys2Proof

/-- The wall time, in ns, that passes before the k-th reading of the module timestamp (R67): time moves forward by
an amount that no rule fixes. Log entry 2. -/
opaque Config.elapsed : Nat → Nat

/-- The strokes that pass before the k-th reading of a core's CLOCK (R77). Log entry 2. -/
opaque Config.elapsedStrokes : Nat → Nat

/-- What the save of a crew's state writes into its core's part of the save area, the k-th time: offsets and bytes. R287 keeps the layout private to
the module. Log entry 5. -/
opaque Config.saveArea : Nat → List (Nat × List Byte)

/-- What host memory, outside the boundary (R1), answers at its k-th read for an address. Log entry 3. -/
opaque Config.hostByte : Nat → Nat → Byte

/-- A choice the spec leaves to the module, the k-th one, among n alternatives (used modulo n). Log entry 4. -/
opaque Config.choice : Nat → Nat

/-- A value the spec leaves unstated, the k-th one met. Log entry 5. -/
opaque Config.freeValue : Nat → U64

/-- FRCP, FRSQ, FEXP2 and FLOG2 are each a fixed function of their input (R121), of which the spec states special
cases and an error bound. Log entry 6. -/
opaque Config.frcp : U32 → U32
opaque Config.frsq : U32 → U32
opaque Config.fexp2 : U32 → U32
opaque Config.flog2 : U32 → U32

/-- The flags, of the five of R101, that operation k of FRCP, FRSQ, FEXP2 and FLOG2 raises for an input outside the table
of R121, which states none. Log entry 6. -/
opaque Config.sfuFlags : Nat → U32 → Nat

/-- What an MX-integer element decodes to whose value lies outside the format: R201 calls every decoding exact, yet the element −128 of MXINT8
and −8 of MXINT4 at scale 254 stand for −2^128, which neither FP32 nor BF16 holds. By the format's width and the element. Log entry 6. -/
opaque Config.mxOutside : Nat → Int → U32

/-- First 32 bytes of HMAC-SHA-512 (Table 14-6): key, message. Log entry 7. -/
opaque Config.hmacTag : List Byte → List Byte → List Byte

/-- SHA-512 (64 bytes). Log entry 7. -/
opaque Config.sha512 : List Byte → List Byte

/-- Whether an Ed25519 signature verifies: public key or certificate, message, signature. Log entry 7. -/
opaque Config.ed25519Verify : List Byte → List Byte → List Byte → Bool

/-- An Ed25519 signature: private key, message. Log entry 7. -/
opaque Config.ed25519Sign : List Byte → List Byte → List Byte

/-- X25519: private value, public value. Log entry 7. -/
opaque Config.x25519 : List Byte → List Byte → List Byte

/-- HKDF-SHA-512 expand after extract: salt, input key, info, length. Log entry 7. -/
opaque Config.hkdf : List Byte → List Byte → List Byte → Nat → List Byte

/-- AES-256-GCM open: key, nonce, additional data, sealed text with its tag; none where the tag fails. Log entry 7. -/
opaque Config.gcmOpen : List Byte → List Byte → List Byte → List Byte → Option (List Byte)

/-- AES-256-GCM seal: key, nonce, additional data, plain text. Log entry 7. -/
opaque Config.gcmSeal : List Byte → List Byte → List Byte → List Byte → List Byte

/-- The directory set of a line at its home, of 8,192 (R237 states no index). Log entry 4. -/
opaque Config.directorySet : Nat → Nat

/-- The row of a line within its pseudo-channel (R246: fixed, not stated). Log entry 4. -/
opaque Config.hbmRow : Nat → Nat

/-- CRC-32C of the given bytes (Tables 14-9 and 14-10). Log entry 7. -/
opaque Config.crc32c : List Byte → U32

/-- The answer to an MCTP control message, which DSP0236 lays down and the spec does not: endpoint ID, message. Log entry 55. -/
opaque Config.mctpAnswer : Nat → List Byte → List Byte

/-- Zwiulun's PCI-SIG-assigned Vendor ID, which the spec does not print (Table 0-2). Log entry 8. -/
opaque Config.vendorId : U16

/-- The module's serial number (Table 0-2). Log entry 8. -/
opaque Config.serial : U64

/-- The bytes of the boot ROM (R26), measured by R379. Log entry 8. -/
opaque Config.bootRom : List Byte

/-- The seed that the SRAM PUF gives with its helper data (R372); none where reconstruction fails. Log entry 8. -/
opaque Config.pufSeed : List Byte → Option (List Byte)

/-- The public value of an X25519 private value, and the public key of an Ed25519 private key. Log entry 7. -/
opaque Config.x25519Public : List Byte → List Byte
opaque Config.ed25519Public : List Byte → List Byte

/-- The key hash (64 bytes) of a device certificate that chains to the maker root of its stepping; none for another. Log
entry 7. -/
opaque Config.deviceKeyHash : List Byte → Option (List Byte)

/-- The public key and partition index that a partition certificate binds, if the device certificate's key has signed it
(device certificate, partition certificate). Log entry 7. -/
opaque Config.partCertKey : List Byte → List Byte → Option (List Byte × Nat)

/-- The partition certificate (X.509, R375): the signing seed, partition public key, serial, index and generation. Log entry
7. -/
opaque Config.partCert : List Byte → List Byte → U64 → Nat → Nat → List Byte

/-- The first MAC address of the block in the identity certificate (R311). Log entry 8. -/
opaque Config.macBase : Nat

/-- The MAC address of a neighbour that has not been heard yet (R311). Log entry 3. -/
opaque Config.neighbourMac : Nat → List Byte → List Byte

/-- The SVN and the version of a firmware image (a slot's bytes by offset, R376) whose chain, signature and digest verify under
the maker root; none for another. Log entry 7. -/
opaque Config.fwImage : Map Byte → Option (Nat × Nat)

/-- SHA-512 of a firmware image. Log entry 7. -/
opaque Config.fwDigest : Map Byte → List Byte

/-- SHA-512 of what R379 measures of the configuration and of the partition layout, whose serial form no rule gives. Log entry
8. -/
opaque Config.measure : List Nat → List Byte

/-- The public key of a maker key certificate that is certified under the maker root; none for another. Log entry 7. -/
opaque Config.makerCertKey : List Byte → Option (List Byte)

/-- The kind byte of a stack entry in a crew's debug state (Table 17-10), which no rule numbers: 0 a join entry, 1 a runnable pending
entry, 2 one that waits on a crew barrier, 3 on a landing; and the barrier byte of an entry that waits on no barrier. Log entry 8. -/
opaque Config.stackKind : Nat → Byte
opaque Config.noBarrier : Byte

/-- The field that carries the current path's mask, `BB_COUNT` and the fault record (code, address, program counter, mask, thread) in a
response to Read state (Table 3-8), for which Table 17-10 gives no type. Log entry 50. -/
opaque Config.pathFields : List Nat → List Byte

/-- Whether a store image is signed by the maker for this module's serial (R369): image, signature. Log entry 7. -/
opaque Config.recoveryOk : List Byte → List Byte → Bool

end Sys2Proof
end

