-- ==== Sys2Proof/Machine/Util.lean ====
section
/-! DEFINITION. Sparse data by key, lists, bit fields and byte order: the helpers that every family of commands
uses. All of them recurse on lists or on numbers, so that the kernel can evaluate them. -/

namespace Sys2Proof.Machine

/-! ### Sparse data -/

/-- What a sparse map holds at a key: its entry, or the value d that an unlisted key reads as. -/
def mget {α : Type} (d : α) : Map α → Nat → α
  | [], _ => d
  | (k', v) :: m, k => if k' = k then v else if k < k' then d else mget d m k

/-- Puts v at key k, keys rising, whatever v is. -/
def minsert {α : Type} : Map α → Nat → α → Map α
  | [], k, v => [(k, v)]
  | (k', v') :: m, k, v =>
    if k < k' then (k, v) :: (k', v') :: m
    else if k = k' then (k, v) :: m
    else (k', v') :: minsert m k v

/-- Takes the entry at key k out. -/
def merase {α : Type} : Map α → Nat → Map α
  | [], _ => []
  | (k', v') :: m, k => if k' = k then m else if k < k' then (k', v') :: m else (k', v') :: merase m k

/-- Writes v at key k and keeps the canonical form: a value equal to d is not listed. -/
def mset {α : Type} [DecidableEq α] (d : α) (m : Map α) (k : Nat) (v : α) : Map α :=
  if v = d then merase m k else minsert m k v

/-- Whether a sparse map is in canonical form for the value d: keys strictly rising, no entry equal to d. -/
def mwf {α : Type} [DecidableEq α] (d : α) : Map α → Bool
  | [] => true
  | [(_, v)] => decide (v ≠ d)
  | (k, v) :: (k', v') :: m => decide (v ≠ d) && decide (k < k') && mwf d ((k', v') :: m)

/-- The entry at key k, if listed. -/
def mfind {α : Type} (m : Map α) (k : Nat) : Option α := (m.find? (fun e => e.1 = k)).map (·.2)

/-- Keeps only the entries whose key and value satisfy p. -/
def mkeep {α : Type} (m : Map α) (p : Nat → α → Bool) : Map α := m.filter (fun e => p e.1 e.2)

/-- Applies f to every listed entry that satisfies p. -/
def mmapVals {α : Type} (m : Map α) (f : Nat → α → α) : Map α := m.map (fun e => (e.1, f e.1 e.2))

/-- The lowest key below bound that is not listed. -/
def mfree {α : Type} (m : Map α) (bound : Nat) : Option Nat :=
  (List.range bound).find? (fun k => (mfind m k).isNone)

/-- Puts x in front of the first element whose rank is no less. -/
def insertBy {α : Type} (rank : α → Nat) (x : α) : List α → List α
  | [] => [x]
  | y :: ys => if rank x ≤ rank y then x :: y :: ys else y :: insertBy rank x ys

/-- A list in rising order of rank; elements of one rank keep their order. -/
def sortBy {α : Type} (rank : α → Nat) (l : List α) : List α := l.foldr (insertBy rank) []

/-! ### Bits, fields and byte order -/

/-- Bits lo to lo+len-1 of a number. -/
def bits (v lo len : Nat) : Nat := (v / 2 ^ lo) % 2 ^ len

/-- Bit i of a number. -/
def bit (v i : Nat) : Bool := (v / 2 ^ i) % 2 = 1

/-- A Boolean as a bit. -/
def b2n (b : Bool) : Nat := if b then 1 else 0

/-- v with its bits lo to lo+len-1 replaced by the low bits of f. -/
def setBits (v lo len f : Nat) : Nat :=
  v - bits v lo len * 2 ^ lo + (f % 2 ^ len) * 2 ^ lo

/-- v with bit i set or clear. -/
def setBit (v i : Nat) (b : Bool) : Nat := setBits v i 1 (b2n b)

/-- The number whose n low bits are read as a two's-complement integer. -/
def sext (v n : Nat) : Int :=
  let w := v % 2 ^ n
  if w < 2 ^ (n - 1) then (w : Int) else (w : Int) - (2 : Int) ^ n

/-- An integer modulo 2^n. -/
def toMod (z : Int) (n : Nat) : Nat := (z % (2 : Int) ^ n).toNat

/-- The bits below 2^n of v that are set, counted. -/
def popcount : Nat → Nat → Nat
  | 0, _ => 0
  | n + 1, v => (if bit v n then 1 else 0) + popcount n v

/-- The positions below n at which v has a 1, rising. -/
def bitList (n v : Nat) : List Nat := (List.range n).filter (fun i => bit v i)

/-- The mask with a 1 at each listed position. -/
def maskOf : List Nat → Nat
  | [] => 0
  | i :: is => 2 ^ i ||| maskOf is

/-- The n low bytes of v, little-endian (spec 00_scope.md R9). -/
def toBytes : Nat → Nat → List Byte
  | 0, _ => []
  | n + 1, v => BitVec.ofNat 8 v :: toBytes n (v / 256)

/-- The number that bytes spell, little-endian. -/
def ofBytes : List Byte → Nat
  | [] => 0
  | b :: bs => b.toNat + 256 * ofBytes bs

/-- The n-byte little-endian field at an offset of a byte string, absent bytes reading zero. -/
def field (bs : List Byte) (off n : Nat) : Nat := ofBytes ((bs.drop off).take n)

/-- n bytes of value zero. -/
def zeros (n : Nat) : List Byte := List.replicate n 0

/-- A byte string cut or zero-filled to n bytes. -/
def fit (n : Nat) (bs : List Byte) : List Byte := (bs ++ zeros (n - bs.length)).take n

/-- Reverses the n bits of v. -/
def bitReverse : Nat → Nat → Nat
  | 0, _ => 0
  | n + 1, v => (if bit v 0 then 2 ^ n else 0) + bitReverse n (v / 2)

/-- The number of bits needed to write v: 0 for 0, else 1 + the position of its leading one. -/
def bitLen (v : Nat) : Nat := if v = 0 then 0 else Nat.log2 v + 1

/-- Rounds up the quotient. -/
def ceilDiv (a b : Nat) : Nat := if b = 0 then 0 else (a + b - 1) / b

/-! ### Lists -/

/-- The position of an element. -/
def indexOf? {α : Type} [DecidableEq α] (l : List α) (x : α) : Option Nat :=
  let i := l.findIdx (fun y => decide (y = x))
  if i < l.length then some i else none

/-- Inserts a number into a rising list without repeats. -/
def sinsert : List Nat → Nat → List Nat
  | [], x => [x]
  | y :: ys, x => if x < y then x :: y :: ys else if x = y then y :: ys else y :: sinsert ys x

/-- Takes a number out of a list. -/
def sremove (l : List Nat) (x : Nat) : List Nat := l.filter (fun y => y ≠ x)

/-- Sums a list. -/
def sum (l : List Nat) : Nat := l.foldl (· + ·) 0

/-- The least element, or d for the empty list. -/
def minOf (d : Nat) (l : List Nat) : Nat := l.foldl min d

/-- Applies f to the element at position i. -/
def modifyAt {α : Type} (l : List α) (i : Nat) (f : α → α) : List α :=
  l.mapIdx (fun j x => if j = i then f x else x)

end Sys2Proof.Machine
end

