-- ==== Sys2Proof/Machine/Float.lean ====
section
/-! DEFINITION. Floating point (03_crew_execution.md R98 to R101, 04 R121 to R124, 05 R154): every result is formed exactly,
as a sign, a natural number and a power of two, and rounded once. Flags are a mask in the order of `FPFLAGS`. -/

namespace Sys2Proof.Machine

/-- An IEEE 754 binary format: exponent bits and stored fraction bits. -/
structure Fmt where
  eb : Nat
  mb : Nat
  deriving DecidableEq, Repr

def fp64 : Fmt := ⟨11, 52⟩
def fp32 : Fmt := ⟨8, 23⟩
def fp16 : Fmt := ⟨5, 10⟩
def bf16 : Fmt := ⟨8, 7⟩

def Fmt.bias (f : Fmt) : Nat := 2 ^ (f.eb - 1) - 1
def Fmt.width (f : Fmt) : Nat := 1 + f.eb + f.mb
/-- The exponent of the least subnormal. -/
def Fmt.qmin (f : Fmt) : Int := 1 - (f.bias : Int) - (f.mb : Int)

/-- A datum: the value of a finite one is m × 2^e, negated where neg is set. -/
inductive Fp where
  | nan (signalling : Bool)
  | inf (neg : Bool)
  | zero (neg : Bool)
  | fin (neg : Bool) (m : Nat) (e : Int)
  deriving DecidableEq, Repr

/-- The flags of R101. -/
def fInvalid : Nat := 1
def fDivZero : Nat := 2
def fOverflow : Nat := 4
def fUnderflow : Nat := 8
def fInexact : Nat := 16

/-- Reads the bits of a format. -/
def Fmt.unpack (f : Fmt) (w : Nat) : Fp :=
  let neg := bit w (f.eb + f.mb)
  let e := bits w f.mb f.eb
  let m := bits w 0 f.mb
  if e = 2 ^ f.eb - 1 then
    if m = 0 then .inf neg else .nan (!bit m (f.mb - 1))
  else if e = 0 then
    if m = 0 then .zero neg else .fin neg m f.qmin
  else .fin neg (2 ^ f.mb + m) (f.qmin + (e : Int) - 1)

/-- The bits of a sign, exponent field and fraction. -/
def Fmt.pack (f : Fmt) (neg : Bool) (e m : Nat) : Nat := (b2n neg * 2 ^ f.eb + e) * 2 ^ f.mb + m

/-- The canonical quiet NaN (R99). -/
def Fmt.qnan (f : Fmt) : Nat := f.pack false (2 ^ f.eb - 1) (2 ^ (f.mb - 1))
def Fmt.infinity (f : Fmt) (neg : Bool) : Nat := f.pack neg (2 ^ f.eb - 1) 0
def Fmt.nought (f : Fmt) (neg : Bool) : Nat := f.pack neg 0 0

/-- Whether the part cut off, rem of 2^sh with more below if sticky, rounds the kept part up: 0 nearest-even, 1 toward
zero, 2 toward +∞, 3 toward −∞ (Table 4-3). -/
def roundUp (mode : Nat) (neg : Bool) (kept rem sh : Nat) (sticky : Bool) : Bool :=
  let some' := decide (rem ≠ 0) || sticky
  match mode with
  | 0 => if sh = 0 then false else
      let half := 2 ^ (sh - 1)
      decide (half < rem) || (decide (rem = half) && (sticky || decide (kept % 2 = 1)))
  | 1 => false
  | 2 => some' && !neg
  | _ => some' && neg

/-- Cuts m × 2^e to multiples of 2^q and rounds; the answer is the kept number and whether anything was lost. -/
def cut (mode : Nat) (neg : Bool) (m : Nat) (e q : Int) (sticky : Bool) : Nat × Bool :=
  if q ≤ e then (m * 2 ^ (e - q).toNat, sticky)
  else
    let sh := (q - e).toNat
    let kept := m / 2 ^ sh
    let rem := m % 2 ^ sh
    (kept + b2n (roundUp mode neg kept rem sh sticky), decide (rem ≠ 0) || sticky)

/-- Rounds m × 2^e, m > 0, to a format (R98): bits and flags. Tininess is detected after rounding. -/
def Fmt.round (f : Fmt) (mode : Nat) (neg : Bool) (m : Nat) (e : Int) (sticky : Bool := false) : Nat × Nat :=
  let lead := e + (bitLen m : Int) - 1
  let q := max (lead - (f.mb : Int)) f.qmin
  let (k, lost) := cut mode neg m e q sticky
  let (k, q) := if k = 2 ^ (f.mb + 1) then (2 ^ f.mb, q + 1) else (k, q)
  let field := (q - f.qmin + 1).toNat
  if 2 ^ f.mb ≤ k ∧ 2 ^ f.eb - 1 ≤ field then
    let toInf := decide (mode = 0) || (decide (mode = 2) && !neg) || (decide (mode = 3) && neg)
    (if toInf then f.infinity neg else f.pack neg (2 ^ f.eb - 2) (2 ^ f.mb - 1), fOverflow + fInexact)
  else
    let emin := f.qmin + (f.mb : Int)
    let tiny :=
      if emin ≤ lead then false
      else if lead < emin - 1 then true
      else decide ((cut mode neg m e (lead - (f.mb : Int)) sticky).1 < 2 ^ (f.mb + 1))
    let fl := if lost then fInexact + (if tiny then fUnderflow else 0) else 0
    if k < 2 ^ f.mb then (f.pack neg 0 k, fl) else (f.pack neg field (k - 2 ^ f.mb), fl)

/-- A signed exact value rounded to a format; zero has the stated sign. -/
def Fmt.roundInt (f : Fmt) (mode : Nat) (z : Int) (e : Int) (zeroNeg : Bool) : Nat × Nat :=
  if z = 0 then (f.nought zeroNeg, 0) else f.round mode (decide (z < 0)) z.natAbs e

/-! ### Exact terms -/

def Fp.neg : Fp → Bool
  | .nan _ => false
  | .inf n => n
  | .zero n => n
  | .fin n _ _ => n

def Fp.isNan : Fp → Bool
  | .nan _ => true
  | _ => false

def Fp.isSnan : Fp → Bool
  | .nan s => s
  | _ => false

/-- The exact product of two data; an infinity times a zero is invalid (none). -/
def Fp.mul : Fp → Fp → Option Fp
  | .nan s, .nan t => some (.nan (s || t))
  | .nan s, _ => some (.nan s)
  | _, .nan s => some (.nan s)
  | .inf _, .zero _ => none
  | .zero _, .inf _ => none
  | .inf a, y => some (.inf (a != y.neg))
  | x, .inf b => some (.inf (x.neg != b))
  | .zero a, y => some (.zero (a != y.neg))
  | x, .zero b => some (.zero (x.neg != b))
  | .fin a m e, .fin b n g => some (.fin (a != b) (m * n) (e + g))

/-- The exponent of a finite term. -/
def Fp.exp? : Fp → Option Int
  | .fin _ _ e => some e
  | _ => none

/-- A finite term in units of 2^e. -/
def Fp.units (e : Int) : Fp → Int
  | .fin n m g => (if n then -1 else 1) * ((m * 2 ^ (g - e).toNat : Nat) : Int)
  | _ => 0

/-- The sum of exact terms, rounded once (R98). A sum of opposite infinities is invalid; an exact zero sum of terms of both
signs is +0, or −0 toward −∞. -/
def Fmt.sum (f : Fmt) (mode : Nat) (ts : List Fp) : Nat × Nat :=
  if ts.any Fp.isNan then (f.qnan, if ts.any Fp.isSnan then fInvalid else 0)
  else
    let pos := ts.any (fun t => decide (t = .inf false))
    let neg := ts.any (fun t => decide (t = .inf true))
    if pos && neg then (f.qnan, fInvalid)
    else if pos then (f.infinity false, 0)
    else if neg then (f.infinity true, 0)
    else
      let es := ts.filterMap Fp.exp?
      let e := es.foldl min (es.headD 0)
      let total := (ts.map (Fp.units e)).foldl (· + ·) 0
      let zeroNeg := if ts.all Fp.neg then true else if ts.any Fp.neg then decide (mode = 3) else false
      f.roundInt mode total e zeroNeg

/-! ### Operations on bits -/

/-- The sign bit after the modifiers of a source (R121): absolute value first, then negation. -/
def Fmt.modify (f : Fmt) (w : Nat) (abs neg : Bool) : Nat :=
  let w := w % 2 ^ f.width
  let w := if abs then setBit w (f.width - 1) false else w
  if neg then setBit w (f.width - 1) (!bit w (f.width - 1)) else w

/-- Whether a word is subnormal. -/
def Fmt.subnormal (f : Fmt) (w : Nat) : Bool := decide (bits w f.mb f.eb = 0) && decide (bits w 0 f.mb ≠ 0)

/-- An input under flush-to-zero (R100). -/
def Fmt.flushIn (f : Fmt) (ftz : Bool) (w : Nat) : Nat :=
  if ftz && f.subnormal w then f.nought (bit w (f.width - 1)) else w

/-- A result under flush-to-zero (R100): a flushed one raises underflow and inexact. -/
def Fmt.flushOut (f : Fmt) (ftz : Bool) (r : Nat × Nat) : Nat × Nat :=
  if ftz && f.subnormal r.1 then (f.nought (bit r.1 (f.width - 1)), r.2 ||| (fUnderflow + fInexact)) else r

def Fmt.add (f : Fmt) (mode x y : Nat) : Nat × Nat := f.sum mode [f.unpack x, f.unpack y]

def Fmt.mul (f : Fmt) (mode x y : Nat) : Nat × Nat :=
  let a := f.unpack x
  let b := f.unpack y
  match a.mul b with
  | none => (f.qnan, fInvalid)
  | some (.nan s) => (f.qnan, if s then fInvalid else 0)
  | some (.inf n) => (f.infinity n, 0)
  | some (.zero n) => (f.nought n, 0)
  | some (.fin n m e) => f.round mode n m e

/-- A product plus an addend, rounded once; an infinity times a zero is invalid whatever the addend (R121). -/
def Fmt.fma (f : Fmt) (mode x y z : Nat) : Nat × Nat :=
  let a := f.unpack x
  let b := f.unpack y
  let c := f.unpack z
  match a.mul b with
  | none => (f.qnan, fInvalid)
  | some p => f.sum mode [p, c]

def Fmt.div (f : Fmt) (mode x y : Nat) : Nat × Nat :=
  match f.unpack x, f.unpack y with
  | .nan s, .nan t => (f.qnan, if s || t then fInvalid else 0)
  | .nan s, _ => (f.qnan, if s then fInvalid else 0)
  | _, .nan s => (f.qnan, if s then fInvalid else 0)
  | .inf _, .inf _ => (f.qnan, fInvalid)
  | .zero _, .zero _ => (f.qnan, fInvalid)
  | .inf a, b => (f.infinity (a != b.neg), 0)
  | a, .inf b => (f.nought (a.neg != b), 0)
  | .zero a, b => (f.nought (a != b.neg), 0)
  | a, .zero b => (f.infinity (a.neg != b), fDivZero)
  | .fin a m e, .fin b n g =>
    let k := f.mb + 4 + bitLen n - bitLen m
    let num := m * 2 ^ k
    f.round mode (a != b) (num / n) (e - g - (k : Int)) (decide (num % n ≠ 0))

/-- The integer square root, found bit by bit from 2^k down. -/
def isqrt (v : Nat) : Nat → Nat → Nat
  | 0, r => r
  | k + 1, r => let r' := r + 2 ^ k; isqrt v k (if r' * r' ≤ v then r' else r)

def Fmt.sqrt (f : Fmt) (mode x : Nat) : Nat × Nat :=
  match f.unpack x with
  | .nan s => (f.qnan, if s then fInvalid else 0)
  | .zero n => (f.nought n, 0)
  | .inf n => if n then (f.qnan, fInvalid) else (f.infinity false, 0)
  | .fin n m e =>
    if n then (f.qnan, fInvalid)
    else
      let k := 2 * (f.mb + 4)
      let k := if (e - (k : Int)) % 2 = 0 then k else k + 1
      let v := m * 2 ^ k
      let r := isqrt v (bitLen v / 2 + 1) 0
      f.round mode false r ((e - (k : Int)) / 2) (decide (r * r ≠ v))

/-- The order of two data: unordered where one is a NaN. -/
def Fp.compare (a b : Fp) : Option Ordering :=
  if a.isNan || b.isNan then none
  else
    match a, b with
    | .inf x, .inf y => some (if x = y then .eq else if x then .lt else .gt)
    | .inf x, _ => some (if x then .lt else .gt)
    | _, .inf y => some (if y then .gt else .lt)
    | a, b =>
      let es := [a, b].filterMap Fp.exp?
      let e := es.foldl min (es.headD 0)
      let u := a.units e
      let v := b.units e
      some (if u < v then .lt else if u = v then .eq else .gt)

/-- minimumNumber and maximumNumber (R121): −0 lies below +0; a signalling NaN raises invalid. -/
def Fmt.minMax (f : Fmt) (mx : Bool) (x y : Nat) : Nat × Nat :=
  let a := f.unpack x
  let b := f.unpack y
  let fl := if a.isSnan || b.isSnan then fInvalid else 0
  if a.isNan && b.isNan then (f.qnan, fl)
  else if a.isNan then (y, fl)
  else if b.isNan then (x, fl)
  else
    let less := match a.compare b with
      | some .lt => true
      | some .gt => false
      | _ => a.neg && !b.neg
    (if less != mx then x else y, fl)

/-- A compare by CC (R124): result and flags; none for a reserved condition. -/
def Fmt.cmp (f : Fmt) (cc x y : Nat) : Option (Bool × Nat) :=
  let a := f.unpack x
  let b := f.unpack y
  let o := a.compare b
  let snan := if a.isSnan || b.isSnan then fInvalid else 0
  let anyNan := if o.isNone then fInvalid else 0
  match cc with
  | 0 => some (decide (o = some .eq), snan)
  | 1 => some (decide (o ≠ some .eq), snan)
  | 2 => some (decide (o = some .lt), anyNan)
  | 3 => some (decide (o = some .lt) || decide (o = some .eq), anyNan)
  | 4 => some (decide (o = some .gt), anyNan)
  | 5 => some (decide (o = some .gt) || decide (o = some .eq), anyNan)
  | 6 => some (o.isSome, snan)
  | 7 => some (o.isNone, snan)
  | _ => none

/-- Conversion between formats (R122). -/
def Fmt.convert (f g : Fmt) (mode x : Nat) : Nat × Nat :=
  match f.unpack x with
  | .nan s => (g.qnan, if s then fInvalid else 0)
  | .inf n => (g.infinity n, 0)
  | .zero n => (g.nought n, 0)
  | .fin n m e => g.round mode n m e

/-- The integer that a finite datum rounds to, and whether it changed. -/
def roundToInt (mode : Nat) (neg : Bool) (m : Nat) (e : Int) : Int × Bool :=
  let (k, lost) := cut mode neg m e 0 false
  (if neg then -(k : Int) else (k : Int), lost)

/-- Float to integer of n bits (R122): a NaN is 0, a value out of range saturates; both raise invalid alone. -/
def Fmt.toInt (f : Fmt) (mode n : Nat) (signed : Bool) (x : Nat) : Nat × Nat :=
  let lo : Int := if signed then -(2 ^ (n - 1) : Int) else 0
  let hi : Int := if signed then 2 ^ (n - 1) - 1 else 2 ^ n - 1
  match f.unpack x with
  | .nan _ => (0, fInvalid)
  | .inf neg => (toMod (if neg then lo else hi) n, fInvalid)
  | .zero _ => (0, 0)
  | .fin neg m e =>
    let (z, lost) := roundToInt mode neg m e
    if z < lo then (toMod lo n, fInvalid)
    else if hi < z then (toMod hi n, fInvalid)
    else (toMod z n, if lost then fInexact else 0)

/-- Integer to integer (R122): a value outside the destination's range saturates and raises invalid. -/
def intToInt (z : Int) (n : Nat) (signed : Bool) : Nat × Nat :=
  let lo : Int := if signed then -(2 ^ (n - 1) : Int) else 0
  let hi : Int := if signed then 2 ^ (n - 1) - 1 else 2 ^ n - 1
  if z < lo then (toMod lo n, fInvalid) else if hi < z then (toMod hi n, fInvalid) else (toMod z n, 0)

/-- roundToIntegral (R122, `FRND`): raises nothing but invalid on a signalling NaN. -/
def Fmt.integral (f : Fmt) (mode x : Nat) : Nat × Nat :=
  match f.unpack x with
  | .nan s => (f.qnan, if s then fInvalid else 0)
  | .fin neg m e =>
    if 0 ≤ e then (x % 2 ^ f.width, 0)
    else
      let (z, _) := roundToInt mode neg m e
      if z = 0 then (f.nought neg, 0) else ((f.round 0 neg z.natAbs 0).1, 0)
  | _ => (x % 2 ^ f.width, 0)

/-! ### Short formats and MX blocks (07_formats_and_slicing.md) -/

/-- The short formats of Table 7-2 by their code: exponent bits, fraction bits, whether an infinity exists, and the code of
the largest finite value. -/
structure Short where
  eb : Nat
  mb : Nat
  bias : Nat
  maxFin : Nat
  hasInf : Bool
  nanLow : Nat
  deriving DecidableEq, Repr

def shortOf (code : Nat) : Option Short :=
  match code with
  | 8 => some ⟨4, 3, 7, 0x7E, false, 0x7F⟩
  | 9 => some ⟨5, 2, 15, 0x7B, true, 0x7D⟩
  | 10 => some ⟨3, 2, 3, 0x1F, false, 0x100⟩
  | 11 => some ⟨2, 3, 1, 0x1F, false, 0x100⟩
  | 12 => some ⟨2, 1, 1, 0x7, false, 0x100⟩
  | _ => none

def Short.width (h : Short) : Nat := 1 + h.eb + h.mb

/-- Reads a short-format element (R196). -/
def Short.unpack (h : Short) (w : Nat) : Fp :=
  let neg := bit w (h.eb + h.mb)
  let body := bits w 0 (h.eb + h.mb)
  let e := bits w h.mb h.eb
  let m := bits w 0 h.mb
  let q : Int := 1 - (h.bias : Int) - (h.mb : Int)
  if h.nanLow ≤ body then .nan false
  else if h.hasInf && decide (h.maxFin < body) then .inf neg
  else if e = 0 then (if m = 0 then .zero neg else .fin neg m q)
  else .fin neg (2 ^ h.mb + m) (q + (e : Int) - 1)

/-- FP32 to a short format (R197). -/
def Short.encode (code : Nat) (h : Short) (w : Nat) : Nat :=
  let top := 2 ^ (h.eb + h.mb)
  match fp32.unpack w with
  | .nan _ =>
    let neg := bit w 31
    if code = 8 then (if neg then 0xFF else 0x7F)
    else if code = 9 then (if neg then 0xFE else 0x7E)
    else 0
  | .inf n => b2n n * top + (if h.hasInf then 0x7C else h.maxFin)
  | .zero n => b2n n * top
  | .fin n m e =>
    let qmin : Int := 1 - (h.bias : Int) - (h.mb : Int)
    let lead := e + (bitLen m : Int) - 1
    let q := max (lead - (h.mb : Int)) qmin
    let (k, _) := cut 0 n m e q false
    let body := if k < 2 ^ h.mb then k else (q - qmin).toNat * 2 ^ h.mb + k
    b2n n * top + min body h.maxFin

/-- An exact value times 2^d. -/
def Fp.scale (d : Int) : Fp → Fp
  | .fin n m e => .fin n m (e + d)
  | x => x

/-- floor(log2) of the magnitude of a finite datum. -/
def Fp.lead : Fp → Option Int
  | .fin _ m e => some (e + (bitLen m : Int) - 1)
  | _ => none

/-- The greatest leading exponent of a block; none where every value is zero. -/
def blockLead (vs : List Fp) : Option Int :=
  (vs.filterMap Fp.lead).foldl (fun a b => some (match a with | some x => max x b | none => b)) none

/-- The magnitude of a finite datum times 2^d, truncated. -/
def Fp.trunc (d : Int) : Fp → Nat
  | .fin _ m e => if 0 ≤ e + d then m * 2 ^ (e + d).toNat else m / 2 ^ (-(e + d)).toNat
  | _ => 0

def Fp.nonFinite : Fp → Bool
  | .nan _ => true
  | .inf _ => true
  | _ => false

/-- R200: the scale, the elements, and the events NONFINITE and CLAMPED. -/
def mxEncode (vs : List Fp) (eight : Bool) : Nat × List Int × Nat × Nat :=
  let k : Int := if eight then 6 else 2
  let lim : Nat := if eight then 127 else 7
  if vs.any Fp.nonFinite then (0xFF, vs.map (fun _ => 0), 1, 0)
  else
    match blockLead vs with
    | none => (0, vs.map (fun _ => 0), 0, 0)
    | some l =>
      let x0 := l + 127
      let x := max 0 (min 254 x0)
      let q := vs.map (fun v =>
        let t := min lim (v.trunc (k + 127 - x))
        if v.neg then -(t : Int) else (t : Int))
      (x.toNat, q, 0, if x = x0 then 0 else 1)

/-- R201: an MX-integer element decoded to a format; the result is exact. A value outside the format is not stated (log entry 6). -/
def mxDecode (f : Fmt) (q : Int) (x : Nat) (eight : Bool) : Nat :=
  if x = 0xFF then f.qnan
  else
    let r := f.roundInt 0 q ((x : Int) - (if eight then 133 else 129)) false
    if bit r.2 2 then (Config.mxOutside f.width q).toNat % 2 ^ f.width else r.1

/-- Whether m is at least 2^e × 127/128, for the greatest magnitude of a group (R203). -/
def Fp.nearTop (e : Int) : Fp → Bool
  | .fin _ m g =>
    let d := g - (e - 7)
    if 0 ≤ d then decide (127 ≤ m * 2 ^ d.toNat) else decide (127 * 2 ^ (-d).toNat ≤ m)
  | _ => false

/-- Balanced digits of q, lowest last (R203). -/
def digits (q : Int) : Nat → List Int
  | 0 => []
  | 1 => [q]
  | n + 2 =>
    let d := ((q + 128) % 256) - 128
    digits ((q - d) / 256) (n + 1) ++ [d]

/-- R203: the exponent word and for each element its slices s0 to s(n−1), with the event NONFINITE. -/
def groupedEncode (vs : List Fp) (n : Nat) (eight : Bool) : Int × List (List Int) × Nat :=
  let p : Int := if eight then 7 + 8 * ((n : Int) - 1) else 3
  if vs.any Fp.nonFinite then (0x7FFF, vs.map (fun _ => List.replicate n 0), 1)
  else
    match blockLead vs with
    | none => (0, vs.map (fun _ => List.replicate n 0), 0)
    | some l =>
      let e0 := l + 1
      let e := if decide (2 ≤ n) && vs.any (fun v => v.nearTop e0) then e0 + 1 else e0
      (e, vs.map (fun v =>
        let t := v.trunc (p - e)
        digits (if v.neg then -(t : Int) else (t : Int)) n), 0)

end Sys2Proof.Machine
end

