-- ==== Sys2Proof/Machine/Flags.lean ====
section
/-! DEFINITION. Floating-point results with the flags they raise (03_crew_execution.md R98 to R101, 04 R121 to R124): every
flag computation of the thread instructions. A result is a pair of bits and a mask of flags in the order of `FPFLAGS`. -/

namespace Sys2Proof.Machine

open Sys2Proof

/-- Whether the options of a launch flush a format (R100): bit 0 FP32, bit 1 FP16 and BF16. -/
def flushes (options : Nat) (f : Fmt) : Bool :=
  if f.width = 32 then bit options 0 else if f.width = 16 then bit options 1 else false

/-- Whether flags trap under `FP_TRAPS` (R101): invalid, division by zero or overflow. -/
def traps (options flags : Nat) : Bool := bit options 3 && decide (flags &&& 7 ≠ 0)

/-- The source modifiers of format R: negate A, B, C, absolute value of A, B. -/
structure Mods where
  na : Bool
  nb : Bool
  nc : Bool
  aa : Bool
  ab : Bool
  deriving DecidableEq, Repr

/-- One operation of Table 4-9 on one format, flushing as the options say: 0 add, 1 subtract, 2 multiply, 3 fused
multiply-add, 4 minimum, 5 maximum, 6 divide, 7 square root. -/
def Fmt.arith (f : Fmt) (ftz : Bool) (op rm : Nat) (m : Mods) (a b c : Nat) : Nat × Nat :=
  let x := f.flushIn ftz (f.modify a m.aa m.na)
  let y := f.flushIn ftz (f.modify b m.ab m.nb)
  let z := f.flushIn ftz (f.modify c false m.nc)
  f.flushOut ftz
    (match op with
     | 0 => f.add rm x y
     | 1 => f.add rm x (f.modify y false true)
     | 2 => f.mul rm x y
     | 3 => f.fma rm x y z
     | 4 => f.minMax false x y
     | 5 => f.minMax true x y
     | 6 => f.div rm x y
     | _ => f.sqrt rm x)

/-! ### The approximations (R121) -/

/-- The fraction of log2 of m / 2^400, 1 ≤ m / 2^400 < 2, bit by bit: n bits follow those already found. -/
def log2Bits : Nat → Nat → Nat → Nat
  | 0, _, acc => acc
  | n + 1, m, acc =>
    let q := m * m / 2 ^ 400
    if 2 ^ 401 ≤ q then log2Bits n (q / 2) (2 * acc + 1) else log2Bits n q (2 * acc)

/-- log2 of k × 2^e, k > 0, rounded down to a multiple of 2^-160. -/
def log2Fixed (k : Nat) (e : Int) : Int :=
  let lead := bitLen k - 1
  (e + (lead : Int)) * 2 ^ 160 + ((log2Bits 160 (k * 2 ^ (400 - lead)) 0 : Nat) : Int)

/-- Whether a number is a power of two: its log2 is exact. -/
def isPow2 (k : Nat) : Bool := decide (k = 2 ^ (bitLen k - 1))

/-- A unit in the last place of an FP32 value, in units of 2^-149, from the value rounded down to such units. -/
def ulpOf (q : Nat) : Nat := 2 ^ (bitLen q - 24)

/-- An FP32 datum in units of 2^-149; an infinity stands where the next number would. -/
def fp32Units : Fp → Int
  | .nan _ => 0
  | .zero _ => 0
  | .inf n => (if n then -1 else 1) * 2 ^ 277
  | .fin n k e => (if n then -1 else 1) * ((k * 2 ^ (e + 149).toNat : Nat) : Int)

/-- Whether r is within the bound that R121 sets an approximation of x: 1 ulp of the exact value for `FRCP` and `FRSQ`, 2 ulp for `FEXP2` and
`FLOG2`. Where the exact value lies outside FP32, the largest number and the infinity are; where there is no exact value, every result
is. -/
def withinBound (op : Nat) (x r : Fp) : Bool :=
  let z := fp32Units r
  let near := fun (v : Int) (k : Nat) => decide ((z - v).natAbs ≤ k * ulpOf v.natAbs)
  if r.isNan then match x, op with
    | .zero _, 9 => true
    | .inf true, 9 => true
    | .fin true _ _, 9 => true
    | _, _ => false
  else
    match x, op with
    | .nan _, _ => false
    | .fin n k e, 8 =>
      let num := 2 ^ (149 - e).toNat
      let q := num / k
      let sign : Int := if n then -1 else 1
      if 2 ^ 277 ≤ q then decide (sign * z ≥ 2 ^ 277 - 2 ^ 253)
      else decide ((sign * z * (k : Int) - (num : Int)).natAbs ≤ ulpOf q * k)
    | .inf _, 8 => near 0 1
    | .fin false k e, 9 =>
      let num : Int := 2 ^ (298 - e).toNat
      let u : Int := ulpOf (isqrt (num.toNat / k) 240 0)
      (decide (z - u ≤ 0) || decide ((z - u) * (z - u) * (k : Int) ≤ num)) &&
        decide (0 ≤ z + u) && decide (num ≤ (z + u) * (z + u) * (k : Int))
    | .inf false, 9 => near 0 1
    | .zero _, 10 => near (2 ^ 149) 2
    | .inf true, 10 => near 0 2
    | .inf false, 10 => decide (r = .inf false)
    | .fin n k e, 10 =>
      let v : Int := (if n then -1 else 1) * ((k * 2 ^ (e + 160).toNat : Nat) : Int)
      let u : Int := 2 ^ (v / 2 ^ 160 + 126).toNat
      let low := z - 2 * u
      let high := z + 2 * u
      let l := log2Fixed low.toNat (-149)
      (decide (low ≤ 0) || decide (l < v) || (decide (l = v) && isPow2 low.toNat)) &&
        decide (0 < high) && decide (v ≤ log2Fixed high.toNat (-149))
    | .fin false k e, 11 =>
      let l := log2Fixed k e
      let u : Int := ulpOf (l.natAbs / 2 ^ 11)
      decide ((z - 2 * u) * 2 ^ 11 ≤ l) && (decide (l < (z + 2 * u) * 2 ^ 11) || (decide (l = (z + 2 * u) * 2 ^ 11) && isPow2 k))
    | .inf false, 11 => decide (r = .inf false)
    | _, _ => true

/-- The significand of 2^f, 0 ≤ f < 1, of 24 bits, rounded down: n bits are still to be found; f is in units of 2^-160. -/
def exp2Bits (f : Int) : Nat → Nat → Nat
  | 0, m => m
  | n + 1, m => exp2Bits f n (if log2Fixed (m + 2 ^ n) (-23) ≤ f then m + 2 ^ n else m)

/-- A result within the bound, for a function that would leave it: the exact value, rounded. -/
def nearResult (op : Nat) (x : Fp) : Nat :=
  match x, op with
  | .fin n k e, 8 => (fp32.div 0 (fp32.pack false 127 0) (fp32.round 0 n k e).1).1
  | .inf n, 8 => fp32.nought n
  | .fin false k e, 9 => (fp32.round 0 false (isqrt (2 ^ (298 - e).toNat / k) 240 0) (-149) true).1
  | .inf _, 9 => 0
  | .zero _, 10 => fp32.pack false 127 0
  | .inf n, 10 => if n then 0 else fp32.infinity false
  | .fin n k e, 10 =>
    let v : Int := (if n then -1 else 1) * ((k * 2 ^ (e + 160).toNat : Nat) : Int)
    let lead := v / 2 ^ 160
    (fp32.round 0 false (exp2Bits (v - lead * 2 ^ 160) 23 (2 ^ 23)) (lead - 23) true).1
  | .fin _ k e, 11 => (fp32.roundInt 0 (log2Fixed k e) (-160) false).1
  | .inf _, 11 => fp32.infinity false
  | _, _ => fp32.qnan

/-- An approximation where the table of R121 states no result: a fixed function of the input, held to its bound (log entry 6). -/
def approxValue (op : Nat) (w : U32) : Nat :=
  let g := match op with
    | 8 => (Config.frcp w).toNat
    | 9 => (Config.frsq w).toNat
    | 10 => (Config.fexp2 w).toNat
    | _ => (Config.flog2 w).toNat
  let x := fp32.unpack w.toNat
  if withinBound op x (fp32.unpack g) then (if (fp32.unpack g).isNan then fp32.qnan else g) else nearResult op x

/-- `FRCP`, `FRSQ`, `FEXP2`, `FLOG2` (operations 8 to 11, R121): the stated special cases, and otherwise a fixed function of
the input within the stated bound (log entry 6). -/
def approx (ftz : Bool) (op : Nat) (m : Mods) (a : Nat) : Nat × Nat :=
  let x := fp32.flushIn ftz (fp32.modify a m.aa m.na)
  let w := BitVec.ofNat 32 x
  let other := fp32.flushOut ftz (approxValue op w, Config.sfuFlags op w % 32)
  match fp32.unpack x, op with
  | .nan s, _ => (fp32.qnan, if s then fInvalid else 0)
  | .zero n, 8 => (fp32.infinity n, fDivZero)
  | .zero _, 11 => (fp32.infinity true, fDivZero)
  | .inf true, 11 => (fp32.qnan, fInvalid)
  | .fin true _ _, 11 => (fp32.qnan, fInvalid)
  | .fin false k e, 10 =>
    if 7 ≤ e + (bitLen k : Int) - 1 then (fp32.infinity false, fOverflow + fInexact) else other
  | _, _ => other

/-- Classes 0x2 and 0x3. -/
def fpResult (f : Fmt) (options op rm : Nat) (m : Mods) (a b c : Nat) : Nat × Nat :=
  if op < 8 then f.arith (flushes options f) op rm m a b c else approx (flushes options f) op m a

/-- The two halves of a register. -/
def lowHalf (x : Nat) : Nat := x % 65536
def highHalf (x : Nat) : Nat := x / 65536 % 65536

/-- `HDOT2` (R121): both products and the FP32 addend, rounded once; an infinity times a zero is invalid whatever the other
terms are. -/
def hdot2 (h : Fmt) (options rm : Nat) (m : Mods) (a b c : Nat) : Nat × Nat :=
  let fl := flushes options h
  let fl32 := flushes options fp32
  let src := fun (x : Nat) (abs neg : Bool) => h.unpack (h.flushIn fl (h.modify x abs neg))
  let z := fp32.unpack (fp32.flushIn fl32 (fp32.modify c false m.nc))
  match (src (lowHalf a) m.aa m.na).mul (src (lowHalf b) m.ab m.nb), (src (highHalf a) m.aa m.na).mul (src (highHalf b) m.ab m.nb) with
  | some p, some q => fp32.flushOut fl32 (fp32.sum rm [p, q, z])
  | _, _ => (fp32.qnan, fInvalid)

/-- Class 0x4: two halves, or `HDOT2` (operation 6). -/
def halfResult (h : Fmt) (options op rm : Nat) (m : Mods) (a b c : Nat) : Nat × Nat :=
  if op = 6 then hdot2 h options rm m a b c
  else
    let fl := flushes options h
    let lo := h.arith fl op rm m (lowHalf a) (lowHalf b) (lowHalf c)
    let hi := h.arith fl op rm m (highHalf a) (highHalf b) (highHalf c)
    (lo.1 + 65536 * hi.1, lo.2 ||| hi.2)

/-- An integer compare by CC 0 to 5 (R124). -/
def intCompare (cc : Nat) (x y : Int) : Bool :=
  match cc with
  | 0 => decide (x = y)
  | 1 => decide (x ≠ y)
  | 2 => decide (x < y)
  | 3 => decide (x ≤ y)
  | 4 => decide (y < x)
  | _ => decide (y ≤ x)

/-- `DCMP` and `FCMP` under the flush options (R124). -/
def fpCompare (f : Fmt) (options cc a b : Nat) : Bool × Nat :=
  let ftz := flushes options f
  (f.cmp cc (f.flushIn ftz a) (f.flushIn ftz b)).getD (false, 0)

/-- The float format of a scalar code of Table 4-10. -/
def floatOf (code : Nat) : Fmt :=
  match code with
  | 4 => fp64
  | 5 => fp32
  | 6 => fp16
  | _ => bf16

/-- Bits and signedness of an integer code of Table 4-10. -/
def intBits (code : Nat) : Nat := if code < 2 then 32 else 64
def intSigned (code : Nat) : Bool := decide (code % 2 = 0)

/-- An integer operand as a number. -/
def intValue (code x : Nat) : Int := if intSigned code then sext x (intBits code) else ((x % 2 ^ intBits code : Nat) : Int)

/-- A scalar `CVT` (R122). -/
def scalarConvert (s d rm x : Nat) : Nat × Nat :=
  if s < 4 then
    if d < 4 then intToInt (intValue s x) (intBits d) (intSigned d)
    else (floatOf d).roundInt rm (intValue s x) 0 false
  else if d < 4 then (floatOf s).toInt rm (intBits d) (intSigned d) (x % 2 ^ (floatOf s).width)
  else (floatOf s).convert (floatOf d) rm (x % 2 ^ (floatOf s).width)

end Sys2Proof.Machine
end

