-- ==== Sys2Proof/Machine/State.lean ====
section
/-! DEFINITION. The state of the module as plain data: everything the spec gives it, and the queue of waiting commands.
Collections that start empty are sparse maps whose unlisted keys hold the stated default. -/

namespace Sys2Proof.Machine

open Sys2Proof

/-! ### Memory, regions and translation (chapters 09 and 11) -/

/-- Where a set of lines lies (R245, R246): one list of pseudo-channels, or one per die, with the lines E that each
list's pseudo-channels hold and the base PCBASE in each pseudo-channel. -/
structure Layout where
  balanced : Bool := false
  lists : List (List Nat) := []
  extents : List Nat := []
  bases : Map Nat := []
  deriving DecidableEq, Repr

/-- A region of a partition (Table 9-2) with its size in bytes and its place. -/
structure Region where
  base : Nat
  size : Nat
  mode : Nat
  die : Nat
  layout : Layout
  deriving DecidableEq, Repr

/-- A watermark rebuild of a region (R257, R258): the region as it will be and the lowest line not moved. -/
structure Rebuild where
  part : Nat
  idx : Nat
  target : Region
  watermark : Nat := 0
  deriving DecidableEq, Repr

/-- Who holds a run of lines of one pseudo-channel. -/
inductive LineOwner where
  | region (part idx : Nat)
  | regionNew (part idx : Nat)
  | segment (i : Nat)
  | segmentCopy (i : Nat)
  | table (part page : Nat)
  deriving DecidableEq, Repr

/-- A run of lines of one pseudo-channel that is not free (R246, R292). -/
structure Alloc where
  pc : Nat
  base : Nat
  count : Nat
  owner : LineOwner
  deriving DecidableEq, Repr

/-- The signed level and the settings of a token bucket (R249). -/
structure Bucket where
  rate : Nat := 0
  burst : Nat := 0
  borrow : Bool := false
  level : Int := 0
  byInstaller : Bool := false
  deriving DecidableEq, Repr

/-- The controller of one HBM stack (R254, R260, Table 9-7). -/
structure Stack where
  temp : Nat := 0
  step : Nat := 0
  refreshOnly : Bool := false
  refreshSince : Nat := 0
  hot : Bool := false
  lastScrub : Nat := 0
  power : Nat := 0
  lastUse : Nat := 0
  deriving DecidableEq, Repr

/-- A partition (Table 11-1). -/
structure Partition where
  live : Bool := false
  galleries : Nat := 0
  groups : Nat := 0
  onPf0 : Bool := false
  ctxCeiling : Nat := 0
  deviceCeiling : Nat := 0
  fabricCeiling : Nat := 0
  persist : Bool := false
  draining : Bool := false
  debugOpen : Bool := false
  deriving DecidableEq, Repr

/-- A stage-2 mapping set by the installer (R291): intermediate address to physical address, by pages of one size. -/
structure S2Map where
  part : Nat
  ia : Nat
  pa : Nat
  size : Nat
  page : Nat
  r : Bool
  w : Bool
  x : Bool
  deriving DecidableEq, Repr

/-- A translation cache entry (R294): its cache (core c, 1000 + gallery, 2000 the IO die), partition, context, page and
physical page, with the permissions of both stages and whether the page is marked dirty. -/
structure TlbEntry where
  cache : Nat
  part : Nat
  ctx : Nat
  va : Nat
  size : Nat
  pa : Nat
  r : Bool
  w : Bool
  x : Bool
  dirty : Bool
  deriving DecidableEq, Repr

/-- The states of a shared segment line (Table 11-5). -/
inductive SegLine where
  | good
  | inRepair
  | lost
  deriving DecidableEq, Repr

/-- Who reads a segment line that is held (R298). -/
inductive Reader where
  | crew (core key : Nat)
  | engine (core : Nat)
  | sequencer (ctx : Nat)
  | bar2 (fn : Nat)
  | kft (assoc : Nat)
  deriving DecidableEq, Repr

/-- A read held at the home of a line in repair, and when it came (R298). -/
structure HeldRead where
  reader : Reader
  line : Nat
  since : Nat
  expired : Bool := false
  deriving DecidableEq, Repr

/-- The golden source of a segment (R296). -/
inductive Golden where
  | copy (stackMask : Nat) (layout : Layout)
  | host (addr : Nat)
  deriving DecidableEq, Repr

/-- A shared segment (R296 to R299). Its line states are listed where not GOOD; `found` holds, by line, when an uncorrectable error
was detected whose line is not marked yet (R299 step 2). -/
structure Segment where
  live : Bool := false
  found : Map Nat := []
  size : Nat := 0
  keeper : Nat := 0
  stackMask : Nat := 0
  layout : Layout := {}
  golden : Golden := .host 0
  holdUs : Nat := 0
  filled : Bool := false
  lines : Map SegLine := []
  held : List HeldRead := []
  mapped : List Nat := []
  deriving DecidableEq, Repr

/-! ### Landings (chapter 10) -/

/-- The states of a landing slot (Table 10-3). -/
inductive SlotState where
  | free
  | unarmed
  | armed
  | spent
  | releasing
  deriving DecidableEq, Repr

/-- Who waits at a landing (Table 10-4): the path of a crew that carries wait mark w, the cox stream of a core, or a
packet of a context. -/
inductive Party where
  | crew (w : Nat)
  | cox (core : Nat)
  | packet (ctx pid : Nat)
  deriving DecidableEq, Repr

/-- A registered wait (R266): mode, target generation, and the moment its timer started (R279). -/
structure Waiter where
  party : Party
  mode : Nat
  target : Nat
  since : Nat
  deriving DecidableEq, Repr

/-- A landing slot (Tables 10-2, 10-3). `unseen` lists the waiters that an owner loss released (R277); `armCtx` is the context in whose map
the links LINK0 and LINK1 are found; `part` the partition whose ceiling the slot counts against (R274). -/
structure Slot where
  state : SlotState := .free
  kind : Nat := 0
  n : Nat := 0
  rearm : Bool := false
  timeoutUs : Nat := 0
  period : Nat := 0
  link0 : Nat := 0xFFFF
  link1 : Nat := 0xFFFF
  armCtx : Nat := 0
  subs : List (Nat × Nat) := []
  gen : Nat := 0
  remain : Nat := 0
  count : Nat := 0
  drift : Bool := false
  stray : Bool := false
  saturated : Bool := false
  owner : Nat := 0
  part : Nat := 0
  mirror : Option (Nat × Nat) := none
  waiters : List Waiter := []
  unseen : List Party := []
  err : Bool := false
  deriving DecidableEq, Repr

/-- A landing map entry (Tables 10-5, 10-7): the logical core of a CORE entry, the association of a MIRROR. -/
structure LEntry where
  kind : Nat := 0
  core : Nat := 0
  assoc : Nat := 0
  slot : Nat := 0
  owner : Nat := 0
  remote : Nat := 0
  deriving DecidableEq, Repr

/-- A landing that Mitor is moving (R276): from one slot key to another. -/
structure SlotMove where
  src : Nat
  dst : Nat
  deriving DecidableEq, Repr

/-- An arrival at a mirror that has not been forwarded yet (R280), with the KFT messages that must be acknowledged
first. -/
structure MirrorArrival where
  slot : Nat
  count : Nat
  after : List Nat
  deriving DecidableEq, Repr

/-- A landing message for another module (R280): 0 an arrival at the master, 1 a release to a mirror, 2 a loss; the
association, the slot on the other module, and the count or the generation with its status. -/
structure LdgMsg where
  kind : Nat
  assoc : Nat
  slot : Nat
  value : Nat
  status : Nat := 0
  sent : Bool := false
  deriving DecidableEq, Repr

/-! ### Contexts and packets (chapter 02) -/

/-- The states of a context (Table 2-2). -/
inductive CtxState where
  | free
  | active
  | faulted
  | draining
  | preempted
  deriving DecidableEq, Repr

/-- An ingress log entry (Tables 2-10 and 2-11). -/
structure LogEntry where
  tag : Nat := 0
  reason : Nat := 0
  opcode : Nat := 0
  depth : Nat := 0
  offset : Nat := 0
  deriving DecidableEq, Repr

/-- A conditional range that decode is inside (R58, R59): the `IF_FLAG` that opened it, which part runs as far as decode
knows, and whether an `ELSE` has been met. -/
structure CondRange where
  pid : Nat
  tag : Nat
  opcode : Nat
  offset : Nat
  cond : Bool
  dead : Bool
  inElse : Bool := false
  deriving DecidableEq, Repr

/-- A level of packet reading: the FIFO or a chain (R57), innermost first in a context. -/
structure Level where
  base : Nat := 0
  size : Nat := 0
  space : Nat := 0
  pos : Nat := 0
  owner : Nat := 0
  ranges : List CondRange := []
  deriving DecidableEq, Repr

/-- How far a packet in flight has come (R54). -/
inductive PStage where
  | decoded
  | waiting
  | dispatched
  | workDone (status detail : Nat)
  | completed
  deriving DecidableEq, Repr

/-- A packet in flight (R54): its first three granules, its place, why it is skipped, whether it lies in a range that
does not run, the pair of IDs it carries, and for an `IF_FLAG` the decode levels just behind it (R62). A packet with
`chainEnd` marks the end of a chain and carries the ranges left open (R59). `after` lists the work entries that a dispatched `FENCE` waits
for (R319). -/
structure Pkt where
  pid : Nat
  opcode : Nat
  data : List Byte
  len : Nat
  tag : Nat
  offset : Nat
  depth : Nat
  skip : Nat := 0
  dead : Bool := false
  layer : Nat := 0
  oper : Nat := 0
  stage : PStage := .decoded
  resume : List Level := []
  predicted : Bool := true
  chainEnd : Bool := false
  owner : Nat := 0
  chainFault : Option (Nat × Nat) := none
  openRanges : List CondRange := []
  fromFifo : Bool := true
  after : List Nat := []
  deriving DecidableEq, Repr

/-- A request that Mitor answers later: the mailbox path it came by, and the code to answer. -/
structure Asker where
  path : Nat
  deriving DecidableEq, Repr

/-- A context (Table 2-1, its registers, its stream and its packets). `creditStep` is in bytes; `heldPkts` holds, while the context is
pre-empted, the releases of its waiting packets: packet, status, detail (R278, R279). -/
structure Ctx where
  state : CtxState := .free
  part : Nat := 0
  fn : Nat := 0
  creditAddr : Nat := 0
  creditSpace : Nat := 0
  creditStep : Nat := 0
  ringAddr : Nat := 0
  ringSpace : Nat := 0
  ringSize : Nat := 0
  root : Nat := 0
  logNew : Bool := false
  faultStatus : Nat := 0
  faultTag : Nat := 0
  accepted : Nat := 0
  consumed : Nat := 0
  discarded : Nat := 0
  logHead : Nat := 0
  squashes : Nat := 0
  log : Map LogEntry := []
  expected : Nat := 0
  fifo : Map Byte := []
  lastCredit : Nat := 0
  retiredTag : Nat := 0
  curLayer : Nat := 0
  curOper : Nat := 0
  recordNo : Nat := 0
  levels : List Level := [{}]
  pkts : List Pkt := []
  nextPid : Nat := 1
  faultRec : Option (Nat × Nat) := none
  faultOpen : Bool := false
  lmap : Map LEntry := []
  xltIssued : Nat := 0
  xltDone : Nat := 0
  xltReject : Bool := false
  xltQueue : List (Nat × Nat) := []
  hold : Bool := false
  fifoErr : List Nat := []
  preempt : Option (Nat × Nat × Nat) := none
  resumePath : Option Nat := none
  heldPkts : List (Nat × Nat × Nat) := []
  deriving DecidableEq, Repr

/-! ### Crews (chapters 03 and 04) -/

/-- What a pending path waits for (R82, R89, R91): a crew barrier, or a landing, under a mark of its own; `pd` is the
status predicate that the release sets (R131). -/
inductive PathWait where
  | runnable
  | barrier (b : Nat)
  | landing (mark pd : Nat)
  deriving DecidableEq, Repr

/-- An entry of the reconvergence stack (R82). Masks have bit t for thread t. -/
inductive StackEntry where
  | pending (pc mask : Nat) (wait : PathWait)
  | join (addr mask : Nat)
  deriving DecidableEq, Repr

/-- The states of a resident crew (Table 3-6). -/
inductive CrewState where
  | running
  | waiting
  | halted
  | faulted
  deriving DecidableEq, Repr

/-- A crew's fault record (R94): code of Table 3-7, address, program counter, path mask and thread. -/
structure FaultRec where
  code : Nat := 0
  addr : Nat := 0
  pc : Nat := 0
  mask : Nat := 0
  thread : Nat := 0
  deriving DecidableEq, Repr

/-- A register that a result is on its way to: register r of thread t, a uniform register, or predicate p of the threads
of a mask. -/
inductive RegWrite where
  | v (t r : Nat) (x : U32)
  | u (r : Nat) (x : U64)
  | p (i mask vals : Nat)
  deriving DecidableEq, Repr

/-- The result of an issued instruction that has not reached its registers (R79, R111), and the stroke it is due at. -/
structure Result where
  seq : Nat
  writes : List RegWrite
  load : Bool := false
  due : Nat := 0
  deriving DecidableEq, Repr

/-- A resident crew (R77, R82, R86, R89, R93, R101, R108 to R112). Registers of thread t are keyed 256 t + r;
`regErr` lists those with an uncorrectable error (R405). A crew that was halted when it was pre-empted takes a new age when a
debugger resumes it (R105): `newAge`. -/
structure Crew where
  launch : Nat
  idx : Nat
  ctx : Nat
  width : Nat
  regs : Nat
  path : Option (Nat × Nat)
  stack : List StackEntry := []
  bb : Nat := 0
  barriers : Map Nat := []
  exited : Nat := 0
  v : Map U32 := []
  u : Map U64 := []
  preds : Map Nat := []
  flags : Nat := 0
  lstatus : Nat := 0
  lgen : Nat := 0
  scratchBase : Nat := 0
  scratchSize : Nat := 0
  age : Nat := 0
  state : CrewState := .running
  fault : FaultRec := {}
  outs : List Result := []
  seq : Nat := 0
  placedAt : Nat := 0
  idleFrom : Nat := 0
  excluded : Nat := 0
  copies : Nat := 0
  copyFault : Option (Nat × Nat) := none
  retry : Bool := false
  newAge : Bool := false
  regErr : List Nat := []
  deriving DecidableEq, Repr

/-- A crew saved by a pre-emption (R287), with the core it resumes on, the contents and the poisoned words of its scratch allocation, and the
releases held for its waiting paths (R278): mark, status, generation. -/
structure SavedCrew where
  core : Nat
  crew : Crew
  cells : Map Byte := []
  poison : List Nat := []
  held : List (Nat × Nat × Nat) := []
  deriving DecidableEq, Repr

/-- An entry of a core's placement queue (R74): the crews of a launch from linear index `next` on that fall to this
core, or a crew that resumes. -/
inductive QueueItem where
  | fresh (launch next : Nat)
  | saved (c : SavedCrew)
  deriving DecidableEq, Repr

/-- The first fault of a launch (R95): module timestamp, partition core index, quarter, slot, code. -/
structure FirstFault where
  time : Nat
  pcore : Nat
  quarter : Nat
  slot : Nat
  code : Nat
  deriving DecidableEq, Repr

/-- A crew launch in flight (R73). -/
structure Launch where
  ctx : Nat
  pid : Nat
  entry : Nat
  args : Nat
  gx : Nat
  gy : Nat
  gz : Nat
  coreCount : Nat
  cores : List Nat
  width : Nat
  regs : Nat
  options : Nat
  scratch : Nat
  watchdog : Nat
  layer : Nat
  oper : Nat
  fault : Option FirstFault := none
  faults : Nat := 0
  stopped : List Nat := []
  aborted : Bool := false
  gone : List Nat := []
  deriving DecidableEq, Repr

/-- A range of core scratch that holds prefetched operands (R60, R63): its program's launch, and whether filled. -/
structure Staging where
  base : Nat
  size : Nat
  launch : Nat
  filled : Bool := false
  deriving DecidableEq, Repr

/-! ### The cox stream and the array (chapters 05 and 06) -/

/-- A write of the stream that has been issued and has not landed (R181, R183). -/
inductive CoxTarget where
  | pathA (data : List Byte)
  | pathB (data : List Byte)
  | staging (i : Nat) (data : List Byte) (poison : Bool)
  | scratch (bytes : List (Nat × Byte)) (poison : List Nat)
  | scalar (sel : Nat) (x : U64)
  | cmp (i src rel operand : Nat)
  | flags (set : Bool) (mask : Nat)
  deriving DecidableEq, Repr

/-- A write in flight: the stroke it lands in, the slot and the PC of the word that issued it. -/
structure CoxWrite where
  due : Nat
  slot : Nat
  pc : Nat
  target : CoxTarget
  deriving DecidableEq, Repr

/-- A result command on its way (R152): its head and fields. -/
structure ResultCmd where
  head : Nat
  op : Nat
  fmt : Nat
  row : Nat
  weight : Int
  pc : Nat
  deriving DecidableEq, Repr

/-- A load whose phases have begun and not all committed (R143). -/
structure LoadPhase where
  t0 : Nat
  mode : Nat
  asgn : Bool
  bsgn : Bool
  kr : Nat
  deriving DecidableEq, Repr

/-- A slice run that occupies the A slot (R156). -/
structure SliceRun where
  t0 : Nat
  three : Bool
  fmt : Nat
  add : Bool
  m : Nat
  row : Nat
  kr : Nat
  pc : Nat
  deriving DecidableEq, Repr

/-- The mode register of an array row (R138, R140). -/
structure RowMode where
  mode : Nat := 0
  asgn : Bool := false
  bsgn : Bool := false
  enable : Bool := false
  deriving DecidableEq, Repr

/-- An active hardware loop (R186): counter, first PC of the body, end marker, latched count. -/
structure CoxLoop where
  n : Nat
  start : Nat
  stop : Nat
  latch : Nat
  deriving DecidableEq, Repr

/-- A Y-slot wait at the issue point (R177): registered, or released with a status. -/
inductive YWait where
  | none
  | registered (lid gen : Nat)
  | released (lid status : Nat)
  deriving DecidableEq, Repr

/-- A comparator (R174). -/
structure Cmp where
  src : Nat := 0
  rel : Nat := 0
  operand : Nat := 0
  deriving DecidableEq, Repr

/-- A cox log entry (Tables 6-12, 6-13). -/
structure CoxEntry where
  stroke : Nat := 0
  pc : Nat := 0
  slot : Nat := 7
  kind : Nat := 0
  layer : Nat := 0
  oper : Nat := 0
  reason : Nat := 0
  w2 : Nat := 0
  w3 : Nat := 0
  deriving DecidableEq, Repr

/-- The matrix array of a core (R138, R151, Table 5-5). Cell (k, j) is keyed 128 k + j; a partial sum that is not listed
is empty; column results wait under 128 h + j for their landing; accumulator entries are keyed 128 row + column. `accErr` lists the entries with an
error that no read has met, true for an uncorrectable one; `rowErr` the cell rows with a parity error, `rowFound` those of them that have been
reported; `psumPoison` and `alignPoison` the sums on their way that have passed such a row (R404, R406). -/
structure Matrix where
  weights : Map Byte := []
  pass : Map Byte := []
  modes : Map RowMode := []
  psum : Map (Option Int) := []
  align : Map Int := []
  loads : List LoadPhase := []
  lastLoad : Option Nat := none
  results : List ResultCmd := []
  run : Option SliceRun := none
  acc : Map U32 := []
  accPoison : List Nat := []
  accErr : Map Bool := []
  rowErr : List Nat := []
  rowFound : List Nat := []
  psumPoison : List Nat := []
  alignPoison : List Nat := []
  sat : Bool := false
  fpOverflow : Bool := false
  fpInvalid : Bool := false
  fpInexact : Bool := false
  satRow : Nat := 0
  satCol : Nat := 0
  satStroke : Nat := 0
  deriving DecidableEq, Repr

/-- The sequencer of a core (R174 to R192, Tables 6-11, 6-14). `phase` tells which parts of the present stroke have been
done, `word` the word it issues (0 for a drain stroke and in place of an inconsistent word), `banks` the banks of scratch that its accesses
take (R182). `srErr` lists the staging registers with an error that no read has met, true for an uncorrectable one (R404). -/
structure Sequencer where
  phase : Nat := 0
  word : Nat := 0
  stroke : Nat := 0
  pc : Nat := 0
  lc : Map Nat := []
  ix : Map Nat := []
  ag : Map U64 := []
  steps : Map U64 := []
  cmps : Map Cmp := []
  cf : Nat := 0
  loops : List CoxLoop := []
  nextPc : Option Nat := none
  ending : Bool := false
  writes : List CoxWrite := []
  ywait : YWait := .none
  active : Bool := false
  draining : Bool := false
  issued : Nat := 0
  stopped : Bool := false
  ended : Bool := false
  sr : Map Byte := []
  srPoison : List Nat := []
  srErr : Map Bool := []
  earlyRead : Bool := false
  doubleWrite : Bool := false
  inconsistent : Bool := false
  landing : Bool := false
  events : Nat := 0
  zeroTrips : Nat := 0
  log : Map CoxEntry := []
  logHead : Nat := 0
  firstUnmapped : Option Nat := none
  firstRelease : Option (Nat × Nat) := none
  banks : List Nat := []
  strokeLog : List CoxEntry := []
  deriving DecidableEq, Repr

/-- A prefetch entry of a program header (Table 6-1) and how its chain stands: 0 not queued, 1 queued or running, 2
complete, 3 met a fault during run-ahead. `owed` counts PREFETCH_BOUNDS entries found during run-ahead, to be written at
dispatch (R60). -/
structure Prefetch where
  desc : Nat
  area : Nat
  bytes : Nat
  stage : Nat := 0
  owed : Nat := 0
  deriving DecidableEq, Repr

/-- A cox program held by a core, or dispatched to it (R163 to R167): its launch, rank, loaded words, reservation and
what has become of it: `fault` and `done` are statuses with details. `wordErr` lists words of the stroke buffer that hold an
uncorrectable error (R405); `dumpStatus` is `COX_STATUS` at the end of the drain (R192). -/
structure CoxJob where
  launch : Nat
  rank : Nat
  dispatched : Bool := false
  loaded : Bool := false
  claimed : Bool := false
  halves : Nat := 0
  words : List Nat := []
  wordErr : List Nat := []
  resBase : Nat := 0
  resBytes : Nat := 0
  bad : Bool := false
  pf : List Prefetch := []
  started : Bool := false
  drained : Bool := false
  dump : Nat := 0
  dumpStatus : Nat := 0
  fault : Option (Nat × Nat) := none
  done : Option (Nat × Nat) := none
  deriving DecidableEq, Repr

/-- A cox launch (R51, R168): one or several cores with their ranks. -/
structure CoxLaunch where
  ctx : Nat
  pid : Nat
  cores : List Nat
  program : Nat
  words : Nat
  limit : Nat
  dump : Nat
  agBase : List U64
  agStride : List U64
  noPrefetch : Bool
  layer : Nat
  oper : Nat
  dispatched : Bool := false
  aborted : Bool := false
  deriving DecidableEq, Repr

/-! ### Feeder DMA, caches and homes (chapter 08) -/

/-- Who queued a chain (R215). -/
inductive ChainOwner where
  | packet (ctx pid : Nat)
  | crew (key launch idx : Nat)
  | prefetch (launch idx : Nat)
  | dump (launch : Nat)
  deriving DecidableEq, Repr

/-- A transfer of a `COPY` or `FILL` packet with DESC = 0 (R454), or of a dump (R192): source, or bytes to write. -/
inductive RawWork where
  | copy (src dst bytes srcSpace dstSpace : Nat)
  | fill (pattern dst bytes dstSpace : Nat)
  deriving DecidableEq, Repr

/-- A feeder DMA chain (R215): its owner, context, chain address, raw transfer, landing, and how far it has run: `desc` is the
descriptor read and not ended, `row` the first of its rows that is not written, `got` what has been read of that row or of a raw transfer, and
`writes`, once all of it has been read, what is still to be written (R205); `strayed` tells that it had a write discarded, `early` that its fault was met in run-ahead (R166). -/
structure Chain where
  owner : ChainOwner
  ctx : Nat
  addr : Nat
  space : Nat := 0
  raw : Option RawWork := none
  landing : Option Nat := none
  anyCore : Bool := false
  area : Option (Nat × Nat) := none
  layer : Nat := 0
  oper : Nat := 0
  started : Bool := false
  count : Nat := 0
  desc : Option (List Byte) := none
  row : Nat := 0
  got : List Byte := []
  writes : Option (List (Nat × List Byte)) := none
  finished : Bool := false
  early : Bool := false
  strayed : Bool := false
  fault : Option (Nat × Nat) := none
  deriving DecidableEq, Repr

/-- The feeder DMA engine of a core (R215, Table 8-4). `waiting` holds chains that found the queue full. -/
structure Engine where
  queue : List Chain := []
  waiting : List Chain := []
  badDesc : Bool := false
  reason : Nat := 0
  badCount : Nat := 0
  badAddr : Nat := 0
  deriving DecidableEq, Repr

/-- A line of a gallery cache way (R226): its poisoned halves (bit h for half h, R253), and its bytes where an error has since
changed the line in HBM below it (R252). -/
structure GcLine where
  line : Nat
  dirty : Bool
  poison : Nat := 0
  keep : Option (List Byte) := none
  deriving DecidableEq, Repr

/-- The gallery cache slice (Tables 8-5 to 8-7, R226, R231): lines keyed 16 set + way, errors as (way, time). -/
structure Slice where
  enable : Bool := false
  enabled : Bool := false
  invBusy : Bool := false
  invDone : Bool := false
  enableReject : Bool := false
  lockReject : Bool := false
  invReject : Bool := false
  wayDisabled : Bool := false
  lockLost : Bool := false
  disabledWays : Nat := 0
  locked : Nat := 0
  fillOnly : Nat := 0
  lines : Map GcLine := []
  errors : List (Nat × Nat) := []
  deriving DecidableEq, Repr

/-- The home's directory for a line (R232). Agent c below 160 is the L1 of core c, 160 + h the L2 of host core h. -/
inductive DirState where
  | uncached
  | shared (holders : List Nat)
  | owned (owner : Nat)
  deriving DecidableEq, Repr

/-- The requests of Table 8-8 that a home serves. -/
inductive HomeReq where
  | rdShared (agent : Nat)
  | rdUnique (agent : Nat)
  | wrThrough (agent mask : Nat) (bytes : List Byte)
  | atomic (agent : Nat) (op size off a b : Nat) (sgn : Bool)
  | ioRead (agent : Nat)
  | ioWrite (agent mask : Nat) (bytes : List Byte)
  deriving DecidableEq, Repr

/-- The transaction a home is handling for a line (R234): the request, the caches whose `INV` or `DOWNGRADE` answer is
outstanding, and whether the data or the write has been served; `took` lists the caches that have taken a snoop with the
answer they owe: 1 `INV_ACK` without data, 2 with, 3 `DOWN_ACK` without, 4 with. `old` is the value that an atomic's answer carries, and
`poison` the halves of the line that are poisoned where the request was served (R253). -/
structure HomeTxn where
  req : HomeReq
  inv : List Nat
  down : List Nat
  served : Bool := false
  grant : Nat := 0
  old : Nat := 0
  poison : Nat := 0
  took : List (Nat × Nat) := []
  deriving DecidableEq, Repr

/-- A line at its home: directory state, use stamp (R237), transaction and queue (R234). -/
structure HomeLine where
  dir : DirState := .uncached
  stamp : Nat := 0
  txn : Option HomeTxn := none
  queue : List HomeReq := []
  deriving DecidableEq, Repr

/-- A line in a host core's L2 (R232, R236): 1 S, 2 E, 3 M; the end of its hold; a snoop it has put off (1 `INV`,
2 `DOWNGRADE`); its poisoned halves (R253). -/
structure HostLine where
  st : Nat := 0
  poison : Nat := 0
  holdUntil : Nat := 0
  snoop : Nat := 0
  deriving DecidableEq, Repr

/-- A compute core. Crews are keyed 48 quarter + slot. `scratchSoft` lists the scratch words with a single-bit error (R214); `l1Mru` the
line of each L1 set used last, and `l1Err` the L1 lines with an uncorrectable error (R224); `ack` the last answer to an `ATOMIC` of the L1:
the line, and the old value unless it was poisoned (R233). The instruction cache keys its lines by context and address, and `icachePa` tells
which physical line each copies (R225). -/
structure Core where
  queue : List QueueItem := []
  crews : Map Crew := []
  ageSeq : Map Nat := []
  clock : Nat := 0
  scratch : Map Byte := []
  scratchPoison : List Nat := []
  scratchSoft : List Nat := []
  staging : List Staging := []
  jobs : List CoxJob := []
  seq : Sequencer := {}
  array : Matrix := {}
  engine : Engine := {}
  l1 : List Nat := []
  l1Mru : Map Nat := []
  l1Err : List Nat := []
  ack : Option (Nat × Option Nat) := none
  icache : Map (List Byte) := []
  icachePa : Map Nat := []
  deriving DecidableEq, Repr

/-! ### Host interface (chapter 13) -/

/-- A function's attention block, host block and PCI Express settings (Tables 13-3 to 13-6). `retireWait` is bit 8
of ATT_HBM, whose other bits are leaves; the ingress, gallery and fabric causes are read from their leaves. `hidden` holds, by block, the cause bits
that a write has cleared while bits below them remain set (R342). The last fields are what the host programs in configuration space: Max
Payload Size and Max Read Request Size in bytes, and the Completion Timeout (R334). -/
structure Func where
  enabled : Bool := false
  summary : Nat := 0
  enableMask : Nat := 0
  ctxFault : Nat := 0
  completion : Nat := 0
  mbx : Nat := 0
  seg : Nat := 0
  kftQueue : Nat := 0
  hidden : Map Nat := []
  assoc : Nat := 0
  host : Nat := 0
  ras : Nat := 0
  event : Nat := 0
  retireWait : Bool := false
  power : Nat := 0
  modCount : Nat := 1
  modTime : Nat := 0
  armed : Bool := true
  events : Nat := 0
  winStart : Option Nat := none
  asserted : Bool := false
  attnMask : Nat := 0x60100
  msixEnabled : Bool := false
  msixMasked : Bool := true
  msixPending : Bool := false
  held : Bool := false
  bme : Bool := false
  aperEnable : Bool := false
  aperBase : Nat := 0
  aperSize : Nat := 0x40000000
  aperRemoved : Bool := false
  errKind : Nat := 0
  errWrite : Bool := false
  errCtx : Nat := 0
  errAddr : Nat := 0
  mps : Nat := 128
  mrrs : Nat := 512
  cplTimeoutUs : Nat := 50000
  deriving DecidableEq, Repr

/-- A read of host memory that has not been answered (R336): function, context, address, when it was sent, and whether the function's
Completion Timeout has passed. -/
structure HostRead where
  fn : Nat
  ctx : Nat
  addr : Nat
  since : Nat
  expired : Bool := false
  deriving DecidableEq, Repr

/-- What leaves the module at its boundary (R1): the model's own log, newest first. -/
inductive OutEvent where
  | hostWrite (fn addr : Nat) (bytes : List Byte)
  | msix (fn : Nat)
  | inta (on : Bool)
  | attnN (low : Bool)
  | wakeN (low : Bool)
  | pwrGood (on : Bool)
  | regData (fn data : Nat)
  | bar2Data (fn : Nat) (bytes : List Byte)
  | bar2Fail (fn kind : Nat)
  | frame (port sub : Nat) (bytes : List Byte)
  | laneFrame (sub : Nat) (payload : List Byte)
  | netAnswer (f : NetFrame)
  | sideband (dst : Nat) (bytes : List Byte)
  deriving DecidableEq, Repr

/-! ### Counters and trace (chapter 17) -/

/-- A programmable counter (R420, R423, R424): its configuration, the count of the cycles that have ended, that of the last
cycle with an event, the cycle of its last reset with what it held then, and its snapshot. Pairs are layer + 65536 ×
operator. -/
structure Counter where
  cfg : Nat := 0
  base : Nat := 0
  cur : Nat := 0
  curAt : Nat := 0
  resetAt : Option Nat := none
  prev : Nat := 0
  pair : Nat := 0
  prevPair : Nat := 0
  snapValue : Nat := 0
  snapTag : Nat := 0
  deriving DecidableEq, Repr

/-- A bank of 16 counters, the pair of the core's most recently started command, and the cycle it started in; for a gallery's
bank, the cycle up to which its `CYCLES` counters have counted. -/
structure Bank where
  ctrs : Map Counter := []
  lastPair : Nat := 0
  lastStart : Option Nat := none
  deriving DecidableEq, Repr

/-- A trace buffer with its control registers (R426 to R428, Table 17-8). Records are 32 bytes, oldest first. -/
structure Trace where
  enable : Bool := false
  mask : Nat := 0
  ctx : Nat := 0
  log2 : Nat := 0
  base : Nat := 0
  written : Nat := 0
  fault : Bool := false
  drops : Nat := 0
  owedDrops : Nat := 0
  seq : Nat := 0
  recs : List (List Byte) := []
  deriving DecidableEq, Repr

/-- The event log and the notification queue of a function (R363): entries of 72 bytes, oldest first. -/
structure EventLog where
  events : List (List Byte) := []
  notes : List (List Byte) := []
  dropped : Nat := 0
  deriving DecidableEq, Repr

/-! ### Repairs, moves and removals (chapters 09, 11, 16) -/

/-- The repair map (Table 16-7): sites that substitute logical cores, failed sites, retired host cores, spared lanes of die
links (direction, lane, spare) and of fabric ports (port, direction, lane), narrowed directions, repaired rows
(pseudo-channel, row), retired channels, disabled ways (gallery, way) and retired management units. -/
structure RepairMap where
  subs : Map Nat := []
  failedSites : List Nat := []
  hostRetired : List Nat := []
  dieLanes : List (Nat × Nat × Nat) := []
  narrowed : List Nat := []
  fabLanes : List (Nat × Nat × Nat) := []
  rows : List (Nat × Nat) := []
  channels : List Nat := []
  ways : List (Nat × Nat) := []
  units : List Nat := []
  deriving DecidableEq, Repr, Inhabited

/-- Why regions are rebuilt: a channel retires (R256), groups leave a partition (R284), or a region changes its size, mode
and die (R247). -/
inductive MoveCause where
  | retire (channel : Nat)
  | groups (part leaving : Nat)
  | change (key size mode die : Nat)
  deriving DecidableEq, Repr

/-- A piece of moving work that Mitor has queued (R256, R259): the regions not yet rebuilt, whether a shortfall has been
told, and the Mitor path that waits for it. -/
structure MoveJob where
  cause : MoveCause
  todo : List Nat
  told : Bool := false
  path : Option Nat := none
  deriving DecidableEq, Repr

/-- A partition's stage-2 tables on their way to another group (R292): pages moved so far, and the run they go to. -/
structure TableMove where
  part : Nat
  pc : Nat
  base : Nat
  moved : Nat := 0
  deriving DecidableEq, Repr

/-- What a removal takes out of service (R300). -/
inductive DrainObj where
  | ctx (n : Nat)
  | part (q : Nat)
  | port (p : Nat)
  | core (c : Nat)
  deriving DecidableEq, Repr

/-- What follows a removal: the answer of `CTX_DISABLE`, of `PART_DESTROY`, of `DISABLE`, a core's substitution (R409), a
forced self-test (R413), or a module's removal (R350). -/
inductive DrainThen where
  | ctxDisable
  | partDestroy
  | disable
  | substitute
  | selfTest
  | portMode (cls split mtu : Nat) (autoneg : Bool)
  | removal
  deriving DecidableEq, Repr

/-- A removal in progress: its object, whether it has become a cut, when its timeout expires, what follows it, and the Mitor
path that waits for it. -/
structure Drain where
  obj : DrainObj
  cut : Bool := false
  deadline : Nat := 0
  after : DrainThen := .ctxDisable
  path : Option Nat := none
  deriving DecidableEq, Repr

/-! ### Mitor (chapter 14) -/

/-- A mailbox pair (Tables 14-1 to 14-3). -/
structure Mailbox where
  area : Map Byte := []
  post : Bool := false
  owner : Bool := false
  len : Nat := 0
  reject : Bool := false
  respArea : Map Byte := []
  respPost : Bool := false
  respLen : Nat := 0
  deriving DecidableEq, Repr

/-- How far a request has come: a reservation is being written (R361, with the write that holds it), its command may be
performed, its command is in progress, or its answer waits for the store (R370, with the write that holds the change). -/
inductive SubStage where
  | reserving (write : Nat)
  | ready
  | waiting
  | storing (write : Nat) (fields : List (List Byte))
  deriving DecidableEq, Repr

/-- A request that has passed its checks (R455): generation, command, tag, fields by type, key and counter of its envelope,
and its audit entry. -/
structure Sub where
  gen : Nat
  code : Nat
  tag : Nat
  fields : Map (List Byte) := []
  keyId : Nat := 0
  counter : Nat := 0
  bad : Option Nat := none
  audit : Option Nat := none
  bytes : List Byte := []
  stage : SubStage := .ready
  deriving DecidableEq, Repr

/-- A message that Mitor has taken on a path (R353, R357): its role and partition, for a batch the sub-requests to come and
the responses so far, and the request in progress. -/
structure Taken where
  role : Nat
  part : Option Nat := none
  via : Nat := 0
  gen : Nat := 2
  batch : Bool := false
  stop : Bool := false
  tag : Nat := 0
  rest : List (List Byte) := []
  done : List (List Byte) := []
  failed : Bool := false
  cur : Option Sub := none
  discard : Bool := false
  deriving DecidableEq, Repr

/-- A partition of the default layout (R3, R434). -/
structure LayoutPart where
  part : Nat
  galleries : Nat
  groups : Nat
  onPf0 : Bool
  ctxCeiling : Nat
  deviceCeiling : Nat
  fabricCeiling : Nat
  persist : Bool
  deriving DecidableEq, Repr, Inhabited

/-- The payload of a configuration record (R368). Keys are by key ID; `caps` holds the settings of Table 15-4 under
16 × type + index, `addrs` the fabric addresses of sub-ports as they were sent. -/
structure StoreData where
  repair : RepairMap := {}
  retired : List Nat := []
  layout : List LayoutPart := []
  caps : Map Nat := []
  thresholds : Map Nat := []
  addrs : Map (List Byte) := []
  keys : Map (List Byte) := []
  reserv : Map Nat := []
  boots : Nat := 0
  makerCounter : Nat := 0
  partGens : Map Nat := []
  floor : Nat := 0
  slot : Nat := 0
  helper : List Byte := []
  chain : List Byte := []
  sideAddr : Nat := 0x4D
  deriving DecidableEq, Repr, Inhabited

end Sys2Proof.Machine

namespace Sys2Proof

/-- The store contents that a maker-signed store image holds (R369), whose form no rule gives. Log entry 8. -/
opaque Config.storeImage : List Byte → Machine.StoreData

end Sys2Proof

namespace Sys2Proof.Machine

open Sys2Proof

/-- A bank's configuration record (R368, R369). -/
structure StoreBank where
  valid : Bool := false
  seq : Nat := 0
  data : StoreData := {}
  deriving DecidableEq, Repr

/-- A self-test that waits or runs (R412): kind and unit of Table 16-5, deadline, whether forced, and its path;
`lent` by its owner. -/
structure SelfTest where
  kind : Nat
  unit : Nat
  deadline : Nat
  force : Bool
  path : Option Nat := none
  lent : Bool := false
  deriving DecidableEq, Repr

/-! ### Fabric (chapter 12) -/

/-- A fabric port (R303 to R309, Table 12-9): mode, the spared sub-port, the lane that lane 8 replaces on receive and the one
it shadows on transmit, a shadow request under way (lane, number, first and last sent, answered), failed receive lanes, the
sub-port to whose partner lane 8 transmits with the start value of its test pattern, and what the stranger cause was last raised
for (R333). -/
structure FabPort where
  cls : Nat := 0
  split : Nat := 0
  mtu : Nat := 0
  autoneg : Bool := false
  draining : Bool := false
  spare : Option Nat := none
  rxLane : Option Nat := none
  txLane : Option Nat := none
  request : Option (Nat × Nat × Nat × Nat × Bool) := none
  failed : List Nat := []
  pattern : Option (Nat × Nat) := none
  strangerAt : Option Nat := none
  strangerSum : Nat := 0
  deriving DecidableEq, Repr

/-- A sub-port p.i, keyed 4p + i (R304, R311, Table 12-11): link, addresses, counters, when its training or its candidacy for
lane 8 began, the number and the time of its last offer of sparing (`offerAt` while an answer may come), and the handshake packets of
the present second (R333). -/
structure SubPort where
  up : Bool := false
  ip6 : List Byte := []
  ip4 : List Byte := []
  dscp : Nat := 0
  ctrs : Map Nat := []
  trainAt : Nat := 0
  candAt : Option Nat := none
  offerSeq : Nat := 0
  offerAt : Option Nat := none
  offered : Nat := 0
  hsStart : Nat := 0
  hsCount : Nat := 0
  deriving DecidableEq, Repr

/-- The keys of an epoch of an association (R329 to R331) with the peer's tag: next counter sent, highest counter authenticated plus one, and the
counters seen in the window below it. -/
structure EpochKey where
  epoch : Nat
  tag : Nat
  sendKey : List Byte
  recvKey : List Byte
  sendSalt : List Byte
  recvSalt : List Byte
  ctr : Nat := 0
  high : Nat := 0
  seen : List Nat := []
  born : Nat := 0
  deriving DecidableEq, Repr

/-- A message segment (Table 12-6). -/
structure Seg where
  mop : Nat
  seq : Nat
  off : Nat := 0
  total : Nat := 0
  addr : Nat := 0
  arg : Nat := 0
  data : List Byte := []
  deriving DecidableEq, Repr

/-- A packet sent and not acknowledged (R323): its path and number, when it and its oldest segment were first sent, its
timer, its bytes on the wire, and its segments (none for a `PROBE`). -/
structure SentPkt where
  path : Nat
  psn : Nat
  at' : Nat
  first : Nat
  timer : Nat
  size : Nat
  segs : List Seg
  deriving DecidableEq, Repr

/-- A path of an association (R321 to R325): sub-port, peer address, entropy, next number, whether in service, probes
unanswered, the state of its rate, in Gb/s and ns, with the RTTs of the last 10 s that a later one has not undercut (R325), its credit in
the weighted round-robin (R324), and when its pacing lets the next packet leave. -/
structure KPath where
  sub : Nat
  peer : List Byte
  entropy : Nat
  psn : Nat := 0
  live : Bool := true
  unanswered : Nat := 0
  probeAt : Nat := 0
  rate : Rat := 0
  alpha : Rat := 0
  srtt : Nat := 0
  rttvar : Nat := 0
  rtts : List (Nat × Nat) := []
  credit : Rat := 0
  nextAt : Nat := 0
  incr : Rat := 0
  good : Nat := 0
  changed : Nat := 0
  deriving DecidableEq, Repr

/-- What a receiver keeps of one of the peer's paths (R322): the number below which all have been received, those received
above, CE marks and packets since the last acknowledgement, when the first of them came, and the newest timestamp. -/
structure RxPath where
  cum : Nat := 0
  got : List Nat := []
  ce : Nat := 0
  owed : Nat := 0
  since : Option Nat := none
  ts : Nat := 0
  deriving DecidableEq, Repr

/-- A message sent and not answered (R317, R319): its operation (Table 12-6), the work entry it comes from (context, queue,
entry count) or none for a landing message, the local address, its length, and the parts of a read that have come. -/
structure OutMsg where
  seq : Nat
  mop : Nat
  ctx : Nat := 0
  queue : Nat := 0
  entry : Option Nat := none
  no : Nat := 0
  addr : Nat := 0
  len : Nat := 0
  got : List (Nat × Nat) := []
  ldg : Option (Nat × Nat) := none
  deriving DecidableEq, Repr

/-- A message that arrives in several segments, or a landing message that waits for its turn (R320). -/
structure InMsg where
  seq : Nat
  mop : Nat
  addr : Nat := 0
  arg : Nat := 0
  total : Nat := 0
  got : List (Nat × Nat) := []
  bad : Nat := 0
  deriving DecidableEq, Repr

/-- The states of an association (Table 12-12). -/
inductive AssocState where
  | idle
  | handshake
  | up
  | rekeying
  | failed
  deriving DecidableEq, Repr

/-- A window of a target context (R318). -/
structure Window where
  base : Nat
  size : Nat
  r : Bool
  w : Bool
  a : Bool
  deriving DecidableEq, Repr

/-- An association (R327 to R332): whether it is set, its ends, the handshake under way (own ephemeral key, own `HELLO` or
`REPLY` and the message it answers, the time it began), its keys with the current one first, the messages of the handshake that made
them and the peer's partition key, paths, those to be changed (none: taken out of the table), traffic, and counters. -/
structure Assoc where
  live : Bool := false
  state : AssocState := .idle
  part : Nat := 0
  target : Nat := 0
  peerHash : List Byte := []
  peerPart : Nat := 0
  peers : List (List Byte) := []
  ownTag : Nat := 0
  confirm : List Byte := []
  initiator : Bool := false
  epoch : Nat := 0
  eph : List Byte := []
  hello : List Byte := []
  reply : List Byte := []
  began : Nat := 0
  next : Option EpochKey := none
  keys : List EpochKey := []
  transcript : List Byte := []
  peerPub : List Byte := []
  oldUntil : Nat := 0
  paths : Map KPath := []
  rxPaths : Map RxPath := []
  sendQ : List Seg := []
  retxQ : List SentPkt := []
  sent : List SentPkt := []
  outMsgs : List OutMsg := []
  nextSeq : Nat := 0
  rxLow : Nat := 0
  rxDone : List Nat := []
  rxMsgs : List InMsg := []
  windows : Map Window := []
  pathMove : Map (Option KPath) := []
  txPkts : Nat := 0
  retx : Nat := 0
  ce : Nat := 0
  deriving DecidableEq, Repr

/-- A work entry that the engine has taken (R316, R317): its count, fields, and whether it waits for earlier ones. -/
structure WorkEntry where
  k : Nat
  no : Nat
  bytes : List Byte
  held : Bool
  sent : Bool := false
  deriving DecidableEq, Repr

/-- A send queue of a context (R316), keyed 8 × context + queue: ring, association, go landing, entries taken since creation, the
generation of its last wake-up, and whether it is awake or stopped. -/
structure SendQueue where
  live : Bool := false
  ring : Nat := 0
  log2 : Nat := 0
  assoc : Nat := 0
  goLid : Nat := 0
  taken : Nat := 0
  gen : Nat := 0
  awake : Bool := false
  stopped : Bool := false
  entries : List WorkEntry := []
  deriving DecidableEq, Repr

/-! ### Power, host cores and start-up (chapters 15 and 18) -/

/-- What a gallery's controller has learnt of a phase (R388): carried pair, mean and peak current, rise rate, and the clock
and duty it chose. -/
structure Profile where
  pair : Nat
  mean : Nat
  peak : Nat
  rise : Nat
  clock : Nat
  duty : Nat
  deriving DecidableEq, Repr

/-- The compute part of a gallery (R384, R388, R390, R395, Tables 15-6 and 15-10): state (0 Off, 1 Retention, 2 Clock-gated, 3
Active), the limits in force by limiter (1 learned phase, 2 compute budget, 3 rail, 4 thermal, 5 paddle rise) as (duty, MHz),
the paddle floor or rise limit as steps left with its start, the current, the phase and the profiles, and when the gallery
became idle and began to be limited. -/
structure GalPower where
  st : Nat := 0
  limits : Map (Nat × Nat) := []
  floorStep : Nat := 0
  floorTop : Nat := 0
  rising : Bool := false
  stepAt : Nat := 0
  draw : Nat := 0
  idleAt : Nat := 0
  gatedAt : Nat := 0
  limitedAt : Option Nat := none
  toldAt : Nat := 0
  pair : Nat := 0
  hit : Bool := false
  profiles : List Profile := []
  deriving DecidableEq, Repr

/-- The thermal control of a die (Table 15-8; 4 the IO die): when its clocks last moved a step, whether 110 °C holds them, the
stacks whose refresh-only service holds them, and the steps by which the IO die has slowed the host cores. -/
structure DieHeat where
  stepAt : Nat := 0
  crit : Bool := false
  held : List Nat := []
  slow : Nat := 0
  deriving DecidableEq, Repr

/-- A host core (R23, R283): 0 in reset waiting for its boot request, 1 running, 2 stopped; the entry and argument of its boot
request; what its last load of a landing access page gave, or that its last access to one raised an access fault (R281). -/
structure HostCore where
  run : Nat := 0
  entry : Nat := 0
  arg : Nat := 0
  pageData : Nat := 0
  pageFault : Bool := false
  deriving DecidableEq, Repr

/-- The readings of Table 15-9 that come from sensors. -/
structure Readings where
  vin : Nat := 0
  iin : Nat := 0
  pin : Nat := 0
  classPower : List Nat := []
  partPower : Map Nat := []
  dieTemp : Map Int := []
  coolant : List Int := []
  deriving DecidableEq, Repr

/-- A firmware activation in progress (R377): its path, when it began, whether the standby unit has reported ready. -/
structure Activation where
  path : Nat
  since : Nat
  ready : Bool := false
  deriving DecidableEq, Repr

/-! ### The machine -/

/-- Why a step can stop with a fault. No meaning raises one: every error that the spec describes is a next state (log entry 1). -/
inductive Fault where
  /-- An access to an address that no map of the spec holds: raised by nothing, since the spec says what each such access does (a
  fault record, an abort, all-ones data). Safe. -/
  | noSuchAddress
  deriving DecidableEq, Repr

/-- Why a command has no meaning. -/
inductive Refusal where
  /-- Raised by an arm of exec whose command has no meaning yet; every command has its meaning, so no arm raises it. Safe. -/
  | notModelled (mnemonic : String)
  deriving DecidableEq, Repr

/-- The state of the module. -/
structure State where
  /-- The model's own fields. -/
  pending : List Instr := []
  out : List OutEvent := []
  free : Nat := 0
  now : Nat := 0
  stalled : Bool := false
  /-- Contexts, packets and launches. -/
  ctxs : Map Ctx := []
  turn : Nat := 0
  launches : Map Launch := []
  nextLaunch : Nat := 1
  coxLaunches : Map CoxLaunch := []
  saved : List SavedCrew := []
  /-- Cores, caches and homes. -/
  cores : Map Core := []
  slices : Map Slice := []
  homes : Map HomeLine := []
  hostLines : Map HostLine := []
  stamp : Nat := 0
  /-- Partitions and memory. -/
  parts : Map Partition := []
  regions : Map Region := []
  allocs : List Alloc := []
  stage2 : List S2Map := []
  tlb : List TlbEntry := []
  segs : Map Segment := []
  rebuilds : List Rebuild := []
  migRegion : Nat := 0
  migPart : Nat := 0
  hbmStacks : Map Stack := []
  buckets : Map Bucket := []
  hbm : Map Byte := []
  hbmPoison : List Nat := []
  /-- Landings. -/
  slots : Map Slot := []
  moves : List SlotMove := []
  mirrorQ : List MirrorArrival := []
  nextMark : Nat := 1
  /-- Host interface. -/
  funcs : Map Func := []
  linkUp : Bool := false
  linkRate : Nat := 0
  linkWidth : Nat := 0
  linkFlit : Bool := false
  hostReads : List HostRead := []
  sris : Bool := false
  numVfs : Nat := 0
  mitorReady : Bool := false
  musLost : Bool := false
  attnLow : Bool := false
  wakeLow : Bool := false
  removalPrepared : Bool := false
  /-- The moment the buckets were last refilled (R249). -/
  bucketTime : Nat := 0
  /-- Logical cores retired without a site (R20), and cores out of service for a drain or cut (R301). -/
  retired : List Nat := []
  coresOut : List Nat := []
  /-- FAB_PORT_EVENT of each port (Table 12-10). -/
  portEvents : Map Nat := []
  /-- Landing messages waiting for the fabric engine (R280), and the work entries of each context that its queues have taken and that have
  not completed (R317, R319): (context, entry number). -/
  ldgMsgs : List LdgMsg := []
  kftOpen : List (Nat × Nat) := []
  /-- Counter banks of cores and galleries, the module-wide counters, trace buffers (core c, gallery 1000 + g), and the
  event logs of the functions. -/
  coreBanks : Map Bank := []
  galBanks : Map Bank := []
  wideCounters : Map Nat := []
  traces : Map Trace := []
  logs : Map EventLog := []
  /-- Reliability: the times of the errors of each source and unit (key 2^20 source + unit) and of the corrected errors in
  each function's reach (R403, R407), when each function was last told, and the settings of Table 14-13 that the installer
  has changed. -/
  rasTimes : Map (List Nat) := []
  corrTimes : Map (List Nat) := []
  corrTold : Map Nat := []
  thresholds : Map Nat := []
  /-- Moving work that is queued, stage-2 tables on the move, and removals in progress. -/
  moveJobs : List MoveJob := []
  tableMoves : List TableMove := []
  drains : List Drain := []
  /-- The times at which half-lines of a channel were poisoned (R256). -/
  poisonTimes : Map (List Nat) := []
  /-- Mitor: mailbox pairs (keys 0 to 8 function pairs, 9 installer, 10 maker), messages taken by path, keys' last accepted
  counters, the store with its two banks, its write in progress and its changes not yet written, the audit ring and its
  next entry number, and the firmware slots. -/
  mailboxes : Map Mailbox := []
  taken : Map Taken := []
  keyLast : Map Nat := []
  conf : StoreData := {}
  bankA : StoreBank := {}
  bankB : StoreBank := {}
  curBank : Nat := 0
  writing : Option StoreData := none
  writeNo : Nat := 0
  storeDirty : Bool := false
  audit : Map (List Byte) := []
  auditNext : Nat := 0
  boots : Nat := 0
  rtcStart : Nat := 0
  fwSlots : Map (Map Byte) := []
  running : Map Byte := []
  seed : Option (List Byte) := none
  makerAllowed : Option Nat := none
  scopes : List (Nat × Nat) := []
  reports : Map (List Byte) := []
  sideEid : Nat := 0
  selfTests : List SelfTest := []
  /-- Placement items set aside for pre-empted contexts (R287). -/
  aside : List (Nat × QueueItem) := []
  /-- Fabric: ports, sub-ports (4p + i), associations, send queues (8 × context + queue), the next number of a taken work entry,
  the module-wide UDP port, and resolved neighbours (R311). -/
  ports : Map FabPort := []
  subPorts : Map SubPort := []
  assocs : Map Assoc := []
  queues : Map SendQueue := []
  nextWork : Nat := 0
  udpPort : Option Nat := none
  neighbours : List (Nat × List Byte) := []
  /-- Power: 0 Unpowered, 1 Standby, 2 Up; pins, galleries, host cores, die uncores that are idle, transfer step of the memory
  class, throttled rails with their steps, sensor readings, whether a thermal trip is in force, droop-stretched galleries, and what thermal control and the last allocation hold. -/
  supply : Nat := 0
  pwrEn : Bool := false
  pwrGood : Bool := false
  perstN : Bool := false
  lockout : Bool := false
  brownSince : Option Nat := none
  goodSince : Option Nat := none
  gals : Map GalPower := []
  hostCores : Map HostCore := []
  uncoreIdle : List Nat := []
  memStep : Nat := 0
  railSteps : Map Nat := []
  allocAt : Nat := 0
  readings : Readings := {}
  tripped : Bool := false
  stretched : List Nat := []
  heat : Map DieHeat := []
  budgets : Map Nat := []
  /-- The management units: the active one, those retired, whether asleep, the standby's last self-test, the restarts of the
  last hour (R442), an activation in progress, whether Mitor serves the sideband (R433) or start-up has stopped for want of a
  record or an image (R369, R376), whether the default layout is still to be applied (R434), the passed tests of spare sites (R409), and when
  a lane recalibration was postponed (R414), by 2^20 kind + 256 unit + lane. -/
  mitorUp : Bool := false
  bootStopped : Bool := false
  layoutDue : Bool := false
  activeMu : Nat := 0
  muAsleep : Bool := false
  muTested : Nat := 0
  softResets : List Nat := []
  activation : Option Activation := none
  siteTests : Map Nat := []
  recalAt : Map Nat := []
  paddleEnergy : Map Nat := []
  deriving DecidableEq, Repr

/-- The module right after reset: unpowered, no partition, no context, every collection empty (spec 00_scope.md R3,
18_startup_and_hardware.md). The values that no rule gives are named in log entry 9. -/
def State.reset : State := {}

end Sys2Proof.Machine
end

