-- ==== Sys2Proof/Machine/MatrixOps.lean ====
section
/-! DEFINITION. The matrix array and its accumulator buffer (05_matrix_array.md R138 to R160): one step of the cells, commits
of load phases, and what a result row does when it lands. -/

namespace Sys2Proof.Machine

open Sys2Proof

/-! ### Cells -/

/-- The term f(x, w) of a cell mode (Table 5-1). -/
def cellTerm (m : RowMode) (x w : Nat) : Int :=
  let sx := fun (v n : Nat) => if m.asgn then sext v n else ((v % 2 ^ n : Nat) : Int)
  let sw := fun (v n : Nat) => if m.bsgn then sext v n else ((v % 2 ^ n : Nat) : Int)
  match m.mode with
  | 0 => sx x 8 * sw w 8
  | 1 => sx x 4 * sw w 4 + sx (x / 16) 4 * sw (w / 16) 4
  | 2 => sx x 8 * sw w 4
  | 3 => (((sx x 8 - sw w 8).natAbs : Nat) : Int)
  | 4 => (sx x 8 - sw w 8) * (sx x 8 - sw w 8)
  | _ => sx x 8 + sw w 8

/-- What a cell hands down (R141): an empty sum takes the term, another is combined by the cell's mode; a disabled cell
passes its input on. -/
def cellSum (m : RowMode) (p : Option Int) (f : Int) : Option Int :=
  if !m.enable then p
  else
    match p with
    | none => some f
    | some v => some (if m.mode = 5 then max v f else if m.mode = 6 then min v f else v + f)

/-- Whether row k is in a load phase in stroke t (R143). -/
def LoadPhase.covers (l : LoadPhase) (k t : Nat) : Bool := decide (l.t0 + k ≤ t) && decide (t ≤ l.t0 + k + 127)

/-- The byte that row k takes in stroke t, given the rows on the A path and on the B-load path (R146, R147). -/
def Matrix.edge (a : Matrix) (k t : Nat) (pathA pathB : List Byte) : Byte :=
  if a.loads.any (fun l => l.covers k t) then pathB.getD k 0 else pathA.getD k 0

/-- The pass register of cell (k, j) after stroke t (R138). -/
def Matrix.passed (a : Matrix) (t : Nat) (pathA pathB : List Byte) (k j : Nat) : Byte :=
  if j = 0 then a.edge k t pathA pathB else mget 0 a.pass (128 * k + j - 1)

/-- One value for every cell, as a map. -/
def gridMap {α : Type} [DecidableEq α] (d : α) (f : Nat → Nat → α) : Map α :=
  (List.range 16384).filterMap (fun i => let v := f (i / 128) (i % 128); if v = d then none else some (i, v))

/-- The rows that commit at the end of stroke t, with the load they belong to. -/
def Matrix.commits (a : Matrix) (t : Nat) : List (Nat × LoadPhase) :=
  (List.range 128).filterMap (fun k => (a.loads.find? (fun l => decide (l.t0 + k + 127 = t))).map (fun l => (k, l)))

/-- A row copies its pass registers into its weights and takes the load's mode (R143). -/
def Matrix.commitRow (a : Matrix) (k : Nat) (l : LoadPhase) : Matrix :=
  { a with
    rowErr := sremove a.rowErr k
    rowFound := sremove a.rowFound k
    weights := (List.range 128).foldl (fun w j => mset 0 w (128 * k + j) (mget 0 a.pass (128 * k + j))) a.weights
    modes := mset {} a.modes k ⟨l.mode, l.asgn, l.bsgn, decide (k < l.kr)⟩ }

/-- The cells whose sum in this stroke has passed a row with a parity error (R406). -/
def Matrix.spoilt (a : Matrix) : List Nat :=
  if a.rowErr = [] ∧ a.psumPoison = [] then []
  else (List.range 16384).filter (fun i => decide (i / 128 ∈ a.rowErr) || (decide (128 ≤ i) && decide (i - 128 ∈ a.psumPoison)))

/-- One step of the array in stroke t (R138, R141, R143, R148): bytes move right, sums move down, the sum that leaves
(127, j) waits as column j of the row with head t − 127 − j, and rows that end their load phase commit. -/
def Matrix.step (a : Matrix) (t : Nat) (pathA pathB : List Byte) : Matrix :=
  let pass := gridMap 0 (a.passed t pathA pathB)
  let sums := gridMap none (fun k j =>
    let m := mget {} a.modes k
    let p := if k = 0 then none else mget none a.psum (128 * (k - 1) + j)
    cellSum m p (cellTerm m (a.passed t pathA pathB k j).toNat (mget 0 a.weights (128 * k + j)).toNat))
  let out := (List.range 128).foldl (fun al j =>
    if 127 + j ≤ t then mset 0 al (128 * (t - 127 - j) + j) ((mget none sums (128 * 127 + j)).getD 0) else al) a.align
  let bad := a.spoilt
  let left := (List.range 128).filterMap (fun j => if 127 + j ≤ t ∧ 128 * 127 + j ∈ bad then some (128 * (t - 127 - j) + j) else none)
  let b := { a with
    pass, psum := sums, align := mkeep out (fun k _ => decide (t ≤ k / 128 + 260))
    psumPoison := bad
    alignPoison := (a.alignPoison ++ left).filter (fun k => decide (t ≤ k / 128 + 260)) }
  let c := (a.commits t).foldl (fun b e => b.commitRow e.1 e.2) b
  { c with loads := c.loads.filter (fun l => decide (t < l.t0 + 254)) }

/-! ### The accumulator (R151 to R155) -/

/-- One entry after a landing (Table 5-4), with the flags it sets: 1 saturation, 2 overflow, 4 invalid, 8 inexact. -/
def accEntry (op fmt : Nat) (w : Int) (e : Nat) (s : Int) : Nat × Nat :=
  if fmt = 0 then
    let old := sext e 32
    match op with
    | 1 => (toMod s 32, 0)
    | 2 =>
      let v := old + s
      if v < -0x80000000 then (0x80000000, 1) else if 0x7FFFFFFF < v then (0x7FFFFFFF, 1) else (toMod v 32, 0)
    | 3 => (toMod (max old s) 32, 0)
    | _ => (toMod (min old s) 32, 0)
  else
    let f := if fmt = 1 then fp32 else fp64
    let (p, fl) := f.roundInt 0 s w false
    let ovf := fun (fl : Nat) => if fl &&& fOverflow ≠ 0 then 2 else 0
    if op = 1 then (p, ovf fl)
    else
      let (r, fl2) := f.add 0 e p
      (r, ovf (fl ||| fl2) ||| (if fl2 &&& fInvalid ≠ 0 then 4 else 0) ||| (if fl2 &&& fInexact ≠ 0 then 8 else 0))

/-- Entry j of row r in a format: FP64 takes rows r and r + 1 (R151). -/
def Matrix.entry (a : Matrix) (fmt r j : Nat) : Nat :=
  let lo := (mget 0 a.acc (128 * r + j)).toNat
  if fmt = 2 then lo + 2 ^ 32 * (mget 0 a.acc (128 * (r + 1) + j)).toNat else lo

def Matrix.setEntry (a : Matrix) (fmt r j v : Nat) : Matrix :=
  let m := mset 0 a.acc (128 * r + j) (BitVec.ofNat 32 v)
  { a with acc := if fmt = 2 then mset 0 m (128 * (r + 1) + j) (BitVec.ofNat 32 (v / 2 ^ 32)) else m }

/-- The accumulator entries of a row in a format, as keys. -/
def entryKeys (fmt row : Nat) : List Nat :=
  let one := fun (r : Nat) => (List.range 128).map (fun j => 128 * r + j)
  if fmt = 2 then one row ++ one (row + 1) else one row

/-- A result row lands in stroke t (R152 to R155). A `WRITE` clears the poison of its entries, another operation keeps it,
and an entry whose column result has passed a row with a parity error is poisoned (R406). -/
def Matrix.land (a : Matrix) (c : ResultCmd) (t : Nat) : Matrix :=
  let one := fun (st : Matrix × List Nat) (j : Nat) =>
    let (v, fl) := accEntry c.op c.fmt c.weight (st.1.entry c.fmt c.row j) (mget 0 a.align (128 * c.head + j))
    (st.1.setEntry c.fmt c.row j v, st.2 ++ [fl])
  let (b, fls) := (List.range 128).foldl one (a, [])
  let all := fls.foldl (· ||| ·) 0
  let b := { b with
    fpOverflow := b.fpOverflow || bit all 1
    fpInvalid := b.fpInvalid || bit all 2
    fpInexact := b.fpInexact || bit all 3
    accPoison :=
      let keys := entryKeys c.fmt c.row
      let rest := if c.op = 1 then b.accPoison.filter (fun k => decide (k ∉ keys)) else b.accPoison
      (keys.filter (fun k => decide (128 * c.head + k % 128 ∈ a.alignPoison))).foldl sinsert rest
    accErr := if c.op = 1 then mkeep b.accErr (fun k _ => decide (k ∉ entryKeys c.fmt c.row)) else b.accErr
    results := b.results.filter (fun r => decide (r ≠ c)) }
  if bit all 0 && !a.sat then
    { b with sat := true, satRow := c.row, satCol := fls.findIdx (fun f => bit f 0), satStroke := t % 2 ^ 40 }
  else b

/-- `ARR_STATUS` (Table 5-5). -/
def Matrix.status (a : Matrix) : Nat :=
  b2n a.sat + 2 * b2n a.fpOverflow + 4 * b2n a.fpInvalid + 8 * b2n a.fpInexact + 256 * a.satRow + 2 ^ 17 * a.satCol +
    2 ^ 24 * a.satStroke

/-- Clears `ARR_STATUS` (R155). -/
def Matrix.clearStatus (a : Matrix) : Matrix :=
  { a with sat := false, fpOverflow := false, fpInvalid := false, fpInexact := false, satRow := 0, satCol := 0, satStroke := 0 }

/-! ### Slice runs (R156, R157, Table 7-3) -/

/-- Passes of a run. -/
def SliceRun.passes (r : SliceRun) : Nat := if r.three then 6 else 3

/-- The stroke after the run's last. -/
def SliceRun.stop (r : SliceRun) : Nat := r.t0 + r.passes * (r.m + 128)

/-- The weight of pass p. -/
def passWeight (p : Nat) : Int := if p = 0 then -14 else if p ≤ 2 then -22 else -30

/-- The accumulator row of result m of a run. -/
def SliceRun.rowOf (r : SliceRun) (m : Nat) : Nat := (r.row + (if r.fmt = 2 then 2 else 1) * m) % 512

/-- What the sequencer issues for a run in stroke t: a pass load, or a result command. -/
def Matrix.runStep (a : Matrix) (t : Nat) : Matrix :=
  match a.run with
  | none => a
  | some r =>
    if r.stop ≤ t then { a with run := none }
    else
      let o := t - r.t0
      let p := o / (r.m + 128)
      let e := o % (r.m + 128)
      if e = 0 then { a with loads := a.loads ++ [⟨t, 0, true, true, r.kr⟩], lastLoad := some t }
      else if e < 128 then a
      else
        { a with results := a.results ++
            [⟨t, if decide (p = 0) && !r.add then 1 else 2, r.fmt, r.rowOf (e - 128), passWeight p, r.pc⟩] }

/-- Whether a result command or run landing covers row a, its format's second row included. -/
def coversRow (fmt row a : Nat) : Bool := decide (row = a) || (decide (fmt = 2) && decide (row + 1 = a))

/-- The first stroke after t in which a tracked write lands on an accumulator row (R183). -/
def Matrix.nextLanding (m : Matrix) (t a : Nat) : Option Nat :=
  let direct := (m.results.filter (fun c => coversRow c.fmt c.row a && decide (t < c.head + 260))).map (fun c => c.head + 260)
  let runs := match m.run with
    | none => []
    | some r =>
      (List.range r.passes).flatMap (fun p => (List.range r.m).filterMap (fun i =>
        let l := r.t0 + p * (r.m + 128) + 128 + i + 260
        if coversRow r.fmt (r.rowOf i) a && decide (t < l) then some l else none))
  match direct ++ runs with
  | [] => none
  | x :: xs => some (minOf x xs)

/-! ### Store conversions (Table 6-5a) -/

/-- e / 2^s rounded to nearest, ties to even. -/
def roundShift (e : Int) (s : Nat) : Int :=
  let d : Int := ((2 ^ s : Nat) : Int)
  let q := e / d
  let r := e % d
  if 2 * r > d ∨ (2 * r = d ∧ q % 2 = 1) then q + 1 else q

def clamp (lo hi v : Int) : Int := if v < lo then lo else if hi < v then hi else v

/-- Whether a conversion reads two rows. -/
def convPair (conv : Nat) : Bool := decide (conv = 1 ∨ conv = 4)

/-- Bytes of an entry's output. -/
def convBytes (conv : Nat) : Nat :=
  match conv with
  | 0 => 4
  | 1 => 8
  | 4 => 4
  | 5 => 1
  | 6 => 1
  | _ => 2

/-- One converted entry. -/
def convEntry (conv shift e : Nat) : Nat :=
  match conv with
  | 0 => e
  | 1 => e
  | 2 => (fp32.convert bf16 0 e).1
  | 3 => (fp32.convert fp16 0 e).1
  | 4 => (fp64.convert fp32 0 e).1
  | 5 => toMod (clamp (-128) 127 (roundShift (sext e 32) shift)) 8
  | 6 => toMod (clamp 0 255 (roundShift (sext e 32) shift)) 8
  | _ => toMod (clamp (-32768) 32767 (roundShift (sext e 32) shift)) 16

/-- The bytes of a converted row. -/
def Matrix.converted (a : Matrix) (conv shift row : Nat) : List Byte :=
  (List.range 128).flatMap (fun j =>
    toBytes (convBytes conv) (convEntry conv shift (a.entry (if convPair conv then 2 else 0) row j)))

end Sys2Proof.Machine
end

