-- ==== Sys2Proof/Machine/Ops.lean ====
section
/-! DEFINITION. The named operations over the state that every family uses: reading and writing one unit, the free
values, the clock, and what leaves the module. -/

namespace Sys2Proof.Machine

open Sys2Proof

/-- The outcome of a meaning that always goes on. -/
abbrev Outcome := Host.Outcome State Fault Refusal

/-! ### One unit of the state -/

def State.ctx (s : State) (n : Nat) : Ctx := mget {} s.ctxs n
def State.setCtx (s : State) (n : Nat) (c : Ctx) : State := { s with ctxs := mset {} s.ctxs n c }
def State.modCtx (s : State) (n : Nat) (f : Ctx → Ctx) : State := s.setCtx n (f (s.ctx n))

def State.core (s : State) (n : Nat) : Core := mget {} s.cores n
def State.setCore (s : State) (n : Nat) (c : Core) : State := { s with cores := mset {} s.cores n c }
def State.modCore (s : State) (n : Nat) (f : Core → Core) : State := s.setCore n (f (s.core n))

def State.part (s : State) (n : Nat) : Partition := mget {} s.parts n
def State.setPart (s : State) (n : Nat) (p : Partition) : State := { s with parts := mset {} s.parts n p }

def State.slot (s : State) (k : Nat) : Slot := mget {} s.slots k
def State.setSlot (s : State) (k : Nat) (x : Slot) : State := { s with slots := mset {} s.slots k x }
def State.modSlot (s : State) (k : Nat) (f : Slot → Slot) : State := s.setSlot k (f (s.slot k))

def State.func (s : State) (n : Nat) : Func := mget {} s.funcs n
def State.setFunc (s : State) (n : Nat) (x : Func) : State := { s with funcs := mset {} s.funcs n x }
def State.modFunc (s : State) (n : Nat) (f : Func → Func) : State := s.setFunc n (f (s.func n))

def State.slice (s : State) (g : Nat) : Slice := mget {} s.slices g
def State.setSlice (s : State) (g : Nat) (x : Slice) : State := { s with slices := mset {} s.slices g x }
def State.modSlice (s : State) (g : Nat) (f : Slice → Slice) : State := s.setSlice g (f (s.slice g))

def State.home (s : State) (k : Nat) : HomeLine := mget {} s.homes k
def State.setHome (s : State) (k : Nat) (x : HomeLine) : State := { s with homes := mset {} s.homes k x }

def State.hostLine (s : State) (k : Nat) : HostLine := mget {} s.hostLines k
def State.setHostLine (s : State) (k : Nat) (x : HostLine) : State := { s with hostLines := mset {} s.hostLines k x }

def State.stack (s : State) (k : Nat) : Stack := mget {} s.hbmStacks k
def State.setStack (s : State) (k : Nat) (x : Stack) : State := { s with hbmStacks := mset {} s.hbmStacks k x }

def State.seg (s : State) (i : Nat) : Segment := mget {} s.segs i
def State.setSeg (s : State) (i : Nat) (x : Segment) : State := { s with segs := mset {} s.segs i x }

def State.bucket (s : State) (k : Nat) : Bucket := mget {} s.buckets k
def State.setBucket (s : State) (k : Nat) (x : Bucket) : State := { s with buckets := mset {} s.buckets k x }

/-- The key of a crew slot in its core. -/
def ckey (c : CrewId) : Nat := 48 * c.quarter + c.slot

/-- The crew resident in a slot, if any. -/
def State.crew (s : State) (core key : Nat) : Option Crew := mfind (s.core core).crews key

/-- Puts a crew into its slot. -/
def State.setCrew (s : State) (core key : Nat) (c : Crew) : State :=
  s.modCore core (fun k => { k with crews := minsert k.crews key c })

/-- Changes the crew of a slot, if one is resident. -/
def State.modCrew (s : State) (core key : Nat) (f : Crew → Crew) : State :=
  match s.crew core key with
  | some c => s.setCrew core key (f c)
  | none => s

/-- The launch of a number, if it is in flight. -/
def State.launch (s : State) (n : Nat) : Option Launch := mfind s.launches n

/-- Changes a launch in flight. -/
def State.modLaunch (s : State) (n : Nat) (f : Launch → Launch) : State :=
  match s.launch n with
  | some l => { s with launches := minsert s.launches n (f l) }
  | none => s

/-! ### Free values, time, and what leaves the module -/

/-- A choice among n alternatives that the spec leaves to the module (log entry 4). -/
def State.pick (s : State) (n : Nat) : State × Nat :=
  ({ s with free := s.free + 1 }, if n = 0 then 0 else Config.choice s.free % n)

/-- A 64-bit value that the spec leaves open (log entry 5). -/
def State.fresh (s : State) : State × U64 := ({ s with free := s.free + 1 }, Config.freeValue s.free)

/-- The module timestamp, read now (R67): some time has passed since it was last read (log entry 2). -/
def State.sample (s : State) : State × Nat :=
  let t := s.now + Config.elapsed s.free
  ({ s with free := s.free + 1, now := t }, t)

/-- Time has reached at least the given moment: what a timer that expires says about the clock. -/
def State.until (s : State) (t : Nat) : State := { s with now := max s.now t }

/-- An access cannot be served yet: its line's home is in a transaction (R234), its stack in refresh-only service (R260), its bucket
empty without a rate (R249), or its host read not answered (R336). -/
def State.stall (s : State) : State := { s with stalled := true }

/-- What a command leaves: a command with an access that cannot be served yet waits, and leaves the state as it was but for the free
values and the time it has used and the host reads it has sent (log entry 37). -/
def State.orWait (s t : State) : State :=
  if t.stalled then { s with free := t.free, now := t.now, hostReads := t.hostReads, stalled := false } else t

/-- The outcome of a meaning whose accesses may have to wait. -/
def State.waits (s : State) : Outcome → Outcome
  | .next t => .next (s.orWait t)
  | o => o

/-- Something leaves the module at its boundary. -/
def State.emit (s : State) (e : OutEvent) : State := { s with out := e :: s.out }

/-! ### Partitions, functions and cores -/

/-- Whether the module serves its functions: the IO die is powered and a management unit is left (R401, R439). -/
def State.served (s : State) : Bool := decide (s.supply = 2) && !s.musLost

/-- The function a partition is bound to (R282, R337). -/
def State.fnOf (s : State) (q : Nat) : Nat := if (s.part q).onPf0 then 0 else q + 1

/-- The partition of a function: the one bound to PF0, or partition q of VF(q + 1) unless it is bound to PF0. -/
def State.partOf (s : State) (fn : Nat) : Option Nat :=
  (List.range 8).find? (fun q => (s.part q).live && decide (s.fnOf q = fn))

/-- The galleries of a partition, rising. -/
def State.galleriesOf (s : State) (q : Nat) : List Nat :=
  if (s.part q).live then bitList 20 (s.part q).galleries else []

/-- The partition that holds a gallery. -/
def State.partOfGallery (s : State) (g : Nat) : Option Nat :=
  (List.range 8).find? (fun q => decide (g ∈ s.galleriesOf q))

/-- The logical cores of a partition, rising, without those retired (R20): their positions are the partition core
indices of chapter 02. -/
def State.coresOf (s : State) (q : Nat) : List Nat :=
  ((s.galleriesOf q).flatMap (fun g => (List.range 8).map (fun j => 8 * g + j))).filter (fun c => decide (c ∉ s.retired))

/-- The partition that holds a core. -/
def State.partOfCore (s : State) (c : Nat) : Option Nat := s.partOfGallery (c / 8)

/-- The partition core index of a core. -/
def State.pcore (s : State) (q c : Nat) : Nat := (s.coresOf q).findIdx (fun x => decide (x = c))

/-- The contexts of a partition that exist. -/
def State.ctxsOf (s : State) (q : Nat) : List Nat :=
  (s.ctxs.filter (fun e => decide (e.2.state ≠ .free) && decide (e.2.part = q))).map (·.1)

/-- The gallery of a core (R18). -/
def galleryOf (core : Nat) : Nat := core / 8

/-- The die of a core (R17). -/
def dieOf (core : Nat) : Nat := core / 40

end Sys2Proof.Machine
end

