-- ==== Sys2Proof/Machine/Counters.lean ====
section
/-! DEFINITION. Counter banks and trace buffers (17_debug_counters_trace.md R420 to R428): what an event adds to a counter,
the start of a command, sampling, and the production of trace records. -/

namespace Sys2Proof.Machine

open Sys2Proof

/-! ### Counters -/

/-- Events at a moment t of the counter's clock: an event of the reset cycle is not counted (R423). -/
def Counter.bump (k : Counter) (t n : Nat) : Counter :=
  if n = 0 ∨ k.resetAt = some t then k
  else if k.curAt = t then { k with cur := k.cur + n }
  else { k with base := (k.base + k.cur) % 2 ^ 64, cur := n, curAt := t }

/-- The count of events up to the end of the cycle before t. -/
def Counter.upTo (k : Counter) (t : Nat) : Nat := (if k.curAt < t then k.base + k.cur else k.base) % 2 ^ 64

/-- Fields of `CTR_CFG` (Table 17-2). -/
def Counter.event (k : Counter) : Nat := bits k.cfg 0 8
def Counter.source (k : Counter) : Nat := bits k.cfg 8 2
def Counter.perCmd (k : Counter) : Bool := bit k.cfg 10
def Counter.enabled (k : Counter) : Bool := bit k.cfg 11
def Counter.takes (k : Counter) (src pair : Nat) : Bool :=
  k.enabled && decide (k.source = 0 ∨ k.source = src) && (!bit k.cfg 12 || decide (bits k.cfg 16 32 = pair))

/-- An event of a source (1 crews, 2 cox stream, 3 feeder DMA) for work with a pair. -/
def Bank.count (b : Bank) (ev src pair t n : Nat) : Bank :=
  { b with ctrs := b.ctrs.map (fun e => (e.1, if e.2.event = ev ∧ e.2.takes src pair = true then e.2.bump t n else e.2)) }

/-- The clock moves from one moment to a later one: `CYCLES` counts (R421). -/
def Bank.tick (b : Bank) (old new : Nat) : Bank :=
  { b with ctrs := b.ctrs.map (fun e =>
      let k := e.2
      let from' := match k.resetAt with | some r => max old r | none => old
      (e.1, if k.event = 1 ∧ k.takes k.source k.pair = true ∧ from' < new then
        { (k.bump (new - 1) (new - from' - 1)).bump new 1 with curAt := new } else k)) }

def State.coreBank (s : State) (c : Nat) : Bank := mget {} s.coreBanks c
def State.setCoreBank (s : State) (c : Nat) (b : Bank) : State := { s with coreBanks := mset {} s.coreBanks c b }
def State.galBank (s : State) (g : Nat) : Bank := mget {} s.galBanks g
def State.setGalBank (s : State) (g : Nat) (b : Bank) : State := { s with galBanks := mset {} s.galBanks g b }

/-- A core's clock reaches a moment. -/
def State.tick (s : State) (core t : Nat) : State :=
  let old := (s.core core).clock
  if t ≤ old then s
  else
    (s.setCoreBank core ((s.coreBank core).tick old t)).modCore core (fun k => { k with clock := t })

/-- The stroke count of a core, read now (R77); it does not advance in Clock-gated or Retention (R395). -/
def State.sampleClock (s : State) (core : Nat) : State × Nat :=
  let g := mget ({} : GalPower) s.gals (galleryOf core)
  let t := (s.core core).clock + (if g.st = 1 ∨ g.st = 2 then 0 else Config.elapsedStrokes s.free)
  ({ s with free := s.free + 1 }.tick core t, t)

/-- A pair of IDs as one number. -/
def pairOf (layer oper : Nat) : Nat := layer + 65536 * oper

/-- An event of core c. -/
def State.count (s : State) (c ev src pair n : Nat) : State :=
  if (s.coreBank c).ctrs = [] then s
  else s.setCoreBank c ((s.coreBank c).count ev src pair (s.core c).clock n)

/-- An event of gallery g, on its 2.0 GHz clock (R422). -/
def State.countGal (s : State) (g ev n : Nat) : State :=
  if (s.galBank g).ctrs = [] then s else s.setGalBank g ((s.galBank g).count ev 0 0 (2 * s.now) n)

/-- Bytes of the module-wide counters (R425): 2s reads, 2s + 1 writes at stack s, 16 + 2p sent, 17 + 2p received on port p. -/
def State.countWide (s : State) (i n : Nat) : State :=
  { s with wideCounters := mset 0 s.wideCounters i ((mget 0 s.wideCounters i + n) % 2 ^ 64) }

/-- One counter sampled at a moment (R424). -/
def Counter.sampled (k : Counter) (t lastPair : Nat) : Counter :=
  if k.perCmd = true ∧ k.resetAt = some t then { k with snapValue := k.prev, snapTag := k.prevPair + 2 ^ 32 }
  else { k with snapValue := k.upTo t, snapTag := if k.perCmd then k.pair else lastPair }

def Bank.sampled (b : Bank) (t : Nat) : Bank :=
  { b with ctrs := b.ctrs.map (fun e => (e.1, e.2.sampled t b.lastPair)) }

/-- Adds what time alone has counted, which the model does not follow, as free amounts (log entry 2). -/
def Bank.addFree (b : Bank) (evs : List Nat) (t : Nat) (seed : Nat) : Bank :=
  { b with ctrs := b.ctrs.map (fun e =>
      (e.1, if e.2.event ∈ evs ∧ e.2.enabled = true then e.2.bump (t - 1) (Config.choice (seed + e.1)) else e.2)) }

/-! ### Trace -/

def State.trc (s : State) (b : Nat) : Trace := mget {} s.traces b
def State.setTrc (s : State) (b : Nat) (t : Trace) : State := { s with traces := mset {} s.traces b t }

/-- Records that a buffer holds (R426). -/
def traceCap (b : Nat) : Nat := if b < 1000 then 256 else 2048

/-- The 32 bytes of a record (Table 17-6). -/
def traceRecord (time pair ev unit seq : Nat) (payload : List Byte) : List Byte :=
  toBytes 8 time ++ toBytes 4 pair ++ toBytes 1 ev ++ zeros 1 ++ toBytes 2 unit ++ toBytes 4 seq ++ fit 12 payload

/-- One record joins a buffer, or is dropped where the buffer is full (R428). -/
def Trace.add (t : Trace) (b time pair ev : Nat) (payload : List Byte) : Trace :=
  if t.recs.length < traceCap b then
    { t with recs := t.recs ++ [traceRecord time pair ev (b % 1000) t.seq payload], seq := (t.seq + 1) % 2 ^ 32 }
  else { t with drops := (t.drops + 1) % 2 ^ 64, owedDrops := t.owedDrops + 1, seq := (t.seq + 1) % 2 ^ 32 }

/-- A trace event of a buffer, if it is enabled: the `DROPS` record that is owed comes first (R426, R428). -/
def State.traceEvent (s : State) (b pair ev : Nat) (payload : List Byte) : State :=
  let t := s.trc b
  if t.enable && bit t.mask (ev - 1) then
    let (s, now) := s.sample
    let t := if t.owedDrops ≠ 0 ∧ bit t.mask 7 = true ∧ t.recs.length < traceCap b then
        { (t.add b now 0 8 (toBytes 4 t.owedDrops)) with owedDrops := 0 }
      else t
    s.setTrc b (t.add b now pair ev payload)
  else s

/-- `CMD_START` and `CMD_END` (Table 17-7). -/
def State.traceStart (s : State) (core pair tag src ctx : Nat) : State :=
  s.traceEvent core pair 1 (toBytes 4 tag ++ toBytes 1 src ++ toBytes 1 ctx)

def State.traceEnd (s : State) (core pair tag src ctx status : Nat) : State :=
  s.traceEvent core pair 2 (toBytes 4 tag ++ toBytes 1 src ++ toBytes 1 ctx ++ toBytes 2 status)

/-! ### Galleries (15_power_clocks_thermal.md R384, R388, R395) -/

def State.gal (s : State) (g : Nat) : GalPower := mget {} s.gals g
def State.setGal (s : State) (g : Nat) (x : GalPower) : State := { s with gals := mset {} s.gals g x }

/-- The lowest duty and the lowest clock of the limits in force (R384); without any, duty 16 at 4.0 GHz. -/
def GalPower.duty (x : GalPower) : Nat := x.limits.foldl (fun d e => min d e.2.1) 16
def GalPower.clock (x : GalPower) : Nat := x.limits.foldl (fun d e => min d e.2.2) 4000

/-- Whether a limit is lower than another: by its duty, then its clock, then its number. -/
def limitBelow (a b : Nat × Nat × Nat) : Bool :=
  decide (a.2.1 < b.2.1) || (decide (a.2.1 = b.2.1) && (decide (a.2.2 < b.2.2) || (decide (a.2.2 = b.2.2) && decide (a.1 < b.1))))

/-- `LIMIT` of Table 15-10: the limiter whose setting is the lowest, 0 for none. -/
def GalPower.limiter (x : GalPower) : Nat :=
  (x.limits.foldl (fun (m : Nat × Nat × Nat) e => if limitBelow e m then e else m) (0, 16, 4000)).1

/-- Sets what one limiter allows: an issue duty and a clock in MHz; duty 16 at 4.0 GHz is no limit. -/
def State.setLimit (s : State) (g i duty mhz : Nat) : State :=
  let x := s.gal g
  s.setGal g { x with limits := mset (16, 4000) x.limits i (duty, mhz) }

/-- A gallery changes its state (Table 15-6): traced as `GSTATE`. -/
def State.galState (s : State) (g st : Nat) : State :=
  let x := s.gal g
  (s.setGal g { x with st }).traceEvent (1000 + g) 0 7 (toBytes 1 x.st ++ toBytes 1 st)

/-- Work of a core's gallery wakes it from Clock-gated or Retention (Table 15-6). -/
def State.wakeGal (s : State) (g : Nat) : State :=
  let st := (s.gal g).st
  if st = 1 ∨ st = 2 then s.galState g 3 else s

/-- An observation joins a learned figure with weight 1/8 (R388). -/
def eighth (old new : Nat) : Nat := (7 * old + new) / 8

/-- The end of a gallery's phase: its entry learns from what was measured, which is free (log entry 4). -/
def State.endPhase (s : State) (g : Nat) : State :=
  let (s, a) := s.pick (2 ^ 32)
  let (s, b) := s.pick (2 ^ 32)
  let (s, c) := s.pick (2 ^ 32)
  let x := s.gal g
  s.setGal g { x with profiles := x.profiles.map (fun p =>
    if p.pair = x.pair then { p with mean := eighth p.mean a, peak := eighth p.peak b, rise := eighth p.rise c } else p) }

/-- Work with a pair is dispatched to a gallery (R388): where it begins a new phase, the entry of the phase is taken, or a new one
made that counts `PHASE_MISS`, and the controller positions clock and duty, which is its own choice (log entry 4). -/
def State.startPhase (s : State) (g pair : Nat) : State :=
  let x := s.gal g
  if x.st = 0 ∨ (x.profiles ≠ [] ∧ x.pair = pair) then s
  else
    let s := s.endPhase g
    let x := s.gal g
    let old := x.profiles.find? (fun p => decide (p.pair = pair))
    let s := if old.isSome then s else s.countGal g 0x0B 1
    let (s, d) := s.pick 16
    let (s, c) := s.pick 33
    let (s, m) := s.pick (2 ^ 32)
    let fresh : Profile := { pair, mean := m, peak := m, rise := m, clock := 0, duty := 0 }
    let p : Profile := { old.getD fresh with clock := 800 + 100 * c, duty := d + 1 }
    let s := s.setGal g { x with
      pair, hit := old.isSome, profiles := (p :: x.profiles.filter (fun p => decide (p.pair ≠ pair))).take 256 }
    let s := s.setLimit g 1 p.duty p.clock
    let y := s.gal g
    s.traceEvent (1000 + g) pair 6 (toBytes 2 y.clock ++ toBytes 1 y.duty ++ toBytes 1 y.limiter ++ toBytes 1 (b2n y.hit))

/-! ### The start of a command -/

/-- The start of a command of a source on a core (R423): at most one a cycle. Its gallery wakes, and begins the phase of its pair. -/
def State.startCommand (s : State) (c src pair : Nat) : State :=
  let s := (s.wakeGal (galleryOf c)).startPhase (galleryOf c) pair
  let s := match (s.coreBank c).lastStart with
    | some t => s.tick c (t + 1)
    | none => s
  let t := (s.core c).clock
  let b := s.coreBank c
  s.setCoreBank c { b with
    lastPair := pair
    lastStart := some t
    ctrs := b.ctrs.map (fun e =>
      let k := e.2
      (e.1, if k.perCmd = true ∧ (k.source = 0 ∨ k.source = src) then
        { k with prev := k.upTo t, prevPair := k.pair, base := 0, cur := 0, curAt := t, resetAt := some t, pair } else k)) }

/-! ### Event logs and notifications (R363, R367) -/

def State.evlog (s : State) (fn : Nat) : EventLog := mget {} s.logs fn
def State.setEvlog (s : State) (fn : Nat) (l : EventLog) : State := { s with logs := mset {} s.logs fn l }

/-- The 72 bytes of an entry: kind, six zero bytes, and a 64-byte body that begins with the time. -/
def logEntry (kind time : Nat) (body : List Byte) : List Byte :=
  toBytes 2 kind ++ zeros 6 ++ toBytes 8 time ++ fit 56 body

end Sys2Proof.Machine
end

