-- ==== Sys2Proof/Machine/Attention.lean ====
section
/-! DEFINITION. The attention tree (13_host_interface_attention.md R341 to R349): how an event sets a cause, how the
summary follows its causes, when a message is due, and the writes of host memory that a cause reports. -/

namespace Sys2Proof.Machine

open Sys2Proof

/-- The events of Table 13-4, each with its place in its cause register. -/
inductive Cause where
  | ctxFault (n : Nat)
  | completion (n : Nat)
  | ingress (n : Nat)
  | mailbox (b : Nat)
  | segment (i : Nat)
  | kftQueue (n : Nat)
  | kftAssoc (a : Nat)
  | gallery (g : Nat)
  | host (b : Nat)
  | ras (b : Nat)
  | event (b : Nat)
  | fabric (p : Nat)
  | hbmHot (k : Nat)
  | retireWait
  | power (b : Nat)
  deriving DecidableEq, Repr

/-- The summary bit of a cause (Table 13-4). -/
def causeBlock : Cause → Nat
  | .ctxFault _ => 0
  | .completion _ => 1
  | .ingress _ => 2
  | .mailbox _ => 3
  | .segment _ => 4
  | .kftQueue _ => 5
  | .kftAssoc _ => 5
  | .gallery _ => 6
  | .host _ => 7
  | .ras _ => 8
  | .event _ => 9
  | .fabric _ => 16
  | .hbmHot _ => 17
  | .retireWait => 17
  | .power _ => 18

/-- The bit of a cause in its cause register. -/
def causeBit : Cause → Nat
  | .ctxFault n => n
  | .completion n => n
  | .ingress n => n
  | .mailbox b => b
  | .segment i => i
  | .kftQueue _ => 0
  | .kftAssoc _ => 1
  | .gallery g => g
  | .host b => b
  | .ras b => b
  | .event b => b
  | .fabric p => p
  | .hbmHot k => k
  | .retireWait => 8
  | .power b => b

/-- Sets a cause's own bit; a cause whose leaf lies in another block has been set there already. -/
def setCause (f : Func) : Cause → Func
  | .ctxFault n => { f with ctxFault := setBit f.ctxFault n true }
  | .completion n => { f with completion := setBit f.completion n true }
  | .ingress _ => f
  | .mailbox b => { f with mbx := setBit f.mbx b true }
  | .segment i => { f with seg := setBit f.seg i true }
  | .kftQueue n => { f with kftQueue := setBit f.kftQueue n true }
  | .kftAssoc a => { f with assoc := setBit f.assoc a true }
  | .gallery _ => f
  | .host b => { f with host := setBit f.host b true }
  | .ras b => { f with ras := setBit f.ras b true }
  | .event b => { f with event := setBit f.event b true }
  | .fabric _ => f
  | .hbmHot _ => f
  | .retireWait => { f with retireWait := true }
  | .power b => { f with power := setBit f.power b true }

/-- GC_STATUS [7:3] of a slice: the leaf of the gallery cause. -/
def gcLeaf (x : Slice) : Nat :=
  b2n x.enableReject + 2 * b2n x.lockReject + 4 * b2n x.invReject + 8 * b2n x.wayDisabled + 16 * b2n x.lockLost

/-- ATT_INGRESS of a function: the contexts it owns whose LOG_NEW is set. -/
def State.ingressCause (s : State) (fn : Nat) : Nat :=
  maskOf ((s.ctxs.filter (fun e => decide (e.2.fn = fn) && e.2.logNew)).map (·.1))

/-- ATT_GALLERY of a function: the galleries of its partition with a leaf bit set. -/
def State.galleryCause (s : State) (fn : Nat) : Nat :=
  match s.partOf fn with
  | some q => maskOf ((s.galleriesOf q).filter (fun g => decide (gcLeaf (s.slice g) ≠ 0)))
  | none => 0

/-- What the bits of a cause register have below them or hold, before a write clears any of them (Table 13-4); the registers that
are PF0's only read zero in a VF (R341). -/
def State.causeLeaves (s : State) (fn block : Nat) : Nat :=
  let f := s.func fn
  match block with
  | 0 => f.ctxFault
  | 1 => f.completion
  | 2 => s.ingressCause fn
  | 3 => if fn = 0 then f.mbx else f.mbx &&& 0b10011
  | 4 => f.seg
  | 5 => b2n (decide (f.kftQueue ≠ 0)) + 2 * b2n (decide (f.assoc ≠ 0))
  | 6 => s.galleryCause fn
  | 7 => f.host
  | 8 => f.ras
  | 9 => f.event
  | 16 => if fn = 0 then maskOf ((List.range 8).filter (fun p => decide (mget 0 s.portEvents p ≠ 0))) else 0
  | 17 => if fn = 0 then maskOf ((List.range 8).filter (fun k => (s.stack k).hot)) + 256 * b2n f.retireWait else 0
  | 18 => if fn = 0 then f.power else 0
  | _ => 0

/-- The value of the cause register under a summary bit: a bit that a write has cleared while bits below it remain set reads zero
until one of them is set again (R342). -/
def State.causeReg (s : State) (fn block : Nat) : Nat :=
  let v := s.causeLeaves fn block
  v - (v &&& mget 0 (s.func fn).hidden block)

/-- The blocks of Table 13-4. -/
def attBlocks : List Nat := [0, 1, 2, 3, 4, 5, 6, 7, 8, 9, 16, 17, 18]

/-- The function's pending condition (R344). -/
def Func.pendingNow (f : Func) : Bool := decide (f.summary &&& f.enableMask ≠ 0)

/-- The count bound of R345; with both bounds zero the count is 1. -/
def Func.countMet (f : Func) : Bool :=
  let c := if f.modCount = 0 && f.modTime = 0 then 1 else f.modCount
  decide (c ≠ 0) && decide (c ≤ f.events)

/-- The time bound of R345 at a moment. -/
def Func.timeMet (f : Func) (now : Nat) : Bool :=
  decide (f.modTime ≠ 0) &&
    match f.winStart with
    | some w => decide (w + 1000 * f.modTime ≤ now)
    | none => false

/-- Whether a host-bound request of the function can leave: BME set, the link up, and the function present (R336,
R337). -/
def State.hostOpen (s : State) (fn : Nat) : Bool :=
  (s.func fn).bme && s.linkUp && (decide (fn = 0) || decide (fn ≤ s.numVfs))

/-- Sends the function's message where it is due and may leave, holds it or marks it pending where it may not, and
drives INTA where MSI-X is disabled (R345, R346); INTA is not asserted while MSI-X is enabled (R344). -/
def State.deliver (s : State) (fn : Nat) : State :=
  let s := if (s.func fn).msixEnabled && (s.func fn).asserted then
      (s.setFunc fn { s.func fn with asserted := false }).emit (.inta false) else s
  let f := s.func fn
  let bound := f.countMet || f.timeMet s.now
  if f.msixEnabled then
    if !f.pendingNow then s.setFunc fn { f with msixPending := false, held := false }
    else if !(f.armed && bound) && !f.held && !f.msixPending then s
    else if f.msixMasked then s.setFunc fn { f with msixPending := true }
    else if !(s.hostOpen fn) then s.setFunc fn { f with held := true }
    else
      (s.setFunc fn { f with armed := false, events := 0, winStart := none, msixPending := false, held := false }).emit
        (.msix fn)
  else if fn ≠ 0 then s
  else if !f.pendingNow then
    let s' := s.setFunc 0 { f with asserted := false, events := 0, winStart := none }
    if f.asserted then s'.emit (.inta false) else s'
  else if f.asserted || !bound then s
  else (s.setFunc 0 { f with asserted := true }).emit (.inta true)

/-- Drives ATTN_N from PF0's summary and mask while Mitor is ready, or low when both management units are lost or a
supply lockout is in force (R348, R349, R381); and WAKE_N from the same value while PERST_N is asserted (Table 18-5). -/
def State.driveAttn (s : State) : State :=
  let f := s.func 0
  let low := s.musLost || s.lockout || (s.mitorReady && decide (f.summary &&& f.attnMask ≠ 0))
  let s := if low = s.attnLow then s else { s with attnLow := low }.emit (.attnN low)
  let wake := !s.perstN && decide (f.summary &&& f.attnMask ≠ 0)
  if wake = s.wakeLow then s else { s with wakeLow := wake }.emit (.wakeN wake)

/-- The summary bits above causes that all read zero clear by themselves (R342); then the interrupt and the pin
follow. -/
def State.settle (s : State) (fn : Nat) : State :=
  let f := s.func fn
  let live := maskOf (attBlocks.filter (fun b => decide (s.causeReg fn b ≠ 0)))
  ((s.setFunc fn { f with summary := f.summary &&& live }).deliver fn).driveAttn

/-- Whether a function has an interrupt (R344): MSI-X where it is enabled, else INTA, which PF0 alone has. -/
def State.interrupts (s : State) (fn : Nat) : Bool := (s.func fn).msixEnabled || decide (fn = 0)

/-- The module sets a cause bit of a function: the bit, the summary bit above it, and an event counted where that
summary bit is enabled and the function has an interrupt (R342, R344, R345). -/
def State.raise (s : State) (fn : Nat) (c : Cause) : State :=
  let f := setCause (s.func fn) c
  let b := causeBlock c
  let counted := bit f.enableMask b && s.interrupts fn
  let f := { f with
    summary := setBit f.summary b true
    hidden := mset 0 f.hidden b (setBit (mget 0 f.hidden b) (causeBit c) false)
    events := if counted then min 65535 (f.events + 1) else f.events
    winStart := if counted && (decide (f.events = 0) || f.winStart.isNone) then some s.now else f.winStart }
  ((s.setFunc fn f).deliver fn).driveAttn

/-- A host error of a function (R339, R340, R336): captured while every bit of ATT_HOST is zero, and its cause set. Kind 1
REG_ACCESS, 2 APER_FAULT, 3 DMA_ERROR. -/
def State.hostError (s : State) (fn kind : Nat) (write : Bool) (ctx addr : Nat) : State :=
  let f := s.func fn
  let s := if f.host = 0 then
      s.setFunc fn { f with errKind := kind, errWrite := write, errCtx := ctx, errAddr := addr }
    else s
  s.raise fn (.host (kind - 1))

/-- Mitor appends an entry to a function's event log (R363): a full log loses its oldest entry. -/
def State.logEvent (s : State) (fn kind : Nat) (body : List Byte) : State :=
  let (s, t) := s.sample
  let l := s.evlog fn
  let full := decide (1024 ≤ l.events.length)
  let s := s.setEvlog fn { l with events := (if full then l.events.drop 1 else l.events) ++ [logEntry kind t body] }
  let s := s.raise fn (.event 0)
  if full then s.raise fn (.event 1) else s

/-- Mitor places a notification in a function's queue (R363): one that finds the queue full is dropped and counted. -/
def State.notifyFn (s : State) (fn kind : Nat) (body : List Byte) : State :=
  let (s, t) := s.sample
  let l := s.evlog fn
  if 64 ≤ l.notes.length then s.setEvlog fn { l with dropped := l.dropped + 1 }
  else (s.setEvlog fn { l with notes := l.notes ++ [logEntry kind t body] }).raise fn (.mailbox 1)

/-- The Max Payload Size in force: what the host has programmed, within 128 to 512 bytes (Table 13-1). -/
def Func.payload (f : Func) : Nat := max 128 (min 512 f.mps)

/-- The posted writes of a byte string, each of at most the payload size, in rising order (R335). -/
def State.postWrites (s : State) (fn size addr : Nat) (bytes : List Byte) : Nat → State
  | 0 => s
  | f + 1 =>
    if bytes.length ≤ size then s.emit (.hostWrite fn addr bytes)
    else (s.emit (.hostWrite fn addr (bytes.take size))).postWrites fn size (addr + size) (bytes.drop size) f

/-- A posted write to host memory (R335, R336): issued on the link, or discarded with DMA_ERROR. -/
def State.hostWrite (s : State) (fn ctx addr : Nat) (bytes : List Byte) : State :=
  if s.hostOpen fn then s.postWrites fn (s.func fn).payload addr bytes (bytes.length + 1)
  else s.hostError fn 3 true ctx addr

/-- What a read of host memory brings back (R336): data, a failure (Unsupported Request, Completer Abort, time-out, or
a request that cannot leave), or a poisoned completion. The host's answer and its moment are outside the boundary (R1): a free choice,
and free bytes (log entry 3). -/
inductive HostAnswer where
  | data (bytes : List Byte)
  | failed
  | poisoned
  deriving DecidableEq, Repr

/-- Whether an outstanding read is the one of a function and context at an address. -/
def HostRead.is (h : HostRead) (fn ctx addr : Nat) : Bool :=
  decide (h.fn = fn) && decide (h.ctx = ctx) && decide (h.addr = addr)

/-- A read of host memory: one that is not answered yet is outstanding, and the command waits; one whose Completion Timeout has passed
has failed, with DMA_ERROR set then (R336). -/
def State.hostRead (s : State) (fn ctx addr n : Nat) : State × HostAnswer :=
  let ended : State := { s with hostReads := s.hostReads.filter (fun h => !h.is fn ctx addr) }
  if s.hostOpen fn then
    if s.hostReads.any (fun h => h.is fn ctx addr && h.expired) then (ended, .failed)
    else
      let (t, k) := ended.pick 4
      if k = 1 then (t.hostError fn 3 false ctx addr, .failed)
      else if k = 2 then (t.hostError fn 3 false ctx addr, .poisoned)
      else if k = 3 then
        let rs := if s.hostReads.any (fun h => h.is fn ctx addr) then s.hostReads else s.hostReads ++ [⟨fn, ctx, addr, s.now, false⟩]
        ({ t with hostReads := rs }.stall, .failed)
      else
        let seed := t.free
        ({ t with free := t.free + 1 }, .data ((List.range n).map (fun i => Config.hostByte seed (addr + i))))
  else (ended.hostError fn 3 false ctx addr, .failed)

end Sys2Proof.Machine
end

