-- ==== Sys2Proof/Machine/Ras.lean ====
section
/-! DEFINITION. Reporting errors (16_reliability_repair.md R401 to R404, R407): the cause of the class, the record of Table
16-2 in the event logs, and the counts that make a unit failing. -/

namespace Sys2Proof.Machine

open Sys2Proof

/-- A day and an hour, in ns. -/
def dayNs : Nat := 86400000000000
def hourNs : Nat := 3600000000000

/-- A setting of Table 14-13: what the installer has set, else its default. -/
def State.setting (s : State) (item dflt : Nat) : Nat := (mfind s.thresholds item).getD dflt

/-- An error as Table 16-2 records it: class, source, action, unit, physical site, address, tag, and the partition it
concerns. -/
structure RasEvent where
  cls : Nat
  source : Nat
  action : Nat := 0
  part : Option Nat := none
  unit : Nat := 0
  site : Nat := 0xFFFF
  addr : Nat := 0
  tag : Nat := 0
  deriving DecidableEq, Repr

/-- How many of the errors kept under a key fall within the last 24 hours. -/
def State.within24 (s : State) (key : Nat) : Nat := ((mget [] s.rasTimes key).filter (fun t => decide (s.now < t + dayNs))).length

/-- The errors of a source on a unit in the last 24 hours (Table 16-2): the uncorrectable and the corrected ones, which are counted apart. -/
def State.rasSeen (s : State) (source unit : Nat) : Nat := s.within24 (source * 2 ^ 20 + unit) + s.within24 ((256 + source) * 2 ^ 20 + unit)

/-- Counts an error under a key. -/
def State.rasCount (s : State) (key : Nat) : State :=
  { s with rasTimes := mset [] s.rasTimes key (s.now :: (mget [] s.rasTimes key).filter (fun t => decide (s.now < t + dayNs))) }

/-- Body bytes 8 to 63 of the record (Table 16-2); a VF's copy omits the site (R402). -/
def rasBody (e : RasEvent) (count fn : Nat) : List Byte :=
  toBytes 1 e.cls ++ toBytes 1 e.source ++ toBytes 1 e.action ++ toBytes 1 (e.part.getD 0xFF) ++ toBytes 2 e.unit ++
    toBytes 2 (if fn = 0 then e.site else 0xFFFF) ++ toBytes 8 e.addr ++ toBytes 4 count ++ toBytes 4 e.tag ++ zeros 24

/-- Reports to each listed function: the bit of the class, and the record. -/
def State.rasTell (s : State) (e : RasEvent) (count : Nat) : List Nat → State
  | [] => s
  | fn :: fns => ((s.raise fn (.ras (e.cls - 1))).logEvent fn 1 (rasBody e count fn)).rasTell e count fns

/-- Reports an error that is not corrected: to the function of its partition, and always to PF0 (R402). -/
def State.ras (s : State) (e : RasEvent) : State :=
  let s := s.rasCount (e.source * 2 ^ 20 + e.unit)
  let fns := match e.part with | some q => sinsert [0] (s.fnOf q) | none => [0]
  s.rasTell e (s.rasSeen e.source e.unit) fns

/-- A corrected error in the reach of a list of functions: counted apart from the uncorrectable ones, not raised (R403). -/
def State.rasCorrected (s : State) (source unit : Nat) (fns : List Nat) : State :=
  let s := s.rasCount ((256 + source) * 2 ^ 20 + unit)
  fns.foldl (fun s fn => { s with
    corrTimes := mset [] s.corrTimes fn (s.now :: (mget [] s.corrTimes fn).filter (fun t => decide (s.now < t + hourNs))) }) s

/-- The functions that a unit of a partition concerns. -/
def State.reachOf (s : State) (part : Option Nat) : List Nat :=
  match part with | some q => sinsert [0] (s.fnOf q) | none => [0]

/-- The Corrected record of a unit that has passed its repair threshold, or of its repair (R403, R408): no error is counted by it, and no
cause of `ATT_RAS` is set. -/
def State.rasRepaired (s : State) (e : RasEvent) : State :=
  (s.reachOf e.part).foldl (fun s fn => s.logEvent fn 1 (rasBody e (s.rasSeen e.source e.unit) fn)) s

/-- Errors of a core's storage (sources 0x01 to 0x05) within 24 hours (Table 16-4). -/
def State.coreErrors (s : State) (core : Nat) : Nat :=
  sum ([1, 2, 3, 4, 5].map (fun src => s.within24 (src * 2 ^ 20 + core)))

end Sys2Proof.Machine
end

