-- ==== Sys2Proof/Machine/Memory.lean ====
section
/-! DEFINITION. Memory: where a line of a region lies (09_hbm_memory_system.md R242 to R247), the regulators (R248 to R250), the homes and caches that an
access passes (08 R226 to R237), the physical address map and two-stage translation (11 R290 to R294), and reads and
writes by physical and by virtual address. HBM bytes hold the home's present value of each line (log entry 12). -/

namespace Sys2Proof.Machine

open Sys2Proof

/-! ### Where a line lies -/

/-- Lines of 128 bytes in a pseudo-channel (R242). -/
def linesPerPc : Nat := 9437184

/-- R246: the exclusive or of the four low bytes. -/
def fold (v : Nat) : Nat := bits v 0 8 ^^^ bits v 8 8 ^^^ bits v 16 8 ^^^ bits v 24 8

/-- R246: the pseudo-channel and the slot of line y over a list. -/
def spread (y : Nat) (t : List Nat) : Nat × Nat :=
  let p := t.length
  let slot := y / p
  (t.getD ((y + fold slot) % p) 0, slot)

/-- R246: the pseudo-channel and the line within it that hold line x of a layout. -/
def placeLine (l : Layout) (x : Nat) : Nat × Nat :=
  let (pc, slot) :=
    if l.balanced then
      let m := l.lists.length
      let z := x / 32
      let i := (z + fold (z / m)) % m
      let w := z / m
      spread (32 * w + x % 32) (l.lists.getD i [])
    else spread x (l.lists.getD 0 [])
  (pc, mget 0 l.bases pc + slot)

/-- The number that names a byte of HBM: pseudo-channel, line, byte. -/
def hbmKey (pc line byte : Nat) : Nat := (pc * linesPerPc + line) * 128 + byte

/-- The region of a partition that holds a physical address (R244). -/
def State.regionAt (s : State) (q pa : Nat) : Option (Nat × Region) :=
  s.regions.find? (fun e => decide (e.1 / 64 = q) && decide (e.2.base ≤ pa) && decide (pa < e.2.base + e.2.size))

/-- The layout that line x of a region is found under: the new one once the watermark has passed it (R257). -/
def State.layoutFor (s : State) (key x : Nat) (r : Region) : Layout :=
  match s.rebuilds with
  | b :: _ => if 64 * b.part + b.idx = key && decide (x < b.watermark) then b.target.layout else r.layout
  | [] => r.layout

/-- The HBM byte of a physical address of a partition. -/
def State.hbmOf (s : State) (q pa : Nat) : Option Nat :=
  match s.regionAt q pa with
  | some (key, r) =>
    let x := (pa - r.base) / 128
    let (pc, line) := placeLine (s.layoutFor key x r) x
    some (hbmKey pc line (pa % 128))
  | none => none

/-- The HBM byte of an offset of a segment's primary (R296). -/
def segKey (g : Segment) (off : Nat) : Nat :=
  let (pc, line) := placeLine g.layout (off / 128)
  hbmKey pc line (off % 128)

/-! ### The physical address map -/

/-- What a module physical address names (Table 11-2). -/
inductive Loc where
  | hbm (key : Nat)
  | landing (off : Nat)
  | window (off : Nat)
  | segment (i off : Nat)
  | host (addr : Nat)
  | nowhere
  deriving DecidableEq, Repr

def State.locate (s : State) (q pa : Nat) : Loc :=
  if pa < 2 ^ 40 then
    match s.hbmOf q pa with
    | some k => .hbm k
    | none => .nowhere
  else if pa < 0x10000100000 then .landing (pa - 0x10000000000)
  else if 0x20000000000 ≤ pa ∧ pa < 0x20004000000 then .window (pa - 0x20000000000)
  else if 0x30000000000 ≤ pa ∧ pa < 0x40000000000 then
    .segment ((pa - 0x30000000000) / 2 ^ 36) ((pa - 0x30000000000) % 2 ^ 36)
  else if 2 ^ 51 ≤ pa ∧ pa < 2 ^ 52 then .host (pa - 2 ^ 51)
  else .nowhere

/-- What an access by address brings: bytes, or why it fails. -/
inductive Access where
  | ok (bytes : List Byte)
  | trans (addr : Nat)
  | poison (addr : Nat)
  | held (seg line : Nat)
  deriving DecidableEq, Repr

/-- Bytes of HBM from a key on, and whether one of their half-lines is poisoned (R253). -/
def State.hbmRead (s : State) (key n : Nat) : List Byte :=
  (List.range n).map (fun i => mget 0 s.hbm (key + i))

def State.hbmPoisoned (s : State) (key n : Nat) : Bool :=
  s.hbmPoison.any (fun h => decide (key / 64 ≤ h) && decide (h ≤ (key + n - 1) / 64))

/-- Writes bytes from a key on; the map stays in canonical form. -/
def writeBytes (m : Map Byte) (key : Nat) : List Byte → Map Byte
  | [] => m
  | b :: bs => writeBytes (mset 0 m key b) (key + 1) bs

/-- A write to HBM within one half-line; one of all 64 bytes clears its poison (R253). -/
def State.hbmWrite (s : State) (key : Nat) (bytes : List Byte) : State :=
  { s with
    hbm := writeBytes s.hbm key bytes
    hbmPoison := if bytes.length = 64 then sremove s.hbmPoison (key / 64) else s.hbmPoison }

/-- The key of the first byte of the line of HBM at a physical address of a partition, in a region or a segment. -/
def State.cellOf (s : State) (q pa : Nat) : Option Nat :=
  match s.locate q pa with
  | .hbm key => some (key / 128 * 128)
  | .segment i off => some (segKey (s.seg i) (off / 128 * 128))
  | _ => none

/-- The poisoned halves of a line of HBM: bit h for half h. -/
def State.cellPoison (s : State) (cell : Nat) : Nat :=
  b2n (decide (cell / 64 ∈ s.hbmPoison)) + 2 * b2n (decide (cell / 64 + 1 ∈ s.hbmPoison))

/-- Sets which halves of a line of HBM are poisoned. -/
def State.setCellPoison (s : State) (cell mask : Nat) : State :=
  let put := fun (l : List Nat) (h : Nat) => if bit mask h then sinsert l (cell / 64 + h) else sremove l (cell / 64 + h)
  { s with hbmPoison := put (put s.hbmPoison 0) 1 }

/-! ### Regulators (R248 to R250) -/

/-- Bytes in 1/10240 that a resource's rate of 1 adds in a nanosecond (Table 9-3, R249); 32 + p is the transmit direction of
fabric port p, whose peak follows its class (R326). -/
def State.resourceRate (s : State) (r : Nat) : Nat :=
  if r < 8 then 24576
  else if r < 16 then 40000
  else if r < 32 then 20000
  else
    match (mget {} s.ports (r - 32)).cls with
    | 1 => 500
    | 2 => 1000
    | 3 => 2000
    | _ => 0

/-- Refills every bucket for the time since it was last done (R249). -/
def State.refill (s : State) : State :=
  let dt := s.now - s.bucketTime
  { s with
    bucketTime := s.now
    buckets := mmapVals s.buckets (fun k b =>
      { b with level := min (b.level + ((b.rate * s.resourceRate (k / 16) * dt : Nat) : Int)) ((b.burst * 10485760 : Nat) : Int) }) }

/-- The time after which a bucket at or below zero is eligible again. -/
def Bucket.wait (b : Bucket) (perNs : Nat) : Nat := b.level.natAbs / (b.rate * perNs) + 1

/-- Admits bytes of a partition at a resource and charges them to its bucket. -/
def State.debit (s : State) (r q bytes : Nat) : State :=
  let b := s.bucket (16 * r + q)
  s.setBucket (16 * r + q) { b with level := b.level - ((bytes * 10240 : Nat) : Int) }

/-- A request with data of a partition (8 the migration engine) at a resource (R248 to R250). It is eligible while the level is above zero;
below, it waits until the bucket has refilled, for ever where the rate is 0. With `BORROW` it may be served at once, uncharged: whether
another request waits is the module's to know (log entry 4). -/
def State.charge (s : State) (r q bytes : Nat) : State :=
  let s := s.refill
  let b := s.bucket (16 * r + q)
  let rate := b.rate * s.resourceRate r
  if b.burst = 0 then s
  else if 0 < b.level then s.debit r q bytes
  else
    let (t, k) := if b.borrow then s.pick 2 else (s, 1)
    if k = 0 then t
    else if rate = 0 then t.stall
    else (t.until (t.now + b.wait (s.resourceRate r))).refill.debit r q bytes

/-- The resource number of the direct link between two compute dies (Table 9-3). -/
def linkResource (a b : Nat) : Option Nat :=
  match a, b with
  | 0, 1 => some 8
  | 1, 0 => some 9
  | 2, 3 => some 10
  | 3, 2 => some 11
  | 0, 2 => some 12
  | 2, 0 => some 13
  | 1, 3 => some 14
  | 3, 1 => some 15
  | _, _ => none

/-- The fixed route between two dies (R15): direct, or column first and then row. -/
def dieRoute (a b : Nat) : List (Nat × Nat) :=
  if a = b then []
  else if (linkResource a b).isSome then [(a, b)]
  else
    let mid := if a = 0 then 1 else if a = 3 then 2 else if a = 1 then 0 else 3
    [(a, mid), (mid, b)]

/-- Charges one line of data that crosses from die to die (R248). -/
def State.chargeRoute (s : State) (q : Nat) : List (Nat × Nat) → State
  | [] => s
  | (a, b) :: rest =>
    match linkResource a b with
    | some r => (s.charge r q 128).chargeRoute q rest
    | none => s.chargeRoute q rest

/-- Charges a line of data that goes from one die to another, 4 being the IO die (R248), and wakes their uncores (Table 15-7). -/
def State.chargeHop (s : State) (q src dst : Nat) : State :=
  let s := { s with uncoreIdle := s.uncoreIdle.filter (fun d => decide (d ≠ src) && decide (d ≠ dst)) }
  if src = dst then s
  else if src = 4 then s.charge (17 + 2 * dst) q 128
  else if dst = 4 then s.charge (16 + 2 * src) q 128
  else s.chargeRoute q (dieRoute src dst)

/-- A request wakes a stack from Power-down or Self-refresh (Table 15-7). -/
def State.wakeStack (s : State) (k : Nat) (dies : List Nat) : State :=
  let x := s.stack k
  let s := if x.power = 0 then s else s.setStack k { x with power := 3, lastUse := s.now }
  { s with uncoreIdle := s.uncoreIdle.filter (fun d => decide (d ∉ dies)) }

/-- The stack that holds a byte of HBM. -/
def stackOf (key : Nat) : Nat := key / 128 / linesPerPc / 64

/-- One line is read from or written to HBM (R248): charged at its stack. A request to a stack in refresh-only service waits (R260). -/
def State.chargeStack (s : State) (payer cell : Nat) (write : Bool) : State :=
  let k := stackOf cell
  if (s.stack k).refreshOnly then s.stall
  else ((s.wakeStack k [k / 2]).charge k payer 128).countWide (2 * k + b2n write) 128

/-- One line is read from or written to HBM for a home in gallery g: charged at its stack, and on the way between the home's die and the
stack's. -/
def State.chargeHbm (s : State) (payer g cell : Nat) (write : Bool) : State :=
  let k := stackOf cell
  let s := (s.chargeStack payer cell write).countGal g 8 128
  if write then s.chargeHop payer (g / 5) (k / 2) else s.chargeHop payer (k / 2) (g / 5)

/-! ### Homes, directories and caches -/

/-- The key of line L of a partition at its home. -/
def lineKey (q pa : Nat) : Nat := q * 2 ^ 45 + pa / 128

/-- R226: the gallery that homes a line. -/
def State.homeGallery (s : State) (q pa : Nat) : Nat :=
  let l := pa / 128
  let h := bits l 0 16 ^^^ bits l 16 16 ^^^ bits l 32 13
  let gs := s.galleriesOf q
  gs.getD (h % gs.length) 0

/-- R226: the set of a line in its slice. -/
def gcSet (l : Nat) : Nat := bits l 0 13 ^^^ bits l 13 13

/-- The ways of a slice in which a new line may be allocated (R229). -/
def Slice.openWays (x : Slice) : List Nat :=
  (List.range 16).filter (fun w =>
    !bit x.disabledWays w && !bit x.locked w && (decide (x.fillOnly = 0) || bit x.fillOnly w))

/-- The copy of a line that the slice of its home holds, with its place. -/
def State.gcCopy (s : State) (q pa : Nat) : Option (Nat × GcLine) :=
  let x := s.slice (s.homeGallery q pa)
  if x.enabled then x.lines.find? (fun e => decide (e.2.line = lineKey q pa)) else none

/-- Changes the copy of a line that a slice holds in a place. -/
def State.setCopy (s : State) (g place : Nat) (c : GcLine) : State :=
  s.modSlice g (fun x => { x with lines := minsert x.lines place c })

/-- The 128 bytes of a line at its home: of the slice where it holds the line, otherwise of HBM (R235). -/
def State.homeBytes (s : State) (q pa : Nat) : List Byte :=
  match s.gcCopy q pa with
  | some (_, ⟨_, _, _, some bs⟩) => bs
  | _ =>
    match s.cellOf q pa with
    | some cell => s.hbmRead cell 128
    | none => zeros 128

/-- The poisoned halves of a line at its home (R235, R253). -/
def State.homePoison (s : State) (q pa : Nat) : Nat :=
  match s.gcCopy q pa with
  | some (_, c) => c.poison
  | none =>
    match s.cellOf q pa with
    | some cell => s.cellPoison cell
    | none => 0

def State.setHomePoison (s : State) (q pa mask : Nat) : State :=
  match s.gcCopy q pa with
  | some (k, c) => s.setCopy (s.homeGallery q pa) k { c with poison := mask }
  | none =>
    match s.cellOf q pa with
    | some cell => s.setCellPoison cell mask
    | none => s

/-- Whether runs of bytes within a line (offset, bytes) cover all 64 bytes of a half. -/
def runsCover (runs : List (Nat × List Byte)) (half : Nat) : Bool :=
  (List.range 64).all (fun i => runs.any (fun r => decide (r.1 ≤ 64 * half + i) && decide (64 * half + i < r.1 + r.2.length)))

/-- A mask of poisoned halves after a write of runs: a half of which all 64 bytes are written is clear (R253). -/
def poisonAfter (runs : List (Nat × List Byte)) (mask : Nat) : Nat :=
  (List.range 2).foldl (fun m h => if runsCover runs h then setBit m h false else m) mask

/-- Writes runs of bytes from a key on, in their order. -/
def writeRuns (m : Map Byte) (key : Nat) (runs : List (Nat × List Byte)) : Map Byte :=
  runs.foldl (fun m r => writeBytes m (key + r.1) r.2) m

/-- Runs of bytes of one line are written at its home, as one message with its mask (R233): into the slice where it holds the line, otherwise
into HBM. Fewer than all 64 bytes of a half are merged, and leave its poison (R253). -/
def State.homeWrite (s : State) (q pa : Nat) (runs : List (Nat × List Byte)) : State :=
  match s.cellOf q pa with
  | none => s
  | some cell =>
    match s.gcCopy q pa with
    | some (k, c) =>
      let under := match c.keep with | some bs => writeBytes s.hbm cell bs | none => s.hbm
      { s with hbm := writeRuns under cell runs }.setCopy (s.homeGallery q pa) k
        { c with dirty := true, keep := none, poison := poisonAfter runs c.poison }
    | none => { s with hbm := writeRuns s.hbm cell runs }.setCellPoison cell (poisonAfter runs (s.cellPoison cell))

/-- A copy leaves its slice: a dirty one is written back with its poison (R226, R253), charged unless a recall takes it (R286). -/
def State.gcOut (s : State) (g : Nat) (paid : Bool) (c : GcLine) : State :=
  match s.cellOf (c.line / 2 ^ 45) (c.line % 2 ^ 45 * 128) with
  | some cell =>
    if c.dirty then
      let s := if paid then (s.countGal g 4 1).chargeHbm (c.line / 2 ^ 45) g cell true else s.countGal g 4 1
      s.setCellPoison cell c.poison
    else s
  | none => s

/-- A request for a line passes the slice that homes it (R226, R229, R235). A line that it does not hold is allocated where a way is open, in
an empty way or one of the slice's choice, whose line leaves; it is read from HBM unless a write covers all of it. -/
def State.throughSlice (s : State) (q pa : Nat) (write full : Bool) : State :=
  match s.cellOf q pa with
  | none => s
  | some cell =>
    let g := s.homeGallery q pa
    let x := s.slice g
    match s.gcCopy q pa with
    | some _ => s.countGal g 2 1
    | none =>
      let s := s.countGal g 3 1
      if !x.enabled || x.openWays.isEmpty then s.chargeHbm q g cell write
      else
        let base := 16 * gcSet (pa / 128)
        let (s, w) := match x.openWays.find? (fun w => (mfind x.lines (base + w)).isNone) with
          | some w => (s, w)
          | none => let (s, i) := s.pick x.openWays.length; (s, x.openWays.getD i 0)
        let s := match mfind x.lines (base + w) with
          | some old => s.gcOut g true old
          | none => s
        let s := if write && full then s else s.chargeHbm q g cell false
        s.setCopy g (base + w) { line := lineKey q pa, dirty := false, poison := s.cellPoison cell }

/-- The holders of a line that a directory state lists. -/
def DirState.holders : DirState → List Nat
  | .uncached => []
  | .shared hs => hs
  | .owned o => [o]

/-- The die of an agent: an L1, a host core's L2, or an I/O-coherent master on the IO die. -/
def agentDie (a : Nat) : Nat := if a < 160 then a / 40 else if a < 200 then (a - 160) / 10 else 4

/-- The 128 bytes of a line that a host core has modified, which no rule states: the host core's instructions are outside
the model (log entry 3). -/
def State.hostCoreData (s : State) : State × List Byte :=
  let seed := s.free
  ({ s with free := s.free + 16 }, (List.range 16).flatMap (fun i => toBytes 8 (Config.freeValue (seed + i)).toNat))

/-- A whole line that a host core sends back is written at its home. Its poisoned halves stay so unless the host core has written all 64 bytes
of them, which no command shows: a free choice for each (R253, log entry 4). -/
def State.lineWrite (s : State) (line : Nat) (bytes : List Byte) (poison : Nat) : State :=
  let q := line / 2 ^ 45
  let pa := line % 2 ^ 45 * 128
  let s := (s.throughSlice q pa true true).homeWrite q pa [(0, bytes)]
  if poison = 0 then s
  else
    let (s, k) := s.pick 4
    s.setHomePoison q pa (poison &&& k)

/-- A cache answers a snoop at once: the L1 of core c for agent c, the L2 of host core h for agent 160 + h, which keeps the
line as S for a `DOWNGRADE`. A line in M is written back, and one in E may have been modified without the home's knowledge
(R232, R235, R236). -/
def State.recall (s : State) (line agent : Nat) (keep paid : Bool) : State :=
  if agent < 160 then s.modCore agent (fun k => { k with l1 := sremove k.l1 line })
  else
    let k := (agent - 160) * 2 ^ 50 + line
    let x := s.hostLine k
    if x.st = 0 then s.setHostLine k {} else
    let s := s.until x.holdUntil
    let (s, i) := s.pick 2
    let s := if decide (x.st = 3) || (decide (x.st = 2) && decide (i = 1)) then
        let (s, bs) := s.hostCoreData
        let s := if paid then s.chargeHop (line / 2 ^ 45) (agentDie agent) (s.homeGallery (line / 2 ^ 45) (line % 2 ^ 45 * 128) / 5) else s
        s.lineWrite line bs x.poison
      else s
    s.setHostLine k (if keep then { st := 1, poison := s.homePoison (line / 2 ^ 45) (line % 2 ^ 45 * 128) } else {})

def State.dropCopies (s : State) (line : Nat) (paid : Bool) : List Nat → State
  | [] => s
  | a :: as => (s.recall line a false paid).dropCopies line paid as

/-- The number of directory entries of a gallery (R237). -/
def directoryWays : Nat := 16

/-- Whether a line's home is in a transaction, or requests wait there (R234). -/
def HomeLine.busy (x : HomeLine) : Bool := x.txn.isSome || !x.queue.isEmpty

/-- Makes room in the directory set of a line that needs an entry: the least recently used line of a full set is given
up by every holder (R237), once a transaction of it has ended. -/
def State.directoryRoom (s : State) (q pa : Nat) : State :=
  let line := lineKey q pa
  if (s.home line).dir ≠ .uncached then s else
  let g := s.homeGallery q pa
  let setOf := fun l => Config.directorySet l % 8192
  let mates := s.homes.filter (fun e =>
    decide (e.2.dir ≠ .uncached) && decide (setOf e.1 = setOf line) &&
      decide (s.homeGallery (e.1 / 2 ^ 45) (e.1 % 2 ^ 45 * 128) = g))
  if mates.length < directoryWays then s else
  let oldest := minOf (s.stamp + 1) (mates.map (fun e => e.2.stamp))
  match mates.find? (fun e => decide (e.2.stamp = oldest)) with
  | some (l, x) =>
    if x.busy then s.stall
    else (((s.countGal g 6 1).countGal g 7 x.dir.holders.length).dropCopies l true x.dir.holders).setHome l { x with dir := .uncached }
  | none => s

/-- Sets the directory state of a line and marks it as just used. -/
def State.setDir (s : State) (line : Nat) (d : DirState) : State :=
  let s := { s with stamp := s.stamp + 1 }
  s.setHome line { s.home line with dir := d, stamp := if d = .uncached then 0 else s.stamp }

/-- An access reaches the home of its line, where it waits while a transaction or a request before it has not ended (R234). -/
def State.reachHome (s : State) (q pa : Nat) : State := if (s.home (lineKey q pa)).busy then s.stall else s

/-- An I/O-coherent read of a line at its home (Table 8-9): an owner in M is downgraded, and the home updates its copy. -/
def State.askOwner (s : State) (q pa : Nat) : State :=
  let line := lineKey q pa
  let s := s.reachHome q pa
  match (s.home line).dir with
  | .owned o =>
    let k := (o - 160) * 2 ^ 50 + line
    let (s, i) := s.pick 2
    if decide ((s.hostLine k).st = 3) || (decide ((s.hostLine k).st = 2) && decide (i = 1)) then
      let s := s.setHostLine k { s.hostLine k with st := 3 }
      ((s.countGal (s.homeGallery q pa) 7 1).recall line o true true).setDir line (.shared [o])
    else s
  | _ => s

/-- Table 8-9, `IO_READ` from a die. -/
def State.homeIoRead (s : State) (q pa die : Nat) : State :=
  ((s.askOwner q pa).throughSlice q pa false false).chargeHop q (s.homeGallery q pa / 5) die

/-- Table 8-9, `IO_WRITE` from a die: every holder gives the line up. -/
def State.homeIoWrite (s : State) (q pa die : Nat) (full : Bool) : State :=
  let line := lineKey q pa
  let s := s.reachHome q pa
  let d := (s.home line).dir
  let s := if d = .uncached then s else
    ((s.countGal (s.homeGallery q pa) 7 d.holders.length).dropCopies line true d.holders).setDir line .uncached
  (s.chargeHop q die (s.homeGallery q pa / 5)).throughSlice q pa true full

/-- A line of an L1 set is used (R224). -/
def State.l1Touch (s : State) (core line : Nat) : State := s.modCore core (fun k => { k with l1Mru := minsert k.l1Mru (line % 256) line })

/-- A cache leaves the directory of a line that it holds in S. -/
def State.leaveShared (s : State) (line agent : Nat) : State :=
  match (s.home line).dir with
  | .shared hs => if agent ∈ hs then s.setDir line (if sremove hs agent = [] then .uncached else .shared (sremove hs agent)) else s
  | _ => s

/-- Puts a line into an L1. A full set gives up one of its eight lines, not the one used last: of a pseudo-LRU no more is stated (R224, log
entry 4). -/
def State.l1Insert (s : State) (core line : Nat) : State :=
  let k := s.core core
  let same := k.l1.filter (fun l => decide (l % 256 = line % 256) && decide (l ≠ line))
  let s := if same.length < 8 then s else
    let old := same.filter (fun l => decide (mget 0 k.l1Mru (line % 256) ≠ l))
    let (s, i) := s.pick old.length
    let l := old.getD i 0
    (s.modCore core (fun k => { k with l1 := sremove k.l1 l })).leaveShared l core
  (s.modCore core (fun k => { k with l1 := sinsert k.l1 line, l1Err := sremove k.l1Err line })).l1Touch core line

/-- Whether an L1 holds a line that it can serve; one with an uncorrectable error is invalidated and fetched again (R224). -/
def Core.l1Hit (k : Core) (line : Nat) : Bool := decide (line ∈ k.l1) && decide (line ∉ k.l1Err)

/-- A crew load that its L1 does not serve reaches the home (R224, Table 8-9): the line is allocated in S unless `na` or poisoned. -/
def State.crewRead (s : State) (core q pa : Nat) (na : Bool) : State :=
  let line := lineKey q pa
  let s := s.reachHome q pa
  let s := if line ∈ (s.core core).l1Err then s.rasCorrected 0x06 core (s.reachOf (some q)) else s
  let s := s.modCore core (fun k => { k with l1 := sremove k.l1 line, l1Err := sremove k.l1Err line })
  let s := if na then s else s.directoryRoom q pa
  let s := match (s.home line).dir with
    | .owned o => ((s.countGal (s.homeGallery q pa) 7 1).recall line o true true).setDir line (.shared [o])
    | _ => s
  let s := (s.throughSlice q pa false false).chargeHop q (s.homeGallery q pa / 5) (dieOf core)
  if s.homePoison q pa ≠ 0 then s.leaveShared line core
  else if na then s
  else (s.setDir line (.shared (sinsert (s.home line).dir.holders core))).l1Insert core line

/-- A crew store or atomic at the home (Table 8-9): every holder but the requesting L1 gives the line up. -/
def State.crewWrite (s : State) (core q pa : Nat) (full : Bool) : State :=
  let line := lineKey q pa
  let s := s.reachHome q pa
  let d := (s.home line).dir
  let s := (s.countGal (s.homeGallery q pa) 7 (sremove d.holders core).length).dropCopies line true (sremove d.holders core)
  let keep := decide (line ∈ (s.core core).l1)
  let s := if d = .uncached then s else s.setDir line (if keep then .shared [core] else .uncached)
  (s.chargeHop q (dieOf core) (s.homeGallery q pa / 5)).throughSlice q pa true full

/-! ### Shared segment lines in error (R298, R299) -/

/-- The physical address of a segment line (Table 11-2). -/
def segAddr (seg line : Nat) : Nat := 0x30000000000 + seg * 2 ^ 36 + line * 128

/-- Invalidates every copy of a segment line in the slices and caches of the partitions that map it (R299 step 2). -/
def State.dropSegLine (s : State) (i line : Nat) : State :=
  (s.seg i).mapped.foldl (fun s q =>
    let k := lineKey q (segAddr i line)
    let d := (s.home k).dir
    let s := if d = .uncached then s else (s.dropCopies k false d.holders).setDir k .uncached
    { s with slices := mmapVals s.slices (fun _ x => { x with lines := x.lines.filter (fun e => decide (e.2.line ≠ k)) }) }) s

/-- Mitor marks a line of a segment IN_REPAIR, within 10 µs of the detection (R299 step 2). -/
def State.segMark (s : State) (i line : Nat) : State :=
  let g := s.seg i
  (s.setSeg i { g with lines := mset .good g.lines line .inRepair, found := merase g.found line }).dropSegLine i line

/-- A read of a line whose error has been detected comes before the marking or after it: the module's choice, and after it once 10 µs have
passed (R299 steps 1 and 2, log entry 10). -/
def State.segSeen (s : State) (i line : Nat) : State :=
  match mfind (s.seg i).found line with
  | none => s
  | some t =>
    let (s, k) := s.pick 2
    if k = 0 ∧ s.now ≤ t + 10000 then s else s.segMark i line

/-! ### Access by physical address -/

/-- Who makes an access: a crew of a core, with or without allocation in its L1, or an I/O-coherent master standing on a
die (4 the IO die). -/
inductive Master where
  | crew (core : Nat) (na : Bool)
  | io (die : Nat)
  deriving DecidableEq, Repr

def Master.die : Master → Nat
  | .crew c _ => dieOf c
  | .io d => d

/-- What the home gives of a line: bytes, or poison while either half is poisoned (R253). -/
def State.lineGives (s : State) (q pa n : Nat) : Access :=
  if s.homePoison q pa ≠ 0 then .poison (pa / 128 * 128) else .ok (((s.homeBytes q pa).drop (pa % 128)).take n)

/-- Reads n bytes within one line of a region or a segment: from the L1 of a crew's core where that holds the line, otherwise at the home. -/
def State.lineRead (s : State) (m : Master) (q pa n : Nat) : State × Access :=
  match m with
  | .crew core na =>
    if (s.core core).l1Hit (lineKey q pa) then
      (s.l1Touch core (lineKey q pa), .ok (((s.homeBytes q pa).drop (pa % 128)).take n))
    else
      let s := s.crewRead core q pa na
      (s, s.lineGives q pa n)
  | .io die =>
    let s := s.homeIoRead q pa die
    (s, s.lineGives q pa n)

/-- A request to write a line reaches its home (Table 8-9). -/
def State.lineOpen (s : State) (m : Master) (q pa : Nat) (full : Bool) : State :=
  match m with
  | .crew core _ => s.crewWrite core q pa full
  | .io die => s.homeIoWrite q pa die full

/-- Writes runs of bytes of one line of a region, as one message (R233). -/
def State.lineStore (s : State) (m : Master) (q pa : Nat) (runs : List (Nat × List Byte)) : State :=
  (s.lineOpen m q pa (runsCover runs 0 && runsCover runs 1)).homeWrite q pa runs

/-- Whether a partition may read n bytes of a segment at an offset: mapped into it, filled, and within its size (R296, R297). -/
def State.segServes (s : State) (q i off n : Nat) : Bool :=
  let g := s.seg i
  g.live && g.filled && decide (q ∈ g.mapped) && decide (off + n ≤ g.size)

/-- Reads n bytes within one line at a physical address of a partition (R244, R253, R298, R336). -/
def State.paRead (s : State) (m : Master) (q ctx pa n : Nat) : State × Access :=
  match s.locate q pa with
  | .hbm _ => s.lineRead m q pa n
  | .segment i off =>
    if !s.segServes q i off n then (s, .trans pa)
    else
      let s := s.segSeen i (off / 128)
      match mget .good (s.seg i).lines (off / 128) with
      | .good => s.lineRead m q pa n
      | .inRepair => (s, .held i (off / 128))
      | .lost => (s, .poison (pa / 128 * 128))
  | .host addr =>
    match s.hostRead (s.fnOf q) ctx addr n with
    | (s, .data bs) => (s, .ok bs)
    | (s, .failed) => (s, .trans pa)
    | (s, .poisoned) => (s, .poison pa)
  | _ => (s, .trans pa)

/-- Writes bytes within one line at a physical address of a partition. -/
def State.paWrite (s : State) (m : Master) (q ctx pa : Nat) (bytes : List Byte) : State × Access :=
  match s.locate q pa with
  | .hbm _ => (s.lineStore m q pa [(pa % 128, bytes)], .ok [])
  | .host addr => (s.hostWrite (s.fnOf q) ctx addr bytes, .ok [])
  | _ => (s, .trans pa)

/-! ### Translation -/

/-- The permissions an access needs (R293). -/
structure Perm where
  r : Bool := false
  w : Bool := false
  x : Bool := false
  deriving DecidableEq, Repr

/-- Stage 2 (R291): the physical address and page size of an intermediate address, where a mapping with the needed
permissions covers it. -/
def State.stage2Of (s : State) (q ia : Nat) (p : Perm) : Option (Nat × Nat) :=
  if 2 ^ 48 ≤ ia then none else
  match s.stage2.find? (fun m => decide (m.part = q) && decide (m.ia ≤ ia) && decide (ia < m.ia + m.size)) with
  | some m =>
    if (p.r && !m.r) || (p.w && !m.w) || (p.x && !m.x) then none
    else some (m.pa + (ia - m.ia), m.page)
  | none => none

/-- A translation: the physical address, a translation fault, poison met by the walk, or a segment line in repair where it is held (R298). -/
inductive Tr where
  | ok (pa : Nat)
  | fault
  | poison (addr : Nat)
  | held (seg line : Nat)
  deriving DecidableEq, Repr

/-- What a stage-1 walk found: intermediate address, page size, leaf permissions, whether D is set. -/
inductive Walk where
  | leaf (ia size : Nat) (r w x dirty : Bool)
  | fault
  | poison (addr : Nat)
  | held (seg line : Nat)
  deriving DecidableEq, Repr

/-- The page size of a leaf at a level, with the Svnapot encoding (R291), or none where the level or the encoding has no
page. -/
def leafSize (level pte : Nat) : Option Nat :=
  let ppn := bits pte 10 44
  if bit pte 63 then if level = 0 && decide (ppn % 16 = 8) then some 65536 else none
  else
    match level with
    | 0 => some 4096
    | 1 => if ppn % 512 = 0 then some (2 ^ 21) else none
    | 2 => if ppn % 2 ^ 18 = 0 then some (2 ^ 30) else none
    | _ => none

/-- One stage-1 walk (R291, R293): Sv48 tables in intermediate addresses, read I/O-coherently at the home; A, and D on
writes, set by an update at the home. `level` counts down from 3. A walk for a run-ahead read sets A as any other, though R60 has run-ahead
write no memory (log entry 43). -/
def State.walk (s : State) (q : Nat) (va : Nat) (p : Perm) : Nat → Nat → State × Walk
  | level, table =>
    let ia := table + 8 * bits va (12 + 9 * level) 9
    match s.stage2Of q ia { r := true } with
    | none => (s, .fault)
    | some (pa, _) =>
      match s.paRead (.io 4) q 0 pa 8 with
      | (s, .poison a) => (s, .poison a)
      | (s, .ok bs) =>
        let pte := ofBytes bs
        let ppn := bits pte 10 44
        if !bit pte 0 || (!bit pte 1 && bit pte 2) || decide (bits pte 54 9 ≠ 0) || decide (2 ^ 40 ≤ ppn) then (s, .fault)
        else if bit pte 1 || bit pte 3 then
          match leafSize level pte with
          | none => (s, .fault)
          | some size =>
            if !bit pte 4 || (p.r && !bit pte 1) || (p.w && !bit pte 2) || (p.x && !bit pte 3) then (s, .fault)
            else
              let out := ppn * 4096 / size * size + va % size
              let pte' := setBit (if p.w then setBit pte 7 true else pte) 6 true
              if pte' = pte then (s, .leaf out size (bit pte 1) (bit pte 2) (bit pte 3) (bit pte' 7))
              else
                match s.stage2Of q ia { w := true } with
                | none => (s, .fault)
                | some (pa, _) =>
                  match s.paWrite (.io 4) q 0 pa (toBytes 8 pte') with
                  | (s, .ok _) => (s, .leaf out size (bit pte 1) (bit pte 2) (bit pte 3) (bit pte' 7))
                  | (s, _) => (s, .fault)
        else if bit pte 63 || decide (bits pte 4 1 + bits pte 6 2 ≠ 0) then (s, .fault)
        else
          match level with
          | 0 => (s, .fault)
          | l + 1 => s.walk q va p l (ppn * 4096)
      | (s, .held g line) => (s, .held g line)
      | (s, _) => (s, .fault)

/-- The entries a translation cache holds (R294). -/
def tlbSize (cache : Nat) : Nat := if cache < 1000 then 512 else if cache < 2000 then 8192 else 4096

/-- Puts an entry into a translation cache; a full cache gives up an entry of its choice. -/
def State.tlbAdd (s : State) (e : TlbEntry) : State :=
  let mine := s.tlb.filter (fun x => decide (x.cache = e.cache))
  if mine.length < tlbSize e.cache then { s with tlb := e :: s.tlb } else
  let (s, i) := s.pick mine.length
  match mine[i]? with
  | some old => { s with tlb := e :: s.tlb.filter (fun x => decide (x ≠ old)) }
  | none => s

/-- Translates a context virtual address (R290 to R294). A cached entry may serve, or the tables be walked again; the
choice is the module's until an invalidation completes. With `fill` clear no cache is filled (R62). -/
def State.translate (s : State) (cache q ctx root va : Nat) (p : Perm) (fill : Bool := true) : State × Tr :=
  if 2 ^ 47 ≤ va then (s, .fault) else
  let hit := s.tlb.find? (fun e =>
    decide (e.cache = cache) && decide (e.part = q) && decide (e.ctx = ctx) && decide (e.va ≤ va) && decide (va < e.va + e.size) &&
      (!p.r || e.r) && (!p.w || (e.w && e.dirty)) && (!p.x || e.x))
  let (s, useOld) := match hit with
    | some _ => let (s, k) := s.pick 2; (s, decide (k = 0))
    | none => (s, false)
  match hit, useOld with
  | some e, true => (s, .ok (e.pa + (va - e.va)))
  | _, _ =>
    match s.walk q va p 3 root with
    | (s, .fault) => (s, .fault)
    | (s, .poison a) => (s, .poison a)
    | (s, .held g line) => (s, .held g line)
    | (s, .leaf ia size r w x d) =>
      match s.stage2Of q ia p with
      | none => (s, .fault)
      | some (pa, size2) =>
        if 2 ^ 52 ≤ pa then (s, .fault) else
        let z := min size size2
        let allow := fun (q' : Perm) => (s.stage2Of q ia q').isSome
        let e : TlbEntry := ⟨cache, q, ctx, va / z * z, z, pa - va % z, r && allow { r := true }, w && allow { w := true },
          x && allow { x := true }, d⟩
        let s := if fill && !decide (e ∈ s.tlb) then s.tlbAdd e else s
        (s, .ok pa)

/-! ### Access by virtual address -/

/-- A string of n bytes from an address, cut at the lines it touches. -/
def linePieces : Nat → Nat → Nat → List (Nat × Nat)
  | 0, _, _ => []
  | f + 1, va, n =>
    if n = 0 then [] else
    let k := min n (128 - va % 128)
    (va, k) :: linePieces f (va + k) (n - k)

/-- A requester of virtual-address accesses: its translation cache, its master, its context, and whether caches are
filled. -/
structure Requester where
  cache : Nat
  master : Master
  ctx : Nat
  fill : Bool := true
  deriving DecidableEq, Repr

def State.xlate (s : State) (w : Requester) (va : Nat) (p : Perm) : State × Tr :=
  let c := s.ctx w.ctx
  s.translate w.cache c.part w.ctx c.root va p w.fill

/-- Reads the pieces of a string in rising order and stops at the first that fails. -/
def State.readPieces (s : State) (w : Requester) (acc : List Byte) : List (Nat × Nat) → State × Access
  | [] => (s, .ok acc)
  | (va, n) :: rest =>
    match s.xlate w va { r := true } with
    | (s, .fault) => (s, .trans va)
    | (s, .poison a) => (s, .poison a)
    | (s, .held g line) => (s, .held g line)
    | (s, .ok pa) =>
      match s.paRead w.master (s.ctx w.ctx).part w.ctx pa n with
      | (s, .ok bs) => s.readPieces w (acc ++ bs) rest
      | (s, .trans _) => (s, .trans va)
      | (s, e) => (s, e)

/-- Reads n bytes at a context virtual address. -/
def State.vaRead (s : State) (w : Requester) (va n : Nat) : State × Access :=
  s.readPieces w [] (linePieces (n / 128 + 2) va n)

/-- Writes the pieces of a string in rising order and stops at the first that fails; pieces written stay. -/
def State.writePieces (s : State) (w : Requester) (bytes : List Byte) : List (Nat × Nat) → State × Access
  | [] => (s, .ok [])
  | (va, n) :: rest =>
    match s.xlate w va { w := true } with
    | (s, .fault) => (s, .trans va)
    | (s, .poison a) => (s, .poison a)
    | (s, .held g line) => (s, .held g line)
    | (s, .ok pa) =>
      match s.paWrite w.master (s.ctx w.ctx).part w.ctx pa (bytes.take n) with
      | (s, .ok _) => s.writePieces w (bytes.drop n) rest
      | (s, .trans _) => (s, .trans va)
      | (s, e) => (s, e)

/-- Writes bytes at a context virtual address. -/
def State.vaWrite (s : State) (w : Requester) (va : Nat) (bytes : List Byte) : State × Access :=
  s.writePieces w bytes (linePieces (bytes.length / 128 + 2) va bytes.length)

/-! ### Held reads of segment lines (R298) -/

/-- A read of a segment line in repair is held at the home (R298): the reader is entered once. -/
def State.holdRead (s : State) (r : Reader) (seg line : Nat) : State :=
  let g := s.seg seg
  if g.held.any (fun h => decide (h.reader = r) && decide (h.line = line)) then s
  else
    let (s, t) := s.sample
    s.setSeg seg { g with held := g.held ++ [⟨r, line, t, false⟩] }

/-- Whether a reader's held read of a line has been answered with poison. -/
def State.readExpired (s : State) (r : Reader) (seg line : Nat) : Bool :=
  (s.seg seg).held.any (fun h => decide (h.reader = r) && decide (h.line = line) && h.expired)

/-- Takes a reader's held reads away. -/
def State.dropHeld (s : State) (r : Reader) : State :=
  if s.segs.any (fun e => e.2.held.any (fun h => decide (h.reader = r))) then
    { s with segs := s.segs.map (fun e => (e.1, { e.2 with held := e.2.held.filter (fun h => decide (h.reader ≠ r)) })) }
  else s

/-- A read that meets a line in repair waits, or has waited until it is answered with poison (R298). -/
def State.orHeld (s : State) (r : Reader) (a : Access) : State × Access :=
  match a with
  | .held seg line =>
    if s.readExpired r seg line then (s.dropHeld r, .poison (segAddr seg line)) else (s.holdRead r seg line, .held seg line)
  | a => (s, a)

/-- The requester that the ingress sequencer is (R293): IO die, I/O-coherent. -/
def sequencer (ctx : Nat) : Requester := { cache := 2000, master := .io 4, ctx }

/-- Reads n bytes at an address in space 0 or 1 (chapter 02) for the ingress sequencer. -/
def State.spaceRead (s : State) (w : Requester) (space addr n : Nat) : State × Access :=
  if space = 0 then
    let (s, a) := s.vaRead w addr n
    s.orHeld (.sequencer w.ctx) a
  else
    match s.hostRead (s.ctx w.ctx).fn w.ctx addr n with
    | (s, .data bs) => (s, .ok bs)
    | (s, .failed) => (s, .trans addr)
    | (s, .poisoned) => (s, .poison addr)

/-- A record write of the sequencer (R45, R66): in space 0 a translation fault discards it and sets DMA_ERROR. -/
def State.recordWrite (s : State) (ctx space addr : Nat) (bytes : List Byte) : State :=
  if space = 0 then
    match s.vaWrite (sequencer ctx) addr bytes with
    | (s, .ok _) => s
    | (s, .held _ _) => s.stall
    | (s, _) => s.hostError (s.ctx ctx).fn 3 true ctx addr
  else s.hostWrite (s.ctx ctx).fn ctx addr bytes

end Sys2Proof.Machine
end

