-- ==== Sys2Proof/Machine/CrewOps.lean ====
section
/-! DEFINITION. Operations on crews that several families share (03_crew_execution.md): the reconvergence stack and the
choice of the next path (R82 to R92, R453), crew faults (R94, R95), and the end of a launch (R78, R95). Also the point
at which a packet's work is done (02 R54). -/

namespace Sys2Proof.Machine

open Sys2Proof

/-! ### Packets -/

/-- Changes one packet in flight of a context. -/
def Ctx.modPkt (c : Ctx) (pid : Nat) (f : Pkt → Pkt) : Ctx :=
  { c with pkts := c.pkts.map (fun p => if p.pid = pid then f p else p) }

def State.modPkt (s : State) (ctx pid : Nat) (f : Pkt → Pkt) : State := s.modCtx ctx (fun c => c.modPkt pid f)

def State.pkt (s : State) (ctx pid : Nat) : Option Pkt := (s.ctx ctx).pkts.find? (fun p => decide (p.pid = pid))

/-- The work of a dispatched packet is done with a status (Table 2-12); `PACKET_COMPLETE` completes it. -/
def State.packetDone (s : State) (ctx pid status detail : Nat) : State :=
  s.modPkt ctx pid (fun p =>
    match p.stage with
    | .completed => p
    | .workDone _ _ => p
    | _ => { p with stage := .workDone status detail })

/-! ### Paths and the stack -/

/-- The mask of all threads of a crew. -/
def Crew.allMask (c : Crew) : Nat := 2 ^ c.width - 1

def StackEntry.isJoin : StackEntry → Bool
  | .join _ _ => true
  | .pending _ _ _ => false

def StackEntry.mask : StackEntry → Nat
  | .join _ m => m
  | .pending _ m _ => m

def StackEntry.runnable : StackEntry → Bool
  | .pending _ _ .runnable => true
  | _ => false

/-- The open group: the entries above the topmost join entry, top first (R82). -/
def openGroup (st : List StackEntry) : List StackEntry := st.takeWhile (fun e => !e.isJoin)

/-- Whether the open group holds a runnable pending entry. -/
def hasRunnable (st : List StackEntry) : Bool := (openGroup st).any StackEntry.runnable

/-- Whether every waiting entry of the open group waits on a crew barrier, and none is runnable (R92). -/
def strandedStack (st : List StackEntry) : Bool :=
  (openGroup st).all (fun e => match e with | .pending _ _ (.barrier _) => true | _ => false)

/-- Discards entries with empty masks from the open group, and a join entry met with an empty mask, going on below it
(R453 step 1). -/
def discardEmpty : List StackEntry → List StackEntry
  | [] => []
  | .pending pc m w :: st => if m = 0 then discardEmpty st else .pending pc m w :: discardEmpty st
  | .join a m :: st => if m = 0 then discardEmpty st else .join a m :: st

/-- Takes the topmost runnable pending entry out of the open group. -/
def takeRunnable : List StackEntry → Option ((Nat × Nat) × List StackEntry)
  | [] => none
  | .join _ _ :: _ => none
  | .pending pc m .runnable :: st => some ((pc, m), st)
  | e :: st => (takeRunnable st).map (fun r => (r.1, e :: r.2))

/-- How a path ended (R453). -/
inductive PathEnd where
  | atJoin (addr : Nat)
  | atExit
  | atWait
  deriving DecidableEq, Repr

/-- The choice of what runs next when a path has ended (R453, and Table 3-4 for `JOIN`), or none for BAD_JOIN. -/
def Crew.nextPath (c : Crew) (how : PathEnd) : Option Crew :=
  let st := discardEmpty c.stack
  match takeRunnable st with
  | some (p, st) => some { c with path := some p, stack := st, bb := 0 }
  | none =>
    if openGroup st ≠ [] then
      some { c with path := none, stack := st, bb := 0, state := if c.state = .running then .waiting else c.state }
    else
      match how, st with
      | .atJoin a, .join b m :: rest => if a = b then some { c with path := some (a + 8, m), stack := rest, bb := 0 } else none
      | .atJoin _, _ => none
      | .atExit, .join b m :: rest => some { c with path := some (b, m), stack := .join b m :: rest, bb := 0 }
      | _, _ => some { c with path := none, stack := st, bb := 0 }

/-- A crew with no current path takes up a runnable entry that a release has left it (R79, R93). A halted crew takes it
up at its next step or when it resumes. -/
def Crew.wake (c : Crew) : Crew :=
  match c.path with
  | some _ => c
  | none =>
    match takeRunnable c.stack with
    | some (p, st) => { c with path := some p, stack := st, bb := 0, state := .running }
    | none => c

/-- Removes the waiting mark of every entry that waits on a crew barrier (R89). -/
def Crew.releaseBarrier (c : Crew) (b : Nat) : Crew :=
  { c with
    barriers := mset 0 c.barriers b 0
    stack := c.stack.map (fun e =>
      match e with
      | .pending pc m (.barrier b') => if b = b' then .pending pc m .runnable else e
      | e => e) }

/-- Whether a crew barrier is complete: its arrived threads and the exited ones cover the crew (R89). -/
def Crew.barrierFull (c : Crew) (b : Nat) : Bool :=
  let a := mget 0 c.barriers b
  decide (a ≠ 0) && decide (a ||| c.exited = c.allMask)

/-- Releases every crew barrier that an exit has completed (R89). -/
def Crew.releaseFull (c : Crew) : List Nat → Crew
  | [] => c
  | b :: bs => if c.barrierFull b then (c.releaseBarrier b).releaseFull bs else c.releaseFull bs

/-- Every thread has exited (R78). -/
def Crew.allExited (c : Crew) : Bool := decide (c.exited = c.allMask)

/-- The predicate p of the threads, as a mask; p7 is constant true (R110). -/
def Crew.pred (c : Crew) (p : Nat) : Nat := if p = 7 then c.allMask else mget 0 c.preds p

/-- Sets predicate p in the threads of a mask to the bits of vals; a write to p7 is discarded (R110). -/
def Crew.setPred (c : Crew) (p mask vals : Nat) : Crew :=
  if p = 7 then c
  else
    let old := mget 0 c.preds p
    { c with preds := mset 0 c.preds p ((old - (old &&& mask)) + (vals &&& mask)) }

/-! ### Results on their way (R111) -/

/-- Whether two register writes go to the same register (R111). -/
def RegWrite.same : RegWrite → RegWrite → Bool
  | .v t r _, .v t' r' _ => decide (t = t') && decide (r = r')
  | .u r _, .u r' _ => decide (r = r')
  | _, _ => false

/-- What is left of an older result once a younger one has written: the registers it does not share, and for a predicate
the threads it does not share (R111). -/
def RegWrite.without (w : RegWrite) (by' : List RegWrite) : Option RegWrite :=
  match w with
  | .p i mask vals =>
    let taken := by'.foldl (fun m x => match x with | .p j k _ => if i = j then m ||| k else m | _ => m) 0
    some (.p i (mask - (mask &&& taken)) vals)
  | w => if by'.any (fun x => w.same x) then none else some w

/-- Discards, of results still on their way, what a younger write of the same registers replaces (R111). -/
def Crew.discard (c : Crew) (ws : List RegWrite) (older : Result → Bool) : Crew :=
  { c with outs := c.outs.map (fun o => if older o then { o with writes := o.writes.filterMap (fun w => w.without ws) } else o) }

/-- A predicate that an instruction sets as it executes: an older result for it, in the same threads, is discarded (R111). -/
def Crew.putPred (c : Crew) (p mask vals : Nat) : Crew :=
  (c.setPred p mask vals).discard [.p p mask vals] (fun _ => true)

/-! ### Faults and the end of a launch -/

/-- Whether a fault comes before another: by timestamp, then partition core index, quarter and slot (R95). -/
def FirstFault.before (a b : FirstFault) : Bool :=
  decide (a.time < b.time) || (decide (a.time = b.time) &&
    (decide (a.pcore < b.pcore) || (decide (a.pcore = b.pcore) &&
      (decide (a.quarter < b.quarter) || (decide (a.quarter = b.quarter) && decide (a.slot < b.slot))))))

/-- Whether any crew of a launch is still to be placed on a core that has not stopped placing, or is resident and not
faulted, or is saved. -/
def State.launchBusy (s : State) (n : Nat) (l : Launch) : Bool :=
  s.cores.any (fun e =>
    e.2.crews.any (fun c => decide (c.2.launch = n) && decide (c.2.state ≠ .faulted)) ||
    e.2.queue.any (fun i =>
      match i with
      | .fresh m _ => decide (m = n) && !decide (e.1 ∈ l.stopped)
      | .saved c => decide (c.crew.launch = n))) ||
  s.saved.any (fun c => decide (c.crew.launch = n))

/-- The mark, outside Table 3-7, of a launch whose first fault was an uncorrectable register error (R405). -/
def registerErrorCode : Nat := 0x10000

/-- Ends a launch whose crews have all left or faulted: its packet's work is done (R78, R95, R301). -/
def State.checkLaunch (s : State) (n : Nat) : State :=
  match s.launch n with
  | none => s
  | some l =>
    if s.launchBusy n l then s
    else
      let tag := match s.pkt l.ctx l.pid with | some p => p.tag | none => 0
      let status := if l.aborted then 1 else if l.fault.isSome then 0x10 else 0
      let s := l.cores.foldl (fun s c => s.traceEnd c (pairOf l.layer l.oper) tag 1 l.ctx status) s
      let s := { s with
        launches := merase s.launches n
        cores := mmapVals s.cores (fun _ k => { k with queue := k.queue.filter (fun i =>
          match i with | .fresh m _ => decide (m ≠ n) | .saved _ => true) }) }
      if l.aborted then s.packetDone l.ctx l.pid 1 0
      else
        match l.fault with
        | some f =>
          if f.code = registerErrorCode then s.packetDone l.ctx l.pid 0x12 (2 ^ 63 + 0x02 * 2 ^ 56 + f.pcore)
          else s.packetDone l.ctx l.pid 0x10 (f.pcore + 65536 * f.code)
        | none => s.packetDone l.ctx l.pid 0 0

/-- A crew fault (R94, R95): the crew stops with its fault record; its core stops placing crews of the launch; the
launch keeps its first fault. Results of earlier instructions that are still on their way are given up: R94 says only what becomes of
instructions that completed before the fault (log entry 45). -/
def State.crewFault (s : State) (core key : Nat) (r : FaultRec) : State :=
  match s.crew core key with
  | none => s
  | some c =>
    if c.state = .faulted then s else
    let (s, t) := s.sample
    let s := s.setCrew core key { c with state := .faulted, fault := r, outs := [], retry := false }
    let f : FirstFault := ⟨t, s.pcore (s.ctx c.ctx).part core, key / 48, key % 48, r.code⟩
    let s := s.modLaunch c.launch (fun l => { l with
      fault := match l.fault with
        | some g => if f.before g then some f else some g
        | none => some f
      faults := l.faults + 1
      stopped := sinsert l.stopped core })
    let pair := match s.launch c.launch with | some l => pairOf l.layer l.oper | none => 0
    let s := s.traceEvent core pair 4 (toBytes 1 (key / 48) ++ toBytes 1 (key % 48) ++ toBytes 2 r.code ++ toBytes 8 r.pc)
    let q := (s.ctx c.ctx).part
    let s := if (s.part q).debugOpen then
        s.notifyFn (s.fnOf q) 0x11 (toBytes 2 core ++ toBytes 1 (key / 48) ++ toBytes 1 (key % 48) ++ zeros 4 ++ toBytes 8 r.pc ++
          toBytes 1 r.code)
      else s
    s.checkLaunch c.launch

/-- An uncorrectable register error stops the crew that read it and discards it; the other crews of its launch run on as for a
crew fault (R405). -/
def State.crewLost (s : State) (core key reg : Nat) : State :=
  match s.crew core key with
  | none => s
  | some c =>
    let (s, t) := s.sample
    let q := (s.ctx c.ctx).part
    let f : FirstFault := ⟨t, s.pcore q core, key / 48, key % 48, registerErrorCode⟩
    let s := (s.modCore core (fun k => { k with crews := merase k.crews key })).modLaunch c.launch (fun l => { l with
      fault := match l.fault with
        | some g => if f.before g then some f else some g
        | none => some f
      faults := l.faults + 1
      stopped := sinsert l.stopped core })
    let tag := match s.launch c.launch with
      | some l => (match s.pkt l.ctx l.pid with | some p => p.tag | none => 0)
      | none => 0
    (s.ras { cls := 3, source := 0x02, part := some q, unit := core, addr := reg, tag }).checkLaunch c.launch

/-- A fault at the instruction of the current path. -/
def State.pathFault (s : State) (core key code addr thread : Nat) : State :=
  match s.crew core key with
  | some c =>
    match c.path with
    | some (pc, m) => s.crewFault core key ⟨code, addr, pc, m, thread⟩
    | none =>
      let (s, x) := s.fresh
      let (s, y) := s.fresh
      s.crewFault core key ⟨code, addr, x.toNat, y.toNat, thread⟩
  | none => s

/-- The stranded check of R92 at a scheduling decision of a crew with no current path; it does not run while the crew is
halted (R106). It has no address (Table 17-9); its thread is not stated (log entry 5). -/
def State.strandCheck (s : State) (core key : Nat) : State :=
  match s.crew core key with
  | some c =>
    if decide (c.state = .waiting) && c.path.isNone && !c.allExited && strandedStack c.stack then
      let (s, y) := s.fresh
      s.pathFault core key 0x07 0 (y.toNat % c.width)
    else s
  | none => s

/-- Frees the place of a crew: its slot, registers and scratch (R78). -/
def State.freeCrew (s : State) (core key : Nat) : State := s.modCore core (fun k => { k with crews := merase k.crews key })

end Sys2Proof.Machine
end

