-- ==== Sys2Proof/Machine/LandingOps.lean ====
section
/-! DEFINITION. Landings as shared operations (10_landings.md R261 to R280): finding a slot through a context's map,
arrivals, waits, releases and their delivery, owner loss. -/

namespace Sys2Proof.Machine

open Sys2Proof

/-- Who reaches for a landing (Table 10-4): a participant on a core, which reaches that core's slots, or one that stands
on the IO die. -/
inductive Reach where
  | fromCore (core : Nat)
  | fromIo
  deriving DecidableEq, Repr

/-- What a landing ID names for a participant (R271, R274, R277). -/
inductive LRef where
  | unmapped
  | lost
  | slot (key : Nat)
  deriving DecidableEq, Repr

/-- The key of the slot that a map entry names: core slots, device slots, fabric slots and mirrors (Table 10-5). -/
def LEntry.key (e : LEntry) : Nat :=
  match e.kind with
  | 1 => 48 * e.core + e.slot
  | 2 => 10000 + e.slot
  | _ => 20000 + e.slot

/-- Translates a landing ID through the context's map (R271, R274). -/
def State.landing (s : State) (ctx lid : Nat) (reach : Reach) : LRef :=
  let e := mget {} (s.ctx ctx).lmap lid
  match e.kind with
  | 1 =>
    match reach with
    | .fromCore c => if c = e.core then .slot e.key else .unmapped
    | .fromIo => .unmapped
  | 2 => .slot e.key
  | 3 => .slot e.key
  | 4 => .slot e.key
  | 5 => .lost
  | _ => .unmapped

/-! ### Delivering a release -/

/-- Whether a path of the crew waits under a mark. -/
def Crew.hasMark (c : Crew) (w : Nat) : Bool :=
  c.stack.any (fun e => match e with | .pending _ _ (.landing m _) => decide (m = w) | _ => false)

/-- A waiting path loses its mark: status predicate, LSTATUS and LGEN are set (R91, R131), and a crew without a path takes
the path up. -/
def Crew.released (c : Crew) (w status gen : Nat) : Crew :=
  let hit := c.stack.find? (fun e => match e with | .pending _ _ (.landing m _) => decide (m = w) | _ => false)
  match hit with
  | some (.pending _ mask (.landing _ pd)) =>
    let c1 := c.putPred pd mask (if status = 0 then mask else 0)
    let c2 : Crew := { c1 with
      lstatus := status
      lgen := gen
      stack := c1.stack.map (fun e => match e with
        | .pending pc m (.landing w' _) => if w = w' then .pending pc m .runnable else e
        | e => e) }
    if c2.state = CrewState.waiting then c2.wake else c2
  | _ => c

/-- Delivers a release to the crew whose path carries a mark; one that is saved gets it when it resumes (R278). -/
def State.releaseMark (s : State) (w status gen : Nat) : State :=
  { s with
    cores := s.cores.map (fun e => (e.1, { e.2 with
      crews := e.2.crews.map (fun c => if c.2.hasMark w then (c.1, c.2.released w status gen) else c)
      queue := e.2.queue.map (fun i => match i with
        | .saved c => if c.crew.hasMark w then .saved { c with held := c.held ++ [(w, status, gen)] } else i
        | i => i) }))
    saved := s.saved.map (fun c => if c.crew.hasMark w then { c with held := c.held ++ [(w, status, gen)] } else c) }

/-- Delivers a release with its status (0 OK, 2 OWNER_LOST, 3 TIMEOUT) and generation to one party (R53, R131, R178); one that falls to a
pre-empted party is held until it resumes (R278, R279). -/
def State.notify (s : State) (p : Party) (status gen : Nat) : State :=
  match p with
  | .crew w => s.releaseMark w status gen
  | .cox core =>
    s.modCore core (fun k => { k with seq := { k.seq with ywait := match k.seq.ywait with
      | .registered lid _ => .released lid status
      | y => y } })
  | .packet ctx pid =>
    match s.pkt ctx pid with
    | some p =>
      let detail := if status = 0 then 0 else field p.data 16 2
      if (s.ctx ctx).state = .preempted then
        s.modCtx ctx (fun c => { c with heldPkts := c.heldPkts ++ [(pid, status, detail)] })
      else s.packetDone ctx pid status detail
    | none => s

def State.notifyAll (s : State) (status gen : Nat) : List Party → State
  | [] => s
  | p :: ps => (s.notify p status gen).notifyAll status gen ps

/-- Whether a release that brings the generation (or count) to g releases a waiter (R266). -/
def Waiter.ready (w : Waiter) (kind gen : Nat) : Bool :=
  if w.mode = 0 then true
  else if kind = 1 then decide (w.target ≤ gen)
  else decide ((gen + 2 ^ 32 - w.target % 2 ^ 32) % 2 ^ 32 < 2 ^ 31)

/-- The landing ID by which a slot's owner knows it: the lowest whose entry in the owner's map names the slot. -/
def State.lidOf (s : State) (key : Nat) : Option Nat :=
  ((s.ctx (s.slot key).owner).lmap.find? (fun e => decide (e.2.kind ≠ 0) && decide (e.2.kind ≠ 5) && decide (e.2.key = key))).map (·.1)

/-- The trace record of a release at a core slot (Table 17-7): the ID in its owner's map; which work its pair names is not
stated (log entry 5). -/
def State.traceRelease (s : State) (key gen status : Nat) : State :=
  let core := key / 48
  if 160 ≤ core ∨ (s.trc core).enable = false then s
  else
    let (s, p) := s.fresh
    s.traceEvent core (p.toNat % 2 ^ 32) 5 (toBytes 2 ((s.lidOf key).getD 0) ++ toBytes 4 gen ++ toBytes 2 status)

/-- Releases the waiters of a slot that a release at g satisfies (R266). -/
def State.releaseSlot (s : State) (key gen : Nat) : State :=
  let x := s.slot key
  let go := x.waiters.filter (fun w => w.ready x.kind gen)
  let s := s.setSlot key { x with waiters := x.waiters.filter (fun w => !w.ready x.kind gen) }
  (s.notifyAll 0 gen (go.map (·.party))).traceRelease key gen 0

/-- Re-aligns a counting landing linked to a tally (R268). -/
def State.realign (s : State) (ctx lid period : Nat) : State :=
  if lid = 0xFFFF then s else
  let e := mget {} (s.ctx ctx).lmap lid
  if e.kind = 0 ∨ e.kind = 5 then s else
  s.modSlot e.key (fun x =>
    if period ≤ x.count then { x with count := x.count - period } else { x with count := 0, drift := true })

/-- The messages that a slot owes its subscribers: kind 1 a release, kind 2 a loss (R280). -/
def State.tellSubscribers (s : State) (key kind gen status : Nat) : State :=
  { s with ldgMsgs := s.ldgMsgs ++ (s.slot key).subs.map (fun p => ⟨kind, p.1, p.2, gen, status, false⟩) }

/-- The loop of R264 for full and tally landings, on the count c of arrivals not yet applied. The fuel bounds the number of
releases, each of which takes at least one arrival. -/
def State.arriveFull (s : State) (key : Nat) : Nat → Nat → State
  | 0, _ => s
  | f + 1, c =>
    if c = 0 then s else
    let x := s.slot key
    if x.state = .spent then s.setSlot key { x with stray := true } else
    let t := min c x.remain
    let s := s.setSlot key { x with remain := x.remain - t }
    if x.remain - t ≠ 0 then s else
    let gen := (x.gen + 1) % 2 ^ 32
    let s := s.modSlot key (fun y => { y with gen := gen })
    let s := if x.kind = 2 then (s.realign x.armCtx x.link0 x.period).realign x.armCtx x.link1 x.period else s
    let s := s.releaseSlot key gen
    let s := s.tellSubscribers key 1 gen 0
    let s := s.modSlot key (fun y => if y.rearm then { y with remain := y.n } else { y with state := .spent })
    s.arriveFull key f (c - t)

/-- The generation a landing shows: COUNT of a counting landing, else GEN (Table 10-1). -/
def Slot.generation (x : Slot) : Nat := if x.kind = 1 then x.count else x.gen

/-- Owner loss, or unmapping by the owner (R263, R277): the slot enters RELEASING, every waiter is released with
OWNER_LOST, subscribers are told, and every map entry that names it becomes LOST. -/
def State.loseSlot (s : State) (key : Nat) : State :=
  let x := s.slot key
  if x.state = .free ∨ x.state = .releasing then s else
  let s := s.tellSubscribers key 2 x.generation 2
  let s := s.setSlot key { x with state := .releasing, waiters := [], unseen := x.unseen ++ x.waiters.map (·.party) }
  let s := s.notifyAll 2 x.generation (x.waiters.map (·.party))
  { s with
    mirrorQ := s.mirrorQ.filter (fun m => decide (m.slot ≠ key))
    ctxs := mmapVals s.ctxs (fun _ c => { c with lmap := mmapVals c.lmap (fun _ e =>
      if decide (e.kind ≠ 0) && decide (e.kind ≠ 5) && decide (e.key = key) then { kind := 5 } else e) }) }

/-- An operation meets a slot whose state holds an uncorrectable error: the slot goes to RELEASING as on owner loss (R404). -/
def State.slotError (s : State) (key : Nat) : State :=
  let x := s.slot key
  if x.err then
    ((s.setSlot key { x with err := false }).ras { cls := 3, source := 0x0E, part := some x.part, unit := x.owner }).loseSlot key
  else s

/-- An operation meets a slot: one whose landing Mitor is moving holds the operation until the move completes (R276), and one with an
error goes to RELEASING first (R404). -/
def State.meetSlot (s : State) (key : Nat) : State :=
  match s.moves with
  | m :: _ => if m.src = key then s.stall else s.slotError key
  | [] => s.slotError key

/-- An arrival operation of count c at a slot (R263, R264), made for a context; at a mirror it waits to be forwarded
behind the context's unacknowledged KFT work (R280). -/
def State.arrive (s : State) (key ctx c : Nat) : State :=
  let s := s.meetSlot key
  let x := s.slot key
  match x.state with
  | .free => s
  | .releasing => s
  | _ =>
    if x.mirror.isSome then
      { s with mirrorQ := s.mirrorQ ++ [⟨key, c, (s.kftOpen.filter (fun e => decide (e.1 = ctx))).map (·.2)⟩] }
    else
      match x.state with
      | .armed =>
        if x.kind = 1 then
          let n := min (x.count + c) 0xFFFFFFFF
          let s := s.setSlot key { x with count := n, saturated := x.saturated || decide (0xFFFFFFFF < x.count + c) }
          (s.releaseSlot key n).tellSubscribers key 1 n 0
        else s.arriveFull key (c + 1) c
      | _ => s.setSlot key { x with stray := true }

/-- Registers a wait, or answers at once with a status and generation (R263, R266): a wait whose condition holds completes at once also on an
UNARMED or SPENT landing (log entry 58). -/
def State.wait (s : State) (key : Nat) (p : Party) (mode target : Nat) : State × Option (Nat × Nat) :=
  let s := s.meetSlot key
  let x := s.slot key
  let w : Waiter := ⟨p, mode, target, 0⟩
  match x.state with
  | .free => (s, some (2, 0))
  | .releasing => (s, some (2, x.generation))
  | _ =>
    if decide (mode = 1) && w.ready x.kind x.generation then (s, some (0, x.generation))
    else
      let (s, t) := s.sample
      (s.modSlot key (fun y => { y with waiters := y.waiters ++ [{ w with since := t }] }), none)

/-- An arrive-and-wait (R267): the arrival, then a wait for the generation it joined; on a counting landing it completes
at once. A landing that its arrival finds lost answers as any wait does (Table 10-3). -/
def State.arriveWait (s : State) (key ctx c : Nat) (p : Party) : State × Option (Nat × Nat) :=
  let x := s.slot key
  let s := s.arrive key ctx c
  if x.kind = 1 ∧ (s.slot key).state ≠ .releasing then (s, some (0, (s.slot key).generation))
  else s.wait key p 1 ((x.gen + 1) % 2 ^ 32)

def State.loseSlots (s : State) : List Nat → State
  | [] => s
  | k :: ks => (s.loseSlot k).loseSlots ks

/-- The slots that a context owns (R275) and has not lost. -/
def State.slotsOwned (s : State) (ctx : Nat) : List Nat :=
  (s.slots.filter (fun e => decide (e.2.owner = ctx) && decide (e.2.state ≠ .free) && decide (e.2.state ≠ .releasing))).map (·.1)

/-- Whether a party released by an owner loss has observed it (R277). -/
def State.observed (s : State) (p : Party) : Bool :=
  match p with
  | .crew w =>
    !(s.cores.any (fun e => e.2.crews.any (fun c => c.2.hasMark w) ||
        e.2.queue.any (fun i => match i with | .saved c => c.crew.hasMark w | _ => false))) &&
      !(s.saved.any (fun c => c.crew.hasMark w))
  | .cox core => decide ((s.core core).seq.ywait = .none)
  | .packet ctx pid =>
    match s.pkt ctx pid with
    | some p => decide (p.stage = .completed)
    | none => true

end Sys2Proof.Machine
end

