-- ==== Sys2Proof/Machine/MitorOps.lean ====
section
/-! DEFINITION. Mitor as shared operations (14_mitor_management.md): the configuration store (R368 to R370), the audit log
(R371), message layouts (R356, R366), the checks of R455 and R360, batches (R357), and the answer of a request (R353). A path is
a mailbox pair, 0 to 8 the function pair of that function, 9 the installer pair, 10 the maker pair, or 16 + e for the sideband
endpoint e. -/

namespace Sys2Proof.Machine

open Sys2Proof

/-! ### The configuration store -/

/-- What a record written now would hold (R368). -/
def State.snapshot (s : State) : StoreData := { s.conf with retired := s.retired, thresholds := s.thresholds, boots := s.boots }

/-- The record that a bank holds. -/
def State.bank (s : State) (b : Nat) : StoreBank := if b = 0 then s.bankA else s.bankB
def State.setBank (s : State) (b : Nat) (x : StoreBank) : State := if b = 0 then { s with bankA := x } else { s with bankB := x }

/-- Begins to write a record with the present data (R370): the other bank's record area is erased. -/
def State.startWrite (s : State) : State :=
  { s.setBank (1 - s.curBank) {} with writing := some s.snapshot, writeNo := s.writeNo + 1, storeDirty := false }

/-- A change of stored state is written in a record of its own, or with the next record where a write is in progress. -/
def State.persist (s : State) : State := if s.writing.isSome then { s with storeDirty := true } else s.startWrite

/-- Changes the repair map, which the store holds (R416). -/
def State.modRepair (s : State) (f : RepairMap → RepairMap) : State :=
  { s with conf := { s.conf with repair := f s.conf.repair } }

/-! ### The audit log (R371) -/

/-- Real-time counter ticks of 32.768 kHz since the boathouse started. -/
def State.rtc (s : State) : Nat := (s.now - s.rtcStart) * 32768 / 1000000000

/-- Table 14-10: an entry with its CRC, taken over the entry with OUTCOME 0xFFFF. -/
def auditEntry (seq boot rtc role gen path fn keyId code counter result outcome : Nat) (digest : List Byte) : List Byte :=
  let body := fun (out : Nat) => toBytes 8 seq ++ toBytes 4 boot ++ zeros 4 ++ toBytes 8 rtc ++ toBytes 1 role ++ toBytes 1 gen ++
    toBytes 1 path ++ toBytes 1 fn ++ toBytes 2 keyId ++ toBytes 2 code ++ toBytes 8 counter ++ toBytes 2 result ++
    toBytes 2 out ++ fit 32 digest ++ List.replicate 48 0xFF
  body outcome ++ toBytes 4 (Config.crc32c (body 0xFFFF)).toNat

/-- The path byte and function of an audit entry. -/
def auditPath (path : Nat) : Nat × Nat :=
  if path ≤ 8 then (0, path) else if path = 9 then (1, 0) else if path = 10 then (2, 0) else (3, 0xFF)

/-- Appends an entry and answers its number; entering a sector of 512 entries erases it. -/
def State.auditAdd (s : State) (path role gen keyId code counter result : Nat) (accepted : Bool) (req : List Byte) : State × Nat :=
  let (s, _) := s.sample
  let n := s.auditNext
  let i := n % 32768
  let (pb, fn) := auditPath path
  let keyed := decide (gen ≠ 1) && bit (field req 1 1) 0
  let digest := Config.sha512 (req.drop (if keyed then 56 else 8))
  let e := auditEntry n s.boots s.rtc (if keyed then role else 0) gen pb fn keyId code counter result
    (if accepted then 0xFFFF else result) digest
  let kept := if n % 512 = 0 then s.audit.filter (fun x => decide (x.1 < i) || decide (i + 512 ≤ x.1)) else s.audit
  ({ s with audit := minsert kept i e, auditNext := n + 1 }, n)

/-- Writes the OUTCOME of an entry. -/
def State.auditEnd (s : State) (seq : Option Nat) (status : Nat) : State :=
  match seq with
  | none => s
  | some n =>
    match mfind s.audit (n % 32768) with
    | some e => { s with audit := minsert s.audit (n % 32768) (e.take 42 ++ toBytes 2 status ++ e.drop 44) }
    | none => s

/-! ### Message layouts (R356, R366) -/

/-- A field: type, length, value, padded to a multiple of four bytes. -/
def fieldBytes (t : Nat) (v : List Byte) : List Byte :=
  toBytes 2 t ++ toBytes 2 v.length ++ v ++ zeros ((4 - v.length % 4) % 4)

/-- Response fields with types rising from 0x0001. -/
def numberFields : Nat → List (List Byte) → List Byte
  | _, [] => []
  | t, v :: vs => fieldBytes t v ++ numberFields (t + 1) vs

/-- Response fields of Mitor-1, each at its alignment, from position pos on (R366). -/
def layFields : Nat → List (List Byte) → List Byte
  | _, [] => []
  | pos, v :: vs =>
    let a := min 8 (max 1 v.length)
    let pad := (a - pos % a) % a
    zeros pad ++ v ++ layFields (pos + pad + v.length) vs

/-- A response in Mitor-2 or Mitor-3 layout. -/
def responseBytes (gen code tag status : Nat) (body : List Byte) : List Byte :=
  toBytes 1 gen ++ zeros 1 ++ toBytes 2 (12 + body.length) ++ toBytes 2 code ++ toBytes 2 tag ++ toBytes 2 status ++ zeros 2 ++ body

/-- A response in Mitor-1 layout with its payload from byte 8. -/
def response1 (code tag status : Nat) (payload : List Byte) : List Byte :=
  fit 256 (toBytes 1 1 ++ toBytes 1 code ++ toBytes 2 tag ++ toBytes 2 status ++ zeros 2 ++ payload)

/-- The response of one request: its fields where it is OK, else DETAIL alone (R365). -/
def answerBytes (gen code tag status detail : Nat) (fields : List (List Byte)) : List Byte :=
  if gen = 1 then response1 code tag status (if status = 0 then layFields 8 fields else toBytes 4 detail)
  else responseBytes gen code tag status (if status = 0 then numberFields 1 fields else fieldBytes 0xFFF0 (toBytes 4 detail))

/-- A field of a message, or zero where the message is too short to hold it (R356). -/
def heldField (bs : List Byte) (at' n : Nat) : Nat := if at' + n ≤ bs.length then field bs at' n else 0

/-- The command and the tag that an answer copies from a request of a generation (R356). -/
def codeTag (gen : Nat) (bs : List Byte) : Nat × Nat :=
  if gen = 1 then (heldField bs 1 1, heldField bs 2 2) else (heldField bs 4 2, heldField bs 6 2)

/-- The fields of a request by type, or none where a field runs past the end. The fuel bounds their number. -/
def parseFields : Nat → List Byte → Option (List (Nat × List Byte))
  | 0, _ => some []
  | f + 1, bs =>
    if bs = [] then some []
    else if bs.length < 4 then none
    else
      let n := field bs 2 2
      let step := 4 + n + (4 - n % 4) % 4
      if bs.length < 4 + n then none
      else (parseFields f (bs.drop step)).map (fun r => (field bs 0 2, (bs.drop 4).take n) :: r)

/-! ### The catalogue (Tables 14-5 and 14-11) -/

/-- Roles (bit 0 operator, 1 installer, 2 maker), whether keyed, and generations (bit g - 1) of a command. -/
def catalogue (code : Nat) : Option (Nat × Bool × Nat) :=
  if code = 0x0001 then some (7, false, 7)
  else if code = 0x0002 ∨ code = 0x0003 ∨ code = 0x0005 ∨ code = 0x0006 then some (3, false, 7)
  else if code = 0x0004 then some (3, false, 6)
  else if code = 0x0007 then some (7, false, 6)
  else if 0x0101 ≤ code ∧ code ≤ 0x0106 then some (3, false, 6)
  else if 0x0201 ≤ code ∧ code ≤ 0x0206 then some (1, false, 6)
  else if 0x0301 ≤ code ∧ code ≤ 0x0303 then some (1, false, 6)
  else if 0x0304 ≤ code ∧ code ≤ 0x0309 then some (2, true, 6)
  else if 0x0401 ≤ code ∧ code ≤ 0x0405 then some (2, true, 6)
  else if code = 0x0406 ∨ code = 0x0407 then some (1, false, 6)
  else if 0x0501 ≤ code ∧ code ≤ 0x0504 then some (2, true, 6)
  else if code = 0x0601 ∨ code = 0x0602 ∨ code = 0x0604 then some (2, true, 6)
  else if code = 0x0603 then some (3, false, 6)
  else if code = 0x0701 then some (1, true, 6)
  else if code = 0x0702 ∨ code = 0x0703 then some (1, false, 6)
  else if code = 0x0801 ∨ code = 0x0802 then some (6, true, 6)
  else if code = 0x0803 then some (2, true, 6)
  else if code = 0x0804 ∨ code = 0x0805 then some (4, true, 6)
  else if 0x0901 ≤ code ∧ code ≤ 0x0903 then some (2, true, 6)
  else if code = 0x0904 ∨ code = 0x0905 then some (2, false, 6)
  else none

/-- Sizes that a request field may have. -/
inductive FieldSize where
  | one (n : Nat)
  | many (each lo hi : Nat)
  | var (lo hi : Nat)
  deriving DecidableEq, Repr

def FieldSize.ok : FieldSize → Nat → Bool
  | .one n, k => decide (k = n)
  | .many e lo hi, k => decide (k % e = 0) && decide (lo ≤ k / e) && decide (k / e ≤ hi)
  | .var lo hi, k => decide (lo ≤ k) && decide (k ≤ hi)

/-- A required and an optional field. -/
def req (n : Nat) : FieldSize × Bool := (.one n, true)
def opt (n : Nat) : FieldSize × Bool := (.one n, false)

/-- The request fields of a command, in type order (Tables 14-11, 15-4, 17-10); true marks a required field. -/
def commandFields (code : Nat) : List (FieldSize × Bool) :=
  match code with
  | 0x0003 => [req 2]
  | 0x0004 => [req 2]
  | 0x0005 => [(.many 4 1 12, true)]
  | 0x0006 => [(.var 16 64, true)]
  | 0x0101 => [req 8, req 1, req 1, req 8, req 1, req 1, req 8, opt 1]
  | 0x0102 => [req 1]
  | 0x0103 => [req 1]
  | 0x0104 => [req 1, req 8, opt 4]
  | 0x0105 => [req 1]
  | 0x0106 => [req 1, req 1, opt 4]
  | 0x0201 => [req 1, req 2, req 1, opt 2, opt 1, opt 2, opt 1, opt 1]
  | 0x0202 => [req 1, req 2]
  | 0x0203 => [req 1, req 2, req 1, req 4, req 1, req 4, req 4, req 2, req 2, (.many 4 0 64, false)]
  | 0x0204 => [req 1, req 8, req 1, req 1, req 2]
  | 0x0205 => [req 1, req 1]
  | 0x0206 => [req 1, req 1, req 8, req 8, req 1]
  | 0x0301 => [req 8, req 8, req 1, req 1]
  | 0x0302 => [req 1, opt 8, opt 1, opt 1]
  | 0x0303 => [req 1]
  | 0x0304 => [req 1, req 8, req 8, req 8, req 1, req 1]
  | 0x0305 => [req 1, req 8, req 1, req 1, req 1, opt 1, opt 8, opt 4, req 8]
  | 0x0306 => [req 1, req 1, req 1]
  | 0x0307 => [req 1]
  | 0x0308 => [req 1, req 8, req 8]
  | 0x0309 => [req 1]
  | 0x0401 => [req 1, req 4, req 4, req 1, req 1, req 2, req 2, req 1]
  | 0x0402 => [req 1, opt 4, opt 4, opt 1, opt 2, opt 2, opt 1]
  | 0x0403 => [req 1, opt 4]
  | 0x0404 => [req 1, req 2, req 1, opt 4, opt 1]
  | 0x0405 => [req 1, req 1, req 2, req 2, req 1]
  | 0x0406 => [req 1, req 8, req 8]
  | 0x0407 => [req 1]
  | 0x0501 => [req 1, req 1, req 1, req 2, req 1]
  | 0x0502 => [req 1, req 16, opt 4, req 1, opt 2]
  | 0x0503 => [req 1, req 1, req 1, req 64, req 1, (.many 20 1 8, true)]
  | 0x0504 => [req 1]
  | 0x0601 => [opt 4, opt 4, opt 4, opt 4, opt 32, opt 32]
  | 0x0602 => [(.many 8 0 480, false)]
  | 0x0603 => [req 1, req 2, req 4, req 1]
  | 0x0604 => [opt 4]
  | 0x0703 => [req 4, (.var 1 8, true), (.var 1 8, false), (.var 4 1028, false), (.var 4 1028, false), opt 64, opt 8]
  | 0x0801 => [req 2, req 32, req 12, req 80]
  | 0x0802 => [req 2]
  | 0x0804 => [(.var 0 3840, true)]
  | 0x0805 => [(.var 0 3840, true), (.var 0 3840, true)]
  | 0x0901 => [req 4, (.var 1 3584, true)]
  | 0x0903 => [req 4]
  | 0x0904 => [req 8, req 2]
  | _ => []

/-- The first field that is missing, repeated or of another size than its command gives (R356); 0 where all are right. -/
def badField (fs : List (Nat × List Byte)) : Nat → List (FieldSize × Bool) → Nat
  | _, [] => 0
  | t, (z, must) :: rest =>
    match fs.filter (fun f => decide (f.1 = t)) with
    | [] => if must then t else badField fs (t + 1) rest
    | [f] => if z.ok f.2.length then badField fs (t + 1) rest else t
    | _ => t

/-- The fields of a Mitor-1 request in its fixed layout (R366), as the fields of the later generations; for `COUNTER_READ`
field 2 is the first counter, for `ATTEST` field 2 is the chunk. -/
def fields1 (code : Nat) (bs : List Byte) : List (Nat × List Byte) :=
  match code with
  | 0x0003 => [(1, (bs.drop 8).take 2)]
  | 0x0005 => [(1, (bs.drop 8).take 4), (2, (bs.drop 12).take 1)]
  | 0x0006 => [(1, (bs.drop 16).take (field bs 10 1)), (2, (bs.drop 8).take 2)]
  | _ => []

/-! ### Messages taken -/

def State.mbox (s : State) (p : Nat) : Mailbox := mget {} s.mailboxes p
def State.setMbox (s : State) (p : Nat) (x : Mailbox) : State := { s with mailboxes := mset {} s.mailboxes p x }
def State.setTaken (s : State) (p : Nat) (t : Taken) : State := { s with taken := minsert s.taken p t }

/-- Bytes of a message area. -/
def areaBytes (m : Map Byte) (n : Nat) : List Byte := (List.range n).map (fun i => mget 0 m i)

/-- The ATT_MBX bit of a pair's response (Table 13-4). -/
def mboxBit (p : Nat) : Nat := if p = 9 then 2 else if p = 10 then 3 else 0

/-- The vendor ID as a Mitor message carries it after its type (R355): the high byte first (log entry 55). -/
def vendorBytes : List Byte := (toBytes 2 Config.vendorId.toNat).reverse

/-- A message leaves on the sideband: message type 0x7E with the vendor ID and the path byte (R355). -/
def sideMessage (via : Nat) (msg : List Byte) : List Byte :=
  toBytes 1 0x7E ++ vendorBytes ++ toBytes 1 via ++ msg

/-- Posts a response (R353): the window is filled, POST set, OWNER cleared and the pair's cause set. A response whose
function has been reset is discarded (R354). -/
def State.post (s : State) (path via : Nat) (discard : Bool) (msg : List Byte) : State :=
  if 16 ≤ path then s.emit (.sideband (path - 16) (sideMessage via msg))
  else if discard then s
  else
    let m := s.mbox path
    let s := s.setMbox path { m with respArea := writeAll [] 0 msg, respLen := msg.length, respPost := true, owner := false }
    s.raise (if path ≤ 8 then path else 0) (.mailbox (mboxBit path))
where
  writeAll (m : Map Byte) (k : Nat) : List Byte → Map Byte
    | [] => m
    | b :: bs => writeAll (mset 0 m k b) (k + 1) bs

/-- All requests of the message are answered: the message is. -/
def State.deliverTaken (s : State) (path : Nat) : State :=
  match mfind s.taken path with
  | none => s
  | some t =>
    let msg := if t.batch then
        toBytes 1 3 ++ zeros 1 ++ toBytes 2 (8 + (t.done.flatten).length) ++ toBytes 2 t.done.length ++ toBytes 2 t.tag ++ t.done.flatten
      else t.done.flatten
    { s with taken := merase s.taken path }.post path t.via t.discard msg

/-! ### The checks of R455 -/

/-- What the checks answer: the status and DETAIL that reject the request, with whether R360's checks were met, or the
request as it goes on. -/
inductive Checked455 where
  | reject (status detail : Nat)
  | go (u : Sub) (reserve : Bool)
  deriving DecidableEq, Repr

/-- Whether a key ID has the role and partition of the request (R358). -/
def keyFits (keyId role : Nat) (part : Option Nat) : Bool :=
  decide (keyId / 4096 = role) && decide (keyId / 256 % 16 = (if role = 1 then part.getD 15 else 0)) &&
    (decide (role ≠ 1) || part.isSome)

/-- The envelope checks of R360, steps 2 to 4: 0, or the rejecting status. -/
def State.envelope (s : State) (role : Nat) (part : Option Nat) (bs : List Byte) : Nat :=
  let keyId := field bs 8 2
  let counter := field bs 16 8
  match mfind s.conf.keys keyId with
  | none => 5
  | some key =>
    if !keyFits keyId role part || s.seed.isNone then 5
    else if Config.hmacTag key (bs.take 24 ++ bs.drop 56) ≠ (bs.drop 24).take 32 then 5
    else if counter ≤ mget 0 s.keyLast keyId then 6
    else 0

/-- Whether the store holds an installer key (R359). -/
def State.owned (s : State) : Bool := s.conf.keys.any (fun k => decide (k.1 / 4096 = 2))

/-- Checks 1 to 5 of R455 for one request of generation gen; `form` tells that check 1 has failed. Fields that break R356 are marked in the
request, which check 6 then answers; a request whose fields run past its end breaks it at field 0 (log entry 54). -/
def State.check455 (s : State) (path role : Nat) (part : Option Nat) (gen : Nat) (bs : List Byte) (form : Bool) : Checked455 :=
  let code := if gen = 1 then field bs 1 1 else field bs 4 2
  let tag := if gen = 1 then field bs 2 2 else field bs 6 2
  let keyed := decide (gen ≠ 1) && bit (field bs 1 1) 0
  if form || (keyed && decide (bs.length < 56)) then .reject 0x0A 0 else
  match catalogue code with
  | none => .reject 0x08 0
  | some (roles, mustKey, gens) =>
    if !bit gens (gen - 1) then .reject 0x09 0
    else if !bit roles (role - 1) || (decide (role = 1) && part.isNone && decide (code ≠ 1) && decide (code ≠ 2)) then .reject 0x04 0
    else
      let parsed := if gen = 1 then some (fields1 code bs) else parseFields 1000 (bs.drop (if keyed then 56 else 8))
      let flags := match parsed with
        | some fs => match fs.find? (fun f => decide (f.1 = 4)) with | some f => field f.2 0 1 | none => 0
        | none => 0
      let forced := decide (code = 0x0603) && bit flags 1
      let taking := decide (code = 0x0801) && decide (role = 2) && !s.owned &&
        (match parsed with
         | some fs => match fs.find? (fun f => decide (f.1 = 1)) with | some f => decide (field f.2 0 2 / 4096 = 2) | none => false
         | none => false)
      let sideways := decide (16 ≤ path) && decide (code ≠ 1) && decide (code ≠ 2)
      let need := mustKey || forced || decide (gen = 3) || sideways
      if need && !keyed && !(taking && decide (gen = 2)) then .reject 0x07 0
      else
        let st := if keyed then s.envelope role part bs else 0
        if st ≠ 0 then .reject st 0
        else
          let bad := match parsed with
            | none => some 0
            | some fs =>
              let t := if gen = 1 then 0 else badField fs 1 (commandFields code)
              if t = 0 then none else some t
          let u : Sub := { gen, code, tag, bytes := bs, bad, keyId := if keyed then field bs 8 2 else 0,
                           counter := if keyed then field bs 16 8 else 0,
                           fields := (parsed.getD []).foldl (fun m f => minsert m f.1 f.2) [] }
          .go u (keyed && decide (mget 0 s.conf.reserv u.keyId + 2 ^ 20 < u.counter))

/-! ### Answers -/

/-- Adds the response of the present request to its message. -/
def State.addResponse (s : State) (path status : Nat) (resp : List Byte) : State :=
  match mfind s.taken path with
  | some t => s.setTaken path { t with done := t.done ++ [resp], cur := none, failed := t.failed || decide (status ≠ 0) }
  | none => s

/-- Whether a request needs an audit entry: it is keyed, or enrols a key, or was rejected under R360. -/
def audited (u : Nat) (keyed : Bool) (status : Nat) : Bool :=
  keyed || decide (u = 0x0801) || (match catalogue u with | some (_, k, _) => k | none => false) ||
    decide (status = 5) || decide (status = 6) || decide (status = 7)

/-- A request that has passed the checks is accepted: its counter is consumed and its audit entry written. A request whose
fields broke R356 is answered `MALFORMED` at once. -/
def State.accept (s : State) (path : Nat) (u : Sub) : State :=
  match mfind s.taken path with
  | none => s
  | some t =>
    let s := if u.keyId = 0 then s else { s with keyLast := minsert s.keyLast u.keyId u.counter }
    let (s, seq) := if audited u.code (decide (u.keyId ≠ 0)) 0 then
        let (s, n) := s.auditAdd path t.role u.gen u.keyId u.code u.counter 0 true u.bytes
        (s, some n)
      else (s, none)
    match u.bad with
    | some d =>
      let s := s.auditEnd seq 0x0A
      s.addResponse path 0x0A (answerBytes u.gen u.code u.tag 0x0A d [])
    | none => s.setTaken path { t with cur := some { u with audit := seq, stage := .ready } }

/-- Checks one request of a message and either answers it, accepts it, or begins the reservation it needs (R361). -/
def State.beginSub (s : State) (path gen : Nat) (bs : List Byte) (form : Bool) : State :=
  match mfind s.taken path with
  | none => s
  | some t =>
    let (code, tag) := codeTag gen bs
    match s.check455 path t.role t.part gen bs form with
    | .reject st d =>
      let keyed := decide (gen ≠ 1) && bit (field bs 1 1) 0
      let s := if audited code keyed st && decide (st ≠ 0x0A) && decide (st ≠ 0x08) then
          (s.auditAdd path t.role gen (if keyed then field bs 8 2 else 0) code (if keyed then field bs 16 8 else 0) st false bs).1
        else s
      s.addResponse path st (answerBytes gen code tag st d [])
    | .go u false => s.accept path u
    | .go u true =>
      let n := s.writeNo + 1
      let s := s.setTaken path { t with cur := some { u with stage := .reserving n } }
      { s with conf := { s.conf with reserv := minsert s.conf.reserv u.keyId u.counter } }.persist

/-- Whether a reservation of a key is being written (R360): requests of the key wait. -/
def State.keyBusy (s : State) (keyId : Nat) : Bool :=
  s.taken.any (fun e => match e.2.cur with
    | some u => decide (u.keyId = keyId) && (match u.stage with | .reserving _ => true | _ => false)
    | none => false)

/-- Goes on with a message while no request of it is in progress: its request, or the sub-requests of a batch in order (R357), and then the
answer. A request whose key has a reservation being written waits (R360). -/
def State.nextSubs (s : State) (path : Nat) : List (List Byte) → State
  | [] => s.deliverTaken path
  | b :: rest =>
    match mfind s.taken path with
    | none => s
    | some t =>
      let s1 := s.setTaken path { t with rest }
      if t.stop && t.failed then
        (s1.addResponse path 0x0C (answerBytes 3 (field b 4 2) (field b 6 2) 0x0C 0 [])).nextSubs path rest
      else if bit (field b 1 1) 0 && s.keyBusy (field b 8 2) then s.setTaken path { t with rest := b :: rest }
      else
        let s2 := if t.batch then s1.beginSub path 3 b (decide (field b 0 1 ≠ 3) || decide (2 ≤ field b 1 1)) else s1.beginSub path 2 b false
        match (mfind s2.taken path).bind (·.cur) with
        | some _ => s2
        | none => s2.nextSubs path rest

/-- Goes on with a message, if nothing of it is in progress. -/
def State.goOn (s : State) (path : Nat) : State :=
  match mfind s.taken path with
  | some t => if t.cur.isSome then s else s.nextSubs path t.rest
  | none => s

/-- Answers the request in progress on a path. -/
def State.reply (s : State) (path status detail : Nat) (fields : List (List Byte)) : State :=
  match (mfind s.taken path).bind (·.cur) with
  | none => s
  | some u =>
    let s := s.auditEnd u.audit status
    (s.addResponse path status (answerBytes u.gen u.code u.tag status detail fields)).goOn path

/-- Answers a Mitor-1 request whose payload has a layout of its own. -/
def State.reply1 (s : State) (path status : Nat) (payload : List Byte) : State :=
  match (mfind s.taken path).bind (·.cur) with
  | none => s
  | some u =>
    let s := s.auditEnd u.audit status
    (s.addResponse path status (response1 u.code u.tag status payload)).goOn path

/-- Answers a path that may be absent: nobody waits for an operation that Mitor began by itself. -/
def State.answer (s : State) (path : Option Nat) (status detail : Nat) (fields : List (List Byte)) : State :=
  match path with
  | some p => s.reply p status detail fields
  | none => s

/-- The request in progress waits for its operation to end. -/
def State.await (s : State) (path : Nat) : State :=
  match mfind s.taken path with
  | some t => match t.cur with
    | some u => s.setTaken path { t with cur := some { u with stage := .waiting } }
    | none => s
  | none => s

/-- The change that the request made goes into the store; the answer waits until a record holds it (R370). -/
def State.replyStored (s : State) (path : Nat) (fields : List (List Byte)) : State :=
  match mfind s.taken path with
  | some t => match t.cur with
    | some u => (s.setTaken path { t with cur := some { u with stage := .storing (s.writeNo + 1) fields } }).persist
    | none => s.persist
  | none => s.persist

def State.answerStored (s : State) (path : Option Nat) (fields : List (List Byte)) : State :=
  match path with
  | some p => s.replyStored p fields
  | none => s.persist

/-- The commands that only tell a state, which are all that Mitor accepts once the module is prepared for its removal (R350). -/
def statusCommand (code : Nat) : Bool := decide (code ≤ 7) || decide (code = 0x0904) || decide (code = 0x0905)

/-- Runs a command where the request in progress on a path asks for it. -/
def State.command (s : State) (path code : Nat) (f : Taken → Sub → State) : State :=
  match mfind s.taken path with
  | some t => match t.cur with
    | some u =>
      if u.code = code ∧ u.stage = .ready then
        if s.removalPrepared && !statusCommand code then s.reply path 3 0 [] else f t u
      else s
    | none => s
  | none => s

/-- The number in a field, if it is present. -/
def Sub.num? (u : Sub) (t : Nat) : Option Nat := (mfind u.fields t).map ofBytes
def Sub.num (u : Sub) (t : Nat) : Nat := (u.num? t).getD 0
def Sub.has (u : Sub) (t : Nat) : Bool := (mfind u.fields t).isSome
def Sub.bytesOf (u : Sub) (t : Nat) : List Byte := (mfind u.fields t).getD []

/-- The first of a list of conditions that is broken, with the type of the field that breaks it. -/
def firstBroken : List (Bool × Nat) → Option Nat
  | [] => none
  | (ok, t) :: rest => if ok then firstBroken rest else some t

/-! ### Taking a message -/

/-- Splits a batch into its sub-requests, or none where their lengths do not fill it exactly (R357). -/
def splitBatch : Nat → List Byte → Option (List (List Byte))
  | 0, bs => if bs = [] then some [] else none
  | n + 1, bs =>
    let len := field bs 2 2
    if len < 8 ∨ bs.length < len then none else (splitBatch n (bs.drop len)).map (fun r => bs.take len :: r)

/-- A message that Mitor has taken (R356, R357): a message that fails as a whole is answered at once. -/
def State.takeMessage (s : State) (path role : Nat) (part : Option Nat) (via : Nat) (posted : Nat) (bs : List Byte) : State :=
  let gen := field bs 0 1
  let t : Taken := { role, part, via, gen }
  let s := s.setTaken path t
  if gen = 1 then
    (s.beginSub path 1 bs (decide (posted ≠ 256))).goOn path
  else if gen = 2 then
    let form := decide (posted < 8) || decide (3840 < posted) || decide (field bs 2 2 ≠ posted) || decide (2 ≤ field bs 1 1)
    if form then (s.beginSub path 2 bs true).goOn path else (s.setTaken path { t with rest := [bs] }).goOn path
  else if gen = 3 then
    let count := field bs 4 2
    let bad := decide (posted < 8) || decide (3840 < posted) || decide (field bs 2 2 ≠ posted) || decide (2 ≤ field bs 1 1) ||
      decide (count = 0) || decide (32 < count)
    match if bad then none else splitBatch count (bs.drop 8) with
    | none => (s.addResponse path 0x0A (answerBytes 3 0 (heldField bs 6 2) 0x0A 0 [])).goOn path
    | some subs =>
      (s.setTaken path { t with batch := true, stop := bit (field bs 1 1) 0, tag := field bs 6 2, rest := subs }).goOn path
  else
    let st := if posted < 8 ∨ 3840 < posted then 0x0A else 0x09
    (s.addResponse path st (answerBytes 2 (heldField bs 4 2) (heldField bs 6 2) st 0 [])).goOn path

end Sys2Proof.Machine
end

