-- ==== Sys2Proof/Machine/StreamOps.lean ====
section
/-! DEFINITION. Command streams as shared operations (02_command_streams.md): the ingress log, credit and completion
records, faults of a context, packet checks, decode of one packet, and the dispatch point. -/

namespace Sys2Proof.Machine

open Sys2Proof

/-! ### Records -/

/-- CTX_STATUS.STATE (Table 2-2). -/
def CtxState.code : CtxState → Nat
  | .free => 0
  | .active => 1
  | .faulted => 2
  | .draining => 3
  | .preempted => 4

/-- Writes an ingress log entry and sets LOG_NEW with the ingress cause (R65). -/
def State.logIngress (s : State) (ctx : Nat) (e : LogEntry) : State :=
  let c := s.ctx ctx
  (s.setCtx ctx { c with
    log := mset {} c.log (c.logHead % 256) e
    logHead := (c.logHead + 1) % 2 ^ 32
    logNew := true }).raise c.fn (.ingress ctx)

/-- The 64 bytes of the credit record (Table 2-3). -/
def creditRecord (c : Ctx) : List Byte :=
  toBytes 8 c.consumed ++ toBytes 8 c.accepted ++ toBytes 4 c.retiredTag ++ toBytes 2 c.faultStatus ++
    toBytes 1 c.state.code ++ zeros 1 ++ toBytes 4 c.logHead ++ zeros 4 ++ toBytes 8 c.discarded ++ zeros 24

/-- Writes the credit record (R45). -/
def State.writeCredit (s : State) (ctx : Nat) : State :=
  let c := s.ctx ctx
  (s.recordWrite ctx c.creditSpace c.creditAddr (creditRecord c)).modCtx ctx (fun c => { c with lastCredit := c.consumed })

/-- Writes one completion record (R66, Table 2-9): bytes 0 to 23, then bytes 24 to 31. -/
def State.writeRecord (s : State) (ctx tag layer oper detail status : Nat) (interrupt : Bool) : State :=
  let (s, t) := s.sample
  let c := s.ctx ctx
  let addr := c.ringAddr + 32 * (c.recordNo % c.ringSize)
  let phase := c.recordNo / c.ringSize % 2
  let s := s.recordWrite ctx c.ringSpace addr
    (toBytes 4 tag ++ toBytes 2 layer ++ toBytes 2 oper ++ toBytes 8 t ++ toBytes 8 detail)
  let s := s.recordWrite ctx c.ringSpace (addr + 24)
    (toBytes 4 c.recordNo ++ toBytes 2 status ++ toBytes 2 (phase + 2 * b2n (decide (status ≠ 0)) + 4 * b2n interrupt))
  s.modCtx ctx (fun c => { c with recordNo := (c.recordNo + 1) % 2 ^ 32 })

/-! ### Faults and discarding -/

/-- Discards run-ahead work of a context's packets: programs loaded for launches not dispatched, their claims and their
prefetch-only areas (R60, R63). -/
def State.dropRunAhead (s : State) (ctx : Nat) (gone : Nat → Bool) : State :=
  let dead := (s.coxLaunches.filter (fun e => decide (e.2.ctx = ctx) && !e.2.dispatched && gone e.2.pid)).map (·.1)
  if dead = [] then s else
  { s with
    coxLaunches := s.coxLaunches.filter (fun e => decide (e.1 ∉ dead))
    cores := mmapVals s.cores (fun _ k => { k with
      jobs := k.jobs.filter (fun j => decide (j.launch ∉ dead))
      staging := k.staging.filter (fun a => decide (a.launch ∉ dead))
      engine := { k.engine with
        queue := k.engine.queue.filter (fun ch => match ch.owner with | .prefetch l _ => decide (l ∉ dead) | _ => true)
        waiting := k.engine.waiting.filter (fun ch => match ch.owner with | .prefetch l _ => decide (l ∉ dead) | _ => true) } }) }

/-- Takes a packet's registered wait back. -/
def State.unwait (s : State) (p : Party) : State :=
  { s with slots := mmapVals s.slots (fun _ x => { x with waiters := x.waiters.filter (fun w => decide (w.party ≠ p)) }) }

/-- Whether a packet has not been dispatched. -/
def Pkt.undispatched (p : Pkt) : Bool :=
  match p.stage with
  | .decoded => true
  | .waiting => true
  | _ => false

def State.unwaitAll (s : State) (ctx : Nat) : List Pkt → State
  | [] => s
  | p :: ps => if p.stage = .waiting then (s.unwait (.packet ctx p.pid)).unwaitAll ctx ps else s.unwaitAll ctx ps

/-- Whether a packet is a `FETCH_CHAIN` whose chain is still being run: packets of the chain do not wait for it. -/
def Pkt.openChain (p : Pkt) : Bool :=
  decide (p.opcode = 0x10) && decide (p.skip = 0) && !p.dead && decide (p.stage = .dispatched)

/-- The marker that ends a chain in the stream (R57, R59). -/
def chainMarker (pid depth owner : Nat) (openRanges : List CondRange) (stage : PStage) : Pkt :=
  { pid, opcode := 0x100, data := [], len := 0, tag := 0, offset := 0, depth, chainEnd := true, owner, openRanges, stage, fromFifo := false }

/-- Ends the dispatched chains that will be read no further, innermost first, behind their dispatched packets: each retires with the last of
them (R37, R57). No open range of theirs reaches the dispatch point, so none is logged. -/
def Ctx.endChains (c : Ctx) : List Pkt → Ctx
  | [] => c
  | p :: ps =>
    let c := c.endChains ps
    if p.openChain && !c.pkts.any (fun m => m.chainEnd && decide (m.owner = p.pid)) then
      { c with pkts := c.pkts ++ [chainMarker c.nextPid (p.depth + 1) p.pid [] .completed], nextPid := c.nextPid + 1 }
    else c

/-- Discards every packet decoded and not dispatched, without record or log entry, and stops decoding (R37): reading goes back to the
FIFO. -/
def State.dropUndispatched (s : State) (ctx : Nat) : State :=
  let c := s.ctx ctx
  let s := s.unwaitAll ctx c.pkts
  let gone := fun pid => c.pkts.any (fun p => decide (p.pid = pid) && p.undispatched)
  let s := s.dropRunAhead ctx gone
  s.modCtx ctx (fun c =>
    let c := { c with pkts := c.pkts.filter (fun p => !p.undispatched), levels := c.levels.drop (c.levels.length - 1), heldPkts := [] }
    c.endChains c.pkts)

/-- A pre-emption or resume of a context in progress is given up with a status (R289). -/
def State.endPreempt (s : State) (ctx status : Nat) : State :=
  let c := s.ctx ctx
  let s := s.setCtx ctx { c with preempt := none, resumePath := none, hold := false }
  let s := match c.preempt with
    | some (_, _, p) => s.answer (some p) status 0 []
    | none => s
  s.answer c.resumePath status 0 []

/-- A context enters FAULTED with its first fault (R37, step 1); in DRAINING it does not (R301). A pre-emption that it meets is
answered `CONTEXT_FAULTED` (R289). -/
def State.faultCtx (s : State) (ctx status tag : Nat) : State :=
  let c := s.ctx ctx
  if c.state = .active ∨ c.state = .preempted then
    ((s.setCtx ctx { c with state := .faulted, faultStatus := status, faultTag := tag, faultOpen := true }).dropUndispatched
      ctx).endPreempt ctx 0x0E
  else s

/-- A packet's work has completed (R54, R67): a status other than OK writes its record at once, and one of 0x0010 or above
faults the context (Table 2-12). -/
def State.completePkt (s : State) (ctx : Nat) (p : Pkt) (status detail : Nat) : State :=
  let s := s.modPkt ctx p.pid (fun p => { p with stage := .completed })
  if status = 0 then s
  else
    let s := s.writeRecord ctx p.tag p.layer p.oper detail status false
    if 0x10 ≤ status then s.faultCtx ctx status p.tag else s

/-! ### Packet checks -/

/-- Fixed length in granules of an opcode (Table 2-5): none where reserved, 0 for `NOP`'s 1 to 64. -/
def opcodeLength (op : Nat) : Option Nat :=
  if op = 0x00 then some 0
  else if op = 0x31 then some 2
  else if op = 0x32 then some 3
  else if op ∈ [0x01, 0x02, 0x03, 0x04, 0x08, 0x09, 0x0C, 0x0D, 0x0E, 0x10, 0x20, 0x21, 0x30] then some 1
  else none

/-- The payload bytes that Table 2-6 lists for an opcode, as (offset, size). -/
def payloadFields (op : Nat) : List (Nat × Nat) :=
  match op with
  | 0x01 => [(16, 4)]
  | 0x02 => [(16, 10)]
  | 0x03 => [(16, 9)]
  | 0x04 => [(16, 1)]
  | 0x08 => [(16, 5)]
  | 0x09 => [(16, 3), (20, 4)]
  | 0x0C => [(16, 26)]
  | 0x10 => [(16, 13)]
  | 0x20 => [(16, 30)]
  | 0x21 => [(16, 29)]
  | 0x30 => [(16, 40)]
  | 0x31 => [(16, 14), (32, 16), (64, 64)]
  | 0x32 => [(16, 16), (32, 16), (64, 128)]
  | _ => []

/-- Whether a flag, a reserved byte or a bit marked zero is set (R48). -/
def reservedSet (op : Nat) (d : List Byte) : Bool :=
  let flags := field d 2 2
  let bytes := (List.range (64 * max 1 ((opcodeLength op).getD 1))).filter (fun i =>
    decide (12 ≤ i) && (payloadFields op).all (fun f => decide (i < f.1) || decide (f.1 + f.2 ≤ i)))
  decide (4 ≤ flags) || (bit flags 0 && decide (op ≠ 0x0C)) ||
    (bit flags 1 && decide (op ∉ [0x20, 0x21, 0x30, 0x31, 0x32])) ||
    bytes.any (fun i => decide (field d i 1 ≠ 0)) ||
    (match op with
      | 0x04 => decide (8 ≤ field d 16 1)
      | 0x20 => decide (16 ≤ field d 45 1) || (decide (field d 44 1 = 1) && decide (field d 45 1 ≠ 0))
      | 0x21 => decide (16 ≤ field d 44 1) || decide (field d 44 1 % 4 ≠ 0)
      | 0x30 => decide (16 ≤ field d 46 2)
      | _ => false)

/-- The conditions of R52 on one address of a `COPY` or `FILL`: no space 3, and scratch only of a named core, within its
512 KiB. -/
def spaceFits (space core addr bytes : Nat) : Bool :=
  match space with
  | 2 => decide (core ≠ 0xFFFF) && decide (addr < 0x80000) && decide (addr + bytes ≤ 0x80000)
  | 3 => false
  | _ => true

/-- Whether every field of the payload is in its range (R50 to R52); n is the number of the partition's cores. A non-zero `DST` or `BYTES`
with `DESC` = 1 counts as a field outside its range (log entry 44). -/
def fieldsFit (op : Nat) (d : List Byte) (n : Nat) : Bool :=
  let u := fun off size => field d off size
  let coreOk := fun c => decide (c < n) || decide (c = 0xFFFF)
  let lidOk := fun l => decide (l ≤ 1023) || decide (l = 0xFFFF)
  match op with
  | 0x02 => decide (u 16 8 % 8 = 0) && decide (u 24 1 ≤ 1) && decide (u 25 1 ≤ 1)
  | 0x03 => decide (u 24 1 ≤ 1)
  | 0x04 => decide (u 16 1 ≠ 0)
  | 0x08 => decide (u 16 2 ≤ 1023) && decide (1 ≤ u 18 2) && decide (u 20 1 ≤ 1)
  | 0x09 => decide (u 16 2 ≤ 1023) && decide (u 18 1 ≤ 1)
  | 0x0C => decide (u 16 8 % 8 = 0) && decide (u 40 1 ≤ 1) && decide (u 41 1 ≤ 1)
  | 0x10 => decide (u 16 8 % 64 = 0) && decide (u 24 4 % 64 = 0) && decide (64 ≤ u 24 4) && decide (u 24 4 ≤ 2 ^ 24) &&
      decide (u 28 1 ≤ 1)
  | 0x20 =>
    coreOk (u 40 2) && lidOk (u 42 2) &&
      (if u 44 1 = 1 then decide (u 16 8 % 64 = 0) && decide (u 24 8 = 0) && decide (u 32 8 = 0)
       else decide (u 44 1 = 0) && decide (1 ≤ u 32 8) && decide (u 32 8 ≤ 2 ^ 40) &&
         spaceFits (u 45 1 % 4) (u 40 2) (u 16 8) (u 32 8) && spaceFits (u 45 1 / 4 % 4) (u 40 2) (u 24 8) (u 32 8))
  | 0x21 =>
    coreOk (u 40 2) && lidOk (u 42 2) && decide (1 ≤ u 24 8) && decide (u 24 8 ≤ 2 ^ 40) &&
      spaceFits (u 44 1 / 4 % 4) (u 40 2) (u 16 8) (u 24 8)
  | 0x30 =>
    decide (u 16 8 % 8 = 0) && decide (1 ≤ u 32 4) && decide (1 ≤ u 36 2) && decide (1 ≤ u 38 2) &&
      decide (1 ≤ u 42 2) && decide (u 40 2 + u 42 2 ≤ n) && decide (u 44 1 ≤ 2) &&
      (decide (u 45 1 = 255) || (decide (u 45 1 % 8 = 0) && decide (8 ≤ u 45 1) && decide (u 45 1 ≤ 248))) &&
      decide (u 48 4 % 256 = 0)
  | 0x31 =>
    decide (u 16 8 % 32 = 0) && decide (1 ≤ u 24 4) && decide (u 24 4 ≤ 2048) && decide (u 28 2 < n) &&
      (decide (u 32 8 = 0) || decide (u 40 8 % 64 = 0))
  | 0x32 =>
    decide (u 16 8 % 32 = 0) && decide (1 ≤ u 24 4) && decide (u 24 4 ≤ 2048) && decide (1 ≤ u 30 2) &&
      decide (u 28 2 + u 30 2 ≤ n) && (decide (u 32 8 = 0) || decide (u 40 8 % 64 = 0))
  | _ => true

/-- The first reason for which a packet is skipped, in the order of R64; 0 where there is none. `room` is the number of
bytes left in the packet's chain, or none in the FIFO: a packet that runs past the end of its chain is CHAIN_OVERRUN
(R57), which is met as soon as its length is known. -/
def skipReason (d : List Byte) (n : Nat) (room : Option Nat) : Nat :=
  let op := field d 0 1
  let len := field d 1 1
  if len = 0 ∨ 64 < len then 2
  else if (match room with | some r => decide (r < 64 * len) | none => false) then 9
  else
    match opcodeLength op with
    | none => 1
    | some l =>
      if l ≠ 0 ∧ l ≠ len then 3
      else if reservedSet op d then 4
      else if !fieldsFit op d n then 5
      else 0

/-! ### Decode -/

/-- Whether a range's present part runs, as far as decode knows. -/
def CondRange.runs (r : CondRange) : Bool := !r.dead && (if r.inElse then !r.cond else r.cond)

/-- Whether every range that encloses the decode position runs. -/
def levelsRun (ls : List Level) : Bool := ls.all (fun l => l.ranges.all CondRange.runs)

/-- Whether decode has run past an `IF_FLAG` that has not resolved (R62). -/
def Ctx.speculative (c : Ctx) : Bool :=
  c.pkts.any (fun p => decide (p.opcode = 0x0C) && decide (p.skip = 0) && !p.dead && p.undispatched)

/-- The packets of a context that count as in flight (R54). -/
def Ctx.inFlight (c : Ctx) : Nat := (c.pkts.filter (fun p => !p.chainEnd)).length

/-- The bytes of the FIFO from stream byte pos on. -/
def Ctx.fifoBytes (c : Ctx) (pos n : Nat) : List Byte := (List.range n).map (fun i => mget 0 c.fifo ((pos + i) % 262144))

/-- Whether the FIFO holds every granule of the packet at stream byte pos (R42). -/
def Ctx.fifoReady (c : Ctx) (pos : Nat) : Bool :=
  if c.accepted < pos + 64 then false
  else
    let len := (mget 0 c.fifo ((pos + 1) % 262144)).toNat
    if len = 0 ∨ 64 < len then true else decide (pos + 64 * len ≤ c.accepted)

/-- Whether a context has a packet that can be decoded now (R42, R54). A chain that has met a fault is read no further
(R57). -/
def Ctx.decodable (c : Ctx) : Bool :=
  decide (c.state = .active) && decide (c.inFlight < 256) && !c.pkts.any (fun p => p.chainFault.isSome) &&
    (match c.levels with
     | [] => false
     | [l] => c.fifoReady l.pos
     | l :: _ => decide (l.pos < l.size))

/-- Module-wide room (R54): 4,096 packets, of which the first 16 of every context are kept for it. -/
def State.decodeRoom (s : State) (n : Nat) : Bool :=
  let used := fun i => (s.ctx i).inFlight
  let total := sum ((List.range 64).map used)
  let kept := sum ((List.range 64).map (fun i => if i = n then 0 else 16 - used i))
  decide (used n < 16) || decide (total + kept < 4096)

/-- The effect of one packet on the decode levels: ranges opened, divided or closed (R58, R59), chains entered (R57). The
answer also gives the reason for which the packet is skipped, and whether it lies where nothing runs. An `IF_FLAG` at depth nine that also
breaks R48 or R50 keeps that reason, and an unmatched `ELSE` or `END_IF` with reserved bytes is UNMATCHED (log entry 40). -/
def stepLevels (ls : List Level) (p : Pkt) : List Level × Nat × Bool :=
  match ls with
  | [] => (ls, p.skip, false)
  | l :: rest =>
    let dead := !levelsRun ls
    match p.opcode with
    | 0x0C =>
      if decide (p.skip = 1) || decide (p.skip = 2) || decide (p.skip = 3) || decide (p.skip = 9) then (ls, p.skip, dead)
      else
        let skip := if p.skip ≠ 0 then p.skip else if 8 ≤ l.ranges.length then 7 else 0
        let cond := decide (skip = 0) && !bit (field p.data 2 2) 0
        ({ l with ranges := ⟨p.pid, p.tag, p.opcode, p.offset, cond, dead, false⟩ :: l.ranges } :: rest, skip, dead)
    | 0x0D =>
      if decide (p.skip ≠ 0) && decide (p.skip ≠ 4) then (ls, p.skip, dead)
      else
        match l.ranges with
        | [] => (ls, 6, dead)
        | r :: rs =>
          if r.inElse then (ls, 6, dead)
          else ({ l with ranges := { r with inElse := true } :: rs } :: rest, p.skip, !levelsRun ({ l with ranges := rs } :: rest))
    | 0x0E =>
      if decide (p.skip ≠ 0) && decide (p.skip ≠ 4) then (ls, p.skip, dead)
      else
        match l.ranges with
        | [] => (ls, 6, dead)
        | _ :: rs => ({ l with ranges := rs } :: rest, p.skip, !levelsRun ({ l with ranges := rs } :: rest))
    | 0x10 =>
      if decide (p.skip ≠ 0) || dead then (ls, p.skip, dead)
      else if 5 ≤ ls.length then (ls, 8, dead)
      else
        ({ base := field p.data 16 8, size := field p.data 24 4, space := field p.data 28 1, owner := p.pid } :: ls, 0, dead)
    | _ => (ls, p.skip, dead)

/-- Closes every chain whose bytes are all read: a marker takes its place in the stream (R57, R59). -/
def closeChains : Nat → Ctx → Ctx
  | 0, c => c
  | f + 1, c =>
    match c.levels with
    | l :: l2 :: rest =>
      if l.pos < l.size then c
      else
        closeChains f { c with
          levels := l2 :: rest, nextPid := c.nextPid + 1
          pkts := c.pkts ++ [chainMarker c.nextPid (l2 :: rest).length l.owner l.ranges .decoded] }
    | _ => c

/-- Takes the packet with header granule and following bytes d into flight. -/
def Ctx.takePacket (c : Ctx) (d : List Byte) (n : Nat) : Ctx :=
  match c.levels with
  | [] => c
  | l :: rest =>
    let inChain := decide (rest ≠ [])
    let room := if inChain then some (l.size - l.pos) else none
    let reason := skipReason d n room
    let len := if reason = 2 then 1 else field d 1 1
    let p : Pkt := { pid := c.nextPid, opcode := field d 0 1, data := d, len, tag := field d 4 4, offset := l.pos,
                     depth := rest.length, skip := reason, fromFifo := !inChain }
    let l := { l with pos := if reason = 9 then l.size else l.pos + 64 * len }
    let (ls, skip, dead) := stepLevels (l :: rest) p
    let p := { p with skip, dead, predicted := !bit (field d 2 2) 0, resume := if p.opcode = 0x0C then ls else [] }
    closeChains 5 { c with levels := ls, pkts := c.pkts ++ [p], nextPid := c.nextPid + 1 }

/-! ### The dispatch point -/

/-- The packet at the dispatch point: the first that is not dispatched, unless a `FENCE` before it has not retired, a
pre-emption has stopped dispatch (R54, R55, R287), or a dispatched chain has met a fault, which completes its `FETCH_CHAIN` at once
(R57). -/
def Ctx.dispatchPoint (c : Ctx) : Option Pkt :=
  if c.state ≠ .active ∨ c.hold = true ∨ c.pkts.any (fun p => p.chainFault.isSome && decide (p.stage = .dispatched)) = true then none
  else
    let before := c.pkts.takeWhile (fun p => !p.undispatched)
    if before.any (fun p => decide (p.opcode = 0x04) && decide (p.skip = 0) && !p.dead) then none
    else c.pkts.find? Pkt.undispatched

/-- Whether every earlier packet of the context has retired (R55). -/
def Ctx.earlierRetired (c : Ctx) (pid : Nat) : Bool :=
  (c.pkts.takeWhile (fun p => decide (p.pid ≠ pid))).all Pkt.openChain

/-- The pair of IDs that a packet's work carries (R47). -/
def Ctx.carried (c : Ctx) (p : Pkt) : Nat × Nat :=
  let l := field p.data 8 2
  let o := field p.data 10 2
  if l = 0 ∧ o = 0 then (c.curLayer, c.curOper) else (l, o)

/-- A packet is dispatched: it takes its pair of IDs and its new stage. -/
def State.dispatch (s : State) (ctx pid : Nat) (stage : PStage) : State :=
  s.modCtx ctx (fun c => c.modPkt pid (fun p =>
    let (l, o) := c.carried p
    { p with layer := l, oper := o, stage := stage }))

/-- Acts on the packet at the dispatch point if it has the opcode and is not skipped: one in a range that does not run
completes without work (R58). -/
def State.atDispatch (s : State) (ctx op : Nat) (f : State → Pkt → State) : State :=
  match (s.ctx ctx).dispatchPoint with
  | some p =>
    if p.opcode = op ∧ p.skip = 0 ∧ p.chainEnd = false then
      if p.dead then s.dispatch ctx p.pid .completed else f s p
    else s
  | none => s

/-- The first packet with the opcode that has been dispatched, waits for its predecessors, and now has them all retired
(R55). -/
def Ctx.dueNow (c : Ctx) (op : Nat) : Option Pkt :=
  c.pkts.find? (fun p => decide (p.opcode = op) && decide (p.stage = .dispatched) && decide (p.skip = 0) && !p.dead &&
    c.earlierRetired p.pid)

end Sys2Proof.Machine
end

