-- ==== Sys2Proof/Machine/Crews.lean ====
section
/-! DEFINITION. Launching, placing and ending crews (03_crew_execution.md R73 to R81, R95, R97), results on their way
(04_thread_instruction_set.md R111) and instruction-cache fills (R113). -/

namespace Sys2Proof.Machine

open Sys2Proof

/-- The number of crews of a launch (R73). -/
def Launch.total (l : Launch) : Nat := l.gx * l.gy * l.gz

/-- Appends the crews of a launch to the placement queues of its cores: rank r has the crews with index r modulo the number
of cores (R73, R74). -/
def State.enqueueCrews (s : State) (n total : Nat) : Nat → List Nat → State
  | _, [] => s
  | r, c :: cs =>
    let s := if r < total then s.modCore c (fun k => { k with queue := k.queue ++ [.fresh n r] }) else s
    s.enqueueCrews n total (r + 1) cs

/-- Whether a core that a packet names is out of service (R301). -/
def State.namesOut (s : State) (cs : List Nat) : Bool := cs.any (fun c => decide (c ∈ s.coresOut))

/-- LAUNCH_CREWS (R73, R74, R76): a launch whose crews can never be placed completes at dispatch with CREW_FAULT. -/
def execLaunchCrews (ctx : Nat) (s : State) : Outcome :=
  .next (s.atDispatch ctx 0x30 (fun s p =>
    let first := field p.data 40 2
    let count := field p.data 42 2
    let cores := ((s.coresOf (s.ctx ctx).part).drop first).take count
    if s.namesOut cores then s
    else if cores.length < count then (s.dispatch ctx p.pid .dispatched).packetDone ctx p.pid 1 0
    else
      let s := s.dispatch ctx p.pid .dispatched
      if 524288 < field p.data 48 4 then s.packetDone ctx p.pid 0x10 (first + 65536 * 0x0A)
      else
        let (layer, oper) := match s.pkt ctx p.pid with
          | some p => (p.layer, p.oper)
          | none => (0, 0)
        let l : Launch := {
          ctx, pid := p.pid, entry := field p.data 16 8, args := field p.data 24 8
          gx := field p.data 32 4, gy := field p.data 36 2, gz := field p.data 38 2
          coreCount := count, cores
          width := 16 * 2 ^ field p.data 44 1, regs := field p.data 45 1, options := field p.data 46 2
          scratch := field p.data 48 4, watchdog := field p.data 52 4, layer, oper }
        let n := s.nextLaunch
        { s with nextLaunch := n + 1, launches := minsert s.launches n l }.enqueueCrews n l.total 0 cores))

/-! ### Placement -/

/-- The 32-bit registers that a crew takes of its quarter (R75). -/
def crewRegs (width regs : Nat) : Nat := width * (if regs = 255 then 256 else regs)

/-- The crews resident in a quarter of a core. -/
def Core.quarter (k : Core) (q : Nat) : List (Nat × Crew) := k.crews.filter (fun e => decide (e.1 / 48 = q))

/-- Whether a quarter has room for a crew (R75). -/
def Core.hasRoom (k : Core) (q width regs : Nat) : Bool :=
  let cs := k.quarter q
  decide (sum (cs.map (fun e => e.2.width)) + width ≤ 768) &&
    decide (sum (cs.map (fun e => crewRegs e.2.width e.2.regs)) + crewRegs width regs ≤ 65536)

/-- The quarter a crew is placed in: with room, with the fewest resident crews, the lowest-numbered of those (R74). -/
def Core.chooseQuarter (k : Core) (width regs : Nat) : Option Nat :=
  let qs := (List.range 4).filter (fun q => k.hasRoom q width regs)
  let least := minOf 1000 (qs.map (fun q => (k.quarter q).length))
  qs.find? (fun q => decide ((k.quarter q).length = least))

/-- The ranges of scratch that are not free: crew allocations, the reservations of cox programs and staging areas (R76,
R165). -/
def Core.taken (k : Core) : List (Nat × Nat) :=
  (k.crews.map (fun e => (e.2.scratchBase, e.2.scratchSize))) ++
    ((k.jobs.filter (fun j => j.claimed)).map (fun j => (j.resBase, j.resBytes))) ++
    (k.staging.map (fun a => (a.base, a.size)))

/-- Whether a range of scratch overlaps none of a list of ranges. -/
def clearOf (ranges : List (Nat × Nat)) (base size : Nat) : Bool :=
  ranges.all (fun r => decide (base + size ≤ r.1) || decide (r.1 + r.2 ≤ base) || decide (r.2 = 0))

/-- The scratch address that a crew's allocation gets: the start of the lowest free range large enough (R76). -/
def Core.scratchFit (k : Core) (size : Nat) : Option Nat :=
  if size = 0 then some 0
  else
    let starts := 0 :: k.taken.map (fun r => r.1 + r.2)
    let ok := starts.filter (fun b => decide (b + size ≤ 0x80000) && clearOf k.taken b size)
    match ok with
    | [] => none
    | b :: bs => some (minOf b bs)

/-- Puts a crew into a free slot of a quarter with a new age (R77, R81); a crew that was halted at its pre-emption takes its new age when a
debugger resumes it (R105). Which free slot it gets is the module's choice. -/
def State.placeIn (s : State) (core q : Nat) (c : Crew) : State :=
  let k := s.core core
  let free := (List.range 48).filter (fun i => (mfind k.crews (48 * q + i)).isNone)
  let (s, i) := s.pick free.length
  let key := 48 * q + free.getD i 0
  if c.state = .halted then s.setCrew core key { c with newAge := true }
  else
    let age := mget 0 k.ageSeq q
    (s.modCore core (fun k => { k with ageSeq := mset 0 k.ageSeq q (age + 1) })).setCrew core key { c with age }

/-- A crew as it is placed (R77). -/
def freshCrew (l : Launch) (n idx base clock : Nat) : Crew :=
  { launch := n, idx, ctx := l.ctx, width := l.width, regs := l.regs
    path := some (l.entry, 2 ^ l.width - 1)
    u := mset 0 [] 0 (BitVec.ofNat 64 l.args)
    scratchBase := base, scratchSize := l.scratch, placedAt := clock }

/-- What a core's scratch holds in a range: its bytes that are not zero, and its poisoned words. -/
def Core.scratchPart (k : Core) (base size : Nat) : Map Byte × List Nat :=
  (k.scratch.filter (fun e => decide (base ≤ e.1) && decide (e.1 < base + size)),
    k.scratchPoison.filter (fun w => decide (base ≤ 8 * w) && decide (8 * w < base + size)))

/-- Puts back what a range of a core's scratch held (R288). -/
def Core.putScratch (k : Core) (base size : Nat) (cells : Map Byte) (poison : List Nat) : Core :=
  { k with
    scratch := cells.foldl (fun m e => mset 0 m e.1 e.2) (k.scratch.filter (fun e => decide (e.1 < base) || decide (base + size ≤ e.1)))
    scratchPoison := poison.foldl sinsert (k.scratchPoison.filter (fun w => decide (8 * w < base) || decide (base + size ≤ 8 * w)))
    scratchSoft := k.scratchSoft.filter (fun w => decide (8 * w < base) || decide (base + size ≤ 8 * w)) }

/-- Delivers the releases that were held for a crew's waiting paths while it was saved (R278). -/
def Crew.deliverHeld (c : Crew) : List (Nat × Nat × Nat) → Crew
  | [] => c
  | (w, st, gen) :: rest => (c.released w st gen).deliverHeld rest

/-- Whether a crew of a context waits to be placed again. -/
def State.resuming (s : State) (ctx : Nat) : Bool :=
  s.cores.any (fun e => e.2.queue.any (fun i => match i with | .saved c => decide (c.crew.ctx = ctx) | _ => false))

/-- A resumed context returns to ACTIVE once every saved crew has been placed; the releases held for its packets are delivered (R278), and the
request is answered (R288). -/
def State.checkResume (s : State) (ctx : Nat) : State :=
  let c := s.ctx ctx
  match c.resumePath with
  | some p =>
    if s.resuming ctx then s
    else
      let s := s.setCtx ctx { c with
        state := if c.state = .preempted then .active else c.state, hold := false, resumePath := none, heldPkts := [] }
      (c.heldPkts.foldl (fun s h => s.packetDone ctx h.1 h.2.1 h.2.2) s).reply p 0 0 []
  | none => s

/-- CREW_PLACE: the crew at the head of the placement queue is placed, if a quarter and scratch have room (R74, R76); crews
of a launch that the core has stopped placing are dropped (R95). A crew that resumes takes its scratch at the same address
as before, with what it held (R288). -/
def execCrewPlace (core : Nat) (s : State) : Outcome :=
  let live := fun (i : QueueItem) => match i with
    | .fresh n _ => match s.launch n with
      | some l => decide (core ∉ l.stopped)
      | none => false
    | .saved _ => true
  let s := s.modCore core (fun k => { k with queue := k.queue.filter live })
  let k := s.core core
  match k.queue with
  | [] => .next s
  | .fresh n idx :: rest =>
    match s.launch n with
    | none => .next s
    | some l =>
      match k.chooseQuarter l.width l.regs, k.scratchFit l.scratch with
      | some q, some base =>
        let (s, t) := s.sampleClock core
        let next := idx + l.coreCount
        let s := if idx < l.coreCount then
            let tag := match s.pkt l.ctx l.pid with | some p => p.tag | none => 0
            (s.startCommand core 1 (pairOf l.layer l.oper)).traceStart core (pairOf l.layer l.oper) tag 1 l.ctx
          else s
        let s := s.modCore core (fun k => { k with queue := if next < l.total then .fresh n next :: rest else rest })
        .next (s.placeIn core q (freshCrew l n idx base t))
      | _, _ => .next s
  | .saved c :: rest =>
    match k.chooseQuarter c.crew.width c.crew.regs with
    | some q =>
      if clearOf k.taken c.crew.scratchBase c.crew.scratchSize then
        let (s, t) := s.sampleClock core
        let s := s.modCore core (fun k => { k with queue := rest }.putScratch c.crew.scratchBase c.crew.scratchSize c.cells c.poison)
        let crew := { c.crew with excluded := c.crew.excluded + (t - c.crew.idleFrom), idleFrom := t }
        .next ((s.placeIn core q (crew.deliverHeld c.held)).checkResume c.crew.ctx)
      else .next s
    | none => .next s

/-- CREW_LEAVE: a crew whose threads have all exited, whose results have returned and whose copies are done leaves its
quarter (R78, R133). -/
def execCrewLeave (c : CrewId) (s : State) : Outcome :=
  match s.crew c.core (ckey c) with
  | some x =>
    if x.allExited && x.outs.isEmpty && decide (x.copies = 0) && decide (x.state ≠ .faulted) then
      .next ((s.freeCrew c.core (ckey c)).checkLaunch x.launch)
    else .next s
  | none => .next s

/-- LAUNCH_FAULT_SIGNAL: the first fault of a launch reaches another of its cores, which stops placing (R95). -/
def execLaunchFaultSignal (launch core : Nat) (s : State) : Outcome :=
  match s.launch launch with
  | some l =>
    if l.fault.isSome && decide (core ∈ l.cores) then
      .next ((s.modLaunch launch (fun l => { l with stopped := sinsert l.stopped core })).checkLaunch launch)
    else .next s
  | none => .next s

/-- WATCHDOG: a crew resident for more than its time faults (R97); time HALTED or pre-empted does not count. -/
def execWatchdog (c : CrewId) (s : State) : Outcome :=
  match s.crew c.core (ckey c) with
  | some x =>
    match s.launch x.launch with
    | some l =>
      if l.watchdog = 0 ∨ x.state = .halted ∨ x.state = .faulted ∨ x.allExited = true then .next s
      else
        let due := x.placedAt + x.excluded + 1024 * l.watchdog + 1
        let s := s.tick c.core due
        let (s, t) := s.fresh
        .next (s.pathFault c.core (ckey c) 0x06 0 (t.toNat % x.width))
    | none => .next s
  | none => .next s

/-! ### Results on their way -/

/-- A register write reaches its register. -/
def Crew.commit (c : Crew) : RegWrite → Crew
  | .v t r x => { c with v := mset 0 c.v (256 * t + r) x, regErr := sremove c.regErr (256 * t + r) }
  | .u r x => { c with u := mset 0 c.u r x }
  | .p i mask vals => c.setPred i mask vals

def Crew.commitAll (c : Crew) (ws : List RegWrite) : Crew := ws.foldl Crew.commit c



/-- RESULT_ARRIVAL: the n-th outstanding result of a crew reaches its registers, at the stroke it is due or later; an
older result loses the registers that this one has written (R111, R137). -/
def execResultArrival (c : CrewId) (n : Nat) (s : State) : Outcome :=
  match s.crew c.core (ckey c) with
  | some x =>
    match x.outs[n]? with
    | some r =>
      let s := s.tick c.core r.due
      let x := { x.commitAll r.writes with outs := x.outs.filter (fun o => decide (o.seq ≠ r.seq)) }
      .next (s.setCrew c.core (ckey c) (x.discard r.writes (fun o => decide (o.seq < r.seq))))
    | none => .next s
  | none => .next s

/-! ### Instruction fetch -/

/-- The key of a line of the instruction cache: the context and the virtual line it was fetched for (log entry 13). -/
def fetchKey (ctx pc : Nat) : Nat := ctx * 2 ^ 57 + pc / 128

/-- The 8-byte word at an address, if its line is in the core's instruction cache (R113, R225). -/
def State.fetchWord (s : State) (core ctx pc : Nat) : Option Nat :=
  (mfind (s.core core).icache (fetchKey ctx pc)).map (fun bs => field bs (pc % 128) 8)

/-- The instruction words at an address: the second word is 0 unless bit L is set (R113). -/
def State.fetch (s : State) (core ctx pc : Nat) : Option (Nat × Nat) :=
  match s.fetchWord core ctx pc with
  | some w => if bit w 11 then (s.fetchWord core ctx ((pc + 8) % 2 ^ 64)).map (fun w1 => (w, w1)) else some (w, 0)
  | none => none

/-- Reads one line for the instruction cache, and answers its physical line too: a fetch needs X at both stages (R293). -/
def State.fetchLine (s : State) (core ctx va : Nat) : State × Access × Nat :=
  let w : Requester := { cache := core, master := .io (dieOf core), ctx }
  let base := va / 128 * 128
  match s.xlate w base { x := true } with
  | (s, .fault) => (s, .trans va, 0)
  | (s, .poison a) => (s, .poison a, 0)
  | (s, .held g line) => (s, .held g line, 0)
  | (s, .ok pa) =>
    let q := (s.ctx ctx).part
    match s.paRead w.master q ctx pa 128 with
    | (s, .trans _) => (s, .trans va, 0)
    | (s, r) => (s, r, lineKey q pa)

/-- The set of the instruction cache, of 128, that a line fetched under a key is held in (R225). Which address bits select it is not stated: the
low bits of the virtual line (log entry 13). -/
def icacheSet (key : Nat) : Nat := key % 128

/-- Puts a line into the instruction cache: a full set of four gives up a line of its choice (R225). -/
def State.icacheAdd (s : State) (core key pa : Nat) (bs : List Byte) : State :=
  let same := ((s.core core).icache.map (·.1)).filter (fun k => decide (icacheSet k = icacheSet key) && decide (k ≠ key))
  let (s, out) := if same.length < 4 then (s, none) else let (s, i) := s.pick same.length; (s, same[i]?)
  s.modCore core (fun k =>
    let k := match out with | some o => { k with icache := merase k.icache o, icachePa := merase k.icachePa o } | none => k
    { k with icache := minsert k.icache key bs, icachePa := minsert k.icachePa key pa })

/-- INSTRUCTION_CACHE_FILL: the first line missing under the crew's next instruction is fetched, or the crew faults with
TRANSLATION or POISON at that instruction, under its path's lowest thread (R113, R136); a fetch of a segment line in repair is held (R298). The
line of a second word is fetched wherever bit L is set, also in a class that does not allow it, before that is found ILLEGAL_INSTRUCTION: the
spec does not say which comes first (log entry 39). -/
def execInstructionCacheFill (c : CrewId) (s : State) : Outcome := s.waits <|
  match s.crew c.core (ckey c) with
  | some x =>
    match x.path with
    | some (pc, mask) =>
      if decide (x.state ≠ .running) && decide (x.state ≠ .halted) then .next s else
      let want := match s.fetchWord c.core x.ctx pc with
        | none => some pc
        | some w =>
          if bit w 11 && (s.fetchWord c.core x.ctx ((pc + 8) % 2 ^ 64)).isNone then some ((pc + 8) % 2 ^ 64) else none
      match want with
      | none => .next s
      | some va =>
        let who : Reader := .crew c.core (ckey c)
        let t := (bitList x.width mask).headD 0
        let (s, got, pa) := s.fetchLine c.core x.ctx va
        match s.orHeld who got with
        | (s, .ok bs) => .next ((s.dropHeld who).icacheAdd c.core (fetchKey x.ctx va) pa bs)
        | (s, .trans a) => .next (s.pathFault c.core (ckey c) 0x03 a t)
        | (s, .poison a) => .next (s.pathFault c.core (ckey c) 0x04 a t)
        | (s, .held _ _) => .next s
    | none => .next s
  | none => .next s

end Sys2Proof.Machine
end

