-- ==== Sys2Proof/Machine/Operands.lean ====
section
/-! DEFINITION. Operand forms of thread instructions (04_thread_instruction_set.md R107 to R119): the fields of the four
formats, which instructions are legal, the registers an instruction reads, operand values, and latencies. -/

namespace Sys2Proof.Machine

open Sys2Proof

/-! ### Fields (Tables 4-2 to 4-7) -/

/-- An instruction: word 0 and, in the 128-bit form, word 1. -/
structure Inst where
  w : Nat
  w1 : Nat
  deriving DecidableEq, Repr

def Inst.cls (i : Inst) : Nat := bits i.w 0 4
def Inst.op (i : Inst) : Nat := bits i.w 4 7
def Inst.long (i : Inst) : Bool := bit i.w 11
def Inst.guard (i : Inst) : Nat := bits i.w 12 3
def Inst.gneg (i : Inst) : Bool := bit i.w 15
def Inst.d (i : Inst) : Nat := bits i.w 16 8
def Inst.a (i : Inst) : Nat := bits i.w 24 8
def Inst.b (i : Inst) : Nat := bits i.w 32 8
def Inst.c (i : Inst) : Nat := bits i.w 40 8
def Inst.rm (i : Inst) : Nat := bits i.w 48 2
def Inst.bu (i : Inst) : Bool := bit i.w 50
def Inst.cu (i : Inst) : Bool := bit i.w 51
def Inst.i16 (i : Inst) : Bool := bit i.w 52
def Inst.imm16 (i : Inst) : Nat := bits i.w 32 16
def Inst.mods (i : Inst) : Nat := bits i.w 53 11
def Inst.au (i : Inst) : Bool := bit i.w 48
def Inst.size (i : Inst) : Nat := bits i.w 49 3
def Inst.space (i : Inst) : Nat := bits i.w 52 2
def Inst.order (i : Inst) : Nat := bits i.w 54 2
def Inst.scope (i : Inst) : Nat := bits i.w 56 2
def Inst.sgnM (i : Inst) : Bool := bit i.w 58
def Inst.na (i : Inst) : Bool := bit i.w 59
def Inst.pd (i : Inst) : Nat := bits i.w 16 3
def Inst.lid (i : Inst) : Nat := bits i.w 20 10
def Inst.lidu (i : Inst) : Bool := bit i.w 30
def Inst.mode (i : Inst) : Nat := bits i.w 31 1
def Inst.ureg (i : Inst) : Nat := bits i.w 32 6
def Inst.count (i : Inst) : Nat := bits i.w 48 16
def Inst.reg (i : Inst) : Nat := bits i.w 16 8
def Inst.target (i : Inst) : Int := sext (bits i.w 24 20) 20
def Inst.join (i : Inst) : Int := sext (bits i.w 44 20) 20
def Inst.bytes (i : Inst) : Nat := if i.long then 16 else 8
/-- Integer class: `W64`, `SGN`, `UNI`. -/
def Inst.w64 (i : Inst) : Bool := bit i.w 53
def Inst.sgnI (i : Inst) : Bool := bit i.w 54
def Inst.uni (i : Inst) : Bool := bit i.w 55
/-- Conversion: source and destination format; compare: condition, `W64` and `SGN`. -/
def Inst.srcFmt (i : Inst) : Nat := bits i.w 53 4
def Inst.dstFmt (i : Inst) : Nat := bits i.w 57 4
def Inst.cc (i : Inst) : Nat := bits i.w 53 4
def Inst.w64C (i : Inst) : Bool := bit i.w 57
def Inst.sgnC (i : Inst) : Bool := bit i.w 58
/-- Shuffles: `SEG`; `REDUX`: `SGN`. -/
def Inst.seg (i : Inst) : Nat := bits i.w 53 3
def Inst.sgnX (i : Inst) : Bool := bit i.w 56

/-! ### Signatures -/

/-- What an operand field names: nothing, a group of n thread registers, a uniform register, or a predicate. -/
inductive Opd where
  | no
  | v (n : Nat)
  | u
  | p
  deriving DecidableEq, Repr

/-- The operands of a format R instruction: what D, A, B and C name, whether B may be given as an immediate, by `BU` or by
word 1 (and C by `CU`), the mask of `MOD` bits in use, and whether it rounds by `RM`. -/
structure Sig where
  d : Opd := .no
  a : Opd := .no
  b : Opd := .no
  c : Opd := .no
  alt : Bool := true
  mods : Nat := 0
  rm : Bool := false
  deriving DecidableEq, Repr

/-- Number of registers that a scalar format of Table 4-10 occupies. -/
def scalarRegs (f : Nat) : Nat := if f = 2 ∨ f = 3 ∨ f = 4 then 2 else 1

/-- The signature of `CVT` for a pair of formats (R122). From an MX block, field A names the one register that holds the packed elements,
odd or even, since B names the scale register: R122 calls the MX side a pair (log entry 48). -/
def sigCvt (s d : Nat) : Option Sig :=
  if s = d then none
  else if s < 8 ∧ d < 8 then some { d := .v (scalarRegs d), a := .v (scalarRegs s), alt := false, mods := 0xFF, rm := true }
  else if s = 5 ∧ 8 ≤ d ∧ d ≤ 12 then some { d := .v 1, a := .v (if d = 12 then 8 else 4), alt := false, mods := 0xFF }
  else if d = 5 ∧ 8 ≤ s ∧ s ≤ 12 then some { d := .v (if s = 12 then 8 else 4), a := .v 1, alt := false, mods := 0xFF }
  else if (s = 5 ∨ s = 7) ∧ (d = 13 ∨ d = 14) then some { d := .v 2, a := .v (if s = 5 then 4 else 2), alt := false, mods := 0xFF }
  else if (d = 5 ∨ d = 7) ∧ (s = 13 ∨ s = 14) then
    some { d := .v (if d = 5 then 4 else 2), a := .v 1, b := .v 1, alt := false, mods := 0xFF }
  else none

/-- Signature of an integer instruction (class 0x1). -/
def sigInt (i : Inst) : Option Sig :=
  let r : Opd := if i.uni then .u else .v (if i.w64 then 2 else 1)
  let m := 0b101 + (if i.op ∈ [0x03, 0x05, 0x06, 0x0D, 0x11, 0x13, 0x14] then 2 else 0)
  if i.uni && !i.w64 then none
  else if i.op = 0x04 ∨ i.op = 0x12 then some { d := r, a := r, b := r, c := r, mods := m }
  else if i.op ∈ [0x07, 0x0E, 0x0F, 0x10] then some { d := r, a := r, mods := m }
  else if i.op ≤ 0x14 then some { d := r, a := r, b := r, mods := m }
  else none

/-- Signature of an FP64 or FP32 instruction with n registers an operand: `NA`, `NB`, `NC`, `AA`, `AB` where the source is
read. -/
def sigFp (op n : Nat) : Option Sig :=
  let r : Opd := .v n
  match op with
  | 0x03 => some { d := r, a := r, b := r, c := r, mods := 0b11111, rm := true }
  | 0x00 => some { d := r, a := r, b := r, mods := 0b11011, rm := true }
  | 0x01 => some { d := r, a := r, b := r, mods := 0b11011, rm := true }
  | 0x02 => some { d := r, a := r, b := r, mods := 0b11011, rm := true }
  | 0x04 => some { d := r, a := r, b := r, mods := 0b11011 }
  | 0x05 => some { d := r, a := r, b := r, mods := 0b11011 }
  | 0x06 => some { d := r, a := r, b := r, mods := 0b11011, rm := true }
  | 0x07 => some { d := r, a := r, mods := 0b01001, rm := true }
  | _ => if n = 1 ∧ op ≤ 0x0B then some { d := r, a := r, mods := 0b01001 } else none

/-- Signature of a packed FP16/BF16 instruction. -/
def sigHalf (op : Nat) : Option Sig :=
  let r : Opd := .v 1
  if op ≤ 2 then some { d := r, a := r, b := r, mods := 0b111011, rm := true }
  else if op = 3 ∨ op = 6 then some { d := r, a := r, b := r, c := r, mods := 0b111111, rm := true }
  else if op = 4 ∨ op = 5 then some { d := r, a := r, b := r, mods := 0b111011 }
  else none

/-- Signature of a compare or select instruction (R124). -/
def sigCmp (i : Inst) : Option Sig :=
  let n := if i.w64C then 2 else 1
  match i.op with
  | 0x00 => if i.cc ≤ 5 then some { d := .p, a := .v n, b := .v n, mods := 0b111111 } else none
  | 0x01 => if i.cc ≤ 7 then some { d := .p, a := .v 2, b := .v 2, mods := 0b1111 } else none
  | 0x02 => if i.cc ≤ 7 then some { d := .p, a := .v 1, b := .v 1, mods := 0b1111 } else none
  | 0x03 => some { d := .v n, a := .v n, b := .v n, c := .p, mods := 0b10000 }
  | 0x04 => some { d := .p, a := .p, b := .p, alt := false, mods := 0b1111 }
  | _ => none

/-- Signature of a shuffle or vote instruction (R132). -/
def sigShuffle (i : Inst) (width : Nat) : Option Sig :=
  if i.op ≤ 3 then
    if i.seg ≤ 5 ∧ 2 ^ (i.seg + 1) ≤ width then some { d := .v 1, a := .v 1, b := .v 1, mods := 0b111 } else none
  else if i.op ≤ 5 then some { d := .p, a := .p }
  else if i.op = 6 then some { d := .u, a := .p }
  else if i.op ≤ 9 then some { d := .u, a := .v 1, mods := 0b1000 }
  else if i.op = 10 then some { d := .u, a := .v 1 }
  else none

/-- The signature of a format R instruction outside the system class; none where `CLASS`, `OP` or a format is reserved. -/
def sigR (i : Inst) (width : Nat) : Option Sig :=
  match i.cls with
  | 0x1 => sigInt i
  | 0x2 => if i.op ≤ 7 then sigFp i.op 2 else none
  | 0x3 => sigFp i.op 1
  | 0x4 => sigHalf i.op
  | 0x5 =>
    if i.op = 0 then sigCvt i.srcFmt i.dstFmt
    else if i.op = 1 ∧ 4 ≤ i.srcFmt ∧ i.srcFmt ≤ 7 then
      some { d := .v (scalarRegs i.srcFmt), a := .v (scalarRegs i.srcFmt), alt := false, mods := 0xF, rm := true }
    else none
  | 0x6 => sigCmp i
  | 0xB => sigShuffle i width
  | _ => none

/-! ### Legality (R117) -/

/-- A v register operand: aligned to its size and below the allocated count A (R107, R108). -/
def vOk (regs f n : Nat) : Bool := decide (f % n = 0) && decide (f + n ≤ regs)

/-- A destination field: `NODST` stands for any v register group. -/
def Opd.destOk (o : Opd) (regs f : Nat) : Bool :=
  match o with
  | .no => decide (f = 0)
  | .v n => decide (f = 255) || vOk regs f n
  | .u => decide (f < 64)
  | .p => decide (f < 8)

/-- A source field. -/
def Opd.srcOk (o : Opd) (regs f : Nat) : Bool :=
  match o with
  | .no => decide (f = 0)
  | .v n => vOk regs f n
  | .u => decide (f < 64)
  | .p => decide (f < 8)

def Opd.isV : Opd → Bool
  | .v _ => true
  | _ => false

/-- An operand that an immediate can stand in for. -/
def Opd.isData : Opd → Bool
  | .v _ => true
  | .u => true
  | _ => false

/-- Whether the 128-bit form is allowed in a format R class (Table 4-8). -/
def longClass (c : Nat) : Bool := decide (c ∈ [0x1, 0x2, 0x3, 0x4, 0x6])

/-- The guard of a crew-uniform instruction (R115). -/
def Inst.unguarded (i : Inst) : Bool := decide (i.guard = 7) && !i.gneg

/-- A format R instruction with a signature breaks none of R107 to R109 and R117. -/
def legalR (i : Inst) (regs : Nat) (g : Sig) : Bool :=
  g.d.destOk regs i.d && g.a.srcOk regs i.a &&
  decide (i.mods &&& g.mods = i.mods) && (g.rm || decide (i.rm = 0)) &&
  (if i.long then
    longClass i.cls && g.alt && !i.i16 && !i.bu && decide (i.b = 0) &&
      (g.b.isData || (decide (g.b = .no) && decide (i.w1 = 0))) &&
      (if i.cu then g.c.isV && decide (i.c < 64) else g.c.srcOk regs i.c)
  else if i.i16 then g.alt && g.b.isData && decide (g.c = .no) && !i.bu && !i.cu
  else
    (if i.bu then g.alt && g.b.isV && decide (i.b < 64) else g.b.srcOk regs i.b) &&
      (if i.cu then g.alt && g.c.isV && decide (i.c < 64) else g.c.srcOk regs i.c))

/-- Bits lo to lo+len-1 of word 0 are zero. -/
def Inst.zero (i : Inst) (lo len : Nat) : Bool := decide (bits i.w lo len = 0)

/-- Branch class (Table 4-4, R125). -/
def legalBranch (i : Inst) (regs : Nat) : Bool :=
  match i.op with
  | 0x00 => i.zero 16 8 && (!i.long || (i.zero 24 20))
  | 0x01 => !i.long && vOk regs i.reg 2 && i.zero 24 20
  | 0x02 => vOk regs i.reg 2 && (!i.long || i.zero 24 20)
  | 0x03 => !i.long && i.zero 16 48 && i.unguarded
  | 0x04 => !i.long && i.zero 16 48 && i.unguarded
  | 0x05 => !i.long && i.zero 18 46 && i.unguarded
  | _ => false

/-- Registers of a memory access of a size (R128). -/
def sizeRegs (size : Nat) : Nat := if size ≤ 2 then 1 else if size = 3 then 2 else 4

/-- The base of a memory access (Table 4-5). -/
def baseOk (i : Inst) (regs : Nat) : Bool :=
  if i.au then decide (i.a < 64) else vOk regs i.a (if i.space = 2 then 1 else 2)

/-- `OFF` is zero in the 128-bit form. -/
def offOk (i : Inst) : Bool := !i.long || decide (i.c = 0)

/-- Load, store, `LDU` and `FENCE` (class 0x8). -/
def legalMem (i : Inst) (regs : Nat) : Bool :=
  let common := decide (i.size ≤ 4) && decide (i.space ≠ 3) && baseOk i regs && offOk i && i.zero 60 4
  match i.op with
  | 0x00 => common && (decide (i.d = 255) || vOk regs i.d (sizeRegs i.size)) && decide (i.b = 0) && decide (i.order < 2) &&
      (!i.sgnM || decide (i.size < 2))
  | 0x01 => common && decide (i.d = 0) && vOk regs i.b (sizeRegs i.size) && decide (i.order = 0 ∨ i.order = 2) && !i.sgnM && !i.na
  | 0x02 => common && i.au && decide (i.size = 3) && decide (i.d < 64) && decide (i.b = 0) && decide (i.order < 2) && !i.sgnM &&
      i.unguarded
  | 0x03 => i.zero 16 38 && decide (i.order ≠ 0) && i.zero 58 6 && (!i.long || decide (i.w1 = 0))
  | _ => false

/-- Atomics (R129). -/
def legalAtomic (i : Inst) (regs : Nat) : Bool :=
  let n := sizeRegs i.size
  decide (i.op ≤ 9) && decide (i.size = 2 ∨ i.size = 3) && (decide (i.op ≠ 8) || decide (i.size = 2)) &&
    (decide (i.op ≠ 9) || decide (i.size = 3)) && decide (i.space ≠ 3) && baseOk i regs &&
    (decide (i.d = 255) || vOk regs i.d n) && vOk regs i.b n &&
    (if i.op = 7 then vOk regs i.c n else offOk i) && (!i.sgnM || decide (i.op = 1 ∨ i.op = 2)) && !i.na && i.zero 60 4

/-- Landing class (Table 4-6, R131). -/
def legalLanding (i : Inst) : Bool :=
  !i.long && i.unguarded && i.zero 19 1 && i.zero 38 10 && (!i.lidu || decide (i.lid < 64)) &&
  match i.op with
  | 0x00 => decide (i.pd = 0) && decide (i.mode = 0) && decide (i.ureg = 0) && decide (i.count ≠ 0)
  | 0x01 => decide (i.count = 0) && (decide (i.mode = 1) || decide (i.ureg = 0))
  | 0x02 => decide (i.mode = 0) && decide (i.ureg = 0) && decide (i.count ≠ 0)
  | 0x03 => decide (i.mode = 1) && decide (i.count = 0)
  | _ => false

/-- `FDMA` (R133). -/
def legalFdma (i : Inst) : Bool :=
  decide (i.op = 0) && !i.long && i.unguarded && decide (i.pd = 0) && i.zero 19 1 && i.zero 38 26 &&
    (if i.mode = 1 then decide (i.lid = 0) && !i.lidu else (!i.lidu || decide (i.lid < 64)))

/-- Cache control (R134). -/
def legalCache (i : Inst) (regs : Nat) : Bool :=
  if i.op ≤ 2 then
    decide (i.size ≤ 4) && decide (i.space < 2) && baseOk i regs && offOk i && decide (i.d = 0) && decide (i.b = 0) && i.zero 54 10
  else if i.op ≤ 4 then i.zero 16 48 && (!i.long || decide (i.w1 = 0))
  else false

/-- Width in registers of a special register, none where it is reserved (Table 4-1). -/
def srRegs (n : Nat) : Option Nat :=
  if n = 0x0D ∨ n = 0x0E ∨ n = 0x13 ∨ n = 0x14 then some 2 else if n ≤ 0x14 then some 1 else none

/-- System class (Table 4-9, R112). -/
def legalSystem (i : Inst) (regs : Nat) : Bool :=
  let n := if i.w64 then 2 else 1
  match i.op with
  | 0x00 => !i.long && i.zero 16 48
  | 0x01 =>
    (decide (i.d = 255) || vOk regs i.d n) && decide (i.rm = 0) && !i.cu && decide (i.mods &&& 1 = i.mods) &&
      (if i.long then decide (i.a = 0) && decide (i.b = 0) && decide (i.c = 0) && !i.bu && !i.i16
       else if i.i16 then decide (i.a = 0) && !i.bu
       else if i.bu then decide (i.a = 0) && decide (i.b < 64) && decide (i.c = 0)
       else vOk regs i.a n && decide (i.b = 0) && decide (i.c = 0))
  | 0x02 =>
    i.unguarded && decide (i.d < 64) && decide (i.rm = 0) && !i.cu && !i.bu && decide (i.mods = 0) &&
      (if i.long then decide (i.a = 0) && decide (i.b = 0) && decide (i.c = 0) && !i.i16
       else if i.i16 then decide (i.a = 0)
       else decide (i.a < 64) && decide (i.b = 0) && decide (i.c = 0))
  | 0x03 =>
    !i.long && decide (i.a = 0) && i.zero 40 24 &&
      match srRegs i.b with
      | some k => decide (i.d = 255) || vOk regs i.d k
      | none => false
  | 0x04 => !i.long && decide (i.d = 0) && decide (i.b = 0x0F) && vOk regs i.a 1 && i.zero 40 24
  | 0x05 => !i.long && i.zero 16 48 && i.unguarded
  | _ => false

/-- Whether `CLASS` and `OP` name an operation of Table 4-9. -/
def Inst.known (i : Inst) : Bool :=
  match i.cls with
  | 0x1 => decide (i.op ≤ 0x14)
  | 0x2 => decide (i.op ≤ 0x07)
  | 0x3 => decide (i.op ≤ 0x0B)
  | 0x4 => decide (i.op ≤ 0x06)
  | 0x5 => decide (i.op ≤ 0x01)
  | 0x6 => decide (i.op ≤ 0x04)
  | 0x7 => decide (i.op ≤ 0x05)
  | 0x8 => decide (i.op ≤ 0x03)
  | 0x9 => decide (i.op ≤ 0x09)
  | 0xA => decide (i.op ≤ 0x03)
  | 0xB => decide (i.op ≤ 0x0A)
  | 0xC => decide (i.op = 0)
  | 0xD => decide (i.op ≤ 0x04)
  | 0xE => decide (i.op ≤ 0x05)
  | _ => false

/-- R117: an instruction that does not fault with ILLEGAL_INSTRUCTION in a crew of a width with registers below regs. -/
def Inst.legal (i : Inst) (width regs : Nat) : Bool :=
  match i.cls with
  | 0x7 => legalBranch i regs
  | 0x8 => legalMem i regs
  | 0x9 => legalAtomic i regs
  | 0xA => legalLanding i
  | 0xC => legalFdma i
  | 0xD => legalCache i regs
  | 0xE => legalSystem i regs
  | _ =>
    match sigR i width with
    | some g => legalR i regs g && (!(decide (i.cls = 1) && i.uni) || i.unguarded)
    | none => false

/-! ### Registers read -/

/-- A register that an instruction reads: thread register, uniform register or predicate. -/
inductive SrcReg where
  | v (r : Nat)
  | u (r : Nat)
  | p (r : Nat)
  deriving DecidableEq, Repr

def Opd.regs (o : Opd) (f : Nat) : List SrcReg :=
  match o with
  | .no => []
  | .v n => (List.range n).map (fun k => .v (f + k))
  | .u => [.u f]
  | .p => [.p f]

/-- The base registers of a memory instruction. -/
def baseRegs (i : Inst) : List SrcReg := if i.au then [.u i.a] else (Opd.v (if i.space = 2 then 1 else 2)).regs i.a

/-- The source registers of a legal instruction (R79, R111), its guard among them. -/
def Inst.sources (i : Inst) (width : Nat) : List SrcReg :=
  .p i.guard ::
  match i.cls with
  | 0x7 => if i.op = 1 then (Opd.v 2).regs i.reg else []
  | 0x8 =>
    if i.op = 3 then [] else baseRegs i ++ (if i.op = 1 then (Opd.v (sizeRegs i.size)).regs i.b else [])
  | 0x9 =>
    let n := sizeRegs i.size
    baseRegs i ++ (Opd.v n).regs i.b ++ (if i.op = 7 then (Opd.v n).regs i.c else [])
  | 0xA => (if i.lidu then [.u i.lid] else []) ++ (if i.mode = 1 then [.u i.ureg] else [])
  | 0xC => .u i.ureg :: (if i.lidu then [.u i.lid] else [])
  | 0xD => if i.op ≤ 2 then baseRegs i else []
  | 0xE =>
    match i.op with
    | 0x01 => if i.long || i.i16 then [] else if i.bu then [.u i.b] else (Opd.v (if i.w64 then 2 else 1)).regs i.a
    | 0x02 => if i.long || i.i16 then [] else [.u i.a]
    | 0x04 => [.v i.a]
    | _ => []
  | _ =>
    match sigR i width with
    | some g =>
      g.a.regs i.a ++
      (if i.long then (if i.cu then [.u i.c] else g.c.regs i.c)
       else if i.i16 then []
       else (if i.bu then [.u i.b] else g.b.regs i.b) ++ (if i.cu then [.u i.c] else g.c.regs i.c))
    | none => []

/-- Whether a write on its way goes to a register. -/
def RegWrite.hits (w : RegWrite) (r : SrcReg) : Bool :=
  match w, r with
  | .v _ a _, .v b => decide (a = b)
  | .u a _, .u b => decide (a = b)
  | .p a _ _, .p b => decide (a = b)
  | _, _ => false

/-- Whether a source register of an instruction has a result outstanding (R79). -/
def Crew.blocked (c : Crew) (srcs : List SrcReg) : Bool :=
  c.outs.any (fun o => o.writes.any (fun w => srcs.any (fun r => w.hits r)))

/-- The first register with an uncorrectable error that the threads of a mask read among these sources (R405). -/
def Crew.badSource (c : Crew) (mask : Nat) (srcs : List SrcReg) : Option Nat :=
  if c.regErr = [] then none
  else
    ((bitList c.width mask).flatMap (fun t => srcs.filterMap (fun r =>
      match r with
      | .v k => if 256 * t + k ∈ c.regErr then some k else none
      | _ => none))).head?

/-! ### Operand values -/

/-- The value of n registers from f on in a thread, lowest bits first (R108). -/
def Crew.vreg (c : Crew) (t f : Nat) : Nat → Nat
  | 0 => 0
  | n + 1 => (mget 0 c.v (256 * t + f)).toNat + 2 ^ 32 * c.vreg t (f + 1) n

def Crew.ureg (c : Crew) (r : Nat) : Nat := (mget 0 c.u r).toNat

/-- The threads of a crew that participate in an instruction of a path (R115). -/
def Crew.active (c : Crew) (i : Inst) (mask : Nat) : Nat :=
  let p := c.pred i.guard
  mask &&& (if i.gneg then c.allMask - (p &&& c.allMask) else p)

/-- How a 16-bit immediate stands for an operand (R118): sign-extended, or the top bits of a float, or both halves. -/
inductive ImmKind where
  | int
  | top
  | both
  deriving DecidableEq, Repr

def immValue (k : ImmKind) (imm n : Nat) : Nat :=
  match k with
  | .int => toMod (sext imm 16) (32 * n)
  | .top => imm * 2 ^ (32 * n - 16)
  | .both => imm + 65536 * imm

/-- Operand A of a thread as n registers, or the uniform register for `UNI`. -/
def Crew.opA (c : Crew) (i : Inst) (t n : Nat) : Nat := c.vreg t i.a n

/-- Operand B of a thread as n registers (R116, R118). -/
def Crew.opB (c : Crew) (i : Inst) (k : ImmKind) (t n : Nat) : Nat :=
  if i.long then i.w1 % 2 ^ (32 * n)
  else if i.i16 then immValue k i.imm16 n
  else if i.bu then c.ureg i.b % 2 ^ (32 * n)
  else c.vreg t i.b n

/-- Operand C of a thread as n registers. -/
def Crew.opC (c : Crew) (i : Inst) (t n : Nat) : Nat :=
  if i.cu then c.ureg i.c % 2 ^ (32 * n) else c.vreg t i.c n

/-- Operand B of a `UNI` instruction. -/
def Crew.opBU (c : Crew) (i : Inst) : Nat :=
  if i.long then i.w1 else if i.i16 then immValue .int i.imm16 2 else c.ureg i.b

/-- The writes of an n-register result of a thread; `NODST` discards it (R107). -/
def vWrites (t d : Nat) : Nat → Nat → List RegWrite
  | 0, _ => []
  | n + 1, x => if d = 255 then [] else .v t d (BitVec.ofNat 32 x) :: vWrites t (d + 1) n (x / 2 ^ 32)

/-! ### Latency (Table 4-12) -/

/-- Table 4-12 by the crew's width index 0, 1, 2. -/
def pick3 (k a b c : Nat) : Nat := if k = 0 then a else if k = 1 then b else c

/-- Strokes until an instruction's result can be used, counted from its issue; for memory the least figure (R137). -/
def Inst.latency (i : Inst) (width : Nat) : Nat :=
  let k := if width = 16 then 0 else if width = 32 then 1 else 2
  match i.cls with
  | 0x1 =>
    let divides := decide (i.op = 0x13 ∨ i.op = 0x14)
    let mult := decide (i.op = 0x02 ∨ i.op = 0x03 ∨ i.op = 0x04)
    if i.uni then (if divides then 37 else 4)
    else if divides then (if i.w64 then pick3 k 43 51 67 else pick3 k 23 27 35)
    else if mult then (if i.w64 then pick3 k 11 15 23 else pick3 k 6 7 9)
    else if i.w64 then pick3 k 5 7 11 else pick3 k 4 5 7
  | 0x2 => if i.op < 6 then pick3 k 8 9 11 else pick3 k 43 51 67
  | 0x3 => if i.op < 6 then pick3 k 6 6 7 else if i.op < 8 then pick3 k 23 27 35 else pick3 k 13 17 25
  | 0x4 => pick3 k 6 6 7
  | 0x5 =>
    if i.op = 1 ∨ (i.srcFmt < 8 ∧ i.dstFmt < 8) then pick3 k 6 7 9
    else if 13 ≤ i.srcFmt ∨ 13 ≤ i.dstFmt then pick3 k 13 15 19 else pick3 k 7 9 13
  | 0x6 => pick3 k 4 5 7
  | 0x8 =>
    if i.op = 2 then 32
    else
      let busy := pick3 k 1 2 4
      let extra := if i.size = 3 then busy else if i.size = 4 then 3 * busy else 0
      (if i.space = 2 then pick3 k 20 21 23 else pick3 k 32 33 35) + extra
  | 0x9 => if i.space = 2 then pick3 k 25 27 31 else 0
  | 0xB =>
    if i.op ≤ 3 then pick3 k 8 9 11 else if i.op ≤ 6 then pick3 k 4 5 7 else pick3 k 10 11 13
  | 0xE => if i.op = 2 then 4 else pick3 k 4 5 7
  | _ => 0

end Sys2Proof.Machine
end

