-- ==== Sys2Proof/Machine/ThreadAlu.lean ====
section
/-! DEFINITION. What the arithmetic thread instructions compute (04_thread_instruction_set.md R120 to R124, R132, R112): an
instruction at issue, how results and flags are delivered, and the operations of the register classes. -/

namespace Sys2Proof.Machine

open Sys2Proof

/-- An instruction at issue: its crew, the path, the mask of participating threads (R115), and the launch's options. -/
structure Issue where
  core : Nat
  key : Nat
  x : Crew
  pc : Nat
  mask : Nat
  act : Nat
  i : Inst
  options : Nat
  pair : Nat
  deriving DecidableEq, Repr

def Issue.threads (z : Issue) : List Nat := bitList z.x.width z.act

/-- The lowest-numbered thread of the path. -/
def Issue.lead (z : Issue) : Nat := (bitList z.x.width z.mask).headD 0

/-- The address of the following instruction. -/
def Issue.next (z : Issue) : Nat := (z.pc + z.i.bytes) % 2 ^ 64

/-- The instruction has issued: what the core's counters see of it (Table 17-3). -/
def State.issued (s : State) (z : Issue) : State :=
  (((s.wakeGal (galleryOf z.core)).count z.core 0x0B 1 z.pair 1).count z.core 0x0C 1 z.pair z.threads.length).count z.core 0x0D 1 z.pair
    (b2n (decide (z.i.cls = 2)))

/-- A crew fault at this instruction, for a stated address and thread. -/
def State.trap (s : State) (z : Issue) (code addr thread : Nat) : State :=
  (s.issued z).crewFault z.core z.key ⟨code, addr, z.pc, z.mask, thread⟩

/-- A crew fault that concerns no address: its record holds 0 (Table 17-9). -/
def State.trapAt (s : State) (z : Issue) (code thread : Nat) : State := s.trap z code 0 thread

/-- The instruction has executed: its path goes on behind it, its flags are set, and its results are on their way (R79,
R111). -/
def State.finish (s : State) (z : Issue) (writes : List RegWrite) (flags : Nat) (load : Bool := false) : State :=
  let clock := (s.core z.core).clock
  (s.issued z).modCrew z.core z.key (fun c => { c with
    path := some (z.next, z.mask)
    flags := c.flags ||| flags
    seq := if writes = [] then c.seq else c.seq + 1
    outs := if writes = [] then c.outs
            else c.outs ++ [{ seq := c.seq, writes, load, due := clock + z.i.latency z.x.width }] })

/-- The instruction has executed and has no result. -/
def State.advance (s : State) (z : Issue) : State := s.finish z [] 0

/-- A result of n registers in every participating thread, with flags that may trap (R101, R136). -/
def State.perThread (s : State) (z : Issue) (n : Nat) (f : Nat → Nat × Nat) : State :=
  let rs := z.threads.map (fun t => (t, f t))
  match rs.find? (fun r => traps z.options r.2.2) with
  | some r => s.trapAt z 0x05 r.1
  | none => s.finish z (rs.flatMap (fun r => vWrites r.1 z.i.d n r.2.1)) (rs.foldl (fun m r => m ||| r.2.2) 0)

/-- A predicate in every participating thread. -/
def State.perThreadPred (s : State) (z : Issue) (f : Nat → Bool × Nat) : State :=
  let rs := z.threads.map (fun t => (t, f t))
  match rs.find? (fun r => traps z.options r.2.2) with
  | some r => s.trapAt z 0x05 r.1
  | none =>
    s.finish z (if z.i.d = 7 ∨ z.act = 0 then [] else [.p z.i.d z.act (maskOf ((rs.filter (fun r => r.2.1)).map (·.1)))])
      (rs.foldl (fun m r => m ||| r.2.2) 0)

/-- A uniform result. -/
def State.uniform (s : State) (z : Issue) (x : Nat) : State := s.finish z [.u z.i.d (BitVec.ofNat 64 x)] 0

/-! ### Integer (class 0x1, R120) -/

/-- R120's divide: quotient and remainder of n-bit operands. -/
def divide (n : Nat) (sgn : Bool) (a b : Nat) : Nat × Nat :=
  if b = 0 then (2 ^ n - 1, a)
  else if sgn then
    let x := sext a n
    let y := sext b n
    if x = -(2 ^ (n - 1) : Int) ∧ y = -1 then (a, 0)
    else (toMod (x.tdiv y) n, toMod (x - x.tdiv y * y) n)
  else (a / b, a % b)

/-- R120's bit-field extract. -/
def bfe (n : Nat) (sgn : Bool) (a b : Nat) : Nat :=
  let len := b / 256 % 256
  let f := bits a (b % 256) len
  if sgn && decide (0 < len) then toMod (sext f len) n else f % 2 ^ n

/-- R120's bit-field insert. -/
def bfi (n a b c : Nat) : Nat :=
  let pos := b % 256
  let stop := min (pos + b / 256 % 256) n
  if stop ≤ pos then c else setBits c pos (stop - pos) a

/-- One integer operation of Table 4-9 on n-bit operands. -/
def intOp (op n : Nat) (sgn : Bool) (a b c : Nat) : Nat :=
  let m := 2 ^ n
  let less := if sgn then decide (sext a n < sext b n) else decide (a < b)
  match op with
  | 0x00 => (a + b) % m
  | 0x01 => (a + m - b) % m
  | 0x02 => a * b % m
  | 0x03 => if sgn then toMod (sext a n * sext b n / (m : Int)) n else a * b / m
  | 0x04 => (a * b + c) % m
  | 0x05 => if less then a else b
  | 0x06 => if less then b else a
  | 0x07 => (sext a n).natAbs % m
  | 0x08 => a &&& b
  | 0x09 => a ||| b
  | 0x0A => a ^^^ b
  | 0x0B => a &&& (m - 1 - b)
  | 0x0C => a * 2 ^ (b % n) % m
  | 0x0D => if sgn then toMod (sext a n / ((2 ^ (b % n) : Nat) : Int)) n else a / 2 ^ (b % n)
  | 0x0E => popcount n a
  | 0x0F => n - bitLen a
  | 0x10 => bitReverse n a
  | 0x11 => bfe n sgn a b
  | 0x12 => bfi n a b c
  | 0x13 => (divide n sgn a b).1
  | _ => (divide n sgn a b).2

/-- An integer instruction: per thread, or once on uniform registers. -/
def State.intClass (s : State) (z : Issue) : State :=
  let i := z.i
  if i.uni then s.uniform z (intOp i.op 64 i.sgnI (z.x.ureg i.a) (z.x.opBU i) (z.x.ureg i.c))
  else
    let n := if i.w64 then 2 else 1
    s.perThread z n (fun t =>
      (intOp i.op (32 * n) i.sgnI (z.x.opA i t n) (z.x.opB i .int t n) (z.x.opC i t n), 0))

/-! ### Floating point (classes 0x2 to 0x4, R121) -/

/-- The modifiers of a floating-point instruction (Table 4-7). -/
def Inst.modifiers (i : Inst) : Mods := ⟨bit i.w 53, bit i.w 54, bit i.w 55, bit i.w 56, bit i.w 57⟩

def State.fpClass (s : State) (z : Issue) (f : Fmt) : State :=
  let i := z.i
  let n := f.width / 32
  s.perThread z n (fun t =>
    fpResult f z.options i.op i.rm i.modifiers (z.x.opA i t n) (z.x.opB i .top t n) (z.x.opC i t n))

def State.halfClass (s : State) (z : Issue) : State :=
  let i := z.i
  s.perThread z 1 (fun t =>
    halfResult (if bit i.w 58 then bf16 else fp16) z.options i.op i.rm i.modifiers (z.x.opA i t 1) (z.x.opB i .both t 1)
      (z.x.opC i t 1))

/-! ### Conversion (class 0x5, R122, R123) -/

/-- An exactly representable datum in a format. -/
def Fmt.ofFp (f : Fmt) : Fp → Nat
  | .nan _ => f.qnan
  | .inf n => f.infinity n
  | .zero n => f.nought n
  | .fin n m e => (f.round 0 n m e).1

/-- Places n elements of w bits, the first lowest. -/
def packBits (w : Nat) : List Nat → Nat
  | [] => 0
  | x :: xs => x % 2 ^ w + 2 ^ w * packBits w xs

/-- FP32 to a packed short format. -/
def packShort (code a : Nat) : Nat :=
  match shortOf code with
  | some h => packBits h.width ((List.range (if code = 12 then 8 else 4)).map (fun k => h.encode code (bits a (32 * k) 32)))
  | none => 0

/-- A packed short format to FP32. -/
def unpackShort (code a : Nat) : Nat :=
  match shortOf code with
  | some h =>
    packBits 32 ((List.range (if code = 12 then 8 else 4)).map (fun k => fp32.ofFp (h.unpack (bits a (h.width * k) h.width))))
  | none => 0

/-- The four elements of a thread's FP32 quad or BF16 pair. -/
def blockElems (srcFmt a : Nat) : List Fp :=
  (List.range 4).map (fun k => if srcFmt = 5 then fp32.unpack (bits a (32 * k) 32) else bf16.unpack (bits a (16 * k) 16))

/-- To MX (R123): the block of a thread's group of eight, threads that do not participate adding zeros. -/
def State.toMx (s : State) (z : Issue) : State :=
  let i := z.i
  let eight := decide (i.dstFmt = 13)
  s.perThread z 2 (fun t =>
    let es := (List.range 8).flatMap (fun j =>
      let u := t / 8 * 8 + j
      if bit z.act u then blockElems i.srcFmt (z.x.opA i u (if i.srcFmt = 5 then 4 else 2)) else List.replicate 4 (.zero false))
    let (scale, q, _, _) := mxEncode es eight
    let mine := ((q.drop (4 * (t % 8))).take 4).map (fun v => toMod v 8)
    (packBits (if eight then 8 else 4) mine + 2 ^ 32 * scale, 0))

/-- From MX (R122): each thread's own scale register. -/
def State.fromMx (s : State) (z : Issue) : State :=
  let i := z.i
  let eight := decide (i.srcFmt = 13)
  let w := if eight then 8 else 4
  let f := if i.dstFmt = 5 then fp32 else bf16
  s.perThread z (if i.dstFmt = 5 then 4 else 2) (fun t =>
    let a := z.x.opA i t 1
    let scale := z.x.vreg t i.b 1 % 256
    (packBits f.width ((List.range 4).map (fun k => mxDecode f (sext (bits a (w * k) w) w) scale eight)), 0))

/-- Class 0x5: `CVT` (operation 0) and `FRND`. -/
def State.convertClass (s : State) (z : Issue) : State :=
  let i := z.i
  if i.op = 1 then
    let f := floatOf i.srcFmt
    let n := scalarRegs i.srcFmt
    s.perThread z n (fun t => f.integral i.rm (z.x.opA i t n % 2 ^ f.width))
  else if i.srcFmt < 8 ∧ i.dstFmt < 8 then
    s.perThread z (scalarRegs i.dstFmt) (fun t => scalarConvert i.srcFmt i.dstFmt i.rm (z.x.opA i t (scalarRegs i.srcFmt)))
  else if 13 ≤ i.dstFmt then s.toMx z
  else if 13 ≤ i.srcFmt then s.fromMx z
  else if i.srcFmt = 5 then
    s.perThread z 1 (fun t => (packShort i.dstFmt (z.x.opA i t (if i.dstFmt = 12 then 8 else 4)), 0))
  else s.perThread z (if i.srcFmt = 12 then 8 else 4) (fun t => (unpackShort i.srcFmt (z.x.opA i t 1), 0))

/-! ### Compare and select (class 0x6, R124) -/

def State.compareClass (s : State) (z : Issue) : State :=
  let i := z.i
  let x := z.x
  match i.op with
  | 0x00 =>
    let n := if i.w64C then 2 else 1
    let num := fun (v : Nat) => if i.sgnC then sext v (32 * n) else (v : Int)
    s.perThreadPred z (fun t => (intCompare i.cc (num (x.opA i t n)) (num (x.opB i .int t n)), 0))
  | 0x01 => s.perThreadPred z (fun t => fpCompare fp64 z.options i.cc (x.opA i t 2) (x.opB i .top t 2))
  | 0x02 => s.perThreadPred z (fun t => fpCompare fp32 z.options i.cc (x.opA i t 1) (x.opB i .top t 1))
  | 0x03 =>
    let n := if i.w64C then 2 else 1
    s.perThread z n (fun t => (if bit (x.pred (i.c % 8)) t then x.opA i t n else x.opB i .int t n, 0))
  | _ =>
    s.perThreadPred z (fun t =>
      (bit i.cc (2 * b2n (bit (x.pred (i.a % 8)) t) + b2n (bit (x.pred (i.b % 8)) t)), 0))

/-! ### Shuffles and votes (class 0xB, R132) -/

/-- The thread that thread t reads in a shuffle by b; itself where that thread does not participate. -/
def shuffleSource (op seg act t b : Nat) : Nat :=
  let n := 2 ^ (seg + 1)
  let base := t - t % n
  let src :=
    match op with
    | 0 => base + b % n
    | 1 => if t < base + b then t else t - b
    | 2 => if base + n ≤ t + b then t else t + b
    | _ => base + ((t - base) ^^^ (b % n))
  if bit act src then src else t

/-- `REDUX` over the values of the participating threads. -/
def reduce (op : Nat) (sgn : Bool) (vs : List Nat) : Nat :=
  let num := fun (v : Nat) => if sgn then sext v 32 else (v : Int)
  let top : Int := if sgn then 0x7FFFFFFF else 0xFFFFFFFF
  let low : Int := if sgn then -0x80000000 else 0
  match op with
  | 7 => toMod ((vs.map num).foldl (· + ·) 0) 64
  | 8 => toMod ((vs.map num).foldl min top) 64
  | _ => toMod ((vs.map num).foldl max low) 64

def State.shuffleClass (s : State) (z : Issue) : State :=
  let i := z.i
  let x := z.x
  let held := x.pred (i.a % 8) &&& z.act
  match i.op with
  | 0x04 => s.perThreadPred z (fun _ => (decide (held ≠ 0), 0))
  | 0x05 => s.perThreadPred z (fun _ => (decide (held = z.act), 0))
  | 0x06 => s.uniform z held
  | 0x0A => s.uniform z (match z.threads with | t :: _ => x.opA i t 1 | [] => 0)
  | op =>
    if op ≤ 3 then
      s.perThread z 1 (fun t => (x.opA i (shuffleSource op i.seg z.act t (x.opB i .int t 1)) 1, 0))
    else s.uniform z (reduce op i.sgnX (z.threads.map (fun t => x.opA i t 1)))

/-! ### System (class 0xE, R112) -/

/-- The value of a special register for a thread (Tables 3-3, 4-1), given the clock and the time read with it. -/
def specialReg (s : State) (z : Issue) (n t clock time : Nat) : Nat :=
  let l := (s.launch z.x.launch).getD ⟨0, 0, 0, 0, 1, 1, 1, 1, [], 0, 0, 0, 0, 0, 0, 0, none, 0, [], false, []⟩
  match n with
  | 0x00 => t
  | 0x01 => z.x.idx % l.gx
  | 0x02 => z.x.idx / l.gx % l.gy
  | 0x03 => z.x.idx / l.gx / l.gy
  | 0x04 => l.gx
  | 0x05 => l.gy
  | 0x06 => l.gz
  | 0x07 => z.x.width
  | 0x08 => z.core
  | 0x09 => s.pcore (s.ctx z.x.ctx).part z.core
  | 0x0A => z.key / 48
  | 0x0B => z.key % 48
  | 0x0C => z.x.scratchBase
  | 0x0D => clock
  | 0x0E => time
  | 0x0F => z.x.flags
  | 0x10 => z.x.bb
  | 0x11 => z.x.lstatus
  | 0x12 => z.x.lgen
  | 0x13 => z.pc
  | _ => z.mask

/-- `RDS`. -/
def State.readSpecial (s : State) (z : Issue) : State :=
  let n := z.i.b
  let (s, clock) := if n = 0x0D then s.sampleClock z.core else (s, 0)
  let (s, time) := if n = 0x0E then s.sample else (s, 0)
  s.perThread z ((srRegs n).getD 1) (fun t => (specialReg s z n t clock time, 0))

/-- `WRS` of `FPFLAGS`: the value of the lowest-numbered participating thread. -/
def State.writeFlags (s : State) (z : Issue) : State :=
  match z.threads with
  | t :: _ => (s.advance z).modCrew z.core z.key (fun c => { c with flags := z.x.opA z.i t 1 % 32 })
  | [] => s.advance z

/-- `MOV`. -/
def State.move (s : State) (z : Issue) : State :=
  let i := z.i
  let n := if i.w64 then 2 else 1
  s.perThread z n (fun t => (if i.long || i.i16 || i.bu then z.x.opB i .int t n else z.x.opA i t n, 0))

/-- `UMOV`. -/
def State.umove (s : State) (z : Issue) : State :=
  let i := z.i
  s.uniform z (if i.long || i.i16 then z.x.opBU i else z.x.ureg i.a)

end Sys2Proof.Machine
end

