-- ==== Sys2Proof/Machine/ThreadMem.lean ====
section
/-! DEFINITION. Memory thread instructions (04_thread_instruction_set.md R126 to R130, R134; 08 R209 to R214, R224):
effective addresses, the checks of R136 in their order, loads, stores, atomics and cache control. -/

namespace Sys2Proof.Machine

open Sys2Proof

/-! ### Effective addresses (R126, R127) -/

/-- Bytes of an access. -/
def Inst.accessBytes (i : Inst) : Nat := 2 ^ i.size

/-- The effective address of a thread. -/
def Issue.ea (z : Issue) (t : Nat) : Nat :=
  let i := z.i
  let base := if i.au then z.x.ureg i.a else z.x.vreg t i.a (if i.space = 2 then 1 else 2)
  let off : Int :=
    if i.long then (i.w1 : Int)
    else if i.cls = 9 ∧ i.op = 7 then 0
    else sext i.c 8 * (i.accessBytes : Int)
  toMod ((base : Int) + off) 64

/-- What an effective address names: a virtual address, a scratch address, or neither. -/
inductive Place where
  | global (va : Nat)
  | scratch (sa : Nat)
  | badGlobal
  | badScratch
  deriving DecidableEq, Repr

/-- R126. -/
def placeOf (space ea : Nat) : Place :=
  let top := ea / 2 ^ 48
  match space with
  | 0 =>
    if top = 0 then .global ea
    else if top = 0xFFFE ∧ bits ea 19 29 = 0 then .scratch (ea % 2 ^ 19)
    else .badGlobal
  | 1 => if top = 0 then .global ea else .badGlobal
  | _ => if ea % 2 ^ 32 < 0x80000 then .scratch (ea % 2 ^ 32) else .badScratch

/-- Whether an access lies in a prefetch-only area of the core (R63). -/
def Core.inStaging (k : Core) (sa n : Nat) : Bool :=
  k.staging.any (fun a => decide (a.base ≤ sa) && decide (sa + n ≤ a.base + a.size))

/-- Whether a scratch access of a crew is allowed (R127); a load may also lie in a prefetch-only area. -/
def scratchOk (k : Core) (x : Crew) (load : Bool) (sa n : Nat) : Bool :=
  (decide (x.scratchBase ≤ sa) && decide (sa + n ≤ x.scratchBase + x.scratchSize)) || (load && k.inStaging sa n)

/-- One access of a thread: its thread, effective address and place, the physical address where it is global, and the code and address of
the fault of its translation, if any. -/
structure Acc where
  t : Nat
  ea : Nat
  place : Place
  pa : Nat := 0
  bad : Option (Nat × Nat) := none
  deriving DecidableEq, Repr

/-- Whether an access faults with SCRATCH_BOUNDS. -/
def Acc.outOfBounds (a : Acc) (k : Core) (x : Crew) (load : Bool) (n : Nat) : Bool :=
  match a.place with
  | .badScratch => true
  | .scratch sa => !scratchOk k x load sa n
  | _ => false

/-- The first access that meets MISALIGNED or SCRATCH_BOUNDS, in the order of R136, with its code. -/
def firstBad (k : Core) (x : Crew) (load : Bool) (n : Nat) (as : List Acc) : Option (Nat × Acc) :=
  match as.find? (fun a => decide (a.ea % n ≠ 0)) with
  | some a => some (0x02, a)
  | none => (as.find? (fun a => a.outOfBounds k x load n)).map (fun a => (0x0C, a))

/-- The requester that a crew is: its core's translation cache and L1. -/
def Issue.requester (z : Issue) (na : Bool) : Requester := { cache := z.core, master := .crew z.core na, ctx := z.x.ctx }

/-- What a walk that meets poison means for an access: POISON for loads and atomics; Table 4-11 gives stores no POISON, so a store has
failed to translate (log entry 38). -/
def Acc.walkPoison (a : Acc) (p : Perm) (addr : Nat) : Acc :=
  { a with bad := some (if p.r then (0x04, addr) else (0x03, a.ea)) }

/-- Translates every global access, noting what each meets (R136); none while a walk is held at a segment line in repair (R298). -/
def State.xlateAll (s : State) (who : Reader) (w : Requester) (p : Perm) (acc : List Acc) : List Acc → State × Option (List Acc)
  | [] => (s, some acc)
  | a :: as =>
    match a.place with
    | .global va =>
      match s.xlate w va p with
      | (s, .ok pa) => s.xlateAll who w p (acc ++ [{ a with pa }]) as
      | (s, .fault) => s.xlateAll who w p (acc ++ [{ a with bad := some (0x03, a.ea) }]) as
      | (s, .poison addr) => s.xlateAll who w p (acc ++ [a.walkPoison p addr]) as
      | (s, .held g line) =>
        if s.readExpired who g line then s.xlateAll who w p (acc ++ [a.walkPoison p (segAddr g line)]) as
        else (s.holdRead who g line, none)
    | .badGlobal => s.xlateAll who w p (acc ++ [{ a with bad := some (0x03, a.ea) }]) as
    | _ => s.xlateAll who w p (acc ++ [a]) as

/-- The fault that is reported of several: TRANSLATION before POISON, of the lowest-numbered thread that meets it (R136); the accesses stand
in thread order. -/
def firstFault (as : List Acc) : Option (Nat × Nat × Nat) :=
  let of := fun (code : Nat) => as.findSome? (fun a =>
    match a.bad with
    | some (c, addr) => if c = code then some (c, addr, a.t) else none
    | none => none)
  match of 0x03 with
  | some f => some f
  | none => of 0x04

/-! ### Scratch -/

/-- The 8-byte words of scratch that an access touches and that are poisoned (R214). -/
def Core.scratchPoisoned (k : Core) (sa n : Nat) : Bool :=
  k.scratchPoison.any (fun w => decide (sa / 8 ≤ w) && decide (w ≤ (sa + n - 1) / 8))

def Core.scratchRead (k : Core) (sa n : Nat) : List Byte := (List.range n).map (fun i => mget 0 k.scratch ((sa + i) % 0x80000))

/-- Whether runs of scratch bytes (address, bytes) write all 8 bytes of a word. -/
def wordCovered (runs : List (Nat × List Byte)) (w : Nat) : Bool :=
  (List.range 8).all (fun i => runs.any (fun r => decide (r.1 ≤ 8 * w + i) && decide (8 * w + i < r.1 + r.2.length)))

/-- One access writes runs of bytes to scratch, in their order; a word of which it writes all 8 bytes is no longer poisoned (R214). -/
def Core.scratchStore (k : Core) (runs : List (Nat × List Byte)) : Core :=
  { k with
    scratch := writeRuns k.scratch 0 runs
    scratchPoison := k.scratchPoison.filter (fun w => !wordCovered runs w)
    scratchSoft := k.scratchSoft.filter (fun w => !wordCovered runs w) }

def Core.scratchWrite (k : Core) (sa : Nat) (bs : List Byte) : Core := k.scratchStore [(sa, bs)]

/-- A read of scratch corrects the single-bit errors of the words that it touches, and counts each (R214, R403). -/
def State.scratchCorrect (s : State) (core sa n : Nat) : State :=
  let hit := (s.core core).scratchSoft.filter (fun w => decide (sa / 8 ≤ w) && decide (w ≤ (sa + n - 1) / 8))
  if hit = [] then s
  else hit.foldl (fun s _ => s.rasCorrected 0x01 core (s.reachOf (s.partOfCore core)))
    (s.modCore core (fun k => { k with scratchSoft := k.scratchSoft.filter (fun w => decide (w ∉ hit)) }))

/-- The banks of scratch that accesses use (R209). -/
def banksOf (as : List Acc) : List Nat :=
  as.filterMap (fun a => match a.place with | .scratch sa => some (sa / 128 % 32) | _ => none)

/-- Whether the cox stream takes a bank of one of the accesses in this stroke (R211). -/
def Core.collides (k : Core) (as : List Acc) : Bool := (banksOf as).any (fun b => decide (b ∈ k.seq.banks))

/-! ### Reading all accesses -/

/-- What reading all accesses of an instruction brings. -/
inductive Reads where
  | data (ds : List (Acc × List Byte))
  | fault (code addr t : Nat)
  | held (seg line : Nat)
  deriving DecidableEq, Repr

/-- Reads every access, thread by thread; TRANSLATION comes before POISON (R136). `seen` lists the lines that the instruction has been served
with and that its L1 does not hold: they are not requested again. -/
def State.readAll (s : State) (z : Issue) (m : Master) (n : Nat) (seen : List Nat) (acc : List (Acc × List Byte)) :
    List Acc → State × Reads
  | [] => (s, match firstFault (acc.map (·.1)) with | some (c, a, t) => .fault c a t | none => .data acc)
  | a :: as =>
    let bad := fun (code addr : Nat) => acc ++ [({ a with bad := some (code, addr) }, [])]
    let q := (s.ctx z.x.ctx).part
    if a.bad.isSome then s.readAll z m n seen (acc ++ [(a, [])]) as
    else
      match a.place with
      | .global _ =>
        let line := lineKey q a.pa
        let once := !(s.core z.core).l1Hit line && (s.cellOf q a.pa).isSome
        match (if line ∈ seen then (s, s.lineGives q a.pa n) else s.paRead m q z.x.ctx a.pa n) with
        | (s, .ok bs) => s.readAll z m n (if once then line :: seen else seen) (acc ++ [(a, bs)]) as
        | (s, .trans _) => s.readAll z m n seen (bad 0x03 a.ea) as
        | (s, .poison addr) => s.readAll z m n (if once then line :: seen else seen) (bad 0x04 addr) as
        | (s, .held g ln) =>
          if s.readExpired (.crew z.core z.key) g ln then s.readAll z m n seen (bad 0x04 (a.pa / 128 * 128)) as
          else (s, .held g ln)
      | .scratch sa =>
        let own := scratchOk (s.core z.core) z.x false sa n
        let s := if own then s.scratchCorrect z.core sa n else s
        let k := s.core z.core
        if own && k.scratchPoisoned sa n then s.readAll z m n seen (bad 0x04 a.ea) as
        else s.readAll z m n seen (acc ++ [(a, if own then k.scratchRead sa n else zeros n)]) as
      | _ => s.readAll z m n seen (acc ++ [(a, [])]) as

/-! ### The checks before an access -/

/-- Whether a global access names nothing that can be written (R290, R297). -/
def State.unwritable (s : State) (q : Nat) (a : Acc) : Bool :=
  match a.place with
  | .global _ =>
    match s.locate q a.pa with
    | .hbm _ => false
    | .host _ => false
    | _ => true
  | _ => false

/-- What an access instruction may do after its checks: fault, be tried again, wait, or go on with translated accesses. -/
inductive Checked where
  | fault (code addr t : Nat)
  | retry
  | wait
  | go (as : List Acc)
  deriving DecidableEq, Repr

/-- MISALIGNED and SCRATCH_BOUNDS over every participating thread, then the translations, whose faults the accesses carry, then bank
collisions. An access that writes fails with TRANSLATION where nothing can be written. -/
def State.checkAccess (s : State) (z : Issue) (w : Requester) (load : Bool) (p : Perm) (ts : List Nat) : State × Checked :=
  let n := z.i.accessBytes
  let as := ts.map (fun t => let ea := z.ea t; ({ t, ea, place := placeOf z.i.space ea } : Acc))
  let k := s.core z.core
  match firstBad k z.x load n as with
  | some (code, a) => (s, .fault code a.ea a.t)
  | none =>
    match s.xlateAll (.crew z.core z.key) w p [] as with
    | (s, none) => (s, .wait)
    | (s, some as) =>
      let q := (s.ctx z.x.ctx).part
      let as := as.map (fun a => if p.w && a.bad.isNone && s.unwritable q a then { a with bad := some (0x03, a.ea) } else a)
      if as.all (fun a => a.bad.isNone) && k.collides as then (s, .retry) else (s, .go as)

/-- The crew's access is presented again in a later stroke (R211). -/
def State.setRetry (s : State) (z : Issue) : State :=
  (s.count z.core 0x0E 1 z.pair 1).modCrew z.core z.key (fun c => { c with retry := true })

/-! ### Loads and stores -/

/-- A loaded value: sub-word loads are extended to 32 bits (R128). -/
def loadValue (i : Inst) (bs : List Byte) : Nat :=
  let v := ofBytes bs
  if i.sgnM then toMod (sext v (8 * bs.length)) 32 else v

/-- The distinct lines of global loads. -/
def linesOf (q : Nat) (as : List Acc) : List Nat :=
  (as.filterMap (fun a => match a.place with | .global _ => some (lineKey q a.pa) | _ => none)).eraseDups

/-- Counts global loads by their outcome in the L1 data cache (Table 17-3), line by line. -/
def State.countL1 (s : State) (z : Issue) (as : List Acc) : State :=
  let ls := linesOf (s.ctx z.x.ctx).part as
  let hits := (ls.filter (fun l => decide (l ∈ (s.core z.core).l1))).length
  (s.count z.core 0x0F 1 z.pair hits).count z.core 0x10 1 z.pair (ls.length - hits)

/-- `LD` (R126 to R128). -/
def State.load (s : State) (z : Issue) : State :=
  let w := z.requester z.i.na
  match s.checkAccess z w true { r := true } z.threads with
  | (s, .fault c a t) => s.trap z c a t
  | (s, .retry) => s.setRetry z
  | (s, .wait) => s
  | (s, .go as) =>
    let s := s.countL1 z as
    match s.readAll z w.master z.i.accessBytes [] [] as with
    | (s, .fault c a t) => (s.dropHeld (.crew z.core z.key)).trap z c a t
    | (s, .held g line) => s.holdRead (.crew z.core z.key) g line
    | (s, .data ds) =>
      (s.dropHeld (.crew z.core z.key)).finish z
        (ds.flatMap (fun d => vWrites d.1.t z.i.d (sizeRegs z.i.size) (loadValue z.i d.2))) 0 true

/-- `LDU`: one load into a uniform register, whatever the number of active threads. -/
def State.loadUniform (s : State) (z : Issue) : State :=
  let w := z.requester z.i.na
  match s.checkAccess z w true { r := true } [z.lead] with
  | (s, .fault c a t) => s.trap z c a t
  | (s, .retry) => s.setRetry z
  | (s, .wait) => s
  | (s, .go as) =>
    let s := s.countL1 z as
    match s.readAll z w.master 8 [] [] as with
    | (s, .fault c a t) => (s.dropHeld (.crew z.core z.key)).trap z c a t
    | (s, .held g line) => s.holdRead (.crew z.core z.key) g line
    | (s, .data ds) =>
      let v := match ds with | d :: _ => ofBytes d.2 | [] => 0
      (s.dropHeld (.crew z.core z.key)).finish z [.u z.i.d (BitVec.ofNat 64 v)] 0 true

/-- Writes one access. -/
def State.writeAcc (s : State) (z : Issue) (a : Acc) (bs : List Byte) : State :=
  let q := (s.ctx z.x.ctx).part
  match a.place with
  | .global _ =>
    match s.locate q a.pa with
    | .hbm _ => s.homeWrite q a.pa [(a.pa % 128, bs)]
    | .host addr => s.hostWrite (s.fnOf q) z.x.ctx addr bs
    | _ => s
  | .scratch sa => s.modCore z.core (fun k => k.scratchWrite sa bs)
  | _ => s

/-- The line of a region that an access names, if it names one. -/
def State.regionLine (s : State) (q : Nat) (a : Acc) : Option Nat :=
  match a.place with
  | .global _ => (match s.locate q a.pa with | .hbm _ => some (a.pa / 128) | _ => none)
  | _ => none

/-- The stores of one instruction, in ascending thread order, so that the highest-numbered thread's bytes remain (R128): each line of a region
is written by one message (R233), scratch by one access (R214), and host memory thread by thread. -/
def State.storeAll (s : State) (z : Issue) (ws : List (Acc × List Byte)) : State :=
  let q := (s.ctx z.x.ctx).part
  let lines := (ws.filterMap (fun w => s.regionLine q w.1)).eraseDups
  let t := lines.foldl (fun t l => t.lineStore (.crew z.core true) q (l * 128)
    ((ws.filter (fun w => decide (s.regionLine q w.1 = some l))).map (fun w => (w.1.pa % 128, w.2)))) s
  let runs := ws.filterMap (fun w => match w.1.place with | .scratch sa => some (sa, w.2) | _ => none)
  let t := if runs = [] then t else t.modCore z.core (fun k => k.scratchStore runs)
  (ws.filter (fun w => match w.1.place with | .global _ => (s.regionLine q w.1).isNone | _ => false)).foldl
    (fun t w => t.writeAcc z w.1 w.2) t

/-- `ST` (R126 to R128). -/
def State.store (s : State) (z : Issue) : State :=
  let w := z.requester false
  let n := z.i.accessBytes
  match s.checkAccess z w false { w := true } z.threads with
  | (s, .fault c a t) => s.trap z c a t
  | (s, .retry) => s.setRetry z
  | (s, .wait) => s
  | (s, .go as) =>
    let s := s.dropHeld (.crew z.core z.key)
    match firstFault as with
    | some (c, a, t) => s.trap z c a t
    | none => (s.storeAll z (as.map (fun a => (a, toBytes n (z.x.vreg a.t z.i.b (sizeRegs z.i.size)))))).advance z

/-! ### Atomics (R129, R130) -/

/-- The new value of an n-byte word under an atomic operation of Table 4-9; none where it writes nothing. -/
def atomicOp (op n : Nat) (sgn : Bool) (old b c : Nat) : Option Nat :=
  let m := 2 ^ (8 * n)
  let less := if sgn then decide (sext b (8 * n) < sext old (8 * n)) else decide (b < old)
  match op with
  | 0 => some ((old + b) % m)
  | 1 => some (if less then b else old)
  | 2 => some (if less then old else b)
  | 3 => some (old &&& b)
  | 4 => some (old ||| b)
  | 5 => some (old ^^^ b)
  | 6 => some b
  | 7 => if old = b then some c else none
  | 8 => some (fp32.add 0 old b).1
  | _ => some (fp64.add 0 old b).1

/-- Draws the accesses in an order of the module's choice (R129). -/
def State.shuffleAccs (s : State) : Nat → List Acc → State × List Acc
  | 0, as => (s, as)
  | f + 1, as =>
    match as with
    | [] => (s, [])
    | a :: rest =>
      let (s, k) := s.pick as.length
      let chosen := as.getD k a
      let others := if k = 0 then rest else as.eraseIdx k
      let (s, tail) := s.shuffleAccs f others
      (s, chosen :: tail)

/-- The bytes that an access holds now; for host memory those read for it before. -/
def State.holds (s : State) (z : Issue) (n : Nat) (host : List (Acc × List Byte)) (a : Acc) : Nat :=
  match a.place with
  | .scratch sa => ofBytes ((s.core z.core).scratchRead sa n)
  | _ =>
    match s.locate (s.ctx z.x.ctx).part a.pa with
    | .hbm _ => field (s.homeBytes (s.ctx z.x.ctx).part a.pa) (a.pa % 128) n
    | _ => match host.find? (fun h => decide (h.1.t = a.t)) with | some h => ofBytes h.2 | none => 0

/-- Performs the atomics one after another and collects the old values. -/
def State.atomicAll (s : State) (z : Issue) (n : Nat) (host : List (Acc × List Byte)) (ws : List RegWrite) :
    List Acc → State × List RegWrite
  | [] => (s, ws)
  | a :: as =>
    let old := s.holds z n host a
    let r := sizeRegs z.i.size
    let s := match atomicOp z.i.op n z.i.sgnM old (z.x.vreg a.t z.i.b r) (z.x.vreg a.t z.i.c r) with
      | some v => s.writeAcc z a (toBytes n v)
      | none => s
    s.atomicAll z n host (ws ++ vWrites a.t z.i.d r old) as

/-- Whether a crew of the launch with a lower index has not left its quarter (R130). -/
def State.earlierCrew (s : State) (n idx : Nat) : Bool :=
  s.cores.any (fun e =>
    e.2.crews.any (fun c => decide (c.2.launch = n) && decide (c.2.idx < idx)) ||
    e.2.queue.any (fun i =>
      match i with
      | .fresh m next => decide (m = n) && decide (next < idx)
      | .saved c => decide (c.crew.launch = n) && decide (c.crew.idx < idx))) ||
  s.saved.any (fun c => decide (c.crew.launch = n) && decide (c.crew.idx < idx))

/-- An atomic: every check first, then its lines' homes take it (Table 8-9) and it reads them, then the operations, ascending under `ORDERED_ATOMICS` and in scratch. -/
def State.atomic (s : State) (z : Issue) : State :=
  let ordered := bit z.options 2
  if ordered && s.earlierCrew z.x.launch z.x.idx then s else
  let w := z.requester true
  let n := z.i.accessBytes
  match s.checkAccess z w false { r := true, w := true } z.threads with
  | (s, .fault c a t) => s.trap z c a t
  | (s, .retry) => s.setRetry z
  | (s, .wait) => s
  | (s, .go as) =>
    let q := (s.ctx z.x.ctx).part
    let lines := (as.filterMap (fun a => if a.bad.isNone then s.regionLine q a else none)).eraseDups
    let s := if (firstFault as).any (fun f => decide (f.1 = 0x03)) then s
      else lines.foldl (fun s l => s.crewWrite z.core q (l * 128) false) s
    match s.readAll z w.master n (lines.map (fun l => lineKey q (l * 128))) [] as with
    | (s, .fault c a t) => (s.dropHeld (.crew z.core z.key)).trap z c a t
    | (s, .held g line) => s.holdRead (.crew z.core z.key) g line
    | (s, .data ds) =>
      let onScratch := as.any (fun a => match a.place with | .scratch _ => true | _ => false)
      let (s, order) := if ordered || onScratch then (s, as) else s.shuffleAccs as.length as
      let (s, ws) := (s.dropHeld (.crew z.core z.key)).atomicAll z n ds [] order
      s.finish z ws 0 true

/-! ### Cache control (R134) -/

/-- A core's L1 gives up a line, and its home's directory with it. -/
def State.l1Drop (s : State) (core line : Nat) : State :=
  (s.modCore core (fun k => { k with l1 := sremove k.l1 line })).leaveShared line core

def State.l1DropAll (s : State) (core : Nat) : List Nat → State
  | [] => s
  | l :: ls => (s.l1Drop core l).l1DropAll core ls

/-- Whether the line at a physical address can be read at its home: it lies in a region, or in a mapped and filled segment and is GOOD. -/
def State.lineServes (s : State) (q pa : Nat) : Bool :=
  match s.locate q pa with
  | .hbm _ => true
  | .segment i off => s.segServes q i off 1 && decide (mget .good (s.seg i).lines (off / 128) = .good)
  | _ => false

/-- The line of a thread's effective address, fetched or dropped; every fault is discarded without report. -/
def State.cacheLine (s : State) (z : Issue) (t : Nat) : State :=
  match placeOf z.i.space (z.ea t) with
  | .global va =>
    let q := (s.ctx z.x.ctx).part
    match s.xlate (z.requester false) va { r := true } with
    | (s, .ok pa) =>
      match z.i.op with
      | 0 =>
        match s.locate q pa with
        | .host _ => s
        | _ => (s.paRead (.crew z.core false) q z.x.ctx (pa / 128 * 128) 128).1
      | 1 => if s.lineServes q pa && decide (s.homePoison q pa = 0) then (s.reachHome q pa).throughSlice q pa false false else s
      | _ => s.l1Drop z.core (lineKey q pa)
    | (s, _) => s
  | _ => s

def State.cacheLines (s : State) (z : Issue) : List Nat → State
  | [] => s
  | t :: ts => (s.cacheLine z t).cacheLines z ts

/-- Class 0xD. -/
def State.cacheClass (s : State) (z : Issue) : State :=
  let s := s.advance z
  match z.i.op with
  | 3 => if z.act = 0 then s else s.l1DropAll z.core (s.core z.core).l1
  | 4 => if z.act = 0 then s else s.modCore z.core (fun k => { k with icache := [], icachePa := [] })
  | _ => s.cacheLines z z.threads

end Sys2Proof.Machine
end

