-- ==== Sys2Proof/Machine/ThreadFlow.lean ====
section
/-! DEFINITION. Branches and reconvergence (03_crew_execution.md R82 to R92, 04 R125), landing instructions (04 R131), and
the feeder DMA launch (04 R133). -/

namespace Sys2Proof.Machine

open Sys2Proof

/-! ### Branches -/

/-- Deepest stack of a crew (R82). -/
def stackMax : Nat := 32

/-- The stack operations of a branch to k distinct targets (Table 3-4): the target that runs on, and the others in the
order they are pushed; none where the stack would grow past 32 entries (R84). -/
def Crew.diverge (c : Crew) (join mask : Nat) (go : Nat × Nat) (others : List (Nat × Nat)) : Option Crew :=
  if others = [] then some { c with path := some go }
  else
    let share := match c.stack with | .join a _ :: _ => decide (a = join) | _ => false
    let base := if share then c.stack else .join join mask :: c.stack
    let st := others.foldl (fun st o => .pending o.1 o.2 .runnable :: st) base
    if stackMax < st.length then none else some { c with path := some go, stack := st, bb := 0 }

/-- A backward branch taken by the whole path is counted while the open group holds a runnable entry, and the 64th sets the
path aside (R86, R87). -/
def Crew.countBackward (c : Crew) : Crew :=
  if !hasRunnable c.stack then c
  else if c.bb + 1 < 64 then { c with bb := c.bb + 1 }
  else
    match c.path, takeRunnable c.stack with
    | some (pc, m), some (p, st) =>
      let g := openGroup st
      { c with path := some p, stack := g ++ .pending pc m .runnable :: st.drop g.length, bb := 0 }
    | _, _ => c

/-- Distinct targets with their masks, in the order of each target's lowest-numbered thread. -/
def gather : List (Nat × Nat) → List (Nat × Nat) → List (Nat × Nat)
  | acc, [] => acc
  | acc, (a, t) :: rest =>
    if acc.any (fun e => decide (e.1 = a)) then
      gather (acc.map (fun e => if e.1 = a then (a, e.2 ||| 2 ^ t) else e)) rest
    else gather (acc ++ [(a, 2 ^ t)]) rest

/-- A branch of the path to the targets of its threads; `taken` holds the threads that take it (for the link of `CALL`). -/
def State.branchTo (s : State) (z : Issue) (targets : List (Nat × Nat)) (go : Nat × Nat) (others : List (Nat × Nat))
    (link : Bool) : State :=
  let join := toMod ((z.pc : Int) + 8 * z.i.join) 64
  match s.crew z.core z.key with
  | some c =>
    match c.diverge join z.mask go others with
    | none => s.trapAt z 0x08 z.lead
    | some c =>
      let c' := if others = [] ∧ go.1 ≤ z.pc ∧ targets.any (fun e => decide (e.2 = z.mask)) then c.countBackward else c
      let aside := decide (c.bb = 63) && decide (c'.bb = 0)
      let s := if aside then s.count z.core 0x15 1 z.pair 1 else s
      let c := c'
      let ws := if link then z.threads.flatMap (fun t => vWrites t z.i.reg 2 z.next) else []
      let clock := (s.core z.core).clock
      (s.issued z).setCrew z.core z.key { c with
        seq := if ws = [] then c.seq else c.seq + 1
        outs := if ws = [] then c.outs else c.outs ++ [{ seq := c.seq, writes := ws, due := clock }] }
  | none => s

/-- The target of `BRC` and `CALL` (R125). An instruction lies at an 8-byte aligned address (R113). -/
def Issue.target (z : Issue) : Nat :=
  if z.i.long then z.i.w1 / 8 * 8 else toMod ((z.pc : Int) + 8 * z.i.target) 64

/-- `BRC`, and `CALL` with its link (R125): T the threads whose guard holds, N the others. -/
def State.branchCond (s : State) (z : Issue) (link : Bool) : State :=
  let n := z.mask - z.act
  if z.act = 0 then s.branchTo z [] (z.next, z.mask) [] false
  else if n = 0 then s.branchTo z [(z.target, z.mask)] (z.target, z.mask) [] link
  else s.branchTo z [(z.target, z.act)] (z.target, z.act) [(z.next, n)] link

/-- `BRX` (R125): every active thread's own target. -/
def State.branchIndirect (s : State) (z : Issue) : State :=
  let goals := gather [] ((bitList z.x.width z.mask).map (fun t =>
    (if bit z.act t then z.x.vreg t z.i.reg 2 / 8 * 8 else z.next, t)))
  match goals with
  | [] => s.advance z
  | g :: others =>
    let taken := if z.act = 0 then [] else [g]
    s.branchTo z taken g others.reverse false

/-- A path has ended; what runs next follows R453, and a stranded crew faults (R92). -/
def State.endPath (s : State) (z : Issue) (c : Crew) (how : PathEnd) : State :=
  match c.nextPath how with
  | none => s.trapAt z 0x09 z.lead
  | some c => ((s.issued z).setCrew z.core z.key c).strandCheck z.core z.key

/-- `JOIN` (R83, R453). -/
def State.joinPath (s : State) (z : Issue) : State :=
  match s.crew z.core z.key with
  | some c => s.endPath z c (.atJoin z.pc)
  | none => s

/-- Takes threads out of every mask of a stack. -/
def StackEntry.without (m : Nat) : StackEntry → StackEntry
  | .pending pc k w => .pending pc (k - (k &&& m)) w
  | .join a k => .join a (k - (k &&& m))

/-- `EXIT` (Table 3-4, R89, R453). -/
def State.exitPath (s : State) (z : Issue) : State :=
  match s.crew z.core z.key with
  | some c =>
    let c := { c with exited := c.exited ||| z.mask, stack := c.stack.map (StackEntry.without z.mask) }
    s.endPath z (c.releaseFull [0, 1, 2, 3]) .atExit
  | none => s

/-- `CBAR` (R84, R89). -/
def State.crewBarrier (s : State) (z : Issue) : State :=
  let b := z.i.reg % 4
  match s.crew z.core z.key with
  | some c =>
    let arrived := mget 0 c.barriers b ||| z.mask
    let joined := { c with barriers := mset 0 c.barriers b arrived }
    if arrived ||| c.exited = c.allMask then
      (s.issued z).setCrew z.core z.key { joined.releaseBarrier b with path := some (z.next, z.mask) }
    else if stackMax ≤ c.stack.length then s.trapAt z 0x08 z.lead
    else s.endPath z { joined with path := none, stack := .pending z.next z.mask (.barrier b) :: c.stack } .atWait
  | none => s

/-! ### Landings (R131) -/

/-- The landing ID of an instruction. -/
def Issue.lid (z : Issue) : Nat := if z.i.lidu then z.x.ureg z.i.lid % 1024 else z.i.lid

/-- A wait that is answered at once: predicate, `LSTATUS` and `LGEN`, and the path goes on. -/
def State.waitAnswered (s : State) (z : Issue) (status gen : Nat) : State :=
  (s.advance z).modCrew z.core z.key (fun c =>
    { c.putPred z.i.pd z.mask (if status = 0 then z.mask else 0) with lstatus := status, lgen := gen })

/-- The path waits at a landing under a mark of its own (R91). -/
def State.parkPath (s : State) (z : Issue) (mark : Nat) : State :=
  match s.crew z.core z.key with
  | some c => s.endPath z { c with path := none, stack := .pending z.next z.mask (.landing mark z.i.pd) :: c.stack } .atWait
  | none => s

/-- `LARRIVE`: one arrival operation of `COUNT`; at a LOST entry nothing happens. -/
def State.landingArrive (s : State) (z : Issue) : State :=
  match s.landing z.x.ctx z.lid (.fromCore z.core) with
  | .unmapped => s.trapAt z 0x0B z.lead
  | .lost => s.advance z
  | .slot k => (s.advance z).arrive k z.x.ctx z.i.count

/-- `LWAIT` (R84, R131). -/
def State.landingWait (s : State) (z : Issue) : State :=
  match s.landing z.x.ctx z.lid (.fromCore z.core) with
  | .unmapped => s.trapAt z 0x0B z.lead
  | r =>
    if stackMax ≤ z.x.stack.length then s.trapAt z 0x08 z.lead
    else
      match r with
      | .slot k =>
        let mark := s.nextMark
        let s := { s with nextMark := mark + 1 }
        match s.wait k (.crew mark) z.i.mode (if z.i.mode = 1 then z.x.ureg z.i.ureg else 0) with
        | (s, some (st, gen)) => s.waitAnswered z st gen
        | (s, none) => s.parkPath z mark
      | _ => s.waitAnswered z 2 0

/-- `LARRWAIT` (R84, R267). -/
def State.landingArriveWait (s : State) (z : Issue) : State :=
  match s.landing z.x.ctx z.lid (.fromCore z.core) with
  | .unmapped => s.trapAt z 0x0B z.lead
  | r =>
    if stackMax ≤ z.x.stack.length then s.trapAt z 0x08 z.lead
    else
      match r with
      | .slot k =>
        let mark := s.nextMark
        let s := { s with nextMark := mark + 1 }
        match s.arriveWait k z.x.ctx z.i.count (.crew mark) with
        | (s, some (st, gen)) => s.waitAnswered z st gen
        | (s, none) => s.parkPath z mark
      | _ => s.waitAnswered z 2 0

/-- `LTEST`: whether the generation has reached the target; `LSTATUS` and `LGEN` stay. -/
def State.landingTest (s : State) (z : Issue) : State :=
  let answer := fun (s : State) (b : Bool) =>
    (s.advance z).modCrew z.core z.key (fun c => c.putPred z.i.pd z.mask (if b then z.mask else 0))
  match s.landing z.x.ctx z.lid (.fromCore z.core) with
  | .unmapped => s.trapAt z 0x0B z.lead
  | .lost => answer s false
  | .slot k =>
    let x := s.slot k
    answer s (Waiter.ready ⟨.crew 0, 1, z.x.ureg z.i.ureg, 0⟩ x.kind x.generation)

def State.landingClass (s : State) (z : Issue) : State :=
  match z.i.op with
  | 0 => s.landingArrive z
  | 1 => s.landingWait z
  | 2 => s.landingArriveWait z
  | _ => s.landingTest z

/-! ### Feeder DMA launch (R133) -/

/-- Chains that a feeder DMA engine holds queued or running (R215). -/
def engineDepth : Nat := 16

/-- `FDMA`: the chain joins the core's engine; while its queue is full the crew is not ready (R79), and the command waits. -/
def State.fdma (s : State) (z : Issue) : State :=
  let e := (s.core z.core).engine
  let lid := if z.i.mode = 1 then none else some z.lid
  let unmapped : Bool := match lid with
    | some l => decide (s.landing z.x.ctx l (.fromCore z.core) = .unmapped)
    | none => false
  if unmapped then s.trapAt z 0x0B z.lead
  else if engineDepth ≤ e.queue.length then s.stall
  else
    let (layer, oper) := match s.launch z.x.launch with | some l => (l.layer, l.oper) | none => (0, 0)
    let ch : Chain := { owner := .crew z.key z.x.launch z.x.idx, ctx := z.x.ctx, addr := z.x.ureg z.i.ureg, landing := lid,
                        layer, oper }
    let s := s.modCore z.core (fun k => { k with engine := { k.engine with queue := k.engine.queue ++ [ch] } })
    (s.advance z).modCrew z.core z.key (fun c => { c with copies := c.copies + 1 })

end Sys2Proof.Machine
end

