-- ==== Sys2Proof/Machine/Cox.lean ====
section
/-! DEFINITION. The cox sequencer (06_cox_stream.md R163 to R194): the fields of a stroke word, inconsistent words, the
parts of one stroke in the order in which the model performs them, and the end of a program. -/

namespace Sys2Proof.Machine

open Sys2Proof

/-! ### Slots of a word (Table 6-2) -/

def slotA (w : Nat) : Nat := bits w 0 64
def slotL0 (w : Nat) : Nat := bits w 64 32
def slotL1 (w : Nat) : Nat := bits w 96 32
def slotS (w : Nat) : Nat := bits w 128 32
def slotX (w : Nat) : Nat := bits w 160 64
def slotY (w : Nat) : Nat := bits w 224 32

/-- A slot by its number in slot order: 0 A, 1 L0, 2 L1, 3 S, 4 X, 5 Y. -/
def slotOf (w n : Nat) : Nat :=
  match n with
  | 0 => slotA w
  | 1 => slotL0 w
  | 2 => slotL1 w
  | 3 => slotS w
  | 4 => slotX w
  | _ => slotY w

/-! ### Scalar registers (Table 6-6) -/

/-- The value of a scalar register, a 32-bit one zero-extended. -/
def Sequencer.scalar (q : Sequencer) (sel : Nat) : Nat :=
  if sel < 4 then mget 0 q.lc sel
  else if sel < 8 then mget 0 q.ix (sel - 4)
  else if sel < 16 then (mget 0 q.ag (sel - 8)).toNat
  else (mget 128 q.steps (sel - 16)).toNat

/-- Sets a scalar register; a 32-bit one keeps the low 32 bits (R175). -/
def Sequencer.setScalar (q : Sequencer) (sel : Nat) (x : U64) : Sequencer :=
  if sel < 4 then { q with lc := mset 0 q.lc sel (x.toNat % 2 ^ 32) }
  else if sel < 8 then { q with ix := mset 0 q.ix (sel - 4) (x.toNat % 2 ^ 32) }
  else if sel < 16 then { q with ag := mset 0 q.ag (sel - 8) x }
  else { q with steps := mset 128 q.steps (sel - 16) x }

/-- The scratch row that an address generator names (R172). -/
def Sequencer.rowAt (q : Sequencer) (ag : Nat) : Nat := bits (q.scalar (8 + ag)) 7 12

/-- The row that a row field and `RIX` name (R171). -/
def Sequencer.rowIndex (q : Sequencer) (row rix k : Nat) : Nat :=
  if rix = 0 then row else (row + k * q.scalar (3 + rix)) % 512

/-- A comparator's output (R176). -/
def Sequencer.compare (q : Sequencer) (i : Nat) : Bool :=
  let c := mget {} q.cmps i
  let x := q.scalar c.src
  let y := toMod (sext c.operand 32) 64
  match c.rel with
  | 0 => decide (x = y)
  | 1 => decide (x ≠ y)
  | 2 => decide (x < y)
  | 3 => decide (y ≤ x)
  | 4 => decide (sext x 64 < sext y 64)
  | _ => decide (sext y 64 ≤ sext x 64)

/-! ### Inconsistent words (R185, Table 6-10) -/

/-- The reason that slot A gives, 0 for none (R140, R145, R152, R156, R157, R171). -/
def checkA (a : Matrix) (t v : Nat) : Nat :=
  let op := bits v 0 4
  let soon : Bool := match a.lastLoad with | some l => decide (t < l + 128) | none => false
  let busy : Bool := match a.run with | some r => decide (t < r.stop) | none => false
  match op with
  | 0 => if v ≠ 0 then 2 else 0
  | 1 =>
    let mode := bits v 4 4
    let kr := bits v 10 8
    if bits v 18 46 ≠ 0 then 2
    else if 7 ≤ mode ∨ ((mode = 3 ∨ mode = 4) ∧ bits v 8 1 ≠ bits v 9 1) ∨ kr = 0 ∨ 128 < kr then 4
    else if soon then 3
    else if busy then 6
    else 0
  | 2 =>
    let acc := bits v 4 3
    let fmt := bits v 7 2
    if bits v 29 35 ≠ 0 then 2
    else if 5 ≤ acc ∨ fmt = 3 ∨ (3 ≤ acc ∧ fmt ≠ 0) ∨ (fmt = 0 ∧ bits v 18 8 ≠ 0) ∨ (fmt = 2 ∧ bits v 9 1 = 1) ∨ 5 ≤ bits v 26 3
    then 5
    else if busy then 6
    else 0
  | 3 =>
    let fmt := bits v 5 2
    let m := bits v 8 10
    let kr := bits v 27 8
    if bits v 35 29 ≠ 0 then 2
    else if fmt = 0 ∨ fmt = 3 ∨ m = 0 ∨ 512 < m ∨ (fmt = 2 ∧ 256 < m) ∨ (fmt = 2 ∧ bits v 18 1 = 1) ∨ kr = 0 ∨ 128 < kr then 7
    else if soon then 3
    else if busy then 6
    else 0
  | _ => 1

/-- The reason that a load-streamer slot gives (R172). -/
def checkL (v : Nat) : Nat :=
  match bits v 0 4 with
  | 0 => if v ≠ 0 then 2 else 0
  | 1 => if bits v 8 24 ≠ 0 then 2 else 0
  | 2 => if bits v 8 24 ≠ 0 then 2 else 0
  | 3 => if bits v 11 21 ≠ 0 then 2 else 0
  | 4 => if bits v 4 4 ≠ 0 ∨ bits v 11 21 ≠ 0 then 2 else 0
  | 5 => if bits v 4 4 ≠ 0 ∨ bits v 11 21 ≠ 0 then 2 else 0
  | _ => 1

/-- The reason that the store slot gives (R173). -/
def checkS (v : Nat) : Nat :=
  match bits v 0 4 with
  | 0 => if v ≠ 0 then 2 else 0
  | 1 =>
    let conv := bits v 17 3
    if bits v 29 3 ≠ 0 then 2
    else if (bit v 20 = true ∧ convBytes conv ≠ 1) ∨ (bits v 21 5 ≠ 0 ∧ conv ≤ 4) ∨ (convPair conv = true ∧ bits v 8 1 = 1) ∨
        5 ≤ bits v 26 3 then 8
    else 0
  | _ => 1

/-- The reason that slot X gives (R174 to R176, R186); n is `STROKE_WORDS`. -/
def checkX (q : Sequencer) (n v : Nat) : Nat :=
  let reg := bits v 4 6
  let src := bits v 10 6
  let idx := bits v 16 2
  let sub := bits v 18 3
  let neg := bits v 21 1
  let imm := bits v 32 32
  let target := imm % 2048
  let high := imm / 2048
  let unused := fun (l : List Nat) => decide (bits v 22 10 ≠ 0) || l.any (fun x => decide (x ≠ 0))
  match bits v 0 4 with
  | 0 => if v ≠ 0 then 2 else 0
  | 1 => if unused [src, idx, sub, neg] then 2 else if 0x18 ≤ reg ∨ (4 ≤ reg ∧ reg < 8) then 9 else 0
  | 2 => if unused [idx, sub, neg] then 2 else if 0x18 ≤ reg ∨ (4 ≤ reg ∧ reg < 8) ∨ 0x18 ≤ src then 9 else 0
  | 3 =>
    if unused [reg, src, sub, high % 32, if neg = 1 then 0 else high] then 2
    else if target < q.pc + 2 ∨ n < target ∨ q.loops.any (fun l => decide (l.stop < target)) = true then 0x0B
    else if q.loops.any (fun l => decide (l.n = idx)) then 0x0A
    else 0
  | 4 => if unused [reg, src, idx, sub, neg, high] then 2 else if n ≤ target then 0x0B else 0
  | 5 => if unused [reg, src, sub, high] then 2 else if n ≤ target then 0x0B else 0
  | 6 => if unused [reg, neg] then 2 else if 0x18 ≤ src ∨ 6 ≤ sub then 9 else 0
  | 7 => if unused [reg, src, idx, high] then 2 else if n ≤ target then 0x0B else 0
  | 8 => if unused [reg, src, idx, sub, neg, imm] then 2 else 0
  | _ => 1

/-- The reason that slot Y gives (R177). -/
def checkY (v : Nat) : Nat :=
  match bits v 0 4 with
  | 0 => if v ≠ 0 then 2 else 0
  | 1 => if bits v 22 10 ≠ 0 then 2 else if bits v 14 8 = 0 then 0x0C else 0
  | 2 => if bits v 14 18 ≠ 0 then 2 else 0
  | 3 => if bits v 22 10 ≠ 0 then 2 else if bits v 14 8 = 0 then 0x0C else 0
  | 4 => if bits v 20 12 ≠ 0 then 2 else if 0x18 ≤ bits v 14 6 then 0x0C else 0
  | 5 => if bits v 12 20 ≠ 0 then 2 else 0
  | 6 => if bits v 12 20 ≠ 0 then 2 else 0
  | 7 => if bits v 20 12 ≠ 0 then 2 else 0
  | _ => 1

/-- The first offending slot of a word and its reason, in slot order (R185). -/
def coxCheck (a : Matrix) (q : Sequencer) (n w : Nat) : Option (Nat × Nat) :=
  [(0, checkA a q.stroke (slotA w)), (1, checkL (slotL0 w)), (2, checkL (slotL1 w)), (3, checkS (slotS w)),
    (4, checkX q n (slotX w)), (5, checkY (slotY w))].find? (fun e => decide (e.2 ≠ 0))

/-! ### The running program and its log -/

/-- The program that runs on a core: the first that has started and is not done (R167). -/
def Core.coxJob (k : Core) : Option CoxJob := k.jobs.find? (fun j => j.started && j.done.isNone)

def Core.modJob (k : Core) (launch : Nat) (f : CoxJob → CoxJob) : Core :=
  { k with jobs := k.jobs.map (fun j => if j.launch = launch then f j else j) }

def State.coxLaunch (s : State) (n : Nat) : Option CoxLaunch := mfind s.coxLaunches n

/-- The launch of the program that runs on a core. -/
def State.coxNow (s : State) (core : Nat) : Option (CoxJob × CoxLaunch) :=
  match (s.core core).coxJob with
  | some j => (s.coxLaunch j.launch).map (fun l => (j, l))
  | none => none

def State.modSeq (s : State) (core : Nat) (f : Sequencer → Sequencer) : State :=
  s.modCore core (fun k => { k with seq := f k.seq })

def State.modArray (s : State) (core : Nat) (f : Matrix → Matrix) : State :=
  s.modCore core (fun k => { k with array := f k.array })

/-- The word at the present PC: none once the program is past its last word. -/
def State.coxWord (s : State) (core : Nat) : Option Nat :=
  match (s.core core).coxJob with
  | some j => j.words[(s.core core).seq.pc]?
  | none => none

/-- `COX_STATUS` (Table 6-11). -/
def Sequencer.status (q : Sequencer) : Nat :=
  b2n q.earlyRead + 2 * b2n q.doubleWrite + 4 * b2n q.inconsistent + 8 * b2n q.landing + 16 * b2n q.stopped + 2 ^ 8 * q.events +
    2 ^ 40 * q.zeroTrips

/-- Writes one entry to the ring and counts it (R188). -/
def Sequencer.writeLog (q : Sequencer) (e : CoxEntry) : Sequencer :=
  { q with
    log := mset {} q.log (q.logHead % 128) e
    logHead := (q.logHead + 1) % 2 ^ 32
    events := min (q.events + 1) (2 ^ 32 - 1)
    earlyRead := q.earlyRead || decide (e.kind = 1)
    doubleWrite := q.doubleWrite || decide (e.kind = 2)
    inconsistent := q.inconsistent || decide (e.kind = 3)
    landing := q.landing || decide (e.kind = 4) || decide (e.kind = 5)
    stopped := q.stopped || decide (e.kind = 6) }

/-- Writes an entry at once and counts the event. -/
def State.coxLogNow (s : State) (core pair : Nat) (e : CoxEntry) : State :=
  (s.modSeq core (fun q => q.writeLog e)).count core 0x16 2 pair 1

/-- An entry of the present stroke, kept until the stroke is complete (R188). -/
def State.coxLog (s : State) (core slot pc kind reason w2 w3 : Nat) : State :=
  let (layer, oper) := match s.coxNow core with | some (_, l) => (l.layer, l.oper) | none => (0, 0)
  s.modSeq core (fun q => { q with strokeLog := q.strokeLog ++ [⟨q.stroke % 2 ^ 40, pc, slot, kind, layer, oper, reason, w2, w3⟩] })

/-! ### Early reads (R183) -/

/-- The scratch bytes that a `STORE` in a slot-S field v writes, with the row or rows it reads and its conversion. -/
def Sequencer.storeAddrs (q : Sequencer) (v : Nat) : List Nat :=
  let base := 128 * q.rowAt (bits v 4 3)
  if bit v 20 then (List.range 128).map (fun j => (base + 129 * j) % 0x80000)
  else (List.range (128 * convBytes (bits v 17 3))).map (fun j => (base + j) % 0x80000)

/-- The strokes in which tracked writes to a staging register land after t; the other slots of word w count. -/
def Sequencer.stagingDue (q : Sequencer) (w t i : Nat) : List Nat :=
  (q.writes.filterMap (fun x => match x.target with
    | .staging j _ _ => if i = j ∧ t < x.due then some x.due else none
    | _ => none)) ++
    ([slotL0 w, slotL1 w].filterMap (fun v => if bits v 0 4 = 3 ∧ bits v 8 3 = i then some (t + 4) else none))

/-- The strokes in which tracked writes to a scratch row land after t. -/
def Sequencer.scratchDue (q : Sequencer) (w t row : Nat) : List Nat :=
  (q.writes.filterMap (fun x => match x.target with
    | .scratch bs _ => if t < x.due ∧ bs.any (fun b => decide (b.1 / 128 = row)) = true then some x.due else none
    | _ => none)) ++
    (if bits (slotS w) 0 4 = 1 ∧ (q.storeAddrs (slotS w)).any (fun a => decide (a / 128 = row)) = true then [t + 8] else [])

/-- Logs an early read of a target, if a tracked write is on its way; word 3 is its earliest landing. -/
def State.early (s : State) (core slot kind index : Nat) : List Nat → State
  | [] => s
  | x :: xs => s.coxLog core slot (s.core core).seq.pc 1 0 (kind + 16 * index) (minOf x xs % 2 ^ 40)

/-! ### The beginning of a stroke: the word at the issue point -/

/-- Whether anything is still on its way after the present stroke: writes, landings, load phases, a slice run (R158). -/
def Core.coxBusy (k : Core) : Bool :=
  !k.seq.writes.isEmpty || !k.array.results.isEmpty || !k.array.loads.isEmpty

/-- The wait that the word's slot Y asks for: its answer, or none where it has been registered (R177). The status is 0x13
for an unmapped landing. -/
def State.coxWait (s : State) (core ctx y : Nat) : State × Option (Nat × Nat) :=
  let lid := bits y 4 10
  match s.landing ctx lid (.fromCore core) with
  | .unmapped => (s, some (0x13, lid))
  | .lost => (s, some (2, lid))
  | .slot key =>
    let r := match bits y 0 4 with
      | 2 => s.wait key (.cox core) 0 0
      | 3 => s.arriveWait key ctx (bits y 14 8) (.cox core)
      | _ => s.wait key (.cox core) 1 ((s.core core).seq.scalar (bits y 14 6) % 2 ^ 32)
    match r with
    | (s, some (st, _)) => (s, some (st, lid))
    | (s, none) => (s.modSeq core (fun q => { q with ywait := .registered lid 0 }), none)

/-- The word issues with what its wait brought (R178). -/
def State.coxReleased (s : State) (core st lid : Nat) : State :=
  let s := s.modSeq core (fun q => { q with ywait := .none })
  let pc := (s.core core).seq.pc
  if st = 0 then s
  else if st = 0x13 then
    (s.coxLog core 5 pc 4 0 lid st).modSeq core (fun q => { q with firstUnmapped := q.firstUnmapped.orElse (fun _ => some lid) })
  else (s.coxLog core 5 pc 5 0 lid st).modSeq core (fun q => { q with firstRelease := q.firstRelease.orElse (fun _ => some (st, lid)) })

/-- The banks of scratch that the cox stream takes in the present stroke with word w (R182): the rows that its load streamers read, and the
bytes of a store that lands. -/
def Sequencer.strokeBanks (q : Sequencer) (w : Nat) : List Nat :=
  let reads := ([slotL0 w, slotL1 w].filter (fun v => decide (1 ≤ bits v 0 4) && decide (bits v 0 4 ≤ 3))).map (fun v => q.rowAt (bits v 4 3) % 32)
  let lands := q.writes.flatMap (fun x => match x.target with
    | .scratch bs _ => if x.due = q.stroke then bs.map (fun b => b.1 / 128 % 32) else []
    | _ => [])
  (reads ++ lands).foldl sinsert []

/-- The stroke begins with a word (0 for an empty one). -/
def State.coxBegin (s : State) (core w : Nat) : State :=
  s.modSeq core (fun q => { q with phase := 1, word := w, banks := q.strokeBanks w })

/-- Brings the program to the beginning of a stroke, if it can issue one (R180): inconsistency is decided first, then
a Y-slot wait (R185). The answer tells whether a stroke is in progress. -/
def State.beginStroke (s : State) (core : Nat) : State × Bool :=
  let k := s.core core
  let q := k.seq
  match s.coxNow core with
  | none => (s, false)
  | some (j, l) =>
    if q.phase ≠ 0 then (s, true)
    else if q.draining then if k.coxBusy then (s.coxBegin core 0, true) else (s, false)
    else if !q.active ∨ (l.limit ≠ 0 ∧ l.limit ≤ q.issued) then (s, false)
    else
      match j.words[q.pc]? with
      | none => (s, false)
      | some w =>
        if q.pc ∈ j.wordErr then (s, false)
        else
          match coxCheck k.array q j.words.length w with
          | some (slot, reason) => ((s.coxBegin core 0).coxLog core slot q.pc 3 reason 0 0, true)
          | none =>
            let y := slotY w
            if bits y 0 4 ∈ [2, 3, 4] then
              match q.ywait with
              | .registered _ _ => (s, false)
              | .released lid st => ((s.coxReleased core st lid).coxBegin core w, true)
              | .none =>
                match s.coxWait core l.ctx y with
                | (s, some (st, lid)) => ((s.coxReleased core st lid).coxBegin core w, true)
                | (s, none) => (s, false)
            else (s.coxBegin core w, true)

/-! ### Parts of a stroke -/

/-- The strokes that a result waits between head and landing (R148). -/
def resultLatency : Nat := 260

/-- One of two writes that land on a target in one stroke is lost: the later slot wins (R184). The list holds the slot and
PC of each writer. -/
def State.doubleWrites (s : State) (core kind index : Nat) (ws : List (Nat × Nat)) : State :=
  let top := ws.foldl (fun m x => if m.1 ≤ x.1 then x else m) (0, 0)
  ws.foldl (fun s x => if x.1 = top.1 then s else s.coxLog core top.1 top.2 2 0 (kind + 16 * index) (x.1 + 8 * top.1)) s

/-- The staging writes due, by register. -/
def Sequencer.stagingNow (q : Sequencer) (t i : Nat) : List CoxWrite :=
  q.writes.filter (fun x => decide (x.due = t) && match x.target with | .staging j _ _ => decide (i = j) | _ => false)

def lastSlot (ws : List CoxWrite) : Option CoxWrite :=
  ws.foldl (fun m x => match m with | some y => if y.slot ≤ x.slot then some x else m | none => some x) none

/-- Staging writes land (R181, R184). -/
def State.landStaging (s : State) (core i : Nat) : State :=
  let q := (s.core core).seq
  let ws := q.stagingNow q.stroke i
  let s := s.doubleWrites core 1 i (ws.map (fun x => (x.slot, x.pc)))
  match lastSlot ws with
  | some x =>
    match x.target with
    | .staging _ data _ =>
      s.modSeq core (fun q => { q with
        sr := writeBytes q.sr (128 * i) data
        srPoison := sremove q.srPoison i
        srErr := merase q.srErr i
        writes := q.writes.filter (fun y => decide (y ∉ ws)) })
    | _ => s
  | none => s

/-- A store lands (R181, R182): its bytes, and the words it poisons (R406). -/
def Core.landStore (k : Core) (x : CoxWrite) : Core :=
  match x.target with
  | .scratch bs poison =>
    let whole := fun w => (List.range 8).all (fun i => bs.any (fun b => decide (b.1 = 8 * w + i)))
    { k with
      scratch := bs.foldl (fun m b => mset 0 m b.1 b.2) k.scratch
      scratchPoison := poison.foldl sinsert (k.scratchPoison.filter (fun w => !whole w))
      scratchSoft := k.scratchSoft.filter (fun w => !whole w)
      seq := { k.seq with writes := k.seq.writes.filter (fun y => decide (y ≠ x)) } }
  | _ => k

def State.landStores (s : State) (core : Nat) : State :=
  let t := (s.core core).seq.stroke
  ((s.core core).seq.writes.filter (fun x => decide (x.due = t))).foldl (fun s x => s.modCore core (fun k => k.landStore x)) s

/-- The pair of IDs of the running program. -/
def State.coxPair (s : State) (core : Nat) : Nat :=
  match s.coxNow core with | some (_, l) => pairOf l.layer l.oper | none => 0

/-- Accumulator entries are read: an error of one is corrected and counted, or poisons it and is reported (R404, R406). -/
def State.accRead (s : State) (core : Nat) (keys : List Nat) : State :=
  let hit := (s.core core).array.accErr.filter (fun e => decide (e.1 ∈ keys))
  hit.foldl (fun s e =>
    let s := s.modArray core (fun a => { a with
      accErr := merase a.accErr e.1, accPoison := if e.2 then sinsert a.accPoison e.1 else a.accPoison })
    if e.2 then s.ras { cls := 2, source := 3, part := s.partOfCore core, unit := core, addr := e.1 }
    else s.rasCorrected 3 core (s.reachOf (s.partOfCore core))) s

/-- A staging register is read: an error of it is corrected and counted, or poisons it and is reported (R404, R406). -/
def State.stagingRead (s : State) (core i : Nat) : State :=
  match mfind (s.core core).seq.srErr i with
  | none => s
  | some bad =>
    let s := s.modSeq core (fun q => { q with srErr := merase q.srErr i, srPoison := if bad then sinsert q.srPoison i else q.srPoison })
    if bad then s.ras { cls := 2, source := 3, part := s.partOfCore core, unit := core, addr := i }
    else s.rasCorrected 3 core (s.reachOf (s.partOfCore core))

/-- Result rows land (R148, R152); all but a `WRITE` read their entries. -/
def State.landRows (s : State) (core : Nat) : State :=
  let t := (s.core core).seq.stroke
  let due := (s.core core).array.results.filter (fun c => decide (c.head + resultLatency = t))
  (due.foldl (fun s c =>
    let s := if c.op = 1 then s else s.accRead core (entryKeys c.fmt c.row)
    s.modArray core (fun a => a.land c t)) s).count core 0x0A 2 (s.coxPair core) due.length

/-- Everything that lands at the start of the stroke. -/
def State.coxLandings (s : State) (core : Nat) : State :=
  ((List.range 8).foldl (fun s i => s.landStaging core i) s).landStores core |>.landRows core

/-- Slot A (R143, R152, R156), and what the sequencer issues for a slice run. -/
def Matrix.issueA (a : Matrix) (q : Sequencer) : Matrix :=
  let v := slotA q.word
  let t := q.stroke
  let a : Matrix := match bits v 0 4 with
    | 1 => { a with loads := a.loads ++ [⟨t, bits v 4 4, bit v 8, bit v 9, bits v 10 8⟩], lastLoad := some t }
    | 2 =>
      if bits v 4 3 = 0 then a
      else
        let fmt := bits v 7 2
        { a with results := a.results ++
            [⟨t, bits v 4 3, fmt, q.rowIndex (bits v 9 9) (bits v 26 3) (if fmt = 2 then 2 else 1), sext (bits v 18 8) 8, q.pc⟩] }
    | 3 => { a with run := some ⟨t, bit v 4, bits v 5 2, bit v 7, bits v 8 10, bits v 18 9, bits v 27 8, q.pc⟩ }
    | _ => a
  a.runStep t

/-- A row of scratch as a load streamer reads it: a poisoned word reads as zero (R214). -/
def Core.streamerRow (k : Core) (row : Nat) : List Byte :=
  (List.range 128).map (fun i =>
    let a := 128 * row + i
    if a / 8 ∈ k.scratchPoison then 0 else mget 0 k.scratch a)

/-- The report of poisoned words that a load streamer meets (R406). -/
def State.reportRow (s : State) (core row : Nat) : State :=
  ((s.core core).scratchPoison.filter (fun w => decide (w / 16 = row))).foldl
    (fun s w => s.ras { cls := 2, source := 1, part := s.partOfCore core, unit := core, addr := 8 * w }) s

/-- Slot L0 or L1, as slot n (R172, R181). -/
def State.coxLoad (s : State) (core n : Nat) : State :=
  let q := (s.core core).seq
  let v := slotOf q.word n
  let t := q.stroke
  let op := bits v 0 4
  let add := fun (s : State) (due : Nat) (x : CoxTarget) =>
    s.modSeq core (fun q => { q with writes := q.writes ++ [⟨due, n, q.pc, x⟩] })
  let inc := fun (s : State) =>
    let ag := bits v 4 3
    if bit v 7 then add s (t + 1) (.scalar (8 + ag) (BitVec.ofNat 64 (q.scalar (8 + ag) + q.scalar (16 + ag)))) else s
  if op = 0 then s
  else if op ≤ 3 then
    let row := q.rowAt (bits v 4 3)
    let s := s.early core n 3 row (q.scratchDue q.word t row)
    let data := (s.core core).streamerRow row
    let s := (s.scratchCorrect core (128 * row) 128).reportRow core row
    inc (match op with
      | 1 => add s (t + 12) (.pathA data)
      | 2 => add s (t + 12) (.pathB data)
      | _ => add s (t + 4) (.staging (bits v 8 3) data false))
  else
    let i := bits v 8 3
    let s := (s.early core n 1 i (q.stagingDue q.word t i)).stagingRead core i
    let q := (s.core core).seq
    let data := if i ∈ q.srPoison then zeros 128 else (List.range 128).map (fun b => mget 0 q.sr (128 * i + b))
    add s (t + 12) (if op = 4 then .pathA data else .pathB data)

/-- Slot S (R173, R181). -/
def State.coxStore (s : State) (core : Nat) : State :=
  let k := s.core core
  let q := k.seq
  let v := slotS q.word
  let t := q.stroke
  if bits v 0 4 ≠ 1 then s
  else
    let conv := bits v 17 3
    let row := q.rowIndex (bits v 8 9) (bits v 26 3) (if convPair conv then 2 else 1)
    let rows := if convPair conv then [row, row + 1] else [row]
    let s := rows.foldl (fun s r =>
      match k.array.nextLanding t r with
      | some x => s.early core 3 2 r [x]
      | none => s) s
    let s := s.accRead core (rows.flatMap (entryKeys 0))
    let k := s.core core
    let addrs := q.storeAddrs v
    let bytes := addrs.zip (k.array.converted conv (bits v 21 5) row)
    let bad := fun j => rows.any (fun r => decide (128 * r + j ∈ k.array.accPoison))
    let spoilt := (addrs.zip (List.range addrs.length)).filterMap (fun e =>
      if bad (e.2 / convBytes conv) then some (e.1 / 8) else none)
    let ag := bits v 4 3
    let stored : CoxWrite := ⟨t + 8, 3, q.pc, .scratch bytes (spoilt.foldl sinsert [])⟩
    let stepped : CoxWrite := ⟨t + 1, 3, q.pc, .scalar (8 + ag) (BitVec.ofNat 64 (q.scalar (8 + ag) + q.scalar (16 + ag)))⟩
    s.modSeq core (fun q => { q with writes := q.writes ++ (if bit v 7 then [stored, stepped] else [stored]) })

/-- Slot X (R175, R186): register writes land in the next stroke; a branch, a loop entry or the end decides what follows. -/
def State.coxScalar (s : State) (core : Nat) : State :=
  let q := (s.core core).seq
  let v := slotX q.word
  let t := q.stroke
  let imm := bits v 32 32
  let wide := toMod (sext imm 32) 64
  let idx := bits v 16 2
  let neg := bit v 21
  let add := fun (x : CoxTarget) => s.modSeq core (fun q => { q with writes := q.writes ++ [⟨t + 1, 4, q.pc, x⟩] })
  let go := fun (b : Bool) => if b then s.modSeq core (fun q => { q with nextPc := some (imm % 2048) }) else s
  match bits v 0 4 with
  | 1 => add (.scalar (bits v 4 6) (BitVec.ofNat 64 wide))
  | 2 => add (.scalar (bits v 4 6) (BitVec.ofNat 64 (q.scalar (bits v 10 6) + wide)))
  | 3 =>
    let count := if neg then imm / 65536 else q.scalar idx
    let s := add (.scalar (4 + idx) 0)
    if count = 0 then
      s.modSeq core (fun q => { q with nextPc := some (imm % 2048), zeroTrips := min (q.zeroTrips + 1) (2 ^ 24 - 1) })
    else s.modSeq core (fun q => { q with loops := ⟨idx, q.pc + 1, imm % 2048, count⟩ :: q.loops })
  | 4 => go true
  | 5 => go (q.compare idx != neg)
  | 6 => add (.cmp idx (bits v 10 6) (bits v 18 3) imm)
  | 7 => go (bit q.cf (bits v 18 3) != neg)
  | 8 => s.modSeq core (fun q => { q with ending := true })
  | _ => s

/-- Slot Y (R177, R178); a wait has been dealt with before the word issued. -/
def State.coxSync (s : State) (core : Nat) : State :=
  let q := (s.core core).seq
  let v := slotY q.word
  let t := q.stroke
  let add := fun (x : CoxTarget) => s.modSeq core (fun q => { q with writes := q.writes ++ [⟨t + 1, 5, q.pc, x⟩] })
  match s.coxNow core with
  | none => s
  | some (_, l) =>
    match bits v 0 4 with
    | 1 =>
      let lid := bits v 4 10
      match s.landing l.ctx lid (.fromCore core) with
      | .unmapped => s.coxReleased core 0x13 lid
      | .lost => s
      | .slot key => s.arrive key l.ctx (bits v 14 8)
    | 5 => add (.flags true (bits v 4 8))
    | 6 => add (.flags false (bits v 4 8))
    | 7 => s.traceEvent core (pairOf l.layer l.oper) 3 (toBytes 2 (bits v 4 16) ++ toBytes 5 (t % 2 ^ 40))
    | _ => s

/-- The rows delivered to a path in the present stroke (R146, R147, R184), zero where none is. -/
def State.coxPath (s : State) (core : Nat) (b : Bool) : State × List Byte :=
  let q := (s.core core).seq
  let ws := q.writes.filter (fun x => decide (x.due = q.stroke) && match x.target with
    | .pathA _ => !b
    | .pathB _ => b
    | _ => false)
  let s := s.doubleWrites core (if b then 6 else 5) 0 (ws.map (fun x => (x.slot, x.pc)))
  let s := s.modSeq core (fun q => { q with writes := q.writes.filter (fun y => decide (y ∉ ws)) })
  match lastSlot ws with
  | some x =>
    match x.target with
    | .pathA d => (s, d)
    | .pathB d => (s, d)
    | _ => (s, zeros 128)
  | none => (s, zeros 128)

/-- The parity of the cell rows is checked: an error that has not been found yet is reported (R404, R406). -/
def State.checkRows (s : State) (core : Nat) : State :=
  let a := (s.core core).array
  (a.rowErr.filter (fun k => decide (k ∉ a.rowFound))).foldl (fun s k =>
    (s.modArray core (fun a => { a with rowFound := sinsert a.rowFound k })).ras
      { cls := 2, source := 4, part := s.partOfCore core, unit := core, addr := k }) s

/-- The array's step of the stroke (R139). -/
def State.coxArray (s : State) (core : Nat) : State :=
  let (s, pathA) := s.coxPath core false
  let (s, pathB) := s.coxPath core true
  let t := (s.core core).seq.stroke
  (s.checkRows core).modArray core (fun a => a.step t pathA pathB)

/-- A comparator, flag or scalar write lands. -/
def Sequencer.apply (q : Sequencer) (x : CoxWrite) : Sequencer :=
  match x.target with
  | .scalar sel v => q.setScalar sel v
  | .cmp i src rel operand => { q with cmps := mset {} q.cmps i ⟨src, rel, operand⟩ }
  | .flags true m => { q with cf := q.cf ||| m }
  | .flags false m => { q with cf := q.cf - (q.cf &&& m) }
  | _ => q

/-- The next PC after the word at pc (R186, R187): of the active loops, innermost first, those that end there are decided; one that ends
elsewhere stays as it is. -/
def loopBack (pc : Nat) (ix : Nat → Nat) : List CoxLoop → List (Nat × Nat) → Nat × List CoxLoop × List (Nat × Nat)
  | [], ups => (pc + 1, [], ups)
  | l :: ls, ups =>
    if l.stop = pc + 1 then
      if ix l.n + 1 < l.latch then (l.start, l :: ls, ups ++ [(l.n, ix l.n + 1)]) else loopBack pc ix ls ups
    else
      let (next, rest, ups) := loopBack pc ix ls ups
      (next, l :: rest, ups)

/-- Loops that a taken branch leaves active: those whose body holds the target, outermost up to the first that does not
(R187). The list is innermost first. -/
def keepLoops (target : Nat) (ls : List CoxLoop) : List CoxLoop :=
  (ls.reverse.takeWhile (fun l => decide (l.start ≤ target) && decide (target < l.stop))).reverse

/-- Ends the program after the present word (R189, R190). -/
def Sequencer.endProgram (q : Sequencer) : Sequencer := { q with active := false, draining := true, ended := true, loops := [] }

/-- A slice run that occupies the A slot after stroke t. -/
def Matrix.runs (a : Matrix) (t : Nat) : Bool := match a.run with | some r => decide (t + 1 < r.stop) | none => false

/-- The entries kept of a stroke are written, in slot order (R188). -/
def State.flushLog (s : State) (core pair : Nat) : State :=
  let es := (s.core core).seq.strokeLog
  let sorted := (List.range 7).flatMap (fun n => es.filter (fun e => decide (e.slot = n)))
  (s.modSeq core (fun q => sorted.foldl Sequencer.writeLog { q with strokeLog := [] })).count core 0x16 2 pair es.length

/-- The end of the stroke: the next PC, loop-back or the end of the program; then the stroke's log, its counts, and the
scalar writes that land at the start of the next (R181, R186 to R190). -/
def State.coxFinish (s : State) (core : Nat) : State :=
  match s.coxNow core with
  | none => s
  | some (j, l) =>
    let q := (s.core core).seq
    let t := q.stroke
    let drain := q.draining
    -- what follows
    let (next, loops, ups) :=
      match q.nextPc with
      | some p => (p, if bits (slotX q.word) 0 4 = 3 then q.loops else keepLoops p q.loops, [])
      | none => if q.ending then (q.pc + 1, [], []) else loopBack q.pc (fun n => q.scalar (4 + n)) q.loops []
    let ends := q.ending || decide (j.words.length ≤ next)
    let cut := !drain && ends && (s.core core).array.runs t
    let s := if cut then s.coxLog core 6 q.pc 3 0x0F 0 0 else s
    let s := if cut then s.modArray core (fun a => { a with run := none }) else s
    let pair := pairOf l.layer l.oper
    let s := ((s.wakeGal (galleryOf core)).flushLog core pair).count core 0x02 2 pair 1
    let s := s.tick core ((s.core core).clock + 1)
    -- the next stroke
    let s := s.modSeq core (fun q =>
      let q := if drain then q else { q with issued := q.issued + 1 }
      let q := { q with stroke := t + 1, phase := 0, nextPc := none }
      if drain then q
      else if ends then ({ q with pc := next, ending := false } : Sequencer).endProgram
      else { q with pc := next, loops := loops, ix := ups.foldl (fun m u => mset 0 m u.1 u.2) q.ix })
    -- scalar writes land
    let now := (s.core core).seq.writes.filter (fun x => decide (x.due = t + 1) && match x.target with
      | .scalar _ _ => true
      | .cmp _ _ _ _ => true
      | .flags _ _ => true
      | _ => false)
    let s := (List.range 0x18).foldl (fun s sel => s.doubleWrites core 4 sel
      ((now.filter (fun x => match x.target with | .scalar r _ => decide (r = sel) | _ => false)).map (fun x => (x.slot, x.pc)))) s
    s.modSeq core (fun q => now.foldl Sequencer.apply { q with writes := q.writes.filter (fun y => decide (y ∉ now)) })

/-- Performs one part of the stroke in progress: 2 landings, 3 A, 4 L0, 5 L1, 6 S, 7 X, 8 Y, 9 the array, 10 the end. -/
def State.coxPart (s : State) (core p : Nat) : State :=
  let done := fun (s : State) => s.modSeq core (fun q => { q with phase := p })
  match p with
  | 2 => done (s.coxLandings core)
  | 3 => done (s.modArray core (fun a => a.issueA (s.core core).seq))
  | 4 => done (s.coxLoad core 1)
  | 5 => done (s.coxLoad core 2)
  | 6 => done (s.coxStore core)
  | 7 => done (s.coxScalar core)
  | 8 => done (s.coxSync core)
  | 9 => done (s.coxArray core)
  | _ => s.coxFinish core

def State.coxParts (s : State) (core : Nat) : List Nat → State
  | [] => s
  | p :: ps => (s.coxPart core p).coxParts core ps

/-- Performs the parts of the stroke in progress up to part p. -/
def State.strokeTo (s : State) (core p : Nat) : State :=
  s.coxParts core ((List.range (p + 1)).filter (fun i => decide ((s.core core).seq.phase < i) && decide (2 ≤ i)))

end Sys2Proof.Machine
end

