-- ==== Sys2Proof/Machine/CoxRows.lean ====
section
/-! DEFINITION. The commands of the cox stream (06_cox_stream.md, 05_matrix_array.md): loading, starting and ending programs,
the slots of a stroke word, what lands, and the issue of a stroke. -/

namespace Sys2Proof.Machine

open Sys2Proof

/-! ### Rows of one stroke -/

/-- A command for a part of the stroke: where a stroke is or comes into progress and the part is due, the stroke runs up to
it; otherwise nothing happens (log entry 1). -/
def State.coxRow (s : State) (core p : Nat) (due : Core → Bool) : State :=
  let (s', begun) := s.beginStroke core
  if begun && decide ((s'.core core).seq.phase < p) && due (s'.core core) then s.orWait (s'.strokeTo core p) else s

/-- Whether slot n of the word at the PC has operation op, in a stroke that is no drain stroke. -/
def Core.slotOp (k : Core) (n op : Nat) : Bool :=
  !k.seq.draining &&
    (match k.coxJob with
     | some j => (match j.words[k.seq.pc]? with
        | some w => decide (bits (slotOf w n) 0 4 = op)
        | none => false)
     | none => false)

/-- A load-streamer operation: in L0 if its part is still to come, else in L1. -/
def State.coxStream (s : State) (core op : Nat) : State :=
  if (s.core core).slotOp 1 op && decide ((s.core core).seq.phase < 4) then s.coxRow core 4 (fun k => k.slotOp 1 op)
  else s.coxRow core 5 (fun k => k.slotOp 2 op)

/-- A waiting operation: it registers its wait when its word reaches the issue point, and goes on once released (R177). -/
def State.coxWaitRow (s : State) (core op : Nat) : State :=
  if (s.core core).slotOp 5 op then
    let (s', begun) := s.beginStroke core
    s.orWait (if begun then (if (s'.core core).seq.phase < 8 then s'.strokeTo core 8 else s') else s')
  else s

/-- LOAD begins a load phase (R143), unless its word is inconsistent (R145). -/
def execLoad (core : Nat) (s : State) : Outcome := .next (s.coxRow core 3 (fun k => k.slotOp 0 1))

/-- RESULT makes the present stroke the head of a row that will land (R152). -/
def execResult (core : Nat) (s : State) : Outcome := .next (s.coxRow core 3 (fun k => k.slotOp 0 2))

/-- SLICE begins a slice run, its first pass included (R156). -/
def execSlice (core : Nat) (s : State) : Outcome := .next (s.coxRow core 3 (fun k => k.slotOp 0 3))

/-- SLICE_PASS: a later pass of the running slice run begins with its load (R156). -/
def execSlicePass (core : Nat) (s : State) : Outcome :=
  .next (s.coxRow core 3 (fun k =>
    match k.array.run with
    | some r => decide (r.t0 < k.seq.stroke) && decide (k.seq.stroke < r.stop) && decide ((k.seq.stroke - r.t0) % (r.m + 128) = 0)
    | none => false))

/-- ROW_COMMIT: rows whose load phase ends in this stroke commit with the array's step (R143). -/
def execRowCommit (core : Nat) (s : State) : Outcome :=
  .next (s.coxRow core 9 (fun k => !(k.array.commits k.seq.stroke).isEmpty))

/-- RESULT_ROW_LANDS: the row with head h lands in stroke h + 260 (R148, R152). -/
def execResultRowLands (core : Nat) (s : State) : Outcome :=
  .next (s.coxRow core 2 (fun k => k.array.results.any (fun c => decide (c.head + resultLatency = k.seq.stroke))))

/-- TO_A reads a scratch row for the A path (R172). -/
def execToA (core : Nat) (s : State) : Outcome := .next (s.coxStream core 1)

/-- TO_B reads a scratch row for the B-load path (R172). -/
def execToB (core : Nat) (s : State) : Outcome := .next (s.coxStream core 2)

/-- STG reads a scratch row for a staging register (R172). -/
def execStg (core : Nat) (s : State) : Outcome := .next (s.coxStream core 3)

/-- SR_TO_A reads a staging register for the A path (R172). -/
def execSrToA (core : Nat) (s : State) : Outcome := .next (s.coxStream core 4)

/-- SR_TO_B reads a staging register for the B-load path (R172). -/
def execSrToB (core : Nat) (s : State) : Outcome := .next (s.coxStream core 5)

/-- STORE reads an accumulator row and converts it (R173). -/
def execStore (core : Nat) (s : State) : Outcome := .next (s.coxRow core 6 (fun k => k.slotOp 3 1))

/-- STREAMER_DELIVERY: the rows take what the streamers deliver in this stroke (R146, R147, R181). -/
def execStreamerDelivery (core : Nat) (s : State) : Outcome :=
  .next (s.coxRow core 9 (fun k => k.seq.writes.any (fun x => decide (x.due = k.seq.stroke) && match x.target with
    | .pathA _ => true
    | .pathB _ => true
    | _ => false)))

/-- STAGING_LANDS: a staging register takes its row (R181). -/
def execStagingLands (core : Nat) (s : State) : Outcome :=
  .next (s.coxRow core 2 (fun k => k.seq.writes.any (fun x => decide (x.due = k.seq.stroke) && match x.target with
    | .staging _ _ _ => true
    | _ => false)))

/-- STORE_LANDS: the bytes of a store land in scratch (R181, R182). -/
def execStoreLands (core : Nat) (s : State) : Outcome :=
  .next (s.coxRow core 2 (fun k => k.seq.writes.any (fun x => decide (x.due = k.seq.stroke) && match x.target with
    | .scratch _ _ => true
    | _ => false)))

/-- SET of slot X (R175). -/
def execSetScalar (core : Nat) (s : State) : Outcome := .next (s.coxRow core 7 (fun k => k.slotOp 4 1))

/-- ADD of slot X (R175). -/
def execAddScalar (core : Nat) (s : State) : Outcome := .next (s.coxRow core 7 (fun k => k.slotOp 4 2))

/-- LOOP enters a hardware loop (R186). -/
def execLoop (core : Nat) (s : State) : Outcome := .next (s.coxRow core 7 (fun k => k.slotOp 4 3))

/-- BR (R175). -/
def execBr (core : Nat) (s : State) : Outcome := .next (s.coxRow core 7 (fun k => k.slotOp 4 4))

/-- BRC of slot X, on a comparator (R176). -/
def execXBrc (core : Nat) (s : State) : Outcome := .next (s.coxRow core 7 (fun k => k.slotOp 4 5))

/-- CMPCFG sets a comparator (R176). -/
def execCmpcfg (core : Nat) (s : State) : Outcome := .next (s.coxRow core 7 (fun k => k.slotOp 4 6))

/-- BRF branches on a cox flag (R175). -/
def execBrf (core : Nat) (s : State) : Outcome := .next (s.coxRow core 7 (fun k => k.slotOp 4 7))

/-- END ends the program after its word (R189). -/
def execEndProgram (core : Nat) (s : State) : Outcome := .next (s.coxRow core 7 (fun k => k.slotOp 4 8))

/-- ARRIVE (R177). -/
def execArrive (core : Nat) (s : State) : Outcome := .next (s.coxRow core 8 (fun k => k.slotOp 5 1))

/-- WAIT (R177). -/
def execWait (core : Nat) (s : State) : Outcome := .next (s.coxWaitRow core 2)

/-- ARRWAIT (R177). -/
def execArrwait (core : Nat) (s : State) : Outcome := .next (s.coxWaitRow core 3)

/-- WAITGEN (R177). -/
def execWaitgen (core : Nat) (s : State) : Outcome := .next (s.coxWaitRow core 4)

/-- FLAGSET (R177). -/
def execFlagset (core : Nat) (s : State) : Outcome := .next (s.coxRow core 8 (fun k => k.slotOp 5 5))

/-- FLAGCLR (R177). -/
def execFlagclr (core : Nat) (s : State) : Outcome := .next (s.coxRow core 8 (fun k => k.slotOp 5 6))

/-- MARK emits a trace record (R177). -/
def execMark (core : Nat) (s : State) : Outcome := .next (s.coxRow core 8 (fun k => k.slotOp 5 7))

/-! ### The end of a program on a core -/

/-- The status of a program that has ended, stopped or been drained, on its core (R194). -/
def State.coxStatus (s : State) (core : Nat) (j : CoxJob) (l : CoxLaunch) : Nat × Nat :=
  let q := (s.core core).seq
  match j.fault with
  | some f => f
  | none =>
    match q.firstUnmapped with
    | some lid => (0x13, lid)
    | none => if q.stopped then (4, l.limit) else q.firstRelease.getD (0, 0)

/-- A program is done on its core with a status and detail; the core may start its next (R167). -/
def State.coxDone (s : State) (core launch : Nat) (out : Nat × Nat) : State :=
  let s := s.modCore core (fun k => k.modJob launch (fun j => { j with done := some out }))
  match s.coxLaunch launch with
  | some l =>
    let tag := match s.pkt l.ctx l.pid with | some p => p.tag | none => 0
    s.traceEnd core (pairOf l.layer l.oper) tag 2 l.ctx out.1
  | none => s

/-- A chain joins an engine's queue, or waits for room behind it (R215). -/
def State.queueChain (s : State) (core : Nat) (c : Chain) : State :=
  s.modCore core (fun k => { k with engine :=
    if k.engine.queue.length < engineDepth ∧ k.engine.waiting = [] then { k.engine with queue := k.engine.queue ++ [c] }
    else { k.engine with waiting := k.engine.waiting ++ [c] } })

/-- The program stops issuing before its end: no further word, a running slice run cut without an entry, its wait taken
back (R191, R405). -/
def State.coxStop (s : State) (core : Nat) : State :=
  (((s.unwait (.cox core)).modSeq core (fun q => { q with active := false, draining := true, ywait := .none, banks := [] })).modArray
    core (fun a => { a with run := none }))

/-- STROKE_LIMIT: a program that has issued N words and has not ended stops; the sequencer's entry comes last of its stroke's (R188, R191). -/
def execStrokeLimit (core : Nat) (s : State) : Outcome :=
  match s.coxNow core with
  | some (_, l) =>
    let q := (s.core core).seq
    if q.active = true ∧ q.phase = 0 ∧ l.limit ≠ 0 ∧ l.limit ≤ q.issued then
      .next ((s.modSeq core (fun q => { q with
        strokeLog := q.strokeLog ++ [⟨q.stroke % 2 ^ 40, q.pc, 6, 6, l.layer, l.oper, 0, 0, q.issued⟩] })).coxStop core)
    else .next s
  | none => .next s

/-- DRAIN_END: once nothing is on its way, the drain is complete; a stroke-limited launch then queues its dump, another is
done on this core (R158, R192). -/
def execDrainEnd (core : Nat) (s : State) : Outcome :=
  match s.coxNow core with
  | some (j, l) =>
    let k := s.core core
    if k.seq.draining = true ∧ k.seq.phase = 0 ∧ k.coxBusy = false ∧ j.drained = false then
      let s := s.flushLog core (pairOf l.layer l.oper)
      let s := s.modCore core (fun k => { k.modJob j.launch (fun j => { j with drained := true, dumpStatus := k.seq.status }) with
        seq := { k.seq with draining := false, banks := [] }, array := { k.array with run := none } })
      if l.limit = 0 ∨ j.fault.isSome = true then .next (s.coxDone core j.launch (s.coxStatus core j l))
      else
        let s := s.modCore core (fun k => k.modJob j.launch (fun j => { j with dump := 1 }))
        .next (s.queueChain core { owner := .dump j.launch, ctx := l.ctx, addr := l.dump + j.rank * 0x41000, layer := l.layer, oper := l.oper })
    else .next s
  | none => .next s

/-- STROKE_ISSUE: one word or drain stroke issues, and everything of its stroke happens (R139, R180). In a withheld cycle
nothing in the stream advances. An uncorrectable error of the word stops the program, which drains without a dump
(R405). -/
def execStrokeIssue (core : Nat) (s : State) : Outcome := s.waits <|
  let (s', begun) := s.beginStroke core
  if begun then .next (s'.strokeTo core 10)
  else
    match s'.coxNow core with
    | none => .next s
    | some (j, l) =>
      let q := (s'.core core).seq
      if q.active && decide (q.pc ∈ j.wordErr) && decide (q.phase = 0) then
        let part := (s'.ctx l.ctx).part
        let detail := 2 ^ 63 + 0x05 * 2 ^ 56 + s'.pcore part core
        let s := s'.modCore core (fun k => k.modJob j.launch (fun j => { j with fault := some (0x12, detail) }))
        let tag := match s.pkt l.ctx l.pid with | some p => p.tag | none => 0
        .next ((s.coxStop core).ras { cls := 3, source := 5, part := some part, unit := core, addr := q.pc, tag := tag })
      else
        let waits : Bool := match q.ywait with
          | .registered _ _ => true
          | _ => false
        let s := s'.modSeq core (fun q => { q with banks := [] })
        if q.active && waits then
          .next ((s.count core 0x03 2 (pairOf l.layer l.oper) 1).tick core ((s.core core).clock + 1))
        else .next s

/-- How early a status comes in the order of R194. -/
def coxRankOf (st : Nat) : Nat :=
  if st = 0x11 ∨ st = 0x12 then 0 else if st = 0x13 then 1 else if st = 4 then 2 else if st = 2 ∨ st = 3 then 3 else 4

/-- The jobs of a launch, by core. -/
def State.jobsOf (s : State) (launch : Nat) (cores : List Nat) : List (Option CoxJob) :=
  cores.map (fun c => (s.core c).jobs.find? (fun j => decide (j.launch = launch)))

/-- COX_LAUNCH_COMPLETE: every core of the set is done; the launch completes with the first status in the order of R194, and
the detail of the lowest rank that reached it (R168, R194). Claims and prefetch areas are given up. -/
def execCoxLaunchComplete (launch : Nat) (s : State) : Outcome :=
  match s.coxLaunch launch with
  | none => .next s
  | some l =>
    let outs := (s.jobsOf launch l.cores).map (fun j => j.bind (fun j => j.done))
    if !l.dispatched ∨ outs.any Option.isNone = true then .next s
    else
      let got := outs.filterMap id
      let best := minOf 4 (got.map (fun o => coxRankOf o.1))
      let out := (got.find? (fun o => decide (coxRankOf o.1 = best))).getD (0, 0)
      let s := l.cores.foldl (fun s c => s.modCore c (fun k => { k with
        jobs := k.jobs.filter (fun j => decide (j.launch ≠ launch))
        staging := k.staging.filter (fun a => decide (a.launch ≠ launch)) })) s
      let s := { s with coxLaunches := merase s.coxLaunches launch }
      .next (if l.aborted then s.packetDone l.ctx l.pid 1 0 else s.packetDone l.ctx l.pid out.1 out.2)

/-! ### Loading and starting -/

/-- Whether a header keeps Table 6-1 (R163). -/
def headerOk (h : List Byte) : Bool :=
  let f := fun off n => field h off n
  let base := f 4 4
  let size := f 8 4
  decide (f 0 2 = 1) && decide (f 2 2 = 0) && decide (base % 256 = 0) && decide (size % 256 = 0) &&
    decide (base + size ≤ 524288) && decide (f 12 1 ≤ 4) && decide (f 13 3 = 0) && decide (f 80 48 = 0) &&
    (List.range 4).all (fun i =>
      if i < f 12 1 then
        let area := f (24 + 16 * i) 4
        let n := f (28 + 16 * i) 4
        decide (area % 256 = 0) && decide (n % 256 = 0) && decide (base ≤ area) && decide (area + n ≤ base + size)
      else decide (f (16 + 16 * i) 16 = 0))

/-- The prefetch entries of a header. -/
def headerPrefetch (h : List Byte) : List Prefetch :=
  (List.range (field h 12 1)).map (fun i =>
    { desc := field h (16 + 16 * i) 8, area := field h (24 + 16 * i) 4, bytes := field h (28 + 16 * i) 4 })

/-- Queues the prefetch chains of a program that are not queued (R166). -/
def State.queuePrefetch (s : State) (core launch : Nat) : State :=
  match (s.core core).jobs.find? (fun j => decide (j.launch = launch)), s.coxLaunch launch with
  | some j, some l =>
    if !j.loaded || (l.noPrefetch && !j.dispatched) then s
    else
      let todo := (j.pf.zip (List.range j.pf.length)).filter (fun e => decide (e.1.stage = 0))
      let chain := fun (e : Prefetch × Nat) =>
        ({ owner := .prefetch launch e.2, ctx := l.ctx, addr := e.1.desc, area := some (e.1.area, e.1.bytes)
           layer := l.layer, oper := l.oper } : Chain)
      let s := todo.foldl (fun s e => s.queueChain core (chain e)) s
      s.modCore core (fun k => k.modJob launch (fun j => { j with
        pf := j.pf.map (fun p => if p.stage = 0 then { p with stage := 1 } else p) }))
  | _, _ => s

/-- The entries of the prefetch chains that ran outside their areas during run-ahead are written at dispatch (R60, R166). -/
def State.logOwed (s : State) (core launch : Nat) : State :=
  match (s.core core).jobs.find? (fun j => decide (j.launch = launch)), s.coxLaunch launch with
  | some j, some l =>
    let n := sum (j.pf.map (fun p => p.owed))
    let e : CoxEntry := ⟨(s.core core).seq.stroke % 2 ^ 40, 0, 6, 3, l.layer, l.oper, 0x0E, 0, 0⟩
    let s := (List.range n).foldl (fun s _ => s.coxLogNow core (pairOf l.layer l.oper) e) s
    s.modCore core (fun k => k.modJob launch (fun j => { j with pf := j.pf.map (fun p => { p with owed := 0 }) }))
  | _, _ => s

/-- The launch that a cox packet asks for (Table 2-6). -/
def coxLaunchOf (ctx : Nat) (p : Pkt) (cores : List Nat) : CoxLaunch :=
  { ctx, pid := p.pid, cores, program := field p.data 16 8, words := field p.data 24 4, limit := field p.data 32 8
    dump := field p.data 40 8
    agBase := (List.range 8).map (fun i => BitVec.ofNat 64 (field p.data (64 + 8 * i) 8))
    agStride := (List.range 8).map (fun i => if p.opcode = 0x32 then BitVec.ofNat 64 (field p.data (128 + 8 * i) 8) else 0)
    noPrefetch := bit (field p.data 2 2) 1, layer := p.layer, oper := p.oper }

/-- The cores that a cox packet names (R51). -/
def State.coxCores (s : State) (ctx : Nat) (p : Pkt) : List Nat :=
  ((s.coresOf (s.ctx ctx).part).drop (field p.data 28 2)).take (if p.opcode = 0x32 then field p.data 30 2 else 1)

/-- The launch of a packet, if it has been made. -/
def State.launchOfPkt (s : State) (ctx pid : Nat) : Option Nat :=
  (s.coxLaunches.find? (fun e => decide (e.2.ctx = ctx) && decide (e.2.pid = pid))).map (·.1)

/-- Makes the launch of a packet, if it has not been made: its number. -/
def State.makeLaunch (s : State) (ctx : Nat) (p : Pkt) (cores : List Nat) : State × Nat :=
  match s.launchOfPkt ctx p.pid with
  | some n => (s, n)
  | none =>
    let n := s.nextLaunch
    ({ s with nextLaunch := n + 1, coxLaunches := minsert s.coxLaunches n (coxLaunchOf ctx p cores) }, n)

/-- The prefetch chains of a launch that were queued in run-ahead carry its pair from its dispatch on (R47). -/
def Engine.carry (e : Engine) (launch layer oper : Nat) : Engine :=
  let f := fun (c : Chain) => match c.owner with
    | .prefetch l _ => if l = launch then { c with layer, oper } else c
    | _ => c
  { e with queue := e.queue.map f, waiting := e.waiting.map f }

/-- A dispatched launch takes its place behind the launches dispatched before it on a core (R167). -/
def Core.dispatchJob (k : Core) (launch rank : Nat) : Core :=
  let j := (k.jobs.find? (fun j => decide (j.launch = launch))).getD { launch, rank }
  let rest := k.jobs.filter (fun j => decide (j.launch ≠ launch))
  let j := { j with dispatched := true, pf := j.pf.map (fun p => if p.stage = 3 then { p with stage := 0 } else p) }
  { k with jobs := rest.filter (fun j => j.dispatched) ++ [j] ++ rest.filter (fun j => !j.dispatched) }

/-- `LAUNCH_COX` and `BROADCAST_COX` at the dispatch point (R51, R164 to R168). -/
def State.launchCox (s : State) (ctx : Nat) (p : Pkt) : State :=
  let cores := s.coxCores ctx p
  let count := if p.opcode = 0x32 then field p.data 30 2 else 1
  if s.namesOut cores then s
  else
    let s := s.dispatch ctx p.pid .dispatched
    if cores.length < count then s.packetDone ctx p.pid 1 0
    else
      let p := (s.pkt ctx p.pid).getD p
      let (s, n) := s.makeLaunch ctx p cores
      let s := { s with coxLaunches := s.coxLaunches.map (fun e =>
        if e.1 = n then (e.1, { e.2 with dispatched := true, layer := p.layer, oper := p.oper }) else e) }
      let ranks := cores.zip (List.range cores.length)
      ranks.foldl (fun s e =>
        ((s.modCore e.1 (fun k =>
          let k := k.dispatchJob n e.2
          { k with engine := k.engine.carry n p.layer p.oper })).logOwed e.1 n).queuePrefetch e.1 n) s

/-- LAUNCH_COX: one core (R164, R167). -/
def execLaunchCox (ctx : Nat) (s : State) : Outcome := .next (s.atDispatch ctx 0x31 (fun s p => s.launchCox ctx p))

/-- BROADCAST_COX: a set of cores (R168). -/
def execBroadcastCox (ctx : Nat) (s : State) : Outcome := .next (s.atDispatch ctx 0x32 (fun s p => s.launchCox ctx p))

/-- The copies of a physical line in the instruction cache take new contents (R225), under whatever address they were fetched. -/
def Core.replaceLine (k : Core) (line : Nat) (new : List Byte → List Byte) : Core :=
  { k with icache := k.icache.map (fun e => if mfind k.icachePa e.1 = some line then (e.1, new e.2) else e) }

/-- What an image read brings of its lines, piece by piece, replaces any copy of them in the instruction cache (R225): the whole line as its
home gives it, or the bytes read of a line of host memory. -/
def State.refreshIcache (s : State) (w : Requester) (core : Nat) (bytes : List Byte) : List (Nat × Nat) → State
  | [] => s
  | (va, n) :: rest =>
    match s.xlate w va { r := true } with
    | (s, .ok pa) =>
      let q := (s.ctx w.ctx).part
      let off := va % 128
      let new := fun (old : List Byte) =>
        match s.locate q pa, s.lineGives q (pa / 128 * 128) 128 with
        | .host _, _ => old.take off ++ bytes.take n ++ old.drop (off + n)
        | _, .ok bs => bs
        | _, _ => old
      (s.modCore core (fun k => k.replaceLine (lineKey q pa) new)).refreshIcache w core (bytes.drop n) rest
    | (s, _) => s.refreshIcache w core (bytes.drop n) rest

/-- Reads a program's header and words into a job whose place in the buffer is free. `own` tells whether the launch has been
dispatched: only then is a fault reported (R164). Nothing changes while a crew's scratch overlaps the reservation (R165). A load past an
unresolved `IF_FLAG` leaves the instruction cache as it is (R62, Table 2-7). -/
def State.loadProgram (s : State) (core launch : Nat) (l : CoxLaunch) (own speculative : Bool) : State :=
  let w : Requester := { cache := core, master := .io (dieOf core), ctx := l.ctx, fill := !speculative }
  let who : Reader := .sequencer l.ctx
  let fail := fun (s' : State) (st d : Nat) =>
    if own then s'.coxDone core launch (st, d) else if speculative then s else s'
  match s.vaRead w l.program 128 with
  | (s', .trans a) => fail s' 0x11 a
  | (s', .poison a) => fail s' 0x12 a
  | (s', .held g line) =>
    match s'.orHeld who (.held g line) with
    | (s', .poison a) => fail s' 0x12 a
    | (s', _) => s'
  | (s', .ok h) =>
    if !headerOk h then s'.modCore core (fun k => k.modJob launch (fun j => { j with loaded := true, bad := true }))
    else
      let base := field h 4 4
      let size := field h 8 4
      let crews := (s'.core core).crews.map (fun e => (e.2.scratchBase, e.2.scratchSize))
      if !clearOf crews base size && decide (size ≠ 0) then s
      else
        match s'.vaRead w (l.program + 128) (32 * l.words) with
        | (s', .trans a) => fail s' 0x11 a
        | (s', .poison a) => fail s' 0x12 a
        | (s', .held g line) =>
          match s'.orHeld who (.held g line) with
          | (s', .poison a) => fail s' 0x12 a
          | (s', _) => s'
        | (s', .ok bs) =>
          let words := (List.range l.words).map (fun i => field bs (32 * i) 32)
          let pf := headerPrefetch h
          let s' := if speculative then s'
            else s'.refreshIcache w core (h ++ bs) (linePieces (l.words / 4 + 3) l.program (128 + 32 * l.words))
          let s' := s'.modCore core (fun k =>
            let k := k.modJob launch (fun j => { j with
              loaded := true, claimed := true, halves := (if l.words ≤ 1024 then 1 else 2), words := words
              resBase := base, resBytes := size, pf := pf })
            { k with
              staging := k.staging ++ (pf.filter (fun p => decide (p.bytes ≠ 0))).map (fun p => ⟨p.area, p.bytes, launch, false⟩) })
          s'.queuePrefetch core launch

/-- The halves of the stroke buffer that a core's programs hold (R164). -/
def Core.halvesUsed (k : Core) : Nat := sum (k.jobs.map (fun j => j.halves))

/-- Run-ahead work makes room for a dispatched launch: its loaded programs are discarded. -/
def State.evictRunAhead (s : State) (core : Nat) : State :=
  let gone := ((s.core core).jobs.filter (fun j => !j.dispatched)).map (fun j => j.launch)
  s.modCore core (fun k => { k with
    jobs := k.jobs.filter (fun j => j.dispatched)
    staging := k.staging.filter (fun a => decide (a.launch ∉ gone))
    engine := { k.engine with
      queue := k.engine.queue.filter (fun ch => match ch.owner with | .prefetch l _ => decide (l ∉ gone) | _ => true)
      waiting := k.engine.waiting.filter (fun ch => match ch.owner with | .prefetch l _ => decide (l ∉ gone) | _ => true) } })

/-- COX_PROGRAM_LOAD: the image of a packet's launch is read into the stroke buffer of one of its cores, for a dispatched
launch or in run-ahead, and its header is checked (R60, R163 to R166). -/
def execCoxProgramLoad (core ctx pid : Nat) (s : State) : Outcome := s.waits <|
  match s.pkt ctx pid with
  | none => .next s
  | some p =>
    let cores := s.coxCores ctx p
    let halves := if field p.data 24 4 ≤ 1024 then 1 else 2
    if !(decide (p.opcode = 0x31) || decide (p.opcode = 0x32)) || decide (p.skip ≠ 0) || p.dead then .next s
    else if p.stage = .dispatched then
      match s.launchOfPkt ctx pid with
      | none => .next s
      | some n =>
        match s.coxLaunch n, (s.core core).jobs.find? (fun j => decide (j.dispatched = true) && !j.loaded && j.done.isNone) with
        | some l, some j =>
          if j.launch ≠ n then .next s
          else
            let s := if 2 < (s.core core).halvesUsed + halves then s.evictRunAhead core else s
            if 2 < (s.core core).halvesUsed + halves then .next s else .next (s.loadProgram core n l true false)
        | _, _ => .next s
    else if p.undispatched && decide (core ∈ cores) && decide ((s.ctx ctx).state = .active) && !(s.namesOut cores) then
      if decide (2 < (s.core core).halvesUsed + halves) || (s.core core).jobs.any (fun j => j.dispatched && !j.loaded && j.done.isNone) then .next s
      else
        let (s', n) := s.makeLaunch ctx p cores
        if (s'.core core).jobs.any (fun j => decide (j.launch = n)) then .next s
        else
          match s'.coxLaunch n with
          | none => .next s
          | some l =>
            let rank := cores.findIdx (fun c => decide (c = core))
            let s' := s'.modCore core (fun k => { k with jobs := k.jobs ++ [{ launch := n, rank }] })
            let s' := s'.loadProgram core n l false (s.ctx ctx).speculative
            if (s'.core core).jobs.any (fun j => decide (j.launch = n) && j.loaded) then .next s' else .next s
    else .next s

/-- The scalar state and the array at stroke 0 (R155, R158, R167, Table 6-6). -/
def Core.strokeZero (k : Core) (l : CoxLaunch) (rank : Nat) : Core :=
  let ag := (List.range 8).foldl (fun m i => mset 0 m i (l.agBase.getD i 0 + BitVec.ofNat 64 rank * l.agStride.getD i 0)) []
  { k with
    seq := { sr := k.seq.sr, srPoison := k.seq.srPoison, srErr := k.seq.srErr, log := k.seq.log, logHead := k.seq.logHead,
             active := true, ag }
    array := { k.array.clearStatus with
      pass := [], psum := [], align := [], psumPoison := [], alignPoison := [], results := [], loads := [], run := none, lastLoad := none } }

/-- PROGRAM_START: the next dispatched program of a core starts, once its predecessors are done, its image is in the buffer
and its prefetch chains are complete (R167). One with a bad header is done with COX_STOPPED (R163). -/
def execProgramStart (core : Nat) (s : State) : Outcome :=
  match (s.core core).jobs.find? (fun j => j.dispatched && j.done.isNone) with
  | none => .next s
  | some j =>
    if j.started || !j.loaded then .next s
    else
      match s.coxLaunch j.launch with
      | none => .next s
      | some l =>
        let pair := pairOf l.layer l.oper
        if j.bad then
          .next ((s.coxLogNow core pair ⟨(s.core core).seq.stroke % 2 ^ 40, 0, 6, 3, l.layer, l.oper, 0x0D, 0, 0⟩).coxDone core j.launch (4, 0))
        else if j.pf.all (fun p => decide (p.stage = 2)) then
          let tag := match s.pkt l.ctx l.pid with | some p => p.tag | none => 0
          let s := (s.startCommand core 2 pair).traceStart core pair tag 2 l.ctx
          .next (s.modCore core (fun k => (k.modJob j.launch (fun j => { j with started := true })).strokeZero l j.rank))
        else .next s

end Sys2Proof.Machine
end

