-- ==== Sys2Proof/Machine/Feeder.lean ====
section
/-! DEFINITION. The feeder DMA engine (08_scratch_caches_coherence.md R215 to R223, R454): descriptors and their checks,
copies, fills and conversions (07 R195 to R205), the dump of a stroke-limited program (06 R192), and the `COPY` and `FILL`
packets. -/

namespace Sys2Proof.Machine

open Sys2Proof

/-! ### Descriptors (Table 8-1) -/

/-- A descriptor's fields. -/
structure Desc where
  op : Nat
  flags : Nat
  srcFmt : Nat
  dstFmt : Nat
  slices : Nat
  layout : Nat
  spaces : Nat
  pad : Nat
  src : Nat
  dst : Nat
  rows : Nat
  rowLen : Nat
  srcStride : Nat
  dstStride : Nat
  planeStride : Nat
  expAddr : Nat
  group : Nat
  tail : Nat
  deriving DecidableEq, Repr

def parseDesc (b : List Byte) : Desc :=
  ⟨field b 0 1, field b 1 1, field b 2 1, field b 3 1, field b 4 1, field b 5 1, field b 6 1, field b 7 1, field b 8 8,
    field b 16 8, field b 24 4, field b 28 4, field b 32 8, field b 40 4, field b 44 4, field b 48 8, field b 56 2, field b 58 6⟩

def Desc.last (d : Desc) : Bool := bit d.flags 0
def Desc.expMx (d : Desc) : Bool := bit d.flags 1
def Desc.srcSpace (d : Desc) : Nat := d.spaces % 4
def Desc.dstSpace (d : Desc) : Nat := d.spaces / 4 % 4
def Desc.grouped (d : Desc) : Bool := decide (d.op = 3) && (decide (d.dstFmt = 0x20) || decide (d.dstFmt = 0x21))
def Desc.groupLen (d : Desc) : Nat := if d.group = 0 then d.rowLen else d.group

/-- Fields that the operation does not use, or that Table 8-1 marks zero for it (RESERVED_BITS): `SLICES` but for the grouped form, `SRC_FMT` but
for `CONVERT` and a `COPY` into a skewed layout, and the destination format of a transfer, which has none but raw bytes (log entry 51). -/
def Desc.unused (d : Desc) : List Nat :=
  let always := [d.pad, d.tail, d.flags / 4, d.spaces / 16]
  if d.op = 4 then
    always ++ [d.flags / 2, d.srcFmt, d.dstFmt, d.slices, d.layout, d.dstSpace, d.dst, d.rows, d.rowLen, d.srcStride, d.dstStride,
      d.planeStride, d.expAddr, d.group]
  else
    always ++ (if d.op = 2 then [d.srcSpace, d.srcStride] else []) ++ (if d.layout = 0 then [] else [d.dstStride]) ++
      (if d.grouped then [] else [d.slices, d.planeStride, d.expAddr, d.group, b2n d.expMx]) ++
      (if d.op = 3 then [] else [d.dstFmt]) ++ (if d.op = 2 ∨ (d.op = 1 ∧ d.layout = 0) then [d.srcFmt] else [])

/-- Sources that convert to MX blocks, and those that convert to the grouped form (Tables 7-1, 8-2). -/
def mxSource (f : Nat) : Bool := (decide (0x05 ≤ f) && decide (f ≤ 0x0C)) || (decide (0x18 ≤ f) && decide (f ≤ 0x1C))
def groupSource (f : Nat) : Bool :=
  (decide (0x04 ≤ f) && decide (f ≤ 0x0E)) || decide (f = 0x10) || decide (f = 0x11) || (decide (0x18 ≤ f) && decide (f ≤ 0x1C))

/-- BAD_FORMAT (Table 8-2, R217, R219). -/
def Desc.badFormat (d : Desc) : Bool :=
  if d.op = 3 then
    if d.dstFmt = 0x0D ∨ d.dstFmt = 0x0E then !(mxSource d.srcFmt && decide (d.layout = 0))
    else if d.grouped then
      !(groupSource d.srcFmt &&
        (decide (d.slices = 1) ||
          (decide (d.dstFmt = 0x20) && decide (2 ≤ d.slices) && decide (d.slices ≤ 7) && decide (d.srcFmt ≤ 7))) &&
        (!d.expMx || (decide (d.slices = 1) && decide (d.groupLen % 32 = 0))))
    else true
  else !(decide (d.srcFmt = 0) || decide (d.srcFmt = 0x10) || decide (d.srcFmt = 0x11))

/-- BAD_LAYOUT (Table 8-3). -/
def Desc.badLayout (d : Desc) : Bool :=
  let raw := decide (d.op = 1) && (decide (d.srcFmt = 0x10) || decide (d.srcFmt = 0x11))
  let most := if d.grouped && decide (d.dstFmt = 0x21) then 256 else 128
  decide (d.rows = 0) || decide (65536 < d.rows) || decide (d.rowLen = 0) || decide (2 ^ 31 < d.rowLen) ||
    (decide (d.group ≠ 0) && decide (d.rowLen % d.group ≠ 0)) || decide (d.planeStride % 128 ≠ 0) ||
    (decide (d.layout ≠ 0) &&
      !(decide (d.dstSpace = 2) && (d.grouped || raw) && decide (d.rowLen ≤ most) && (decide (d.layout = 1) || decide (d.rows ≤ 128))))

/-- The reason for which a descriptor is skipped, of lowest value first (R220, Table 8-3); 0 for none. -/
def Desc.check (d : Desc) (anyCore : Bool) : Nat :=
  let badOp := decide (d.op = 0) || decide (4 < d.op) || decide (2 < d.layout) || decide (d.srcSpace = 3) || decide (d.dstSpace = 3) ||
    (decide (d.op = 4) && decide (d.srcSpace = 2))
  if badOp then 1
  else if d.unused.any (fun x => decide (x ≠ 0)) then 2
  else if d.op = 4 then 0
  else if d.badFormat then 3
  else if d.badLayout then 4
  else
    let named := (decide (d.op ≠ 2) && decide (d.srcSpace = 2)) || decide (d.dstSpace = 2)
    if (d.op ≠ 2 ∧ d.srcSpace = 2 ∧ 0x80000 ≤ d.src) ∨ (d.dstSpace = 2 ∧ 0x80000 ≤ d.dst) ∨ (anyCore = true ∧ named = true) then 5
    else 0

/-! ### Elements (R217) -/

/-- Bytes of n elements of a source format in memory. -/
def sourceBytes (fmt n : Nat) : Nat :=
  match fmt with
  | 0x04 => 8 * n
  | 0x05 => 4 * n
  | 0x06 => 2 * n
  | 0x07 => 2 * n
  | 0x0C => (n + 1) / 2
  | 0x0D => 33 * ((n + 31) / 32)
  | 0x0E => 17 * ((n + 31) / 32)
  | 0x11 => (n + 1) / 2
  | 0x1C => 17 * ((n + 31) / 32)
  | f => if 0x18 ≤ f then 33 * ((n + 31) / 32) else n

/-- The w-bit element k of packed bytes: short formats of six bits lie four to a 32-bit register (Table 4-10). -/
def packed (bs : List Byte) (w k : Nat) : Nat :=
  if w = 6 then bits (field bs (k / 4 * 4) 4) (6 * (k % 4)) 6
  else if w = 4 then bits (field bs (k / 2) 1) (4 * (k % 2)) 4
  else field bs (w / 8 * k) (w / 8)

/-- An integer as an exact value. -/
def Fp.ofInt (z : Int) (e : Int) : Fp := if z = 0 then .zero false else .fin (decide (z < 0)) z.natAbs e

/-- Element k of a source row. -/
def sourceElem (fmt : Nat) (bs : List Byte) (k : Nat) : Fp :=
  let short := fun (code : Nat) (b : List Byte) (j : Nat) =>
    match shortOf code with
    | some h => h.unpack (packed b h.width j)
    | none => .zero false
  let blk := fun (n : Nat) => (bs.drop (n * (k / 32))).take n
  match fmt with
  | 0x04 => fp64.unpack (packed bs 64 k)
  | 0x05 => fp32.unpack (packed bs 32 k)
  | 0x06 => fp16.unpack (packed bs 16 k)
  | 0x07 => bf16.unpack (packed bs 16 k)
  | 0x0D =>
    let x := field (blk 33) 32 1
    if x = 0xFF then .nan false else Fp.ofInt (sext (packed (blk 33) 8 (k % 32)) 8) ((x : Int) - 133)
  | 0x0E =>
    let x := field (blk 17) 16 1
    if x = 0xFF then .nan false else Fp.ofInt (sext (packed (blk 17) 4 (k % 32)) 4) ((x : Int) - 129)
  | 0x10 => Fp.ofInt (sext (packed bs 8 k) 8) 0
  | 0x11 => Fp.ofInt (sext (packed bs 4 k) 4) 0
  | f =>
    if 0x18 ≤ f then
      let n := sourceBytes f 32
      let x := field (blk n) (n - 1) 1
      if x = 0xFF then .nan false else (short (f - 0x10) (blk n) (k % 32)).scale ((x : Int) - 127)
    else short f bs k

/-- Whether element k is an FP32 or FP64 subnormal, which the grouped form flushes (R203). -/
def sourceFlushed (fmt : Nat) (bs : List Byte) (k : Nat) : Bool :=
  if fmt = 4 then fp64.subnormal (packed bs 64 k) else if fmt = 5 then fp32.subnormal (packed bs 32 k) else false

/-- Bytes of 4-bit elements, low nibble first. -/
def nibbles : List Int → List Byte
  | [] => []
  | [a] => [BitVec.ofNat 8 (toMod a 4)]
  | a :: b :: rest => BitVec.ofNat 8 (toMod a 4 + 16 * toMod b 4) :: nibbles rest

/-- What one row becomes: the writes (address, bytes) in the destination space, and the events FLUSHED, NONFINITE, CLAMPED. -/
structure Made where
  writes : List (Nat × List Byte) := []
  flushed : Nat := 0
  nonfinite : Nat := 0
  clamped : Nat := 0
  deriving DecidableEq, Repr

/-- Where the bytes of row r in plane p go (R218). -/
def Desc.placed (d : Desc) (p r : Nat) (bs : List Byte) : List (Nat × List Byte) :=
  let base := d.dst + p * d.planeStride
  if d.layout = 0 then [(base + r * d.dstStride, bs)]
  else
    let off := if d.layout = 1 then r else 127 - r
    (bs.zip (List.range bs.length)).map (fun e => (base + 128 * (off + e.2) + e.2, [e.1]))

/-- A row converted to MX blocks (R200, R218). -/
def Desc.toBlocks (d : Desc) (r : Nat) (bs : List Byte) : Made :=
  let eight := decide (d.dstFmt = 0x0D)
  let size := if eight then 33 else 17
  (List.range ((d.rowLen + 31) / 32)).foldl (fun m i =>
    let vs := (List.range 32).map (fun j => if 32 * i + j < d.rowLen then sourceElem d.srcFmt bs (32 * i + j) else .zero false)
    let (x, q, bad, cl) := mxEncode vs eight
    let body := if eight then q.map (fun z => BitVec.ofNat 8 (toMod z 8)) else nibbles q
    { m with
      writes := m.writes ++ [(d.dst + r * d.dstStride + i * size, body ++ toBytes 1 x)]
      nonfinite := m.nonfinite + bad
      clamped := m.clamped + cl }) {}

/-- The exponent word of a group, or its scale bytes (R219). -/
def Desc.exponents (d : Desc) (r g : Nat) (e : Int) : Made :=
  let n := d.groupLen
  if d.expMx then
    let x := e + 126
    let out := decide (x < 0) || decide (254 < x)
    let v := if e = 0x7FFF ∨ out = true then 0xFF else x.toNat
    { writes := [(d.expAddr + r * (d.rowLen / 32) + g * (n / 32), List.replicate (n / 32) (BitVec.ofNat 8 v))]
      clamped := if e ≠ 0x7FFF ∧ out = true then n / 32 else 0 }
  else { writes := [(d.expAddr + 2 * (r * (d.rowLen / n) + g), toBytes 2 (toMod e 16))] }

/-- A row converted to the grouped form (R202, R203). -/
def Desc.toGroups (d : Desc) (r : Nat) (bs : List Byte) : Made :=
  let eight := decide (d.dstFmt = 0x20)
  let n := d.groupLen
  let one := fun (acc : List (List Int) × Made) (g : Nat) =>
    let ks := (List.range n).map (fun j => n * g + j)
    let vs := ks.map (fun k => if sourceFlushed d.srcFmt bs k then .zero false else sourceElem d.srcFmt bs k)
    let (e, sl, bad) := groupedEncode vs d.slices eight
    let x := d.exponents r g e
    (acc.1 ++ sl, { acc.2 with
      writes := acc.2.writes ++ x.writes
      flushed := acc.2.flushed + (ks.filter (sourceFlushed d.srcFmt bs)).length
      nonfinite := acc.2.nonfinite + bad
      clamped := acc.2.clamped + x.clamped })
  let (sl, m) := (List.range (d.rowLen / n)).foldl one ([], {})
  let plane := fun (p : Nat) =>
    let zs := sl.map (fun s => s.getD p 0)
    if eight then zs.map (fun z => BitVec.ofNat 8 (toMod z 8)) else nibbles zs
  { m with writes := (List.range d.slices).flatMap (fun p => d.placed p r (plane p)) ++ m.writes }

/-- What row r of a descriptor becomes, given its source bytes. -/
def Desc.make (d : Desc) (r : Nat) (bs : List Byte) : Made :=
  match d.op with
  | 1 => { writes := d.placed 0 r bs }
  | 2 => { writes := d.placed 0 r ((List.range d.rowLen).map (fun i => BitVec.ofNat 8 (d.src / 256 ^ (i % 8)))) }
  | _ => if d.grouped then d.toGroups r bs else d.toBlocks r bs

/-! ### The engine's accesses -/

def State.modEngine (s : State) (core : Nat) (f : Engine → Engine) : State :=
  s.modCore core (fun k => { k with engine := f k.engine })

/-- The chain at the head of the queue. -/
def State.headChain (s : State) (core : Nat) : Option Chain := (s.core core).engine.queue.head?

/-- Changes the chain at the head of the queue. -/
def State.modChain (s : State) (core : Nat) (f : Chain → Chain) : State :=
  s.modEngine core (fun e => match e.queue with
    | c :: rest => { e with queue := f c :: rest }
    | [] => e)

/-- Whether a chain runs in the run-ahead of a launch that is not dispatched, and behind an unresolved `IF_FLAG` (R60,
R62). -/
def State.runAhead (s : State) (c : Chain) : Bool :=
  match c.owner with
  | .prefetch l _ => match s.coxLaunch l with | some x => !x.dispatched | none => false
  | _ => false

def State.engineReq (s : State) (core : Nat) (c : Chain) : Requester :=
  { cache := core, master := .io (dieOf core), ctx := c.ctx, fill := !(s.runAhead c && (s.ctx c.ctx).speculative) }

/-- How far a part of a chain's work has come: done, to be gone on with by a later command, or ended by an access that failed. -/
inductive Progress where
  | done
  | waits
  | fails (a : Access)
  deriving DecidableEq, Repr

/-- An event of a chain; run-ahead counts none (R60, R63). -/
def State.countChain (s : State) (core : Nat) (c : Chain) (ev n : Nat) : State :=
  if s.runAhead c then s else s.count core ev 3 (pairOf c.layer c.oper) n

/-- The banks of scratch that a run of n bytes lies in (R209). -/
def scratchBanks (addr n : Nat) : List Nat :=
  (List.range (min 32 ((addr % 128 + n + 127) / 128))).map (fun i => (addr / 128 + i) % 32)

/-- Whether the cox stream takes, in this stroke, a bank that an access of the engine needs (R182, R209 to R211). -/
def State.engineTaken (s : State) (core space addr n : Nat) : Bool :=
  decide (space = 2) && (scratchBanks addr n).any (fun b => decide (b ∈ (s.core core).seq.banks))

/-- Reads n bytes in a space: context virtual, host bus, or the core's scratch, where poison ends the copy and single-bit errors are
corrected (R214). -/
def State.engineAccess (s : State) (core : Nat) (c : Chain) (space addr n : Nat) : State × Access :=
  if space = 2 then
    let k := s.core core
    let a := addr % 0x80000
    let bad := k.scratchPoison.any (fun w => decide ((8 * w + 7 + 0x80000 - a) % 0x80000 < n + 7))
    if bad then (s, .poison a) else (s.scratchCorrect core a n, .ok (k.scratchRead a n))
  else if space = 0 then
    let (s, x) := s.vaRead (s.engineReq core c) (addr % 2 ^ 64) n
    s.orHeld (.engine core) x
  else
    match s.hostRead (s.ctx c.ctx).fn c.ctx (addr % 2 ^ 64) n with
    | (s, .data bs) => (s, .ok bs)
    | (s, .failed) => (s, .trans addr)
    | (s, .poisoned) => (s, .poison addr)

/-- The parts of a read: scratch rows, lines of context memory, or the whole of it in host memory. -/
def readParts (space addr n : Nat) : List (Nat × Nat) :=
  if space = 1 then (if n = 0 then [] else [(addr, n)]) else linePieces (n / 128 + 2) addr n

/-- Reads the parts of a string, one after the other; what has been read stays with the chain while a part waits (R205). -/
def State.engineRead (s : State) (core : Nat) (c : Chain) (space : Nat) : List (Nat × Nat) → State × Progress
  | [] => (s, .done)
  | (a, n) :: rest =>
    if s.engineTaken core space a n then (s.countChain core c 0x0E 1, .waits)
    else
      match s.engineAccess core c space a n with
      | (s, .ok bs) => (s.modChain core (fun c => { c with got := c.got ++ bs })).engineRead core c space rest
      | (s, .held _ _) => (s, .waits)
      | (s, e) => (s, .fails e)

/-- The bytes of a run that a prefetch chain may write: those within its area (R166). -/
def inArea (area : Option (Nat × Nat)) (a : Nat) : Bool :=
  match area with
  | some (b, n) => decide (b ≤ a) && decide (a < b + n)
  | none => true

/-- Scratch bytes, written with a wrap at 512 KiB and, for a prefetch chain, only within its area (R166). -/
def Core.engineScratch (k : Core) (area : Option (Nat × Nat)) (addr : Nat) (bs : List Byte) : Core :=
  let cells := (bs.zip (List.range bs.length)).map (fun e => ((addr + e.2) % 0x80000, e.1))
  let go := cells.filter (fun e => inArea area e.1)
  let whole := fun w => (List.range 8).all (fun i => go.any (fun b => decide (b.1 = 8 * w + i)))
  { k with
    scratch := go.foldl (fun m e => mset 0 m e.1 e.2) k.scratch
    scratchPoison := k.scratchPoison.filter (fun w => !whole w)
    scratchSoft := k.scratchSoft.filter (fun w => !whole w) }

/-- The bytes of a write of n bytes that a chain does write. -/
def writtenBytes (area : Option (Nat × Nat)) (space addr n : Nat) : Nat :=
  match area with
  | none => n
  | some _ => if space = 2 then ((List.range n).filter (fun i => inArea area ((addr + i) % 0x80000))).length else 0

/-- Writes bytes in a space; what falls outside a prefetch chain's area is discarded (R166). -/
def State.engineWrite (s : State) (core : Nat) (c : Chain) (space addr : Nat) (bs : List Byte) : State × Access :=
  let n := writtenBytes c.area space addr bs.length
  let s := if n < bs.length then s.modChain core (fun c => { c with strayed := true }) else s
  if space = 2 then (s.modCore core (fun k => k.engineScratch c.area addr bs), .ok [])
  else if c.area.isSome then (s, .ok [])
  else if space = 0 then s.vaWrite (s.engineReq core c) (addr % 2 ^ 64) bs
  else (s.hostWrite (s.ctx c.ctx).fn c.ctx (addr % 2 ^ 64) bs, .ok [])

/-- A run of bytes for scratch, cut at its rows: a row is one access (R209). -/
def rowRuns (addr : Nat) (bs : List Byte) : List (Nat × List Byte) :=
  (linePieces (bs.length / 128 + 2) addr bs.length).map (fun e => (e.1, (bs.drop (e.1 - addr)).take e.2))

/-- Performs writes one after the other; those that are left stay with the chain while one waits (R211), or the walk for it is held (R298). -/
def State.engineWrites (s : State) (core : Nat) (c : Chain) (space : Nat) : List (Nat × List Byte) → State × Progress
  | [] => (s, .done)
  | (a, bs) :: rest =>
    if s.engineTaken core space a bs.length then
      ((s.countChain core c 0x0E 1).modChain core (fun c => { c with writes := some ((a, bs) :: rest) }), .waits)
    else
      let (t, x) := s.engineWrite core c space a bs
      match t.orHeld (.engine core) x with
      | (t, .ok _) => (t.countChain core c 0x14 (writtenBytes c.area space a bs.length)).engineWrites core c space rest
      | (t, .held _ _) => (t.modChain core (fun c => { c with writes := some ((a, bs) :: rest) }), .waits)
      | (t, e) => (t, .fails e)

/-- The writes of one piece of work are known: they are performed. -/
def State.enginePut (s : State) (core : Nat) (c : Chain) (space : Nat) (ws : List (Nat × List Byte)) : State × Progress :=
  let s := s.modChain core (fun c => { c with got := [], writes := some [] })
  s.engineWrites core c space (if space = 2 then ws.flatMap (fun w => rowRuns w.1 w.2) else ws)

/-- One row of a descriptor: read, each source element once (R205), converted, written. A row that has been read goes on with its writes. -/
def State.engineRow (s : State) (core : Nat) (c : Chain) (d : Desc) (r : Nat) : State × Progress :=
  match (s.headChain core).bind (·.writes) with
  | some ws => s.engineWrites core c d.dstSpace ws
  | none =>
    let n := if d.op = 3 then sourceBytes d.srcFmt d.rowLen else d.rowLen
    let from' := ((s.headChain core).map (fun c => c.got.length)).getD 0
    let (s, p) := if d.op = 2 then (s, .done)
      else s.engineRead core c d.srcSpace (readParts d.srcSpace (d.src + r * d.srcStride + from') (n - from'))
    match p with
    | .done =>
      let m := d.make r (((s.headChain core).map (·.got)).getD [])
      let s := ((s.countChain core c 0x11 m.flushed).countChain core c 0x12 m.nonfinite).countChain core c 0x13 m.clamped
      s.enginePut core c d.dstSpace m.writes
    | p => (s, p)

/-- The rows of a descriptor that are not written yet. -/
def State.engineRows (s : State) (core : Nat) (c : Chain) (d : Desc) : List Nat → State × Progress
  | [] => (s, .done)
  | r :: rs =>
    match s.engineRow core c d r with
    | (s, .done) => (s.modChain core (fun c => { c with row := r + 1, writes := none })).engineRows core c d rs
    | x => x

/-! ### Chains -/

/-- A descriptor is skipped, or a chain address refused (R220, Table 8-4). -/
def Engine.bad (e : Engine) (reason addr : Nat) : Engine :=
  if e.badDesc then { e with badCount := min (e.badCount + 1) (2 ^ 32 - 1) }
  else { e with badDesc := true, reason := reason, badAddr := addr, badCount := 1 }

/-- The chain at the head has run its last descriptor; a fault that it meets in run-ahead is marked so (R166). -/
def State.chainStop (s : State) (core : Nat) (fault : Option (Nat × Nat)) : State :=
  s.modChain core (fun c => { c with finished := true, fault := fault, early := fault.isSome && s.runAhead c })

/-- What an access that failed does to the chain: a fault ends it; a held read waits (R221, R298). -/
def State.chainFault (s : State) (core : Nat) (a : Access) : State :=
  match a with
  | .trans x => s.chainStop core (some (0x11, x))
  | .poison x => s.chainStop core (some (0x12, x))
  | _ => s

/-- Goes on to the chain's next descriptor at an address, after one with or without `LAST`; the 65,537th descriptor ends the
chain with CHAIN_LONG, and an address that is not aligned with BAD_ALIGN (R216, R220). -/
def State.chainNext (s : State) (core addr space : Nat) (last : Bool) : State :=
  let s := s.modChain core (fun c => { c with
    count := c.count + 1, addr := addr, space := space, desc := none, row := 0, got := [], writes := none })
  match (s.core core).engine.queue with
  | c :: _ =>
    if last then s.chainStop core none
    else if addr % 64 ≠ 0 then (s.modEngine core (fun e => e.bad 7 addr)).chainStop core none
    else if 65536 ≤ c.count then (s.modEngine core (fun e => e.bad 6 addr)).chainStop core none
    else s
  | [] => s

/-- The entry for a prefetch descriptor that had a write discarded: at once for a dispatched launch, else owed (R60,
R166). -/
def State.logBounds (s : State) (core : Nat) (c : Chain) : State :=
  match c.owner with
  | .prefetch launch i =>
    if s.runAhead c then
      s.modCore core (fun k => k.modJob launch (fun j => { j with pf := modifyAt j.pf i (fun p => { p with owed := p.owed + 1 }) }))
    else
      s.coxLogNow core (pairOf c.layer c.oper) ⟨(s.core core).seq.stroke % 2 ^ 40, 0, 6, 3, c.layer, c.oper, 0x0E, 0, 0⟩
  | _ => s

/-- The present descriptor ends: its discarded writes are logged once (R166). -/
def State.endDesc (s : State) (core : Nat) (c : Chain) : State :=
  match (s.core core).engine.queue with
  | x :: _ => if x.strayed then (s.modChain core (fun c => { c with strayed := false })).logBounds core c else s
  | [] => s

/-- The engine works in a cycle behind the one in which its chain began (R215, R423). -/
def State.engineCycle (s : State) (core : Nat) : State := s.tick core ((s.core core).clock + 1)

/-- Runs one descriptor that has passed its checks, from its first row that is not written. -/
def State.runDesc (s : State) (core : Nat) (c : Chain) (d : Desc) : State :=
  match (s.engineCycle core).engineRows core c d ((List.range d.rows).drop c.row) with
  | (s, .done) => (s.endDesc core c).chainNext core (c.addr + 64) c.space d.last
  | (s, .waits) => s
  | (s, .fails e) => (s.endDesc core c).chainFault core e

/-- The next descriptor of the running chain, for the command of its operation: read once, checked, and skipped or run (R216,
R220); one in scratch whose bank the cox stream takes is read in a later stroke (R211). A reserved operation is skipped by whichever
command meets it. -/
def State.descriptor (s : State) (core op : Nat) (run : State → Chain → Desc → State) : State :=
  match (s.core core).engine.queue with
  | [] => s
  | c :: _ =>
    let dump : Bool := match c.owner with
      | .dump _ => true
      | _ => false
    if !c.started || c.finished || c.raw.isSome || dump then s
    else
      let read : State × Access := match c.desc with
        | some bs => (s, .ok bs)
        | none =>
          if s.engineTaken core c.space c.addr 64 then (s.countChain core c 0x0E 1, .held 0 0)
          else s.engineAccess core c c.space c.addr 64
      match read with
      | (s', .ok bs) =>
        let d := parseDesc bs
        if d.op ≠ op ∧ 1 ≤ d.op ∧ d.op ≤ 4 then s
        else
          let reason := d.check c.anyCore
          if reason = 0 then run (s'.modChain core (fun c => { c with desc := some bs })) c d
          else (s'.modEngine core (fun e => e.bad reason c.addr)).chainNext core (c.addr + 64) c.space (d.last || decide (d.op = 4))
      | (s', .held _ _) => s'
      | (s', e) => s'.chainFault core e

/-- Chains that wait join the queue while it has room (R215). -/
def Engine.takeIn (e : Engine) : Engine :=
  let room := engineDepth - e.queue.length
  { e with queue := e.queue ++ e.waiting.take room, waiting := e.waiting.drop room }

/-- The tag of the packet that a chain works for. -/
def State.chainTag (s : State) (c : Chain) : Nat :=
  let of := fun (ctx pid : Nat) => match s.pkt ctx pid with | some p => p.tag | none => 0
  let cox := fun (l : Nat) => match s.coxLaunch l with | some x => of x.ctx x.pid | none => 0
  match c.owner with
  | .packet ctx pid => of ctx pid
  | .crew _ l _ => match s.launch l with | some x => of x.ctx x.pid | none => 0
  | .prefetch l _ => cox l
  | .dump l => cox l

/-- FDMA_CHAIN_START: the chain at the head of the queue starts (R215); an unaligned chain address ends it (R220). -/
def execFdmaChainStart (core : Nat) (s : State) : Outcome :=
  let s' := s.modEngine core Engine.takeIn
  match (s'.core core).engine.queue with
  | c :: _ =>
    if c.started then .next s
    else
      let pair := pairOf c.layer c.oper
      let s' := s'.modChain core (fun c => { c with started := true })
      let s' := if s.runAhead c then s' else (s'.startCommand core 3 pair).traceStart core pair (s.chainTag c) 3 c.ctx
      let plain : Bool := match c.owner with
        | .dump _ => false
        | _ => c.raw.isNone
      if plain && decide (c.addr % 64 ≠ 0) then
        .next ((s'.modEngine core (fun e => e.bad 7 c.addr)).chainStop core none)
      else .next s'
  | [] => .next s

/-! ### Transfers of packets, and dumps -/

/-- The dump of a stroke-limited program (Table 6-14), as the state stood at the end of its drain (R192). -/
def dumpBytes (k : Core) (j : CoxJob) (l : CoxLaunch) : List Byte :=
  let q := k.seq
  let latch := fun n => match q.loops.find? (fun x => decide (x.n = n)) with | some x => (x.start, x.stop, x.latch) | none => (0, 0, 0)

  let four := [0, 1, 2, 3]
  toBytes 4 0x0C05D001 ++ toBytes 2 j.rank ++ toBytes 2 (b2n q.stopped + 2 * b2n q.ended) ++ toBytes 8 q.issued ++ toBytes 2 q.pc ++
    toBytes 1 (maskOf (q.loops.map (fun x => x.n))) ++ toBytes 1 q.cf ++ toBytes 2 l.layer ++ toBytes 2 l.oper ++ zeros 8 ++
    toBytes 8 j.dumpStatus ++ toBytes 8 k.array.status ++
    four.flatMap (fun n => toBytes 8 (q.scalar n)) ++ four.flatMap (fun n => toBytes 8 (q.scalar (4 + n))) ++
    four.flatMap (fun n => toBytes 8 (latch n).2.2) ++ four.flatMap (fun n => toBytes 2 (latch n).1) ++
    four.flatMap (fun n => toBytes 2 (latch n).2.1) ++
    four.flatMap (fun n => let c := mget {} q.cmps n; toBytes 4 (c.src + 64 * c.rel) ++ toBytes 4 c.operand) ++
    (List.range 8).flatMap (fun n => toBytes 8 (q.scalar (8 + n))) ++ (List.range 8).flatMap (fun n => toBytes 8 (q.scalar (16 + n))) ++
    zeros 192 ++ (List.range 1024).map (fun i => mget 0 q.sr i) ++ zeros 2560 ++
    (List.range 65536).flatMap (fun i => toBytes 4 (mget 0 k.array.acc i).toNat)

/-- The whole of a transfer that has no descriptors: of a packet (R454), or a dump (R192). `fill` selects the kind that the
command is for. -/
def State.rawTransfer (s : State) (core : Nat) (fill : Bool) : State :=
  match (s.core core).engine.queue with
  | [] => s
  | c :: _ =>
    if !c.started || c.finished then s
    else
      let done := fun (r : State × Progress) =>
        match r with
        | (s, .done) => s.chainStop core none
        | (s, .waits) => s
        | (s, .fails e) => s.chainFault core e
      let put := fun (s : State) (space addr : Nat) (bs : List Byte) =>
        match c.writes with
        | some ws => done (s.engineWrites core c space ws)
        | none => done (s.enginePut core c space [(addr, bs)])
      let t := s.engineCycle core
      match c.raw, c.owner with
      | some (.copy src dst n ss ds), _ =>
        if fill then s
        else
          match t.engineRead core c ss (readParts ss (src + c.got.length) (if c.writes.isSome then 0 else n - c.got.length)) with
          | (t, .done) => put t ds dst (((t.headChain core).map (·.got)).getD [])
          | r => done r
      | some (.fill pat dst n ds), _ =>
        if fill then put t ds dst ((List.range n).map (fun i => BitVec.ofNat 8 (pat / 256 ^ (i % 8)))) else s
      | none, .dump launch =>
        if fill then s
        else
          match (s.core core).jobs.find? (fun j => decide (j.launch = launch)), s.coxLaunch launch with
          | some j, some l => put t 0 c.addr (dumpBytes (s.core core) j l)
          | _, _ => s.chainStop core none
      | none, _ => s

/-- DESCRIPTOR_COPY: a `COPY` descriptor (R216, R218), the transfer of a `COPY` packet, or a dump. -/
def execDescriptorCopy (core : Nat) (s : State) : Outcome := s.waits <|
  .next ((s.descriptor core 1 (fun s c d => s.runDesc core c d)).rawTransfer core false)

/-- DESCRIPTOR_FILL: a `FILL` descriptor, or the transfer of a `FILL` packet (R216, R454). -/
def execDescriptorFill (core : Nat) (s : State) : Outcome := s.waits <|
  .next ((s.descriptor core 2 (fun s c d => s.runDesc core c d)).rawTransfer core true)

/-- CONVERT: a `CONVERT` descriptor (R217 to R219). -/
def execConvertDesc (core : Nat) (s : State) : Outcome := s.waits <|
  .next (s.descriptor core 3 (fun s c d => s.runDesc core c d))

/-- LINK: reading goes on at a new address (R216). -/
def execLinkDesc (core : Nat) (s : State) : Outcome := s.waits <|
  .next (s.descriptor core 4 (fun s _ d => s.chainNext core d.src d.srcSpace d.last))

/-- A crew learns of the end of a copy it handed over (R133). A fault takes effect at once unless the crew is halted, which
meets it at its next instruction boundary. -/
def State.crewCopyDone (s : State) (core key launch idx : Nat) (fault : Option (Nat × Nat)) : State :=
  match s.crew core key with
  | some x =>
    if x.launch ≠ launch ∨ x.idx ≠ idx then s
    else
      let s := s.setCrew core key { x with copies := x.copies - 1 }
      match fault with
      | none => s
      | some (st, a) =>
        let code := if st = 0x11 then 0x03 else 0x04
        if x.state = .halted then s.modCrew core key (fun x => { x with copyFault := some (code, a) })
        else s.pathFault core key code a 0
  | none => s

/-- How the landing of a chain is reached: from its core, but a transfer on an engine of the sequencer's choice reaches no core's slots
(Table 10-4, R271). -/
def chainReach (core : Nat) (anyCore : Bool) : Reach := if anyCore then .fromIo else .fromCore core

/-- FDMA_CHAIN_COMPLETE: the chain at the head has ended; its owner learns how, its landing takes an arrival where it ended
without a fault, and a chain that waits joins the queue (R52, R133, R166, R192, R215, R221). A prefetch chain whose fault was met in run-ahead
runs again at dispatch (R166). -/
def execFdmaChainComplete (core : Nat) (s : State) : Outcome := s.waits <|
  match (s.core core).engine.queue with
  | c :: rest =>
    if !c.finished then .next s
    else
      let s' := s.modEngine core (fun e => { e with queue := rest }.takeIn)
      let status := match c.fault with | some (st, _) => st | none => 0
      let s' := if s.runAhead c || c.early then s' else s'.traceEnd core (pairOf c.layer c.oper) (s.chainTag c) 3 c.ctx status
      let s' := match c.fault, c.landing with
        | none, some lid => (match s'.landing c.ctx lid (chainReach core c.anyCore) with
          | .slot key => s'.arrive key c.ctx 1
          | _ => s')
        | _, _ => s'
      match c.owner with
      | .packet ctx pid =>
        let (st, d) := c.fault.getD (0, 0)
        .next (s'.packetDone ctx pid st d)
      | .crew key launch idx => .next (s'.crewCopyDone core key launch idx c.fault)
      | .prefetch launch i =>
        match c.fault with
        | none =>
          .next (s'.modCore core (fun k =>
            { k.modJob launch (fun j => { j with pf := modifyAt j.pf i (fun p => { p with stage := 2 }) }) with
              staging := k.staging.map (fun a => if a.launch = launch ∧ some (a.base, a.size) = c.area then { a with filled := true } else a) }))
        | some f =>
          let mark := fun (n : Nat) =>
            s'.modCore core (fun k => k.modJob launch (fun j => { j with pf := modifyAt j.pf i (fun p => { p with stage := n }) }))
          .next (if s.runAhead c then mark 3 else if c.early then (mark 0).queuePrefetch core launch else (mark 3).coxDone core launch f)
      | .dump launch =>
        match (s'.core core).jobs.find? (fun j => decide (j.launch = launch)), s'.coxLaunch launch with
        | some j, some l =>
          let s' := s'.modCore core (fun k => k.modJob launch (fun j => { j with dump := 2, fault := c.fault }))
          .next (s'.coxDone core launch (s'.coxStatus core { j with fault := c.fault } l))
        | _, _ => .next s'
  | [] => .next s

/-! ### COPY and FILL packets (R50, R52, R454) -/

/-- The engine of a transfer packet: the core that it names, or one of the partition's of the sequencer's choice. -/
def State.engineCore (s : State) (ctx c : Nat) : State × Option Nat :=
  let cs := s.coresOf (s.ctx ctx).part
  if c = 0xFFFF then
    let ok := cs.filter (fun x => decide (x ∉ s.coresOut))
    let (s, i) := s.pick ok.length
    (s, ok[i]?)
  else (s, cs[c]?)

/-- A transfer packet is dispatched: its chain joins the engine's queue; an unmapped landing completes it with
LANDING_UNMAPPED (R271). -/
def State.transferPacket (s : State) (ctx : Nat) (p : Pkt) (c lid addr : Nat) (raw : Option RawWork) : State :=
  match s.engineCore ctx c with
  | (s', none) => (s'.dispatch ctx p.pid .dispatched).packetDone ctx p.pid 1 0
  | (s', some core) =>
    if core ∈ s.coresOut then s
    else
      let s' := s'.dispatch ctx p.pid .dispatched
      if lid ≠ 0xFFFF ∧ s'.landing ctx lid (chainReach core (decide (c = 0xFFFF))) = .unmapped then s'.packetDone ctx p.pid 0x13 lid
      else
        let (layer, oper) := match s'.pkt ctx p.pid with | some x => (x.layer, x.oper) | none => (0, 0)
        let ch : Chain := {
          owner := .packet ctx p.pid
          ctx, addr, raw, layer, oper
          landing := if lid = 0xFFFF then none else some lid
          anyCore := decide (c = 0xFFFF) }
        s'.queueChain core ch

/-- COPY: a chain of descriptors, or one transfer (R52, R454). -/
def execCopy (ctx : Nat) (s : State) : Outcome :=
  .next (s.atDispatch ctx 0x20 (fun s p =>
    let d := p.data
    let sp := field d 45 1
    s.transferPacket ctx p (field d 40 2) (field d 42 2) (field d 16 8)
      (if field d 44 1 = 1 then none else some (.copy (field d 16 8) (field d 24 8) (field d 32 8) (sp % 4) (sp / 4 % 4)))))

/-- FILL: one transfer of a pattern (R52, R454). -/
def execFill (ctx : Nat) (s : State) : Outcome :=
  .next (s.atDispatch ctx 0x21 (fun s p =>
    let d := p.data
    s.transferPacket ctx p (field d 40 2) (field d 42 2) 0
      (some (.fill (field d 32 8) (field d 16 8) (field d 24 8) (field d 44 1 / 4 % 4)))))

end Sys2Proof.Machine
end

