-- ==== Sys2Proof/Machine/Homes.lean ====
section
/-! DEFINITION. The home nodes as commands (08_scratch_caches_coherence.md R228 to R237): the requests, snoops and answers of
Table 8-8, the hold of R236, and the gallery cache's control register, its way locks and the disabling of a way. Agent c
below 160 is the L1 of core c, agent 160 + h the L2 of host core h; any other agent is an I/O-coherent master. -/

namespace Sys2Proof.Machine

open Sys2Proof

/-! ### Who may ask for what -/

/-- The host cores of a partition (R23): two in each of its galleries, without those that are retired (R24). -/
def State.hostCoresOf (s : State) (q : Nat) : List Nat :=
  ((s.galleriesOf q).flatMap (fun g => [2 * g, 2 * g + 1])).filter (fun h => decide (h ∉ s.conf.repair.hostRetired))

/-- Whether an agent is a cache of a partition. -/
def State.cacheOf (s : State) (q agent : Nat) : Bool :=
  if agent < 160 then decide (agent ∈ s.coresOf q) else decide (agent - 160 ∈ s.hostCoresOf q)

/-- Whether a line of a partition has a home: it lies in a region, or for a read in a segment (R227, R244). -/
def State.homed (s : State) (q line : Nat) (write : Bool) : Bool :=
  match s.locate q (line * 128) with
  | .hbm _ => (s.part q).live
  | .segment _ _ => (s.part q).live && !write
  | _ => false

/-- The key of a line at its home, and of a host core's copy of it. -/
def homeKey (q line : Nat) : Nat := q * 2 ^ 45 + line
def hostKey (q line agent : Nat) : Nat := (agent - 160) * 2 ^ 50 + homeKey q line

/-- The bytes of a line that a message's mask names (R233), as runs of one byte; absent bytes read zero. -/
def maskedRuns (mask : Nat) (bytes : List Byte) : List (Nat × List Byte) :=
  (bitList 128 mask).map (fun i => (i, [bytes.getD i 0]))

/-- Whether a mask names every byte of a line. -/
def maskFull (mask : Nat) : Bool := decide ((bitList 128 mask).length = 128)

/-! ### Serving a request (R235, Table 8-9) -/

/-- The agent that makes a request. -/
def reqAgent : HomeReq → Nat
  | .rdShared a => a
  | .rdUnique a => a
  | .wrThrough a _ _ => a
  | .atomic a _ _ _ _ _ _ => a
  | .ioRead a => a
  | .ioWrite a _ _ => a

/-- The die of a line's home. -/
def State.homeDie (s : State) (q line : Nat) : Nat := s.homeGallery q (line * 128) / 5

/-- Whether a request ends with `DATA` and `COMP_ACK`; the others end with `ACK`. -/
def reqFill : HomeReq → Bool
  | .rdShared _ => true
  | .rdUnique _ => true
  | _ => false

/-- The snoops that a request needs, as the caches to give the line up and those to keep it as S (Table 8-9). -/
def State.snoopsFor (s : State) (q line : Nat) (r : HomeReq) : List Nat × List Nat :=
  let d := (s.home (homeKey q line)).dir
  match r with
  | .rdShared a => match d with | .owned o => if o = a then ([], []) else ([], [o]) | _ => ([], [])
  | .rdUnique a => (sremove d.holders a, [])
  | .wrThrough a _ _ => (sremove d.holders a, [])
  | .atomic a _ _ _ _ _ _ => (sremove d.holders a, [])
  | .ioRead _ => match d with
    | .owned o => if (s.hostLine (hostKey q line o)).st = 3 then ([], [o]) else ([], [])
    | _ => ([], [])
  | .ioWrite _ _ _ => (d.holders, [])

/-- Serves the request of a transaction whose snoops have all been answered: the write or atomic is performed, or the grant
is settled, and the directory takes the state of Table 8-9. The line's data are charged on their way (R248). A poisoned line is not given to an
L1, and no atomic is performed on it (R253, Table 9-5). -/
def State.serveTxn (s : State) (q line : Nat) : State :=
  let k := homeKey q line
  match (s.home k).txn with
  | none => s
  | some t =>
    if t.served || !t.inv.isEmpty || !t.down.isEmpty then s else
    let pa := line * 128
    let d := (s.home k).dir
    let done := fun (s : State) (t : HomeTxn) => s.setHome k { s.home k with txn := some { t with served := true } }
    match t.req with
    | .rdShared a =>
      let s := ((s.directoryRoom q pa).throughSlice q pa false false).chargeHop q (s.homeDie q line) (agentDie a)
      let poison := s.homePoison q pa
      if a < 160 ∧ poison ≠ 0 then done s { t with grant := 1, poison }
      else if d = .uncached ∧ 160 ≤ a then done (s.setDir k (.owned a)) { t with grant := 2, poison }
      else done (s.setDir k (.shared (sinsert d.holders a))) { t with grant := 1, poison }
    | .rdUnique a =>
      let s := ((s.directoryRoom q pa).throughSlice q pa false false).chargeHop q (s.homeDie q line) (agentDie a)
      done (s.setDir k (.owned a)) { t with grant := 3, poison := s.homePoison q pa }
    | .wrThrough a mask bytes =>
      let s := (s.chargeHop q (agentDie a) (s.homeDie q line)).throughSlice q pa true (maskFull mask)
      let s := s.homeWrite q pa (maskedRuns mask bytes)
      let keep := decide (homeKey q line ∈ (s.core a).l1)
      done (s.setDir k (if keep then .shared [a] else .uncached)) t
    | .atomic a op size off x y sgn =>
      let n := if size = 3 then 8 else 4
      let s := (s.chargeHop q (agentDie a) (s.homeDie q line)).throughSlice q pa true false
      let old := field (s.homeBytes q pa) off n
      let poison := s.homePoison q pa
      let s := match atomicOp op n sgn old x y with
        | some v => if poison = 0 then s.homeWrite q pa [(off, toBytes n v)] else s
        | none => s
      let keep := decide (homeKey q line ∈ (s.core a).l1)
      done (s.setDir k (if keep then .shared [a] else .uncached)) { t with old, poison }
    | .ioRead a =>
      let s := (s.throughSlice q pa false false).chargeHop q (s.homeDie q line) (agentDie a)
      done s { t with poison := s.homePoison q pa }
    | .ioWrite a mask bytes =>
      let s := (s.chargeHop q (agentDie a) (s.homeDie q line)).throughSlice q pa true (maskFull mask)
      done ((s.homeWrite q pa (maskedRuns mask bytes)).setDir k .uncached) t

/-- Begins the transaction of the first request that waits for a line, where none is in progress (R234). -/
def State.beginTxn (s : State) (q line : Nat) : State :=
  let k := homeKey q line
  match (s.home k).txn, (s.home k).queue with
  | none, r :: rest =>
    let (inv, down) := s.snoopsFor q line r
    let s := s.countGal (s.homeGallery q (line * 128)) 7 (inv.length + down.length)
    let x := s.home k
    (s.setHome k { x with txn := some { req := r, inv, down }, queue := rest }).serveTxn q line
  | _, _ => s

/-- A request reaches the home of its line and waits in order of arrival (R234). -/
def State.request (s : State) (q line : Nat) (r : HomeReq) : State :=
  let k := homeKey q line
  let x := s.home k
  (s.setHome k { x with queue := x.queue ++ [r] }).beginTxn q line

/-- The transaction of a line ends, and the next request is handled (R234). -/
def State.endTxn (s : State) (q line : Nat) : State :=
  let k := homeKey q line
  (s.setHome k { s.home k with txn := none }).beginTxn q line

/-! ### Requests -/

/-- RD_SHARED: a cache of the partition asks for S or E (Table 8-9). -/
def execRdShared (part line agent : Nat) (s : State) : Outcome := s.waits <|
  if s.homed part line false && s.cacheOf part agent then .next (s.request part line (.rdShared agent)) else .next s

/-- RD_UNIQUE: a host core asks for M. -/
def execRdUnique (part line agent : Nat) (s : State) : Outcome := s.waits <|
  if s.homed part line true && s.cacheOf part agent && decide (160 ≤ agent) then .next (s.request part line (.rdUnique agent))
  else .next s

/-- WR_THROUGH: an L1 sends a crew store: a line's bytes with the mask of those to write. -/
def execWrThrough (part line agent mask : Nat) (bytes : List Byte) (s : State) : Outcome := s.waits <|
  if s.homed part line true && s.cacheOf part agent && decide (agent < 160) && decide (mask < 2 ^ 128) then
    .next (s.request part line (.wrThrough agent mask bytes))
  else .next s

/-- ATOMIC: an L1 sends a crew atomic (Table 4-9) on an aligned word of the line; size 2 is 4 bytes, 3 is 8. -/
def execAtomic (part line agent : Nat) (op size off a b : Nat) (sgn : Bool) (s : State) : Outcome := s.waits <|
  let n := if size = 3 then 8 else 4
  if s.homed part line true && s.cacheOf part agent && decide (agent < 160) && decide (op ≤ 9) && decide (off % n = 0) &&
      decide (off < 128) then
    .next (s.request part line (.atomic agent op size off a b sgn))
  else .next s

/-- IO_READ: an I/O-coherent master reads the line. -/
def execIoRead (part line agent : Nat) (s : State) : Outcome := s.waits <|
  if s.homed part line false then .next (s.request part line (.ioRead agent)) else .next s

/-- IO_WRITE: an I/O-coherent master writes the bytes of the line that its mask names. -/
def execIoWrite (part line agent mask : Nat) (bytes : List Byte) (s : State) : Outcome := s.waits <|
  if s.homed part line true && decide (mask < 2 ^ 128) then .next (s.request part line (.ioWrite agent mask bytes))
  else .next s

/-- A holder leaves the directory of a line (Table 8-9). -/
def State.removeHolder (s : State) (q line agent : Nat) : State :=
  let k := homeKey q line
  match (s.home k).dir with
  | .uncached => s
  | .shared hs => s.setDir k (if sremove hs agent = [] then .uncached else .shared (sremove hs agent))
  | .owned o => if o = agent then s.setDir k .uncached else s

/-- WRITEBACK: a host core evicts a line it has modified; the home takes the line. A line held in E may have been modified
without the home's knowledge. -/
def execWriteback (part line agent : Nat) (bytes : List Byte) (s : State) : Outcome := s.waits <|
  let x := s.hostLine (hostKey part line agent)
  if decide (160 ≤ agent) && decide (2 ≤ x.st) && decide (bytes.length = 128) then
    let s := (s.setHostLine (hostKey part line agent) {}).chargeHop part (agentDie agent) (s.homeDie part line)
    .next ((s.lineWrite (homeKey part line) bytes x.poison).removeHolder part line agent)
  else .next s

/-- EVICT_CLEAN: a cache evicts a line it holds in E or S. -/
def execEvictClean (part line agent : Nat) (s : State) : Outcome :=
  if agent < 160 then
    if homeKey part line ∈ (s.core agent).l1 then
      .next ((s.modCore agent (fun k => { k with l1 := sremove k.l1 (homeKey part line) })).removeHolder part line agent)
    else .next s
  else
    let x := s.hostLine (hostKey part line agent)
    if x.st = 1 ∨ x.st = 2 then .next ((s.setHostLine (hostKey part line agent) {}).removeHolder part line agent) else .next s

/-! ### Fills -/

/-- Lines that a host core's L2 of 2 MiB holds (R23). -/
def l2Lines : Nat := 16384

/-- Makes room in the L2 of a host core: a full one gives up a line of its choice, written back if it is M (R23, Table 8-9). -/
def State.l2Room (s : State) (agent : Nat) : State :=
  let mine := s.hostLines.filter (fun e => decide (e.1 / 2 ^ 50 = agent - 160))
  if mine.length < l2Lines then s
  else
    let (s, i) := s.pick mine.length
    match mine[i]? with
    | some (k, _) => (s.recall (k % 2 ^ 50) agent false true).removeHolder (k % 2 ^ 50 / 2 ^ 45) (k % 2 ^ 45) agent
    | none => s

/-- DATA: the fill reaches the cache that asked, with its grant (R235); an L1 never allocates a poisoned line (Table 9-5). -/
def execDataFill (part line : Nat) (s : State) : Outcome := s.waits <|
  match (s.home (homeKey part line)).txn with
  | some t =>
    if t.served && reqFill t.req && decide (t.grant ≠ 0) then
      let a := reqAgent t.req
      let s := if a < 160 then (if t.poison = 0 then s.l1Insert a (homeKey part line) else s)
        else (s.l2Room a).setHostLine (hostKey part line a) { st := t.grant, poison := t.poison }
      let x := s.home (homeKey part line)
      .next (s.setHome (homeKey part line) { x with txn := some { t with grant := 0 } })
    else .next s
  | none => .next s

/-- COMP_ACK: the cache has its fill and the transaction ends; a grant of E or M is held for 32 ns (R236). -/
def execCompAck (part line agent : Nat) (s : State) : Outcome := s.waits <|
  match (s.home (homeKey part line)).txn with
  | some t =>
    if t.served && reqFill t.req && decide (t.grant = 0) && decide (reqAgent t.req = agent) then
      let k := hostKey part line agent
      let s := if decide (160 ≤ agent) && decide (2 ≤ (s.hostLine k).st) then
          let (s, now) := s.sample
          s.setHostLine k { s.hostLine k with holdUntil := now + 32 }
        else s
      .next (s.endTxn part line)
    else .next s
  | none => .next s

/-- The answer that an `ACK` brings to an L1: the old value of an `ATOMIC`, or poison (Table 8-8). -/
def State.ackL1 (s : State) (line : Nat) (t : HomeTxn) : State :=
  match t.req with
  | .atomic a _ _ _ _ _ _ => s.modCore a (fun k => { k with ack := some (line, if t.poison = 0 then some t.old else none) })
  | _ => s

/-- ACK: the write, atomic or I/O access has been performed, and its transaction ends; the ACK of an atomic carries the old value. -/
def execAck (part line : Nat) (s : State) : Outcome := s.waits <|
  match (s.home (homeKey part line)).txn with
  | some t => if t.served && !reqFill t.req then .next ((s.ackL1 (homeKey part line) t).endTxn part line) else .next s
  | none => .next s

/-! ### Snoops -/

/-- A cache takes a snoop and owes its answer: an L1 and a cache that has given the line up answer without data, one in M
with the line (R235, R237). A line in E may have been modified without the home's knowledge. -/
def State.takeSnoop (s : State) (q line agent : Nat) (down : Bool) : State :=
  let k := homeKey q line
  let owe := fun (s : State) (n : Nat) =>
    match (s.home k).txn with
    | some t =>
      let poison := if n % 2 = 0 then (s.hostLine (hostKey q line agent)).poison else t.poison
      s.setHome k { s.home k with txn := some { t with took := (agent, n) :: t.took, poison } }
    | none => s
  if agent < 160 then owe (s.modCore agent (fun c => { c with l1 := sremove c.l1 k })) 1
  else
    let x := s.hostLine (hostKey q line agent)
    if x.st = 0 then owe s 1
    else
      let (s, i) := s.pick 2
      let dirty := decide (x.st = 3) || (decide (x.st = 2) && decide (i = 1))
      if down then (owe s (if dirty then 4 else 3)).setHostLine (hostKey q line agent) { st := 1, poison := x.poison }
      else (owe s (if dirty then 2 else 1)).setHostLine (hostKey q line agent) {}

/-- Whether a snoop of the transaction is on its way to a cache that has not taken it. -/
def HomeTxn.awaits (t : HomeTxn) (l : List Nat) (agent : Nat) : Bool :=
  decide (agent ∈ l) && !t.took.any (fun e => decide (e.1 = agent))

/-- A snoop reaches a cache; within the hold it is put off until the hold ends (R236). -/
def State.snoopRow (s : State) (q line agent : Nat) (down : Bool) : State :=
  match (s.home (homeKey q line)).txn with
  | some t =>
    if !t.awaits (if down then t.down else t.inv) agent then s
    else
      let k := hostKey q line agent
      if agent < 160 then s.takeSnoop q line agent down
      else
        let (s, now) := s.sample
        if now < (s.hostLine k).holdUntil then s.setHostLine k { s.hostLine k with snoop := if down then 2 else 1 }
        else s.takeSnoop q line agent down
  | none => s

/-- INV: a cache is to give up the line. -/
def execInv (part line agent : Nat) (s : State) : Outcome := .next (s.snoopRow part line agent false)

/-- DOWNGRADE: a host cache is to keep the line as S. -/
def execDowngrade (part line agent : Nat) (s : State) : Outcome := .next (s.snoopRow part line agent true)

/-- HOLD_EXPIRY: a host cache's 32 ns hold ends and the snoop put off is answered (R236). -/
def execHoldExpiry (part line agent : Nat) (s : State) : Outcome :=
  let k := hostKey part line agent
  let x := s.hostLine k
  if decide (160 ≤ agent) && decide (x.holdUntil ≠ 0) then
    let s := (s.until x.holdUntil).setHostLine k { x with holdUntil := 0, snoop := 0 }
    .next (if x.snoop = 0 then s else s.takeSnoop part line agent (decide (x.snoop = 2)))
  else .next s

/-- An answer reaches the home: data, if owed, update the home's copy before the request is served (R235). -/
def State.snoopAnswer (s : State) (q line agent : Nat) (plain withData : Nat) (bytes : List Byte) : State :=
  let k := homeKey q line
  match (s.home k).txn with
  | some t =>
    let owed := match t.took.find? (fun e => decide (e.1 = agent)) with | some e => e.2 | none => 0
    if owed = 0 ∨ ¬ (owed = plain ∨ (owed = withData ∧ bytes.length = 128)) then s
    else
      let s := if owed = withData then (s.chargeHop q (agentDie agent) (s.homeDie q line)).lineWrite k bytes t.poison else s
      let gone := decide (plain = 1)
      let s := if gone then s.removeHolder q line agent
        else s.setDir k (.shared (sinsert [] agent))
      let s := s.setHome k { s.home k with txn := some { t with
        inv := sremove t.inv agent, down := sremove t.down agent, took := t.took.filter (fun e => decide (e.1 ≠ agent)) } }
      s.serveTxn q line
  | none => s

/-- INV_ACK: a cache has given the line up, with the line if it was M. -/
def execInvAck (part line agent : Nat) (bytes : List Byte) (s : State) : Outcome := s.waits <|
  .next (s.snoopAnswer part line agent 1 2 bytes)

/-- DOWN_ACK: a host cache keeps the line as S, and sends the line if it was M. -/
def execDownAck (part line agent : Nat) (bytes : List Byte) (s : State) : Outcome := s.waits <|
  .next (s.snoopAnswer part line agent 3 4 bytes)

/-! ### The gallery cache's registers (R228, R229) -/

/-- A slice gives up every line: the dirty ones are written back, charged unless a recall takes them (R286). -/
def State.emptySlice (s : State) (g : Nat) (paid : Bool) : State :=
  ((s.slice g).lines.foldl (fun s e => s.gcOut g paid e.2) s).modSlice g (fun x => { x with lines := [] })

/-- The gallery cause follows a reject bit of the slice, in the function of the partition that holds the gallery. -/
def State.raiseGallery (s : State) (g : Nat) : State :=
  match s.partOfGallery g with
  | some q => s.raise (s.fnOf q) (.gallery g)
  | none => s

/-- A write of `GC_CTRL` (R228, Table 8-5): the invalidate is judged by the slice's state before the write. An invalidate
does not write dirty lines back, since the slice that starts one is disabled and holds none. -/
def State.gcCtrl (s : State) (g data : Nat) : State :=
  let x := s.slice g
  let enable := bit data 0
  let inval := bit data 1
  let s := if !inval then s
    else if x.enabled then (s.setSlice g { s.slice g with invReject := true }).raiseGallery g
    else s.setSlice g { s.slice g with invBusy := true, locked := 0, fillOnly := 0, lines := [] }
  let y := s.slice g
  if enable then
    if x.enable && x.enabled then s
    else if (inval && !x.enabled) || !y.invDone then (s.setSlice g { y with enableReject := true }).raiseGallery g
    else s.setSlice g { y with enable := true, enabled := true }
  else if y.enable then s.setSlice g { y with enable := false, invDone := false }
  else s

/-- A write of `GC_WAYS` (R229, Table 8-7). -/
def State.gcWays (s : State) (g data : Nat) : State :=
  let x := s.slice g
  let lock := bits data 0 16
  if 12 < popcount 16 lock ∨ lock &&& x.disabledWays ≠ 0 ∨ x.enabled = false then
    (s.setSlice g { x with lockReject := true }).raiseGallery g
  else s.setSlice g { x with locked := lock, fillOnly := bits data 16 16 }

/-- A write of `GC_STATUS`: the bits written as 1 clear (Table 8-6), and the gallery cause follows. -/
def State.gcStatus (s : State) (g data : Nat) : State :=
  let x := s.slice g
  let s := s.setSlice g { x with
    enableReject := x.enableReject && !bit data 3
    lockReject := x.lockReject && !bit data 4
    invReject := x.invReject && !bit data 5
    wayDisabled := x.wayDisabled && !bit data 6
    lockLost := x.lockLost && !bit data 7 }
  match s.partOfGallery g with
  | some q => s.settle (s.fnOf q)
  | none => s

/-- `GC_CTRL`, `GC_STATUS` and `GC_WAYS` as they read (Tables 8-5 to 8-7). -/
def State.gcRead (s : State) (g off : Nat) : Nat :=
  let x := s.slice g
  match off with
  | 0x00 => b2n x.enable
  | 0x08 => b2n x.enabled + 2 * b2n x.invBusy + 4 * b2n x.invDone + 8 * gcLeaf x + 256 * x.disabledWays + 2 ^ 24 * x.locked
  | 0x10 => x.locked + 65536 * x.fillOnly
  | _ => 0

/-- SLICE_DISABLED: a slice that is being disabled has written its dirty lines back and invalidated every way (R228). -/
def execSliceDisabled (g : Nat) (s : State) : Outcome := s.waits <|
  let x := s.slice g
  if x.enabled && !x.enable then
    let s := s.emptySlice g true
    .next (s.setSlice g { s.slice g with enabled := false })
  else .next s

/-- INVALIDATE_DONE: an invalidate is complete (R228). -/
def execInvalidateDone (g : Nat) (s : State) : Outcome :=
  let x := s.slice g
  if x.invBusy then .next (s.setSlice g { x with invBusy := false, invDone := true, lines := if x.enabled then x.lines else [] })
  else .next s

/-! ### Disabling a way (R231) -/

/-- The lines of one way of a slice are written back or invalidated. -/
def State.dropWay (s : State) (g w : Nat) : State :=
  (((s.slice g).lines.filter (fun e => decide (e.1 % 16 = w))).foldl (fun s e => s.gcOut g true e.2) s).modSlice g
    (fun x => { x with lines := x.lines.filter (fun e => decide (e.1 % 16 ≠ w)) })

/-- The way that a locked way's lines are copied into: the lowest-numbered free way outside FILL_ONLY, else the lowest. -/
def Slice.freeWay (x : Slice) (w : Nat) : Option Nat :=
  let free := (List.range 16).filter (fun v => decide (v ≠ w) && !bit x.disabledWays v && !bit x.locked v)
  match free.find? (fun v => !bit x.fillOnly v) with
  | some v => some v
  | none => free.head?

/-- Takes a way out of service: its lines are written back or invalidated, or, if it was locked, copied into a free way that
becomes locked in its place. -/
def State.disableWay (s : State) (g w : Nat) : State :=
  let x := s.slice g
  let out := fun (x : Slice) => { x with
    disabledWays := setBit x.disabledWays w true, locked := setBit x.locked w false, wayDisabled := true
    errors := x.errors.filter (fun e => decide (e.1 ≠ w)) }
  if bit x.locked w then
    match x.freeWay w with
    | some v =>
      (s.dropWay g v).modSlice g (fun y =>
        let lines := y.lines.foldl (fun m e => minsert m (if e.1 % 16 = w then e.1 / 16 * 16 + v else e.1) e.2) []
        out { y with lines, locked := setBit y.locked v true })
    | none => (s.dropWay g w).modSlice g (fun y => out { y with lockLost := true })
  else (s.dropWay g w).modSlice g out

/-- An uncorrectable error in the line of a way's set (R230): a clean line is invalidated, so that its request is served from HBM; a dirty one is
written to HBM as poison, a Deferred error. -/
def State.wayError (s : State) (g place : Nat) : State :=
  match mfind (s.slice g).lines place with
  | none => s
  | some c =>
    let s := (s.gcOut g true { c with poison := 3 }).modSlice g (fun x => { x with lines := merase x.lines place })
    if c.dirty then s.ras { cls := 2, source := 0x07, part := s.partOfGallery g, unit := g, addr := c.line % 2 ^ 45 * 128 } else s

end Sys2Proof.Machine
end

