-- ==== Sys2Proof/Machine/Hbm.lean ====
section
/-! DEFINITION. The HBM memory system as commands (09_hbm_memory_system.md R242 to R259): channel groups and targets, allocation,
the regulators' default settings, error correction and poison, shared-segment lines in error (11 R298, R299), row repair,
channel retirement and the watermark rebuild of a region. Pseudo-channel p belongs to channel p / 2, group p / 16, stack
p / 64 and die p / 128. -/

namespace Sys2Proof.Machine

open Sys2Proof

/-! ### Targets and allocation (R242 to R247) -/

/-- The pseudo-channels of a partition's groups whose channels are not retired, rising, without those left out. -/
def State.livePcs (s : State) (groups : Nat) (out : Nat → Bool) : List Nat :=
  ((bitList 32 groups).flatMap (fun k => (List.range 16).map (fun i => 16 * k + i))).filter (fun pc =>
    decide (pc / 2 ∉ s.conf.repair.channels) && !out pc)

/-- R245: the lists of a region's target. -/
def State.targetLists (s : State) (groups mode die : Nat) (out : Nat → Bool) : List (List Nat) :=
  let live := s.livePcs groups out
  match mode with
  | 0 => [live.filter (fun pc => decide (pc / 128 = die))]
  | 1 => ((List.range 4).filter (fun d => decide (bits groups (8 * d) 8 ≠ 0))).map (fun d => live.filter (fun pc => decide (pc / 128 = d)))
  | _ => [live]

/-- R246: the lines E that a region of n lines holds in each pseudo-channel of each list. -/
def extentsOf (balanced : Bool) (n : Nat) (lists : List (List Nat)) : List Nat :=
  if balanced then lists.map (fun t => ceilDiv (32 * ceilDiv (ceilDiv n 32) lists.length) t.length)
  else lists.map (fun t => ceilDiv n t.length)

/-- The runs of lines of a pseudo-channel that are not free. -/
def State.usedLines (s : State) (pc : Nat) : List (Nat × Nat) :=
  (s.allocs.filter (fun a => decide (a.pc = pc))).map (fun a => (a.base, a.count))

/-- The lowest base at which n lines of a pseudo-channel are free. -/
def State.lowestFree (s : State) (pc n : Nat) : Option Nat :=
  let used := s.usedLines pc
  let starts := (0 :: used.map (fun r => r.1 + r.2)).filter (fun b =>
    decide (b + n ≤ linesPerPc) && used.all (fun r => decide (b + n ≤ r.1) || decide (r.1 + r.2 ≤ b)))
  match starts with
  | [] => none
  | b :: bs => some (minOf b bs)

/-- The free lines of a pseudo-channel. -/
def State.freeLines (s : State) (pc : Nat) : Nat := linesPerPc - sum ((s.usedLines pc).map (·.2))

/-- The free lines that a target lacks: the greatest shortfall of any of its pseudo-channels (R256). -/
def State.shortfall (s : State) (lists : List (List Nat)) (ext : List Nat) : Nat :=
  ((lists.zip ext).flatMap (fun e => e.1.map (fun pc =>
    if (s.lowestFree pc e.2).isSome then 0 else max 1 (e.2 - s.freeLines pc)))).foldl max 0

/-- Allocates a target for an owner, or answers none where some pseudo-channel lacks the room or a list is empty. -/
def State.allocate (s : State) (owner : LineOwner) (balanced : Bool) (n : Nat) (lists : List (List Nat)) : Option (State × Layout) :=
  let ext := extentsOf balanced n lists
  if lists = [] ∨ lists.any (·.isEmpty) = true ∨ s.shortfall lists ext ≠ 0 then none
  else
    let places := (lists.zip ext).flatMap (fun e => e.1.map (fun pc => (pc, e.2, (s.lowestFree pc e.2).getD 0)))
    let keyIn := fun (k : Nat) => places.any (fun p =>
      decide (hbmKey p.1 p.2.2 0 ≤ k) && decide (k < hbmKey p.1 (p.2.2 + p.2.1) 0))
    some ({ s with
      allocs := s.allocs ++ places.map (fun p => ⟨p.1, p.2.2, p.2.1, owner⟩)
      hbm := s.hbm.filter (fun e => !keyIn e.1)
      hbmPoison := s.hbmPoison.filter (fun h => !keyIn (64 * h)) },
      { balanced, lists, extents := ext, bases := places.foldl (fun m p => mset 0 m p.1 p.2.2) [] })

/-- Frees every run of an owner. -/
def State.release (s : State) (owner : LineOwner) : State :=
  { s with allocs := s.allocs.filter (fun a => decide (a.owner ≠ owner)) }

/-- R246 backwards: the line of a layout that lies at a line of a pseudo-channel. -/
def lineAt (l : Layout) (pc line : Nat) : Option Nat :=
  let slot := line - mget 0 l.bases pc
  let back := fun (t : List Nat) (k : Nat) => slot * t.length + (k + t.length - fold slot % t.length) % t.length
  (l.lists.zip (List.range l.lists.length)).findSome? (fun e =>
    match indexOf? e.1 pc with
    | none => none
    | some k =>
      let y := back e.1 k
      if l.balanced then
        let m := l.lists.length
        let w := y / 32
        some (32 * (w * m + (e.2 + m - fold w % m) % m) + y % 32)
      else some y)

/-- What holds a line of a pseudo-channel. -/
def State.ownerAt (s : State) (pc line : Nat) : Option LineOwner :=
  (s.allocs.find? (fun a => decide (a.pc = pc) && decide (a.base ≤ line) && decide (line < a.base + a.count))).map (·.owner)

/-- The partition and the physical address of a line of a pseudo-channel. -/
def State.whereIs (s : State) (pc line : Nat) : Option Nat × Nat :=
  match s.ownerAt pc line with
  | some (.region q i) =>
    match mfind s.regions (64 * q + i) with
    | some r => (some q, r.base + 128 * (lineAt r.layout pc line).getD 0)
    | none => (some q, 0)
  | some (.regionNew q i) =>
    match s.rebuilds.find? (fun b => decide (b.part = q) && decide (b.idx = i)) with
    | some b => (some q, b.target.base + 128 * (lineAt b.target.layout pc line).getD 0)
    | none => (some q, 0)
  | some (.segment i) => (none, segAddr i ((lineAt (s.seg i).layout pc line).getD 0))
  | some (.segmentCopy i) =>
    match (s.seg i).golden with
    | .copy _ l => (none, segAddr i ((lineAt l pc line).getD 0))
    | .host _ => (none, 0)
  | some (.table q _) => (some q, 0)
  | none => (none, 0)

/-! ### Buckets (R249, R251) -/

/-- The default RATE of a partition at a resource (Table 9-8). -/
def defaultRate (r groups galleries : Nat) : Nat :=
  if r < 8 then 8 + 909 * popcount 4 (bits groups (4 * r) 4) / 4
  else if r < 32 then 8 + 909 * popcount 20 galleries / 20
  else 1024 * popcount 20 galleries / 20

/-- A bucket as it is when it is made or set: full (R249). -/
def fullBucket (rate burst : Nat) (borrow byInstaller : Bool) : Bucket :=
  { rate, burst, borrow, byInstaller, level := ((burst * 10485760 : Nat) : Int) }

/-- The resources that have a bucket for each partition: stacks, link directions, and 32 + p the transmit direction of
fabric port p. -/
def bucketResources : List Nat := List.range 24 ++ (List.range 8).map (· + 32)

/-- Gives a partition its default settings at every resource that the installer has not set (R251). -/
def State.defaultBuckets (s : State) (q groups galleries : Nat) : State :=
  bucketResources.foldl (fun s r =>
    let b := s.bucket (16 * r + q)
    if b.byInstaller then s
    else
      let rate := defaultRate r groups galleries
      if b.burst = 0 then s.setBucket (16 * r + q) (fullBucket rate 64 false false)
      else s.setBucket (16 * r + q) { b with rate }) s

/-- Whether a new RATE of a partition (8 the migration engine) keeps the sum over a resource at most 1,024 (R249). -/
def State.rateFits (s : State) (r q rate : Nat) : Bool :=
  decide (sum ((List.range 9).map (fun p => if p = q then rate else (s.bucket (16 * r + p)).rate)) ≤ 1024)

/-- Whether the defaults of a changed partition fit every resource (R251). -/
def State.defaultsFit (s : State) (q groups galleries : Nat) : Bool :=
  bucketResources.all (fun r => (s.bucket (16 * r + q)).byInstaller || s.rateFits r q (defaultRate r groups galleries))

/-! ### Shared segment lines in error (R298, R299) -/

/-- The functions whose partitions map a segment, and PF0. -/
def State.segFns (s : State) (i : Nat) : List Nat := sinsert (((s.seg i).mapped.map s.fnOf).eraseDups.filter (· ≠ 0)) 0

/-- Logs an outcome of a segment line and raises the segment cause (R299 step 4): 1 detected, 2 restored, 3 lost, 4 copy
repaired. -/
def State.segNotify (s : State) (i line outcome : Nat) : State :=
  (s.segFns i).foldl (fun s fn =>
    (s.raise fn (.segment i)).logEvent fn 2 (toBytes 1 i ++ toBytes 1 outcome ++ zeros 6 ++ toBytes 8 (line * 128))) s

/-- The states of a segment as a whole (R298). -/
inductive SegHealth where
  | good
  | repairing
  | damaged
  deriving DecidableEq, Repr

/-- R298: DAMAGED while any line is LOST, REPAIRING while any line is IN_REPAIR; a segment that is both is given as DAMAGED (log entry 10). -/
def Segment.health (g : Segment) : SegHealth :=
  if g.lines.any (fun e => decide (e.2 = .lost)) then .damaged
  else if g.lines.any (fun e => decide (e.2 = .inRepair)) then .repairing
  else .good

/-- A line of a segment's primary is found in error: the event is told, and the marking follows within 10 µs (R299). -/
def State.segError (s : State) (i line : Nat) : State :=
  let g := s.seg i
  if mget .good g.lines line ≠ .good ∨ (mfind g.found line).isSome = true then s
  else (s.setSeg i { g with found := minsert g.found line s.now }).segNotify i line 1

/-- The line of a segment takes a state, and the reads held for it go on (R299 step 3). -/
def State.segLineDone (s : State) (seg line : Nat) (x : SegLine) (outcome : Nat) : State :=
  let g := s.seg seg
  (s.setSeg seg { g with
    lines := mset .good g.lines line x, found := merase g.found line
    held := g.held.filter (fun h => decide (h.line ≠ line) || h.expired) }).segNotify seg line outcome

/-- Writes the 128 bytes of a segment line at a layout, which clears its poison. -/
def State.segWrite (s : State) (l : Layout) (line : Nat) (bytes : List Byte) : State :=
  let (pc, at') := placeLine l line
  (s.hbmWrite (hbmKey pc at' 0) (bytes.take 64)).hbmWrite (hbmKey pc at' 64) ((bytes.drop 64).take 64)

/-- A line of a segment's copy is found in error (R299): told, and repaired from the primary, or, where that is poisoned too, LOST, since neither
form holds it any more. -/
def State.segCopyError (s : State) (i line : Nat) (l : Layout) : State :=
  let s := s.segNotify i line 1
  let key := segKey (s.seg i) (line * 128)
  if s.hbmPoisoned key 128 then (s.dropSegLine i line).segLineDone i line .lost 3
  else (s.segWrite l line (s.hbmRead key 128)).segNotify i line 4

/-! ### Errors and poison (R252 to R254) -/

/-- The key under which the corrected errors of a row are counted (R255). -/
def rowKey (pc row : Nat) : Nat := 2 ^ 60 + pc * 2 ^ 32 + row

/-- Whether a region has lines in a channel. -/
def Region.uses (r : Region) (channel : Nat) : Bool := r.layout.lists.any (fun t => t.any (fun pc => decide (pc / 2 = channel)))

/-- Queues the retirement of a channel, if it is not retired or queued already (R256). -/
def State.queueRetire (s : State) (channel : Nat) (path : Option Nat) : State :=
  if channel ∈ s.conf.repair.channels ∨
      s.moveJobs.any (fun j => decide (j.cause = .retire channel)) = true then s
  else { s with moveJobs := s.moveJobs ++ [{ cause := .retire channel, todo := [], path }] }

/-- A half-line's error is detected and not corrected: it is poisoned and told (R253); a segment line goes the way of R299;
four poisoned half-lines of a channel within 24 hours retire it (R256), or, with the automatic flag at 0, are reported (R407). -/
def State.poisonHalf (s : State) (pc line half : Nat) : State :=
  let h := hbmKey pc line 0 / 64 + half
  if h ∈ s.hbmPoison then s
  else
    let (s, now) := s.sample
    let (q, addr) := s.whereIs pc line
    let s := { s with hbmPoison := sinsert s.hbmPoison h }
    let s := s.ras { cls := 2, source := 0x09, part := q, unit := pc / 64, site := pc / 2, addr := addr + 64 * half }
    let ts := now :: (mget [] s.poisonTimes (pc / 2)).filter (fun t => decide (now < t + dayNs))
    let s := { s with poisonTimes := mset [] s.poisonTimes (pc / 2) ts }
    let s := if 4 ≤ ts.length ∧ s.setting 13 1 = 1 then s.queueRetire (pc / 2) none
      else if ts.length = 4 then s.rasRepaired { cls := 1, source := 0x09, unit := pc / 64, site := pc / 2 }
      else s
    match s.ownerAt pc line with
    | some (.segment i) => s.segError i ((lineAt (s.seg i).layout pc line).getD 0)
    | some (.segmentCopy i) =>
      match (s.seg i).golden with
      | .copy _ l => s.segCopyError i ((lineAt l pc line).getD 0) l
      | .host _ => s
    | _ => s

/-- A correction is counted against its row and its stack (R252, R255). -/
def State.rowCorrected (s : State) (pc line : Nat) : State :=
  let (s, now) := s.sample
  let k := rowKey pc (Config.hbmRow line)
  let ts := now :: (mget [] s.rasTimes k).filter (fun t => decide (now < t + dayNs))
  { s with rasTimes := mset [] s.rasTimes k ts }.rasCorrected 0x09 (pc / 64) (s.reachOf (s.whereIs pc line).1)

/-- The partitions, with a physical address each, under which a line of a pseudo-channel is present memory. -/
def State.viewsOf (s : State) (pc line : Nat) : List (Nat × Nat) :=
  let pa := (s.whereIs pc line).2
  let qs := match s.ownerAt pc line with
    | some (.region q _) => [q]
    | some (.regionNew q _) => [q]
    | some (.segment i) => (s.seg i).mapped
    | _ => []
  (qs.filter (fun q => decide (s.cellOf q pa = some (hbmKey pc line 0)))).map (fun q => (q, pa))

/-- An error that nothing detects leaves free bytes in a half-line of HBM (R252, log entry 5). A slice that holds the line keeps its bytes: it
stays what the home gives (R235), and where the copy is dirty what a write-back will restore. -/
def State.corruptHalf (s : State) (pc line half : Nat) : State :=
  let cell := hbmKey pc line 0
  let views := s.viewsOf pc line
  let dirty := views.any (fun v => match s.gcCopy v.1 v.2 with | some (_, c) => c.dirty | none => false)
  if dirty || decide (cell / 64 + half ∈ s.hbmPoison) then s
  else
    let s := views.foldl (fun s v => match s.gcCopy v.1 v.2 with
      | some (k, c) => s.setCopy (s.homeGallery v.1 v.2) k { c with keep := some (s.homeBytes v.1 v.2) }
      | none => s) s
    let seed := s.free
    let bs := (List.range 8).flatMap (fun j => toBytes 8 (Config.freeValue (seed + j)).toNat)
    { s with free := s.free + 8, hbm := writeBytes s.hbm (cell + 64 * half) bs }

/-- HBM_READ: a half-line is read with errors in a number of symbols (R252). An error of one or two symbols is corrected and
counted against its row. Whether an error in three or more is detected is not guaranteed: a free choice (log entry 4). A stack in refresh-only
service reads nothing (R260). -/
def execHbmRead (pc line half symbols : Nat) (s : State) : Outcome := s.waits <|
  if 512 ≤ pc ∨ linesPerPc ≤ line ∨ 2 ≤ half ∨ symbols = 0 ∨ (s.stack (pc / 64)).refreshOnly = true then .next s
  else if symbols ≤ 2 then .next (s.rowCorrected pc line)
  else
    let (s, i) := s.pick 2
    .next (if i = 0 then s.poisonHalf pc line half else s.corruptHalf pc line half)

/-- PATROL_SCRUB: once per scrub period a stack's allocated half-lines are read (R254). One with an error that is corrected has its data written
back and counts against its row, and one with an error that is detected and not corrected is poisoned. -/
def execPatrolScrub (stack : Nat) (found : ScrubFound) (s : State) : Outcome := s.waits <|
  let x := s.stack stack
  let (s, now) := s.sample
  if 8 ≤ stack ∨ now < x.lastScrub + s.setting 3 24 * hourNs ∨ x.refreshOnly = true then .next s
  else
    let s := (s.setStack stack { x with lastScrub := now }).wakeStack stack [stack / 2]
    let at' := fun (f : State → Nat → Nat → Nat → State) (s : State) (h : Nat) =>
      let pc := h / (2 * linesPerPc)
      let line := h / 2 % linesPerPc
      if pc / 64 = stack ∧ (s.ownerAt pc line).isSome = true then f s pc line (h % 2) else s
    let s := found.fixed.foldl (at' (fun s pc line _ => s.rowCorrected pc line)) s
    .next (found.bad.foldl (at' (fun s pc line half => s.poisonHalf pc line half)) s)

/-! ### Row repair (R255) -/

/-- ROW_REPAIR: a row whose corrected errors exceed the threshold within 24 hours is repaired and recorded, also one that has been repaired
before; a pseudo-channel without a spare row left, which no rule counts (log entry 4), has its channel retired instead (R256). -/
def execRowRepair (pc row : Nat) (s : State) : Outcome :=
  let (s, now) := s.sample
  let ts := (mget [] s.rasTimes (rowKey pc row)).filter (fun t => decide (now < t + dayNs))
  if 512 ≤ pc ∨ ts.length ≤ s.setting 4 8 then .next s
  else if s.setting 13 1 = 0 then
    .next ({ s with rasTimes := mset [] s.rasTimes (rowKey pc row) [] }.rasRepaired
      { cls := 1, source := 0x09, unit := pc / 64, site := pc / 2, addr := row })
  else
    let (s, i) := s.pick 2
    if i = 1 then .next (s.queueRetire (pc / 2) none)
    else
      let s := { s with rasTimes := mset [] s.rasTimes (rowKey pc row) [] }
      let s := (s.modRepair (fun m => { m with rows := if (pc, row) ∈ m.rows then m.rows else m.rows ++ [(pc, row)] })).persist
      .next (s.rasRepaired { cls := 1, source := 0x09, action := 4, unit := pc / 64, site := pc / 2, addr := row })

/-! ### The watermark rebuild (R256 to R259) -/

/-- Whether a pseudo-channel is left out of the targets that a job builds. -/
def jobOut (c : MoveCause) (pc : Nat) : Bool :=
  match c with
  | .retire ch => decide (pc / 2 = ch)
  | .groups _ leaving => bit leaving (pc / 16)
  | .change _ _ _ _ => false

/-- The lists and size of a region's new form under a job. -/
def State.newForm (s : State) (c : MoveCause) (key : Nat) (r : Region) : Nat × Nat × Nat × List (List Nat) :=
  let (size, mode, die) := match c with | .change _ z m d => (z, m, d) | _ => (r.size, r.mode, r.die)
  let g := (s.part (key / 64)).groups
  let g := match c with | .groups _ leaving => g - (g &&& leaving) | _ => g
  (size, mode, die, s.targetLists g mode die (jobOut c))

/-- Starts the rebuild of a region under a job, or answers none with the shortfall. -/
def State.startRebuild (s : State) (c : MoveCause) (key : Nat) (r : Region) : Option State :=
  let (size, mode, die, lists) := s.newForm c key r
  match s.allocate (.regionNew (key / 64) (key % 64)) (decide (mode = 1)) (size / 128) lists with
  | some (s, l) =>
    some { s with
      migPart := key / 64, migRegion := key % 64
      rebuilds := [{ part := key / 64, idx := key % 64, target := { base := r.base, size, mode, die, layout := l } }] }
  | none => none

/-- Moves a whole segment form to the partition's channels without those left out; its bytes and poison move with it. -/
def State.moveSegForm (s : State) (i : Nat) (owner : LineOwner) (l : Layout) (mask keeper : Nat) (out : Nat → Bool) : Option (State × Layout) :=
  let lists := [(s.livePcs (s.part keeper).groups out).filter (fun pc => bit mask (pc / 64))]
  let n := (s.seg i).size / 128
  match (s.release owner).allocate owner false n lists with
  | none => none
  | some (s1, l1) =>
    some ((List.range n).foldl (fun t x =>
      let (pc, at') := placeLine l x
      let (pc1, at1) := placeLine l1 x
      let t := { t with hbm := writeBytes t.hbm (hbmKey pc1 at1 0) (s.hbmRead (hbmKey pc at' 0) 128) }
      (List.range 2).foldl (fun t h =>
        if hbmKey pc at' 0 / 64 + h ∈ s.hbmPoison then
          { t with hbmPoison := sinsert t.hbmPoison (hbmKey pc1 at1 0 / 64 + h) } else t) t) s1, l1)

/-- Moves every segment form that lies in a pseudo-channel left out (log entry 10); none where one finds no room. -/
def State.moveSegs (s : State) (out : Nat → Bool) : List Nat → Option State
  | [] => some s
  | i :: is =>
    let g := s.seg i
    let hit := fun (l : Layout) => l.lists.any (fun t => t.any out)
    let first : Option State := if g.live && hit g.layout then
        (s.moveSegForm i (.segment i) g.layout g.stackMask g.keeper out).map (fun e => e.1.setSeg i { e.1.seg i with layout := e.2 })
      else some s
    let second : Option State := first.bind (fun s => match (s.seg i).golden with
      | .copy mask l =>
        if g.live && hit l then
          (s.moveSegForm i (.segmentCopy i) l mask g.keeper out).map (fun e => e.1.setSeg i { e.1.seg i with golden := .copy mask e.2 })
        else some s
      | .host _ => some s)
    match second with
    | some s => s.moveSegs out is
    | none => none

/-- The channel groups in which a partition's stage-2 tables may lie (R292): its own, or, where it has none, those of no partition. -/
def State.tableGroups (s : State) (groups : Nat) : Nat :=
  if groups ≠ 0 then groups
  else maskOf ((List.range 32).filter (fun k => !s.parts.any (fun e => e.2.live && bit e.2.groups k)))

/-- The lowest pseudo-channel of a mask of groups, without those left out, with a run of free lines, and the run's base. -/
def State.freeRun (s : State) (mask lines : Nat) (out : Nat → Bool) : Option (Nat × Nat) :=
  (s.livePcs mask out).findSome? (fun pc => (s.lowestFree pc lines).map (fun b => (pc, b)))

/-- Places a partition's stage-2 tables, of a number of lines, as one run of one pseudo-channel (log entry 14). -/
def State.placeTables (s : State) (q groups lines : Nat) (out : Nat → Bool) : Option State :=
  let s := s.release (.table q 0)
  (s.freeRun (s.tableGroups groups) lines out).map (fun r =>
    let a : Alloc := ⟨r.1, r.2, lines, .table q 0⟩
    { s with allocs := s.allocs ++ [a] })

/-- The run of a partition's stage-2 tables. -/
def State.tableRun (s : State) (q : Nat) : Option Alloc := s.allocs.find? (fun a => decide (a.owner = .table q 0))

/-- Takes the stage-2 tables that lie in pseudo-channels left out into others; none where some find no room. -/
def State.moveTablesOut (s : State) (out : Nat → Bool) : List Nat → Option State
  | [] => some s
  | q :: qs =>
    match s.tableRun q with
    | some a =>
      if out a.pc then
        match s.placeTables q (s.part q).groups a.count out with
        | some s => s.moveTablesOut out qs
        | none => none
      else s.moveTablesOut out qs
    | none => s.moveTablesOut out qs

/-- Segment forms and stage-2 tables leave the pseudo-channels that a job takes out of service; none where some find no room. -/
def State.moveRest (s : State) (c : MoveCause) : Option State :=
  match c with
  | .retire _ => (s.moveSegs (jobOut c) (List.range 16)).bind (fun s => s.moveTablesOut (jobOut c) (List.range 8))
  | .groups _ _ => s.moveSegs (jobOut c) (List.range 16)
  | .change _ _ _ _ => some s

/-- A job is done: the channel is retired, the groups leave, or the change is answered. -/
def State.finishJob (s : State) (j : MoveJob) : State :=
  match j.cause with
  | .retire ch =>
    let s := s.modRepair (fun m => { m with channels := sinsert m.channels ch })
    let s := s.answerStored j.path [zeros 4]
    s.rasRepaired { cls := 1, source := 0x09, action := 5, unit := ch / 32, site := ch }
  | .groups q leaving =>
    let p := s.part q
    let groups := p.groups - (p.groups &&& leaving)
    let s := (s.setPart q { p with groups }).defaultBuckets q groups p.galleries
    s.answer j.path 0 0 []
  | .change _ _ _ _ => s.answer j.path 0 0 []

/-- The regions that a job has still to rebuild: for a retirement those that its channel affects now, in ascending `BASE`, whatever has been made
or changed since it was queued (R256). -/
def State.jobTodo (s : State) (j : MoveJob) : List Nat :=
  match j.cause with
  | .retire ch => (sortBy (fun e => e.2.base) (s.regions.filter (fun e => e.2.uses ch))).map (·.1)
  | _ => j.todo

/-- What a job that lacks free lines waits for or fails with. -/
inductive JobStep where
  | started (s : State)
  | done (s : State)
  | short (lines : Nat)

/-- The next step of a job: the rebuild of its first region begins, or with none left its segments and tables move and it ends, or it lacks
lines. -/
def State.jobStep (s : State) (j : MoveJob) : List Nat → JobStep
  | [] =>
    match s.moveRest j.cause with
    | some s => .done (s.finishJob j)
    | none => .short 1
  | key :: todo =>
    match mfind s.regions key with
    | none => s.jobStep j todo
    | some r =>
        match s.startRebuild j.cause key r with
        | some s => .started { s with moveJobs := { j with todo } :: s.moveJobs }
        | none =>
          let (size, mode, _, lists) := s.newForm j.cause key r
          .short (s.shortfall lists (extentsOf (decide (mode = 1)) (size / 128) lists))

/-- Goes on with the moving work that is queued: while no region is being rebuilt, the next one of the first job is started,
or the job is finished. A retirement that lacks free lines waits, and the shortfall is told once (R256); another job that lacks them is
given up. The fuel bounds the number of jobs. -/
def State.startMoves : Nat → State → State
  | 0, s => s
  | f + 1, s =>
    if s.rebuilds ≠ [] ∨ s.tableMoves ≠ [] then s
    else
      match s.moveJobs with
      | [] => s
      | j :: rest =>
        match { s with moveJobs := rest }.jobStep j (s.jobTodo j) with
        | .started s => s
        | .done s => State.startMoves f s
        | .short lines =>
          match j.cause with
          | .retire _ =>
            let s := if j.told then s
              else ((s.raise 0 .retireWait).logEvent 0 5 (toBytes 2 8 ++ zeros 2 ++ toBytes 4 lines)).answer j.path 0 0 [toBytes 4 lines]
            let t := State.startMoves f { s with moveJobs := rest }
            { t with moveJobs := { j with told := true, path := none } :: t.moveJobs }
          | _ => State.startMoves f ({ s with moveJobs := rest }.answer j.path 0x12 0 [])

/-- The lines of a range of physical addresses of a partition leave the homes, slices and caches. -/
def State.dropRange (s : State) (q base size : Nat) : State :=
  let inside := fun (k : Nat) => decide (lineKey q base ≤ k) && decide (k < lineKey q base + size / 128)
  let s := s.homes.foldl (fun t e => if inside e.1 then t.dropCopies e.1 false e.2.dir.holders else t) s
  { s with
    homes := s.homes.filter (fun e => !inside e.1)
    slices := mmapVals s.slices (fun _ (x : Slice) => { x with lines := x.lines.filter (fun e => !inside e.2.line) }) }

/-- The new form replaces the old, whose lines are freed (R257 step 5). -/
def State.endRebuild (s : State) (b : Rebuild) : State :=
  let old := (mget b.target s.regions (64 * b.part + b.idx)).size
  let s := s.dropRange b.part (b.target.base + b.target.size) (old - b.target.size)
  let s := s.release (.region b.part b.idx)
  { s with
    regions := minsert s.regions (64 * b.part + b.idx) b.target
    allocs := s.allocs.map (fun a => if a.owner = .regionNew b.part b.idx then { a with owner := .region b.part b.idx } else a)
    rebuilds := s.rebuilds.drop 1 }

/-- Charges the migration engine, which stands on the IO die, for one line (R258): read at its home, from the home's slice or from its stack, and
written at its new stack. -/
def State.chargeMove (s : State) (q pa src dst : Nat) : State :=
  let g := s.homeGallery q pa
  let s := if (s.gcCopy q pa).isSome then s.countGal g 2 1 else (s.countGal g 3 1).chargeHbm 8 g src false
  ((s.chargeHop 8 (g / 5) 4).chargeHop 8 4 (stackOf dst / 2)).chargeStack 8 dst true

/-- LINE_MOVE: the migration engine moves the lowest line not moved of the region being rebuilt, as one home transaction, behind those of the
line (R234): its present value and its poison go to the new form (R257 to R259). No line starts while the source or destination stack is in
refresh-only service. -/
def execLineMove (s : State) : Outcome := s.waits <|
  match s.rebuilds with
  | [] => .next (State.startMoves 600 s)
  | b :: _ =>
    match mfind s.regions (64 * b.part + b.idx) with
    | none => .next { s with rebuilds := s.rebuilds.drop 1 }
    | some r =>
      let x := b.watermark
      let pa := r.base + 128 * x
      let (pc, line) := placeLine r.layout x
      let (pc1, line1) := placeLine b.target.layout x
      if (s.stack (pc / 64)).refreshOnly || (s.stack (pc1 / 64)).refreshOnly then .next s
      else
        let s := (s.askOwner b.part pa).chargeMove b.part pa (hbmKey pc line 0) (hbmKey pc1 line1 0)
        let bs := s.homeBytes b.part pa
        let bad := s.homePoison b.part pa
        let s := { s with
          hbm := writeBytes s.hbm (hbmKey pc1 line1 0) bs
          rebuilds := { b with watermark := x + 1 } :: s.rebuilds.drop 1 }.setCellPoison (hbmKey pc1 line1 0) bad
        if x + 1 < min r.size b.target.size / 128 then .next s
        else .next (State.startMoves 600 (s.endRebuild b))

/-! ### Registers (Tables 9-4, 9-6, 9-7) -/

/-- `HBM_REG_CFG` of a bucket, its level refilled to the moment of the read and given in whole bytes. -/
def State.bucketReg (s : State) (key : Nat) : Nat :=
  let b := (s.refill).bucket key
  b.rate + 65536 * b.burst + 2 ^ 28 * b2n b.borrow + 2 ^ 32 * toMod (b.level / 10240) 32

/-- `HBM_MIG_STATUS`. -/
def State.migReg (s : State) : Nat :=
  let w := match s.rebuilds with | b :: _ => b.watermark | [] => 0
  b2n (decide (s.rebuilds ≠ [])) + 2 ^ 8 * (s.migRegion % 64) + 2 ^ 16 * (s.migPart % 8) + 2 ^ 24 * (w % 2 ^ 40)

/-- `HBM_STACK_STATUS` of a stack. -/
def State.stackReg (s : State) (k : Nat) : Nat :=
  let x := s.stack k
  x.temp % 256 + 2 ^ 8 * x.step + 2 ^ 11 * b2n x.refreshOnly + 2 ^ 12 * b2n x.hot +
    2 ^ 16 * maskOf ((List.range 32).filter (fun c => decide (32 * k + c ∈ s.conf.repair.channels)))

end Sys2Proof.Machine
end

