-- ==== Sys2Proof/Machine/FabricOps.lean ====
section
/-! DEFINITION. The fabric as shared operations (12_fabric_and_kft.md): sub-ports and their counters, KFT packets on the wire
(R312 to R315), acknowledgements and rates (R322 to R325), work entries (R316, R317), the performing of messages (R318 to R320),
handshakes (R328, R329) and the end of an association (R332). Multi-byte fields on the wire are big-endian. -/

namespace Sys2Proof.Machine

open Sys2Proof

/-! ### Units and counters -/

/-- The n bytes of v, big-endian. -/
def be (n v : Nat) : List Byte := (toBytes n v).reverse

/-- The n-byte big-endian field at an offset. -/
def beField (bs : List Byte) (off n : Nat) : Nat := ofBytes ((bs.drop off).take n).reverse

/-- The bytes of a text. -/
def textBytes (t : String) : List Byte := t.toList.map (fun c => BitVec.ofNat 8 c.toNat)

def State.port (s : State) (p : Nat) : FabPort := mget {} s.ports p
def State.setPort (s : State) (p : Nat) (x : FabPort) : State := { s with ports := mset {} s.ports p x }
def State.subPort (s : State) (k : Nat) : SubPort := mget {} s.subPorts k
def State.setSubPort (s : State) (k : Nat) (x : SubPort) : State := { s with subPorts := mset {} s.subPorts k x }
def State.assoc (s : State) (a : Nat) : Assoc := mget {} s.assocs a
def State.setAssoc (s : State) (a : Nat) (x : Assoc) : State := { s with assocs := mset {} s.assocs a x }
def State.sendQueue (s : State) (k : Nat) : SendQueue := mget {} s.queues k
def State.setSendQueue (s : State) (k : Nat) (x : SendQueue) : State := { s with queues := mset {} s.queues k x }

/-- The sub-ports that a port's split gives it (Table 12-1). -/
def FabPort.count (p : FabPort) : Nat := if p.cls = 0 then 0 else 2 ^ p.split

/-- Whether sub-port 4p + i exists. -/
def State.subExists (s : State) (k : Nat) : Bool := decide (k % 4 < (s.port (k / 4)).count) && decide (k / 4 < 8)

/-- The line rate of a sub-port in Gb/s (Table 12-1). -/
def State.subRate (s : State) (k : Nat) : Rat :=
  let p := s.port (k / 4)
  if p.cls = 0 then 0 else ((200 * 2 ^ p.cls : Nat) : Rat) / ((2 ^ p.split : Nat) : Rat)

/-- Counts at counter k of Table 12-11. -/
def State.subCount (s : State) (sub k n : Nat) : State :=
  let x := s.subPort sub
  s.setSubPort sub { x with ctrs := mset 0 x.ctrs k ((mget 0 x.ctrs k + n) % 2 ^ 64) }

/-- `HS_BAD`, or `HS_LIMIT` where `limit`: the halves of counter 13, each saturating. -/
def State.hsCountUp (s : State) (sub : Nat) (limit : Bool) : State :=
  let x := s.subPort sub
  let v := mget 0 x.ctrs 13
  let lo := bits v 0 32
  let hi := bits v 32 32
  let v := if limit then lo + 2 ^ 32 * min (2 ^ 32 - 1) (hi + 1) else min (2 ^ 32 - 1) (lo + 1) + 2 ^ 32 * hi
  s.setSubPort sub { x with ctrs := mset 0 x.ctrs 13 v }

/-- Sets a bit of `FAB_PORT_EVENT` (Table 12-10) and the fabric cause of PF0. -/
def State.portEvent (s : State) (p b : Nat) : State :=
  { s with portEvents := mset 0 s.portEvents p (setBit (mget 0 s.portEvents p) b true) }.raise 0 (.fabric p)

/-! ### Frames (R312) -/

/-- The 16-bit one's complement sum of big-endian words. -/
def onesSum : List Byte → Nat
  | [] => 0
  | [a] => 256 * a.toNat
  | a :: b :: rest => 256 * a.toNat + b.toNat + onesSum rest

/-- The Internet checksum. -/
def inetSum (bs : List Byte) : Nat :=
  let t := onesSum bs
  let t := t % 65536 + t / 65536
  let t := t % 65536 + t / 65536
  let t := t % 65536 + t / 65536
  65535 - t

/-- The MAC address that Mitor has heard of a neighbour of a sub-port (R311). -/
def State.neighbour (s : State) (sub : Nat) (ip : List Byte) : Option (List Byte) :=
  (s.neighbours.find? (fun e => decide (e.1 = sub) && decide (e.2.take ip.length = ip) && decide (e.2.length = ip.length + 6))).map
    (fun e => e.2.drop ip.length)

/-- The MAC address of a neighbour of a sub-port (R311). -/
def State.macOf (s : State) (sub : Nat) (ip : List Byte) : List Byte := (s.neighbour sub ip).getD (Config.neighbourMac sub ip)

/-- Mitor asks for the neighbour of a path, with an ARP request or a neighbour solicitation, where its sub-port is up and it has not been heard
(R311). -/
def State.resolve (s : State) (k : KPath) : State :=
  let x := s.subPort k.sub
  if x.up = false ∨ (s.neighbour k.sub k.peer).isSome = true then s
  else
    let v4 := decide (k.peer.length = 4)
    s.emit (.netAnswer { sub := k.sub, kind := if v4 then 0 else 1, target := k.peer, ip := if v4 then x.ip4 else x.ip6,
                         mac := be 6 (Config.macBase + k.sub), payload := [] })

/-- Mitor asks for the neighbours of the given paths. -/
def State.resolveAll (s : State) (ps : Map KPath) : State := ps.foldl (fun s e => s.resolve e.2) s

/-- The frame of a KFT packet to a peer address of 16 or 4 bytes, without its FCS (R312). -/
def State.udpFrame (s : State) (sub : Nat) (peer : List Byte) (entropy : Nat) (payload : List Byte) : List Byte :=
  let x := s.subPort sub
  let n := 8 + payload.length
  let tc := 4 * x.dscp + 2
  let head := fun (cs : Nat) => be 2 (49152 + entropy) ++ be 2 (s.udpPort.getD 0) ++ be 2 n ++ be 2 cs
  let sum' := fun (pseudo : List Byte) =>
    let c := inetSum (pseudo ++ head 0 ++ payload)
    if c = 0 then 65535 else c
  let mac := s.macOf sub peer ++ be 6 (Config.macBase + sub)
  if peer.length = 4 then
    let ip := fun (cs : Nat) => be 1 0x45 ++ be 1 tc ++ be 2 (20 + n) ++ be 2 0 ++ be 2 0x4000 ++ be 1 64 ++ be 1 17 ++ be 2 cs ++
      x.ip4 ++ peer
    mac ++ be 2 0x0800 ++ ip (inetSum (ip 0)) ++ head (sum' (x.ip4 ++ peer ++ be 2 17 ++ be 2 n)) ++ payload
  else
    mac ++ be 2 0x86DD ++ be 4 (6 * 2 ^ 28 + tc * 2 ^ 20 + entropy) ++ be 2 n ++ be 1 17 ++ be 1 64 ++ x.ip6 ++ peer ++
      head (sum' (x.ip6 ++ peer ++ be 4 n ++ be 4 17)) ++ payload

/-- Frame bytes of a KFT payload, with the FCS (R326). -/
def frameSize (peer : List Byte) (payload : Nat) : Nat := 14 + (if peer.length = 4 then 20 else 40) + 8 + payload + 4

/-- A frame leaves on a sub-port; its bytes are counted (R425). -/
def State.sendFrame (s : State) (sub : Nat) (bytes : List Byte) : State :=
  (s.countWide (16 + 2 * (sub / 4)) (bytes.length + 4)).emit (.frame (sub / 4) (sub % 4) bytes)

/-! ### KFT packets (R313 to R315, R331) -/

/-- Whether an association carries data (R327). -/
def Assoc.carries (x : Assoc) : Bool := decide (x.state = .up) || decide (x.state = .rekeying)

/-- Changes the key of an epoch. -/
def Assoc.modKey (x : Assoc) (epoch : Nat) (f : EpochKey → EpochKey) : Assoc :=
  { x with keys := x.keys.map (fun k => if k.epoch = epoch then f k else k), next := x.next.map (fun k => if k.epoch = epoch then f k else k) }

/-- Whether a path is in service (R321). -/
def State.pathUp (s : State) (k : KPath) : Bool := k.live && (s.subPort k.sub).up

/-- Whether an entry of an association's path table is being moved (R257, R321). -/
def Assoc.moving (x : Assoc) (path : Nat) : Bool := decide (x.pathMove.head?.map (·.1) = some path)

/-- The paths of an association that are in service and not being moved. -/
def State.freePaths (s : State) (x : Assoc) : Map KPath := x.paths.filter (fun e => s.pathUp e.2 && !x.moving e.1)

/-- Whether a sender may still send under a key: its counter is below 2^32 − 1 and its epoch younger than 24 hours (R330). -/
def State.keyUsable (s : State) (key : EpochKey) : Bool := decide (key.ctr < 2 ^ 32 - 1) && decide (s.now < key.born + 24 * hourNs)

/-- The header of a packet that is sent (Table 12-3). -/
def kftHead (typ flags path epoch tag ctr psn ts : Nat) : List Byte :=
  be 1 (16 + typ) ++ be 1 flags ++ be 1 path ++ be 1 epoch ++ be 4 tag ++ be 8 ctr ++ be 4 psn ++ be 4 ts

/-- A KFT packet of an association leaves on a path and is counted (Table 12-11, R425). -/
def State.sendPacket (s : State) (a : Nat) (k : KPath) (payload : List Byte) : State :=
  let x := s.assoc a
  let f := s.udpFrame k.sub k.peer k.entropy payload
  ((((s.setAssoc a { x with txPkts := (x.txPkts + 1) % 2 ^ 64 }).sendFrame k.sub f).subCount k.sub 0 1)).subCount k.sub 2 (f.length + 4)

/-- Sends a packet of an association on a path under a key (R313, R315): the number it had is the path's next. -/
def State.sealSend (s : State) (a path typ flags : Nat) (key : EpochKey) (body : List Byte) : State :=
  let x := s.assoc a
  match mfind x.paths path with
  | none => s
  | some k =>
    let (s, t) := s.sample
    let head := kftHead typ flags path key.epoch key.tag key.ctr k.psn t
    let payload := head ++ Config.gcmSeal key.sendKey (key.sendSalt ++ be 8 key.ctr) head body
    let x := { x.modKey key.epoch (fun k => { k with ctr := k.ctr + 1 }) with
      paths := minsert x.paths path { k with psn := (k.psn + 1) % 2 ^ 32 } }
    (s.setAssoc a x).sendPacket a k payload

/-- The segments of a body, or none where an operation is reserved or a length runs past the end (Table 12-6). -/
def parseSegs : Nat → List Byte → Option (List Seg)
  | 0, bs => if bs = [] then some [] else none
  | f + 1, bs =>
    if bs = [] then some []
    else
      let mop := beField bs 0 1
      let n := beField bs 2 2
      if bs.length < 32 + n ∨ mop = 0 ∨ 10 < mop ∨ beField bs 1 1 ≠ 0 then none
      else
        let g : Seg := { mop, seq := beField bs 4 4, off := beField bs 8 4, total := beField bs 12 4, addr := beField bs 16 8,
                         arg := beField bs 24 8, data := (bs.drop 32).take n }
        (parseSegs f (bs.drop (32 + n))).map (fun r => g :: r)

/-- The bytes of a segment. -/
def Seg.bytes (g : Seg) : List Byte :=
  be 1 g.mop ++ be 1 0 ++ be 2 g.data.length ++ be 4 g.seq ++ be 4 g.off ++ be 4 g.total ++ be 8 g.addr ++ be 8 g.arg ++ g.data

/-- An authenticated packet: its association, header and body, whether its key is that of the epoch being established, and
whether it is the `CONFIRM` that the responder waits for. -/
structure Opened where
  assoc : Nat
  typ : Nat
  flags : Nat
  path : Nat
  psn : Nat
  ts : Nat
  body : List Byte
  segs : List Seg
  fresh : Bool
  confirm : Bool
  deriving DecidableEq, Repr

/-- Whether a counter lies within the window of a key and has not been seen (R331). -/
def EpochKey.takes (k : EpochKey) (ctr : Nat) : Bool :=
  decide (k.high ≤ ctr) || (decide (k.high ≤ ctr + 4097) && decide (ctr ∉ k.seen))

/-- The window of a key after an authenticated counter. -/
def EpochKey.saw (k : EpochKey) (ctr : Nat) : EpochKey :=
  let high := max k.high (ctr + 1)
  { k with high, seen := (ctr :: k.seen).filter (fun c => decide (high ≤ c + 4097)) }

/-- The checks of R312, R314 and R331 on a packet other than a handshake: the counter of its drop is advanced, or it is opened and
the window advances. A handshake is for its own commands, which make its checks. -/
def State.openPacket (s : State) (k : KftPacket) : State × Option Opened :=
  let bs := k.bytes
  if s.udpPort = none ∨ s.subExists k.sub = false then (s.subCount k.sub 7 1, none)
  else
    let typ := beField bs 0 1 % 16
    if bs.length < (if typ = 4 then 24 else 40) ∨ beField bs 0 1 / 16 ≠ 1 ∨ typ = 0 ∨ 4 < typ ∨ 4 ≤ beField bs 1 1 then
      (s.subCount k.sub 8 1, none)
    else if typ = 4 then (s, none)
    else
      let tag := beField bs 4 4
      let epoch := beField bs 3 1
      let ctr := beField bs 8 8
      match s.assocs.find? (fun e => e.2.live && decide (e.2.ownTag = tag) && decide (tag ≠ 0)) with
      | none => (s.subCount k.sub 9 1, none)
      | some (a, x) =>
        let held := (if x.carries then x.keys else []) ++ (match x.next with | some n => [n] | none => [])
        match held.find? (fun n => decide (n.epoch = epoch)) with
        | none => (s.subCount k.sub 9 1, none)
        | some key =>
          match Config.gcmOpen key.recvKey (key.recvSalt ++ be 8 ctr) (bs.take 24) (bs.drop 24) with
          | none => (s.subCount k.sub 10 1, none)
          | some body =>
            if !key.takes ctr then (s.subCount k.sub 11 1, none)
            else
              let s := s.setAssoc a (x.modKey epoch (fun n => n.saw ctr))
              let fresh := decide (x.next.map (·.epoch) = some epoch)
              let confirm := fresh && !x.initiator && decide (typ = 1) && decide (body = x.confirm)
              match if confirm || decide (typ ≠ 1) then some [] else parseSegs (body.length / 32 + 1) body with
              | none => (s.subCount k.sub 8 1, none)
              | some segs =>
                (s, some { assoc := a, typ, flags := beField bs 1 1, path := beField bs 2 1, psn := beField bs 16 4,
                           ts := beField bs 20 4, body, segs, fresh, confirm })

/-! ### Acknowledgements (R322) -/

/-- Absorbs the numbers above that have become contiguous. -/
def absorb : Nat → Nat → List Nat → Nat × List Nat
  | 0, cum, got => (cum, got)
  | f + 1, cum, got => if cum ∈ got then absorb f ((cum + 1) % 2 ^ 32) (sremove got cum) else (cum, got)

/-- A received number on a path: the new record and whether it leaves a gap. The timestamp kept is that of the newest packet, which has the
highest number. -/
def RxPath.note (r : RxPath) (psn ts : Nat) (ce data : Bool) : RxPath × Bool :=
  let ahead := fun (n : Nat) => (n + 2 ^ 32 - r.cum) % 2 ^ 32
  let d := ahead psn
  let (cum, got) := if d = 0 then absorb (r.got.length + 1) ((r.cum + 1) % 2 ^ 32) r.got
    else if d < 2 ^ 31 then (r.cum, if psn ∈ r.got then r.got else psn :: r.got) else (r.cum, r.got)
  let newest := decide (d < 2 ^ 31) && r.got.all (fun n => decide (ahead n < d))
  ({ r with cum, got, ts := if newest then ts else r.ts, ce := r.ce + b2n ce, owed := r.owed + b2n data },
    decide (d ≠ 0) && decide (d < 2 ^ 31))

/-- The acknowledgement entry of a path (log entry 20 gives the order and the sizes of its fields). -/
def RxPath.entry (r : RxPath) (path : Nat) : List Byte :=
  let m := maskOf ((List.range 64).filter (fun i => decide ((r.cum + i) % 2 ^ 32 ∈ r.got)))
  be 1 path ++ be 1 0 ++ be 2 (min 65535 r.ce) ++ be 4 ((r.cum + 2 ^ 32 - 1) % 2 ^ 32) ++ be 8 m ++ be 4 r.ts

/-- Sends an `ACK` for a path of the peer, on a path in service of the module's choice, under a key that may still be used (R330). -/
def State.sendAck (s : State) (a path flags : Nat) : State :=
  let x := s.assoc a
  let key := match x.keys, x.next with
    | k :: _, _ => some k
    | [], n => n
  match key.filter s.keyUsable, s.freePaths x with
  | some key, p :: ps =>
    let (s, i) := s.pick (p :: ps).length
    let r : RxPath := mget {} x.rxPaths path
    let s := s.sealSend a ((p :: ps).getD i p).1 2 flags key (r.entry path)
    let x := s.assoc a
    s.setAssoc a { x with rxPaths := minsert x.rxPaths path { r with ce := 0, owed := 0, since := none } }
  | _, _ => s

/-- The epoch being established becomes current (R329, R330). -/
def State.promote (s : State) (a : Nat) : State :=
  let x := s.assoc a
  match x.next with
  | some n =>
    s.setAssoc a { x with
      state := .up, epoch := n.epoch, keys := n :: x.keys.take 1, next := none, oldUntil := s.now + 1000000000
      transcript := x.hello ++ x.reply ++ Config.sha512 (x.hello ++ x.reply)
      hello := [], reply := [], eph := [], confirm := [] }
  | none => s

/-- An accepted packet is counted and entered at its path; the fourth `DATA` packet of a path, a packet that leaves a gap and one that asks for
it are acknowledged at once (R322), but a `PROBE`, whose own answer is an `ACK`. The first packet of a new epoch ends the handshake (R329). -/
def State.acceptPacket (s : State) (k : KftPacket) (o : Opened) : State :=
  let (s, t) := s.sample
  let s := (((s.subCount k.sub 1 1).subCount k.sub 3 k.len).subCount k.sub 5 (b2n k.ce)).countWide (17 + 2 * (k.sub / 4)) k.len
  let x := s.assoc o.assoc
  let (r, gap) := (mget ({} : RxPath) x.rxPaths o.path).note o.psn o.ts k.ce (decide (o.typ = 1))
  let r := { r with since := if o.typ = 1 ∧ r.since = none then some t else r.since }
  let s := s.setAssoc o.assoc { x with rxPaths := minsert x.rxPaths o.path r, ce := (x.ce + b2n k.ce) % 2 ^ 64 }
  let s := if o.fresh && (x.initiator || o.confirm) then s.promote o.assoc else s
  if (o.typ = 1 ∧ 4 ≤ r.owed) ∨ o.confirm = true ∨ (o.typ ≠ 3 ∧ (gap = true ∨ bit o.flags 0 = true)) then s.sendAck o.assoc o.path 0 else s

/-! ### Work entries (R316, R317) -/

/-- The requester that the KFT engine is for a context. -/
def kftEngine (ctx : Nat) : Requester := { cache := 2000, master := .io 4, ctx }

/-- An entry completes with a status: `STATUS` and `DONE` are written, then `DONE_LID` reached. -/
def State.finishEntry (s : State) (ctx queue no status : Nat) : State :=
  let q := s.sendQueue (8 * ctx + queue)
  match q.entries.find? (fun e => decide (e.no = no)) with
  | none => s
  | some e =>
    let size := 2 ^ q.log2
    let at' := q.ring + 64 * (e.k % size)
    let s := { s.setSendQueue (8 * ctx + queue) { q with entries := q.entries.filter (fun e => decide (e.no ≠ no)) } with
      kftOpen := s.kftOpen.filter (fun o => decide (o ≠ (ctx, no))) }
    let s := (s.vaWrite (kftEngine ctx) (at' + 48) (toBytes 2 status)).1
    let s := (s.vaWrite (kftEngine ctx) (at' + 50) (toBytes 1 ((e.k / size + 1) % 2))).1
    let lid := field e.bytes 40 2
    if lid = 0xFFFF then s
    else
      match s.landing ctx lid .fromIo with
      | .slot key => s.arrive key ctx 1
      | _ => s

def State.finishEntries (s : State) (ctx queue status : Nat) : List Nat → State
  | [] => s
  | n :: ns => (s.finishEntry ctx queue n status).finishEntries ctx queue status ns

/-- The body of a KFT entry of the event log (Table 14-12): association, event (1 a send queue stopped, 2 the association ended), context, queue
and reason. -/
def kftEvent (a event ctx queue reason : Nat) : List Byte :=
  toBytes 1 a ++ toBytes 1 event ++ toBytes 1 ctx ++ toBytes 1 queue ++ toBytes 2 reason

/-- A queue stops: the KFT cause of its owner is raised, with its entry in the event log (R316, R363). -/
def State.stopQueue (s : State) (ctx queue : Nat) : State :=
  let q := s.sendQueue (8 * ctx + queue)
  let fn := (s.ctx ctx).fn
  ((s.setSendQueue (8 * ctx + queue) { q with stopped := true }).raise fn (.kftQueue ctx)).logEvent fn 3 (kftEvent q.assoc 1 ctx queue 0x21)

/-- The messages of a queue that is gone answer to nothing any more: what comes for them is not written (R317). -/
def State.orphan (s : State) (ctx queue : Nat) : State :=
  let free := fun (m : OutMsg) => if m.ctx = ctx ∧ m.queue = queue ∧ m.ldg = none then { m with entry := none } else m
  { s with assocs := mmapVals s.assocs (fun _ (x : Assoc) => { x with outMsgs := x.outMsgs.map free }) }

/-- The reader that the engine is for the ring of a queue, and for the source of a taken `WRITE` (R298). -/
def ringReader (ctx queue : Nat) : Reader := .kft (128 + 8 * ctx + queue)
def entryReader (no : Nat) : Reader := .kft (4096 + no)

/-- A queue is destroyed, with its context or by its operator: its taken entries complete with `ABORTED` (Table 12-7). -/
def State.dropQueue (s : State) (ctx queue : Nat) : State :=
  let q := s.sendQueue (8 * ctx + queue)
  let nos := q.entries.map (·.no)
  let s := nos.foldl (fun s n => s.dropHeld (entryReader n)) (s.dropHeld (ringReader ctx queue))
  ((s.finishEntries ctx queue 1 nos).orphan ctx queue).setSendQueue (8 * ctx + queue) {}

/-- Takes a message of an association out of flight. -/
def State.dropOut (s : State) (a seq : Nat) : State :=
  let x := s.assoc a
  s.setAssoc a { x with outMsgs := x.outMsgs.filter (fun m => decide (m.seq ≠ seq)) }

/-- A message has been answered with a status: its work entry completes, or its landing message is done. -/
def State.answered (s : State) (a : Nat) (m : OutMsg) (status : Nat) : State :=
  let s := s.dropOut a m.seq
  match m.entry with
  | some no => s.finishEntry m.ctx m.queue no status
  | none =>
    match m.ldg with
    | some (kind, slot) =>
      let i := s.ldgMsgs.findIdx (fun l => l.sent && decide (l.assoc = a) && decide (l.kind = kind) && decide (l.slot = slot))
      { s with ldgMsgs := s.ldgMsgs.eraseIdx i }
    | none => s

/-- Queues a segment to be sent. -/
def State.queueSeg (s : State) (a : Nat) (g : Seg) : State :=
  let x := s.assoc a
  s.setAssoc a { x with sendQ := x.sendQ ++ [g] }

/-- Queues a new message of an association (R320). -/
def State.newMessage (s : State) (a : Nat) (m : OutMsg) (g : Seg) : State :=
  let x := s.assoc a
  s.setAssoc a { x with
    nextSeq := (x.nextSeq + 1) % 2 ^ 32
    outMsgs := x.outMsgs ++ [{ m with seq := x.nextSeq }]
    sendQ := x.sendQ ++ [{ g with seq := x.nextSeq }] }

/-- Landing messages that wait for an association become messages of it, in order (R280). -/
def State.queueLandings (s : State) (a : Nat) : State :=
  s.ldgMsgs.zipIdx.foldl (fun t e =>
    let (l, i) := e
    if l.assoc = a ∧ l.sent = false ∧ (t.assoc a).outMsgs.length < 4096 then
      let arg := if l.kind = 0 then l.value else if l.kind = 1 then l.value + 2 ^ 32 * l.status else l.status
      let g : Seg := { mop := 7 + l.kind, seq := 0, addr := l.slot, arg }
      let t := t.newMessage a { seq := 0, mop := 7 + l.kind, ldg := some (l.kind, l.slot) } g
      { t with ldgMsgs := modifyAt t.ldgMsgs i (fun l => { l with sent := true }) }
    else t) s

/-! ### Performing messages (R318 to R320) -/

/-- Whether a window of the association allows an access (R318). -/
def Assoc.allows (x : Assoc) (addr n : Nat) (p : Window → Bool) : Bool :=
  x.windows.any (fun w => p w.2 && decide (w.2.base ≤ addr) && decide (addr + n ≤ w.2.base + w.2.size))

/-- Whether an association's target context exists. -/
def State.targetLive (s : State) (x : Assoc) : Bool :=
  decide ((s.ctx x.target).state ≠ .free) && decide ((s.ctx x.target).part = x.part)

/-- A message of the peer has been performed: the lowest unperformed number rises over those performed (R320). -/
def State.msgDone (s : State) (a seq : Nat) : State :=
  let x := s.assoc a
  let (low, done) := absorb 4097 x.rxLow (seq :: x.rxDone)
  s.setAssoc a { x with rxLow := low, rxDone := done, rxMsgs := x.rxMsgs.filter (fun m => decide (m.seq ≠ seq)) }

/-- Refuses a message (Table 12-6, `NAK`). -/
def State.refuse (s : State) (a seq status : Nat) : State :=
  (s.queueSeg a { mop := 10, seq, arg := status }).msgDone a seq

/-- Acknowledges a message (R319). -/
def State.acknowledge (s : State) (a seq : Nat) : State := (s.queueSeg a { mop := 6, seq }).msgDone a seq

/-- The bytes of a message that have come. -/
def InMsg.covered (m : InMsg) : Nat := sum (m.got.map (·.2))

/-- A segment of a `WRITE`: one that runs past its message's end is outside the message's window (log entry 20). One that a line in repair keeps
from its translation waits, with its packet. -/
def State.performWrite (s : State) (a : Nat) (g : Seg) : State :=
  let x := s.assoc a
  if !(s.targetLive x && x.allows g.addr g.total (·.w) && decide (g.off + g.data.length ≤ g.total)) then s.refuse a g.seq 0x22
  else
    let m := (x.rxMsgs.find? (fun m => decide (m.seq = g.seq))).getD { seq := g.seq, mop := 1, addr := g.addr, total := g.total }
    if m.got.any (fun e => decide (e.1 = g.off)) then s
    else
      match s.vaWrite (kftEngine x.target) (g.addr + g.off) g.data with
      | (s, .trans _) => s.refuse a g.seq 0x23
      | (s, .poison _) => s.refuse a g.seq 0x24
      | (s, .held _ _) => s.stall
      | (s, .ok _) =>
        let m := { m with got := m.got ++ [(g.off, g.data.length)] }
        if g.total ≤ m.covered then s.acknowledge a g.seq
        else
          let x := s.assoc a
          s.setAssoc a { x with rxMsgs := x.rxMsgs.filter (fun m => decide (m.seq ≠ g.seq)) ++ [m] }

/-- The bytes that a `READ_REQ` reads. -/
def State.remoteRead (s : State) (a : Nat) (g : Seg) : State × Access :=
  let (t, r) := s.vaRead (kftEngine (s.assoc a).target) g.addr g.total
  t.orHeld (.kft a) r

/-- A `READ_REQ`; one that meets a line in repair has been put off, with its packet. -/
def State.performRead (s : State) (a : Nat) (g : Seg) : State :=
  let x := s.assoc a
  if !(s.targetLive x && x.allows g.addr g.total (·.r)) then s.refuse a g.seq 0x22
  else
    match s.remoteRead a g with
    | (s, .ok bs) => (s.queueSeg a { mop := 3, seq := g.seq, total := g.total, addr := g.addr, data := bs }).msgDone a g.seq
    | (s, .trans _) => s.refuse a g.seq 0x23
    | (s, .poison _) => s.refuse a g.seq 0x24
    | (s, .held _ _) => s.stall

/-- The operation of Table 4-9 that an `AOP` of Table 12-5 is. -/
def aopOf (aop : Nat) : Option Nat := [0, 3, 4, 5, 6, 7, 9][aop]?

/-- An `ATOMIC`: performed at the home as a crew global atomic is (R129). -/
def State.performAtomic (s : State) (a : Nat) (g : Seg) : State :=
  let x := s.assoc a
  let w := kftEngine x.target
  if !(s.targetLive x && x.allows g.addr 8 (·.a)) then s.refuse a g.seq 0x22
  else
    match aopOf (g.arg % 256) with
    | none => s.refuse a g.seq 0x22
    | some op =>
      if g.addr % 8 ≠ 0 then s.refuse a g.seq 0x23
      else
        match s.xlate w g.addr { r := true, w := true } with
        | (s, .fault) => s.refuse a g.seq 0x23
        | (s, .poison _) => s.refuse a g.seq 0x24
        | (s, .held _ _) => s.stall
        | (s, .ok pa) =>
          match s.locate x.part pa with
          | .segment _ _ => s.refuse a g.seq 0x23
          | _ =>
            match s.paRead (.io 4) x.part x.target pa 8 with
            | (s, .ok bs) =>
              let s := match atomicOp op 8 false (ofBytes bs) (beField g.data 0 8) (beField g.data 8 8) with
                | some v => (s.paWrite (.io 4) x.part x.target pa (toBytes 8 v)).1
                | none => s
              (s.queueSeg a { mop := 5, seq := g.seq, total := 8, data := be 8 (ofBytes bs) }).msgDone a g.seq
            | (s, .poison _) => s.refuse a g.seq 0x24
            | (s, _) => s.refuse a g.seq 0x23

/-- Applies a landing message whose turn has come (R280, R318, R320). -/
def State.applyLanding (s : State) (a : Nat) (seq mop addr arg : Nat) : State :=
  let key := 20000 + addr % 256
  let x := s.slot key
  if mop = 7 then
    if x.mirror = none ∧ x.state ≠ .free ∧ x.subs.any (fun p => decide (p.1 = a)) = true then
      (s.arrive key x.owner (arg % 65536)).acknowledge a seq
    else s.refuse a seq 0x22
  else if x.mirror.map (·.1) ≠ some a then s.refuse a seq 0x22
  else if mop = 8 then
    let gen := arg % 2 ^ 32
    let status := arg / 2 ^ 32 % 65536
    let s := s.setSlot key { x with gen, count := gen }
    if status = 0 then (s.releaseSlot key gen).acknowledge a seq
    else
      let go := x.waiters.filter (fun w => w.ready x.kind gen)
      let s := s.modSlot key (fun y => { y with waiters := y.waiters.filter (fun w => !w.ready x.kind gen) })
      (s.notifyAll status gen (go.map (·.party))).acknowledge a seq
  else (s.loseSlot key).acknowledge a seq

/-- Applies the landing messages that have waited for their turn, in order. -/
def State.landingsDue (s : State) (a : Nat) : Nat → State
  | 0 => s
  | f + 1 =>
    let x := s.assoc a
    match x.rxMsgs.find? (fun m => decide (7 ≤ m.mop) && decide (m.seq = x.rxLow)) with
    | some m => (s.applyLanding a m.seq m.mop m.addr m.arg).landingsDue a f
    | none => s

/-- A request segment of the peer: dropped beyond the window, discarded as a duplicate, or performed (R320, R322). -/
def State.performRequest (s : State) (sub a : Nat) (g : Seg) : State :=
  let x := s.assoc a
  let d := (g.seq + 2 ^ 32 - x.rxLow) % 2 ^ 32
  if 2 ^ 31 ≤ d ∨ g.seq ∈ x.rxDone then s
  else if 4096 ≤ d then s.subCount sub 12 1
  else
    let s := match g.mop with
      | 1 => s.performWrite a g
      | 2 => s.performRead a g
      | 4 => s.performAtomic a g
      | _ =>
        if d = 0 then s.applyLanding a g.seq g.mop g.addr g.arg
        else if x.rxMsgs.any (fun m => decide (m.seq = g.seq)) then s
        else
          let m : InMsg := { seq := g.seq, mop := g.mop, addr := g.addr, arg := g.arg }
          s.setAssoc a { x with rxMsgs := x.rxMsgs ++ [m] }
    s.landingsDue a 4096

/-- Data that comes back for a message is written to the local address (R317), unless its entry has completed without it. -/
def State.writeLocal (s : State) (m : OutMsg) (off : Nat) (data : List Byte) : State × Access :=
  if m.entry = none then (s, .ok []) else s.vaWrite (kftEngine m.ctx) (m.addr + off) data

/-- A part of the data of a `READ`, written to the local address (R317). -/
def State.readReturns (s : State) (a : Nat) (m : OutMsg) (g : Seg) : State :=
  if m.got.any (fun e => decide (e.1 = g.off)) then s
  else
    match s.writeLocal m g.off g.data with
    | (s, .held _ _) => s.stall
    | (s, .ok _) =>
      let m := { m with got := m.got ++ [(g.off, g.data.length)] }
      if m.len ≤ sum (m.got.map (·.2)) then s.answered a m 0
      else
        let x := s.assoc a
        s.setAssoc a { x with outMsgs := x.outMsgs.map (fun y => if y.seq = m.seq then m else y) }
    | (s, _) => s.answered a m 0x21

/-- An answer of the peer to a message of this module (R317, R319). -/
def State.performAnswer (s : State) (a : Nat) (g : Seg) : State :=
  match (s.assoc a).outMsgs.find? (fun m => decide (m.seq = g.seq)) with
  | none => s
  | some m =>
    match g.mop with
    | 3 => if m.mop = 2 then s.readReturns a m g else s
    | 5 =>
      if m.mop = 4 then
        match s.writeLocal m 0 (toBytes 8 (beField g.data 0 8)) with
        | (s, .held _ _) => s.stall
        | (s, .ok _) => s.answered a m 0
        | (s, _) => s.answered a m 0x21
      else s
    | 6 => if m.mop = 2 ∨ m.mop = 4 then s else s.answered a m 0
    | _ => s.answered a m (g.arg % 65536)

def State.performSegs (s : State) (sub a : Nat) : List Seg → State
  | [] => s
  | g :: gs =>
    (if g.mop = 3 ∨ g.mop = 5 ∨ g.mop = 6 ∨ g.mop = 10 then s.performAnswer a g else s.performRequest sub a g).performSegs sub a gs

/-! ### Loss and rate (R323, R325) -/

/-- The lower bound of a path's rate, in Gb/s. -/
def minRate : Rat := 1 / 10

/-- A decrease of a path's rate, at most once per RTT. -/
def KPath.slow (k : KPath) (now : Nat) (f : Rat) : KPath :=
  if k.changed + k.srtt ≤ now then
    { k with rate := max minRate (k.rate * f), changed := now, good := 0, incr := 1 / 200 }
  else k

/-- The RTTs of the last 10 s from which a later one has not taken the minimum, with a new one (R325): the first of them is the minimum. -/
def KPath.keepRtt (k : KPath) (now rtt : Nat) : List (Nat × Nat) :=
  k.rtts.filter (fun e => decide (now < e.1 + 10000000000) && decide (e.2 < rtt)) ++ [(now, rtt)]

/-- The step of R325 at an acknowledgement of n packets with ce marks. -/
def KPath.adjust (k : KPath) (now rtt n ce target : Nat) (lost : Bool) (top : Rat) : KPath :=
  let f : Rat := if n = 0 then 0 else min 1 ((ce : Rat) / (n : Rat))
  let diff := if k.srtt ≤ rtt then rtt - k.srtt else k.srtt - rtt
  let k := { k with
    alpha := 15 / 16 * k.alpha + f / 16
    srtt := if k.srtt = 0 then rtt else (7 * k.srtt + rtt) / 8
    rttvar := if k.srtt = 0 then rtt / 2 else (3 * k.rttvar + diff) / 4
    rtts := k.keepRtt now rtt }
  let d := rtt - (match k.rtts with | e :: _ => e.2 | [] => rtt)
  if lost then k.slow now (7 / 10)
  else if 0 < f then k.slow now (1 - k.alpha / 2)
  else if target < d then k.slow now (max (1 / 2) (1 - 4 / 5 * (((d - target : Nat) : Rat) / (d : Rat))))
  else if k.changed + k.srtt ≤ now then
    let good := k.good + 1
    { k with
      rate := min top (k.rate + k.incr * top), changed := now, good := if good = 5 then 0 else good
      incr := if good = 5 then min (1 / 25) (2 * k.incr) else k.incr }
  else k

/-- The retransmission timer of a path (R323). -/
def KPath.timer (k : KPath) : Nat := max 50000 (k.srtt + 4 * k.rttvar)

/-- Lost packets: their segments wait to be sent again; a probe is not. -/
def Assoc.lose (x : Assoc) (gone : List SentPkt) : Assoc :=
  { x with
    sent := x.sent.filter (fun p => decide (p ∉ gone))
    retxQ := x.retxQ ++ gone.filter (fun p => decide (p.segs ≠ [])) }

/-- One entry of an `ACK` (R322, R323, R325). -/
def State.ackEntry (s : State) (a path ce cum map ts : Nat) : State :=
  let (s, now) := s.sample
  let x := s.assoc a
  match mfind x.paths path with
  | none => s
  | some k =>
    let dist := fun (psn : Nat) => (psn + 2 ^ 32 - (cum + 1) % 2 ^ 32) % 2 ^ 32
    let acked := fun (p : SentPkt) => decide (2 ^ 31 ≤ dist p.psn) || (decide (dist p.psn < 64) && bit map (dist p.psn))
    let mine := x.sent.filter (fun p => decide (p.path = path))
    let lost := mine.filter (fun p => !acked p && decide (3 ≤ popcount 64 (map / 2 ^ (dist p.psn + 1))) && decide (dist p.psn < 64))
    let done := mine.filter acked
    let rtt := (now + 2 ^ 32 - ts % 2 ^ 32) % 2 ^ 32
    let k := k.adjust now rtt done.length ce (1000 * s.setting 8 10) (decide (lost ≠ [])) (s.subRate k.sub)
    let k := if done = [] then k else { k with unanswered := 0, live := true }
    let x := { x with paths := minsert x.paths path k, sent := x.sent.filter (fun p => decide (p ∉ done)) }
    s.setAssoc a (x.lose lost)

/-- The entries of an `ACK` body. -/
def State.ackEntries (s : State) (a : Nat) : Nat → List Byte → State
  | 0, _ => s
  | f + 1, bs =>
    if bs.length < 20 then s
    else (s.ackEntry a (beField bs 0 1) (beField bs 2 2) (beField bs 4 4) (beField bs 8 8) (beField bs 16 4)).ackEntries a f (bs.drop 20)

/-! ### The end of an association (R332) -/

/-- Completes every taken entry of an association with a status. -/
def State.abortEntries (s : State) (a status : Nat) : State :=
  s.queues.foldl (fun t e =>
    if e.2.assoc = a ∧ e.2.live = true then t.finishEntries (e.1 / 8) (e.1 % 8) status (e.2.entries.map (·.no)) else t) s

/-- Ends an association for a reason (Table 14-12): entries, mirrors and subscribers, keys, causes with their entries in the event logs, in this
order. -/
def State.endAssoc (s : State) (a : Nat) (st : AssocState) (reason : Nat) : State :=
  let q := (s.assoc a).part
  let s := s.abortEntries a 0x25
  let mirrors := (s.slots.filter (fun e => decide (e.2.mirror.map (·.1) = some a))).map (·.1)
  let s := s.loseSlots mirrors
  let s := { s with
    slots := mmapVals s.slots (fun _ x => { x with subs := x.subs.filter (fun p => decide (p.1 ≠ a)) })
    ldgMsgs := s.ldgMsgs.filter (fun l => decide (l.assoc ≠ a)) }
  let x := s.assoc a
  let s : State := s.setAssoc a { x with
    state := st, keys := [], next := none, eph := [], hello := [], reply := [], confirm := [], transcript := [], peerPub := [],
    sendQ := [], retxQ := [], sent := [],
    outMsgs := [], rxMsgs := [], rxDone := [], rxLow := 0, nextSeq := 0, rxPaths := [] }
  let tell := fun (s : State) (fn : Nat) => (s.raise fn (.kftAssoc a)).logEvent fn 3 (kftEvent a 2 0 0 reason)
  let fn := s.fnOf q
  tell (if fn = 0 then s else tell s fn) 0

/-! ### Handshakes (R328, R329) -/

/-- The private key of a partition (R375); none while the identity is absent. -/
def State.partKey (s : State) (q : Nat) : Option (List Byte) :=
  s.seed.map (fun sd => Config.hkdf [] sd (textBytes "Exurso partition v1" ++ toBytes 1 q ++ toBytes 4 (mget 0 s.conf.partGens q)) 32)

/-- The certificate of a partition's key (R375). -/
def State.partCertOf (s : State) (q : Nat) : List Byte :=
  match s.seed, s.partKey q with
  | some sd, some k => Config.partCert sd (Config.ed25519Public k) Config.serial q (mget 0 s.conf.partGens q)
  | _, _ => []

/-- The fields of a `HELLO` or `REPLY` in the order of Table 12-8. -/
def hsFields (assoc epoch tag : Nat) (pub random deviceCert partCert : List Byte) : List Byte :=
  be 1 assoc ++ be 1 epoch ++ pub ++ random ++ be 4 tag ++ deviceCert ++ partCert

/-- 32 bytes that the module draws. -/
def State.draw32 (s : State) : State × List Byte :=
  let n := s.free
  ({ s with free := n + 4 }, (List.range 4).flatMap (fun i => toBytes 8 (Config.freeValue (n + i)).toNat))

/-- The module's tag for an association, non-zero and its own. -/
def State.tagFor (s : State) (a : Nat) : State × Nat :=
  let t := (s.assoc a).ownTag
  if t ≠ 0 then (s, t)
  else
    let (s, i) := s.pick (2 ^ 24)
    (s, 1 + a + 128 * i)

/-- The epoch that a handshake of an association establishes. -/
def Assoc.newEpoch (x : Assoc) : Nat := if x.keys = [] then x.epoch else (x.epoch + 1) % 256

/-- A handshake message leaves in a `HANDSHAKE` packet on the association's first path in service (R328): its header names the epoch being
established, and `FLAGS`, `DST_TAG`, `CTR` and `PSN` are zero. One that would exceed the sub-port's MTU is not sent (R312; log entry 20). -/
def State.sendHandshake (s : State) (a epoch : Nat) (body : List Byte) : State :=
  match s.udpPort, s.freePaths (s.assoc a) with
  | some _, (i, k) :: _ =>
    let (s, t) := s.sample
    let payload := kftHead 4 0 i epoch 0 0 0 t ++ body
    if (s.port (k.sub / 4)).mtu + 18 < frameSize k.peer payload.length then s else s.sendPacket a k payload
  | _, _ => s

/-- Starts a handshake as initiator: `HELLO`, signed by the partition key (R328, R330). -/
def State.sendHello (s : State) (a : Nat) : State :=
  let x := s.assoc a
  match s.partKey x.part with
  | none => s
  | some key =>
    let (s, eph) := s.draw32
    let (s, random) := s.draw32
    let (s, tag) := s.tagFor a
    let (s, t) := s.sample
    let fs := hsFields a x.newEpoch tag (Config.x25519Public eph) random s.conf.chain (s.partCertOf x.part)
    let msg := fs ++ Config.ed25519Sign key fs
    let st : AssocState := if x.keys = [] then .handshake else .rekeying
    (s.setAssoc a { x with state := st, initiator := true, eph, hello := msg, reply := [], next := none, ownTag := tag, began := t
                           }).sendHandshake a x.newEpoch msg

/-- The keys of R329 for one side. -/
def deriveKeys (eph peer hello reply : List Byte) (epoch tag now : Nat) (initiator : Bool) : EpochKey :=
  let okm := Config.hkdf (Config.sha512 (hello ++ reply)) (Config.x25519 eph peer) (textBytes "KFT keys v1" ++ be 1 epoch) 72
  let key := fun (i : Nat) => (okm.drop (32 * i)).take 32
  let salt := fun (i : Nat) => (okm.drop (64 + 4 * i)).take 4
  let (me, other) := if initiator then (0, 1) else (1, 0)
  { epoch, tag, sendKey := key me, recvKey := key other, sendSalt := salt me, recvSalt := salt other, born := now }

/-- The fields of a `HELLO` or `REPLY`. -/
def helloFields (h : Handshake) : List Byte := hsFields h.assoc h.epoch h.tag h.pub h.random h.deviceCert h.partCert

/-- The fields of a `CLOSE` (Table 12-8; log entry 20 gives their sizes). -/
def closeFields (a reason : Nat) : List Byte := be 1 a ++ be 2 reason

/-- The messages of the handshake that come before a `CLOSE` (Table 12-8). -/
def Assoc.earlier (x : Assoc) : List Byte := if x.keys = [] then x.hello ++ x.reply else x.transcript

/-- Whether the header of a handshake message is that of R328: `FLAGS`, `DST_TAG`, `CTR` and `PSN` are zero. -/
def hsHeadOk (k : KftHeader) : Bool :=
  decide (k.flags = 0) && decide (k.dstTag = 0) && decide (k.ctr = 0) && decide (k.psn = 0)

/-- The association that a handshake message belongs to and the sender's partition key, if its header, its certificates and its signature over
the earlier messages and its own fields hold (R328): the index it carries, with the sender's device key hash and partition index as the
installer has set them. -/
def State.hsAssoc (s : State) (h : Handshake) (earlier : List Byte) : Option (Nat × List Byte) :=
  let x := s.assoc h.assoc
  match Config.deviceKeyHash h.deviceCert, Config.partCertKey h.deviceCert h.partCert with
  | some hash, some (pub, idx) =>
    if hsHeadOk h.pkt.head = true ∧ h.pkt.head.epoch = h.epoch ∧ x.live = true ∧ x.peerHash = hash ∧ x.peerPart = idx ∧
        Config.ed25519Verify pub (earlier ++ helloFields h) h.sig = true then
      some (h.assoc, pub)
    else none
  | _, _ => none

/-- The limit of R333 on handshake packets: whether this one reaches Mitor. -/
def State.hsAdmit (s : State) (sub : Nat) : State × Bool :=
  let (s, t) := s.sample
  let x := s.subPort sub
  let x := if x.hsStart + 1000000000 ≤ t then { x with hsStart := t, hsCount := 0 } else x
  if x.hsCount < 1000 then (s.setSubPort sub { x with hsCount := x.hsCount + 1 }, true)
  else ((s.setSubPort sub x).hsCountUp sub true, false)

/-- The checks of R312 and R314 on a handshake packet and the limit of R333: it is counted, and whether it reaches Mitor. -/
def State.hsArrive (s : State) (k : HsPacket) : State × Bool :=
  if s.subExists k.sub = false ∨ (s.subPort k.sub).up = false then (s, false)
  else if s.udpPort = none then (s.subCount k.sub 7 1, false)
  else if k.head.verType ≠ 0x14 ∨ 4 ≤ k.head.flags then (s.subCount k.sub 8 1, false)
  else
    match s.hsAdmit k.sub with
    | (s, true) => ((((s.subCount k.sub 1 1).subCount k.sub 3 k.len).subCount k.sub 5 (b2n k.ce)).countWide (17 + 2 * (k.sub / 4)) k.len, true)
    | r => r

/-! ### Paths (R321) -/

/-- The path table of an association: each sub-port with an address and each peer address it can reach, with entropy values of
the module's choice, at most 64. -/
def State.buildPaths (s : State) (x : Assoc) : State × Map KPath :=
  let subs := (List.range 32).filter (fun k => s.subExists k && decide ((s.subPort k).ip6 ≠ []))
  let ends := subs.flatMap (fun k => x.peers.flatMap (fun p =>
    [(k, p.take 16)] ++ (if (s.subPort k).ip4 ≠ [] ∧ ofBytes (p.drop 16) ≠ 0 then [(k, p.drop 16)] else [])))
  let (s, e) := s.pick 16384
  (s, (ends.take 64).zipIdx.map (fun t =>
    (t.2, { sub := t.1.1, peer := t.1.2, entropy := (e + t.2) % 16384, rate := s.subRate t.1.1 / 10, incr := 1 / 200 })))

/-- What a path table is to change to (R321): the new entries in ascending order, then the entries above them, which are taken out. -/
def pathChanges (old new : Map KPath) : Map (Option KPath) :=
  new.map (fun e => (e.1, some e.2)) ++ ((old.map (·.1)).filter (fun i => decide (new.length ≤ i))).map (fun i => (i, none))

/-- Every association's path table is to be rebuilt in ascending order (R321), as the sub-ports or their addresses have changed. -/
def State.rebuildPaths (s : State) : State :=
  s.assocs.foldl (fun t e =>
    if e.2.live then
      let (t, m) := t.buildPaths e.2
      (t.setAssoc e.1 { t.assoc e.1 with pathMove := pathChanges e.2.paths m }).resolveAll m
    else t) s

end Sys2Proof.Machine
end

