-- ==== Sys2Proof/Machine/Ports.lean ====
section
/-! DEFINITION. The fabric ports as commands (12_fabric_and_kft.md R303 to R312, R333): training, lane sparing and its lane control
frames, frames that are not accepted, the neighbour protocols, and the port registers. A sub-port p.i is numbered 4p + i. -/

namespace Sys2Proof.Machine

open Sys2Proof

/-! ### Lane control frames (Table 12-2) -/

/-- The 46-byte payload of a lane control frame. -/
def lanePayload (code lane seq index seed : Nat) : List Byte :=
  be 1 1 ++ be 1 code ++ be 1 lane ++ be 1 seq ++ be 1 index ++ be 1 seed ++ zeros 40

/-- A lane control frame leaves on a sub-port. -/
def State.sendLane (s : State) (sub code lane seq seed : Nat) : State :=
  (s.countWide (16 + 2 * (sub / 4)) 64).emit (.laneFrame sub (lanePayload code lane seq (sub % 4) seed))

/-- Acts on a lane control frame that arrives with a code; another version or a reserved code is foreign, another code is
for its own command (R312, Table 12-2). -/
def State.laneFrame (s : State) (sub code : Nat) (payload : List Byte) (f : State → State) : State :=
  if s.subExists sub = false ∨ (s.subPort sub).up = false then s
  else if beField payload 0 1 ≠ 1 ∨ beField payload 1 1 = 0 ∨ 6 < beField payload 1 1 then s.subCount sub 7 1
  else if beField payload 1 1 = code then f s
  else s

/-- The sub-port that uses a lane (R304). -/
def State.subOfLane (s : State) (port lane : Nat) : Nat := 4 * port + lane * (s.port port).count / 8

/-- Offers sparing on a sub-port with a number and a start value of the module's choice, the value afresh for each offer (R307, R308). -/
def State.offerOn (s : State) (sub : Nat) : State :=
  let (s, seed) := s.pick 256
  let (s, t) := s.sample
  let x := s.subPort sub
  let n := (x.offerSeq + 1) % 256
  (s.setSubPort sub { x with offerSeq := n, offerAt := some t, offered := t }).sendLane sub 1 0 n seed

/-- The sub-ports of a port that are up. -/
def State.upSubs (s : State) (port : Nat) : List Nat :=
  ((List.range 4).map (fun i => 4 * port + i)).filter (fun k => s.subExists k && (s.subPort k).up)

/-- Offers sparing on sub-ports. -/
def State.offerAll (s : State) (subs : List Nat) : State := subs.foldl (fun s k => s.offerOn k) s

/-- What lane 8 of a port does for a sub-port that goes down or loses it: given up in each direction that serves it (R308). -/
def FabPort.release (p : FabPort) (i : Nat) : FabPort :=
  let p := if p.spare = some i then { p with spare := none, rxLane := none, request := none } else p
  if p.pattern.map (·.1) = some i then { p with pattern := none, txLane := none } else p

/-- The sub-port that lane 8 serves: the spared one, or that whose lane it shadows on transmit (R308). -/
def FabPort.served (p : FabPort) : Option Nat :=
  match p.spare with
  | some i => some i
  | none => if p.txLane.isSome then p.pattern.map (·.1) else none

/-! ### Links going up and down -/

/-- A sub-port goes down and trains again: its paths' unacknowledged packets go to other paths (R310), and lane 8 is released if it
served this sub-port (R308). -/
def State.subDown (s : State) (sub : Nat) : State :=
  let (s, t) := s.sample
  let x := s.subPort sub
  if x.up = false then s
  else
    let s := s.setSubPort sub { x with up := false, trainAt := t, candAt := none, offerAt := none }
    let s := { s with assocs := mmapVals s.assocs (fun _ (a : Assoc) =>
      let on := a.sent.filter (fun (p : SentPkt) => match mfind a.paths p.path with | some k => decide (k.sub = sub) | none => false)
      { a.lose on with paths := mmapVals a.paths (fun _ k => if k.sub = sub then { k with live := false } else k) }) }
    let p := s.port (sub / 4)
    let s := (s.portEvent (sub / 4) 0).setPort (sub / 4) (p.release (sub % 4))
    if p.spare = some (sub % 4) then s.offerAll (s.upSubs (sub / 4)) else s

/-- LINK_UP: a sub-port completes training (R306) and its link comes up, unless the port has failed lanes that lane 8 does not
replace (R309); sparing is offered on it (R307). -/
def execLinkUp (sub : Nat) (s : State) : Outcome :=
  let p := s.port (sub / 4)
  if s.subExists sub = false ∨ (s.subPort sub).up = true ∨ p.draining = true ∨
      p.failed.any (fun l => decide (some l ≠ p.rxLane)) = true ∨ s.supply ≠ 2 ∨ s.removalPrepared = true then .next s
  else
    let s := (s.setSubPort sub { s.subPort sub with up := true }).portEvent (sub / 4) 0
    let s := s.assocs.foldl (fun t e => t.resolveAll (e.2.paths.filter (fun k => decide (k.2.sub = sub)))) s
    .next (s.offerOn sub)

/-- TRAIN_RETRY: a sub-port that has not completed training within 5 s starts it again and counts it (R306). -/
def execTrainRetry (sub : Nat) (s : State) : Outcome :=
  let x := s.subPort sub
  if s.subExists sub = false ∨ x.up = true then .next s
  else
    let s := s.until (x.trainAt + 5000000000)
    .next ((s.setSubPort sub { x with trainAt := s.now }).subCount sub 14 1)

/-! ### Lane sparing (R307 to R309) -/

/-- OFFER: a partner offers sparing; the module answers ACCEPT with the number echoed, and lane 8 transmits the test pattern started from the
offer's `SEED`, unless it serves another sub-port (R308). -/
def execOffer (sub : Nat) (payload : List Byte) (s : State) : Outcome :=
  .next (s.laneFrame sub 1 payload (fun s =>
    let p := s.port (sub / 4)
    if p.served.isSome = true ∧ p.served ≠ some (sub % 4) then s
    else (s.setPort (sub / 4) { p with pattern := some (sub % 4, beField payload 5 1), txLane := none }).sendLane sub 2 0 (beField payload 3 1) 0))

/-- ACCEPT: a partner's answer within 10 ms of the offer that it echoes makes its sub-port a candidate for lane 8. -/
def execAccept (sub : Nat) (payload : List Byte) (s : State) : Outcome :=
  .next (s.laneFrame sub 2 payload (fun s =>
    let (s, t) := s.sample
    let x := s.subPort sub
    match x.offerAt with
    | some o =>
      if beField payload 3 1 = x.offerSeq ∧ t ≤ o + 10000000 ∧ (s.port (sub / 4)).spare = none then
        s.setSubPort sub { x with candAt := some t, offerAt := none }
      else s
    | none => s))

/-- OFFER_REPEAT: while no sub-port holds lane 8 the offer is repeated every 60 s on each sub-port that is up: on those whose last offer is that
old when the first of them is. -/
def execOfferRepeat (port : Nat) (s : State) : Outcome :=
  match (s.upSubs port).map (fun k => (s.subPort k).offered + 60000000000) with
  | [] => .next s
  | t :: ts =>
    if (s.port port).spare ≠ none then .next s
    else
      let s := s.until (ts.foldl min t)
      .next (s.offerAll ((s.upSubs port).filter (fun k => decide ((s.subPort k).offered + 60000000000 ≤ s.now))))

/-- The candidate that is being checked: the lowest (R308). -/
def State.candidate (s : State) (port : Nat) : Option Nat :=
  (s.upSubs port).find? (fun k => (s.subPort k).candAt.isSome)

/-- SPARE_ASSIGN: the pattern has been received without error for 1 ms within 100 ms of the ACCEPT; checking stops at the first
sub-port that passes. -/
def execSpareAssign (port sub : Nat) (s : State) : Outcome :=
  match (s.subPort sub).candAt with
  | some t =>
    let s := s.until (t + 1000000)
    if s.candidate port ≠ some sub ∨ (s.port port).spare ≠ none ∨ t + 100000000 < s.now ∨
        ((s.port port).served.isSome = true ∧ (s.port port).served ≠ some (sub % 4)) then .next s
    else
      let s := (s.upSubs port).foldl (fun s k => s.setSubPort k { s.subPort k with candAt := none }) s
      .next (s.setPort port { s.port port with spare := some (sub % 4) })
  | none => .next s

/-- LANE8_PATTERN_TIMEOUT: 100 ms pass without 1 ms of error-free pattern: the candidate stays without sparing and the next
one is checked from now. -/
def execLane8PatternTimeout (port : Nat) (s : State) : Outcome :=
  match s.candidate port with
  | some sub =>
    match (s.subPort sub).candAt with
    | some t =>
      let s := (s.until (t + 100000000)).setSubPort sub { s.subPort sub with candAt := none }
      match s.candidate port with
      | some next => .next (s.setSubPort next { s.subPort next with candAt := some s.now })
      | none => .next s
    | none => .next s
  | none => .next s

/-- Records a spared lane in the repair map (Table 16-7; direction 0 receive, 1 transmit) with its RAS record (R408's form for fabric
lanes). -/
def State.recordLane (s : State) (port dir lane : Nat) : State :=
  let keep := fun (m : RepairMap) => m.fabLanes.filter (fun e => decide ((e.1, e.2.1) ≠ (port, dir)))
  ((s.modRepair (fun m => { m with fabLanes := keep m ++ [(port, dir, lane)] })).persist).rasRepaired
    { cls := 1, source := 0x0B, action := 3, unit := port, site := lane }

/-- LANE_FAIL: a receiver fails a lane (R309): failover to lane 8 is asked for where sparing is enabled, free and automatic; a second
failed lane of the direction, lane 8 itself among them while it stands in or is to, or a lane without sparing takes the sub-port down. -/
def execLaneFail (port lane : Nat) (s : State) : Outcome :=
  let p := s.port port
  let sub := if lane = 8 then 4 * port + p.spare.getD 0 else s.subOfLane port lane
  if 8 < lane ∨ p.count = 0 ∨ (s.subPort sub).up = false ∨ lane ∈ p.failed then .next s
  else if s.setting 12 1 = 0 then
    .next (s.rasRepaired { cls := 1, source := 0x0B, action := 0, unit := port, site := lane })
  else if lane = 8 then
    .next (if p.rxLane.isSome || p.request.isSome then (s.portEvent port 1).subDown sub
      else (s.portEvent port 1).setPort port { p with spare := none })
  else
    let s := (s.setPort port { p with failed := sinsert p.failed lane }).portEvent port 1
    if p.spare = some (sub % 4) ∧ p.rxLane = none ∧ p.request = none then
      let (s, t) := s.sample
      let (s, n) := s.pick 256
      .next ((s.setPort port { s.port port with request := some (lane, n, t, t, false) }).sendLane sub 3 lane n 0)
    else .next (s.subDown sub)

/-- SHADOW_REQ: the partner that has checked the module's pattern asks for a lane of its sub-port to be shadowed: lane 8 sends its copy, and
SHADOW_ON answers. The transmit direction is enabled by the partner's own check (R308). -/
def execShadowReq (sub : Nat) (payload : List Byte) (s : State) : Outcome :=
  .next (s.laneFrame sub 3 payload (fun s =>
    let p := s.port (sub / 4)
    let lane := beField payload 2 1
    if p.pattern.map (·.1) ≠ some (sub % 4) ∨ 8 ≤ lane ∨ s.subOfLane (sub / 4) lane ≠ sub ∨
        (p.served.isSome = true ∧ p.served ≠ some (sub % 4)) ∨ (p.txLane.isSome = true ∧ p.txLane ≠ some lane) then s
    else (s.setPort (sub / 4) { p with txLane := some lane }).sendLane sub 4 lane (beField payload 3 1) 0))

/-- SHADOW_ON: the partner's copy has started; the request is answered. -/
def execShadowOn (sub : Nat) (payload : List Byte) (s : State) : Outcome :=
  .next (s.laneFrame sub 4 payload (fun s =>
    let p := s.port (sub / 4)
    match p.request with
    | some (lane, n, a, b, _) =>
      if n = beField payload 3 1 then s.setPort (sub / 4) { p with request := some (lane, n, a, b, true) } else s
    | none => s))

/-- SWAP_DONE: the module's own receiver has taken the lane's data from lane 8 and tells its partner, or the partner tells that its
receiver has. -/
def execSwapDone (sub : Nat) (own : Bool) (payload : List Byte) (s : State) : Outcome :=
  let p := s.port (sub / 4)
  if own then
    match p.request with
    | some (lane, n, _, _, true) =>
      let s := (s.setPort (sub / 4) { p with rxLane := some lane, request := none }).portEvent (sub / 4) 2
      .next ((s.recordLane (sub / 4) 0 lane).sendLane sub 5 lane n 0)
    | _ => .next s
  else
    .next (s.laneFrame sub 5 payload (fun s =>
      match p.txLane with
      | some lane =>
        if lane = beField payload 2 1 ∧ p.pattern.map (·.1) = some (sub % 4) then (s.recordLane (sub / 4) 1 lane).portEvent (sub / 4) 2 else s
      | none => s))

/-- SHADOW_OFF: a repaired lane returns to service: the module's own receiver goes back to it and tells its partner, or the partner
has. -/
def execShadowOff (sub : Nat) (own : Bool) (payload : List Byte) (s : State) : Outcome :=
  let port := sub / 4
  let p := s.port port
  let back := fun (s : State) (dir : Nat) =>
    (s.modRepair (fun m => { m with fabLanes := m.fabLanes.filter (fun e => decide ((e.1, e.2.1) ≠ (port, dir))) })).persist
  if own then
    match p.rxLane with
    | some lane =>
      if p.spare ≠ some (sub % 4) then .next s
      else
        let s := (s.setPort port { p with rxLane := none, failed := sremove p.failed lane }).portEvent port 2
        .next ((back s 0).sendLane sub 6 lane 0 0)
    | none => .next s
  else
    .next (s.laneFrame sub 6 payload (fun s =>
      if p.txLane = some (beField payload 2 1) ∧ p.pattern.map (·.1) = some (sub % 4) then
        (back (s.setPort port { p with txLane := none }) 1).portEvent port 2
      else s))

/-- SHADOW_REQ_REPEAT: an unanswered SHADOW_REQ is sent again after 10 ms; after 100 ms the link retrains. -/
def execShadowReqRepeat (port : Nat) (s : State) : Outcome :=
  let p := s.port port
  match p.request with
  | some (lane, n, first, last, false) =>
    let s := s.until (last + 10000000)
    let sub := 4 * port + p.spare.getD 0
    if first + 100000000 ≤ s.now then .next (s.subDown sub)
    else .next ((s.setPort port { p with request := some (lane, n, first, s.now, false) }).sendLane sub 3 lane n 0)
  | _ => .next s

/-! ### Frames that are not KFT packets (R311, R312) -/

/-- FOREIGN: a frame that no sub-port accepts, or one with a bad checksum, is discarded and counted. -/
def execForeign (sub : Nat) (corrupt : Bool) (s : State) : Outcome :=
  if s.subExists sub = false then .next s else .next (s.subCount sub (if corrupt then 6 else 7) 1)

/-- ARP_ND_ICMP_FRAME: Mitor answers for a sub-port's own addresses, and keeps the neighbours that it hears of (R311). -/
def execArpNdIcmpFrame (f : NetFrame) (s : State) : Outcome :=
  let x := s.subPort f.sub
  if s.subExists f.sub = false ∨ x.up = false ∨ x.ip6 = [] then .next s
  else
    let learn := fun (s : State) => { s with
      neighbours := (f.sub, f.ip ++ f.mac) :: s.neighbours.filter (fun e => decide (e.1 ≠ f.sub) || decide (e.2.take f.ip.length ≠ f.ip)) }
    if f.kind = 3 then .next (learn s)
    else if f.kind = 4 ∨ 4 < f.kind then .next s
    else if f.target ≠ (if f.target.length = 4 then x.ip4 else x.ip6) ∨ f.target = [] then .next s
    else
      .next ((if f.kind = 2 then s else learn s).emit (.netAnswer
        { sub := f.sub, kind := if f.kind = 2 then 4 else 3, target := f.ip, ip := f.target, mac := be 6 (Config.macBase + f.sub),
          payload := f.payload }))

/-! ### Strangers (R333) -/

/-- The sum of the counters that the stranger cause watches on a port. -/
def State.strangers (s : State) (port : Nat) : Nat :=
  sum ((List.range 4).map (fun i =>
    let c := (s.subPort (4 * port + i)).ctrs
    sum ([6, 7, 8, 9, 10, 11].map (mget 0 c)) + mget 0 c 13 / 2 ^ 32))

/-- STRANGER_ATTENTION: the stranger cause of a port is raised while its counters advance, at most once a second. -/
def execStrangerAttention (port : Nat) (s : State) : Outcome :=
  let p := s.port port
  let n := s.strangers port
  if 8 ≤ port ∨ n = p.strangerSum then .next s
  else
    let s := match p.strangerAt with
      | some t => s.until (t + 1000000000)
      | none => s
    .next ((s.setPort port { p with strangerAt := some s.now, strangerSum := n }).portEvent port 3)

/-! ### Registers (Tables 12-9 to 12-12) -/

/-- `FAB_PORT_STATUS`. The spared sub-port is the one that lane 8 serves in either direction. -/
def State.fabStatus (s : State) (port : Nat) : Nat :=
  let p := s.port port
  p.cls + 4 * p.split + 16 * maskOf ((s.upSubs port).map (· % 4)) + 2 ^ 8 * b2n p.served.isSome + 2 ^ 9 * b2n p.rxLane.isSome +
    2 ^ 10 * p.rxLane.getD 0 + 2 ^ 13 * b2n p.txLane.isSome + 2 ^ 14 * p.txLane.getD 0 + 2 ^ 17 * maskOf (p.failed.filter (· < 8)) +
    2 ^ 25 * b2n p.draining + 2 ^ 26 * p.mtu + 2 ^ 40 * p.served.getD 0

/-- A counter of Table 12-11: sub-port i, counter k. -/
def State.fabCounter (s : State) (port i k : Nat) : Nat :=
  if s.subExists (4 * port + i) = true ∧ k < 16 then mget 0 (s.subPort (4 * port + i)).ctrs k else 0

/-- `FAB_ASSOC_STATUS`, and the counters behind it. -/
def State.assocReg (s : State) (a i : Nat) : Nat :=
  let x := s.assoc a
  if x.live = false then 0
  else
    match i with
    | 0 =>
      let st := match x.state with | .idle => 0 | .handshake => 1 | .up => 2 | .rekeying => 3 | .failed => 4
      st + 8 * x.part + 2 ^ 8 * x.epoch + 2 ^ 16 * (x.paths.filter (fun e => s.pathUp e.2)).length + 2 ^ 24 * min 4096 x.outMsgs.length
    | 1 => x.txPkts
    | 2 => x.retx
    | 3 => x.ce
    | _ => 0

end Sys2Proof.Machine
end

