-- ==== Sys2Proof/Machine/Kft.lean ====
section
/-! DEFINITION. Karac Fabric Transport as commands (12_fabric_and_kft.md R313 to R333): packets and messages that arrive, work entries
that are taken, packets that are sent, timers, handshakes and associations. -/

namespace Sys2Proof.Machine

open Sys2Proof

/-! ### Packets that arrive -/

/-- Runs a command on a packet that passes R312, R314 and R331 and is of its type and first operation; any other packet is for
another command. The segments are performed only while the association carries data (R331). -/
def State.kftRow (s : State) (k : KftPacket) (typ : Nat) (mop : Option Nat) (f : State → Opened → State) : State :=
  match s.openPacket k with
  | (t, some o) =>
    if o.typ = typ ∧ o.confirm = false ∧ o.segs.head?.map (·.mop) = mop then
      let t := t.acceptPacket k o
      if (t.assoc o.assoc).carries then f t o else t
    else s
  | (_, none) => s

/-- Whether a read of the packet meets a segment line in repair, with the state in which it is held there (R298). -/
def State.readHeld (s : State) (a : Nat) : List Seg → Option State
  | [] => none
  | g :: gs =>
    let x := s.assoc a
    if g.mop = 2 ∧ s.targetLive x = true ∧ x.allows g.addr g.total (·.r) = true then
      match s.remoteRead a g with
      | (t, .held _ _) => some t
      | _ => s.readHeld a gs
    else s.readHeld a gs

/-- A packet of messages whose first is the given operation. One with a read that meets a segment line in repair waits at the home, to be
performed by a later command (R298). -/
def State.msgRow (s : State) (k : KftPacket) (mop : Nat) : State :=
  let held : Option State := match s.openPacket k with
    | (t, some o) =>
      if (t.assoc o.assoc).carries && decide (o.segs.head?.map (fun (g : Seg) => g.mop) = some mop) then t.readHeld o.assoc o.segs else none
    | (_, none) => none
  match held with
  | some u => { s with segs := u.segs, now := u.now, free := u.free }
  | none => s.kftRow k 1 (some mop) (fun s o => s.performSegs k.sub o.assoc o.segs)

/-- MSG_WRITE: performed with `IO_WRITE` at the target's homes inside a window, and acknowledged once all its bytes are visible (R318,
R319). -/
def execMsgWrite (k : KftPacket) (s : State) : Outcome := s.waits (.next (s.msgRow k 1))

/-- READ_REQ: performed with `IO_READ` and answered with data (R318, R319). -/
def execReadReq (k : KftPacket) (s : State) : Outcome := s.waits (.next (s.msgRow k 2))

/-- READ_RESP: the data of a `READ` is written to its local address (R317). -/
def execReadResp (k : KftPacket) (s : State) : Outcome := s.waits (.next (s.msgRow k 3))

/-- MSG_ATOMIC: performed at the home as a crew global atomic is (R318). -/
def execMsgAtomic (k : KftPacket) (s : State) : Outcome := s.waits (.next (s.msgRow k 4))

/-- ATOMIC_RESP: the old value of an atomic is written to its local address (R317). -/
def execAtomicResp (k : KftPacket) (s : State) : Outcome := s.waits (.next (s.msgRow k 5))

/-- WRITE_ACK: the target has performed a message (R319). -/
def execWriteAck (k : KftPacket) (s : State) : Outcome := s.waits (.next (s.msgRow k 6))

/-- MSG_LDG_ARRIVE: applied in order at the master slot, if its subscriber list names the association (R280, R318, R320). -/
def execMsgLdgArrive (k : KftPacket) (s : State) : Outcome := s.waits (.next (s.msgRow k 7))

/-- LDG_RELEASE: a mirror takes the master's generation and releases its waiters (R280). -/
def execLdgRelease (k : KftPacket) (s : State) : Outcome := s.waits (.next (s.msgRow k 8))

/-- LDG_LOSS: a mirror becomes LOST (R280). -/
def execLdgLoss (k : KftPacket) (s : State) : Outcome := s.waits (.next (s.msgRow k 9))

/-- NAK: the target has refused a message; its work entry fails with the status given (R317, Table 12-7). -/
def execNak (k : KftPacket) (s : State) : Outcome := s.waits (.next (s.msgRow k 10))

/-- KFT_ACK: path acknowledgements: packets are acknowledged or found lost, and the rates follow (R322, R323, R325). -/
def execKftAck (k : KftPacket) (s : State) : Outcome :=
  .next (s.kftRow k 2 none (fun s o => s.ackEntries o.assoc 200 o.body))

/-- PROBE: answered by an `ACK` with `ACK_NOW` set (Table 12-4). -/
def execProbe (k : KftPacket) (s : State) : Outcome := .next (s.kftRow k 3 none (fun s o => s.sendAck o.assoc o.path 1))

/-- CONFIRM: the responder's association enters UP and answers at once (R329). -/
def execConfirm (k : KftPacket) (s : State) : Outcome :=
  match s.openPacket k with
  | (t, some o) => if o.confirm then .next (t.acceptPacket k o) else .next s
  | (_, none) => .next s

/-- STRANGER_PACKET: a packet that fails R312, R314 or R331 is dropped and counted under its reason; nothing else happens (R333). -/
def execStrangerPacket (k : KftPacket) (s : State) : Outcome :=
  match s.openPacket k with
  | (t, none) => .next t
  | (_, some _) => .next s

/-! ### Handshakes -/

/-- Whether this module's device key hash is lower than a peer's (R328). -/
def State.hashLower (s : State) (peer : List Byte) : Bool :=
  match Config.deviceKeyHash s.conf.chain with
  | some own => decide (ofBytes own.reverse < ofBytes peer.reverse)
  | none => false

/-- HELLO: after its checks the module answers with `REPLY` and derives the keys, unless its own `HELLO` stands (R328, R329, R333). -/
def execHello (h : Handshake) (s : State) : Outcome :=
  match s.hsArrive h.pkt with
  | (s, false) => .next s
  | (s, true) =>
    match s.hsAssoc h [] with
    | none => .next (s.hsCountUp h.pkt.sub false)
    | some (a, pub) =>
      let x := s.assoc a
      let hello := helloFields h ++ h.sig
      match s.partKey x.part with
      | none => .next s
      | some key =>
        if x.keys ≠ [] ∧ h.epoch ≠ (x.epoch + 1) % 256 then .next (s.hsCountUp h.pkt.sub false)
        else if x.state = .failed ∨ x.hello = hello ∨ h.tag = 0 then .next s
        else if x.initiator = true ∧ x.hello ≠ [] ∧ s.hashLower x.peerHash = true then .next s
        else
          let (s, eph) := s.draw32
          let (s, random) := s.draw32
          let (s, tag) := s.tagFor a
          let (s, t) := s.sample
          let fs := hsFields a h.epoch tag (Config.x25519Public eph) random s.conf.chain (s.partCertOf x.part)
          let reply := fs ++ Config.ed25519Sign key (hello ++ fs)
          let next := deriveKeys eph h.pub hello reply h.epoch h.tag t false
          let st : AssocState := if x.keys = [] then .handshake else .rekeying
          .next ((s.setAssoc a { x with
            state := st, initiator := false, hello, reply, eph := [], next := some next, ownTag := tag, began := t, peerPub := pub
            confirm := Config.sha512 (hello ++ reply) }).sendHandshake a h.epoch reply)

/-- REPLY: after its checks the initiator derives the keys and sends `CONFIRM` under them (R328, R329). -/
def execReply (h : Handshake) (s : State) : Outcome :=
  match s.hsArrive h.pkt with
  | (s, false) => .next s
  | (s, true) =>
    let x := s.assoc h.assoc
    match s.hsAssoc h x.hello with
    | none => .next (s.hsCountUp h.pkt.sub false)
    | some (a, pub) =>
      if x.initiator = false ∨ x.hello = [] ∨ x.next ≠ none ∨ h.epoch ≠ x.newEpoch ∨ h.tag = 0 then .next (s.hsCountUp h.pkt.sub false)
      else
        let (s, t) := s.sample
        let reply := helloFields h ++ h.sig
        let next := deriveKeys x.eph h.pub x.hello reply h.epoch h.tag t true
        let s := s.setAssoc a { x with reply, eph := [], next := some next, peerPub := pub }
        match s.freePaths x with
        | (i, _) :: _ => .next (s.sealSend a i 1 1 next (Config.sha512 (x.hello ++ reply)))
        | [] => .next s

/-- CLOSE: a `CLOSE` whose header and signature over the earlier messages hold ends the association with its reason (R328, R332). One that has
already ended stays as it is. -/
def execClose (p : HsPacket) (b : CloseBody) (s : State) : Outcome :=
  match s.hsArrive p with
  | (s, false) => .next s
  | (s, true) =>
    let x := s.assoc b.assoc
    if hsHeadOk p.head = true ∧ x.live = true ∧ x.state ≠ .idle ∧ x.state ≠ .failed ∧
        Config.ed25519Verify x.peerPub (x.earlier ++ closeFields b.assoc b.reason) b.sig = true then
      s.waits (.next (s.endAssoc b.assoc .idle b.reason))
    else .next (s.hsCountUp p.sub false)

/-- REKEY_START: the sending counter has reached 2^31, or the epoch is 23 hours old (R330). -/
def execRekeyStart (assoc : Nat) (s : State) : Outcome :=
  let x := s.assoc assoc
  match x.keys with
  | k :: _ =>
    if x.state ≠ .up then .next s
    else if 2 ^ 31 ≤ k.ctr then .next (s.sendHello assoc)
    else .next ((s.until (k.born + 23 * hourNs)).sendHello assoc)
  | [] => .next s

/-- REKEY_TIMEOUT: no new epoch is UP within 10 s; the association enters FAILED (R330, R332). -/
def execRekeyTimeout (assoc : Nat) (s : State) : Outcome :=
  let x := s.assoc assoc
  if x.live = true ∧ x.state = .rekeying then s.waits (.next ((s.until (x.began + 10000000000)).endAssoc assoc .failed 0x25)) else .next s

/-- OLD_EPOCH_ERASE: one second after the new epoch became UP the previous keys are erased (R330). -/
def execOldEpochErase (assoc : Nat) (s : State) : Outcome :=
  let x := s.assoc assoc
  match x.keys with
  | k :: _ :: _ => .next ((s.until x.oldUntil).setAssoc assoc { x with keys := [k] })
  | _ => .next s

/-! ### Work entries (R316, R317) -/

/-- Whether an entry's fields are in their ranges (Table 12-5). -/
def entryOk (e : List Byte) : Bool :=
  let op := field e 0 1
  let len := field e 4 4
  let lid := field e 40 2
  decide (1 ≤ op) && decide (op ≤ 4) && decide (field e 1 1 < 4) && decide (field e 3 1 = 0) && decide (field e 42 6 = 0) &&
    decide (field e 51 13 = 0) && (decide (lid ≤ 1023) || decide (lid = 0xFFFF)) &&
    (if op = 3 then decide (field e 2 1 ≤ 6) else decide (field e 2 1 = 0)) &&
    (decide (op = 3 ∧ field e 2 1 = 5) || decide (field e 32 8 = 0)) &&
    (match op with
      | 3 => decide (len = 8)
      | 4 => decide (len = 0) && decide (field e 16 8 < 256) && decide (1 ≤ field e 24 8) && decide (field e 24 8 ≤ 65535)
      | _ => decide (1 ≤ len) && decide (len ≤ 2 ^ 20))

/-- The engine wakes where the go landing has released since its last wake-up (R266, R316). -/
def State.wakeQueue (s : State) (ctx queue : Nat) : State :=
  let q := s.sendQueue (8 * ctx + queue)
  if q.awake then s
  else
    match s.landing ctx q.goLid .fromIo with
    | .slot key =>
      let d := ((s.slot key).generation + 2 ^ 32 - q.gen % 2 ^ 32) % 2 ^ 32
      if d = 0 ∨ 2 ^ 31 ≤ d then s
      else s.setSendQueue (8 * ctx + queue) { q with awake := true, gen := (s.slot key).generation }
    | _ => s

/-- Carries out a taken entry: its message is queued, or it completes at once. A `WRITE` whose source meets a segment line in repair stays to be
sent (R298). -/
def State.sendEntry (s : State) (ctx queue : Nat) (w : WorkEntry) : State :=
  let key := 8 * ctx + queue
  let q := s.sendQueue key
  let mark := fun (s : State) (held : Bool) =>
    s.setSendQueue key { q with entries := q.entries.map (fun e => if e.no = w.no then { e with held, sent := !held } else e) }
  let s := mark s false
  let e := w.bytes
  let op := field e 0 1
  let x := s.assoc q.assoc
  let remote := field e 16 8
  let m : OutMsg := { seq := 0, mop := 1, ctx, queue, entry := some w.no, no := w.no, addr := field e 8 8, len := field e 4 4 }
  if entryOk e = false then s.finishEntry ctx queue w.no 0x20
  else if x.live = false ∨ x.state = .failed ∨ x.state = .idle then s.finishEntry ctx queue w.no 0x25
  else
    match op with
    | 1 =>
      let (s, r) := s.vaRead (kftEngine ctx) (field e 8 8) (field e 4 4)
      match s.orHeld (entryReader w.no) r with
      | (s, .ok bs) => (s.dropHeld (entryReader w.no)).newMessage q.assoc m { mop := 1, seq := 0, total := field e 4 4, addr := remote, data := bs }
      | (s, .held _ _) => mark s true
      | (s, _) => s.finishEntry ctx queue w.no 0x21
    | 2 => s.newMessage q.assoc { m with mop := 2 } { mop := 2, seq := 0, total := field e 4 4, addr := remote }
    | 3 => s.newMessage q.assoc { m with mop := 4 }
        { mop := 4, seq := 0, total := 16, addr := remote, arg := field e 2 1, data := be 8 (field e 24 8) ++ be 8 (field e 32 8) }
    | _ => s.newMessage q.assoc { m with mop := 7 } { mop := 7, seq := 0, addr := remote, arg := field e 24 8 }

/-- Whether an entry has `FENCE_BEFORE` set. -/
def fenceBefore (e : List Byte) : Bool := bit (field e 1 1) 1

/-- Reads the ring at the next entry, and takes it where its `PHASE` is the expected one and its operation the command's, also behind an entry
that waits; poison, also that which ends a held read, or a translation fault stops the queue (R316, R298). -/
def State.nextEntry (s : State) (ctx queue : Nat) (q : SendQueue) (mine : List Byte → Bool) : State :=
  let key := 8 * ctx + queue
  let size := 2 ^ q.log2
  let (s, r) := s.vaRead (kftEngine ctx) (q.ring + 64 * (q.taken % size)) 64
  match s.orHeld (ringReader ctx queue) r with
  | (s, .ok e) =>
    let s := s.dropHeld (ringReader ctx queue)
    if field e 1 1 % 2 ≠ (q.taken / size + 1) % 2 then s.setSendQueue key { q with awake := false }
    else if mine e = false then s
    else
      let fenced := fenceBefore e && decide (q.entries ≠ [])
      let w : WorkEntry := { k := q.taken, no := s.nextWork, bytes := e, held := fenced }
      let s := { s.setSendQueue key { q with taken := q.taken + 1, entries := q.entries ++ [w] } with
        nextWork := s.nextWork + 1, kftOpen := s.kftOpen ++ [(ctx, w.no)] }
      if fenced then s else s.sendEntry ctx queue w
  | (s, .held _ _) => s
  | (s, _) => s.stopQueue ctx queue

/-- The first taken entry that can be sent now: one that has waited and has no `FENCE_BEFORE`, or no earlier entry that has not completed. -/
def SendQueue.due (q : SendQueue) (mine : List Byte → Bool) : Option WorkEntry :=
  q.entries.find? (fun w => w.held && mine w.bytes && (!fenceBefore w.bytes || decide (q.entries.head?.map (·.no) = some w.no)))

/-- Sends a taken entry that has waited (R317, R298), or takes the next entry of a queue, if its operation is the given one; an
entry whose operation is reserved is met by any of the four commands. An entry whose `PHASE` differs puts the engine to sleep. -/
def State.takeEntry (s : State) (ctx queue op : Nat) : State :=
  let key := 8 * ctx + queue
  let s := s.wakeQueue ctx queue
  let q := s.sendQueue key
  let mine := fun (e : List Byte) => decide (field e 0 1 = op) || decide (field e 0 1 = 0) || decide (4 < field e 0 1)
  if q.live = false ∨ q.stopped = true ∨ 4096 ≤ (s.assoc q.assoc).outMsgs.length then s
  else
    match q.due mine with
    | some w => s.sendEntry ctx queue w
    | none => if q.awake then s.nextEntry ctx queue q mine else s

/-- REMOTE_WRITE: a `WRITE` entry is taken and sent. -/
def execRemoteWrite (ctx queue : Nat) (s : State) : Outcome := s.waits (.next (s.takeEntry ctx queue 1))

/-- REMOTE_READ: a `READ` entry is taken and sent. -/
def execRemoteRead (ctx queue : Nat) (s : State) : Outcome := s.waits (.next (s.takeEntry ctx queue 2))

/-- REMOTE_ATOMIC: an `ATOMIC` entry is taken and sent. -/
def execRemoteAtomic (ctx queue : Nat) (s : State) : Outcome := s.waits (.next (s.takeEntry ctx queue 3))

/-- REMOTE_LANDING_ARRIVE: a `LANDING_ARRIVE` entry is taken and sent. -/
def execRemoteLandingArrive (ctx queue : Nat) (s : State) : Outcome := s.waits (.next (s.takeEntry ctx queue 4))

/-! ### Sending packets (R323, R324) -/

/-- Fits segments into the bytes of a body; a long `WRITE` or `READ_RESP` is divided (Table 12-6). -/
def packSegs : Nat → List Seg → List Seg × List Seg
  | _, [] => ([], [])
  | room, g :: gs =>
    if room < 32 + g.data.length then
      if (g.mop = 1 ∨ g.mop = 3) ∧ 32 < room then
        ([{ g with data := g.data.take (room - 32) }], { g with off := g.off + (room - 32), data := g.data.drop (room - 32) } :: gs)
      else ([], g :: gs)
    else
      let (a, b) := packSegs (room - 32 - g.data.length) gs
      (g :: a, b)

/-- Whether a path may send now: in service, not being moved, room in its window of rate × RTT, and a current key that may still be
used (R321, R324, R330). With no RTT measured yet one packet may be under way. -/
def State.pathReady (s : State) (x : Assoc) (path : Nat) : Bool :=
  match mfind x.paths path, x.keys with
  | some k, key :: _ =>
    let fly := sum ((x.sent.filter (fun p => decide (p.path = path))).map (·.size))
    s.pathUp k && !(s.port (k.sub / 4)).draining && !x.moving path &&
      (decide (fly = 0) || decide (((8 * fly : Nat) : Rat) < k.rate * (k.srtt : Rat))) && s.keyUsable key
  | _, _ => false

/-- The path that the weighted round-robin takes next (R324): each path that can send gains its rate, and the one with the most, the lowest of
equals, pays them all (log entry 20). -/
def spray (ready : Map KPath) : Option (Nat × Map KPath) :=
  let fed := ready.map (fun e => (e.1, { e.2 with credit := e.2.credit + e.2.rate }))
  match fed with
  | [] => none
  | e :: es =>
    let best := es.foldl (fun b e => if b.2.credit < e.2.credit then e else b) e
    let all := ready.foldl (fun t e => t + e.2.rate) (0 : Rat)
    some (best.1, mmapVals fed (fun i k => if i = best.1 then { k with credit := k.credit - all } else k))

/-- KFT_SEND: a packet leaves on the path that is next, paced at its rate: lost segments first, with `RETX`, on another path than they were
lost on where there is one; charged to the partition's bucket of the port (R323 to R326). How many of the body's bytes the engine fills, as far
as the MTU leaves them, the spec does not say, and the command gives it (log entry 20). -/
def execKftSend (assoc room : Nat) (s : State) : Outcome := s.waits <|
  let s := s.queueLandings assoc
  let x := s.assoc assoc
  let ready := x.paths.filter (fun e => s.pathReady x e.1)
  let others := match x.retxQ with
    | l :: _ => ready.filter (fun e => decide (e.1 ≠ l.path))
    | [] => []
  if x.carries = false then .next s
  else
    match spray (if others = [] then ready else others), x.keys with
    | some (path, fed), key :: _ =>
      match mfind fed path with
      | none => .next s
      | some k =>
        let room := min room ((s.port (k.sub / 4)).mtu - (if k.peer.length = 4 then 20 else 40) - 8 - 40)
        let retx := decide (x.retxQ ≠ [])
        let (segs, first, timer, x') := match x.retxQ with
          | l :: ls =>
            let (a, rest) := packSegs room l.segs
            (a, l.first, l.timer, { x with retxQ := if rest = [] then ls else { l with segs := rest } :: ls })
          | [] =>
            let (a, rest) := packSegs room x.sendQ
            (a, max s.now k.nextAt, k.timer, { x with sendQ := rest })
        if segs = [] then .next s
        else
          let body := segs.flatMap Seg.bytes
          let size := frameSize k.peer (40 + body.length)
          let s := (s.until k.nextAt).charge (32 + k.sub / 4) x.part size
          let next := s.now + (((8 * size : Nat) : Rat) / k.rate).ceil.toNat
          let paths := minsert (fed.foldl (fun (m : Map KPath) e => minsert m e.1 e.2) x.paths) path { k with nextAt := next }
          let s := (s.setAssoc assoc { x' with paths }).sealSend assoc path 1 (2 * b2n retx) key body
          let p : SentPkt := { path, psn := k.psn, at' := s.now, first, timer, size, segs }
          let y := s.assoc assoc
          let s := s.setAssoc assoc { y with sent := y.sent ++ [p], retx := (y.retx + b2n retx) % 2 ^ 64 }
          .next (s.subCount k.sub 4 (b2n retx))
    | _, _ => .next s

/-- ACK_DELAY: 5 µs after the first unacknowledged packet of a path an `ACK` is sent (R322). -/
def execAckDelay (assoc path : Nat) (s : State) : Outcome :=
  match (mget ({} : RxPath) (s.assoc assoc).rxPaths path).since with
  | some t => .next ((s.until (t + 5000)).sendAck assoc path 0)
  | none => .next s

/-- RETX_TIMER: a packet's timer expires: its segments wait to be sent again with a timer twice as long, up to 10 ms, and the path's
rate is halved (R323, R325). -/
def execRetxTimer (assoc path psn : Nat) (s : State) : Outcome :=
  let x := s.assoc assoc
  match x.sent.find? (fun p => decide (p.path = path) && decide (p.psn = psn)), mfind x.paths path with
  | some p, some k =>
    let s := s.until (p.at' + p.timer)
    let x := { x with paths := minsert x.paths path (k.slow s.now (1 / 2)), sent := x.sent.filter (fun q => decide (q ≠ p)) }
    let again := if p.segs = [] then x.retxQ else x.retxQ ++ [{ p with timer := min 10000000 (2 * p.timer) }]
    .next (s.setAssoc assoc { x with retxQ := again })
  | _, _ => .next s

/-- SEGMENT_TIMEOUT: a segment stays unacknowledged for 100 ms and fails the association (R323, R332). -/
def execSegmentTimeout (assoc path psn : Nat) (s : State) : Outcome :=
  let x := s.assoc assoc
  match (x.sent ++ x.retxQ).find? (fun p => decide (p.path = path) && decide (p.psn = psn) && decide (p.segs ≠ [])) with
  | some p => s.waits (.next ((s.until (p.first + 100000000)).endAssoc assoc .failed 0x25))
  | none => .next s

/-- PROBE_TIMER: a path sends a `PROBE` 100 ms after its last; the third that goes unanswered suspends it (R321). -/
def execProbeTimer (assoc path : Nat) (s : State) : Outcome :=
  let x := s.assoc assoc
  match mfind x.paths path, x.keys with
  | some k, key :: _ =>
    let t := s.until (k.probeAt + 100000000)
    if (s.subPort k.sub).up = false ∨ x.carries = false ∨ x.moving path = true ∨ t.keyUsable key = false then .next s
    else
      let s := t
      let x := { x with paths := minsert x.paths path { k with
        probeAt := s.now, unanswered := k.unanswered + 1, live := k.live && decide (k.unanswered < 3) } }
      let p : SentPkt := { path, psn := k.psn, at' := s.now, first := s.now, timer := k.timer, size := 0, segs := [] }
      .next ((s.setAssoc assoc { x with sent := x.sent.filter (fun q => decide (q.path ≠ path) || decide (q.segs ≠ [])) ++ [p] }).sealSend
        assoc path 3 1 key [])
  | _, _ => .next s

/-- PATH_MOVE: Mitor moves the lowest entry of an association's path table that is to change, or takes it out; the packets that were under way on a
path taken out are sent again on others (R257, R310, R321). -/
def execPathMove (assoc path : Nat) (s : State) : Outcome :=
  let x := s.assoc assoc
  match x.pathMove with
  | (i, k) :: rest =>
    if i ≠ path then .next s
    else
      match k with
      | some k =>
        let k := match mfind x.paths i with | some old => { k with psn := old.psn } | none => k
        .next ((s.setAssoc assoc { x with paths := minsert x.paths i k, pathMove := rest }).resolve k)
      | none =>
        let y := x.lose (x.sent.filter (fun p => decide (p.path = i)))
        .next (s.setAssoc assoc { y with paths := merase x.paths i, pathMove := rest })
  | [] => .next s

end Sys2Proof.Machine
end

