-- ==== Sys2Proof/Machine/Landings.lean ====
section
/-! DEFINITION. The commands of landings (10_landings.md): a slot's return to its pool, a waiter's timer, the moving of a landing,
the forwarding of a mirror's arrival, a host core's arrival, and the registers of a context's map. Slots are keyed 48 × core +
slot, 10000 + device slot, 20000 + fabric slot. -/

namespace Sys2Proof.Machine

open Sys2Proof

/-- Whether a loss message of a slot is still to be acknowledged by a remote module (R277). -/
def State.lossOwed (s : State) (x : Slot) : Bool :=
  s.ldgMsgs.any (fun m => decide (m.kind = 2) && decide ((m.assoc, m.slot) ∈ x.subs))

/-- SLOT_RETURN: a slot in RELEASING returns to FREE once every waiter has observed its release (R277). -/
def execSlotReturn (slot : Nat) (s : State) : Outcome :=
  let x := s.slot slot
  if x.state = .releasing ∧ x.unseen.all s.observed = true ∧ s.lossOwed x = false then .next (s.setSlot slot {}) else .next s

/-- TIMEOUT: the timer of the n-th waiter of a slot expires, and that waiter alone is released with TIMEOUT (R279). -/
def execTimeout (slot n : Nat) (s : State) : Outcome :=
  let x := s.slot slot
  match x.waiters[n]? with
  | some w =>
    if x.timeoutUs = 0 then .next s
    else
      let s := (s.until (w.since + 1000 * x.timeoutUs)).setSlot slot { x with waiters := x.waiters.eraseIdx n }
      .next ((s.notify w.party 3 x.generation).traceRelease slot x.generation 3)
  | none => .next s

/-- The map entry of a slot key, keeping the owner. -/
def LEntry.toKey (e : LEntry) (key : Nat) : LEntry :=
  if key < 10000 then { e with kind := 1, core := key / 48, slot := key % 48 }
  else if key < 20000 then { e with kind := 2, core := 0, slot := key - 10000 }
  else { e with slot := key - 20000 }

/-- A substituted core whose last landing has moved to the new site takes up work again (R409 step 5). -/
def State.resumeCore (s : State) (c : Nat) : State :=
  if s.moves.any (fun m => decide (m.src / 48 = c) && decide (m.src = m.dst)) ∨ s.drains.any (fun d => decide (d.obj = .core c)) = true then s
  else { s with coresOut := sremove s.coresOut c }

/-- LANDING_MOVE: the first landing that Mitor is moving goes to its new slot with all its state, waiters and arm parameters, and
every map entry that names the old slot names the new one (R276). A landing of a substituted core keeps the number of its slot, which the new
site now holds. -/
def execLandingMove (s : State) : Outcome :=
  match s.moves with
  | [] => .next s
  | m :: rest =>
    let s := { s with moves := rest }
    if m.src = m.dst then .next (s.resumeCore (m.src / 48))
    else
      let s := (s.setSlot m.dst (s.slot m.src)).setSlot m.src {}
      .next { s with
        mirrorQ := s.mirrorQ.map (fun a => if a.slot = m.src then { a with slot := m.dst } else a)
        ctxs := mmapVals s.ctxs (fun _ c => { c with lmap := mmapVals c.lmap (fun _ e =>
          if decide (e.kind ≠ 0) && decide (e.kind ≠ 5) && decide (e.key = m.src) then e.toKey m.dst else e) }) }

/-- MIRROR_FORWARD: the first arrival at a mirror that waits is forwarded to the master, once the KFT work issued before it is
acknowledged (R280). -/
def execMirrorForward (slot : Nat) (s : State) : Outcome :=
  match s.mirrorQ.find? (fun a => decide (a.slot = slot)), (s.slot slot).mirror with
  | some a, some (assoc, master) =>
    if a.after.any (fun n => s.kftOpen.any (fun e => decide (e.2 = n))) then .next s
    else
      let i := s.mirrorQ.findIdx (fun a => decide (a.slot = slot))
      .next { s with mirrorQ := s.mirrorQ.eraseIdx i, ldgMsgs := s.ldgMsgs ++ [⟨0, assoc, master, a.count, 0, false⟩] }
  | _, _ => .next s

/-! ### Registers (Tables 10-7, 10-8) -/

/-- `LDG_MAP` entry i of a context. -/
def State.ldgMapReg (s : State) (ctx i : Nat) : Nat :=
  let c := s.ctx ctx
  let e := mget {} c.lmap i
  let who := match e.kind with | 1 => s.pcore c.part e.core | 4 => e.assoc | _ => 0
  let moving := match s.moves with
    | m :: _ => decide (e.kind ≠ 0) && decide (e.kind ≠ 5) && decide (e.key = m.src)
    | [] => false
  e.kind + 2 ^ 8 * who + 2 ^ 16 * e.slot + 2 ^ 32 * e.owner + 2 ^ 38 * b2n moving + 2 ^ 40 * (if e.kind = 4 then e.remote else 0)

/-- `LDG_STATE` entry i of a context. -/
def State.ldgStateReg (s : State) (ctx i : Nat) : Nat :=
  let e := mget {} (s.ctx ctx).lmap i
  if e.kind = 0 then 0
  else if e.kind = 5 then 2 ^ 59
  else
    let x := s.slot e.key
    let left := if x.kind = 1 ∨ x.mirror.isSome = true then 0 else x.remain
    x.generation + 2 ^ 32 * left + 2 ^ 56 * x.kind + 2 ^ 58 * b2n (decide (x.state = .armed)) +
      2 ^ 60 * b2n (decide ((s.ctx x.owner).state = .preempted)) + 2 ^ 61 * b2n x.drift + 2 ^ 62 * b2n x.stray +
      2 ^ 63 * b2n x.saturated

/-! ### The landing access page (R281) -/

/-- Whether a host core runs. -/
def State.hostRuns (s : State) (h : Nat) : Bool := decide ((mget {} s.hostCores h).run = 1)

/-- Changes a host core. -/
def State.modHostCore (s : State) (h : Nat) (f : HostCore → HostCore) : State :=
  { s with hostCores := mset {} s.hostCores h (f (mget {} s.hostCores h)) }

/-- Whether Mitor has mapped a context's landing access page into a partition's stage-2 translation: it maps the pages of the partition's
contexts, and no others (R281). -/
def State.pageMapped (s : State) (q ctx : Nat) : Bool := decide (ctx < 64) && decide ((s.ctx ctx).state ≠ .free) && decide ((s.ctx ctx).part = q)

/-- What a host core's aligned 8-byte load of a landing access page gives: LDG_STATE from 0x2000 on, and zero elsewhere (R281). -/
def State.pageRead (s : State) (ctx off : Nat) : Nat := if 0x2000 ≤ off ∧ off < 0x4000 then s.ldgStateReg ctx ((off - 0x2000) / 8) else 0

/-- A host core's arrival at a landing (Table 10-9): a count of 0 is discarded; an ID that is unmapped or unreachable faults the context
with the ID as detail (R271). -/
def State.hostArrive (s : State) (ctx lid n : Nat) : State :=
  if n = 0 then s
  else
    match s.landing ctx lid .fromIo with
    | .slot k => s.arrive k ctx n
    | .lost => s
    | .unmapped =>
      if (s.ctx ctx).state = .active ∨ (s.ctx ctx).state = .preempted then
        (s.modCtx ctx (fun c => { c with faultRec := some (0x13, lid) })).faultCtx ctx 0x13 0
      else s

/-- LDG_ARRIVE: a running host core stores to, or loads from, the landing access page of a context at an offset (R281, Table 10-9). A page
that is not mapped for its partition is out of its reach; an access that is not an aligned 8-byte access raises an access fault in the
host core; offsets other than LDG_ARRIVE ignore a store. -/
def execLdgArrive (h ctx : Nat) (a : PageAccess) (s : State) : Outcome := s.waits <|
  let { off, size, store, data } := a
  if s.hostRuns h = false ∨ (match s.partOfGallery (h / 2) with | some q => s.pageMapped q ctx | none => false) = false then .next s
  else if size ≠ 8 ∨ off % 8 ≠ 0 then .next (s.modHostCore h (fun k => { k with pageFault := true }))
  else
    let t := s.modHostCore h (fun k => { k with pageFault := false })
    if store then .next (if off = 0 then t.hostArrive ctx (bits data 0 10) (bits data 16 16) else t)
    else .next (t.modHostCore h (fun k => { k with pageData := t.pageRead ctx off }))

end Sys2Proof.Machine
end

