-- ==== Sys2Proof/Machine/Preempt.lean ====
section
/-! DEFINITION. Pre-emption (11_partitions_and_isolation.md R287 to R289), invalidation of translations (R294, R295), and the
restoring of shared-segment lines (R298, R299). -/

namespace Sys2Proof.Machine

open Sys2Proof

/-! ### Pre-emption -/

/-- Whether a crew of a context has faulted while its launch still runs: the launch will fault the context (R95, R289). -/
def State.faultComes (s : State) (ctx : Nat) : Bool := s.launches.any (fun e => decide (e.2.ctx = ctx) && e.2.fault.isSome)

/-- Whether a context's dispatched cox launches and its feeder DMA chains have all completed (R287 step 2), and no fault of one of its crews
comes first (R289). -/
def State.preemptReady (s : State) (ctx : Nat) : Bool :=
  !s.faultComes ctx && !s.coxLaunches.any (fun e => decide (e.2.ctx = ctx) && e.2.dispatched) &&
    !s.cores.any (fun e => (e.2.engine.queue ++ e.2.engine.waiting).any (fun c => decide (c.ctx = ctx)))

/-- A crew with every outstanding result in its registers, an older one before a younger. -/
def Crew.settled (c : Crew) : Crew :=
  { (sortBy (·.seq) c.outs).foldl (fun c r => c.commitAll r.writes) c with outs := [] }

/-- Bytes of a core's part of a save area (R287). -/
def saveBytes : Nat := 0x190000

/-- Writes pieces into a core's part of a save area, until one fails. -/
def State.savePieces (s : State) (ctx base : Nat) : List (Nat × List Byte) → State × Access
  | [] => (s, .ok [])
  | (off, bs) :: rest =>
    let off := off % saveBytes
    let (s, a) := s.vaWrite (sequencer ctx) (base + off) (bs.take (saveBytes - off))
    match s.orHeld (.sequencer ctx) a with
    | (s, .ok _) => s.savePieces ctx base rest
    | r => r

/-- Writes what the module keeps of a crew, its scratch allocation with it, into its core's part of the save area: the layout is private, so
which bytes are written, and with what, is free (log entry 5). -/
def State.saveCrew (s : State) (ctx area core : Nat) : State × Access :=
  { s with free := s.free + 1 }.savePieces ctx (area + saveBytes * s.pcore (s.ctx ctx).part core) (Config.saveArea s.free)

/-- How the saving of crews ended. -/
inductive Saving where
  | saved
  | failed (status addr : Nat)
  | held (seg line : Nat)
  deriving DecidableEq, Repr

/-- Saves the listed crews; the first write that fails ends it. -/
def State.saveCrews (s : State) (ctx area : Nat) : List (Nat × Nat × Crew) → State × Saving
  | [] => (s, .saved)
  | (core, key, c) :: rest =>
    match s.saveCrew ctx area core with
    | (s, .trans a) => (s, .failed 0x11 a)
    | (s, .poison a) => (s, .failed 0x12 a)
    | (s, .held g line) => (s, .held g line)
    | (s, .ok _) =>
      let (cells, poison) := (s.core core).scratchPart c.scratchBase c.scratchSize
      let s := s.freeCrew core key
      let t := (s.core core).clock
      let idle := if c.state = .halted then t - c.idleFrom else 0
      let sc : SavedCrew := {
        core, crew := { c.settled with idleFrom := t, excluded := c.excluded + idle, retry := false }, cells, poison }
      { s with saved := s.saved ++ [sc] }.saveCrews ctx area rest

/-- The resident crews of a context, with their places. -/
def State.crewsOf (s : State) (ctx : Nat) : List (Nat × Nat × Crew) :=
  s.cores.flatMap (fun e => (e.2.crews.filter (fun c => decide (c.2.ctx = ctx))).map (fun c => (e.1, c.1, c.2)))

/-- Discards every crew of a context, resident, saved or to be placed, and takes their waits back. -/
def State.discardCrews (s : State) (ctx : Nat) : State :=
  let mine := fun (n : Nat) => match s.launch n with | some l => decide (l.ctx = ctx) | none => false
  let keep := fun (i : QueueItem) => match i with
    | .fresh n _ => !mine n
    | .saved c => decide (c.crew.ctx ≠ ctx)
  let s := { s with
    cores := mmapVals s.cores (fun _ k => { k with
      crews := k.crews.filter (fun c => decide (c.2.ctx ≠ ctx)), queue := k.queue.filter keep })
    saved := s.saved.filter (fun c => decide (c.crew.ctx ≠ ctx))
    aside := s.aside.filter (fun a => keep a.2) }
  { s with slots := mmapVals s.slots (fun _ x => { x with waiters := x.waiters.filter (fun w =>
      match w.party with | .crew m => !s.observed (.crew m) | _ => true) }) }

/-- The crews of a context's launches that are not placed yet are set aside while it is pre-empted. -/
def State.setAside (s : State) (ctx : Nat) : State :=
  let mine := fun (i : QueueItem) => match i with
    | .fresh n _ => (match s.launch n with | some l => decide (l.ctx = ctx) | none => false)
    | .saved _ => false
  { s with
    aside := s.aside ++ s.cores.flatMap (fun e => (e.2.queue.filter mine).map (fun i => (e.1, i)))
    cores := mmapVals s.cores (fun _ k => { k with queue := k.queue.filter (fun i => !mine i) }) }

/-- PREEMPT_SAVE: once the cox launches and chains of the context have completed, its crews are stopped, saved and freed, and
the context becomes PREEMPTED (R287 steps 3 and 4). A save-area write that fails faults the context, and the crews are lost
(R289). -/
def execPreemptSave (ctx : Nat) (s : State) : Outcome := s.waits <|
  match (s.ctx ctx).preempt with
  | none => .next s
  | some (area, _, path) =>
    if s.preemptReady ctx = false then .next s
    else
      match s.saveCrews ctx area (s.crewsOf ctx) with
      | (_, .held g line) => .next (s.holdRead (.sequencer ctx) g line)
      | (s, .saved) =>
        let s := (s.setAside ctx).modCtx ctx (fun c => { c with state := .preempted, preempt := none })
        .next ((s.writeCredit ctx).reply path 0 0 [])
      | (s, .failed st a) =>
        let ls := (s.launches.filter (fun e => decide (e.2.ctx = ctx))).map (fun e => (e.1, e.2.pid))
        let s := s.discardCrews ctx
        let s := { s with launches := s.launches.filter (fun e => decide (e.2.ctx ≠ ctx)) }
        let tag := match ls with
          | (_, pid) :: _ => (match s.pkt ctx pid with | some p => p.tag | none => 0)
          | [] => 0
        let s := ls.foldl (fun s l => s.packetDone ctx l.2 st a) s
        .next (s.faultCtx ctx st tag)

/-- PREEMPT_TIMEOUT: the timeout expires first; dispatch resumes and the request is answered `BUSY` (R287 step 2). A crew's fault on its way
answers the request instead (R289). -/
def execPreemptTimeout (ctx : Nat) (s : State) : Outcome :=
  match (s.ctx ctx).preempt with
  | some (_, due, path) =>
    if s.preemptReady ctx || s.faultComes ctx then .next s
    else .next (((s.until due).modCtx ctx (fun c => { c with preempt := none, hold := false })).reply path 2 0 [])
  | none => .next s

/-- Whether a placement item belongs to a launch dispatched later than launch n. -/
def laterThan (n : Nat) : QueueItem → Bool
  | .fresh m _ => decide (n < m)
  | .saved c => decide (n < c.crew.launch)

/-- Puts an item into a placement queue ahead of every crew of a later-dispatched launch (R288). -/
def insertItem (q : List QueueItem) (n : Nat) (i : QueueItem) : List QueueItem :=
  q.takeWhile (fun x => !laterThan n x) ++ i :: q.dropWhile (fun x => !laterThan n x)

/-- The launch of a placement item. -/
def itemLaunch : QueueItem → Nat
  | .fresh n _ => n
  | .saved c => c.crew.launch

/-- Puts back what a pre-emption saved and set aside (R288): the saved crews of a launch come before those never placed. -/
def State.resumeCtx (s : State) (ctx : Nat) : State :=
  let crews := (s.saved.filter (fun c => decide (c.crew.ctx = ctx))).map (fun c => (c.core, QueueItem.saved c))
  let mine := fun (a : Nat × QueueItem) => match a.2 with
    | .fresh n _ => (match s.launch n with | some l => decide (l.ctx = ctx) | none => true)
    | .saved _ => false
  let items := crews ++ s.aside.filter mine
  let s := { s with
    saved := s.saved.filter (fun c => decide (c.crew.ctx ≠ ctx))
    aside := s.aside.filter (fun a => !mine a) }
  items.foldl (fun s a => s.modCore a.1 (fun k => { k with queue := insertItem k.queue (itemLaunch a.2) a.2 })) s

/-! ### Translation invalidations -/

/-- A write of `XLT_INV` (Table 11-3): a reserved kind, or a ninth invalidation in flight, is discarded and sets REJECT. -/
def State.xltWrite (s : State) (ctx data : Nat) : State :=
  let c := s.ctx ctx
  let kind := bits data 0 2
  if 2 ≤ kind ∨ (c.xltIssued + 65536 - c.xltDone) % 65536 = 8 then s.setCtx ctx { c with xltReject := true }
  else s.setCtx ctx { c with
    xltIssued := (c.xltIssued + 1) % 65536, xltQueue := c.xltQueue ++ [(kind, bits data 12 36 * 4096)] }

/-- `XLT_INV_STATUS` (Table 11-4). -/
def xltStatus (c : Ctx) : Nat := c.xltIssued + 65536 * c.xltDone + 2 ^ 32 * b2n c.xltReject

/-- INVALIDATION_DONE: the oldest invalidation of a context completes: no translation cache holds an entry it covers (R295). -/
def execInvalidationDone (ctx : Nat) (s : State) : Outcome :=
  let c := s.ctx ctx
  match c.xltQueue with
  | [] => .next s
  | (kind, va) :: rest =>
    let s := { s with tlb := s.tlb.filter (fun e =>
      decide (e.ctx ≠ ctx) || (decide (kind = 1) && !(decide (e.va ≤ va) && decide (va < e.va + e.size)))) }
    .next (s.setCtx ctx { c with xltDone := (c.xltDone + 1) % 65536, xltQueue := rest })

/-! ### Shared segments -/

/-- Fetches a segment line from host memory over PF0 and writes it, or loses the line (R299). -/
def State.segFromHost (s : State) (seg line addr : Nat) : State :=
  match s.hostRead 0 0 addr 128 with
  | (s, .data bs) => (s.segWrite (s.seg seg).layout line bs).segLineDone seg line .good 2
  | (s, _) => s.segLineDone seg line .lost 3

/-- SEGMENT_RESTORE: a line whose error has been detected is marked IN_REPAIR (R299 step 2); one in repair is restored from the golden source,
or becomes LOST (R299 step 3). -/
def execSegmentRestore (seg line : Nat) (s : State) : Outcome := s.waits <|
  let g := s.seg seg
  if g.live && (mfind g.found line).isSome then .next (s.segMark seg line)
  else if g.live = false ∨ mget .good g.lines line ≠ .inRepair then .next s
  else
    match g.golden with
    | .copy _ l =>
      let (pc, at') := placeLine l line
      let key := hbmKey pc at' 0
      if s.hbmPoisoned key 128 then .next (s.segLineDone seg line .lost 3)
      else .next ((s.segWrite g.layout line (s.hbmRead key 128)).segLineDone seg line .good 2)
    | .host addr => .next (s.segFromHost seg line (addr + 128 * line))

/-- SEGMENT_HOLD_EXPIRY: the n-th held read of a segment has waited for the hold time and is answered with poison (R298). -/
def execSegmentHoldExpiry (seg n : Nat) (s : State) : Outcome :=
  let g := s.seg seg
  match g.held[n]? with
  | some h =>
    .next ((s.until (h.since + 1000 * g.holdUs)).setSeg seg { g with held := modifyAt g.held n (fun h => { h with expired := true }) })
  | none => .next s

end Sys2Proof.Machine
end

