-- ==== Sys2Proof/Machine/Streams.lean ====
section
/-! DEFINITION. The commands of the ingress window and of the command stream (02_command_streams.md): granules, decode,
packets without an engine of their own, completion and retirement. -/

namespace Sys2Proof.Machine

open Sys2Proof

/-- Whether the bytes of a request are a `CTX_RESET` of a context. -/
def requestResets (ctx : Nat) (bs : List Byte) : Bool :=
  decide (field bs 4 2 = 0x0103) &&
    (match parseFields 1000 (bs.drop (if bit (field bs 1 1) 0 then 56 else 8)) with
     | some fs => fs.any (fun f => decide (f.1 = 1) && decide (ofBytes f.2 = ctx))
     | none => false)

/-- Whether a message holds a `CTX_RESET` of a context, in a batch too. -/
def messageResets (ctx : Nat) (bs : List Byte) : Bool :=
  if field bs 0 1 = 3 then (match splitBatch (field bs 4 2) (bs.drop 8) with | some subs => subs.any (requestResets ctx) | none => false)
  else requestResets ctx bs

/-- Whether a role and partition may ask for the reset of a context (Table 14-5, R358). -/
def State.mayReset (s : State) (role : Nat) (part : Option Nat) (ctx : Nat) : Bool :=
  decide (role = 2) || (decide (role = 1) && decide (part = some (s.ctx ctx).part))

/-- Whether a reset of a context has been requested and not answered (R38): by a message that is posted, or that Mitor has taken. -/
def State.resetAsked (s : State) (ctx : Nat) : Bool :=
  (List.range 10).any (fun p =>
    let m := s.mbox p
    m.post && s.mayReset (if p = 9 then 2 else 1) (if p = 9 then none else s.partOf p) ctx &&
      messageResets ctx (areaBytes m.area (min m.len 3840))) ||
    s.taken.any (fun e => s.mayReset e.2.role e.2.part ctx &&
      ((match e.2.cur with | some u => decide (u.code = 0x0103) && decide (u.num 1 = ctx) | none => false) || e.2.rest.any (requestResets ctx)))

/-- A whole granule arrives at a window offset (R41, R43); between the request for a reset and its answer it is discarded and not counted
(R38). -/
def State.granule (s : State) (ctx off : Nat) (bytes : List Byte) : State :=
  let c := s.ctx ctx
  if s.resetAsked ctx then s else
  match c.state with
  | .free => s
  | .faulted => s.setCtx ctx { c with discarded := c.discarded + 64 }
  | .draining => s.setCtx ctx { c with discarded := c.discarded + 64 }
  | _ =>
    if off ≠ c.expected then
      (s.setCtx ctx { c with discarded := c.discarded + 64 }).logIngress ctx { reason := 0x0A, offset := off }
    else if c.accepted + 64 - c.consumed ≤ 262144 then
      s.setCtx ctx { c with
        fifo := writeBytes c.fifo (c.accepted % 262144) bytes
        fifoErr := c.fifoErr.filter (fun i => decide (i / 64 ≠ c.accepted % 262144 / 64))
        accepted := c.accepted + 64
        expected := (c.expected + 64) % 65536 }
    else
      (s.setCtx ctx { c with discarded := c.discarded + 64, faultRec := some (0x14, c.accepted) }).faultCtx ctx 0x14 0

/-- A granule that a write covers only in part (R41): n of its bytes are discarded. -/
def State.partialGranule (s : State) (ctx off n : Nat) : State :=
  let c := s.ctx ctx
  if s.resetAsked ctx then s else
  match c.state with
  | .free => s
  | .faulted => s.setCtx ctx { c with discarded := c.discarded + n }
  | .draining => s.setCtx ctx { c with discarded := c.discarded + n }
  | _ => (s.setCtx ctx { c with discarded := c.discarded + n }).logIngress ctx { reason := 0x0B, offset := off }

/-- The granules of one write, in rising order (R40). The fuel bounds their number. -/
def State.granules (s : State) (ctx : Nat) : Nat → Nat → List Byte → State
  | 0, _, _ => s
  | f + 1, off, bytes =>
    if bytes = [] then s else
    let n := min bytes.length (64 - off % 64)
    let piece := bytes.take n
    let s := if n = 64 then s.granule ctx off piece else s.partialGranule ctx (off / 64 * 64) n
    s.granules ctx f (off + n) (bytes.drop n)

/-- INGRESS_GRANULE: a write of a function to the ingress window of a context (R39 to R43). A context that belongs to
another function does not take it; a FREE context discards it without report, as does a VF without a partition (R337). -/
def execIngressGranule (fn ctx off : Nat) (bytes : List Byte) (s : State) : Outcome :=
  let c := s.ctx ctx
  if s.served = false ∨ (fn ≠ 0 ∧ (s.part (fn - 1)).live = false) then .next s
  else if c.state ≠ .free ∧ c.fn ≠ fn then .next (s.hostError fn 1 true 0 (0x2000000 + ctx * 0x10000 + off))
  else if s.removalPrepared then .next s
  else .next (s.granules ctx (bytes.length / 64 + 2) off bytes)

/-- Reads the next packet of a chain (R57): its header granule, and the rest of it where its length is legal and ends within the chain. The
answer holds the first three granules. -/
def State.chainPacket (s : State) (w : Requester) (l : Level) : State × Access :=
  match s.spaceRead w l.space (l.base + l.pos) 64 with
  | (s, .ok d) =>
    let n := 64 * field d 1 1
    if n ≤ 64 ∨ 4096 < n ∨ l.size - l.pos < n then (s, .ok d)
    else
      match s.spaceRead w l.space (l.base + l.pos + 64) (n - 64) with
      | (s, .ok e) => (s, .ok (d ++ e.take 128))
      | r => r
  | r => r

/-- Decodes the next packet of one context (R54, R57, R58, R62). A fault of a chain read behind an unresolved `IF_FLAG` is
discarded without report. A chain read in space 1 that fails under R336 is a chain fault (log entry 42). -/
def State.decodeOne (s : State) (n : Nat) : State :=
  let c := s.ctx n
  let cores := (s.coresOf c.part).length
  match c.levels with
  | [] => s
  | [l] =>
    let d := c.fifoBytes l.pos 192
    let len := 64 * max 1 (min 64 (field d 1 1))
    if c.fifoErr.any (fun i => decide ((i + 262144 - l.pos % 262144) % 262144 < len)) then
      let s := s.ras { cls := 3, source := 0x0E, part := some c.part, unit := n }
      (s.modCtx n (fun c => { c with faultRec := some (0x12, 2 ^ 63 + 0x0E * 2 ^ 56) })).faultCtx n 0x12 0
    else s.setCtx n (c.takePacket d cores)
  | l :: _ =>
    let w := { sequencer n with fill := !c.speculative }
    match s.chainPacket w l with
    | (s, .ok d) => s.modCtx n (fun c => c.takePacket d cores)
    | (s, .poison a) =>
      if c.speculative then s else s.modPkt n l.owner (fun p => { p with chainFault := some (0x12, a) })
    | (s, .trans _) =>
      if c.speculative then s
      else s.modPkt n l.owner (fun p => { p with chainFault := some (0x15, field p.data 16 8) })
    | (s, .held _ _) => s

/-- PACKET_DECODE: the next context in turn that can decode does so (R54). -/
def execPacketDecode (s : State) : Outcome := s.waits <|
  let order := (List.range 64).map (fun i => (s.turn + i) % 64)
  match order.find? (fun n => (s.ctx n).decodable && s.decodeRoom n) with
  | some n => .next { s.decodeOne n with turn := (n + 1) % 64 }
  | none => .next s

/-- PACKET_SKIP: a skipped packet at the dispatch point completes there and is logged; in a range that does not run only
BAD_LENGTH and CHAIN_OVERRUN are logged (R58, R64, R65), so a second `ELSE` there is not (log entry 41). -/
def execPacketSkip (ctx : Nat) (s : State) : Outcome :=
  match (s.ctx ctx).dispatchPoint with
  | some p =>
    if p.skip = 0 then .next s
    else
      let s := s.dispatch ctx p.pid .completed
      if p.dead && decide (p.skip ≠ 2) && decide (p.skip ≠ 9) then .next s
      else .next (s.logIngress ctx ⟨p.tag, p.skip, p.opcode, p.depth, p.offset⟩)
  | none => .next s

/-- NOP completes at dispatch (R49, R54). -/
def execNop (ctx : Nat) (s : State) : Outcome :=
  .next (s.atDispatch ctx 0x00 (fun s p => s.dispatch ctx p.pid .completed))

/-- SET_IDS replaces the current pair (R47). -/
def execSetIds (ctx : Nat) (s : State) : Outcome :=
  .next (s.atDispatch ctx 0x01 (fun s p =>
    (s.dispatch ctx p.pid .completed).modCtx ctx (fun c =>
      { c with curLayer := field p.data 16 2, curOper := field p.data 18 2 })))

/-- Writes the timestamp of a `TIMESTAMP` packet; a translation fault completes it with TRANSLATION_FAULT. -/
def State.writeTimestamp (s : State) (ctx : Nat) (p : Pkt) : State :=
  let (s, t) := s.sample
  let addr := field p.data 16 8
  if field p.data 24 1 = 0 then
    match s.vaWrite (sequencer ctx) addr (toBytes 8 t) with
    | (s, .ok _) => s.packetDone ctx p.pid 0 0
    | (s, .poison a) => s.packetDone ctx p.pid 0x12 a
    | (s, _) => s.packetDone ctx p.pid 0x11 addr
  else (s.hostWrite (s.ctx ctx).fn ctx addr (toBytes 8 t)).packetDone ctx p.pid 0 0

/-- TIMESTAMP: at dispatch, or once every earlier packet has retired (R55, Table 2-6). -/
def execTimestamp (ctx : Nat) (s : State) : Outcome := s.waits <|
  match (s.ctx ctx).dueNow 0x02 with
  | some p => .next (s.writeTimestamp ctx p)
  | none =>
    .next (s.atDispatch ctx 0x02 (fun s p =>
      let s := s.dispatch ctx p.pid .dispatched
      if field p.data 25 1 = 0 ∨ (s.ctx ctx).earlierRetired p.pid = true then s.writeTimestamp ctx p else s))

/-- Writes the record of a `REPORT` and, where it asks for one, sets the completion cause behind it (R66, R67, R347). -/
def State.report (s : State) (ctx pid : Nat) : State :=
  match s.pkt ctx pid with
  | some p =>
    let irq := decide (field p.data 24 1 = 1)
    let s := s.writeRecord ctx p.tag p.layer p.oper (field p.data 16 8) 0 irq
    let s := if irq then s.raise (s.ctx ctx).fn (.completion ctx) else s
    s.packetDone ctx pid 0 0
  | none => s

/-- REPORT acts once every earlier packet has retired (R55). -/
def execReport (ctx : Nat) (s : State) : Outcome := s.waits <|
  match (s.ctx ctx).dueNow 0x03 with
  | some p => .next (s.report ctx p.pid)
  | none =>
    .next (s.atDispatch ctx 0x03 (fun s p =>
      let s := s.dispatch ctx p.pid .dispatched
      if (s.ctx ctx).earlierRetired p.pid then s.report ctx p.pid else s))

/-- A `FENCE` is done once its scope's writes are complete: partition and host writes are performed when issued, the work entries that the
context's queues had taken before its dispatch once they have completed (R55, R319). -/
def State.fenceDone (s : State) (ctx pid : Nat) : State :=
  match s.pkt ctx pid with
  | some p =>
    if bit (field p.data 16 1) 2 && p.after.any (fun n => decide ((ctx, n) ∈ s.kftOpen)) then s else s.packetDone ctx pid 0 0
  | none => s

/-- The work entries of a context that have been taken and have not completed. -/
def State.openEntries (s : State) (ctx : Nat) : List Nat := (s.kftOpen.filter (fun e => decide (e.1 = ctx))).map (·.2)

/-- FENCE is dispatched after every earlier packet has retired (R55). -/
def execFence (ctx : Nat) (s : State) : Outcome :=
  match (s.ctx ctx).dueNow 0x04 with
  | some p => .next (s.fenceDone ctx p.pid)
  | none =>
    .next (s.atDispatch ctx 0x04 (fun s p =>
      if (s.ctx ctx).earlierRetired p.pid then
        ((s.dispatch ctx p.pid .dispatched).modPkt ctx p.pid (fun x => { x with after := s.openEntries ctx })).fenceDone ctx p.pid
      else s))

/-- The arrival of a `LANDING_ARRIVE` packet (R53, R271, R277). -/
def State.packetArrive (s : State) (ctx : Nat) (p : Pkt) : State :=
  let lid := field p.data 16 2
  match s.landing ctx lid .fromIo with
  | .unmapped => s.packetDone ctx p.pid 0x13 lid
  | .lost => s.packetDone ctx p.pid 0 0
  | .slot k => (s.arrive k ctx (field p.data 18 2)).packetDone ctx p.pid 0 0

/-- LANDING_ARRIVE: at dispatch, or once every earlier packet has retired (R53). -/
def execLandingArrive (ctx : Nat) (s : State) : Outcome := s.waits <|
  match (s.ctx ctx).dueNow 0x08 with
  | some p => .next (s.packetArrive ctx p)
  | none =>
    .next (s.atDispatch ctx 0x08 (fun s p =>
      let s := s.dispatch ctx p.pid .dispatched
      if field p.data 20 1 = 0 ∨ (s.ctx ctx).earlierRetired p.pid = true then s.packetArrive ctx p else s))

/-- LANDING_WAIT registers its wait when it reaches the dispatch point and holds dispatch until it is released (R53). -/
def execLandingWait (ctx : Nat) (s : State) : Outcome := s.waits <|
  .next (s.atDispatch ctx 0x09 (fun s p =>
    if p.stage = .waiting then s
    else
      let lid := field p.data 16 2
      match s.landing ctx lid .fromIo with
      | .unmapped => (s.dispatch ctx p.pid .dispatched).packetDone ctx p.pid 0x13 lid
      | .lost => (s.dispatch ctx p.pid .dispatched).packetDone ctx p.pid 2 lid
      | .slot k =>
        match s.wait k (.packet ctx p.pid) (field p.data 18 1) (field p.data 20 4) with
        | (s, some (st, _)) => (s.dispatch ctx p.pid .dispatched).packetDone ctx p.pid st (if st = 0 then 0 else lid)
        | (s, none) => s.dispatch ctx p.pid .waiting))

/-- The flag resolves: with the prediction the packets decoded behind it stand; against it they are squashed and decode
starts again in the other part (R62, R63); where the chain ends there, it is closed again (R59). -/
def State.resolveFlag (s : State) (ctx : Nat) (p : Pkt) (holds : Bool) : State :=
  let s := s.dispatch ctx p.pid .completed
  if holds = p.predicted then s
  else
    let c := s.ctx ctx
    let behind := (c.pkts.dropWhile (fun x => decide (x.pid ≠ p.pid))).drop 1
    let s := s.dropRunAhead ctx (fun pid => behind.any (fun x => decide (x.pid = pid)))
    s.modCtx ctx (fun c => closeChains 5 { c with
      pkts := c.pkts.takeWhile (fun x => decide (x.pid ≠ p.pid)) ++ c.pkts.filter (fun x => decide (x.pid = p.pid))
      levels := p.resume.map (fun l => { l with ranges := l.ranges.map (fun r =>
        if r.pid = p.pid then { r with cond := holds } else r) })
      squashes := c.squashes + 1 })

/-- A packet completes with a status where it is dispatched, before anything behind it is (R54). -/
def State.completeAt (s : State) (ctx : Nat) (p : Pkt) (status detail : Nat) : State :=
  let s := s.dispatch ctx p.pid .dispatched
  match s.pkt ctx p.pid with
  | some p => s.completePkt ctx p status detail
  | none => s

/-- IF_FLAG reads the flag word once and selects the part that runs (R58); a fault completes it with FLAG_FAULT, poison
with POISON, and faults the context before any later packet is dispatched (R59). A read in space 1 that fails under R336 is a flag fault
(log entry 42). -/
def execIfFlag (ctx : Nat) (s : State) : Outcome := s.waits <|
  .next (s.atDispatch ctx 0x0C (fun s p =>
    let addr := field p.data 16 8
    match s.spaceRead (sequencer ctx) (field p.data 41 1) addr 8 with
    | (s, .ok d) =>
      let same := decide (ofBytes d &&& field p.data 24 8 = field p.data 32 8)
      s.resolveFlag ctx p (if field p.data 40 1 = 0 then same else !same)
    | (s, .poison a) => s.completeAt ctx p 0x12 a
    | (s, .trans _) => s.completeAt ctx p 0x16 addr
    | (s, .held _ _) => s))

/-- ELSE completes at dispatch; decode has divided its range (R58). -/
def execElsePacket (ctx : Nat) (s : State) : Outcome :=
  .next (s.atDispatch ctx 0x0D (fun s p => s.dispatch ctx p.pid .completed))

/-- END_IF completes at dispatch; decode has closed its range (R58). -/
def execEndIf (ctx : Nat) (s : State) : Outcome :=
  .next (s.atDispatch ctx 0x0E (fun s p => s.dispatch ctx p.pid .completed))

/-- FETCH_CHAIN is dispatched; it completes at once where its chain has met a fault (R57). -/
def execFetchChain (ctx : Nat) (s : State) : Outcome := s.waits <|
  .next (s.atDispatch ctx 0x10 (fun s p =>
    match p.chainFault with
    | some (st, d) => s.completeAt ctx p st d
    | none => s.dispatch ctx p.pid .dispatched))

/-- CHAIN_FAULT: a dispatched `FETCH_CHAIN` whose chain has met a fault completes with it, and faults the context (R57). -/
def execChainFault (ctx : Nat) (s : State) : Outcome := s.waits <|
  match (s.ctx ctx).pkts.find? (fun p => p.chainFault.isSome && decide (p.stage = .dispatched)) with
  | some p =>
    match p.chainFault with
    | some (st, d) => .next (s.completePkt ctx p st d)
    | none => .next s
  | none => .next s

/-- Logs the ranges still open at the end of a chain, innermost first (R59). -/
def State.logOpenRanges (s : State) (ctx depth : Nat) : List CondRange → State
  | [] => s
  | r :: rs => (s.logIngress ctx ⟨r.tag, 6, r.opcode, depth, r.offset⟩).logOpenRanges ctx depth rs

/-- CHAIN_END: the end of a chain reaches the dispatch point (R59). -/
def execChainEnd (ctx : Nat) (s : State) : Outcome :=
  match (s.ctx ctx).dispatchPoint with
  | some p =>
    if p.chainEnd then .next ((s.dispatch ctx p.pid .completed).logOpenRanges ctx p.depth p.openRanges) else .next s
  | none => .next s

/-- PACKET_COMPLETE: the work of a dispatched packet has completed (R54, R67). -/
def execPacketComplete (ctx pid : Nat) (s : State) : Outcome := s.waits <|
  match s.pkt ctx pid with
  | some p =>
    match p.stage with
    | .workDone st d => .next (s.completePkt ctx p st d)
    | _ => .next s
  | none => .next s

/-- FAULT_CREDIT_RECORD: once every dispatched packet of a faulted context has retired, the record of an overrun, the
credit record and the cause follow (R37, steps 2 to 4). -/
def execFaultCreditRecord (ctx : Nat) (s : State) : Outcome := s.waits <|
  let c := s.ctx ctx
  if c.state = .faulted ∧ c.faultOpen = true ∧ c.pkts = [] then
    let s := match c.faultRec with
      | some (st, a) => s.writeRecord ctx 0 c.curLayer c.curOper a st false
      | none => s
    let s := s.modCtx ctx (fun c => { c with faultRec := none, faultOpen := false })
    .next ((s.writeCredit ctx).raise c.fn (.ctxFault ctx))
  else .next s

/-- One packet that came from the FIFO retires: CONSUMED and RETIRED_TAG advance (R43, Table 2-3). -/
def Ctx.consume (c : Ctx) (p : Pkt) : Ctx :=
  if p.fromFifo then { c with consumed := c.consumed + 64 * p.len, retiredTag := p.tag } else c

/-- Whether every accepted packet has retired (R45): nothing is in flight, and the FIFO holds no whole packet behind the retired bytes. -/
def Ctx.idle (c : Ctx) : Bool :=
  c.pkts.isEmpty &&
    (match c.levels with
     | [l] => decide (l.pos = c.consumed) && !c.fifoReady l.pos
     | _ => false)

/-- PACKET_RETIRE: the oldest packet, if it has completed, retires; with the end of its chain a `FETCH_CHAIN` retires too
(R54, R57). The credit record is written when CONSUMED has advanced by the credit step or the context has become idle
(R45). -/
def execPacketRetire (ctx : Nat) (s : State) : Outcome := s.waits <|
  let c := s.ctx ctx
  match c.pkts.find? (fun p => !p.openChain) with
  | some p =>
    if p.stage ≠ .completed then .next s
    else
      let c := { c with pkts := c.pkts.filter (fun x => decide (x.pid ≠ p.pid)) }.consume p
      let c :=
        if p.chainEnd then
          match c.pkts.find? (fun x => decide (x.pid = p.owner)) with
          | some o => { c with pkts := c.pkts.filter (fun x => decide (x.pid ≠ o.pid)) }.consume o
          | none => c
        else c
      let s := s.setCtx ctx c
      if c.creditStep ≤ c.consumed - c.lastCredit ∨ (c.idle = true ∧ c.consumed ≠ c.lastCredit) then
        .next (s.writeCredit ctx)
      else .next s
  | none => .next s

end Sys2Proof.Machine
end

