-- ==== Sys2Proof/Machine/Removals.lean ====
section
/-! DEFINITION. Taking contexts, partitions, ports and cores out of service (11_partitions_and_isolation.md R283 to R286, R300 to R302;
16_reliability_repair.md R409): the parts of a drain and of a cut, the clearing of a gallery, and the commands that end them. -/

namespace Sys2Proof.Machine

open Sys2Proof

/-! ### A context -/

/-- A cox program that a cut stops: nothing in flight lands, and nothing drains (R158). -/
def Core.abandon (k : Core) : Core :=
  { k with
    seq := { k.seq with
      active := false, draining := false, writes := [], ywait := .none, loops := [], ending := false, nextPc := none, banks := [], phase := 0 }
    array := { k.array with loads := [], results := [], run := none } }

/-- Takes the cox launches out of a core's jobs; the running program among them is abandoned. -/
def State.dropJobs (s : State) (core : Nat) (gone : Nat → Bool) : State :=
  let k := s.core core
  let running := match k.coxJob with | some j => gone j.launch | none => false
  let s := if running then (s.unwait (.cox core)).dropHeld (.engine core) else s
  s.modCore core (fun k =>
    let k := if running then k.abandon else k
    { k with
      jobs := k.jobs.filter (fun j => !gone j.launch)
      staging := k.staging.filter (fun a => !gone a.launch) })

/-- Takes chains out of a core's engine. -/
def State.dropChains (s : State) (core : Nat) (gone : Chain → Bool) : State :=
  s.modEngine core (fun e => { e with queue := e.queue.filter (fun c => !gone c), waiting := e.waiting.filter (fun c => !gone c) })

/-- The packets of a context end in stream order: those whose work has completed write the record that they owe, and every other one
completes with `ABORTED` (R301). -/
def State.cutPackets (s : State) (n : Nat) : List Pkt → State
  | [] => s
  | p :: ps =>
    let (layer, oper) := if p.undispatched then (s.ctx n).carried p else (p.layer, p.oper)
    let s := if p.chainEnd then s
      else
        match p.stage with
        | .completed => s
        | .workDone st d => if st = 0 then s else s.writeRecord n p.tag layer oper d st false
        | _ => s.writeRecord n p.tag layer oper 0 1 false
    (s.modCtx n (fun c => if p.chainEnd then c else c.consume p)).cutPackets n ps

/-- Everything that a context has in flight ends (R301); its landings are released (R277), and a pre-emption is answered `ABORTED`
(R289). -/
def State.cutCtx (s : State) (n : Nat) : State :=
  let s := s.endPreempt n 1
  let s := s.unwaitAll n (s.ctx n).pkts
  let s := (s.crewsOf n).foldl (fun s c => s.dropHeld (.crew c.1 c.2.1)) s
  let s := s.discardCrews n
  let cox := (s.coxLaunches.filter (fun e => decide (e.2.ctx = n))).map (·.1)
  let s := s.cores.foldl (fun t e => (t.dropJobs e.1 (fun l => decide (l ∈ cox))).dropChains e.1 (fun c => decide (c.ctx = n))) s
  let s := { s with
    launches := s.launches.filter (fun e => decide (e.2.ctx ≠ n))
    coxLaunches := s.coxLaunches.filter (fun e => decide (e.2.ctx ≠ n)) }
  let s := (s.dropHeld (.sequencer n)).cutPackets n (s.ctx n).pkts
  (s.modCtx n (fun c => { c with pkts := [], heldPkts := [], levels := [{}], faultRec := none, faultOpen := false })).loseSlots
    (s.slotsOwned n)

/-- The entries of a context's send queues complete with `ABORTED`, and the queues are gone (Table 12-7). -/
def State.dropQueues (s : State) (n : Nat) : State :=
  (List.range 8).foldl (fun s i => if (s.sendQueue (8 * n + i)).live then s.dropQueue n i else s) s

/-- Clears a context's bits in the attention tree of its function (R342). -/
def State.clearCtxBits (s : State) (n : Nat) : State :=
  let fn := (s.ctx n).fn
  let f := s.func fn
  s.setFunc fn { f with
    ctxFault := setBit f.ctxFault n false, completion := setBit f.completion n false, kftQueue := setBit f.kftQueue n false }

/-- A reset or destruction of a context ends the traces that name it (R428): their undrained records count as drops. -/
def State.dropTraces (s : State) (n : Nat) : State :=
  { s with traces := mmapVals s.traces (fun _ (t : Trace) =>
    if t.enable = true ∧ t.ctx = n then { t with enable := false, drops := (t.drops + t.recs.length) % 2 ^ 64, recs := [] } else t) }

/-- A context returns to FREE: its map, its translations and its cached code are gone, and so are its bits in the attention tree with all that
they raise (R342). -/
def State.freeCtx (s : State) (n : Nat) : State :=
  let fn := (s.ctx n).fn
  let s := ((((s.dropQueues n).clearCtxBits n).dropTraces n).setCtx n {}).settle fn
  let other := fun (key : Nat) => decide (key / 2 ^ 57 ≠ n)
  { s with
    tlb := s.tlb.filter (fun e => decide (e.ctx ≠ n))
    kftOpen := s.kftOpen.filter (fun e => decide (e.1 ≠ n))
    cores := mmapVals s.cores (fun _ k => { k with
      icache := k.icache.filter (fun e => other e.1)
      icachePa := k.icachePa.filter (fun e => other e.1) }) }

/-- Removals whose object is gone by other means are answered `ABORTED` (Table 14-7). -/
def State.abortDrains (s : State) (gone : Drain → Bool) : State :=
  let ds := s.drains.filter gone
  let s := { s with drains := s.drains.filter (fun d => !gone d) }
  ds.foldl (fun s d => s.answer d.path 1 0 []) s

/-- The end of a drain or cut of a context (R302): the final credit record with `STATE` DRAINING, then FREE. -/
def State.endCtx (s : State) (n : Nat) : State :=
  let s := ((s.abortDrains (fun d => decide (d.obj = .ctx n))).modCtx n (fun c => { c with state := .draining })).dropQueues n
  let s := s.loseSlots (s.slotsOwned n)
  (s.writeCredit n).freeCtx n

/-- A context is destroyed at once: cut and freed. -/
def State.destroyCtx (s : State) (n : Nat) : State := (s.cutCtx n).endCtx n

def State.destroyCtxs (s : State) : List Nat → State
  | [] => s
  | n :: ns => (s.destroyCtx n).destroyCtxs ns

/-- A context enters DRAINING: the credit record is written and its packets that are not dispatched are discarded (R301). -/
def State.drainCtx (s : State) (n : Nat) : State :=
  let s := (s.endPreempt n 1).modCtx n (fun c => { c with state := .draining })
  (s.writeCredit n).dropUndispatched n

/-- Whether a context that drains has nothing left in flight. -/
def State.ctxDrained (s : State) (n : Nat) : Bool := (s.ctx n).pkts.isEmpty

/-! ### Galleries, slices and homes (R283, R286, R419) -/

/-- A core as R160, R167, R283 and R419 leave it when its gallery joins a partition. -/
def State.clearCore (s : State) (c : Nat) : State :=
  { s with
    cores := merase s.cores c
    coreBanks := merase s.coreBanks c
    traces := merase s.traces c
    slots := s.slots.filter (fun e => decide (e.1 / 48 ≠ c) || decide (7680 ≤ e.1)) }

/-- The ways of a gallery's slice that the repair map has disabled. -/
def State.repairedWays (s : State) (g : Nat) : Nat :=
  maskOf ((s.conf.repair.ways.filter (fun e => decide (e.1 = g))).map (·.2))

/-- A gallery joins a partition: its cores, host cores and slice are cleared and powered (R283, R419). -/
def State.addGallery (s : State) (g : Nat) : State :=
  let s := (List.range 8).foldl (fun s j => s.clearCore (8 * g + j)) s
  { s with
    galBanks := merase s.galBanks g
    traces := merase s.traces (1000 + g)
    slices := mset {} s.slices g { disabledWays := s.repairedWays g }
    hostLines := s.hostLines.filter (fun e => decide (e.1 / 2 ^ 50 / 2 ≠ g))
    hostCores := merase (merase s.hostCores (2 * g)) (2 * g + 1)
    gals := minsert s.gals g { st := 3 }
    uncoreIdle := sremove s.uncoreIdle (g / 5) }

/-- A gallery goes Off (Table 15-6). -/
def State.galleryOff (s : State) (g : Nat) : State :=
  { s with
    gals := merase s.gals g
    hostCores := merase (merase s.hostCores (2 * g)) (2 * g + 1)
    coresOut := s.coresOut.filter (fun c => decide (c / 8 ≠ g)) }

/-- Recalls every line of a partition (R286 step 2), past the regulators: slices are written back and emptied, locked ways unlocked with
LOCK_LOST where they held lines, and every copy in an L1 or host core given up. -/
def State.recallPart (s : State) (q : Nat) : State :=
  let s := s.homes.foldl (fun t e =>
    if e.1 / 2 ^ 45 = q ∧ e.2.dir ≠ .uncached then (t.dropCopies e.1 false e.2.dir.holders).setDir e.1 .uncached else t) s
  (s.galleriesOf q).foldl (fun s g =>
    let x := s.slice g
    let lost := x.lines.any (fun e => bit x.locked (e.1 % 16))
    let s := (s.emptySlice g false).modSlice g (fun y => { y with locked := 0, fillOnly := 0, lockLost := y.lockLost || lost })
    if lost then s.raiseGallery g else s) s

/-! ### Stacks and stage-2 tables -/

/-- Whether a stack is needed: a group of it is in a partition, or it holds a segment or stage-2 tables (Table 15-7). -/
def State.stackNeeded (s : State) (k : Nat) : Bool :=
  s.parts.any (fun e => e.2.live && decide (bits e.2.groups (4 * k) 4 ≠ 0)) ||
    s.allocs.any (fun a => decide (a.pc / 64 = k) && (match a.owner with
      | .segment _ => true
      | .segmentCopy _ => true
      | .table _ _ => true
      | _ => false))

/-- Powers the stacks that are needed, and turns the others off (0 Off, 1 Self-refresh, 2 Power-down, 3 Active): an unpowered stack reports no
temperature (Table 9-7). -/
def State.powerStacks (s : State) : State :=
  (List.range 8).foldl (fun s k =>
    let x := s.stack k
    if s.stackNeeded k then (if x.power = 0 then s.setStack k { x with power := 3 } else s)
    else if x.power = 0 then s
    else s.setStack k { x with power := 0, temp := 0, step := 0, refreshOnly := false, hot := false }) s

/-! ### A partition -/

/-- What a partition holds beside its contexts is given up (R301): host cores, slices, galleries, associations, regions, groups and
segment mappings. -/
def State.emptyPart (s : State) (q : Nat) : State :=
  let gs := s.galleriesOf q
  let s := s.abortDrains (fun d => match d.obj with | .part p => decide (p = q) | .core c => decide (c / 8 ∈ gs) | _ => false)
  let s := (s.moveJobs.filter (fun j => match j.cause with
    | .groups p _ => decide (p = q)
    | .change key _ _ _ => decide (key / 64 = q)
    | .retire _ => false)).foldl (fun s j => s.answer j.path 1 0 []) s
  let s := s.recallPart q
  let s := s.assocs.foldl (fun t e => if e.2.live = true ∧ e.2.part = q then (t.endAssoc e.1 .idle 0x25).setAssoc e.1 {} else t) s
  let s := gs.foldl (fun s g => s.galleryOff g) s
  let s : State := { s with
    regions := s.regions.filter (fun e => decide (e.1 / 64 ≠ q))
    rebuilds := s.rebuilds.filter (fun b => decide (b.part ≠ q))
    moveJobs := (s.moveJobs.filter (fun j => match j.cause with
      | .groups p _ => decide (p ≠ q)
      | .change key _ _ _ => decide (key / 64 ≠ q)
      | .retire _ => true)).map (fun j => { j with todo := j.todo.filter (fun k => decide (k / 64 ≠ q)) })
    tableMoves := s.tableMoves.filter (fun m => decide (m.part ≠ q))
    allocs := s.allocs.filter (fun a => match a.owner with
      | .region p _ => decide (p ≠ q)
      | .regionNew p _ => decide (p ≠ q)
      | .table p _ => decide (p ≠ q)
      | _ => true)
    stage2 := s.stage2.filter (fun m => decide (m.part ≠ q))
    tlb := s.tlb.filter (fun e => decide (e.part ≠ q))
    homes := s.homes.filter (fun e => decide (e.1 / 2 ^ 45 ≠ q))
    buckets := s.buckets.filter (fun e => decide (e.1 % 16 ≠ q))
    segs := mmapVals s.segs (fun _ g => { g with mapped := sremove g.mapped q })
    paddleEnergy := merase s.paddleEnergy q }
  let s : State := if s.moveJobs = [] then s else State.startMoves 600 s
  (s.setPart q { s.part q with galleries := 0, groups := 0, debugOpen := false }).powerStacks

/-- A partition is cut (R301): its contexts, then all that it holds. -/
def State.cutPart (s : State) (q : Nat) : State := (s.destroyCtxs (s.ctxsOf q)).emptyPart q

/-- A partition is cut and exists no more; the partition's function keeps its blocks (R337). -/
def State.destroyPart (s : State) (q : Nat) : State := (s.cutPart q).setPart q {}

/-- The operator keys of a partition (R358). -/
def State.partKeys (s : State) (q : Nat) : List Nat := (s.conf.keys.map (·.1)).filter (fun k => decide (k / 256 = 16 + q))

/-- Forgets a key with its counter and reservation. -/
def State.dropKey (s : State) (k : Nat) : State :=
  { s with keyLast := merase s.keyLast k, conf := { s.conf with keys := merase s.conf.keys k, reserv := merase s.conf.reserv k } }

/-- Destroying a partition erases its operator keys (R359). -/
def State.dropPartKeys (s : State) (q : Nat) : State := (s.partKeys q).foldl (fun s k => s.dropKey k) s

def State.destroyParts (s : State) : List Nat → State
  | [] => s
  | q :: qs => (s.destroyPart q).destroyParts qs

/-- The partitions that exist. -/
def State.liveParts (s : State) : List Nat := (List.range 8).filter (fun q => (s.part q).live)

/-- What the module does at once, past a regulator that is empty, an open transaction and a landing on the move (R301, R399). -/
def State.atOnce (s t : State) : State := { t with stalled := s.stalled }

/-- A partition-fatal error (R401): the partition is cut and left with no gallery powered. -/
def State.partFatal (s : State) (q : Nat) (e : RasEvent) : State :=
  s.atOnce ((s.ras { e with cls := 4, part := some q }).cutPart q)

def State.partsFatal (s : State) (e : RasEvent) : List Nat → State
  | [] => s
  | q :: qs => (s.partFatal q e).partsFatal e qs

/-! ### A core -/

/-- Whether a core still holds work (R301). -/
def State.coreBusy (s : State) (c : Nat) : Bool :=
  let k := s.core c
  k.crews ≠ [] || k.queue ≠ [] || k.jobs.any (fun j => j.dispatched) || k.engine.queue ≠ [] || k.engine.waiting ≠ []

/-- Ends launches that a cut core had work of. -/
def State.checkLaunches (s : State) : List Nat → State
  | [] => s
  | n :: ns => (s.checkLaunch n).checkLaunches ns

/-- A core is cut (R301): crews discarded, the cox program stopped without a drain or a dump, chains stopped; each launch with work on
it ends with `ABORTED` once its other cores finish. -/
def State.cutCore (s : State) (c : Nat) : State :=
  let k := s.core c
  let crews := k.crews.map (fun e => e.2.launch) ++ k.queue.filterMap (fun i => match i with
    | .fresh n _ => some n
    | .saved x => some x.crew.launch)
  let cox := (k.jobs.filter (·.dispatched)).map (·.launch)
  let packets := (k.engine.queue ++ k.engine.waiting).filterMap (fun ch => match ch.owner with
    | .packet ctx pid => some (ctx, pid)
    | _ => none)
  let s := k.crews.foldl (fun s e => s.dropHeld (.crew c e.1)) s
  let s := (s.unwait (.cox c)).dropHeld (.engine c)
  let s := s.modCore c (fun k => { k.abandon with
    crews := [], queue := [], staging := [],
    jobs := (k.jobs.filter (·.dispatched)).map (fun j => { j with started := true, done := some (1, 0) })
    engine := { k.engine with queue := [], waiting := [] } })
  let s := crews.eraseDups.foldl (fun s n => s.modLaunch n (fun l => { l with aborted := true, gone := sinsert l.gone c })) s
  let s := { s with coxLaunches := mmapVals s.coxLaunches (fun n l => if n ∈ cox then { l with aborted := true } else l) }
  let s := packets.foldl (fun s p => s.packetDone p.1 p.2 1 0) s
  let s := { s with slots := mmapVals s.slots (fun _ x => { x with waiters := x.waiters.filter (fun w =>
    match w.party with | .crew m => !s.observed (.crew m) | _ => true) }) }
  s.checkLaunches crews.eraseDups

/-- The occupied landing slots of a core in the order of their landing IDs, context by context (R276; log entry 52). -/
def State.slotsOfCore (s : State) (c : Nat) : List Nat :=
  let ks := (s.slots.filter (fun e => decide (e.1 / 48 = c) && decide (e.1 < 7680) && decide (e.2.state ≠ .free))).map (·.1)
  let mapped := (s.ctxs.flatMap (fun x => (x.2.lmap.map (fun e => e.2.key)).filter (fun k =>
    decide (k ∈ ks) && decide ((s.slot k).owner = x.1)))).eraseDups
  mapped ++ ks.filter (fun k => decide (k ∉ mapped))

/-- The landing slots of a core that is removed without a substitute move to device slots, where the pool allows; the others are lost
(R301). -/
def State.moveSlotsOut (s : State) : List Nat → State
  | [] => s
  | k :: ks =>
    let taken := fun (d : Nat) => decide ((s.slot d).state ≠ .free) || s.moves.any (fun m => decide (m.dst = d))
    match ((List.range 1024).map (10000 + ·)).find? (fun d => !taken d) with
    | some d =>
      let m : SlotMove := ⟨k, d⟩
      { s with moves := s.moves ++ [m] }.moveSlotsOut ks
    | none => (s.loseSlot k).moveSlotsOut ks

/-- Whether an undispatched packet names a partition core index that is not present (R301). -/
def namesAbsent (n : Nat) (p : Pkt) : Bool :=
  let f := fun (off : Nat) => field p.data off 2
  p.undispatched && decide (p.skip = 0) &&
    (match p.opcode with
      | 0x20 => decide (f 40 ≠ 0xFFFF) && decide (n ≤ f 40)
      | 0x21 => decide (f 40 ≠ 0xFFFF) && decide (n ≤ f 40)
      | 0x30 => decide (n < f 40 + f 42)
      | 0x31 => decide (n ≤ f 28)
      | 0x32 => decide (n < f 28 + f 30)
      | _ => false)

/-- After a renumbering, decoded packets that name an index no longer present complete with `ABORTED` (R301). -/
def State.abortAbsent (s : State) (q : Nat) : State :=
  let n := (s.coresOf q).length
  { s with ctxs := mmapVals s.ctxs (fun _ c =>
    if c.part = q ∧ c.state ≠ .free then
      { c with pkts := c.pkts.map (fun p =>
          if namesAbsent n p then
            let (l, o) := c.carried p
            { p with layer := l, oper := o, stage := .workDone 1 0 }
          else p) }
    else c) }

/-- The site that a logical core is on (R17, R18, R20). -/
def State.siteOf (s : State) (c : Nat) : Nat :=
  (mfind s.conf.repair.subs c).getD (42 * (c / 40) + 8 * (c / 8 % 5) + c % 8)

/-- Takes the lower-numbered usable spare site of a die (R409 step 2): one without a passed self-test of the last 24 hours is tested
first, and its outcome is the module's; a site that fails is marked. -/
def State.chooseSite (s : State) : List Nat → State × Option Nat
  | [] => (s, none)
  | x :: xs =>
    if x ∈ s.conf.repair.failedSites ∨ s.conf.repair.subs.any (fun e => decide (e.2 = x)) = true then s.chooseSite xs
    else if match mfind s.siteTests x with | some t => decide (s.now < t + dayNs) | none => false then (s, some x)
    else
      let (s, t) := s.sample
      let (s, bad) := s.pick 2
      if bad = 0 then ({ s with siteTests := minsert s.siteTests x t }, some x)
      else (s.modRepair (fun m => { m with failedSites := sinsert m.failedSites x })).chooseSite xs

/-- Substitutes a drained core, or retires it without a site (R20, R409 steps 2 to 6). A gallery that a spare serves for another of its
cores is given no second one; a core that fails again on its spare site frees that site, and may move to the die's other one (log entry
49). The landing slots of a substituted core keep their numbers and move to the new site one by one, and dispatch resumes behind the
last. -/
def State.substitute (s : State) (c : Nat) : State :=
  let old := s.siteOf c
  let served := s.conf.repair.subs.any (fun e => decide (e.1 / 8 = c / 8) && decide (e.1 ≠ c))
  let die := c / 40
  let s := s.modRepair (fun m => { m with failedSites := sinsert m.failedSites old })
  let (s, site) := if served then (s, none) else s.chooseSite [42 * die + 40, 42 * die + 41]
  let q := s.partOfCore c
  match site with
  | some x =>
    let s := { s.clearCore c with slots := s.slots }
    let s := (s.modRepair (fun m => { m with subs := minsert m.subs c x })).persist
    let ks := s.slotsOfCore c
    let stay := ks.map (fun k => ({ src := k, dst := k } : SlotMove))
    { s with moves := s.moves ++ stay, coresOut := if ks = [] then sremove s.coresOut c else s.coresOut }.rasRepaired
      { cls := 1, source := 0x02, action := 1, part := q, unit := c, site := x }
  | none =>
    let s := s.moveSlotsOut (s.slotsOfCore c)
    let s := { s with
      retired := sinsert s.retired c, coresOut := sremove s.coresOut c
      conf := { s.conf with repair := { s.conf.repair with subs := merase s.conf.repair.subs c } } }.persist
    let s := match q with | some q => s.abortAbsent q | none => s
    s.rasRepaired { cls := 1, source := 0x02, action := 2, part := q, unit := c, site := old }

/-- Takes a core out of service: no launch that names it is dispatched from now on (R301). -/
def State.drainCore (s : State) (c : Nat) : State := { s with coresOut := sinsert s.coresOut c }

/-! ### A fabric port -/

/-- Whether an association has unacknowledged packets on a port. -/
def State.portUsed (s : State) (p : Nat) : Bool :=
  s.assocs.any (fun e => e.2.sent.any (fun x => match mfind e.2.paths x.path with
    | some k => decide (k.sub / 4 = p) && decide (x.segs ≠ [])
    | none => false))

/-- The repair map's spared lanes of a port are in force before it is powered (R416): lane 8 stands in for them from the start. -/
def State.applyLanes (s : State) (p : Nat) : State :=
  s.conf.repair.fabLanes.foldl (fun t e =>
    if e.1 = p ∧ e.2.2 < 8 then
      let x := t.port p
      let sub := t.subOfLane p e.2.2 % 4
      t.setPort p (if e.2.1 = 0 then { x with rxLane := some e.2.2, spare := some sub, failed := sinsert x.failed e.2.2 }
        else { x with txLane := some e.2.2, pattern := some (sub, 0) })
    else t) s

/-- A port's sub-ports go down, and its new mode, if one is given, takes effect: its sub-ports start to train (R306), and the path tables follow
the sub-ports that exist now (R301, R305, R321). -/
def State.portOff (s : State) (p : Nat) (mode : Option (Nat × Nat × Nat × Bool)) : State :=
  let s := (List.range 4).foldl (fun s i => s.subDown (4 * p + i)) s
  let (s, t) := s.sample
  let x := s.port p
  let keep : FabPort := { strangerAt := x.strangerAt, strangerSum := x.strangerSum, failed := x.failed }
  match mode with
  | some (cls, split, mtu, autoneg) =>
    let s := (List.range 4).foldl (fun s i => s.setSubPort (4 * p + i) { s.subPort (4 * p + i) with trainAt := t }) s
    ((s.setPort p { keep with cls, split, mtu, autoneg }).applyLanes p).rebuildPaths
  | none => s.setPort p { keep with mtu := x.mtu, split := x.split, autoneg := x.autoneg }

/-! ### Drains (R300 to R302) -/

/-- Whether the object of a drain has nothing left to drain. -/
def State.drained (s : State) (d : Drain) : Bool :=
  match d.obj with
  | .ctx n => s.ctxDrained n
  | .part q => (s.ctxsOf q).all s.ctxDrained
  | .port p => !s.portUsed p
  | .core c => !s.coreBusy c

/-- Cuts the object of a drain. -/
def State.cutObj (s : State) (o : DrainObj) : State :=
  match o with
  | .ctx n => s.cutCtx n
  | .part q => (s.ctxsOf q).foldl (fun s n => s.cutCtx n) s
  | .port p =>
    (List.range 4).foldl (fun s i =>
      { s with assocs := mmapVals s.assocs (fun _ (a : Assoc) =>
        a.lose (a.sent.filter (fun (x : SentPkt) => match mfind a.paths x.path with | some k => decide (k.sub = 4 * p + i) | none => false))) }) s
  | .core c => s.cutCore c

/-- Begins a drain or a cut. -/
def State.startDrain (s : State) (d : Drain) : State :=
  let s := match d.obj with
    | .ctx n => if d.cut then s.modCtx n (fun c => { c with state := .draining }) else s.drainCtx n
    | .part q => (s.ctxsOf q).foldl (fun s n => if d.cut then s.modCtx n (fun c => { c with state := .draining }) else s.drainCtx n) s
    | .port p => s.setPort p { s.port p with draining := true }
    | .core c => s.drainCore c
  let s := if d.cut then s.cutObj d.obj else s
  { s with drains := s.drains ++ [d] }

/-- A timeout in µs from now, as a moment. -/
def State.inUs (s : State) (us : Nat) : Nat := s.now + 1000 * us

/-- An association is closed: a `CLOSE` leaves, signed over the earlier messages of its handshake and its own fields (Table 12-8; log entry 20
gives the reason), then it ends. -/
def State.closeAssoc (s : State) (a : Nat) : State :=
  let x := s.assoc a
  let s := match s.partKey x.part with
    | some key =>
      if x.carries = true ∨ x.state = AssocState.handshake then
        let fs := closeFields a 0
        s.sendHandshake a x.epoch (fs ++ Config.ed25519Sign key (x.earlier ++ fs))
      else s
    | none => s
  s.endAssoc a .idle 0

/-- The associations of a partition are closed (R350). -/
def State.closeAssocs (s : State) (q : Nat) : State :=
  s.assocs.foldl (fun t e => if e.2.live && decide (e.2.part = q) then t.closeAssoc e.1 else t) s

/-- Once every partition is drained, a removal of the module closes every association, then gives up what the partitions hold; it completes a
store write that is pending before it takes the ports down and answers (R350). -/
def State.finishRemoval (s : State) (d : Drain) : State :=
  let s := s.liveParts.foldl (fun s q => s.closeAssocs q) s
  let s := s.liveParts.foldl (fun s q => s.emptyPart q) s
  if s.writing.isSome then { s with drains := s.drains ++ [d] }
  else
    let s := (List.range 8).foldl (fun s p => s.portOff p none) s
    { s with removalPrepared := true }.answer d.path 0 0 []

/-- Ends a drain whose object is drained or cut, does what follows it, and answers (R302, R350, R409). -/
def State.finishDrain (s : State) (d : Drain) : State :=
  let used := toBytes 1 (b2n d.cut)
  let s := { s with drains := s.drains.filter (fun e => decide (e ≠ d)) }
  match d.obj, d.after with
  | .ctx n, _ =>
    let tag := (s.ctx n).retiredTag
    (s.endCtx n).answer d.path 0 0 [used, toBytes 4 tag]
  | .part q, .partDestroy =>
    let s := (s.ctxsOf q).foldl (fun s n => s.endCtx n) s
    let gone := s.partKeys q
    let s := ((s.emptyPart q).setPart q {}).dropPartKeys q
    if gone = [] then s.answer d.path 0 0 [used] else s.answerStored d.path [used]
  | .part q, .removal =>
    let s := (s.ctxsOf q).foldl (fun s n => s.endCtx n) s
    if s.drains.any (fun e => decide (e.after = .removal)) then s else s.finishRemoval d
  | .part q, _ =>
    let s := (s.ctxsOf q).foldl (fun s n => s.endCtx n) s
    (s.emptyPart q).answer d.path 0 0 [used]
  | .port p, .portMode cls split mtu autoneg => (s.portOff p (some (cls, split, mtu, autoneg))).answer d.path 0 0 []
  | .port p, _ => (s.portOff p none).answer d.path 0 0 [used]
  | .core c, .substitute => (s.substitute c).answer d.path 0 0 [used]
  | .core _, .selfTest => s
  | .core _, _ => s.answer d.path 0 0 [used]

/-- DRAIN_TIMEOUT: the timeout of the n-th removal expires, and its drain becomes a cut (R300). -/
def execDrainTimeout (n : Nat) (s : State) : Outcome := s.waits <|
  match s.drains[n]? with
  | some d =>
    if d.cut then .next s
    else
      let s := (s.until d.deadline).cutObj d.obj
      .next { s with drains := modifyAt s.drains n (fun d => { d with cut := true }) }
  | none => .next s

/-- DRAIN_COMPLETE: the n-th removal is drained or cut; it ends in the order of R302. A core that is to be substituted waits for
CORE_SUBSTITUTION. -/
def execDrainComplete (n : Nat) (s : State) : Outcome := s.waits <|
  match s.drains[n]? with
  | some d =>
    if s.drained d = false ∨ d.after = .substitute then .next s
    else .next (s.finishDrain d)
  | none => .next s

/-- CORE_SUBSTITUTION: a failing core (Table 16-4) begins to drain with a timeout of 10,000 µs; once it is drained or cut it moves to a
spare site or is retired without one (R409). -/
def execCoreSubstitution (core : Nat) (s : State) : Outcome := s.waits <|
  match s.drains.find? (fun d => decide (d.obj = .core core) && decide (d.after = .substitute)) with
  | some d => if s.drained d then .next (s.finishDrain d) else .next s
  | none =>
    if 160 ≤ core ∨ core ∈ s.retired ∨ core ∈ s.coresOut ∨ s.setting 9 1 = 0 ∨ s.coreErrors core < s.setting 15 2 then .next s
    else .next (s.startDrain { obj := .core core, deadline := s.inUs 10000, after := .substitute })

end Sys2Proof.Machine
end

