-- ==== Sys2Proof/Machine/HostLink.lean ====
section
/-! DEFINITION. The PCI Express side as commands (13_host_interface_attention.md R334 to R345, 18_startup_and_hardware.md R435, R436): the
BAR2 aperture, the delivery of interrupts, functions and the link. -/

namespace Sys2Proof.Machine

open Sys2Proof

/-! ### BAR2 (R340) -/

/-- The intermediate address that a BAR2 offset reaches: `BASE` above the aperture's size, the offset below it. -/
def Func.aperture (f : Func) (off : Nat) : Nat := f.aperBase * 2 ^ 30 / f.aperSize * f.aperSize + off % f.aperSize

/-- A function that reaches the host: PF0, or a VF that is enabled (R337). -/
def State.fnPresent (s : State) (fn : Nat) : Bool := s.linkUp && s.served && decide (fn ≤ 8) && (decide (fn = 0) || decide (fn ≤ s.numVfs))

/-- An aperture access whose translation failed: `APER_FAULT` (R340). -/
def State.aperFault (s : State) (fn addr : Nat) (write : Bool) : State := s.hostError fn 2 write 0 addr

/-- Reads the pieces of an aperture read at the home. -/
def State.aperRead (s : State) (fn q : Nat) (acc : List Byte) : List (Nat × Nat) → State × Access
  | [] => (s, .ok acc)
  | (ia, n) :: rest =>
    match s.stage2Of q ia { r := true } with
    | none => (s, .trans ia)
    | some (pa, _) =>
      let (s, a) := s.paRead (.io 4) q 0 pa n
      match s.orHeld (.bar2 fn) a with
      | (s, .ok bs) => s.aperRead fn q (acc ++ bs) rest
      | (s, a) => (s, a)

/-- BAR2_READ: translated by stage 2 and performed as `IO_READ`; a read of a line in repair waits, and is served by a later command
(R298). A completion is data, Unsupported Request (1), Completer Abort (2), or data with EP set (3). -/
def execBar2Read (fn addr n : Nat) (s : State) : Outcome := s.waits <|
  let f := s.func fn
  if s.fnPresent fn = false then .next s
  else
    match s.partOf fn with
    | none => .next (s.emit (.bar2Fail fn 1))
    | some q =>
      if f.aperEnable = false ∨ f.aperRemoved = true then .next (s.emit (.bar2Fail fn 1))
      else
        match s.aperRead fn q [] (linePieces (n / 128 + 2) (f.aperture addr) n) with
        | (s, .ok bs) => .next ((s.dropHeld (.bar2 fn)).emit (.bar2Data fn bs))
        | (s, .trans _) => .next ((s.aperFault fn addr false).emit (.bar2Fail fn 2))
        | (s, .poison _) => .next ((s.dropHeld (.bar2 fn)).emit (.bar2Fail fn 3))
        | (s, .held _ _) => .next s

/-- Writes the pieces of an aperture write at the home. -/
def State.aperWrite (s : State) (q : Nat) (bytes : List Byte) : List (Nat × Nat) → State × Bool
  | [] => (s, true)
  | (ia, n) :: rest =>
    match s.stage2Of q ia { w := true } with
    | none => (s, false)
    | some (pa, _) =>
      match s.paWrite (.io 4) q 0 pa (bytes.take n) with
      | (s, .ok _) => s.aperWrite q (bytes.drop n) rest
      | (s, _) => (s, false)

/-- BAR2_WRITE: translated by stage 2 and performed as `IO_WRITE`; discarded where the aperture is closed or the translation fails. -/
def execBar2Write (fn addr : Nat) (bytes : List Byte) (s : State) : Outcome := s.waits <|
  let f := s.func fn
  if s.fnPresent fn = false ∨ f.aperEnable = false ∨ f.aperRemoved = true then .next s
  else
    match s.partOf fn with
    | none => .next s
    | some q =>
      match s.aperWrite q bytes (linePieces (bytes.length / 128 + 2) (f.aperture addr) bytes.length) with
      | (s, true) => .next s
      | (s, false) => .next (s.aperFault fn addr true)

/-- Outstanding reads fail, each with DMA_ERROR: the operations that wait for them then end as on a translation fault (R336). -/
def State.failReads (s : State) (p : HostRead → Bool) : State :=
  let gone := s.hostReads.filter (fun h => p h && !h.expired)
  gone.foldl (fun s h => s.hostError h.fn 3 false h.ctx h.addr)
    { s with hostReads := s.hostReads.map (fun h => if p h then { h with expired := true } else h) }

/-- COMPLETION_TIMEOUT: an outstanding read of a function has not been answered within its Completion Timeout (R334, R336). -/
def execCompletionTimeout (fn ctx addr : Nat) (s : State) : Outcome :=
  match s.hostReads.find? (fun h => h.is fn ctx addr && !h.expired) with
  | some h => .next ((s.until (h.since + 1000 * (s.func fn).cplTimeoutUs)).failReads (fun x => x.is fn ctx addr))
  | none => .next s

/-! ### Interrupts (R345) -/

/-- MODERATION_TIMER: the time bound of a function's moderation passes, and a message that is due is sent. -/
def execModerationTimer (fn : Nat) (s : State) : Outcome :=
  let f := s.func fn
  match f.winStart with
  | some w => if f.modTime = 0 then .next s else .next ((s.until (w + 1000 * f.modTime)).deliver fn)
  | none => .next s

/-- VECTOR_UNMASK: the vector is unmasked, with the MSI-X Enable bit that is then in force; a pending message is sent if the function is
still pending. -/
def execVectorUnmask (fn : Nat) (enable : Bool) (s : State) : Outcome :=
  .next ((s.modFunc fn (fun f => { f with msixEnabled := enable, msixMasked := false })).deliver fn)

/-- BUS_MASTER_ENABLE: BME is set; a held message is sent if the link is up and the function still pending. -/
def execBusMasterEnable (fn : Nat) (s : State) : Outcome := .next ((s.modFunc fn (fun f => { f with bme := true })).deliver fn)

/-- Delivers what the functions hold. -/
def State.deliverAll (s : State) : State := (List.range 9).foldl (fun s fn => s.deliver fn) s

/-! ### Functions and the link -/

/-- VF_ENABLE: host software sets NumVFs, and VF1 onward appear (R337). -/
def execVfEnable (n : Nat) (s : State) : Outcome :=
  if 8 < n ∨ s.linkUp = false then .next s else .next ({ s with numVfs := n }.deliverAll)

/-- PERST_N_RELEASE: the clocking is chosen for this release (R436): common clock where the reference has been within its tolerance,
otherwise SRIS. -/
def execPerstNRelease (refclk : Bool) (s : State) : Outcome := .next { s with perstN := true, sris := !refclk }.driveAttn

/-- The rate (0 to 5 for 2.5, 5, 8, 16, 32 and 64 GT/s), the width and the flit mode that the port trains at (R334). What the link partner
supports is the partner's, so they are choices that the model leaves free (log entry 4); at 64 GT/s flit mode is always used. -/
def State.train (s : State) : State :=
  let (s, rate) := s.pick 6
  let (s, width) := s.pick 5
  let (s, flit) := s.pick 2
  { s with linkUp := true, linkRate := rate, linkWidth := 2 ^ width, linkFlit := decide (flit = 1) || decide (rate = 5) }

/-- PCIE_LINK_UP: the link comes up once PERST_N is released and the IO die is initialised. Held messages then leave (R334, R345, R435). -/
def execPcieLinkUp (s : State) : Outcome :=
  if s.perstN = false ∨ s.supply ≠ 2 then .next s else .next s.train.deliverAll

/-- DATA_LINK_LAYER_DOWN: the link goes down; the reads that are outstanding and host-bound requests from then on fail (R336, R436). -/
def execDataLinkLayerDown (s : State) : Outcome := .next ({ s with linkUp := false }.failReads (fun _ => true))

end Sys2Proof.Machine
end

