-- ==== Sys2Proof/Machine/Power.lean ====
section
/-! DEFINITION. Power, clocks, sleep and thermal control (15_power_clocks_thermal.md; 09_hbm_memory_system.md R260): rail limits, the
sharing of the module cap, paddling, sleep states, temperatures and coolant. Powers are in watts, temperatures of dies in 0.1 °C. -/

namespace Sys2Proof.Machine

open Sys2Proof

/-! ### Settings of Table 15-4 -/

/-- A setting of `POWER_CAP`, by its type and, for one per partition, its index. -/
def State.capSet (s : State) (type index dflt : Nat) : Nat := (mfind s.conf.caps (16 * type + index)).getD dflt

def State.capW (s : State) : Nat := s.capSet 1 0 3200
def State.floorLinks (s : State) : Nat := s.capSet 2 0 400
def State.floorMem (s : State) : Nat := s.capSet 3 0 350
def State.paddleUs (s : State) : Nat := s.capSet 4 0 50
def State.shareOf (s : State) (q : Nat) : Nat := s.capSet 5 q 10
def State.retentionUs (s : State) (q : Nat) : Nat := s.capSet 6 q 1000

/-! ### Shared operations -/

/-- A power or thermal event (block 18 of Table 13-4): the bit of `ATT_POWER`, and its entry with a reading (Table 14-12). -/
def State.powerEvent (s : State) (b value : Nat) : State :=
  (s.raise 0 (.power b)).logEvent 0 6 (toBytes 1 b ++ zeros 3 ++ toBytes 4 value)

/-- The powered galleries of a die. -/
def State.dieGals (s : State) (die : Nat) : List Nat :=
  ((List.range 5).map (fun k => 5 * die + k)).filter (fun g => decide ((s.gal g).st ≠ 0))

/-- A limit ends a gallery's paddling and its rise at once (R391). -/
def State.endPaddle (s : State) (g : Nat) : State :=
  let x := s.gal g
  s.setGal g { x with floorStep := 0, rising := false, idleAt := s.now, limits := mset (16, 4000) x.limits 5 (16, 4000) }

/-- A duty and a clock that a controller chooses (log entry 4). -/
def State.chooseLimit (s : State) : State × Nat × Nat :=
  let (s, d) := s.pick 16
  let (s, c) := s.pick 33
  (s, d + 1, 800 + 100 * c)

/-- A controller limits galleries to settings of its choice. -/
def State.limitAll (s : State) (i : Nat) (gs : List Nat) : State :=
  gs.foldl (fun s g =>
    let (s, d, c) := s.chooseLimit
    (s.setLimit g i d c).endPaddle g) s

/-! ### Rails (R382, R383) -/

/-- RAIL_THROTTLE: the trend on a rail would break one of its limits, and its loads are throttled (R382): rails 0 to 3 `VDD_CORE_d`
by issue and clocks, 8 to 11 `VDD_HOST_d` by the host cores' clocks, 15 to 22 `VDD_HBM_s` by a transfer step. The other rails are not
throttled. -/
def execRailThrottle (rail : Nat) (s : State) : Outcome :=
  let (s', i) := s.pick (2 ^ 32)
  if rail < 4 then .next ((s'.limitAll 3 (s'.dieGals rail)).powerEvent 1 i)
  else if 8 ≤ rail ∧ rail < 12 then
    .next ({ s' with railSteps := mset 0 s'.railSteps rail (min 28 (mget 0 s'.railSteps rail + 1)) }.powerEvent 1 i)
  else if 15 ≤ rail ∧ rail < 23 then
    .next ({ s' with railSteps := mset 0 s'.railSteps rail (min 7 (mget 0 s'.railSteps rail + 1)) }.powerEvent 1 i)
  else .next s

/-- THROTTLE_RELEASE_STEP: as the margin returns a throttle is released by one step (R382); the size of a step is the model's (log
entry 24). -/
def execThrottleReleaseStep (rail : Nat) (s : State) : Outcome :=
  if rail < 4 then
    .next ((s.dieGals rail).foldl (fun s g =>
      match mfind (s.gal g).limits 3 with
      | some (d, c) => s.setLimit g 3 (min 16 (d + 1)) (min 4000 (c + 100))
      | none => s) s)
  else .next { s with railSteps := mset 0 s.railSteps rail (mget 0 s.railSteps rail - 1) }

/-- The transfer step of a stack: the highest of its thermal step, the memory class's, and its rail's (R260, R382, R386). -/
def State.stackStep (s : State) (k : Nat) : Nat := max (s.stack k).step (max s.memStep (mget 0 s.railSteps (15 + k)))

/-- DROOP_STRETCH: a droop detector of a gallery sees its rail below the threshold and stretches the core clock, or sees it back above
for 100 ns (R383). Stretching changes no stroke count. -/
def execDroopStretch (g : Nat) (low : Bool) (s : State) : Outcome :=
  if (s.gal g).st = 0 then .next s
  else .next { s with stretched := if low then sinsert s.stretched g else sremove s.stretched g }

/-! ### The module cap (R385 to R389) -/

/-- The partitions that share the compute budget: those with a gallery not Off (R387). -/
def State.sharers (s : State) : List Nat :=
  s.liveParts.filter (fun q => (s.galleriesOf q).any (fun g => decide ((s.gal g).st ≠ 0)))

/-- The budgets b2 and b3 of R386 for a cap, the floors and the demands of classes 1 and 2. -/
def budgetMem (cap floorMem b1 d2 : Nat) : Nat := max floorMem (min (d2 + cap / 100) (cap - cap / 50 - b1 - 450))
def budgetCompute (cap b1 b2 : Nat) : Nat := cap - cap / 50 - b1 - b2

/-- Whether class 1 draws more than R386 leaves beside the floor of the memory class. -/
def overCap (cap floorMem d1 : Nat) : Bool := decide (cap - cap / 50 < d1 + floorMem + 450)

/-- The part of b3 of each partition (R387): in proportion to its share, less what it left unused in the last allocation, which goes to
the others in proportion to their shares. -/
def State.newBudgets (s : State) (b3 : Nat) (used : Nat → Nat) : Map Nat :=
  let qs := s.sharers
  let total := sum (qs.map s.shareOf)
  let base := fun (q : Nat) => b3 * s.shareOf q / max 1 total
  let unused := fun (q : Nat) => min (base q) (mget 0 s.budgets q - used q)
  qs.foldl (fun m q =>
    let gained := sum ((qs.filter (· ≠ q)).map (fun p => unused p * s.shareOf q / max 1 (total - s.shareOf p)))
    mset 0 m q ((if qs.length ≤ 1 then base q else base q - unused q) + gained)) []

/-- The compute limit of a gallery for its part of a budget: settings of the controller's choice where it draws more than its part. -/
def State.fitGallery (s : State) (g draw part : Nat) : State :=
  if draw ≤ part then s.setLimit g 2 16 4000
  else
    let (s, d, c) := s.chooseLimit
    (s.setLimit g 2 d c).endPaddle g

/-- A change of a gallery's current between two allocations (R390): a fall, also one during a rise, starts the floor at the old current; a
rise during a fall takes the floor's level over and is limited from there. A die held at 110 °C does not paddle (Table 15-8). -/
def State.paddle (s : State) (g draw : Nat) : State :=
  let x := s.gal g
  if s.paddleUs = 0 ∨ x.st ≠ 3 ∨ (mget ({} : DieHeat) s.heat (g / 5)).crit = true then s.setGal g { x with draw }
  else if draw < x.draw ∧ (x.floorStep = 0 ∨ x.rising = true) then
    s.setGal g { x with draw, floorStep := 16, floorTop := x.draw, rising := false, stepAt := s.now }
  else if x.draw < draw ∧ x.floorStep ≠ 0 ∧ x.rising = false then
    let (s, d, c) := s.chooseLimit
    (s.setGal g { x with draw, rising := true, stepAt := s.now }).setLimit g 5 d c
  else s.setGal g { x with draw }

/-- `CAP_LIMIT` (R389): the compute budget has held a gallery for 1 ms, and again after each further second. -/
def State.capLimit (s : State) (g : Nat) : State :=
  let x := s.gal g
  if (mfind x.limits 2).isNone then s.setGal g { x with limitedAt := none, toldAt := 0 }
  else
    match x.limitedAt with
    | none => s.setGal g { x with limitedAt := some s.now, toldAt := 0 }
    | some t =>
      if (x.toldAt = 0 ∧ t + 1000000 ≤ s.now) ∨ (x.toldAt ≠ 0 ∧ x.toldAt + 1000000000 ≤ s.now) then
        (s.setGal g { x with toldAt := max 1 s.now }).powerEvent 0 s.readings.pin
      else s

/-- POWER_ALLOCATION: every 10 µs the budgets are computed (R386) from the demands of classes 1 and 2, the input current in mA, the
draw of each gallery, and behind those the draw of each partition's host cores; the compute budget is shared (R387), paddling follows
the currents (R390), and `CAP_LIMIT` the limits (R389). The share of the stacks in a partition's power is free (log entry 5). -/
def execPowerAllocation (d1 d2 iin : Nat) (draws : List Nat) (s : State) : Outcome :=
  let (s, now) := (s.until (s.allocAt + 10000)).sample
  let s := { s with allocAt := now }
  let draw := fun (g : Nat) => draws.getD g 0
  let host := fun (q : Nat) => draws.getD (20 + q) 0
  let used := fun (q : Nat) => host q + sum ((s.galleriesOf q).map draw)
  let b1 := max s.floorLinks d1
  let tight := overCap s.capW s.floorMem d1
  let b2 := if tight then s.floorMem else budgetMem s.capW s.floorMem b1 d2
  let b3 := budgetCompute s.capW b1 b2
  let (s, cut) := s.pick (b3 + 1)
  let b3 := if 85000 < iin then cut else b3
  let (s, step) := s.pick 7
  let (s, pin) := s.pick (2 ^ 32)
  let budgets := s.newBudgets b3 used
  let shares := s.liveParts.foldl (fun (a : Map Nat × State) q =>
    let (t, x) := a.2.pick (10 * d2 + 1)
    (mset 0 a.1 q (10 * used q + x), t)) ([], s)
  let s := shares.2
  let s := { s with
    memStep := if b2 < d2 then step + 1 else 0
    readings := { s.readings with
      iin, pin, classPower := [10 * d1, 10 * d2, 10 * sum draws]
      partPower := shares.1 } }
  let s := s.liveParts.foldl (fun s q =>
    let gs := (s.galleriesOf q).filter (fun g => decide ((s.gal g).st ≠ 0))
    gs.foldl (fun s g =>
      let s := if tight then (s.setLimit g 2 1 800).endPaddle g else s.fitGallery g (draw g) ((mget 0 budgets q - host q) / max 1 gs.length)
      (s.paddle g (draw g)).capLimit g) s) s
  let s := { s with budgets }
  .next (if tight then s.powerEvent 0 pin else s)

/-! ### Paddling (R390 to R392) -/

/-- PADDLE_STEP: every T/16 the floor falls, or the rise limit rises, by a sixteenth; the energy of the filler counts for the partition
(R392). -/
def execPaddleStep (g : Nat) (s : State) : Outcome :=
  let x := s.gal g
  if x.floorStep = 0 then .next s
  else
    let s := s.until (x.stepAt + 1000 * s.paddleUs / 16)
    if x.rising then
      if 15 ≤ x.floorStep then .next (s.endPaddle g)
      else
        let (s, d, c) := s.chooseLimit
        .next ((s.setGal g { x with floorStep := x.floorStep + 1, stepAt := s.now }).setLimit g 5 d c)
    else
      let (s, e) := s.pick (2 ^ 16)
      let s := match s.partOfGallery g with
        | some q => { s with paddleEnergy := mset 0 s.paddleEnergy q ((mget 0 s.paddleEnergy q + e) % 2 ^ 64) }
        | none => s
      if x.floorStep = 1 then .next (s.endPaddle g)
      else .next (s.setGal g { x with floorStep := x.floorStep - 1, stepAt := s.now })

/-! ### Sleep (R395 to R397) -/

/-- Whether a core holds nothing that could issue: its crews wait, are halted or faulted, and its stream waits at a Y slot or is not
running. -/
def Core.quiet (k : Core) : Bool :=
  k.crews.all (fun e => decide (e.2.state ≠ .running) && e.2.outs.isEmpty) &&
    k.engine.queue.isEmpty && k.engine.waiting.isEmpty && k.queue.isEmpty && !k.seq.draining &&
    (!k.seq.active || (match k.seq.ywait with | .registered _ _ => true | _ => false))

/-- Whether a gallery is idle (R395). What its host cores execute is outside the model: that they are in WFI or stopped is what the
command says. -/
def State.galIdle (s : State) (g : Nat) : Bool :=
  decide ((s.gal g).floorStep = 0) && (List.range 8).all (fun j => (s.core (8 * g + j)).quiet)

/-- CLOCK_GATE_ENTRY: a gallery idle for 1 µs enters Clock-gated. -/
def execClockGateEntry (g : Nat) (s : State) : Outcome :=
  let x := s.gal g
  if x.st ≠ 3 ∨ s.galIdle g = false then .next s
  else
    let s := (s.until (x.idleAt + 1000)).galState g 2
    .next (s.setGal g { s.gal g with gatedAt := s.now })

/-- RETENTION_ENTRY: after `RETENTION_US` in Clock-gated, unless that is 0, the gallery enters Retention. -/
def execRetentionEntry (g : Nat) (s : State) : Outcome :=
  let x := s.gal g
  match s.partOfGallery g with
  | some q =>
    if x.st ≠ 2 ∨ s.retentionUs q = 0 then .next s
    else .next ((s.until (x.gatedAt + 1000 * s.retentionUs q)).galState g 1)
  | none => .next s

/-- GALLERY_WAKE: a wake event of Table 15-6 returns a gallery to Active; the event that wakes it is this command's cause and makes no other
change (log entry 57). -/
def execGalleryWake (g : Nat) (s : State) : Outcome :=
  let s := s.wakeGal g
  .next (if (s.gal g).st = 0 then s else s.setGal g { s.gal g with idleAt := s.now })

/-- MU_SLEEP: the management units sleep after 1 ms with no request or event to serve: none taken, none posted that Mitor could take, and no
write of the store in progress. -/
def execMuSleep (s : State) : Outcome :=
  if s.mitorUp = false ∨ s.taken ≠ [] ∨ s.writing.isSome = true ∨ s.mailboxes.any (fun e => e.2.post && !e.2.owner && !e.2.respPost) = true
  then .next s
  else .next { s with muAsleep := true }

/-- MU_WAKE: an event of Table 15-7 wakes them. -/
def execMuWake (s : State) : Outcome := .next { s with muAsleep := false }

/-- STACK_POWER_DOWN: a stack without requests for 1 µs enters Power-down, and from there after 1 ms Self-refresh. -/
def execStackPowerDown (stack : Nat) (s : State) : Outcome :=
  let x := s.stack stack
  if x.power = 3 then .next ((s.until (x.lastUse + 1000)).setStack stack { x with power := 2 })
  else if x.power = 2 then .next ((s.until (x.lastUse + 1000000)).setStack stack { x with power := 1 })
  else .next s

/-- Whether a die has a gallery or a stack that is powered (Table 15-7). -/
def State.diePowered (s : State) (die : Nat) : Bool :=
  decide (s.dieGals die ≠ []) || decide ((s.stack (2 * die)).power ≠ 0) || decide ((s.stack (2 * die + 1)).power ≠ 0)

/-- UNCORE_IDLE_ENTRY: the uncore and links of a die without traffic for 10 µs enter Idle. -/
def execUncoreIdleEntry (die : Nat) (s : State) : Outcome :=
  if 4 ≤ die ∨ s.diePowered die = false then .next s else .next { s with uncoreIdle := sinsert s.uncoreIdle die }

/-! ### Temperatures (R260, R398, R399) -/

/-- The body of a Partition-fatal record of a cause that Table 16-3 gives no source: its source is free (log entry 5). -/
def State.tellLost (s : State) (q : Nat) : State :=
  let (s, src) := s.pick 256
  let e : RasEvent := { cls := 4, source := src, part := some q, unit := q }
  s.rasTell e 1 (sinsert [0] (s.fnOf q))

/-- Everything in HBM and the galleries is gone. -/
def State.loseMemory (s : State) : State :=
  let s := s.atOnce ((s.destroyParts s.liveParts).abortDrains (fun d => match d.obj with | .port _ => false | _ => true))
  let s := s.moveJobs.foldl (fun s j => s.answer j.path 1 0 []) s
  let s := s.hbmStacks.foldl (fun t e => t.setStack e.1 { e.2 with power := 0, temp := 0, step := 0, refreshOnly := false }) s
  { s with
    segs := [], allocs := [], rebuilds := [], moveJobs := [], tableMoves := [], hbm := [], hbmPoison := []
    cores := [], slices := [], gals := [], hostCores := [], stretched := [], homes := [], hostLines := [] }

/-- A thermal trip (R399): the compute and HBM rails go off, every partition is lost and told, and partitions can be created again only
when every sensor reads below 90 °C. -/
def State.trip (s : State) (value : Nat) : State :=
  let s := s.liveParts.foldl (fun s q => s.tellLost q) s
  ({ s.loseMemory with tripped := true }).powerEvent 3 value

/-- Whether every sensor reads below 90 °C. -/
def State.cool (s : State) : Bool :=
  s.readings.dieTemp.all (fun e => decide (e.2 < 900)) && s.hbmStacks.all (fun e => decide (e.2.temp < 90))

def State.cooled (s : State) : State := if s.tripped = true ∧ s.cool = true then { s with tripped := false } else s

def State.dieHeat (s : State) (die : Nat) : DieHeat := mget {} s.heat die
def State.setHeat (s : State) (die : Nat) (x : DieHeat) : State := { s with heat := mset {} s.heat die x }

/-- The clocks of a die's galleries are held at 800 MHz, at a duty (Table 15-8). -/
def State.holdDie (s : State) (die duty : Nat) : State :=
  (s.dieGals die).foldl (fun s g => (s.setLimit g 4 duty 800).endPaddle g) s

/-- The core clock of each gallery of a die falls by 100 MHz, down to 800. -/
def State.fallDie (s : State) (die : Nat) : State :=
  (s.dieGals die).foldl (fun s g => (s.setLimit g 4 16 (max 800 ((s.gal g).clock - 100))).endPaddle g) s

/-- The clocks of a die return one step. -/
def State.returnDie (s : State) (die : Nat) : State :=
  (s.dieGals die).foldl (fun s g =>
    match mfind (s.gal g).limits 4 with
    | some (_, c) => s.setLimit g 4 16 (min 4000 (c + 100))
    | none => s) s

/-- A temperature as the 32-bit reading of an event. -/
def tempValue (t : Int) : Nat := toMod t 32

/-- THERMAL_SAMPLE: the hottest sensor of a die is read, in 0.1 °C, and the actions of Table 15-8 follow. The events are told when a
threshold is crossed; the clocks move one step per 100 µs. -/
def execThermalSample (die : Nat) (temp : Int) (s : State) : Outcome :=
  if 5 ≤ die then .next s
  else
    let (s, now) := s.sample
    let old := (mfind s.readings.dieTemp die).getD 0
    let s := { s with readings := { s.readings with dieTemp := mset 0 s.readings.dieTemp die temp } }
    let v := tempValue temp
    if 1200 ≤ temp then .next (if s.tripped then s else s.trip v)
    else
      let s := if 1000 ≤ temp ∧ old < 1000 then s.powerEvent 2 v else s
      let s := if 1100 ≤ temp ∧ old < 1100 then s.powerEvent 3 v else s
      let x := s.dieHeat die
      let due : Bool := decide (x.stepAt + 100000 ≤ now) || decide (x.stepAt = 0)
      if die = 4 then
        if 1000 < temp ∧ due = true then .next ((s.setHeat 4 { x with stepAt := now, slow := min 7 (x.slow + 1) }).cooled)
        else if temp ≤ 970 ∧ due = true ∧ x.slow ≠ 0 then .next ((s.setHeat 4 { x with stepAt := now, slow := x.slow - 1 }).cooled)
        else .next s.cooled
      else if 1100 ≤ temp then .next ((s.setHeat die { x with crit := true, stepAt := now }).holdDie die 4)
      else
        let s := if x.crit = true ∧ temp ≤ 1000 then (s.setHeat die { x with crit := false }).holdDie die 16 else s
        let x := s.dieHeat die
        if x.crit = true ∨ x.held ≠ [] then .next s.cooled
        else if 1000 ≤ temp ∧ due = true then .next ((s.setHeat die { x with stepAt := now }).fallDie die)
        else if temp ≤ 970 ∧ due = true then .next ((s.setHeat die { x with stepAt := now }).returnDie die).cooled
        else .next s.cooled

/-- The throttle step and the service of a stack after a report (R260): a threshold in °C. -/
def Stack.report (x : Stack) (temp threshold now : Nat) : Stack :=
  let up := if threshold ≤ temp then min 7 (x.step + 1) else if temp + 3 ≤ threshold then x.step - 1 else x.step
  if 105 ≤ temp then
    { x with temp, step := up, refreshOnly := true,
             refreshSince := if x.refreshOnly then x.refreshSince else now, hot := x.hot || !x.refreshOnly }
  else if x.refreshOnly && decide (temp ≤ 100) then { x with temp, step := 7, refreshOnly := false }
  else { x with temp, step := up }

/-- STACK_TEMP_REPORT: a stack reports its temperature in °C (R260). Refresh-only service for more than a second holds the galleries of
its die at 800 MHz with `THERMAL_CRIT` until it ends (R398); 120 °C trips the module. -/
def execStackTempReport (stack temp : Nat) (s : State) : Outcome :=
  let x := s.stack stack
  if 8 ≤ stack ∨ x.power = 0 then .next s
  else
    let (s, now) := s.sample
    let y := x.report temp (s.setting 5 95) now
    let s := s.setStack stack y
    let s := if y.refreshOnly = true ∧ x.refreshOnly = false then s.raise 0 (.hbmHot stack) else s
    let die := stack / 2
    let h := s.dieHeat die
    if 120 ≤ temp then .next (if s.tripped then s else s.trip (10 * temp))
    else if y.refreshOnly = true ∧ y.refreshSince + 1000000000 < now ∧ stack ∉ h.held then
      .next (((s.setHeat die { h with held := sinsert h.held stack }).holdDie die 16).powerEvent 3 (10 * temp))
    else if y.refreshOnly = false ∧ stack ∈ h.held then
      let s := s.setHeat die { h with held := sremove h.held stack }
      .next (if sremove h.held stack = [] ∧ h.crit = false then (s.dieGals die).foldl (fun s g => s.setLimit g 4 16 4000) s else s).cooled
    else .next s.cooled

/-- Whether the coolant breaches Table 15-8: inlet above 40 °C, or a rise of more than 20 °C, in 0.1 °C. -/
def coolantBreach (inlet outlet : Int) : Bool := decide (400 < inlet) || decide (200 < outlet - inlet)

/-- COOLANT_REPORT: the two sensors of the cold plate report, in 0.1 °C; a breach that begins sets `COOLANT`. -/
def execCoolantReport (inlet outlet : Int) (s : State) : Outcome :=
  let was : Bool := match s.readings.coolant with
    | [i, o] => coolantBreach i o
    | _ => false
  let s := { s with readings := { s.readings with coolant := [inlet, outlet] } }
  .next (if coolantBreach inlet outlet && !was then s.powerEvent 4 (tempValue (if 400 < inlet then inlet else outlet)) else s)

/-! ### The input (R381) -/

/-- Whether an input in mV lies in a band of Table 15-2 that sets `SUPPLY`. -/
def supplyBand (mv : Nat) : Nat := if 62000 < mv ∧ mv ≤ 66000 then 1 else if 40000 ≤ mv ∧ mv < 44000 then 2 else 0

/-- INPUT_VOLTAGE_MEASUREMENT: the input is measured, in mV (R381). Entering 62–66 V or 40–44 V sets `SUPPLY`; how long it has been in
36–40 V, and in 44–62 V, is noted for the lockout and the recovery from it. -/
def execInputVoltageMeasurement (mv : Nat) (s : State) : Outcome :=
  if s.supply = 0 then .next s
  else
    let (s, now) := s.sample
    let old := s.readings.vin
    let brown : Bool := decide (36000 ≤ mv) && decide (mv < 40000)
    let good : Bool := decide (44000 ≤ mv) && decide (mv ≤ 62000)
    let s := { s with
      readings := { s.readings with vin := mv }
      brownSince := if brown then some (s.brownSince.getD now) else none
      goodSince := if good then some (s.goodSince.getD now) else none }
    .next (if supplyBand mv ≠ 0 ∧ supplyBand mv ≠ supplyBand old then s.powerEvent 5 mv else s)

/-! ### Registers (Table 15-10) -/

/-- `PWR_GAL_STATUS` of a gallery. -/
def State.galReg (s : State) (g : Nat) : Nat :=
  let x := s.gal g
  if x.st = 0 then 0
  else
    x.st + 4 * b2n (decide (x.floorStep ≠ 0)) + 8 * x.duty + 2 ^ 8 * x.clock + 2 ^ 20 * x.limiter + 2 ^ 23 * b2n x.hit +
      2 ^ 32 * (x.pair % 2 ^ 32)

end Sys2Proof.Machine
end

