-- ==== Sys2Proof/Machine/Registers.lean ====
section
/-! DEFINITION. The registers of BAR0 (00_scope.md R7 to R12, 13_host_interface_attention.md R338 to R348, Table 13-2, and the register
maps of the chapters): what a read answers, what a write does, and the commands that write them. A write reaches the bits of a mask:
all 64, or one half (R12). -/

namespace Sys2Proof.Machine

open Sys2Proof

/-! ### Fields -/

/-- The value of an RW register after a write of v to the bits of mask m. -/
def mergeBits (old m v : Nat) : Nat := old - (old &&& m) + v

/-- A value with the bits that a W1C write names cleared. -/
def clearBits (old v : Nat) : Nat := old - (old &&& v)

/-- The bits lo to lo+len-1 as a mask. -/
def fieldMask (lo len : Nat) : Nat := (2 ^ len - 1) * 2 ^ lo

/-- A mask that reaches a register's low half. -/
def inLow (m : Nat) : Bool := bit m 0

/-! ### Identification, HOST and ATT blocks -/

/-- `ID_MODULE` (Table 0-3): Mitor's generations read zero until it is ready (R8). -/
def State.idModule (s : State) (fn : Nat) : Nat :=
  0x0160 + 2 ^ 16 * 0xB0 + 2 ^ 24 * 0x4341 + 2 ^ 40 * (if fn = 0 then 0 else 1) + 2 ^ 44 * fn +
    2 ^ 48 * (if s.mitorReady then 7 else 0)

/-- `HOST_APER` (Table 13-3). -/
def Func.aper (f : Func) : Nat := b2n f.aperEnable + 2 ^ 30 * f.aperBase

/-- The registers of the HOST block; none for an offset that is not assigned. -/
def State.readHost (s : State) (fn off : Nat) : Option Nat :=
  let f := s.func fn
  match off with
  | 0 => some f.aper
  | 8 => some (f.errKind + 4 * b2n f.errWrite + 8 * f.errCtx)
  | 16 => some f.errAddr
  | _ => none

def State.writeHost (s : State) (fn off m v : Nat) : Option State :=
  let f := s.func fn
  match off with
  | 0 =>
    let x := mergeBits f.aper m v
    some (s.setFunc fn { f with aperEnable := bit x 0, aperBase := bits x 30 18 })
  | 8 => some s
  | 16 => some s
  | _ => none

/-! ### Configuration space (Tables 0-2, 13-1)

The spec names the fields and prints no layout of theirs: the model numbers four 8-byte registers of each function, at offsets from 2^32 on (log
entry 53). -/

/-- Identification (Table 0-2). -/
def cfgId (fn : Nat) : Nat := Config.vendorId.toNat + 2 ^ 16 * (if fn = 0 then 0xE160 else 0xE161) + 2 ^ 32 * 0xB0 + 2 ^ 40 * 0x120000

/-- The logarithm of the aperture's size in GiB. -/
def Func.aperLog (f : Func) : Nat := Nat.log2 (f.aperSize / 2 ^ 30)

/-- What the host programs of a function: BME, MSI-X Enable, the vector's mask and Pending Bit, Max Payload Size and Max Read Request Size as
powers of two above 128, the BAR2 size and NumVFs, the Completion Timeout in µs, and the size that BAR2 reports, 0 where it is removed. -/
def State.cfgControl (s : State) (fn : Nat) : Nat :=
  let f := s.func fn
  b2n f.bme + 2 * b2n f.msixEnabled + 4 * b2n f.msixMasked + 8 * b2n f.msixPending + 2 ^ 4 * Nat.log2 (f.mps / 128) +
    2 ^ 8 * Nat.log2 (f.mrrs / 128) + 2 ^ 12 * f.aperLog + 2 ^ 16 * (if fn = 0 then s.numVfs else 0) + 2 ^ 20 * f.cplTimeoutUs +
    2 ^ 48 * (if f.aperRemoved then 0 else f.aperSize / 2 ^ 30)

/-- The configuration registers of a function: identification, the Device Serial Number, control, and the link's state. -/
def State.readCfg (s : State) (fn off : Nat) : Option Nat :=
  match off with
  | 0 => some (cfgId fn)
  | 8 => some Config.serial.toNat
  | 16 => some (s.cfgControl fn)
  | 24 => some (b2n s.linkUp + 2 ^ 4 * s.linkRate + 2 ^ 8 * s.linkWidth + 2 ^ 16 * b2n s.linkFlit + 2 ^ 17 * b2n s.sris)
  | _ => none

/-- A value where a check holds, else what was there: a host cannot program what the port does not implement (Table 13-1). -/
def orKeep (ok : Bool) (new old : Nat) : Nat := if ok then new else old

/-- What the host programs takes effect: messages that were held back by BME, the mask or the absence of a VF then leave (R345). -/
def State.writeCfg (s : State) (fn off m v : Nat) : Option State :=
  if off ≠ 16 then (if s.readCfg fn off = none then none else some s)
  else
    let x := mergeBits (s.cfgControl fn) m v
    let f := s.func fn
    let us := bits x 20 28
    let f := { f with
      bme := bit x 0, msixEnabled := bit x 1, msixMasked := bit x 2
      mps := orKeep (decide (bits x 4 4 ≤ 2)) (128 * 2 ^ bits x 4 4) f.mps
      mrrs := orKeep (decide (bits x 8 4 ≤ 5)) (128 * 2 ^ bits x 8 4) f.mrrs
      aperSize := orKeep (decide (bits x 12 4 ≤ 6) && !f.aperRemoved) (2 ^ 30 * 2 ^ bits x 12 4) f.aperSize
      cplTimeoutUs := orKeep (decide (50 ≤ us) && decide (us ≤ 64000000)) us f.cplTimeoutUs }
    let n := bits x 16 4
    let s := { s with numVfs := orKeep (decide (fn = 0) && decide (n ≤ 8)) n s.numVfs }.setFunc fn f
    some s.deliverAll

/-- `ATT_MODERATION` (Table 13-6). -/
def Func.moderation (f : Func) : Nat := f.modCount + 2 ^ 16 * f.modTime

/-- The bits of `ATT_SUMMARY` that a function has (Table 13-5). -/
def summaryMask (fn : Nat) : Nat := 0x3FF + (if fn = 0 then 0x70000 else 0)

/-- The block whose cause register stands at an offset of the ATT block (Table 13-4). -/
def causeAt (off : Nat) : Option Nat :=
  if off % 8 ≠ 0 then none
  else if 0x100 ≤ off ∧ off ≤ 0x148 then some ((off - 0x100) / 8)
  else if 0x180 ≤ off ∧ off ≤ 0x190 then some (16 + (off - 0x180) / 8)
  else none

/-- `INTA_MODE` (Table 13-6): INTA is in use by PF0 while MSI-X is disabled and `ATT_ENABLE` lets a summary bit raise it, so that it reads
0 at reset (DEDUCED, log entry 27). -/
def Func.intaMode (f : Func) (fn : Nat) : Bool := decide (fn = 0) && !f.msixEnabled && decide (f.enableMask ≠ 0)

/-- The registers of the ATT block. -/
def State.readAtt (s : State) (fn off : Nat) : Option Nat :=
  let f := s.func fn
  match causeAt off with
  | some b => some (s.causeReg fn b)
  | none =>
    match off with
    | 0x00 => some f.summary
    | 0x08 => some f.enableMask
    | 0x10 => some f.moderation
    | 0x18 => some 0
    | 0x20 => some (b2n f.armed + 2 * b2n (f.intaMode fn) + 4 * b2n f.asserted + 2 ^ 16 * f.events)
    | 0x28 => some (if fn = 0 then f.attnMask else 0)
    | 0x200 => some f.kftQueue
    | 0x208 => some (f.assoc % 2 ^ 64)
    | 0x210 => some (f.assoc / 2 ^ 64)
    | _ => none

/-- A write of v to the cause register of a block (R342, Table 13-4): a bit with nothing below it is W1C; a bit with bits below it clears
at once, and shows again only when one of them is set again. -/
def Func.clearCause (f : Func) (fn block v : Nat) : Func :=
  let hide : Func := { f with hidden := mset 0 f.hidden block (mget 0 f.hidden block ||| (v % 2 ^ 64)) }
  match block with
  | 0 => { f with ctxFault := clearBits f.ctxFault v }
  | 1 => { f with completion := clearBits f.completion v }
  | 3 => { f with mbx := clearBits f.mbx (if fn = 0 then v else v &&& 0b10011) }
  | 4 => { f with seg := clearBits f.seg v }
  | 7 => { f with host := clearBits f.host v }
  | 8 => { f with ras := clearBits f.ras v }
  | 9 => { f with event := clearBits f.event v }
  | 16 => if fn = 0 then hide else f
  | 17 => if fn = 0 then { hide with
      hidden := mset 0 f.hidden 17 (mget 0 f.hidden 17 ||| (v % 256)), retireWait := f.retireWait && !bit v 8 } else f
  | 18 => if fn = 0 then { f with power := clearBits f.power v } else f
  | _ => hide

/-- The part of a W1C mask that names bits which read one now; the others hide nothing. -/
def State.setBelow (s : State) (fn block v : Nat) : Nat := v &&& s.causeReg fn block

/-- A write of `ATT_REARM` (R345): `ARMED` is set. Under MSI-X the window starts now, and where the function is pending `EVENTS` is at
least 1; under INTA the write has no effect (R346). -/
def State.rearm (s : State) (fn : Nat) : State :=
  let (s, now) := s.sample
  let f := s.func fn
  if f.msixEnabled then
    let events := if f.pendingNow && decide (f.events = 0) then 1 else f.events
    (s.setFunc fn { f with armed := true, events, winStart := some now }).deliver fn
  else if fn = 0 then s
  else s.setFunc fn { f with armed := true }

/-- A write of `ATT_ENABLE`: under INTA a function that it makes pending starts its time bound now (R346). -/
def State.writeEnable (s : State) (fn m v : Nat) : State :=
  let (s, now) := s.sample
  let f := s.func fn
  let g := { f with enableMask := mergeBits f.enableMask m v &&& summaryMask fn }
  let starts := !f.msixEnabled && !f.pendingNow && g.pendingNow && g.winStart.isNone
  (s.setFunc fn { g with winStart := if starts then some now else g.winStart }).deliver fn

def State.writeAtt (s : State) (fn off m v : Nat) : Option State :=
  let f := s.func fn
  match causeAt off with
  | some b => some ((s.setFunc fn (f.clearCause fn b (s.setBelow fn b v))).settle fn)
  | none =>
    match off with
    | 0x00 => some (((s.setFunc fn { f with summary := clearBits f.summary v }).deliver fn).driveAttn)
    | 0x08 => some (s.writeEnable fn m v)
    | 0x10 =>
      let x := mergeBits f.moderation m v
      some ((s.setFunc fn { f with modCount := bits x 0 16, modTime := bits x 16 32 }).deliver fn)
    | 0x18 => some (if bit v 0 then s.rearm fn else s)
    | 0x20 => some s
    | 0x28 => some (if fn = 0 then (s.setFunc 0 { f with attnMask := mergeBits f.attnMask m v &&& summaryMask 0 }).driveAttn else s)
    | 0x200 => some ((s.setFunc fn { f with kftQueue := clearBits f.kftQueue v }).settle fn)
    | 0x208 => some ((s.setFunc fn { f with assoc := clearBits f.assoc v }).settle fn)
    | 0x210 => some ((s.setFunc fn { f with assoc := clearBits f.assoc (v * 2 ^ 64) }).settle fn)
    | _ => none

/-! ### Mailboxes (R352, R353) -/

/-- The mailbox path of a window that a function has (Table 14-1), and whether it is the response window. -/
def mboxWindow (fn off : Nat) : Option (Nat × Bool) :=
  match (off - 0x10000) / 0x1000 with
  | 0 => some (fn, false)
  | 1 => some (fn, true)
  | 2 => if fn = 0 then some (9, false) else none
  | 3 => if fn = 0 then some (9, true) else none
  | 4 => if fn = 0 then some (10, false) else none
  | 5 => if fn = 0 then some (10, true) else none
  | _ => none

/-- Eight bytes of a message area at an offset. -/
def areaWord (m : Map Byte) (k : Nat) : Nat := ofBytes ((List.range 8).map (fun i => mget 0 m (k + i)))

/-- Writes the bytes of a masked word into a message area. -/
def areaWrite (a : Map Byte) (k m v : Nat) : Map Byte :=
  (List.range 8).foldl (fun a i => if bit m (8 * i) then mset 0 a (k + i) (BitVec.ofNat 8 (bits v (8 * i) 8)) else a) a

def State.readMbx (s : State) (fn off : Nat) : Option Nat :=
  match mboxWindow fn off with
  | none => none
  | some (p, resp) =>
    let x := s.mbox p
    let o := off % 0x1000
    if 0x100 ≤ o then some (areaWord (if resp then x.respArea else x.area) (o - 0x100))
    else if o ≠ 0 then none
    else if resp then some (b2n x.respPost + 4 * x.respLen)
    else some (b2n x.post + 2 * b2n x.owner + 4 * x.len + 2 ^ 14 * b2n x.reject)

/-- A write of `MBX_REQ_STATUS` (Table 14-2, R353). -/
def Mailbox.postWrite (x : Mailbox) (m v : Nat) : Mailbox :=
  if x.owner = true then { x with reject := true }
  else if inLow m = false then x
  else if bit v 0 = true ∧ x.post = true then { x with reject := true }
  else { x with post := x.post || bit v 0, len := bits v 2 12, reject := x.reject && !bit v 14 }

def State.writeMbx (s : State) (fn off m v : Nat) : Option State :=
  match mboxWindow fn off with
  | none => none
  | some (p, resp) =>
    let x := s.mbox p
    let o := off % 0x1000
    if 0x100 ≤ o then
      if resp then some s
      else if x.owner then some (s.setMbox p { x with reject := true })
      else some (s.setMbox p { x with area := areaWrite x.area (o - 0x100) m v })
    else if o ≠ 0 then none
    else if resp then some (s.setMbox p { x with respPost := x.respPost && !bit v 0 })
    else some (s.setMbox p (x.postWrite m v))

/-! ### Contexts and landings -/

/-- Whether a function owns a context (R39). -/
def State.ownsCtx (s : State) (fn n : Nat) : Bool := decide ((s.ctx n).state ≠ .free) && decide ((s.ctx n).fn = fn)

/-- The registers of a context's block (Tables 2-10, 2-11, 2-13, 11-4). -/
def Ctx.reg (c : Ctx) (off : Nat) : Option Nat :=
  if 0x1000 ≤ off then
    let e := mget ({} : LogEntry) c.log ((off - 0x1000) / 16)
    some (if off % 16 = 0 then e.tag + 2 ^ 32 * e.reason + 2 ^ 40 * e.opcode + 2 ^ 48 * e.depth else e.offset)
  else
    match off with
    | 0x00 => some (c.state.code + 8 * b2n c.logNew + 2 ^ 8 * c.faultStatus + 2 ^ 24 * c.faultTag)
    | 0x08 => some c.accepted
    | 0x10 => some c.consumed
    | 0x18 => some c.discarded
    | 0x20 => some c.logHead
    | 0x28 => some c.squashes
    | 0x30 => some 0
    | 0x38 => some (xltStatus c)
    | _ => none

def State.readCtx (s : State) (fn n off : Nat) : Option Nat := if s.ownsCtx fn n then (s.ctx n).reg off else some 0

def State.writeCtx (s : State) (fn n off v : Nat) : Option State :=
  let c := s.ctx n
  if s.ownsCtx fn n = false ∨ c.reg off = none then none
  else
    match off with
    | 0x00 => some (if bit v 3 then (s.setCtx n { c with logNew := false }).settle fn else s)
    | 0x30 => some (s.xltWrite n v)
    | 0x38 => some (if bit v 32 then s.setCtx n { c with xltReject := false } else s)
    | _ => some s

/-- The LDG block of a context is read-only (R281). -/
def State.readLdg (s : State) (fn n off : Nat) : Nat :=
  if s.ownsCtx fn n then (if off < 0x2000 then s.ldgMapReg n (off / 8) else s.ldgStateReg n ((off - 0x2000) / 8)) else 0

/-! ### Gallery caches, HBM and fabric -/

/-- Whether a function is the operator's for the partition that holds a gallery. -/
def State.opOfGallery (s : State) (fn g : Nat) : Bool :=
  match s.partOfGallery g with
  | some q => decide (s.fnOf q = fn)
  | none => false

def State.readGc (s : State) (fn g off : Nat) : Option Nat :=
  if off ≠ 0 ∧ off ≠ 8 ∧ off ≠ 16 then (if fn = 0 ∨ s.opOfGallery fn g = true then none else some 0)
  else if fn = 0 ∨ s.opOfGallery fn g = true then some (s.gcRead g off)
  else some 0

def State.writeGc (s : State) (fn g off m v : Nat) : Option State :=
  if s.opOfGallery fn g then
    match off with
    | 0 => some (if inLow m then s.gcCtrl g v else s)
    | 8 => some (s.gcStatus g v)
    | 16 => some (if inLow m then s.gcWays g v else s)
    | _ => none
  else if fn = 0 ∧ off ≠ 0 ∧ off ≠ 8 ∧ off ≠ 16 then none
  else some s

/-- `HBM_REG_CFG` (Table 9-4): an operator reads its own partition's entries. -/
def State.readRegCfg (s : State) (fn off : Nat) : Option Nat :=
  let r := off / 0x80
  let q := off % 0x80 / 8
  if 24 ≤ r ∨ 8 < q then none
  else if fn = 0 ∨ (q < 8 ∧ (s.part q).live = true ∧ s.fnOf q = fn) then some (s.bucketReg (16 * r + q))
  else some 0

/-- The HBMS block (Tables 9-6, 9-7). -/
def State.readHbms (s : State) (fn off : Nat) : Option Nat :=
  if off = 0x1000 then
    let own := decide (fn = 0) || ((s.part (s.migPart % 8)).live && decide (s.fnOf (s.migPart % 8) = fn))
    some (if own then s.migReg else 0)
  else if off < 0x800 ∧ off % 0x100 = 0 then some (if fn = 0 then s.stackReg (off / 0x100) else 0)
  else none

def State.writeHbms (s : State) (fn off v : Nat) : Option State :=
  if s.readHbms fn off = none then none
  else if fn = 0 ∧ off ≠ 0x1000 ∧ bit v 12 = true then
    let k := off / 0x100
    some ((s.setStack k { s.stack k with hot := false }).settle 0)
  else some s

/-- A FAB block (Tables 12-9 to 12-11). -/
def State.readFab (s : State) (fn p off : Nat) : Option Nat :=
  if off = 0 then some (if fn = 0 then s.fabStatus p else 0)
  else if off = 8 then some (if fn = 0 then mget 0 s.portEvents p else 0)
  else if 0x100 ≤ off ∧ off < 0x300 then some (if fn = 0 then s.fabCounter p ((off - 0x100) / 0x80) ((off - 0x100) % 0x80 / 8) else 0)
  else none

def State.writeFab (s : State) (fn p off v : Nat) : Option State :=
  if s.readFab fn p off = none then none
  else if fn = 0 ∧ off = 8 then
    some ({ s with portEvents := mset 0 s.portEvents p (clearBits (mget 0 s.portEvents p) v) }.settle 0)
  else some s

/-- The FABA block (Table 12-12). -/
def State.readFaba (s : State) (fn off : Nat) : Option Nat :=
  if 0x20 ≤ off % 0x40 then none
  else
    let a := off / 0x40
    let x := s.assoc a
    some (if fn = 0 ∨ (x.live = true ∧ s.fnOf x.part = fn) then s.assocReg a (off % 0x40 / 8) else 0)

/-! ### Core debug windows (Table 17-1) -/

/-- The free-running time of a gallery's counters (R422), which its bank has counted up to. -/
def State.tickGal (s : State) (g : Nat) : State :=
  let b := s.galBank g
  let t := 2 * s.now
  let old := b.lastStart.getD 0
  if t ≤ old then s else s.setGalBank g { b.tick old t with lastStart := some t }

/-- The COX block (Tables 6-11 to 6-13). -/
def State.readCox (s : State) (core off : Nat) : Option Nat :=
  let q := (s.core core).seq
  if 0x1000 ≤ off then
    let e := mget ({} : CoxEntry) q.log ((off - 0x1000) / 32)
    some (if e.kind = 0 then 0
      else match off % 32 / 8 with
        | 0 => e.stroke % 2 ^ 40 + 2 ^ 40 * (e.pc % 2 ^ 11) + 2 ^ 51 * e.slot + 2 ^ 54 * e.kind
        | 1 => e.layer + 2 ^ 16 * e.oper + 2 ^ 32 * e.reason
        | 2 => e.w2
        | _ => e.w3)
  else
    match off with
    | 0 => some q.status
    | 8 => some q.logHead
    | 16 =>
      let waits := match q.ywait with | .registered _ _ => true | _ => false
      let held := q.active && decide ((s.gal (galleryOf core)).duty < 16) && decide (Config.choice s.free % 2 = 1)
      some (q.pc % 2 ^ 11 + 2 ^ 11 * b2n (q.active || q.draining) + 2 ^ 12 * b2n waits + 2 ^ 13 * b2n held + 2 ^ 14 * b2n q.draining +
        2 ^ 24 * (q.stroke % 2 ^ 40))
    | _ => none

/-- The FDMA block (Table 8-4). -/
def Engine.reg (e : Engine) (off : Nat) : Option Nat :=
  match off with
  | 0 => some (b2n e.badDesc + 2 ^ 8 * e.reason + 2 ^ 16 * min 16 e.queue.length + 2 ^ 32 * e.badCount)
  | 8 => some e.badAddr
  | _ => none

/-- A counter bank's registers (Tables 17-2, 17-5). -/
def Bank.reg (b : Bank) (off : Nat) : Option Nat :=
  let k := mget ({} : Counter) b.ctrs (off % 0x80 / 8)
  if off < 0x80 then some k.cfg
  else if off = 0x80 then some 0
  else if off < 0x100 then none
  else if off < 0x180 then some k.snapValue
  else if off < 0x200 then some k.snapTag
  else none

/-- Trace control (Table 17-8). -/
def Trace.ctrl (t : Trace) : Nat := b2n t.enable + 2 * t.mask + 2 ^ 16 * t.ctx
def Trace.ring (t : Trace) : Nat := t.log2 + t.base
def Trace.reg (t : Trace) (off : Nat) : Option Nat :=
  match off with
  | 0x00 => some t.ctrl
  | 0x08 => some t.ring
  | 0x10 => some (t.written + 2 ^ 32 * b2n t.fault)
  | 0x18 => some t.drops
  | _ => none

/-- A crew's state as Table 17-9 codes it. -/
def CrewState.code : CrewState → Nat
  | .running => 1
  | .waiting => 2
  | .halted => 3
  | .faulted => 4

/-- A word of a crew entry (Table 17-9); an empty slot reads zero. -/
def State.crewWord (s : State) (core key w : Nat) : Nat :=
  match s.crew core key with
  | none => 0
  | some c =>
    let (tag, pair) := match s.launch c.launch with
      | some l => (match s.pkt l.ctx l.pid with | some p => p.tag | none => 0, pairOf l.layer l.oper)
      | none => (0, 0)
    let (pc, mask) := c.path.getD (0, 0)
    let faulted := decide (c.state = .faulted)
    match w with
    | 0 => c.state.code + 8 * Nat.log2 (c.width / 16) + 2 ^ 8 * tag + 2 ^ 40 * c.ctx
    | 1 => pc
    | 2 => mask
    | 3 => if faulted then c.fault.code % 256 + 2 ^ 8 * c.fault.thread else 0
    | 4 => c.fault.pc
    | 5 => c.fault.addr
    | 6 => c.stack.length + 2 ^ 8 * c.bb + 2 ^ 16 * (c.age % 2 ^ 32)
    | _ => pair

/-- The registers of a core's window by the blocks of Table 17-1; none where the table assigns nothing. -/
def State.windowReg (s : State) (core off : Nat) : Option Nat :=
  let g := galleryOf core
  if off = 0 then some (s.core core).array.status
  else if 0x2000 ≤ off ∧ off < 0x4000 then s.readCox core (off - 0x2000)
  else if 0x4000 ≤ off ∧ off < 0x5000 then (s.core core).engine.reg (off - 0x4000)
  else if off = 0x5000 then some (s.galReg g)
  else if 0x6000 ≤ off ∧ off < 0x6800 then (s.coreBank core).reg (off - 0x6000)
  else if 0x6800 ≤ off ∧ off < 0x7000 then (s.galBank g).reg (off - 0x6800)
  else if 0x7000 ≤ off ∧ off < 0x7800 then (s.trc core).reg (off - 0x7000)
  else if 0x7800 ≤ off ∧ off < 0x8000 then (s.trc (1000 + g)).reg (off - 0x7800)
  else if 0x8000 ≤ off ∧ off < 0xB000 then some (s.crewWord core ((off - 0x8000) / 0x40) (off % 0x40 / 8))
  else none

/-- The window of a core (R418): the operator and the installer read it; a gallery that is Off reads zero. -/
def State.readWindow (s : State) (fn core off : Nat) : Option Nat :=
  if fn = 0 ∨ s.opOfGallery fn (galleryOf core) = true then
    match s.windowReg core off with
    | some v => some (if (s.gal (galleryOf core)).st = 0 then 0 else v)
    | none => none
  else some 0

/-- A `CTR_CFG` write (R420, R422): a reserved `EVENT` is ignored in full; otherwise the counter is configured and starts at zero. A
gallery's `SOURCE` and `PER_CMD` are reserved. -/
def Bank.configure (b : Bank) (gallery : Bool) (i m v : Nat) : Bank :=
  let k := mget ({} : Counter) b.ctrs i
  let keep := if gallery then 0x0000FFFFFFFF18FF else 0x0000FFFFFFFF1FFF
  let x := mergeBits k.cfg m v &&& keep
  if (if gallery then 0x0B else 0x16) < x % 256 then b
  else { b with ctrs := mset {} b.ctrs i { cfg := x, snapValue := k.snapValue, snapTag := k.snapTag } }

/-- The events of a core that time alone counts and the model does not follow: cycles withheld by a limiter, and filler (log entry 2). -/
def coreTimeEvents : List Nat := [0x04, 0x05, 0x06, 0x07, 0x08, 0x09]
def galTimeEvents : List Nat := [0x05, 0x09, 0x0A]

/-- Samples a core's bank (R424). -/
def State.sampleCore (s : State) (core : Nat) : State :=
  let (s, t) := s.sampleClock core
  let seed := s.free
  let s := { s with free := s.free + 16 }
  s.setCoreBank core (((s.coreBank core).addFree coreTimeEvents t seed).sampled t)

/-- Samples a gallery's bank: its `BOUNDARY` bits always read 0. -/
def State.sampleGal (s : State) (g : Nat) : State :=
  let (s, _) := s.sample
  let s := s.tickGal g
  let seed := s.free
  let s := { s with free := s.free + 16 }
  let b := (s.galBank g).addFree galTimeEvents (2 * s.now) seed
  s.setGalBank g { b.sampled (2 * s.now) with lastPair := 0 }

/-- A `TRC_CTRL` write (R428): one that sets `ENABLE` with a ring size outside 6 to 20, or a context that is not the partition's, is
ignored in full; enabling starts `SEQ`, `WRITTEN` and the drops at zero. -/
def State.trcCtrl (s : State) (b q m v : Nat) : State :=
  let t := s.trc b
  let x := mergeBits t.ctrl m v
  let c := bits x 16 6
  let wrong := decide (t.log2 < 6) || decide (20 < t.log2) || decide ((s.ctx c).state = .free) || decide ((s.ctx c).part ≠ q)
  if bit v 0 && wrong then s
  else if bit x 0 && !t.enable then
    s.setTrc b { t with enable := true, mask := bits x 1 8, ctx := c, written := 0, seq := 0, drops := 0, owedDrops := 0, recs := [] }
  else s.setTrc b { t with enable := bit x 0, mask := bits x 1 8, ctx := c }

/-- A `TRC_RING` write, ignored while `ENABLE` = 1. -/
def Trace.setRing (t : Trace) (m v : Nat) : Trace :=
  if t.enable then t
  else
    let x := mergeBits t.ring m v
    { t with log2 := bits x 0 5, base := bits x 12 36 * 4096 }

/-- A write of FDMA_STATUS: `BAD_DESC` clears with what it recorded (R220). -/
def Engine.statusWrite (e : Engine) (v : Nat) : Engine :=
  if bit v 0 then { e with badDesc := false, reason := 0, badCount := 0, badAddr := 0 } else e

/-- A write of a counter bank's register. -/
def State.writeBank (s : State) (core : Nat) (gallery : Bool) (off m v : Nat) : State :=
  let g := galleryOf core
  if off < 0x80 then
    if gallery then
      let s := (s.sample.1).tickGal g
      s.setGalBank g ((s.galBank g).configure true (off / 8) m v)
    else
      let s := (s.sampleClock core).1
      s.setCoreBank core ((s.coreBank core).configure false (off / 8) m v)
  else if off = 0x80 ∧ bit v 0 = true then (if gallery then s.sampleGal g else s.sampleCore core)
  else s

/-- A write of a trace control register of buffer b of partition q. -/
def State.writeTrc (s : State) (b q off m v : Nat) : State :=
  match off with
  | 0x00 => s.trcCtrl b q m v
  | 0x08 => s.setTrc b ((s.trc b).setRing m v)
  | 0x10 => if bit v 32 then s.setTrc b { s.trc b with fault := false } else s
  | _ => s

/-- A write of a core's window (R418): the operator's takes effect, the installer's is ignored, another function's is recorded. -/
def State.writeWindow (s : State) (fn core off m v : Nat) : Option State :=
  let g := galleryOf core
  match s.partOfGallery g with
  | some q =>
    if s.fnOf q ≠ fn then (if fn = 0 then (s.windowReg core off).map (fun _ => s) else none)
    else if s.windowReg core off = none then none
    else if off = 0x4000 then some (s.modCore core (fun k => { k with engine := k.engine.statusWrite v }))
    else if 0x6000 ≤ off ∧ off < 0x6800 then some (s.writeBank core false (off - 0x6000) m v)
    else if 0x6800 ≤ off ∧ off < 0x7000 then some (s.writeBank core true (off - 0x6800) m v)
    else if 0x7000 ≤ off ∧ off < 0x7800 then some (s.writeTrc core q (off - 0x7000) m v)
    else if 0x7800 ≤ off ∧ off < 0x8000 then some (s.writeTrc (1000 + g) q (off - 0x7800) m v)
    else some s
  | none => if fn = 0 then (s.windowReg core off).map (fun _ => s) else none

/-! ### BAR0 -/

/-- The blocks of Table 13-2. -/
inductive Block where
  | id
  | host
  | att
  | mbx
  | ctx (n : Nat)
  | ldg (n : Nat)
  | gc (g : Nat)
  | hbmr
  | hbms
  | fab (p : Nat)
  | faba
  | ingress (n : Nat)
  | core (c : Nat)
  | cfg
  | reserved
  deriving DecidableEq, Repr

/-- Where a BAR0 offset lies: its block, and the offset in the block (for a mailbox, in BAR0). From 2^32 on lie the configuration registers. -/
def blockAt (off : Nat) : Block × Nat :=
  if off < 8 then (.id, off)
  else if 0x4000 ≤ off ∧ off < 0x5000 then (.host, off - 0x4000)
  else if 0x8000 ≤ off ∧ off < 0x9000 then (.att, off - 0x8000)
  else if 0x10000 ≤ off ∧ off < 0x16000 then (.mbx, off)
  else if 0x1000000 ≤ off ∧ off < 0x1080000 then (.ctx ((off - 0x1000000) / 0x2000), off % 0x2000)
  else if 0x1400000 ≤ off ∧ off < 0x1500000 then (.ldg ((off - 0x1400000) / 0x4000), off % 0x4000)
  else if 0x1800000 ≤ off ∧ off < 0x1814000 then (.gc ((off - 0x1800000) / 0x1000), off % 0x1000)
  else if 0x1C00000 ≤ off ∧ off < 0x1C01000 then (.hbmr, off - 0x1C00000)
  else if 0x1C10000 ≤ off ∧ off < 0x1C12000 then (.hbms, off - 0x1C10000)
  else if 0x1D00000 ≤ off ∧ off < 0x1D08000 then (.fab ((off - 0x1D00000) / 0x1000), off % 0x1000)
  else if 0x1D10000 ≤ off ∧ off < 0x1D12000 then (.faba, off - 0x1D10000)
  else if 0x2000000 ≤ off ∧ off < 0x2400000 then (.ingress ((off - 0x2000000) / 0x10000), off % 0x10000)
  else if 0x2800000 ≤ off ∧ off < 0x3200000 then (.core ((off - 0x2800000) / 0x10000), off % 0x10000)
  else if 2 ^ 32 ≤ off ∧ off < 2 ^ 32 + 32 then (.cfg, off - 2 ^ 32)
  else (.reserved, off)

/-- Whether a VF has no partition: all but ID, ATT and mailbox is then dead (R337). -/
def State.deadVf (s : State) (fn : Nat) : Bool := decide (fn ≠ 0) && !(s.part (fn - 1)).live

/-- What a read of the register at an 8-byte aligned offset answers a function: offsets that are not assigned read zero (R339). -/
def State.readReg (s : State) (fn off : Nat) : Nat :=
  let (b, o) := blockAt off
  match b with
  | .id => s.idModule fn
  | .att => (s.readAtt fn o).getD 0
  | .mbx => (s.readMbx fn o).getD 0
  | .cfg => (s.readCfg fn o).getD 0
  | .reserved => 0
  | .ingress _ => 0
  | b =>
    if s.deadVf fn then 0
    else match b with
      | .host => (s.readHost fn o).getD 0
      | .ctx n => (s.readCtx fn n o).getD 0
      | .ldg n => s.readLdg fn n o
      | .gc g => (s.readGc fn g o).getD 0
      | .hbmr => (s.readRegCfg fn o).getD 0
      | .hbms => (s.readHbms fn o).getD 0
      | .fab p => (s.readFab fn p o).getD 0
      | .faba => (s.readFaba fn o).getD 0
      | .core c => (s.readWindow fn c o).getD 0
      | _ => 0

/-- What a write of v to the bits m of the register at an 8-byte aligned offset does; none where it is discarded and recorded as
`REG_ACCESS` (R39, R339, R418). A write to an owned ingress window is a part of a granule (R41). -/
def State.writeReg (s : State) (fn off m v : Nat) : Option State :=
  let (b, o) := blockAt off
  match b with
  | .id => some s
  | .att => s.writeAtt fn o m v
  | .mbx => s.writeMbx fn o m v
  | .cfg => s.writeCfg fn o m v
  | .reserved => none
  | b =>
    if s.deadVf fn then some s
    else match b with
      | .host => s.writeHost fn o m v
      | .ctx n => s.writeCtx fn n o v
      | .ldg n => if s.ownsCtx fn n then some s else none
      | .gc g => s.writeGc fn g o m v
      | .hbmr => if s.readRegCfg fn o = none then none else some s
      | .hbms => s.writeHbms fn o v
      | .fab p => s.writeFab fn p o v
      | .faba => if s.readFaba fn o = none then none else some s
      | .ingress n =>
        let c := s.ctx n
        if c.state ≠ .free ∧ c.fn ≠ fn then none
        else
          let lo := if inLow m then 0 else 4
          some (if s.removalPrepared then s else s.partialGranule n ((o + lo) / 64 * 64) (if m = 2 ^ 64 - 1 then 8 else 4))
      | .core c => s.writeWindow fn c o m v
      | _ => none

/-- Whether an access is an aligned 8-byte or 4-byte access (R12). -/
def accAligned (a : HostAccess) : Bool :=
  (decide (a.size = 8) && decide (a.off % 8 = 0)) || (decide (a.size = 4) && decide (a.off % 4 = 0))

/-- The bits that an aligned access reaches, and its data in their place. -/
def accMask (a : HostAccess) : Nat :=
  if a.size = 8 then 2 ^ 64 - 1 else if a.off % 8 = 0 then 2 ^ 32 - 1 else (2 ^ 32 - 1) * 2 ^ 32

def accValue (a : HostAccess) : Nat :=
  if a.size = 8 then a.data % 2 ^ 64 else if a.off % 8 = 0 then a.data % 2 ^ 32 else a.data % 2 ^ 32 * 2 ^ 32

/-- What a register write does, if the module does not discard and record it. -/
def State.tryWrite (s : State) (a : HostAccess) : Option State :=
  if a.fn ≤ 8 ∧ (accAligned a) = true then s.writeReg a.fn (a.off / 8 * 8) (accMask a) (accValue a) else none

/-- A discarded access is recorded (R12, R39, R339). -/
def State.badAccess (s : State) (a : HostAccess) (write : Bool) : State := s.hostError a.fn 1 write 0 a.off

/-- A register write of a function. -/
def State.regWrite (s : State) (a : HostAccess) : State :=
  match s.tryWrite a with
  | some s => s
  | none => s.badAccess a true

/-! ### The commands -/

/-- REGISTER_WRITE (R9 to R12). -/
def execRegisterWrite (a : HostAccess) (s : State) : Outcome := if 8 < a.fn ∨ s.served = false then .next s else .next (s.regWrite a)

/-- BAD_REGISTER_ACCESS: an access that is not aligned, or a write that no register takes, is recorded; a read then answers zero. An
access that is none of these is made as it is: a read answers the register's value. -/
def execBadRegisterAccess (a : HostAccess) (write : Bool) (s : State) : Outcome :=
  if 8 < a.fn ∨ s.served = false then .next s
  else if write then
    match s.tryWrite a with
    | some _ => .next s
    | none => .next (s.badAccess a true)
  else if (accAligned a) then
    let v := s.readReg a.fn (a.off / 8 * 8)
    .next (s.emit (.regData a.fn (if a.size = 8 then v else if a.off % 8 = 0 then v % 2 ^ 32 else v / 2 ^ 32)))
  else .next ((s.badAccess a false).emit (.regData a.fn 0))

/-- A write of the register that a command names; another write is no such command. -/
def State.regRow (s : State) (a : HostAccess) (due : Bool) : Outcome :=
  if decide (a.fn ≤ 8) && s.served && (accAligned a) && due then .next (s.regWrite a) else .next s

/-- Whether an access reaches the register at an offset of a kind of block. -/
def accHits (a : HostAccess) (kind : Block → Bool) (o : Nat) : Bool :=
  let (b, x) := blockAt (a.off / 8 * 8)
  kind b && decide (x = o)

def isGc : Block → Bool
  | .gc _ => true
  | _ => false
def isCtx : Block → Bool
  | .ctx _ => true
  | _ => false
def isCore : Block → Bool
  | .core _ => true
  | _ => false
def isAtt : Block → Bool
  | .att => true
  | _ => false

/-- Whether an access reaches a register of a bank or of trace control: the offset in the window less the base lies in a range. -/
def accInWindow (a : HostAccess) (base len : Nat) : Bool :=
  let (b, x) := blockAt (a.off / 8 * 8)
  isCore b && decide (base ≤ x) && decide (x < base + len)

/-- GC_ENABLE: writing `ENABLE` = 1 enables an invalidated slice, or is rejected (R228). -/
def execGcEnable (a : HostAccess) (s : State) : Outcome :=
  s.regRow a (accHits a isGc 0 && inLow (accMask a) && bit (accValue a) 0)

/-- GC_DISABLE: writing `ENABLE` = 0 begins to write the slice back and invalidate it. -/
def execGcDisable (a : HostAccess) (s : State) : Outcome :=
  s.regRow a (accHits a isGc 0 && inLow (accMask a) && !bit (accValue a) 0)

/-- GC_INVALIDATE: writing `INVALIDATE` invalidates a disabled slice, or is rejected. -/
def execGcInvalidate (a : HostAccess) (s : State) : Outcome :=
  s.regRow a (accHits a isGc 0 && inLow (accMask a) && bit (accValue a) 1)

/-- GC_WAYS_WRITE (R229). -/
def execGcWaysWrite (a : HostAccess) (s : State) : Outcome := s.regRow a (accHits a isGc 16)

/-- BAD_DESC_CLEAR (R220). -/
def execBadDescClear (a : HostAccess) (s : State) : Outcome := s.regRow a (accHits a isCore 0x4000 && bit (accValue a) 0)

/-- XLT_INV_CONTEXT: `XLT_INV` with `KIND` 0 (R294, R295). -/
def execXltInvContext (a : HostAccess) (s : State) : Outcome := s.regRow a (accHits a isCtx 0x30 && decide (bits (accValue a) 0 2 = 0))

/-- XLT_INV_PAGE: `XLT_INV` with `KIND` 1. -/
def execXltInvPage (a : HostAccess) (s : State) : Outcome := s.regRow a (accHits a isCtx 0x30 && decide (bits (accValue a) 0 2 = 1))

/-- ATT_SUMMARY_WRITE (R342). -/
def execAttSummaryWrite (a : HostAccess) (s : State) : Outcome := s.regRow a (accHits a isAtt 0)

/-- ATT_REARM (R345). -/
def execAttRearm (a : HostAccess) (s : State) : Outcome := s.regRow a (accHits a isAtt 0x18 && bit (accValue a) 0)

/-- CTR_CFG_WRITE (R420, R422). -/
def execCtrCfgWrite (a : HostAccess) (s : State) : Outcome := s.regRow a (accInWindow a 0x6000 0x80 || accInWindow a 0x6800 0x80)

/-- CTR_SAMPLE (R424). -/
def execCtrSample (a : HostAccess) (s : State) : Outcome := s.regRow a (accHits a isCore 0x6080 && bit (accValue a) 0)

/-- GCTR_SAMPLE (R424). -/
def execGctrSample (a : HostAccess) (s : State) : Outcome := s.regRow a (accHits a isCore 0x6880 && bit (accValue a) 0)

/-- TRC_CTRL_WRITE (R428). -/
def execTrcCtrlWrite (a : HostAccess) (s : State) : Outcome := s.regRow a (accHits a isCore 0x7000 || accHits a isCore 0x7800)

/-- TRC_RING_WRITE (R428). -/
def execTrcRingWrite (a : HostAccess) (s : State) : Outcome := s.regRow a (accHits a isCore 0x7008 || accHits a isCore 0x7808)

/-- Whether an access reaches the status register of a request or a response window. -/
def accMboxStatus (a : HostAccess) (resp : Bool) : Bool :=
  let o := a.off / 8 * 8
  match blockAt o with
  | (.mbx, _) => decide (o % 0x1000 = 0) && decide (o / 0x1000 % 2 = b2n resp)
  | _ => false

/-- REQUEST_POST (R353). -/
def execRequestPost (a : HostAccess) (s : State) : Outcome := s.regRow a (accMboxStatus a false)

/-- RESPONSE_RELEASE (R353). -/
def execResponseRelease (a : HostAccess) (s : State) : Outcome := s.regRow a (accMboxStatus a true && bit (accValue a) 0)

/-! ### Draining a trace buffer (R427, R428) -/

/-- Writes records to the ring in order; answers those not written and the status that stopped the drain. -/
def State.drainRecs (s : State) (b : Nat) : List (List Byte) → State × List (List Byte) × Option Nat
  | [] => (s, [], none)
  | r :: rs =>
    let t := s.trc b
    let die := if b < 1000 then b / 40 else (b - 1000) / 5
    let cache := if b < 1000 then b else b
    let w : Requester := { cache, master := .io die, ctx := t.ctx }
    match s.vaWrite w (t.base + 32 * (t.written % 2 ^ t.log2)) r with
    | (s, .ok _) => (s.setTrc b { s.trc b with written := (t.written + 1) % 2 ^ 32 }).drainRecs b rs
    | (s, .poison _) => (s, r :: rs, some 0x12)
    | (s, _) => (s, r :: rs, some 0x11)

/-- TRACE_DRAIN: a buffer with 8 records, or whose oldest record is 1 µs old, drains to its ring; a fault stops it (R428). -/
def execTraceDrain (buffer : Nat) (s : State) : Outcome := s.waits <|
  let t := s.trc buffer
  if t.enable = false ∨ t.recs = [] then .next s
  else
    let oldest := field (t.recs.headD []) 0 8
    let s := if t.recs.length < 8 then s.until (oldest + 1000) else s
    match s.drainRecs buffer t.recs with
    | (s, _, none) => .next (s.setTrc buffer { s.trc buffer with recs := [] })
    | (s, left, some st) =>
      let s := s.setTrc buffer { s.trc buffer with
        recs := [], enable := false, fault := true, drops := ((s.trc buffer).drops + left.length) % 2 ^ 64 }
      .next (s.logEvent (s.ctx t.ctx).fn 4 (toBytes 2 (buffer % 1000) ++ toBytes 1 (buffer / 1000) ++ toBytes 1 t.ctx ++ toBytes 2 st))

end Sys2Proof.Machine
end

