-- ==== Sys2Proof/Machine/Requests.lean ====
section
/-! DEFINITION. Mitor's own commands (14_mitor_management.md): taking requests (R353, R355), the configuration store (R369, R370), what
the module tells of itself (R362, R363, R366, R379, R400, R424), keys (R358 to R361), the maker (R373, R374), firmware (R376, R377)
and the audit log (R371). -/

namespace Sys2Proof.Machine

open Sys2Proof

/-! ### Taking requests -/

/-- Whether Mitor serves mailboxes and the sideband. -/
def State.mitorServes (s : State) : Bool := s.mitorUp && !s.musLost && !s.muAsleep && decide (s.supply ≠ 0)

/-- REQUEST_TAKE: Mitor takes the request posted on a pair, in one step (R353 step 2), once every earlier request of the same key has
passed its checks (R360), and no command of the pair is still running after an FLR (R354). During a handover of R377 posted requests wait. -/
def execRequestTake (path : Nat) (s : State) : Outcome :=
  let m := s.mbox path
  if 10 < path ∨ s.mitorServes = false ∨ s.mitorReady = false ∨ m.post = false ∨ m.owner = true ∨ m.respPost = true ∨
      (mfind s.taken path).isSome = true then .next s
  else
    let bs := areaBytes m.area (min m.len 3840)
    let keyed := decide (field bs 0 1 = 2) && bit (field bs 1 1) 0
    if keyed && s.keyBusy (field bs 8 2) then .next s
    else
      let (role, part) := if path ≤ 8 then (1, s.partOf path) else if path = 9 then (2, none) else (3, none)
      .next ((s.setMbox path { m with post := false, owner := true }).takeMessage path role part 0 m.len bs)

/-- A response that is given at once to a message that is not taken. -/
def State.turnAway (s : State) (ep via status : Nat) (bs : List Byte) : State :=
  let gen := if field bs 0 1 = 1 ∨ field bs 0 1 = 3 then field bs 0 1 else 2
  let (code, tag) := codeTag gen bs
  s.emit (.sideband ep (sideMessage via (answerBytes gen code tag status 0 [])))

/-- A Mitor message from an endpoint on the path that its path byte names (R355). A second request of an endpoint is answered `BUSY`; a path
byte that names no path is answered `NOT_PERMITTED`. A request whose key has a reservation being written waits its turn (R360). -/
def State.sideRequest (s : State) (ep via : Nat) (bytes : List Byte) : State :=
  if (mfind s.taken (16 + ep)).isSome then s.turnAway ep via 2 bytes
  else if via = 1 then s.takeMessage (16 + ep) 2 none via bytes.length bytes
  else if via = 2 then s.takeMessage (16 + ep) 3 none via bytes.length bytes
  else if 0x10 ≤ via ∧ via < 0x18 then
    s.takeMessage (16 + ep) 1 (if (s.part (via - 0x10)).live then some (via - 0x10) else none) via bytes.length bytes
  else s.turnAway ep via 4 bytes

/-- An MCTP control message (R355): the bus owner's Set Endpoint ID gives the module its endpoint ID, and every control message is answered
(log entry 55). -/
def State.mctpControl (s : State) (ep : Nat) (body : List Byte) : State :=
  let s := if field body 1 1 = 1 then { s with sideEid := field body 3 1 } else s
  s.emit (.sideband ep (toBytes 1 0 ++ Config.mctpAnswer s.sideEid body))

/-- SIDEBAND_MESSAGE: an MCTP message of a type from an endpoint, at an address of the SMBus or on the I3C bus (none), assembled from its
packets (R355). Its address wakes the management units (Table 15-7). Before Mitor is ready the target acknowledges nothing, and at another address never. A Mitor message carries the vendor ID,
its path byte and at most 3,840 bytes. -/
def execSidebandMessage (bus : Option Nat) (ep : Nat) (m : MctpMessage) (s : State) : Outcome :=
  let { typ, body } := m
  let awake := { s with muAsleep := false }
  if awake.mitorServes = false ∨ (bus.isSome = true ∧ bus ≠ some s.conf.sideAddr) then .next s
  else if typ = 0 then .next (awake.mctpControl ep body)
  else if typ ≠ 0x7E ∨ body.take 2 ≠ vendorBytes ∨ body.length < 3 ∨ 3843 < body.length then .next awake
  else .next (awake.sideRequest ep (field body 2 1) (body.drop 3))

/-! ### The configuration store -/

/-- What the end of write n does to the request in progress on a path (R361, R370). -/
def State.writeDone (s : State) (n : Nat) (ok : Bool) (path : Nat) : State :=
  match mfind s.taken path with
  | none => s
  | some t =>
    match t.cur with
    | none => s
    | some u =>
      match u.stage with
      | .storing k fields => if k ≠ n then s else if ok then s.reply path 0 0 fields else s.reply path 0x0B 0 []
      | .reserving k =>
        if k ≠ n then s
        else if ok then (s.accept path u).goOn path
        else
          let old := mget 0 (s.bank s.curBank).data.reserv u.keyId
          let s := { s with conf := { s.conf with reserv := mset 0 s.conf.reserv u.keyId old } }
          let s := (s.auditAdd path t.role u.gen u.keyId u.code u.counter 0x0B false u.bytes).1
          (s.addResponse path 0x0B (answerBytes u.gen u.code u.tag 0x0B 0 [])).goOn path
      | _ => s

/-- STORE_RECORD_CURRENT: the record being written validates on read-back and becomes current, or the write has failed (R370): its change
stays in effect, goes with the next record, and is answered `STORE_ERROR`. -/
def execStoreRecordCurrent (ok : Bool) (s : State) : Outcome :=
  match s.writing with
  | none => .next s
  | some d =>
    let n := s.writeNo
    let other := 1 - s.curBank
    let s := if ok then
        { s.setBank other { valid := true, seq := (s.bank s.curBank).seq + 1, data := d } with curBank := other, writing := none }
      else { s with writing := none }
    let s := if s.storeDirty then s.startWrite else s
    let paths := s.taken.map (·.1)
    let s := paths.foldl (fun s p => s.writeDone n ok p) s
    .next (paths.foldl (fun s p => s.goOn p) s)

/-- STORE_RECOVERY: with no valid record, or no image that verifies, a store image that the maker has signed for this module's serial is
accepted (R369, R376). It is the current record at the next power-on. -/
def execStoreRecovery (image sig : List Byte) (s : State) : Outcome :=
  if s.bootStopped && Config.recoveryOk image sig then
    .next { s with bankA := { valid := true, seq := max s.bankA.seq s.bankB.seq + 1, data := Config.storeImage image } }
  else .next s

/-- STORE_STATUS (R369). -/
def execStoreStatus (path : Nat) (s : State) : Outcome :=
  .next (s.command path 0x0905 (fun _ _ =>
    let other := s.bank (1 - s.curBank)
    s.reply path 0 0 [toBytes 1 s.curBank, toBytes 8 (s.bank s.curBank).seq, toBytes 1 (b2n other.valid),
      toBytes 8 (if other.valid then other.seq else 0), toBytes 8 s.auditNext]))

/-- AUDIT_READ (R371): the entries from a number onward. -/
def execAuditRead (path : Nat) (s : State) : Outcome :=
  .next (s.command path 0x0904 (fun _ u =>
    let from' := u.num 1
    let n := u.num 2
    if n = 0 ∨ 28 < n then s.reply path 3 2 []
    else
      let es := sortBy (fun e => field e 0 8) ((s.audit.map (·.2)).filter (fun e => decide (from' ≤ field e 0 8)))
      let es := es.take n
      let next := match es.getLast? with | some e => field e 0 8 + 1 | none => from'
      s.reply path 0 0 [toBytes 2 es.length, toBytes 8 next, es.flatten]))

/-! ### What the module tells of itself -/

/-- The SVN and the version of the running image. -/
def State.runningImage (s : State) : Nat × Nat := (Config.fwImage s.running).getD (0, 0)

/-- INFO (R362). -/
def execInfo (path : Nat) (s : State) : Outcome :=
  .next (s.command path 0x0001 (fun t _ =>
    let (svn, version) := s.runningImage
    s.reply path 0 0 [toBytes 2 0x0160, toBytes 1 0xB0, toBytes 2 0x4341, toBytes 8 Config.serial.toNat, toBytes 4 version,
      toBytes 4 svn, toBytes 1 7, toBytes 1 (b2n s.seed.isSome), toBytes 1 t.role, toBytes 1 s.conf.slot]))

/-- The words of the fields of Table 15-9 up to 0x000A, as the installer (none) or the operator of a partition sees them. -/
def State.sensorWords (s : State) (part : Option Nat) : List (List Nat) :=
  let all := part.isNone
  let own := fun (q : Nat) => all || decide (part = some q)
  let gs := match part with | some q => s.galleriesOf q | none => List.range 20
  let groups := match part with | some q => (s.part q).groups | none => 2 ^ 32 - 1
  let r := s.readings
  let shown := fun (b : Bool) (x : Nat) => if b then x else 0
  let temp := fun (d : Nat) => toMod ((mfind r.dieTemp d).getD 0) 32
  [ [shown all r.vin], [shown all r.iin], [shown all r.pin],
    (List.range 3).map (fun i => shown all (r.classPower.getD i 0)),
    (List.range 8).map (fun q => shown (own q) (mget 0 r.partPower q)),
    [s.capW, s.floorLinks, s.floorMem],
    (List.range 5).map (fun d => shown (all || gs.any (fun g => decide (g / 5 = d))) (temp d)),
    (List.range 8).map (fun k => shown (decide (bits groups (4 * k) 4 ≠ 0)) (10 * (s.stack k).temp)),
    (List.range 2).map (fun i => shown all (toMod (r.coolant.getD i 0) 32)),
    (List.range 20).map (fun g => shown (decide (g ∈ gs)) (s.galReg g % 2 ^ 32)) ]

/-- SENSOR_READ (R400). -/
def execSensorRead (path : Nat) (s : State) : Outcome :=
  .next (s.command path 0x0002 (fun t u =>
    let part := if t.role = 1 then some (t.part.getD 8) else none
    let words := (s.sensorWords part).map (fun ws => ws.flatMap (toBytes 4))
    let energy := (List.range 8).flatMap (fun q =>
      toBytes 8 (if part.isNone || decide (part = some q) then mget 0 s.paddleEnergy q else 0))
    if u.gen = 1 then s.reply1 path 0 words.flatten else s.reply path 0 0 (words ++ [energy])))

/-- The function whose log a request reads: that of its partition, or PF0's for the installer. -/
def State.logFn (s : State) (t : Taken) : Nat :=
  if t.role = 1 then (match t.part with | some q => s.fnOf q | none => 0) else 0

/-- EVENT_READ (R363): the oldest entries are returned and removed; at most 52, in Mitor-1 at most 3. -/
def execEventRead (path : Nat) (s : State) : Outcome :=
  .next (s.command path 0x0003 (fun t u =>
    let n := u.num 1
    if n = 0 ∨ (if u.gen = 1 then 3 else 52) < n then s.reply path 3 1 []
    else
      let fn := s.logFn t
      let l := s.evlog fn
      let es := l.events.take n
      (s.setEvlog fn { l with events := l.events.drop n }).reply path 0 0
        [toBytes 2 es.length, toBytes 4 (l.events.length - es.length), es.flatten]))

/-- NOTIFY_READ (R363): the oldest notifications, and how many have been dropped since the last read. -/
def execNotifyRead (path : Nat) (s : State) : Outcome :=
  .next (s.command path 0x0004 (fun t u =>
    let n := u.num 1
    if n = 0 ∨ 52 < n then s.reply path 3 1 []
    else
      let fn := s.logFn t
      let l := s.evlog fn
      let es := l.notes.take n
      (s.setEvlog fn { l with notes := l.notes.drop n, dropped := 0 }).reply path 0 0 [toBytes 2 es.length, toBytes 4 l.dropped, es.flatten]))

/-- Whether a request may sample a bank of Table 14-11: 0 OK, else its status. -/
def State.bankStatus (s : State) (t : Taken) (kind unit : Nat) : Nat :=
  let mine := fun (g : Nat) => decide (t.role ≠ 1) || (match t.part with | some q => decide (g ∈ s.galleriesOf q) | none => false)
  match kind with
  | 0 => if 160 ≤ unit then 3 else if mine (unit / 8) then 0 else 4
  | 1 => if 20 ≤ unit then 3 else if mine unit then 0 else 4
  | 2 => if t.role = 1 then 4 else if unit = 0 then 0 else 3
  | _ => 3

/-- Samples a bank and answers its values and tags: 16 of each for a core or gallery, 32 values without tags module-wide. -/
def State.readBank (s : State) (kind unit : Nat) : State × List Nat × List Nat :=
  let snap := fun (b : Bank) =>
    ((List.range 16).map (fun i => (mget ({} : Counter) b.ctrs i).snapValue),
     (List.range 16).map (fun i => (mget ({} : Counter) b.ctrs i).snapTag))
  match kind with
  | 0 =>
    let s := s.sampleCore unit
    (s, snap (s.coreBank unit))
  | 1 =>
    let s := s.sampleGal unit
    (s, snap (s.galBank unit))
  | _ => (s, (List.range 32).map (fun i => mget 0 s.wideCounters i), [])

/-- Samples the banks that a request names, in its order. -/
def State.readBanks (s : State) : List (Nat × Nat) → State × List Byte
  | [] => (s, [])
  | (kind, unit) :: rest =>
    let (s, vs, ts) := s.readBank kind unit
    let (s, bs) := s.readBanks rest
    (s, toBytes 1 kind ++ zeros 1 ++ toBytes 2 unit ++ vs.flatMap (toBytes 8) ++ ts.flatMap (toBytes 8) ++ bs)

/-- COUNTER_READ (R424, R425, R366). -/
def execCounterRead (path : Nat) (s : State) : Outcome :=
  .next (s.command path 0x0005 (fun t u =>
    let bs := u.bytesOf 1
    let banks := (List.range (bs.length / 4)).map (fun i => (field bs (4 * i) 1, field bs (4 * i + 2) 2))
    let sts := (banks.map (fun b => s.bankStatus t b.1 b.2)).filter (· ≠ 0)
    match sts with
    | st :: _ => s.reply path st 1 []
    | [] =>
      if u.gen = 1 then
        match banks with
        | [(kind, unit)] =>
          let first := u.num 2
          if first ≠ 0 ∧ ¬ (kind = 2 ∧ first = 16) then s.reply path 3 2 []
          else
            let (s, vs, ts) := s.readBank kind unit
            let values := ((vs.drop first).take 16).flatMap (toBytes 8)
            let tags := if kind = 2 then List.replicate 16 0 else ts
            s.reply1 path 0 (zeros 8 ++ values ++ toBytes 2 (maskOf ((List.range 16).filter (fun i => bit (tags.getD i 0) 32))) ++ zeros 2 ++
              tags.flatMap (fun x => toBytes 4 (x % 2 ^ 32)))
        | _ => s.reply path 0x0A 1 []
      else
        let (s, out) := s.readBanks banks
        s.reply path 0 0 [out]))

/-! ### Attestation (R379) -/

/-- The maker scopes that are active (R374). -/
def State.scopeMask (s : State) : Nat := s.scopes.foldl (fun m e => m ||| e.1) 0

/-- The configuration payload without counters, reservations and sealed keys, as a list of numbers. -/
def storeNats (d : StoreData) : List Nat :=
  let r := d.repair
  let bytes := fun (bs : List Byte) => bs.map (fun b => b.toNat)
  let pairs := fun (m : Map Nat) => m.length :: m.flatMap (fun e => [e.1, e.2])
  let list := fun (l : List Nat) => l.length :: l
  pairs r.subs ++ list r.failedSites ++ list r.hostRetired ++ list (r.dieLanes.flatMap (fun e => [e.1, e.2.1, e.2.2])) ++ list r.narrowed ++
    list (r.fabLanes.flatMap (fun e => [e.1, e.2.1, e.2.2])) ++ list (r.rows.flatMap (fun e => [e.1, e.2])) ++ list r.channels ++
    list (r.ways.flatMap (fun e => [e.1, e.2])) ++ list r.units ++ list d.retired ++
    list (d.layout.flatMap (fun p => [p.part, p.galleries, p.groups, b2n p.onPf0, p.ctxCeiling, p.deviceCeiling, p.fabricCeiling, b2n p.persist])) ++
    pairs d.caps ++ pairs d.thresholds ++ list (d.addrs.flatMap (fun e => e.1 :: bytes e.2)) ++
    [d.floor, d.slot, d.sideAddr] ++ list (bytes d.helper) ++ list (bytes d.chain)

/-- The layout of a list of partitions as a list of numbers: galleries, groups, regulator shares, segment mappings and associations. -/
def State.layoutNats (s : State) (qs : List Nat) : List Nat :=
  qs.flatMap (fun q =>
    let p := s.part q
    [q, p.galleries, p.groups] ++
      bucketResources.flatMap (fun r => let b := s.bucket (16 * r + q); [b.rate, b.burst, b2n b.borrow]) ++
      (s.segs.filter (fun e => decide (q ∈ e.2.mapped))).map (·.1) ++
      (s.assocs.filter (fun e => e.2.live && decide (e.2.part = q))).flatMap (fun e =>
        e.1 :: e.2.peerPart :: e.2.peerHash.map (fun b => b.toNat)))

/-- The signing key of the device identity (R372). -/
def identityKey (seed : List Byte) : List Byte := Config.hkdf [] seed (textBytes "Exurso identity v1") 32

/-- The report for a nonce: signed over every byte before the signature. Of its first 12 bytes, 11 carry the serial, the stepping and the
revision, and one is not stated (log entry 5). -/
def State.attestReport (s : State) (seed nonce : List Byte) (part : Option Nat) : State × List Byte :=
  let (s, x) := s.fresh
  let qs := match part with | some q => [q] | none => s.liveParts
  let body := toBytes 8 Config.serial.toNat ++ toBytes 1 0xB0 ++ toBytes 1 x.toNat ++ toBytes 2 0x4341 ++
    fit 64 (Config.sha512 Config.bootRom) ++ fit 64 (Config.fwDigest s.running) ++ toBytes 4 s.runningImage.1 ++
    fit 64 (Config.measure (storeNats s.conf)) ++ fit 64 (Config.measure (s.layoutNats qs)) ++ toBytes 1 (s.scopeMask % 4) ++ nonce ++ s.conf.chain
  (s, body ++ Config.ed25519Sign (identityKey seed) body)

/-- ATTEST (R379); in Mitor-1 by chunks of 240 bytes (R366). -/
def execAttest (path : Nat) (s : State) : Outcome :=
  .next (s.command path 0x0006 (fun t u =>
    match s.seed with
    | none => s.reply path 5 0 []
    | some seed =>
      let part := if t.role = 1 then t.part else none
      if u.gen = 1 then
        let chunk := u.num 2
        let n := (u.bytesOf 1).length
        let key := if path < 16 then path else 16 + t.via
        if chunk = 0 ∧ (n < 16 ∨ 64 < n) then s.reply path 3 1 []
        else
          let (s, r) : State × List Byte := if chunk = 0 then
              let (s, r) := s.attestReport seed (u.bytesOf 1) part
              ({ s with reports := minsert s.reports key r }, r)
            else (s, (mfind s.reports key).getD [])
          if r.length ≤ 240 * chunk then s.reply path 3 2 []
          else s.reply1 path 0 (toBytes 2 r.length ++ toBytes 2 chunk ++ zeros 4 ++ fit 240 (r.drop (240 * chunk)))
      else
        let (s, r) := s.attestReport seed (u.bytesOf 1) part
        s.reply path 0 0 [r]))

/-! ### Keys -/

/-- Whether a request may see or change a key: an operator those of its partition, the installer operator and installer keys, the maker
maker keys (R359, R361). -/
def keyInReach (t : Taken) (keyId : Nat) : Bool :=
  let role := keyId / 4096
  if t.role = 1 then decide (role = 1) && decide (t.part = some (keyId / 256 % 16))
  else if t.role = 2 then decide (role = 1) || decide (role = 2)
  else decide (role = 3)

/-- KEY_STATUS (R361): the lowest acceptable counter of every key in reach. -/
def execKeyStatus (path : Nat) (s : State) : Outcome :=
  .next (s.command path 0x0007 (fun t _ =>
    let ks := (s.conf.keys.map (·.1)).filter (keyInReach t)
    s.reply path 0 0 [ks.flatMap (fun k => toBytes 2 k ++ zeros 6 ++ toBytes 8 (mget 0 s.keyLast k + 1))]))

/-- The key ID of R358: a role, a partition below 8 for an operator key and zero otherwise. -/
def keyIdOk (k : Nat) : Bool :=
  let role := k / 4096
  decide (1 ≤ role) && decide (role ≤ 3) && (if role = 1 then decide (k / 256 % 16 < 8) else decide (k / 256 % 16 = 0))

/-- How many keys of a role and partition the store may hold (R358). -/
def keyLimit (role : Nat) : Nat := if role = 1 then 4 else if role = 2 then 8 else 2

/-- KEY_ENROL (R359): the key is unwrapped with the module's key-agreement key and enrolled with a new counter. -/
def execKeyEnrol (path : Nat) (s : State) : Outcome :=
  .next (s.command path 0x0801 (fun t u =>
    let k := u.num 1
    match s.seed with
    | none => s.reply path 5 0 []
    | some seed =>
      if keyIdOk k = false then s.reply path 3 1 []
      else if keyInReach t k = false then s.reply path 4 1 []
      else if (mfind s.conf.keys k).isNone ∧ keyLimit (k / 4096) ≤ (s.conf.keys.filter (fun e => decide (e.1 / 256 = k / 256))).length then
        s.reply path 0x12 1 []
      else
        let agree := Config.hkdf [] seed (textBytes "Exurso agreement v1") 32
        let wrap := (Config.hkdf [] (Config.x25519 agree (u.bytesOf 2)) (textBytes "Mitor key wrap v1") 32).take 32
        match Config.gcmOpen wrap (u.bytesOf 3) [] (u.bytesOf 4) with
        | none => s.reply path 3 4 []
        | some key =>
          let s := s.dropKey k
          { s with conf := { s.conf with keys := minsert s.conf.keys k key } }.replyStored path []))

/-- KEY_REVOKE (R359). -/
def execKeyRevoke (path : Nat) (s : State) : Outcome :=
  .next (s.command path 0x0802 (fun t u =>
    let k := u.num 1
    if keyInReach t k = false then s.reply path 4 1 []
    else if (mfind s.conf.keys k).isNone then s.reply path 3 1 []
    else (s.dropKey k).replyStored path []))

/-! ### The maker (R373, R374) -/

/-- MAKER_ALLOW: the installer allows a maker token within the next hour. -/
def execMakerAllow (path : Nat) (s : State) : Outcome :=
  .next (s.command path 0x0803 (fun _ _ =>
    let (s, now) := s.sample
    { s with makerAllowed := some now }.reply path 0 0 []))

/-- MAKER_TOKEN: a token that the maker has signed for this module, newer than the last, allowed within the preceding hour, opens its scope
for at most 24 hours. -/
def execMakerToken (path : Nat) (s : State) : Outcome :=
  .next (s.command path 0x0804 (fun _ u =>
    let (s, now) := s.sample
    let tok := u.bytesOf 1
    let body := tok.take (tok.length - 64)
    let seconds := field tok 20 4
    let signed := match Config.makerCertKey (body.drop 24) with
      | some pk => Config.ed25519Verify pk body (tok.drop (tok.length - 64))
      | none => false
    let allowed := match s.makerAllowed with | some t => decide (now ≤ t + hourNs) | none => false
    if tok.length < 88 ∨ field tok 0 8 ≠ Config.serial.toNat ∨ field tok 8 8 ≤ s.conf.makerCounter ∨ 86400 < seconds ∨ signed = false ∨
        allowed = false then s.reply path 3 1 []
    else
      let s := { s with
        scopes := s.scopes ++ [(field tok 16 1 % 4, now + 1000000000 * seconds)]
        conf := { s.conf with makerCounter := field tok 8 8 } }
      s.replyStored path [toBytes 8 (s.rtc + 32768 * seconds)]))

/-- MAKER_SCOPE_LAPSE: the scope that ends first lapses. -/
def execMakerScopeLapse (s : State) : Outcome :=
  match s.scopes with
  | [] => .next s
  | e :: es =>
    let due := minOf e.2 (es.map (·.2))
    let s := s.until due
    .next { s with scopes := s.scopes.filter (fun x => decide (s.now < x.2)) }

/-- IDENTITY_ENROL (R373): with a maker token in force, new helper data and a new certificate chain; every role key is lost with the old
sealing key. -/
def execIdentityEnrol (path : Nat) (s : State) : Outcome :=
  .next (s.command path 0x0805 (fun _ u =>
    if s.scopes = [] then s.reply path 4 0 []
    else
      let helper := u.bytesOf 1
      { s with
        seed := Config.pufSeed helper, keyLast := []
        conf := { s.conf with helper, chain := u.bytesOf 2, keys := [], reserv := [] } }.replyStored path []))

/-! ### Firmware (R376, R377) -/

/-- Bytes of a firmware slot. -/
def slotBytes : Nat := 0x2000000

/-- FW_WRITE: a chunk of the inactive slot. -/
def execFwWrite (path : Nat) (s : State) : Outcome :=
  .next (s.command path 0x0901 (fun _ u =>
    let off := u.num 1
    let bs := u.bytesOf 2
    if slotBytes < off + bs.length then s.reply path 3 1 []
    else if s.activation.isSome then s.reply path 2 0 []
    else
      let k := 1 - s.conf.slot
      { s with fwSlots := minsert s.fwSlots k (writeSlot (mget [] s.fwSlots k) off bs) }.reply path 0 0 []))
where
  writeSlot (m : Map Byte) (k : Nat) : List Byte → Map Byte
    | [] => m
    | b :: bs => writeSlot (mset 0xFF m k b) (k + 1) bs

/-- Whether the boot ROM would start the image of a slot: it verifies, and its SVN is at least the floor. -/
def State.slotBoots (s : State) (k : Nat) : Bool :=
  match Config.fwImage (mget [] s.fwSlots k) with
  | some (svn, _) => decide (s.conf.floor ≤ svn)
  | none => false

/-- FW_ACTIVATE: the inactive slot is verified, and the standby unit boots it (R377 steps 1 and 2). Without a standby unit the activation
fails. -/
def execFwActivate (path : Nat) (s : State) : Outcome :=
  .next (s.command path 0x0902 (fun _ _ =>
    if s.activation.isSome then s.reply path 2 0 []
    else if s.slotBoots (1 - s.conf.slot) = false then s.reply path 3 0 []
    else if s.conf.repair.units ≠ [] then s.reply path 0x13 0 []
    else
      let (s, now) := s.sample
      { s with activation := some { path, since := now } }.await path))

/-- Sets `ATT_MBX.READY` in every function. -/
def State.raiseReady (s : State) : State := (List.range 9).foldl (fun s fn => s.raise fn (.mailbox 4)) s

/-- STANDBY_READY: the standby unit takes the state and becomes active with the new image, and a record names the new slot before the answer
(R377 steps 3 to 5). -/
def execStandbyReady (s : State) : Outcome :=
  match s.activation with
  | none => .next s
  | some a =>
    let k := 1 - s.conf.slot
    let s := { s with
      activation := none, activeMu := 1 - s.activeMu, running := mget [] s.fwSlots k
      conf := { s.conf with slot := k } }
    .next (s.raiseReady.replyStored a.path [toBytes 1 k])

/-- ACTIVATION_TIMEOUT: the standby unit has not become ready within 2 s; it restarts with the running image. -/
def execActivationTimeout (s : State) : Outcome :=
  match s.activation with
  | none => .next s
  | some a => .next ({ s.until (a.since + 2000000000) with activation := none }.reply a.path 0x13 0 [])

/-- FW_SET_FLOOR: the rollback floor rises, to at most the SVN of the active image. -/
def execFwSetFloor (path : Nat) (s : State) : Outcome :=
  .next (s.command path 0x0903 (fun _ u =>
    let v := u.num 1
    if v < s.conf.floor ∨ s.runningImage.1 < v then s.reply path 3 1 []
    else { s with conf := { s.conf with floor := v } }.replyStored path []))

end Sys2Proof.Machine
end

