-- ==== Sys2Proof/Machine/Contexts.lean ====
section
/-! DEFINITION. Operators' commands on contexts, landings, send queues and windows (02_command_streams.md R34 to R38,
11_partitions_and_isolation.md R287, R288, R300, 10_landings.md R262, R274, R275, 12_fabric_and_kft.md R316, R318): their fields are
those of Table 14-11. -/

namespace Sys2Proof.Machine

open Sys2Proof

/-- The status with which a request may not act on a context: none where it may. An operator reaches the contexts of its partition, the
installer every context (R300, R358). -/
def State.ctxDenied (s : State) (t : Taken) (n : Nat) : Option Nat :=
  let c := s.ctx n
  if 64 ≤ n ∨ c.state = .free then some 3
  else if t.role = 1 ∧ t.part ≠ some c.part then some 4
  else none

/-- Whether a removal of a context, or of its partition, is under way (R364). -/
def State.ctxLeaving (s : State) (n : Nat) : Bool :=
  s.drains.any (fun d => decide (d.obj = .ctx n) || decide (d.obj = .part (s.ctx n).part))

/-- Whether a resize of a context's partition is under way: a pre-emption has to wait for it (R364). -/
def State.ctxResizing (s : State) (n : Nat) : Bool :=
  s.moveJobs.any (fun j => match j.cause with | .groups q _ => decide (q = (s.ctx n).part) | _ => false)

/-- Runs a context command on the context that its first field names. -/
def State.onCtx (s : State) (path code : Nat) (f : Sub → Nat → State) : State :=
  s.command path code (fun t u =>
    match s.ctxDenied t (u.num 1) with
    | some st => s.reply path st 1 []
    | none => f u (u.num 1))

/-- Answers `REFUSED`, or another status, with the first field that broke the command's rules; runs the command where none did. -/
def State.checked (s : State) (path status : Nat) (rules : List (Bool × Nat)) (f : State) : State :=
  match firstBroken rules with
  | some t => s.reply path status t []
  | none => f

/-! ### Contexts -/

/-- CTX_CREATE (R34, R35): the lowest free context of the module, within the partition's ceiling. -/
def execCtxCreate (path : Nat) (s : State) : Outcome :=
  .next (s.command path 0x0101 (fun t u =>
    let q := if t.role = 1 then t.part.getD 8 else u.num 8
    if (t.role = 1 ∧ u.has 8 = true) ∨ (t.role ≠ 1 ∧ u.has 8 = false) then s.reply path 0x0A 8 []
    else s.checked path 3 [(decide (q < 8) && (s.part q).live, 8), (decide (u.num 1 % 64 = 0), 1), (decide (u.num 2 ≤ 1), 2),
        (decide (u.num 3 ≤ 2), 3), (decide (u.num 4 % 32 = 0), 4), (decide (u.num 5 ≤ 1), 5), (decide (6 ≤ u.num 6 ∧ u.num 6 ≤ 16), 6),
        (decide (bits (u.num 7) 60 4 = 9), 7)]
      (if s.drains.any (fun d => decide (d.obj = .part q)) then s.reply path 2 0 []
      else
        match (List.range 64).find? (fun n => decide ((s.ctx n).state = .free)) with
        | none => s.reply path 0x12 0 []
        | some n =>
          if (s.part q).ctxCeiling ≤ (s.ctxsOf q).length then s.reply path 0x12 0 []
          else
            let c : Ctx := {
              state := .active, part := q, fn := s.fnOf q, creditAddr := u.num 1, creditSpace := u.num 2, creditStep := 4096 * 4 ^ u.num 3
              ringAddr := u.num 4, ringSpace := u.num 5, ringSize := 2 ^ u.num 6, root := bits (u.num 7) 0 44 * 4096 }
            (s.setCtx n c).reply path 0 0 [toBytes 1 n])))

/-- CTX_DESTROY: the context is cut, if it has work in flight, and freed; one that is being removed is in use (R364). -/
def execCtxDestroy (path : Nat) (s : State) : Outcome := s.waits <|
  .next (s.onCtx path 0x0102 (fun _ n =>
    if s.ctxLeaving n then s.reply path 2 1 []
    else
      let s := s.cutCtx n
      let tag := (s.ctx n).retiredTag
      (s.endCtx n).reply path 0 0 [toBytes 4 tag]))

/-- A context after a reset (R38, R47): its stream starts again; its parameters, its record count and its landing map stay. -/
def Ctx.wasReset (c : Ctx) : Ctx :=
  { c with
    state := .active, logNew := false, faultStatus := 0, faultTag := 0, accepted := 0, consumed := 0, discarded := 0, logHead := 0
    squashes := 0, log := [], expected := 0, fifo := [], fifoErr := [], lastCredit := 0, curLayer := 0, curOper := 0, levels := [{}]
    pkts := [], faultRec := none, faultOpen := false, hold := false, heldPkts := [] }

/-- CTX_RESET (R38, Table 18-2): the context is cut, then starts again with its credit record written. -/
def execCtxReset (path : Nat) (s : State) : Outcome := s.waits <|
  .next (s.onCtx path 0x0103 (fun _ n =>
    if s.ctxLeaving n then s.reply path 2 1 []
    else
      let s := (s.cutCtx n).dropQueues n
      let tag := (s.ctx n).retiredTag
      let s := (((s.modCtx n Ctx.wasReset).clearCtxBits n).dropTraces n).writeCredit n
      s.reply path 0 0 [toBytes 4 tag]))

/-- CTX_PREEMPT (R287 step 1): dispatch stops, and the request waits for PREEMPT_SAVE or its timeout. -/
def execCtxPreempt (path : Nat) (s : State) : Outcome :=
  .next (s.onCtx path 0x0104 (fun u n =>
    let c := s.ctx n
    let us := (u.num? 3).getD 10000
    s.checked path 3 [(decide (u.num 2 % 4096 = 0), 2), (decide (1 ≤ us ∧ us ≤ 1000000), 3)]
      (if c.state = .faulted then s.reply path 0x0E 0 []
      else if c.preempt.isSome ∨ c.resumePath.isSome ∨ s.ctxLeaving n = true ∨ s.ctxResizing n = true then s.reply path 2 1 []
      else if c.state ≠ .active then s.reply path 3 1 []
      else
        let (s, _) := s.sample
        (s.modCtx n (fun c => { c with hold := true, preempt := some (u.num 2, s.inUs us, path) })).await path)))

/-- CTX_RESUME (R288): the saved crews are queued again; the answer follows once every one is placed. -/
def execCtxResume (path : Nat) (s : State) : Outcome :=
  .next (s.onCtx path 0x0105 (fun _ n =>
    let c := s.ctx n
    if c.resumePath.isSome ∨ s.ctxLeaving n = true ∨ s.ctxResizing n = true then s.reply path 2 1 []
    else if c.state ≠ .preempted then s.reply path 3 1 []
    else (((s.resumeCtx n).modCtx n (fun c => { c with resumePath := some path })).await path).checkResume n))

/-- CTX_DISABLE (R300 to R302): a drain or cut of a context. -/
def execCtxDisable (path : Nat) (s : State) : Outcome := s.waits <|
  .next (s.onCtx path 0x0106 (fun u n =>
    let us := (u.num? 3).getD 10000
    s.checked path 3 [(decide (u.num 2 ≤ 1), 2), (decide (1 ≤ us ∧ us ≤ 10000000), 3)]
      (if s.ctxLeaving n then s.reply path 2 1 []
      else
        let (s, _) := s.sample
        (s.startDrain { obj := .ctx n, cut := decide (u.num 2 = 1), deadline := s.inUs us, after := .ctxDisable, path := some path }).await path)))

/-! ### Landings -/

/-- Whether a slot can be allocated: it is free, and no landing is being moved to it. -/
def State.slotFree (s : State) (k : Nat) : Bool := decide ((s.slot k).state = .free) && !s.moves.any (fun m => decide (m.dst = k))

/-- The slots of a range of keys that are allocated to a partition, those that are being released among them (R274). -/
def State.slotsHeld (s : State) (q lo n : Nat) : Nat :=
  (s.slots.filter (fun e => decide (lo ≤ e.1) && decide (e.1 < lo + n) && decide (e.2.state ≠ .free) && decide (e.2.part = q))).length

/-- Allocates the lowest free slot of a pool under a ceiling, in UNARMED with nothing of a previous owner (R274). -/
def State.takeSlot (s : State) (ctx lo n ceiling : Nat) (mirror : Option (Nat × Nat)) : Option (State × Nat) :=
  if ceiling ≤ s.slotsHeld (s.ctx ctx).part lo n then none
  else
    match ((List.range n).map (lo + ·)).find? s.slotFree with
    | some k => some (s.setSlot k { state := .unarmed, owner := ctx, part := (s.ctx ctx).part, mirror }, k - lo)
    | none => none

/-- Enters a landing into a context's map and answers its slot. -/
def State.mapped (s : State) (path n lid : Nat) (e : LEntry) : State :=
  (s.modCtx n (fun c => { c with lmap := minsert c.lmap lid e })).reply path 0 0 [toBytes 2 e.slot]

/-- LDG_MAP (R274, R275): an ID is mapped to a slot of its kind's pool, or to the slot that another entry of the partition names. -/
def execLdgMap (path : Nat) (s : State) : Outcome :=
  .next (s.onCtx path 0x0201 (fun u n =>
    let lid := u.num 2
    let kind := u.num 3
    let q := (s.ctx n).part
    let p := s.part q
    if 1023 < lid ∨ (mget ({} : LEntry) (s.ctx n).lmap lid).kind ≠ 0 then s.reply path 3 2 []
    else if kind = 0 ∨ 4 < kind then s.reply path 3 3 []
    else if u.has 5 || u.has 6 then
      let o := u.num 5
      let e := mget ({} : LEntry) (s.ctx o).lmap (u.num 6)
      if u.has 5 = false ∨ u.has 6 = false then s.reply path 0x0A (if u.has 5 then 6 else 5) []
      else s.checked path 3 [(decide (o < 64) && decide ((s.ctx o).state ≠ .free) && decide ((s.ctx o).part = q), 5),
          (decide (1 ≤ e.kind ∧ e.kind ≤ 4), 6), (decide (e.kind = kind), 3)]
        (s.mapped path n lid e)
    else
      match kind with
      | 1 =>
        match (s.coresOf q)[u.num 4]? with
        | some c =>
          if u.has 4 = false then s.reply path 0x0A 4 []
          else
            match s.takeSlot n (48 * c) 48 49 none with
            | some (s, k) => s.mapped path n lid { kind, core := c, slot := k, owner := n }
            | none => s.reply path 0x12 0 []
        | none => s.reply path (if u.has 4 then 3 else 0x0A) 4 []
      | 2 =>
        match s.takeSlot n 10000 1024 p.deviceCeiling none with
        | some (s, k) => s.mapped path n lid { kind, slot := k, owner := n }
        | none => s.reply path 0x12 0 []
      | 3 =>
        match s.takeSlot n 20000 256 p.fabricCeiling none with
        | some (s, k) => s.mapped path n lid { kind, slot := k, owner := n }
        | none => s.reply path 0x12 0 []
      | _ =>
        let a := s.assoc (u.num 7)
        if u.has 7 = false ∨ u.has 8 = false then s.reply path 0x0A (if u.has 7 then 8 else 7) []
        else if a.live = false then s.reply path 3 7 []
        else if a.part ≠ q then s.reply path 4 7 []
        else
          match s.takeSlot n 20000 256 p.fabricCeiling (some (u.num 7, u.num 8)) with
          | some (s, k) => s.mapped path n lid { kind, assoc := u.num 7, slot := k, owner := n, remote := u.num 8 }
          | none => s.reply path 0x12 0 []))

/-- LDG_UNMAP: an owner's unmapping releases the slot (R263); another context's, or that of a LOST entry, only ends its entry. -/
def execLdgUnmap (path : Nat) (s : State) : Outcome :=
  .next (s.onCtx path 0x0202 (fun u n =>
    let lid := u.num 2
    let e := mget ({} : LEntry) (s.ctx n).lmap lid
    if 1023 < lid ∨ e.kind = 0 then s.reply path 3 2 []
    else
      let s := if e.kind ≠ 5 ∧ e.owner = n then s.loseSlot e.key else s
      (s.modCtx n (fun c => { c with lmap := merase c.lmap lid })).reply path 0 0 []))

/-- The subscribers of an `LDG_ARM` request: association and mirror slot. -/
def subscribersOf (u : Sub) : List (Nat × Nat) :=
  let bs := u.bytesOf 10
  (List.range (bs.length / 4)).map (fun i => (field bs (4 * i) 1, field bs (4 * i + 2) 2))

/-- Whether a link names a counting landing of the context's map at the same location as an entry (Table 10-2). -/
def State.linkOk (s : State) (n : Nat) (e : LEntry) (kind lid : Nat) : Bool :=
  if lid = 0xFFFF then true
  else
    let l := mget ({} : LEntry) (s.ctx n).lmap lid
    decide (kind = 2) && decide (lid ≤ 1023) && decide (l.kind ≠ 0) && decide (l.kind ≠ 5) && decide ((s.slot l.key).kind = 1) &&
      (if e.kind = 1 then decide (l.kind = 1) && decide (l.core = e.core) else decide (l.kind ≠ 1))

/-- The slot as arming leaves it (R262): one that is armed keeps its generation, and arrivals it holds are discarded and leave `STRAY`. -/
def Slot.arm (x : Slot) (n : Nat) (u : Sub) (subs : List (Nat × Nat)) : Slot :=
  let again := decide (x.state = .armed)
  let lost := again && (if x.kind = 1 then decide (x.count ≠ 0) else decide (x.remain ≠ x.n))
  { x with
    state := .armed, kind := u.num 3, n := u.num 4, rearm := decide (u.num 5 = 1), timeoutUs := u.num 6, period := u.num 7
    link0 := u.num 8, link1 := u.num 9, armCtx := n, subs, gen := if again then x.gen else 0, remain := u.num 4, count := 0
    drift := false, stray := lost, saturated := false }

/-- LDG_ARM (R262, Table 10-2). -/
def execLdgArm (path : Nat) (s : State) : Outcome :=
  .next (s.onCtx path 0x0203 (fun u n =>
    let lid := u.num 2
    let e := mget ({} : LEntry) (s.ctx n).lmap lid
    let kind := u.num 3
    let x := s.slot e.key
    let subs := if u.has 10 then subscribersOf u else x.subs
    let count := u.num 4
    s.checked path 3 [
        (decide (lid ≤ 1023) && decide (1 ≤ e.kind ∧ e.kind ≤ 3) && decide (x.state ≠ .free) && decide (x.state ≠ .releasing), 2),
        (decide (kind ≤ 2), 3),
        (if kind = 1 then decide (count = 0) else decide (1 ≤ count ∧ count ≤ 16777215), 4),
        (match kind with | 0 => decide (u.num 5 ≤ 1) | 1 => decide (u.num 5 = 0) | _ => decide (u.num 5 = 1), 5),
        (if kind = 2 then decide (1 ≤ u.num 7 ∧ u.num 7 ≤ 16777215) else decide (u.num 7 = 0), 7),
        (s.linkOk n e kind (u.num 8), 8), (s.linkOk n e kind (u.num 9), 9),
        (subs.all (fun p => decide (e.kind = 3) && (s.assoc p.1).live && decide ((s.assoc p.1).part = (s.ctx n).part) && decide (p.2 < 256)), 10)]
      (let y := x.arm n u subs
       (s.setSlot e.key y).reply path 0 0 [toBytes 4 y.gen])))

/-! ### Send queues and windows -/

/-- SQ_CREATE (R316): the lowest free queue of the context. -/
def execSqCreate (path : Nat) (s : State) : Outcome :=
  .next (s.onCtx path 0x0204 (fun u n =>
    let a := s.assoc (u.num 4)
    let e := mget ({} : LEntry) (s.ctx n).lmap (u.num 5)
    let x := s.slot e.key
    s.checked path 3 [(decide (u.num 2 % 4096 = 0), 2), (decide (6 ≤ u.num 3 ∧ u.num 3 ≤ 16), 3),
        (a.live && decide (a.part = (s.ctx n).part), 4),
        (decide (u.num 5 ≤ 1023) && decide (e.kind = 2) && decide (x.state = .armed) && decide (x.kind = 0) && decide (x.n = 1) && x.rearm, 5)]
      (match (List.range 8).find? (fun i => !(s.sendQueue (8 * n + i)).live) with
      | some i =>
        (s.setSendQueue (8 * n + i) { live := true, ring := u.num 2, log2 := u.num 3, assoc := u.num 4, goLid := u.num 5, gen := x.gen }).reply
          path 0 0 [toBytes 1 i]
      | none => s.reply path 0x12 0 [])))

/-- SQ_DESTROY: the entries taken complete with `ABORTED`, and the queue is gone (Table 12-7). -/
def execSqDestroy (path : Nat) (s : State) : Outcome := s.waits <|
  .next (s.onCtx path 0x0205 (fun u n =>
    let i := u.num 2
    let q := s.sendQueue (8 * n + i)
    if 8 ≤ i ∨ q.live = false then s.reply path 3 2 []
    else (s.dropQueue n i).reply path 0 0 []))

/-- KFT_WINDOW (R318): sets or removes a window of an association of the operator's partition. -/
def execKftWindow (path : Nat) (s : State) : Outcome :=
  .next (s.command path 0x0206 (fun t u =>
    let n := u.num 1
    let a := s.assoc n
    let perm := u.num 5
    if a.live = false then s.reply path 3 1 []
    else if t.part ≠ some a.part then s.reply path 4 1 []
    else s.checked path 3 [(decide (u.num 2 < 16), 2), (decide (perm < 8), 5)]
      (let w : Window := { base := u.num 3, size := u.num 4, r := bit perm 0, w := bit perm 1, a := bit perm 2 }
       let ws := if perm = 0 then merase a.windows (u.num 2) else minsert a.windows (u.num 2) w
       (s.setAssoc n { a with windows := ws }).reply path 0 0 [])))

end Sys2Proof.Machine
end

