-- ==== Sys2Proof/Machine/Threads.lean ====
section
/-! DEFINITION. The thread instructions (04_thread_instruction_set.md Table 4-9): issue of a crew's next instruction, and one
meaning for each. A command names the crew; its instruction is the one at its path, and a command whose operation it is
not finds nothing to do. -/

namespace Sys2Proof.Machine

open Sys2Proof

/-- `BRK` (R104): HALTED behind it with a notification, where a debug session is open; otherwise BREAK_UNHANDLED. The
`FAULT_PC` word of a crew that has not faulted reads its record, 0. -/
def State.breakpoint (s : State) (z : Issue) : State :=
  let q := (s.ctx z.x.ctx).part
  if (s.part q).debugOpen then
    let s := (s.advance z).modCrew z.core z.key (fun c => { c with state := .halted, idleFrom := (s.core z.core).clock })
    s.notifyFn (s.fnOf q) 0x10
      (toBytes 2 z.core ++ toBytes 1 (z.key / 48) ++ toBytes 1 (z.key % 48) ++ zeros 4 ++ toBytes 8 z.x.fault.pc)
  else s.trapAt z 0x0D z.lead

/-- The effect of a legal instruction whose sources are ready (Table 4-9). -/
def State.effect (s : State) (z : Issue) : State :=
  match z.i.cls with
  | 0x1 => s.intClass z
  | 0x2 => s.fpClass z fp64
  | 0x3 => s.fpClass z fp32
  | 0x4 => s.halfClass z
  | 0x5 => s.convertClass z
  | 0x6 => s.compareClass z
  | 0x7 =>
    match z.i.op with
    | 0x00 => s.branchCond z false
    | 0x01 => s.branchIndirect z
    | 0x02 => s.branchCond z true
    | 0x03 => s.joinPath z
    | 0x04 => s.exitPath z
    | _ => s.crewBarrier z
  | 0x8 =>
    match z.i.op with
    | 0x00 => s.load z
    | 0x01 => s.store z
    | 0x02 => s.loadUniform z
    | _ => s.advance z
  | 0x9 => s.atomic z
  | 0xA => s.landingClass z
  | 0xB => s.shuffleClass z
  | 0xC => s.fdma z
  | 0xD => s.cacheClass z
  | _ =>
    match z.i.op with
    | 0x00 => s.advance z
    | 0x01 => s.move z
    | 0x02 => s.umove z
    | 0x03 => s.readSpecial z
    | 0x04 => s.writeFlags z
    | _ => s.breakpoint z

/-- The instruction at a crew's path with what it needs to execute, once its words are in the instruction cache (R113). -/
def State.nextIssue (s : State) (core key : Nat) (x : Crew) : Option Issue :=
  match x.path with
  | some (pc, mask) =>
    match s.fetch core x.ctx pc with
    | some (w, w1) =>
      let i : Inst := ⟨w, w1⟩
      let (options, pair) := match s.launch x.launch with
        | some l => (l.options, pairOf l.layer l.oper)
        | none => (0, 0)
      let act := if i.unguarded then mask else x.active i mask
      some { core, key, x, pc, mask, act, i, options, pair }
    | none => none
  | none => none

/-- Issues a crew's next instruction: ILLEGAL_INSTRUCTION first (R117), then the readiness of its sources (R79), then its
effect. A fault of a copy that the crew handed over takes effect at this instruction boundary (R133). With `want` given,
an instruction of another operation is left for its own command. A reserved or illegal instruction faults whether or not a thread
participates in it, as R117 has no condition; without one it names the path's lowest thread (log entry 47). -/
def State.issue (s : State) (core key : Nat) (want : Option (Nat × Nat)) : State :=
  match s.crew core key with
  | none => s
  | some x =>
    match x.copyFault with
    | some (code, addr) => s.pathFault core key code addr 0
    | none =>
      match s.nextIssue core key x with
      | none => s
      | some z =>
        let other := match want with
          | some (c, o) => z.i.known && !(decide (z.i.cls = c) && decide (z.i.op = o))
          | none => false
        if other then s
        else if !(z.i.known && z.i.legal x.width x.regs) then s.trapAt z 0x01 ((bitList x.width z.act).headD z.lead)
        else if x.blocked (z.i.sources x.width) then s
        else
          match x.badSource z.act (z.i.sources x.width) with
          | some r => s.crewLost core key r
          | none => s.effect z

/-- Whether a resident crew is ready (R79): it runs, its next instruction is there, its sources have no result outstanding, and the
access or the engine that it needs can take it. -/
def State.readyCrew (s : State) (core key : Nat) (x : Crew) : Bool :=
  decide (x.state = .running) && !x.retry && x.copyFault.isNone &&
    (match s.nextIssue core key x with
     | some z => !(z.i.known && z.i.legal x.width x.regs) || !x.blocked (z.i.sources x.width)
     | none => false) &&
    !(s.issue core key none).stalled

/-- Whether an older crew of a crew's quarter is ready, so that the scheduler issues that one's instruction (R80, R81). -/
def State.olderReady (s : State) (core key : Nat) (x : Crew) : Bool :=
  ((s.core core).quarter (key / 48)).any (fun e => decide (e.2.age < x.age) && s.readyCrew core e.1 e.2)

/-- A thread instruction's command: the crew runs, no retry of a scratch access is pending, no older crew of its quarter is ready, and the
operation is its next (R80). -/
def State.thread (s : State) (c : CrewId) (cls op : Nat) : State :=
  match s.crew c.core (ckey c) with
  | some x =>
    if x.state = .running ∧ x.retry = false ∧ s.olderReady c.core (ckey c) x = false then
      s.orWait (s.issue c.core (ckey c) (some (cls, op)))
    else s
  | none => s

/-- SCRATCH_RETRY: a scratch access that a collision held back is presented again (R211); that of a halted crew waits for its next
step. -/
def execScratchRetry (c : CrewId) (s : State) : Outcome := s.waits <|
  match s.crew c.core (ckey c) with
  | some x =>
    if x.retry = true ∧ x.state = .running then
      .next ((s.modCrew c.core (ckey c) (fun x => { x with retry := false })).issue c.core (ckey c) none)
    else .next s
  | none => .next s

/-- IADD: class 1, operation 0x00 of Table 4-9. -/
def execIadd (c : CrewId) (s : State) : Outcome := .next (s.thread c 1 0x00)

/-- ISUB: class 1, operation 0x01 of Table 4-9. -/
def execIsub (c : CrewId) (s : State) : Outcome := .next (s.thread c 1 0x01)

/-- IMUL: class 1, operation 0x02 of Table 4-9. -/
def execImul (c : CrewId) (s : State) : Outcome := .next (s.thread c 1 0x02)

/-- IMULH: class 1, operation 0x03 of Table 4-9. -/
def execImulh (c : CrewId) (s : State) : Outcome := .next (s.thread c 1 0x03)

/-- IMAD: class 1, operation 0x04 of Table 4-9. -/
def execImad (c : CrewId) (s : State) : Outcome := .next (s.thread c 1 0x04)

/-- IMIN: class 1, operation 0x05 of Table 4-9. -/
def execImin (c : CrewId) (s : State) : Outcome := .next (s.thread c 1 0x05)

/-- IMAX: class 1, operation 0x06 of Table 4-9. -/
def execImax (c : CrewId) (s : State) : Outcome := .next (s.thread c 1 0x06)

/-- IABS: class 1, operation 0x07 of Table 4-9. -/
def execIabs (c : CrewId) (s : State) : Outcome := .next (s.thread c 1 0x07)

/-- AND: class 1, operation 0x08 of Table 4-9. -/
def execAndOp (c : CrewId) (s : State) : Outcome := .next (s.thread c 1 0x08)

/-- OR: class 1, operation 0x09 of Table 4-9. -/
def execOrOp (c : CrewId) (s : State) : Outcome := .next (s.thread c 1 0x09)

/-- XOR: class 1, operation 0x0A of Table 4-9. -/
def execXorOp (c : CrewId) (s : State) : Outcome := .next (s.thread c 1 0x0A)

/-- ANDN: class 1, operation 0x0B of Table 4-9. -/
def execAndn (c : CrewId) (s : State) : Outcome := .next (s.thread c 1 0x0B)

/-- SHL: class 1, operation 0x0C of Table 4-9. -/
def execShl (c : CrewId) (s : State) : Outcome := .next (s.thread c 1 0x0C)

/-- SHR: class 1, operation 0x0D of Table 4-9. -/
def execShr (c : CrewId) (s : State) : Outcome := .next (s.thread c 1 0x0D)

/-- POPC: class 1, operation 0x0E of Table 4-9. -/
def execPopc (c : CrewId) (s : State) : Outcome := .next (s.thread c 1 0x0E)

/-- CLZ: class 1, operation 0x0F of Table 4-9. -/
def execClz (c : CrewId) (s : State) : Outcome := .next (s.thread c 1 0x0F)

/-- BREV: class 1, operation 0x10 of Table 4-9. -/
def execBrev (c : CrewId) (s : State) : Outcome := .next (s.thread c 1 0x10)

/-- BFE: class 1, operation 0x11 of Table 4-9. -/
def execBfe (c : CrewId) (s : State) : Outcome := .next (s.thread c 1 0x11)

/-- BFI: class 1, operation 0x12 of Table 4-9. -/
def execBfi (c : CrewId) (s : State) : Outcome := .next (s.thread c 1 0x12)

/-- IDIV: class 1, operation 0x13 of Table 4-9. -/
def execIdiv (c : CrewId) (s : State) : Outcome := .next (s.thread c 1 0x13)

/-- IREM: class 1, operation 0x14 of Table 4-9. -/
def execIrem (c : CrewId) (s : State) : Outcome := .next (s.thread c 1 0x14)

/-- DADD: class 2, operation 0 of Table 4-9. -/
def execDadd (c : CrewId) (s : State) : Outcome := .next (s.thread c 2 0)

/-- DSUB: class 2, operation 1 of Table 4-9. -/
def execDsub (c : CrewId) (s : State) : Outcome := .next (s.thread c 2 1)

/-- DMUL: class 2, operation 2 of Table 4-9. -/
def execDmul (c : CrewId) (s : State) : Outcome := .next (s.thread c 2 2)

/-- DFMA: class 2, operation 3 of Table 4-9. -/
def execDfma (c : CrewId) (s : State) : Outcome := .next (s.thread c 2 3)

/-- DMIN: class 2, operation 4 of Table 4-9. -/
def execDmin (c : CrewId) (s : State) : Outcome := .next (s.thread c 2 4)

/-- DMAX: class 2, operation 5 of Table 4-9. -/
def execDmax (c : CrewId) (s : State) : Outcome := .next (s.thread c 2 5)

/-- DDIV: class 2, operation 6 of Table 4-9. -/
def execDdiv (c : CrewId) (s : State) : Outcome := .next (s.thread c 2 6)

/-- DSQRT: class 2, operation 7 of Table 4-9. -/
def execDsqrt (c : CrewId) (s : State) : Outcome := .next (s.thread c 2 7)

/-- FADD: class 3, operation 0 of Table 4-9. -/
def execFadd (c : CrewId) (s : State) : Outcome := .next (s.thread c 3 0)

/-- FSUB: class 3, operation 1 of Table 4-9. -/
def execFsub (c : CrewId) (s : State) : Outcome := .next (s.thread c 3 1)

/-- FMUL: class 3, operation 2 of Table 4-9. -/
def execFmul (c : CrewId) (s : State) : Outcome := .next (s.thread c 3 2)

/-- FFMA: class 3, operation 3 of Table 4-9. -/
def execFfma (c : CrewId) (s : State) : Outcome := .next (s.thread c 3 3)

/-- FMIN: class 3, operation 4 of Table 4-9. -/
def execFmin (c : CrewId) (s : State) : Outcome := .next (s.thread c 3 4)

/-- FMAX: class 3, operation 5 of Table 4-9. -/
def execFmax (c : CrewId) (s : State) : Outcome := .next (s.thread c 3 5)

/-- FDIV: class 3, operation 6 of Table 4-9. -/
def execFdiv (c : CrewId) (s : State) : Outcome := .next (s.thread c 3 6)

/-- FSQRT: class 3, operation 7 of Table 4-9. -/
def execFsqrt (c : CrewId) (s : State) : Outcome := .next (s.thread c 3 7)

/-- FRCP: class 3, operation 8 of Table 4-9. -/
def execFrcp (c : CrewId) (s : State) : Outcome := .next (s.thread c 3 8)

/-- FRSQ: class 3, operation 9 of Table 4-9. -/
def execFrsq (c : CrewId) (s : State) : Outcome := .next (s.thread c 3 9)

/-- FEXP2: class 3, operation 0x0A of Table 4-9. -/
def execFexp2 (c : CrewId) (s : State) : Outcome := .next (s.thread c 3 0x0A)

/-- FLOG2: class 3, operation 0x0B of Table 4-9. -/
def execFlog2 (c : CrewId) (s : State) : Outcome := .next (s.thread c 3 0x0B)

/-- HADD2: class 4, operation 0 of Table 4-9. -/
def execHadd2 (c : CrewId) (s : State) : Outcome := .next (s.thread c 4 0)

/-- HSUB2: class 4, operation 1 of Table 4-9. -/
def execHsub2 (c : CrewId) (s : State) : Outcome := .next (s.thread c 4 1)

/-- HMUL2: class 4, operation 2 of Table 4-9. -/
def execHmul2 (c : CrewId) (s : State) : Outcome := .next (s.thread c 4 2)

/-- HFMA2: class 4, operation 3 of Table 4-9. -/
def execHfma2 (c : CrewId) (s : State) : Outcome := .next (s.thread c 4 3)

/-- HMIN2: class 4, operation 4 of Table 4-9. -/
def execHmin2 (c : CrewId) (s : State) : Outcome := .next (s.thread c 4 4)

/-- HMAX2: class 4, operation 5 of Table 4-9. -/
def execHmax2 (c : CrewId) (s : State) : Outcome := .next (s.thread c 4 5)

/-- HDOT2: class 4, operation 6 of Table 4-9. -/
def execHdot2 (c : CrewId) (s : State) : Outcome := .next (s.thread c 4 6)

/-- CVT: class 5, operation 0 of Table 4-9. -/
def execCvt (c : CrewId) (s : State) : Outcome := .next (s.thread c 5 0)

/-- FRND: class 5, operation 1 of Table 4-9. -/
def execFrnd (c : CrewId) (s : State) : Outcome := .next (s.thread c 5 1)

/-- ICMP: class 6, operation 0 of Table 4-9. -/
def execIcmp (c : CrewId) (s : State) : Outcome := .next (s.thread c 6 0)

/-- DCMP: class 6, operation 1 of Table 4-9. -/
def execDcmp (c : CrewId) (s : State) : Outcome := .next (s.thread c 6 1)

/-- FCMP: class 6, operation 2 of Table 4-9. -/
def execFcmp (c : CrewId) (s : State) : Outcome := .next (s.thread c 6 2)

/-- SEL: class 6, operation 3 of Table 4-9. -/
def execSel (c : CrewId) (s : State) : Outcome := .next (s.thread c 6 3)

/-- PLOP: class 6, operation 4 of Table 4-9. -/
def execPlop (c : CrewId) (s : State) : Outcome := .next (s.thread c 6 4)

/-- BRC: class 7, operation 0 of Table 4-9. -/
def execBrc (c : CrewId) (s : State) : Outcome := .next (s.thread c 7 0)

/-- BRX: class 7, operation 1 of Table 4-9. -/
def execBrx (c : CrewId) (s : State) : Outcome := .next (s.thread c 7 1)

/-- CALL: class 7, operation 2 of Table 4-9. -/
def execCall (c : CrewId) (s : State) : Outcome := .next (s.thread c 7 2)

/-- JOIN: class 7, operation 3 of Table 4-9. -/
def execJoin (c : CrewId) (s : State) : Outcome := .next (s.thread c 7 3)

/-- EXIT: class 7, operation 4 of Table 4-9. -/
def execExitOp (c : CrewId) (s : State) : Outcome := .next (s.thread c 7 4)

/-- CBAR: class 7, operation 5 of Table 4-9. -/
def execCbar (c : CrewId) (s : State) : Outcome := .next (s.thread c 7 5)

/-- LD: class 8, operation 0 of Table 4-9. -/
def execLd (c : CrewId) (s : State) : Outcome := .next (s.thread c 8 0)

/-- ST: class 8, operation 1 of Table 4-9. -/
def execSt (c : CrewId) (s : State) : Outcome := .next (s.thread c 8 1)

/-- LDU: class 8, operation 2 of Table 4-9. -/
def execLdu (c : CrewId) (s : State) : Outcome := .next (s.thread c 8 2)

/-- MEMORY_FENCE: class 8, operation 3 of Table 4-9. -/
def execMemoryFence (c : CrewId) (s : State) : Outcome := .next (s.thread c 8 3)

/-- AADD: class 9, operation 0 of Table 4-9. -/
def execAadd (c : CrewId) (s : State) : Outcome := .next (s.thread c 9 0)

/-- AMIN: class 9, operation 1 of Table 4-9. -/
def execAmin (c : CrewId) (s : State) : Outcome := .next (s.thread c 9 1)

/-- AMAX: class 9, operation 2 of Table 4-9. -/
def execAmax (c : CrewId) (s : State) : Outcome := .next (s.thread c 9 2)

/-- AAND: class 9, operation 3 of Table 4-9. -/
def execAand (c : CrewId) (s : State) : Outcome := .next (s.thread c 9 3)

/-- AOR: class 9, operation 4 of Table 4-9. -/
def execAor (c : CrewId) (s : State) : Outcome := .next (s.thread c 9 4)

/-- AXOR: class 9, operation 5 of Table 4-9. -/
def execAxor (c : CrewId) (s : State) : Outcome := .next (s.thread c 9 5)

/-- AXCH: class 9, operation 6 of Table 4-9. -/
def execAxch (c : CrewId) (s : State) : Outcome := .next (s.thread c 9 6)

/-- ACAS: class 9, operation 7 of Table 4-9. -/
def execAcas (c : CrewId) (s : State) : Outcome := .next (s.thread c 9 7)

/-- AFADD: class 9, operation 8 of Table 4-9. -/
def execAfadd (c : CrewId) (s : State) : Outcome := .next (s.thread c 9 8)

/-- ADFADD: class 9, operation 9 of Table 4-9. -/
def execAdfadd (c : CrewId) (s : State) : Outcome := .next (s.thread c 9 9)

/-- LARRIVE: class 0xA, operation 0 of Table 4-9. -/
def execLarrive (c : CrewId) (s : State) : Outcome := .next (s.thread c 0xA 0)

/-- LWAIT: class 0xA, operation 1 of Table 4-9. -/
def execLwait (c : CrewId) (s : State) : Outcome := .next (s.thread c 0xA 1)

/-- LARRWAIT: class 0xA, operation 2 of Table 4-9. -/
def execLarrwait (c : CrewId) (s : State) : Outcome := .next (s.thread c 0xA 2)

/-- LTEST: class 0xA, operation 3 of Table 4-9. -/
def execLtest (c : CrewId) (s : State) : Outcome := .next (s.thread c 0xA 3)

/-- SHFL_IDX: class 0xB, operation 0 of Table 4-9. -/
def execShflIdx (c : CrewId) (s : State) : Outcome := .next (s.thread c 0xB 0)

/-- SHFL_UP: class 0xB, operation 1 of Table 4-9. -/
def execShflUp (c : CrewId) (s : State) : Outcome := .next (s.thread c 0xB 1)

/-- SHFL_DOWN: class 0xB, operation 2 of Table 4-9. -/
def execShflDown (c : CrewId) (s : State) : Outcome := .next (s.thread c 0xB 2)

/-- SHFL_XOR: class 0xB, operation 3 of Table 4-9. -/
def execShflXor (c : CrewId) (s : State) : Outcome := .next (s.thread c 0xB 3)

/-- VOTE_ANY: class 0xB, operation 4 of Table 4-9. -/
def execVoteAny (c : CrewId) (s : State) : Outcome := .next (s.thread c 0xB 4)

/-- VOTE_ALL: class 0xB, operation 5 of Table 4-9. -/
def execVoteAll (c : CrewId) (s : State) : Outcome := .next (s.thread c 0xB 5)

/-- BALLOT: class 0xB, operation 6 of Table 4-9. -/
def execBallot (c : CrewId) (s : State) : Outcome := .next (s.thread c 0xB 6)

/-- REDUX_ADD: class 0xB, operation 7 of Table 4-9. -/
def execReduxAdd (c : CrewId) (s : State) : Outcome := .next (s.thread c 0xB 7)

/-- REDUX_MIN: class 0xB, operation 8 of Table 4-9. -/
def execReduxMin (c : CrewId) (s : State) : Outcome := .next (s.thread c 0xB 8)

/-- REDUX_MAX: class 0xB, operation 9 of Table 4-9. -/
def execReduxMax (c : CrewId) (s : State) : Outcome := .next (s.thread c 0xB 9)

/-- UFROM: class 0xB, operation 0x0A of Table 4-9. -/
def execUfrom (c : CrewId) (s : State) : Outcome := .next (s.thread c 0xB 0x0A)

/-- FDMA: class 0xC, operation 0 of Table 4-9. -/
def execFdma (c : CrewId) (s : State) : Outcome := .next (s.thread c 0xC 0)

/-- PF_L1: class 0xD, operation 0 of Table 4-9. -/
def execPfL1 (c : CrewId) (s : State) : Outcome := .next (s.thread c 0xD 0)

/-- PF_GC: class 0xD, operation 1 of Table 4-9. -/
def execPfGc (c : CrewId) (s : State) : Outcome := .next (s.thread c 0xD 1)

/-- INV_L1: class 0xD, operation 2 of Table 4-9. -/
def execInvL1 (c : CrewId) (s : State) : Outcome := .next (s.thread c 0xD 2)

/-- INV_L1ALL: class 0xD, operation 3 of Table 4-9. -/
def execInvL1all (c : CrewId) (s : State) : Outcome := .next (s.thread c 0xD 3)

/-- INV_IC: class 0xD, operation 4 of Table 4-9. -/
def execInvIc (c : CrewId) (s : State) : Outcome := .next (s.thread c 0xD 4)

/-- MOV: class 0xE, operation 1 of Table 4-9. -/
def execMov (c : CrewId) (s : State) : Outcome := .next (s.thread c 0xE 1)

/-- UMOV: class 0xE, operation 2 of Table 4-9. -/
def execUmov (c : CrewId) (s : State) : Outcome := .next (s.thread c 0xE 2)

/-- RDS: class 0xE, operation 3 of Table 4-9. -/
def execRds (c : CrewId) (s : State) : Outcome := .next (s.thread c 0xE 3)

/-- WRS: class 0xE, operation 4 of Table 4-9. -/
def execWrs (c : CrewId) (s : State) : Outcome := .next (s.thread c 0xE 4)

/-- BRK: class 0xE, operation 5 of Table 4-9. -/
def execBrk (c : CrewId) (s : State) : Outcome := .next (s.thread c 0xE 5)

/-- NOP_INSTRUCTION: class 0xE, operation 0 of Table 4-9. -/
def execNopInstruction (c : CrewId) (s : State) : Outcome := .next (s.thread c 0xE 0)

end Sys2Proof.Machine
end

