-- ==== Sys2Proof/Machine/Debug.lean ====
section
/-! DEFINITION. Crew debug (03_crew_execution.md R102 to R106, 17_debug_counters_trace.md R430): opening and closing a session, and
the five operations of Table 3-8 on the crew that the request in progress on a path names. -/

namespace Sys2Proof.Machine

open Sys2Proof

/-- DEBUG_OPEN: a debug session of the operator's partition is open (R102). -/
def execDebugOpen (path : Nat) (s : State) : Outcome :=
  .next (s.command path 0x0701 (fun t _ =>
    let q := t.part.getD 0
    (s.setPart q { s.part q with debugOpen := true }).reply path 0 0 []))

/-- DEBUG_CLOSE: the session is closed. -/
def execDebugClose (path : Nat) (s : State) : Outcome :=
  .next (s.command path 0x0702 (fun t _ =>
    let q := t.part.getD 0
    (s.setPart q { s.part q with debugOpen := false }).reply path 0 0 []))

/-! ### The request -/

/-- The core and the crew key that a `CREW_DEBUG` request names (Table 17-10). -/
def debugCore (u : Sub) : Nat := field (u.bytesOf 1) 0 2
def debugKey (u : Sub) : Nat := 48 * field (u.bytesOf 1) 2 1 + field (u.bytesOf 1) 3 1

/-- Answers a debug request with fields that carry the types of Table 17-10. -/
def State.replyTyped (s : State) (path : Nat) (body : List Byte) : State :=
  match (mfind s.taken path).bind (·.cur) with
  | none => s
  | some u =>
    let s := s.auditEnd u.audit 0
    (s.addResponse path 0 (responseBytes u.gen u.code u.tag 0 body)).goOn path

/-- Runs one operation of Table 3-8: `CREW_DEBUG` with this `OP` from the operator of the crew's partition, with a session open, on a
resident crew; a crew that has faulted can only be read. An `OP` outside 1 to 5 is answered by any of the five. -/
def State.debug (s : State) (path op : Nat) (f : Sub → Nat → Nat → Crew → State) : State :=
  s.command path 0x0703 (fun t u =>
    let q := t.part.getD 0
    let core := debugCore u
    let key := debugKey u
    if u.num 2 = 0 ∨ 5 < u.num 2 then s.reply path 0x0A 2 []
    else if u.num 2 ≠ op then s
    else if (s.part q).debugOpen = false then s.reply path 3 0 []
    else if s.partOfCore core ≠ some q then s.reply path 4 1 []
    else
      match if field (u.bytesOf 1) 2 1 < 4 ∧ field (u.bytesOf 1) 3 1 < 48 then s.crew core key else none with
      | none => s.reply path 0x10 0 []
      | some c => if c.state = .faulted ∧ op ≠ 2 then s.reply path 0x0F 0 [] else f u core key c)

/-! ### Halt, step and resume -/

/-- HALT: the outstanding results are written and the crew enters HALTED, behind a scratch access that is still being retried (Table
3-8). A crew whose last thread has exited leaves instead (R105); one that is halted already is refused, as the table does not
accept the operation there. -/
def execHaltCrew (path : Nat) (s : State) : Outcome :=
  .next (s.debug path 1 (fun _ core key c =>
    if c.state = .halted then s.reply path 3 0 []
    else if c.allExited then s.reply path 0x10 0 []
    else if c.retry then s
    else
      let (s, t) := s.sampleClock core
      (s.setCrew core key { c.settled with state := .halted, idleFrom := t }).reply path 0 0 []))

/-- The crew as a step leaves it: HALTED again, unless it faulted. A result of the stepped instruction is still on its way; whether it is
written before the step is answered is not stated (log entry 46). -/
def State.haltAgain (s : State) (core key from' : Nat) : State :=
  s.modCrew core key (fun c => if c.state = .faulted then c else { c with state := .halted, idleFrom := from' })

/-- STEP: a halted crew executes one instruction of its current path (R103). While that instruction's words or sources are missing,
or a collision holds it back, the step is still to come. -/
def execStepCrew (path : Nat) (s : State) : Outcome :=
  s.waits <| .next (s.debug path 4 (fun _ core key c =>
    if c.state ≠ .halted then s.reply path 3 0 []
    else
      let c := { c.wake with state := .halted }
      match c.path with
      | none => s.reply path 0x11 0 []
      | some _ =>
        let s := s.setCrew core key { c with retry := false }
        let ready := match s.nextIssue core key c with
          | some z => c.copyFault.isSome || !(z.i.known && z.i.legal c.width c.regs) || !c.blocked (z.i.sources c.width)
          | none => c.copyFault.isSome
        if !ready then s
        else
          let s := (s.issue core key none).haltAgain core key c.idleFrom
          match s.crew core key with
          | some c => if c.retry then s else s.reply path 0 0 []
          | none => s.reply path 0 0 []))

/-- RESUME: the crew re-enters RUNNING, or WAITING without a current path; the time that it was halted does not count for its watchdog
(R97). One that was halted at a pre-emption takes a new age (R105). A fault of one of its copies takes effect, and the stranded
check runs (R106). -/
def execResume (path : Nat) (s : State) : Outcome :=
  .next (s.debug path 5 (fun _ core key c =>
    if c.state ≠ .halted then s.reply path 3 0 []
    else
      let (s, t) := s.sampleClock core
      let q := key / 48
      let seq := mget 0 (s.core core).ageSeq q
      let s := if c.newAge then s.modCore core (fun k => { k with ageSeq := mset 0 k.ageSeq q (seq + 1) }) else s
      let c : Crew := { c with
        age := if c.newAge then seq else c.age
        newAge := false
        excluded := c.excluded + (t - c.idleFrom)
        state := if c.path.isSome || c.allExited then .running else .waiting }
      let s := s.setCrew core key c.wake
      let s := match c.copyFault with
        | some (code, a) => s.pathFault core key code a 0
        | none => s.strandCheck core key
      s.reply path 0 0 []))

/-! ### Reading and writing state -/

/-- The header of a `VREGS` field: thread, first register and count; without the field, thread 0 and every register. -/
def vregsOf (u : Sub) (c : Crew) : Nat × Nat × Nat :=
  if u.has 4 then (field (u.bytesOf 4) 0 1, field (u.bytesOf 4) 1 1, field (u.bytesOf 4) 2 1) else (0, 0, c.regs)

/-- The header of a `UREGS` field: first register and count; without the field, all of them. -/
def uregsOf (u : Sub) : Nat × Nat := if u.has 5 then (field (u.bytesOf 5) 0 1, field (u.bytesOf 5) 1 1) else (0, 64)

/-- Whether the registers that a request names lie in the crew's allocation (R107, R109). -/
def vregsFit (c : Crew) (v : Nat × Nat × Nat) : Bool := decide (v.1 < c.width) && decide (v.2.1 + v.2.2 ≤ c.regs)
def uregsFit (v : Nat × Nat) : Bool := decide (v.1 + v.2 ≤ 64)

/-- A stack entry as Table 17-10 lays it out; its kind byte and the barrier byte of an entry without one are not stated (log entry
8). -/
def stackBytes : StackEntry → List Byte
  | .join a m => [Config.stackKind 0, Config.noBarrier] ++ zeros 6 ++ toBytes 8 a ++ toBytes 8 m
  | .pending pc m .runnable => [Config.stackKind 1, Config.noBarrier] ++ zeros 6 ++ toBytes 8 pc ++ toBytes 8 m
  | .pending pc m (.barrier b) => [Config.stackKind 2] ++ toBytes 1 b ++ zeros 6 ++ toBytes 8 pc ++ toBytes 8 m
  | .pending pc m (.landing _ _) => [Config.stackKind 3, Config.noBarrier] ++ zeros 6 ++ toBytes 8 pc ++ toBytes 8 m

/-- The fields that a `WHAT` mask asks for, under the types of Table 17-10, in the order of the types; the stack comes with the current path's program counter, 0
without one. Table 3-8 has Read state return the current path's mask, `BB_COUNT` and the fault record too, for which Table 17-10 has no type:
they come with the stack, in a form that is left open (log entry 50). -/
def readFields (u : Sub) (c : Crew) : List Byte :=
  let w := u.num 3
  let (t, r, n) := vregsOf u c
  let (ur, un) := uregsOf u
  let add := fun (i ty : Nat) (v : List Byte) => if bit w i then fieldBytes ty v else []
  let pc := match c.path with | some (pc, _) => pc | none => 0
  add 0 4 (toBytes 1 t ++ toBytes 1 r ++ toBytes 1 n ++ zeros 1 ++
      (List.range n).flatMap (fun i => toBytes 4 (mget 0 c.v (256 * t + r + i)).toNat)) ++
    add 1 5 (toBytes 1 ur ++ toBytes 1 un ++ zeros 2 ++ (List.range un).flatMap (fun i => toBytes 8 (mget 0 c.u (ur + i)).toNat)) ++
    add 2 6 ((List.range 8).flatMap (fun i => toBytes 8 (c.pred i))) ++
    add 3 7 (toBytes 8 pc) ++
    add 3 8 (c.stack.flatMap stackBytes) ++
    (if bit w 3 then
      Config.pathFields [(match c.path with | some (_, m) => m | none => 0), c.bb,
        c.fault.code, c.fault.addr, c.fault.pc, c.fault.mask, c.fault.thread]
     else []) ++
    add 4 9 ((List.range 4).flatMap (fun b => toBytes 8 (mget 0 c.barriers b))) ++
    add 5 0x0A (toBytes 4 c.flags)

/-- READ_STATE: the fields of the `WHAT` mask of any resident crew. -/
def execReadState (path : Nat) (s : State) : Outcome :=
  .next (s.debug path 2 (fun u _ _ c =>
    if bit (u.num 3) 0 && !vregsFit c (vregsOf u c) then s.reply path 3 4 []
    else if bit (u.num 3) 1 && !uregsFit (uregsOf u) then s.reply path 3 5 []
    else s.replyTyped path (readFields u c)))

/-- A crew with the fields of a write request in its registers, in the order of their types; p7 is not writable. Results still on their
way for those registers are older, and are discarded (R111). -/
def writtenCrew (u : Sub) (c : Crew) : Crew :=
  let (t, r, n) := vregsOf u c
  let (ur, un) := uregsOf u
  let vs := if u.has 4 then (List.range n).map (fun i =>
    RegWrite.v t (r + i) (BitVec.ofNat 32 (field (u.bytesOf 4) (4 + 4 * i) 4))) else []
  let us := if u.has 5 then (List.range un).map (fun i =>
    RegWrite.u (ur + i) (BitVec.ofNat 64 (field (u.bytesOf 5) (4 + 8 * i) 8))) else []
  let ps := if u.has 6 then (List.range 7).map (fun i => RegWrite.p i c.allMask (field (u.bytesOf 6) (8 * i) 8)) else []
  let c := (c.commitAll (vs ++ us ++ ps)).discard (vs ++ us ++ ps) (fun _ => true)
  match u.num? 7, c.path with
  | some pc, some (_, m) => { c with path := some (pc, m) }
  | _, _ => c

/-- WRITE_STATE: sets registers, p0 to p6 and the program counter of the current path of a halted crew (Table 3-8). A field whose count does
not fit its length, registers outside the crew's allocation, and a program counter for a crew without a current path are refused, and
nothing is written. -/
def execWriteState (path : Nat) (s : State) : Outcome :=
  .next (s.debug path 3 (fun u core key c =>
    let v := vregsOf u c
    let w := uregsOf u
    if c.state ≠ .halted then s.reply path 3 0 []
    else if u.has 4 && !(vregsFit c v && decide ((u.bytesOf 4).length = 4 + 4 * v.2.2)) then s.reply path 3 4 []
    else if u.has 5 && !(uregsFit w && decide ((u.bytesOf 5).length = 4 + 8 * w.2)) then s.reply path 3 5 []
    else if u.has 7 && c.path.isNone then s.reply path 3 7 []
    else (s.setCrew core key (writtenCrew u c)).reply path 0 0 []))

end Sys2Proof.Machine
end

