-- ==== Sys2Proof/Machine/Partitions.lean ====
section
/-! DEFINITION. Commands on a partition and its memory (09_hbm_memory_system.md R244, R247, R249, R256; 11_partitions_and_isolation.md
R282 to R286, R291, R292, R296, R297, R299 to R302): regions, stage-2 mappings, shared segments, channels, partitions, buckets and host
cores. Their fields are those of Table 14-11. -/

namespace Sys2Proof.Machine

open Sys2Proof

/-- 2 MiB. -/
def mib2 : Nat := 2 ^ 21

/-- Whether a removal or a resize of a partition is under way (R364). -/
def State.partBusy (s : State) (q : Nat) : Bool :=
  s.drains.any (fun d => decide (d.obj = .part q)) ||
    s.moveJobs.any (fun j => match j.cause with | .groups p _ => decide (p = q) | _ => false)

/-! ### Regions -/

/-- The end of a region, a queued growth of it included. -/
def State.regionEnd (s : State) (key : Nat) (r : Region) : Nat :=
  (s.moveJobs.foldl (fun e j => match j.cause with
    | .change k z _ _ => if k = key then max e (r.base + z) else e
    | _ => e) (r.base + r.size))

/-- Whether a range meets no other region of the partition (R244). -/
def State.regionFits (s : State) (q key base size : Nat) : Bool :=
  !s.regions.any (fun e => decide (e.1 / 64 = q) && decide (e.1 ≠ key) && decide (e.2.base < base + size) &&
    decide (base < s.regionEnd e.1 e.2))

/-- The `DIE` of Table 9-2. -/
def dieOk (groups mode die : Nat) : Bool :=
  if mode = 0 then decide (die < 4) && decide (bits groups (8 * die) 8 ≠ 0) else decide (die = 0)

/-- REGION_CREATE (R244, R247): the lowest free region of the partition. -/
def execRegionCreate (path : Nat) (s : State) : Outcome :=
  .next (s.command path 0x0301 (fun t u =>
    let q := t.part.getD 8
    let groups := (s.part q).groups
    let (base, size, mode, die) := (u.num 1, u.num 2, u.num 3, u.num 4)
    s.checked path 3 [
        (decide (base % mib2 = 0) && decide (base < 2 ^ 40) && s.regionFits q 512 base size, 1),
        (decide (size % mib2 = 0) && decide (size ≠ 0) && decide (base + size ≤ 2 ^ 40), 2), (decide (mode ≤ 2), 3), (dieOk groups mode die, 4)]
      (if s.partBusy q then s.reply path 2 0 []
      else
        match (List.range 64).find? (fun i => (mfind s.regions (64 * q + i)).isNone) with
        | none => s.reply path 0x12 0 []
        | some i =>
          match s.allocate (.region q i) (decide (mode = 1)) (size / 128) (s.targetLists groups mode die (fun _ => false)) with
          | none => s.reply path 0x12 0 []
          | some (s, layout) =>
            let r : Region := { base, size, mode, die, layout }
            { s with regions := minsert s.regions (64 * q + i) r }.reply path 0 0 [toBytes 1 i])))

/-- REGION_CHANGE (R247): a change of size, mode or die moves the region by a watermark rebuild, and is answered when that ends. A field that is
absent keeps its value (R365), so that a mode whose `DIE` is 0 must be asked for with it where the region's is another. -/
def execRegionChange (path : Nat) (s : State) : Outcome :=
  .next (s.command path 0x0302 (fun t u =>
    let q := t.part.getD 8
    let key := 64 * q + u.num 1
    match mfind s.regions key with
    | none => s.reply path 3 1 []
    | some r =>
      if 64 ≤ u.num 1 then s.reply path 3 1 []
      else
        let size := (u.num? 2).getD r.size
        let mode := (u.num? 3).getD r.mode
        let die := (u.num? 4).getD r.die
        s.checked path 3 [
            (decide (size % mib2 = 0) && decide (size ≠ 0) && decide (r.base + size ≤ 2 ^ 40) && s.regionFits q key r.base size, 2),
            (decide (mode ≤ 2), 3), (dieOk (s.part q).groups mode die, 4)]
          (if s.moveJobs.any (fun j => match j.cause with | .change k _ _ _ => decide (k = key) | _ => false) ||
              s.drains.any (fun d => decide (d.obj = .part q)) then s.reply path 2 1 []
          else if size = r.size ∧ mode = r.mode ∧ die = r.die then s.reply path 0 0 []
          else
            let j : MoveJob := { cause := .change key size mode die, todo := [key], path := some path }
            let s := s.await path
            State.startMoves 600 { s with moveJobs := s.moveJobs ++ [j] })))

/-- A region is gone: its rebuild stops, its lines are freed, and a change under way is answered `ABORTED` (R247, R259). -/
def State.dropRegion (s : State) (key : Nat) (r : Region) : State :=
  let s := s.dropRange (key / 64) r.base r.size
  let mine := fun (j : MoveJob) => match j.cause with | .change k _ _ _ => decide (k = key) | _ => false
  let jobs := s.moveJobs.filter mine
  let s : State := { (s.release (.region (key / 64) (key % 64))).release (.regionNew (key / 64) (key % 64)) with
    regions := merase s.regions key
    rebuilds := s.rebuilds.filter (fun b => decide (64 * b.part + b.idx ≠ key))
    moveJobs := (s.moveJobs.filter (fun j => !mine j)).map (fun j => { j with todo := j.todo.filter (fun k => decide (k ≠ key)) }) }
  State.startMoves 600 (jobs.foldl (fun s j => s.answer j.path 1 0 []) s)

/-- REGION_DESTROY (R247). -/
def execRegionDestroy (path : Nat) (s : State) : Outcome := s.waits <|
  .next (s.command path 0x0303 (fun t u =>
    let key := 64 * t.part.getD 8 + u.num 1
    match mfind s.regions key with
    | none => s.reply path 3 1 []
    | some r => if 64 ≤ u.num 1 then s.reply path 3 1 [] else (s.dropRegion key r).reply path 0 0 []))

/-! ### Stage 2 -/

/-- How many blocks a list of ranges of blocks touches; the ranges rise by their first block. -/
def unionCount : Nat → List (Nat × Nat) → Nat
  | _, [] => 0
  | first, (a, b) :: rest =>
    let a := max a first
    if b < a then unionCount first rest else (b - a + 1) + unionCount (b + 1) rest

/-- The blocks of 2^k bytes that mappings with pages below a limit touch. -/
def blocksTouched (k limit : Nat) (ms : List S2Map) : Nat :=
  unionCount 0 (sortBy (·.1) ((ms.filter (fun m => decide (m.page < limit))).map (fun m => (m.ia / 2 ^ k, (m.ia + m.size - 1) / 2 ^ k))))

/-- The 4 KiB pages of an Sv48x4 table that holds mappings (R291): a root of four, and a table for each 512 GiB, each 1 GiB under a
page below 1 GiB, and each 2 MiB under a page below 2 MiB. -/
def tablePages (ms : List S2Map) : Nat :=
  4 + blocksTouched 39 (2 ^ 31) ms + blocksTouched 30 (2 ^ 30) ms + blocksTouched 21 (2 ^ 21) ms

/-- The greatest page size, at most that of a mapping, at which a part of it is aligned. -/
def fitPage (page ia pa size : Nat) : Nat :=
  ([2 ^ 30, 2 ^ 21, 65536].find? (fun z => decide (z ≤ page) && decide (ia % z = 0) && decide (pa % z = 0) && decide (size % z = 0))).getD 4096

/-- What is left of a mapping outside a range. -/
def cutMap (lo hi : Nat) (m : S2Map) : List S2Map :=
  if m.ia + m.size ≤ lo ∨ hi ≤ m.ia then [m]
  else
    let part : Nat → Nat → S2Map := fun a b => { m with ia := a, pa := m.pa + (a - m.ia), size := b - a, page := fitPage m.page a (m.pa + (a - m.ia)) (b - a) }
    (if m.ia < lo then [part m.ia lo] else []) ++ (if hi < m.ia + m.size then [part hi (m.ia + m.size)] else [])

/-- Sets a partition's stage-2 mappings: its tables take the room they need, and its translations are invalidated before the answer
(R292, R294). None where no eligible group has room. -/
def State.setStage2 (s : State) (q : Nat) (ms : List S2Map) : Option State :=
  let lines := 32 * tablePages ms
  let same : Bool := match s.tableRun q with | some a => decide (a.count = lines) | none => false
  let s' := if same then some s else s.placeTables q (s.part q).groups lines (fun _ => false)
  s'.map (fun s => { s with
    stage2 := s.stage2.filter (fun (m : S2Map) => decide (m.part ≠ q)) ++ ms
    tlb := s.tlb.filter (fun (e : TlbEntry) => decide (e.part ≠ q)) }.powerStacks)

/-- The mappings of a partition. -/
def State.mapsOf (s : State) (q : Nat) : List S2Map := s.stage2.filter (fun m => decide (m.part = q))

/-- Whether a range of physical addresses leaves the landing access pages alone, which Mitor itself maps: a partition's stage 2 holds those of its
own contexts and no others (R281). -/
def State.pagesOwn (s : State) (q pa size : Nat) : Bool :=
  (List.range 64).all (fun n =>
    let base := 0x10000000000 + 0x4000 * n
    decide (pa + size ≤ base) || decide (base + 0x4000 ≤ pa) || (decide ((s.ctx n).state ≠ .free) && decide ((s.ctx n).part = q)))

/-- STAGE2_MAP (R291, R292): maps a range, or unmaps it. -/
def execStage2Map (path : Nat) (s : State) : Outcome :=
  .next (s.command path 0x0304 (fun _ u =>
    let q := u.num 1
    let (ia, pa, size, perm) := (u.num 2, u.num 3, u.num 4, u.num 6)
    let page := [4096, 65536, 2 ^ 21, 2 ^ 30].getD (u.num 5) 1
    s.checked path 3 [(decide (q < 8) && (s.part q).live, 1), (decide (ia % page = 0) && decide (ia + size ≤ 2 ^ 48), 2),
        (decide (pa % page = 0) && decide (pa + size ≤ 2 ^ 52) && (decide (perm = 0) || s.pagesOwn q pa size), 3), (decide (size % page = 0) && decide (size ≠ 0), 4), (decide (u.num 5 ≤ 3), 5),
        (decide (perm < 8) && (!bit perm 1 || bit perm 0), 6)]
      (if s.partBusy q || s.tableMoves.any (fun m => decide (m.part = q)) then s.reply path 2 1 []
      else
        let left := (s.mapsOf q).flatMap (cutMap ia (ia + size))
        let m : S2Map := { part := q, ia, pa, size, page, r := bit perm 0, w := bit perm 1, x := bit perm 2 }
        match s.setStage2 q (if perm = 0 then left else m :: left) with
        | some s => s.reply path 0 0 []
        | none => s.reply path 0x12 0 [])))

/-- A partition's tables begin to move to another run of the eligible groups, without pseudo-channels left out (R292). -/
def State.startTableMove (s : State) (q groups : Nat) (out : Nat → Bool) : Option State :=
  match s.tableRun q with
  | none => some s
  | some a =>
    (s.freeRun (s.tableGroups groups) a.count out).map (fun r =>
      let b : Alloc := ⟨r.1, r.2, a.count, .table q 1⟩
      let m : TableMove := { part := q, pc := r.1, base := r.2 }
      { s with allocs := s.allocs ++ [b], tableMoves := s.tableMoves ++ [m] })

/-- A table move ends: the old run is freed. -/
def State.endTableMove (s : State) (m : TableMove) : State :=
  let s := s.release (.table m.part 0)
  { s with
    allocs := s.allocs.map (fun (a : Alloc) => if a.owner = LineOwner.table m.part 1 then { a with owner := LineOwner.table m.part 0 } else a)
    tableMoves := s.tableMoves.filter (fun (x : TableMove) => decide (x.part ≠ m.part)) }.powerStacks

/-- STAGE2_TABLE_MOVE: the next page of the tables on the move is in its new place (R292); after the last one the old place is free, and
queued moving work goes on. -/
def execStage2TableMove (s : State) : Outcome :=
  match s.tableMoves with
  | [] => .next s
  | m :: rest =>
    let pages := match s.tableRun m.part with | some a => a.count / 32 | none => 0
    if m.moved + 1 < pages then .next { s with tableMoves := { m with moved := m.moved + 1 } :: rest }
    else .next (State.startMoves 600 (s.endTableMove m))

/-! ### Shared segments and channels -/

/-- The pseudo-channels on which a stack set of a keeper stores a segment (R296). -/
def State.segTarget (s : State) (keeper mask : Nat) : List (List Nat) :=
  [(s.livePcs (s.part keeper).groups (fun _ => false)).filter (fun pc => bit mask (pc / 64))]

/-- Whether a stack set holds a group of the keeper. -/
def State.stackSetOk (s : State) (keeper mask : Nat) : Bool :=
  (List.range 32).any (fun k => bit (s.part keeper).groups k && bit mask (k / 4))

/-- Writes a segment's contents, line by line. -/
def State.fillSeg (s : State) (l : Layout) : Nat → List Byte → List Nat → State
  | _, _, [] => s
  | x, bs, _ :: rest => (s.segWrite l x (bs.take 128)).fillSeg l (x + 1) (bs.drop 128) rest

/-- SEG_CREATE (R296): the primary, and a copy, are placed and filled from the host address that the installer names. -/
def execSegCreate (path : Nat) (s : State) : Outcome := s.waits <|
  .next (s.command path 0x0305 (fun _ u =>
    let i := u.num 1
    let size := u.num 2
    let keeper := u.num 3
    let mask := u.num 4
    let copy := decide (u.num 5 = 0)
    if u.num 5 = 0 ∧ u.has 6 = false then s.reply path 0x0A 6 []
    else if u.num 5 = 1 ∧ u.has 7 = false then s.reply path 0x0A 7 []
    else s.checked path 3 [(decide (i < 16) && !(s.seg i).live, 1), (decide (size % mib2 = 0) && decide (size ≠ 0) && decide (size ≤ 2 ^ 36), 2),
        (decide (keeper < 8) && (s.part keeper).live, 3), (s.stackSetOk keeper mask, 4), (decide (u.num 5 ≤ 1), 5),
        (!copy || (decide (u.num 6 &&& mask = 0) && s.stackSetOk keeper (u.num 6)), 6), (decide ((u.num? 8).getD 2000 ≤ 100000), 8)]
      (if s.partBusy keeper then s.reply path 2 3 []
      else
        match s.allocate (.segment i) false (size / 128) (s.segTarget keeper mask) with
        | none => s.reply path 0x12 4 []
        | some (s1, l) =>
          let second : Option (State × Golden) :=
            if copy then
              (s1.allocate (.segmentCopy i) false (size / 128) (s1.segTarget keeper (u.num 6))).map (fun e => (e.1, .copy (u.num 6) e.2))
            else some (s1, .host (u.num 7))
          match second with
          | none => s.reply path 0x12 6 []
          | some (s2, golden) =>
            match s2.hostRead 0 0 (u.num 9) size with
            | (s3, .data bs) =>
              let lines := List.range (size / 128)
              let s3 := s3.fillSeg l 0 bs lines
              let s3 := match golden with | .copy _ l2 => s3.fillSeg l2 0 bs lines | .host _ => s3
              let g : Segment := { live := true, size, keeper, stackMask := mask, layout := l, golden, holdUs := (u.num? 8).getD 2000, filled := true }
              (s3.setSeg i g).powerStacks.reply path 0 0 []
            | (s3, _) => ((s3.release (.segment i)).release (.segmentCopy i)).reply path 3 9 [])))

/-- SEG_MAP (R297): enters a segment into a partition's stage 2, readable only, or takes it out. Its intermediate address is its
physical address (log entry 14). -/
def execSegMap (path : Nat) (s : State) : Outcome := s.waits <|
  .next (s.command path 0x0306 (fun _ u =>
    let i := u.num 1
    let q := u.num 2
    let g := s.seg i
    s.checked path 3 [(decide (i < 16) && g.live, 1), (decide (q < 8) && (s.part q).live, 2), (decide (u.num 3 ≤ 1), 3)]
      (if s.partBusy q || s.tableMoves.any (fun m => decide (m.part = q)) then s.reply path 2 2 []
      else
        let base := segAddr i 0
        let left := (s.mapsOf q).flatMap (cutMap base (base + g.size))
        let m : S2Map := { part := q, ia := base, pa := base, size := g.size, page := mib2, r := true, w := false, x := false }
        match s.setStage2 q (if u.num 3 = 1 then m :: left else left) with
        | none => s.reply path 0x12 0 []
        | some s =>
          let s := if u.num 3 = 1 then s else s.dropRange q base g.size
          (s.setSeg i { s.seg i with mapped := if u.num 3 = 1 then sinsert g.mapped q else sremove g.mapped q }).reply path 0 0 [])))

/-- SEG_DESTROY (R297): only once it is unmapped from every partition. -/
def execSegDestroy (path : Nat) (s : State) : Outcome :=
  .next (s.command path 0x0307 (fun _ u =>
    let i := u.num 1
    let g := s.seg i
    if 16 ≤ i ∨ g.live = false ∨ g.mapped ≠ [] then s.reply path 3 1 []
    else ((((s.release (.segment i)).release (.segmentCopy i)).setSeg i {}).powerStacks).reply path 0 0 []))

/-- SEG_REPAIR (R299): a LOST line is restored from the host address that the installer names. -/
def execSegRepair (path : Nat) (s : State) : Outcome := s.waits <|
  .next (s.command path 0x0308 (fun _ u =>
    let i := u.num 1
    let g := s.seg i
    let line := u.num 2 / 128
    s.checked path 3 [(decide (i < 16) && g.live, 1), (decide (u.num 2 % 128 = 0) && decide (mget .good g.lines line = .lost), 2)]
      ((s.segFromHost i line (u.num 3)).reply path 0 0 [])))

/-- CHANNEL_RETIRE (R256): answered with a shortfall of 0 when the channel has been retired, or with the shortfall when it waits. -/
def execChannelRetire (path : Nat) (s : State) : Outcome :=
  .next (s.command path 0x0309 (fun _ u =>
    let c := u.num 1
    if c ∈ s.conf.repair.channels then s.reply path 3 1 []
    else if s.moveJobs.any (fun j => decide (j.cause = .retire c)) then s.reply path 2 1 []
    else State.startMoves 600 ((s.await path).queueRetire c (some path))))

/-! ### Partitions -/

/-- The galleries or groups that the other partitions hold. -/
def State.heldBy (s : State) (q : Nat) (f : Partition → Nat) : Nat :=
  (s.liveParts.filter (· ≠ q)).foldl (fun m p => m ||| f (s.part p)) 0

/-- Table 11-1, with the field types of the ceilings from k on. -/
def State.partRules (s : State) (p : LayoutPart) (k : Nat) : List (Bool × Nat) :=
  [ (decide (p.part < 8), 1),
    (decide (p.galleries ≠ 0) && decide (p.galleries < 2 ^ 20) && decide (p.galleries &&& s.heldBy p.part (·.galleries) = 0), 2),
    (decide (p.groups < 2 ^ 32) && decide (p.groups &&& s.heldBy p.part (·.groups) = 0), 3),
    (!(p.onPf0 && (s.liveParts.filter (· ≠ p.part)).any (fun q => (s.part q).onPf0)), 4),
    (decide (1 ≤ p.ctxCeiling) && decide (p.ctxCeiling ≤ 32), k), (decide (p.deviceCeiling ≤ 1024), k + 1),
    (decide (p.fabricCeiling ≤ 256), k + 2) ]

/-- The partitions whose stage-2 tables lie in groups that partition q is to hold (R284, R292). -/
def State.foreignTables (s : State) (q groups : Nat) : List Nat :=
  (s.liveParts.filter (· ≠ q)).filter (fun p => match s.tableRun p with | some a => bit groups (a.pc / 16) | none => false)

/-- Starts the moves of foreign tables out of groups, or answers none where some have no room. -/
def State.moveForeign (s : State) (groups : Nat) : List Nat → Option State
  | [] => some s
  | p :: ps =>
    if s.tableMoves.any (fun m => decide (m.part = p)) then s.moveForeign groups ps
    else
      match s.startTableMove p (s.part p).groups (fun pc => bit groups (pc / 16)) with
      | some s => s.moveForeign groups ps
      | none => none

/-- What becomes of a request to create a partition. -/
inductive NewPart where
  | refused (status detail : Nat)
  | moving (s : State)
  | made (s : State)

/-- A partition comes into being (R283, R251, R292, R375). -/
def State.newPart (s : State) (p : LayoutPart) : State :=
  let q := p.part
  let s := (bitList 20 p.galleries).foldl (fun s g => s.addGallery g) (s.setPart q
    { live := true, galleries := p.galleries, groups := p.groups, onPf0 := p.onPf0, ctxCeiling := p.ctxCeiling
      deviceCeiling := p.deviceCeiling, fabricCeiling := p.fabricCeiling, persist := p.persist })
  let s := s.defaultBuckets q p.groups p.galleries
  { s with conf := { s.conf with partGens := mset 0 s.conf.partGens q (mget 0 s.conf.partGens q + 1) } }.powerStacks

/-- Creates a partition as `PART_CREATE` does: refused under R282 or after a thermal trip (R399); put off while stage-2 tables leave its
groups (R284). -/
def State.makePart (s : State) (p : LayoutPart) : NewPart :=
  match firstBroken ((decide (p.part < 8) && !(s.part p.part).live, 1) :: s.partRules p 5) with
  | some t => .refused 3 t
  | none =>
    if s.tripped || !s.defaultsFit p.part p.groups p.galleries then .refused 3 0
    else if s.foreignTables p.part p.groups ≠ [] then
      match s.moveForeign p.groups (s.foreignTables p.part p.groups) with
      | some s => .moving s
      | none => .refused 0x12 3
    else
      match s.placeTables p.part p.groups (32 * tablePages []) (fun _ => false) with
      | some s => .made (s.newPart p)
      | none => .refused 0x12 0

/-- PART_CREATE (R282, R283): answered once a record holds the partition's new generation (R375). -/
def execPartCreate (path : Nat) (s : State) : Outcome :=
  .next (s.command path 0x0401 (fun _ u =>
    let p : LayoutPart := {
      part := u.num 1, galleries := u.num 2, groups := u.num 3, onPf0 := decide (u.num 4 = 0), ctxCeiling := u.num 5
      deviceCeiling := u.num 6, fabricCeiling := u.num 7, persist := decide (u.num 8 = 1) }
    s.checked path 3 [(decide (u.num 4 ≤ 1), 4), (decide (u.num 8 ≤ 1), 8)]
      (match s.makePart p with
      | .refused st d => s.reply path st d []
      | .moving s => s
      | .made s => s.replyStored path [])))

/-- R285: whether a change of the galleries of a partition, which removes a set of them, may be made. -/
def State.galleriesFree (s : State) (q : Nat) (leaving : List Nat) : Bool :=
  let core := fun (c : Nat) => decide (c / 8 ∈ leaving)
  (s.ctxsOf q).all (fun n => let c := s.ctx n; decide (c.state = .preempted) || c.idle) &&
    !s.saved.any (fun x => core x.core) && !s.cores.any (fun e => core e.1 && (decide (e.2.crews ≠ []) || decide (e.2.queue ≠ []))) &&
    !s.cores.any (fun e => core e.1 && e.2.jobs.any (fun j => decide (j.resBytes ≠ 0))) &&
    !s.ctxs.any (fun e => decide (e.2.part = q) && e.2.lmap.any (fun l => decide (l.2.kind = 1) && core l.2.core)) &&
    leaving.all (fun g => decide ((mget ({} : HostCore) s.hostCores (2 * g)).run ≠ 1) && decide ((mget ({} : HostCore) s.hostCores (2 * g + 1)).run ≠ 1))

/-- R286: the gallery change. A landing map keeps its cores by their logical numbers, so that indices follow by themselves. Where a gallery is
added, every slice of the partition is disabled until software enables it. -/
def State.changeGalleries (s : State) (q old new : Nat) : State :=
  let s := s.recallPart q
  let s := (bitList 20 (old - (old &&& new))).foldl (fun s g => s.galleryOff g) s
  let added := bitList 20 (new - (old &&& new))
  let s := added.foldl (fun s g => s.addGallery g) s
  let s := s.setPart q { s.part q with galleries := new }
  if added = [] then s
  else (s.galleriesOf q).foldl (fun s g => s.modSlice g (fun x => { x with enable := false, enabled := false })) s

/-- Whether every region of a partition finds room in the groups that remain, moved one after another as the job will do (R284). -/
def State.groupsCanLeave (s : State) (q leaving : Nat) : List Nat → Bool
  | [] => true
  | key :: keys =>
    match mfind s.regions key with
    | none => s.groupsCanLeave q leaving keys
    | some r =>
      match s.startRebuild (.groups q leaving) key r with
      | none => false
      | some t =>
        match t.rebuilds with
        | b :: _ => (t.endRebuild b).groupsCanLeave q leaving keys
        | [] => false

/-- The regions of a partition in ascending `BASE`. -/
def State.regionKeys (s : State) (q : Nat) : List Nat :=
  (sortBy (fun e => e.2.base) (s.regions.filter (fun e => decide (e.1 / 64 = q)))).map (·.1)

/-- Whether a region lies in pseudo-channels that are to be left, or has a change to come that could take it there. -/
def State.regionMeets (s : State) (out : Nat → Bool) (key : Nat) : Bool :=
  (match mfind s.regions key with | some r => r.layout.lists.any (fun t => t.any out) | none => false) ||
    s.moveJobs.any (fun j => match j.cause with | .change k _ _ _ => decide (k = key) | _ => false)

/-- The groups that leave a partition by a resize, and the regions that have to leave them. -/
def State.leavingGroups (s : State) (p : LayoutPart) : Nat := (s.part p.part).groups - ((s.part p.part).groups &&& p.groups)
def State.leavingKeys (s : State) (p : LayoutPart) : List Nat :=
  let leaving := s.leavingGroups p
  if leaving = 0 then [] else (s.regionKeys p.part).filter (s.regionMeets (fun pc => bit leaving (pc / 16)))

/-- The first step of a resize: the new groups are the partition's, and its tables begin to leave the groups that leave; the status and detail
of a refusal where its tables or its regions find no room without them (R284). -/
def State.resizeGroups (s : State) (p : LayoutPart) : Except (Nat × Nat) State :=
  let q := p.part
  let x := s.part q
  let leaving := s.leavingGroups p
  let out := fun (pc : Nat) => bit leaving (pc / 16)
  let tablesLeave : Bool := match s.tableRun q with | some a => out a.pc | none => false
  let s1 := s.setPart q { x with groups := x.groups ||| p.groups }
  match if tablesLeave || (decide (x.groups = 0) && decide (p.groups ≠ 0)) then s1.startTableMove q p.groups out else some s1 with
  | none => .error (0x12, 3)
  | some s2 => if s2.groupsCanLeave q leaving (s.leavingKeys p) then .ok s2 else .error (3, 3)

/-- The resize once its checks are met: own tables leave with their group, galleries and ceilings change, and regions move out of the
groups that leave (R284, R286). -/
def State.resizePart (s : State) (path : Nat) (p : LayoutPart) : State :=
  let q := p.part
  let x := s.part q
  let leaving := s.leavingGroups p
  let keys := s.leavingKeys p
  match s.resizeGroups p with
  | .error e => s.reply path e.1 e.2 []
  | .ok s2 =>
      let s := if p.galleries = x.galleries then s2 else s2.changeGalleries q x.galleries p.galleries
      let s := s.setPart q { s.part q with
        ctxCeiling := p.ctxCeiling, deviceCeiling := p.deviceCeiling, fabricCeiling := p.fabricCeiling, persist := p.persist }
      let s := (s.defaultBuckets q p.groups p.galleries).powerStacks
      if leaving = 0 then s.reply path 0 0 []
      else
        let j : MoveJob := { cause := .groups q leaving, todo := keys, path := some path }
        let s := s.await path
        State.startMoves 600 { s with moveJobs := s.moveJobs ++ [j] }

/-- Whether a pre-emption or a resumption of a context of a partition is under way (R364). -/
def State.preempting (s : State) (q : Nat) : Bool :=
  (s.ctxsOf q).any (fun n => (s.ctx n).preempt.isSome || (s.ctx n).resumePath.isSome)

/-- PART_RESIZE (R284 to R286, R251). Tables of other partitions that lie in an added group leave it first; where the resize would find no room
behind that, nothing moves. -/
def execPartResize (path : Nat) (s : State) : Outcome := s.waits <|
  .next (s.command path 0x0402 (fun _ u =>
    let q := u.num 1
    let x := s.part q
    if 8 ≤ q ∨ x.live = false then s.reply path 3 1 []
    else
      let p : LayoutPart := {
        part := q, galleries := (u.num? 2).getD x.galleries, groups := (u.num? 3).getD x.groups, onPf0 := x.onPf0
        ctxCeiling := (u.num? 4).getD x.ctxCeiling, deviceCeiling := (u.num? 5).getD x.deviceCeiling
        fabricCeiling := (u.num? 6).getD x.fabricCeiling
        persist := match u.num? 7 with | some b => decide (b = 1) | none => x.persist }
      let leaving := x.groups - (x.groups &&& p.groups)
      let gone := bitList 20 (x.galleries - (x.galleries &&& p.galleries))
      let keeps := (List.range 16).any (fun i => (s.seg i).live && decide ((s.seg i).keeper = q))
      s.checked path 3 (s.partRules p 4 ++ [(decide ((u.num? 7).getD 0 ≤ 1), 7), (decide (leaving = 0) || !keeps, 3),
          (s.defaultsFit q p.groups p.galleries, 0)])
        (if s.partBusy q || s.preempting q || s.tableMoves.any (fun m => decide (m.part = q)) then s.reply path 2 1 []
        else if p.galleries ≠ x.galleries ∧ (s.galleriesFree q gone = false ∨
            s.drains.any (fun d => match d.obj with | .core c => decide (c / 8 ∈ gone) | _ => false) = true) then s.reply path 2 2 []
        else
          let foreign := s.foreignTables q p.groups
          if foreign = [] then s.resizePart path p
          else
            match s.moveForeign p.groups foreign with
            | none => s.reply path 0x12 3 []
            | some t =>
              match t.resizeGroups p with
              | .error e => s.reply path e.1 e.2 []
              | .ok _ => t)))

/-- Whether a partition stores a shared segment: it may not be destroyed (R296). -/
def State.isKeeper (s : State) (q : Nat) : Bool := s.segs.any (fun e => e.2.live && decide (e.2.keeper = q))

/-- The range of a drain's timeout (R300). -/
def drainTimeoutOk (us : Nat) : Bool := decide (1 ≤ us) && decide (us ≤ 10000000)

/-- PART_DESTROY: the partition is drained, then cut, and exists no more (R301). -/
def execPartDestroy (path : Nat) (s : State) : Outcome := s.waits <|
  .next (s.command path 0x0403 (fun _ u =>
    let q := u.num 1
    let us := (u.num? 2).getD 10000
    s.checked path 3 [(decide (q < 8) && (s.part q).live && !s.isKeeper q, 1), (drainTimeoutOk us, 2)]
      (if s.partBusy q then s.reply path 2 1 []
      else
        let (s, _) := s.sample
        (s.await path).startDrain { obj := .part q, deadline := s.inUs us, after := .partDestroy, path := some path })))

/-- DISABLE (R300 to R302, R409): a partition, a fabric port or a compute core is drained or cut; a core may be retired. -/
def execDisable (path : Nat) (s : State) : Outcome := s.waits <|
  .next (s.command path 0x0404 (fun _ u =>
    let k := u.num 1
    let i := u.num 2
    let us := (u.num? 4).getD 10000
    let obj : DrainObj := if k = 1 then .part i else if k = 2 then .port i else .core i
    let exists' : Bool := match k with
      | 1 => decide (i < 8) && (s.part i).live && !s.isKeeper i
      | 2 => decide (i < 8)
      | _ => decide (i < 160) && decide (i ∉ s.retired)
    s.checked path 3 [(decide (1 ≤ k) && decide (k ≤ 3), 1), (exists', 2), (decide (u.num 3 ≤ 1), 3), (drainTimeoutOk us, 4),
        (decide (u.num 5 ≤ 1) && (decide (k = 3) || !u.has 5), 5)]
      (if s.drains.any (fun d => decide (d.obj = obj)) || (decide (k = 1) && s.partBusy i) then s.reply path 2 2 []
      else
        let (s, _) := s.sample
        (s.await path).startDrain
          { obj, cut := decide (u.num 3 = 1), deadline := s.inUs us, after := if k = 3 ∧ u.num 5 = 1 then .substitute else .disable, path := some path })))

/-- REG_SET (R249, R326): a bucket of a partition, or of the migration engine at a resource of Table 9-3. -/
def execRegSet (path : Nat) (s : State) : Outcome :=
  .next (s.command path 0x0405 (fun _ u =>
    let mig := decide (u.num 1 = 0xFF)
    let q := if mig then 8 else u.num 1
    let r := u.num 2
    let rate := u.num 3
    let burst := u.num 4
    s.checked path 3 [(mig || (decide (q < 8) && (s.part q).live), 1), (decide (r < 24) || (!mig && decide (32 ≤ r) && decide (r < 40)), 2),
        (decide (rate ≤ 1024) && s.rateFits r q rate, 3), (decide (1 ≤ burst) && decide (burst ≤ 4095), 4), (decide (u.num 5 ≤ 1), 5)]
      (let s := s.refill
       let b := s.bucket (16 * r + q)
       (s.setBucket (16 * r + q) { b with
         rate, burst, borrow := decide (u.num 5 = 1), byInstaller := true, level := min b.level ((burst * 10485760 : Nat) : Int) }).reply path 0 0 [])))

/-! ### Host cores (R283, R285) -/

/-- The status with which an operator may not act on a host core. -/
def State.hostCoreDenied (s : State) (t : Taken) (h : Nat) : Option Nat :=
  if 40 ≤ h ∨ h ∈ s.conf.repair.hostRetired then some 3
  else
    match t.part with
    | some q => if h / 2 ∈ s.galleriesOf q then none else some 4
    | none => some 4

/-- HOSTCORE_BOOT: a host core that waits in reset or has been stopped starts at its entry. -/
def execHostcoreBoot (path : Nat) (s : State) : Outcome :=
  .next (s.command path 0x0406 (fun t u =>
    let h := u.num 1
    match s.hostCoreDenied t h with
    | some st => s.reply path st 1 []
    | none =>
      if (mget ({} : HostCore) s.hostCores h).run = 1 then s.reply path 3 1 []
      else if 2 ^ 48 ≤ u.num 2 then s.reply path 3 2 []
      else
        let x : HostCore := { run := 1, entry := u.num 2, arg := u.num 3 }
        ({ s with hostCores := minsert s.hostCores h x }.wakeGal (h / 2)).reply path 0 0 []))

/-- HOSTCORE_STOP: a running host core stops. -/
def execHostcoreStop (path : Nat) (s : State) : Outcome :=
  .next (s.command path 0x0407 (fun t u =>
    let h := u.num 1
    match s.hostCoreDenied t h with
    | some st => s.reply path st 1 []
    | none =>
      let x := mget ({} : HostCore) s.hostCores h
      if x.run ≠ 1 then s.reply path 3 1 []
      else { s with hostCores := minsert s.hostCores h { x with run := 2 } }.reply path 0 0 []))

end Sys2Proof.Machine
end

