-- ==== Sys2Proof/Machine/Management.lean ====
section
/-! DEFINITION. The installer's commands on ports, associations, power and thresholds (12_fabric_and_kft.md R303, R305, R311, R327,
R332; 15_power_clocks_thermal.md R385; 14_mitor_management.md R365), self-tests (16_reliability_repair.md R412, R413) and the
preparation of a removal (13_host_interface_attention.md R350). -/

namespace Sys2Proof.Machine

open Sys2Proof

/-! ### The fabric -/

/-- PORT_MODE (R303, R305): the port is drained, then takes its new mode. -/
def execPortMode (path : Nat) (s : State) : Outcome := s.waits <|
  .next (s.command path 0x0501 (fun _ u =>
    let p := u.num 1
    let cls := u.num 2
    let mtu := u.num 4
    s.checked path 3 [(decide (p < 8), 1), (decide (cls ≤ 3), 2), (decide (u.num 3 ≤ 2), 3),
        (decide (cls = 0) || (decide (1500 ≤ mtu) && decide (mtu ≤ 9216)), 4), (decide (u.num 5 ≤ 1), 5)]
      (if s.drains.any (fun d => decide (d.obj = .port p)) then s.reply path 2 1 []
      else
        let (s, _) := s.sample
        (s.await path).startDrain
          { obj := .port p, deadline := s.inUs 10000, after := .portMode cls (u.num 3) mtu (decide (u.num 5 = 1)), path := some path })))

/-- Takes the addresses of a sub-port in the form in which the store holds them: IPv6, IPv4 where it has one, and DSCP. -/
def State.takeAddr (s : State) (k : Nat) (bs : List Byte) : State :=
  s.setSubPort k { s.subPort k with
    ip6 := bs.take 16, ip4 := if bs.length = 21 then (bs.drop 16).take 4 else [], dscp := field bs (bs.length - 1) 1 }

/-- FAB_ADDR (R311): a sub-port's addresses, and the UDP port of the module; an absent IPv4 address or port stays as it is (R365). -/
def execFabAddr (path : Nat) (s : State) : Outcome :=
  .next (s.command path 0x0502 (fun _ u =>
    let k := u.num 1
    s.checked path 3 [(decide (k < 32), 1), (decide (u.num 4 < 64), 4)]
      (let ip4 := if u.has 3 then u.bytesOf 3 else (s.subPort k).ip4
       let bs := u.bytesOf 2 ++ ip4 ++ toBytes 1 (u.num 4)
       let addrs := minsert s.conf.addrs k bs
       let addrs := if u.has 5 then minsert addrs 32 (u.bytesOf 5) else addrs
       let s := ({ s with conf := { s.conf with addrs }, udpPort := if u.has 5 then some (u.num 5) else s.udpPort }.takeAddr k bs).rebuildPaths
       s.replyStored path [])))

/-- The 20-byte elements of a peer address list. -/
def chunks20 : Nat → List Byte → List (List Byte)
  | 0, _ => []
  | n + 1, bs => bs.take 20 :: chunks20 n (bs.drop 20)

/-- ASSOC_SET (R327, R328): the association is set, and its handshake begins. One that is not idle or failed is in use (R332, R364). -/
def execAssocSet (path : Nat) (s : State) : Outcome :=
  .next (s.command path 0x0503 (fun _ u =>
    let a := u.num 1
    let x := s.assoc a
    let q := u.num 2
    s.checked path 3 [(decide (a < 128), 1), (decide (q < 8) && (s.part q).live, 2), (decide (u.num 3 < 64), 3), (decide (u.num 5 < 8), 5)]
      (if x.live ∧ x.state ≠ .idle ∧ x.state ≠ .failed then s.reply path 2 1 []
      else
        let bs := u.bytesOf 6
        let y : Assoc := {
          live := true, part := q, target := u.num 3, peerHash := u.bytesOf 4, peerPart := u.num 5, peers := chunks20 (bs.length / 20) bs
          windows := if x.live ∧ x.part = q then x.windows else [] }
        let (s, paths) := s.buildPaths y
        (((s.setAssoc a { y with paths }).resolveAll paths).sendHello a).reply path 0 0 [])))

/-- ASSOC_REMOVE (R332): the association is closed and is no more. -/
def execAssocRemove (path : Nat) (s : State) : Outcome := s.waits <|
  .next (s.command path 0x0504 (fun _ u =>
    let a := u.num 1
    if 128 ≤ a ∨ (s.assoc a).live = false then s.reply path 3 1 [] else ((s.closeAssoc a).setAssoc a {}).reply path 0 0 []))

/-! ### Power and thresholds -/

/-- The settings of Table 15-4 in force, as the fields of a response. -/
def State.capFields (s : State) : List (List Byte) :=
  [toBytes 4 s.capW, toBytes 4 s.floorLinks, toBytes 4 s.floorMem, toBytes 4 s.paddleUs,
    (List.range 8).flatMap (fun q => toBytes 4 (s.shareOf q)), (List.range 8).flatMap (fun q => toBytes 4 (s.retentionUs q))]

/-- The eight words of a field that has one per partition. -/
def words8 (bs : List Byte) : List Nat := (List.range 8).map (fun q => field bs (4 * q) 4)

/-- Whether a number, if given, lies in a range. -/
def inRange (x : Option Nat) (lo hi : Nat) : Bool := match x with | some v => decide (lo ≤ v) && decide (v ≤ hi) | none => true

/-- POWER_CAP (R385, Table 15-4): the new settings are made persistent before the answer. -/
def execPowerCap (path : Nat) (s : State) : Outcome :=
  .next (s.command path 0x0601 (fun _ u =>
    let cap := (u.num? 1).getD s.capW
    let links := (u.num? 2).getD s.floorLinks
    let mem := (u.num? 3).getD s.floorMem
    let shares := words8 (u.bytesOf 5)
    let rets := words8 (u.bytesOf 6)
    s.checked path 3 [(inRange (u.num? 1) 1200 3600 && decide (links + mem + 450 ≤ cap), 1), (inRange (u.num? 2) 200 1000, 2),
        (inRange (u.num? 3) 150 800, 3), (inRange (u.num? 4) 0 1000, 4), (!u.has 5 || shares.all (fun v => inRange (some v) 1 100), 5),
        (!u.has 6 || rets.all (fun v => decide (v = 0) || inRange (some v) 10 10000000), 6)]
      (let one := fun (m : Map Nat) (t : Nat) => match u.num? t with | some v => minsert m (16 * t) v | none => m
       let many := fun (m : Map Nat) (t : Nat) (vs : List Nat) =>
         if u.has t then (List.range 8).foldl (fun m q => minsert m (16 * t + q) (vs.getD q 0)) m else m
       let caps := many (many ([1, 2, 3, 4].foldl one s.conf.caps) 5 shares) 6 rets
       let s := { s with conf := { s.conf with caps } }
       if u.fields = [] then s.reply path 0 0 s.capFields else s.replyStored path s.capFields)))

/-- Table 14-13: the range and the default of an item. -/
def thresholdItem (i : Nat) : Option (Nat × Nat × Nat) :=
  ([(1, 15, 4), (1, 720, 24), (1, 168, 24), (1, 255, 8), (85, 100, 95), (10, 10000, 1000), (1, 65535, 256), (2, 100, 10),
    (0, 1, 1), (0, 1, 1), (0, 1, 1), (0, 1, 1), (0, 1, 1), (0, 1, 1), (1, 15, 2), (1, 15, 2)] : List (Nat × Nat × Nat))[i - 1]?

/-- Whether an element of `SETTINGS` names an item of Table 14-13 and a value in its range. -/
def settingOk (e : Nat × Nat) : Bool :=
  decide (1 ≤ e.1) && (match thresholdItem e.1 with | some (lo, hi, _) => decide (lo ≤ e.2) && decide (e.2 ≤ hi) | none => false)

/-- THRESHOLDS (Table 14-13): an element outside its range makes the command `REFUSED`, and no item changes. -/
def execThresholds (path : Nat) (s : State) : Outcome :=
  .next (s.command path 0x0602 (fun _ u =>
    let bs := u.bytesOf 1
    let es := (List.range (bs.length / 8)).map (fun i => (field bs (8 * i) 2, field bs (8 * i + 4) 4))
    if es.all settingOk = false then s.reply path 3 1 []
    else
      let s := { s with thresholds := es.foldl (fun (m : Map Nat) (e : Nat × Nat) => minsert m e.1 e.2) s.thresholds }
      let all := (List.range 16).flatMap (fun i =>
        toBytes 2 (i + 1) ++ zeros 2 ++ toBytes 4 (s.setting (i + 1) (match thresholdItem (i + 1) with | some x => x.2.2 | none => 0)))
      if es = [] then s.reply path 0 0 [all] else s.replyStored path [all]))

/-! ### Self-tests (R412, R413; log entry 15 gives the numbers of units) -/

/-- Whether a unit number names a resource of a kind: a spare core site, a core, a gallery, a host core, a lane (16 × port + lane, or
256 × (1 + link direction) + lane), a channel, a way (16 × gallery + way), the standby unit. A spare core site is named by its physical number,
as R30 has every Mitor message use Table 1-5, although R19 keeps site numbers out of every message (log entry 15). -/
def unitOk (kind unit : Nat) : Bool :=
  match kind with
  | 1 => decide (unit < 168) && decide (40 ≤ unit % 42)
  | 2 => decide (unit < 160)
  | 3 => decide (unit < 20)
  | 4 => decide (unit < 40)
  | 5 => if unit < 256 then decide (unit / 16 < 8) && decide (unit % 16 ≤ 8) else decide (unit / 256 ≤ 16)
  | 6 => decide (unit < 256)
  | 7 => decide (unit < 320)
  | _ => decide (unit = 0)

/-- The gallery of a resource that lies in one. -/
def unitGallery (kind unit : Nat) : Option Nat :=
  match kind with
  | 2 => some (unit / 8)
  | 3 => some unit
  | 4 => some (unit / 2)
  | 7 => some (unit / 16)
  | _ => none

/-- The partition that a resource belongs to. -/
def State.unitPart (s : State) (kind unit : Nat) : Option Nat :=
  match unitGallery kind unit with
  | some g => s.partOfGallery g
  | none => if kind = 6 then s.liveParts.find? (fun q => bit (s.part q).groups (unit / 8)) else none

/-- Whether a core holds no work and no drain of it runs. -/
def State.coreFree (s : State) (c : Nat) : Bool := !s.coreBusy c && !s.drains.any (fun d => decide (d.obj = .core c))

/-- Whether a lane is free: the spare while it stands in for none, a lane that lane 8 replaces, one of a sub-port that is down, or a lane of
a die link that has been spared. -/
def State.laneFree (s : State) (unit : Nat) : Bool :=
  if unit < 256 then
    let p := s.port (unit / 16)
    if unit % 16 = 8 then decide (p.rxLane = none) && decide (p.txLane = none)
    else decide (p.rxLane = some (unit % 16)) || !(s.subPort (s.subOfLane (unit / 16) (unit % 16))).up
  else s.conf.repair.dieLanes.any (fun e => decide (e.1 = unit / 256 - 1) && decide (e.2.1 = unit % 256))

/-- Whether the resource of a test is free (Table 16-5). -/
def State.testFree (s : State) (t : SelfTest) : Bool :=
  let off := match unitGallery t.kind t.unit with | some g => decide ((s.gal g).st = 0) | none => false
  match t.kind with
  | 1 => true
  | 2 => off || ((t.lent || t.force) && s.coreFree t.unit)
  | 3 => off || (t.lent && (List.range 8).all (fun j => s.coreFree (8 * t.unit + j)))
  | 4 => off || t.lent || decide ((mget ({} : HostCore) s.hostCores t.unit).run ≠ 1)
  | 5 => s.laneFree t.unit
  | 6 => (s.unitPart 6 t.unit).isNone || decide (t.unit ∈ s.conf.repair.channels)
  | 7 =>
    let x := s.slice (t.unit / 16)
    bit x.disabledWays (t.unit % 16) || !x.lines.any (fun e => decide (e.1 % 16 = t.unit % 16))
  | _ => decide (s.conf.repair.units = [])

/-- Whether every region can move out of a channel, one after another (R256). -/
def State.channelCanLeave (s : State) (c : Nat) : List Nat → Bool
  | [] => true
  | key :: keys =>
    match mfind s.regions key with
    | none => s.channelCanLeave c keys
    | some r =>
      match s.startRebuild (.retire c) key r with
      | none => false
      | some t =>
        match t.rebuilds with
        | b :: _ => (t.endRebuild b).channelCanLeave c keys
        | [] => false

/-- The action of Table 16-5 by which a forced test makes its resource free, or none where it cannot (R413). -/
def State.forceFree (s : State) (kind unit : Nat) : Option State :=
  match kind with
  | 2 =>
    if s.testFree ⟨2, unit, 0, false, none, false⟩ then some s
    else if s.drains.any (fun d => decide (d.obj = .core unit)) then none
    else some (s.startDrain { obj := .core unit, deadline := s.inUs 10000, after := .selfTest })
  | 3 =>
    match s.partOfGallery unit with
    | none => some s
    | some q =>
      let old := (s.part q).galleries
      let new := old - 2 ^ unit
      if new = 0 ∨ s.galleriesFree q [unit] = false ∨ s.partBusy q = true then none
      else some ((s.changeGalleries q old new).defaultBuckets q (s.part q).groups new)
  | 4 =>
    let x := mget ({} : HostCore) s.hostCores unit
    some (if x.run = 1 then { s with hostCores := minsert s.hostCores unit { x with run := 2 } } else s)
  | 5 =>
    if s.laneFree unit then some s
    else if unit < 256 then
      let port := unit / 16
      let p := s.port port
      let sub := s.subOfLane port (unit % 16)
      if p.spare = some (sub % 4) ∧ p.rxLane = none ∧ p.request = none ∧ unit % 16 ≠ 8 then
        let (s, t) := s.sample
        let (s, n) := s.pick 256
        some ((s.setPort port { p with request := some (unit % 16, n, t, t, false) }).sendLane sub 3 (unit % 16) n 0)
      else some (s.subDown sub)
    else
      let link := unit / 256 - 1
      let used := s.conf.repair.dieLanes.filter (fun e => decide (e.1 = link))
      if 4 ≤ used.length then none
      else some ((s.modRepair (fun m => { m with dieLanes := m.dieLanes ++ [(link, unit % 256, used.length)] })).persist)
  | 6 =>
    if s.testFree ⟨6, unit, 0, false, none, false⟩ then some s
    else
      let t := s.queueRetire unit none
      match t.moveJobs.find? (fun j => decide (j.cause = .retire unit)) with
      | some j => if s.channelCanLeave unit (s.jobTodo j) then some (State.startMoves 600 t) else none
      | none => some s
  | 7 =>
    some (s.dropWay (unit / 16) (unit % 16))
  | _ => some s

/-- Tells the operator of a resource that an installer's test waits for it (R412, Table 14-12). -/
def State.askLend (s : State) (kind unit ms : Nat) : State :=
  match s.unitPart kind unit with
  | some q => s.notifyFn (s.fnOf q) 0x12 (toBytes 1 kind ++ zeros 1 ++ toBytes 2 unit ++ toBytes 4 ms)
  | none => s

/-- SELF_TEST (R412, R413). An operator's request lends its resource, to waiting tests of the installer too where `LEND` is set. -/
def execSelfTest (path : Nat) (s : State) : Outcome := s.waits <|
  .next (s.command path 0x0603 (fun t u =>
    let kind := u.num 1
    let unit := u.num 2
    let ms := u.num 3
    let flags := u.num 4
    let operator := decide (t.role = 1)
    if kind = 0 ∨ 8 < kind then s.reply path 3 1 []
    else if unitOk kind unit = false then s.reply path 3 2 []
    else if operator && (decide (t.part = none) || decide (s.unitPart kind unit ≠ t.part)) then s.reply path 4 2 []
    else if operator && bit flags 1 then s.reply path 4 4 []
    else s.checked path 3 [(decide (1 ≤ ms) && decide (ms ≤ 60000), 3), (decide (flags < 4), 4)]
      (let (s, _) := s.sample
       let test : SelfTest := {
         kind, unit, deadline := s.now + 1000000 * ms, force := bit flags 1, path := some path, lent := operator }
       let lend := fun (x : SelfTest) => if x.kind = kind ∧ x.unit = unit then { x with lent := true } else x
       if test.force then
         match s.forceFree kind unit with
         | none => s.reply path 3 2 []
         | some s => { s.await path with selfTests := s.selfTests ++ [test] }
       else
         let s := if operator && bit flags 0 then { s with selfTests := s.selfTests.map lend } else s
         let s := if operator || s.testFree test then s else s.askLend kind unit ms
         { s.await path with selfTests := s.selfTests ++ [test] })))

/-- A host core is retired (R24, R407). -/
def State.retireHost (s : State) (h src : Nat) : State :=
  let s := (s.modRepair (fun m => { m with hostRetired := sinsert m.hostRetired h })).persist
  let x := mget ({} : HostCore) s.hostCores h
  let s := if x.run = 1 then { s with hostCores := minsert s.hostCores h { x with run := 2 } } else s
  s.rasRepaired { cls := 1, source := src, action := 8, part := s.partOfGallery (h / 2), unit := h }

/-- The standby management unit is retired (R411). -/
def State.retireUnit (s : State) (unit : Nat) : State :=
  (s.modRepair (fun m => { m with units := sinsert m.units unit })).persist

/-- What a failed self-test makes of its unit (R407): the repair of Table 16-4, or, with the automatic flag at 0, a report. -/
def State.testFailed (s : State) (t : SelfTest) : State :=
  let report := fun (src site : Nat) => s.rasRepaired { cls := 1, source := src, part := s.unitPart t.kind t.unit, unit := t.unit, site }
  match t.kind with
  | 1 => (s.modRepair (fun m => { m with failedSites := sinsert m.failedSites t.unit })).persist
  | 2 =>
    if t.unit ∈ s.retired ∨ s.drains.any (fun d => decide (d.obj = .core t.unit)) = true then s
    else if s.setting 9 1 = 0 then report 0x02 0xFFFF
    else s.startDrain { obj := .core t.unit, deadline := s.inUs 10000, after := .substitute }
  | 4 => if t.unit ∈ s.conf.repair.hostRetired then s else if s.setting 10 1 = 0 then report 0x0C 0xFFFF else s.retireHost t.unit 0x0C
  | 5 =>
    if t.unit < 256 then
      if s.setting 12 1 = 0 then report 0x0B (t.unit % 16)
      else if t.unit % 16 = 8 then s.setPort (t.unit / 16) { s.port (t.unit / 16) with spare := none, request := none }
      else s.setPort (t.unit / 16) { s.port (t.unit / 16) with failed := sinsert (s.port (t.unit / 16)).failed (t.unit % 16) }
    else s
  | 6 => if s.setting 13 1 = 0 then report 0x09 t.unit else State.startMoves 600 (s.queueRetire t.unit none)
  | 7 =>
    let g := t.unit / 16
    let w := t.unit % 16
    if bit (s.slice g).disabledWays w then s
    else if s.setting 14 1 = 0 then report 0x07 w
    else
      let s := (s.disableWay g w).raiseGallery g
      ((s.modRepair (fun m => { m with ways := m.ways ++ [(g, w)] })).persist).rasRepaired
        { cls := 1, source := 0x07, action := 6, part := s.partOfGallery g, unit := g, addr := w }
  | 8 => s.retireUnit (1 - s.activeMu)
  | _ => s

/-- A core that a forced test took out of service is back in it. -/
def State.returnCore (s : State) (t : SelfTest) : State :=
  if t.kind = 2 ∧ t.force = true then
    { s with
      coresOut := sremove s.coresOut t.unit
      drains := s.drains.filter (fun d => decide (d.obj ≠ .core t.unit) || decide (d.after ≠ .selfTest)) }
  else s

/-- SELF_TEST_RUN: the n-th waiting test runs, once its resource is free; its outcome is that of the silicon. -/
def execSelfTestRun (n : Nat) (pass : Bool) (locator : Nat) (s : State) : Outcome := s.waits <|
  match s.selfTests[n]? with
  | none => .next s
  | some t =>
    if s.testFree t = false then .next s
    else
      let (s, now) := s.sample
      let s := { s with selfTests := s.selfTests.eraseIdx n }.returnCore t
      let s :=
        if pass then
          match t.kind with
          | 1 => { s with siteTests := minsert s.siteTests t.unit now }
          | 8 => { s with muTested := now }
          | _ => s
        else s.testFailed t
      .next (s.answer t.path 0 0 [toBytes 1 (if pass then 1 else 2), toBytes 8 locator])

/-- SELF_TEST_TIMEOUT: the n-th test still waits when its timeout expires, and is answered `BUSY`. -/
def execSelfTestTimeout (n : Nat) (s : State) : Outcome :=
  match s.selfTests[n]? with
  | none => .next s
  | some t =>
    if s.testFree t then .next s
    else
      let s := s.until t.deadline
      .next ({ s with selfTests := s.selfTests.eraseIdx n }.returnCore t |>.answer t.path 2 0 [])

/-! ### Removal -/

/-- PREPARE_REMOVAL (R350): every partition is drained; DRAIN_COMPLETE goes on with the associations, the store and the ports. -/
def execPrepareRemoval (path : Nat) (s : State) : Outcome := s.waits <|
  .next (s.command path 0x0604 (fun _ u =>
    let us := (u.num? 1).getD 10000
    s.checked path 3 [(drainTimeoutOk us, 1)]
      (if s.liveParts.any s.partBusy || s.drains.any (fun d => decide (d.after = .removal)) then s.reply path 2 0 []
      else
        let (s, _) := s.sample
        let s := s.await path
        let qs := if s.liveParts = [] then [0] else s.liveParts
        qs.foldl (fun s q => s.startDrain { obj := .part q, deadline := s.inUs us, after := .removal, path := some path }) s)))

end Sys2Proof.Machine
end

