-- ==== Sys2Proof/Machine/Reliability.lean ====
section
/-! DEFINITION. Errors and repairs that the module meets by itself (01_module_architecture.md R16; 16_reliability_repair.md R403, R404,
R407, R408, R410, R411, R414, R416): die links, management units, host cores, rails, calibration, and the clearing of the repair map. -/

namespace Sys2Proof.Machine

open Sys2Proof

/-! ### Die links -/

/-- FLIT_REPLAY: a flit fails its CRC and is replayed (R16): nothing is lost, and a corrected error of source 0x0A counts against the link
direction. -/
def execFlitReplay (link lane : Nat) (s : State) : Outcome :=
  if 16 ≤ link ∨ 256 ≤ lane then .next s
  else
    let (s, _) := s.sample
    .next (s.rasCorrected 0x0A link [0])

/-- DIE_LANE_FAIL: a lane moves to the lowest free spare of its direction, or the fifth failure narrows the direction (R408), which stays so
until the maker clears the entry (log entry 56). -/
def execDieLaneFail (link lane : Nat) (s : State) : Outcome :=
  let used := s.conf.repair.dieLanes.filter (fun e => decide (e.1 = link))
  if 16 ≤ link ∨ used.any (fun e => decide (e.2.1 = lane)) = true ∨ link ∈ s.conf.repair.narrowed then .next s
  else
    let (s, _) := s.sample
    let e : RasEvent := { cls := 1, source := 0x0A, unit := link, site := lane }
    if s.setting 11 1 = 0 then .next (s.rasRepaired e)
    else
      match (List.range 4).find? (fun i => !used.any (fun x => decide (x.2.2 = i))) with
      | some i => .next (((s.modRepair (fun m => { m with dieLanes := m.dieLanes ++ [(link, lane, i)] })).persist).rasRepaired { e with action := 3 })
      | none => .next ((s.modRepair (fun m => { m with narrowed := sinsert m.narrowed link })).persist)

/-! ### Management units (R410, R411) -/

/-- Every request of a message that has been taken and not answered is answered `INTERRUPTED` (R378); a request that still waits to be taken
goes on. -/
def State.interruptTaken (s : State) (path : Nat) : State :=
  match mfind s.taken path with
  | none => s
  | some t =>
    let s := match t.cur with
      | some u => (s.auditEnd u.audit 0x0D).addResponse path 0x0D (answerBytes u.gen u.code u.tag 0x0D 0 [])
      | none => s
    if !t.batch && t.cur.isNone then s
    else
      let s := t.rest.foldl (fun s b => s.addResponse path 0x0D (answerBytes 3 (field b 4 2) (field b 6 2) 0x0D 0 [])) s
      s.deliverTaken path

/-- Operations whose requests have been interrupted have nobody left to answer; a pre-emption is given up, and a self-test that waits is
forgotten. -/
def State.forgetPaths (s : State) : State :=
  { s with
    moveJobs := s.moveJobs.map (fun (j : MoveJob) => { j with path := none })
    drains := s.drains.map (fun (d : Drain) => { d with path := none })
    selfTests := s.selfTests.filter (fun (t : SelfTest) => t.path.isNone)
    activation := none
    ctxs := mmapVals s.ctxs (fun _ (c : Ctx) => if c.preempt.isSome then { c with preempt := none, resumePath := none, hold := false } else { c with resumePath := none }) }

def State.interruptAll (s : State) : State :=
  let s := ((s.taken.map (·.1)).foldl (fun s p => s.interruptTaken p) s).forgetPaths
  (s.taken.map (·.1)).foldl (fun s p => s.goOn p) s

/-- The firmware of the slot that the current store record names. -/
def State.recordImage (s : State) : Map Byte := mget [] s.fwSlots (s.bank s.curBank).data.slot

/-- LOCKSTEP_MISMATCH (R411): in the active unit, the standby takes over, and the stopped unit's self-test, whose outcome is the module's,
makes it the standby or retires it; in the standby unit, that unit is retired; the loss of the last unit is module-fatal (R349). -/
def execLockstepMismatch (unit : Nat) (s : State) : Outcome :=
  if 2 ≤ unit ∨ unit ∈ s.conf.repair.units ∨ s.musLost = true ∨ s.supply = 0 then .next s
  else
    let (s, now) := s.sample
    if unit ≠ s.activeMu then .next (s.retireUnit unit)
    else if s.conf.repair.units ≠ [] then
      .next ({ s with musLost := true, mitorUp := false, mitorReady := false, taken := [], activation := none }.forgetPaths).driveAttn
    else
      let running := if s.activation.isSome then s.recordImage else s.running
      let s := ({ s with activeMu := 1 - unit, muAsleep := false, running }.interruptAll).raiseReady
      let s := s.logEvent 0 5 (toBytes 2 4 ++ zeros 2 ++ toBytes 4 unit)
      let s := s.rasRepaired { cls := 1, source := 0x0F, action := 7, unit }
      let (s, bad) := s.pick 2
      .next (if bad = 0 then { s with muTested := now } else s.retireUnit unit)

/-- STANDBY_SELF_TEST: every 24 hours the standby unit tests itself (R410); one that fails is retired (R407). -/
def execStandbySelfTest (pass : Bool) (s : State) : Outcome :=
  if s.conf.repair.units ≠ [] ∨ s.mitorUp = false then .next s
  else
    let s := s.until (s.muTested + dayNs)
    .next (if pass then { s with muTested := s.now } else s.retireUnit (1 - s.activeMu))

/-! ### Corrected errors, calibration -/

/-- CORRECTED_ATTENTION: more corrected errors in a function's reach within an hour than the threshold, told at most once an hour (R403). -/
def execCorrectedAttention (fn : Nat) (s : State) : Outcome :=
  let (s, now) := s.sample
  let ts := (mget [] s.corrTimes fn).filter (fun t => decide (now < t + hourNs))
  let recent : Bool := match mfind s.corrTold fn with | some t => decide (now < t + hourNs) | none => false
  if 8 < fn ∨ ts.length ≤ s.setting 7 256 ∨ recent = true then .next s
  else .next ({ s with corrTold := minsert s.corrTold fn now }.raise fn (.ras 0))

/-- Whether an active lane has a free spare for its recalibration (R414): lane 8 of a fabric port's spared sub-port, or one of the four of a
die link direction. -/
def State.spareFor (s : State) (kind unit lane : Nat) : Bool :=
  if kind = 0 then
    let p := s.port unit
    decide (p.spare = some (s.subOfLane unit lane % 4)) && decide (p.rxLane = none) && decide (p.request = none)
  else decide ((s.conf.repair.dieLanes.filter (fun e => decide (e.1 = unit))).length < 4)

/-- RECALIBRATION (R414): of a fabric lane (0), a die-link lane (1) or an HBM channel (2). A lane fails over to a free spare and comes back;
with no free spare the recalibration is postponed and retried every hour. It leaves no record. -/
def execRecalibration (kind unit lane : Nat) (s : State) : Outcome :=
  if 2 ≤ kind then .next s
  else
    let key := 2 ^ 20 * kind + 256 * unit + lane
    let s := match mfind s.recalAt key with | some t => s.until (t + hourNs) | none => s
    let (s, now) := s.sample
    if s.spareFor kind unit lane then .next { s with recalAt := merase s.recalAt key }
    else .next { s with recalAt := minsert s.recalAt key now }

/-! ### Ways of a slice (R230, R231) -/

/-- An uncorrectable error of a slice's tags or of its home directory is partition-fatal for the slice's partition (R404, source 0x08). -/
def State.tagError (s : State) (g : Nat) : State :=
  let e : RasEvent := { cls := 4, source := 0x08, unit := g }
  match s.partOfGallery g with
  | some q => s.partFatal q e
  | none => s.ras e

/-- WAY_DISABLE: corrected errors, and uncorrectable ones in the lines of the listed sets, are counted against a way (R230), and more than T of
them within W disable it (R231); Mitor records the way in the repair map. With the automatic flag at 0 the way is only reported (R407).
An uncorrectable error of the slice's tags or directory may come with them. -/
def execWayDisable (g way : Nat) (found : WayFound) (s : State) : Outcome := s.waits <|
  let { errors, bad, tags } := found
  if 20 ≤ g ∨ 16 ≤ way then .next s else
  let (s, now) := s.sample
  let s := if tags then s.tagError g else s
  if errors + bad.length = 0 then .next s else
  let x := s.slice g
  let window := s.setting 2 24 * hourNs
  let kept := x.errors.filter (fun e => decide (e.1 ≠ way) || decide (now < e.2 + window))
  let mine := kept ++ List.replicate (errors + bad.length) (way, now)
  let s := s.setSlice g { x with errors := mine }
  let s := s.rasCorrected 0x07 g (s.reachOf (s.partOfGallery g))
  let s := bad.foldl (fun s y => s.wayError g (16 * y + way)) s
  let x := s.slice g
  if bit x.disabledWays way ∨ (mine.filter (fun e => decide (e.1 = way))).length ≤ s.setting 1 4 then .next s
  else
    let e : RasEvent := { cls := 1, source := 0x07, part := s.partOfGallery g, unit := g, addr := way }
    if s.setting 14 1 = 0 then .next (s.rasRepaired e)
    else
      let s := (s.disableWay g way).raiseGallery g
      let s := (s.modRepair (fun m => { m with ways := m.ways ++ [(g, way)] })).persist
      .next (s.rasRepaired { e with action := 6 })

/-! ### Host cores and rails -/

/-- Reports a host core that has failed: it is retired, or, with the automatic flag at 0, reported (R407). -/
def State.hostFailing (s : State) (h src : Nat) : State :=
  if h ∈ s.conf.repair.hostRetired then s
  else if s.setting 10 1 = 0 then s.rasRepaired { cls := 1, source := src, part := s.partOfGallery (h / 2), unit := h }
  else s.retireHost h src

/-- HOST_CORE_ERROR (R404): an uncorrectable error of a host core's caches (source 0x0C) is Deferred, one of its architectural state (0x0D)
Partition-fatal; both count towards its retirement (Table 16-4). -/
def execHostCoreError (h : Nat) (arch : Bool) (addr : Nat) (s : State) : Outcome :=
  match s.partOfGallery (h / 2) with
  | none => .next s
  | some q =>
    let (s, _) := s.sample
    if arch then
      let s := s.partFatal q { cls := 4, source := 0x0D, unit := h }
      .next (s.hostFailing h 0x0D)
    else
      let s := s.ras { cls := 2, source := 0x0C, part := some q, unit := h, addr }
      .next (if s.within24 (0x0C * 2 ^ 20 + h) < s.setting 16 2 then s else s.hostFailing h 0x0C)

/-- The partitions with a gallery or a group on a rail (Table 15-1): 0 to 3 `VDD_CORE_d`, 4 to 7 `VDD_UNC_d`, 8 to 11 `VDD_HOST_d`, 12
`VDD_IO`, 13 `VDD_SERDES`, 14 `VDD_PCIE`, 15 to 22 `VDD_HBM_s`, 23 `VDD_BH`. -/
def State.partsOnRail (s : State) (rail : Nat) : List Nat :=
  s.liveParts.filter (fun q =>
    let p := s.part q
    let onDie := decide (rail < 12) && decide (bits p.galleries (5 * (rail % 4)) 5 ≠ 0)
    let unc := decide (4 ≤ rail) && decide (rail < 8) && decide (bits p.groups (8 * (rail % 4)) 8 ≠ 0)
    let hbm := decide (15 ≤ rail) && decide (rail < 23) && decide (bits p.groups (4 * (rail - 15)) 4 ≠ 0)
    onDie || unc || hbm)

/-- RAIL_OUT_OF_REGULATION (R404, source 0x10): partition-fatal for every partition on the rail; an IO die rail drives `PWR_GOOD` low. -/
def execRailOutOfRegulation (rail : Nat) (s : State) : Outcome :=
  if 24 ≤ rail ∨ s.supply ≠ 2 then .next s
  else
    let (s, _) := s.sample
    let s := s.partsFatal { cls := 4, source := 0x10, unit := rail } (s.partsOnRail rail)
    .next (if 12 ≤ rail ∧ rail < 15 ∧ s.pwrGood = true then { s with pwrGood := false }.emit (.pwrGood false) else s)

/-! ### The repair map (R416) -/

/-- The repair map without an entry of a row of Table 16-7. -/
def RepairMap.without (m : RepairMap) (kind a b : Nat) : RepairMap :=
  match kind with
  | 0 => { m with subs := merase m.subs a }
  | 2 => { m with failedSites := sremove m.failedSites a }
  | 3 => { m with hostRetired := sremove m.hostRetired a }
  | 4 => { m with dieLanes := m.dieLanes.filter (fun e => decide (e.1 ≠ a) || decide (e.2.1 ≠ b)) }
  | 5 => { m with narrowed := sremove m.narrowed a }
  | 6 => { m with fabLanes := m.fabLanes.filter (fun e => decide (e.1 ≠ a) || decide (e.2.1 ≠ b)) }
  | 7 => { m with rows := m.rows.filter (fun e => decide (e ≠ (a, b))) }
  | 8 => { m with channels := sremove m.channels a }
  | 9 => { m with ways := m.ways.filter (fun e => decide (e ≠ (a, b))) }
  | 10 => { m with units := sremove m.units a }
  | _ => m

/-- REPAIR_MAP_CLEAR: the maker, with a token in force, clears an entry of Table 16-7, whose rows are numbered from 0, and the unit returns to
service (R416). -/
def execRepairMapClear (kind a b : Nat) (s : State) : Outcome :=
  if s.scopes = [] ∨ 10 < kind then .next s
  else
    let s := if kind = 1 then { s with retired := sremove s.retired a } else s.modRepair (fun m => m.without kind a b)
    let s := if kind = 9 then s.modSlice a (fun x => { x with disabledWays := setBit x.disabledWays b false })
      else if kind = 6 then s.setPort a { s.port a with failed := sremove (s.port a).failed b }
      else s
    .next s.persist

end Sys2Proof.Machine
end

