-- ==== Sys2Proof/Machine/Startup.lean ====
section
/-! DEFINITION. Start-up, loss of power and resets (18_startup_and_hardware.md R432 to R442; 13_host_interface_attention.md R351;
14_mitor_management.md R361, R368, R369, R372, R376; 15_power_clocks_thermal.md R381). -/

namespace Sys2Proof.Machine

open Sys2Proof

/-! ### Power domains -/

/-- What survives the loss of the input: the flash with its banks, audit ring and firmware slots, and the pins that others drive; the model's
own fields go on. -/
def State.unpowered (s : State) : State :=
  { State.reset with
    pending := s.pending, out := s.out, free := s.free, now := s.now
    bankA := s.bankA, bankB := s.bankB, curBank := s.curBank, audit := s.audit, auditNext := s.auditNext, fwSlots := s.fwSlots
    perstN := s.perstN }

/-- What the boathouse keeps while every rail except `VDD_BH` is off (Table 18-2); requests taken from a mailbox run to their end, and their
responses are discarded. -/
def State.boathouse (s : State) : State :=
  { s.unpowered with
    logs := s.logs, retired := s.retired, rasTimes := s.rasTimes, corrTimes := s.corrTimes, corrTold := s.corrTold
    thresholds := s.thresholds, poisonTimes := s.poisonTimes
    taken := mmapVals s.taken (fun p (t : Taken) => if p ≤ 10 then { t with discard := true } else t)
    keyLast := s.keyLast, conf := s.conf, writing := s.writing, writeNo := s.writeNo, storeDirty := s.storeDirty, boots := s.boots
    rtcStart := s.rtcStart, running := s.running, seed := s.seed, makerAllowed := s.makerAllowed, scopes := s.scopes, reports := s.reports
    supply := 1, pwrEn := s.pwrEn, lockout := s.lockout, brownSince := s.brownSince, goodSince := s.goodSince, readings := s.readings
    mitorUp := s.mitorUp, bootStopped := s.bootStopped, activeMu := s.activeMu, muAsleep := s.muAsleep, muTested := s.muTested
    softResets := s.softResets, activation := s.activation, siteTests := s.siteTests, recalAt := s.recalAt, musLost := s.musLost
    tripped := s.tripped, attnLow := s.attnLow, wakeLow := s.wakeLow, sideEid := s.sideEid }

/-- Every rail except `VDD_BH` goes off: all partitions, memories and the IO die's state are lost (R381, R437, Table 18-2). Operations under
way on them are answered `ABORTED`. -/
def State.railsOff (s : State) : State :=
  let good := s.pwrGood
  let s := s.ctxs.foldl (fun t e => t.endPreempt e.1 1) { s with linkUp := false }
  let s := s.abortDrains (fun _ => true)
  let s := s.moveJobs.foldl (fun t j => t.answer j.path 1 0 []) { s with moveJobs := [] }
  let s := s.selfTests.foldl (fun t x => t.answer x.path 1 0 []) { s with selfTests := [] }
  let s := s.boathouse
  let s := if good then s.emit (.pwrGood false) else s
  s.driveAttn

/-- The default buckets of the migration engine (R258). -/
def State.migrationBuckets (s : State) : State :=
  (List.range 24).foldl (fun s r => s.setBucket (16 * r + 8) (fullBucket 51 64 false false)) { s with bucketTime := s.now }

/-- The IO die's rails come up (steps 6 and 7 of Table 18-1): its blocks are at their reset values, and it takes the addresses of the store. -/
def State.ioDieOn (s : State) : State :=
  let s : State := { s with
    supply := 2, pwrGood := true, layoutDue := true
    udpPort := (mfind s.conf.addrs 32).map ofBytes }
  let s := (List.range 32).foldl (fun s k => match mfind s.conf.addrs k with | some bs => s.takeAddr k bs | none => s) s
  s.migrationBuckets.emit (.pwrGood true)

/-! ### The default layout (R434) -/

/-- A management event in a function's log (Table 14-12). -/
def State.manage (s : State) (fn code value : Nat) : State := s.logEvent fn 5 (toBytes 2 code ++ zeros 2 ++ toBytes 4 value)

/-- Ends every move of stage-2 tables at once. -/
def State.endTableMoves (s : State) : State := s.tableMoves.foldl (fun t m => t.endTableMove m) s

/-- Creates the partitions of a layout, each as `PART_CREATE` does; one that is refused is skipped and told. -/
def State.applyParts (s : State) : List LayoutPart → State
  | [] => s
  | p :: ps =>
    let r := match s.makePart p with
      | .moving t => t.endTableMoves.makePart p
      | r => r
    let s := match r with
      | .made t => (t.manage (t.fnOf p.part) 2 p.part).persist
      | _ => s.manage 0 3 p.part
    s.applyParts ps

/-- Applies the default layout that the store holds, if it holds one and it is still to be applied. -/
def State.applyLayout (s : State) : State :=
  if s.layoutDue = false then s
  else
    let s := { s with layoutDue := false }
    if s.conf.layout = [] then s else (s.applyParts s.conf.layout).manage 0 2 0

/-- Mitor becomes ready to the functions (R433): READY in every function, the reset value of the attention mask, and the default layout. -/
def State.readyToFunctions (s : State) : State :=
  let s := { s with mitorReady := true }.modFunc 0 (fun f => { f with attnMask := 0x60100 })
  s.raiseReady.driveAttn.applyLayout

/-! ### Power-on -/

/-- Each key's last accepted counter at start-up is its reservation plus 2^20 (R361). -/
def State.resumeCounters (s : State) : State :=
  { s with keyLast := (s.conf.keys.map (·.1)).map (fun k => (k, mget 0 s.conf.reserv k + 2 ^ 20)) }

/-- The boot ROM starts the image of the slot that the store names, or else the other (R376); with neither, start-up stops. -/
def State.startImage (s : State) : State :=
  let k := s.conf.slot
  if s.slotBoots k then { s with running := mget [] s.fwSlots k }
  else if s.slotBoots (1 - k) then
    { s with running := mget [] s.fwSlots (1 - k), conf := { s.conf with slot := 1 - k } }.manage 0 1 (1 - k)
  else { s with bootStopped := true }

/-- The management unit that starts: the lower-numbered one that is not retired. -/
def State.chooseUnit (s : State) : State :=
  let us := (List.range 2).filter (fun u => decide (u ∉ s.conf.repair.units))
  match us with
  | u :: _ => { s with activeMu := u }
  | [] => { s with musLost := true }

/-- POWER_ON: steps 1 to 7 of Table 18-1, with `PWR_EN` as it stands. The timestamp starts with the boathouse (R67). With no valid record, or no
image that verifies, start-up stops and `PWR_GOOD` is never asserted (R433). -/
def execPowerOn (pwrEn : Bool) (s : State) : Outcome :=
  if s.supply ≠ 0 then .next s
  else
    let s : State := { s.unpowered with now := 0, supply := 1, pwrEn, readings := { vin := 44000 }, goodSince := some 0 }
    if s.bankA.valid = false ∧ s.bankB.valid = false then .next { s with bootStopped := true }
    else
      let cur := if s.bankA.valid && (!s.bankB.valid || decide (s.bankB.seq ≤ s.bankA.seq)) then 0 else 1
      let d := (s.bank cur).data
      let s := { s with
        curBank := cur, conf := d, retired := d.retired, thresholds := d.thresholds, boots := d.boots + 1, seed := Config.pufSeed d.helper }
      let s := s.resumeCounters.chooseUnit.startImage
      if s.bootStopped then .next s
      else .next (if pwrEn then s.ioDieOn else s).driveAttn

/-- MITOR_READY: Mitor serves the sideband, and the mailboxes where the IO die is up (R433). A record with the new power-on count, or with
changes that a restart interrupted, is written at once (R368, R370). -/
def execMitorReady (s : State) : Outcome :=
  if s.mitorUp = true ∨ s.supply = 0 ∨ s.bootStopped = true ∨ s.musLost = true then .next s
  else
    let s := { s with mitorUp := true }
    let s := if s.boots ≠ (s.bank s.curBank).data.boots ∨ s.storeDirty = true then s.persist else s
    .next (if s.supply = 2 then s.readyToFunctions else s)

/-- PWR_EN_ASSERT: in Standby the IO die's rails come up, and Mitor becomes ready to the functions (R433). -/
def execPwrEnAssert (s : State) : Outcome :=
  let s := { s with pwrEn := true }
  if s.supply ≠ 1 ∨ s.bootStopped = true ∨ s.lockout = true then .next s
  else
    let s := s.ioDieOn
    .next (if s.mitorUp then s.readyToFunctions else s)

/-- The partitions that `PWR_EN` removal loses: a Partition-fatal record, whose source no rule gives (log entry 5), and a management event, in
PF0's log (R437). -/
def State.tellRemoval (s : State) (q : Nat) : State :=
  let (s, src) := s.pick 256
  let e : RasEvent := { cls := 4, source := src, part := some q, unit := q }
  (s.logEvent 0 1 (rasBody e 1 0)).manage 0 7 q

/-- PWR_EN_DEASSERT: while the module is Up it falls back to Standby, and every partition is lost (R437). -/
def execPwrEnDeassert (s : State) : Outcome :=
  let s := { s with pwrEn := false }
  if s.supply ≠ 2 then .next s else .next (s.liveParts.foldl (fun s q => s.tellRemoval q) s).railsOff

/-- SUPPLY_LOSS: everything held in memories is lost; the store keeps its last completed record (R351). -/
def execSupplyLoss (s : State) : Outcome :=
  if s.supply = 0 then .next s
  else
    let u := if s.pwrGood then s.unpowered.emit (.pwrGood false) else s.unpowered
    let u := if s.attnLow then u.emit (.attnN false) else u
    .next (if s.wakeLow then u.emit (.wakeN false) else u)

/-- Whether the input calls for a lockout (Table 15-2). -/
def State.lockoutDue (s : State) : Bool :=
  let v := s.readings.vin
  decide (66000 < v) || decide (v < 36000) || (match s.brownSince with | some t => decide (t + 1000000 < s.now) | none => false)

/-- SUPPLY_LOCKOUT: the input has left its band (R381): every rail except `VDD_BH` goes off, the event is logged, and `ATTN_N` is kept low. -/
def execSupplyLockout (s : State) : Outcome :=
  let (s, _) := s.sample
  if s.supply = 0 ∨ s.lockout = true ∨ s.lockoutDue = false then .next s
  else .next ({ s.manage 0 6 0 with lockout := true }.railsOff)

/-- LOCKOUT_RECOVERY: the input has stayed within 44 to 62 V for 100 ms, and the sequence goes on from step 6 (R381, R438). -/
def execLockoutRecovery (s : State) : Outcome :=
  match s.goodSince with
  | none => .next s
  | some t =>
    if s.lockout = false then .next s
    else
      let s := ({ s with lockout := false }.until (t + 100000000)).driveAttn
      if s.pwrEn = false ∨ s.bootStopped = true then .next s
      else
        let s := s.ioDieOn
        .next (if s.mitorUp then s.readyToFunctions else s)

/-! ### Resets -/

/-- MITOR_SOFT_RESET: the watchdog has not been serviced for 1 s, and both units restart from the boot ROM while partitions run on (R442). The
third within an hour boots the inactive slot, if it verifies. -/
def execMitorSoftReset (s : State) : Outcome :=
  if s.supply = 0 ∨ s.bootStopped = true ∨ s.musLost = true then .next s
  else
    let (s, now) := s.sample
    let s := s.interruptAll
    let times := now :: s.softResets.filter (fun t => decide (now < t + hourNs))
    let s := { s with
      mitorUp := false, mitorReady := false, muAsleep := false, softResets := times, taken := []
      storeDirty := s.storeDirty || s.writing.isSome, writing := none }
    let s := s.resumeCounters.manage 0 5 0
    let other := 1 - s.conf.slot
    let s := if 3 ≤ times.length && s.slotBoots other then
        { s with running := mget [] s.fwSlots other, softResets := [], conf := { s.conf with slot := other } }.manage 0 1 other
      else s.startImage
    .next s.driveAttn

/-- The messages taken on a pair of a function that is reset run to their end, and their responses are discarded (R354). -/
def State.resetPairs (s : State) (ps : List Nat) : State :=
  { s with
    mailboxes := s.mailboxes.filter (fun e => decide (e.1 ∉ ps))
    taken := mmapVals s.taken (fun p (t : Taken) => if p ∈ ps then { t with discard := true } else t) }

/-- A function's attention, host and mailbox blocks and configuration space return to their reset values: its outstanding reads fail, its INTA is
deasserted, and bits with leaves that are still set read zero until one of them is set again (R342, R346). -/
def State.resetFunc (s : State) (fn : Nat) (pairs : List Nat) : State :=
  let s := s.failReads (fun h => decide (h.fn = fn))
  let s := if (s.func fn).asserted then s.emit (.inta false) else s
  let s := { s with funcs := merase s.funcs fn }
  let hidden := attBlocks.foldl (fun (m : Map Nat) b => mset 0 m b (s.causeLeaves fn b)) []
  ((s.modFunc fn (fun f => { f with hidden })).resetPairs pairs).driveAttn

/-- Closes the debug session of a partition. -/
def State.endSession (s : State) (q : Nat) : State := if (s.part q).live then s.setPart q { s.part q with debugOpen := false } else s

/-- The partitions that do not persist are cut and destroyed (R440 step 1). -/
def State.dropTransient (s : State) : List Nat → State
  | [] => s
  | q :: qs => (if (s.part q).persist then s else ((s.destroyPart q).dropPartKeys q).persist).dropTransient qs

/-- PERST_N_ASSERT (R440): the link goes down and every function is reset; partitions without `PERSIST` are destroyed, and made again where the
default layout names them; contexts of the others with records in host memory are destroyed. -/
def execPerstNAssert (s : State) : Outcome := s.waits <|
  if s.perstN = false then .next s
  else
    let s := { s with perstN := false, linkUp := false, numVfs := 0 }
    if s.supply ≠ 2 then .next s
    else
      let old := s.liveParts
      let s := s.dropTransient old
      let hostBound := fun (n : Nat) => decide ((s.ctx n).creditSpace = 1) || decide ((s.ctx n).ringSpace = 1)
      let s := s.destroyCtxs ((List.range 64).filter (fun n => decide ((s.ctx n).state ≠ .free) && hostBound n))
      let s := ((List.range 9).foldl (fun s fn => s.resetFunc fn []) s).resetPairs (List.range 11)
      .next (s.applyParts (s.conf.layout.filter (fun p => decide (p.part ∈ old) && !(s.part p.part).live)))

/-- FLR_VF (R441): the contexts of the VF's partition are destroyed, its debug session ends, and the VF's blocks are reset. -/
def execFlrVf (vf : Nat) (s : State) : Outcome := s.waits <|
  if vf = 0 ∨ s.fnPresent vf = false ∨ s.perstN = false then .next s
  else
    let s := match s.partOf vf with
      | some q => (s.destroyCtxs (s.ctxsOf q)).endSession q
      | none => s
    .next (s.resetFunc vf [vf])

/-- FLR_PF0 (Table 18-2): PF0's blocks, the installer and maker pairs among them, are reset, VF Enable is cleared, and the contexts of the partition
bound to PF0 are destroyed. -/
def execFlrPf0 (s : State) : Outcome := s.waits <|
  if s.fnPresent 0 = false ∨ s.perstN = false then .next s
  else
    let s := match s.partOf 0 with
      | some q => (s.destroyCtxs (s.ctxsOf q)).endSession q
      | none => s
    .next ({ s with numVfs := 0 }.resetFunc 0 [0, 9, 10])

end Sys2Proof.Machine
end

