-- ==== Sys2Proof/Machine/Dispatch.lean ====
section
/-! DEFINITION. The effect of every command: one arm per constructor, each one call of the command's meaning. -/

namespace Sys2Proof.Machine

open Sys2Proof

def exec (i : Instr) (s : State) : Host.Outcome State Fault Refusal :=
  match i with
  | .registerWrite a => Sys2Proof.Machine.execRegisterWrite a s
  | .badRegisterAccess a write => Sys2Proof.Machine.execBadRegisterAccess a write s
  | .powerOn pwrEn => Sys2Proof.Machine.execPowerOn pwrEn s
  | .mitorReady => Sys2Proof.Machine.execMitorReady s
  | .pwrEnAssert => Sys2Proof.Machine.execPwrEnAssert s
  | .pwrEnDeassert => Sys2Proof.Machine.execPwrEnDeassert s
  | .supplyLoss => Sys2Proof.Machine.execSupplyLoss s
  | .supplyLockout => Sys2Proof.Machine.execSupplyLockout s
  | .lockoutRecovery => Sys2Proof.Machine.execLockoutRecovery s
  | .mitorSoftReset => Sys2Proof.Machine.execMitorSoftReset s
  | .flitReplay link lane => Sys2Proof.Machine.execFlitReplay link lane s
  | .dieLaneFail link lane => Sys2Proof.Machine.execDieLaneFail link lane s
  | .lockstepMismatch unit => Sys2Proof.Machine.execLockstepMismatch unit s
  | .standbySelfTest pass => Sys2Proof.Machine.execStandbySelfTest pass s
  | .ingressGranule fn ctx off bytes => Sys2Proof.Machine.execIngressGranule fn ctx off bytes s
  | .packetDecode => Sys2Proof.Machine.execPacketDecode s
  | .packetSkip ctx => Sys2Proof.Machine.execPacketSkip ctx s
  | .nop ctx => Sys2Proof.Machine.execNop ctx s
  | .setIds ctx => Sys2Proof.Machine.execSetIds ctx s
  | .timestamp ctx => Sys2Proof.Machine.execTimestamp ctx s
  | .report ctx => Sys2Proof.Machine.execReport ctx s
  | .fence ctx => Sys2Proof.Machine.execFence ctx s
  | .landingArrive ctx => Sys2Proof.Machine.execLandingArrive ctx s
  | .landingWait ctx => Sys2Proof.Machine.execLandingWait ctx s
  | .ifFlag ctx => Sys2Proof.Machine.execIfFlag ctx s
  | .elsePacket ctx => Sys2Proof.Machine.execElsePacket ctx s
  | .endIf ctx => Sys2Proof.Machine.execEndIf ctx s
  | .fetchChain ctx => Sys2Proof.Machine.execFetchChain ctx s
  | .chainFault ctx => Sys2Proof.Machine.execChainFault ctx s
  | .chainEnd ctx => Sys2Proof.Machine.execChainEnd ctx s
  | .copy ctx => Sys2Proof.Machine.execCopy ctx s
  | .fill ctx => Sys2Proof.Machine.execFill ctx s
  | .launchCrews ctx => Sys2Proof.Machine.execLaunchCrews ctx s
  | .launchCox ctx => Sys2Proof.Machine.execLaunchCox ctx s
  | .broadcastCox ctx => Sys2Proof.Machine.execBroadcastCox ctx s
  | .packetComplete ctx pid => Sys2Proof.Machine.execPacketComplete ctx pid s
  | .faultCreditRecord ctx => Sys2Proof.Machine.execFaultCreditRecord ctx s
  | .packetRetire ctx => Sys2Proof.Machine.execPacketRetire ctx s
  | .crewPlace core => Sys2Proof.Machine.execCrewPlace core s
  | .crewLeave c => Sys2Proof.Machine.execCrewLeave c s
  | .launchFaultSignal launch core => Sys2Proof.Machine.execLaunchFaultSignal launch core s
  | .watchdog c => Sys2Proof.Machine.execWatchdog c s
  | .resultArrival c n => Sys2Proof.Machine.execResultArrival c n s
  | .scratchRetry c => Sys2Proof.Machine.execScratchRetry c s
  | .iadd c => Sys2Proof.Machine.execIadd c s
  | .isub c => Sys2Proof.Machine.execIsub c s
  | .imul c => Sys2Proof.Machine.execImul c s
  | .imulh c => Sys2Proof.Machine.execImulh c s
  | .imad c => Sys2Proof.Machine.execImad c s
  | .imin c => Sys2Proof.Machine.execImin c s
  | .imax c => Sys2Proof.Machine.execImax c s
  | .iabs c => Sys2Proof.Machine.execIabs c s
  | .andOp c => Sys2Proof.Machine.execAndOp c s
  | .orOp c => Sys2Proof.Machine.execOrOp c s
  | .xorOp c => Sys2Proof.Machine.execXorOp c s
  | .andn c => Sys2Proof.Machine.execAndn c s
  | .shl c => Sys2Proof.Machine.execShl c s
  | .shr c => Sys2Proof.Machine.execShr c s
  | .popc c => Sys2Proof.Machine.execPopc c s
  | .clz c => Sys2Proof.Machine.execClz c s
  | .brev c => Sys2Proof.Machine.execBrev c s
  | .bfe c => Sys2Proof.Machine.execBfe c s
  | .bfi c => Sys2Proof.Machine.execBfi c s
  | .idiv c => Sys2Proof.Machine.execIdiv c s
  | .irem c => Sys2Proof.Machine.execIrem c s
  | .dadd c => Sys2Proof.Machine.execDadd c s
  | .dsub c => Sys2Proof.Machine.execDsub c s
  | .dmul c => Sys2Proof.Machine.execDmul c s
  | .dfma c => Sys2Proof.Machine.execDfma c s
  | .dmin c => Sys2Proof.Machine.execDmin c s
  | .dmax c => Sys2Proof.Machine.execDmax c s
  | .ddiv c => Sys2Proof.Machine.execDdiv c s
  | .dsqrt c => Sys2Proof.Machine.execDsqrt c s
  | .fadd c => Sys2Proof.Machine.execFadd c s
  | .fsub c => Sys2Proof.Machine.execFsub c s
  | .fmul c => Sys2Proof.Machine.execFmul c s
  | .ffma c => Sys2Proof.Machine.execFfma c s
  | .fmin c => Sys2Proof.Machine.execFmin c s
  | .fmax c => Sys2Proof.Machine.execFmax c s
  | .fdiv c => Sys2Proof.Machine.execFdiv c s
  | .fsqrt c => Sys2Proof.Machine.execFsqrt c s
  | .frcp c => Sys2Proof.Machine.execFrcp c s
  | .frsq c => Sys2Proof.Machine.execFrsq c s
  | .fexp2 c => Sys2Proof.Machine.execFexp2 c s
  | .flog2 c => Sys2Proof.Machine.execFlog2 c s
  | .hadd2 c => Sys2Proof.Machine.execHadd2 c s
  | .hsub2 c => Sys2Proof.Machine.execHsub2 c s
  | .hmul2 c => Sys2Proof.Machine.execHmul2 c s
  | .hfma2 c => Sys2Proof.Machine.execHfma2 c s
  | .hmin2 c => Sys2Proof.Machine.execHmin2 c s
  | .hmax2 c => Sys2Proof.Machine.execHmax2 c s
  | .hdot2 c => Sys2Proof.Machine.execHdot2 c s
  | .cvt c => Sys2Proof.Machine.execCvt c s
  | .frnd c => Sys2Proof.Machine.execFrnd c s
  | .icmp c => Sys2Proof.Machine.execIcmp c s
  | .dcmp c => Sys2Proof.Machine.execDcmp c s
  | .fcmp c => Sys2Proof.Machine.execFcmp c s
  | .sel c => Sys2Proof.Machine.execSel c s
  | .plop c => Sys2Proof.Machine.execPlop c s
  | .brc c => Sys2Proof.Machine.execBrc c s
  | .brx c => Sys2Proof.Machine.execBrx c s
  | .call c => Sys2Proof.Machine.execCall c s
  | .join c => Sys2Proof.Machine.execJoin c s
  | .exitOp c => Sys2Proof.Machine.execExitOp c s
  | .cbar c => Sys2Proof.Machine.execCbar c s
  | .ld c => Sys2Proof.Machine.execLd c s
  | .st c => Sys2Proof.Machine.execSt c s
  | .ldu c => Sys2Proof.Machine.execLdu c s
  | .memoryFence c => Sys2Proof.Machine.execMemoryFence c s
  | .aadd c => Sys2Proof.Machine.execAadd c s
  | .amin c => Sys2Proof.Machine.execAmin c s
  | .amax c => Sys2Proof.Machine.execAmax c s
  | .aand c => Sys2Proof.Machine.execAand c s
  | .aor c => Sys2Proof.Machine.execAor c s
  | .axor c => Sys2Proof.Machine.execAxor c s
  | .axch c => Sys2Proof.Machine.execAxch c s
  | .acas c => Sys2Proof.Machine.execAcas c s
  | .afadd c => Sys2Proof.Machine.execAfadd c s
  | .adfadd c => Sys2Proof.Machine.execAdfadd c s
  | .larrive c => Sys2Proof.Machine.execLarrive c s
  | .lwait c => Sys2Proof.Machine.execLwait c s
  | .larrwait c => Sys2Proof.Machine.execLarrwait c s
  | .ltest c => Sys2Proof.Machine.execLtest c s
  | .shflIdx c => Sys2Proof.Machine.execShflIdx c s
  | .shflUp c => Sys2Proof.Machine.execShflUp c s
  | .shflDown c => Sys2Proof.Machine.execShflDown c s
  | .shflXor c => Sys2Proof.Machine.execShflXor c s
  | .voteAny c => Sys2Proof.Machine.execVoteAny c s
  | .voteAll c => Sys2Proof.Machine.execVoteAll c s
  | .ballot c => Sys2Proof.Machine.execBallot c s
  | .reduxAdd c => Sys2Proof.Machine.execReduxAdd c s
  | .reduxMin c => Sys2Proof.Machine.execReduxMin c s
  | .reduxMax c => Sys2Proof.Machine.execReduxMax c s
  | .ufrom c => Sys2Proof.Machine.execUfrom c s
  | .fdma c => Sys2Proof.Machine.execFdma c s
  | .pfL1 c => Sys2Proof.Machine.execPfL1 c s
  | .pfGc c => Sys2Proof.Machine.execPfGc c s
  | .invL1 c => Sys2Proof.Machine.execInvL1 c s
  | .invL1all c => Sys2Proof.Machine.execInvL1all c s
  | .invIc c => Sys2Proof.Machine.execInvIc c s
  | .nopInstruction c => Sys2Proof.Machine.execNopInstruction c s
  | .mov c => Sys2Proof.Machine.execMov c s
  | .umov c => Sys2Proof.Machine.execUmov c s
  | .rds c => Sys2Proof.Machine.execRds c s
  | .wrs c => Sys2Proof.Machine.execWrs c s
  | .brk c => Sys2Proof.Machine.execBrk c s
  | .haltCrew path => Sys2Proof.Machine.execHaltCrew path s
  | .readState path => Sys2Proof.Machine.execReadState path s
  | .writeState path => Sys2Proof.Machine.execWriteState path s
  | .stepCrew path => Sys2Proof.Machine.execStepCrew path s
  | .resume path => Sys2Proof.Machine.execResume path s
  | .coxProgramLoad core ctx pid => Sys2Proof.Machine.execCoxProgramLoad core ctx pid s
  | .programStart core => Sys2Proof.Machine.execProgramStart core s
  | .load core => Sys2Proof.Machine.execLoad core s
  | .result core => Sys2Proof.Machine.execResult core s
  | .slice core => Sys2Proof.Machine.execSlice core s
  | .slicePass core => Sys2Proof.Machine.execSlicePass core s
  | .rowCommit core => Sys2Proof.Machine.execRowCommit core s
  | .resultRowLands core => Sys2Proof.Machine.execResultRowLands core s
  | .toA core => Sys2Proof.Machine.execToA core s
  | .toB core => Sys2Proof.Machine.execToB core s
  | .stg core => Sys2Proof.Machine.execStg core s
  | .srToA core => Sys2Proof.Machine.execSrToA core s
  | .srToB core => Sys2Proof.Machine.execSrToB core s
  | .store core => Sys2Proof.Machine.execStore core s
  | .streamerDelivery core => Sys2Proof.Machine.execStreamerDelivery core s
  | .stagingLands core => Sys2Proof.Machine.execStagingLands core s
  | .storeLands core => Sys2Proof.Machine.execStoreLands core s
  | .setScalar core => Sys2Proof.Machine.execSetScalar core s
  | .addScalar core => Sys2Proof.Machine.execAddScalar core s
  | .loop core => Sys2Proof.Machine.execLoop core s
  | .br core => Sys2Proof.Machine.execBr core s
  | .xBrc core => Sys2Proof.Machine.execXBrc core s
  | .cmpcfg core => Sys2Proof.Machine.execCmpcfg core s
  | .brf core => Sys2Proof.Machine.execBrf core s
  | .endProgram core => Sys2Proof.Machine.execEndProgram core s
  | .arrive core => Sys2Proof.Machine.execArrive core s
  | .wait core => Sys2Proof.Machine.execWait core s
  | .arrwait core => Sys2Proof.Machine.execArrwait core s
  | .waitgen core => Sys2Proof.Machine.execWaitgen core s
  | .flagset core => Sys2Proof.Machine.execFlagset core s
  | .flagclr core => Sys2Proof.Machine.execFlagclr core s
  | .mark core => Sys2Proof.Machine.execMark core s
  | .strokeLimit core => Sys2Proof.Machine.execStrokeLimit core s
  | .drainEnd core => Sys2Proof.Machine.execDrainEnd core s
  | .coxLaunchComplete launch => Sys2Proof.Machine.execCoxLaunchComplete launch s
  | .fdmaChainStart core => Sys2Proof.Machine.execFdmaChainStart core s
  | .descriptorCopy core => Sys2Proof.Machine.execDescriptorCopy core s
  | .descriptorFill core => Sys2Proof.Machine.execDescriptorFill core s
  | .convertDesc core => Sys2Proof.Machine.execConvertDesc core s
  | .linkDesc core => Sys2Proof.Machine.execLinkDesc core s
  | .fdmaChainComplete core => Sys2Proof.Machine.execFdmaChainComplete core s
  | .badDescClear a => Sys2Proof.Machine.execBadDescClear a s
  | .gcEnable a => Sys2Proof.Machine.execGcEnable a s
  | .gcDisable a => Sys2Proof.Machine.execGcDisable a s
  | .sliceDisabled g => Sys2Proof.Machine.execSliceDisabled g s
  | .gcInvalidate a => Sys2Proof.Machine.execGcInvalidate a s
  | .invalidateDone g => Sys2Proof.Machine.execInvalidateDone g s
  | .gcWaysWrite a => Sys2Proof.Machine.execGcWaysWrite a s
  | .wayDisable g way found => Sys2Proof.Machine.execWayDisable g way found s
  | .rdShared part line agent => Sys2Proof.Machine.execRdShared part line agent s
  | .rdUnique part line agent => Sys2Proof.Machine.execRdUnique part line agent s
  | .wrThrough part line agent mask bytes => Sys2Proof.Machine.execWrThrough part line agent mask bytes s
  | .atomic part line agent op size off a b sgn => Sys2Proof.Machine.execAtomic part line agent op size off a b sgn s
  | .ioRead part line agent => Sys2Proof.Machine.execIoRead part line agent s
  | .ioWrite part line agent mask bytes => Sys2Proof.Machine.execIoWrite part line agent mask bytes s
  | .writeback part line agent bytes => Sys2Proof.Machine.execWriteback part line agent bytes s
  | .evictClean part line agent => Sys2Proof.Machine.execEvictClean part line agent s
  | .dataFill part line => Sys2Proof.Machine.execDataFill part line s
  | .inv part line agent => Sys2Proof.Machine.execInv part line agent s
  | .downgrade part line agent => Sys2Proof.Machine.execDowngrade part line agent s
  | .ack part line => Sys2Proof.Machine.execAck part line s
  | .invAck part line agent bytes => Sys2Proof.Machine.execInvAck part line agent bytes s
  | .downAck part line agent bytes => Sys2Proof.Machine.execDownAck part line agent bytes s
  | .compAck part line agent => Sys2Proof.Machine.execCompAck part line agent s
  | .holdExpiry part line agent => Sys2Proof.Machine.execHoldExpiry part line agent s
  | .hbmRead pc line half symbols => Sys2Proof.Machine.execHbmRead pc line half symbols s
  | .patrolScrub stack found => Sys2Proof.Machine.execPatrolScrub stack found s
  | .rowRepair pc row => Sys2Proof.Machine.execRowRepair pc row s
  | .lineMove => Sys2Proof.Machine.execLineMove s
  | .stackTempReport stack temp => Sys2Proof.Machine.execStackTempReport stack temp s
  | .slotReturn slot => Sys2Proof.Machine.execSlotReturn slot s
  | .timeout slot n => Sys2Proof.Machine.execTimeout slot n s
  | .landingMove => Sys2Proof.Machine.execLandingMove s
  | .mirrorForward slot => Sys2Proof.Machine.execMirrorForward slot s
  | .ldgArrive h ctx a => Sys2Proof.Machine.execLdgArrive h ctx a s
  | .preemptSave ctx => Sys2Proof.Machine.execPreemptSave ctx s
  | .preemptTimeout ctx => Sys2Proof.Machine.execPreemptTimeout ctx s
  | .xltInvContext a => Sys2Proof.Machine.execXltInvContext a s
  | .xltInvPage a => Sys2Proof.Machine.execXltInvPage a s
  | .invalidationDone ctx => Sys2Proof.Machine.execInvalidationDone ctx s
  | .segmentRestore seg line => Sys2Proof.Machine.execSegmentRestore seg line s
  | .segmentHoldExpiry seg n => Sys2Proof.Machine.execSegmentHoldExpiry seg n s
  | .drainTimeout n => Sys2Proof.Machine.execDrainTimeout n s
  | .drainComplete n => Sys2Proof.Machine.execDrainComplete n s
  | .coreSubstitution core => Sys2Proof.Machine.execCoreSubstitution core s
  | .linkUp sub => Sys2Proof.Machine.execLinkUp sub s
  | .trainRetry sub => Sys2Proof.Machine.execTrainRetry sub s
  | .offer sub payload => Sys2Proof.Machine.execOffer sub payload s
  | .accept sub payload => Sys2Proof.Machine.execAccept sub payload s
  | .offerRepeat port => Sys2Proof.Machine.execOfferRepeat port s
  | .spareAssign port sub => Sys2Proof.Machine.execSpareAssign port sub s
  | .laneFail port lane => Sys2Proof.Machine.execLaneFail port lane s
  | .shadowReq sub payload => Sys2Proof.Machine.execShadowReq sub payload s
  | .shadowOn sub payload => Sys2Proof.Machine.execShadowOn sub payload s
  | .swapDone sub own payload => Sys2Proof.Machine.execSwapDone sub own payload s
  | .shadowOff sub own payload => Sys2Proof.Machine.execShadowOff sub own payload s
  | .shadowReqRepeat port => Sys2Proof.Machine.execShadowReqRepeat port s
  | .foreign sub corrupt => Sys2Proof.Machine.execForeign sub corrupt s
  | .kftAck k => Sys2Proof.Machine.execKftAck k s
  | .probe k => Sys2Proof.Machine.execProbe k s
  | .hello h => Sys2Proof.Machine.execHello h s
  | .reply h => Sys2Proof.Machine.execReply h s
  | .confirm k => Sys2Proof.Machine.execConfirm k s
  | .close p b => Sys2Proof.Machine.execClose p b s
  | .msgWrite k => Sys2Proof.Machine.execMsgWrite k s
  | .readReq k => Sys2Proof.Machine.execReadReq k s
  | .readResp k => Sys2Proof.Machine.execReadResp k s
  | .msgAtomic k => Sys2Proof.Machine.execMsgAtomic k s
  | .atomicResp k => Sys2Proof.Machine.execAtomicResp k s
  | .writeAck k => Sys2Proof.Machine.execWriteAck k s
  | .msgLdgArrive k => Sys2Proof.Machine.execMsgLdgArrive k s
  | .ldgRelease k => Sys2Proof.Machine.execLdgRelease k s
  | .ldgLoss k => Sys2Proof.Machine.execLdgLoss k s
  | .nak k => Sys2Proof.Machine.execNak k s
  | .remoteWrite ctx queue => Sys2Proof.Machine.execRemoteWrite ctx queue s
  | .remoteRead ctx queue => Sys2Proof.Machine.execRemoteRead ctx queue s
  | .remoteAtomic ctx queue => Sys2Proof.Machine.execRemoteAtomic ctx queue s
  | .remoteLandingArrive ctx queue => Sys2Proof.Machine.execRemoteLandingArrive ctx queue s
  | .kftSend assoc room => Sys2Proof.Machine.execKftSend assoc room s
  | .ackDelay assoc path => Sys2Proof.Machine.execAckDelay assoc path s
  | .retxTimer assoc path psn => Sys2Proof.Machine.execRetxTimer assoc path psn s
  | .segmentTimeout assoc path psn => Sys2Proof.Machine.execSegmentTimeout assoc path psn s
  | .probeTimer assoc path => Sys2Proof.Machine.execProbeTimer assoc path s
  | .pathMove assoc path => Sys2Proof.Machine.execPathMove assoc path s
  | .rekeyStart assoc => Sys2Proof.Machine.execRekeyStart assoc s
  | .rekeyTimeout assoc => Sys2Proof.Machine.execRekeyTimeout assoc s
  | .oldEpochErase assoc => Sys2Proof.Machine.execOldEpochErase assoc s
  | .strangerAttention port => Sys2Proof.Machine.execStrangerAttention port s
  | .bar2Read fn addr n => Sys2Proof.Machine.execBar2Read fn addr n s
  | .bar2Write fn addr bytes => Sys2Proof.Machine.execBar2Write fn addr bytes s
  | .attSummaryWrite a => Sys2Proof.Machine.execAttSummaryWrite a s
  | .attRearm a => Sys2Proof.Machine.execAttRearm a s
  | .moderationTimer fn => Sys2Proof.Machine.execModerationTimer fn s
  | .vectorUnmask fn enable => Sys2Proof.Machine.execVectorUnmask fn enable s
  | .busMasterEnable fn => Sys2Proof.Machine.execBusMasterEnable fn s
  | .vfEnable n => Sys2Proof.Machine.execVfEnable n s
  | .flrVf vf => Sys2Proof.Machine.execFlrVf vf s
  | .flrPf0 => Sys2Proof.Machine.execFlrPf0 s
  | .perstNAssert => Sys2Proof.Machine.execPerstNAssert s
  | .perstNRelease refclk => Sys2Proof.Machine.execPerstNRelease refclk s
  | .pcieLinkUp => Sys2Proof.Machine.execPcieLinkUp s
  | .requestPost a => Sys2Proof.Machine.execRequestPost a s
  | .requestTake path => Sys2Proof.Machine.execRequestTake path s
  | .responseRelease a => Sys2Proof.Machine.execResponseRelease a s
  | .sidebandMessage bus ep m => Sys2Proof.Machine.execSidebandMessage bus ep m s
  | .storeRecordCurrent ok => Sys2Proof.Machine.execStoreRecordCurrent ok s
  | .storeRecovery image sig => Sys2Proof.Machine.execStoreRecovery image sig s
  | .info path => Sys2Proof.Machine.execInfo path s
  | .sensorRead path => Sys2Proof.Machine.execSensorRead path s
  | .eventRead path => Sys2Proof.Machine.execEventRead path s
  | .notifyRead path => Sys2Proof.Machine.execNotifyRead path s
  | .counterRead path => Sys2Proof.Machine.execCounterRead path s
  | .attest path => Sys2Proof.Machine.execAttest path s
  | .keyStatus path => Sys2Proof.Machine.execKeyStatus path s
  | .ctxCreate path => Sys2Proof.Machine.execCtxCreate path s
  | .ctxDestroy path => Sys2Proof.Machine.execCtxDestroy path s
  | .ctxReset path => Sys2Proof.Machine.execCtxReset path s
  | .ctxPreempt path => Sys2Proof.Machine.execCtxPreempt path s
  | .ctxResume path => Sys2Proof.Machine.execCtxResume path s
  | .ctxDisable path => Sys2Proof.Machine.execCtxDisable path s
  | .ldgMap path => Sys2Proof.Machine.execLdgMap path s
  | .ldgUnmap path => Sys2Proof.Machine.execLdgUnmap path s
  | .ldgArm path => Sys2Proof.Machine.execLdgArm path s
  | .sqCreate path => Sys2Proof.Machine.execSqCreate path s
  | .sqDestroy path => Sys2Proof.Machine.execSqDestroy path s
  | .kftWindow path => Sys2Proof.Machine.execKftWindow path s
  | .regionCreate path => Sys2Proof.Machine.execRegionCreate path s
  | .regionChange path => Sys2Proof.Machine.execRegionChange path s
  | .regionDestroy path => Sys2Proof.Machine.execRegionDestroy path s
  | .stage2Map path => Sys2Proof.Machine.execStage2Map path s
  | .segCreate path => Sys2Proof.Machine.execSegCreate path s
  | .segMap path => Sys2Proof.Machine.execSegMap path s
  | .segDestroy path => Sys2Proof.Machine.execSegDestroy path s
  | .segRepair path => Sys2Proof.Machine.execSegRepair path s
  | .channelRetire path => Sys2Proof.Machine.execChannelRetire path s
  | .partCreate path => Sys2Proof.Machine.execPartCreate path s
  | .partResize path => Sys2Proof.Machine.execPartResize path s
  | .partDestroy path => Sys2Proof.Machine.execPartDestroy path s
  | .disable path => Sys2Proof.Machine.execDisable path s
  | .regSet path => Sys2Proof.Machine.execRegSet path s
  | .hostcoreBoot path => Sys2Proof.Machine.execHostcoreBoot path s
  | .hostcoreStop path => Sys2Proof.Machine.execHostcoreStop path s
  | .portMode path => Sys2Proof.Machine.execPortMode path s
  | .fabAddr path => Sys2Proof.Machine.execFabAddr path s
  | .assocSet path => Sys2Proof.Machine.execAssocSet path s
  | .assocRemove path => Sys2Proof.Machine.execAssocRemove path s
  | .powerCap path => Sys2Proof.Machine.execPowerCap path s
  | .thresholds path => Sys2Proof.Machine.execThresholds path s
  | .selfTest path => Sys2Proof.Machine.execSelfTest path s
  | .selfTestRun n pass locator => Sys2Proof.Machine.execSelfTestRun n pass locator s
  | .selfTestTimeout n => Sys2Proof.Machine.execSelfTestTimeout n s
  | .prepareRemoval path => Sys2Proof.Machine.execPrepareRemoval path s
  | .debugOpen path => Sys2Proof.Machine.execDebugOpen path s
  | .debugClose path => Sys2Proof.Machine.execDebugClose path s
  | .keyEnrol path => Sys2Proof.Machine.execKeyEnrol path s
  | .keyRevoke path => Sys2Proof.Machine.execKeyRevoke path s
  | .makerAllow path => Sys2Proof.Machine.execMakerAllow path s
  | .makerToken path => Sys2Proof.Machine.execMakerToken path s
  | .makerScopeLapse => Sys2Proof.Machine.execMakerScopeLapse s
  | .identityEnrol path => Sys2Proof.Machine.execIdentityEnrol path s
  | .fwWrite path => Sys2Proof.Machine.execFwWrite path s
  | .fwActivate path => Sys2Proof.Machine.execFwActivate path s
  | .standbyReady => Sys2Proof.Machine.execStandbyReady s
  | .activationTimeout => Sys2Proof.Machine.execActivationTimeout s
  | .fwSetFloor path => Sys2Proof.Machine.execFwSetFloor path s
  | .auditRead path => Sys2Proof.Machine.execAuditRead path s
  | .storeStatus path => Sys2Proof.Machine.execStoreStatus path s
  | .railThrottle rail => Sys2Proof.Machine.execRailThrottle rail s
  | .throttleReleaseStep rail => Sys2Proof.Machine.execThrottleReleaseStep rail s
  | .droopStretch g low => Sys2Proof.Machine.execDroopStretch g low s
  | .powerAllocation d1 d2 iin draws => Sys2Proof.Machine.execPowerAllocation d1 d2 iin draws s
  | .paddleStep g => Sys2Proof.Machine.execPaddleStep g s
  | .clockGateEntry g => Sys2Proof.Machine.execClockGateEntry g s
  | .retentionEntry g => Sys2Proof.Machine.execRetentionEntry g s
  | .galleryWake g => Sys2Proof.Machine.execGalleryWake g s
  | .muSleep => Sys2Proof.Machine.execMuSleep s
  | .muWake => Sys2Proof.Machine.execMuWake s
  | .stackPowerDown stack => Sys2Proof.Machine.execStackPowerDown stack s
  | .thermalSample die temp => Sys2Proof.Machine.execThermalSample die temp s
  | .correctedAttention fn => Sys2Proof.Machine.execCorrectedAttention fn s
  | .recalibration kind unit lane => Sys2Proof.Machine.execRecalibration kind unit lane s
  | .ctrCfgWrite a => Sys2Proof.Machine.execCtrCfgWrite a s
  | .ctrSample a => Sys2Proof.Machine.execCtrSample a s
  | .gctrSample a => Sys2Proof.Machine.execGctrSample a s
  | .trcCtrlWrite a => Sys2Proof.Machine.execTrcCtrlWrite a s
  | .trcRingWrite a => Sys2Proof.Machine.execTrcRingWrite a s
  | .traceDrain buffer => Sys2Proof.Machine.execTraceDrain buffer s
  | .strokeIssue core => Sys2Proof.Machine.execStrokeIssue core s
  | .inputVoltageMeasurement mv => Sys2Proof.Machine.execInputVoltageMeasurement mv s
  | .railOutOfRegulation rail => Sys2Proof.Machine.execRailOutOfRegulation rail s
  | .coolantReport inlet outlet => Sys2Proof.Machine.execCoolantReport inlet outlet s
  | .uncoreIdleEntry die => Sys2Proof.Machine.execUncoreIdleEntry die s
  | .dataLinkLayerDown => Sys2Proof.Machine.execDataLinkLayerDown s
  | .completionTimeout fn ctx addr => Sys2Proof.Machine.execCompletionTimeout fn ctx addr s
  | .arpNdIcmpFrame f => Sys2Proof.Machine.execArpNdIcmpFrame f s
  | .strangerPacket k => Sys2Proof.Machine.execStrangerPacket k s
  | .stage2TableMove => Sys2Proof.Machine.execStage2TableMove s
  | .lane8PatternTimeout port => Sys2Proof.Machine.execLane8PatternTimeout port s
  | .hostCoreError h arch addr => Sys2Proof.Machine.execHostCoreError h arch addr s
  | .repairMapClear kind a b => Sys2Proof.Machine.execRepairMapClear kind a b s
  | .instructionCacheFill c => Sys2Proof.Machine.execInstructionCacheFill c s

end Sys2Proof.Machine
end

