-- ==== Sys2Proof/Safety.lean ====
section
/-! DEFINITION. What claims about the block are stated in: the invariant of the machine, when a unit is ready for its command, and what a
command leaves unchanged. -/

namespace Sys2Proof.Machine

/-- The keys of a sparse map rise strictly, so that it lists no key twice. -/
def rising {α : Type} (m : Map α) : Prop := (m.map (·.1)).Pairwise (· < ·)

/-- The invariant that every step keeps: the HBM's bytes are listed in canonical form (no byte equal to what an unlisted byte
reads as, keys strictly rising), every table of units lists its units in rising order, the module is in one of its three power
states, and no access of a command is left waiting (log entry 37). -/
def State.Sound (s : State) : Prop :=
  mwf 0 s.hbm = true ∧ s.supply ≤ 2 ∧ s.stalled = false ∧
  rising s.ctxs ∧ rising s.launches ∧ rising s.coxLaunches ∧ rising s.cores ∧ rising s.slots ∧ rising s.parts ∧ rising s.regions ∧
  rising s.segs ∧ rising s.hbmStacks ∧ rising s.slices ∧ rising s.homes ∧ rising s.hostLines ∧ rising s.funcs ∧ rising s.mailboxes ∧
  rising s.logs ∧ rising s.ports ∧ rising s.subPorts ∧ rising s.assocs ∧ rising s.queues ∧ rising s.gals ∧ rising s.hostCores ∧
  rising s.coreBanks ∧ rising s.galBanks ∧ rising s.traces

/-! ### Thread instructions -/

/-- The crew that command c names is about to execute z, an operation of Table 4-9, with nothing in its way: it is resident and
RUNNING, no presentation of a scratch access and no fault of a copy is pending, its instruction words are in the instruction cache,
the instruction is legal (R117), no source has a result outstanding (R79), none has an uncorrectable error (R405), and no older crew
of its quarter is ready (R80). -/
def State.Ready (s : State) (c : CrewId) (z : Issue) (cls op : Nat) : Prop :=
  s.stalled = false ∧ s.olderReady c.core (ckey c) z.x = false ∧
  s.crew c.core (ckey c) = some z.x ∧ z.x.state = .running ∧ z.x.retry = false ∧ z.x.copyFault = none ∧
  s.nextIssue c.core (ckey c) z.x = some z ∧ z.i.cls = cls ∧ z.i.op = op ∧ z.i.legal z.x.width z.x.regs = true ∧
  z.x.blocked (z.i.sources z.x.width) = false ∧ z.x.badSource z.act (z.i.sources z.x.width) = none

/-- The crew that command c names has z as its next instruction, and nothing keeps it from issuing but the instruction itself. -/
def State.Facing (s : State) (c : CrewId) (z : Issue) : Prop :=
  s.stalled = false ∧ s.olderReady c.core (ckey c) z.x = false ∧
  s.crew c.core (ckey c) = some z.x ∧ z.x.state = .running ∧ z.x.retry = false ∧ z.x.copyFault = none ∧
  s.nextIssue c.core (ckey c) z.x = some z

/-- A state without what a gallery, its counters and its trace see of the work of its cores (R395, R422, R426), and without the
clock: what the other fields hold. -/
def State.unseen (s : State) : State := { s with gals := [], traces := [], coreBanks := [], galBanks := [], free := 0, now := 0 }

/-- A state without its cores and what is seen of their work. -/
def State.offCores (s : State) : State := { s.unseen with cores := [] }

/-- From s to t nothing has changed but the crew of z, which is now y: every other crew, register, cache and memory is as it was; only
what is seen of the work may differ beside it. -/
def State.OnlyCrew (s t : State) (z : Issue) (y : Crew) : Prop :=
  t.offCores = s.offCores ∧
  t.core z.core = { s.core z.core with crews := minsert (s.core z.core).crews z.key y } ∧
  ∀ k, k ≠ z.core → t.core k = s.core k

/-- The crew of z after an instruction whose results, if it has any, are on their way to its registers (R79, R111): the path goes
on behind the instruction, and nothing else of the crew has changed but its flags. -/
def Issue.after (z : Issue) (clock : Nat) (ws : List RegWrite) (flags : Nat) (load : Bool := false) : Crew :=
  { z.x with
    path := some (z.next, z.mask)
    flags := z.x.flags ||| flags
    seq := if ws = [] then z.x.seq else z.x.seq + 1
    outs := if ws = [] then z.x.outs
            else z.x.outs ++ [{ seq := z.x.seq, writes := ws, load, due := clock + z.i.latency z.x.width }] }

/-- The outcome o is that of z executing with these results and flags, and nothing else. -/
def State.Gives (s : State) (z : Issue) (o : Outcome) (ws : List RegWrite) (flags : Nat) : Prop :=
  ∃ t, o = .next t ∧ s.OnlyCrew t z (z.after (s.core z.core).clock ws flags)

/-- The writes of a result of n registers in every participating thread. -/
def Issue.results (z : Issue) (n : Nat) (f : Nat → Nat) : List RegWrite :=
  z.threads.flatMap (fun t => vWrites t z.i.d n (f t))

/-- An integer operation f of Table 4-9 has executed: in every participating thread on 32 or 64 bits, or once on uniform registers
(R120). -/
def State.GivesInt (s : State) (z : Issue) (o : Outcome) (f : (n : Nat) → BitVec n → BitVec n → BitVec n → BitVec n) : Prop :=
  if z.i.uni then
    s.Gives z o [.u z.i.d (f 64 (BitVec.ofNat 64 (z.x.ureg z.i.a)) (BitVec.ofNat 64 (z.x.opBU z.i)) (BitVec.ofNat 64 (z.x.ureg z.i.c)))] 0
  else
    let n := if z.i.w64 then 2 else 1
    s.Gives z o (z.results n (fun t =>
      (f (32 * n) (BitVec.ofNat _ (z.x.opA z.i t n)) (BitVec.ofNat _ (z.x.opB z.i .int t n)) (BitVec.ofNat _ (z.x.opC z.i t n))).toNat)) 0

/-- The participating threads that a predicate holds for, as a mask. -/
def Issue.maskWhere (z : Issue) (f : Nat → Bool) : Nat := maskOf (z.threads.filter f)

/-- The flags that any participating thread raises (R101). -/
def Issue.flagsOf (z : Issue) (f : Nat → Nat) : Nat := z.threads.foldl (fun m t => m ||| f t) 0

/-- No participating thread raises flags that trap (R101). -/
def Issue.untrapped (z : Issue) (f : Nat → Nat) : Prop := ∀ t ∈ z.threads, traps z.options (f t) = false

/-- A crew fault (R94): the crew of z has stopped with this record; its registers, predicates and flags are as they were. -/
def State.Faults (s : State) (z : Issue) (o : Outcome) (code addr thread : Nat) : Prop :=
  ∃ t, o = .next t ∧
    t.crew z.core z.key = some { z.x with state := .faulted, fault := ⟨code, addr, z.pc, z.mask, thread⟩, outs := [], retry := false } ∧
    t.hbm = s.hbm ∧ t.slots = s.slots ∧ ∀ k, (t.core k).scratch = (s.core k).scratch

/-- Where a thread raises flags that trap, the first one that does makes the crew fault with FP_TRAP (0x05), and no flag is set (R101). -/
def State.TrapsOn (s : State) (z : Issue) (o : Outcome) (f : Nat → Nat) : Prop :=
  ∀ t, z.threads.find? (fun t => traps z.options (f t)) = some t → s.Faults z o 0x05 0 t

/-- Results of n registers with flags, where none of them traps. -/
def State.GivesFlagged (s : State) (z : Issue) (o : Outcome) (n : Nat) (r : Nat → Nat × Nat) : Prop :=
  (z.untrapped (fun t => (r t).2) → s.Gives z o (z.results n (fun t => (r t).1)) (z.flagsOf (fun t => (r t).2))) ∧
  s.TrapsOn z o (fun t => (r t).2)

/-- A floating-point operation f of a format has executed in every participating thread: operands with their modifiers (R121), flushed
where the launch says so, as is the result (R100). -/
def State.GivesFp (s : State) (z : Issue) (o : Outcome) (fmt : Fmt) (f : Nat → Nat → Nat → Nat × Nat) : Prop :=
  let n := fmt.width / 32
  let m := z.i.modifiers
  let ftz := flushes z.options fmt
  s.GivesFlagged z o n (fun t =>
    fmt.flushOut ftz (f (fmt.flushIn ftz (fmt.modify (z.x.opA z.i t n) m.aa m.na)) (fmt.flushIn ftz (fmt.modify (z.x.opB z.i .top t n) m.ab m.nb))
      (fmt.flushIn ftz (fmt.modify (z.x.opC z.i t n) false m.nc))))

/-- An approximation of R121 has executed: `FRCP` (8), `FRSQ` (9), `FEXP2` (10) or `FLOG2` (11). Where the table of R121 states no result, it
is a fixed function of the input, held to the bound of R121; its flags there are not stated (log entry 6). -/
def State.GivesApprox (s : State) (z : Issue) (o : Outcome) (op : Nat) : Prop :=
  let ftz := flushes z.options fp32
  let src := fun (t : Nat) => fp32.flushIn ftz (fp32.modify (z.x.opA z.i t 1) z.i.modifiers.aa z.i.modifiers.na)
  let stated := fun (a : Nat) =>
    match fp32.unpack a with
    | .nan signalling => some (fp32.qnan, if signalling then fInvalid else 0)
    | .zero neg => if op = 8 then some (fp32.infinity neg, fDivZero) else if op = 11 then some (fp32.infinity true, fDivZero) else none
    | .inf neg => if op = 11 ∧ neg = true then some (fp32.qnan, fInvalid) else none
    | .fin neg k e =>
      if op = 11 ∧ neg = true then some (fp32.qnan, fInvalid)
      else if op = 10 ∧ neg = false ∧ 7 ≤ e + (bitLen k : Int) - 1 then some (fp32.infinity false, fOverflow + fInexact) else none
  s.GivesFlagged z o 1 (fun t =>
    (stated (src t)).getD
      (fp32.flushOut ftz (approxValue op (BitVec.ofNat 32 (src t)), Config.sfuFlags op (BitVec.ofNat 32 (src t)) % 32)))

/-- A packed operation f has executed on both halves of every participating thread (Table 4-9, class 0x4). -/
def State.GivesHalves (s : State) (z : Issue) (o : Outcome) (f : Fmt → Nat → Nat → Nat → Nat × Nat) : Prop :=
  let fmt := if bit z.i.w 58 then bf16 else fp16
  let m := z.i.modifiers
  let ftz := flushes z.options fmt
  let half := fun (t k : Nat) =>
    let get := fun (v : Nat) (abs neg : Bool) => fmt.flushIn ftz (fmt.modify (bits v (16 * k) 16) abs neg)
    fmt.flushOut ftz (f fmt (get (z.x.opA z.i t 1) m.aa m.na) (get (z.x.opB z.i .both t 1) m.ab m.nb) (get (z.x.opC z.i t 1) false m.nc))
  s.GivesFlagged z o 1 (fun t => ((half t 0).1 + 2 ^ 16 * (half t 1).1, (half t 0).2 ||| (half t 1).2))

/-- A predicate with flags: where none traps, it is written in the participating threads, and not at all to p7 (R110). -/
def State.GivesPred (s : State) (z : Issue) (o : Outcome) (r : Nat → Bool × Nat) : Prop :=
  (z.untrapped (fun t => (r t).2) →
    s.Gives z o (if z.i.d = 7 ∨ z.act = 0 then [] else [.p z.i.d z.act (z.maskWhere (fun t => (r t).1))]) (z.flagsOf (fun t => (r t).2))) ∧
  s.TrapsOn z o (fun t => (r t).2)

/-- The outcome o goes on, and only the crew of z has changed, to y. -/
def State.Leaves (s : State) (z : Issue) (o : Outcome) (y : Crew) : Prop := ∃ t, o = .next t ∧ s.OnlyCrew t z y

/-- Slot key is ARMED and local, holds no error, and is not being moved (R263, R276, R404): an operation on it goes ahead. -/
def State.Armed (s : State) (key : Nat) : Prop :=
  (s.slot key).state = .armed ∧ (s.slot key).mirror = none ∧ (s.slot key).err = false ∧ ∀ m rest, s.moves = m :: rest → m.src ≠ key

/-! ### Cores and contexts -/

/-- The outcome o goes on, and only this core has changed, to k, with what is seen of its work. -/
def State.LeavesCore (s : State) (core : Nat) (o : Outcome) (k : Core) : Prop :=
  ∃ t, o = .next t ∧ t.offCores = s.offCores ∧ t.core core = k ∧ ∀ j, j ≠ core → t.core j = s.core j

/-- The outcome o goes on, and only this context has changed, to c. -/
def State.LeavesCtx (s : State) (ctx : Nat) (o : Outcome) (c : Ctx) : Prop := o = .next (s.setCtx ctx c)

/-- Packet p of a context stands at the dispatch point with an opcode, neither skipped nor in a range that does not run (R54, R58). -/
def State.AtPoint (s : State) (ctx : Nat) (p : Pkt) (op : Nat) : Prop :=
  (s.ctx ctx).dispatchPoint = some p ∧ p.opcode = op ∧ p.skip = 0 ∧ p.chainEnd = false ∧ p.dead = false

/-- A context whose packet of a number has been dispatched to a stage, with the pair of IDs it carries (R47). -/
def Ctx.staged (c : Ctx) (pid : Nat) (stage : PStage) : Ctx :=
  { c with pkts := c.pkts.map (fun p =>
      if p.pid = pid then { p with layer := (c.carried p).1, oper := (c.carried p).2, stage := stage } else p) }

/-- A packet of a context is at a stage. -/
def State.Staged (s : State) (ctx pid : Nat) (stage : PStage) : Prop := ∃ p ∈ (s.ctx ctx).pkts, p.pid = pid ∧ p.stage = stage

/-- An aligned 8-byte write of a function that the module serves, and that may reach registers beyond ID, ATT and mailbox (R12, R337),
to an offset of BAR0. -/
def State.Writes (s : State) (a : HostAccess) (off : Nat) : Prop :=
  a.fn ≤ 8 ∧ s.served = true ∧ a.size = 8 ∧ a.off = off ∧ off % 8 = 0 ∧ (a.fn = 0 ∨ (s.part (a.fn - 1)).live = true)

/-! ### Homes of lines -/

/-- No transfer waits for ever or for longer than a refill: no stack is in refresh-only service (R260), and every bucket that limits has a rate
(R249, R250). -/
def State.Flows (s : State) : Prop :=
  (∀ k, (s.stack k).refreshOnly = false) ∧ ∀ k, (s.bucket k).burst = 0 ∨ 0 < (s.bucket k).rate * s.resourceRate (k / 16)

/-- No line of HBM is poisoned, nor any in the slice that homes this one, and that slice holds no line whose contents an error has parted from
those written to it (R230, R253). -/
def State.Clean (s : State) (q pa : Nat) : Prop :=
  s.hbmPoison = [] ∧ ∀ e ∈ (s.slice (s.homeGallery q pa)).lines, e.2.poison = 0 ∧ e.2.keep = none

/-- Context n is cut without an access that may have to wait: its records lie in host memory, and no send queue of it has an entry taken. -/
def State.CutsAtOnce (s : State) (n : Nat) : Prop :=
  (s.ctx n).creditSpace ≠ 0 ∧ (s.ctx n).ringSpace ≠ 0 ∧ ∀ i < 8, (s.sendQueue (8 * n + i)).entries = []

/-! ### Cox strokes and copies -/

/-- Part p of a stroke is next on a core (06_cox_stream.md R180): the program j of launch l runs, its word w has issued and is no
drain stroke, and the parts of the stroke before p have been performed. -/
def State.AtStroke (s : State) (core p : Nat) (j : CoxJob) (l : CoxLaunch) (w : Nat) : Prop :=
  let q := (s.core core).seq
  s.stalled = false ∧ s.coxNow core = some (j, l) ∧ q.phase + 1 = p ∧ 2 ≤ p ∧ q.draining = false ∧ j.words[q.pc]? = some w ∧ q.word = w

/-- The outcome o goes on, and of this core only the sequencer has changed, to q. -/
def State.LeavesSeq (s : State) (core : Nat) (o : Outcome) (q : Sequencer) : Prop :=
  s.LeavesCore core o { s.core core with seq := q }

/-- The outcome o goes on, and of this core only the array has changed, to a, and part p of the stroke is performed. -/
def State.LeavesArray (s : State) (core p : Nat) (o : Outcome) (a : Matrix) : Prop :=
  s.LeavesCore core o { s.core core with seq := { (s.core core).seq with phase := p }, array := a }

/-- The entry that an early read leaves where writes to its target land in strokes due (R183), if any do. -/
def Sequencer.earlyEntry (q : Sequencer) (l : CoxLaunch) (slot kind index : Nat) (due : List Nat) : List CoxEntry :=
  match due with
  | [] => []
  | x :: xs => [⟨q.stroke % 2 ^ 40, q.pc, slot, 1, l.layer, l.oper, 0, kind + 16 * index, minOf x xs % 2 ^ 40⟩]

/-- A scratch with bytes written at an address, wrapping at 512 KiB (R218). -/
def wrapped (m : Map Byte) (addr : Nat) (bs : List Byte) : Map Byte :=
  (List.range bs.length).foldl (fun m i => mset 0 m ((addr + i) % 0x80000) (bs.getD i 0)) m

/-- The running chain of a core's engine: c at the head of the queue, before rest. -/
def State.Running (s : State) (core : Nat) (c : Chain) (rest : List Chain) : Prop :=
  (s.core core).engine.queue = c :: rest ∧ c.started = true ∧ c.finished = false

/-- The request u in progress on a path asks for the command of a code, has passed the checks of R455, and its command is next (R353). -/
def State.InHand (s : State) (path code : Nat) (t : Taken) (u : Sub) : Prop :=
  mfind s.taken path = some t ∧ t.cur = some u ∧ u.code = code ∧ u.stage = .ready ∧ s.removalPrepared = false

/-- A request in hand acts on context n: the context exists, and the requester is the installer or an operator of its partition (R300, R358). -/
def State.OnCtx (s : State) (path code : Nat) (t : Taken) (u : Sub) (n : Nat) : Prop :=
  s.InHand path code t u ∧ u.num 1 = n ∧ n < 64 ∧ (s.ctx n).state ≠ .free ∧ (t.role ≠ 1 ∨ t.part = some (s.ctx n).part)

/-- A slot pool can give context n its slot key: the partition's ceiling leaves room, and it is the pool's lowest free slot (R274). -/
def State.GivesSlot (s : State) (n lo count ceiling key : Nat) : Prop :=
  s.slotsHeld (s.ctx n).part lo count < ceiling ∧ ((List.range count).map (lo + ·)).find? s.slotFree = some key

/-- A `CREW_DEBUG` request in hand with an operation names the resident crew c, at its key in its core, of the operator's own partition,
with a session open (R102). -/
def State.Debugs (s : State) (path op : Nat) (t : Taken) (u : Sub) (core key : Nat) (c : Crew) : Prop :=
  s.InHand path 0x0703 t u ∧ u.num 2 = op ∧ debugCore u = core ∧ debugKey u = key ∧ (s.part (t.part.getD 0)).debugOpen = true ∧
  s.partOfCore core = some (t.part.getD 0) ∧ field (u.bytesOf 1) 2 1 < 4 ∧ field (u.bytesOf 1) 3 1 < 48 ∧ s.crew core key = some c ∧
  (c.state ≠ .faulted ∨ op = 2)

end Sys2Proof.Machine
end

