-- ==== Sys2Proof/Certificates/Slice0/Obligations.lean ====
section
/-! DEFINITION. The statements. -/

open Sys2Proof Sys2Proof.Machine

/-- Every step keeps the invariant. -/
def Obligations.StepKeepsSound : Prop :=
  ∀ s t : State, s.Sound → step s = .next t → t.Sound

/-- R120 and Table 4-9: a ready integer instruction executes, with the result that the table and R120 give on words of
32 or 64 bits, and changes nothing else. The model's own readings and choices here: log entries 1, 29. -/
def Obligations.IntegerInstructions : Prop :=
  ∀ (s : State) (c : CrewId) (z : Issue),
    (s.Ready c z 1 0x00 → s.GivesInt z (exec (.iadd c) s) (fun _ a b _ => a + b)) ∧
    (s.Ready c z 1 0x01 → s.GivesInt z (exec (.isub c) s) (fun _ a b _ => a - b)) ∧
    (s.Ready c z 1 0x02 → s.GivesInt z (exec (.imul c) s) (fun _ a b _ => a * b)) ∧
    (s.Ready c z 1 0x03 → s.GivesInt z (exec (.imulh c) s) (fun n a b _ =>
      if z.i.sgnI then (a.signExtend (2 * n) * b.signExtend (2 * n)).extractLsb' n n
      else (a.setWidth (2 * n) * b.setWidth (2 * n)).extractLsb' n n)) ∧
    (s.Ready c z 1 0x04 → s.GivesInt z (exec (.imad c) s) (fun _ a b c => a * b + c)) ∧
    (s.Ready c z 1 0x05 → s.GivesInt z (exec (.imin c) s) (fun _ a b _ => if z.i.sgnI then (if a.slt b then a else b) else if a.ult b then a else b)) ∧
    (s.Ready c z 1 0x06 → s.GivesInt z (exec (.imax c) s) (fun _ a b _ => if z.i.sgnI then (if a.slt b then b else a) else if a.ult b then b else a)) ∧
    (s.Ready c z 1 0x07 → s.GivesInt z (exec (.iabs c) s) (fun _ a _ _ => if a.msb then -a else a)) ∧
    (s.Ready c z 1 0x08 → s.GivesInt z (exec (.andOp c) s) (fun _ a b _ => a &&& b)) ∧
    (s.Ready c z 1 0x09 → s.GivesInt z (exec (.orOp c) s) (fun _ a b _ => a ||| b)) ∧
    (s.Ready c z 1 0x0A → s.GivesInt z (exec (.xorOp c) s) (fun _ a b _ => a ^^^ b)) ∧
    (s.Ready c z 1 0x0B → s.GivesInt z (exec (.andn c) s) (fun _ a b _ => a &&& ~~~ b)) ∧
    (s.Ready c z 1 0x0C → s.GivesInt z (exec (.shl c) s) (fun n a b _ => a <<< (b.toNat % n))) ∧
    (s.Ready c z 1 0x0D → s.GivesInt z (exec (.shr c) s) (fun n a b _ =>
      if z.i.sgnI then a.sshiftRight (b.toNat % n) else a >>> (b.toNat % n))) ∧
    (s.Ready c z 1 0x0E → s.GivesInt z (exec (.popc c) s) (fun n a _ _ => BitVec.ofNat n ((List.range n).countP (fun i => a.getLsbD i)))) ∧
    (s.Ready c z 1 0x0F → s.GivesInt z (exec (.clz c) s) (fun _ a _ _ => a.clz)) ∧
    (s.Ready c z 1 0x10 → s.GivesInt z (exec (.brev c) s) (fun _ a _ _ => a.reverse)) ∧
    (s.Ready c z 1 0x11 → s.GivesInt z (exec (.bfe c) s) (fun n a b _ =>
      let f := (a >>> (b.toNat % 256)).setWidth (b.toNat / 256 % 256)
      if z.i.sgnI then f.signExtend n else f.setWidth n)) ∧
    (s.Ready c z 1 0x12 → s.GivesInt z (exec (.bfi c) s) (fun _ a b c =>
      let pos := b.toNat % 256
      let mask := (BitVec.allOnes (b.toNat / 256 % 256)).setWidth _ <<< pos
      (c &&& ~~~ mask) ||| ((a <<< pos) &&& mask))) ∧
    (s.Ready c z 1 0x13 → s.GivesInt z (exec (.idiv c) s) (fun n a b _ =>
      if b = 0 then BitVec.allOnes n else if z.i.sgnI then a.sdiv b else a / b)) ∧
    (s.Ready c z 1 0x14 → s.GivesInt z (exec (.irem c) s) (fun _ a b _ =>
      if b = 0 then a else if z.i.sgnI then a.srem b else a % b)) ∧
    (∀ (i : Inst) (width regs : Nat), i.cls = 1 → i.uni = true → i.w64 = false ∨ i.bu = true ∨ i.cu = true → i.legal width regs = false)

/-- Table 4-9, R98, R100, R121: a ready FP64 instruction executes, with the IEEE result of its operation rounded by RM.
The model's own readings and choices here: log entries 1, 29. -/
def Obligations.Fp64Instructions : Prop :=
  ∀ (s : State) (c : CrewId) (z : Issue),
    (s.Ready c z 2 0 → s.GivesFp z (exec (.dadd c) s) fp64 (fun a b _ => fp64.add z.i.rm a b)) ∧
    (s.Ready c z 2 1 → s.GivesFp z (exec (.dsub c) s) fp64 (fun a b _ => fp64.add z.i.rm a (fp64.modify b false true))) ∧
    (s.Ready c z 2 2 → s.GivesFp z (exec (.dmul c) s) fp64 (fun a b _ => fp64.mul z.i.rm a b)) ∧
    (s.Ready c z 2 3 → s.GivesFp z (exec (.dfma c) s) fp64 (fun a b c => fp64.fma z.i.rm a b c)) ∧
    (s.Ready c z 2 4 → s.GivesFp z (exec (.dmin c) s) fp64 (fun a b _ => fp64.minMax false a b)) ∧
    (s.Ready c z 2 5 → s.GivesFp z (exec (.dmax c) s) fp64 (fun a b _ => fp64.minMax true a b)) ∧
    (s.Ready c z 2 6 → s.GivesFp z (exec (.ddiv c) s) fp64 (fun a b _ => fp64.div z.i.rm a b)) ∧
    (s.Ready c z 2 7 → s.GivesFp z (exec (.dsqrt c) s) fp64 (fun a _ _ => fp64.sqrt z.i.rm a))

/-- Table 4-9, R98, R100, R121: a ready FP32 instruction executes, with the IEEE result of its operation rounded by RM;
the four approximations give their special cases (R121), and elsewhere a fixed function of the input within the bound of R121,
which the spec does not state further (log entry 6). The model's own readings and choices here: log entries 1, 29. -/
def Obligations.Fp32Instructions : Prop :=
  ∀ (s : State) (c : CrewId) (z : Issue),
    (s.Ready c z 3 0 → s.GivesFp z (exec (.fadd c) s) fp32 (fun a b _ => fp32.add z.i.rm a b)) ∧
    (s.Ready c z 3 1 → s.GivesFp z (exec (.fsub c) s) fp32 (fun a b _ => fp32.add z.i.rm a (fp32.modify b false true))) ∧
    (s.Ready c z 3 2 → s.GivesFp z (exec (.fmul c) s) fp32 (fun a b _ => fp32.mul z.i.rm a b)) ∧
    (s.Ready c z 3 3 → s.GivesFp z (exec (.ffma c) s) fp32 (fun a b c => fp32.fma z.i.rm a b c)) ∧
    (s.Ready c z 3 4 → s.GivesFp z (exec (.fmin c) s) fp32 (fun a b _ => fp32.minMax false a b)) ∧
    (s.Ready c z 3 5 → s.GivesFp z (exec (.fmax c) s) fp32 (fun a b _ => fp32.minMax true a b)) ∧
    (s.Ready c z 3 6 → s.GivesFp z (exec (.fdiv c) s) fp32 (fun a b _ => fp32.div z.i.rm a b)) ∧
    (s.Ready c z 3 7 → s.GivesFp z (exec (.fsqrt c) s) fp32 (fun a _ _ => fp32.sqrt z.i.rm a)) ∧
    (s.Ready c z 3 8 → s.GivesApprox z (exec (.frcp c) s) 8) ∧
    (s.Ready c z 3 9 → s.GivesApprox z (exec (.frsq c) s) 9) ∧
    (s.Ready c z 3 0x0A → s.GivesApprox z (exec (.fexp2 c) s) 10) ∧
    (s.Ready c z 3 0x0B → s.GivesApprox z (exec (.flog2 c) s) 11)

/-- Table 4-9, class 0x4: a ready packed half instruction executes on both halves; HDOT2 adds two products and an FP32
addend with one rounding. The model's own readings and choices here: log entries 1, 29. -/
def Obligations.HalfInstructions : Prop :=
  ∀ (s : State) (c : CrewId) (z : Issue),
    (s.Ready c z 4 0 → s.GivesHalves z (exec (.hadd2 c) s) (fun f a b _ => f.add z.i.rm a b)) ∧
    (s.Ready c z 4 1 → s.GivesHalves z (exec (.hsub2 c) s) (fun f a b _ => f.add z.i.rm a (f.modify b false true))) ∧
    (s.Ready c z 4 2 → s.GivesHalves z (exec (.hmul2 c) s) (fun f a b _ => f.mul z.i.rm a b)) ∧
    (s.Ready c z 4 3 → s.GivesHalves z (exec (.hfma2 c) s) (fun f a b c => f.fma z.i.rm a b c)) ∧
    (s.Ready c z 4 4 → s.GivesHalves z (exec (.hmin2 c) s) (fun f a b _ => f.minMax false a b)) ∧
    (s.Ready c z 4 5 → s.GivesHalves z (exec (.hmax2 c) s) (fun f a b _ => f.minMax true a b)) ∧
    (s.Ready c z 4 6 → s.GivesFlagged z (exec (.hdot2 c) s) 1 (fun t =>
      hdot2 (if bit z.i.w 58 then bf16 else fp16) z.options z.i.rm z.i.modifiers (z.x.opA z.i t 1) (z.x.opB z.i .both t 1) (z.x.opC z.i t 1)))

/-- R122, R123: a ready conversion executes. An integer that fits its destination converts exactly, and one that does
not saturates and raises invalid; the other scalar pairs follow IEEE 754; the packed and MX formats convert by chapter
07, a block of an MX conversion lying across eight threads of which those that do not participate add zeros. The
model's own readings and choices here: log entries 1, 29. -/
def Obligations.ConvertInstructions : Prop :=
  ∀ (s : State) (c : CrewId) (z : Issue),
    let i := z.i
    (s.Ready c z 5 0 →
      (i.srcFmt < 4 → i.dstFmt < 4 → s.GivesFlagged z (exec (.cvt c) s) (scalarRegs i.dstFmt) (fun t =>
        let v := intValue i.srcFmt (z.x.opA i t (scalarRegs i.srcFmt))
        let n := if i.dstFmt < 2 then 32 else 64
        let low : Int := if i.dstFmt % 2 = 0 then -2 ^ (n - 1) else 0
        let high : Int := if i.dstFmt % 2 = 0 then 2 ^ (n - 1) - 1 else 2 ^ n - 1
        ((max low (min v high) % 2 ^ n).toNat, if low ≤ v ∧ v ≤ high then 0 else fInvalid))) ∧
      (4 ≤ max i.srcFmt i.dstFmt → i.srcFmt < 8 → i.dstFmt < 8 → s.GivesFlagged z (exec (.cvt c) s) (scalarRegs i.dstFmt) (fun t =>
        scalarConvert i.srcFmt i.dstFmt i.rm (z.x.opA i t (scalarRegs i.srcFmt)))) ∧
      (i.srcFmt = 5 → 8 ≤ i.dstFmt → i.dstFmt ≤ 12 → s.Gives z (exec (.cvt c) s) (z.results 1 (fun t =>
        packShort i.dstFmt (z.x.opA i t (if i.dstFmt = 12 then 8 else 4)))) 0) ∧
      (i.dstFmt = 5 → 8 ≤ i.srcFmt → i.srcFmt ≤ 12 →
        s.Gives z (exec (.cvt c) s) (z.results (if i.srcFmt = 12 then 8 else 4) (fun t => unpackShort i.srcFmt (z.x.opA i t 1))) 0) ∧
      (13 ≤ i.dstFmt → s.Gives z (exec (.cvt c) s) (z.results 2 (fun t =>
        let block := (List.range 8).flatMap (fun j =>
          if bit z.act (t / 8 * 8 + j) then blockElems i.srcFmt (z.x.opA i (t / 8 * 8 + j) (if i.srcFmt = 5 then 4 else 2))
          else List.replicate 4 (.zero false))
        let (scale, q, _) := mxEncode block (decide (i.dstFmt = 13))
        let w := if i.dstFmt = 13 then 8 else 4
        packBits w (((q.drop (4 * (t % 8))).take 4).map (fun v => (v % 2 ^ 8).toNat)) + 2 ^ 32 * scale)) 0) ∧
      (13 ≤ i.srcFmt → s.Gives z (exec (.cvt c) s) (z.results (if i.dstFmt = 5 then 4 else 2) (fun t =>
        let f := if i.dstFmt = 5 then fp32 else bf16
        let w := if i.srcFmt = 13 then 8 else 4
        packBits f.width ((List.range 4).map (fun k =>
          mxDecode f (sext (bits (z.x.opA i t 1) (k * w) w) w) (z.x.vreg t i.b 1 % 256) (decide (i.srcFmt = 13)))))) 0)) ∧
    (s.Ready c z 5 1 → s.GivesFlagged z (exec (.frnd c) s) (scalarRegs i.srcFmt) (fun t =>
      (floatOf i.srcFmt).integral i.rm (z.x.opA i t (scalarRegs i.srcFmt) % 2 ^ (floatOf i.srcFmt).width)))

/-- R124, R110 and Table 4-9: a ready compare writes its predicate by the table of R124, `SEL` selects by a predicate,
and `PLOP` looks two predicates up in its truth table. The model's own readings and choices here: log entries 1, 29. -/
def Obligations.CompareInstructions : Prop :=
  ∀ (s : State) (c : CrewId) (z : Issue),
    let i := z.i
    let float := fun (fmt : Fmt) (t : Nat) =>
      let n := fmt.width / 32
      let a := fmt.unpack (fmt.flushIn (flushes z.options fmt) (z.x.opA i t n))
      let b := fmt.unpack (fmt.flushIn (flushes z.options fmt) (z.x.opB i .top t n))
      let unordered := a.isNan || b.isNan
      let invalid := a.isSnan || b.isSnan || (unordered && decide (2 ≤ i.cc) && decide (i.cc ≤ 5))
      let holds : Bool := match i.cc with
        | 0 => decide (a.compare b = some .eq)
        | 1 => decide (a.compare b ≠ some .eq)
        | 2 => decide (a.compare b = some .lt)
        | 3 => decide (a.compare b = some .lt ∨ a.compare b = some .eq)
        | 4 => decide (a.compare b = some .gt)
        | 5 => decide (a.compare b = some .gt ∨ a.compare b = some .eq)
        | 6 => !unordered
        | _ => unordered
      (holds, if invalid then fInvalid else 0)
    let n := if i.w64C then 2 else 1
    (s.Ready c z 6 0 → s.GivesPred z (exec (.icmp c) s) (fun t =>
      let a := BitVec.ofNat (32 * n) (z.x.opA i t n)
      let b := BitVec.ofNat (32 * n) (z.x.opB i .int t n)
      let less := fun (x y : BitVec (32 * n)) => if i.sgnC then x.slt y else x.ult y
      (match i.cc with
        | 0 => a == b
        | 1 => a != b
        | 2 => less a b
        | 3 => !less b a
        | 4 => less b a
        | _ => !less a b, 0))) ∧
    (s.Ready c z 6 1 → s.GivesPred z (exec (.dcmp c) s) (float fp64)) ∧
    (s.Ready c z 6 2 → s.GivesPred z (exec (.fcmp c) s) (float fp32)) ∧
    (s.Facing c z → i.cls = 6 → 6 ≤ i.cc → let at' := (bitList z.x.width z.act).headD z.lead
      (i.op = 0 → s.Faults z (exec (.icmp c) s) 0x01 0 at') ∧ (8 ≤ i.cc → i.op = 1 → s.Faults z (exec (.dcmp c) s) 0x01 0 at') ∧
      (8 ≤ i.cc → i.op = 2 → s.Faults z (exec (.fcmp c) s) 0x01 0 at')) ∧
    (s.Ready c z 6 3 → s.Gives z (exec (.sel c) s) (z.results n (fun t =>
      if bit (z.x.pred (i.c % 8)) t then z.x.opA i t n else z.x.opB i .int t n)) 0) ∧
    (s.Ready c z 6 4 → s.GivesPred z (exec (.plop c) s) (fun t =>
      (bit i.cc (2 * b2n (bit (z.x.pred (i.a % 8)) t) + b2n (bit (z.x.pred (i.b % 8)) t)), 0)))

/-- R132: a ready shuffle, vote or reduction executes over the participating threads. The model's own readings and
choices here: log entries 1, 29. -/
def Obligations.ShuffleInstructions : Prop :=
  ∀ (s : State) (c : CrewId) (z : Issue),
    let i := z.i
    let n := 2 ^ (i.seg + 1)
    let base := fun (t : Nat) => t - t % n
    let shuffle := fun (o : Outcome) (source : Nat → Nat → Nat) => s.Gives z o (z.results 1 (fun t =>
      let src := source t (z.x.opB i .int t 1)
      z.x.opA i (if bit z.act src then src else t) 1)) 0
    let num := fun (t : Nat) => if i.sgnX then sext (z.x.opA i t 1) 32 else (z.x.opA i t 1 : Int)
    let reduced := fun (o : Outcome) (v : Int) => s.Gives z o [.u i.d (BitVec.ofInt 64 v)] 0
    let held := z.x.pred (i.a % 8) &&& z.act
    (s.Ready c z 0xB 0 → shuffle (exec (.shflIdx c) s) (fun t b => base t + b % n)) ∧
    (s.Ready c z 0xB 1 → shuffle (exec (.shflUp c) s) (fun t b => if t < base t + b then t else t - b)) ∧
    (s.Ready c z 0xB 2 → shuffle (exec (.shflDown c) s) (fun t b => if base t + n ≤ t + b then t else t + b)) ∧
    (s.Ready c z 0xB 3 → shuffle (exec (.shflXor c) s) (fun t b => base t + ((t - base t) ^^^ (b % n)))) ∧
    (s.Facing c z → i.cls = 0xB → 5 < i.seg ∨ z.x.width < n → let at' := (bitList z.x.width z.act).headD z.lead
      (i.op = 0 → s.Faults z (exec (.shflIdx c) s) 0x01 0 at') ∧ (i.op = 1 → s.Faults z (exec (.shflUp c) s) 0x01 0 at') ∧
      (i.op = 2 → s.Faults z (exec (.shflDown c) s) 0x01 0 at') ∧ (i.op = 3 → s.Faults z (exec (.shflXor c) s) 0x01 0 at')) ∧
    (s.Ready c z 0xB 4 → s.GivesPred z (exec (.voteAny c) s) (fun _ => (decide (held ≠ 0), 0))) ∧
    (s.Ready c z 0xB 5 → s.GivesPred z (exec (.voteAll c) s) (fun _ => (decide (held = z.act), 0))) ∧
    (s.Ready c z 0xB 6 → s.Gives z (exec (.ballot c) s) [.u i.d (BitVec.ofNat 64 held)] 0) ∧
    (s.Ready c z 0xB 7 → reduced (exec (.reduxAdd c) s) ((z.threads.map num).foldl (· + ·) 0)) ∧
    (s.Ready c z 0xB 8 → reduced (exec (.reduxMin c) s) ((z.threads.map num).foldl min (if i.sgnX then 0x7FFFFFFF else 0xFFFFFFFF))) ∧
    (s.Ready c z 0xB 9 → reduced (exec (.reduxMax c) s) ((z.threads.map num).foldl max (if i.sgnX then -0x80000000 else 0))) ∧
    (s.Ready c z 0xB 0x0A → s.Gives z (exec (.ufrom c) s)
      [.u i.d (BitVec.ofNat 64 (match z.threads with | t :: _ => z.x.opA i t 1 | [] => 0))] 0)

/-- R112, R104, R116, R118 and Table 4-9, class 0xE: moves, the special registers, `NOP`, and `BRK` with and without a
debug session. The model's own readings and choices here: log entries 1, 2, 29. -/
def Obligations.SystemInstructions : Prop :=
  ∀ (s : State) (c : CrewId) (z : Issue),
    let i := z.i
    let x := z.x
    let k := s.core z.core
    let n := if i.w64 then 2 else 1
    (s.Ready c z 0xE 0 → s.Gives z (exec (.nopInstruction c) s) [] 0) ∧
    (s.Ready c z 0xE 1 → s.Gives z (exec (.mov c) s) (z.results n (fun t =>
      if i.long ∨ i.i16 ∨ i.bu then x.opB i .int t n else x.opA i t n)) 0) ∧
    (s.Ready c z 0xE 2 → s.Gives z (exec (.umov c) s)
      [.u i.d (BitVec.ofNat 64 (if i.long then i.w1 else if i.i16 then immValue .int i.imm16 2 else x.ureg i.a))] 0) ∧
    (s.Ready c z 0xE 3 →
      (∀ l, s.launch x.launch = some l → i.b ≠ 0x0D → i.b ≠ 0x0E →
        s.Gives z (exec (.rds c) s) (z.results (if i.b = 0x13 ∨ i.b = 0x14 then 2 else 1) (fun t =>
          ([t, x.idx % l.gx, x.idx / l.gx % l.gy, x.idx / l.gx / l.gy, l.gx, l.gy, l.gz, x.width, z.core,
            s.pcore (s.ctx x.ctx).part z.core, z.key / 48, z.key % 48, x.scratchBase, 0, 0, x.flags, x.bb, x.lstatus, x.lgen, z.pc,
            z.mask] : List Nat).getD i.b 0)) 0) ∧
      (i.b = 0x0D → ∃ t v, exec (.rds c) s = .next t ∧ k.clock ≤ v ∧ t.offCores = s.offCores ∧
        t.core z.core = { k with clock := v, crews := minsert k.crews z.key (z.after v (z.results 2 (fun _ => v)) 0) } ∧
        ∀ j, j ≠ z.core → t.core j = s.core j) ∧
      (i.b = 0x0E → ∃ t v, exec (.rds c) s = .next t ∧ s.now ≤ v ∧ v ≤ t.now ∧
        s.OnlyCrew t z (z.after k.clock (z.results 2 (fun _ => v)) 0))) ∧
    (s.Ready c z 0xE 4 → ∃ t, exec (.wrs c) s = .next t ∧
      s.OnlyCrew t z { z.after k.clock [] 0 with flags := match z.threads with | th :: _ => x.opA i th 1 % 32 | [] => x.flags }) ∧
    (s.Ready c z 0xE 5 →
      ((s.part (s.ctx x.ctx).part).debugOpen = true → ∃ t, exec (.brk c) s = .next t ∧
        t.crew z.core z.key = some { z.after k.clock [] 0 with state := .halted, idleFrom := k.clock } ∧ t.hbm = s.hbm ∧ t.slots = s.slots ∧
        let f := s.fnOf (s.ctx x.ctx).part
        ((s.evlog f).notes.length < 64 → ∃ v, (t.evlog f).notes = (s.evlog f).notes ++ [logEntry 0x10 v
          (toBytes 2 z.core ++ toBytes 1 (z.key / 48) ++ toBytes 1 (z.key % 48) ++ zeros 4 ++ toBytes 8 x.fault.pc)])) ∧
      ((s.part (s.ctx x.ctx).part).debugOpen = false → s.Faults z (exec (.brk c) s) 0x0D 0 z.lead))

/-- R82 to R87, R125 and Table 3-4: what a ready branch does to its path and the reconvergence stack: fall-through, the
uniform branch, the counted backward branch, the set-aside at the 64th, and divergence, which faults where the stack
would pass 32 entries. The model's own readings and choices here: log entries 1, 29. -/
def Obligations.BranchInstructions : Prop :=
  ∀ (s : State) (c : CrewId) (z : Issue),
    let x := z.x
    let i := z.i
    let join := toMod ((z.pc : Int) + 8 * i.join) 64
    let target := if i.long then i.w1 / 8 * 8 else toMod ((z.pc : Int) + 8 * i.target) 64
    let base := if (match x.stack with | .join a _ :: _ => decide (a = join) | _ => false) then x.stack else .join join z.mask :: x.stack
    let branch := fun (o : Outcome) (link : Crew → Crew) =>
      (z.act = 0 → s.Leaves z o { x with path := some (z.next, z.mask) }) ∧
      (z.act ≠ 0 → z.act = z.mask →
        (z.pc < target ∨ hasRunnable x.stack = false → s.Leaves z o (link { x with path := some (target, z.mask) })) ∧
        (target ≤ z.pc → hasRunnable x.stack = true → x.bb + 1 < 64 →
          s.Leaves z o (link { x with path := some (target, z.mask), bb := x.bb + 1 })) ∧
        (∀ p st, target ≤ z.pc → takeRunnable x.stack = some (p, st) → 64 ≤ x.bb + 1 →
          s.Leaves z o (link { x with
            path := some p, stack := openGroup st ++ .pending target z.mask .runnable :: st.drop (openGroup st).length, bb := 0 }))) ∧
      (z.act ≠ 0 → z.act ≠ z.mask →
        (base.length + 1 ≤ 32 → s.Leaves z o (link { x with
          path := some (target, z.act), stack := .pending z.next (z.mask - z.act) .runnable :: base, bb := 0 })) ∧
        (32 < base.length + 1 → s.Faults z o 0x08 0 z.lead))
    let ts := bitList x.width z.mask
    let goal := fun (t : Nat) => if bit z.act t then z.x.vreg t i.reg 2 / 8 * 8 else z.next
    let part := fun (a : Nat) => maskOf (ts.filter (fun t => decide (goal t = a)))
    (s.Ready c z 7 0 → branch (exec (.brc c) s) id) ∧
    (s.Ready c z 7 2 → branch (exec (.call c) s) (fun y =>
      let ws := z.threads.flatMap (fun t => vWrites t i.reg 2 z.next)
      if ws = [] then y else { y with seq := x.seq + 1, outs := x.outs ++ [{ seq := x.seq, writes := ws, due := (s.core z.core).clock }] })) ∧
    (s.Ready c z 7 1 → ∀ a others, (ts.map goal).eraseDups = a :: others →
      (others = [] → z.pc < a ∨ hasRunnable x.stack = false → s.Leaves z (exec (.brx c) s) { x with path := some (a, part a) }) ∧
      (others ≠ [] →
        (base.length + others.length ≤ 32 → s.Leaves z (exec (.brx c) s) { x with
          path := some (a, part a), stack := others.map (fun b => .pending b (part b) .runnable) ++ base, bb := 0 }) ∧
        (32 < base.length + others.length → s.Faults z (exec (.brx c) s) 0x08 0 z.lead)))

/-- R83, R84, R89, R92, R453 and Table 3-4: how a ready `JOIN`, `EXIT` or `CBAR` ends its path, and what runs next. The
model's own readings and choices here: log entries 1, 29. -/
def Obligations.PathEndInstructions : Prop :=
  ∀ (s : State) (c : CrewId) (z : Issue),
    let x := z.x
    let b := z.i.reg % 4
    let st := discardEmpty x.stack
    (s.Ready c z 7 3 →
      (∀ p rest, takeRunnable st = some (p, rest) → s.Leaves z (exec (.join c) s) { x with path := some p, stack := rest, bb := 0 }) ∧
      (∀ m rest, st = .join z.pc m :: rest → s.Leaves z (exec (.join c) s) { x with path := some (z.pc + 8, m), stack := rest, bb := 0 }) ∧
      (takeRunnable st = none → openGroup st ≠ [] → strandedStack st = false →
        s.Leaves z (exec (.join c) s) { x with path := none, stack := st, bb := 0, state := .waiting }) ∧
      (∀ a m rest, st = .join a m :: rest → a ≠ z.pc → s.Faults z (exec (.join c) s) 0x09 0 z.lead) ∧
      (st = [] → s.Faults z (exec (.join c) s) 0x09 0 z.lead)) ∧
    (s.Ready c z 7 4 → x.barriers = [] →
      let left := discardEmpty (x.stack.map (StackEntry.without z.mask))
      let y := { x with exited := x.exited ||| z.mask }
      (left = [] → s.Leaves z (exec (.exitOp c) s) { y with path := none, stack := [], bb := 0 }) ∧
      (∀ p rest, takeRunnable left = some (p, rest) → s.Leaves z (exec (.exitOp c) s) { y with path := some p, stack := rest, bb := 0 }) ∧
      (∀ a m rest, left = .join a m :: rest → s.Leaves z (exec (.exitOp c) s) { y with path := some (a, m), stack := left, bb := 0 })) ∧
    (s.Ready c z 7 5 →
      let arrived := mget 0 x.barriers b ||| z.mask
      let bs := mset 0 x.barriers b arrived
      (arrived ||| x.exited = 2 ^ x.width - 1 → s.Leaves z (exec (.cbar c) s) { x with
        path := some (z.next, z.mask), barriers := mset 0 bs b 0, stack := x.stack.map (fun e =>
          match e with | .pending pc m (.barrier b') => if b = b' then .pending pc m .runnable else e | e => e) }) ∧
      (arrived ||| x.exited ≠ 2 ^ x.width - 1 → 32 ≤ x.stack.length → s.Faults z (exec (.cbar c) s) 0x08 0 z.lead) ∧
      (∀ p rest, arrived ||| x.exited ≠ 2 ^ x.width - 1 → x.stack.length < 32 → z.mask ≠ 0 → takeRunnable st = some (p, rest) →
        s.Leaves z (exec (.cbar c) s) { x with
          path := some p, barriers := bs, stack := .pending z.next z.mask (.barrier b) :: rest, bb := 0 }))

/-- R126 to R128, R136, R209 to R214: a ready load or store whose threads reach the crew's own scratch, aligned,
unpoisoned and free of collisions, loads the bytes there or stores its register's bytes there, thread by thread; one
that reaches memory leaves what the accesses of its threads bring; a fence of a crew whose accesses are performed in
order only goes on (log entry 11). The model's own readings and choices here: log entries 1, 29. -/
def Obligations.MemoryInstructions : Prop :=
  ∀ (s : State) (c : CrewId) (z : Issue) (sa : Nat → Nat),
    let i := z.i
    let x := z.x
    let k := s.core z.core
    let n := 2 ^ i.size
    let own := fun (ts : List Nat) => ∀ th ∈ ts, placeOf i.space (z.ea th) = .scratch (sa th) ∧ z.ea th % n = 0 ∧
      x.scratchBase ≤ sa th ∧ sa th + n ≤ x.scratchBase + x.scratchSize ∧ sa th / 128 % 32 ∉ k.seq.banks ∧
      k.scratchPoisoned (sa th) n = false ∧ k.scratchSoft = []
    let value := fun (th : Nat) => ofBytes (k.scratchRead (sa th) n)
    let extended := fun (th : Nat) => if i.sgnM then toMod (sext (value th) (8 * n)) 32 else value th
    (s.Ready c z 8 0 → own z.threads → s.dropHeld (.crew z.core z.key) = s →
      s.Leaves z (exec (.ld c) s) (z.after k.clock (z.results (sizeRegs i.size) extended) 0 true)) ∧
    (s.Ready c z 8 0 → ∀ s1 as s2 ds y, s.checkAccess z (z.requester i.na) true { r := true } z.threads = (s1, .go as) →
      (s1.countL1 z as).readAll z (z.requester i.na).master n [] [] as = (s2, .data ds) → s2.crew z.core z.key = some y → s2.stalled = false →
      ∃ t, exec (.ld c) s = .next t ∧ ∃ y', t.crew z.core z.key = some y' ∧ y'.path = some (z.next, z.mask) ∧
        ∀ d ∈ ds, ∀ w ∈ vWrites d.1.t i.d (sizeRegs i.size) (loadValue i d.2), ∃ r ∈ y'.outs, w ∈ r.writes) ∧
    (s.Ready c z 8 1 → own z.threads → k.scratchPoison = [] → k.scratchSoft = [] → s.dropHeld (.crew z.core z.key) = s →
      ∃ t, exec (.st c) s = .next t ∧ t.offCores = s.offCores ∧
      t.core z.core = { k with
        scratch := z.threads.foldl (fun m th => writeBytes m (sa th) (toBytes n (x.vreg th i.b (sizeRegs i.size)))) k.scratch
        crews := minsert k.crews z.key (z.after k.clock [] 0) } ∧
      ∀ j, j ≠ z.core → t.core j = s.core j) ∧
    (s.Ready c z 8 1 → ∀ s1 as, s.checkAccess z (z.requester false) false { w := true } z.threads = (s1, .go as) →
      (∀ a ∈ as, a.bad = none) →
      let t := ((s1.dropHeld (.crew z.core z.key)).storeAll z (as.map (fun a => (a, toBytes n (x.vreg a.t i.b (sizeRegs i.size)))))).advance z
      t.stalled = false → exec (.st c) s = .next t) ∧
    (∀ f : Nat × Nat × Nat, ∀ s1 as, s.checkAccess z (z.requester false) false { w := true } z.threads = (s1, .go as) → s1.stalled = false →
      s1.dropHeld (.crew z.core z.key) = s1 → s1.crew z.core z.key = some x → s1.hbm = s.hbm → s1.slots = s.slots → s1.cores = s.cores →
      firstFault as = some f → s.Ready c z 8 1 → s.Faults z (exec (.st c) s) f.1 f.2.1 f.2.2) ∧
    (s.Ready c z 8 2 → own [z.lead] → s.dropHeld (.crew z.core z.key) = s →
      s.Leaves z (exec (.ldu c) s) (z.after k.clock [.u i.d (BitVec.ofNat 64 (value z.lead))] 0 true)) ∧
    (s.Ready c z 8 3 → s.Gives z (exec (.memoryFence c) s) [] 0)

/-- R129, R130 and Table 4-9: a ready atomic on the crew's own scratch takes each thread's word in turn, ascending: the old
value goes to the thread's register, and the new one to scratch. One whose accesses pass their checks, wherever they go, is performed
thread by thread, in thread order under `ORDERED_ATOMICS` and else in some order. Under `ORDERED_ATOMICS` one of a crew waits while an
earlier crew of its launch is there. The model's own readings and choices here: log entries 1, 4, 29, 37. -/
def Obligations.AtomicInstructions : Prop :=
  ∀ (s : State) (c : CrewId) (z : Issue) (sa : Nat → Nat),
    let i := z.i
    let x := z.x
    let k := s.core z.core
    let n := 2 ^ i.size
    let r := sizeRegs i.size
    let own := ∀ th ∈ z.threads, placeOf i.space (z.ea th) = .scratch (sa th) ∧ z.ea th % n = 0 ∧
      x.scratchBase ≤ sa th ∧ sa th + n ≤ x.scratchBase + x.scratchSize ∧ sa th / 128 % 32 ∉ k.seq.banks
    let ordered := bit z.options 2
    let inTurn := ordered = true → s.earlierCrew x.launch x.idx = false
    let less := fun (a b : Nat) => if i.sgnM then decide (sext a (8 * n) < sext b (8 * n)) else decide (a < b)
    let takes := fun (o : Outcome) (f : Nat → Nat → Nat → Option Nat) =>
      own → z.threads ≠ [] → k.scratchPoison = [] → k.scratchSoft = [] → s.dropHeld (.crew z.core z.key) = s → inTurn →
      let word := fun (m : Map Byte) (th : Nat) => ofBytes ((List.range n).map (fun j => mget 0 m ((sa th + j) % 0x80000)))
      let after := z.threads.foldl (fun (e : Map Byte × List RegWrite) th =>
        (match f (word e.1 th) (x.vreg th i.b r) (x.vreg th i.c r) with
          | some v => writeBytes e.1 (sa th) (toBytes n v)
          | none => e.1, e.2 ++ vWrites th i.d r (word e.1 th))) (k.scratch, [])
      ∃ t, o = .next t ∧ t.offCores = s.offCores ∧
        t.core z.core = { k with scratch := after.1, crews := minsert k.crews z.key (z.after k.clock after.2 0 true) } ∧
        ∀ j, j ≠ z.core → t.core j = s.core j
    let commands : List (Instr × Nat) := [(.aadd c, 0), (.amin c, 1), (.amax c, 2), (.aand c, 3), (.aor c, 4), (.axor c, 5), (.axch c, 6),
      (.acas c, 7), (.afadd c, 8), (.adfadd c, 9)]
    (∀ p ∈ commands, s.Ready c z 9 p.2 →
      (ordered = true → s.earlierCrew x.launch x.idx = true → exec p.1 s = .next s) ∧
      (inTurn → ∀ s1 s2 as ds lines, s.checkAccess z (z.requester true) false { r := true, w := true } z.threads = (s1, .go as) →
        (∀ a ∈ as, a.bad = none) → lines = (as.filterMap (s1.regionLine (s1.ctx x.ctx).part)).eraseDups →
        (lines.foldl (fun s l => s.crewWrite z.core (s1.ctx x.ctx).part (l * 128) false) s1).readAll z (z.requester true).master n
          (lines.map (fun l => lineKey (s1.ctx x.ctx).part (l * 128))) [] as = (s2, .data ds) →
        ∃ v order, order.Perm as ∧ (ordered = true → order = as) ∧
          let r := ({ s2 with free := v }.dropHeld (.crew z.core z.key)).atomicAll z n ds [] order
          (r.1.stalled = false → exec p.1 s = .next (r.1.finish z r.2 0 true)))) ∧
    (s.Ready c z 9 0 → takes (exec (.aadd c) s) (fun old b _ => some ((old + b) % 2 ^ (8 * n)))) ∧
    (s.Ready c z 9 1 → takes (exec (.amin c) s) (fun old b _ => some (if less b old then b else old))) ∧
    (s.Ready c z 9 2 → takes (exec (.amax c) s) (fun old b _ => some (if less b old then old else b))) ∧
    (s.Ready c z 9 3 → takes (exec (.aand c) s) (fun old b _ => some (old &&& b))) ∧
    (s.Ready c z 9 4 → takes (exec (.aor c) s) (fun old b _ => some (old ||| b))) ∧
    (s.Ready c z 9 5 → takes (exec (.axor c) s) (fun old b _ => some (old ^^^ b))) ∧
    (s.Ready c z 9 6 → takes (exec (.axch c) s) (fun _ b _ => some b)) ∧
    (s.Ready c z 9 7 → takes (exec (.acas c) s) (fun old b c => if old = b then some c else none)) ∧
    (s.Ready c z 9 8 → takes (exec (.afadd c) s) (fun old b _ => some (fp32.add 0 old b).1)) ∧
    (s.Ready c z 9 9 → takes (exec (.adfadd c) s) (fun old b _ => some (fp64.add 0 old b).1))

/-- R91, R131, R263 to R267: what a ready landing instruction does at a sound slot: an arrival lowers a full landing's
remainder or raises a counting one, a wait that is not yet answered sets the path aside under a mark of its own and
registers at the slot, one that is answered or a test sets its predicate, and what was still on its way to that predicate in these
threads is discarded (R111). The model's own readings and choices here: log entries 1, 29. -/
def Obligations.LandingInstructions : Prop :=
  ∀ (s : State) (c : CrewId) (z : Issue) (key : Nat),
    let x := z.x
    let i := z.i
    let y := s.slot key
    let k := s.core z.core
    let lid := if i.lidu then x.ureg i.lid % 1024 else i.lid
    let gen := if y.kind = 1 then y.count else y.gen
    let reached := if y.kind = 1 then decide (x.ureg i.ureg ≤ gen) else decide ((gen + 2 ^ 32 - x.ureg i.ureg % 2 ^ 32) % 2 ^ 32 < 2 ^ 31)
    let marked := { s with nextMark := s.nextMark + 1 }
    let answered := fun (status g : Nat) =>
      { (z.after k.clock [] 0).putPred i.pd z.mask (if status = 0 then z.mask else 0) with lstatus := status, lgen := g }
    s.landing x.ctx lid (.fromCore z.core) = .slot key → s.Armed key → s.Sound →
    (s.Ready c z 0xA 0 →
      (y.kind = 0 → i.count < y.remain → ∃ t, exec (.larrive c) s = .next t ∧
        (s.setSlot key { y with remain := y.remain - i.count }).OnlyCrew t z (z.after k.clock [] 0)) ∧
      (y.kind = 1 → y.waiters = [] → y.subs = [] → (s.trc (key / 48)).enable = false → ∃ t, exec (.larrive c) s = .next t ∧
        (s.setSlot key { y with
          count := min (y.count + i.count) 0xFFFFFFFF
          saturated := y.saturated || decide (0xFFFFFFFF < y.count + i.count) }).OnlyCrew t z (z.after k.clock [] 0))) ∧
    (s.Ready c z 0xA 1 → x.stack.length < 32 →
      (i.mode = 1 → reached = true → ∃ t, exec (.lwait c) s = .next t ∧ marked.OnlyCrew t z (answered 0 gen)) ∧
      (∀ p rest, i.mode = 0 ∨ reached = false → z.mask ≠ 0 → takeRunnable (discardEmpty x.stack) = some (p, rest) →
        ∃ t v, exec (.lwait c) s = .next t ∧ s.now ≤ v ∧
          (marked.setSlot key { y with waiters := y.waiters ++ [⟨.crew s.nextMark, i.mode, if i.mode = 1 then x.ureg i.ureg else 0, v⟩] }).OnlyCrew
            t z { x with path := some p, stack := .pending z.next z.mask (.landing s.nextMark i.pd) :: rest, bb := 0 })) ∧
    (s.Ready c z 0xA 2 → x.stack.length < 32 → y.kind = 1 → y.waiters = [] → y.subs = [] → (s.trc (key / 48)).enable = false →
      let n := min (y.count + i.count) 0xFFFFFFFF
      ∃ t, exec (.larrwait c) s = .next t ∧
        (marked.setSlot key { y with count := n, saturated := y.saturated || decide (0xFFFFFFFF < y.count + i.count) }).OnlyCrew
          t z (answered 0 n)) ∧
    (s.Ready c z 0xA 3 → s.Leaves z (exec (.ltest c) s) ((z.after k.clock [] 0).putPred i.pd z.mask (if reached then z.mask else 0)))

/-- R133, R134, R215, R224, R225: what a ready `FDMA` or cache instruction does beside letting the path go on. The
model's own readings and choices here: log entries 1, 13, 29. -/
def Obligations.CopyAndCacheInstructions : Prop :=
  ∀ (s : State) (c : CrewId) (z : Issue),
    let x := z.x
    let i := z.i
    let k := s.core z.core
    let q := (s.ctx x.ctx).part
    let lid := if i.lidu then x.ureg i.lid % 1024 else i.lid
    let went := s.advance z
    let reached := fun (th : Nat) (pa : Nat) (s1 : State) =>
      z.threads = [th] ∧ ∃ va, placeOf i.space (z.ea th) = .global va ∧ went.xlate (z.requester false) va { r := true } = (s1, .ok pa)
    (s.Ready c z 0xC 0 → k.engine.queue.length < 16 → (i.mode = 1 ∨ s.landing x.ctx lid (.fromCore z.core) ≠ .unmapped) →
      ∃ t ch, exec (.fdma c) s = .next t ∧ t.offCores = s.offCores ∧ ch.ctx = x.ctx ∧ ch.addr = x.ureg i.ureg ∧
        ch.landing = (if i.mode = 1 then none else some lid) ∧ ch.owner = .crew z.key x.launch x.idx ∧
        t.core z.core = { k with
          engine := { k.engine with queue := k.engine.queue ++ [ch] }
          crews := minsert k.crews z.key { z.after k.clock [] 0 with copies := x.copies + 1 } } ∧
        ∀ j, j ≠ z.core → t.core j = s.core j) ∧
    (s.Ready c z 0xD 0 → ∀ th pa s1, reached th pa s1 → (∀ a, s1.locate q pa ≠ .host a) →
      let t := (s1.paRead (.crew z.core false) q x.ctx (pa / 128 * 128) 128).1
      t.stalled = false → exec (.pfL1 c) s = .next t) ∧
    (s.Ready c z 0xD 1 → ∀ th pa s1, reached th pa s1 → s1.lineServes q pa = true → s1.homePoison q pa = 0 →
      let t := (s1.reachHome q pa).throughSlice q pa false false
      t.stalled = false → exec (.pfGc c) s = .next t) ∧
    (s.Ready c z 0xD 2 → ∀ th pa s1, reached th pa s1 → s1.stalled = false → ∃ t, exec (.invL1 c) s = .next t ∧ lineKey q pa ∉ (t.core z.core).l1 ∧ t.hbm = s1.hbm) ∧
    (s.Ready c z 0xD 3 → z.act ≠ 0 → ∃ t, exec (.invL1all c) s = .next t ∧ (t.core z.core).l1 = [] ∧ t.hbm = s.hbm ∧
      t.crew z.core z.key = some (z.after k.clock [] 0)) ∧
    (s.Ready c z 0xD 4 → z.act ≠ 0 → ∃ t, exec (.invIc c) s = .next t ∧ t.offCores = s.offCores ∧
      t.core z.core = { k with icache := [], icachePa := [], crews := minsert k.crews z.key (z.after k.clock [] 0) } ∧
      ∀ j, j ≠ z.core → t.core j = s.core j)

/-- R73 to R79, R95, R97, R111, R113, R211: what happens to crews beside the instructions they issue: a crew is placed,
leaves, times out, is told of a fault of its launch, takes a result, presents an access again, and has its next line
fetched. The model's own readings and choices here: log entries 1, 4, 32. -/
def Obligations.CrewEvents : Prop :=
  (∀ (s : State) (core n idx q base : Nat) (rest : List QueueItem) (l : Launch),
    (s.core core).queue = .fresh n idx :: rest → s.launch n = some l → core ∉ l.stopped →
    (s.core core).queue.filter (fun i => match i with
      | .fresh m _ => (match s.launch m with | some l => decide (core ∉ l.stopped) | none => false)
      | .saved _ => true) = (s.core core).queue →
    (s.core core).chooseQuarter l.width l.regs = some q → (s.core core).scratchFit l.scratch = some base →
    (∃ i < 48, s.crew core (48 * q + i) = none) →
    ∃ t key x, exec (.crewPlace core) s = .next t ∧ key / 48 = q ∧ s.crew core key = none ∧ t.crew core key = some x ∧
      x.launch = n ∧ x.idx = idx ∧ x.ctx = l.ctx ∧ x.width = l.width ∧ x.regs = l.regs ∧ x.path = some (l.entry, 2 ^ l.width - 1) ∧
      x.v = [] ∧ x.u = mset 0 [] 0 (BitVec.ofNat 64 l.args) ∧ x.preds = [] ∧ x.flags = 0 ∧ x.stack = [] ∧ x.state = .running ∧
      x.scratchBase = base ∧ x.scratchSize = l.scratch ∧
      (t.core core).queue = (if idx + l.coreCount < l.total then .fresh n (idx + l.coreCount) :: rest else rest)) ∧
  (∀ (s : State) (c : CrewId) (x : Crew), s.crew c.core (ckey c) = some x → x.exited = 2 ^ x.width - 1 → x.outs = [] → x.copies = 0 →
    x.state ≠ .faulted →
    (∀ l, s.launch x.launch = some l → (s.freeCrew c.core (ckey c)).launchBusy x.launch l = true) →
    exec (.crewLeave c) s = .next (s.setCore c.core { s.core c.core with crews := merase (s.core c.core).crews (ckey c) })) ∧
  (∀ (s : State) (c : CrewId) (x : Crew) (l : Launch) (pc m : Nat), s.crew c.core (ckey c) = some x → s.launch x.launch = some l →
    l.watchdog ≠ 0 → x.state = .running → x.exited ≠ 2 ^ x.width - 1 → x.path = some (pc, m) → 0 < x.width →
    ∃ t y, exec (.watchdog c) s = .next t ∧ t.crew c.core (ckey c) = some y ∧ y.state = .faulted ∧ y.fault.code = 0x06 ∧
      y.fault.addr = 0 ∧ y.fault.pc = pc ∧ y.fault.mask = m ∧ y.fault.thread < x.width ∧ y.v = x.v ∧ y.u = x.u ∧ y.preds = x.preds) ∧
  (∀ (s : State) (n core : Nat) (l : Launch), s.launch n = some l → l.fault.isSome = true → core ∈ l.cores →
    let l' := { l with stopped := sinsert l.stopped core }
    { s with launches := minsert s.launches n l' }.launchBusy n l' = true →
    exec (.launchFaultSignal n core) s = .next { s with launches := minsert s.launches n l' }) ∧
  (∀ (s : State) (c : CrewId) (n : Nat) (x : Crew) (r : Result), s.crew c.core (ckey c) = some x → x.outs[n]? = some r →
    ∃ t y, exec (.resultArrival c n) s = .next t ∧ t.offCores = s.offCores ∧ t.crew c.core (ckey c) = some y ∧
      y.v = (x.commitAll r.writes).v ∧ y.u = (x.commitAll r.writes).u ∧ y.preds = (x.commitAll r.writes).preds ∧
      y.path = x.path ∧ y.stack = x.stack ∧ y.flags = x.flags ∧ (∀ o ∈ y.outs, o.seq ≠ r.seq) ∧
      (∀ o ∈ y.outs, o.seq < r.seq → ∀ w ∈ o.writes, ∀ w' ∈ r.writes, w.same w' = false) ∧
      (∀ o ∈ x.outs, r.seq < o.seq → o ∈ y.outs) ∧ r.due ≤ (t.core c.core).clock) ∧
  (∀ (s : State) (c : CrewId) (x : Crew) (z : Issue) (cls op : Nat), s.crew c.core (ckey c) = some x → x.retry = true → x.state = .running →
    let s' := s.setCrew c.core (ckey c) { x with retry := false }
    s'.Ready c z cls op → z.i.known = true → (s'.effect z).stalled = false → exec (.scratchRetry c) s = .next (s'.effect z)) ∧
  (∀ (s s' : State) (c : CrewId) (x : Crew) (pc m pa : Nat) (bs : List Byte), s.crew c.core (ckey c) = some x → x.state = .running →
    x.path = some (pc, m) → s.fetchWord c.core x.ctx pc = none → s.fetchLine c.core x.ctx pc = (s', .ok bs, pa) → s'.stalled = false →
    ∃ t, exec (.instructionCacheFill c) s = .next t ∧ t.fetchWord c.core x.ctx pc = some (field bs (pc % 128) 8) ∧ t.hbm = s'.hbm)

/-- R47, R49, R54, R57 to R65: packets without an engine of their own at the dispatch point. The model's own readings
and choices here: log entries 1, 4. -/
def Obligations.SimplePackets : Prop :=
  ∀ (s : State) (ctx : Nat) (p : Pkt), s.Sound →
    let c := s.ctx ctx
    (s.AtPoint ctx p 0x00 → s.LeavesCtx ctx (exec (.nop ctx) s) (c.staged p.pid .completed)) ∧
    (s.AtPoint ctx p 0x01 → s.LeavesCtx ctx (exec (.setIds ctx) s)
      { c.staged p.pid .completed with curLayer := field p.data 16 2, curOper := field p.data 18 2 }) ∧
    (s.AtPoint ctx p 0x0D → s.LeavesCtx ctx (exec (.elsePacket ctx) s) (c.staged p.pid .completed)) ∧
    (s.AtPoint ctx p 0x0E → s.LeavesCtx ctx (exec (.endIf ctx) s) (c.staged p.pid .completed)) ∧
    (s.AtPoint ctx p 0x0C → ∀ s' d, s.spaceRead (sequencer ctx) (field p.data 41 1) (field p.data 16 8) 8 = (s', .ok d) → s'.stalled = false →
      let same := decide (ofBytes d &&& field p.data 24 8 = field p.data 32 8)
      let holds := if field p.data 40 1 = 0 then same else !same
      (holds = p.predicted → s'.LeavesCtx ctx (exec (.ifFlag ctx) s) ((s'.ctx ctx).staged p.pid .completed)) ∧
      (holds ≠ p.predicted → ∃ t, exec (.ifFlag ctx) s = .next t ∧ (t.ctx ctx).squashes = (s'.ctx ctx).squashes + 1 ∧
        ((∀ l rest, p.resume = l :: rest → rest = [] ∨ l.pos < l.size) →
          (t.ctx ctx).levels = p.resume.map (fun l => { l with ranges := l.ranges.map (fun r =>
            if r.pid = p.pid then { r with cond := holds } else r) })) ∧
        (∀ l rest, p.resume = l :: rest → rest ≠ [] → l.size ≤ l.pos → ∃ m ∈ (t.ctx ctx).pkts, m.chainEnd = true ∧ m.owner = l.owner))) ∧
    (s.AtPoint ctx p 0x10 → p.chainFault = none → s.LeavesCtx ctx (exec (.fetchChain ctx) s) (c.staged p.pid .dispatched)) ∧
    (∀ st d, c.pkts.find? (fun p => p.chainFault.isSome && decide (p.stage = .dispatched)) = some p → p.chainFault = some (st, d) →
      0x10 ≤ st → c.state = .active → c.ringSpace = 1 → c.preempt = none → c.resumePath = none →
      ∃ t, exec (.chainFault ctx) s = .next t ∧ t.Staged ctx p.pid .completed ∧ (t.ctx ctx).state = .faulted ∧
        (t.ctx ctx).faultStatus = st ∧ (t.ctx ctx).faultTag = p.tag ∧ (t.ctx ctx).faultOpen = true) ∧
    (c.dispatchPoint = some p → p.chainEnd = true →
      (p.openRanges = [] → s.LeavesCtx ctx (exec (.chainEnd ctx) s) (c.staged p.pid .completed)) ∧
      (∀ r, p.openRanges = [r] → ∃ t, exec (.chainEnd ctx) s = .next t ∧ t.Staged ctx p.pid .completed ∧
        mget {} (t.ctx ctx).log (c.logHead % 256) = ⟨r.tag, 6, r.opcode, p.depth, r.offset⟩ ∧
        (t.ctx ctx).logHead = (c.logHead + 1) % 2 ^ 32 ∧ (t.ctx ctx).logNew = true)) ∧
    (c.dispatchPoint = some p → p.skip ≠ 0 → p.dead = false ∨ p.skip = 2 ∨ p.skip = 9 →
      ∃ t, exec (.packetSkip ctx) s = .next t ∧ t.Staged ctx p.pid .completed ∧
        mget {} (t.ctx ctx).log (c.logHead % 256) = ⟨p.tag, p.skip, p.opcode, p.depth, p.offset⟩ ∧
        (t.ctx ctx).logHead = (c.logHead + 1) % 2 ^ 32 ∧ (t.ctx ctx).logNew = true) ∧
    (s.AtPoint ctx p 0x04 → c.dueNow 0x04 = none → c.earlierRetired p.pid = true →
      let open' := ∃ n, (ctx, n) ∈ s.kftOpen
      (bit (field p.data 16 1) 2 = false ∨ ¬open' → ∃ t, exec (.fence ctx) s = .next t ∧ t.Staged ctx p.pid (.workDone 0 0)) ∧
      (bit (field p.data 16 1) 2 = true → open' → ∃ t, exec (.fence ctx) s = .next t ∧ t.Staged ctx p.pid .dispatched ∧
        ∀ x ∈ (t.ctx ctx).pkts, x.pid = p.pid → ∀ n, n ∈ x.after ↔ (ctx, n) ∈ s.kftOpen))

/-- R40 to R45, R53 to R55, R66, R67: how bytes enter a context's stream, how packets report, reach landings, complete
and retire, and the record of a fault. The model's own readings and choices here: log entries 1, 2, 32. -/
def Obligations.StreamEvents : Prop :=
  (∀ (s : State) (fn ctx off : Nat) (bytes : List Byte),
    let c := s.ctx ctx
    s.served = true → fn = 0 ∨ (s.part (fn - 1)).live = true → c.state = .active → c.fn = fn → s.removalPrepared = false →
    s.resetAsked ctx = false → bytes.length = 64 → off = c.expected → off % 64 = 0 →
    c.accepted + 64 - c.consumed ≤ 262144 → exec (.ingressGranule fn ctx off bytes) s = .next (s.setCtx ctx { c with
      fifo := writeBytes c.fifo (c.accepted % 262144) bytes
      fifoErr := c.fifoErr.filter (fun i => decide (i / 64 ≠ c.accepted % 262144 / 64))
      accepted := c.accepted + 64, expected := (c.expected + 64) % 65536 })) ∧
  (∀ (s : State) (n : Nat) (l : Level), s.Sound →
    ((List.range 64).map (fun i => (s.turn + i) % 64)).find? (fun n => (s.ctx n).decodable && s.decodeRoom n) = some n →
    (s.ctx n).levels = [l] → (s.ctx n).fifoErr = [] →
    exec .packetDecode s = .next { s.setCtx n ((s.ctx n).takePacket ((s.ctx n).fifoBytes l.pos 192) (s.coresOf (s.ctx n).part).length) with
      turn := (n + 1) % 64 }) ∧
  (∀ (s : State) (ctx : Nat) (p : Pkt), s.Sound →
    let c := s.ctx ctx
    (s.AtPoint ctx p 0x02 → c.dueNow 0x02 = none → field p.data 25 1 = 0 → field p.data 24 1 = 1 → s.hostOpen c.fn = true →
      ∃ t v, exec (.timestamp ctx) s = .next t ∧ s.now ≤ v ∧ t.out = .hostWrite c.fn (field p.data 16 8) (toBytes 8 v) :: s.out ∧
        t.Staged ctx p.pid (.workDone 0 0)) ∧
    (s.AtPoint ctx p 0x03 → c.dueNow 0x03 = none → c.earlierRetired p.pid = true → c.ringSpace = 1 → s.hostOpen c.fn = true →
      field p.data 24 1 = 0 → ∃ t v, exec (.report ctx) s = .next t ∧ s.now ≤ v ∧ t.Staged ctx p.pid (.workDone 0 0) ∧
        (t.ctx ctx).recordNo = (c.recordNo + 1) % 2 ^ 32 ∧
        let addr := c.ringAddr + 32 * (c.recordNo % c.ringSize)
        t.out =
          .hostWrite c.fn (addr + 24) (toBytes 4 c.recordNo ++ toBytes 2 0 ++ toBytes 2 (c.recordNo / c.ringSize % 2)) ::
          .hostWrite c.fn addr (toBytes 4 p.tag ++ toBytes 2 (c.carried p).1 ++ toBytes 2 (c.carried p).2 ++ toBytes 8 v ++
            toBytes 8 (field p.data 16 8)) :: s.out) ∧
    (∀ key, let y := s.slot key
      s.landing ctx (field p.data 16 2) .fromIo = .slot key → s.Armed key →
      (s.AtPoint ctx p 0x08 → c.dueNow 0x08 = none → field p.data 20 1 = 0 → y.kind = 0 → field p.data 18 2 < y.remain →
        field p.data 18 2 ≠ 0 → ∃ t, exec (.landingArrive ctx) s = .next t ∧ t.Staged ctx p.pid (.workDone 0 0) ∧
          t.slot key = { y with remain := y.remain - field p.data 18 2 }) ∧
      (s.AtPoint ctx p 0x09 → p.stage = .decoded → field p.data 18 1 = 0 → ∃ t v, exec (.landingWait ctx) s = .next t ∧ s.now ≤ v ∧
        t.Staged ctx p.pid .waiting ∧ t.slot key = { y with waiters := y.waiters ++ [⟨.packet ctx p.pid, 0, field p.data 20 4, v⟩] }))) ∧
  (∀ (s : State) (ctx pid st d : Nat) (p : Pkt), s.Sound → s.pkt ctx pid = some p → p.stage = .workDone st d →
    (st = 0 → ∃ t, exec (.packetComplete ctx pid) s = .next t ∧ t.Staged ctx pid .completed ∧ t.hbm = s.hbm ∧ t.out = s.out) ∧
    (0x10 ≤ st → (s.ctx ctx).state = .active → (s.ctx ctx).ringSpace = 1 → (s.ctx ctx).preempt = none → (s.ctx ctx).resumePath = none →
      ∃ t, exec (.packetComplete ctx pid) s = .next t ∧ (t.ctx ctx).state = .faulted ∧ (t.ctx ctx).faultStatus = st ∧
        (t.ctx ctx).faultTag = p.tag ∧ (t.ctx ctx).faultOpen = true ∧ (t.ctx ctx).recordNo = ((s.ctx ctx).recordNo + 1) % 2 ^ 32)) ∧
  (∀ (s : State) (ctx : Nat), s.Sound → let c := s.ctx ctx
    c.state = .faulted → c.faultOpen = true → c.pkts = [] → c.faultRec = none → c.creditSpace = 1 → s.hostOpen c.fn = true →
    ∃ t, exec (.faultCreditRecord ctx) s = .next t ∧ (t.ctx ctx).faultOpen = false ∧ (t.ctx ctx).lastCredit = c.consumed ∧
      bit (t.func c.fn).ctxFault ctx = true ∧ .hostWrite c.fn c.creditAddr (creditRecord c) ∈ t.out) ∧
  (∀ (s : State) (ctx : Nat) (p : Pkt) (rest : List Pkt), s.Sound → let c := s.ctx ctx
    c.pkts = p :: rest → p.openChain = false → p.stage = .completed → p.chainEnd = false → p.fromFifo = true → (∀ x ∈ rest, x.pid ≠ p.pid) →
    rest ≠ [] → c.consumed + 64 * p.len - c.lastCredit < c.creditStep →
    s.LeavesCtx ctx (exec (.packetRetire ctx) s) { c with pkts := rest, consumed := c.consumed + 64 * p.len, retiredTag := p.tag })

/-- R50 to R54, R60, R73, R168, R215, R454: the packets that hand work to an engine: a copy or fill joins a feeder DMA
engine, a crew launch the placement queues of its cores, a cox launch its cores' program lists. The model's own
readings and choices here: log entries 1, 4. -/
def Obligations.WorkPackets : Prop :=
  ∀ (s : State) (ctx : Nat) (p : Pkt),
    let c := s.ctx ctx
    let cs := s.coresOf c.part
    let d := p.data
    let queued := fun (t : State) (core : Nat) (ch : Chain) =>
      t.core core = { s.core core with engine := { (s.core core).engine with queue := (s.core core).engine.queue ++ [ch] } }
    let free := fun (core : Nat) => (s.core core).engine.queue.length < 16 ∧ (s.core core).engine.waiting = []
    let cox := fun (o : Outcome) => ∀ core, s.coxCores ctx p = [core] → core ∉ s.coresOut → s.launchOfPkt ctx p.pid = none →
      (∀ j ∈ (s.core core).jobs, j.launch ≠ s.nextLaunch) →
      ∃ t l j, o = .next t ∧ t.Staged ctx p.pid .dispatched ∧ t.coxLaunch s.nextLaunch = some l ∧ l.dispatched = true ∧ l.cores = [core] ∧
        l.program = field d 16 8 ∧ l.words = field d 24 4 ∧ l.limit = field d 32 8 ∧ l.dump = field d 40 8 ∧
        j ∈ (t.core core).jobs ∧ j.launch = s.nextLaunch ∧ j.dispatched = true ∧ j.rank = 0
    (s.AtPoint ctx p 0x20 → ∀ core, cs[field d 40 2]? = some core → field d 40 2 ≠ 0xFFFF → core ∉ s.coresOut → free core →
      field d 42 2 = 0xFFFF → ∃ t ch, exec (.copy ctx) s = .next t ∧ t.Staged ctx p.pid .dispatched ∧ queued t core ch ∧
        ch.owner = .packet ctx p.pid ∧ ch.ctx = ctx ∧ ch.addr = field d 16 8 ∧ ch.landing = none ∧
        ch.raw = (if field d 44 1 = 1 then none
          else some (.copy (field d 16 8) (field d 24 8) (field d 32 8) (field d 45 1 % 4) (field d 45 1 / 4 % 4)))) ∧
    (s.AtPoint ctx p 0x21 → ∀ core, cs[field d 40 2]? = some core → field d 40 2 ≠ 0xFFFF → core ∉ s.coresOut → free core →
      field d 42 2 = 0xFFFF → ∃ t ch, exec (.fill ctx) s = .next t ∧ t.Staged ctx p.pid .dispatched ∧ queued t core ch ∧
        ch.owner = .packet ctx p.pid ∧ ch.ctx = ctx ∧ ch.landing = none ∧
        ch.raw = some (.fill (field d 32 8) (field d 16 8) (field d 24 8) (field d 44 1 / 4 % 4))) ∧
    (s.AtPoint ctx p 0x30 →
      let cores := (cs.drop (field d 40 2)).take (field d 42 2)
      (∀ k ∈ cores, k ∉ s.coresOut) → cores.length = field d 42 2 → field d 48 4 ≤ 524288 →
      ∃ t l, exec (.launchCrews ctx) s = .next t ∧ t.Staged ctx p.pid .dispatched ∧ t.launch s.nextLaunch = some l ∧
        t.nextLaunch = s.nextLaunch + 1 ∧ l.ctx = ctx ∧ l.pid = p.pid ∧ l.entry = field d 16 8 ∧ l.args = field d 24 8 ∧ l.gx = field d 32 4 ∧
        l.gy = field d 36 2 ∧ l.gz = field d 38 2 ∧ l.cores = cores ∧ l.width = 16 * 2 ^ field d 44 1 ∧ l.regs = field d 45 1 ∧
        l.options = field d 46 2 ∧ l.scratch = field d 48 4 ∧ l.watchdog = field d 52 4 ∧
        ∀ r core, cores[r]? = some core → r < l.gx * l.gy * l.gz → .fresh s.nextLaunch r ∈ (t.core core).queue) ∧
    (s.AtPoint ctx p 0x31 → cox (exec (.launchCox ctx) s)) ∧
    (s.AtPoint ctx p 0x32 → field d 30 2 = 1 → cox (exec (.broadcastCox ctx) s))

/-- R138 to R145, R152, R156: a ready slot-A operation, and a later pass of a slice run, at the array. The model's own
readings and choices here: log entry 30. -/
def Obligations.StrokeArrayCommands : Prop :=
  ∀ (s : State) (core : Nat) (j : CoxJob) (l : CoxLaunch) (w : Nat), s.AtStroke core 3 j l w →
    let q := (s.core core).seq
    let a := (s.core core).array
    let t := q.stroke
    let v := slotA w
    (bits v 0 4 = 1 → a.run = none → s.LeavesArray core 3 (exec (.load core) s) { a with
      loads := a.loads ++ [⟨t, bits v 4 4, bit v 8, bit v 9, bits v 10 8⟩], lastLoad := some t }) ∧
    (bits v 0 4 = 2 → a.run = none →
      let n := if bits v 7 2 = 2 then 2 else 1
      let row := if bits v 26 3 = 0 then bits v 9 9 else (bits v 9 9 + n * q.scalar (3 + bits v 26 3)) % 512
      s.LeavesArray core 3 (exec (.result core) s) { a with
        results := a.results ++ (if bits v 4 3 = 0 then [] else [⟨t, bits v 4 3, bits v 7 2, row, sext (bits v 18 8) 8, q.pc⟩]) }) ∧
    (bits v 0 4 = 3 → s.LeavesArray core 3 (exec (.slice core) s) { a with
      run := some ⟨t, bit v 4, bits v 5 2, bit v 7, bits v 8 10, bits v 18 9, bits v 27 8, q.pc⟩
      loads := a.loads ++ [⟨t, 0, true, true, bits v 27 8⟩], lastLoad := some t }) ∧
    (∀ r, bits v 0 4 = 0 → a.run = some r → r.t0 < t → t < r.t0 + (if r.three then 6 else 3) * (r.m + 128) →
      (t - r.t0) % (r.m + 128) = 0 → s.LeavesArray core 3 (exec (.slicePass core) s) { a with
        loads := a.loads ++ [⟨t, 0, true, true, r.kr⟩], lastLoad := some t })

/-- R171 to R173, R181, R183: a ready operation of a load streamer, in L0 or L1, or of the store streamer reads in its
stroke and tracks what lands later; a read of a target that a write is still to reach is logged as an early read. No
read meets poison or an error here. The model's own readings and choices here: log entry 30. -/
def Obligations.StreamerCommands : Prop :=
  ∀ (s : State) (core : Nat) (j : CoxJob) (l : CoxLaunch) (w : Nat),
    let k := s.core core
    let q := k.seq
    let t := q.stroke
    (∀ n, n = 1 ∨ n = 2 → s.AtStroke core (3 + n) j l w → k.scratchPoison = [] → k.scratchSoft = [] → q.srPoison = [] → q.srErr = [] →
      let v := slotOf w n
      let ag := bits v 4 3
      let row := q.rowAt ag
      let sr := bits v 8 3
      let step : List CoxWrite :=
        if bit v 7 then [⟨t + 1, n, q.pc, .scalar (8 + ag) (BitVec.ofNat 64 (q.scalar (8 + ag) + q.scalar (16 + ag)))⟩] else []
      let reads := fun (o : Outcome) (x : CoxWrite) => s.LeavesSeq core o { q with
        phase := 3 + n, writes := q.writes ++ x :: step
        strokeLog := q.strokeLog ++ q.earlyEntry l n 3 row (q.scratchDue w t row) }
      let moves := fun (o : Outcome) (x : CoxWrite) => s.LeavesSeq core o { q with
        phase := 3 + n, writes := q.writes ++ [x], strokeLog := q.strokeLog ++ q.earlyEntry l n 1 sr (q.stagingDue w t sr) }
      let data := (List.range 128).map (fun i => mget 0 k.scratch (128 * row + i))
      let held := (List.range 128).map (fun i => mget 0 q.sr (128 * sr + i))
      (bits v 0 4 = 1 → reads (exec (.toA core) s) ⟨t + 12, n, q.pc, .pathA data⟩) ∧
      (bits v 0 4 = 2 → reads (exec (.toB core) s) ⟨t + 12, n, q.pc, .pathB data⟩) ∧
      (bits v 0 4 = 3 → reads (exec (.stg core) s) ⟨t + 4, n, q.pc, .staging sr data false⟩) ∧
      (bits v 0 4 = 4 → moves (exec (.srToA core) s) ⟨t + 12, n, q.pc, .pathA held⟩) ∧
      (bits v 0 4 = 5 → moves (exec (.srToB core) s) ⟨t + 12, n, q.pc, .pathB held⟩)) ∧
    (s.AtStroke core 6 j l w → k.array.accPoison = [] → k.array.accErr = [] →
      let v := slotS w
      let conv := bits v 17 3
      let pair := conv = 1 ∨ conv = 4
      let row := q.rowIndex (bits v 8 9) (bits v 26 3) (if pair then 2 else 1)
      let ag := bits v 4 3
      let early := fun r => match k.array.nextLanding t r with | some x => q.earlyEntry l 3 2 r [x] | none => []
      bits v 0 4 = 1 → s.LeavesSeq core (exec (.store core) s) { q with
        phase := 6
        writes := q.writes ++ ⟨t + 8, 3, q.pc, .scratch ((q.storeAddrs v).zip (k.array.converted conv (bits v 21 5) row)) []⟩ ::
          (if bit v 7 then [⟨t + 1, 3, q.pc, .scalar (8 + ag) (BitVec.ofNat 64 (q.scalar (8 + ag) + q.scalar (16 + ag)))⟩] else [])
        strokeLog := q.strokeLog ++ early row ++ (if pair then early (row + 1) else []) })

/-- R143, R146 to R148, R152, R181, R182: what lands in its stroke: a row in a staging register, the bytes of a store,
a result row in the accumulator, a row on the A path; and the rows whose load phase ends commit. One landing is due in
the stroke. The model's own readings and choices here: log entry 30. -/
def Obligations.StrokeLandings : Prop :=
  ∀ (s : State) (core : Nat) (j : CoxJob) (l : CoxLaunch) (w : Nat),
    let k := s.core core
    let q := k.seq
    let a := k.array
    let t := q.stroke
    let due := q.writes.filter (fun x => decide (x.due = t))
    let rows := a.results.filter (fun c => decide (c.head + 260 = t))
    let passed := fun (b : Matrix) (d : List Byte) =>
      ∀ r < 128, mget 0 b.pass (128 * r) = d.getD r 0 ∧ ∀ i < 127, mget 0 b.pass (128 * r + i + 1) = mget 0 a.pass (128 * r + i)
    (s.AtStroke core 2 j l w → rows = [] →
      (∀ x i d p, due = [x] → x.target = .staging i d p → i < 8 → s.LeavesSeq core (exec (.stagingLands core) s) { q with
        phase := 2, sr := writeBytes q.sr (128 * i) d, srPoison := sremove q.srPoison i, srErr := merase q.srErr i
        writes := q.writes.filter (fun y => decide (y ≠ x)) }) ∧
      (∀ x bs, due = [x] → x.target = .scratch bs [] → k.scratchPoison = [] → k.scratchSoft = [] →
        s.LeavesCore core (exec (.storeLands core) s) { k with
          scratch := bs.foldl (fun m b => mset 0 m b.1 b.2) k.scratch
          seq := { q with phase := 2, writes := q.writes.filter (fun y => decide (y ≠ x)) } })) ∧
    (s.AtStroke core 2 j l w → due = [] → a.accErr = [] → ∀ c, rows = [c] →
      s.LeavesArray core 2 (exec (.resultRowLands core) s) (a.land c t)) ∧
    (s.AtStroke core 9 j l w → a.rowErr = [] →
      (∀ x d, due = [x] → x.target = .pathA d → a.loads = [] → ∃ b,
        s.LeavesCore core (exec (.streamerDelivery core) s)
          { k with seq := { q with phase := 9, writes := q.writes.filter (fun y => decide (y ≠ x)) }, array := b } ∧
        passed b d ∧ b.weights = a.weights ∧ b.modes = a.modes ∧ b.acc = a.acc ∧ b.results = a.results) ∧
      (∀ r e, due = [] → a.commits t = [(r, e)] → r < e.kr → ∃ b, s.LeavesArray core 9 (exec (.rowCommit core) s) b ∧
        mget {} b.modes r = ⟨e.mode, e.asgn, e.bsgn, true⟩ ∧ b.acc = a.acc ∧
        b.weights = (List.range 128).foldl (fun m i => mset 0 m (128 * r + i) (mget 0 b.pass (128 * r + i))) a.weights))

/-- R174 to R177, R186, R189: a ready operation of slot X, or one of slot Y that waits for nothing. Register and flag
writes land at the start of the next stroke; a branch that is taken, a loop that is not entered and `END` decide what
follows. The model's own readings and choices here: log entry 30. -/
def Obligations.ScalarAndFlagCommands : Prop :=
  ∀ (s : State) (core : Nat) (j : CoxJob) (l : CoxLaunch) (w : Nat),
    let q := (s.core core).seq
    let t := q.stroke
    let tracked := fun (o : Outcome) (p slot : Nat) (x : CoxTarget) =>
      s.LeavesSeq core o { q with phase := p, writes := q.writes ++ [⟨t + 1, slot, q.pc, x⟩] }
    (s.AtStroke core 7 j l w →
      let v := slotX w
      let op := bits v 0 4
      let imm := bits v 32 32
      let wide := BitVec.ofInt 64 (sext imm 32)
      let n := bits v 16 2
      let taken := fun (o : Outcome) (b : Bool) =>
        s.LeavesSeq core o (if b then { q with phase := 7, nextPc := some (imm % 2048) } else { q with phase := 7 })
      (op = 1 → tracked (exec (.setScalar core) s) 7 4 (.scalar (bits v 4 6) wide)) ∧
      (op = 2 → tracked (exec (.addScalar core) s) 7 4 (.scalar (bits v 4 6) (BitVec.ofNat 64 (q.scalar (bits v 10 6)) + wide))) ∧
      (op = 3 →
        let count := if bit v 21 then imm / 65536 else q.scalar n
        let x : CoxWrite := ⟨t + 1, 4, q.pc, .scalar (4 + n) 0⟩
        (count ≠ 0 → s.LeavesSeq core (exec (.loop core) s)
          { q with phase := 7, writes := q.writes ++ [x], loops := ⟨n, q.pc + 1, imm % 2048, count⟩ :: q.loops }) ∧
        (count = 0 → s.LeavesSeq core (exec (.loop core) s) { q with
          phase := 7, writes := q.writes ++ [x], nextPc := some (imm % 2048), zeroTrips := min (q.zeroTrips + 1) (2 ^ 24 - 1) })) ∧
      (op = 4 → taken (exec (.br core) s) true) ∧
      (op = 5 → taken (exec (.xBrc core) s) (q.compare n != bit v 21)) ∧
      (op = 6 → tracked (exec (.cmpcfg core) s) 7 4 (.cmp n (bits v 10 6) (bits v 18 3) imm)) ∧
      (op = 7 → taken (exec (.brf core) s) (bit q.cf (bits v 18 3) != bit v 21)) ∧
      (op = 8 → s.LeavesSeq core (exec (.endProgram core) s) { q with phase := 7, ending := true })) ∧
    (s.AtStroke core 8 j l w →
      let v := slotY w
      let op := bits v 0 4
      (op = 5 → tracked (exec (.flagset core) s) 8 5 (.flags true (bits v 4 8))) ∧
      (op = 6 → tracked (exec (.flagclr core) s) 8 5 (.flags false (bits v 4 8))) ∧
      (op = 7 → s.LeavesSeq core (exec (.mark core) s) { q with phase := 8 }) ∧
      (∀ key, let y := s.slot key
        op = 1 → s.landing l.ctx (bits v 4 10) (.fromCore core) = .slot key → s.Armed key → y.kind = 0 →
        0 < bits v 14 8 → bits v 14 8 < y.remain →
        (s.setSlot key { y with remain := y.remain - bits v 14 8 }).LeavesSeq core (exec (.arrive core) s) { q with phase := 8 }))

/-- R177, R178, R180: a slot-Y wait is registered when its word reaches the issue point, and the word does not issue
while nothing has answered it: `WAIT` for the next release, `ARRWAIT` for the release of the generation that its
arrival joins, `WAITGEN` for a generation that is not reached. The model's own readings and choices here: log entry 30. -/
def Obligations.StrokeWaits : Prop :=
  ∀ (s : State) (core : Nat) (j : CoxJob) (l : CoxLaunch) (w key : Nat),
    let k := s.core core
    let q := k.seq
    let v := slotY w
    let y := s.slot key
    let g := q.scalar (bits v 14 6) % 2 ^ 32
    let registers := fun (o : Outcome) (z : Slot) (mode target : Nat) => ∃ t v', o = .next t ∧ s.now ≤ v' ∧
      (s.setSlot key { z with waiters := z.waiters ++ [⟨.cox core, mode, target, v'⟩] }).LeavesSeq core o { q with ywait := .registered (bits v 4 10) 0 }
    s.stalled = false → s.coxNow core = some (j, l) → q.phase = 0 → q.draining = false → q.active = true →
    l.limit = 0 ∨ q.issued < l.limit → j.words[q.pc]? = some w → q.pc ∉ j.wordErr → coxCheck k.array q j.words.length w = none → q.ywait = .none →
    s.landing l.ctx (bits v 4 10) (.fromCore core) = .slot key → s.Armed key →
    (bits v 0 4 = 2 → registers (exec (.wait core) s) y 0 0) ∧
    (bits v 0 4 = 3 → y.kind = 0 → y.gen < 2 ^ 32 → 0 < bits v 14 8 → bits v 14 8 < y.remain →
      registers (exec (.arrwait core) s) { y with remain := y.remain - bits v 14 8 } 1 ((y.gen + 1) % 2 ^ 32)) ∧
    (bits v 0 4 = 4 → (if y.kind = 1 then y.count < g else 2 ^ 31 ≤ (y.gen + 2 ^ 32 - g) % 2 ^ 32) →
      registers (exec (.waitgen core) s) y 1 g)

/-- R163, R164, R167, R168, R180, R189 to R194: how cox programs begin, run and end: an image is loaded, a program
starts, a stroke issues, a stroke limit stops a program, its drain ends, and a launch completes. The model's own
readings and choices here: log entries 1, 30. -/
def Obligations.CoxPrograms : Prop :=
  (∀ (s s1 s2 : State) (core ctx n : Nat) (p : Pkt) (l : CoxLaunch) (j : CoxJob) (h bs : List Byte),
    let r : Requester := { cache := core, master := .io (dieOf core), ctx := l.ctx, fill := true }
    let s3 := s2.refreshIcache r core (h ++ bs) (linePieces (l.words / 4 + 3) l.program (128 + 32 * l.words))
    s.pkt ctx p.pid = some p → p.opcode = 0x31 → p.skip = 0 → p.dead = false → p.stage = .dispatched → s.launchOfPkt ctx p.pid = some n →
    s.coxLaunch n = some l → (s.core core).jobs.find? (fun j => decide (j.dispatched = true) && !j.loaded && j.done.isNone) = some j →
    j.launch = n → (s.core core).halvesUsed + (if field p.data 24 4 ≤ 1024 then 1 else 2) ≤ 2 →
    s.vaRead r l.program 128 = (s1, .ok h) →
    (headerOk h = false → s1.stalled = false → j ∈ (s1.core core).jobs → ∃ t, exec (.coxProgramLoad core ctx p.pid) s = .next t ∧
      { j with loaded := true, bad := true } ∈ (t.core core).jobs ∧ t.hbm = s1.hbm) ∧
    (headerOk h = true → clearOf ((s1.core core).crews.map (fun e => (e.2.scratchBase, e.2.scratchSize))) (field h 4 4) (field h 8 4) = true →
      s1.vaRead r (l.program + 128) (32 * l.words) = (s2, .ok bs) → s3.stalled = false → j ∈ (s3.core core).jobs → headerPrefetch h = [] →
      ∃ t, exec (.coxProgramLoad core ctx p.pid) s = .next t ∧ t.hbm = s3.hbm ∧
        { j with
          loaded := true, claimed := true, halves := (if l.words ≤ 1024 then 1 else 2), pf := []
          words := (List.range l.words).map (fun i => field bs (32 * i) 32), resBase := field h 4 4, resBytes := field h 8 4 } ∈
            (t.core core).jobs)) ∧
  (∀ (s : State) (core : Nat) (j : CoxJob) (l : CoxLaunch), (s.core core).jobs.find? (fun j => j.dispatched && j.done.isNone) = some j →
    j.started = false → j.loaded = true → j.bad = false → s.coxLaunch j.launch = some l → (∀ p ∈ j.pf, p.stage = 2) →
    ∃ t, exec (.programStart core) s = .next t ∧ t.offCores = s.offCores ∧ (∀ i, i ≠ core → t.core i = s.core i) ∧
      let k := t.core core
      let q := k.seq
      k.jobs = (s.core core).jobs.map (fun x => if x.launch = j.launch then { x with started := true } else x) ∧
      q.active = true ∧ q.pc = 0 ∧ q.stroke = 0 ∧ q.issued = 0 ∧ q.cf = 0 ∧ (∀ i < 8, q.scalar i = 0) ∧
      (∀ i < 8, q.scalar (8 + i) = (l.agBase.getD i 0 + BitVec.ofNat 64 j.rank * l.agStride.getD i 0).toNat ∧ q.scalar (16 + i) = 128) ∧
      q.loops = [] ∧ q.writes = [] ∧ q.events = 0 ∧ q.logHead = (s.core core).seq.logHead ∧
      k.array.status = 0 ∧ k.array.acc = (s.core core).array.acc ∧ k.array.weights = (s.core core).array.weights ∧
      k.array.results = [] ∧ k.array.loads = [] ∧ k.array.run = none ∧ k.scratch = (s.core core).scratch) ∧
  (∀ (s : State) (core : Nat) (j : CoxJob) (l : CoxLaunch), let q := (s.core core).seq
    s.stalled = false → s.coxNow core = some (j, l) → q.phase = 0 → q.draining = false → q.active = true →
    l.limit = 0 ∨ q.issued < l.limit → (s.core core).array.rowErr = [] → j.words[q.pc]? = some 0 → q.pc ∉ j.wordErr → q.writes = [] → q.loops = [] → q.nextPc = none → q.ending = false →
    q.strokeLog = [] → (s.core core).array.results = [] → (s.core core).array.run = none →
    ∃ t, exec (.strokeIssue core) s = .next t ∧ t.offCores = s.offCores ∧ (∀ i, i ≠ core → t.core i = s.core i) ∧
      let k := t.core core
      k.clock = (s.core core).clock + 1 ∧ k.scratch = (s.core core).scratch ∧ k.array.acc = (s.core core).array.acc ∧
      k.seq.stroke = q.stroke + 1 ∧ k.seq.issued = q.issued + 1 ∧ k.seq.pc = q.pc + 1 ∧ k.seq.phase = 0 ∧ k.seq.logHead = q.logHead ∧
      (if q.pc + 1 < j.words.length then k.seq.active = true ∧ k.seq.draining = false
       else k.seq.active = false ∧ k.seq.draining = true ∧ k.seq.ended = true)) ∧
  (∀ (s : State) (core : Nat) (j : CoxJob) (l : CoxLaunch), let q := (s.core core).seq
    s.coxNow core = some (j, l) → q.active = true → q.phase = 0 → l.limit ≠ 0 → l.limit ≤ q.issued →
    ∃ t, exec (.strokeLimit core) s = .next t ∧ (∀ i, i ≠ core → t.core i = s.core i) ∧
      let k := t.core core
      k.seq.active = false ∧ k.seq.draining = true ∧ k.array.run = none ∧ k.seq.pc = q.pc ∧ k.seq.logHead = q.logHead ∧
      k.seq.strokeLog = q.strokeLog ++ [⟨q.stroke % 2 ^ 40, q.pc, 6, 6, l.layer, l.oper, 0, 0, q.issued⟩] ∧
      k.scratch = (s.core core).scratch ∧ k.array.acc = (s.core core).array.acc) ∧
  (∀ (s : State) (core : Nat) (j : CoxJob) (l : CoxLaunch), let k := s.core core
    let q := k.seq.strokeLog.foldl Sequencer.writeLog { k.seq with strokeLog := [] }
    s.coxNow core = some (j, l) → k.seq.draining = true → k.seq.phase = 0 → k.seq.writes = [] → k.array.results = [] → k.array.loads = [] →
    j.drained = false → k.seq.strokeLog.length ≤ 1 → (∀ e ∈ k.seq.strokeLog, e.slot ≤ 6) →
    let after := fun (f : CoxJob → CoxJob) => { k with
      jobs := k.jobs.map (fun x => if x.launch = j.launch then f { x with drained := true, dumpStatus := q.status } else x)
      seq := { q with draining := false, banks := [] }, array := { k.array with run := none } }
    (l.limit = 0 → j.fault = none → q.stopped = false →
      s.LeavesCore core (exec (.drainEnd core) s) (after (fun x => { x with done := some (match q.firstUnmapped with
        | some lid => (0x13, lid)
        | none => q.firstRelease.getD (0, 0)) }))) ∧
    (l.limit ≠ 0 → j.fault = none → k.engine.queue.length < 16 → k.engine.waiting = [] →
      s.LeavesCore core (exec (.drainEnd core) s) { after (fun x => { x with dump := 1 }) with
        engine := { k.engine with queue := k.engine.queue ++
          [{ owner := .dump j.launch, ctx := l.ctx, addr := l.dump + j.rank * 0x41000, layer := l.layer, oper := l.oper }] } })) ∧
  (∀ (s : State) (n core st d : Nat) (l : CoxLaunch) (j : CoxJob) (p : Pkt), s.coxLaunch n = some l → l.dispatched = true → l.aborted = false →
    l.cores = [core] → (s.core core).jobs.find? (fun j => decide (j.launch = n)) = some j → j.done = some (st, d) →
    s.pkt l.ctx l.pid = some p → p.stage = .dispatched → 0 < (s.core core).clock →
    ∃ t, exec (.coxLaunchComplete n) s = .next t ∧ t.Staged l.ctx l.pid (.workDone st d) ∧ t.coxLaunches = merase s.coxLaunches n ∧
      t.hbm = s.hbm ∧ (t.core core).scratch = (s.core core).scratch ∧ ∀ x ∈ (t.core core).jobs, x.launch ≠ n)

/-- R133, R215 to R221, R454: what a feeder DMA engine does: a chain starts or is refused, a descriptor that lies in
scratch and passes its checks is run (here with one row, from and to scratch) or named in the next, a descriptor that
does not is skipped and recorded, and a chain that has ended leaves. The model's own readings and choices here: log
entries 1, 31. -/
def Obligations.CopyEngine : Prop :=
  ∀ (s : State) (core : Nat) (c : Chain) (rest : List Chain),
    let k := s.core core
    let e := k.engine
    let a := c.addr % 0x80000
    let d := parseDesc (k.scratchRead a 64)
    let plain : Prop := c.raw = none ∧ (∀ l, c.owner ≠ .dump l)
    let inCore : Prop := s.Running core c rest ∧ plain ∧ c.space = 2 ∧ c.area = none ∧ c.strayed = false ∧ c.desc = none ∧ c.row = 0 ∧
      c.got = [] ∧ c.writes = none ∧ k.scratchPoison = [] ∧ k.scratchSoft = [] ∧ k.seq.banks = [] ∧ c.count < 65535 ∧ s.Sound
    let headed := fun (k : Core) (c' : Chain) => { k with engine := { k.engine with queue := c' :: rest } }
    let stepped := { c with
      count := c.count + 1, addr := c.addr + 64, finished := d.last, fault := if d.last then none else c.fault, early := !d.last && c.early }
    let runs := fun (o : Outcome) (op : Nat) => inCore → c.addr % 64 = 0 → d.op = op → d.check c.anyCore = 0 → d.rows = 1 → d.dstSpace = 2 →
      (op ≠ 2 → d.srcSpace = 2) →
      let n := if op = 3 then sourceBytes d.srcFmt d.rowLen else d.rowLen
      s.LeavesCore core o (headed { k with
        clock := k.clock + 1
        scratch := (d.make 0 (if op = 2 then [] else k.scratchRead (d.src % 0x80000) n)).writes.foldl (fun m x => wrapped m x.1 x.2) k.scratch } stepped)
    (e.queue = c :: rest → e.waiting = [] → c.started = false → plain → ∃ t v, exec (.fdmaChainStart core) s = .next t ∧ k.clock ≤ v ∧
      t.offCores = s.offCores ∧ (∀ i, i ≠ core → t.core i = s.core i) ∧
      (c.addr % 64 = 0 → t.core core = { headed k { c with started := true } with clock := v }) ∧
      (c.addr % 64 ≠ 0 → e.badDesc = false → t.core core = { k with
        clock := v
        engine := { e with
          queue := { c with started := true, finished := true, fault := none, early := false } :: rest
          badDesc := true, reason := 7, badAddr := c.addr, badCount := 1 } })) ∧
    runs (exec (.descriptorCopy core) s) 1 ∧ runs (exec (.descriptorFill core) s) 2 ∧ runs (exec (.convertDesc core) s) 3 ∧
    (inCore → d.op = 4 → d.check c.anyCore = 0 → d.last = false → d.src % 64 = 0 → s.LeavesCore core (exec (.linkDesc core) s)
      (headed k { c with count := c.count + 1, addr := d.src, space := d.srcSpace })) ∧
    (inCore → d.op = 2 → d.check c.anyCore ≠ 0 → d.last = true → e.badDesc = false → s.LeavesCore core (exec (.descriptorFill core) s)
      { k with engine := { e with queue := stepped :: rest, badDesc := true, reason := d.check c.anyCore, badAddr := c.addr, badCount := 1 } }) ∧
    (∀ ctx pid p, s.Sound → e.queue = c :: rest → e.waiting = [] → c.finished = true → c.landing = none → c.owner = .packet ctx pid →
      s.pkt ctx pid = some p → p.stage = .dispatched → 0 < k.clock → ∃ t, exec (.fdmaChainComplete core) s = .next t ∧ t.hbm = s.hbm ∧
        t.Staged ctx pid (.workDone (c.fault.getD (0, 0)).1 (c.fault.getD (0, 0)).2) ∧
        t.core core = { k with engine := { e with queue := rest } })

/-- R232 to R235, Tables 8-8 and 8-9: what a request does at the home of a line that is idle: with nobody to snoop it
is served at once and the directory takes its new state; with holders to snoop it waits for them. The gallery keeps
room for one more directory entry. The model's own readings and choices here: log entries 1, 12. -/
def Obligations.HomeRequests : Prop :=
  ∀ (s : State) (q line a off : Nat) (bytes : List Byte),
    let k := q * 2 ^ 45 + line
    let x := s.home k
    let others := sremove x.dir.holders a
    let cached := if a < 160 then a ∈ s.coresOf q else a - 160 ∈ s.hostCoresOf q
    let inL1 := k ∈ (s.core a).l1
    let grants := fun (o : Outcome) (r : HomeReq) (g : Nat) (d : DirState) => ∃ t, o = .next t ∧ t.hbm = s.hbm ∧
      (t.home k).txn = some { req := r, inv := [], down := [], served := true, grant := g } ∧ (t.home k).dir = d
    let performs := fun (o : Outcome) (r : HomeReq) (old : Nat) (d : DirState) (m : Map Byte) => ∃ t, o = .next t ∧ t.hbm = m ∧
      (t.home k).txn = some { req := r, inv := [], down := [], served := true, old := old } ∧ (t.home k).dir = d
    let snoops := fun (o : Outcome) (r : HomeReq) (inv down : List Nat) => ∃ t, o = .next t ∧ t.hbm = s.hbm ∧
      (t.home k).txn = some { req := r, inv := inv, down := down } ∧ (t.home k).dir = x.dir
    let read := s.homed q line false = true
    let write := s.homed q line true = true
    let left : DirState := if inL1 then .shared [a] else .uncached
    s.Sound → s.Flows → s.Clean q (line * 128) → x.txn = none → x.queue = [] → (x.dir = .uncached → (s.homes.filter (fun e => decide (e.2.dir ≠ .uncached))).length < 16) →
    (read → cached →
      ((∀ o, x.dir ≠ .owned o) → grants (exec (.rdShared q line a) s) (.rdShared a) (if x.dir = .uncached ∧ 160 ≤ a then 2 else 1)
        (if x.dir = .uncached ∧ 160 ≤ a then .owned a else .shared (sinsert x.dir.holders a))) ∧
      (∀ o, x.dir = .owned o → o ≠ a → snoops (exec (.rdShared q line a) s) (.rdShared a) [] [o])) ∧
    (write → cached → 160 ≤ a →
      (others = [] → grants (exec (.rdUnique q line a) s) (.rdUnique a) 3 (.owned a)) ∧
      (others ≠ [] → snoops (exec (.rdUnique q line a) s) (.rdUnique a) others [])) ∧
    (∀ cell mask, write → cached → a < 160 → s.cellOf q (line * 128) = some cell →
      (mask < 2 ^ 128 → others = [] →
        performs (exec (.wrThrough q line a mask bytes) s) (.wrThrough a mask bytes) 0 left
          (writeRuns s.hbm cell ((bitList 128 mask).map (fun i => (i, [bytes.getD i 0]))))) ∧
      (∀ op size b c sgn, let n := if size = 3 then 8 else 4
        let old := ofBytes (s.hbmRead (cell + off) n)
        op ≤ 9 → off % n = 0 → off < 128 → others = [] →
        performs (exec (.atomic q line a op size off b c sgn) s) (.atomic a op size off b c sgn) old left
          (match atomicOp op n sgn old b c with | some v => writeBytes s.hbm (cell + off) (toBytes n v) | none => s.hbm))) ∧
    (read → (∀ o, x.dir ≠ .owned o) → performs (exec (.ioRead q line a) s) (.ioRead a) 0 x.dir s.hbm) ∧
    (∀ cell mask, write → s.cellOf q (line * 128) = some cell → mask < 2 ^ 128 →
      (x.dir.holders = [] →
        performs (exec (.ioWrite q line a mask bytes) s) (.ioWrite a mask bytes) 0 .uncached
          (writeRuns s.hbm cell ((bitList 128 mask).map (fun i => (i, [bytes.getD i 0]))))) ∧
      (x.dir.holders ≠ [] → snoops (exec (.ioWrite q line a mask bytes) s) (.ioWrite a mask bytes) x.dir.holders []))

/-- R224, R234 to R237: a fill and its acknowledgement, the end of a transaction, and what a cache gives back of itself
or when it is snooped, within and after the hold of 32 ns. The model's own readings and choices here: log entries 1, 2,
12. -/
def Obligations.HomeAnswers : Prop :=
  ∀ (s : State) (q line a : Nat) (x : HomeTxn) (y : HomeLine) (bytes : List Byte), s.Sound → s.Flows → s.Clean q (line * 128) →
    let k := q * 2 ^ 45 + line
    let h := (a - 160) * 2 ^ 50 + k
    let z := s.hostLine h
    let fills := x.req = .rdShared a ∨ x.req = .rdUnique a
    let without (d : DirState) : DirState := match d with
      | .uncached => .uncached
      | .shared hs => if sremove hs a = [] then .uncached else .shared (sremove hs a)
      | .owned o => if o = a then .uncached else .owned o
    let took := fun (n : Nat) => { y with txn := some { x with took := (a, n) :: x.took, poison := if n % 2 = 0 then z.poison else x.poison } }
    let answered := { x with inv := sremove x.inv a, down := sremove x.down a, took := x.took.filter (fun e => decide (e.1 ≠ a)) }
    (s.home k = y → y.txn = some x →
      (x.served = true → fills → x.grant ≠ 0 →
        (a < 160 → ((s.core a).l1.filter (fun l => decide (l % 256 = k % 256) && decide (l ≠ k))).length < 8 → x.poison = 0 →
          exec (.dataFill q line) s = .next ((s.modCore a (fun c => { c with
            l1 := sinsert c.l1 k, l1Err := sremove c.l1Err k, l1Mru := minsert c.l1Mru (k % 256) k })).setHome k
            { y with txn := some { x with grant := 0 } })) ∧
        (a < 160 → x.poison ≠ 0 → exec (.dataFill q line) s = .next (s.setHome k { y with txn := some { x with grant := 0 } })) ∧
        (160 ≤ a → s.hostLines.length < 16384 → exec (.dataFill q line) s =
          .next ((s.setHostLine h { st := x.grant, poison := x.poison }).setHome k { y with txn := some { x with grant := 0 } }))) ∧
      (x.served = true → fills → x.grant = 0 → y.queue = [] →
        (a < 160 ∨ z.st < 2 → exec (.compAck q line a) s = .next (s.setHome k { y with txn := none })) ∧
        (160 ≤ a → 2 ≤ z.st → ∃ t v, exec (.compAck q line a) s = .next t ∧ s.now ≤ v ∧ t.hostLine h = { z with holdUntil := v + 32 } ∧
          t.homes = mset {} s.homes k { y with txn := none })) ∧
      (x.served = true → (∀ c, x.req ≠ .rdShared c ∧ x.req ≠ .rdUnique c) → y.queue = [] →
        ((∀ c op size off b e sgn, x.req ≠ .atomic c op size off b e sgn) →
          exec (.ack q line) s = .next (s.setHome k { y with txn := none })) ∧
        (∀ c op size off b e sgn, x.req = .atomic c op size off b e sgn → exec (.ack q line) s =
          .next ((s.modCore c (fun z => { z with ack := some (k, if x.poison = 0 then some x.old else none) })).setHome k
            { y with txn := none }))) ∧
      ((∀ e ∈ x.took, e.1 ≠ a) →
        (a ∈ x.inv → a < 160 → exec (.inv q line a) s =
          .next ((s.modCore a (fun c => { c with l1 := sremove c.l1 k })).setHome k (took 1))) ∧
        (a ∈ x.inv → 160 ≤ a → z.holdUntil = 0 → z.st = 3 → ∃ t, exec (.inv q line a) s = .next t ∧ t.home k = took 2 ∧
          t.hostLines = mset {} s.hostLines h {}) ∧
        (a ∈ x.down → 160 ≤ a → z.holdUntil = 0 → z.st = 3 → ∃ t, exec (.downgrade q line a) s = .next t ∧ t.home k = took 4 ∧
          t.hostLine h = { st := 1, poison := z.poison })) ∧
      (160 ≤ a → z.holdUntil ≠ 0 →
        (z.snoop = 0 → exec (.holdExpiry q line a) s = .next ((s.until z.holdUntil).setHostLine h { z with holdUntil := 0 })) ∧
        (z.snoop = 1 → z.st = 3 → ∃ t, exec (.holdExpiry q line a) s = .next t ∧ z.holdUntil ≤ t.now ∧ t.home k = took 2 ∧ (t.hostLine h).st = 0)) ∧
      (∀ c n, x.took.find? (fun e => decide (e.1 = a)) = some (a, n) → x.served = false →
        (x.req = .rdUnique c → answered.inv = [] → answered.down = [] → (s.homes.filter (fun e => decide (e.2.dir ≠ .uncached))).length < 16 →
          n = 1 → ∃ t, exec (.invAck q line a bytes) s = .next t ∧ t.hbm = s.hbm ∧ (t.home k).dir = .owned c ∧
            (t.home k).txn = some { answered with served := true, grant := 3, poison := 0 }) ∧
        (n = 2 → answered.inv ≠ [] → bytes.length = 128 → line < 2 ^ 45 → ∀ cell, s.cellOf q (line * 128) = some cell →
          ∃ t, exec (.invAck q line a bytes) s = .next t ∧ t.hbm = writeBytes s.hbm cell bytes ∧ (t.home k).dir = without y.dir ∧
            (t.home k).txn = some answered) ∧
        (x.req = .rdShared c → answered.inv = [] → answered.down = [] →
          n = 3 → ∃ t, exec (.downAck q line a bytes) s = .next t ∧ t.hbm = s.hbm ∧ (t.home k).dir = .shared (sinsert [a] c) ∧
            (t.home k).txn = some { answered with served := true, grant := 1, poison := 0 }))) ∧
    (160 ≤ a → 2 ≤ z.st → bytes.length = 128 → line < 2 ^ 45 → ∀ cell, s.cellOf q (line * 128) = some cell → y = s.home k → y.dir = .owned a →
      ∃ t, exec (.writeback q line a bytes) s = .next t ∧ t.hbm = writeBytes s.hbm cell bytes ∧ t.hostLines = mset {} s.hostLines h {} ∧
        t.homes = mset {} s.homes k { y with dir := .uncached, stamp := 0 }) ∧
    (a < 160 → k ∈ (s.core a).l1 → s.home k = y → y.dir = .shared [a] → ∃ t, exec (.evictClean q line a) s = .next t ∧ t.hbm = s.hbm ∧
      t.cores = mset {} s.cores a { s.core a with l1 := sremove (s.core a).l1 k } ∧
      t.homes = mset {} s.homes k { y with dir := .uncached, stamp := 0 }) ∧
    (160 ≤ a → z.st = 1 ∨ z.st = 2 → s.home k = y → y.dir = .uncached → exec (.evictClean q line a) s = .next (s.setHostLine h {}))

/-- R228, R229: the gallery cache's control and ways registers as the operator writes them, the end of a disable and of
an invalidate, and R231: a way that has failed too often leaves service. The model's own readings and choices here: log
entries 1, 12. -/
def Obligations.GalleryCacheCommands : Prop :=
  ∀ (s : State) (a : HostAccess) (q g : Nat),
    let x := s.slice g
    let rejected := fun (o : Outcome) (y : Slice) => ∃ t, o = .next t ∧ t.slice g = y ∧ t.hbm = s.hbm
    let dest := fun (off : Nat) => a.fn ≤ 8 ∧ s.served = true ∧ a.size = 8 ∧ a.off = 0x1800000 + 0x1000 * g + off ∧ g < 20 ∧
      s.partOfGallery g = some q ∧ s.fnOf q = a.fn ∧ (a.fn = 0 ∨ (s.part (a.fn - 1)).live = true)
    (dest 0 → a.data % 4 = 1 →
      (x.enabled = false → x.invDone = true → exec (.gcEnable a) s = .next (s.setSlice g { x with enable := true, enabled := true })) ∧
      (x.enable = true → x.enabled = true → exec (.gcEnable a) s = .next s) ∧
      (x.enable = false ∨ x.enabled = false → x.invDone = false → rejected (exec (.gcEnable a) s) { x with enableReject := true })) ∧
    (dest 0 → a.data % 4 = 0 → x.enable = true → exec (.gcDisable a) s = .next (s.setSlice g { x with enable := false, invDone := false })) ∧
    (dest 0 → a.data % 4 = 2 → x.enable = false →
      (x.enabled = false → exec (.gcInvalidate a) s = .next (s.setSlice g { x with invBusy := true, locked := 0, fillOnly := 0, lines := [] })) ∧
      (x.enabled = true → rejected (exec (.gcInvalidate a) s) { x with invReject := true })) ∧
    (dest 16 → let lock := a.data % 2 ^ 16
      let fine := popcount 16 lock ≤ 12 ∧ lock &&& x.disabledWays = 0 ∧ x.enabled = true
      (fine → exec (.gcWaysWrite a) s = .next (s.setSlice g { x with locked := lock, fillOnly := a.data / 2 ^ 16 % 2 ^ 16 })) ∧
      (¬ fine → rejected (exec (.gcWaysWrite a) s) { x with lockReject := true })) ∧
    (x.enabled = true → x.enable = false → s.Sound → s.Flows → ∃ t, exec (.sliceDisabled g) s = .next t ∧ t.hbm = s.hbm ∧
      t.slices = mset {} s.slices g { x with enabled := false, lines := [] }) ∧
    (x.invBusy = true → exec (.invalidateDone g) s = .next (s.setSlice g { x with
      invBusy := false, invDone := true, lines := if x.enabled then x.lines else [] })) ∧
    (∀ set old, g < 20 → s.Sound → s.Flows → mfind x.lines (16 * set) = some old → 0 < s.setting 1 4 → x.errors = [] →
      ∃ t v, exec (.wayDisable g 0 { errors := 0, bad := [set] }) s = .next t ∧ s.now ≤ v ∧
        t.slice g = { x with errors := [(0, v)], lines := merase x.lines (16 * set) } ∧
        (old.dirty = true → ∀ cell, s.cellOf (old.line / 2 ^ 45) (old.line % 2 ^ 45 * 128) = some cell → ∀ i < 2, cell / 64 + i ∈ t.hbmPoison)) ∧
    (∀ way n, g < 20 → way < 16 → 0 < n → s.Sound → s.Flows → x.errors = [] → bit x.disabledWays way = false →
      (n ≤ s.setting 1 4 → ∃ t v, exec (.wayDisable g way { errors := n }) s = .next t ∧ s.now ≤ v ∧
        t.slice g = { x with errors := List.replicate n (way, v) }) ∧
      (s.setting 1 4 < n → s.setting 14 1 ≠ 0 → bit x.locked way = false → ∃ t, exec (.wayDisable g way { errors := n }) s = .next t ∧
        t.slice g = { x with
          disabledWays := setBit x.disabledWays way true, locked := setBit x.locked way false, wayDisabled := true
          lines := x.lines.filter (fun e => decide (e.1 % 16 ≠ way)) } ∧
        t.conf.repair.ways = s.conf.repair.ways ++ [(g, way)]))

/-- R242, R252 to R258: what the memory system does of itself: a read corrects an error of one or two symbols and
either poisons a half-line with more or lets it pass, the patrol scrub poisons what it finds, a row that fails too
often is repaired or its channel is retired, and a rebuild moves its next line. The model's own readings and choices
here: log entries 1, 4, 32. -/
def Obligations.MemoryCommands : Prop :=
  ∀ s : State, s.Sound →
    (∀ pc line half n : Nat, pc < 512 → line < 9437184 → half < 2 → n ≠ 0 → (s.stack (pc / 64)).refreshOnly = false →
      let h := (pc * 9437184 + line) * 2 + half
      (n ≤ 2 → ∃ t v, exec (.hbmRead pc line half n) s = .next t ∧ s.now ≤ v ∧ t.hbm = s.hbm ∧ t.hbmPoison = s.hbmPoison ∧
        mget [] t.rasTimes (rowKey pc (Config.hbmRow line)) =
          v :: (mget [] s.rasTimes (rowKey pc (Config.hbmRow line))).filter (fun x => decide (v < x + 86400000000000))) ∧
      (3 ≤ n → (∃ q i, s.ownerAt pc line = some (.region q i)) → ∃ t, exec (.hbmRead pc line half n) s = .next t ∧
        ((h ∈ t.hbmPoison ∧ t.hbm = s.hbm) ∨ (∃ bs, bs.length = 64 ∧ t.hbm = writeBytes s.hbm (64 * h) bs ∧ t.hbmPoison = s.hbmPoison) ∨
          (t.hbm = s.hbm ∧ t.hbmPoison = s.hbmPoison ∧ ∃ v k c, v ∈ s.viewsOf pc line ∧ s.gcCopy v.1 v.2 = some (k, c) ∧ c.dirty = true)))) ∧
    (∀ stack pc line half : Nat, stack < 8 → pc / 64 = stack → line < 9437184 → half < 2 → (s.stack stack).refreshOnly = false →
      (s.stack stack).lastScrub + s.setting 3 24 * 3600000000000 ≤ s.now → (∃ q i, s.ownerAt pc line = some (.region q i)) →
      let h := (pc * 9437184 + line) * 2 + half
      (∃ t, exec (.patrolScrub stack { bad := [h] }) s = .next t ∧ s.now ≤ (t.stack stack).lastScrub ∧ h ∈ t.hbmPoison ∧ t.hbm = s.hbm) ∧
      (∃ t v, exec (.patrolScrub stack { fixed := [h] }) s = .next t ∧ s.now ≤ v ∧ s.now ≤ (t.stack stack).lastScrub ∧
        t.hbmPoison = s.hbmPoison ∧ t.hbm = s.hbm ∧ mget [] t.rasTimes (rowKey pc (Config.hbmRow line)) =
          v :: (mget [] s.rasTimes (rowKey pc (Config.hbmRow line))).filter (fun x => decide (v < x + 86400000000000)))) ∧
    (∀ pc row : Nat, pc < 512 → ∃ t v, exec (.rowRepair pc row) s = .next t ∧ s.now ≤ v ∧
      let n := ((mget [] s.rasTimes (rowKey pc row)).filter (fun x => decide (v < x + 86400000000000))).length
      (s.setting 4 8 < n → s.setting 13 1 ≠ 0 →
        ((pc, row) ∈ t.conf.repair.rows ∧ mget [] t.rasTimes (rowKey pc row) = []) ∨ pc / 2 ∈ t.conf.repair.channels ∨
        ∃ j ∈ t.moveJobs, j.cause = .retire (pc / 2)) ∧
      (n ≤ s.setting 4 8 → t.conf = s.conf ∧ t.hbm = s.hbm)) ∧
    (∀ (b : Rebuild) (rest : List Rebuild) (r : Region), s.rebuilds = b :: rest → mfind s.regions (64 * b.part + b.idx) = some r →
      let pa := r.base + 128 * b.watermark
      let z := placeLine b.target.layout b.watermark
      let dst := (z.1 * 9437184 + z.2) * 128
      s.Flows → (s.home (lineKey b.part pa)).busy = false → (∀ o, (s.home (lineKey b.part pa)).dir ≠ .owned o) →
      b.watermark + 1 < min r.size b.target.size / 128 →
      ∃ t, exec .lineMove s = .next t ∧ t.hbm = writeBytes s.hbm dst (s.homeBytes b.part pa) ∧
        t.rebuilds = { b with watermark := b.watermark + 1 } :: rest ∧ t.regions = s.regions ∧
        ∀ i < 2, dst / 64 + i ∈ t.hbmPoison ↔ bit (s.homePoison b.part pa) i = true)

/-- R263, R276, R277, R279 to R281: the commands of landings: a slot returns to its pool, a waiter's timer releases it
alone, a landing moves with all its state, a mirror forwards an arrival, and a host core arrives. The model's own
readings and choices here: log entries 1, 2, 32. -/
def Obligations.LandingCommands : Prop :=
  ∀ s : State, s.Sound →
    (∀ key : Nat, let y := s.slot key
      y.state = .releasing → (∀ p ∈ y.unseen, s.observed p = true) → s.lossOwed y = false → ∃ t, exec (.slotReturn key) s = .next t ∧
        t.slot key = {} ∧ (∀ k, k ≠ key → t.slot k = s.slot k) ∧ t.ctxs = s.ctxs ∧ t.cores = s.cores) ∧
    (∀ (key n ctx pid : Nat) (w : Waiter) (p : Pkt), let y := s.slot key
      y.waiters[n]? = some w → y.timeoutUs ≠ 0 → w.party = .packet ctx pid → s.pkt ctx pid = some p → p.stage = .waiting →
      ∃ t, exec (.timeout key n) s = .next t ∧ w.since + 1000 * y.timeoutUs ≤ t.now ∧ t.slot key = { y with waiters := y.waiters.eraseIdx n } ∧
        (∀ k, k ≠ key → t.slot k = s.slot k) ∧
        ((s.ctx ctx).state ≠ .preempted → t.Staged ctx pid (.workDone 3 (field p.data 16 2))) ∧
        ((s.ctx ctx).state = .preempted → t.ctx ctx = { s.ctx ctx with
          heldPkts := (s.ctx ctx).heldPkts ++ [(pid, 3, field p.data 16 2)] })) ∧
    (∀ (m : SlotMove) (rest : List SlotMove), s.moves = m :: rest → m.src ≠ m.dst → ∃ t, exec .landingMove s = .next t ∧ t.moves = rest ∧
      t.slot m.dst = s.slot m.src ∧ t.slot m.src = {} ∧ (∀ k, k ≠ m.src → k ≠ m.dst → t.slot k = s.slot k) ∧
      ∀ c lid, let e := mget {} (s.ctx c).lmap lid
        mget {} (t.ctx c).lmap lid = if e.kind ≠ 0 ∧ e.kind ≠ 5 ∧ e.key = m.src then e.toKey m.dst else e) ∧
    (∀ (a : MirrorArrival) (rest : List MirrorArrival) (assoc master : Nat), s.mirrorQ = a :: rest →
      (s.slot a.slot).mirror = some (assoc, master) → (∀ n ∈ a.after, ∀ e ∈ s.kftOpen, e.2 ≠ n) →
      exec (.mirrorForward a.slot) s = .next { s with mirrorQ := rest, ldgMsgs := s.ldgMsgs ++ [⟨0, assoc, master, a.count, 0, false⟩] }) ∧
    (∀ h ctx : Nat, s.partOfGallery (h / 2) = some (s.ctx ctx).part → ctx < 64 → (s.ctx ctx).state ≠ .free → s.hostRuns h = true →
      (∀ data key : Nat, let y := s.slot key
        let n := data / 65536 % 65536
        s.landing ctx (data % 1024) .fromIo = .slot key → s.Armed key → y.kind = 0 → 0 < n → n < y.remain →
        exec (.ldgArrive h ctx { off := 0, size := 8, store := true, data }) s =
          .next ((s.modHostCore h (fun k => { k with pageFault := false })).setSlot key { y with remain := y.remain - n })) ∧
      (∀ i < 1024, exec (.ldgArrive h ctx { off := 0x2000 + 8 * i, size := 8, store := false }) s =
        .next (s.modHostCore h (fun k => { k with pageFault := false, pageData := s.ldgStateReg ctx i }))) ∧
      (∀ p : PageAccess, p.size ≠ 8 ∨ p.off % 8 ≠ 0 →
        exec (.ldgArrive h ctx p) s = .next (s.modHostCore h (fun k => { k with pageFault := true }))))

/-- R287 to R289, R294, R295, R298 to R302, R409: how a pre-emption is completed or given up, an invalidation is
accepted and completes, a segment line is restored and a held read expires, and a removal times out, completes, or
begins for a failing core. The model's own readings and choices here: log entries 1, 10, 32. -/
def Obligations.RemovalCommands : Prop :=
  ∀ s : State, s.Sound →
    (∀ ctx area due path : Nat, let c := s.ctx ctx
      c.preempt = some (area, due, path) →
      (s.preemptReady ctx = true → c.creditSpace = 1 → ∀ s1, s.saveCrews ctx area (s.crewsOf ctx) = (s1, .saved) → s1.stalled = false →
        (s1.ctx ctx).creditSpace = 1 → ∃ t, exec (.preemptSave ctx) s = .next t ∧ (t.ctx ctx).state = .preempted ∧ (t.ctx ctx).preempt = none ∧
          t.saved = s1.saved ∧ t.hbm = s1.hbm) ∧
      (s.preemptReady ctx = false → s.faultComes ctx = false → ∃ t, exec (.preemptTimeout ctx) s = .next t ∧ (t.ctx ctx).preempt = none ∧ (t.ctx ctx).hold = false ∧
        due ≤ t.now ∧ t.hbm = s.hbm ∧ t.cores = s.cores)) ∧
    (∀ (a : HostAccess) (ctx : Nat), let c := s.ctx ctx
      a.fn ≤ 8 → s.served = true → a.size = 8 → a.off = 0x1000000 + 0x2000 * ctx + 0x30 → ctx < 64 → c.state ≠ .free → c.fn = a.fn →
      (a.fn = 0 ∨ (s.part (a.fn - 1)).live = true) → (c.xltIssued + 65536 - c.xltDone) % 65536 ≠ 8 →
      let taken := fun (kind : Nat) => s.setCtx ctx { c with
        xltIssued := (c.xltIssued + 1) % 65536, xltQueue := c.xltQueue ++ [(kind, a.data / 4096 % 2 ^ 36 * 4096)] }
      (a.data % 4 = 0 → exec (.xltInvContext a) s = .next (taken 0)) ∧ (a.data % 4 = 1 → exec (.xltInvPage a) s = .next (taken 1))) ∧
    (∀ (ctx kind va : Nat) (rest : List (Nat × Nat)), let c := s.ctx ctx
      c.xltQueue = (kind, va) :: rest → ∃ t, exec (.invalidationDone ctx) s = .next t ∧
        t.ctx ctx = { c with xltDone := (c.xltDone + 1) % 65536, xltQueue := rest } ∧
        (∀ e ∈ s.tlb, e ∈ t.tlb ↔ (e.ctx ≠ ctx ∨ (kind = 1 ∧ ¬(e.va ≤ va ∧ va < e.va + e.size)))) ∧ t.hbm = s.hbm) ∧
    (∀ (seg line mask : Nat) (l : Layout), let g := s.seg seg
      let src := (placeLine l line).1 * 9437184 + (placeLine l line).2
      let dst := (placeLine g.layout line).1 * 9437184 + (placeLine g.layout line).2
      g.live = true → mfind g.found line = none → mget .good g.lines line = .inRepair → g.golden = .copy mask l →
      (s.hbmPoisoned (src * 128) 128 = false → ∃ t, exec (.segmentRestore seg line) s = .next t ∧
        t.hbm = writeBytes s.hbm (dst * 128) (s.hbmRead (src * 128) 128) ∧ (t.seg seg).lines = mset .good g.lines line .good ∧
        (t.seg seg).held = g.held.filter (fun h => decide (h.line ≠ line) || h.expired)) ∧
      (s.hbmPoisoned (src * 128) 128 = true → ∃ t, exec (.segmentRestore seg line) s = .next t ∧ t.hbm = s.hbm ∧
        (t.seg seg).lines = mset .good g.lines line .lost)) ∧
    (∀ seg line at', (s.seg seg).live = true → mfind (s.seg seg).found line = some at' → s.Flows →
      ∃ t, exec (.segmentRestore seg line) s = .next t ∧ (t.seg seg).lines = mset .good (s.seg seg).lines line .inRepair ∧
        ∀ q ∈ (s.seg seg).mapped, ∀ g, ∀ e ∈ (t.slice g).lines, e.2.line ≠ lineKey q (segAddr seg line)) ∧
    (∀ (seg n : Nat) (h : HeldRead), (s.seg seg).held[n]? = some h →
      exec (.segmentHoldExpiry seg n) s = .next ((s.until (h.since + 1000 * (s.seg seg).holdUs)).setSeg seg
        { s.seg seg with held := (s.seg seg).held.set n { h with expired := true } })) ∧
    (∀ (n core : Nat) (d : Drain), s.drains[n]? = some d → d.cut = false → d.obj = .core core → ∃ t, exec (.drainTimeout n) s = .next t ∧
      d.deadline ≤ t.now ∧ t.drains = s.drains.set n { d with cut := true } ∧
      let k := t.core core
      k.crews = [] ∧ k.queue = [] ∧ k.engine.queue = [] ∧ k.engine.waiting = [] ∧ k.seq.active = false ∧ k.seq.writes = [] ∧ t.hbm = s.hbm) ∧
    (∀ (n ctx : Nat) (d : Drain), s.drains[n]? = some d → d.obj = .ctx ctx → d.after = .ctxDisable → (s.ctx ctx).pkts = [] →
      ({ s with drains := s.drains.filter (fun e => decide (e ≠ d)) }.endCtx ctx).stalled = false → ∃ t, exec (.drainComplete n) s = .next t ∧ t.ctx ctx = {} ∧ d ∉ t.drains) ∧
    (∀ core : Nat, (∀ d ∈ s.drains, d.obj = .core core → d.after ≠ .substitute) → core < 160 → core ∉ s.retired → core ∉ s.coresOut →
      s.setting 9 1 ≠ 0 → s.setting 15 2 ≤ s.coreErrors core →
      exec (.coreSubstitution core) s = .next { s with
        coresOut := sinsert s.coresOut core
        drains := s.drains ++ [{ obj := .core core, deadline := s.now + 10000000, after := .substitute }] }) ∧
    (∀ (core : Nat) (d : Drain), d ∈ s.drains → d.obj = .core core → d.after = .substitute → s.coreBusy core = false →
      (∀ e ∈ s.drains, e.obj = .core core → e = d) → d.path = none →
      ∃ t, exec (.coreSubstitution core) s = .next t ∧ d ∉ t.drains ∧ s.siteOf core ∈ t.conf.repair.failedSites ∧
        ((core ∈ t.retired ∧ core ∉ t.coresOut) ∨ ((∃ x, mfind t.conf.repair.subs core = some x) ∧
          t.moves = s.moves ++ (s.slotsOfCore core).map (fun k => { src := k, dst := k }) ∧
          (s.slotsOfCore core = [] → core ∉ t.coresOut))))

/-- R7 to R12, R39, R337 to R340, R352, R353, R418 to R428 and R220: what a write of each named register does, as the
function that owns it makes it with 8 bytes, what an access that no register takes leaves, and the accesses of the
aperture. The model's own readings and choices here: log entries 3, 27. -/
def Obligations.RegisterCommands : Prop :=
  ∀ (s : State) (a : HostAccess), s.Sound →
    let f := s.func a.fn
    let v := a.data % 2 ^ 64
    let mine := fun (core q : Nat) => core < 160 ∧ s.partOfGallery (core / 8) = some q ∧ s.fnOf q = a.fn
    let window := fun (core : Nat) => 0x2800000 + 0x10000 * core
    (s.Writes a 0x4000 → exec (.registerWrite a) s = .next (s.setFunc a.fn { f with aperEnable := bit v 0, aperBase := bits v 30 18 })) ∧
    (s.Writes a 0x8008 → ∃ t, exec (.registerWrite a) s = .next t ∧ t.ctxs = s.ctxs ∧
      (t.func a.fn).enableMask = v &&& (0x3FF + if a.fn = 0 then 0x70000 else 0)) ∧
    (∀ write, a.fn ≤ 8 → s.served = true → a.size ≠ 4 → a.size ≠ 8 → ∃ t, exec (.badRegisterAccess a write) s = .next t ∧
      bit (t.func a.fn).host 0 = true ∧ t.ctxs = s.ctxs ∧ t.cores = s.cores ∧
      (f.host = 0 → (t.func a.fn).errKind = 1 ∧ (t.func a.fn).errWrite = write ∧ (t.func a.fn).errAddr = a.off) ∧
      (write = false → .regData a.fn 0 ∈ t.out)) ∧
    (∀ x, s.mbox a.fn = x → s.Writes a 0x10000 →
      (x.owner = false → x.post = false → bit v 0 = true → exec (.requestPost a) s = .next (s.setMbox a.fn { x with
        post := true, len := bits v 2 12, reject := x.reject && !bit v 14 })) ∧
      (x.owner = true → exec (.requestPost a) s = .next (s.setMbox a.fn { x with reject := true }))) ∧
    (s.Writes a 0x11000 → bit v 0 = true →
      exec (.responseRelease a) s = .next (s.setMbox a.fn { s.mbox a.fn with respPost := false })) ∧
    (∀ core q, mine core q → s.Writes a (window core + 0x4000) → bit v 0 = true → exec (.badDescClear a) s =
      .next (s.modCore core (fun k => { k with
        engine := { k.engine with badDesc := false, reason := 0, badCount := 0, badAddr := 0 } }))) ∧
    (∀ core q i, mine core q → i < 16 → s.Writes a (window core + 0x6000 + 8 * i) → v % 256 ≤ 0x16 → ∃ t, exec (.ctrCfgWrite a) s = .next t ∧
      let k := mget {} (s.coreBank core).ctrs i
      (bit v 11 = true → mget {} (t.coreBank core).ctrs i =
        { cfg := v &&& 0x0000FFFFFFFF1FFF, snapValue := k.snapValue, snapTag := k.snapTag }) ∧ t.hbm = s.hbm ∧ t.ctxs = s.ctxs) ∧
    (∀ core q, mine core q → s.Writes a (window core + 0x6080) → bit v 0 = true → ∃ t w, exec (.ctrSample a) s = .next t ∧
      (s.core core).clock ≤ w ∧ t.ctxs = s.ctxs ∧ ∀ i, let k := mget {} (s.coreBank core).ctrs i
        k.perCmd = false → k.event ∉ [1, 4, 5, 6, 7, 8, 9] → (mget {} (t.coreBank core).ctrs i).snapValue = k.upTo w) ∧
    (∀ core q, mine core q → s.Writes a (window core + 0x6880) → bit v 0 = true → ∃ t w, exec (.gctrSample a) s = .next t ∧
      s.now ≤ w ∧ t.ctxs = s.ctxs ∧ ∀ i, let k := mget {} (s.galBank (core / 8)).ctrs i
        k.perCmd = false → k.event ∉ [1, 5, 9, 10] → (mget {} (t.galBank (core / 8)).ctrs i).snapValue = k.upTo (2 * w)) ∧
    (∀ core q, mine core q → let t := s.trc core
      (s.Writes a (window core + 0x7000) → bit v 0 = true → t.enable = false → 6 ≤ t.log2 → t.log2 ≤ 20 →
        (s.ctx (bits v 16 6)).state ≠ .free → (s.ctx (bits v 16 6)).part = q → exec (.trcCtrlWrite a) s = .next (s.setTrc core { t with
          enable := true, mask := bits v 1 8, ctx := bits v 16 6, written := 0, seq := 0, drops := 0, owedDrops := 0, recs := [] })) ∧
      (s.Writes a (window core + 0x7008) → (t.enable = false → exec (.trcRingWrite a) s =
          .next (s.setTrc core { t with log2 := bits v 0 5, base := bits v 12 36 * 4096 })) ∧
        (t.enable = true → exec (.trcRingWrite a) s = .next (s.setTrc core t)))) ∧
    (∀ b s1, let t := s.trc b
      t.enable = true → 8 ≤ t.recs.length → s.drainRecs b t.recs = (s1, [], none) → s1.stalled = false → ∃ u, exec (.traceDrain b) s = .next u ∧
        (u.trc b).recs = [] ∧ u.hbm = s1.hbm) ∧
    (∀ addr n q, s.linkUp = true → s.served = true → a.fn ≤ 8 → (a.fn = 0 ∨ a.fn ≤ s.numVfs) → s.partOf a.fn = some q →
      (f.aperEnable = false → exec (.bar2Read a.fn addr n) s = .next (s.emit (.bar2Fail a.fn 1)) ∧
        ∀ bs, exec (.bar2Write a.fn addr bs) s = .next s) ∧
      (f.aperEnable = true → f.aperRemoved = false →
        (∀ s1 bs, s.aperRead a.fn q [] (linePieces (n / 128 + 2) (f.aperture addr) n) = (s1, .ok bs) → s1.stalled = false →
          ∃ t, exec (.bar2Read a.fn addr n) s = .next t ∧ t.out = .bar2Data a.fn bs :: s1.out ∧ t.hbm = s1.hbm) ∧
        (∀ s1 bs, s.aperWrite q bs (linePieces (bs.length / 128 + 2) (f.aperture addr) bs.length) = (s1, true) → s1.stalled = false →
          exec (.bar2Write a.fn addr bs) s = .next s1)))

/-- R336, R337, R341 to R346, R434 to R436: the attention summary's write, the re-arming and the timer of a function's
interrupt, the events that let a held message leave, and the link. The model's own readings and choices here: log
entries 1, 27, 34. -/
def Obligations.InterruptCommands : Prop :=
  ∀ (s : State) (fn : Nat), s.Sound →
    let f := s.func fn
    let due := f.msixEnabled = true ∧ f.asserted = false ∧ f.summary &&& f.enableMask ≠ 0
    let sent := fun (o : Outcome) => ∃ t, o = .next t ∧ t.out = .msix fn :: s.out ∧ (t.func fn).armed = false ∧ (t.func fn).events = 0 ∧
      (t.func fn).msixPending = false ∧ (t.func fn).held = false ∧ (t.func fn).summary = f.summary ∧ t.ctxs = s.ctxs ∧ t.cores = s.cores
    (∀ a : HostAccess, a.fn = fn → s.Writes a 0x8000 → ∃ t, exec (.attSummaryWrite a) s = .next t ∧
      (t.func fn).summary = f.summary - (f.summary &&& (a.data % 2 ^ 64)) ∧ (t.func fn).enableMask = f.enableMask ∧ t.ctxs = s.ctxs) ∧
    (∀ a : HostAccess, a.fn = fn → s.Writes a 0x8018 → a.data % 2 = 1 →
      (due → f.msixMasked = false → s.hostOpen fn = true → f.modTime = 0 → f.modCount ≤ 1 → sent (exec (.attRearm a) s)) ∧
      (f.msixEnabled = true → f.asserted = false → f.summary &&& f.enableMask = 0 → ∃ t, exec (.attRearm a) s = .next t ∧ (t.func fn).armed = true ∧
        (t.func fn).events = f.events ∧ t.out = s.out ∧ t.ctxs = s.ctxs)) ∧
    (∀ w, f.winStart = some w → f.modTime ≠ 0 → due → f.msixMasked = false → f.armed = true → s.hostOpen fn = true →
      sent (exec (.moderationTimer fn) s) ∧ ∃ t, exec (.moderationTimer fn) s = .next t ∧ w + 1000 * f.modTime ≤ t.now) ∧
    (f.summary &&& f.enableMask ≠ 0 → f.asserted = false → f.msixPending = true → s.hostOpen fn = true → sent (exec (.vectorUnmask fn true) s)) ∧
    (due → f.msixMasked = false → f.held = true → s.linkUp = true → (fn = 0 ∨ fn ≤ s.numVfs) → sent (exec (.busMasterEnable fn) s)) ∧
    (∀ n, n ≤ 8 → s.linkUp = true → ∃ t, exec (.vfEnable n) s = .next t ∧ t.numVfs = n ∧ t.ctxs = s.ctxs ∧ t.parts = s.parts) ∧
    (∀ ctx addr h, s.hostReads.find? (fun x => x.is fn ctx addr && !x.expired) = some h →
      ∃ t, exec (.completionTimeout fn ctx addr) s = .next t ∧ h.since + 1000 * f.cplTimeoutUs ≤ t.now ∧ bit (t.func fn).host 2 = true ∧
        t.ctxs = s.ctxs ∧ (∀ x ∈ t.hostReads, x.is fn ctx addr = true → x.expired = true) ∧
        (f.host = 0 → (t.func fn).errKind = 3 ∧ (t.func fn).errWrite = false ∧ (t.func fn).errCtx = ctx ∧ (t.func fn).errAddr = addr)) ∧
    (∀ clock, ∃ t, exec (.perstNRelease clock) s = .next t ∧ t.perstN = true ∧ t.sris = !clock ∧ t.wakeLow = false ∧ t.ctxs = s.ctxs ∧
      t.parts = s.parts ∧ t.cores = s.cores) ∧
    (s.perstN = true → s.supply = 2 → ∃ t, exec .pcieLinkUp s = .next t ∧ t.linkUp = true ∧ t.linkRate < 6 ∧ t.linkWidth ∈ [1, 2, 4, 8, 16] ∧
      (t.linkRate = 5 → t.linkFlit = true) ∧ t.ctxs = s.ctxs ∧ t.parts = s.parts) ∧
    ∃ t, exec .dataLinkLayerDown s = .next t ∧ t.linkUp = false ∧ t.ctxs = s.ctxs ∧ t.parts = s.parts ∧ t.cores = s.cores ∧
      ∀ x ∈ t.hostReads, x.expired = true

/-- R353, R355 to R357, R361 to R363, R366, R369, R371, R379, R400, R424 and R455: how Mitor takes a request from a
mailbox or the sideband, how an answer reaches the mailbox, and what each command answers that tells something of the
module. The model's own readings and choices here: log entries 25, 26. -/
def Obligations.InformationCommands : Prop :=
  ∀ (s : State) (path : Nat) (t : Taken) (u : Sub), s.Sound →
    let gives := fun (i : Instr) (x : State) (fs : List (List Byte)) => exec i s = .next (x.reply path 0 0 fs)
    let turns := fun (i : Instr) (status detail : Nat) => exec i s = .next (s.reply path status detail [])
    let serves := s.mitorUp = true ∧ s.musLost = false ∧ s.muAsleep = false ∧ s.supply ≠ 0
    let plainInfo := fun (b : List Byte) => b.length = 8 ∧ field b 0 1 = 2 ∧ field b 1 1 = 0 ∧ field b 2 2 = 8 ∧ field b 4 2 = 1
    let log := s.evlog (s.logFn t)
    (∀ p, let m := s.mbox p
      p ≤ 10 → serves → mfind s.taken p = none → s.mitorReady = true → m.post = true → m.owner = false → m.respPost = false →
        let b := areaBytes m.area (min m.len 3840)
        (plainInfo b → ∃ v w x, exec (.requestTake p) s = .next v ∧ v.mbox p = { m with post := false, owner := true } ∧
          mfind v.taken p = some w ∧ w.cur = some x ∧ x.code = 1 ∧ x.tag = field b 6 2 ∧ x.stage = .ready ∧
          w.role = (if p ≤ 8 then 1 else if p = 9 then 2 else 3) ∧ (p ≤ 8 → w.part = s.partOf p)) ∧
        (field b 0 1 = 0 ∨ 3 < field b 0 1 → 8 ≤ m.len → m.len ≤ 3840 → ∃ v, exec (.requestTake p) s = .next v ∧
          (v.mbox p).post = false ∧ (v.mbox p).owner = false ∧ (v.mbox p).respPost = true ∧ (v.mbox p).respLen = 20)) ∧
    (∀ bus ep via b, serves → let m : MctpMessage := { typ := 0x7E, body := vendorBytes ++ toBytes 1 via ++ b }
      (bus = none ∨ bus = some s.conf.sideAddr →
        (mfind s.taken (16 + ep) = none → via = 1 → plainInfo b → ∃ v w x, exec (.sidebandMessage bus ep m) s = .next v ∧
          mfind v.taken (16 + ep) = some w ∧ w.role = 2 ∧ w.cur = some x ∧ x.code = 1 ∧ x.stage = .ready) ∧
        (mfind s.taken (16 + ep) ≠ none → via < 256 → 8 ≤ b.length → b.length ≤ 3840 → field b 0 1 = 2 → exec (.sidebandMessage bus ep m) s =
          .next (s.emit (.sideband ep (sideMessage via (answerBytes 2 (field b 4 2) (field b 6 2) 2 0 [])))))) ∧
      (∀ addr, bus = some addr → addr ≠ s.conf.sideAddr → exec (.sidebandMessage bus ep m) s = .next s)) ∧
    (∀ code status detail fs, s.InHand path code t u → t.rest = [] → t.done = [] → t.batch = false → t.discard = false → path ≤ 10 →
      let v := s.reply path status detail fs
      let message := answerBytes u.gen u.code u.tag status detail fs
      (v.mbox path).respPost = true ∧ (v.mbox path).owner = false ∧ (v.mbox path).respLen = message.length ∧
        areaBytes (v.mbox path).respArea message.length = message ∧
        bit (v.func (if path ≤ 8 then path else 0)).mbx (if path = 9 then 2 else if path = 10 then 3 else 0) = true) ∧
    (s.InHand path 0x0001 t u → gives (.info path) s [toBytes 2 0x0160, toBytes 1 0xB0, toBytes 2 0x4341, toBytes 8 Config.serial.toNat,
      toBytes 4 s.runningImage.2, toBytes 4 s.runningImage.1, toBytes 1 7, toBytes 1 (b2n s.seed.isSome), toBytes 1 t.role,
      toBytes 1 s.conf.slot]) ∧
    (s.InHand path 0x0002 t u → u.gen ≠ 1 → let mine := fun (q : Nat) => t.role ≠ 1 ∨ t.part = some q
      ∃ words energy, gives (.sensorRead path) s (words ++ [energy]) ∧ words.length = 10 ∧ energy.length = 64 ∧
        (t.role ≠ 1 → words.take 3 = [toBytes 4 s.readings.vin, toBytes 4 s.readings.iin, toBytes 4 s.readings.pin]) ∧
        (t.role = 1 → words.take 3 = [toBytes 4 0, toBytes 4 0, toBytes 4 0]) ∧
        words[5]? = some (toBytes 4 s.capW ++ toBytes 4 s.floorLinks ++ toBytes 4 s.floorMem) ∧
        ∀ q < 8, (mine q → field energy (8 * q) 8 = mget 0 s.paddleEnergy q % 2 ^ 64) ∧ (¬mine q → field energy (8 * q) 8 = 0)) ∧
    (s.InHand path 0x0003 t u → u.gen ≠ 1 → let n := u.num 1
      (1 ≤ n → n ≤ 52 → gives (.eventRead path) (s.setEvlog (s.logFn t) { log with events := log.events.drop n })
        [toBytes 2 (log.events.take n).length, toBytes 4 (log.events.length - (log.events.take n).length), (log.events.take n).flatten]) ∧
      (n = 0 ∨ 52 < n → turns (.eventRead path) 3 1)) ∧
    (s.InHand path 0x0004 t u → let n := u.num 1
      (1 ≤ n → n ≤ 52 → gives (.notifyRead path) (s.setEvlog (s.logFn t) { log with notes := log.notes.drop n, dropped := 0 })
        [toBytes 2 (log.notes.take n).length, toBytes 4 log.dropped, (log.notes.take n).flatten]) ∧
      (n = 0 ∨ 52 < n → turns (.notifyRead path) 3 1)) ∧
    (s.InHand path 0x0005 t u → u.gen ≠ 1 → (u.bytesOf 1).length = 4 → field (u.bytesOf 1) 0 1 = 0 → let c := field (u.bytesOf 1) 2 2
      (160 ≤ c → turns (.counterRead path) 3 1) ∧
      (c < 160 → t.role ≠ 1 → let v := s.sampleCore c
        let k := fun (i : Nat) => mget ({} : Counter) (v.coreBank c).ctrs i
        gives (.counterRead path) v [toBytes 1 0 ++ zeros 1 ++ toBytes 2 c ++ (List.range 16).flatMap (fun i => toBytes 8 (k i).snapValue) ++
          (List.range 16).flatMap (fun i => toBytes 8 (k i).snapTag)])) ∧
    (s.InHand path 0x0006 t u → (s.seed = none → turns (.attest path) 5 0) ∧
      (∀ seed, s.seed = some seed → u.gen ≠ 1 → ∃ x signed, gives (.attest path) x [signed ++ Config.ed25519Sign (identityKey seed) signed] ∧
        x.ctxs = s.ctxs ∧ x.conf = s.conf ∧ signed.take 9 = toBytes 8 Config.serial.toNat ++ toBytes 1 0xB0 ∧
        (u.bytesOf 1) ++ s.conf.chain <:+ signed)) ∧
    (s.InHand path 0x0007 t u → gives (.keyStatus path) s [((s.conf.keys.map (·.1)).filter (keyInReach t)).flatMap
      (fun k => toBytes 2 k ++ zeros 6 ++ toBytes 8 (mget 0 s.keyLast k + 1))]) ∧
    (s.InHand path 0x0904 t u → let n := u.num 2
      (1 ≤ n → n ≤ 28 → ∃ es next, gives (.auditRead path) s [toBytes 2 es.length, toBytes 8 next, es.flatten] ∧ es.length ≤ n ∧
        (∀ e ∈ es, u.num 1 ≤ field e 0 8 ∧ ∃ k, (k, e) ∈ s.audit) ∧ (es = [] → next = u.num 1) ∧
        (∀ e, es.getLast? = some e → next = field e 0 8 + 1)) ∧
      (n = 0 ∨ 28 < n → turns (.auditRead path) 3 2)) ∧
    (s.InHand path 0x0905 t u → let other := s.bank (1 - s.curBank)
      gives (.storeStatus path) s [toBytes 1 s.curBank, toBytes 8 (s.bank s.curBank).seq, toBytes 1 (b2n other.valid),
        toBytes 8 (if other.valid then other.seq else 0), toBytes 8 s.auditNext])

/-- R34, R35, R38, R287, R288 and R300 to R302: the operator's and the installer's commands on contexts: create,
destroy, reset, pre-empt, resume and disable. The model's own readings and choices here: log entry 25. -/
def Obligations.ContextCommands : Prop :=
  ∀ (s : State) (path : Nat) (t : Taken) (u : Sub) (n : Nat), s.Sound →
    let gives := fun (i : Instr) (x : State) (fs : List (List Byte)) => exec i s = .next (x.reply path 0 0 fs)
    let turns := fun (i : Instr) (status detail : Nat) => exec i s = .next (s.reply path status detail [])
    let c := s.ctx n
    let free := s.ctxLeaving n = false
    (∀ q, s.InHand path 0x0101 t u → t.role = 1 → t.part = some q → u.has 8 = false → q < 8 → (s.part q).live = true → u.num 1 % 64 = 0 →
      u.num 2 ≤ 1 → u.num 3 ≤ 2 → u.num 4 % 32 = 0 → u.num 5 ≤ 1 → 6 ≤ u.num 6 → u.num 6 ≤ 16 → bits (u.num 7) 60 4 = 9 →
      (∀ d ∈ s.drains, d.obj ≠ .part q) →
        ((s.ctxsOf q).length < (s.part q).ctxCeiling → (List.range 64).find? (fun m => decide ((s.ctx m).state = .free)) = some n →
          gives (.ctxCreate path) (s.setCtx n {
            state := .active, part := q, fn := s.fnOf q, creditAddr := u.num 1, creditSpace := u.num 2, creditStep := 4096 * 4 ^ u.num 3
            ringAddr := u.num 4, ringSpace := u.num 5, ringSize := 2 ^ u.num 6, root := bits (u.num 7) 0 44 * 4096 }) [toBytes 1 n]) ∧
        ((s.part q).ctxCeiling ≤ (s.ctxsOf q).length → turns (.ctxCreate path) 0x12 0)) ∧
    (s.OnCtx path 0x0102 t u n → free → ((s.cutCtx n).endCtx n).stalled = false →
      ∃ x, gives (.ctxDestroy path) x [toBytes 4 ((s.cutCtx n).ctx n).retiredTag] ∧ x.ctx n = {} ∧
        (∀ e ∈ x.tlb, e.ctx ≠ n) ∧ (∀ l ∈ x.launches, l.2.ctx ≠ n) ∧ ∀ l ∈ x.coxLaunches, l.2.ctx ≠ n) ∧
    (s.OnCtx path 0x0103 t u n → free →
      (((((((s.cutCtx n).dropQueues n).modCtx n Ctx.wasReset).clearCtxBits n).dropTraces n).writeCredit n).stalled = false) →
      ∃ x tag, gives (.ctxReset path) x [toBytes 4 tag] ∧ (∀ l ∈ x.launches, l.2.ctx ≠ n) ∧
      let d := x.ctx n
      d.state = .active ∧ d.accepted = 0 ∧ d.consumed = 0 ∧ d.expected = 0 ∧ d.fifo = [] ∧ d.pkts = [] ∧ d.log = [] ∧ d.faultStatus = 0 ∧
      d.creditAddr = c.creditAddr ∧ d.ringAddr = c.ringAddr ∧ d.root = c.root ∧ d.part = c.part) ∧
    (s.OnCtx path 0x0104 t u n → u.num 2 % 4096 = 0 → let us := (u.num? 3).getD 10000
      1 ≤ us → us ≤ 1000000 →
        (c.state = .faulted → turns (.ctxPreempt path) 0x0E 0) ∧
        (c.state = .active → c.preempt = none → c.resumePath = none → free → s.ctxResizing n = false → ∃ (x : State) (v : Nat), exec (.ctxPreempt path) s = .next (x.await path) ∧
          s.now + 1000 * us ≤ v ∧ x.ctx n = { c with hold := true, preempt := some (u.num 2, v, path) } ∧ x.cores = s.cores) ∧
        (c.state ≠ .faulted → c.preempt ≠ none ∨ s.ctxResizing n = true → turns (.ctxPreempt path) 2 1)) ∧
    (s.OnCtx path 0x0105 t u n → c.resumePath = none → free → s.ctxResizing n = false →
      (c.state = .preempted → exec (.ctxResume path) s = .next
        (((s.resumeCtx n).modCtx n (fun c => { c with resumePath := some path })).await path |>.checkResume n)) ∧
      (c.state ≠ .preempted → turns (.ctxResume path) 3 1)) ∧
    (s.OnCtx path 0x0106 t u n → u.num 2 ≤ 1 → let us := (u.num? 3).getD 10000
      1 ≤ us → us ≤ 10000000 →
        (free → c.creditSpace ≠ 0 → c.ringSpace ≠ 0 → ∃ (x : State) (d : Drain), exec (.ctxDisable path) s = .next (x.await path) ∧ d ∈ x.drains ∧ d.obj = .ctx n ∧ d.after = .ctxDisable ∧
          d.path = some path ∧ (d.cut = true ↔ u.num 2 = 1) ∧ s.now + 1000 * us ≤ d.deadline ∧ (x.ctx n).state = .draining) ∧
        (s.ctxLeaving n = true → turns (.ctxDisable path) 2 1)) ∧
    (s.OnCtx path 0x0102 t u n → s.ctxLeaving n = true → turns (.ctxDestroy path) 2 1) ∧
    (∀ i code, (i, code) ∈ [(Instr.ctxDestroy path, 0x0102), (Instr.ctxReset path, 0x0103), (Instr.ctxPreempt path, 0x0104),
        (Instr.ctxResume path, 0x0105), (Instr.ctxDisable path, 0x0106)] → s.InHand path code t u → u.num 1 = n →
      (64 ≤ n ∨ c.state = .free → turns i 3 1) ∧ (n < 64 → c.state ≠ .free → t.role = 1 → t.part ≠ some c.part → turns i 4 1))

/-- R262, R263, R274, R275, R316 and R318: the operator's commands on landings, send queues and windows. The model's
own readings and choices here: log entry 25. -/
def Obligations.ResourceCommands : Prop :=
  ∀ (s : State) (path : Nat) (t : Taken) (u : Sub) (n : Nat), s.Sound →
    let gives := fun (i : Instr) (x : State) (fs : List (List Byte)) => exec i s = .next (x.reply path 0 0 fs)
    let turns := fun (i : Instr) (status detail : Nat) => exec i s = .next (s.reply path status detail [])
    let p := s.part (s.ctx n).part
    let lid := u.num 2
    let e := mget ({} : LEntry) (s.ctx n).lmap lid
    let x := s.slot e.key
    (s.OnCtx path 0x0201 t u n → lid ≤ 1023 → e.kind = 0 → u.has 5 = false → u.has 6 = false →
      let maps := fun (key : Nat) (mirror : Option (Nat × Nat)) (l : LEntry) => gives (.ldgMap path)
        ((s.setSlot key { state := .unarmed, owner := n, part := (s.ctx n).part, mirror }).modCtx n (fun c => { c with lmap := minsert c.lmap lid l })) [toBytes 2 l.slot]
      (∀ c key, u.num 3 = 1 → u.has 4 = true → (s.coresOf (s.ctx n).part)[u.num 4]? = some c → s.GivesSlot n (48 * c) 48 49 key →
        maps key none { kind := 1, core := c, slot := key - 48 * c, owner := n }) ∧
      (∀ key, u.num 3 = 2 → s.GivesSlot n 10000 1024 p.deviceCeiling key → maps key none { kind := 2, slot := key - 10000, owner := n }) ∧
      (∀ key, u.num 3 = 3 → s.GivesSlot n 20000 256 p.fabricCeiling key → maps key none { kind := 3, slot := key - 20000, owner := n }) ∧
      (∀ key, u.num 3 = 4 → u.has 7 = true → u.has 8 = true → (s.assoc (u.num 7)).live = true → (s.assoc (u.num 7)).part = (s.ctx n).part →
        s.GivesSlot n 20000 256 p.fabricCeiling key → maps key (some (u.num 7, u.num 8))
          { kind := 4, assoc := u.num 7, slot := key - 20000, owner := n, remote := u.num 8 }) ∧
      (u.num 3 = 2 → p.deviceCeiling ≤ s.slotsHeld (s.ctx n).part 10000 1024 → turns (.ldgMap path) 0x12 0)) ∧
    (s.OnCtx path 0x0202 t u n →
      let ends := fun (y : State) => y.modCtx n (fun c => { c with lmap := merase c.lmap lid })
      (lid ≤ 1023 → e.kind ≠ 0 → e.kind ≠ 5 → e.owner = n → gives (.ldgUnmap path) (ends (s.loseSlot e.key)) []) ∧
      (lid ≤ 1023 → e.kind ≠ 0 → e.kind = 5 ∨ e.owner ≠ n → gives (.ldgUnmap path) (ends s) []) ∧
      (1023 < lid ∨ e.kind = 0 → turns (.ldgUnmap path) 3 2)) ∧
    (s.OnCtx path 0x0203 t u n → lid ≤ 1023 → 1 ≤ e.kind → e.kind ≤ 3 → u.has 10 = false → x.subs = [] →
      u.num 8 = 0xFFFF → u.num 9 = 0xFFFF →
      let kind := u.num 3
      (x.state ≠ .free → x.state ≠ .releasing → (kind = 0 ∧ 1 ≤ u.num 4 ∧ u.num 4 ≤ 16777215 ∧ u.num 5 ≤ 1 ∧ u.num 7 = 0) ∨
          (kind = 1 ∧ u.num 4 = 0 ∧ u.num 5 = 0 ∧ u.num 7 = 0) ∨
          (kind = 2 ∧ 1 ≤ u.num 4 ∧ u.num 4 ≤ 16777215 ∧ u.num 5 = 1 ∧ 1 ≤ u.num 7 ∧ u.num 7 ≤ 16777215) →
        let gen := if x.state = .armed then x.gen else 0
        ∃ lost, gives (.ldgArm path) (s.setSlot e.key { x with
          state := .armed, kind, n := u.num 4, rearm := decide (u.num 5 = 1), timeoutUs := u.num 6, period := u.num 7, link0 := 0xFFFF
          link1 := 0xFFFF, armCtx := n, subs := [], gen, remain := u.num 4, count := 0, drift := false, stray := lost, saturated := false })
          [toBytes 4 gen] ∧
        (lost = true ↔ x.state = .armed ∧ ((x.kind = 1 ∧ x.count ≠ 0) ∨ (x.kind ≠ 1 ∧ x.remain ≠ x.n)))) ∧
      (x.state = .free ∨ x.state = .releasing → turns (.ldgArm path) 3 2)) ∧
    (s.OnCtx path 0x0204 t u n → u.num 2 % 4096 = 0 → 6 ≤ u.num 3 → u.num 3 ≤ 16 → (s.assoc (u.num 4)).live = true →
      (s.assoc (u.num 4)).part = (s.ctx n).part → u.num 5 ≤ 1023 →
      let go := mget ({} : LEntry) (s.ctx n).lmap (u.num 5)
      let y := s.slot go.key
      go.kind = 2 → y.state = .armed → y.kind = 0 → y.n = 1 → y.rearm = true →
        (∀ i, (List.range 8).find? (fun i => !(s.sendQueue (8 * n + i)).live) = some i → gives (.sqCreate path) (s.setSendQueue (8 * n + i)
          { live := true, ring := u.num 2, log2 := u.num 3, assoc := u.num 4, goLid := u.num 5, gen := y.gen }) [toBytes 1 i]) ∧
        ((∀ i < 8, (s.sendQueue (8 * n + i)).live = true) → turns (.sqCreate path) 0x12 0)) ∧
    (s.OnCtx path 0x0205 t u n → let q := s.sendQueue (8 * n + u.num 2)
      (u.num 2 < 8 → q.live = true → (s.dropQueue n (u.num 2)).stalled = false → ∃ y, gives (.sqDestroy path) y [] ∧
        y.sendQueue (8 * n + u.num 2) = {} ∧ (∀ e ∈ y.assocs, ∀ m ∈ e.2.outMsgs, m.ctx = n → m.queue = u.num 2 → m.ldg = none → m.entry = none) ∧
        (q.entries = [] → y.hbm = s.hbm ∧ ∀ k, k ≠ 8 * n + u.num 2 → y.sendQueue k = s.sendQueue k)) ∧
      (8 ≤ u.num 2 ∨ q.live = false → turns (.sqDestroy path) 3 2)) ∧
    (s.InHand path 0x0206 t u → let a := s.assoc (u.num 1)
      let perm := u.num 5
      (a.live = true → t.part = some a.part → u.num 2 < 16 → perm < 8 → gives (.kftWindow path) (s.setAssoc (u.num 1) { a with
        windows := if perm = 0 then merase a.windows (u.num 2) else minsert a.windows (u.num 2)
          { base := u.num 3, size := u.num 4, r := bit perm 0, w := bit perm 1, a := bit perm 2 } }) []) ∧
      (a.live = false → turns (.kftWindow path) 3 1) ∧ (a.live = true → t.part ≠ some a.part → turns (.kftWindow path) 4 1))

/-- R102 to R106 and Table 3-8: opening and closing a debug session, and halting, reading, writing, stepping and
resuming a crew. The model's own readings and choices here: log entry 23. -/
def Obligations.DebugCommands : Prop :=
  ∀ (s : State) (path : Nat) (t : Taken) (u : Sub) (core key : Nat) (c : Crew), s.Sound →
    let gives := fun (i : Instr) (x : State) (fs : List (List Byte)) => exec i s = .next (x.reply path 0 0 fs)
    let turns := fun (i : Instr) (status detail : Nat) => exec i s = .next (s.reply path status detail [])
    (∀ q, t.part = some q →
      (s.InHand path 0x0701 t u → gives (.debugOpen path) (s.setPart q { s.part q with debugOpen := true }) []) ∧
      (s.InHand path 0x0702 t u → gives (.debugClose path) (s.setPart q { s.part q with debugOpen := false }) []) ∧
      (s.InHand path 0x0703 t u → (s.part q).debugOpen = false → ∀ op i, (op, i) ∈ [(1, Instr.haltCrew path), (2, Instr.readState path),
        (3, Instr.writeState path), (4, Instr.stepCrew path), (5, Instr.resume path)] → u.num 2 = op → turns i 3 0)) ∧
    (s.Debugs path 1 t u core key c → c.state ≠ .halted → c.allExited = false → c.retry = false → ∃ x v, gives (.haltCrew path) x [] ∧
      (s.core core).clock ≤ v ∧ x.crew core key = some { c.settled with state := .halted, idleFrom := v } ∧
      (∀ k, k ≠ key → x.crew core k = s.crew core k) ∧ x.hbm = s.hbm ∧ x.ctxs = s.ctxs) ∧
    (s.Debugs path 2 t u core key c → (bit (u.num 3) 0 = false ∨ vregsFit c (vregsOf u c) = true) →
      (bit (u.num 3) 1 = false ∨ uregsFit (uregsOf u) = true) →
      exec (.readState path) s = .next (s.replyTyped path (readFields u c)) ∧
      ((u.num 3 = 32 → readFields u c = fieldBytes 0x0A (toBytes 4 c.flags)) ∧
       (u.num 3 = 4 → readFields u c = fieldBytes 6 ((List.range 8).flatMap (fun p => toBytes 8 (c.pred p)))) ∧
       (u.num 3 = 1 → u.has 4 = false → readFields u c = fieldBytes 4 (toBytes 1 0 ++ toBytes 1 0 ++ toBytes 1 c.regs ++ zeros 1 ++
          (List.range c.regs).flatMap (fun i => toBytes 4 (mget 0 c.v i).toNat))))) ∧
    (s.Debugs path 3 t u core key c →
      (c.state ≠ .halted → turns (.writeState path) 3 0) ∧
      (c.state = .halted → u.has 4 = false → u.has 6 = false → u.has 7 = false →
        (u.has 5 = false → gives (.writeState path) (s.setCrew core key c) []) ∧
        (∀ r v, u.bytesOf 5 = toBytes 1 r ++ toBytes 1 1 ++ zeros 2 ++ toBytes 8 v → u.has 5 = true → r < 64 → rising c.u →
          ∃ d, gives (.writeState path) (s.setCrew core key d) [] ∧ mget 0 d.u r = BitVec.ofNat 64 v ∧
            (∀ k, k ≠ r → mget 0 d.u k = mget 0 c.u k) ∧ d.path = c.path ∧ d.state = .halted)) ∧
      (∀ pc a m, c.state = .halted → u.has 4 = false → u.has 5 = false → u.has 6 = false → u.num? 7 = some pc → c.path = some (a, m) →
        gives (.writeState path) (s.setCrew core key { c with path := some (pc, m) }) [])) ∧
    (s.Debugs path 4 t u core key c →
      (c.state ≠ .halted → turns (.stepCrew path) 3 0) ∧
      (c.state = .halted → c.path = none → takeRunnable c.stack = none → turns (.stepCrew path) 0x11 0) ∧
      (∀ p z d, c.state = .halted → c.path = some p → c.copyFault = none →
        let s1 := s.setCrew core key { c with retry := false }
        s1.nextIssue core key c = some z → z.i.known = true → z.i.legal c.width c.regs = true → c.blocked (z.i.sources c.width) = false →
        let s2 := (s1.issue core key none).haltAgain core key c.idleFrom
        s2.stalled = false → s2.crew core key = some d → d.retry = false → gives (.stepCrew path) s2 [] ∧ (d.state = .halted ∨ d.state = .faulted))) ∧
    (s.Debugs path 5 t u core key c →
      (c.state ≠ .halted → turns (.resume path) 3 0) ∧
      (∀ p, c.state = .halted → c.path = some p → c.copyFault = none → ∃ x d, gives (.resume path) x [] ∧ x.crew core key = some d ∧
        d.state = .running ∧ d.path = some p ∧ d.newAge = false ∧ c.excluded ≤ d.excluded ∧ d.v = c.v ∧ d.u = c.u ∧ d.preds = c.preds ∧
        (c.newAge = false → d.age = c.age) ∧ x.hbm = s.hbm ∧ x.ctxs = s.ctxs))

/-- R244, R247, R256, R259, R291, R292, R294 and R296 to R299: the commands on a partition's memory: regions, stage-2
mappings, shared segments, and the retirement of a channel. The model's own readings and choices here: log entries 14,
19. -/
def Obligations.MemoryManagement : Prop :=
  ∀ (s : State) (path : Nat) (t : Taken) (u : Sub), s.Sound →
    let gives := fun (i : Instr) (x : State) (fs : List (List Byte)) => exec i s = .next (x.reply path 0 0 fs)
    let turns := fun (i : Instr) (status detail : Nat) => exec i s = .next (s.reply path status detail [])
    let moving := fun (q : Nat) => s.tableMoves.any (fun m => decide (m.part = q)) = true
    (∀ q, s.InHand path 0x0301 t u → t.part = some q → s.partBusy q = false → let (base, size, mode, die) := (u.num 1, u.num 2, u.num 3, u.num 4)
      base % 2 ^ 21 = 0 → size % 2 ^ 21 = 0 → size ≠ 0 → base + size ≤ 2 ^ 40 → s.regionFits q 512 base size = true → mode ≤ 2 →
      dieOk (s.part q).groups mode die = true → ∀ i, (List.range 64).find? (fun i => (mfind s.regions (64 * q + i)).isNone) = some i →
        let room := s.allocate (.region q i) (decide (mode = 1)) (size / 128) (s.targetLists (s.part q).groups mode die (fun _ => false))
        (room = none → turns (.regionCreate path) 0x12 0) ∧
        (∀ v layout, room = some (v, layout) → ∃ x, gives (.regionCreate path) x [toBytes 1 i] ∧
          x.regions = minsert v.regions (64 * q + i) { base, size, mode, die, layout } ∧ x.allocs = v.allocs ∧ x.hbm = s.hbm)) ∧
    (∀ q r, s.InHand path 0x0302 t u → t.part = some q → u.num 1 < 64 → let key := 64 * q + u.num 1
      mfind s.regions key = some r → u.has 3 = false → u.has 4 = false → let size := (u.num? 2).getD r.size
      size % 2 ^ 21 = 0 → size ≠ 0 → r.base + size ≤ 2 ^ 40 → s.regionFits q key r.base size = true → r.mode ≤ 2 →
      (if r.mode = 0 then dieOk (s.part q).groups 0 r.die = true else r.die = 0) → (∀ j ∈ s.moveJobs, ∀ z m d, j.cause ≠ .change key z m d) →
      (∀ d ∈ s.drains, d.obj ≠ .part q) →
        (size = r.size → gives (.regionChange path) s []) ∧
        (size ≠ r.size → ∃ (v : State) (j : MoveJob), exec (.regionChange path) s = .next (State.startMoves 600 { v with moveJobs := v.moveJobs ++ [j] }) ∧
          j.cause = .change key size r.mode r.die ∧ j.todo = [key] ∧ j.path = some path ∧ v.regions = s.regions ∧ v.hbm = s.hbm)) ∧
    (∀ q r, s.InHand path 0x0303 t u → t.part = some q → let key := 64 * q + u.num 1
      (mfind s.regions key = none → turns (.regionDestroy path) 3 1) ∧
      (mfind s.regions key = some r → u.num 1 < 64 → (s.dropRegion key r).stalled = false → ∃ x, gives (.regionDestroy path) x [] ∧
        (s.moveJobs = [] → mfind x.regions key = none ∧ ∀ k, k ≠ key → mfind x.regions k = mfind s.regions k))) ∧
    (∀ q, s.InHand path 0x0304 t u → u.num 1 = q → q < 8 → (s.part q).live = true → let (ia, pa, size, perm) := (u.num 2, u.num 3, u.num 4, u.num 6)
      let page := ([4096, 65536, 2 ^ 21, 2 ^ 30] : List Nat).getD (u.num 5) 1
      u.num 5 ≤ 3 → ia % page = 0 → ia + size ≤ 2 ^ 48 → pa % page = 0 → pa + size ≤ 2 ^ 52 → size % page = 0 → size ≠ 0 → perm < 8 →
      (bit perm 1 = true → bit perm 0 = true) → perm = 0 ∨ s.pagesOwn q pa size = true →
        (s.partBusy q = true ∨ moving q → turns (.stage2Map path) 2 1) ∧
        (s.partBusy q = false → ¬moving q →
          let left := (s.mapsOf q).flatMap (cutMap ia (ia + size))
          let new := if perm = 0 then left
            else { part := q, ia, pa, size, page, r := bit perm 0, w := bit perm 1, x := bit perm 2 } :: left
          (s.setStage2 q new = none → turns (.stage2Map path) 0x12 0) ∧
          (∀ v, s.setStage2 q new = some v → gives (.stage2Map path) v [] ∧ (∀ e ∈ v.tlb, e.part ≠ q) ∧
            v.stage2 = s.stage2.filter (fun m => decide (m.part ≠ q)) ++ new))) ∧
    (∀ i keeper v layout, s.InHand path 0x0305 t u → u.num 1 = i → u.num 3 = keeper → u.num 5 = 1 → u.has 7 = true → i < 16 →
      (s.seg i).live = false → let size := u.num 2
      size % 2 ^ 21 = 0 → size ≠ 0 → size ≤ 2 ^ 36 → keeper < 8 → (s.part keeper).live = true → s.stackSetOk keeper (u.num 4) = true →
      (u.num? 8).getD 2000 ≤ 100000 → s.partBusy keeper = false →
      s.allocate (.segment i) false (size / 128) (s.segTarget keeper (u.num 4)) = some (v, layout) →
        let x := match v.hostRead 0 0 (u.num 9) size with
          | (w, .data bs) => (((w.fillSeg layout 0 bs (List.range (size / 128))).setSeg i {
              live := true, size, keeper, stackMask := u.num 4, layout, golden := .host (u.num 7), holdUs := (u.num? 8).getD 2000
              filled := true }).powerStacks).reply path 0 0 []
          | (w, _) => ((w.release (.segment i)).release (.segmentCopy i)).reply path 3 9 []
        x.stalled = false → exec (.segCreate path) s = .next x) ∧
    (∀ i q, s.InHand path 0x0306 t u → u.num 1 = i → u.num 2 = q → i < 16 → (s.seg i).live = true → q < 8 → (s.part q).live = true →
      s.partBusy q = false → ¬moving q → let g := s.seg i
      let base := segAddr i 0
      let left := (s.mapsOf q).flatMap (cutMap base (base + g.size))
      let m : S2Map := { part := q, ia := base, pa := base, size := g.size, page := 2 ^ 21, r := true, w := false, x := false }
      (∀ v, u.num 3 = 1 → s.setStage2 q (m :: left) = some v → ∃ x, gives (.segMap path) x [] ∧ (x.seg i).mapped = sinsert g.mapped q ∧
        x.stage2 = v.stage2 ∧ x.hbm = s.hbm) ∧
      (∀ v, u.num 3 = 0 → s.setStage2 q left = some v → (v.dropRange q base g.size).stalled = false → ∃ x, gives (.segMap path) x [] ∧ (x.seg i).mapped = sremove g.mapped q ∧
        x.stage2 = v.stage2)) ∧
    (s.InHand path 0x0307 t u → let i := u.num 1
      let g := s.seg i
      (i < 16 → g.live = true → g.mapped = [] → ∃ x, gives (.segDestroy path) x [] ∧ x.seg i = {} ∧
        ∀ a ∈ x.allocs, a.owner ≠ .segment i ∧ a.owner ≠ .segmentCopy i) ∧
      (16 ≤ i ∨ g.live = false ∨ g.mapped ≠ [] → turns (.segDestroy path) 3 1)) ∧
    (s.InHand path 0x0308 t u → let i := u.num 1
      let line := u.num 2 / 128
      i < 16 → (s.seg i).live = true → u.num 2 % 128 = 0 →
        (mget .good (s.seg i).lines line = .lost → (s.segFromHost i line (u.num 3)).stalled = false →
          gives (.segRepair path) (s.segFromHost i line (u.num 3)) []) ∧
        (mget .good (s.seg i).lines line ≠ .lost → turns (.segRepair path) 3 2)) ∧
    (s.InHand path 0x0309 t u → let ch := u.num 1
      (ch ∈ s.conf.repair.channels → turns (.channelRetire path) 3 1) ∧
      (ch ∉ s.conf.repair.channels → (∃ j ∈ s.moveJobs, j.cause = .retire ch) → turns (.channelRetire path) 2 1) ∧
      (ch ∉ s.conf.repair.channels → (∀ j ∈ s.moveJobs, j.cause ≠ .retire ch) → ∃ (v : State) (j : MoveJob),
        exec (.channelRetire path) s = .next (State.startMoves 600 v) ∧ v.moveJobs = s.moveJobs ++ [j] ∧ j.cause = .retire ch ∧
        j.path = some path ∧ v.regions = s.regions ∧ v.hbm = s.hbm ∧
        ∀ k r, (k, r) ∈ s.regions → (∃ l ∈ r.layout.lists, ∃ pc ∈ l, pc / 2 = ch) → k ∈ v.jobTodo j))

/-- R249, R251, R282 to R286, R296, R300 to R302, R326 and R409: the commands on partitions: creation, a change of
ceilings, removal, the disabling of a partition, port or core, a bandwidth regulator, and the host cores. The model's
own readings and choices here: log entry 19. -/
def Obligations.PartitionCommands : Prop :=
  ∀ (s : State) (path : Nat) (t : Taken) (u : Sub), s.Sound →
    let gives := fun (i : Instr) (x : State) (fs : List (List Byte)) => exec i s = .next (x.reply path 0 0 fs)
    let turns := fun (i : Instr) (status detail : Nat) => exec i s = .next (s.reply path status detail [])
    (∀ p : LayoutPart, s.InHand path 0x0401 t u → u.num 4 ≤ 1 → u.num 8 ≤ 1 → p = {
        part := u.num 1, galleries := u.num 2, groups := u.num 3, onPf0 := decide (u.num 4 = 0), ctxCeiling := u.num 5
        deviceCeiling := u.num 6, fabricCeiling := u.num 7, persist := decide (u.num 8 = 1) } →
      (s.tripped = true → ∃ d, turns (.partCreate path) 3 d) ∧
      ((s.part p.part).live = true → turns (.partCreate path) 3 1) ∧
      (p.part < 8 → (∃ q < 8, q ≠ p.part ∧ (s.part q).live = true ∧ p.galleries &&& (s.part q).galleries ≠ 0) →
        ∃ d, turns (.partCreate path) 3 d) ∧
      (∀ v, s.makePart p = .made v → exec (.partCreate path) s = .next (v.replyStored path []) ∧ v.part p.part = {
          live := true, galleries := p.galleries, groups := p.groups, onPf0 := p.onPf0, ctxCeiling := p.ctxCeiling
          deviceCeiling := p.deviceCeiling, fabricCeiling := p.fabricCeiling, persist := p.persist } ∧
        (∀ g ∈ bitList 20 p.galleries, v.gal g = { st := 3 }) ∧
        mget 0 v.conf.partGens p.part = mget 0 s.conf.partGens p.part + 1 ∧ ∀ q, q ≠ p.part → v.part q = s.part q)) ∧
    (∀ q, s.InHand path 0x0402 t u → u.num 1 = q → q < 8 → let x := s.part q
      let ceiling := (u.num? 4).getD x.ctxCeiling
      let device := (u.num? 5).getD x.deviceCeiling
      let fabric := (u.num? 6).getD x.fabricCeiling
      x.live = true → u.has 2 = false → u.has 3 = false → (u.num? 7).getD 0 ≤ 1 → x.galleries ≠ 0 → x.galleries < 2 ^ 20 → x.groups ≠ 0 →
      x.groups < 2 ^ 32 → x.galleries &&& s.heldBy q (·.galleries) = 0 → x.groups &&& s.heldBy q (·.groups) = 0 →
      (x.onPf0 = true → ∀ p < 8, p ≠ q → (s.part p).live = true → (s.part p).onPf0 = false) →
      s.defaultsFit q x.groups x.galleries = true → s.foreignTables q x.groups = [] → s.partBusy q = false → s.preempting q = false →
      (∀ m ∈ s.tableMoves, m.part ≠ q) →
        (1 ≤ ceiling → ceiling ≤ 32 → device ≤ 1024 → fabric ≤ 256 → ∃ v, gives (.partResize path) v [] ∧ v.part q = { x with
          ctxCeiling := ceiling, deviceCeiling := device, fabricCeiling := fabric
          persist := match u.num? 7 with
            | some b => decide (b = 1)
            | none => x.persist } ∧ v.regions = s.regions ∧ v.hbm = s.hbm ∧ v.ctxs = s.ctxs) ∧
        (32 < ceiling → turns (.partResize path) 3 4) ∧ (1 ≤ ceiling → ceiling ≤ 32 → 1024 < device → turns (.partResize path) 3 5)) ∧
    (∀ q, s.InHand path 0x0403 t u → u.num 1 = q → let us := (u.num? 2).getD 10000
      q < 8 → 1 ≤ us → us ≤ 10000000 →
        ((s.part q).live = true → s.isKeeper q = false → s.partBusy q = false → (∀ n ∈ s.ctxsOf q, (s.ctx n).creditSpace ≠ 0) →
          ∃ x d, exec (.partDestroy path) s = .next x ∧ d ∈ x.drains ∧
          d.obj = .part q ∧ d.after = .partDestroy ∧ d.path = some path ∧ s.now + 1000 * us ≤ d.deadline ∧
          ∀ n ∈ s.ctxsOf q, (x.ctx n).state = .draining) ∧
        ((s.part q).live = false ∨ s.isKeeper q = true → turns (.partDestroy path) 3 1) ∧
        ((s.part q).live = true → s.isKeeper q = false → s.partBusy q = true → turns (.partDestroy path) 2 1)) ∧
    (∀ i, s.InHand path 0x0404 t u → u.num 2 = i → u.num 3 ≤ 1 → u.num 5 ≤ 1 → let us := (u.num? 4).getD 10000
      let kind := u.num 1
      let begun := fun (obj : DrainObj) (after : DrainThen) (x : State) => ∃ d ∈ x.drains, d.obj = obj ∧ d.after = after ∧ d.path = some path ∧
        (d.cut = true ↔ u.num 3 = 1) ∧ s.now + 1000 * us ≤ d.deadline
      1 ≤ us → us ≤ 10000000 →
        (kind = 1 → u.has 5 = false → i < 8 → (s.part i).live = true → s.isKeeper i = false → s.partBusy i = false →
          (∀ n ∈ s.ctxsOf i, (s.ctx n).creditSpace ≠ 0 ∧ (s.ctx n).ringSpace ≠ 0) → ∃ x, exec (.disable path) s = .next x ∧ begun (.part i) .disable x) ∧
        (kind = 2 → u.has 5 = false → i < 8 → (∀ d ∈ s.drains, d.obj ≠ .port i) →
          ∃ x, exec (.disable path) s = .next x ∧ begun (.port i) .disable x ∧ (u.num 3 = 0 → (x.port i).draining = true)) ∧
        (kind = 3 → i < 160 → i ∉ s.retired → (∀ d ∈ s.drains, d.obj ≠ .core i) →
          ∃ x, exec (.disable path) s = .next x ∧ begun (.core i) (if u.num 5 = 1 then .substitute else .disable) x ∧ i ∈ x.coresOut) ∧
        (kind = 0 ∨ 3 < kind → turns (.disable path) 3 1)) ∧
    (∀ q, s.InHand path 0x0405 t u → (if u.num 1 = 0xFF then q = 8 else q = u.num 1 ∧ q < 8 ∧ (s.part q).live = true) → let r := u.num 2
      r < 24 ∨ (q < 8 ∧ 32 ≤ r ∧ r < 40) → 1 ≤ u.num 4 → u.num 4 ≤ 4095 → u.num 5 ≤ 1 →
        (u.num 3 ≤ 1024 → s.rateFits r q (u.num 3) = true → ∃ x, gives (.regSet path) x [] ∧ let b := x.bucket (16 * r + q)
          b.rate = u.num 3 ∧ b.burst = u.num 4 ∧ (b.borrow = true ↔ u.num 5 = 1) ∧ b.byInstaller = true ∧
          (∀ k, k ≠ 16 * r + q → x.bucket k = s.refill.bucket k) ∧ x.ctxs = s.ctxs) ∧
        (1024 < u.num 3 ∨ s.rateFits r q (u.num 3) = false → turns (.regSet path) 3 3)) ∧
    (∀ q, t.part = some q → let h := u.num 1
      let x := mget ({} : HostCore) s.hostCores h
      h < 40 → h ∉ s.conf.repair.hostRetired →
        (s.InHand path 0x0406 t u → h / 2 ∈ s.galleriesOf q → (x.run ≠ 1 → u.num 2 < 2 ^ 48 → ∃ v, gives (.hostcoreBoot path) v [] ∧
            mget ({} : HostCore) v.hostCores h = { run := 1, entry := u.num 2, arg := u.num 3 } ∧ v.cores = s.cores ∧
            ((s.gal (h / 2)).st = 1 ∨ (s.gal (h / 2)).st = 2 → (v.gal (h / 2)).st = 3)) ∧
          (x.run = 1 → turns (.hostcoreBoot path) 3 1)) ∧
        (s.InHand path 0x0407 t u → h / 2 ∈ s.galleriesOf q →
          (x.run = 1 → gives (.hostcoreStop path) { s with hostCores := minsert s.hostCores h { x with run := 2 } } []) ∧
          (x.run ≠ 1 → turns (.hostcoreStop path) 3 1)) ∧
        (h / 2 ∉ s.galleriesOf q → (s.InHand path 0x0406 t u → turns (.hostcoreBoot path) 4 1) ∧
          (s.InHand path 0x0407 t u → turns (.hostcoreStop path) 4 1)))

/-- R303, R305, R311, R327, R328, R332, R350, R385, R412 and R413: the installer's commands on the fabric, on power and
thresholds, the self-test of a resource, and the preparation of a removal. The model's own readings and choices here:
log entries 15, 21, 25, 28. -/
def Obligations.InstallerCommands : Prop :=
  ∀ (s : State) (path : Nat) (t : Taken) (u : Sub), s.Sound →
    let gives := fun (i : Instr) (x : State) (fs : List (List Byte)) => exec i s = .next (x.reply path 0 0 fs)
    let stores := fun (i : Instr) (x : State) (fs : List (List Byte)) => exec i s = .next (x.replyStored path fs)
    let turns := fun (i : Instr) (status detail : Nat) => exec i s = .next (s.reply path status detail [])
    let waits := fun (x : State) => mfind x.taken path = some { t with cur := some { u with stage := .waiting } }
    (s.InHand path 0x0501 t u → let (p, cls, mtu) := (u.num 1, u.num 2, u.num 4)
      (p < 8 → cls ≤ 3 → u.num 3 ≤ 2 → cls = 0 ∨ (1500 ≤ mtu ∧ mtu ≤ 9216) → u.num 5 ≤ 1 →
        ((∀ d ∈ s.drains, d.obj ≠ .port p) → ∃ x d, exec (.portMode path) s = .next x ∧ waits x ∧ x.drains = s.drains ++ [d] ∧ d.obj = .port p ∧
          d.after = .portMode cls (u.num 3) mtu (decide (u.num 5 = 1)) ∧ d.path = some path ∧ x.port p = { s.port p with draining := true } ∧
          ∀ k, k ≠ p → x.port k = s.port k) ∧
        ((∃ d ∈ s.drains, d.obj = .port p) → turns (.portMode path) 2 1)) ∧
      (p < 8 → 3 < cls → turns (.portMode path) 3 2) ∧
      (p < 8 → 1 ≤ cls → cls ≤ 3 → u.num 3 ≤ 2 → mtu < 1500 ∨ 9216 < mtu → turns (.portMode path) 3 4)) ∧
    (s.InHand path 0x0502 t u → let k := u.num 1
      let ip4 := if u.has 3 then u.bytesOf 3 else (s.subPort k).ip4
      (k < 32 → u.num 4 < 64 → (u.bytesOf 2).length = 16 → ip4 = [] ∨ ip4.length = 4 → ∃ x, stores (.fabAddr path) x [] ∧
        x.subPort k = { s.subPort k with ip6 := u.bytesOf 2, ip4 := ip4, dscp := u.num 4 } ∧
        (∀ j, j ≠ k → x.subPort j = s.subPort j) ∧ (x.udpPort = if u.has 5 = true then some (u.num 5) else s.udpPort) ∧
        ∀ a, (x.assoc a).paths = (s.assoc a).paths) ∧
      (32 ≤ k → turns (.fabAddr path) 3 1)) ∧
    (s.InHand path 0x0503 t u → let (a, q) := (u.num 1, u.num 2)
      let old := s.assoc a
      a < 128 → q < 8 → (s.part q).live = true → u.num 3 < 64 → u.num 5 < 8 →
        (old.live = false ∨ old.state = .idle ∨ old.state = .failed → ∃ x, gives (.assocSet path) x [] ∧ let y := x.assoc a
          y.live = true ∧ y.part = q ∧ y.target = u.num 3 ∧ y.peerHash = u.bytesOf 4 ∧ y.peerPart = u.num 5 ∧
          y.peers = chunks20 ((u.bytesOf 6).length / 20) (u.bytesOf 6) ∧ y.keys = [] ∧ (s.seed ≠ none → y.state = .handshake ∧ y.initiator = true) ∧
          x.conf = s.conf ∧ ∀ b, b ≠ a → x.assoc b = s.assoc b) ∧
        (old.live = true → old.state ≠ .idle → old.state ≠ .failed → turns (.assocSet path) 2 1)) ∧
    (s.InHand path 0x0504 t u → let a := u.num 1
      (a < 128 → (s.assoc a).live = true → (s.closeAssoc a).stalled = false → ∃ x, gives (.assocRemove path) x [] ∧ x.assoc a = {} ∧ (∀ b, b ≠ a → x.assoc b = s.assoc b) ∧
        (∀ l ∈ x.ldgMsgs, l.assoc ≠ a) ∧ bit (x.func 0).assoc a = true) ∧
      (128 ≤ a ∨ (s.assoc a).live = false → turns (.assocRemove path) 3 1)) ∧
    (s.InHand path 0x0601 t u → let cap := (u.num? 1).getD s.capW
      let links := (u.num? 2).getD s.floorLinks
      let mem := (u.num? 3).getD s.floorMem
      (links + mem + 450 ≤ cap → inRange (u.num? 1) 1200 3600 = true → inRange (u.num? 2) 200 1000 = true → inRange (u.num? 3) 150 800 = true →
        inRange (u.num? 4) 0 1000 = true → (u.has 5 = true → ∀ q < 8, 1 ≤ field (u.bytesOf 5) (4 * q) 4 ∧ field (u.bytesOf 5) (4 * q) 4 ≤ 100) →
        (u.has 6 = true → ∀ q < 8, let v := field (u.bytesOf 6) (4 * q) 4; v = 0 ∨ (10 ≤ v ∧ v ≤ 10000000)) → ∃ x,
          (u.fields ≠ [] → stores (.powerCap path) x x.capFields) ∧ (u.fields = [] → gives (.powerCap path) x x.capFields) ∧
          x.capW = cap ∧ x.floorLinks = links ∧ x.floorMem = mem ∧ x.paddleUs = (u.num? 4).getD s.paddleUs ∧
          (∀ q < 8, x.shareOf q = (if u.has 5 = true then field (u.bytesOf 5) (4 * q) 4 else s.shareOf q) ∧
            x.retentionUs q = if u.has 6 = true then field (u.bytesOf 6) (4 * q) 4 else s.retentionUs q) ∧ x.gals = s.gals) ∧
      (cap < links + mem + 450 → turns (.powerCap path) 3 1)) ∧
    (s.InHand path 0x0602 t u → let bs := u.bytesOf 1
      let now := fun (x : State) (table : List Byte) => table.length = 128 ∧ ∀ i dflt lo hi, 1 ≤ i → thresholdItem i = some (lo, hi, dflt) →
        field table (8 * (i - 1) + 4) 4 = x.setting i dflt % 2 ^ 32
      (bs = [] → ∃ table, gives (.thresholds path) s [table] ∧ now s table) ∧
      (∀ i v, i < 2 ^ 16 → v < 2 ^ 32 → bs = toBytes 2 i ++ zeros 2 ++ toBytes 4 v →
        (settingOk (i, v) = true → ∃ x table, stores (.thresholds path) x [table] ∧ now x table ∧ mfind x.thresholds i = some v ∧
          ∀ j, j ≠ i → mfind x.thresholds j = mfind s.thresholds j) ∧
        (settingOk (i, v) = false → turns (.thresholds path) 3 1))) ∧
    (s.InHand path 0x0603 t u → let (kind, unit, ms, flags) := (u.num 1, u.num 2, u.num 3, u.num 4)
      let mine := t.part ≠ none ∧ s.unitPart kind unit = t.part
      let begun := fun (x : State) (rest : List SelfTest) (force lent : Bool) => waits x ∧ ∃ d : SelfTest, x.selfTests = rest ++ [d] ∧
        d.kind = kind ∧ d.unit = unit ∧ d.force = force ∧ d.lent = lent ∧ d.path = some path ∧ s.now + 1000000 * ms ≤ d.deadline
      (kind = 0 ∨ 8 < kind → turns (.selfTest path) 3 1) ∧
      (1 ≤ kind → kind ≤ 8 → unitOk kind unit = true →
        (t.role = 1 → ¬mine → turns (.selfTest path) 4 2) ∧ (t.role = 1 → mine → bit flags 1 = true → turns (.selfTest path) 4 4) ∧
        (t.role ≠ 1 → ms = 0 ∨ 60000 < ms → turns (.selfTest path) 3 3) ∧
        (1 ≤ ms → ms ≤ 60000 → flags < 4 →
          (t.role ≠ 1 → bit flags 1 = false → ∃ x, exec (.selfTest path) s = .next x ∧ begun x s.selfTests false false) ∧
          (t.role = 1 → mine → bit flags 1 = false → ∃ x, exec (.selfTest path) s = .next x ∧
            begun x (if bit flags 0 then s.selfTests.map (fun d => if d.kind = kind ∧ d.unit = unit then { d with lent := true } else d)
              else s.selfTests) false true) ∧
          (t.role ≠ 1 → bit flags 1 = true → kind = 1 ∨ kind = 8 → ∃ x, exec (.selfTest path) s = .next x ∧ begun x s.selfTests true false) ∧
          (t.role ≠ 1 → bit flags 1 = true → kind = 2 → s.testFree ⟨2, unit, 0, false, none, false⟩ = false →
            (∀ d ∈ s.drains, d.obj ≠ .core unit) → ∃ (x : State) (d : Drain), exec (.selfTest path) s = .next x ∧ begun x s.selfTests true false ∧
              x.drains = s.drains ++ [d] ∧ d.obj = .core unit ∧ d.after = .selfTest ∧ unit ∈ x.coresOut) ∧
          (∀ q, t.role ≠ 1 → bit flags 1 = true → kind = 3 → s.partOfGallery unit = some q → (s.part q).galleries = 2 ^ unit →
            ∃ x : State, exec (.selfTest path) s = .next (x.reply path 3 2 []) ∧ x.parts = s.parts ∧ x.selfTests = s.selfTests)))) ∧
    (s.InHand path 0x0604 t u → let us := (u.num? 1).getD 10000
      1 ≤ us → us ≤ 10000000 → (∀ d ∈ s.drains, d.after ≠ .removal) →
        ((∀ q ∈ s.liveParts, s.partBusy q = false) → (∀ n, (s.ctx n).state ≠ .free → (s.ctx n).creditSpace ≠ 0) → ∃ x, exec (.prepareRemoval path) s = .next x ∧ x.assocs = s.assocs ∧
          ∀ q ∈ s.liveParts, (∃ d ∈ x.drains, d.obj = .part q ∧ d.after = .removal ∧ d.path = some path ∧ s.now + 1000 * us ≤ d.deadline) ∧
            ∀ n ∈ s.ctxsOf q, (x.ctx n).state = .draining) ∧
        ((∃ q ∈ s.liveParts, s.partBusy q = true) → turns (.prepareRemoval path) 2 0))

/-- R359, R373, R374, R376 and R377: keys, the maker's tokens and identity, and firmware. The outcome of a
cryptographic check stands in the statement as the check itself (log entry 7). The model's own readings and choices
here: log entry 25. -/
def Obligations.SecurityCommands : Prop :=
  ∀ (s : State) (path : Nat) (t : Taken) (u : Sub), s.Sound →
    let gives := fun (i : Instr) (x : State) (fs : List (List Byte)) => exec i s = .next (x.reply path 0 0 fs)
    let stores := fun (i : Instr) (x : State) (fs : List (List Byte)) => exec i s = .next (x.replyStored path fs)
    let turns := fun (i : Instr) (status detail : Nat) => exec i s = .next (s.reply path status detail [])
    (s.InHand path 0x0801 t u → let k := u.num 1
      let held := (s.conf.keys.filter (fun e => decide (e.1 / 256 = k / 256))).length
      (s.seed = none → turns (.keyEnrol path) 5 0) ∧
      (∀ seed, s.seed = some seed →
        (keyIdOk k = false → turns (.keyEnrol path) 3 1) ∧ (keyIdOk k = true → keyInReach t k = false → turns (.keyEnrol path) 4 1) ∧
        (keyIdOk k = true → keyInReach t k = true → mfind s.conf.keys k = none → keyLimit (k / 4096) ≤ held →
          turns (.keyEnrol path) 0x12 1) ∧
        (keyIdOk k = true → keyInReach t k = true → mfind s.conf.keys k ≠ none ∨ held < keyLimit (k / 4096) →
          let agree := Config.hkdf [] seed (textBytes "Exurso agreement v1") 32
          let wrap := (Config.hkdf [] (Config.x25519 agree (u.bytesOf 2)) (textBytes "Mitor key wrap v1") 32).take 32
          exec (.keyEnrol path) s = .next (match Config.gcmOpen wrap (u.bytesOf 3) [] (u.bytesOf 4) with
            | none => s.reply path 3 4 []
            | some key => State.replyStored { s with
                keyLast := merase s.keyLast k
                conf := { s.conf with keys := minsert (merase s.conf.keys k) k key, reserv := merase s.conf.reserv k } } path [])))) ∧
    (s.InHand path 0x0802 t u → let k := u.num 1
      (keyInReach t k = true → mfind s.conf.keys k ≠ none → stores (.keyRevoke path) { s with
        keyLast := merase s.keyLast k
        conf := { s.conf with keys := merase s.conf.keys k, reserv := merase s.conf.reserv k } } []) ∧
      (keyInReach t k = true → mfind s.conf.keys k = none → turns (.keyRevoke path) 3 1) ∧
      (keyInReach t k = false → turns (.keyRevoke path) 4 1)) ∧
    (s.InHand path 0x0803 t u → ∃ x, gives (.makerAllow path) x [] ∧ x.makerAllowed = some x.now ∧ s.now ≤ x.now ∧
      x.conf = s.conf ∧ x.scopes = s.scopes) ∧
    (s.InHand path 0x0804 t u → let token := u.bytesOf 1
      let body := token.take (token.length - 64)
      let seconds := field token 20 4
      let signed : Prop := ∃ key, Config.makerCertKey (body.drop 24) = some key ∧
        Config.ed25519Verify key body (token.drop (token.length - 64)) = true
      ∃ x : State, s.now ≤ x.now ∧ x.conf = s.conf ∧ x.scopes = s.scopes ∧
        let good : Prop := 88 ≤ token.length ∧ field token 0 8 = Config.serial.toNat ∧ s.conf.makerCounter < field token 8 8 ∧ seconds ≤ 86400 ∧
          signed ∧ ∃ at', s.makerAllowed = some at' ∧ x.now ≤ at' + 3600000000000
        (¬good → exec (.makerToken path) s = .next (x.reply path 3 1 [])) ∧
        (good → exec (.makerToken path) s = .next (State.replyStored { x with
          scopes := s.scopes ++ [(field token 16 1 % 4, x.now + 1000000000 * seconds)]
          conf := { s.conf with makerCounter := field token 8 8 } } path [toBytes 8 (x.rtc + 32768 * seconds)]))) ∧
    (s.InHand path 0x0805 t u → (s.scopes = [] → turns (.identityEnrol path) 4 0) ∧
      (s.scopes ≠ [] → stores (.identityEnrol path) { s with
        seed := Config.pufSeed (u.bytesOf 1)
        keyLast := []
        conf := { s.conf with helper := u.bytesOf 1, chain := u.bytesOf 2, keys := [], reserv := [] } } [])) ∧
    (s.InHand path 0x0901 t u → let (at', bs) := (u.num 1, u.bytesOf 2)
      let k := 1 - s.conf.slot
      (s.conf.slot ≤ 1 → rising (mget [] s.fwSlots k) → at' + bs.length ≤ 2 ^ 25 → s.activation = none → ∃ m,
        gives (.fwWrite path) { s with fwSlots := m } [] ∧ mget [] m s.conf.slot = mget [] s.fwSlots s.conf.slot ∧
        ∀ i, mget 0xFF (mget [] m k) i =
          if at' ≤ i ∧ i < at' + bs.length then bs.getD (i - at') 0 else mget 0xFF (mget [] s.fwSlots k) i) ∧
      (2 ^ 25 < at' + bs.length → turns (.fwWrite path) 3 1)) ∧
    (s.InHand path 0x0902 t u → (s.activation ≠ none → turns (.fwActivate path) 2 0) ∧
      (s.activation = none → ∃ (x : State) (a : Activation), x.activation = some a ∧ a.path = path ∧ s.now ≤ a.since ∧ x.running = s.running ∧
        x.conf = s.conf ∧ x.activeMu = s.activeMu ∧ exec (.fwActivate path) s = .next
          (if s.slotBoots (1 - s.conf.slot) = false then s.reply path 3 0 []
           else if s.conf.repair.units ≠ [] then s.reply path 0x13 0 [] else x))) ∧
    (s.InHand path 0x0903 t u → let v := u.num 1
      (v < s.conf.floor → turns (.fwSetFloor path) 3 1) ∧
      (s.conf.floor ≤ v → exec (.fwSetFloor path) s = .next
        (if s.runningImage.1 < v then s.reply path 3 1 []
         else State.replyStored { s with conf := { s.conf with floor := v } } path [])))

/-- R303 to R309, R311, R312 and R333: what happens on the links of the fabric ports: training, the exchange that
assigns lane 8, a lane's failure and its failover, frames that are not accepted, the neighbour protocols, and the
stranger cause. The model's own readings and choices here: log entries 1, 3, 28. -/
def Obligations.LinkCommands : Prop :=
  ∀ s : State, s.Sound →
    let framed := fun (sub code : Nat) (b : List Byte) => s.subExists sub = true ∧ (s.subPort sub).up = true ∧ beField b 0 1 = 1 ∧
      beField b 1 1 = code
    let event := fun (t : State) (port b : Nat) => bit (mget 0 t.portEvents port) b = true
    (∀ sub, let x := s.subPort sub
      let p := s.port (sub / 4)
      (s.subExists sub = true → x.up = false → p.draining = false → p.failed = [] → s.supply = 2 → s.removalPrepared = false →
        ∃ t, exec (.linkUp sub) s = .next t ∧ (t.subPort sub).up = true ∧ event t (sub / 4) 0 ∧ t.ctxs = s.ctxs ∧ t.assocs = s.assocs ∧
          ∃ seed < 256, .laneFrame sub (lanePayload 1 0 ((x.offerSeq + 1) % 256) (sub % 4) seed) ∈ t.out) ∧
      (s.subExists sub = true → x.up = false → ∃ t, exec (.trainRetry sub) s = .next t ∧ x.trainAt + 5000000000 ≤ t.now ∧
        t.subPort sub = { x with trainAt := t.now, ctrs := mset 0 x.ctrs 14 ((mget 0 x.ctrs 14 + 1) % 2 ^ 64) }) ∧
      (s.subExists sub = true → exec (.foreign sub true) s = .next (s.subCount sub 6 1) ∧
        exec (.foreign sub false) s = .next (s.subCount sub 7 1))) ∧
    (∀ sub b, let x := s.subPort sub
      let p := s.port (sub / 4)
      let lane := beField b 2 1
      let mine := p.pattern.map (·.1) = some (sub % 4)
      let free := p.served = none ∨ p.served = some (sub % 4)
      (framed sub 1 b → exec (.offer sub b) s = .next (if p.served = none ∨ p.served = some (sub % 4) then
        (s.setPort (sub / 4) { p with pattern := some (sub % 4, beField b 5 1), txLane := none }).sendLane sub 2 0 (beField b 3 1) 0 else s)) ∧
      (∀ o, framed sub 2 b → x.offerAt = some o → beField b 3 1 = x.offerSeq → p.spare = none → ∃ t v, exec (.accept sub b) s = .next t ∧
        s.now ≤ v ∧ (v ≤ o + 10000000 → t.subPort sub = { x with candAt := some v, offerAt := none }) ∧
        (o + 10000000 < v → t.subPort sub = x) ∧ t.ports = s.ports) ∧
      (framed sub 3 b → mine → free → lane < 8 → s.subOfLane (sub / 4) lane = sub → p.txLane = none ∨ p.txLane = some lane →
        exec (.shadowReq sub b) s = .next ((s.setPort (sub / 4) { p with txLane := some lane }).sendLane sub 4 lane (beField b 3 1) 0)) ∧
      (∀ l n first last on, framed sub 4 b → p.request = some (l, n, first, last, on) → n = beField b 3 1 →
        exec (.shadowOn sub b) s = .next (s.setPort (sub / 4) { p with request := some (l, n, first, last, true) })) ∧
      (∀ l n first last, p.request = some (l, n, first, last, true) → ∃ t, exec (.swapDone sub true b) s = .next t ∧
        t.port (sub / 4) = { p with rxLane := some l, request := none } ∧ event t (sub / 4) 2 ∧
        (sub / 4, 0, l) ∈ t.conf.repair.fabLanes ∧ .laneFrame sub (lanePayload 5 l n (sub % 4) 0) ∈ t.out) ∧
      (framed sub 5 b → p.txLane = some lane → mine → ∃ t, exec (.swapDone sub false b) s = .next t ∧
        t.ports = s.ports ∧ event t (sub / 4) 2 ∧ (sub / 4, 1, lane) ∈ t.conf.repair.fabLanes) ∧
      (∀ l, p.rxLane = some l → p.spare = some (sub % 4) → ∃ t, exec (.shadowOff sub true b) s = .next t ∧
        t.port (sub / 4) = { p with rxLane := none, failed := sremove p.failed l } ∧ event t (sub / 4) 2 ∧
        (∀ m, (sub / 4, 0, m) ∉ t.conf.repair.fabLanes) ∧ .laneFrame sub (lanePayload 6 l 0 (sub % 4) 0) ∈ t.out) ∧
      (framed sub 6 b → p.txLane = some lane → mine → ∃ t, exec (.shadowOff sub false b) s = .next t ∧
        t.port (sub / 4) = { p with txLane := none } ∧ event t (sub / 4) 2 ∧ ∀ m, (sub / 4, 1, m) ∉ t.conf.repair.fabLanes)) ∧
    (∀ port, let p := s.port port
      (p.spare = none → s.upSubs port ≠ [] → ∃ t v, exec (.offerRepeat port) s = .next t ∧ s.now ≤ v ∧
        (∃ k ∈ s.upSubs port, (s.subPort k).offered + 60000000000 ≤ v) ∧ ∀ k ∈ s.upSubs port, let x := s.subPort k
          (x.offered + 60000000000 ≤ v → (t.subPort k).offerSeq = (x.offerSeq + 1) % 256 ∧ v ≤ (t.subPort k).offered) ∧
          (v < x.offered + 60000000000 → t.subPort k = x)) ∧
      (∀ sub c, s.candidate port = some sub → (s.subPort sub).candAt = some c →
        (p.spare = none → p.served = none ∨ p.served = some (sub % 4) → s.now ≤ c + 100000000 → ∃ t, exec (.spareAssign port sub) s = .next t ∧ c + 1000000 ≤ t.now ∧
          t.port port = { p with spare := some (sub % 4) } ∧ ∀ k ∈ s.upSubs port, (t.subPort k).candAt = none) ∧
        (∃ t, exec (.lane8PatternTimeout port) s = .next t ∧ c + 100000000 ≤ t.now ∧ (t.subPort sub).candAt = none ∧ t.ports = s.ports ∧
          ∀ k, (s.upSubs port).find? (fun k => decide (k ≠ sub) && (s.subPort k).candAt.isSome) = some k →
            (t.subPort k).candAt = some t.now)) ∧
      (∀ lane < 8, let sub := 4 * port + lane * p.count / 8;
        p.count ≠ 0 → (s.subPort sub).up = true → lane ∉ p.failed →
          (s.setting 12 1 ≠ 0 → p.spare = some (sub % 4) → p.rxLane = none → p.request = none → ∃ t n v, exec (.laneFail port lane) s = .next t ∧
            n < 256 ∧ t.port port = { p with failed := sinsert p.failed lane, request := some (lane, n, v, v, false) } ∧ event t port 1 ∧
            .laneFrame sub (lanePayload 3 lane n (sub % 4) 0) ∈ t.out ∧ (t.subPort sub).up = true) ∧
          (s.setting 12 1 ≠ 0 → p.spare ≠ some (sub % 4) ∨ p.rxLane ≠ none ∨ p.request ≠ none → ∃ t, exec (.laneFail port lane) s = .next t ∧
            (t.subPort sub).up = false ∧ lane ∈ (t.port port).failed ∧ event t port 1) ∧
          (s.setting 12 1 = 0 → ∃ t, exec (.laneFail port lane) s = .next t ∧ t.ports = s.ports ∧ t.subPorts = s.subPorts)) ∧
      (let sub := 4 * port + p.spare.getD 0;
        p.count ≠ 0 → (s.subPort sub).up = true → 8 ∉ p.failed → s.setting 12 1 ≠ 0 → ∃ t, exec (.laneFail port 8) s = .next t ∧
          (p.rxLane = none → p.request = none → t.port port = { p with spare := none } ∧ (t.subPort sub).up = true) ∧
          (p.rxLane ≠ none ∨ p.request ≠ none → (t.subPort sub).up = false)) ∧
      (∀ l n first last, p.request = some (l, n, first, last, false) → let sub := 4 * port + p.spare.getD 0;
        (first + 100000000 ≤ s.now → (s.subPort sub).up = true → ∃ t, exec (.shadowReqRepeat port) s = .next t ∧ (t.subPort sub).up = false) ∧
        (s.now < first + 100000000 → last < first + 90000000 → ∃ t, exec (.shadowReqRepeat port) s = .next t ∧ last + 10000000 ≤ t.now ∧
          t.port port = { p with request := some (l, n, first, t.now, false) } ∧ .laneFrame sub (lanePayload 3 l n (sub % 4) 0) ∈ t.out)) ∧
      (port < 8 → s.strangers port ≠ p.strangerSum → ∃ t, exec (.strangerAttention port) s = .next t ∧ event t port 3 ∧
        t.port port = { p with strangerAt := some t.now, strangerSum := s.strangers port } ∧
        (∀ c, p.strangerAt = some c → c + 1000000000 ≤ t.now) ∧ t.subPorts = s.subPorts)) ∧
    (∀ f : NetFrame, let x := s.subPort f.sub
      let mine := if f.target.length = 4 then x.ip4 else x.ip6
      let heard := (f.sub, f.ip ++ f.mac) :: s.neighbours.filter (fun e => decide (e.1 ≠ f.sub) || decide (e.2.take f.ip.length ≠ f.ip))
      let answer := fun (kind : Nat) =>
        ({ sub := f.sub, kind, target := f.ip, ip := f.target, mac := be 6 (Config.macBase + f.sub), payload := f.payload } : NetFrame)
      s.subExists f.sub = true → x.up = true → x.ip6 ≠ [] →
        (f.kind = 3 → exec (.arpNdIcmpFrame f) s = .next { s with neighbours := heard }) ∧
        (f.kind < 2 → f.target = mine → f.target ≠ [] → exec (.arpNdIcmpFrame f) s =
          .next { s with neighbours := heard, out := .netAnswer (answer 3) :: s.out }) ∧
        (f.kind = 2 → f.target = mine → f.target ≠ [] → exec (.arpNdIcmpFrame f) s = .next { s with out := .netAnswer (answer 4) :: s.out }) ∧
        (f.target ≠ mine → f.kind < 3 → exec (.arpNdIcmpFrame f) s = .next s))

/-- R312, R314, R317 to R320, R322, R329, R331 and R333: what an arriving KFT packet does. One that fails a check is
dropped and counted under its reason. Of one that is authentic, with a single message in it whose turn it is, the
message is performed, and answered by the segment given; the acknowledgement of a path frees its packets, a probe is
answered, and a confirmation brings the association up. The model's own readings and choices here: log entries 20, 28. -/
def Obligations.PacketCommands : Prop :=
  ∀ (s : State) (k : KftPacket), s.Sound →
    let b := k.bytes
    let typ := beField b 0 1 % 16
    let bad := b.length < (if typ = 4 then 24 else 40) ∨ beField b 0 1 / 16 ≠ 1 ∨ typ = 0 ∨ 4 < typ ∨ 4 ≤ beField b 1 1
    let dropped := fun (i : Nat) => exec (.strangerPacket k) s = .next (s.subCount k.sub i 1)
    let home := fun (e : Nat × Assoc) => e.2.live = true ∧ e.2.ownTag = beField b 4 4
    let opens := fun (typ : Nat) (u : State) (o : Opened) => ∃ t, s.openPacket k = (t, some o) ∧ o.typ = typ ∧ o.confirm = false ∧
      u = t.acceptPacket k o ∧ (u.assoc o.assoc).carries = true
    let one := fun (u : State) (o : Opened) (g : Seg) => opens 1 u o ∧ o.segs = [g] ∧
      (u.assoc o.assoc).rxLow = g.seq ∧ (u.assoc o.assoc).rxDone = [] ∧ (u.assoc o.assoc).rxMsgs = []
    let answers := fun (u t : State) (o : Opened) (g : Seg) => let x := u.assoc o.assoc
      t.assoc o.assoc = { x with sendQ := x.sendQ ++ [g], rxLow := (x.rxLow + 1) % 2 ^ 32 }
    let naks := fun (u t : State) (o : Opened) (g : Seg) (status : Nat) =>
      answers u t o { mop := 10, seq := g.seq, arg := status } ∧ t.hbm = u.hbm ∧ t.slots = u.slots ∧ t.ctxs = u.ctxs
    let mine := fun (u : State) (o : Opened) (g : Seg) (m : OutMsg) => opens 1 u o ∧ o.segs = [g] ∧
      (u.assoc o.assoc).outMsgs.find? (fun m => decide (m.seq = g.seq)) = some m
    (s.udpPort = none ∨ s.subExists k.sub = false → dropped 7) ∧
    (s.udpPort ≠ none → s.subExists k.sub = true →
      (bad → dropped 8) ∧ (¬bad → typ = 4 → exec (.strangerPacket k) s = .next s) ∧
      (¬bad → typ ≠ 4 → (∀ e ∈ s.assocs, ¬home e) → dropped 9) ∧
      (∀ a x, ¬bad → typ ≠ 4 → beField b 4 4 ≠ 0 → (∀ e ∈ s.assocs, home e ↔ e = (a, x)) → (a, x) ∈ s.assocs → x.next = none → x.carries = true →
        ((∀ key ∈ x.keys, key.epoch ≠ beField b 3 1) → dropped 9) ∧
        (∀ key, x.keys = [key] → key.epoch = beField b 3 1 →
          let opened := Config.gcmOpen key.recvKey (key.recvSalt ++ be 8 (beField b 8 8)) (b.take 24) (b.drop 24)
          (opened = none → dropped 10) ∧ (∀ body, opened = some body → key.takes (beField b 8 8) = false → dropped 11)))) ∧
    (∃ t, exec (.msgWrite k) s = .next t ∧ ∀ u o g, one u o g → g.mop = 1 → g.off = 0 → g.data.length = g.total → let x := u.assoc o.assoc
      (u.targetLive x = false ∨ x.allows g.addr g.total (·.w) = false → naks u t o g 0x22) ∧
      (∀ w bs, u.targetLive x = true → x.allows g.addr g.total (·.w) = true → u.vaWrite (kftEngine x.target) g.addr g.data = (w, .ok bs) →
        w.stalled = false → answers u t o { mop := 6, seq := g.seq } ∧ t.hbm = w.hbm)) ∧
    (∃ t, exec (.readReq k) s = .next t ∧ ∀ u o g, one u o g → g.mop = 2 → let x := u.assoc o.assoc
      (u.targetLive x = false ∨ x.allows g.addr g.total (·.r) = false → naks u t o g 0x22) ∧
      (∀ v w bs, s.openPacket k = (v, some o) → v.readHeld o.assoc o.segs = none → u.targetLive x = true →
        x.allows g.addr g.total (·.r) = true → u.remoteRead o.assoc g = (w, .ok bs) → w.stalled = false →
        answers u t o { mop := 3, seq := g.seq, total := g.total, addr := g.addr, data := bs })) ∧
    (∃ t, exec (.msgAtomic k) s = .next t ∧ ∀ u o g, one u o g → g.mop = 4 → let x := u.assoc o.assoc
      (u.targetLive x = false ∨ x.allows g.addr 8 (·.a) = false ∨ 6 < g.arg % 256 → naks u t o g 0x22) ∧
      (u.targetLive x = true → x.allows g.addr 8 (·.a) = true → g.arg % 256 ≤ 6 → g.addr % 8 ≠ 0 → naks u t o g 0x23) ∧
      (∀ op pa w v bs, u.targetLive x = true → x.allows g.addr 8 (·.a) = true → aopOf (g.arg % 256) = some op → g.addr % 8 = 0 →
        u.xlate (kftEngine x.target) g.addr { r := true, w := true } = (w, .ok pa) → (∀ i off, w.locate x.part pa ≠ .segment i off) →
        w.paRead (.io 4) x.part x.target pa 8 = (v, .ok bs) → let old := ofBytes bs
        (∀ new, atomicOp op 8 false old (beField g.data 0 8) (beField g.data 8 8) = some new →
          let y := (v.paWrite (.io 4) x.part x.target pa (toBytes 8 new)).1
          y.stalled = false → answers u t o { mop := 5, seq := g.seq, total := 8, data := be 8 old } ∧ t.hbm = y.hbm) ∧
        (atomicOp op 8 false old (beField g.data 0 8) (beField g.data 8 8) = none → v.stalled = false →
          answers u t o { mop := 5, seq := g.seq, total := 8, data := be 8 old } ∧ t.hbm = v.hbm))) ∧
    (∃ t, exec (.msgLdgArrive k) s = .next t ∧ ∀ u o g, one u o g → g.mop = 7 → let key := 20000 + g.addr % 256
      let y := u.slot key
      (y.mirror = none → y.state ≠ .free → (∃ p ∈ y.subs, p.1 = o.assoc) → let w := u.arrive key y.owner (g.arg % 65536);
        w.stalled = false → t.slot key = w.slot key ∧ t.ctxs = w.ctxs ∧ answers u t o { mop := 6, seq := g.seq }) ∧
      (y.mirror ≠ none ∨ y.state = .free ∨ (∀ p ∈ y.subs, p.1 ≠ o.assoc) → naks u t o g 0x22)) ∧
    (∃ t, exec (.ldgRelease k) s = .next t ∧ ∀ u o g, one u o g → g.mop = 8 → let key := 20000 + g.addr % 256
      let y := u.slot key
      (∀ m, y.mirror = some (o.assoc, m) → g.arg < 2 ^ 32 → let w := (u.setSlot key { y with gen := g.arg, count := g.arg }).releaseSlot key g.arg;
        t.slot key = w.slot key ∧ t.ctxs = w.ctxs ∧ answers u t o { mop := 6, seq := g.seq }) ∧
      (y.mirror = none → naks u t o g 0x22)) ∧
    (∃ t, exec (.ldgLoss k) s = .next t ∧ ∀ u o g, one u o g → g.mop = 9 → let key := 20000 + g.addr % 256
      let y := u.slot key
      (∀ m, y.mirror = some (o.assoc, m) → let w := u.loseSlot key;
        t.slot key = w.slot key ∧ t.ctxs = w.ctxs ∧ answers u t o { mop := 6, seq := g.seq }) ∧
      (y.mirror = none → naks u t o g 0x22)) ∧
    (∃ t, exec (.readResp k) s = .next t ∧ ∀ u o g m, mine u o g m → g.mop = 3 →
      (m.mop ≠ 2 → t = u) ∧
      (∀ w bs, m.mop = 2 → m.entry ≠ none → m.got = [] → g.off = 0 → m.len ≤ g.data.length →
        u.vaWrite (kftEngine m.ctx) m.addr g.data = (w, .ok bs) → let y := w.answered o.assoc { m with got := [(0, g.data.length)] } 0
        y.stalled = false → t = y)) ∧
    (∃ t, exec (.atomicResp k) s = .next t ∧ ∀ u o g m, mine u o g m → g.mop = 5 →
      (m.mop ≠ 4 → t = u) ∧
      (∀ w bs, m.mop = 4 → m.entry ≠ none → u.vaWrite (kftEngine m.ctx) m.addr (toBytes 8 (beField g.data 0 8)) = (w, .ok bs) →
        (w.answered o.assoc m 0).stalled = false → t = w.answered o.assoc m 0)) ∧
    (∃ t, exec (.writeAck k) s = .next t ∧ ∀ u o g m, mine u o g m → g.mop = 6 → m.mop ≠ 2 → m.mop ≠ 4 →
      (u.answered o.assoc m 0).stalled = false → t = u.answered o.assoc m 0) ∧
    (∃ t, exec (.nak k) s = .next t ∧ ∀ u o g m, mine u o g m → g.mop = 10 →
      (u.answered o.assoc m (g.arg % 65536)).stalled = false → t = u.answered o.assoc m (g.arg % 65536)) ∧
    (∃ t, exec (.kftAck k) s = .next t ∧ ∀ u o r, opens 2 u o → o.segs = [] → o.body.length = 20 →
      mfind (u.assoc o.assoc).paths (beField o.body 0 1) = some r →
      ∀ p ∈ (t.assoc o.assoc).sent, p ∈ (u.assoc o.assoc).sent ∧ ¬(p.path = beField o.body 0 1 ∧ p.psn = beField o.body 4 4)) ∧
    (∃ t, exec (.probe k) s = .next t ∧ ∀ u o, opens 3 u o → o.segs = [] → t = u.sendAck o.assoc o.path 1) ∧
    (∃ t, exec (.confirm k) s = .next t ∧ ∀ u o n, s.openPacket k = (u, some o) → o.confirm = true → o.fresh = true → o.typ = 1 →
      (u.assoc o.assoc).next = some n → (t.assoc o.assoc).state = .up ∧ (t.assoc o.assoc).epoch = n.epoch ∧ (t.assoc o.assoc).next = none)

/-- R316, R317, R321 to R324, R331 and R332: how a work entry is taken from its ring and becomes a message, how packets
leave, and the timers of paths and segments. The model's own readings and choices here: log entries 1, 2, 28, 35. -/
def Obligations.SendCommands : Prop :=
  ∀ s : State, s.Sound →
    (∀ (ctx queue : Nat) (u : State) (e : List Byte), let q := s.sendQueue (8 * ctx + queue)
      let size := 2 ^ q.log2
      let x := s.assoc q.assoc
      let op := field e 0 1
      let runs := [(1, Instr.remoteWrite ctx queue), (2, Instr.remoteRead ctx queue), (3, Instr.remoteAtomic ctx queue),
        (4, Instr.remoteLandingArrive ctx queue)]
      q.live = true → q.stopped = false → q.awake = true → q.entries = [] → x.outMsgs.length < 4096 →
      s.vaRead (kftEngine ctx) (q.ring + 64 * (q.taken % size)) 64 = (u, .ok e) → u.stalled = false → let u := u.dropHeld (ringReader ctx queue)
        (field e 1 1 % 2 = q.taken / size % 2 → ∀ r ∈ runs, exec r.2 s = .next (u.setSendQueue (8 * ctx + queue) { q with awake := false })) ∧
        (field e 1 1 % 2 ≠ q.taken / size % 2 → entryOk e = true → x.live = true → x.state ≠ .failed → x.state ≠ .idle →
          let w : WorkEntry := { k := q.taken, no := u.nextWork, bytes := e, held := false, sent := true }
          let taken : State := { u.setSendQueue (8 * ctx + queue) { q with taken := q.taken + 1, entries := [w] } with
            nextWork := u.nextWork + 1, kftOpen := u.kftOpen ++ [(ctx, u.nextWork)] }
          ∀ r ∈ runs, r.1 = op → ∀ v bs,
            (if op = 1 then taken.vaRead (kftEngine ctx) (field e 8 8) (field e 4 4) = (v, .ok bs)
              else v = taken ∧ bs = if op = 3 then be 8 (field e 24 8) ++ be 8 (field e 32 8) else []) → v.stalled = false →
            ∃ t, exec r.2 s = .next t ∧ (t.sendQueue (8 * ctx + queue)).taken = q.taken + 1 ∧
              (t.sendQueue (8 * ctx + queue)).entries = [w] ∧ t.hbm = v.hbm ∧
              (t.assoc q.assoc).nextSeq = (x.nextSeq + 1) % 2 ^ 32 ∧ (t.assoc q.assoc).outMsgs.length = x.outMsgs.length + 1 ∧
              (t.assoc q.assoc).sendQ = x.sendQ ++ [{
                mop := if op = 1 then 1 else if op = 2 then 2 else if op = 3 then 4 else 7, seq := x.nextSeq
                total := if op ≤ 2 then field e 4 4 else if op = 3 then 16 else 0, addr := field e 16 8
                arg := if op = 3 then field e 2 1 else if op = 4 then field e 24 8 else 0, data := bs }])) ∧
    (∀ a room, ∃ t, exec (.kftSend a room) s = .next t ∧ let u := s.queueLandings a
      let x := u.assoc a
      let ready := x.paths.filter (fun e => u.pathReady x e.1)
      (x.carries = false ∨ ready = [] → t = u) ∧
      (∀ path fed k key keys g, x.carries = true → spray ready = some (path, fed) → mfind fed path = some k → x.keys = key :: keys → x.retxQ = [] →
        x.sendQ = [g] → (u.bucket (16 * (32 + k.sub / 4) + x.part)).burst = 0 → 32 + g.data.length ≤ room →
        32 + g.data.length ≤ (u.port (k.sub / 4)).mtu - (if k.peer.length = 4 then 20 else 40) - 8 - 40 →
        u.pathReady x path = true ∧ (t.assoc a).sendQ = [] ∧ (t.assoc a).txPkts = (x.txPkts + 1) % 2 ^ 64 ∧ ∃ p, (t.assoc a).sent = x.sent ++ [p] ∧ p.path = path ∧
          p.psn = k.psn ∧ p.segs = [g] ∧ u.now ≤ p.at' ∧ ∃ f, t.out = .frame (k.sub / 4) (k.sub % 4) f :: u.out)) ∧
    (∀ a path c, (mget ({} : RxPath) (s.assoc a).rxPaths path).since = some c →
      exec (.ackDelay a path) s = .next ((s.until (c + 5000)).sendAck a path 0)) ∧
    (∀ a path psn p k, let x := s.assoc a
      mfind x.paths path = some k →
      x.sent.find? (fun p => decide (p.path = path) && decide (p.psn = psn)) = some p → ∃ t k', exec (.retxTimer a path psn) s = .next t ∧
        p.at' + p.timer ≤ t.now ∧ t.assoc a = { x with
          paths := minsert x.paths path k', sent := x.sent.filter (fun q => decide (q ≠ p))
          retxQ := if p.segs = [] then x.retxQ else x.retxQ ++ [{ p with timer := min 10000000 (2 * p.timer) }] } ∧
        (k.changed + k.srtt ≤ t.now → k' = { k with rate := max (1 / 10) (k.rate * (1 / 2)), changed := t.now, good := 0, incr := 1 / 200 }) ∧
        (t.now < k.changed + k.srtt → k' = k)) ∧
    (∀ a path psn p, let x := s.assoc a
      (x.sent ++ x.retxQ).find? (fun p => decide (p.path = path) && decide (p.psn = psn) && decide (p.segs ≠ [])) = some p →
      ((s.until (p.first + 100000000)).endAssoc a .failed 0x25).stalled = false → ∃ t, exec (.segmentTimeout a path psn) s = .next t ∧ p.first + 100000000 ≤ t.now ∧ (t.assoc a).state = .failed ∧ (t.assoc a).keys = [] ∧
        (t.assoc a).sent = [] ∧ (t.assoc a).outMsgs = [] ∧ bit (t.func 0).assoc a = true) ∧
    (∀ a path k key keys, let x := s.assoc a
      mfind x.paths path = some k → x.keys = key :: keys → x.carries = true → (s.subPort k.sub).up = true → x.moving path = false →
      (s.until (k.probeAt + 100000000)).keyUsable key = true → ∃ t k', exec (.probeTimer a path) s = .next t ∧ mfind (t.assoc a).paths path = some k' ∧ k.probeAt + 100000000 ≤ k'.probeAt ∧
        k'.unanswered = k.unanswered + 1 ∧ k'.live = (k.live && decide (k.unanswered < 3)) ∧ k'.psn = (k.psn + 1) % 2 ^ 32 ∧
        ∃ f, t.out = .frame (k.sub / 4) (k.sub % 4) f :: s.out) ∧
    (∀ a path k rest, let x := s.assoc a
      x.pathMove = (path, k) :: rest → ∃ t, exec (.pathMove a path) s = .next t ∧ (∀ b, b ≠ a → t.assoc b = s.assoc b) ∧
        (∀ new, k = some new → t.assoc a = { x with
          paths := minsert x.paths path (match mfind x.paths path with
            | some old => { new with psn := old.psn }
            | none => new)
          pathMove := rest }) ∧
        (k = none → (t.assoc a).paths = merase x.paths path ∧ (t.assoc a).pathMove = rest ∧ ∀ p ∈ (t.assoc a).sent, p ∈ x.sent ∧ p.path ≠ path))

/-- R328 to R333: handshakes: a `HELLO` and a `REPLY` that pass their checks, those that fail, a `CLOSE`, the start and
the time limit of a new epoch, and the end of the old one's keys. The model's own readings and choices here: log entry
28. -/
def Obligations.HandshakeCommands : Prop :=
  ∀ s : State, s.Sound →
    (∀ (h : Handshake) (u : State) (reaches : Bool), let k := h.pkt
      s.subExists k.sub = true → (s.subPort k.sub).up = true → s.udpPort ≠ none → s.hsArrive k = (u, reaches) →
      (k.head.verType ≠ 0x14 ∨ 4 ≤ k.head.flags → reaches = false ∧ u = s.subCount k.sub 8 1) ∧
      (k.head.verType = 0x14 → k.head.flags < 4 → (s.subPort k.sub).hsCount < 1000 → reaches = true) ∧
      (reaches = false → exec (.hello h) s = .next u ∧ exec (.reply h) s = .next u ∧ ∀ b, exec (.close k b) s = .next u) ∧
      (reaches = true →
        (u.hsAssoc h [] = none → exec (.hello h) s = .next (u.hsCountUp k.sub false)) ∧
        (∀ a pub key, u.hsAssoc h [] = some (a, pub) → u.partKey (u.assoc a).part = some key → let x := u.assoc a
          x.keys = [] → x.state ≠ .failed → x.hello = [] → h.tag ≠ 0 → ∃ t, exec (.hello h) s = .next t ∧ let y := t.assoc a
            y.state = .handshake ∧ y.initiator = false ∧ y.ownTag ≠ 0 ∧ y.peerPub = pub ∧
            (∃ n, y.next = some n ∧ n.epoch = h.epoch ∧ n.tag = h.tag) ∧ (∀ b, b ≠ a → t.assoc b = u.assoc b) ∧
            ∀ i p rest, u.freePaths x = (i, p) :: rest → frameSize p.peer (24 + y.reply.length) ≤ (u.port (p.sub / 4)).mtu + 18 →
              ∃ f, t.out = .frame (p.sub / 4) (p.sub % 4) f :: u.out) ∧
        (let x := u.assoc h.assoc;
          (u.hsAssoc h x.hello = none → exec (.reply h) s = .next (u.hsCountUp k.sub false)) ∧
          (∀ pub, u.hsAssoc h x.hello = some (h.assoc, pub) → x.initiator = true → x.hello ≠ [] → x.next = none → h.epoch = x.newEpoch →
            h.tag ≠ 0 → ∃ t, exec (.reply h) s = .next t ∧ (t.assoc h.assoc).peerPub = pub ∧
              ∃ n, (t.assoc h.assoc).next = some n ∧ n.epoch = h.epoch ∧ n.tag = h.tag)) ∧
        ∀ b : CloseBody, let x := u.assoc b.assoc
          let good := hsHeadOk k.head = true ∧ x.live = true ∧ x.state ≠ .idle ∧ x.state ≠ .failed ∧
            Config.ed25519Verify x.peerPub (x.earlier ++ closeFields b.assoc b.reason) b.sig = true
          (¬good → exec (.close k b) s = .next (u.hsCountUp k.sub false)) ∧
          (good → (u.endAssoc b.assoc .idle b.reason).stalled = false → ∃ t, exec (.close k b) s = .next t ∧
            (t.assoc b.assoc).state = .idle ∧ (t.assoc b.assoc).keys = [] ∧ (t.assoc b.assoc).outMsgs = [] ∧ bit (t.func 0).assoc b.assoc = true))) ∧
    (∀ a key keys, let x := s.assoc a
      x.keys = key :: keys → x.state = .up → s.seed ≠ none → ∃ t, exec (.rekeyStart a) s = .next t ∧ (t.assoc a).state = .rekeying ∧
        (t.assoc a).initiator = true ∧ (t.assoc a).keys = x.keys ∧ (t.assoc a).next = none ∧
        (key.ctr < 2 ^ 31 → key.born + 82800000000000 ≤ t.now)) ∧
    (∀ a, (s.assoc a).live = true → (s.assoc a).state = .rekeying →
      ((s.until ((s.assoc a).began + 10000000000)).endAssoc a .failed 0x25).stalled = false → ∃ t, exec (.rekeyTimeout a) s = .next t ∧
      (s.assoc a).began + 10000000000 ≤ t.now ∧ (t.assoc a).state = .failed ∧ (t.assoc a).keys = [] ∧ bit (t.func 0).assoc a = true) ∧
    (∀ a key old rest, let x := s.assoc a
      x.keys = key :: old :: rest → exec (.oldEpochErase a) s = .next ((s.until x.oldUntil).setAssoc a { x with keys := [key] }))

/-- R351, R361, R368, R376, R381, R432, R433, R437, R438 and R442: the power-on sequence up to Mitor's readiness, the
power-enable pin, the loss of the input, the lockout and the recovery from it, and Mitor's soft reset. The model's own
readings and choices here: log entries 2, 17, 22. -/
def Obligations.StartUpCommands : Prop :=
  ∀ s : State, s.Sound →
    let flash := fun (t : State) => t.curBank = s.curBank ∧ t.bank t.curBank = s.bank s.curBank ∧ t.fwSlots = s.fwSlots
    let lost := fun (t : State) => t.pwrGood = false ∧ t.linkUp = false ∧ t.hbm = [] ∧ t.ctxs = [] ∧ t.parts = [] ∧ t.cores = [] ∧
      t.regions = [] ∧ t.segs = [] ∧ t.slots = [] ∧ t.funcs = []
    let open' := fun (t : State) => t.supply = 2 ∧ t.pwrGood = true
    (∀ pwrEn, s.supply = 0 → ∃ t, exec (.powerOn pwrEn) s = .next t ∧ t.mitorUp = false ∧ t.bankA = s.bankA ∧ t.bankB = s.bankB ∧
        t.fwSlots = s.fwSlots ∧
      (s.bankA.valid = false → s.bankB.valid = false → t.bootStopped = true ∧ t.supply = 1 ∧ lost t) ∧
      (∀ d : StoreData, (s.bankA.valid = true ∧ (s.bankB.valid = false ∨ s.bankB.seq ≤ s.bankA.seq) ∧ d = s.bankA.data) ∨
          (s.bankB.valid = true ∧ (s.bankA.valid = false ∨ s.bankA.seq < s.bankB.seq) ∧ d = s.bankB.data) →
        let at' : State := { s with conf := d }
        t.retired = d.retired ∧ t.thresholds = d.thresholds ∧ t.boots = d.boots + 1 ∧ t.seed = Config.pufSeed d.helper ∧
        t.conf = { d with slot := t.conf.slot } ∧
        t.keyLast = d.keys.map (fun k => (k.1, mget 0 d.reserv k.1 + 2 ^ 20)) ∧ (d.repair.units = [] → t.activeMu = 0) ∧
        (at'.slotBoots d.slot = true → t.conf.slot = d.slot ∧ t.running = mget [] s.fwSlots d.slot ∧ t.bootStopped = false) ∧
        (at'.slotBoots d.slot = false → at'.slotBoots (1 - d.slot) = true → t.conf.slot = 1 - d.slot ∧
          t.running = mget [] s.fwSlots (1 - d.slot) ∧ t.bootStopped = false) ∧
        (at'.slotBoots d.slot = false → at'.slotBoots (1 - d.slot) = false → t.bootStopped = true ∧ t.supply = 1 ∧ t.pwrGood = false) ∧
        (t.bootStopped = false → (pwrEn = true → open' t) ∧ (pwrEn = false → t.supply = 1 ∧ t.pwrGood = false)))) ∧
    (s.mitorUp = false → s.bootStopped = false → s.musLost = false →
      (s.supply = 1 → ∃ t, exec .mitorReady s = .next t ∧ t.mitorUp = true ∧ t.mitorReady = s.mitorReady ∧ t.supply = 1 ∧
        (s.boots ≠ (s.bank s.curBank).data.boots → s.writing = none → t.writing = some s.snapshot)) ∧
      (s.supply = 2 → s.layoutDue = false → ∃ t, exec .mitorReady s = .next t ∧ t.mitorUp = true ∧ t.mitorReady = true ∧
        (t.func 0).attnMask = 0x60100 ∧ (∀ fn < 9, bit (t.func fn).mbx 4 = true ∧ bit (t.func fn).summary 3 = true) ∧ t.parts = s.parts)) ∧
    (s.supply = 1 → s.bootStopped = false → s.lockout = false → ∃ t, exec .pwrEnAssert s = .next t ∧ t.pwrEn = true ∧ open' t) ∧
    (s.supply = 0 → exec .pwrEnAssert s = .next { s with pwrEn := true } ∧ exec .pwrEnDeassert s = .next { s with pwrEn := false }) ∧
    (s.supply = 2 → ∃ t, exec .pwrEnDeassert s = .next t ∧ t.pwrEn = false ∧ t.supply = 1 ∧ lost t ∧ flash t ∧ t.mitorUp = s.mitorUp ∧
      ∀ q ∈ s.liveParts, (s.evlog 0).events.length + 16 ≤ 1024 →
        ∃ v, logEntry 5 v (toBytes 2 7 ++ zeros 2 ++ toBytes 4 q) ∈ (t.evlog 0).events) ∧
    (s.supply ≠ 0 → ∃ t, exec .supplyLoss s = .next t ∧ t.supply = 0 ∧ lost t ∧ flash t ∧ t.bankA = s.bankA ∧
      t.bankB = s.bankB ∧ t.audit = s.audit ∧ t.writing = none ∧
      t.mitorUp = false ∧ t.logs = []) ∧
    (s.supply ≠ 0 → s.lockout = false → (66000 < s.readings.vin ∨ s.readings.vin < 36000) → ∃ t, exec .supplyLockout s = .next t ∧
      t.lockout = true ∧ t.attnLow = true ∧ t.supply = 1 ∧ lost t ∧ flash t ∧ t.mitorUp = s.mitorUp ∧
      ∃ v, logEntry 5 v (toBytes 2 6 ++ zeros 2 ++ toBytes 4 0) ∈ (t.evlog 0).events) ∧
    (∀ since, s.goodSince = some since → s.lockout = true → ∃ t, exec .lockoutRecovery s = .next t ∧ t.lockout = false ∧
      since + 100000000 ≤ t.now ∧ (s.pwrEn = true → s.bootStopped = false → open' t) ∧ (s.pwrEn = false → t.supply = s.supply)) ∧
    (s.supply ≠ 0 → s.bootStopped = false → s.musLost = false → ∃ t v, exec .mitorSoftReset s = .next t ∧ s.now ≤ v ∧
      t.mitorUp = false ∧ t.mitorReady = false ∧ t.writing = none ∧ (s.writing ≠ none → t.storeDirty = true) ∧ t.parts = s.parts ∧
      t.cores = s.cores ∧ t.hbm = s.hbm ∧ t.linkUp = s.linkUp ∧
      (s.softResets = [] → t.softResets = [v] ∧
        (s.slotBoots s.conf.slot = true → t.conf.slot = s.conf.slot ∧ t.running = mget [] s.fwSlots s.conf.slot)) ∧
      (2 ≤ (s.softResets.filter (fun x => decide (v < x + 3600000000000))).length → s.slotBoots (1 - s.conf.slot) = true →
        t.conf.slot = 1 - s.conf.slot ∧ t.running = mget [] s.fwSlots (1 - s.conf.slot) ∧ t.softResets = []))

/-- R340, R354, R440 and R441, Table 18-2: the resets that the host makes: `PERST_N`, a function-level reset of a VF,
and one of PF0. The model's own readings and choices here: log entry 22. -/
def Obligations.ResetCommands : Prop :=
  ∀ s : State, s.Sound →
    let blank := fun (t : State) (fn : Nat) => (∃ h, t.func fn = { hidden := h }) ∧ ∀ b ∈ attBlocks, t.causeReg fn b = 0
    (s.perstN = true →
      (s.supply ≠ 2 → exec .perstNAssert s = .next { s with perstN := false, linkUp := false, numVfs := 0 }) ∧
      (s.supply = 2 → s.Flows → (∀ k, (s.sendQueue k).entries = []) →
        (∀ n, (s.ctx n).state ≠ .free → (s.part (s.ctx n).part).persist = false ∨ (s.ctx n).creditSpace = 1 ∨ (s.ctx n).ringSpace = 1 →
          s.CutsAtOnce n) →
        ∃ t, exec .perstNAssert s = .next t ∧ t.perstN = false ∧ t.linkUp = false ∧ t.numVfs = 0 ∧ t.supply = 2 ∧
        (∀ q < 8, (s.part q).live = true → (s.part q).persist = true → (t.part q).live = true) ∧
        (∀ q < 8, (s.part q).persist = false → (∀ p ∈ s.conf.layout, p.part ≠ q) → (t.part q).live = false) ∧
        (∀ n < 64, (s.ctx n).creditSpace = 1 ∨ (s.ctx n).ringSpace = 1 → (t.ctx n).state = .free) ∧
        (s.conf.layout = [] → (∀ fn < 9, blank t fn) ∧ ∀ p < 11, t.mbox p = {}))) ∧
    (∀ vf, vf ≠ 0 → s.fnPresent vf = true → s.perstN = true → (∀ q, s.partOf vf = some q → ∀ n ∈ s.ctxsOf q, s.CutsAtOnce n) →
      ∃ t, exec (.flrVf vf) s = .next t ∧ blank t vf ∧ t.mbox vf = {} ∧
      t.numVfs = s.numVfs ∧ t.linkUp = s.linkUp ∧ ∀ q, s.partOf vf = some q →
        (t.part q).debugOpen = false ∧ (t.part q).live = true ∧ ∀ n ∈ s.ctxsOf q, (t.ctx n).state = .free) ∧
    (s.fnPresent 0 = true → s.perstN = true → (∀ q, s.partOf 0 = some q → ∀ n ∈ s.ctxsOf q, s.CutsAtOnce n) →
      ∃ t, exec .flrPf0 s = .next t ∧ blank t 0 ∧ t.mbox 0 = {} ∧ t.mbox 9 = {} ∧ t.mbox 10 = {} ∧ t.numVfs = 0 ∧ t.linkUp = s.linkUp ∧ ∀ q, s.partOf 0 = some q →
        (t.part q).debugOpen = false ∧ (t.part q).live = true ∧ ∀ n ∈ s.ctxsOf q, (t.ctx n).state = .free)

/-- R382 to R386, R389 to R392, R395 and R397: what the power commands do: a rail's throttle and its release, a droop's
stretch, the allocation of the module cap, a step of a gallery's paddle floor or rise limit, and the sleep states of
galleries, management units, stacks and die uncores. The model's own readings and choices here: log entries 1, 24, 26. -/
def Obligations.PowerCommands : Prop :=
  ∀ s : State, s.Sound →
    let told := fun (t : State) (b : Nat) => bit (t.func 0).power b = true
    let held := fun (t : State) (g i d c : Nat) => (t.gal g).floorStep = 0 ∧ (t.gal g).rising = false ∧
      (t.gal g).limits = mset (16, 4000) (mset (16, 4000) (s.gal g).limits i (d, c)) 5 (16, 4000)
    let work := fun (t : State) => t.ctxs = s.ctxs ∧ t.cores = s.cores ∧ t.hbm = s.hbm ∧ t.parts = s.parts
    (∀ rail, (rail < 4 → ∃ t, exec (.railThrottle rail) s = .next t ∧ told t 1 ∧ work t ∧
        ∀ g ∈ s.dieGals rail, ∃ d c, 1 ≤ d ∧ d ≤ 16 ∧ 800 ≤ c ∧ c ≤ 4000 ∧ held t g 3 d c) ∧
      (8 ≤ rail → rail < 12 → ∃ t, exec (.railThrottle rail) s = .next t ∧ told t 1 ∧ work t ∧ t.gals = s.gals ∧
        t.railSteps = mset 0 s.railSteps rail (min 28 (mget 0 s.railSteps rail + 1))) ∧
      (15 ≤ rail → rail < 23 → ∃ t, exec (.railThrottle rail) s = .next t ∧ told t 1 ∧ work t ∧ t.gals = s.gals ∧
        t.railSteps = mset 0 s.railSteps rail (min 7 (mget 0 s.railSteps rail + 1))) ∧
      (4 ≤ rail → exec (.throttleReleaseStep rail) s =
        .next { s with railSteps := mset 0 s.railSteps rail (mget 0 s.railSteps rail - 1) }) ∧
      (rail < 4 → ∃ t, exec (.throttleReleaseStep rail) s = .next t ∧ work t ∧ ∀ g ∈ s.dieGals rail, ∀ d c,
        mfind (s.gal g).limits 3 = some (d, c) →
          t.gal g = { s.gal g with limits := mset (16, 4000) (s.gal g).limits 3 (min 16 (d + 1), min 4000 (c + 100)) })) ∧
    (∀ g, (s.gal g).st ≠ 0 →
      exec (.droopStretch g true) s = .next { s with stretched := sinsert s.stretched g } ∧
      exec (.droopStretch g false) s = .next { s with stretched := sremove s.stretched g }) ∧
    (∀ d1 d2 iin draws, ∃ t, exec (.powerAllocation d1 d2 iin draws) s = .next t ∧ s.allocAt + 10000 ≤ t.allocAt ∧ work t ∧
      t.readings.iin = iin ∧ t.readings.classPower = [10 * d1, 10 * d2, 10 * sum draws] ∧
      let cap := s.capSet 1 0 3200
      let floorMem := s.capSet 3 0 350
      let b1 := max (s.capSet 2 0 400) d1
      let avail := cap - cap / 50
      (b1 + floorMem + 450 ≤ avail →
        let b2 := max floorMem (min (d2 + cap / 100) (avail - b1 - 450))
        (d2 ≤ b2 → t.memStep = 0) ∧ (b2 < d2 → 1 ≤ t.memStep ∧ t.memStep ≤ 7)) ∧
      (avail < d1 + floorMem + 450 → told t 0 ∧ ∀ q < 8, ∀ g ∈ s.galleriesOf q, (s.gal g).st ≠ 0 →
        mget (16, 4000) (t.gal g).limits 2 = (1, 800))) ∧
    (∀ g, (s.gal g).floorStep ≠ 0 → ∃ t, exec (.paddleStep g) s = .next t ∧ (s.gal g).stepAt + 1000 * s.paddleUs / 16 ≤ t.now ∧ work t ∧
      let x := s.gal g
      (x.rising = true → x.floorStep < 15 → (t.gal g).floorStep = x.floorStep + 1 ∧ (t.gal g).rising = true) ∧
      (x.rising = false → x.floorStep ≠ 1 → t.gal g = { x with floorStep := x.floorStep - 1, stepAt := t.now }) ∧
      ((x.rising = true ∧ 15 ≤ x.floorStep) ∨ (x.rising = false ∧ x.floorStep = 1) → (t.gal g).floorStep = 0 ∧ (t.gal g).rising = false ∧
        (t.gal g).idleAt = t.now) ∧
      (x.rising = true → t.paddleEnergy = s.paddleEnergy)) ∧
    (∀ g, (s.gal g).st = 3 → s.galIdle g = true → ∃ t, exec (.clockGateEntry g) s = .next t ∧ work t ∧ (s.gal g).idleAt + 1000 ≤ t.now ∧
      t.gal g = { s.gal g with st := 2, gatedAt := t.now }) ∧
    (∀ g q, s.partOfGallery g = some q → (s.gal g).st = 2 → s.capSet 6 q 1000 ≠ 0 → ∃ t, exec (.retentionEntry g) s = .next t ∧ work t ∧
      (s.gal g).gatedAt + 1000 * s.capSet 6 q 1000 ≤ t.now ∧ t.gal g = { s.gal g with st := 1 }) ∧
    (∀ g, (s.gal g).st = 1 ∨ (s.gal g).st = 2 → ∃ t, exec (.galleryWake g) s = .next t ∧ work t ∧
      t.gal g = { s.gal g with st := 3, idleAt := t.now }) ∧
    (s.mitorUp = true → s.taken = [] → s.writing = none → (∀ e ∈ s.mailboxes, e.2.post = true → e.2.owner = true ∨ e.2.respPost = true) → exec .muSleep s = .next { s with muAsleep := true }) ∧
    exec .muWake s = .next { s with muAsleep := false } ∧
    (∀ k, let x := s.stack k
      (x.power = 3 → exec (.stackPowerDown k) s = .next ((s.until (x.lastUse + 1000)).setStack k { x with power := 2 })) ∧
      (x.power = 2 → exec (.stackPowerDown k) s = .next ((s.until (x.lastUse + 1000000)).setStack k { x with power := 1 }))) ∧
    (∀ die < 4, (s.dieGals die ≠ [] ∨ (s.stack (2 * die)).power ≠ 0 ∨ (s.stack (2 * die + 1)).power ≠ 0) →
      exec (.uncoreIdleEntry die) s = .next { s with uncoreIdle := sinsert s.uncoreIdle die })

/-- R260, R381, R398 and R399: what the reports of sensors do: the actions of Tables 15-2 and 15-8 on the temperature
of a die or of a stack, on the coolant and on the input voltage, and the thermal trip. The model's own readings and
choices here: log entry 26. -/
def Obligations.ThermalCommands : Prop :=
  ∀ s : State, s.Sound →
    let told := fun (t : State) (b : Nat) => bit (t.func 0).power b = true
    let held := fun (t : State) (die d : Nat) => ∀ g ∈ s.dieGals die,
      (t.gal g).limits = mset (16, 4000) (mset (16, 4000) (s.gal g).limits 4 (d, 800)) 5 (16, 4000)
    let lost := fun (t : State) => t.tripped = true ∧ told t 3 ∧ t.hbm = [] ∧ t.cores = [] ∧ t.gals = [] ∧ t.linkUp = s.linkUp ∧
      ∀ q < 8, (t.part q).live = false
    (∀ (die : Nat) (temp : Int), die < 5 → ∃ t, exec (.thermalSample die temp) s = .next t ∧ s.now ≤ t.now ∧
      let old := (mfind s.readings.dieTemp die).getD 0
      let x := s.dieHeat die
      let due := x.stepAt = 0 ∨ x.stepAt + 100000 ≤ s.now
      (temp < 1200 → t.readings.dieTemp = mset 0 s.readings.dieTemp die temp ∧ t.ctxs = s.ctxs ∧ t.hbm = s.hbm ∧ t.cores = s.cores) ∧
      (1200 ≤ temp → s.tripped = false → lost t) ∧
      (1000 ≤ temp → temp < 1200 → old < 1000 → told t 2) ∧
      (1100 ≤ temp → temp < 1200 → old < 1100 → told t 3) ∧
      (die < 4 → 1100 ≤ temp → temp < 1200 → (t.dieHeat die).crit = true ∧ held t die 4) ∧
      (die < 4 → 1000 ≤ temp → temp < 1100 → x.crit = false → x.held = [] → due → ∀ g ∈ s.dieGals die,
        mget (16, 4000) (t.gal g).limits 4 = (16, max 800 ((s.gal g).clock - 100))) ∧
      (die < 4 → temp ≤ 970 → x.crit = false → x.held = [] → due → ∀ g ∈ s.dieGals die, ∀ d c, mfind (s.gal g).limits 4 = some (d, c) →
        t.gal g = { s.gal g with limits := mset (16, 4000) (s.gal g).limits 4 (16, min 4000 (c + 100)) }) ∧
      (die < 4 → 970 < temp → temp < 1000 → x.crit = true → held t die 16) ∧
      (die = 4 → 1000 < temp → temp < 1200 → due → (t.dieHeat 4).slow = min 7 (x.slow + 1)) ∧
      (temp < 1200 → ¬(∀ e ∈ t.readings.dieTemp, e.2 < 900) → t.tripped = s.tripped)) ∧
    (∀ k temp : Nat, k < 8 → (s.stack k).power ≠ 0 → ∃ t, exec (.stackTempReport k temp) s = .next t ∧
      let x := s.stack k
      let limit := s.setting 5 95
      let up := if limit ≤ temp then min 7 (x.step + 1) else if temp + 3 ≤ limit then x.step - 1 else x.step
      (120 ≤ temp → s.tripped = false → lost t) ∧
      (105 ≤ temp → temp < 120 → x.refreshOnly = false →
        t.stack k = { x with temp, step := up, refreshOnly := true, refreshSince := (t.stack k).refreshSince, hot := true } ∧
        s.now ≤ (t.stack k).refreshSince) ∧
      (105 ≤ temp → temp < 120 → x.refreshOnly = true → t.stack k = { x with temp, step := up } ∧
        (x.refreshSince + 1000000000 < s.now → k ∉ (s.dieHeat (k / 2)).held → told t 3 ∧ held t (k / 2) 16)) ∧
      (100 < temp → temp < 105 → t.stack k = { x with temp, step := up }) ∧
      (temp ≤ 100 → t.stack k = { x with temp, step := if x.refreshOnly then 7 else up, refreshOnly := false }) ∧
      (temp < 120 → t.ctxs = s.ctxs ∧ t.hbm = s.hbm ∧ t.cores = s.cores)) ∧
    (∀ inlet outlet : Int, ∃ t, exec (.coolantReport inlet outlet) s = .next t ∧ t.readings = { s.readings with coolant := [inlet, outlet] } ∧
      ((400 < inlet ∨ 200 < outlet - inlet) → s.readings.coolant = [] → told t 4) ∧ t.gals = s.gals ∧ t.ctxs = s.ctxs ∧
      (inlet ≤ 400 → outlet - inlet ≤ 200 → t.funcs = s.funcs)) ∧
    (∀ mv : Nat, s.supply ≠ 0 → ∃ t, exec (.inputVoltageMeasurement mv) s = .next t ∧ t.readings = { s.readings with vin := mv } ∧
      (62000 < mv → mv ≤ 66000 → ¬(62000 < s.readings.vin ∧ s.readings.vin ≤ 66000) → told t 5) ∧
      (40000 ≤ mv → mv < 44000 → ¬(40000 ≤ s.readings.vin ∧ s.readings.vin < 44000) → told t 5) ∧
      (44000 ≤ mv → mv ≤ 62000 → t.funcs = s.funcs ∧ t.goodSince = some (s.goodSince.getD t.now) ∧ t.brownSince = none) ∧
      (36000 ≤ mv → mv < 40000 → t.brownSince = some (s.brownSince.getD t.now) ∧ t.goodSince = none) ∧ t.supply = s.supply)

/-- R16, R349, R403, R404, R407, R408, R410, R411, R414 and R416: the errors that the module meets by itself, and the
repairs that follow: die links, management units, corrected errors, calibration, host cores, rails, and the clearing of
an entry of the repair map. The model's own readings and choices here: log entries 1, 4, 26, 28. -/
def Obligations.RepairEvents : Prop :=
  ∀ s : State, s.Sound →
    let work := fun (t : State) => t.ctxs = s.ctxs ∧ t.cores = s.cores ∧ t.hbm = s.hbm ∧ t.parts = s.parts
    let map := s.conf.repair
    let fatal := fun (t : State) (q : Nat) => bit (t.func (s.fnOf q)).ras 3 = true ∧ bit (t.func 0).ras 3 = true ∧
      (t.part q).live = true ∧ (t.part q).galleries = 0 ∧ (t.part q).groups = 0 ∧ ∀ n ∈ s.ctxsOf q, (t.ctx n).state = .free
    (∀ link lane, link < 16 → lane < 256 → ∃ t v, exec (.flitReplay link lane) s = .next t ∧ s.now ≤ v ∧ work t ∧ t.funcs = s.funcs ∧
      t.logs = s.logs ∧ let key := (256 + 0x0A) * 2 ^ 20 + link
      mget [] t.rasTimes key = v :: (mget [] s.rasTimes key).filter (fun x => decide (v < x + 86400000000000))) ∧
    (∀ link lane, link < 16 → link ∉ map.narrowed → s.setting 11 1 ≠ 0 →
      let used := map.dieLanes.filter (fun e => decide (e.1 = link))
      (∀ e ∈ used, e.2.1 ≠ lane) → ∃ t, exec (.dieLaneFail link lane) s = .next t ∧ work t ∧
        (∀ i < 4, (∀ j < i, ∃ e ∈ used, e.2.2 = j) → (∀ e ∈ used, e.2.2 ≠ i) →
          t.conf = { s.conf with repair := { map with dieLanes := map.dieLanes ++ [(link, lane, i)] } }) ∧
        ((∀ j < 4, ∃ e ∈ used, e.2.2 = j) → t.conf = { s.conf with repair := { map with narrowed := sinsert map.narrowed link } })) ∧
    (∀ unit, unit < 2 → unit ∉ map.units → s.musLost = false → s.supply ≠ 0 → ∃ t, exec (.lockstepMismatch unit) s = .next t ∧
      t.cores = s.cores ∧ t.hbm = s.hbm ∧ t.parts = s.parts ∧
      (unit ≠ s.activeMu → t.conf = { s.conf with repair := { map with units := sinsert map.units unit } } ∧ t.activeMu = s.activeMu ∧
        t.mitorUp = s.mitorUp) ∧
      (unit = s.activeMu → map.units ≠ [] → t.musLost = true ∧ t.mitorUp = false ∧ t.mitorReady = false ∧ t.taken = [] ∧ t.attnLow = true) ∧
      (unit = s.activeMu → map.units = [] → t.activeMu = 1 - unit ∧ t.muAsleep = false ∧ t.musLost = false ∧
        (t.conf.repair.units = [] ∨ t.conf.repair.units = [unit]) ∧ (∀ fn < 9, bit (t.func fn).mbx 4 = true) ∧
        ∃ v, logEntry 5 v (toBytes 2 4 ++ zeros 2 ++ toBytes 4 unit) ∈ (t.evlog 0).events)) ∧
    (map.units = [] → s.mitorUp = true →
      (∃ t, exec (.standbySelfTest true) s = .next t ∧ s.muTested + 86400000000000 ≤ t.muTested ∧ t.conf = s.conf ∧ work t) ∧
      (∃ t, exec (.standbySelfTest false) s = .next t ∧ t.muTested = s.muTested ∧ t.conf.repair = { map with units := [1 - s.activeMu] } ∧
        work t)) ∧
    (∀ fn, fn ≤ 8 → ∃ t v, exec (.correctedAttention fn) s = .next t ∧ s.now ≤ v ∧ work t ∧
      let many := s.setting 7 256 < ((mget [] s.corrTimes fn).filter (fun x => decide (v < x + 3600000000000))).length
      let recent := ∃ x, mfind s.corrTold fn = some x ∧ v < x + 3600000000000
      (many → ¬recent → bit (t.func fn).ras 0 = true ∧ mfind t.corrTold fn = some v) ∧
      (¬many ∨ recent → t.funcs = s.funcs ∧ t.corrTold = s.corrTold)) ∧
    (∀ kind unit lane, kind < 2 → ∃ t v, exec (.recalibration kind unit lane) s = .next t ∧ s.now ≤ v ∧ work t ∧ t.logs = s.logs ∧
      t.ports = s.ports ∧ t.conf = s.conf ∧ let key := 2 ^ 20 * kind + 256 * unit + lane
      (s.spareFor kind unit lane = true → t.recalAt = merase s.recalAt key) ∧
      (s.spareFor kind unit lane = false → t.recalAt = minsert s.recalAt key v) ∧
      ∀ x, mfind s.recalAt key = some x → x + 3600000000000 ≤ v) ∧
    (∀ unit lane, exec (.recalibration 2 unit lane) s = .next s) ∧
    (∀ h addr q, s.partOfGallery (h / 2) = some q →
      (∃ t, exec (.hostCoreError h true addr) s = .next t ∧ fatal t q) ∧
      ∃ t v, exec (.hostCoreError h false addr) s = .next t ∧ s.now ≤ v ∧ bit (t.func (s.fnOf q)).ras 1 = true ∧ bit (t.func 0).ras 1 = true ∧
        work t ∧ let key := 0x0C * 2 ^ 20 + h
        let n := 1 + ((mget [] s.rasTimes key).filter (fun x => decide (v < x + 86400000000000))).length
        (n < s.setting 16 2 → t.conf = s.conf) ∧
        (s.setting 16 2 ≤ n → h ∉ map.hostRetired → s.setting 10 1 ≠ 0 → h ∈ t.conf.repair.hostRetired)) ∧
    (∀ rail, rail < 24 → s.supply = 2 → ∃ t, exec (.railOutOfRegulation rail) s = .next t ∧
      (∀ q ∈ s.partsOnRail rail, fatal t q) ∧
      (12 ≤ rail → rail < 15 → t.pwrGood = false ∧ (s.pwrGood = true → .pwrGood false ∈ t.out)) ∧
      (rail < 12 ∨ 15 ≤ rail → t.pwrGood = s.pwrGood) ∧ t.supply = 2) ∧
    (∀ kind a b, s.scopes ≠ [] → kind ≤ 10 → ∃ t, exec (.repairMapClear kind a b) s = .next t ∧ work t ∧
      (kind = 1 → t.retired = sremove s.retired a ∧ t.conf = s.conf) ∧
      (kind ≠ 1 → t.retired = s.retired ∧ t.conf = { s.conf with repair := map.without kind a b }) ∧
      (kind = 9 → bit (t.slice a).disabledWays b = false) ∧ (s.writing = none → t.writing = some t.snapshot)) ∧
    (∀ kind a b, s.scopes = [] → exec (.repairMapClear kind a b) s = .next s)

/-- R292, R369, R370, R374, R377, R412 and R413: the events by which what Mitor has begun goes on: a page of stage-2
tables moves, a maker scope lapses, the standby unit reports ready or does not, the store's write ends, a recovery
image arrives, and a self-test runs or times out. The model's own readings and choices here: log entries 1, 14, 15, 21,
22. -/
def Obligations.BackgroundEvents : Prop :=
  ∀ s : State, s.Sound →
    (∀ (m : TableMove) (rest : List TableMove), s.tableMoves = m :: rest →
      let pages := match s.tableRun m.part with
        | some a => a.count / 32
        | none => 0
      (m.moved + 1 < pages → exec .stage2TableMove s = .next { s with tableMoves := { m with moved := m.moved + 1 } :: rest }) ∧
      (pages ≤ m.moved + 1 → s.moveJobs = [] → ∃ t, exec .stage2TableMove s = .next t ∧
        t.tableMoves = rest.filter (fun x => decide (x.part ≠ m.part)) ∧ t.regions = s.regions ∧ t.hbm = s.hbm ∧ t.ctxs = s.ctxs)) ∧
    (∀ e es, s.scopes = e :: es → ∃ t, exec .makerScopeLapse s = .next t ∧ (∃ x ∈ s.scopes, x.2 ≤ t.now) ∧
      t.scopes = s.scopes.filter (fun x => decide (t.now < x.2)) ∧ t.conf = s.conf) ∧
    (∀ a : Activation, s.activation = some a →
      (∃ t, exec .standbyReady s = .next t ∧ t.activation = none ∧ t.activeMu = 1 - s.activeMu ∧ t.conf.slot = 1 - s.conf.slot ∧
        t.running = mget [] s.fwSlots (1 - s.conf.slot) ∧ t.parts = s.parts ∧ t.cores = s.cores ∧
        (∀ fn < 9, bit (t.func fn).mbx 4 = true) ∧ (s.writing = none → t.writing = some t.snapshot)) ∧
      (∃ t, exec .activationTimeout s = .next t ∧ t.activation = none ∧ a.since + 2000000000 ≤ t.now ∧ t.running = s.running ∧
        t.conf.slot = s.conf.slot ∧ t.activeMu = s.activeMu)) ∧
    (∀ d : StoreData, s.writing = some d →
      (∃ t, exec (.storeRecordCurrent true) s = .next t ∧ t.curBank = 1 - s.curBank ∧
        t.bank t.curBank = { valid := true, seq := (s.bank s.curBank).seq + 1, data := d } ∧ t.parts = s.parts ∧
        (s.storeDirty = true → t.writing ≠ none)) ∧
      (∃ t, exec (.storeRecordCurrent false) s = .next t ∧ t.curBank = s.curBank ∧ t.bank t.curBank = s.bank s.curBank ∧
        (s.taken = [] → s.storeDirty = false → t = { s with writing := none }))) ∧
    (∀ image sig, (s.bootStopped = true → exec (.storeRecovery image sig) s = .next (if Config.recoveryOk image sig then
        { s with bankA := { valid := true, seq := max s.bankA.seq s.bankB.seq + 1, data := Config.storeImage image } } else s)) ∧
      (s.bootStopped = false → exec (.storeRecovery image sig) s = .next s)) ∧
    (∀ n (x : SelfTest) pass locator, s.selfTests[n]? = some x →
      (s.testFree x = true → pass = true ∨ x.kind ≠ 7 ∨ s.Flows → ∃ t, exec (.selfTestRun n pass locator) s = .next t ∧ t.selfTests = s.selfTests.eraseIdx n ∧
        (pass = true → t.ctxs = s.ctxs ∧ t.conf.repair = s.conf.repair ∧ t.retired = s.retired ∧ (x.kind = 1 → ∃ v, s.now ≤ v ∧
          t.siteTests = minsert s.siteTests x.unit v)) ∧
        (pass = false → x.kind = 1 → t.conf.repair = { s.conf.repair with failedSites := sinsert s.conf.repair.failedSites x.unit }) ∧
        (pass = false → x.kind = 8 → t.conf.repair = { s.conf.repair with units := sinsert s.conf.repair.units (1 - s.activeMu) })) ∧
      (s.testFree x = false → ∃ t, exec (.selfTestTimeout n) s = .next t ∧ x.deadline ≤ t.now ∧ t.selfTests = s.selfTests.eraseIdx n ∧
        t.ctxs = s.ctxs ∧ t.conf.repair = s.conf.repair))

/-- R79, R101, R117, R133 and R405: what keeps a thread instruction from its effect, whichever it is. A crew whose next
instruction breaks R117 faults with `ILLEGAL_INSTRUCTION` (0x01); one with a source outstanding waits; one that reads a
register with an uncorrectable error is discarded; a copy's fault takes effect at the boundary; and the command of
another operation changes nothing. The model's own readings and choices here: log entries 1, 18, 29, 32. -/
def Obligations.ThreadForms : Prop :=
  ∀ (s : State) (c : CrewId) (z : Issue),
    let commands : List (Instr × Nat × Nat) :=
      [(.iadd c, 1, 0x00), (.isub c, 1, 0x01), (.imul c, 1, 0x02), (.imulh c, 1, 0x03), (.imad c, 1, 0x04), (.imin c, 1, 0x05), (.imax
        c, 1, 0x06), (.iabs c, 1, 0x07), (.andOp c, 1, 0x08), (.orOp c, 1, 0x09), (.xorOp c, 1, 0x0A), (.andn c, 1, 0x0B), (.shl c, 1,
        0x0C), (.shr c, 1, 0x0D), (.popc c, 1, 0x0E), (.clz c, 1, 0x0F), (.brev c, 1, 0x10), (.bfe c, 1, 0x11), (.bfi c, 1, 0x12), (.idiv
        c, 1, 0x13), (.irem c, 1, 0x14)] ++
      [(.dadd c, 2, 0), (.dsub c, 2, 1), (.dmul c, 2, 2), (.dfma c, 2, 3), (.dmin c, 2, 4), (.dmax c, 2, 5), (.ddiv c, 2, 6), (.dsqrt c,
        2, 7)] ++
      [(.fadd c, 3, 0), (.fsub c, 3, 1), (.fmul c, 3, 2), (.ffma c, 3, 3), (.fmin c, 3, 4), (.fmax c, 3, 5), (.fdiv c, 3, 6), (.fsqrt c,
        3, 7), (.frcp c, 3, 8), (.frsq c, 3, 9), (.fexp2 c, 3, 0x0A), (.flog2 c, 3, 0x0B)] ++
      [(.hadd2 c, 4, 0), (.hsub2 c, 4, 1), (.hmul2 c, 4, 2), (.hfma2 c, 4, 3), (.hmin2 c, 4, 4), (.hmax2 c, 4, 5), (.hdot2 c, 4, 6)] ++
      [(.cvt c, 5, 0), (.frnd c, 5, 1)] ++
      [(.icmp c, 6, 0), (.dcmp c, 6, 1), (.fcmp c, 6, 2), (.sel c, 6, 3), (.plop c, 6, 4)] ++
      [(.brc c, 7, 0), (.brx c, 7, 1), (.call c, 7, 2), (.join c, 7, 3), (.exitOp c, 7, 4), (.cbar c, 7, 5)] ++
      [(.ld c, 8, 0), (.st c, 8, 1), (.ldu c, 8, 2), (.memoryFence c, 8, 3)] ++
      [(.aadd c, 9, 0), (.amin c, 9, 1), (.amax c, 9, 2), (.aand c, 9, 3), (.aor c, 9, 4), (.axor c, 9, 5), (.axch c, 9, 6), (.acas c,
        9, 7), (.afadd c, 9, 8), (.adfadd c, 9, 9)] ++
      [(.larrive c, 0xA, 0), (.lwait c, 0xA, 1), (.larrwait c, 0xA, 2), (.ltest c, 0xA, 3)] ++
      [(.shflIdx c, 0xB, 0), (.shflUp c, 0xB, 1), (.shflDown c, 0xB, 2), (.shflXor c, 0xB, 3), (.voteAny c, 0xB, 4), (.voteAll c, 0xB,
        5), (.ballot c, 0xB, 6), (.reduxAdd c, 0xB, 7), (.reduxMin c, 0xB, 8), (.reduxMax c, 0xB, 9), (.ufrom c, 0xB, 0x0A)] ++
      [(.fdma c, 0xC, 0)] ++
      [(.pfL1 c, 0xD, 0), (.pfGc c, 0xD, 1), (.invL1 c, 0xD, 2), (.invL1all c, 0xD, 3), (.invIc c, 0xD, 4)] ++
      [(.mov c, 0xE, 1), (.umov c, 0xE, 2), (.rds c, 0xE, 3), (.wrs c, 0xE, 4), (.brk c, 0xE, 5), (.nopInstruction c, 0xE, 0)]
    ∀ p ∈ commands, let (k, cls, op) := p
      let named := z.i.cls = cls ∧ z.i.op = op
      (s.Facing c z →
        (z.i.known = false ∨ (named ∧ z.i.legal z.x.width z.x.regs = false) →
          s.Faults z (exec k s) 0x01 0 ((bitList z.x.width z.act).headD z.lead)) ∧
        (z.i.known = true → ¬named → exec k s = .next s) ∧
        (z.i.known = true → named → z.i.legal z.x.width z.x.regs = true → z.x.blocked (z.i.sources z.x.width) = true → exec k s = .next s) ∧
        (∀ r, z.i.known = true → named → z.i.legal z.x.width z.x.regs = true → z.x.blocked (z.i.sources z.x.width) = false →
          z.x.badSource z.act (z.i.sources z.x.width) = some r → s.Sound → rising (s.core z.core).crews →
          ∃ t, exec k s = .next t ∧ t.crew z.core z.key = none ∧ t.hbm = s.hbm ∧ t.slots = s.slots)) ∧
      (∀ code addr pc m y, s.stalled = false → s.crew c.core (ckey c) = some y → s.olderReady c.core (ckey c) y = false →
        y.state = .running → y.retry = false → y.copyFault = some (code, addr) → y.path = some (pc, m) → ∃ t, exec k s = .next t ∧ t.hbm = s.hbm ∧
          t.crew c.core (ckey c) = some { y with state := .faulted, fault := ⟨code, addr, pc, m, 0⟩, outs := [], retry := false }) ∧
      (∀ y, s.crew c.core (ckey c) = some y → y.state ≠ .running ∨ y.retry = true → exec k s = .next s) ∧
      (s.crew c.core (ckey c) = none → exec k s = .next s)

/-- R198 and R201: a short format decodes to FP32 exactly, a NaN to the canonical quiet NaN, an infinity of E5M2 to that of its sign, each
element of a packed register from its own place; and an MX-integer element decodes to its value, or under scale 0xFF to the canonical
quiet NaN. The element −2^(w−1) at scale 254, which no format holds, is left out (log entry 6). -/
def Obligations.FormatDecoding : Prop :=
  (∀ code h w, shortOf code = some h → w < 2 ^ h.width → let v := h.unpack w
    let r := fp32.ofFp v
    match v with
    | .nan _ => r = 0x7FC00000
    | .inf neg => r = if neg then 0xFF800000 else 0x7F800000
    | .zero neg => r = if neg then 0x80000000 else 0
    | .fin neg _ _ => (fp32.unpack r).compare v = some .eq ∧ (fp32.unpack r).neg = neg) ∧
  (∀ code h a k, shortOf code = some h → k < (if code = 12 then 8 else 4) →
    bits (unpackShort code a) (32 * k) 32 = fp32.ofFp (h.unpack (bits a (h.width * k) h.width))) ∧
  (∀ (eight wide : Bool) (q : Int) (x : Nat), let f := if wide then fp32 else bf16
    let least : Int := if eight then -128 else -8
    let v := mxDecode f q x eight
    least ≤ q → q < -least → x < 256 →
      (x = 255 → v = if wide then 0x7FC00000 else 0x7FC0) ∧
      (x < 255 → q = 0 → v = 0) ∧
      (x < 255 → q ≠ 0 → ¬(q = least ∧ x = 254) →
        (f.unpack v).compare (.fin (decide (q < 0)) q.natAbs ((x : Int) - (if eight then 133 else 129))) = some .eq))

/-- R39: the ingress window of context n lies at BAR0 offset 0x0200_0000 + n × 0x1_0000. Every read of it, in any function's BAR0, returns
zero; a write of a function that does not own the context is discarded and recorded as a register access error; and one of the owner is a
granule of the stream. -/
def Obligations.IngressWindow : Prop :=
  ∀ (s : State) (n o fn data : Nat), s.Sound → n < 64 → o < 0x10000 → fn ≤ 8 → s.served = true → fn = 0 ∨ (s.part (fn - 1)).live = true →
    (s.ctx n).state ≠ .free →
    let at' := 0x02000000 + n * 0x10000 + o
    let recorded := fun (t : State) => t.ctxs = s.ctxs ∧ t.hbm = s.hbm ∧ bit (t.func fn).host 0 = true ∧
      ((s.func fn).host = 0 → (t.func fn).errKind = 1 ∧ (t.func fn).errWrite = true ∧ (t.func fn).errAddr = at')
    (∀ size, (size = 8 ∧ o % 8 = 0) ∨ (size = 4 ∧ o % 4 = 0) → let a : HostAccess := { fn, off := at', size, data }
      exec (.badRegisterAccess a false) s = .next (s.emit (.regData fn 0)) ∧
      ((s.ctx n).fn ≠ fn → ∃ t, exec (.registerWrite a) s = .next t ∧ recorded t)) ∧
    (∀ bytes, (s.ctx n).fn ≠ fn → ∃ t, exec (.ingressGranule fn n o bytes) s = .next t ∧ recorded t) ∧
    (∀ bytes : List Byte, let x := s.ctx n
      x.fn = fn → s.removalPrepared = false → s.resetAsked n = false → x.state = .active → bytes.length = 64 → x.expected = o → o % 64 = 0 →
        x.accepted + 64 - x.consumed ≤ 262144 → ∃ t, exec (.ingressGranule fn n o bytes) s = .next t ∧
          (t.ctx n).accepted = x.accepted + 64 ∧ ∀ k, k ≠ n → t.ctx k = s.ctx k)

/-- What reset leaves: the module is unpowered and holds nothing (R3, R351), the settings of Table 15-4 are at their
defaults (R385), and the invariant of every step holds. The model's own readings and choices here: log entries 9, 34. -/
def Obligations.ResetState : Prop :=
  let s := State.reset
  s.Sound ∧ s.supply = 0 ∧ s.served = false ∧ s.hbm = [] ∧ s.out = [] ∧ s.pending = [] ∧
  (∀ n, (s.ctx n).state = .free) ∧ (∀ k, (s.slot k).state = .free) ∧ (∀ q, (s.part q).live = false) ∧ (∀ c, (s.core c).crews = []) ∧
  s.capW = 3200 ∧ s.floorLinks = 400 ∧ s.floorMem = 350 ∧ s.paddleUs = 50 ∧ (∀ q, s.shareOf q = 10 ∧ s.retentionUs q = 1000)

/-- A step runs the command at the front of the queue on the state with the queue's rest; on an empty queue the block idles, which is the
model's choice (log entry 16); and no word spells a command (log entry 17). -/
def Obligations.StepRunsFront : Prop :=
  (∀ (c : Instr) (s : State), step { s with pending := c :: s.pending } = exec c s) ∧
  (∀ s : State, s.pending = [] → step s = .next s) ∧
  (∀ (s : State) (nbits w : Nat), s.withFetchWord nbits w = s)

/-- Every step answers a next state: no command of the table stops the block, in any state and with any operands, and
each takes exactly itself from the queue. The model's own readings and choices here: log entry 1. -/
def Obligations.EveryStepAnswers : Prop :=
  ∀ s : State, ∃ t, step s = .next t ∧ t.pending = s.pending.tail

/-- R129 and Table 4-9: each atomic of a single thread on a word of the crew's own scratch completes: the crew goes on behind it with the old
value on its way to the thread's register, of scratch no other word can have changed, and nothing outside its core has. R382 to R386, R389 to
R395: each power command does the one thing that it is for. The model's own readings and choices here: log entries 1, 24, 26, 29. -/
def Obligations.AtomicAndPowerEffects : Prop :=
  ∀ s : State, s.Sound →
    (∀ (c : CrewId) (z : Issue) (th sa : Nat), let i := z.i
      let k := s.core z.core
      let n := 2 ^ i.size
      let old := ofBytes ((List.range n).map (fun j => mget 0 k.scratch ((sa + j) % 0x80000)))
      z.threads = [th] → placeOf i.space (z.ea th) = .scratch sa → z.ea th % n = 0 → z.x.scratchBase ≤ sa →
      sa + n ≤ z.x.scratchBase + z.x.scratchSize → k.seq.banks = [] → k.scratchPoison = [] → k.scratchSoft = [] →
      s.dropHeld (.crew z.core z.key) = s → bit z.options 2 = false →
      ∀ p ∈ ([(.aadd c, 0), (.amin c, 1), (.amax c, 2), (.aand c, 3), (.aor c, 4), (.axor c, 5), (.axch c, 6), (.acas c, 7), (.afadd c, 8),
        (.adfadd c, 9)] : List (Instr × Nat)), s.Ready c z 9 p.2 → ∃ t y, exec p.1 s = .next t ∧ t.crew z.core z.key = some y ∧
          y.path = some (z.next, z.mask) ∧ (∀ w ∈ vWrites th i.d (sizeRegs i.size) old, ∃ o ∈ y.outs, w ∈ o.writes) ∧ t.offCores = s.offCores ∧
          (∀ j, j ≠ z.core → t.core j = s.core j) ∧
          ((t.core z.core).scratch = k.scratch ∨ ∃ v, (t.core z.core).scratch = writeBytes k.scratch sa (toBytes n v))) ∧
    (∀ rail, rail < 12 → rail < 4 ∨ 8 ≤ rail → ∃ t, exec (.railThrottle rail) s = .next t ∧ bit (t.func 0).power 1 = true ∧ t.hbm = s.hbm) ∧
    (∀ rail, 4 ≤ rail → ∃ t, exec (.throttleReleaseStep rail) s = .next t ∧ t.gals = s.gals ∧
      t.railSteps = mset 0 s.railSteps rail (mget 0 s.railSteps rail - 1)) ∧
    (∀ g, (s.gal g).st ≠ 0 → ∃ t, exec (.droopStretch g true) s = .next t ∧ g ∈ t.stretched ∧ t.gals = s.gals) ∧
    (∀ d1 d2 iin draws, ∃ t, exec (.powerAllocation d1 d2 iin draws) s = .next t ∧ s.allocAt + 10000 ≤ t.allocAt ∧ t.readings.iin = iin ∧
      t.hbm = s.hbm) ∧
    (∀ g, let x := s.gal g
      (1 < x.floorStep → x.rising = false → ∃ t, exec (.paddleStep g) s = .next t ∧ (t.gal g).floorStep = x.floorStep - 1) ∧
      (x.st = 3 → s.galIdle g = true → ∃ t, exec (.clockGateEntry g) s = .next t ∧ (t.gal g).st = 2 ∧ x.idleAt + 1000 ≤ t.now) ∧
      (∀ q, s.partOfGallery g = some q → x.st = 2 → s.capSet 6 q 1000 ≠ 0 → ∃ t, exec (.retentionEntry g) s = .next t ∧ (t.gal g).st = 1) ∧
      (x.st = 1 ∨ x.st = 2 → ∃ t, exec (.galleryWake g) s = .next t ∧ (t.gal g).st = 3)) ∧
    (s.mitorUp = true → s.taken = [] → s.writing = none → s.mailboxes = [] → ∃ t, exec .muSleep s = .next t ∧ t.muAsleep = true) ∧
    (∃ t, exec .muWake s = .next t ∧ t.muAsleep = false) ∧
    (∀ k, (s.stack k).power = 3 → ∃ t, exec (.stackPowerDown k) s = .next t ∧ (t.stack k).power = 2) ∧
    (∀ die < 4, (s.stack (2 * die)).power ≠ 0 → ∃ t, exec (.uncoreIdleEntry die) s = .next t ∧ die ∈ t.uncoreIdle ∧ t.hbm = s.hbm)

/-- Nothing runs back: the module timestamp counts on but where the boathouse starts anew at power-on (R67), the audit
log's numbering goes on (R371), and what has left the module has left it. The model's own readings and choices here:
log entries 2, 3, 22. -/
def Obligations.NothingRunsBack : Prop :=
  ∀ s t : State, step s = .next t →
    s.auditNext ≤ t.auditNext ∧ s.out <:+ t.out ∧ ((∀ b, s.pending.head? ≠ some (.powerOn b)) → s.now ≤ t.now)
end

