-- ==== Sys2Proof/Laws/Maps.lean ====
section
/-! SUPPORT. Laws of the sparse maps: reading after writing, other keys, and the canonical form. -/

namespace Sys2Proof.Machine

open Sys2Proof

variable {α : Type}

/-! ### Reading -/

@[simp] theorem mget_nil (d : α) (k : Nat) : mget d [] k = d := rfl

@[simp] theorem mget_minsert_same (d : α) (m : Map α) (k : Nat) (v : α) : mget d (minsert m k v) k = v := by
  induction m with
  | nil => simp [minsert, mget]
  | cons e m ih =>
    obtain ⟨k', v'⟩ := e
    simp only [minsert]
    split
    · simp [mget]
    · split
      · simp [mget]
      · have : k' ≠ k := by omega
        simp [mget, this, ih]
        omega

theorem mget_minsert_other (d : α) (m : Map α) (k k' : Nat) (v : α) (h : k' ≠ k) :
    mget d (minsert m k v) k' = mget d m k' := by
  induction m with
  | nil => simp [minsert, mget, Ne.symm h]
  | cons e m ih =>
    obtain ⟨j, w⟩ := e
    simp only [minsert]
    split
    · simp only [mget, if_neg (Ne.symm h)]
      split
      · have : j ≠ k' := by omega
        have : k' < j := by omega
        simp [*]
      · rfl
    · split
      · subst_vars
        simp [mget, Ne.symm h]
      · simp only [mget, ih]

theorem mset_eq_minsert [DecidableEq α] {d v : α} (m : Map α) (k : Nat) (h : v ≠ d) : mset d m k v = minsert m k v := by
  simp [mset, h]

theorem mget_mset_same_of_ne [DecidableEq α] {d v : α} (m : Map α) (k : Nat) (h : v ≠ d) : mget d (mset d m k v) k = v := by
  simp [mset, h]

theorem mget_merase_other (d : α) (m : Map α) (k k' : Nat) (h : k' ≠ k) (hm : (m.map (·.1)).Pairwise (· < ·)) :
    mget d (merase m k) k' = mget d m k' := by
  induction m with
  | nil => rfl
  | cons e m ih =>
    obtain ⟨j, w⟩ := e
    simp only [List.map_cons, List.pairwise_cons] at hm
    simp only [merase]
    split
    · subst_vars
      simp only [mget, if_neg (Ne.symm h)]
      split
      · rename_i hlt
        match m, hm with
        | [], _ => rfl
        | (i, x) :: m, ⟨h1, _⟩ =>
          have : j < i := h1 i (by simp)
          have h2 : i ≠ k' := by omega
          have h3 : k' < i := by omega
          simp [mget, h2, h3]
      · rfl
    · split
      · rfl
      · simp only [mget, ih hm.2]

@[simp] theorem mfind_nil (k : Nat) : mfind ([] : Map α) k = none := rfl

theorem mfind_cons (j : Nat) (w : α) (m : Map α) (k : Nat) : mfind ((j, w) :: m) k = if j = k then some w else mfind m k := by
  by_cases h : j = k <;> simp [mfind, List.find?, h]

@[simp] theorem mfind_minsert_same (m : Map α) (k : Nat) (v : α) : mfind (minsert m k v) k = some v := by
  induction m with
  | nil => simp [minsert, mfind_cons]
  | cons e m ih =>
    obtain ⟨j, w⟩ := e
    simp only [minsert]
    split
    · simp [mfind_cons]
    · split
      · simp [mfind_cons]
      · have : j ≠ k := by omega
        simp [mfind_cons, this, ih]

theorem mfind_minsert_other (m : Map α) (k k' : Nat) (v : α) (h : k' ≠ k) : mfind (minsert m k v) k' = mfind m k' := by
  induction m with
  | nil => simp [minsert, mfind_cons, Ne.symm h]
  | cons e m ih =>
    obtain ⟨j, w⟩ := e
    simp only [minsert]
    split
    · simp [mfind_cons, Ne.symm h]
    · split
      · subst_vars
        simp [mfind_cons, Ne.symm h]
      · simp [mfind_cons, ih]

/-! ### Canonical form -/

/-- Canonical form, said with the order of the keys. -/
theorem mwf_iff [DecidableEq α] (d : α) (m : Map α) :
    mwf d m = true ↔ (m.map (·.1)).Pairwise (· < ·) ∧ ∀ e ∈ m, e.2 ≠ d := by
  induction m with
  | nil => simp [mwf]
  | cons e m ih =>
    obtain ⟨k, v⟩ := e
    match m, ih with
    | [], _ => simp [mwf]
    | (k', v') :: m, ih =>
      simp only [mwf, Bool.and_eq_true, decide_eq_true_eq, ih, List.map_cons, List.pairwise_cons, List.mem_cons,
        forall_eq_or_imp]
      constructor
      · rintro ⟨⟨h1, h2⟩, ⟨h3, h4⟩, h5, h6⟩
        exact ⟨⟨⟨h2, fun x hx => lt_trans h2 (h3 x hx)⟩, h3, h4⟩, h1, h5, h6⟩
      · rintro ⟨⟨⟨h1, _⟩, h3, h4⟩, h5, h6, h7⟩
        exact ⟨⟨h5, h1⟩, ⟨h3, h4⟩, h6, h7⟩

theorem mem_minsert (m : Map α) (k : Nat) (v : α) (e : Nat × α) (h : e ∈ minsert m k v) : e = (k, v) ∨ e ∈ m := by
  induction m with
  | nil => simpa [minsert] using h
  | cons f m ih =>
    obtain ⟨j, w⟩ := f
    simp only [minsert] at h
    split at h
    · simpa using h
    · split at h
      · simp only [List.mem_cons] at h ⊢
        tauto
      · simp only [List.mem_cons] at h ⊢
        rcases h with h | h
        · tauto
        · rcases ih h with h | h <;> tauto

theorem mem_merase (m : Map α) (k : Nat) (e : Nat × α) (h : e ∈ merase m k) : e ∈ m := by
  induction m with
  | nil => simpa [merase] using h
  | cons f m ih =>
    obtain ⟨j, w⟩ := f
    simp only [merase] at h
    split at h
    · simp [h]
    · split at h
      · exact h
      · simp only [List.mem_cons] at h ⊢
        rcases h with h | h
        · tauto
        · exact .inr (ih h)

theorem minsert_sorted (m : Map α) (k : Nat) (v : α) (h : (m.map (·.1)).Pairwise (· < ·)) :
    ((minsert m k v).map (·.1)).Pairwise (· < ·) := by
  induction m with
  | nil => simp [minsert]
  | cons e m ih =>
    obtain ⟨j, w⟩ := e
    simp only [List.map_cons, List.pairwise_cons] at h
    simp only [minsert]
    split
    · rename_i hlt
      simp only [List.map_cons, List.pairwise_cons, List.mem_cons, forall_eq_or_imp]
      exact ⟨⟨hlt, fun x hx => lt_trans hlt (h.1 x hx)⟩, h.1, h.2⟩
    · split
      · subst_vars
        simpa using h
      · simp only [List.map_cons, List.pairwise_cons]
        refine ⟨?_, ih h.2⟩
        intro x hx
        obtain ⟨e, he, rfl⟩ := List.mem_map.1 hx
        rcases mem_minsert m k v e he with rfl | he
        · show j < k
          omega
        · exact h.1 _ (List.mem_map.2 ⟨e, he, rfl⟩)

theorem merase_sorted (m : Map α) (k : Nat) (h : (m.map (·.1)).Pairwise (· < ·)) :
    ((merase m k).map (·.1)).Pairwise (· < ·) := by
  induction m with
  | nil => simp [merase]
  | cons e m ih =>
    obtain ⟨j, w⟩ := e
    simp only [List.map_cons, List.pairwise_cons] at h
    simp only [merase]
    split
    · exact h.2
    · split
      · simpa using h
      · simp only [List.map_cons, List.pairwise_cons]
        refine ⟨?_, ih h.2⟩
        intro x hx
        obtain ⟨e, he, rfl⟩ := List.mem_map.1 hx
        exact h.1 _ (List.mem_map.2 ⟨e, mem_merase m k e he, rfl⟩)

/-- A write keeps the canonical form. -/
theorem mset_keeps_mwf [DecidableEq α] (d : α) (m : Map α) (k : Nat) (v : α) (h : mwf d m = true) : mwf d (mset d m k v) = true := by
  rw [mwf_iff] at h ⊢
  unfold mset
  split
  · exact ⟨merase_sorted m k h.1, fun e he => h.2 e (mem_merase m k e he)⟩
  · rename_i hv
    refine ⟨minsert_sorted m k v h.1, fun e he => ?_⟩
    rcases mem_minsert m k v e he with rfl | he
    · exact hv
    · exact h.2 e he

/-- Dropping entries keeps the canonical form. -/
theorem filter_keeps_mwf [DecidableEq α] (d : α) (m : Map α) (p : Nat × α → Bool) (h : mwf d m = true) :
    mwf d (m.filter p) = true := by
  rw [mwf_iff] at h ⊢
  exact ⟨List.Pairwise.sublist (List.Sublist.map _ List.filter_sublist) h.1, fun e he => h.2 e (List.mem_filter.1 he).1⟩

/-- On a map in canonical form, a written key reads what was written. -/
theorem mget_mset_same [DecidableEq α] (d : α) (m : Map α) (k : Nat) (v : α) (h : mwf d m = true) : mget d (mset d m k v) k = v := by
  rw [mwf_iff] at h
  unfold mset
  split
  · rename_i hv
    subst hv
    induction m with
    | nil => rfl
    | cons e m ih =>
      obtain ⟨j, w⟩ := e
      simp only [List.map_cons, List.pairwise_cons] at h
      simp only [merase]
      split
      · subst_vars
        match m, h.1.1 with
        | [], _ => rfl
        | (i, x) :: m, h1 =>
          have : j < i := h1 i (by simp)
          have h2 : i ≠ j := by omega
          simp [mget, h2, this]
      · split
        · simp [mget, *]
        · have hj : j ≠ k := by assumption
          simp only [mget, if_neg hj]
          rw [if_neg (by assumption)]
          exact ih ⟨h.1.2, fun e he => h.2 e (List.mem_cons_of_mem _ he)⟩
  · simp

/-- On a map in canonical form, a write leaves every other key as it was. -/
theorem mget_mset_other [DecidableEq α] (d : α) (m : Map α) (k k' : Nat) (v : α) (hk : k' ≠ k) (h : mwf d m = true) :
    mget d (mset d m k v) k' = mget d m k' := by
  rw [mwf_iff] at h
  unfold mset
  split
  · exact mget_merase_other d m k k' hk h.1
  · exact mget_minsert_other d m k k' v hk

end Sys2Proof.Machine
end

