-- ==== Sys2Proof/Laws/State.lean ====
section
/-! SUPPORT. One lemma per field and update of the state: what an update of Ops.lean does not write, it leaves. The updates
by a function are the same updates (Laws/Ops.lean). -/

namespace Sys2Proof.Machine

open Sys2Proof

variable (s : State)

/-! ### setCtx -/

@[simp] theorem setCtx_pending (n : Nat) (x : Ctx) : (s.setCtx n x).pending = s.pending := rfl
@[simp] theorem setCtx_out (n : Nat) (x : Ctx) : (s.setCtx n x).out = s.out := rfl
@[simp] theorem setCtx_free (n : Nat) (x : Ctx) : (s.setCtx n x).free = s.free := rfl
@[simp] theorem setCtx_now (n : Nat) (x : Ctx) : (s.setCtx n x).now = s.now := rfl
@[simp] theorem setCtx_stalled (n : Nat) (x : Ctx) : (s.setCtx n x).stalled = s.stalled := rfl
@[simp] theorem setCtx_turn (n : Nat) (x : Ctx) : (s.setCtx n x).turn = s.turn := rfl
@[simp] theorem setCtx_launches (n : Nat) (x : Ctx) : (s.setCtx n x).launches = s.launches := rfl
@[simp] theorem setCtx_nextLaunch (n : Nat) (x : Ctx) : (s.setCtx n x).nextLaunch = s.nextLaunch := rfl
@[simp] theorem setCtx_coxLaunches (n : Nat) (x : Ctx) : (s.setCtx n x).coxLaunches = s.coxLaunches := rfl
@[simp] theorem setCtx_saved (n : Nat) (x : Ctx) : (s.setCtx n x).saved = s.saved := rfl
@[simp] theorem setCtx_cores (n : Nat) (x : Ctx) : (s.setCtx n x).cores = s.cores := rfl
@[simp] theorem setCtx_slices (n : Nat) (x : Ctx) : (s.setCtx n x).slices = s.slices := rfl
@[simp] theorem setCtx_homes (n : Nat) (x : Ctx) : (s.setCtx n x).homes = s.homes := rfl
@[simp] theorem setCtx_hostLines (n : Nat) (x : Ctx) : (s.setCtx n x).hostLines = s.hostLines := rfl
@[simp] theorem setCtx_stamp (n : Nat) (x : Ctx) : (s.setCtx n x).stamp = s.stamp := rfl
@[simp] theorem setCtx_parts (n : Nat) (x : Ctx) : (s.setCtx n x).parts = s.parts := rfl
@[simp] theorem setCtx_regions (n : Nat) (x : Ctx) : (s.setCtx n x).regions = s.regions := rfl
@[simp] theorem setCtx_allocs (n : Nat) (x : Ctx) : (s.setCtx n x).allocs = s.allocs := rfl
@[simp] theorem setCtx_stage2 (n : Nat) (x : Ctx) : (s.setCtx n x).stage2 = s.stage2 := rfl
@[simp] theorem setCtx_tlb (n : Nat) (x : Ctx) : (s.setCtx n x).tlb = s.tlb := rfl
@[simp] theorem setCtx_segs (n : Nat) (x : Ctx) : (s.setCtx n x).segs = s.segs := rfl
@[simp] theorem setCtx_rebuilds (n : Nat) (x : Ctx) : (s.setCtx n x).rebuilds = s.rebuilds := rfl
@[simp] theorem setCtx_migRegion (n : Nat) (x : Ctx) : (s.setCtx n x).migRegion = s.migRegion := rfl
@[simp] theorem setCtx_migPart (n : Nat) (x : Ctx) : (s.setCtx n x).migPart = s.migPart := rfl
@[simp] theorem setCtx_hbmStacks (n : Nat) (x : Ctx) : (s.setCtx n x).hbmStacks = s.hbmStacks := rfl
@[simp] theorem setCtx_buckets (n : Nat) (x : Ctx) : (s.setCtx n x).buckets = s.buckets := rfl
@[simp] theorem setCtx_hbm (n : Nat) (x : Ctx) : (s.setCtx n x).hbm = s.hbm := rfl
@[simp] theorem setCtx_hbmPoison (n : Nat) (x : Ctx) : (s.setCtx n x).hbmPoison = s.hbmPoison := rfl
@[simp] theorem setCtx_slots (n : Nat) (x : Ctx) : (s.setCtx n x).slots = s.slots := rfl
@[simp] theorem setCtx_moves (n : Nat) (x : Ctx) : (s.setCtx n x).moves = s.moves := rfl
@[simp] theorem setCtx_mirrorQ (n : Nat) (x : Ctx) : (s.setCtx n x).mirrorQ = s.mirrorQ := rfl
@[simp] theorem setCtx_nextMark (n : Nat) (x : Ctx) : (s.setCtx n x).nextMark = s.nextMark := rfl
@[simp] theorem setCtx_funcs (n : Nat) (x : Ctx) : (s.setCtx n x).funcs = s.funcs := rfl
@[simp] theorem setCtx_linkUp (n : Nat) (x : Ctx) : (s.setCtx n x).linkUp = s.linkUp := rfl
@[simp] theorem setCtx_linkRate (n : Nat) (x : Ctx) : (s.setCtx n x).linkRate = s.linkRate := rfl
@[simp] theorem setCtx_linkWidth (n : Nat) (x : Ctx) : (s.setCtx n x).linkWidth = s.linkWidth := rfl
@[simp] theorem setCtx_linkFlit (n : Nat) (x : Ctx) : (s.setCtx n x).linkFlit = s.linkFlit := rfl
@[simp] theorem setCtx_hostReads (n : Nat) (x : Ctx) : (s.setCtx n x).hostReads = s.hostReads := rfl
@[simp] theorem setCtx_sris (n : Nat) (x : Ctx) : (s.setCtx n x).sris = s.sris := rfl
@[simp] theorem setCtx_numVfs (n : Nat) (x : Ctx) : (s.setCtx n x).numVfs = s.numVfs := rfl
@[simp] theorem setCtx_mitorReady (n : Nat) (x : Ctx) : (s.setCtx n x).mitorReady = s.mitorReady := rfl
@[simp] theorem setCtx_musLost (n : Nat) (x : Ctx) : (s.setCtx n x).musLost = s.musLost := rfl
@[simp] theorem setCtx_attnLow (n : Nat) (x : Ctx) : (s.setCtx n x).attnLow = s.attnLow := rfl
@[simp] theorem setCtx_wakeLow (n : Nat) (x : Ctx) : (s.setCtx n x).wakeLow = s.wakeLow := rfl
@[simp] theorem setCtx_removalPrepared (n : Nat) (x : Ctx) : (s.setCtx n x).removalPrepared = s.removalPrepared := rfl
@[simp] theorem setCtx_bucketTime (n : Nat) (x : Ctx) : (s.setCtx n x).bucketTime = s.bucketTime := rfl
@[simp] theorem setCtx_retired (n : Nat) (x : Ctx) : (s.setCtx n x).retired = s.retired := rfl
@[simp] theorem setCtx_coresOut (n : Nat) (x : Ctx) : (s.setCtx n x).coresOut = s.coresOut := rfl
@[simp] theorem setCtx_portEvents (n : Nat) (x : Ctx) : (s.setCtx n x).portEvents = s.portEvents := rfl
@[simp] theorem setCtx_ldgMsgs (n : Nat) (x : Ctx) : (s.setCtx n x).ldgMsgs = s.ldgMsgs := rfl
@[simp] theorem setCtx_kftOpen (n : Nat) (x : Ctx) : (s.setCtx n x).kftOpen = s.kftOpen := rfl
@[simp] theorem setCtx_coreBanks (n : Nat) (x : Ctx) : (s.setCtx n x).coreBanks = s.coreBanks := rfl
@[simp] theorem setCtx_galBanks (n : Nat) (x : Ctx) : (s.setCtx n x).galBanks = s.galBanks := rfl
@[simp] theorem setCtx_wideCounters (n : Nat) (x : Ctx) : (s.setCtx n x).wideCounters = s.wideCounters := rfl
@[simp] theorem setCtx_traces (n : Nat) (x : Ctx) : (s.setCtx n x).traces = s.traces := rfl
@[simp] theorem setCtx_logs (n : Nat) (x : Ctx) : (s.setCtx n x).logs = s.logs := rfl
@[simp] theorem setCtx_rasTimes (n : Nat) (x : Ctx) : (s.setCtx n x).rasTimes = s.rasTimes := rfl
@[simp] theorem setCtx_corrTimes (n : Nat) (x : Ctx) : (s.setCtx n x).corrTimes = s.corrTimes := rfl
@[simp] theorem setCtx_corrTold (n : Nat) (x : Ctx) : (s.setCtx n x).corrTold = s.corrTold := rfl
@[simp] theorem setCtx_thresholds (n : Nat) (x : Ctx) : (s.setCtx n x).thresholds = s.thresholds := rfl
@[simp] theorem setCtx_moveJobs (n : Nat) (x : Ctx) : (s.setCtx n x).moveJobs = s.moveJobs := rfl
@[simp] theorem setCtx_tableMoves (n : Nat) (x : Ctx) : (s.setCtx n x).tableMoves = s.tableMoves := rfl
@[simp] theorem setCtx_drains (n : Nat) (x : Ctx) : (s.setCtx n x).drains = s.drains := rfl
@[simp] theorem setCtx_poisonTimes (n : Nat) (x : Ctx) : (s.setCtx n x).poisonTimes = s.poisonTimes := rfl
@[simp] theorem setCtx_mailboxes (n : Nat) (x : Ctx) : (s.setCtx n x).mailboxes = s.mailboxes := rfl
@[simp] theorem setCtx_taken (n : Nat) (x : Ctx) : (s.setCtx n x).taken = s.taken := rfl
@[simp] theorem setCtx_keyLast (n : Nat) (x : Ctx) : (s.setCtx n x).keyLast = s.keyLast := rfl
@[simp] theorem setCtx_conf (n : Nat) (x : Ctx) : (s.setCtx n x).conf = s.conf := rfl
@[simp] theorem setCtx_bankA (n : Nat) (x : Ctx) : (s.setCtx n x).bankA = s.bankA := rfl
@[simp] theorem setCtx_bankB (n : Nat) (x : Ctx) : (s.setCtx n x).bankB = s.bankB := rfl
@[simp] theorem setCtx_curBank (n : Nat) (x : Ctx) : (s.setCtx n x).curBank = s.curBank := rfl
@[simp] theorem setCtx_writing (n : Nat) (x : Ctx) : (s.setCtx n x).writing = s.writing := rfl
@[simp] theorem setCtx_writeNo (n : Nat) (x : Ctx) : (s.setCtx n x).writeNo = s.writeNo := rfl
@[simp] theorem setCtx_storeDirty (n : Nat) (x : Ctx) : (s.setCtx n x).storeDirty = s.storeDirty := rfl
@[simp] theorem setCtx_audit (n : Nat) (x : Ctx) : (s.setCtx n x).audit = s.audit := rfl
@[simp] theorem setCtx_auditNext (n : Nat) (x : Ctx) : (s.setCtx n x).auditNext = s.auditNext := rfl
@[simp] theorem setCtx_boots (n : Nat) (x : Ctx) : (s.setCtx n x).boots = s.boots := rfl
@[simp] theorem setCtx_rtcStart (n : Nat) (x : Ctx) : (s.setCtx n x).rtcStart = s.rtcStart := rfl
@[simp] theorem setCtx_fwSlots (n : Nat) (x : Ctx) : (s.setCtx n x).fwSlots = s.fwSlots := rfl
@[simp] theorem setCtx_running (n : Nat) (x : Ctx) : (s.setCtx n x).running = s.running := rfl
@[simp] theorem setCtx_seed (n : Nat) (x : Ctx) : (s.setCtx n x).seed = s.seed := rfl
@[simp] theorem setCtx_makerAllowed (n : Nat) (x : Ctx) : (s.setCtx n x).makerAllowed = s.makerAllowed := rfl
@[simp] theorem setCtx_scopes (n : Nat) (x : Ctx) : (s.setCtx n x).scopes = s.scopes := rfl
@[simp] theorem setCtx_reports (n : Nat) (x : Ctx) : (s.setCtx n x).reports = s.reports := rfl
@[simp] theorem setCtx_sideEid (n : Nat) (x : Ctx) : (s.setCtx n x).sideEid = s.sideEid := rfl
@[simp] theorem setCtx_selfTests (n : Nat) (x : Ctx) : (s.setCtx n x).selfTests = s.selfTests := rfl
@[simp] theorem setCtx_aside (n : Nat) (x : Ctx) : (s.setCtx n x).aside = s.aside := rfl
@[simp] theorem setCtx_ports (n : Nat) (x : Ctx) : (s.setCtx n x).ports = s.ports := rfl
@[simp] theorem setCtx_subPorts (n : Nat) (x : Ctx) : (s.setCtx n x).subPorts = s.subPorts := rfl
@[simp] theorem setCtx_assocs (n : Nat) (x : Ctx) : (s.setCtx n x).assocs = s.assocs := rfl
@[simp] theorem setCtx_queues (n : Nat) (x : Ctx) : (s.setCtx n x).queues = s.queues := rfl
@[simp] theorem setCtx_nextWork (n : Nat) (x : Ctx) : (s.setCtx n x).nextWork = s.nextWork := rfl
@[simp] theorem setCtx_udpPort (n : Nat) (x : Ctx) : (s.setCtx n x).udpPort = s.udpPort := rfl
@[simp] theorem setCtx_neighbours (n : Nat) (x : Ctx) : (s.setCtx n x).neighbours = s.neighbours := rfl
@[simp] theorem setCtx_supply (n : Nat) (x : Ctx) : (s.setCtx n x).supply = s.supply := rfl
@[simp] theorem setCtx_pwrEn (n : Nat) (x : Ctx) : (s.setCtx n x).pwrEn = s.pwrEn := rfl
@[simp] theorem setCtx_pwrGood (n : Nat) (x : Ctx) : (s.setCtx n x).pwrGood = s.pwrGood := rfl
@[simp] theorem setCtx_perstN (n : Nat) (x : Ctx) : (s.setCtx n x).perstN = s.perstN := rfl
@[simp] theorem setCtx_lockout (n : Nat) (x : Ctx) : (s.setCtx n x).lockout = s.lockout := rfl
@[simp] theorem setCtx_brownSince (n : Nat) (x : Ctx) : (s.setCtx n x).brownSince = s.brownSince := rfl
@[simp] theorem setCtx_goodSince (n : Nat) (x : Ctx) : (s.setCtx n x).goodSince = s.goodSince := rfl
@[simp] theorem setCtx_gals (n : Nat) (x : Ctx) : (s.setCtx n x).gals = s.gals := rfl
@[simp] theorem setCtx_hostCores (n : Nat) (x : Ctx) : (s.setCtx n x).hostCores = s.hostCores := rfl
@[simp] theorem setCtx_uncoreIdle (n : Nat) (x : Ctx) : (s.setCtx n x).uncoreIdle = s.uncoreIdle := rfl
@[simp] theorem setCtx_memStep (n : Nat) (x : Ctx) : (s.setCtx n x).memStep = s.memStep := rfl
@[simp] theorem setCtx_railSteps (n : Nat) (x : Ctx) : (s.setCtx n x).railSteps = s.railSteps := rfl
@[simp] theorem setCtx_allocAt (n : Nat) (x : Ctx) : (s.setCtx n x).allocAt = s.allocAt := rfl
@[simp] theorem setCtx_readings (n : Nat) (x : Ctx) : (s.setCtx n x).readings = s.readings := rfl
@[simp] theorem setCtx_tripped (n : Nat) (x : Ctx) : (s.setCtx n x).tripped = s.tripped := rfl
@[simp] theorem setCtx_stretched (n : Nat) (x : Ctx) : (s.setCtx n x).stretched = s.stretched := rfl
@[simp] theorem setCtx_heat (n : Nat) (x : Ctx) : (s.setCtx n x).heat = s.heat := rfl
@[simp] theorem setCtx_budgets (n : Nat) (x : Ctx) : (s.setCtx n x).budgets = s.budgets := rfl
@[simp] theorem setCtx_mitorUp (n : Nat) (x : Ctx) : (s.setCtx n x).mitorUp = s.mitorUp := rfl
@[simp] theorem setCtx_bootStopped (n : Nat) (x : Ctx) : (s.setCtx n x).bootStopped = s.bootStopped := rfl
@[simp] theorem setCtx_layoutDue (n : Nat) (x : Ctx) : (s.setCtx n x).layoutDue = s.layoutDue := rfl
@[simp] theorem setCtx_activeMu (n : Nat) (x : Ctx) : (s.setCtx n x).activeMu = s.activeMu := rfl
@[simp] theorem setCtx_muAsleep (n : Nat) (x : Ctx) : (s.setCtx n x).muAsleep = s.muAsleep := rfl
@[simp] theorem setCtx_muTested (n : Nat) (x : Ctx) : (s.setCtx n x).muTested = s.muTested := rfl
@[simp] theorem setCtx_softResets (n : Nat) (x : Ctx) : (s.setCtx n x).softResets = s.softResets := rfl
@[simp] theorem setCtx_activation (n : Nat) (x : Ctx) : (s.setCtx n x).activation = s.activation := rfl
@[simp] theorem setCtx_siteTests (n : Nat) (x : Ctx) : (s.setCtx n x).siteTests = s.siteTests := rfl
@[simp] theorem setCtx_recalAt (n : Nat) (x : Ctx) : (s.setCtx n x).recalAt = s.recalAt := rfl
@[simp] theorem setCtx_paddleEnergy (n : Nat) (x : Ctx) : (s.setCtx n x).paddleEnergy = s.paddleEnergy := rfl

/-! ### setCore -/

@[simp] theorem setCore_pending (n : Nat) (x : Core) : (s.setCore n x).pending = s.pending := rfl
@[simp] theorem setCore_out (n : Nat) (x : Core) : (s.setCore n x).out = s.out := rfl
@[simp] theorem setCore_free (n : Nat) (x : Core) : (s.setCore n x).free = s.free := rfl
@[simp] theorem setCore_now (n : Nat) (x : Core) : (s.setCore n x).now = s.now := rfl
@[simp] theorem setCore_stalled (n : Nat) (x : Core) : (s.setCore n x).stalled = s.stalled := rfl
@[simp] theorem setCore_ctxs (n : Nat) (x : Core) : (s.setCore n x).ctxs = s.ctxs := rfl
@[simp] theorem setCore_turn (n : Nat) (x : Core) : (s.setCore n x).turn = s.turn := rfl
@[simp] theorem setCore_launches (n : Nat) (x : Core) : (s.setCore n x).launches = s.launches := rfl
@[simp] theorem setCore_nextLaunch (n : Nat) (x : Core) : (s.setCore n x).nextLaunch = s.nextLaunch := rfl
@[simp] theorem setCore_coxLaunches (n : Nat) (x : Core) : (s.setCore n x).coxLaunches = s.coxLaunches := rfl
@[simp] theorem setCore_saved (n : Nat) (x : Core) : (s.setCore n x).saved = s.saved := rfl
@[simp] theorem setCore_slices (n : Nat) (x : Core) : (s.setCore n x).slices = s.slices := rfl
@[simp] theorem setCore_homes (n : Nat) (x : Core) : (s.setCore n x).homes = s.homes := rfl
@[simp] theorem setCore_hostLines (n : Nat) (x : Core) : (s.setCore n x).hostLines = s.hostLines := rfl
@[simp] theorem setCore_stamp (n : Nat) (x : Core) : (s.setCore n x).stamp = s.stamp := rfl
@[simp] theorem setCore_parts (n : Nat) (x : Core) : (s.setCore n x).parts = s.parts := rfl
@[simp] theorem setCore_regions (n : Nat) (x : Core) : (s.setCore n x).regions = s.regions := rfl
@[simp] theorem setCore_allocs (n : Nat) (x : Core) : (s.setCore n x).allocs = s.allocs := rfl
@[simp] theorem setCore_stage2 (n : Nat) (x : Core) : (s.setCore n x).stage2 = s.stage2 := rfl
@[simp] theorem setCore_tlb (n : Nat) (x : Core) : (s.setCore n x).tlb = s.tlb := rfl
@[simp] theorem setCore_segs (n : Nat) (x : Core) : (s.setCore n x).segs = s.segs := rfl
@[simp] theorem setCore_rebuilds (n : Nat) (x : Core) : (s.setCore n x).rebuilds = s.rebuilds := rfl
@[simp] theorem setCore_migRegion (n : Nat) (x : Core) : (s.setCore n x).migRegion = s.migRegion := rfl
@[simp] theorem setCore_migPart (n : Nat) (x : Core) : (s.setCore n x).migPart = s.migPart := rfl
@[simp] theorem setCore_hbmStacks (n : Nat) (x : Core) : (s.setCore n x).hbmStacks = s.hbmStacks := rfl
@[simp] theorem setCore_buckets (n : Nat) (x : Core) : (s.setCore n x).buckets = s.buckets := rfl
@[simp] theorem setCore_hbm (n : Nat) (x : Core) : (s.setCore n x).hbm = s.hbm := rfl
@[simp] theorem setCore_hbmPoison (n : Nat) (x : Core) : (s.setCore n x).hbmPoison = s.hbmPoison := rfl
@[simp] theorem setCore_slots (n : Nat) (x : Core) : (s.setCore n x).slots = s.slots := rfl
@[simp] theorem setCore_moves (n : Nat) (x : Core) : (s.setCore n x).moves = s.moves := rfl
@[simp] theorem setCore_mirrorQ (n : Nat) (x : Core) : (s.setCore n x).mirrorQ = s.mirrorQ := rfl
@[simp] theorem setCore_nextMark (n : Nat) (x : Core) : (s.setCore n x).nextMark = s.nextMark := rfl
@[simp] theorem setCore_funcs (n : Nat) (x : Core) : (s.setCore n x).funcs = s.funcs := rfl
@[simp] theorem setCore_linkUp (n : Nat) (x : Core) : (s.setCore n x).linkUp = s.linkUp := rfl
@[simp] theorem setCore_linkRate (n : Nat) (x : Core) : (s.setCore n x).linkRate = s.linkRate := rfl
@[simp] theorem setCore_linkWidth (n : Nat) (x : Core) : (s.setCore n x).linkWidth = s.linkWidth := rfl
@[simp] theorem setCore_linkFlit (n : Nat) (x : Core) : (s.setCore n x).linkFlit = s.linkFlit := rfl
@[simp] theorem setCore_hostReads (n : Nat) (x : Core) : (s.setCore n x).hostReads = s.hostReads := rfl
@[simp] theorem setCore_sris (n : Nat) (x : Core) : (s.setCore n x).sris = s.sris := rfl
@[simp] theorem setCore_numVfs (n : Nat) (x : Core) : (s.setCore n x).numVfs = s.numVfs := rfl
@[simp] theorem setCore_mitorReady (n : Nat) (x : Core) : (s.setCore n x).mitorReady = s.mitorReady := rfl
@[simp] theorem setCore_musLost (n : Nat) (x : Core) : (s.setCore n x).musLost = s.musLost := rfl
@[simp] theorem setCore_attnLow (n : Nat) (x : Core) : (s.setCore n x).attnLow = s.attnLow := rfl
@[simp] theorem setCore_wakeLow (n : Nat) (x : Core) : (s.setCore n x).wakeLow = s.wakeLow := rfl
@[simp] theorem setCore_removalPrepared (n : Nat) (x : Core) : (s.setCore n x).removalPrepared = s.removalPrepared := rfl
@[simp] theorem setCore_bucketTime (n : Nat) (x : Core) : (s.setCore n x).bucketTime = s.bucketTime := rfl
@[simp] theorem setCore_retired (n : Nat) (x : Core) : (s.setCore n x).retired = s.retired := rfl
@[simp] theorem setCore_coresOut (n : Nat) (x : Core) : (s.setCore n x).coresOut = s.coresOut := rfl
@[simp] theorem setCore_portEvents (n : Nat) (x : Core) : (s.setCore n x).portEvents = s.portEvents := rfl
@[simp] theorem setCore_ldgMsgs (n : Nat) (x : Core) : (s.setCore n x).ldgMsgs = s.ldgMsgs := rfl
@[simp] theorem setCore_kftOpen (n : Nat) (x : Core) : (s.setCore n x).kftOpen = s.kftOpen := rfl
@[simp] theorem setCore_coreBanks (n : Nat) (x : Core) : (s.setCore n x).coreBanks = s.coreBanks := rfl
@[simp] theorem setCore_galBanks (n : Nat) (x : Core) : (s.setCore n x).galBanks = s.galBanks := rfl
@[simp] theorem setCore_wideCounters (n : Nat) (x : Core) : (s.setCore n x).wideCounters = s.wideCounters := rfl
@[simp] theorem setCore_traces (n : Nat) (x : Core) : (s.setCore n x).traces = s.traces := rfl
@[simp] theorem setCore_logs (n : Nat) (x : Core) : (s.setCore n x).logs = s.logs := rfl
@[simp] theorem setCore_rasTimes (n : Nat) (x : Core) : (s.setCore n x).rasTimes = s.rasTimes := rfl
@[simp] theorem setCore_corrTimes (n : Nat) (x : Core) : (s.setCore n x).corrTimes = s.corrTimes := rfl
@[simp] theorem setCore_corrTold (n : Nat) (x : Core) : (s.setCore n x).corrTold = s.corrTold := rfl
@[simp] theorem setCore_thresholds (n : Nat) (x : Core) : (s.setCore n x).thresholds = s.thresholds := rfl
@[simp] theorem setCore_moveJobs (n : Nat) (x : Core) : (s.setCore n x).moveJobs = s.moveJobs := rfl
@[simp] theorem setCore_tableMoves (n : Nat) (x : Core) : (s.setCore n x).tableMoves = s.tableMoves := rfl
@[simp] theorem setCore_drains (n : Nat) (x : Core) : (s.setCore n x).drains = s.drains := rfl
@[simp] theorem setCore_poisonTimes (n : Nat) (x : Core) : (s.setCore n x).poisonTimes = s.poisonTimes := rfl
@[simp] theorem setCore_mailboxes (n : Nat) (x : Core) : (s.setCore n x).mailboxes = s.mailboxes := rfl
@[simp] theorem setCore_taken (n : Nat) (x : Core) : (s.setCore n x).taken = s.taken := rfl
@[simp] theorem setCore_keyLast (n : Nat) (x : Core) : (s.setCore n x).keyLast = s.keyLast := rfl
@[simp] theorem setCore_conf (n : Nat) (x : Core) : (s.setCore n x).conf = s.conf := rfl
@[simp] theorem setCore_bankA (n : Nat) (x : Core) : (s.setCore n x).bankA = s.bankA := rfl
@[simp] theorem setCore_bankB (n : Nat) (x : Core) : (s.setCore n x).bankB = s.bankB := rfl
@[simp] theorem setCore_curBank (n : Nat) (x : Core) : (s.setCore n x).curBank = s.curBank := rfl
@[simp] theorem setCore_writing (n : Nat) (x : Core) : (s.setCore n x).writing = s.writing := rfl
@[simp] theorem setCore_writeNo (n : Nat) (x : Core) : (s.setCore n x).writeNo = s.writeNo := rfl
@[simp] theorem setCore_storeDirty (n : Nat) (x : Core) : (s.setCore n x).storeDirty = s.storeDirty := rfl
@[simp] theorem setCore_audit (n : Nat) (x : Core) : (s.setCore n x).audit = s.audit := rfl
@[simp] theorem setCore_auditNext (n : Nat) (x : Core) : (s.setCore n x).auditNext = s.auditNext := rfl
@[simp] theorem setCore_boots (n : Nat) (x : Core) : (s.setCore n x).boots = s.boots := rfl
@[simp] theorem setCore_rtcStart (n : Nat) (x : Core) : (s.setCore n x).rtcStart = s.rtcStart := rfl
@[simp] theorem setCore_fwSlots (n : Nat) (x : Core) : (s.setCore n x).fwSlots = s.fwSlots := rfl
@[simp] theorem setCore_running (n : Nat) (x : Core) : (s.setCore n x).running = s.running := rfl
@[simp] theorem setCore_seed (n : Nat) (x : Core) : (s.setCore n x).seed = s.seed := rfl
@[simp] theorem setCore_makerAllowed (n : Nat) (x : Core) : (s.setCore n x).makerAllowed = s.makerAllowed := rfl
@[simp] theorem setCore_scopes (n : Nat) (x : Core) : (s.setCore n x).scopes = s.scopes := rfl
@[simp] theorem setCore_reports (n : Nat) (x : Core) : (s.setCore n x).reports = s.reports := rfl
@[simp] theorem setCore_sideEid (n : Nat) (x : Core) : (s.setCore n x).sideEid = s.sideEid := rfl
@[simp] theorem setCore_selfTests (n : Nat) (x : Core) : (s.setCore n x).selfTests = s.selfTests := rfl
@[simp] theorem setCore_aside (n : Nat) (x : Core) : (s.setCore n x).aside = s.aside := rfl
@[simp] theorem setCore_ports (n : Nat) (x : Core) : (s.setCore n x).ports = s.ports := rfl
@[simp] theorem setCore_subPorts (n : Nat) (x : Core) : (s.setCore n x).subPorts = s.subPorts := rfl
@[simp] theorem setCore_assocs (n : Nat) (x : Core) : (s.setCore n x).assocs = s.assocs := rfl
@[simp] theorem setCore_queues (n : Nat) (x : Core) : (s.setCore n x).queues = s.queues := rfl
@[simp] theorem setCore_nextWork (n : Nat) (x : Core) : (s.setCore n x).nextWork = s.nextWork := rfl
@[simp] theorem setCore_udpPort (n : Nat) (x : Core) : (s.setCore n x).udpPort = s.udpPort := rfl
@[simp] theorem setCore_neighbours (n : Nat) (x : Core) : (s.setCore n x).neighbours = s.neighbours := rfl
@[simp] theorem setCore_supply (n : Nat) (x : Core) : (s.setCore n x).supply = s.supply := rfl
@[simp] theorem setCore_pwrEn (n : Nat) (x : Core) : (s.setCore n x).pwrEn = s.pwrEn := rfl
@[simp] theorem setCore_pwrGood (n : Nat) (x : Core) : (s.setCore n x).pwrGood = s.pwrGood := rfl
@[simp] theorem setCore_perstN (n : Nat) (x : Core) : (s.setCore n x).perstN = s.perstN := rfl
@[simp] theorem setCore_lockout (n : Nat) (x : Core) : (s.setCore n x).lockout = s.lockout := rfl
@[simp] theorem setCore_brownSince (n : Nat) (x : Core) : (s.setCore n x).brownSince = s.brownSince := rfl
@[simp] theorem setCore_goodSince (n : Nat) (x : Core) : (s.setCore n x).goodSince = s.goodSince := rfl
@[simp] theorem setCore_gals (n : Nat) (x : Core) : (s.setCore n x).gals = s.gals := rfl
@[simp] theorem setCore_hostCores (n : Nat) (x : Core) : (s.setCore n x).hostCores = s.hostCores := rfl
@[simp] theorem setCore_uncoreIdle (n : Nat) (x : Core) : (s.setCore n x).uncoreIdle = s.uncoreIdle := rfl
@[simp] theorem setCore_memStep (n : Nat) (x : Core) : (s.setCore n x).memStep = s.memStep := rfl
@[simp] theorem setCore_railSteps (n : Nat) (x : Core) : (s.setCore n x).railSteps = s.railSteps := rfl
@[simp] theorem setCore_allocAt (n : Nat) (x : Core) : (s.setCore n x).allocAt = s.allocAt := rfl
@[simp] theorem setCore_readings (n : Nat) (x : Core) : (s.setCore n x).readings = s.readings := rfl
@[simp] theorem setCore_tripped (n : Nat) (x : Core) : (s.setCore n x).tripped = s.tripped := rfl
@[simp] theorem setCore_stretched (n : Nat) (x : Core) : (s.setCore n x).stretched = s.stretched := rfl
@[simp] theorem setCore_heat (n : Nat) (x : Core) : (s.setCore n x).heat = s.heat := rfl
@[simp] theorem setCore_budgets (n : Nat) (x : Core) : (s.setCore n x).budgets = s.budgets := rfl
@[simp] theorem setCore_mitorUp (n : Nat) (x : Core) : (s.setCore n x).mitorUp = s.mitorUp := rfl
@[simp] theorem setCore_bootStopped (n : Nat) (x : Core) : (s.setCore n x).bootStopped = s.bootStopped := rfl
@[simp] theorem setCore_layoutDue (n : Nat) (x : Core) : (s.setCore n x).layoutDue = s.layoutDue := rfl
@[simp] theorem setCore_activeMu (n : Nat) (x : Core) : (s.setCore n x).activeMu = s.activeMu := rfl
@[simp] theorem setCore_muAsleep (n : Nat) (x : Core) : (s.setCore n x).muAsleep = s.muAsleep := rfl
@[simp] theorem setCore_muTested (n : Nat) (x : Core) : (s.setCore n x).muTested = s.muTested := rfl
@[simp] theorem setCore_softResets (n : Nat) (x : Core) : (s.setCore n x).softResets = s.softResets := rfl
@[simp] theorem setCore_activation (n : Nat) (x : Core) : (s.setCore n x).activation = s.activation := rfl
@[simp] theorem setCore_siteTests (n : Nat) (x : Core) : (s.setCore n x).siteTests = s.siteTests := rfl
@[simp] theorem setCore_recalAt (n : Nat) (x : Core) : (s.setCore n x).recalAt = s.recalAt := rfl
@[simp] theorem setCore_paddleEnergy (n : Nat) (x : Core) : (s.setCore n x).paddleEnergy = s.paddleEnergy := rfl

/-! ### setCrew -/

@[simp] theorem setCrew_pending (c k : Nat) (x : Crew) : (s.setCrew c k x).pending = s.pending := rfl
@[simp] theorem setCrew_out (c k : Nat) (x : Crew) : (s.setCrew c k x).out = s.out := rfl
@[simp] theorem setCrew_free (c k : Nat) (x : Crew) : (s.setCrew c k x).free = s.free := rfl
@[simp] theorem setCrew_now (c k : Nat) (x : Crew) : (s.setCrew c k x).now = s.now := rfl
@[simp] theorem setCrew_stalled (c k : Nat) (x : Crew) : (s.setCrew c k x).stalled = s.stalled := rfl
@[simp] theorem setCrew_ctxs (c k : Nat) (x : Crew) : (s.setCrew c k x).ctxs = s.ctxs := rfl
@[simp] theorem setCrew_turn (c k : Nat) (x : Crew) : (s.setCrew c k x).turn = s.turn := rfl
@[simp] theorem setCrew_launches (c k : Nat) (x : Crew) : (s.setCrew c k x).launches = s.launches := rfl
@[simp] theorem setCrew_nextLaunch (c k : Nat) (x : Crew) : (s.setCrew c k x).nextLaunch = s.nextLaunch := rfl
@[simp] theorem setCrew_coxLaunches (c k : Nat) (x : Crew) : (s.setCrew c k x).coxLaunches = s.coxLaunches := rfl
@[simp] theorem setCrew_saved (c k : Nat) (x : Crew) : (s.setCrew c k x).saved = s.saved := rfl
@[simp] theorem setCrew_slices (c k : Nat) (x : Crew) : (s.setCrew c k x).slices = s.slices := rfl
@[simp] theorem setCrew_homes (c k : Nat) (x : Crew) : (s.setCrew c k x).homes = s.homes := rfl
@[simp] theorem setCrew_hostLines (c k : Nat) (x : Crew) : (s.setCrew c k x).hostLines = s.hostLines := rfl
@[simp] theorem setCrew_stamp (c k : Nat) (x : Crew) : (s.setCrew c k x).stamp = s.stamp := rfl
@[simp] theorem setCrew_parts (c k : Nat) (x : Crew) : (s.setCrew c k x).parts = s.parts := rfl
@[simp] theorem setCrew_regions (c k : Nat) (x : Crew) : (s.setCrew c k x).regions = s.regions := rfl
@[simp] theorem setCrew_allocs (c k : Nat) (x : Crew) : (s.setCrew c k x).allocs = s.allocs := rfl
@[simp] theorem setCrew_stage2 (c k : Nat) (x : Crew) : (s.setCrew c k x).stage2 = s.stage2 := rfl
@[simp] theorem setCrew_tlb (c k : Nat) (x : Crew) : (s.setCrew c k x).tlb = s.tlb := rfl
@[simp] theorem setCrew_segs (c k : Nat) (x : Crew) : (s.setCrew c k x).segs = s.segs := rfl
@[simp] theorem setCrew_rebuilds (c k : Nat) (x : Crew) : (s.setCrew c k x).rebuilds = s.rebuilds := rfl
@[simp] theorem setCrew_migRegion (c k : Nat) (x : Crew) : (s.setCrew c k x).migRegion = s.migRegion := rfl
@[simp] theorem setCrew_migPart (c k : Nat) (x : Crew) : (s.setCrew c k x).migPart = s.migPart := rfl
@[simp] theorem setCrew_hbmStacks (c k : Nat) (x : Crew) : (s.setCrew c k x).hbmStacks = s.hbmStacks := rfl
@[simp] theorem setCrew_buckets (c k : Nat) (x : Crew) : (s.setCrew c k x).buckets = s.buckets := rfl
@[simp] theorem setCrew_hbm (c k : Nat) (x : Crew) : (s.setCrew c k x).hbm = s.hbm := rfl
@[simp] theorem setCrew_hbmPoison (c k : Nat) (x : Crew) : (s.setCrew c k x).hbmPoison = s.hbmPoison := rfl
@[simp] theorem setCrew_slots (c k : Nat) (x : Crew) : (s.setCrew c k x).slots = s.slots := rfl
@[simp] theorem setCrew_moves (c k : Nat) (x : Crew) : (s.setCrew c k x).moves = s.moves := rfl
@[simp] theorem setCrew_mirrorQ (c k : Nat) (x : Crew) : (s.setCrew c k x).mirrorQ = s.mirrorQ := rfl
@[simp] theorem setCrew_nextMark (c k : Nat) (x : Crew) : (s.setCrew c k x).nextMark = s.nextMark := rfl
@[simp] theorem setCrew_funcs (c k : Nat) (x : Crew) : (s.setCrew c k x).funcs = s.funcs := rfl
@[simp] theorem setCrew_linkUp (c k : Nat) (x : Crew) : (s.setCrew c k x).linkUp = s.linkUp := rfl
@[simp] theorem setCrew_linkRate (c k : Nat) (x : Crew) : (s.setCrew c k x).linkRate = s.linkRate := rfl
@[simp] theorem setCrew_linkWidth (c k : Nat) (x : Crew) : (s.setCrew c k x).linkWidth = s.linkWidth := rfl
@[simp] theorem setCrew_linkFlit (c k : Nat) (x : Crew) : (s.setCrew c k x).linkFlit = s.linkFlit := rfl
@[simp] theorem setCrew_hostReads (c k : Nat) (x : Crew) : (s.setCrew c k x).hostReads = s.hostReads := rfl
@[simp] theorem setCrew_sris (c k : Nat) (x : Crew) : (s.setCrew c k x).sris = s.sris := rfl
@[simp] theorem setCrew_numVfs (c k : Nat) (x : Crew) : (s.setCrew c k x).numVfs = s.numVfs := rfl
@[simp] theorem setCrew_mitorReady (c k : Nat) (x : Crew) : (s.setCrew c k x).mitorReady = s.mitorReady := rfl
@[simp] theorem setCrew_musLost (c k : Nat) (x : Crew) : (s.setCrew c k x).musLost = s.musLost := rfl
@[simp] theorem setCrew_attnLow (c k : Nat) (x : Crew) : (s.setCrew c k x).attnLow = s.attnLow := rfl
@[simp] theorem setCrew_wakeLow (c k : Nat) (x : Crew) : (s.setCrew c k x).wakeLow = s.wakeLow := rfl
@[simp] theorem setCrew_removalPrepared (c k : Nat) (x : Crew) : (s.setCrew c k x).removalPrepared = s.removalPrepared := rfl
@[simp] theorem setCrew_bucketTime (c k : Nat) (x : Crew) : (s.setCrew c k x).bucketTime = s.bucketTime := rfl
@[simp] theorem setCrew_retired (c k : Nat) (x : Crew) : (s.setCrew c k x).retired = s.retired := rfl
@[simp] theorem setCrew_coresOut (c k : Nat) (x : Crew) : (s.setCrew c k x).coresOut = s.coresOut := rfl
@[simp] theorem setCrew_portEvents (c k : Nat) (x : Crew) : (s.setCrew c k x).portEvents = s.portEvents := rfl
@[simp] theorem setCrew_ldgMsgs (c k : Nat) (x : Crew) : (s.setCrew c k x).ldgMsgs = s.ldgMsgs := rfl
@[simp] theorem setCrew_kftOpen (c k : Nat) (x : Crew) : (s.setCrew c k x).kftOpen = s.kftOpen := rfl
@[simp] theorem setCrew_coreBanks (c k : Nat) (x : Crew) : (s.setCrew c k x).coreBanks = s.coreBanks := rfl
@[simp] theorem setCrew_galBanks (c k : Nat) (x : Crew) : (s.setCrew c k x).galBanks = s.galBanks := rfl
@[simp] theorem setCrew_wideCounters (c k : Nat) (x : Crew) : (s.setCrew c k x).wideCounters = s.wideCounters := rfl
@[simp] theorem setCrew_traces (c k : Nat) (x : Crew) : (s.setCrew c k x).traces = s.traces := rfl
@[simp] theorem setCrew_logs (c k : Nat) (x : Crew) : (s.setCrew c k x).logs = s.logs := rfl
@[simp] theorem setCrew_rasTimes (c k : Nat) (x : Crew) : (s.setCrew c k x).rasTimes = s.rasTimes := rfl
@[simp] theorem setCrew_corrTimes (c k : Nat) (x : Crew) : (s.setCrew c k x).corrTimes = s.corrTimes := rfl
@[simp] theorem setCrew_corrTold (c k : Nat) (x : Crew) : (s.setCrew c k x).corrTold = s.corrTold := rfl
@[simp] theorem setCrew_thresholds (c k : Nat) (x : Crew) : (s.setCrew c k x).thresholds = s.thresholds := rfl
@[simp] theorem setCrew_moveJobs (c k : Nat) (x : Crew) : (s.setCrew c k x).moveJobs = s.moveJobs := rfl
@[simp] theorem setCrew_tableMoves (c k : Nat) (x : Crew) : (s.setCrew c k x).tableMoves = s.tableMoves := rfl
@[simp] theorem setCrew_drains (c k : Nat) (x : Crew) : (s.setCrew c k x).drains = s.drains := rfl
@[simp] theorem setCrew_poisonTimes (c k : Nat) (x : Crew) : (s.setCrew c k x).poisonTimes = s.poisonTimes := rfl
@[simp] theorem setCrew_mailboxes (c k : Nat) (x : Crew) : (s.setCrew c k x).mailboxes = s.mailboxes := rfl
@[simp] theorem setCrew_taken (c k : Nat) (x : Crew) : (s.setCrew c k x).taken = s.taken := rfl
@[simp] theorem setCrew_keyLast (c k : Nat) (x : Crew) : (s.setCrew c k x).keyLast = s.keyLast := rfl
@[simp] theorem setCrew_conf (c k : Nat) (x : Crew) : (s.setCrew c k x).conf = s.conf := rfl
@[simp] theorem setCrew_bankA (c k : Nat) (x : Crew) : (s.setCrew c k x).bankA = s.bankA := rfl
@[simp] theorem setCrew_bankB (c k : Nat) (x : Crew) : (s.setCrew c k x).bankB = s.bankB := rfl
@[simp] theorem setCrew_curBank (c k : Nat) (x : Crew) : (s.setCrew c k x).curBank = s.curBank := rfl
@[simp] theorem setCrew_writing (c k : Nat) (x : Crew) : (s.setCrew c k x).writing = s.writing := rfl
@[simp] theorem setCrew_writeNo (c k : Nat) (x : Crew) : (s.setCrew c k x).writeNo = s.writeNo := rfl
@[simp] theorem setCrew_storeDirty (c k : Nat) (x : Crew) : (s.setCrew c k x).storeDirty = s.storeDirty := rfl
@[simp] theorem setCrew_audit (c k : Nat) (x : Crew) : (s.setCrew c k x).audit = s.audit := rfl
@[simp] theorem setCrew_auditNext (c k : Nat) (x : Crew) : (s.setCrew c k x).auditNext = s.auditNext := rfl
@[simp] theorem setCrew_boots (c k : Nat) (x : Crew) : (s.setCrew c k x).boots = s.boots := rfl
@[simp] theorem setCrew_rtcStart (c k : Nat) (x : Crew) : (s.setCrew c k x).rtcStart = s.rtcStart := rfl
@[simp] theorem setCrew_fwSlots (c k : Nat) (x : Crew) : (s.setCrew c k x).fwSlots = s.fwSlots := rfl
@[simp] theorem setCrew_running (c k : Nat) (x : Crew) : (s.setCrew c k x).running = s.running := rfl
@[simp] theorem setCrew_seed (c k : Nat) (x : Crew) : (s.setCrew c k x).seed = s.seed := rfl
@[simp] theorem setCrew_makerAllowed (c k : Nat) (x : Crew) : (s.setCrew c k x).makerAllowed = s.makerAllowed := rfl
@[simp] theorem setCrew_scopes (c k : Nat) (x : Crew) : (s.setCrew c k x).scopes = s.scopes := rfl
@[simp] theorem setCrew_reports (c k : Nat) (x : Crew) : (s.setCrew c k x).reports = s.reports := rfl
@[simp] theorem setCrew_sideEid (c k : Nat) (x : Crew) : (s.setCrew c k x).sideEid = s.sideEid := rfl
@[simp] theorem setCrew_selfTests (c k : Nat) (x : Crew) : (s.setCrew c k x).selfTests = s.selfTests := rfl
@[simp] theorem setCrew_aside (c k : Nat) (x : Crew) : (s.setCrew c k x).aside = s.aside := rfl
@[simp] theorem setCrew_ports (c k : Nat) (x : Crew) : (s.setCrew c k x).ports = s.ports := rfl
@[simp] theorem setCrew_subPorts (c k : Nat) (x : Crew) : (s.setCrew c k x).subPorts = s.subPorts := rfl
@[simp] theorem setCrew_assocs (c k : Nat) (x : Crew) : (s.setCrew c k x).assocs = s.assocs := rfl
@[simp] theorem setCrew_queues (c k : Nat) (x : Crew) : (s.setCrew c k x).queues = s.queues := rfl
@[simp] theorem setCrew_nextWork (c k : Nat) (x : Crew) : (s.setCrew c k x).nextWork = s.nextWork := rfl
@[simp] theorem setCrew_udpPort (c k : Nat) (x : Crew) : (s.setCrew c k x).udpPort = s.udpPort := rfl
@[simp] theorem setCrew_neighbours (c k : Nat) (x : Crew) : (s.setCrew c k x).neighbours = s.neighbours := rfl
@[simp] theorem setCrew_supply (c k : Nat) (x : Crew) : (s.setCrew c k x).supply = s.supply := rfl
@[simp] theorem setCrew_pwrEn (c k : Nat) (x : Crew) : (s.setCrew c k x).pwrEn = s.pwrEn := rfl
@[simp] theorem setCrew_pwrGood (c k : Nat) (x : Crew) : (s.setCrew c k x).pwrGood = s.pwrGood := rfl
@[simp] theorem setCrew_perstN (c k : Nat) (x : Crew) : (s.setCrew c k x).perstN = s.perstN := rfl
@[simp] theorem setCrew_lockout (c k : Nat) (x : Crew) : (s.setCrew c k x).lockout = s.lockout := rfl
@[simp] theorem setCrew_brownSince (c k : Nat) (x : Crew) : (s.setCrew c k x).brownSince = s.brownSince := rfl
@[simp] theorem setCrew_goodSince (c k : Nat) (x : Crew) : (s.setCrew c k x).goodSince = s.goodSince := rfl
@[simp] theorem setCrew_gals (c k : Nat) (x : Crew) : (s.setCrew c k x).gals = s.gals := rfl
@[simp] theorem setCrew_hostCores (c k : Nat) (x : Crew) : (s.setCrew c k x).hostCores = s.hostCores := rfl
@[simp] theorem setCrew_uncoreIdle (c k : Nat) (x : Crew) : (s.setCrew c k x).uncoreIdle = s.uncoreIdle := rfl
@[simp] theorem setCrew_memStep (c k : Nat) (x : Crew) : (s.setCrew c k x).memStep = s.memStep := rfl
@[simp] theorem setCrew_railSteps (c k : Nat) (x : Crew) : (s.setCrew c k x).railSteps = s.railSteps := rfl
@[simp] theorem setCrew_allocAt (c k : Nat) (x : Crew) : (s.setCrew c k x).allocAt = s.allocAt := rfl
@[simp] theorem setCrew_readings (c k : Nat) (x : Crew) : (s.setCrew c k x).readings = s.readings := rfl
@[simp] theorem setCrew_tripped (c k : Nat) (x : Crew) : (s.setCrew c k x).tripped = s.tripped := rfl
@[simp] theorem setCrew_stretched (c k : Nat) (x : Crew) : (s.setCrew c k x).stretched = s.stretched := rfl
@[simp] theorem setCrew_heat (c k : Nat) (x : Crew) : (s.setCrew c k x).heat = s.heat := rfl
@[simp] theorem setCrew_budgets (c k : Nat) (x : Crew) : (s.setCrew c k x).budgets = s.budgets := rfl
@[simp] theorem setCrew_mitorUp (c k : Nat) (x : Crew) : (s.setCrew c k x).mitorUp = s.mitorUp := rfl
@[simp] theorem setCrew_bootStopped (c k : Nat) (x : Crew) : (s.setCrew c k x).bootStopped = s.bootStopped := rfl
@[simp] theorem setCrew_layoutDue (c k : Nat) (x : Crew) : (s.setCrew c k x).layoutDue = s.layoutDue := rfl
@[simp] theorem setCrew_activeMu (c k : Nat) (x : Crew) : (s.setCrew c k x).activeMu = s.activeMu := rfl
@[simp] theorem setCrew_muAsleep (c k : Nat) (x : Crew) : (s.setCrew c k x).muAsleep = s.muAsleep := rfl
@[simp] theorem setCrew_muTested (c k : Nat) (x : Crew) : (s.setCrew c k x).muTested = s.muTested := rfl
@[simp] theorem setCrew_softResets (c k : Nat) (x : Crew) : (s.setCrew c k x).softResets = s.softResets := rfl
@[simp] theorem setCrew_activation (c k : Nat) (x : Crew) : (s.setCrew c k x).activation = s.activation := rfl
@[simp] theorem setCrew_siteTests (c k : Nat) (x : Crew) : (s.setCrew c k x).siteTests = s.siteTests := rfl
@[simp] theorem setCrew_recalAt (c k : Nat) (x : Crew) : (s.setCrew c k x).recalAt = s.recalAt := rfl
@[simp] theorem setCrew_paddleEnergy (c k : Nat) (x : Crew) : (s.setCrew c k x).paddleEnergy = s.paddleEnergy := rfl

/-! ### setPart -/

@[simp] theorem setPart_pending (n : Nat) (x : Partition) : (s.setPart n x).pending = s.pending := rfl
@[simp] theorem setPart_out (n : Nat) (x : Partition) : (s.setPart n x).out = s.out := rfl
@[simp] theorem setPart_free (n : Nat) (x : Partition) : (s.setPart n x).free = s.free := rfl
@[simp] theorem setPart_now (n : Nat) (x : Partition) : (s.setPart n x).now = s.now := rfl
@[simp] theorem setPart_stalled (n : Nat) (x : Partition) : (s.setPart n x).stalled = s.stalled := rfl
@[simp] theorem setPart_ctxs (n : Nat) (x : Partition) : (s.setPart n x).ctxs = s.ctxs := rfl
@[simp] theorem setPart_turn (n : Nat) (x : Partition) : (s.setPart n x).turn = s.turn := rfl
@[simp] theorem setPart_launches (n : Nat) (x : Partition) : (s.setPart n x).launches = s.launches := rfl
@[simp] theorem setPart_nextLaunch (n : Nat) (x : Partition) : (s.setPart n x).nextLaunch = s.nextLaunch := rfl
@[simp] theorem setPart_coxLaunches (n : Nat) (x : Partition) : (s.setPart n x).coxLaunches = s.coxLaunches := rfl
@[simp] theorem setPart_saved (n : Nat) (x : Partition) : (s.setPart n x).saved = s.saved := rfl
@[simp] theorem setPart_cores (n : Nat) (x : Partition) : (s.setPart n x).cores = s.cores := rfl
@[simp] theorem setPart_slices (n : Nat) (x : Partition) : (s.setPart n x).slices = s.slices := rfl
@[simp] theorem setPart_homes (n : Nat) (x : Partition) : (s.setPart n x).homes = s.homes := rfl
@[simp] theorem setPart_hostLines (n : Nat) (x : Partition) : (s.setPart n x).hostLines = s.hostLines := rfl
@[simp] theorem setPart_stamp (n : Nat) (x : Partition) : (s.setPart n x).stamp = s.stamp := rfl
@[simp] theorem setPart_regions (n : Nat) (x : Partition) : (s.setPart n x).regions = s.regions := rfl
@[simp] theorem setPart_allocs (n : Nat) (x : Partition) : (s.setPart n x).allocs = s.allocs := rfl
@[simp] theorem setPart_stage2 (n : Nat) (x : Partition) : (s.setPart n x).stage2 = s.stage2 := rfl
@[simp] theorem setPart_tlb (n : Nat) (x : Partition) : (s.setPart n x).tlb = s.tlb := rfl
@[simp] theorem setPart_segs (n : Nat) (x : Partition) : (s.setPart n x).segs = s.segs := rfl
@[simp] theorem setPart_rebuilds (n : Nat) (x : Partition) : (s.setPart n x).rebuilds = s.rebuilds := rfl
@[simp] theorem setPart_migRegion (n : Nat) (x : Partition) : (s.setPart n x).migRegion = s.migRegion := rfl
@[simp] theorem setPart_migPart (n : Nat) (x : Partition) : (s.setPart n x).migPart = s.migPart := rfl
@[simp] theorem setPart_hbmStacks (n : Nat) (x : Partition) : (s.setPart n x).hbmStacks = s.hbmStacks := rfl
@[simp] theorem setPart_buckets (n : Nat) (x : Partition) : (s.setPart n x).buckets = s.buckets := rfl
@[simp] theorem setPart_hbm (n : Nat) (x : Partition) : (s.setPart n x).hbm = s.hbm := rfl
@[simp] theorem setPart_hbmPoison (n : Nat) (x : Partition) : (s.setPart n x).hbmPoison = s.hbmPoison := rfl
@[simp] theorem setPart_slots (n : Nat) (x : Partition) : (s.setPart n x).slots = s.slots := rfl
@[simp] theorem setPart_moves (n : Nat) (x : Partition) : (s.setPart n x).moves = s.moves := rfl
@[simp] theorem setPart_mirrorQ (n : Nat) (x : Partition) : (s.setPart n x).mirrorQ = s.mirrorQ := rfl
@[simp] theorem setPart_nextMark (n : Nat) (x : Partition) : (s.setPart n x).nextMark = s.nextMark := rfl
@[simp] theorem setPart_funcs (n : Nat) (x : Partition) : (s.setPart n x).funcs = s.funcs := rfl
@[simp] theorem setPart_linkUp (n : Nat) (x : Partition) : (s.setPart n x).linkUp = s.linkUp := rfl
@[simp] theorem setPart_linkRate (n : Nat) (x : Partition) : (s.setPart n x).linkRate = s.linkRate := rfl
@[simp] theorem setPart_linkWidth (n : Nat) (x : Partition) : (s.setPart n x).linkWidth = s.linkWidth := rfl
@[simp] theorem setPart_linkFlit (n : Nat) (x : Partition) : (s.setPart n x).linkFlit = s.linkFlit := rfl
@[simp] theorem setPart_hostReads (n : Nat) (x : Partition) : (s.setPart n x).hostReads = s.hostReads := rfl
@[simp] theorem setPart_sris (n : Nat) (x : Partition) : (s.setPart n x).sris = s.sris := rfl
@[simp] theorem setPart_numVfs (n : Nat) (x : Partition) : (s.setPart n x).numVfs = s.numVfs := rfl
@[simp] theorem setPart_mitorReady (n : Nat) (x : Partition) : (s.setPart n x).mitorReady = s.mitorReady := rfl
@[simp] theorem setPart_musLost (n : Nat) (x : Partition) : (s.setPart n x).musLost = s.musLost := rfl
@[simp] theorem setPart_attnLow (n : Nat) (x : Partition) : (s.setPart n x).attnLow = s.attnLow := rfl
@[simp] theorem setPart_wakeLow (n : Nat) (x : Partition) : (s.setPart n x).wakeLow = s.wakeLow := rfl
@[simp] theorem setPart_removalPrepared (n : Nat) (x : Partition) : (s.setPart n x).removalPrepared = s.removalPrepared := rfl
@[simp] theorem setPart_bucketTime (n : Nat) (x : Partition) : (s.setPart n x).bucketTime = s.bucketTime := rfl
@[simp] theorem setPart_retired (n : Nat) (x : Partition) : (s.setPart n x).retired = s.retired := rfl
@[simp] theorem setPart_coresOut (n : Nat) (x : Partition) : (s.setPart n x).coresOut = s.coresOut := rfl
@[simp] theorem setPart_portEvents (n : Nat) (x : Partition) : (s.setPart n x).portEvents = s.portEvents := rfl
@[simp] theorem setPart_ldgMsgs (n : Nat) (x : Partition) : (s.setPart n x).ldgMsgs = s.ldgMsgs := rfl
@[simp] theorem setPart_kftOpen (n : Nat) (x : Partition) : (s.setPart n x).kftOpen = s.kftOpen := rfl
@[simp] theorem setPart_coreBanks (n : Nat) (x : Partition) : (s.setPart n x).coreBanks = s.coreBanks := rfl
@[simp] theorem setPart_galBanks (n : Nat) (x : Partition) : (s.setPart n x).galBanks = s.galBanks := rfl
@[simp] theorem setPart_wideCounters (n : Nat) (x : Partition) : (s.setPart n x).wideCounters = s.wideCounters := rfl
@[simp] theorem setPart_traces (n : Nat) (x : Partition) : (s.setPart n x).traces = s.traces := rfl
@[simp] theorem setPart_logs (n : Nat) (x : Partition) : (s.setPart n x).logs = s.logs := rfl
@[simp] theorem setPart_rasTimes (n : Nat) (x : Partition) : (s.setPart n x).rasTimes = s.rasTimes := rfl
@[simp] theorem setPart_corrTimes (n : Nat) (x : Partition) : (s.setPart n x).corrTimes = s.corrTimes := rfl
@[simp] theorem setPart_corrTold (n : Nat) (x : Partition) : (s.setPart n x).corrTold = s.corrTold := rfl
@[simp] theorem setPart_thresholds (n : Nat) (x : Partition) : (s.setPart n x).thresholds = s.thresholds := rfl
@[simp] theorem setPart_moveJobs (n : Nat) (x : Partition) : (s.setPart n x).moveJobs = s.moveJobs := rfl
@[simp] theorem setPart_tableMoves (n : Nat) (x : Partition) : (s.setPart n x).tableMoves = s.tableMoves := rfl
@[simp] theorem setPart_drains (n : Nat) (x : Partition) : (s.setPart n x).drains = s.drains := rfl
@[simp] theorem setPart_poisonTimes (n : Nat) (x : Partition) : (s.setPart n x).poisonTimes = s.poisonTimes := rfl
@[simp] theorem setPart_mailboxes (n : Nat) (x : Partition) : (s.setPart n x).mailboxes = s.mailboxes := rfl
@[simp] theorem setPart_taken (n : Nat) (x : Partition) : (s.setPart n x).taken = s.taken := rfl
@[simp] theorem setPart_keyLast (n : Nat) (x : Partition) : (s.setPart n x).keyLast = s.keyLast := rfl
@[simp] theorem setPart_conf (n : Nat) (x : Partition) : (s.setPart n x).conf = s.conf := rfl
@[simp] theorem setPart_bankA (n : Nat) (x : Partition) : (s.setPart n x).bankA = s.bankA := rfl
@[simp] theorem setPart_bankB (n : Nat) (x : Partition) : (s.setPart n x).bankB = s.bankB := rfl
@[simp] theorem setPart_curBank (n : Nat) (x : Partition) : (s.setPart n x).curBank = s.curBank := rfl
@[simp] theorem setPart_writing (n : Nat) (x : Partition) : (s.setPart n x).writing = s.writing := rfl
@[simp] theorem setPart_writeNo (n : Nat) (x : Partition) : (s.setPart n x).writeNo = s.writeNo := rfl
@[simp] theorem setPart_storeDirty (n : Nat) (x : Partition) : (s.setPart n x).storeDirty = s.storeDirty := rfl
@[simp] theorem setPart_audit (n : Nat) (x : Partition) : (s.setPart n x).audit = s.audit := rfl
@[simp] theorem setPart_auditNext (n : Nat) (x : Partition) : (s.setPart n x).auditNext = s.auditNext := rfl
@[simp] theorem setPart_boots (n : Nat) (x : Partition) : (s.setPart n x).boots = s.boots := rfl
@[simp] theorem setPart_rtcStart (n : Nat) (x : Partition) : (s.setPart n x).rtcStart = s.rtcStart := rfl
@[simp] theorem setPart_fwSlots (n : Nat) (x : Partition) : (s.setPart n x).fwSlots = s.fwSlots := rfl
@[simp] theorem setPart_running (n : Nat) (x : Partition) : (s.setPart n x).running = s.running := rfl
@[simp] theorem setPart_seed (n : Nat) (x : Partition) : (s.setPart n x).seed = s.seed := rfl
@[simp] theorem setPart_makerAllowed (n : Nat) (x : Partition) : (s.setPart n x).makerAllowed = s.makerAllowed := rfl
@[simp] theorem setPart_scopes (n : Nat) (x : Partition) : (s.setPart n x).scopes = s.scopes := rfl
@[simp] theorem setPart_reports (n : Nat) (x : Partition) : (s.setPart n x).reports = s.reports := rfl
@[simp] theorem setPart_sideEid (n : Nat) (x : Partition) : (s.setPart n x).sideEid = s.sideEid := rfl
@[simp] theorem setPart_selfTests (n : Nat) (x : Partition) : (s.setPart n x).selfTests = s.selfTests := rfl
@[simp] theorem setPart_aside (n : Nat) (x : Partition) : (s.setPart n x).aside = s.aside := rfl
@[simp] theorem setPart_ports (n : Nat) (x : Partition) : (s.setPart n x).ports = s.ports := rfl
@[simp] theorem setPart_subPorts (n : Nat) (x : Partition) : (s.setPart n x).subPorts = s.subPorts := rfl
@[simp] theorem setPart_assocs (n : Nat) (x : Partition) : (s.setPart n x).assocs = s.assocs := rfl
@[simp] theorem setPart_queues (n : Nat) (x : Partition) : (s.setPart n x).queues = s.queues := rfl
@[simp] theorem setPart_nextWork (n : Nat) (x : Partition) : (s.setPart n x).nextWork = s.nextWork := rfl
@[simp] theorem setPart_udpPort (n : Nat) (x : Partition) : (s.setPart n x).udpPort = s.udpPort := rfl
@[simp] theorem setPart_neighbours (n : Nat) (x : Partition) : (s.setPart n x).neighbours = s.neighbours := rfl
@[simp] theorem setPart_supply (n : Nat) (x : Partition) : (s.setPart n x).supply = s.supply := rfl
@[simp] theorem setPart_pwrEn (n : Nat) (x : Partition) : (s.setPart n x).pwrEn = s.pwrEn := rfl
@[simp] theorem setPart_pwrGood (n : Nat) (x : Partition) : (s.setPart n x).pwrGood = s.pwrGood := rfl
@[simp] theorem setPart_perstN (n : Nat) (x : Partition) : (s.setPart n x).perstN = s.perstN := rfl
@[simp] theorem setPart_lockout (n : Nat) (x : Partition) : (s.setPart n x).lockout = s.lockout := rfl
@[simp] theorem setPart_brownSince (n : Nat) (x : Partition) : (s.setPart n x).brownSince = s.brownSince := rfl
@[simp] theorem setPart_goodSince (n : Nat) (x : Partition) : (s.setPart n x).goodSince = s.goodSince := rfl
@[simp] theorem setPart_gals (n : Nat) (x : Partition) : (s.setPart n x).gals = s.gals := rfl
@[simp] theorem setPart_hostCores (n : Nat) (x : Partition) : (s.setPart n x).hostCores = s.hostCores := rfl
@[simp] theorem setPart_uncoreIdle (n : Nat) (x : Partition) : (s.setPart n x).uncoreIdle = s.uncoreIdle := rfl
@[simp] theorem setPart_memStep (n : Nat) (x : Partition) : (s.setPart n x).memStep = s.memStep := rfl
@[simp] theorem setPart_railSteps (n : Nat) (x : Partition) : (s.setPart n x).railSteps = s.railSteps := rfl
@[simp] theorem setPart_allocAt (n : Nat) (x : Partition) : (s.setPart n x).allocAt = s.allocAt := rfl
@[simp] theorem setPart_readings (n : Nat) (x : Partition) : (s.setPart n x).readings = s.readings := rfl
@[simp] theorem setPart_tripped (n : Nat) (x : Partition) : (s.setPart n x).tripped = s.tripped := rfl
@[simp] theorem setPart_stretched (n : Nat) (x : Partition) : (s.setPart n x).stretched = s.stretched := rfl
@[simp] theorem setPart_heat (n : Nat) (x : Partition) : (s.setPart n x).heat = s.heat := rfl
@[simp] theorem setPart_budgets (n : Nat) (x : Partition) : (s.setPart n x).budgets = s.budgets := rfl
@[simp] theorem setPart_mitorUp (n : Nat) (x : Partition) : (s.setPart n x).mitorUp = s.mitorUp := rfl
@[simp] theorem setPart_bootStopped (n : Nat) (x : Partition) : (s.setPart n x).bootStopped = s.bootStopped := rfl
@[simp] theorem setPart_layoutDue (n : Nat) (x : Partition) : (s.setPart n x).layoutDue = s.layoutDue := rfl
@[simp] theorem setPart_activeMu (n : Nat) (x : Partition) : (s.setPart n x).activeMu = s.activeMu := rfl
@[simp] theorem setPart_muAsleep (n : Nat) (x : Partition) : (s.setPart n x).muAsleep = s.muAsleep := rfl
@[simp] theorem setPart_muTested (n : Nat) (x : Partition) : (s.setPart n x).muTested = s.muTested := rfl
@[simp] theorem setPart_softResets (n : Nat) (x : Partition) : (s.setPart n x).softResets = s.softResets := rfl
@[simp] theorem setPart_activation (n : Nat) (x : Partition) : (s.setPart n x).activation = s.activation := rfl
@[simp] theorem setPart_siteTests (n : Nat) (x : Partition) : (s.setPart n x).siteTests = s.siteTests := rfl
@[simp] theorem setPart_recalAt (n : Nat) (x : Partition) : (s.setPart n x).recalAt = s.recalAt := rfl
@[simp] theorem setPart_paddleEnergy (n : Nat) (x : Partition) : (s.setPart n x).paddleEnergy = s.paddleEnergy := rfl

/-! ### setSlot -/

@[simp] theorem setSlot_pending (n : Nat) (x : Slot) : (s.setSlot n x).pending = s.pending := rfl
@[simp] theorem setSlot_out (n : Nat) (x : Slot) : (s.setSlot n x).out = s.out := rfl
@[simp] theorem setSlot_free (n : Nat) (x : Slot) : (s.setSlot n x).free = s.free := rfl
@[simp] theorem setSlot_now (n : Nat) (x : Slot) : (s.setSlot n x).now = s.now := rfl
@[simp] theorem setSlot_stalled (n : Nat) (x : Slot) : (s.setSlot n x).stalled = s.stalled := rfl
@[simp] theorem setSlot_ctxs (n : Nat) (x : Slot) : (s.setSlot n x).ctxs = s.ctxs := rfl
@[simp] theorem setSlot_turn (n : Nat) (x : Slot) : (s.setSlot n x).turn = s.turn := rfl
@[simp] theorem setSlot_launches (n : Nat) (x : Slot) : (s.setSlot n x).launches = s.launches := rfl
@[simp] theorem setSlot_nextLaunch (n : Nat) (x : Slot) : (s.setSlot n x).nextLaunch = s.nextLaunch := rfl
@[simp] theorem setSlot_coxLaunches (n : Nat) (x : Slot) : (s.setSlot n x).coxLaunches = s.coxLaunches := rfl
@[simp] theorem setSlot_saved (n : Nat) (x : Slot) : (s.setSlot n x).saved = s.saved := rfl
@[simp] theorem setSlot_cores (n : Nat) (x : Slot) : (s.setSlot n x).cores = s.cores := rfl
@[simp] theorem setSlot_slices (n : Nat) (x : Slot) : (s.setSlot n x).slices = s.slices := rfl
@[simp] theorem setSlot_homes (n : Nat) (x : Slot) : (s.setSlot n x).homes = s.homes := rfl
@[simp] theorem setSlot_hostLines (n : Nat) (x : Slot) : (s.setSlot n x).hostLines = s.hostLines := rfl
@[simp] theorem setSlot_stamp (n : Nat) (x : Slot) : (s.setSlot n x).stamp = s.stamp := rfl
@[simp] theorem setSlot_parts (n : Nat) (x : Slot) : (s.setSlot n x).parts = s.parts := rfl
@[simp] theorem setSlot_regions (n : Nat) (x : Slot) : (s.setSlot n x).regions = s.regions := rfl
@[simp] theorem setSlot_allocs (n : Nat) (x : Slot) : (s.setSlot n x).allocs = s.allocs := rfl
@[simp] theorem setSlot_stage2 (n : Nat) (x : Slot) : (s.setSlot n x).stage2 = s.stage2 := rfl
@[simp] theorem setSlot_tlb (n : Nat) (x : Slot) : (s.setSlot n x).tlb = s.tlb := rfl
@[simp] theorem setSlot_segs (n : Nat) (x : Slot) : (s.setSlot n x).segs = s.segs := rfl
@[simp] theorem setSlot_rebuilds (n : Nat) (x : Slot) : (s.setSlot n x).rebuilds = s.rebuilds := rfl
@[simp] theorem setSlot_migRegion (n : Nat) (x : Slot) : (s.setSlot n x).migRegion = s.migRegion := rfl
@[simp] theorem setSlot_migPart (n : Nat) (x : Slot) : (s.setSlot n x).migPart = s.migPart := rfl
@[simp] theorem setSlot_hbmStacks (n : Nat) (x : Slot) : (s.setSlot n x).hbmStacks = s.hbmStacks := rfl
@[simp] theorem setSlot_buckets (n : Nat) (x : Slot) : (s.setSlot n x).buckets = s.buckets := rfl
@[simp] theorem setSlot_hbm (n : Nat) (x : Slot) : (s.setSlot n x).hbm = s.hbm := rfl
@[simp] theorem setSlot_hbmPoison (n : Nat) (x : Slot) : (s.setSlot n x).hbmPoison = s.hbmPoison := rfl
@[simp] theorem setSlot_moves (n : Nat) (x : Slot) : (s.setSlot n x).moves = s.moves := rfl
@[simp] theorem setSlot_mirrorQ (n : Nat) (x : Slot) : (s.setSlot n x).mirrorQ = s.mirrorQ := rfl
@[simp] theorem setSlot_nextMark (n : Nat) (x : Slot) : (s.setSlot n x).nextMark = s.nextMark := rfl
@[simp] theorem setSlot_funcs (n : Nat) (x : Slot) : (s.setSlot n x).funcs = s.funcs := rfl
@[simp] theorem setSlot_linkUp (n : Nat) (x : Slot) : (s.setSlot n x).linkUp = s.linkUp := rfl
@[simp] theorem setSlot_linkRate (n : Nat) (x : Slot) : (s.setSlot n x).linkRate = s.linkRate := rfl
@[simp] theorem setSlot_linkWidth (n : Nat) (x : Slot) : (s.setSlot n x).linkWidth = s.linkWidth := rfl
@[simp] theorem setSlot_linkFlit (n : Nat) (x : Slot) : (s.setSlot n x).linkFlit = s.linkFlit := rfl
@[simp] theorem setSlot_hostReads (n : Nat) (x : Slot) : (s.setSlot n x).hostReads = s.hostReads := rfl
@[simp] theorem setSlot_sris (n : Nat) (x : Slot) : (s.setSlot n x).sris = s.sris := rfl
@[simp] theorem setSlot_numVfs (n : Nat) (x : Slot) : (s.setSlot n x).numVfs = s.numVfs := rfl
@[simp] theorem setSlot_mitorReady (n : Nat) (x : Slot) : (s.setSlot n x).mitorReady = s.mitorReady := rfl
@[simp] theorem setSlot_musLost (n : Nat) (x : Slot) : (s.setSlot n x).musLost = s.musLost := rfl
@[simp] theorem setSlot_attnLow (n : Nat) (x : Slot) : (s.setSlot n x).attnLow = s.attnLow := rfl
@[simp] theorem setSlot_wakeLow (n : Nat) (x : Slot) : (s.setSlot n x).wakeLow = s.wakeLow := rfl
@[simp] theorem setSlot_removalPrepared (n : Nat) (x : Slot) : (s.setSlot n x).removalPrepared = s.removalPrepared := rfl
@[simp] theorem setSlot_bucketTime (n : Nat) (x : Slot) : (s.setSlot n x).bucketTime = s.bucketTime := rfl
@[simp] theorem setSlot_retired (n : Nat) (x : Slot) : (s.setSlot n x).retired = s.retired := rfl
@[simp] theorem setSlot_coresOut (n : Nat) (x : Slot) : (s.setSlot n x).coresOut = s.coresOut := rfl
@[simp] theorem setSlot_portEvents (n : Nat) (x : Slot) : (s.setSlot n x).portEvents = s.portEvents := rfl
@[simp] theorem setSlot_ldgMsgs (n : Nat) (x : Slot) : (s.setSlot n x).ldgMsgs = s.ldgMsgs := rfl
@[simp] theorem setSlot_kftOpen (n : Nat) (x : Slot) : (s.setSlot n x).kftOpen = s.kftOpen := rfl
@[simp] theorem setSlot_coreBanks (n : Nat) (x : Slot) : (s.setSlot n x).coreBanks = s.coreBanks := rfl
@[simp] theorem setSlot_galBanks (n : Nat) (x : Slot) : (s.setSlot n x).galBanks = s.galBanks := rfl
@[simp] theorem setSlot_wideCounters (n : Nat) (x : Slot) : (s.setSlot n x).wideCounters = s.wideCounters := rfl
@[simp] theorem setSlot_traces (n : Nat) (x : Slot) : (s.setSlot n x).traces = s.traces := rfl
@[simp] theorem setSlot_logs (n : Nat) (x : Slot) : (s.setSlot n x).logs = s.logs := rfl
@[simp] theorem setSlot_rasTimes (n : Nat) (x : Slot) : (s.setSlot n x).rasTimes = s.rasTimes := rfl
@[simp] theorem setSlot_corrTimes (n : Nat) (x : Slot) : (s.setSlot n x).corrTimes = s.corrTimes := rfl
@[simp] theorem setSlot_corrTold (n : Nat) (x : Slot) : (s.setSlot n x).corrTold = s.corrTold := rfl
@[simp] theorem setSlot_thresholds (n : Nat) (x : Slot) : (s.setSlot n x).thresholds = s.thresholds := rfl
@[simp] theorem setSlot_moveJobs (n : Nat) (x : Slot) : (s.setSlot n x).moveJobs = s.moveJobs := rfl
@[simp] theorem setSlot_tableMoves (n : Nat) (x : Slot) : (s.setSlot n x).tableMoves = s.tableMoves := rfl
@[simp] theorem setSlot_drains (n : Nat) (x : Slot) : (s.setSlot n x).drains = s.drains := rfl
@[simp] theorem setSlot_poisonTimes (n : Nat) (x : Slot) : (s.setSlot n x).poisonTimes = s.poisonTimes := rfl
@[simp] theorem setSlot_mailboxes (n : Nat) (x : Slot) : (s.setSlot n x).mailboxes = s.mailboxes := rfl
@[simp] theorem setSlot_taken (n : Nat) (x : Slot) : (s.setSlot n x).taken = s.taken := rfl
@[simp] theorem setSlot_keyLast (n : Nat) (x : Slot) : (s.setSlot n x).keyLast = s.keyLast := rfl
@[simp] theorem setSlot_conf (n : Nat) (x : Slot) : (s.setSlot n x).conf = s.conf := rfl
@[simp] theorem setSlot_bankA (n : Nat) (x : Slot) : (s.setSlot n x).bankA = s.bankA := rfl
@[simp] theorem setSlot_bankB (n : Nat) (x : Slot) : (s.setSlot n x).bankB = s.bankB := rfl
@[simp] theorem setSlot_curBank (n : Nat) (x : Slot) : (s.setSlot n x).curBank = s.curBank := rfl
@[simp] theorem setSlot_writing (n : Nat) (x : Slot) : (s.setSlot n x).writing = s.writing := rfl
@[simp] theorem setSlot_writeNo (n : Nat) (x : Slot) : (s.setSlot n x).writeNo = s.writeNo := rfl
@[simp] theorem setSlot_storeDirty (n : Nat) (x : Slot) : (s.setSlot n x).storeDirty = s.storeDirty := rfl
@[simp] theorem setSlot_audit (n : Nat) (x : Slot) : (s.setSlot n x).audit = s.audit := rfl
@[simp] theorem setSlot_auditNext (n : Nat) (x : Slot) : (s.setSlot n x).auditNext = s.auditNext := rfl
@[simp] theorem setSlot_boots (n : Nat) (x : Slot) : (s.setSlot n x).boots = s.boots := rfl
@[simp] theorem setSlot_rtcStart (n : Nat) (x : Slot) : (s.setSlot n x).rtcStart = s.rtcStart := rfl
@[simp] theorem setSlot_fwSlots (n : Nat) (x : Slot) : (s.setSlot n x).fwSlots = s.fwSlots := rfl
@[simp] theorem setSlot_running (n : Nat) (x : Slot) : (s.setSlot n x).running = s.running := rfl
@[simp] theorem setSlot_seed (n : Nat) (x : Slot) : (s.setSlot n x).seed = s.seed := rfl
@[simp] theorem setSlot_makerAllowed (n : Nat) (x : Slot) : (s.setSlot n x).makerAllowed = s.makerAllowed := rfl
@[simp] theorem setSlot_scopes (n : Nat) (x : Slot) : (s.setSlot n x).scopes = s.scopes := rfl
@[simp] theorem setSlot_reports (n : Nat) (x : Slot) : (s.setSlot n x).reports = s.reports := rfl
@[simp] theorem setSlot_sideEid (n : Nat) (x : Slot) : (s.setSlot n x).sideEid = s.sideEid := rfl
@[simp] theorem setSlot_selfTests (n : Nat) (x : Slot) : (s.setSlot n x).selfTests = s.selfTests := rfl
@[simp] theorem setSlot_aside (n : Nat) (x : Slot) : (s.setSlot n x).aside = s.aside := rfl
@[simp] theorem setSlot_ports (n : Nat) (x : Slot) : (s.setSlot n x).ports = s.ports := rfl
@[simp] theorem setSlot_subPorts (n : Nat) (x : Slot) : (s.setSlot n x).subPorts = s.subPorts := rfl
@[simp] theorem setSlot_assocs (n : Nat) (x : Slot) : (s.setSlot n x).assocs = s.assocs := rfl
@[simp] theorem setSlot_queues (n : Nat) (x : Slot) : (s.setSlot n x).queues = s.queues := rfl
@[simp] theorem setSlot_nextWork (n : Nat) (x : Slot) : (s.setSlot n x).nextWork = s.nextWork := rfl
@[simp] theorem setSlot_udpPort (n : Nat) (x : Slot) : (s.setSlot n x).udpPort = s.udpPort := rfl
@[simp] theorem setSlot_neighbours (n : Nat) (x : Slot) : (s.setSlot n x).neighbours = s.neighbours := rfl
@[simp] theorem setSlot_supply (n : Nat) (x : Slot) : (s.setSlot n x).supply = s.supply := rfl
@[simp] theorem setSlot_pwrEn (n : Nat) (x : Slot) : (s.setSlot n x).pwrEn = s.pwrEn := rfl
@[simp] theorem setSlot_pwrGood (n : Nat) (x : Slot) : (s.setSlot n x).pwrGood = s.pwrGood := rfl
@[simp] theorem setSlot_perstN (n : Nat) (x : Slot) : (s.setSlot n x).perstN = s.perstN := rfl
@[simp] theorem setSlot_lockout (n : Nat) (x : Slot) : (s.setSlot n x).lockout = s.lockout := rfl
@[simp] theorem setSlot_brownSince (n : Nat) (x : Slot) : (s.setSlot n x).brownSince = s.brownSince := rfl
@[simp] theorem setSlot_goodSince (n : Nat) (x : Slot) : (s.setSlot n x).goodSince = s.goodSince := rfl
@[simp] theorem setSlot_gals (n : Nat) (x : Slot) : (s.setSlot n x).gals = s.gals := rfl
@[simp] theorem setSlot_hostCores (n : Nat) (x : Slot) : (s.setSlot n x).hostCores = s.hostCores := rfl
@[simp] theorem setSlot_uncoreIdle (n : Nat) (x : Slot) : (s.setSlot n x).uncoreIdle = s.uncoreIdle := rfl
@[simp] theorem setSlot_memStep (n : Nat) (x : Slot) : (s.setSlot n x).memStep = s.memStep := rfl
@[simp] theorem setSlot_railSteps (n : Nat) (x : Slot) : (s.setSlot n x).railSteps = s.railSteps := rfl
@[simp] theorem setSlot_allocAt (n : Nat) (x : Slot) : (s.setSlot n x).allocAt = s.allocAt := rfl
@[simp] theorem setSlot_readings (n : Nat) (x : Slot) : (s.setSlot n x).readings = s.readings := rfl
@[simp] theorem setSlot_tripped (n : Nat) (x : Slot) : (s.setSlot n x).tripped = s.tripped := rfl
@[simp] theorem setSlot_stretched (n : Nat) (x : Slot) : (s.setSlot n x).stretched = s.stretched := rfl
@[simp] theorem setSlot_heat (n : Nat) (x : Slot) : (s.setSlot n x).heat = s.heat := rfl
@[simp] theorem setSlot_budgets (n : Nat) (x : Slot) : (s.setSlot n x).budgets = s.budgets := rfl
@[simp] theorem setSlot_mitorUp (n : Nat) (x : Slot) : (s.setSlot n x).mitorUp = s.mitorUp := rfl
@[simp] theorem setSlot_bootStopped (n : Nat) (x : Slot) : (s.setSlot n x).bootStopped = s.bootStopped := rfl
@[simp] theorem setSlot_layoutDue (n : Nat) (x : Slot) : (s.setSlot n x).layoutDue = s.layoutDue := rfl
@[simp] theorem setSlot_activeMu (n : Nat) (x : Slot) : (s.setSlot n x).activeMu = s.activeMu := rfl
@[simp] theorem setSlot_muAsleep (n : Nat) (x : Slot) : (s.setSlot n x).muAsleep = s.muAsleep := rfl
@[simp] theorem setSlot_muTested (n : Nat) (x : Slot) : (s.setSlot n x).muTested = s.muTested := rfl
@[simp] theorem setSlot_softResets (n : Nat) (x : Slot) : (s.setSlot n x).softResets = s.softResets := rfl
@[simp] theorem setSlot_activation (n : Nat) (x : Slot) : (s.setSlot n x).activation = s.activation := rfl
@[simp] theorem setSlot_siteTests (n : Nat) (x : Slot) : (s.setSlot n x).siteTests = s.siteTests := rfl
@[simp] theorem setSlot_recalAt (n : Nat) (x : Slot) : (s.setSlot n x).recalAt = s.recalAt := rfl
@[simp] theorem setSlot_paddleEnergy (n : Nat) (x : Slot) : (s.setSlot n x).paddleEnergy = s.paddleEnergy := rfl

/-! ### setFunc -/

@[simp] theorem setFunc_pending (n : Nat) (x : Func) : (s.setFunc n x).pending = s.pending := rfl
@[simp] theorem setFunc_out (n : Nat) (x : Func) : (s.setFunc n x).out = s.out := rfl
@[simp] theorem setFunc_free (n : Nat) (x : Func) : (s.setFunc n x).free = s.free := rfl
@[simp] theorem setFunc_now (n : Nat) (x : Func) : (s.setFunc n x).now = s.now := rfl
@[simp] theorem setFunc_stalled (n : Nat) (x : Func) : (s.setFunc n x).stalled = s.stalled := rfl
@[simp] theorem setFunc_ctxs (n : Nat) (x : Func) : (s.setFunc n x).ctxs = s.ctxs := rfl
@[simp] theorem setFunc_turn (n : Nat) (x : Func) : (s.setFunc n x).turn = s.turn := rfl
@[simp] theorem setFunc_launches (n : Nat) (x : Func) : (s.setFunc n x).launches = s.launches := rfl
@[simp] theorem setFunc_nextLaunch (n : Nat) (x : Func) : (s.setFunc n x).nextLaunch = s.nextLaunch := rfl
@[simp] theorem setFunc_coxLaunches (n : Nat) (x : Func) : (s.setFunc n x).coxLaunches = s.coxLaunches := rfl
@[simp] theorem setFunc_saved (n : Nat) (x : Func) : (s.setFunc n x).saved = s.saved := rfl
@[simp] theorem setFunc_cores (n : Nat) (x : Func) : (s.setFunc n x).cores = s.cores := rfl
@[simp] theorem setFunc_slices (n : Nat) (x : Func) : (s.setFunc n x).slices = s.slices := rfl
@[simp] theorem setFunc_homes (n : Nat) (x : Func) : (s.setFunc n x).homes = s.homes := rfl
@[simp] theorem setFunc_hostLines (n : Nat) (x : Func) : (s.setFunc n x).hostLines = s.hostLines := rfl
@[simp] theorem setFunc_stamp (n : Nat) (x : Func) : (s.setFunc n x).stamp = s.stamp := rfl
@[simp] theorem setFunc_parts (n : Nat) (x : Func) : (s.setFunc n x).parts = s.parts := rfl
@[simp] theorem setFunc_regions (n : Nat) (x : Func) : (s.setFunc n x).regions = s.regions := rfl
@[simp] theorem setFunc_allocs (n : Nat) (x : Func) : (s.setFunc n x).allocs = s.allocs := rfl
@[simp] theorem setFunc_stage2 (n : Nat) (x : Func) : (s.setFunc n x).stage2 = s.stage2 := rfl
@[simp] theorem setFunc_tlb (n : Nat) (x : Func) : (s.setFunc n x).tlb = s.tlb := rfl
@[simp] theorem setFunc_segs (n : Nat) (x : Func) : (s.setFunc n x).segs = s.segs := rfl
@[simp] theorem setFunc_rebuilds (n : Nat) (x : Func) : (s.setFunc n x).rebuilds = s.rebuilds := rfl
@[simp] theorem setFunc_migRegion (n : Nat) (x : Func) : (s.setFunc n x).migRegion = s.migRegion := rfl
@[simp] theorem setFunc_migPart (n : Nat) (x : Func) : (s.setFunc n x).migPart = s.migPart := rfl
@[simp] theorem setFunc_hbmStacks (n : Nat) (x : Func) : (s.setFunc n x).hbmStacks = s.hbmStacks := rfl
@[simp] theorem setFunc_buckets (n : Nat) (x : Func) : (s.setFunc n x).buckets = s.buckets := rfl
@[simp] theorem setFunc_hbm (n : Nat) (x : Func) : (s.setFunc n x).hbm = s.hbm := rfl
@[simp] theorem setFunc_hbmPoison (n : Nat) (x : Func) : (s.setFunc n x).hbmPoison = s.hbmPoison := rfl
@[simp] theorem setFunc_slots (n : Nat) (x : Func) : (s.setFunc n x).slots = s.slots := rfl
@[simp] theorem setFunc_moves (n : Nat) (x : Func) : (s.setFunc n x).moves = s.moves := rfl
@[simp] theorem setFunc_mirrorQ (n : Nat) (x : Func) : (s.setFunc n x).mirrorQ = s.mirrorQ := rfl
@[simp] theorem setFunc_nextMark (n : Nat) (x : Func) : (s.setFunc n x).nextMark = s.nextMark := rfl
@[simp] theorem setFunc_linkUp (n : Nat) (x : Func) : (s.setFunc n x).linkUp = s.linkUp := rfl
@[simp] theorem setFunc_linkRate (n : Nat) (x : Func) : (s.setFunc n x).linkRate = s.linkRate := rfl
@[simp] theorem setFunc_linkWidth (n : Nat) (x : Func) : (s.setFunc n x).linkWidth = s.linkWidth := rfl
@[simp] theorem setFunc_linkFlit (n : Nat) (x : Func) : (s.setFunc n x).linkFlit = s.linkFlit := rfl
@[simp] theorem setFunc_hostReads (n : Nat) (x : Func) : (s.setFunc n x).hostReads = s.hostReads := rfl
@[simp] theorem setFunc_sris (n : Nat) (x : Func) : (s.setFunc n x).sris = s.sris := rfl
@[simp] theorem setFunc_numVfs (n : Nat) (x : Func) : (s.setFunc n x).numVfs = s.numVfs := rfl
@[simp] theorem setFunc_mitorReady (n : Nat) (x : Func) : (s.setFunc n x).mitorReady = s.mitorReady := rfl
@[simp] theorem setFunc_musLost (n : Nat) (x : Func) : (s.setFunc n x).musLost = s.musLost := rfl
@[simp] theorem setFunc_attnLow (n : Nat) (x : Func) : (s.setFunc n x).attnLow = s.attnLow := rfl
@[simp] theorem setFunc_wakeLow (n : Nat) (x : Func) : (s.setFunc n x).wakeLow = s.wakeLow := rfl
@[simp] theorem setFunc_removalPrepared (n : Nat) (x : Func) : (s.setFunc n x).removalPrepared = s.removalPrepared := rfl
@[simp] theorem setFunc_bucketTime (n : Nat) (x : Func) : (s.setFunc n x).bucketTime = s.bucketTime := rfl
@[simp] theorem setFunc_retired (n : Nat) (x : Func) : (s.setFunc n x).retired = s.retired := rfl
@[simp] theorem setFunc_coresOut (n : Nat) (x : Func) : (s.setFunc n x).coresOut = s.coresOut := rfl
@[simp] theorem setFunc_portEvents (n : Nat) (x : Func) : (s.setFunc n x).portEvents = s.portEvents := rfl
@[simp] theorem setFunc_ldgMsgs (n : Nat) (x : Func) : (s.setFunc n x).ldgMsgs = s.ldgMsgs := rfl
@[simp] theorem setFunc_kftOpen (n : Nat) (x : Func) : (s.setFunc n x).kftOpen = s.kftOpen := rfl
@[simp] theorem setFunc_coreBanks (n : Nat) (x : Func) : (s.setFunc n x).coreBanks = s.coreBanks := rfl
@[simp] theorem setFunc_galBanks (n : Nat) (x : Func) : (s.setFunc n x).galBanks = s.galBanks := rfl
@[simp] theorem setFunc_wideCounters (n : Nat) (x : Func) : (s.setFunc n x).wideCounters = s.wideCounters := rfl
@[simp] theorem setFunc_traces (n : Nat) (x : Func) : (s.setFunc n x).traces = s.traces := rfl
@[simp] theorem setFunc_logs (n : Nat) (x : Func) : (s.setFunc n x).logs = s.logs := rfl
@[simp] theorem setFunc_rasTimes (n : Nat) (x : Func) : (s.setFunc n x).rasTimes = s.rasTimes := rfl
@[simp] theorem setFunc_corrTimes (n : Nat) (x : Func) : (s.setFunc n x).corrTimes = s.corrTimes := rfl
@[simp] theorem setFunc_corrTold (n : Nat) (x : Func) : (s.setFunc n x).corrTold = s.corrTold := rfl
@[simp] theorem setFunc_thresholds (n : Nat) (x : Func) : (s.setFunc n x).thresholds = s.thresholds := rfl
@[simp] theorem setFunc_moveJobs (n : Nat) (x : Func) : (s.setFunc n x).moveJobs = s.moveJobs := rfl
@[simp] theorem setFunc_tableMoves (n : Nat) (x : Func) : (s.setFunc n x).tableMoves = s.tableMoves := rfl
@[simp] theorem setFunc_drains (n : Nat) (x : Func) : (s.setFunc n x).drains = s.drains := rfl
@[simp] theorem setFunc_poisonTimes (n : Nat) (x : Func) : (s.setFunc n x).poisonTimes = s.poisonTimes := rfl
@[simp] theorem setFunc_mailboxes (n : Nat) (x : Func) : (s.setFunc n x).mailboxes = s.mailboxes := rfl
@[simp] theorem setFunc_taken (n : Nat) (x : Func) : (s.setFunc n x).taken = s.taken := rfl
@[simp] theorem setFunc_keyLast (n : Nat) (x : Func) : (s.setFunc n x).keyLast = s.keyLast := rfl
@[simp] theorem setFunc_conf (n : Nat) (x : Func) : (s.setFunc n x).conf = s.conf := rfl
@[simp] theorem setFunc_bankA (n : Nat) (x : Func) : (s.setFunc n x).bankA = s.bankA := rfl
@[simp] theorem setFunc_bankB (n : Nat) (x : Func) : (s.setFunc n x).bankB = s.bankB := rfl
@[simp] theorem setFunc_curBank (n : Nat) (x : Func) : (s.setFunc n x).curBank = s.curBank := rfl
@[simp] theorem setFunc_writing (n : Nat) (x : Func) : (s.setFunc n x).writing = s.writing := rfl
@[simp] theorem setFunc_writeNo (n : Nat) (x : Func) : (s.setFunc n x).writeNo = s.writeNo := rfl
@[simp] theorem setFunc_storeDirty (n : Nat) (x : Func) : (s.setFunc n x).storeDirty = s.storeDirty := rfl
@[simp] theorem setFunc_audit (n : Nat) (x : Func) : (s.setFunc n x).audit = s.audit := rfl
@[simp] theorem setFunc_auditNext (n : Nat) (x : Func) : (s.setFunc n x).auditNext = s.auditNext := rfl
@[simp] theorem setFunc_boots (n : Nat) (x : Func) : (s.setFunc n x).boots = s.boots := rfl
@[simp] theorem setFunc_rtcStart (n : Nat) (x : Func) : (s.setFunc n x).rtcStart = s.rtcStart := rfl
@[simp] theorem setFunc_fwSlots (n : Nat) (x : Func) : (s.setFunc n x).fwSlots = s.fwSlots := rfl
@[simp] theorem setFunc_running (n : Nat) (x : Func) : (s.setFunc n x).running = s.running := rfl
@[simp] theorem setFunc_seed (n : Nat) (x : Func) : (s.setFunc n x).seed = s.seed := rfl
@[simp] theorem setFunc_makerAllowed (n : Nat) (x : Func) : (s.setFunc n x).makerAllowed = s.makerAllowed := rfl
@[simp] theorem setFunc_scopes (n : Nat) (x : Func) : (s.setFunc n x).scopes = s.scopes := rfl
@[simp] theorem setFunc_reports (n : Nat) (x : Func) : (s.setFunc n x).reports = s.reports := rfl
@[simp] theorem setFunc_sideEid (n : Nat) (x : Func) : (s.setFunc n x).sideEid = s.sideEid := rfl
@[simp] theorem setFunc_selfTests (n : Nat) (x : Func) : (s.setFunc n x).selfTests = s.selfTests := rfl
@[simp] theorem setFunc_aside (n : Nat) (x : Func) : (s.setFunc n x).aside = s.aside := rfl
@[simp] theorem setFunc_ports (n : Nat) (x : Func) : (s.setFunc n x).ports = s.ports := rfl
@[simp] theorem setFunc_subPorts (n : Nat) (x : Func) : (s.setFunc n x).subPorts = s.subPorts := rfl
@[simp] theorem setFunc_assocs (n : Nat) (x : Func) : (s.setFunc n x).assocs = s.assocs := rfl
@[simp] theorem setFunc_queues (n : Nat) (x : Func) : (s.setFunc n x).queues = s.queues := rfl
@[simp] theorem setFunc_nextWork (n : Nat) (x : Func) : (s.setFunc n x).nextWork = s.nextWork := rfl
@[simp] theorem setFunc_udpPort (n : Nat) (x : Func) : (s.setFunc n x).udpPort = s.udpPort := rfl
@[simp] theorem setFunc_neighbours (n : Nat) (x : Func) : (s.setFunc n x).neighbours = s.neighbours := rfl
@[simp] theorem setFunc_supply (n : Nat) (x : Func) : (s.setFunc n x).supply = s.supply := rfl
@[simp] theorem setFunc_pwrEn (n : Nat) (x : Func) : (s.setFunc n x).pwrEn = s.pwrEn := rfl
@[simp] theorem setFunc_pwrGood (n : Nat) (x : Func) : (s.setFunc n x).pwrGood = s.pwrGood := rfl
@[simp] theorem setFunc_perstN (n : Nat) (x : Func) : (s.setFunc n x).perstN = s.perstN := rfl
@[simp] theorem setFunc_lockout (n : Nat) (x : Func) : (s.setFunc n x).lockout = s.lockout := rfl
@[simp] theorem setFunc_brownSince (n : Nat) (x : Func) : (s.setFunc n x).brownSince = s.brownSince := rfl
@[simp] theorem setFunc_goodSince (n : Nat) (x : Func) : (s.setFunc n x).goodSince = s.goodSince := rfl
@[simp] theorem setFunc_gals (n : Nat) (x : Func) : (s.setFunc n x).gals = s.gals := rfl
@[simp] theorem setFunc_hostCores (n : Nat) (x : Func) : (s.setFunc n x).hostCores = s.hostCores := rfl
@[simp] theorem setFunc_uncoreIdle (n : Nat) (x : Func) : (s.setFunc n x).uncoreIdle = s.uncoreIdle := rfl
@[simp] theorem setFunc_memStep (n : Nat) (x : Func) : (s.setFunc n x).memStep = s.memStep := rfl
@[simp] theorem setFunc_railSteps (n : Nat) (x : Func) : (s.setFunc n x).railSteps = s.railSteps := rfl
@[simp] theorem setFunc_allocAt (n : Nat) (x : Func) : (s.setFunc n x).allocAt = s.allocAt := rfl
@[simp] theorem setFunc_readings (n : Nat) (x : Func) : (s.setFunc n x).readings = s.readings := rfl
@[simp] theorem setFunc_tripped (n : Nat) (x : Func) : (s.setFunc n x).tripped = s.tripped := rfl
@[simp] theorem setFunc_stretched (n : Nat) (x : Func) : (s.setFunc n x).stretched = s.stretched := rfl
@[simp] theorem setFunc_heat (n : Nat) (x : Func) : (s.setFunc n x).heat = s.heat := rfl
@[simp] theorem setFunc_budgets (n : Nat) (x : Func) : (s.setFunc n x).budgets = s.budgets := rfl
@[simp] theorem setFunc_mitorUp (n : Nat) (x : Func) : (s.setFunc n x).mitorUp = s.mitorUp := rfl
@[simp] theorem setFunc_bootStopped (n : Nat) (x : Func) : (s.setFunc n x).bootStopped = s.bootStopped := rfl
@[simp] theorem setFunc_layoutDue (n : Nat) (x : Func) : (s.setFunc n x).layoutDue = s.layoutDue := rfl
@[simp] theorem setFunc_activeMu (n : Nat) (x : Func) : (s.setFunc n x).activeMu = s.activeMu := rfl
@[simp] theorem setFunc_muAsleep (n : Nat) (x : Func) : (s.setFunc n x).muAsleep = s.muAsleep := rfl
@[simp] theorem setFunc_muTested (n : Nat) (x : Func) : (s.setFunc n x).muTested = s.muTested := rfl
@[simp] theorem setFunc_softResets (n : Nat) (x : Func) : (s.setFunc n x).softResets = s.softResets := rfl
@[simp] theorem setFunc_activation (n : Nat) (x : Func) : (s.setFunc n x).activation = s.activation := rfl
@[simp] theorem setFunc_siteTests (n : Nat) (x : Func) : (s.setFunc n x).siteTests = s.siteTests := rfl
@[simp] theorem setFunc_recalAt (n : Nat) (x : Func) : (s.setFunc n x).recalAt = s.recalAt := rfl
@[simp] theorem setFunc_paddleEnergy (n : Nat) (x : Func) : (s.setFunc n x).paddleEnergy = s.paddleEnergy := rfl

/-! ### setSlice -/

@[simp] theorem setSlice_pending (n : Nat) (x : Slice) : (s.setSlice n x).pending = s.pending := rfl
@[simp] theorem setSlice_out (n : Nat) (x : Slice) : (s.setSlice n x).out = s.out := rfl
@[simp] theorem setSlice_free (n : Nat) (x : Slice) : (s.setSlice n x).free = s.free := rfl
@[simp] theorem setSlice_now (n : Nat) (x : Slice) : (s.setSlice n x).now = s.now := rfl
@[simp] theorem setSlice_stalled (n : Nat) (x : Slice) : (s.setSlice n x).stalled = s.stalled := rfl
@[simp] theorem setSlice_ctxs (n : Nat) (x : Slice) : (s.setSlice n x).ctxs = s.ctxs := rfl
@[simp] theorem setSlice_turn (n : Nat) (x : Slice) : (s.setSlice n x).turn = s.turn := rfl
@[simp] theorem setSlice_launches (n : Nat) (x : Slice) : (s.setSlice n x).launches = s.launches := rfl
@[simp] theorem setSlice_nextLaunch (n : Nat) (x : Slice) : (s.setSlice n x).nextLaunch = s.nextLaunch := rfl
@[simp] theorem setSlice_coxLaunches (n : Nat) (x : Slice) : (s.setSlice n x).coxLaunches = s.coxLaunches := rfl
@[simp] theorem setSlice_saved (n : Nat) (x : Slice) : (s.setSlice n x).saved = s.saved := rfl
@[simp] theorem setSlice_cores (n : Nat) (x : Slice) : (s.setSlice n x).cores = s.cores := rfl
@[simp] theorem setSlice_homes (n : Nat) (x : Slice) : (s.setSlice n x).homes = s.homes := rfl
@[simp] theorem setSlice_hostLines (n : Nat) (x : Slice) : (s.setSlice n x).hostLines = s.hostLines := rfl
@[simp] theorem setSlice_stamp (n : Nat) (x : Slice) : (s.setSlice n x).stamp = s.stamp := rfl
@[simp] theorem setSlice_parts (n : Nat) (x : Slice) : (s.setSlice n x).parts = s.parts := rfl
@[simp] theorem setSlice_regions (n : Nat) (x : Slice) : (s.setSlice n x).regions = s.regions := rfl
@[simp] theorem setSlice_allocs (n : Nat) (x : Slice) : (s.setSlice n x).allocs = s.allocs := rfl
@[simp] theorem setSlice_stage2 (n : Nat) (x : Slice) : (s.setSlice n x).stage2 = s.stage2 := rfl
@[simp] theorem setSlice_tlb (n : Nat) (x : Slice) : (s.setSlice n x).tlb = s.tlb := rfl
@[simp] theorem setSlice_segs (n : Nat) (x : Slice) : (s.setSlice n x).segs = s.segs := rfl
@[simp] theorem setSlice_rebuilds (n : Nat) (x : Slice) : (s.setSlice n x).rebuilds = s.rebuilds := rfl
@[simp] theorem setSlice_migRegion (n : Nat) (x : Slice) : (s.setSlice n x).migRegion = s.migRegion := rfl
@[simp] theorem setSlice_migPart (n : Nat) (x : Slice) : (s.setSlice n x).migPart = s.migPart := rfl
@[simp] theorem setSlice_hbmStacks (n : Nat) (x : Slice) : (s.setSlice n x).hbmStacks = s.hbmStacks := rfl
@[simp] theorem setSlice_buckets (n : Nat) (x : Slice) : (s.setSlice n x).buckets = s.buckets := rfl
@[simp] theorem setSlice_hbm (n : Nat) (x : Slice) : (s.setSlice n x).hbm = s.hbm := rfl
@[simp] theorem setSlice_hbmPoison (n : Nat) (x : Slice) : (s.setSlice n x).hbmPoison = s.hbmPoison := rfl
@[simp] theorem setSlice_slots (n : Nat) (x : Slice) : (s.setSlice n x).slots = s.slots := rfl
@[simp] theorem setSlice_moves (n : Nat) (x : Slice) : (s.setSlice n x).moves = s.moves := rfl
@[simp] theorem setSlice_mirrorQ (n : Nat) (x : Slice) : (s.setSlice n x).mirrorQ = s.mirrorQ := rfl
@[simp] theorem setSlice_nextMark (n : Nat) (x : Slice) : (s.setSlice n x).nextMark = s.nextMark := rfl
@[simp] theorem setSlice_funcs (n : Nat) (x : Slice) : (s.setSlice n x).funcs = s.funcs := rfl
@[simp] theorem setSlice_linkUp (n : Nat) (x : Slice) : (s.setSlice n x).linkUp = s.linkUp := rfl
@[simp] theorem setSlice_linkRate (n : Nat) (x : Slice) : (s.setSlice n x).linkRate = s.linkRate := rfl
@[simp] theorem setSlice_linkWidth (n : Nat) (x : Slice) : (s.setSlice n x).linkWidth = s.linkWidth := rfl
@[simp] theorem setSlice_linkFlit (n : Nat) (x : Slice) : (s.setSlice n x).linkFlit = s.linkFlit := rfl
@[simp] theorem setSlice_hostReads (n : Nat) (x : Slice) : (s.setSlice n x).hostReads = s.hostReads := rfl
@[simp] theorem setSlice_sris (n : Nat) (x : Slice) : (s.setSlice n x).sris = s.sris := rfl
@[simp] theorem setSlice_numVfs (n : Nat) (x : Slice) : (s.setSlice n x).numVfs = s.numVfs := rfl
@[simp] theorem setSlice_mitorReady (n : Nat) (x : Slice) : (s.setSlice n x).mitorReady = s.mitorReady := rfl
@[simp] theorem setSlice_musLost (n : Nat) (x : Slice) : (s.setSlice n x).musLost = s.musLost := rfl
@[simp] theorem setSlice_attnLow (n : Nat) (x : Slice) : (s.setSlice n x).attnLow = s.attnLow := rfl
@[simp] theorem setSlice_wakeLow (n : Nat) (x : Slice) : (s.setSlice n x).wakeLow = s.wakeLow := rfl
@[simp] theorem setSlice_removalPrepared (n : Nat) (x : Slice) : (s.setSlice n x).removalPrepared = s.removalPrepared := rfl
@[simp] theorem setSlice_bucketTime (n : Nat) (x : Slice) : (s.setSlice n x).bucketTime = s.bucketTime := rfl
@[simp] theorem setSlice_retired (n : Nat) (x : Slice) : (s.setSlice n x).retired = s.retired := rfl
@[simp] theorem setSlice_coresOut (n : Nat) (x : Slice) : (s.setSlice n x).coresOut = s.coresOut := rfl
@[simp] theorem setSlice_portEvents (n : Nat) (x : Slice) : (s.setSlice n x).portEvents = s.portEvents := rfl
@[simp] theorem setSlice_ldgMsgs (n : Nat) (x : Slice) : (s.setSlice n x).ldgMsgs = s.ldgMsgs := rfl
@[simp] theorem setSlice_kftOpen (n : Nat) (x : Slice) : (s.setSlice n x).kftOpen = s.kftOpen := rfl
@[simp] theorem setSlice_coreBanks (n : Nat) (x : Slice) : (s.setSlice n x).coreBanks = s.coreBanks := rfl
@[simp] theorem setSlice_galBanks (n : Nat) (x : Slice) : (s.setSlice n x).galBanks = s.galBanks := rfl
@[simp] theorem setSlice_wideCounters (n : Nat) (x : Slice) : (s.setSlice n x).wideCounters = s.wideCounters := rfl
@[simp] theorem setSlice_traces (n : Nat) (x : Slice) : (s.setSlice n x).traces = s.traces := rfl
@[simp] theorem setSlice_logs (n : Nat) (x : Slice) : (s.setSlice n x).logs = s.logs := rfl
@[simp] theorem setSlice_rasTimes (n : Nat) (x : Slice) : (s.setSlice n x).rasTimes = s.rasTimes := rfl
@[simp] theorem setSlice_corrTimes (n : Nat) (x : Slice) : (s.setSlice n x).corrTimes = s.corrTimes := rfl
@[simp] theorem setSlice_corrTold (n : Nat) (x : Slice) : (s.setSlice n x).corrTold = s.corrTold := rfl
@[simp] theorem setSlice_thresholds (n : Nat) (x : Slice) : (s.setSlice n x).thresholds = s.thresholds := rfl
@[simp] theorem setSlice_moveJobs (n : Nat) (x : Slice) : (s.setSlice n x).moveJobs = s.moveJobs := rfl
@[simp] theorem setSlice_tableMoves (n : Nat) (x : Slice) : (s.setSlice n x).tableMoves = s.tableMoves := rfl
@[simp] theorem setSlice_drains (n : Nat) (x : Slice) : (s.setSlice n x).drains = s.drains := rfl
@[simp] theorem setSlice_poisonTimes (n : Nat) (x : Slice) : (s.setSlice n x).poisonTimes = s.poisonTimes := rfl
@[simp] theorem setSlice_mailboxes (n : Nat) (x : Slice) : (s.setSlice n x).mailboxes = s.mailboxes := rfl
@[simp] theorem setSlice_taken (n : Nat) (x : Slice) : (s.setSlice n x).taken = s.taken := rfl
@[simp] theorem setSlice_keyLast (n : Nat) (x : Slice) : (s.setSlice n x).keyLast = s.keyLast := rfl
@[simp] theorem setSlice_conf (n : Nat) (x : Slice) : (s.setSlice n x).conf = s.conf := rfl
@[simp] theorem setSlice_bankA (n : Nat) (x : Slice) : (s.setSlice n x).bankA = s.bankA := rfl
@[simp] theorem setSlice_bankB (n : Nat) (x : Slice) : (s.setSlice n x).bankB = s.bankB := rfl
@[simp] theorem setSlice_curBank (n : Nat) (x : Slice) : (s.setSlice n x).curBank = s.curBank := rfl
@[simp] theorem setSlice_writing (n : Nat) (x : Slice) : (s.setSlice n x).writing = s.writing := rfl
@[simp] theorem setSlice_writeNo (n : Nat) (x : Slice) : (s.setSlice n x).writeNo = s.writeNo := rfl
@[simp] theorem setSlice_storeDirty (n : Nat) (x : Slice) : (s.setSlice n x).storeDirty = s.storeDirty := rfl
@[simp] theorem setSlice_audit (n : Nat) (x : Slice) : (s.setSlice n x).audit = s.audit := rfl
@[simp] theorem setSlice_auditNext (n : Nat) (x : Slice) : (s.setSlice n x).auditNext = s.auditNext := rfl
@[simp] theorem setSlice_boots (n : Nat) (x : Slice) : (s.setSlice n x).boots = s.boots := rfl
@[simp] theorem setSlice_rtcStart (n : Nat) (x : Slice) : (s.setSlice n x).rtcStart = s.rtcStart := rfl
@[simp] theorem setSlice_fwSlots (n : Nat) (x : Slice) : (s.setSlice n x).fwSlots = s.fwSlots := rfl
@[simp] theorem setSlice_running (n : Nat) (x : Slice) : (s.setSlice n x).running = s.running := rfl
@[simp] theorem setSlice_seed (n : Nat) (x : Slice) : (s.setSlice n x).seed = s.seed := rfl
@[simp] theorem setSlice_makerAllowed (n : Nat) (x : Slice) : (s.setSlice n x).makerAllowed = s.makerAllowed := rfl
@[simp] theorem setSlice_scopes (n : Nat) (x : Slice) : (s.setSlice n x).scopes = s.scopes := rfl
@[simp] theorem setSlice_reports (n : Nat) (x : Slice) : (s.setSlice n x).reports = s.reports := rfl
@[simp] theorem setSlice_sideEid (n : Nat) (x : Slice) : (s.setSlice n x).sideEid = s.sideEid := rfl
@[simp] theorem setSlice_selfTests (n : Nat) (x : Slice) : (s.setSlice n x).selfTests = s.selfTests := rfl
@[simp] theorem setSlice_aside (n : Nat) (x : Slice) : (s.setSlice n x).aside = s.aside := rfl
@[simp] theorem setSlice_ports (n : Nat) (x : Slice) : (s.setSlice n x).ports = s.ports := rfl
@[simp] theorem setSlice_subPorts (n : Nat) (x : Slice) : (s.setSlice n x).subPorts = s.subPorts := rfl
@[simp] theorem setSlice_assocs (n : Nat) (x : Slice) : (s.setSlice n x).assocs = s.assocs := rfl
@[simp] theorem setSlice_queues (n : Nat) (x : Slice) : (s.setSlice n x).queues = s.queues := rfl
@[simp] theorem setSlice_nextWork (n : Nat) (x : Slice) : (s.setSlice n x).nextWork = s.nextWork := rfl
@[simp] theorem setSlice_udpPort (n : Nat) (x : Slice) : (s.setSlice n x).udpPort = s.udpPort := rfl
@[simp] theorem setSlice_neighbours (n : Nat) (x : Slice) : (s.setSlice n x).neighbours = s.neighbours := rfl
@[simp] theorem setSlice_supply (n : Nat) (x : Slice) : (s.setSlice n x).supply = s.supply := rfl
@[simp] theorem setSlice_pwrEn (n : Nat) (x : Slice) : (s.setSlice n x).pwrEn = s.pwrEn := rfl
@[simp] theorem setSlice_pwrGood (n : Nat) (x : Slice) : (s.setSlice n x).pwrGood = s.pwrGood := rfl
@[simp] theorem setSlice_perstN (n : Nat) (x : Slice) : (s.setSlice n x).perstN = s.perstN := rfl
@[simp] theorem setSlice_lockout (n : Nat) (x : Slice) : (s.setSlice n x).lockout = s.lockout := rfl
@[simp] theorem setSlice_brownSince (n : Nat) (x : Slice) : (s.setSlice n x).brownSince = s.brownSince := rfl
@[simp] theorem setSlice_goodSince (n : Nat) (x : Slice) : (s.setSlice n x).goodSince = s.goodSince := rfl
@[simp] theorem setSlice_gals (n : Nat) (x : Slice) : (s.setSlice n x).gals = s.gals := rfl
@[simp] theorem setSlice_hostCores (n : Nat) (x : Slice) : (s.setSlice n x).hostCores = s.hostCores := rfl
@[simp] theorem setSlice_uncoreIdle (n : Nat) (x : Slice) : (s.setSlice n x).uncoreIdle = s.uncoreIdle := rfl
@[simp] theorem setSlice_memStep (n : Nat) (x : Slice) : (s.setSlice n x).memStep = s.memStep := rfl
@[simp] theorem setSlice_railSteps (n : Nat) (x : Slice) : (s.setSlice n x).railSteps = s.railSteps := rfl
@[simp] theorem setSlice_allocAt (n : Nat) (x : Slice) : (s.setSlice n x).allocAt = s.allocAt := rfl
@[simp] theorem setSlice_readings (n : Nat) (x : Slice) : (s.setSlice n x).readings = s.readings := rfl
@[simp] theorem setSlice_tripped (n : Nat) (x : Slice) : (s.setSlice n x).tripped = s.tripped := rfl
@[simp] theorem setSlice_stretched (n : Nat) (x : Slice) : (s.setSlice n x).stretched = s.stretched := rfl
@[simp] theorem setSlice_heat (n : Nat) (x : Slice) : (s.setSlice n x).heat = s.heat := rfl
@[simp] theorem setSlice_budgets (n : Nat) (x : Slice) : (s.setSlice n x).budgets = s.budgets := rfl
@[simp] theorem setSlice_mitorUp (n : Nat) (x : Slice) : (s.setSlice n x).mitorUp = s.mitorUp := rfl
@[simp] theorem setSlice_bootStopped (n : Nat) (x : Slice) : (s.setSlice n x).bootStopped = s.bootStopped := rfl
@[simp] theorem setSlice_layoutDue (n : Nat) (x : Slice) : (s.setSlice n x).layoutDue = s.layoutDue := rfl
@[simp] theorem setSlice_activeMu (n : Nat) (x : Slice) : (s.setSlice n x).activeMu = s.activeMu := rfl
@[simp] theorem setSlice_muAsleep (n : Nat) (x : Slice) : (s.setSlice n x).muAsleep = s.muAsleep := rfl
@[simp] theorem setSlice_muTested (n : Nat) (x : Slice) : (s.setSlice n x).muTested = s.muTested := rfl
@[simp] theorem setSlice_softResets (n : Nat) (x : Slice) : (s.setSlice n x).softResets = s.softResets := rfl
@[simp] theorem setSlice_activation (n : Nat) (x : Slice) : (s.setSlice n x).activation = s.activation := rfl
@[simp] theorem setSlice_siteTests (n : Nat) (x : Slice) : (s.setSlice n x).siteTests = s.siteTests := rfl
@[simp] theorem setSlice_recalAt (n : Nat) (x : Slice) : (s.setSlice n x).recalAt = s.recalAt := rfl
@[simp] theorem setSlice_paddleEnergy (n : Nat) (x : Slice) : (s.setSlice n x).paddleEnergy = s.paddleEnergy := rfl

/-! ### setHome -/

@[simp] theorem setHome_pending (n : Nat) (x : HomeLine) : (s.setHome n x).pending = s.pending := rfl
@[simp] theorem setHome_out (n : Nat) (x : HomeLine) : (s.setHome n x).out = s.out := rfl
@[simp] theorem setHome_free (n : Nat) (x : HomeLine) : (s.setHome n x).free = s.free := rfl
@[simp] theorem setHome_now (n : Nat) (x : HomeLine) : (s.setHome n x).now = s.now := rfl
@[simp] theorem setHome_stalled (n : Nat) (x : HomeLine) : (s.setHome n x).stalled = s.stalled := rfl
@[simp] theorem setHome_ctxs (n : Nat) (x : HomeLine) : (s.setHome n x).ctxs = s.ctxs := rfl
@[simp] theorem setHome_turn (n : Nat) (x : HomeLine) : (s.setHome n x).turn = s.turn := rfl
@[simp] theorem setHome_launches (n : Nat) (x : HomeLine) : (s.setHome n x).launches = s.launches := rfl
@[simp] theorem setHome_nextLaunch (n : Nat) (x : HomeLine) : (s.setHome n x).nextLaunch = s.nextLaunch := rfl
@[simp] theorem setHome_coxLaunches (n : Nat) (x : HomeLine) : (s.setHome n x).coxLaunches = s.coxLaunches := rfl
@[simp] theorem setHome_saved (n : Nat) (x : HomeLine) : (s.setHome n x).saved = s.saved := rfl
@[simp] theorem setHome_cores (n : Nat) (x : HomeLine) : (s.setHome n x).cores = s.cores := rfl
@[simp] theorem setHome_slices (n : Nat) (x : HomeLine) : (s.setHome n x).slices = s.slices := rfl
@[simp] theorem setHome_hostLines (n : Nat) (x : HomeLine) : (s.setHome n x).hostLines = s.hostLines := rfl
@[simp] theorem setHome_stamp (n : Nat) (x : HomeLine) : (s.setHome n x).stamp = s.stamp := rfl
@[simp] theorem setHome_parts (n : Nat) (x : HomeLine) : (s.setHome n x).parts = s.parts := rfl
@[simp] theorem setHome_regions (n : Nat) (x : HomeLine) : (s.setHome n x).regions = s.regions := rfl
@[simp] theorem setHome_allocs (n : Nat) (x : HomeLine) : (s.setHome n x).allocs = s.allocs := rfl
@[simp] theorem setHome_stage2 (n : Nat) (x : HomeLine) : (s.setHome n x).stage2 = s.stage2 := rfl
@[simp] theorem setHome_tlb (n : Nat) (x : HomeLine) : (s.setHome n x).tlb = s.tlb := rfl
@[simp] theorem setHome_segs (n : Nat) (x : HomeLine) : (s.setHome n x).segs = s.segs := rfl
@[simp] theorem setHome_rebuilds (n : Nat) (x : HomeLine) : (s.setHome n x).rebuilds = s.rebuilds := rfl
@[simp] theorem setHome_migRegion (n : Nat) (x : HomeLine) : (s.setHome n x).migRegion = s.migRegion := rfl
@[simp] theorem setHome_migPart (n : Nat) (x : HomeLine) : (s.setHome n x).migPart = s.migPart := rfl
@[simp] theorem setHome_hbmStacks (n : Nat) (x : HomeLine) : (s.setHome n x).hbmStacks = s.hbmStacks := rfl
@[simp] theorem setHome_buckets (n : Nat) (x : HomeLine) : (s.setHome n x).buckets = s.buckets := rfl
@[simp] theorem setHome_hbm (n : Nat) (x : HomeLine) : (s.setHome n x).hbm = s.hbm := rfl
@[simp] theorem setHome_hbmPoison (n : Nat) (x : HomeLine) : (s.setHome n x).hbmPoison = s.hbmPoison := rfl
@[simp] theorem setHome_slots (n : Nat) (x : HomeLine) : (s.setHome n x).slots = s.slots := rfl
@[simp] theorem setHome_moves (n : Nat) (x : HomeLine) : (s.setHome n x).moves = s.moves := rfl
@[simp] theorem setHome_mirrorQ (n : Nat) (x : HomeLine) : (s.setHome n x).mirrorQ = s.mirrorQ := rfl
@[simp] theorem setHome_nextMark (n : Nat) (x : HomeLine) : (s.setHome n x).nextMark = s.nextMark := rfl
@[simp] theorem setHome_funcs (n : Nat) (x : HomeLine) : (s.setHome n x).funcs = s.funcs := rfl
@[simp] theorem setHome_linkUp (n : Nat) (x : HomeLine) : (s.setHome n x).linkUp = s.linkUp := rfl
@[simp] theorem setHome_linkRate (n : Nat) (x : HomeLine) : (s.setHome n x).linkRate = s.linkRate := rfl
@[simp] theorem setHome_linkWidth (n : Nat) (x : HomeLine) : (s.setHome n x).linkWidth = s.linkWidth := rfl
@[simp] theorem setHome_linkFlit (n : Nat) (x : HomeLine) : (s.setHome n x).linkFlit = s.linkFlit := rfl
@[simp] theorem setHome_hostReads (n : Nat) (x : HomeLine) : (s.setHome n x).hostReads = s.hostReads := rfl
@[simp] theorem setHome_sris (n : Nat) (x : HomeLine) : (s.setHome n x).sris = s.sris := rfl
@[simp] theorem setHome_numVfs (n : Nat) (x : HomeLine) : (s.setHome n x).numVfs = s.numVfs := rfl
@[simp] theorem setHome_mitorReady (n : Nat) (x : HomeLine) : (s.setHome n x).mitorReady = s.mitorReady := rfl
@[simp] theorem setHome_musLost (n : Nat) (x : HomeLine) : (s.setHome n x).musLost = s.musLost := rfl
@[simp] theorem setHome_attnLow (n : Nat) (x : HomeLine) : (s.setHome n x).attnLow = s.attnLow := rfl
@[simp] theorem setHome_wakeLow (n : Nat) (x : HomeLine) : (s.setHome n x).wakeLow = s.wakeLow := rfl
@[simp] theorem setHome_removalPrepared (n : Nat) (x : HomeLine) : (s.setHome n x).removalPrepared = s.removalPrepared := rfl
@[simp] theorem setHome_bucketTime (n : Nat) (x : HomeLine) : (s.setHome n x).bucketTime = s.bucketTime := rfl
@[simp] theorem setHome_retired (n : Nat) (x : HomeLine) : (s.setHome n x).retired = s.retired := rfl
@[simp] theorem setHome_coresOut (n : Nat) (x : HomeLine) : (s.setHome n x).coresOut = s.coresOut := rfl
@[simp] theorem setHome_portEvents (n : Nat) (x : HomeLine) : (s.setHome n x).portEvents = s.portEvents := rfl
@[simp] theorem setHome_ldgMsgs (n : Nat) (x : HomeLine) : (s.setHome n x).ldgMsgs = s.ldgMsgs := rfl
@[simp] theorem setHome_kftOpen (n : Nat) (x : HomeLine) : (s.setHome n x).kftOpen = s.kftOpen := rfl
@[simp] theorem setHome_coreBanks (n : Nat) (x : HomeLine) : (s.setHome n x).coreBanks = s.coreBanks := rfl
@[simp] theorem setHome_galBanks (n : Nat) (x : HomeLine) : (s.setHome n x).galBanks = s.galBanks := rfl
@[simp] theorem setHome_wideCounters (n : Nat) (x : HomeLine) : (s.setHome n x).wideCounters = s.wideCounters := rfl
@[simp] theorem setHome_traces (n : Nat) (x : HomeLine) : (s.setHome n x).traces = s.traces := rfl
@[simp] theorem setHome_logs (n : Nat) (x : HomeLine) : (s.setHome n x).logs = s.logs := rfl
@[simp] theorem setHome_rasTimes (n : Nat) (x : HomeLine) : (s.setHome n x).rasTimes = s.rasTimes := rfl
@[simp] theorem setHome_corrTimes (n : Nat) (x : HomeLine) : (s.setHome n x).corrTimes = s.corrTimes := rfl
@[simp] theorem setHome_corrTold (n : Nat) (x : HomeLine) : (s.setHome n x).corrTold = s.corrTold := rfl
@[simp] theorem setHome_thresholds (n : Nat) (x : HomeLine) : (s.setHome n x).thresholds = s.thresholds := rfl
@[simp] theorem setHome_moveJobs (n : Nat) (x : HomeLine) : (s.setHome n x).moveJobs = s.moveJobs := rfl
@[simp] theorem setHome_tableMoves (n : Nat) (x : HomeLine) : (s.setHome n x).tableMoves = s.tableMoves := rfl
@[simp] theorem setHome_drains (n : Nat) (x : HomeLine) : (s.setHome n x).drains = s.drains := rfl
@[simp] theorem setHome_poisonTimes (n : Nat) (x : HomeLine) : (s.setHome n x).poisonTimes = s.poisonTimes := rfl
@[simp] theorem setHome_mailboxes (n : Nat) (x : HomeLine) : (s.setHome n x).mailboxes = s.mailboxes := rfl
@[simp] theorem setHome_taken (n : Nat) (x : HomeLine) : (s.setHome n x).taken = s.taken := rfl
@[simp] theorem setHome_keyLast (n : Nat) (x : HomeLine) : (s.setHome n x).keyLast = s.keyLast := rfl
@[simp] theorem setHome_conf (n : Nat) (x : HomeLine) : (s.setHome n x).conf = s.conf := rfl
@[simp] theorem setHome_bankA (n : Nat) (x : HomeLine) : (s.setHome n x).bankA = s.bankA := rfl
@[simp] theorem setHome_bankB (n : Nat) (x : HomeLine) : (s.setHome n x).bankB = s.bankB := rfl
@[simp] theorem setHome_curBank (n : Nat) (x : HomeLine) : (s.setHome n x).curBank = s.curBank := rfl
@[simp] theorem setHome_writing (n : Nat) (x : HomeLine) : (s.setHome n x).writing = s.writing := rfl
@[simp] theorem setHome_writeNo (n : Nat) (x : HomeLine) : (s.setHome n x).writeNo = s.writeNo := rfl
@[simp] theorem setHome_storeDirty (n : Nat) (x : HomeLine) : (s.setHome n x).storeDirty = s.storeDirty := rfl
@[simp] theorem setHome_audit (n : Nat) (x : HomeLine) : (s.setHome n x).audit = s.audit := rfl
@[simp] theorem setHome_auditNext (n : Nat) (x : HomeLine) : (s.setHome n x).auditNext = s.auditNext := rfl
@[simp] theorem setHome_boots (n : Nat) (x : HomeLine) : (s.setHome n x).boots = s.boots := rfl
@[simp] theorem setHome_rtcStart (n : Nat) (x : HomeLine) : (s.setHome n x).rtcStart = s.rtcStart := rfl
@[simp] theorem setHome_fwSlots (n : Nat) (x : HomeLine) : (s.setHome n x).fwSlots = s.fwSlots := rfl
@[simp] theorem setHome_running (n : Nat) (x : HomeLine) : (s.setHome n x).running = s.running := rfl
@[simp] theorem setHome_seed (n : Nat) (x : HomeLine) : (s.setHome n x).seed = s.seed := rfl
@[simp] theorem setHome_makerAllowed (n : Nat) (x : HomeLine) : (s.setHome n x).makerAllowed = s.makerAllowed := rfl
@[simp] theorem setHome_scopes (n : Nat) (x : HomeLine) : (s.setHome n x).scopes = s.scopes := rfl
@[simp] theorem setHome_reports (n : Nat) (x : HomeLine) : (s.setHome n x).reports = s.reports := rfl
@[simp] theorem setHome_sideEid (n : Nat) (x : HomeLine) : (s.setHome n x).sideEid = s.sideEid := rfl
@[simp] theorem setHome_selfTests (n : Nat) (x : HomeLine) : (s.setHome n x).selfTests = s.selfTests := rfl
@[simp] theorem setHome_aside (n : Nat) (x : HomeLine) : (s.setHome n x).aside = s.aside := rfl
@[simp] theorem setHome_ports (n : Nat) (x : HomeLine) : (s.setHome n x).ports = s.ports := rfl
@[simp] theorem setHome_subPorts (n : Nat) (x : HomeLine) : (s.setHome n x).subPorts = s.subPorts := rfl
@[simp] theorem setHome_assocs (n : Nat) (x : HomeLine) : (s.setHome n x).assocs = s.assocs := rfl
@[simp] theorem setHome_queues (n : Nat) (x : HomeLine) : (s.setHome n x).queues = s.queues := rfl
@[simp] theorem setHome_nextWork (n : Nat) (x : HomeLine) : (s.setHome n x).nextWork = s.nextWork := rfl
@[simp] theorem setHome_udpPort (n : Nat) (x : HomeLine) : (s.setHome n x).udpPort = s.udpPort := rfl
@[simp] theorem setHome_neighbours (n : Nat) (x : HomeLine) : (s.setHome n x).neighbours = s.neighbours := rfl
@[simp] theorem setHome_supply (n : Nat) (x : HomeLine) : (s.setHome n x).supply = s.supply := rfl
@[simp] theorem setHome_pwrEn (n : Nat) (x : HomeLine) : (s.setHome n x).pwrEn = s.pwrEn := rfl
@[simp] theorem setHome_pwrGood (n : Nat) (x : HomeLine) : (s.setHome n x).pwrGood = s.pwrGood := rfl
@[simp] theorem setHome_perstN (n : Nat) (x : HomeLine) : (s.setHome n x).perstN = s.perstN := rfl
@[simp] theorem setHome_lockout (n : Nat) (x : HomeLine) : (s.setHome n x).lockout = s.lockout := rfl
@[simp] theorem setHome_brownSince (n : Nat) (x : HomeLine) : (s.setHome n x).brownSince = s.brownSince := rfl
@[simp] theorem setHome_goodSince (n : Nat) (x : HomeLine) : (s.setHome n x).goodSince = s.goodSince := rfl
@[simp] theorem setHome_gals (n : Nat) (x : HomeLine) : (s.setHome n x).gals = s.gals := rfl
@[simp] theorem setHome_hostCores (n : Nat) (x : HomeLine) : (s.setHome n x).hostCores = s.hostCores := rfl
@[simp] theorem setHome_uncoreIdle (n : Nat) (x : HomeLine) : (s.setHome n x).uncoreIdle = s.uncoreIdle := rfl
@[simp] theorem setHome_memStep (n : Nat) (x : HomeLine) : (s.setHome n x).memStep = s.memStep := rfl
@[simp] theorem setHome_railSteps (n : Nat) (x : HomeLine) : (s.setHome n x).railSteps = s.railSteps := rfl
@[simp] theorem setHome_allocAt (n : Nat) (x : HomeLine) : (s.setHome n x).allocAt = s.allocAt := rfl
@[simp] theorem setHome_readings (n : Nat) (x : HomeLine) : (s.setHome n x).readings = s.readings := rfl
@[simp] theorem setHome_tripped (n : Nat) (x : HomeLine) : (s.setHome n x).tripped = s.tripped := rfl
@[simp] theorem setHome_stretched (n : Nat) (x : HomeLine) : (s.setHome n x).stretched = s.stretched := rfl
@[simp] theorem setHome_heat (n : Nat) (x : HomeLine) : (s.setHome n x).heat = s.heat := rfl
@[simp] theorem setHome_budgets (n : Nat) (x : HomeLine) : (s.setHome n x).budgets = s.budgets := rfl
@[simp] theorem setHome_mitorUp (n : Nat) (x : HomeLine) : (s.setHome n x).mitorUp = s.mitorUp := rfl
@[simp] theorem setHome_bootStopped (n : Nat) (x : HomeLine) : (s.setHome n x).bootStopped = s.bootStopped := rfl
@[simp] theorem setHome_layoutDue (n : Nat) (x : HomeLine) : (s.setHome n x).layoutDue = s.layoutDue := rfl
@[simp] theorem setHome_activeMu (n : Nat) (x : HomeLine) : (s.setHome n x).activeMu = s.activeMu := rfl
@[simp] theorem setHome_muAsleep (n : Nat) (x : HomeLine) : (s.setHome n x).muAsleep = s.muAsleep := rfl
@[simp] theorem setHome_muTested (n : Nat) (x : HomeLine) : (s.setHome n x).muTested = s.muTested := rfl
@[simp] theorem setHome_softResets (n : Nat) (x : HomeLine) : (s.setHome n x).softResets = s.softResets := rfl
@[simp] theorem setHome_activation (n : Nat) (x : HomeLine) : (s.setHome n x).activation = s.activation := rfl
@[simp] theorem setHome_siteTests (n : Nat) (x : HomeLine) : (s.setHome n x).siteTests = s.siteTests := rfl
@[simp] theorem setHome_recalAt (n : Nat) (x : HomeLine) : (s.setHome n x).recalAt = s.recalAt := rfl
@[simp] theorem setHome_paddleEnergy (n : Nat) (x : HomeLine) : (s.setHome n x).paddleEnergy = s.paddleEnergy := rfl

/-! ### emit -/

@[simp] theorem emit_pending (e : OutEvent) : (s.emit e).pending = s.pending := rfl
@[simp] theorem emit_free (e : OutEvent) : (s.emit e).free = s.free := rfl
@[simp] theorem emit_now (e : OutEvent) : (s.emit e).now = s.now := rfl
@[simp] theorem emit_stalled (e : OutEvent) : (s.emit e).stalled = s.stalled := rfl
@[simp] theorem emit_ctxs (e : OutEvent) : (s.emit e).ctxs = s.ctxs := rfl
@[simp] theorem emit_turn (e : OutEvent) : (s.emit e).turn = s.turn := rfl
@[simp] theorem emit_launches (e : OutEvent) : (s.emit e).launches = s.launches := rfl
@[simp] theorem emit_nextLaunch (e : OutEvent) : (s.emit e).nextLaunch = s.nextLaunch := rfl
@[simp] theorem emit_coxLaunches (e : OutEvent) : (s.emit e).coxLaunches = s.coxLaunches := rfl
@[simp] theorem emit_saved (e : OutEvent) : (s.emit e).saved = s.saved := rfl
@[simp] theorem emit_cores (e : OutEvent) : (s.emit e).cores = s.cores := rfl
@[simp] theorem emit_slices (e : OutEvent) : (s.emit e).slices = s.slices := rfl
@[simp] theorem emit_homes (e : OutEvent) : (s.emit e).homes = s.homes := rfl
@[simp] theorem emit_hostLines (e : OutEvent) : (s.emit e).hostLines = s.hostLines := rfl
@[simp] theorem emit_stamp (e : OutEvent) : (s.emit e).stamp = s.stamp := rfl
@[simp] theorem emit_parts (e : OutEvent) : (s.emit e).parts = s.parts := rfl
@[simp] theorem emit_regions (e : OutEvent) : (s.emit e).regions = s.regions := rfl
@[simp] theorem emit_allocs (e : OutEvent) : (s.emit e).allocs = s.allocs := rfl
@[simp] theorem emit_stage2 (e : OutEvent) : (s.emit e).stage2 = s.stage2 := rfl
@[simp] theorem emit_tlb (e : OutEvent) : (s.emit e).tlb = s.tlb := rfl
@[simp] theorem emit_segs (e : OutEvent) : (s.emit e).segs = s.segs := rfl
@[simp] theorem emit_rebuilds (e : OutEvent) : (s.emit e).rebuilds = s.rebuilds := rfl
@[simp] theorem emit_migRegion (e : OutEvent) : (s.emit e).migRegion = s.migRegion := rfl
@[simp] theorem emit_migPart (e : OutEvent) : (s.emit e).migPart = s.migPart := rfl
@[simp] theorem emit_hbmStacks (e : OutEvent) : (s.emit e).hbmStacks = s.hbmStacks := rfl
@[simp] theorem emit_buckets (e : OutEvent) : (s.emit e).buckets = s.buckets := rfl
@[simp] theorem emit_hbm (e : OutEvent) : (s.emit e).hbm = s.hbm := rfl
@[simp] theorem emit_hbmPoison (e : OutEvent) : (s.emit e).hbmPoison = s.hbmPoison := rfl
@[simp] theorem emit_slots (e : OutEvent) : (s.emit e).slots = s.slots := rfl
@[simp] theorem emit_moves (e : OutEvent) : (s.emit e).moves = s.moves := rfl
@[simp] theorem emit_mirrorQ (e : OutEvent) : (s.emit e).mirrorQ = s.mirrorQ := rfl
@[simp] theorem emit_nextMark (e : OutEvent) : (s.emit e).nextMark = s.nextMark := rfl
@[simp] theorem emit_funcs (e : OutEvent) : (s.emit e).funcs = s.funcs := rfl
@[simp] theorem emit_linkUp (e : OutEvent) : (s.emit e).linkUp = s.linkUp := rfl
@[simp] theorem emit_linkRate (e : OutEvent) : (s.emit e).linkRate = s.linkRate := rfl
@[simp] theorem emit_linkWidth (e : OutEvent) : (s.emit e).linkWidth = s.linkWidth := rfl
@[simp] theorem emit_linkFlit (e : OutEvent) : (s.emit e).linkFlit = s.linkFlit := rfl
@[simp] theorem emit_hostReads (e : OutEvent) : (s.emit e).hostReads = s.hostReads := rfl
@[simp] theorem emit_sris (e : OutEvent) : (s.emit e).sris = s.sris := rfl
@[simp] theorem emit_numVfs (e : OutEvent) : (s.emit e).numVfs = s.numVfs := rfl
@[simp] theorem emit_mitorReady (e : OutEvent) : (s.emit e).mitorReady = s.mitorReady := rfl
@[simp] theorem emit_musLost (e : OutEvent) : (s.emit e).musLost = s.musLost := rfl
@[simp] theorem emit_attnLow (e : OutEvent) : (s.emit e).attnLow = s.attnLow := rfl
@[simp] theorem emit_wakeLow (e : OutEvent) : (s.emit e).wakeLow = s.wakeLow := rfl
@[simp] theorem emit_removalPrepared (e : OutEvent) : (s.emit e).removalPrepared = s.removalPrepared := rfl
@[simp] theorem emit_bucketTime (e : OutEvent) : (s.emit e).bucketTime = s.bucketTime := rfl
@[simp] theorem emit_retired (e : OutEvent) : (s.emit e).retired = s.retired := rfl
@[simp] theorem emit_coresOut (e : OutEvent) : (s.emit e).coresOut = s.coresOut := rfl
@[simp] theorem emit_portEvents (e : OutEvent) : (s.emit e).portEvents = s.portEvents := rfl
@[simp] theorem emit_ldgMsgs (e : OutEvent) : (s.emit e).ldgMsgs = s.ldgMsgs := rfl
@[simp] theorem emit_kftOpen (e : OutEvent) : (s.emit e).kftOpen = s.kftOpen := rfl
@[simp] theorem emit_coreBanks (e : OutEvent) : (s.emit e).coreBanks = s.coreBanks := rfl
@[simp] theorem emit_galBanks (e : OutEvent) : (s.emit e).galBanks = s.galBanks := rfl
@[simp] theorem emit_wideCounters (e : OutEvent) : (s.emit e).wideCounters = s.wideCounters := rfl
@[simp] theorem emit_traces (e : OutEvent) : (s.emit e).traces = s.traces := rfl
@[simp] theorem emit_logs (e : OutEvent) : (s.emit e).logs = s.logs := rfl
@[simp] theorem emit_rasTimes (e : OutEvent) : (s.emit e).rasTimes = s.rasTimes := rfl
@[simp] theorem emit_corrTimes (e : OutEvent) : (s.emit e).corrTimes = s.corrTimes := rfl
@[simp] theorem emit_corrTold (e : OutEvent) : (s.emit e).corrTold = s.corrTold := rfl
@[simp] theorem emit_thresholds (e : OutEvent) : (s.emit e).thresholds = s.thresholds := rfl
@[simp] theorem emit_moveJobs (e : OutEvent) : (s.emit e).moveJobs = s.moveJobs := rfl
@[simp] theorem emit_tableMoves (e : OutEvent) : (s.emit e).tableMoves = s.tableMoves := rfl
@[simp] theorem emit_drains (e : OutEvent) : (s.emit e).drains = s.drains := rfl
@[simp] theorem emit_poisonTimes (e : OutEvent) : (s.emit e).poisonTimes = s.poisonTimes := rfl
@[simp] theorem emit_mailboxes (e : OutEvent) : (s.emit e).mailboxes = s.mailboxes := rfl
@[simp] theorem emit_taken (e : OutEvent) : (s.emit e).taken = s.taken := rfl
@[simp] theorem emit_keyLast (e : OutEvent) : (s.emit e).keyLast = s.keyLast := rfl
@[simp] theorem emit_conf (e : OutEvent) : (s.emit e).conf = s.conf := rfl
@[simp] theorem emit_bankA (e : OutEvent) : (s.emit e).bankA = s.bankA := rfl
@[simp] theorem emit_bankB (e : OutEvent) : (s.emit e).bankB = s.bankB := rfl
@[simp] theorem emit_curBank (e : OutEvent) : (s.emit e).curBank = s.curBank := rfl
@[simp] theorem emit_writing (e : OutEvent) : (s.emit e).writing = s.writing := rfl
@[simp] theorem emit_writeNo (e : OutEvent) : (s.emit e).writeNo = s.writeNo := rfl
@[simp] theorem emit_storeDirty (e : OutEvent) : (s.emit e).storeDirty = s.storeDirty := rfl
@[simp] theorem emit_audit (e : OutEvent) : (s.emit e).audit = s.audit := rfl
@[simp] theorem emit_auditNext (e : OutEvent) : (s.emit e).auditNext = s.auditNext := rfl
@[simp] theorem emit_boots (e : OutEvent) : (s.emit e).boots = s.boots := rfl
@[simp] theorem emit_rtcStart (e : OutEvent) : (s.emit e).rtcStart = s.rtcStart := rfl
@[simp] theorem emit_fwSlots (e : OutEvent) : (s.emit e).fwSlots = s.fwSlots := rfl
@[simp] theorem emit_running (e : OutEvent) : (s.emit e).running = s.running := rfl
@[simp] theorem emit_seed (e : OutEvent) : (s.emit e).seed = s.seed := rfl
@[simp] theorem emit_makerAllowed (e : OutEvent) : (s.emit e).makerAllowed = s.makerAllowed := rfl
@[simp] theorem emit_scopes (e : OutEvent) : (s.emit e).scopes = s.scopes := rfl
@[simp] theorem emit_reports (e : OutEvent) : (s.emit e).reports = s.reports := rfl
@[simp] theorem emit_sideEid (e : OutEvent) : (s.emit e).sideEid = s.sideEid := rfl
@[simp] theorem emit_selfTests (e : OutEvent) : (s.emit e).selfTests = s.selfTests := rfl
@[simp] theorem emit_aside (e : OutEvent) : (s.emit e).aside = s.aside := rfl
@[simp] theorem emit_ports (e : OutEvent) : (s.emit e).ports = s.ports := rfl
@[simp] theorem emit_subPorts (e : OutEvent) : (s.emit e).subPorts = s.subPorts := rfl
@[simp] theorem emit_assocs (e : OutEvent) : (s.emit e).assocs = s.assocs := rfl
@[simp] theorem emit_queues (e : OutEvent) : (s.emit e).queues = s.queues := rfl
@[simp] theorem emit_nextWork (e : OutEvent) : (s.emit e).nextWork = s.nextWork := rfl
@[simp] theorem emit_udpPort (e : OutEvent) : (s.emit e).udpPort = s.udpPort := rfl
@[simp] theorem emit_neighbours (e : OutEvent) : (s.emit e).neighbours = s.neighbours := rfl
@[simp] theorem emit_supply (e : OutEvent) : (s.emit e).supply = s.supply := rfl
@[simp] theorem emit_pwrEn (e : OutEvent) : (s.emit e).pwrEn = s.pwrEn := rfl
@[simp] theorem emit_pwrGood (e : OutEvent) : (s.emit e).pwrGood = s.pwrGood := rfl
@[simp] theorem emit_perstN (e : OutEvent) : (s.emit e).perstN = s.perstN := rfl
@[simp] theorem emit_lockout (e : OutEvent) : (s.emit e).lockout = s.lockout := rfl
@[simp] theorem emit_brownSince (e : OutEvent) : (s.emit e).brownSince = s.brownSince := rfl
@[simp] theorem emit_goodSince (e : OutEvent) : (s.emit e).goodSince = s.goodSince := rfl
@[simp] theorem emit_gals (e : OutEvent) : (s.emit e).gals = s.gals := rfl
@[simp] theorem emit_hostCores (e : OutEvent) : (s.emit e).hostCores = s.hostCores := rfl
@[simp] theorem emit_uncoreIdle (e : OutEvent) : (s.emit e).uncoreIdle = s.uncoreIdle := rfl
@[simp] theorem emit_memStep (e : OutEvent) : (s.emit e).memStep = s.memStep := rfl
@[simp] theorem emit_railSteps (e : OutEvent) : (s.emit e).railSteps = s.railSteps := rfl
@[simp] theorem emit_allocAt (e : OutEvent) : (s.emit e).allocAt = s.allocAt := rfl
@[simp] theorem emit_readings (e : OutEvent) : (s.emit e).readings = s.readings := rfl
@[simp] theorem emit_tripped (e : OutEvent) : (s.emit e).tripped = s.tripped := rfl
@[simp] theorem emit_stretched (e : OutEvent) : (s.emit e).stretched = s.stretched := rfl
@[simp] theorem emit_heat (e : OutEvent) : (s.emit e).heat = s.heat := rfl
@[simp] theorem emit_budgets (e : OutEvent) : (s.emit e).budgets = s.budgets := rfl
@[simp] theorem emit_mitorUp (e : OutEvent) : (s.emit e).mitorUp = s.mitorUp := rfl
@[simp] theorem emit_bootStopped (e : OutEvent) : (s.emit e).bootStopped = s.bootStopped := rfl
@[simp] theorem emit_layoutDue (e : OutEvent) : (s.emit e).layoutDue = s.layoutDue := rfl
@[simp] theorem emit_activeMu (e : OutEvent) : (s.emit e).activeMu = s.activeMu := rfl
@[simp] theorem emit_muAsleep (e : OutEvent) : (s.emit e).muAsleep = s.muAsleep := rfl
@[simp] theorem emit_muTested (e : OutEvent) : (s.emit e).muTested = s.muTested := rfl
@[simp] theorem emit_softResets (e : OutEvent) : (s.emit e).softResets = s.softResets := rfl
@[simp] theorem emit_activation (e : OutEvent) : (s.emit e).activation = s.activation := rfl
@[simp] theorem emit_siteTests (e : OutEvent) : (s.emit e).siteTests = s.siteTests := rfl
@[simp] theorem emit_recalAt (e : OutEvent) : (s.emit e).recalAt = s.recalAt := rfl
@[simp] theorem emit_paddleEnergy (e : OutEvent) : (s.emit e).paddleEnergy = s.paddleEnergy := rfl

end Sys2Proof.Machine
end

