-- ==== Sys2Proof/Laws/Ops.lean ====
section
/-! SUPPORT. What each shared operation of Ops.lean and the HBM operations of Memory.lean can do: what a unit reads as after
an update, the bounds of a choice, the direction of time, and that bytes are stored where they are said to go. -/

namespace Sys2Proof.Machine

open Sys2Proof

/-! ### Updates by a function -/

theorem modCtx_eq (s : State) (n : Nat) (f : Ctx → Ctx) : s.modCtx n f = s.setCtx n (f (s.ctx n)) := rfl
theorem modCore_eq (s : State) (n : Nat) (f : Core → Core) : s.modCore n f = s.setCore n (f (s.core n)) := rfl
theorem modSlot_eq (s : State) (n : Nat) (f : Slot → Slot) : s.modSlot n f = s.setSlot n (f (s.slot n)) := rfl
theorem modFunc_eq (s : State) (n : Nat) (f : Func → Func) : s.modFunc n f = s.setFunc n (f (s.func n)) := rfl
theorem modSlice_eq (s : State) (n : Nat) (f : Slice → Slice) : s.modSlice n f = s.setSlice n (f (s.slice n)) := rfl

/-! ### The unit that was written, and the others -/

theorem ctx_setCtx_same (s : State) (n : Nat) (x : Ctx) (h : mwf ({} : Ctx) s.ctxs = true) : (s.setCtx n x).ctx n = x :=
  mget_mset_same _ s.ctxs n x h
theorem ctx_setCtx_other (s : State) (n k : Nat) (x : Ctx) (hk : k ≠ n) (h : mwf ({} : Ctx) s.ctxs = true) :
    (s.setCtx n x).ctx k = s.ctx k := mget_mset_other _ s.ctxs n k x hk h
theorem core_setCore_same (s : State) (n : Nat) (x : Core) (h : mwf ({} : Core) s.cores = true) : (s.setCore n x).core n = x :=
  mget_mset_same _ s.cores n x h
theorem core_setCore_other (s : State) (n k : Nat) (x : Core) (hk : k ≠ n) (h : mwf ({} : Core) s.cores = true) :
    (s.setCore n x).core k = s.core k := mget_mset_other _ s.cores n k x hk h
theorem part_setPart_same (s : State) (n : Nat) (x : Partition) (h : mwf ({} : Partition) s.parts = true) : (s.setPart n x).part n = x :=
  mget_mset_same _ s.parts n x h
theorem part_setPart_other (s : State) (n k : Nat) (x : Partition) (hk : k ≠ n) (h : mwf ({} : Partition) s.parts = true) :
    (s.setPart n x).part k = s.part k := mget_mset_other _ s.parts n k x hk h
theorem slot_setSlot_same (s : State) (n : Nat) (x : Slot) (h : mwf ({} : Slot) s.slots = true) : (s.setSlot n x).slot n = x :=
  mget_mset_same _ s.slots n x h
theorem slot_setSlot_other (s : State) (n k : Nat) (x : Slot) (hk : k ≠ n) (h : mwf ({} : Slot) s.slots = true) :
    (s.setSlot n x).slot k = s.slot k := mget_mset_other _ s.slots n k x hk h
theorem func_setFunc_same (s : State) (n : Nat) (x : Func) (h : mwf ({} : Func) s.funcs = true) : (s.setFunc n x).func n = x :=
  mget_mset_same _ s.funcs n x h
theorem func_setFunc_other (s : State) (n k : Nat) (x : Func) (hk : k ≠ n) (h : mwf ({} : Func) s.funcs = true) :
    (s.setFunc n x).func k = s.func k := mget_mset_other _ s.funcs n k x hk h
theorem slice_setSlice_same (s : State) (n : Nat) (x : Slice) (h : mwf ({} : Slice) s.slices = true) : (s.setSlice n x).slice n = x :=
  mget_mset_same _ s.slices n x h
theorem slice_setSlice_other (s : State) (n k : Nat) (x : Slice) (hk : k ≠ n) (h : mwf ({} : Slice) s.slices = true) :
    (s.setSlice n x).slice k = s.slice k := mget_mset_other _ s.slices n k x hk h
theorem home_setHome_same (s : State) (n : Nat) (x : HomeLine) (h : mwf ({} : HomeLine) s.homes = true) : (s.setHome n x).home n = x :=
  mget_mset_same _ s.homes n x h
theorem home_setHome_other (s : State) (n k : Nat) (x : HomeLine) (hk : k ≠ n) (h : mwf ({} : HomeLine) s.homes = true) :
    (s.setHome n x).home k = s.home k := mget_mset_other _ s.homes n k x hk h

theorem launch_modLaunch_of_some {s : State} {n : Nat} {l : Launch} (f : Launch → Launch) (h : s.launch n = some l) :
    (s.modLaunch n f).launch n = some (f l) := by
  simp [State.modLaunch, State.launch] at h ⊢
  simp [h]

theorem modLaunch_of_none {s : State} {n : Nat} (f : Launch → Launch) (h : s.launch n = none) : s.modLaunch n f = s := by
  simp [State.modLaunch, h]

theorem launch_modLaunch_other (s : State) (n k : Nat) (f : Launch → Launch) (hk : k ≠ n) :
    (s.modLaunch n f).launch k = s.launch k := by
  unfold State.modLaunch
  split
  · exact mfind_minsert_other _ _ _ _ hk
  · rfl

theorem modCrew_of_none {s : State} {core key : Nat} (f : Crew → Crew) (h : s.crew core key = none) : s.modCrew core key f = s := by
  simp [State.modCrew, h]

/-! ### Free values and time -/

theorem pick_state (s : State) (n : Nat) : (s.pick n).1 = { s with free := s.free + 1 } := rfl

theorem pick_lt (s : State) (n : Nat) (h : 0 < n) : (s.pick n).2 < n := by
  have : n ≠ 0 := by omega
  simp [State.pick, this, Nat.mod_lt _ h]

theorem fresh_state (s : State) : s.fresh.1 = { s with free := s.free + 1 } := rfl

theorem sample_state (s : State) : s.sample.1 = { s with free := s.free + 1, now := s.sample.2 } := rfl

/-- Time does not run back when it is read. -/
theorem now_le_sample (s : State) : s.now ≤ s.sample.2 := Nat.le_add_right _ _

theorem now_le_until (s : State) (n : Nat) : s.now ≤ (s.until n).now := Nat.le_max_left _ _
theorem until_reaches (s : State) (n : Nat) : n ≤ (s.until n).now := Nat.le_max_right _ _
theorem until_eq (s : State) (n : Nat) (h : n ≤ s.now) : s.until n = s := by
  simp [State.until, Nat.max_eq_left h]

/-! ### Commands that wait -/

/-- A command whose accesses were all served leaves the state that it has made. -/
theorem orWait_of_served (s t : State) (h : t.stalled = false) : s.orWait t = t := by simp [State.orWait, h]

/-- A command that waits leaves everything but the free values, the time and the reads of host memory that it has sent. -/
theorem orWait_of_stalled (s t : State) (h : t.stalled = true) :
    s.orWait t = { s with free := t.free, now := t.now, hostReads := t.hostReads, stalled := false } := by simp [State.orWait, h]

/-- No command is left half done. -/
@[simp] theorem orWait_stalled (s t : State) : (s.orWait t).stalled = false := by
  cases h : t.stalled <;> simp [State.orWait, h]

@[simp] theorem waits_next (s t : State) : s.waits (.next t) = .next (s.orWait t) := rfl

@[simp] theorem emit_out (s : State) (e : OutEvent) : (s.emit e).out = e :: s.out := rfl

/-! ### HBM -/

theorem writeBytes_keeps_mwf (bs : List Byte) (m : Map Byte) (key : Nat) (h : mwf 0 m = true) : mwf 0 (writeBytes m key bs) = true := by
  induction bs generalizing m key with
  | nil => exact h
  | cons b bs ih => exact ih _ _ (mset_keeps_mwf 0 m key b h)

/-- A byte outside the written ones reads as before. -/
theorem mget_writeBytes_other (bs : List Byte) (m : Map Byte) (key a : Nat) (h : mwf 0 m = true) (ha : a < key ∨ key + bs.length ≤ a) :
    mget 0 (writeBytes m key bs) a = mget 0 m a := by
  induction bs generalizing m key with
  | nil => rfl
  | cons b bs ih =>
    simp only [List.length_cons] at ha
    rw [writeBytes, ih _ _ (mset_keeps_mwf 0 m key b h) (by omega), mget_mset_other 0 m key a b (by omega) h]

/-- A written byte reads as written. -/
theorem mget_writeBytes_same (bs : List Byte) (m : Map Byte) (key i : Nat) (h : mwf 0 m = true) (hi : i < bs.length) :
    mget 0 (writeBytes m key bs) (key + i) = bs[i] := by
  induction bs generalizing m key i with
  | nil => simp at hi
  | cons b bs ih =>
    have hm := mset_keeps_mwf 0 m key b h
    cases i with
    | zero =>
      rw [Nat.add_zero, writeBytes, mget_writeBytes_other bs _ (key + 1) key hm (by omega), mget_mset_same 0 m key b h]
      rfl
    | succ i =>
      have := ih (mset 0 m key b) (key + 1) i hm (by simpa using hi)
      rw [writeBytes, show key + (i + 1) = key + 1 + i by omega, this]
      rfl

theorem hbmWrite_keeps_mwf (s : State) (key : Nat) (bs : List Byte) (h : mwf 0 s.hbm = true) : mwf 0 (s.hbmWrite key bs).hbm = true :=
  writeBytes_keeps_mwf bs s.hbm key h

theorem hbmRead_hbmWrite_same (s : State) (key : Nat) (bs : List Byte) (h : mwf 0 s.hbm = true) :
    (s.hbmWrite key bs).hbmRead key bs.length = bs := by
  apply List.ext_getElem
  · simp [State.hbmRead]
  · intro i h1 h2
    simp only [State.hbmRead, State.hbmWrite, List.getElem_map, List.getElem_range]
    exact mget_writeBytes_same bs s.hbm key i h h2

theorem hbmRead_hbmWrite_other (s : State) (key a n : Nat) (bs : List Byte) (h : mwf 0 s.hbm = true)
    (ha : a + n ≤ key ∨ key + bs.length ≤ a) : (s.hbmWrite key bs).hbmRead a n = s.hbmRead a n := by
  simp only [State.hbmRead, State.hbmWrite]
  apply List.map_congr_left
  intro i hi
  have := List.mem_range.mp hi
  exact mget_writeBytes_other bs s.hbm key (a + i) h (by omega)

end Sys2Proof.Machine
end

