-- ==== Sys2Proof/Laws/Threads.lean ====
section
/-! SUPPORT. Laws of the shared operations of thread instructions: one crew changed in place, issue of a ready instruction, and its end. -/

namespace Sys2Proof.Machine

open Sys2Proof

/-! ### One core, one crew -/

theorem crews_minsert_ne (m : Map Crew) (k : Nat) (y : Crew) : minsert m k y ≠ [] := by
  cases m with
  | nil => simp [minsert]
  | cons e m =>
    obtain ⟨j, w⟩ := e
    simp only [minsert]
    split
    · simp
    · split <;> simp

theorem setCrew_eq (s : State) (core key : Nat) (y : Crew) :
    s.setCrew core key y = { s with cores := minsert s.cores core { s.core core with crews := minsert (s.core core).crews key y } } := by
  have h : ({ s.core core with crews := minsert (s.core core).crews key y } : Core) ≠ {} := by
    intro e
    exact crews_minsert_ne _ _ _ (congrArg Core.crews e)
  simp [State.setCrew, State.modCore, State.setCore, mset, h]

@[simp] theorem setCrew_core_same (s : State) (core key : Nat) (y : Crew) :
    (s.setCrew core key y).core core = { s.core core with crews := minsert (s.core core).crews key y } := by
  simp [setCrew_eq, State.core]

theorem setCrew_core_other (s : State) (core key k : Nat) (y : Crew) (h : k ≠ core) : (s.setCrew core key y).core k = s.core k := by
  simp [setCrew_eq, State.core, mget_minsert_other _ _ _ _ _ h]

@[simp] theorem setCrew_crew_same (s : State) (core key : Nat) (y : Crew) : (s.setCrew core key y).crew core key = some y := by
  simp [State.crew]

theorem modCrew_of_crew {s : State} {core key : Nat} {x : Crew} (f : Crew → Crew) (h : s.crew core key = some x) :
    s.modCrew core key f = s.setCrew core key (f x) := by
  simp [State.modCrew, h]

/-! ### What an instruction's issue shows -/

@[simp] theorem count_unseen (s : State) (c ev src pair n : Nat) : (s.count c ev src pair n).unseen = s.unseen := by
  unfold State.count
  split <;> rfl

@[simp] theorem count_cores (s : State) (c ev src pair n : Nat) : (s.count c ev src pair n).cores = s.cores := by
  unfold State.count
  split <;> rfl

@[simp] theorem traceEvent_unseen (s : State) (b pair ev : Nat) (payload : List Byte) :
    (s.traceEvent b pair ev payload).unseen = s.unseen := by
  simp only [State.traceEvent]
  split <;> rfl

@[simp] theorem traceEvent_cores (s : State) (b pair ev : Nat) (payload : List Byte) :
    (s.traceEvent b pair ev payload).cores = s.cores := by
  simp only [State.traceEvent]
  split <;> rfl

@[simp] theorem wakeGal_unseen (s : State) (g : Nat) : (s.wakeGal g).unseen = s.unseen := by
  simp only [State.wakeGal]
  split
  · simp only [State.galState, traceEvent_unseen]
    rfl
  · rfl

@[simp] theorem wakeGal_cores (s : State) (g : Nat) : (s.wakeGal g).cores = s.cores := by
  simp only [State.wakeGal]
  split
  · simp only [State.galState, traceEvent_cores]
    rfl
  · rfl

@[simp] theorem issued_unseen (s : State) (z : Issue) : (s.issued z).unseen = s.unseen := by simp [State.issued]

@[simp] theorem issued_cores (s : State) (z : Issue) : (s.issued z).cores = s.cores := by simp [State.issued]

theorem core_of_cores {s t : State} (h : t.cores = s.cores) (k : Nat) : t.core k = s.core k := by simp [State.core, h]

theorem crew_of_cores {s t : State} (h : t.cores = s.cores) (core key : Nat) : t.crew core key = s.crew core key := by
  simp [State.crew, core_of_cores h]

theorem setCrew_offCores (s : State) (core key : Nat) (y : Crew) : (s.setCrew core key y).offCores = s.offCores := by
  simp [setCrew_eq, State.offCores, State.unseen]

theorem offCores_of_unseen {s t : State} (h : t.unseen = s.unseen) : t.offCores = s.offCores := by
  simp [State.offCores, h]

/-- After what is seen of an instruction, one crew changed: nothing else is. -/
theorem onlyCrew_of_seen {s t : State} (h : t.unseen = s.unseen) (hc : t.cores = s.cores) (z : Issue) (y : Crew) :
    s.OnlyCrew (t.setCrew z.core z.key y) z y := by
  refine ⟨?_, ?_, ?_⟩
  · rw [setCrew_offCores, offCores_of_unseen h]
  · simp [core_of_cores hc]
  · intro k hk
    rw [setCrew_core_other _ _ _ _ _ hk, core_of_cores hc]

/-! ### Issue -/

/-- The command of a ready instruction has the instruction's effect, or waits with an access that cannot be served yet. -/
theorem thread_of_ready {s : State} {c : CrewId} {z : Issue} {cls op : Nat} (hk : z.i.known = true) (h : s.Ready c z cls op) :
    s.thread c cls op = s.orWait (s.effect z) := by
  obtain ⟨_, h0, h1, h2, h3, h4, h5, h6, h7, h8, h9, h10⟩ := h
  simp [State.thread, h0, h1, h2, h3, State.issue, h4, h5, h6, h7, h8, h9, h10, hk]

/-- The command of a ready instruction whose accesses are all served has the instruction's effect. -/
theorem thread_of_served {s : State} {c : CrewId} {z : Issue} {cls op : Nat} (hk : z.i.known = true) (h : s.Ready c z cls op)
    (hs : (s.effect z).stalled = false) : s.thread c cls op = s.effect z := by
  rw [thread_of_ready hk h, orWait_of_served _ _ hs]

theorem ready_place {s : State} {c : CrewId} {z : Issue} {cls op : Nat} (h : s.Ready c z cls op) : z.core = c.core ∧ z.key = ckey c := by
  obtain ⟨_, _, _, _, _, _, h5, _⟩ := h
  unfold State.nextIssue at h5
  split at h5
  · split at h5
    · injection h5 with e
      exact ⟨(congrArg Issue.core e).symm, (congrArg Issue.key e).symm⟩
    · cases h5
  · cases h5

/-- The crew of a ready instruction. -/
theorem ready_crew {s : State} {c : CrewId} {z : Issue} {cls op : Nat} (h : s.Ready c z cls op) : s.crew z.core z.key = some z.x := by
  rw [(ready_place h).1, (ready_place h).2]
  exact h.2.2.1

/-- An instruction executes with its results and flags: exactly its crew changes. -/
theorem finish_onlyCrew {s : State} {z : Issue} (h : s.crew z.core z.key = some z.x) (ws : List RegWrite) (flags : Nat) (load : Bool) :
    s.OnlyCrew (s.finish z ws flags load) z (z.after (s.core z.core).clock ws flags load) := by
  unfold State.finish
  rw [modCrew_of_crew _ ((crew_of_cores (issued_cores s z) _ _).trans h)]
  exact onlyCrew_of_seen (issued_unseen s z) (issued_cores s z) z _

theorem finish_gives {s : State} {z : Issue} (h : s.crew z.core z.key = some z.x) (ws : List RegWrite) (flags : Nat) :
    s.Gives z (.next (s.finish z ws flags)) ws flags :=
  ⟨_, rfl, finish_onlyCrew h ws flags false⟩

/-- Results in every thread, where no flag traps. -/
theorem perThread_of_no_trap {s : State} {z : Issue} {n : Nat} {f : Nat → Nat × Nat}
    (h : ∀ t ∈ z.threads, traps z.options (f t).2 = false) :
    s.perThread z n f = s.finish z (z.results n (fun t => (f t).1)) (z.threads.foldl (fun m t => m ||| (f t).2) 0) := by
  unfold State.perThread
  have : (z.threads.map (fun t => (t, f t))).find? (fun r => traps z.options r.2.2) = none := by
    simpa [List.find?_eq_none] using h
  simp only [this]
  simp [Issue.results, List.flatMap_map, List.foldl_map]

/-- Integer results raise no flag. -/
@[simp] theorem traps_zero (options : Nat) : traps options 0 = false := by simp [traps]

@[simp] theorem foldl_or_zero (ts : List Nat) : ts.foldl (fun m _ => m ||| 0) 0 = 0 := by
  induction ts with
  | nil => rfl
  | cons t ts ih => simp

end Sys2Proof.Machine
end

