-- ==== Sys2Proof/Tests/Slice0.lean ====
section
/-! SUPPORT. Tests of the model, and for every statement states and operands that meet its hypotheses. -/

namespace Sys2Proof.Tests

open Sys2Proof Sys2Proof.Machine

set_option Elab.async false

/-! ### Thread instructions -/

/-- An instruction word of Table 4-2 whose guard is p7, always true, and the fields above it. -/
def word (cls op rest : Nat) : Nat := cls + 16 * op + 0x7000 + rest

def demoId : CrewId := ⟨0, 0, 0⟩

def demoCrew : Crew :=
  { launch := 0, idx := 0, ctx := 0, width := 8, regs := 32, path := some (0, 0xFF), scratchBase := 0, scratchSize := 4096 }

def demoLaunch : Launch :=
  { ctx := 0, pid := 1, entry := 0, args := 0, gx := 4, gy := 1, gz := 1, coreCount := 1, cores := [0], width := 8, regs := 32, options := 0,
    scratch := 4096, watchdog := 5, layer := 0, oper := 0 }

def demoLayout : Layout := { lists := [[0]], extents := [16], bases := [] }

/-- Two page tables on the way to virtual address 0, and a page of 1 GiB there (R291). -/
def demoTables : Map Byte :=
  [(0x1000, 1), (0x1001, 8), (0x2000, 0xDF)]

/-- A partition with one gallery, one region, its stage-2 mapping, and one crew in core 0 with these words at its program counter. -/
def crewAt (x : Crew) (w w1 : Nat) : State :=
  { State.reset with
    supply := 2
    launches := [(0, demoLaunch)]
    ctxs := [(0, { state := .active, root := 0x1000 })]
    parts := [(0, { live := true, galleries := 1, groups := 1 })]
    regions := [(0, { base := 0, size := 0x10000, mode := 0, die := 0, layout := demoLayout })]
    stage2 := [⟨0, 0, 0, 0x10000, 4096, true, true, true⟩]
    hbm := demoTables
    cores := [(0, { crews := [(0, x)], icache := [(fetchKey 0 0, toBytes 8 w ++ toBytes 8 w1 ++ zeros 112)] })] }

/-- The instruction that a crew issues next. -/
def issueAt (s : State) (c : CrewId) : Option Issue := (s.crew c.core (ckey c)).bind (s.nextIssue c.core (ckey c))

def readyWith (s : State) (c : CrewId) (cls op : Nat) (p : Issue → Bool) : Bool :=
  match s.crew c.core (ckey c) with
  | some x =>
    match s.nextIssue c.core (ckey c) x with
    | some z => !s.stalled && !s.olderReady c.core (ckey c) x && decide (x = z.x) && decide (x.state = .running) && !x.retry && decide (x.copyFault = none) && decide (z.i.cls = cls) &&
        decide (z.i.op = op) && z.i.legal x.width x.regs && !x.blocked (z.i.sources x.width) &&
        decide (x.badSource z.act (z.i.sources x.width) = none) && p z
    | none => false
  | none => false

theorem readyWith_ready {s : State} {c : CrewId} {cls op : Nat} {P : Issue → Prop} [DecidablePred P]
    (h : readyWith s c cls op (fun z => decide (P z)) = true) : ∃ z, s.Ready c z cls op ∧ P z := by
  unfold readyWith at h
  split at h
  · rename_i x hx
    split at h
    · rename_i z hz
      simp only [Bool.and_eq_true, decide_eq_true_eq, Bool.not_eq_true'] at h
      obtain ⟨⟨⟨⟨⟨⟨⟨⟨⟨⟨⟨hs, ho⟩, h1⟩, h2⟩, h3⟩, h4⟩, h5⟩, h6⟩, h7⟩, h8⟩, h9⟩, h10⟩ := h
      subst h1
      exact ⟨z, ⟨hs, ho, hx, h2, h3, h4, hz, h5, h6, h7, h8, h9⟩, h10⟩
    · cases h
  · cases h

theorem ready_of {s : State} {c : CrewId} {cls op : Nat} (h : readyWith s c cls op (fun _ => true) = true) : ∃ z, s.Ready c z cls op := by
  obtain ⟨z, hz, -⟩ := readyWith_ready (P := fun _ => True) (by simpa using h)
  exact ⟨z, hz⟩

/-- One row of classes 1 to 6, 0xB and 0xE for each operation: class, operation, other fields. -/
def plainRows : List (Nat × Nat × Nat) :=
  (List.range 21).map (fun op => (1, op, 0)) ++ (List.range 8).map (fun op => (2, op, 0)) ++ (List.range 12).map (fun op => (3, op, 0)) ++
  (List.range 7).map (fun op => (4, op, 0)) ++ (List.range 5).map (fun op => (6, op, 0)) ++ (List.range 11).map (fun op => (0xB, op, 0)) ++
  [(0xE, 0, 0), (0xE, 1, 0), (0xE, 2, 0), (0xE, 3, 2 * 2 ^ 32), (0xE, 3, 0xD * 2 ^ 32), (0xE, 3, 0xE * 2 ^ 32), (0xE, 4, 0xF * 2 ^ 32), (0xE, 5, 0)]

/-- Each of these instructions is ready in some state (Integer, Fp64, Fp32, Half, Compare, Shuffle and SystemInstructions). -/
theorem test_ready_plain : ∀ p ∈ plainRows, ∃ z, (crewAt demoCrew (word p.1 p.2.1 p.2.2) 0).Ready demoId z p.1 p.2.1 := fun p hp =>
  ready_of ((by decide +kernel : ∀ p ∈ plainRows, readyWith (crewAt demoCrew (word p.1 p.2.1 p.2.2) 0) demoId p.1 p.2.1 (fun _ => true) = true) p hp)

/-- The pairs of formats of `CVT` that ConvertInstructions tells apart, and `FRND`. -/
def convertRows : List (Nat × Nat × Nat) :=
  [(0, 0, 1), (0, 3, 0), (0, 5, 0), (0, 1, 7), (0, 5, 8), (0, 5, 12), (0, 8, 5), (0, 12, 5), (0, 5, 13), (0, 7, 14), (0, 13, 5), (0, 14, 7), (1, 5, 0)]

theorem test_ready_convert : ∀ p ∈ convertRows,
    ∃ z, (crewAt demoCrew (word 5 p.1 (p.2.1 * 2 ^ 53 + p.2.2 * 2 ^ 57)) 0).Ready demoId z 5 p.1 ∧ z.i.srcFmt = p.2.1 ∧ z.i.dstFmt = p.2.2 :=
  fun p hp => readyWith_ready ((by decide +kernel : ∀ p ∈ convertRows,
    readyWith (crewAt demoCrew (word 5 p.1 (p.2.1 * 2 ^ 53 + p.2.2 * 2 ^ 57)) 0) demoId 5 p.1
      (fun z => decide (z.i.srcFmt = p.2.1 ∧ z.i.dstFmt = p.2.2)) = true) p hp)

/-- Both halves of GivesFlagged: `FDIV` 1/0 raises a flag that does not trap without options, and traps with bit 1 of the options set. -/
def divider (opts : Nat) : State :=
  { crewAt { demoCrew with v := [(1, 0x3F800000)] } (word 3 6 (2 ^ 24 + 2 * 2 ^ 32)) 0 with launches := [(0, { demoLaunch with options := opts })] }

theorem test_untrapped : ∃ z, (divider 0).Ready demoId z 3 6 ∧
    ∀ t ∈ z.threads, traps z.options (fp32.div 0 (z.x.opA z.i t 1) (z.x.opB z.i .top t 1)).2 = false :=
  readyWith_ready (by decide +kernel)

theorem test_trapped : ∃ z, (divider 0xFFFFFFFF).Ready demoId z 3 6 ∧
    z.threads.find? (fun t => traps z.options (fp32.div 0 (z.x.opA z.i t 1) (z.x.opB z.i .top t 1)).2) = some 0 :=
  readyWith_ready (by decide +kernel)

/-- Facing an instruction that is not legal: a reserved condition (R124), and a segment that is not within the crew (R132). -/
theorem test_facing :
    ∀ p ∈ [(6, 0, 6), (6, 1, 8), (6, 2, 15), (0xB, 0, 6), (0xB, 1, 7), (0xB, 2, 3), (0xB, 3, 5)],
      (issueAt (crewAt demoCrew (word p.1 p.2.1 (p.2.2 * 2 ^ 53)) 0) demoId).any (fun z =>
        decide (z.i.cls = p.1 ∧ z.i.op = p.2.1 ∧ z.x = demoCrew ∧ z.i.legal 8 32 = false ∧
          (crewAt demoCrew (word p.1 p.2.1 (p.2.2 * 2 ^ 53)) 0).olderReady 0 0 demoCrew = false ∧
          if p.1 = 6 then z.i.cc = p.2.2 else z.i.seg = p.2.2)) = true := by decide +kernel

theorem test_uniform_narrow : let i : Inst := ⟨word 1 0 (2 ^ 55), 0⟩
    i.cls = 1 ∧ i.uni = true ∧ (i.w64 = false ∨ i.bu = true ∨ i.cu = true) := by decide

theorem test_debug_session :
    (∃ z, (crewAt demoCrew (word 0xE 5 0) 0).Ready demoId z 0xE 5 ∧
      ((crewAt demoCrew (word 0xE 5 0) 0).part ((crewAt demoCrew (word 0xE 5 0) 0).ctx z.x.ctx).part).debugOpen = false) ∧
    ∃ z, ({ crewAt demoCrew (word 0xE 5 0) 0 with parts := [(0, { live := true, debugOpen := true })] } : State).Ready demoId z 0xE 5 :=
  ⟨readyWith_ready (by decide +kernel), ready_of (by decide +kernel)⟩

/-! #### Branches -/

/-- A branch word with the guard p0. -/
def guarded (op rest : Nat) : Nat := 7 + 16 * op + rest

def half : Crew := { demoCrew with preds := [(0, 0x0F)] }
def other : Crew := { demoCrew with stack := [.pending 0x40 0x100 .runnable] }
def deep : Crew := { half with stack := List.replicate 32 (.pending 0x40 0 .runnable) }

/-- `BRC` and `CALL`: no thread takes the branch, all do (forward, backward, the 64th backward), some do (with room on the stack, without). -/
theorem test_branch_forms : ∀ op ∈ [0, 2],
    (∃ z, (crewAt demoCrew (guarded op 0) 0).Ready demoId z 7 op ∧ z.act = 0) ∧
    (∃ z, (crewAt demoCrew (word 7 op (2 * 2 ^ 24)) 0).Ready demoId z 7 op ∧ z.act ≠ 0 ∧ z.act = z.mask ∧ z.pc < toMod ((z.pc : Int) + 8 * z.i.target) 64) ∧
    (∃ z, (crewAt other (word 7 op 0) 0).Ready demoId z 7 op ∧
      z.act ≠ 0 ∧ z.act = z.mask ∧ hasRunnable z.x.stack = true ∧ z.x.bb + 1 < 64 ∧ toMod ((z.pc : Int) + 8 * z.i.target) 64 ≤ z.pc) ∧
    (∃ z, (crewAt { other with bb := 63 } (word 7 op 0) 0).Ready demoId z 7 op ∧
      z.act ≠ 0 ∧ z.act = z.mask ∧ takeRunnable z.x.stack = some ((0x40, 0x100), []) ∧ 64 ≤ z.x.bb + 1 ∧ toMod ((z.pc : Int) + 8 * z.i.target) 64 ≤ z.pc) ∧
    (∃ z, (crewAt half (guarded op 0) 0).Ready demoId z 7 op ∧ z.act ≠ 0 ∧ z.act ≠ z.mask ∧ z.x.stack = []) ∧
    (∃ z, (crewAt deep (guarded op 0) 0).Ready demoId z 7 op ∧ z.act ≠ 0 ∧ z.act ≠ z.mask ∧ 32 < z.x.stack.length + 1) := by
  intro op hop
  fin_cases hop <;> exact ⟨readyWith_ready (by decide +kernel), readyWith_ready (by decide +kernel), readyWith_ready (by decide +kernel),
    readyWith_ready (by decide +kernel), readyWith_ready (by decide +kernel), readyWith_ready (by decide +kernel)⟩

def brxGoals (z : Issue) : List Nat := ((bitList z.x.width z.mask).map (fun t => if bit z.act t then z.x.vreg t z.i.reg 2 / 8 * 8 else z.next)).eraseDups

theorem test_indirect_forms :
    (∃ z, (crewAt demoCrew (word 7 1 0) 0).Ready demoId z 7 1 ∧ brxGoals z = [0] ∧ hasRunnable z.x.stack = false) ∧
    (∃ z, (crewAt half (guarded 1 0) 0).Ready demoId z 7 1 ∧ brxGoals z = [0, 8] ∧ z.x.stack.length + 2 ≤ 32) ∧
    (∃ z, (crewAt deep (guarded 1 0) 0).Ready demoId z 7 1 ∧ brxGoals z = [0, 8] ∧ 32 < z.x.stack.length + 1) :=
  ⟨readyWith_ready (by decide +kernel), readyWith_ready (by decide +kernel), readyWith_ready (by decide +kernel)⟩

def stacked (st : List StackEntry) : Crew := { demoCrew with stack := st }

theorem test_join_forms :
    (∃ z, (crewAt (stacked [.pending 8 1 .runnable]) (word 7 3 0) 0).Ready demoId z 7 3 ∧ takeRunnable (discardEmpty z.x.stack) = some ((8, 1), [])) ∧
    (∃ z, (crewAt (stacked [.join 0 1]) (word 7 3 0) 0).Ready demoId z 7 3 ∧ discardEmpty z.x.stack = [.join z.pc 1]) ∧
    (∃ z, (crewAt (stacked [.pending 8 1 (.landing 1 0)]) (word 7 3 0) 0).Ready demoId z 7 3 ∧ takeRunnable (discardEmpty z.x.stack) = none ∧
      openGroup (discardEmpty z.x.stack) ≠ [] ∧ strandedStack (discardEmpty z.x.stack) = false) ∧
    (∃ z, (crewAt (stacked [.join 16 1]) (word 7 3 0) 0).Ready demoId z 7 3 ∧ discardEmpty z.x.stack = [.join 16 1] ∧ 16 ≠ z.pc) ∧
    (∃ z, (crewAt demoCrew (word 7 3 0) 0).Ready demoId z 7 3 ∧ discardEmpty z.x.stack = []) :=
  ⟨readyWith_ready (by decide +kernel), readyWith_ready (by decide +kernel), readyWith_ready (by decide +kernel), readyWith_ready (by decide +kernel),
    readyWith_ready (by decide +kernel)⟩

def leftOf (z : Issue) : List StackEntry := discardEmpty (z.x.stack.map (StackEntry.without z.mask))

theorem test_exit_forms :
    (∃ z, (crewAt demoCrew (word 7 4 0) 0).Ready demoId z 7 4 ∧ z.x.barriers = [] ∧ leftOf z = []) ∧
    (∃ z, (crewAt other (word 7 4 0) 0).Ready demoId z 7 4 ∧ z.x.barriers = [] ∧ takeRunnable (leftOf z) = some ((0x40, 0x100), [])) ∧
    (∃ z, (crewAt (stacked [.join 16 0x100]) (word 7 4 0) 0).Ready demoId z 7 4 ∧ z.x.barriers = [] ∧ leftOf z = [.join 16 0x100]) :=
  ⟨readyWith_ready (by decide +kernel), readyWith_ready (by decide +kernel), readyWith_ready (by decide +kernel)⟩

theorem test_barrier_forms :
    (∃ z, (crewAt demoCrew (word 7 5 0) 0).Ready demoId z 7 5 ∧ mget 0 z.x.barriers 0 ||| z.mask ||| z.x.exited = 2 ^ z.x.width - 1) ∧
    (∃ z, (crewAt { deep with width := 16 } (word 7 5 0) 0).Ready demoId z 7 5 ∧
      mget 0 z.x.barriers 0 ||| z.mask ||| z.x.exited ≠ 2 ^ z.x.width - 1 ∧ 32 ≤ z.x.stack.length) ∧
    (∃ z, (crewAt { other with width := 16 } (word 7 5 0) 0).Ready demoId z 7 5 ∧
      mget 0 z.x.barriers 0 ||| z.mask ||| z.x.exited ≠ 2 ^ z.x.width - 1 ∧ z.mask ≠ 0 ∧ takeRunnable (discardEmpty z.x.stack) = some ((0x40, 0x100), [])) :=
  ⟨readyWith_ready (by decide +kernel), readyWith_ready (by decide +kernel), readyWith_ready (by decide +kernel)⟩

/-! #### Memory and landings -/

/-- A memory word: size, space (0 generic, 2 scratch), and whether the base is a uniform register. -/
def memWord (cls op size space au order : Nat) : Nat := word cls op (au * 2 ^ 48 + size * 2 ^ 49 + space * 2 ^ 52 + order * 2 ^ 54)

/-- Every access of these threads reaches scratch address 0 of the crew's own area, aligned. -/
def ownAt0 (s : State) (z : Issue) (ts : List Nat) : Bool :=
  ts.all (fun th => decide (placeOf z.i.space (z.ea th) = .scratch 0 ∧ z.ea th % 2 ^ z.i.size = 0 ∧ z.x.scratchBase ≤ 0 ∧
    2 ^ z.i.size ≤ z.x.scratchBase + z.x.scratchSize ∧ 0 ∉ (s.core z.core).seq.banks ∧ (s.core z.core).scratchPoisoned 0 (2 ^ z.i.size) = false))

def scratchRow (w : Nat) : State := crewAt { demoCrew with u := [] } w 0

theorem test_scratch_forms :
    (∃ z, (scratchRow (memWord 8 0 2 2 0 0)).Ready demoId z 8 0 ∧ ownAt0 (scratchRow (memWord 8 0 2 2 0 0)) z z.threads = true) ∧
    (∃ z, (scratchRow (memWord 8 1 4 2 0 0)).Ready demoId z 8 1 ∧ ownAt0 (scratchRow (memWord 8 1 4 2 0 0)) z z.threads = true) ∧
    (∃ z, (scratchRow (memWord 8 2 3 2 1 0)).Ready demoId z 8 2 ∧ ownAt0 (scratchRow (memWord 8 2 3 2 1 0)) z [z.lead] = true) ∧
    (∃ z, (scratchRow (memWord 8 3 0 0 0 1)).Ready demoId z 8 3) ∧
    ∀ w, (scratchRow w).dropHeld (.crew 0 0) = scratchRow w ∧ ((scratchRow w).core 0).scratchPoison = [] :=
  ⟨readyWith_ready (by decide +kernel), readyWith_ready (by decide +kernel), readyWith_ready (by decide +kernel), ready_of (by decide +kernel),
    fun _ => ⟨rfl, rfl⟩⟩

/-- One thread of the crew. -/
def single : Crew := { demoCrew with path := some (0, 1) }

/-- A load and a store of global memory: the accesses are checked, and the load's data come. -/
theorem test_global_forms :
    (∃ z, (crewAt single (memWord 8 0 2 1 1 0) 0).Ready demoId z 8 0 ∧
      (match (crewAt single (memWord 8 0 2 1 1 0) 0).checkAccess z (z.requester z.i.na) true { r := true } z.threads with
        | (s1, .go as) =>
          (match (s1.countL1 z as).readAll z (z.requester z.i.na).master 4 [] [] as with
            | (s2, .data _) => (s2.crew z.core z.key).isSome
            | _ => false)
        | _ => false) = true) ∧
    (∃ z, (crewAt single (memWord 8 1 2 1 1 0) 0).Ready demoId z 8 1 ∧
      (match (crewAt single (memWord 8 1 2 1 1 0) 0).checkAccess z (z.requester false) false { w := true } z.threads with
        | (s1, .go as) => as.all (fun a => !s1.unwritable 0 a)
        | _ => false) = true) :=
  ⟨readyWith_ready (by decide +kernel), readyWith_ready (by decide +kernel)⟩

theorem test_atomic_forms : ∀ op < 10, ∃ z, (scratchRow (memWord 9 op (if op = 9 then 3 else 2) 2 0 0)).Ready demoId z 9 op ∧
    ownAt0 (scratchRow (memWord 9 op (if op = 9 then 3 else 2) 2 0 0)) z z.threads = true ∧ z.threads ≠ [] ∧ bit z.options 2 = false :=
  fun op h => readyWith_ready ((by decide +kernel : ∀ op < 10, readyWith (scratchRow (memWord 9 op (if op = 9 then 3 else 2) 2 0 0)) demoId 9 op
    (fun z => decide (ownAt0 (scratchRow (memWord 9 op (if op = 9 then 3 else 2) 2 0 0)) z z.threads = true ∧ z.threads ≠ [] ∧
      bit z.options 2 = false)) = true) op h)

/-- A crew at a landing instruction, whose landing 0 is an armed slot of its core. -/
def lander (x : Crew) (w : Nat) (y : Slot) : State :=
  { crewAt x w 0 with ctxs := [(0, { state := .active, root := 0x1000, lmap := [(0, { kind := 1 })] })], slots := [(0, y)] }

def fullSlot : Slot := { state := .armed, kind := 0, n := 9, remain := 9 }
def countSlot : Slot := { state := .armed, kind := 1, count := 9 }

theorem test_lander : ∀ x w y, (lander x w y).landing 0 0 (.fromCore 0) = .slot 0 ∧ (lander x w y).slot 0 = y ∧
    ((lander x w y).trc 0).enable = false := fun _ _ _ => ⟨rfl, rfl, rfl⟩

theorem test_landing_forms :
    (∃ z, (lander demoCrew (word 0xA 0 (5 * 2 ^ 48)) fullSlot).Ready demoId z 0xA 0 ∧ z.i.count < fullSlot.remain ∧ z.i.lid = 0) ∧
    (∃ z, (lander demoCrew (word 0xA 0 (5 * 2 ^ 48)) countSlot).Ready demoId z 0xA 0 ∧ countSlot.waiters = [] ∧ countSlot.subs = []) ∧
    (∃ z, (lander demoCrew (word 0xA 1 (2 ^ 31)) countSlot).Ready demoId z 0xA 1 ∧ z.i.mode = 1 ∧ z.x.ureg z.i.ureg ≤ 9 ∧ z.x.stack.length < 32) ∧
    (∃ z, (lander other (word 0xA 1 0) fullSlot).Ready demoId z 0xA 1 ∧ z.i.mode = 0 ∧ z.mask ≠ 0 ∧
      takeRunnable (discardEmpty z.x.stack) = some ((0x40, 0x100), [])) ∧
    (∃ z, (lander demoCrew (word 0xA 2 (5 * 2 ^ 48)) countSlot).Ready demoId z 0xA 2 ∧ z.x.stack.length < 32) ∧
    (∃ z, (lander demoCrew (word 0xA 3 (2 ^ 31)) fullSlot).Ready demoId z 0xA 3) :=
  ⟨readyWith_ready (by decide +kernel), readyWith_ready (by decide +kernel), readyWith_ready (by decide +kernel), readyWith_ready (by decide +kernel),
    readyWith_ready (by decide +kernel), ready_of (by decide +kernel)⟩

/-- The one thread of a crew reaches address 0 of its region. -/
def reachedAt0 (s : State) (z : Issue) : Bool :=
  decide (z.threads = [0]) && decide (placeOf z.i.space (z.ea 0) = .global 0) &&
    match (s.advance z).xlate (z.requester false) 0 { r := true } with
    | (s1, .ok pa) =>
      decide (pa = 0) && (match s1.locate 0 0 with
        | .hbm key => !s1.hbmPoisoned (key / 128 * 128) 128
        | _ => false)
    | _ => false

theorem test_cache_forms : ∀ op < 5, ∃ z, (crewAt single (if op < 3 then memWord 0xD op 2 1 1 0 else word 0xD op 0) 0).Ready demoId z 0xD op ∧
    (if op < 3 then reachedAt0 (crewAt single (memWord 0xD op 2 1 1 0) 0) z = true else z.act ≠ 0) :=
  fun op h => readyWith_ready ((by decide +kernel : ∀ op < 5,
    readyWith (crewAt single (if op < 3 then memWord 0xD op 2 1 1 0 else word 0xD op 0) 0) demoId 0xD op
      (fun z => decide (if op < 3 then reachedAt0 (crewAt single (memWord 0xD op 2 1 1 0) 0) z = true else z.act ≠ 0)) = true) op h)

theorem test_fdma_forms :
    (∃ z, (crewAt demoCrew (word 0xC 0 (2 ^ 31)) 0).Ready demoId z 0xC 0 ∧ z.i.mode = 1) ∧
    (∃ z, (lander demoCrew (word 0xC 0 0) fullSlot).Ready demoId z 0xC 0 ∧ (lander demoCrew (word 0xC 0 0) fullSlot).landing z.x.ctx 0 (.fromCore 0) ≠ .unmapped) :=
  ⟨readyWith_ready (by decide +kernel), readyWith_ready (by decide +kernel)⟩

/-! #### Crews -/

def placing : State :=
  { crewAt demoCrew 0 0 with cores := [(0, { queue := [.fresh 0 0] })] }

theorem test_crew_place :
    (placing.core 0).queue = [.fresh 0 0] ∧ placing.launch 0 = some demoLaunch ∧ (0 : Nat) ∉ demoLaunch.stopped ∧
    (∃ q, (placing.core 0).chooseQuarter 8 32 = some q ∧ placing.crew 0 (48 * q) = none) ∧ (∃ b, (placing.core 0).scratchFit 4096 = some b) ∧
    (placing.core 0).queue.filter (fun i => match i with
      | .fresh m _ => (match placing.launch m with | some l => decide (0 ∉ l.stopped) | none => false)
      | .saved _ => true) = (placing.core 0).queue :=
  ⟨rfl, rfl, by decide, ⟨0, by decide +kernel⟩, ⟨0, by decide +kernel⟩, by decide +kernel⟩

theorem test_crew_leave : let s := crewAt { demoCrew with exited := 0xFF, path := none } 0 0
    (∀ x, s.crew 0 0 = some x → x.exited = 2 ^ x.width - 1 ∧ x.outs = [] ∧ x.copies = 0 ∧ x.state ≠ .faulted) ∧
    ({ s with launches := [(0, { demoLaunch with coreCount := 1 })], cores := minsert s.cores 0 { s.core 0 with queue := [.fresh 0 1] } } : State).launchBusy 0
      demoLaunch = true := by
  decide +kernel

theorem test_watchdog : let s := crewAt demoCrew 0 0
    s.crew 0 0 = some demoCrew ∧ s.launch 0 = some demoLaunch ∧ demoLaunch.watchdog ≠ 0 ∧ demoCrew.exited ≠ 2 ^ demoCrew.width - 1 := by decide +kernel
def halted (l : Launch) (q : List QueueItem) : State :=
  { crewAt demoCrew 0 0 with launches := [(0, l)], cores := [(0, { crews := [(0, demoCrew)], queue := q })] }

theorem test_launch_fault : let l := { demoLaunch with fault := some ⟨0, 0, 0, 0, 1⟩ }
    let l' := { l with stopped := sinsert l.stopped 0 }
    (halted l []).launch 0 = some l ∧ l.fault.isSome = true ∧ 0 ∈ l.cores ∧ ({ halted l [] with launches := [(0, l')] } : State).launchBusy 0 l' = true := by
  decide +kernel

theorem test_result : let x := { demoCrew with outs := [⟨0, [.v 0 1 5], false, 7⟩] }
    (crewAt x 0 0).crew 0 0 = some x ∧ x.outs[0]? = some ⟨0, [.v 0 1 5], false, 7⟩ := by decide +kernel

theorem test_retry : let s := crewAt { demoCrew with retry := true } (memWord 8 0 2 2 0 0) 0
    (∀ x, s.crew 0 0 = some x → x.retry = true ∧ x.state = .running) ∧
    ∃ z, (s.setCrew 0 0 demoCrew).Ready demoId z 8 0 ∧ z.i.known = true := ⟨by decide +kernel, readyWith_ready (by decide +kernel)⟩

theorem test_fetch : let s := { crewAt demoCrew 0 0 with cores := [(0, { crews := [(0, demoCrew)] })] }
    s.fetchWord 0 0 0 = none ∧ (match (s.fetchLine 0 0 0).2.1 with | .ok bs => decide (bs.length = 128) | _ => false) = true ∧
      (s.fetchLine 0 0 0).1.stalled = false := by decide +kernel

/-! ### Packets -/

/-- n bytes with little-endian fields (offset, length, value) in them. -/
def bytesOf (n : Nat) (fs : List (Nat × Nat × Nat)) : List Byte :=
  (List.range n).map (fun i =>
    match fs.find? (fun f => decide (f.1 ≤ i) && decide (i < f.1 + f.2.1)) with
    | some f => BitVec.ofNat 8 (f.2.2 / 256 ^ (i - f.1))
    | none => 0)

def pkt (op : Nat) (fs : List (Nat × Nat × Nat)) : Pkt := { pid := 1, opcode := op, data := bytesOf 192 fs, len := 1, tag := 7, offset := 0, depth := 0 }

/-- Context 0 with these packets, in a module that serves its functions and reaches the host. -/
def streamOf (c : Ctx) : State :=
  { crewAt demoCrew 0 0 with
    linkUp := true
    funcs := [(0, { bme := true })]
    ctxs := [(0, c)]
    slots := [(10000, { state := .armed, kind := 0, n := 9, remain := 9 })] }

def ctxOf (ps : List Pkt) : Ctx :=
  { state := .active, root := 0x1000, pkts := ps, ringSpace := 1, ringSize := 16, creditSpace := 1, creditStep := 4096, lmap := [(0, { kind := 2 })] }

def stream (ps : List Pkt) : State := streamOf (ctxOf ps)

/-- A packet of each opcode that the statements take at the dispatch point. -/
def pointRows : List Pkt :=
  [pkt 0 [], pkt 1 [], pkt 0x0D [], pkt 0x0E [], pkt 0x10 [], pkt 0x04 [], pkt 0x0C [], pkt 0x02 [(24, 1, 1)], pkt 0x03 [], pkt 0x08 [(18, 2, 5)],
   pkt 0x09 [], pkt 0x20 [(42, 2, 0xFFFF)], pkt 0x20 [(42, 2, 0xFFFF), (44, 1, 1)], pkt 0x21 [(42, 2, 0xFFFF)],
   pkt 0x30 [(32, 4, 2), (36, 2, 1), (38, 2, 1), (42, 2, 2), (45, 1, 32)], pkt 0x31 [], pkt 0x32 [(30, 2, 1)]]

/-- The packets of SimplePackets, StreamEvents and WorkPackets: at the dispatch point, nothing before them, and what else they need. -/
theorem test_packets : ∀ p ∈ pointRows, (stream [p]).AtPoint 0 p p.opcode ∧ (ctxOf [p]).dueNow p.opcode = none ∧ (ctxOf [p]).earlierRetired 1 = true ∧
    p.chainFault = none ∧ p.stage = .decoded := by
  unfold State.AtPoint; decide +kernel

theorem test_if_flag : ∀ b : Bool, let p := { pkt 0x0C [(16, 8, 0x100)] with predicted := b }
    (stream [p]).AtPoint 0 p 0x0C ∧ (match ((stream [p]).spaceRead (sequencer 0) 0 0x100 8).2 with
      | .ok d => decide (ofBytes d &&& field p.data 24 8 = field p.data 32 8) | _ => false) = true := by
  unfold State.AtPoint; decide +kernel

theorem test_chain_fault : let p := { pkt 0x10 [] with stage := .dispatched, chainFault := some (2, 0) }
    (ctxOf [p]).pkts.find? (fun p => p.chainFault.isSome && decide (p.stage = .dispatched)) = some p := by decide +kernel

theorem test_chain_end : ∀ rs ∈ [[], [(⟨1, 2, 3, 4, true, false, false⟩ : CondRange)]], let p := { pkt 0 [] with chainEnd := true, openRanges := rs }
    (ctxOf [p]).dispatchPoint = some p := by decide +kernel

theorem test_skipped : let p := { pkt 0 [] with skip := 1 }
    (ctxOf [p]).dispatchPoint = some p ∧ (p.dead = false ∨ p.skip = 2 ∨ p.skip = 9) := by decide +kernel

theorem test_granule : let s := stream []
    s.served = true ∧ (s.ctx 0).state = .active ∧ (s.ctx 0).fn = 0 ∧ s.removalPrepared = false ∧ (zeros 64).length = 64 ∧ 0 = (s.ctx 0).expected ∧
    (s.ctx 0).accepted + 64 - (s.ctx 0).consumed ≤ 262144 ∧ ({ s with parts := [(0, { live := true })] } : State).part (1 - 1) = { live := true } := by
  decide +kernel

theorem test_decode : let s := streamOf { ctxOf [] with fifo := [(2, 1)], accepted := 64 }
    ((List.range 64).map (fun i => (s.turn + i) % 64)).find? (fun n => (s.ctx n).decodable && s.decodeRoom n) = some 0 ∧ (s.ctx 0).levels = [{}] ∧
    (s.ctx 0).fifoErr = [] := by decide +kernel

/-- The host is reachable, the record ring lies there, and landing 0 of the context is an armed full landing. -/
theorem test_records : ∀ ps, (stream ps).hostOpen ((stream ps).ctx 0).fn = true ∧ ((stream ps).ctx 0).ringSpace = 1 ∧ (stream ps).kftOpen = [] ∧
    (stream ps).landing 0 0 .fromIo = .slot 10000 ∧ (stream ps).slot 10000 = { state := .armed, kind := 0, n := 9, remain := 9 } :=
  fun _ => ⟨rfl, rfl, rfl, rfl, rfl⟩

theorem test_arrive_packet : let d := (pkt 0x08 [(18, 2, 5)]).data
    field d 16 2 = 0 ∧ field d 20 1 = 0 ∧ field d 18 2 = 5 ∧ field (pkt 0x09 []).data 18 1 = 0 := by decide +kernel

theorem test_timestamp_fields : let d := (pkt 0x02 [(24, 1, 1)]).data
    field d 25 1 = 0 ∧ field d 24 1 = 1 ∧ field (pkt 0x03 []).data 24 1 = 0 := by decide +kernel

theorem test_complete : ∀ st ∈ [0, 0x10], let p := { pkt 0 [] with stage := .workDone st 5 }
    (stream [p]).pkt 0 1 = some p ∧ ((stream [p]).ctx 0).state = .active ∧ ((stream [p]).ctx 0).preempt = none ∧ ((stream [p]).ctx 0).resumePath = none := by
  decide +kernel

theorem test_fault_credit : let c := { ctxOf [] with state := .faulted, faultOpen := true }
    c.state = .faulted ∧ c.faultOpen = true ∧ c.pkts = [] ∧ c.faultRec = none ∧ c.creditSpace = 1 ∧ (streamOf c).hostOpen c.fn = true := by decide +kernel

theorem test_retire : let p := { pkt 0 [] with stage := .completed }
    let r := { pkt 0 [] with pid := 2 }
    (stream [p, r]).ctx 0 = ctxOf [p, r] ∧ p.openChain = false ∧ p.chainEnd = false ∧ p.fromFifo = true ∧ r.pid ≠ p.pid ∧
    (ctxOf [p, r]).consumed + 64 * p.len - (ctxOf [p, r]).lastCredit < (ctxOf [p, r]).creditStep := by decide +kernel

/-- Core 0 is the first core of the partition; it is in service and its engine is free. -/
theorem test_work : ∀ p ∈ pointRows, let s := stream [p]
    (s.coresOf (s.ctx 0).part)[0]? = some 0 ∧ 0 ∉ s.coresOut ∧ (s.core 0).engine = {} ∧ s.launchOfPkt 0 1 = none ∧ (s.core 0).jobs = [] := by
  decide +kernel

theorem test_work_fields :
    field (pkt 0x20 [(42, 2, 0xFFFF)]).data 40 2 = 0 ∧ field (pkt 0x20 [(42, 2, 0xFFFF)]).data 42 2 = 0xFFFF ∧
    field (pkt 0x21 [(42, 2, 0xFFFF)]).data 42 2 = 0xFFFF ∧ (stream []).coxCores 0 (pkt 0x31 []) = [0] ∧
    (stream []).coxCores 0 (pkt 0x32 [(30, 2, 1)]) = [0] ∧ field (pkt 0x32 [(30, 2, 1)]).data 30 2 = 1 := by decide +kernel

theorem test_launch_fields : let d := (pkt 0x30 [(32, 4, 2), (36, 2, 1), (38, 2, 1), (42, 2, 2), (45, 1, 32)]).data
    let cores := (((stream []).coresOf 0).drop (field d 40 2)).take (field d 42 2)
    cores = [0, 1] ∧ cores.length = field d 42 2 ∧ field d 48 4 ≤ 524288 ∧ 1 < field d 32 4 * field d 36 2 * field d 38 2 := by decide +kernel
/-! ### Cox strokes and copies -/

def demoJob (ws : List Nat) : CoxJob := { launch := 1, rank := 0, dispatched := true, loaded := true, started := true, words := ws }

def demoCox : CoxLaunch :=
  { ctx := 0, pid := 1, cores := [0], program := 0x1000, words := 1, limit := 0, dump := 0x4000, agBase := [], agStride := [], noPrefetch := false,
    layer := 0, oper := 0, dispatched := true }

/-- Core 0 runs a program of one word, with these sequencer and array. -/
def strokeWith (l : CoxLaunch) (j : CoxJob) (q : Sequencer) (a : Matrix) : State :=
  { stream [] with coxLaunches := [(1, l)], cores := [(0, { jobs := [j], seq := q, array := a, clock := 9 })] }

/-- The parts before p of the stroke of word w have been performed. -/
def atPart (p w : Nat) (q : Sequencer) (a : Matrix) : State :=
  strokeWith demoCox (demoJob [w]) { q with phase := p - 1, word := w, stroke := 500, active := true } a

theorem atStroke_of (p w : Nat) (q : Sequencer) (a : Matrix) (hp : 2 ≤ p) (hq : q.draining = false ∧ q.pc = 0) :
    (atPart p w q a).AtStroke 0 p (demoJob [w]) demoCox w := by
  obtain ⟨h1, h2⟩ := hq
  refine ⟨rfl, rfl, ?_, hp, h1, ?_, rfl⟩
  · show p - 1 + 1 = p; omega
  · show [w][q.pc]? = some w; rw [h2]; rfl

/-- Slot A: LOAD, RESULT and SLICE with nothing running, and a run whose second pass begins in this stroke. -/
theorem test_array_slots :
    (∀ op ∈ [1, 2, 3], bits (slotA op) 0 4 = op ∧ (atPart 3 op {} {}).AtStroke 0 3 (demoJob [op]) demoCox op) ∧
    (let r : SliceRun := ⟨500 - 256, false, 1, false, 128, 0, 128, 0⟩
     (atPart 3 0 {} { run := some r }).AtStroke 0 3 (demoJob [0]) demoCox 0 ∧ r.t0 < 500 ∧ 500 < r.t0 + 3 * (r.m + 128) ∧
       (500 - r.t0) % (r.m + 128) = 0) :=
  ⟨fun op h => ⟨by revert h; revert op; decide, atStroke_of _ _ _ _ (by decide) ⟨rfl, rfl⟩⟩, atStroke_of _ _ _ _ (by decide) ⟨rfl, rfl⟩, by decide, by decide, by decide⟩

theorem test_streamer_slots : ∀ n ∈ [1, 2], ∀ op ∈ [1, 2, 3, 4, 5], let w := op * 2 ^ (32 + 32 * n)
    bits (slotOf w n) 0 4 = op ∧ (atPart (3 + n) w {} {}).AtStroke 0 (3 + n) (demoJob [w]) demoCox w :=
  fun n hn op ho => ⟨by revert ho; revert op; revert hn; revert n; decide, atStroke_of _ _ _ _ (by omega) ⟨rfl, rfl⟩⟩

theorem test_store_slot : let w := 2 ^ 128
    bits (slotS w) 0 4 = 1 ∧ (atPart 6 w {} {}).AtStroke 0 6 (demoJob [w]) demoCox w ∧ ((atPart 6 w {} {}).core 0).array.accPoison = [] :=
  ⟨by decide, atStroke_of _ _ _ _ (by decide) ⟨rfl, rfl⟩, rfl⟩

def landing (p : Nat) (x : CoxTarget) : State := atPart p 0 { writes := [⟨500, 1, 0, x⟩] } {}

theorem test_stroke_landings :
    (∀ x ∈ [CoxTarget.staging 3 (zeros 128) false, .scratch [(5, 7)] [], .pathA (zeros 128)], ∀ p ∈ [2, 9],
      (landing p x).AtStroke 0 p (demoJob [0]) demoCox 0 ∧ ((landing p x).core 0).seq.writes.filter (fun y => decide (y.due = 500)) = [⟨500, 1, 0, x⟩]) ∧
    (let a : Matrix := { results := [⟨240, 1, 0, 0, 0, 0⟩] }
     (atPart 2 0 {} a).AtStroke 0 2 (demoJob [0]) demoCox 0 ∧ a.results.filter (fun c => decide (c.head + 260 = 500)) = [⟨240, 1, 0, 0, 0, 0⟩]) ∧
    (let a : Matrix := { loads := [⟨368, 0, true, true, 128⟩] }
     (atPart 9 0 {} a).AtStroke 0 9 (demoJob [0]) demoCox 0 ∧ a.commits 500 = [(5, ⟨368, 0, true, true, 128⟩)] ∧ 5 < 128) :=
  ⟨fun x hx p hp => ⟨atStroke_of _ _ _ _ (by revert hp; revert p; decide) ⟨rfl, rfl⟩, rfl⟩,
   ⟨atStroke_of _ _ _ _ (by decide) ⟨rfl, rfl⟩, by decide⟩, ⟨atStroke_of _ _ _ _ (by decide) ⟨rfl, rfl⟩, by decide +kernel, by decide⟩⟩

theorem test_scalar_slots :
    (∀ op ∈ [1, 2, 3, 4, 5, 6, 7, 8], let w := op * 2 ^ 160
      bits (slotX w) 0 4 = op ∧ (atPart 7 w {} {}).AtStroke 0 7 (demoJob [w]) demoCox w) ∧
    (∀ op ∈ [1, 5, 6, 7], let w := op * 2 ^ 224
      bits (slotY w) 0 4 = op ∧ (atPart 8 w {} {}).AtStroke 0 8 (demoJob [w]) demoCox w) :=
  ⟨fun op h => ⟨by revert h; revert op; decide, atStroke_of _ _ _ _ (by decide) ⟨rfl, rfl⟩⟩,
   fun op h => ⟨by revert h; revert op; decide, atStroke_of _ _ _ _ (by decide) ⟨rfl, rfl⟩⟩⟩

/-- `LOOP` with an immediate count that is not zero, and with one that is. -/
theorem test_loop_counts : (bits (slotX ((3 + 2 ^ 21 + (2 + 65536 * 4) * 2 ^ 32) * 2 ^ 160)) 32 32) / 65536 ≠ 0 ∧ ({} : Sequencer).scalar 0 = 0 := by decide

/-- `ARRIVE` of 1 in slot Y at landing 0 of the launch's context: a full slot with more remaining. -/
theorem test_arrive_slot : let w := (1 + 1 * 2 ^ 14) * 2 ^ 224
    let s := atPart 8 w {} {}
    bits (slotY w) 4 10 = 0 ∧ bits (slotY w) 14 8 = 1 ∧ s.landing demoCox.ctx 0 (.fromCore 0) = .slot 10000 ∧
    s.slot 10000 = { state := .armed, kind := 0, n := 9, remain := 9 } := by decide +kernel

/-- A word with a wait in slot Y at the issue point. -/
def waiting (v : Nat) : State := strokeWith demoCox (demoJob [v * 2 ^ 224]) { active := true } {}

theorem test_stroke_waits : ∀ v ∈ [2, 3 + 2 ^ 14, 4 + 4 * 2 ^ 14], let s := waiting v
    let q := (s.core 0).seq
    s.coxNow 0 = some (demoJob [v * 2 ^ 224], demoCox) ∧ q.phase = 0 ∧ q.draining = false ∧ q.active = true ∧ q.pc ∉ (demoJob [v * 2 ^ 224]).wordErr ∧
    coxCheck (s.core 0).array q 1 (v * 2 ^ 224) = none ∧ q.ywait = .none ∧ s.landing 0 0 (.fromCore 0) = .slot 10000 := by decide +kernel

/-- `WAITGEN` for a generation that is not reached: 1 at a full slot of generation 0. -/
theorem test_waitgen : let s := strokeWith demoCox (demoJob [(4 + 2 ^ 14) * 2 ^ 224]) { active := true, lc := [(1, 1)] } {}
    (s.core 0).seq.scalar (bits (slotY ((4 + 2 ^ 14) * 2 ^ 224)) 14 6) = 1 ∧ 2 ^ 31 ≤ ((s.slot 10000).gen + 2 ^ 32 - 1) % 2 ^ 32 := by decide +kernel

/-! #### Programs -/

/-- A launch at a program whose 128-byte header is bad at 0x1000 (the page tables of the demo context) and good at 0x4000. -/
def loading (program : Nat) : State :=
  let p := { pkt 0x31 [] with stage := .dispatched }
  { stream [p] with
    coxLaunches := [(1, { demoCox with program })]
    cores := [(0, { jobs := [{ launch := 1, rank := 0, dispatched := true }] })]
    stage2 := [⟨0, 0, 0, 0x10000, 64, true, true, true⟩]
    hbm := demoTables ++ [(0x4000, 1)] }

def loadBy : Requester := { cache := 0, master := .io 0, ctx := 0, fill := true }

theorem test_program_load : ∀ program ∈ [0x1000, 0x4000], let s := loading program
    let p := { pkt 0x31 [] with stage := .dispatched }
    s.pkt 0 1 = some p ∧ s.launchOfPkt 0 1 = some 1 ∧ s.coxLaunch 1 = some { demoCox with program } ∧
    (s.core 0).jobs.find? (fun j => decide (j.dispatched = true) && !j.loaded && j.done.isNone) = some { launch := 1, rank := 0, dispatched := true } ∧
    (s.core 0).halvesUsed + 1 ≤ 2 := by decide +kernel

/-- The header comes, bad at 0x1000; the good one at 0x4000 is clear of the crews, and its image comes after it. -/
theorem test_program_header :
    (match (loading 0x1000).vaRead loadBy 0x1000 128 with
      | (s1, .ok h) => !headerOk h && decide (((s1.core 0).jobs).length = 1)
      | _ => false) = true ∧
    (match (loading 0x4000).vaRead loadBy 0x4000 128 with
      | (s1, .ok h) =>
        headerOk h && clearOf ((s1.core 0).crews.map (fun e => (e.2.scratchBase, e.2.scratchSize))) (field h 4 4) (field h 8 4) &&
        (headerPrefetch h).isEmpty &&
        (match s1.vaRead loadBy (0x4000 + 128) 32 with
          | (s2, .ok _) => decide ({ launch := 1, rank := 0, dispatched := true } ∈ (s2.core 0).jobs)
          | _ => false)
      | _ => false) = true := by decide +kernel

/-- A loaded program that has not started. -/
theorem test_program_start : let j := { demoJob [0] with started := false }
    let s := strokeWith demoCox j {} {}
    (s.core 0).jobs.find? (fun j => j.dispatched && j.done.isNone) = some j ∧ s.coxLaunch j.launch = some demoCox ∧ j.pf = [] := by decide +kernel

/-- The empty word at the issue point, and a program whose stroke limit is reached. -/
theorem test_stroke_issue : let s := strokeWith demoCox (demoJob [0, 0]) { active := true } {}
    let q := (s.core 0).seq
    s.coxNow 0 = some (demoJob [0, 0], demoCox) ∧ q.phase = 0 ∧ q.draining = false ∧ q.active = true ∧ demoCox.limit = 0 ∧
    (demoJob [0, 0]).words[q.pc]? = some 0 ∧ q.writes = [] ∧ q.loops = [] ∧ q.nextPc = none ∧ q.ending = false ∧ q.strokeLog = [] ∧
    (s.core 0).array.results = [] ∧ (s.core 0).array.run = none := by decide +kernel

theorem test_stroke_limit : let l := { demoCox with limit := 3 }
    let s := strokeWith l (demoJob [0]) { active := true, issued := 3 } {}
    s.coxNow 0 = some (demoJob [0], l) ∧ l.limit ≠ 0 ∧ l.limit ≤ (s.core 0).seq.issued := by decide +kernel

theorem test_drain : ∀ n ∈ [0, 3], let l := { demoCox with limit := n }
    let s := strokeWith l (demoJob [0]) { draining := true } {}
    s.coxNow 0 = some (demoJob [0], l) ∧ (s.core 0).seq.draining = true ∧ (s.core 0).seq.writes = [] ∧ (s.core 0).array.loads = [] ∧
    (demoJob [0]).drained = false ∧ (demoJob [0]).fault = none ∧ (s.core 0).engine = {} := by decide +kernel

theorem test_cox_complete : let p := { pkt 0x31 [] with stage := .dispatched }
    let j := { demoJob [0] with done := some (0, 0) }
    let s : State := { stream [p] with coxLaunches := [(1, demoCox)], cores := [(0, { jobs := [j], clock := 1 })] }
    s.coxLaunch 1 = some demoCox ∧ demoCox.cores = [0] ∧ (s.core 0).jobs.find? (fun j => decide (j.launch = 1)) = some j ∧
    s.pkt 0 1 = some p ∧ 0 < (s.core 0).clock := by decide +kernel

/-! #### Copies -/

def demoChain (addr : Nat) : Chain := { owner := .packet 0 1, ctx := 0, addr, space := 2, started := true }

/-- Core 0 with a chain of one descriptor at scratch 0. -/
def copying (c : Chain) (d : List Byte) : State :=
  { stream [{ pkt 0x20 [] with stage := .dispatched }] with
    cores := [(0, { engine := { queue := [c] }, scratch := writeBytes [] 0 d, clock := 1 })] }

/-- A transfer of one row, from scratch 256 to scratch 512; `LAST` is set. -/
def descriptor (op srcFmt dstFmt : Nat) : List Byte :=
  bytesOf 64 [(0, 1, op), (1, 1, 1), (2, 1, srcFmt), (3, 1, dstFmt), (6, 1, if op = 2 then 8 else 10), (8, 8, if op = 2 then 0 else 256), (16, 8, 512),
    (24, 4, 1), (28, 4, if op = 3 then 32 else 16)]

theorem test_descriptors : ∀ op ∈ [1, 2, 3], let b := descriptor op (if op = 3 then 5 else 0) (if op = 3 then 0x0D else 0)
    let k := (copying (demoChain 0) b).core 0
    let d := parseDesc (k.scratchRead 0 64)
    k.engine.queue = [demoChain 0] ∧ d.op = op ∧ d.check false = 0 ∧ d.rows = 1 ∧ d.dstSpace = 2 ∧ (op ≠ 2 → d.srcSpace = 2) ∧ k.scratchPoison = [] := by
  decide +kernel

/-- A chain that has not started, aligned and not; a `LINK`; a `FILL` that fails its checks; a chain that has ended. -/
theorem test_chains :
    (∀ a ∈ [64, 65], let c := { demoChain a with started := false }
      ((copying c []).core 0).engine.queue = [c] ∧ ((copying c []).core 0).engine.badDesc = false ∧ c.raw = none ∧ ∀ l, c.owner ≠ .dump l) ∧
    (let d := parseDesc (((copying (demoChain 0) (bytesOf 64 [(0, 1, 4), (8, 8, 128)])).core 0).scratchRead 0 64)
     d.op = 4 ∧ d.check false = 0 ∧ d.last = false ∧ d.src % 64 = 0) ∧
    (let d := parseDesc (((copying (demoChain 0) (bytesOf 64 [(0, 1, 2), (1, 1, 1), (7, 1, 1)])).core 0).scratchRead 0 64)
     d.op = 2 ∧ d.check false ≠ 0 ∧ d.last = true) ∧
    (let c := { demoChain 64 with finished := true }
     c.landing = none ∧ (copying c []).pkt 0 1 = some { pkt 0x20 [] with stage := .dispatched } ∧ 0 < ((copying c []).core 0).clock) := by
  refine ⟨?_, by decide +kernel, by decide +kernel, by decide +kernel⟩
  intro a ha
  exact ⟨rfl, rfl, rfl, fun _ => nofun⟩
/-! ### Caches, homes and memory -/

/-- Every table of a demo state rises, and its memory is canonical. -/
def soundB (s : State) : Bool :=
  let up := fun (l : List Nat) => decide (l.Pairwise (· < ·))
  mwf 0 s.hbm && decide (s.supply ≤ 2) && decide (s.stalled = false) && up (s.ctxs.map (·.1)) && up (s.launches.map (·.1)) && up (s.coxLaunches.map (·.1)) &&
  up (s.cores.map (·.1)) && up (s.slots.map (·.1)) && up (s.parts.map (·.1)) && up (s.regions.map (·.1)) && up (s.segs.map (·.1)) &&
  up (s.hbmStacks.map (·.1)) && up (s.slices.map (·.1)) && up (s.homes.map (·.1)) && up (s.hostLines.map (·.1)) && up (s.funcs.map (·.1)) &&
  up (s.mailboxes.map (·.1)) && up (s.logs.map (·.1)) && up (s.ports.map (·.1)) && up (s.subPorts.map (·.1)) && up (s.assocs.map (·.1)) &&
  up (s.queues.map (·.1)) && up (s.gals.map (·.1)) && up (s.hostCores.map (·.1)) && up (s.coreBanks.map (·.1)) && up (s.galBanks.map (·.1)) &&
  up (s.traces.map (·.1))

theorem sound_of {s : State} (h : soundB s = true) : s.Sound := by
  simp only [soundB, Bool.and_eq_true, decide_eq_true_eq] at h
  simp only [State.Sound, rising]
  simp only [and_assoc] at h
  exact h

theorem test_reset_sound : State.reset.Sound := sound_of (by decide)

/-- The home of line 4 of partition 0, in this state, with a host core of the partition. -/
def homeAt (x : HomeLine) (l1 : List Nat) : State :=
  { stream [] with homes := [(4, x)], cores := [(0, { l1 })], gals := [] }

theorem test_home_requests :
    (∀ x ∈ [({} : HomeLine), { dir := .shared [0] }, { dir := .owned 160 }, { dir := .shared [1, 160] }], let s := homeAt x [4]
      s.home 4 = x ∧ x.txn = none ∧ x.queue = [] ∧ (s.homes.filter (fun e => decide (e.2.dir ≠ .uncached))).length < 16 ∧
      s.homed 0 4 false = true ∧ s.homed 0 4 true = true ∧ 0 ∈ s.coresOf 0 ∧ 160 - 160 ∈ s.hostCoresOf 0 ∧ s.locate 0 (4 * 128) = .hbm 512) ∧
    sremove (DirState.shared [0]).holders 0 = [] ∧ sremove (DirState.shared [1, 160]).holders 0 ≠ [] ∧ sremove (DirState.owned 160).holders 160 = [] ∧
    (DirState.shared [1, 160]).holders ≠ [] := by decide +kernel

/-- A transaction of a home and the copies that it concerns. -/
def answering (y : HomeLine) (z : HostLine) (l1 : List Nat) : State := { homeAt y l1 with hostLines := if z = {} then [] else [(4, z)] }

def served (r : HomeReq) (grant : Nat) : HomeTxn := { req := r, inv := [], down := [], served := true, grant }
def asking (r : HomeReq) (inv down : List Nat) (took : List (Nat × Nat)) : HomeTxn := { req := r, inv, down, took }

/-- The clauses of HomeAnswers, in their order: transaction, directory, and the host core's line. -/
def answerRows : List (HomeTxn × DirState × HostLine) :=
  [(served (.rdShared 0) 1, .shared [0], {}), (served (.rdUnique 160) 3, .owned 160, {}), (served (.rdShared 0) 0, .shared [0], {}),
   (served (.rdShared 160) 0, .owned 160, { st := 2 }), (served (.ioRead 0) 0, .uncached, {}), (asking (.rdUnique 161) [0] [] [], .shared [0], {}),
   (asking (.rdUnique 161) [160] [] [], .owned 160, { st := 3 }), (asking (.rdShared 0) [] [160] [], .owned 160, { st := 3 }),
   (asking (.rdUnique 161) [160] [] [], .owned 160, { st := 3, holdUntil := 9 }), (asking (.rdUnique 161) [160] [] [], .owned 160, { st := 3, holdUntil := 9, snoop := 1 }),
   (asking (.rdUnique 161) [0] [] [(0, 1)], .shared [0], {}), (asking (.rdUnique 161) [160, 0] [] [(160, 2)], .owned 160, {}),
   (asking (.rdShared 0) [] [160] [(160, 3)], .owned 160, {})]

theorem test_home_answers : ∀ r ∈ answerRows, let y : HomeLine := { dir := r.2.1, txn := some r.1 }
    soundB (answering y r.2.2 []) = true ∧ (answering y r.2.2 []).home 4 = y ∧ (answering y r.2.2 []).hostLine 4 = r.2.2 ∧ y.queue = [] ∧
    (answering y r.2.2 []).locate 0 (4 * 128) = .hbm 512 := by decide +kernel

theorem test_evictions :
    (let y : HomeLine := { dir := .owned 160 }
     soundB (answering y { st := 3 } []) = true ∧ (answering y { st := 3 } []).home 4 = y ∧ (answering y { st := 3 } []).hostLine 4 = { st := 3 }) ∧
    (let y : HomeLine := { dir := .shared [0] }
     soundB (answering y {} [4]) = true ∧ (answering y {} [4]).home 4 = y ∧ 4 ∈ ((answering y {} [4]).core 0).l1) ∧
    (soundB (answering {} { st := 1 } []) = true ∧ (answering {} { st := 1 } []).home 4 = {} ∧ (answering {} { st := 1 } []).hostLine 4 = { st := 1 }) := by
  decide +kernel

/-- An access of PF0 with 8 bytes, in a state whose partition 0 is bound to PF0. -/
def reg (off data : Nat) : HostAccess := { fn := 0, off, size := 8, data }

def onPf0 (s : State) : State := { s with parts := [(0, { live := true, galleries := 1, groups := 1, onPf0 := true })] }

def sliced (x : Slice) : State := { onPf0 (stream []) with slices := if x = {} then [] else [(0, x)] }

theorem test_gallery_registers : ∀ x ∈ [({} : Slice), { enable := true, enabled := true }, { invDone := true }, { enabled := true }, { invBusy := true }],
    (sliced x).slice 0 = x ∧ (sliced x).served = true ∧ (sliced x).partOfGallery 0 = some 0 ∧ (sliced x).fnOf 0 = 0 ∧
    (reg 0x1800000 1).off = 0x1800000 + 0x1000 * 0 + 0 ∧ (reg 0x1800010 0xFFF).data % 2 ^ 16 &&& x.disabledWays = 0 := by decide +kernel

theorem test_way_disable : let s := sliced {}
    ({} : Slice).errors = [] ∧ bit ({} : Slice).disabledWays 3 = false ∧ 1 ≤ s.setting 1 4 ∧ s.setting 1 4 < 5 ∧ s.setting 14 1 ≠ 0 ∧
    bit ({} : Slice).locked 3 = false := by decide +kernel

/-- HBM line 4 of pseudo-channel 0 belongs to the demo region; the second region of a partition is being rebuilt. -/
def owned : State := { stream [] with allocs := [⟨0, 0, 16, .region 0 0⟩] }

theorem test_memory : soundB owned = true ∧ owned.ownerAt 0 4 = some (.region 0 0) ∧
    ({ owned with now := 2 ^ 60 } : State).setting 3 24 * 3600000000000 ≤ 2 ^ 60 ∧ soundB { owned with now := 2 ^ 60 } = true ∧
    (0, 7) ∉ owned.conf.repair.rows ∧ owned.setting 13 1 ≠ 0 := by decide +kernel

def rebuilding : State :=
  { owned with rebuilds := [{ part := 0, idx := 0, target := { base := 0, size := 0x10000, mode := 0, die := 0, layout := { lists := [[1]], extents := [16] } } }] }

theorem test_line_move : soundB rebuilding = true ∧
    (∃ r, mfind rebuilding.regions 0 = some r ∧ 0 + 1 < min r.size 0x10000 / 128 ∧ placeLine r.layout 0 = (0, 0)) ∧
    (rebuilding.stack 0).refreshOnly = false ∧ (rebuilding.home (lineKey 0 0)).dir = .uncached :=
  ⟨by decide +kernel, ⟨_, rfl, by decide +kernel, by decide +kernel⟩, by decide +kernel, by decide +kernel⟩

/-! ### Landings and removals -/

theorem test_slot_return : let s := { stream [] with slots := [(10000, { state := .releasing })] }
    soundB s = true ∧ (s.slot 10000).state = .releasing ∧ (s.slot 10000).unseen = [] ∧ s.lossOwed (s.slot 10000) = false := by decide +kernel

theorem test_landing_timeout : let p := { pkt 0x09 [] with stage := .waiting }
    let w : Waiter := ⟨.packet 0 1, 0, 0, 5⟩
    let s := { stream [p] with slots := [(10000, { state := .armed, timeoutUs := 3, waiters := [w] })] }
    soundB s = true ∧ (s.slot 10000).waiters[0]? = some w ∧ (s.slot 10000).timeoutUs ≠ 0 ∧ s.pkt 0 1 = some p := by decide +kernel

theorem test_landing_move : let s := { stream [] with moves := [⟨10000, 10001⟩] }
    soundB s = true ∧ s.moves = [⟨10000, 10001⟩] := by decide +kernel

theorem test_mirror : let s := { stream [] with slots := [(10000, { state := .armed, mirror := some (3, 9) })], mirrorQ := [⟨10000, 1, []⟩] }
    soundB s = true ∧ s.mirrorQ = [⟨10000, 1, []⟩] ∧ (s.slot 10000).mirror = some (3, 9) := by decide +kernel

theorem test_host_arrival : let s := { stream [] with hostCores := [(0, { run := 1 })] }
    soundB s = true ∧ s.partOfGallery (0 / 2) = some (s.ctx 0).part ∧ s.hostRuns 0 = true ∧ s.landing 0 (65536 % 1024) .fromIo = .slot 10000 ∧
    65536 / 65536 % 65536 = 1 := by decide +kernel

def preempting (pkts : List Pkt) : State :=
  { streamOf { ctxOf pkts with preempt := some (0x4000, 9, 0), hold := true } with stage2 := [⟨0, 0, 0, 0x10000, 64, true, true, true⟩] }

/-- No crew is left to save, with the save area's bytes free; and a cox launch is still there. -/
theorem test_preempt :
    (let s : State := { preempting [] with cores := [] }
     soundB s = true ∧ s.preemptReady 0 = true ∧
      (match s.saveCrews 0 0x4000 (s.crewsOf 0) with
        | (s1, .saved) => decide ((s1.ctx 0).creditSpace = 1 ∧ s1.stalled = false)
        | _ => false) = true) ∧
    (let s : State := { preempting [] with coxLaunches := [(1, demoCox)] }
     soundB s = true ∧ s.preemptReady 0 = false ∧ s.faultComes 0 = false) := by decide +kernel

theorem test_invalidate : ∀ k ∈ [0, 1], let s := onPf0 (stream [])
    let a := reg 0x1000030 k
    soundB s = true ∧ s.served = true ∧ a.size = 8 ∧ a.off = 0x1000000 + 0x2000 * 0 + 0x30 ∧ (s.ctx 0).state = .active ∧ (s.ctx 0).fn = 0 ∧
    ((s.ctx 0).xltIssued + 65536 - (s.ctx 0).xltDone) % 65536 ≠ 8 ∧ a.data % 4 = k := by decide +kernel

theorem test_invalidation_done : let s := streamOf { ctxOf [] with xltQueue := [(1, 0x4000)] }
    soundB s = true ∧ (s.ctx 0).xltQueue = [(1, 0x4000)] := by decide +kernel

def demoSegment : Segment :=
  { live := true
    size := 0x1000
    layout := { lists := [[5]], extents := [32] }
    golden := .copy 1 { lists := [[6]], extents := [32] }
    lines := [(3, .inRepair)]
    held := [⟨.engine 0, 3, 7, false⟩] }

def segmented (poison : List Nat) : State := { stream [] with segs := [(2, demoSegment)], hbmPoison := poison }

theorem test_segment_restore : ∀ b : Bool,
    let s := segmented (if b then [hbmKey 6 3 0 / 64] else [])
    soundB s = true ∧ (s.seg 2).live = true ∧ mget .good (s.seg 2).lines 3 = .inRepair ∧ s.hbmPoisoned (hbmKey 6 3 0) 128 = b ∧
    (s.seg 2).held[0]? = some ⟨.engine 0, 3, 7, false⟩ := by decide +kernel

theorem test_drains :
    (let s := { crewAt demoCrew 0 0 with drains := [{ obj := .core 0, after := .substitute }] }
     soundB s = true ∧ s.drains[0]? = some { obj := .core 0, after := .substitute }) ∧
    (let s := { stream [] with drains := [{ obj := .ctx 0, after := .ctxDisable }] }
     soundB s = true ∧ s.drains[0]? = some { obj := .ctx 0, after := .ctxDisable } ∧ (s.ctx 0).pkts = []) ∧
    (let s := { stream [] with cores := [], drains := [{ obj := .core 0, after := .substitute }] }
     soundB s = true ∧ s.coreBusy 0 = false) := by decide +kernel

theorem test_core_errors : let s := { stream [] with rasTimes := (List.range 16).map (fun k => (k * 2 ^ 20, [1, 2, 3, 4, 5, 6, 7, 8, 9])) }
    soundB s = true ∧ s.setting 9 1 ≠ 0 ∧ s.setting 15 2 ≤ s.coreErrors 0 := by decide +kernel
/-! ### Registers and interrupts -/

def hosted : State := onPf0 (stream [])

theorem test_registers : soundB hosted = true ∧ hosted.served = true ∧ (hosted.partOfGallery (0 / 8) = some 0 ∧ hosted.fnOf 0 = 0) ∧
    (∀ off ∈ [0x4000, 0x8008, 0x8000, 0x8018, 0x10000, 0x11000, 0x2804000, 0x2806000, 0x2806080, 0x2806880, 0x2807000, 0x2807008],
      (reg off 1).fn ≤ 8 ∧ (reg off 1).size = 8 ∧ (reg off 1).off = off ∧ off % 8 = 0 ∧ bit ((reg off 1).data % 2 ^ 64) 0 = true) := by decide +kernel

theorem test_mailbox_registers : hosted.mbox 0 = {} ∧ (({} : Mailbox).owner = false ∧ ({} : Mailbox).post = false) ∧
    soundB { hosted with mailboxes := [(0, { owner := true })] } = true ∧ ({ hosted with mailboxes := [(0, { owner := true })] } : State).mbox 0 = { owner := true } := by
  decide +kernel

theorem test_trace_registers :
    (let s := { hosted with traces := [(0, { log2 := 8 })] }
     soundB s = true ∧ (s.trc 0).enable = false ∧ 6 ≤ (s.trc 0).log2 ∧ (s.trc 0).log2 ≤ 20 ∧ (s.ctx (bits 1 16 6)).state = .active ∧ (s.ctx (bits 1 16 6)).part = 0) ∧
    (let s := { hosted with traces := [(0, { enable := true })] }
     soundB s = true ∧ (s.trc 0).enable = true) ∧ 0x16 % 256 ≤ 0x16 := by decide +kernel

/-- Eight records and a ring whose pages have translations of their own. -/
def draining : State :=
  { hosted with
    traces := [(0, { enable := true, log2 := 12, base := 0x4000, recs := List.replicate 8 (zeros 32) })]
    stage2 := [⟨0, 0, 0, 0x10000, 32, true, true, true⟩] }

theorem test_trace_drain : (match draining.drainRecs 0 (draining.trc 0).recs with | (_, [], none) => true | _ => false) = true ∧ soundB draining = true ∧ (draining.trc 0).enable = true ∧ 8 ≤ (draining.trc 0).recs.length := by decide +kernel

theorem test_aperture : (hosted.partOf 0 = some 0 ∧ hosted.linkUp = true ∧ (hosted.func 0).aperEnable = false) ∧
    (let s := { hosted with funcs := [(0, { bme := true, aperEnable := true })] }
     soundB s = true ∧ (s.func 0).aperEnable = true ∧ (s.func 0).aperRemoved = false ∧
     (match s.aperRead 0 0 [] (linePieces (8 / 128 + 2) ((s.func 0).aperture 0x100) 8) with | (t, .ok _) => !t.stalled | _ => false) = true ∧
     (match s.aperWrite 0 (zeros 8) (linePieces (8 / 128 + 2) ((s.func 0).aperture 0x100) 8) with | (t, ok) => ok && !t.stalled) = true) := by decide +kernel

def ringing (f : Func) : State := { hosted with funcs := [(0, { f with bme := true })], perstN := true }

theorem test_interrupts : ∀ f ∈ [({ msixEnabled := true, msixMasked := false, summary := 1, enableMask := 1 } : Func), { msixEnabled := true },
      { msixEnabled := true, msixMasked := false, summary := 1, enableMask := 1, winStart := some 5, modTime := 9 },
      { summary := 1, enableMask := 1, msixPending := true }, { msixEnabled := true, msixMasked := false, summary := 1, enableMask := 1, held := true }],
    soundB (ringing f) = true ∧ (ringing f).func 0 = { f with bme := true } ∧ (ringing f).hostOpen 0 = true ∧ (ringing f).linkUp = true ∧
    (ringing f).perstN = true ∧ (ringing f).supply = 2 ∧ f.modCount ≤ 1 ∧ f.armed = true ∧ f.host = 0 := by decide +kernel

/-! ### Mitor's commands -/

/-- A request with fields (type, bytes). -/
def sub (code : Nat) (fs : List (Nat × List Byte)) : Sub := { gen := 2, code, tag := 5, fields := fs }

def num (t n v : Nat) : Nat × List Byte := (t, toBytes n v)

def operator : Taken := { role := 1, part := some 0 }
def installer : Taken := { role := 2 }

/-- Mitor serves, and the request is in hand on a path. -/
def handing (s : State) (path : Nat) (t : Taken) (u : Sub) : State :=
  { s with
    mitorUp := true
    mitorReady := true
    parts := [(0, { live := true, galleries := 1, groups := 1, onPf0 := true, ctxCeiling := 4, deviceCeiling := 4, fabricCeiling := 4, debugOpen := true })]
    taken := [(path, { t with cur := some u })] }

theorem inHand_of (s : State) (path : Nat) (t : Taken) (u : Sub) (h : u.stage = .ready) (hr : s.removalPrepared = false) :
    (handing s path t u).InHand path u.code { t with cur := some u } u := by
  refine ⟨?_, rfl, rfl, h, hr⟩
  simp [handing, mfind]

/-- Requests of the operator in the demo state: those of the statements on information, contexts, resources and debugging. -/
def operatorRows : List Sub :=
  [sub 1 [], sub 2 [], sub 3 [num 1 2 4], sub 3 [num 1 2 0], sub 4 [num 1 2 4], sub 4 [num 1 2 60], sub 5 [num 1 4 0], sub 5 [num 1 4 (160 * 65536)], sub 6 [],
   sub 7 [], sub 0x904 [num 1 8 0, num 2 2 4], sub 0x904 [num 1 8 0, num 2 2 0], sub 0x905 [],
   sub 0x101 [num 1 8 0x40, num 2 1 1, num 3 1 2, num 4 8 0x1000, num 5 1 1, num 6 1 8, num 7 8 (9 * 2 ^ 60 + 1)],
   sub 0x102 [num 1 1 0], sub 0x103 [num 1 1 0], sub 0x104 [num 1 1 0, num 2 8 0x4000], sub 0x105 [num 1 1 0], sub 0x106 [num 1 1 0, num 2 1 0],
   sub 0x106 [num 1 1 1, num 2 1 0], sub 0x201 [num 1 1 0, num 2 2 5, num 3 1 1, num 4 2 0], sub 0x201 [num 1 1 0, num 2 2 5, num 3 1 2],
   sub 0x201 [num 1 1 0, num 2 2 5, num 3 1 3], sub 0x201 [num 1 1 0, num 2 2 5, num 3 1 4, num 7 1 3, num 8 2 9], sub 0x202 [num 1 1 0, num 2 2 0],
   sub 0x202 [num 1 1 0, num 2 2 9], sub 0x203 [num 1 1 0, num 2 2 0, num 3 1 0, num 4 3 7, num 5 1 0, num 8 2 0xFFFF, num 9 2 0xFFFF],
   sub 0x203 [num 1 1 0, num 2 2 0, num 3 1 1, num 8 2 0xFFFF, num 9 2 0xFFFF],
   sub 0x203 [num 1 1 0, num 2 2 0, num 3 1 2, num 4 3 7, num 5 1 1, num 7 3 9, num 8 2 0xFFFF, num 9 2 0xFFFF],
   sub 0x204 [num 1 1 0, num 2 8 0x1000, num 3 1 8, num 4 1 3, num 5 2 0], sub 0x205 [num 1 1 0, num 2 1 1], sub 0x205 [num 1 1 0, num 2 1 2],
   sub 0x206 [num 1 1 3, num 2 1 0, num 3 8 0, num 4 8 64, num 5 1 3], sub 0x701 [], sub 0x702 []]

theorem test_in_hand : ∀ u ∈ operatorRows, (handing (stream []) 0 operator u).InHand 0 u.code { operator with cur := some u } u := by
  intro u hu
  exact inHand_of _ _ _ _ ((by decide +kernel : ∀ u ∈ operatorRows, u.stage = .ready) u hu) rfl

/-- The mailbox holds a message that has been posted, well-formed and not. -/
theorem test_request_take : ∀ gen ∈ [2, 9], let m : Mailbox := { area := writeBytes [] 0 (bytesOf 8 [(0, 1, gen), (2, 2, 8), (4, 2, 1)]), post := true, len := 8 }
    let s := { hosted with mitorUp := true, mitorReady := true, mailboxes := [(0, m)] }
    soundB s = true ∧ s.mbox 0 = m ∧ s.mitorUp = true ∧ s.musLost = false ∧ s.muAsleep = false ∧ s.supply ≠ 0 ∧
    field (areaBytes m.area (min m.len 3840)) 0 1 = gen ∧ (areaBytes m.area (min m.len 3840)).length = 8 ∧
    field (areaBytes m.area (min m.len 3840)) 2 2 = 8 ∧ field (areaBytes m.area (min m.len 3840)) 4 2 = 1 := by decide +kernel

theorem test_context_commands :
    (let s := handing (stream []) 0 operator (sub 0x101 [])
     soundB s = true ∧ (s.ctxsOf 0).length < (s.part 0).ctxCeiling ∧ (List.range 64).find? (fun m => decide ((s.ctx m).state = .free)) = some 1 ∧
       s.ctxLeaving 0 = false ∧ (s.ctx 0).state = .active ∧ (s.ctx 0).part = 0 ∧ (s.ctx 0).preempt = none ∧ (s.ctx 0).resumePath = none ∧
       (s.ctx 1).state = .free) ∧
    (∀ st ∈ [CtxState.faulted, .preempted], (streamOf { ctxOf [] with state := st }).ctxLeaving 0 = false) ∧
    (let s : State := { stream [] with drains := [{ obj := .ctx 0 }] }
     soundB s = true ∧ s.ctxLeaving 0 = true) ∧
    (let u := sub 0x101 [num 1 8 0x40, num 2 1 1, num 3 1 2, num 4 8 0x1000, num 5 1 1, num 6 1 8, num 7 8 (9 * 2 ^ 60 + 1)]
     u.has 8 = false ∧ u.num 1 % 64 = 0 ∧ u.num 2 ≤ 1 ∧ u.num 3 ≤ 2 ∧ u.num 4 % 32 = 0 ∧ u.num 5 ≤ 1 ∧ 6 ≤ u.num 6 ∧ u.num 6 ≤ 16 ∧ bits (u.num 7) 60 4 = 9) ∧
    (let u := sub 0x104 [num 1 1 0, num 2 8 0x4000]
     u.num 2 % 4096 = 0 ∧ (u.num? 3).getD 10000 = 10000) := by decide +kernel

/-- The context's landing 0 is a device landing, and association 3 belongs to its partition. -/
def landed (y : Slot) : State :=
  { streamOf { ctxOf [] with lmap := [(0, { kind := 2, owner := 0 })] } with
    slots := [(10000, y)]
    assocs := [(3, { live := true })]
    queues := [(1, { live := true })] }

theorem test_resource_commands :
    (let s := handing (landed { state := .armed, n := 1, remain := 1, rearm := true }) 0 operator (sub 0x201 [])
     soundB s = true ∧ (mget ({} : LEntry) (s.ctx 0).lmap 5).kind = 0 ∧ (mget ({} : LEntry) (s.ctx 0).lmap 0).kind = 2 ∧
       (s.coresOf 0)[0]? = some 0 ∧ (s.assoc 3).live = true ∧ (s.assoc 3).part = 0 ∧ (s.slot 10000).kind = 0 ∧
       (List.range 8).find? (fun i => !(s.sendQueue (8 * 0 + i)).live) = some 0 ∧ (s.sendQueue 1).live = true ∧ (s.sendQueue 2).live = false) ∧
    (let s := handing (landed {}) 0 operator (sub 0x201 [])
     soundB s = true ∧ (s.slot 10000).state = .free) ∧
    (let s : State := { handing (stream []) 0 operator (sub 0x201 []) with parts := [(0, { live := true, ctxCeiling := 4 })] }
     soundB s = true ∧ (s.part 0).deviceCeiling ≤ s.slotsHeld 0 10000 1024) := by decide +kernel

theorem test_slot_pools : let s := handing (stream []) 0 operator (sub 0x201 [])
    s.GivesSlot 0 (48 * 0) 48 49 0 ∧ s.GivesSlot 0 10000 1024 (s.part 0).deviceCeiling 10001 ∧ s.GivesSlot 0 20000 256 (s.part 0).fabricCeiling 20000 := by
  unfold State.GivesSlot; decide +kernel

/-! #### Debugging -/

def debugSub (op : Nat) (more : List (Nat × List Byte)) : Sub := sub 0x703 ([(1, zeros 4), num 2 1 op] ++ more)

/-- A crew of the operator's partition, halted or not, with `CREW_DEBUG` in hand. -/
def debugging (op : Nat) (c : Crew) : State := handing (crewAt c (word 0xE 0 0) 0) 0 operator (debugSub op [])

theorem test_debug_commands : ∀ op ∈ [1, 2, 3, 4, 5], ∀ c ∈ [demoCrew, { demoCrew with state := .halted }, { demoCrew with state := .halted, path := none }],
    let s := debugging op c
    soundB s = true ∧ debugCore (debugSub op []) = 0 ∧ debugKey (debugSub op []) = 0 ∧ (s.part 0).debugOpen = true ∧ s.partOfCore 0 = some 0 ∧
    field ((debugSub op []).bytesOf 1) 2 1 < 4 ∧ field ((debugSub op []).bytesOf 1) 3 1 < 48 ∧ s.crew 0 0 = some c ∧ (debugSub op []).num 2 = op ∧
    c.allExited = false ∧ takeRunnable c.stack = none ∧ (debugSub op []).stage = .ready := by decide +kernel

theorem test_debug_session_closed : let s : State := { debugging 1 demoCrew with parts := [(0, { live := true })] }
    soundB s = true ∧ (s.part 0).debugOpen = false := by decide +kernel

theorem test_write_register : (sub 0x703 [(5, toBytes 1 3 ++ toBytes 1 1 ++ zeros 2 ++ toBytes 8 77)]).bytesOf 5 = toBytes 1 3 ++ toBytes 1 1 ++ zeros 2 ++ toBytes 8 77 ∧
    (sub 0x703 [num 7 8 64]).num? 7 = some 64 := by decide +kernel

/-- `STEP` of a halted crew at a `NOP`: it issues, and the crew halts again. -/
theorem test_step : let c := { demoCrew with state := .halted }
    let s := (debugging 4 c).setCrew 0 0 { c with retry := false }
    (match s.nextIssue 0 0 c with
      | some z => z.i.known && z.i.legal 8 32 && !c.blocked (z.i.sources 8)
      | none => false) = true ∧
    (match ((s.issue 0 0 none).haltAgain 0 0 c.idleFrom).crew 0 0 with
      | some d => !d.retry
      | none => false) = true := by decide +kernel

/-! #### Memory and partitions -/

/-- The partition's second region, of 4 MiB, in a pseudo-channel of its own group. -/
def roomy : State :=
  { stream [] with regions := [(0, { base := 0, size := 0x10000, mode := 0, die := 0, layout := demoLayout }), (1, { base := 2 ^ 30, size := 2 ^ 22, mode := 0, die := 0, layout := demoLayout })] }

theorem test_region_commands : let s := handing roomy 0 operator (sub 0x301 [])
    soundB s = true ∧ s.partBusy 0 = false ∧ s.regionFits 0 512 (2 ^ 31) (2 ^ 21) = true ∧ dieOk (s.part 0).groups 0 0 = true ∧
    (List.range 64).find? (fun i => (mfind s.regions (64 * 0 + i)).isNone) = some 2 ∧
    s.regionFits 0 1 (2 ^ 30) (2 ^ 22) = true ∧ s.regionFits 0 1 (2 ^ 30) (2 ^ 23) = true ∧ (mfind s.regions 9).isNone = true ∧ s.moveJobs = [] := by decide +kernel

theorem test_region_room : let s := handing roomy 0 operator (sub 0x301 [])
    (s.allocate (.region 0 2) false (2 ^ 21 / 128) (s.targetLists (s.part 0).groups 0 0 (fun _ => false))).isSome = true ∧
    (s.allocate (.region 0 2) false (2 ^ 40 / 128) (s.targetLists (s.part 0).groups 0 0 (fun _ => false))).isNone = true := by decide +kernel
theorem test_stage2_commands :
    (let s := handing roomy 9 installer (sub 0x304 [num 1 1 0, num 2 8 0x4000, num 3 8 0x8000, num 4 8 0x1000, num 5 1 0, num 6 1 3])
     let u := sub 0x304 [num 1 1 0, num 2 8 0x4000, num 3 8 0x8000, num 4 8 0x1000, num 5 1 0, num 6 1 3]
     soundB s = true ∧ (s.part 0).live = true ∧ s.partBusy 0 = false ∧ s.tableMoves = [] ∧ u.num 5 ≤ 3 ∧ u.num 2 % 4096 = 0 ∧ u.num 3 % 4096 = 0 ∧
       u.num 4 = 4096 ∧ u.num 6 < 8 ∧ bit (u.num 6) 1 = true ∧ bit (u.num 6) 0 = true ∧
       (s.setStage2 0 ({ part := 0, ia := 0x4000, pa := 0x8000, size := 4096, page := 4096, r := true, w := true, x := false } ::
         (s.mapsOf 0).flatMap (cutMap 0x4000 0x5000))).isSome = true) ∧
    (let s : State := { handing roomy 9 installer (sub 0x304 []) with tableMoves := [⟨0, 0, 0, 0⟩] }
     soundB s = true ∧ s.tableMoves.any (fun m => decide (m.part = 0)) = true) := by decide +kernel

/-- Nothing is left in the partition's group: its tables have no room. -/
theorem test_stage2_room : let s : State := { handing roomy 9 installer (sub 0x304 []) with allocs := (List.range 512).map (fun pc => ⟨pc, 0, 9437184, .segment 9⟩) }
    (s.setStage2 0 [⟨0, 0x4000, 0x8000, 4096, 4096, true, true, true⟩]).isNone = true := by decide +kernel

theorem test_segment_commands :
    (let s := handing (segmented []) 9 installer (sub 0x305 [])
     soundB s = true ∧ (s.seg 4).live = false ∧ s.stackSetOk 0 1 = true ∧ s.partBusy 0 = false ∧
       (s.allocate (.segment 4) false (2 ^ 21 / 128) (s.segTarget 0 1)).isSome = true ∧ (s.seg 2).live = true ∧ (s.seg 2).mapped = [] ∧
       (s.setStage2 0 ({ part := 0, ia := segAddr 2 0, pa := segAddr 2 0, size := 0x1000, page := 2 ^ 21, r := true, w := false, x := false } ::
         (s.mapsOf 0).flatMap (cutMap (segAddr 2 0) (segAddr 2 0 + 0x1000)))).isSome = true ∧
       (s.setStage2 0 ((s.mapsOf 0).flatMap (cutMap (segAddr 2 0) (segAddr 2 0 + 0x1000)))).isSome = true ∧
       mget .good (s.seg 2).lines 3 ≠ .lost) ∧
    (let s : State := { handing (stream []) 9 installer (sub 0x308 []) with segs := [(2, { demoSegment with lines := [(3, .lost)] })] }
     soundB s = true ∧ mget .good (s.seg 2).lines 3 = .lost) := by decide +kernel

theorem test_channel_retire : let s := handing (stream []) 9 installer (sub 0x309 [num 1 2 4])
    soundB s = true ∧ (4 ∉ s.conf.repair.channels) ∧ s.moveJobs = [] ∧
    (let z : State := { s with moveJobs := [{ cause := .retire 4, todo := [] }] }
     soundB z = true ∧ z.moveJobs = [{ cause := .retire 4, todo := [] }]) ∧
    (let z : State := { s with conf := { s.conf with repair := { s.conf.repair with channels := [4] } } }
     soundB z = true ∧ 4 ∈ z.conf.repair.channels) := by decide +kernel

/-- `PART_CREATE` of partition 1, with a gallery and a group of its own. -/
def newPart : LayoutPart := { part := 1, galleries := 2, groups := 2, onPf0 := false, ctxCeiling := 4, deviceCeiling := 4, fabricCeiling := 4, persist := false }

def partSub : Sub :=
  sub 0x401 [num 1 1 1, num 2 4 2, num 3 4 2, num 4 1 1, num 5 1 4, num 6 2 4, num 7 2 4, num 8 1 0]

theorem test_part_create : let s := handing (stream []) 9 installer partSub
    soundB s = true ∧ partSub.num 4 ≤ 1 ∧ partSub.num 8 ≤ 1 ∧
    newPart = { part := partSub.num 1, galleries := partSub.num 2, groups := partSub.num 3, onPf0 := decide (partSub.num 4 = 0), ctxCeiling := partSub.num 5, deviceCeiling := partSub.num 6, fabricCeiling := partSub.num 7, persist := decide (partSub.num 8 = 1) } ∧
    (match s.makePart newPart with | .made _ => true | _ => false) = true ∧ 1 &&& (s.part 0).galleries ≠ 0 ∧ (s.part 0).live = true ∧
    ({ s with tripped := true } : State).tripped = true := by decide +kernel

theorem test_part_resize : let s := handing (stream []) 9 installer (sub 0x402 [num 1 1 0, num 4 1 5])
    let x := s.part 0
    soundB s = true ∧ x.live = true ∧ x.galleries ≠ 0 ∧ x.galleries < 2 ^ 20 ∧ x.groups ≠ 0 ∧ x.galleries &&& s.heldBy 0 (·.galleries) = 0 ∧
    x.groups &&& s.heldBy 0 (·.groups) = 0 ∧ s.defaultsFit 0 x.groups x.galleries = true ∧ s.foreignTables 0 x.groups = [] ∧ s.partBusy 0 = false ∧
    s.tableMoves = [] ∧ (∀ p < 8, p ≠ 0 → (s.part p).live = true → (s.part p).onPf0 = false) ∧
    (sub 0x402 [num 1 1 0, num 4 1 5]).num? 4 = some 5 ∧ (sub 0x402 [num 1 1 0, num 4 1 40]).num? 4 = some 40 ∧
    (sub 0x402 [num 1 1 0, num 5 2 2000]).num? 5 = some 2000 := by decide +kernel

theorem test_part_removal : let s := handing (stream []) 9 installer (sub 0x403 [num 1 1 0])
    soundB s = true ∧ s.isKeeper 0 = false ∧ s.partBusy 0 = false ∧ (s.part 5).live = false ∧ (0 ∉ s.retired) ∧ s.drains = [] ∧
    (let z : State := { s with drains := [{ obj := .part 0 }] }
     soundB z = true ∧ z.partBusy 0 = true) := by decide +kernel

theorem test_regulator : let s := handing (stream []) 9 installer (sub 0x405 [num 1 1 0, num 2 1 3, num 3 2 100, num 4 2 8, num 5 1 0])
    soundB s = true ∧ s.rateFits 3 0 100 = true ∧ s.rateFits 3 0 2000 = false := by decide +kernel

theorem test_host_cores : let s := handing (stream []) 0 operator (sub 0x406 [num 1 1 0, num 2 8 64, num 3 8 1])
    soundB s = true ∧ 0 / 2 ∈ s.galleriesOf 0 ∧ (7 / 2 ∉ s.galleriesOf 0) ∧ (0 ∉ s.conf.repair.hostRetired) ∧ (mget ({} : HostCore) s.hostCores 0).run ≠ 1 ∧
    (let z : State := { s with hostCores := [(0, { run := 1 })] }
     soundB z = true ∧ (mget ({} : HostCore) z.hostCores 0).run = 1) := by decide +kernel

/-! #### The installer and security -/

def wired (p : FabPort) (x : SubPort) : State :=
  { stream [] with ports := [(1, p)], subPorts := [(4, x)], udpPort := some 4793 }

theorem test_installer_commands :
    (let s := handing (wired { cls := 1, mtu := 4096 } {}) 9 installer (sub 0x501 [num 1 1 1, num 2 1 2, num 3 1 0, num 4 2 4096, num 5 1 0])
     soundB s = true ∧ s.drains = []) ∧
    (let z : State := { wired {} {} with drains := [{ obj := .port 1 }] }
     soundB z = true ∧ z.drains = [{ obj := .port 1 }]) ∧
    (let u := sub 0x502 [num 1 1 4, (2, zeros 16), (3, zeros 4), num 4 1 10, num 5 2 4000]
     u.num 1 < 32 ∧ u.num 4 < 64 ∧ (u.bytesOf 2).length = 16 ∧ (u.bytesOf 3).length = 4) ∧
    (let s := landed {}
     soundB s = true ∧ (s.assoc 7).live = false ∧ (s.assoc 3).live = true ∧ (s.assoc 3).state = .idle) ∧
    (let z : State := { stream [] with assocs := [(3, { live := true, state := .up })] }
     soundB z = true ∧ (z.assoc 3).live = true ∧ (z.assoc 3).state ≠ .idle ∧ (z.assoc 3).state ≠ .failed) := by decide +kernel

theorem test_power_cap : let s := stream []
    let u := sub 0x601 [num 1 4 3000]
    s.floorLinks + s.floorMem + 450 ≤ (u.num? 1).getD s.capW ∧ inRange (u.num? 1) 1200 3600 = true ∧ inRange (u.num? 2) 200 1000 = true ∧
    inRange (u.num? 3) 150 800 = true ∧ inRange (u.num? 4) 0 1000 = true ∧ u.has 5 = false ∧ u.has 6 = false ∧ u.fields ≠ [] ∧
    (sub 0x601 []).fields = [] ∧ 1000 < s.floorLinks + s.floorMem + 450 := by decide +kernel

theorem test_thresholds : settingOk (5, 95) = true ∧ settingOk (200, 1) = false ∧
    (sub 0x602 [(1, toBytes 2 5 ++ zeros 2 ++ toBytes 4 95)]).bytesOf 1 = toBytes 2 5 ++ zeros 2 ++ toBytes 4 95 := by decide +kernel

theorem test_self_tests : let s := handing (stream []) 9 installer (sub 0x603 [num 1 1 2, num 2 2 0, num 3 2 100, num 4 1 0])
    soundB s = true ∧ unitOk 1 40 = true ∧ unitOk 2 0 = true ∧ unitOk 8 0 = true ∧ unitOk 3 0 = true ∧ s.unitPart 2 0 = some 0 ∧ s.unitPart 2 100 = none ∧
    (let z : State := { crewAt demoCrew 0 0 with gals := [(0, { st := 3 })] }
     soundB z = true ∧ z.testFree ⟨2, 0, 0, false, none, false⟩ = false) ∧ s.partOfGallery 0 = some 0 ∧ (s.part 0).galleries = 2 ^ 0 ∧
    (∀ q ∈ s.liveParts, s.partBusy q = false) ∧ 0 ∈ s.liveParts := by decide +kernel

theorem test_security_commands : let s := handing (stream []) 9 installer (sub 0x801 [num 1 2 0x2001])
    soundB s = true ∧ s.seed = none ∧ keyIdOk 0x2001 = true ∧ keyIdOk 0 = false ∧ keyInReach installer 0x2001 = true ∧ keyInReach installer 0x3001 = false ∧
    mfind s.conf.keys 0x2001 = none ∧ 0 < keyLimit (0x2001 / 4096) ∧ s.scopes = [] ∧ s.activation = none ∧ s.conf.slot ≤ 1 ∧ mget [] s.fwSlots 1 = [] ∧
    (let z : State := { s with
        seed := some [1]
        scopes := [(1, 9)]
        activation := some ⟨9, 0, false⟩
        conf := { s.conf with keys := (List.range 8).map (fun i => (0x2000 + i, [])), floor := 3 } }
     soundB z = true ∧ z.seed = some [1] ∧ (mfind z.conf.keys 0x2001).isSome = true ∧ mfind z.conf.keys 0x2009 = none ∧
       keyLimit (0x2009 / 4096) ≤ (z.conf.keys.filter (fun e => decide (e.1 / 256 = 0x2009 / 256))).length ∧ z.scopes ≠ [] ∧ z.activation.isSome = true ∧
       1 < z.conf.floor) := by decide +kernel

/-! ### Fabric -/

/-- A frame of the lane protocol: 1, its code, a lane and a number. -/
def laneBytes (code lane n : Nat) : List Byte := bytesOf 4 [(0, 1, 1), (1, 1, code), (2, 1, lane), (3, 1, n)]

theorem test_link_states :
    (let s := wired { cls := 1, mtu := 4096 } {}
     soundB s = true ∧ s.subExists 4 = true ∧ (s.subPort 4).up = false ∧ (s.port 1).draining = false ∧ (s.port 1).failed = [] ∧ s.supply = 2 ∧
       s.removalPrepared = false) ∧
    (∀ code ∈ [1, 2, 3, 4, 5, 6], beField (laneBytes code 2 9) 0 1 = 1 ∧ beField (laneBytes code 2 9) 1 1 = code ∧ beField (laneBytes code 2 9) 2 1 = 2 ∧
      beField (laneBytes code 2 9) 3 1 = 9) ∧
    (∀ p ∈ [({ cls := 1, mtu := 4096 } : FabPort), { cls := 1, spare := some 0 }, { cls := 1, spare := some 0, txLane := some 2 },
        { cls := 1, spare := some 0, request := some (2, 9, 0, 0, false) }, { cls := 1, spare := some 0, request := some (2, 9, 0, 0, true) },
        { cls := 1, spare := some 0, rxLane := some 2 }],
      let s := wired p { up := true, offerAt := some 3, offerSeq := 9, candAt := some 5 }
      soundB s = true ∧ s.subExists 4 = true ∧ (s.subPort 4).up = true ∧ s.subOfLane 1 2 = 4 ∧ s.upSubs 1 = [4] ∧ s.candidate 1 = some 4 ∧
        (s.port 1).count ≠ 0 ∧ 4 * 1 + 2 * (s.port 1).count / 8 = 4 ∧ s.now ≤ 5 + 100000000 ∧ s.setting 12 1 ≠ 0 ∧ (2 ∉ (s.port 1).failed)) ∧
    (let s : State := { wired { cls := 1, spare := some 0, request := some (2, 9, 0, 0, false) } { up := true } with now := 2 ^ 40, thresholds := [(12, 0)] }
     soundB s = true ∧ 0 + 100000000 ≤ s.now ∧ s.setting 12 1 = 0) ∧
    (let s := wired { cls := 1 } { up := true, ctrs := [(6, 3)] }
     soundB s = true ∧ s.strangers 1 ≠ (s.port 1).strangerSum) := by decide +kernel

/-- Two sub-ports of a split port are up with candidates. -/
theorem test_next_candidate : let x : SubPort := { up := true, candAt := some 5 }
    let s : State := { wired { cls := 1, split := 1 } x with subPorts := [(4, x), (5, x)] }
    soundB s = true ∧ s.candidate 1 = some 4 ∧ (s.upSubs 1).find? (fun k => decide (k ≠ 4) && (s.subPort k).candAt.isSome) = some 5 := by decide +kernel

theorem test_net_frames : let x : SubPort := { up := true, ip6 := zeros 16, ip4 := [1, 2, 3, 4] }
    soundB (wired { cls := 1 } x) = true ∧ (wired { cls := 1 } x).subExists 4 = true ∧ (x.ip6 ≠ []) ∧
    (∀ kind < 4, let f : NetFrame := { sub := 4, kind, target := [1, 2, 3, 4], ip := [1, 2, 3, 9], mac := zeros 6, payload := [] }
      f.kind = kind ∧ f.target = (if f.target.length = 4 then x.ip4 else x.ip6) ∧ f.target ≠ []) ∧ ([9, 2, 3, 4] : List Byte) ≠ x.ip4 := by decide +kernel

def goodPacket : List Byte := bytesOf 40 [(0, 1, 0x11), (3, 1, 2), (7, 1, 5)]

/-- An association that carries data under one key of epoch 2, known to its peer by tag 5. -/
def carrying : Assoc :=
  { live := true
    state := .up
    ownTag := 5
    peers := []
    keys := [{ epoch := 2, tag := 6, sendKey := [], recvKey := [], sendSalt := [], recvSalt := [] }]
    paths := [(0, { sub := 4, peer := [1, 2, 3, 4], entropy := 0, rate := 1 })]
    sendQ := [{ mop := 1, seq := 0 }] }

def packeted (x : Assoc) : State := { wired { cls := 1, mtu := 4096 } { up := true, ip6 := zeros 16, ip4 := [1, 2, 3, 5] } with assocs := [(3, x)] }

theorem test_packets_kft :
    (soundB (packeted carrying) = true ∧ (packeted carrying).udpPort ≠ none ∧ (packeted carrying).subExists 4 = true ∧ (stream []).udpPort = none) ∧
    (goodPacket.length = 40 ∧ beField goodPacket 0 1 / 16 = 1 ∧ beField goodPacket 0 1 % 16 = 1 ∧ beField goodPacket 1 1 < 4 ∧ beField goodPacket 4 4 = 5 ∧
      beField goodPacket 3 1 = 2 ∧ beField (bytesOf 40 [(0, 1, 0x11), (3, 1, 7), (7, 1, 5)]) 3 1 = 7) ∧
    (carrying.next = none ∧ carrying.carries = true ∧ carrying.ownTag = 5 ∧ carrying.live = true) ∧
    ((zeros 3).length < 40 ∧ beField (bytesOf 40 [(0, 1, 0x11), (7, 1, 9)]) 4 4 ≠ carrying.ownTag) := by decide +kernel

/-- A window refused and a counter taken twice. -/
theorem test_key_window : let k : EpochKey := { epoch := 2, tag := 6, sendKey := [], recvKey := [], sendSalt := [], recvSalt := [], high := 4, seen := [3] }
    k.takes 3 = false := by decide +kernel

/-- A work ring whose entry has been written, or not: its phase bit differs from that of the round, or is the same. -/
def ringing' (entry : List Byte) : State :=
  { packeted carrying with
    queues := [(0, { live := true, ring := 0x4000, log2 := 6, assoc := 3, awake := true })]
    stage2 := [⟨0, 0, 0, 0x10000, 64, true, true, true⟩]
    hbm := demoTables ++ (writeBytes [] 0x4000 entry) }

def workEntry (op len : Nat) : List Byte :=
  bytesOf 64 [(0, 1, op), (1, 1, 1), (4, 4, len), (8, 8, if op = 4 then 0 else 0x5000), (40, 2, 0xFFFF), (24, 8, if op = 4 then 1 else 0)]

theorem test_work_entries : ∀ e ∈ [zeros 64, workEntry 1 16, workEntry 2 16, workEntry 3 8, workEntry 4 0], let s := ringing' e
    let q := s.sendQueue (8 * 0 + 0)
    soundB s = true ∧ q.live = true ∧ q.stopped = false ∧ q.awake = true ∧ q.entries = [] ∧ (s.assoc 3).outMsgs.length < 4096 ∧
    (match s.vaRead (kftEngine 0) (q.ring + 64 * (q.taken % 2 ^ q.log2)) 64 with | (_, .ok b) => decide (b = e) | _ => false) = true ∧
    (e = zeros 64 ∨ (field e 1 1 % 2 ≠ q.taken / 2 ^ q.log2 % 2 ∧ entryOk e = true)) := by decide +kernel

/-- The data of a write are read. -/
theorem test_work_data :
    (match (ringing' (workEntry 1 16)).vaRead (kftEngine 0) 0x4000 64 with
      | (u, .ok _) => (match u.vaRead (kftEngine 0) 0x5000 16 with | (_, .ok _) => true | _ => false)
      | _ => false) = true := by decide +kernel

theorem test_send :
    (let u := (packeted carrying).queueLandings 3
     let x := u.assoc 3
     let ready := x.paths.filter (fun e => u.pathReady x e.1)
     soundB (packeted carrying) = true ∧ x.carries = true ∧
       (match spray ready with
         | some (path, fed) => decide (path = 0) && (match mfind fed path with
           | some k => decide (k.sub = 4 ∧ k.peer.length = 4)
           | none => false)
         | none => false) = true ∧
       x.keys.length = 1 ∧ x.retxQ = [] ∧ x.sendQ = [{ mop := 1, seq := 0 }] ∧
       (u.bucket (16 * (32 + 4 / 4) + x.part)).burst = 0 ∧ 32 + 0 ≤ (u.port 1).mtu - 20 - 8 - 40) ∧
    (let u := (packeted { carrying with paths := [] }).queueLandings 3
     ((u.assoc 3).paths.filter (fun e => u.pathReady (u.assoc 3) e.1)) = []) ∧
    (∀ k ∈ [none, some ({ sub := 4, peer := [], entropy := 1 } : KPath)],
     let p : SentPkt := { path := 0, psn := 0, at' := 5, first := 5, timer := 9, size := 64, segs := [{ mop := 1, seq := 0 }] }
     let x : Assoc := { carrying with sent := [p], rxPaths := [(0, { since := some 5 })], pathMove := [(0, k)] }
     soundB (packeted x) = true ∧ (mget ({} : RxPath) ((packeted x).assoc 3).rxPaths 0).since = some 5 ∧
       ((packeted x).assoc 3).sent.find? (fun p => decide (p.path = 0) && decide (p.psn = 0)) = some p ∧
       ((packeted x).assoc 3).sent.find? (fun p => decide (p.path = 0) && decide (p.psn = 0) && decide (p.segs ≠ [])) = some p ∧
       (((packeted x).until (p.first + 100000000)).endAssoc 3 .failed 0x25).stalled = false ∧
       ((packeted x).assoc 3).pathMove = [(0, k)] ∧ ((packeted x).subPort 4).up = true) ∧
    (let s := packeted carrying
     ∀ k, mfind (s.assoc 3).paths 0 = some k → (s.subPort k.sub).up = true ∧ (s.assoc 3).moving 0 = false ∧
       ∀ key ∈ (s.assoc 3).keys, (s.until (k.probeAt + 100000000)).keyUsable key = true) := by decide +kernel

/-- A handshake's admission in the first second, and one after a thousand others. -/
theorem test_handshakes :
    ((packeted carrying).udpPort ≠ none ∧ (packeted carrying).subExists 4 = true ∧ ((packeted carrying).subPort 4).up = true ∧
      ((packeted carrying).subPort 4).hsCount < 1000) ∧
    (carrying.keys ≠ [] ∧ carrying.state = .up ∧ ({ packeted carrying with seed := some [1] } : State).seed ≠ none ∧
      soundB { packeted carrying with seed := some [1] } = true) ∧
    (let x := { carrying with state := .rekeying, keys := carrying.keys ++ carrying.keys }
     soundB (packeted x) = true ∧ ((packeted x).assoc 3).state = .rekeying ∧ ((packeted x).assoc 3).keys.length = 2) := by decide +kernel
/-! ### Start-up, power, errors -/

def bank (n : Nat) : StoreBank := { valid := true, seq := n, data := { slot := 0 } }

theorem test_power_on : soundB State.reset = true ∧ State.reset.supply = 0 ∧ State.reset.bankA.valid = false ∧ State.reset.bankB.valid = false ∧
    (∀ p ∈ [(bank 5, ({} : StoreBank)), (bank 5, bank 4), ({}, bank 4), (bank 3, bank 4)],
      let s : State := { State.reset with bankA := p.1, bankB := p.2 }
      soundB s = true ∧ s.supply = 0 ∧ ((s.bankA.valid = true ∧ (s.bankB.valid = false ∨ s.bankB.seq ≤ s.bankA.seq)) ∨
        (s.bankB.valid = true ∧ (s.bankA.valid = false ∨ s.bankA.seq < s.bankB.seq)))) := by decide +kernel

theorem test_mitor_ready : ∀ n ∈ [1, 2], let s : State := { State.reset with supply := n }
    soundB s = true ∧ s.mitorUp = false ∧ s.bootStopped = false ∧ s.musLost = false ∧ s.supply = n ∧ s.layoutDue = false ∧ s.lockout = false ∧
    s.removalPrepared = false := by decide +kernel

theorem test_boots_differ : let s : State := { State.reset with supply := 1, boots := 3 }
    soundB s = true ∧ s.boots ≠ (s.bank s.curBank).data.boots ∧ s.writing = none := by decide +kernel

theorem test_supply : let s := hosted
    soundB s = true ∧ s.supply = 2 ∧ 0 ∈ s.liveParts ∧ (s.evlog 0).events.length + 16 ≤ 1024 ∧ s.lockout = false ∧ s.readings.vin < 36000 ∧ s.softResets = [] ∧
    (let z : State := { s with lockout := true, goodSince := some 4, pwrEn := true, softResets := [1, 2] }
     soundB z = true ∧ z.goodSince = some 4 ∧ z.lockout = true ∧ z.softResets.length = 2) := by decide +kernel

theorem test_resets :
    (let s : State := { hosted with perstN := true, numVfs := 2 }
     soundB s = true ∧ s.supply = 2 ∧ s.fnPresent 0 = true ∧ s.fnPresent 1 = true ∧ s.partOf 0 = some 0 ∧ (s.ctx 0).creditSpace = 1 ∧ s.conf.layout = []) ∧
    (let s : State := { hosted with perstN := true, numVfs := 2, parts := [(0, { live := true, persist := true })] }
     soundB s = true ∧ s.partOf 1 = some 0 ∧ (s.part 0).persist = true) ∧
    (let s : State := { State.reset with perstN := true, supply := 1 }
     soundB s = true ∧ s.supply ≠ 2) := by decide +kernel

/-- Gallery 0 in a power state, with a limit of its rail and one of its die. -/
def powered (g : GalPower) : State := { hosted with cores := [], gals := [(0, g)] }

theorem test_power_states :
    (soundB (powered { st := 3, limits := [(3, (8, 2000)), (4, (16, 2000))] }) = true ∧
      (powered { st := 3, limits := [(3, (8, 2000)), (4, (16, 2000))] }).dieGals 0 = [0] ∧
      mfind ((powered { st := 3, limits := [(3, (8, 2000)), (4, (16, 2000))] }).gal 0).limits 3 = some (8, 2000) ∧
      (powered { st := 3 }).galIdle 0 = true ∧ ((powered { st := 3 }).gal 0).st = 3) ∧
    (∀ g ∈ [({ st := 3, floorStep := 4, rising := true } : GalPower), { st := 3, floorStep := 15, rising := true }, { st := 3, floorStep := 4 }, { st := 3, floorStep := 1 },
        { st := 2 }, { st := 1 }], soundB (powered g) = true ∧ (powered g).gal 0 = g ∧ (powered g).partOfGallery 0 = some 0 ∧ (powered g).capSet 6 0 1000 ≠ 0) ∧
    (let s : State := { State.reset with mitorUp := true }
     soundB s = true ∧ s.taken = [] ∧ s.writing = none) ∧
    (∀ n ∈ [2, 3], let s : State := { State.reset with hbmStacks := [(0, { power := n })] }
     soundB s = true ∧ (s.stack 0).power = n ∧ (s.stack (2 * 0)).power ≠ 0) ∧
    (let s := powered { st := 3 }
     let cap := s.capSet 1 0 3200
     max (s.capSet 2 0 400) 1000 + s.capSet 3 0 350 + 450 ≤ cap - cap / 50 ∧ cap - cap / 50 < max (s.capSet 2 0 400) 3000 + s.capSet 3 0 350 + 450) := by
  decide +kernel

theorem test_thermal :
    (let s := powered { st := 3, limits := [(4, (16, 2000))] }
     soundB s = true ∧ s.tripped = false ∧ (mfind s.readings.dieTemp 0).getD 0 < 1000 ∧ (s.dieHeat 0).crit = false ∧ (s.dieHeat 0).held = [] ∧ (s.dieHeat 0).stepAt = 0 ∧
       mfind (s.gal 0).limits 4 = some (16, 2000) ∧ s.readings.coolant = [] ∧ s.supply ≠ 0) ∧
    (let s : State := { powered { st := 3 } with heat := [(0, { crit := true })], readings := { dieTemp := [(1, 950)] } }
     soundB s = true ∧ (s.dieHeat 0).crit = true) ∧
    (∀ b : Bool, let s : State := { powered { st := 3 } with now := 2000000000, hbmStacks := [(0, { power := 3, refreshOnly := b, refreshSince := 5 })] }
     soundB s = true ∧ (s.stack 0).power ≠ 0 ∧ (s.stack 0).refreshOnly = b ∧ (s.stack 0).refreshSince + 1000000000 < s.now ∧ (0 ∉ (s.dieHeat (0 / 2)).held)) := by
  decide +kernel

theorem test_repairs :
    (let s := hosted
     soundB s = true ∧ (3 ∉ s.conf.repair.narrowed) ∧ s.setting 11 1 ≠ 0 ∧ s.conf.repair.dieLanes = [] ∧ s.conf.repair.units = [] ∧ s.musLost = false ∧
       s.activeMu = 0 ∧ s.partOfGallery (0 / 2) = some 0 ∧ s.setting 16 2 ≠ 0 ∧ s.setting 10 1 ≠ 0 ∧ s.scopes = [] ∧ s.corrTimes = []) ∧
    (let s : State := { hosted with
        mitorUp := true, scopes := [(1, 9)], recalAt := [(5, 3)], corrTimes := [(0, List.replicate 300 (2 ^ 62))]
        conf := { hosted.conf with repair := { hosted.conf.repair with dieLanes := (List.range 4).map (fun i => (3, i, i)), units := [1] } } }
     soundB s = true ∧ (∀ j < 4, ∃ e ∈ s.conf.repair.dieLanes.filter (fun e => decide (e.1 = 3)), e.2.2 = j) ∧ s.conf.repair.units ≠ [] ∧ s.mitorUp = true ∧
       s.scopes ≠ [] ∧ mfind s.recalAt 5 = some 3 ∧ s.spareFor 1 3 0 = false ∧ s.spareFor 1 4 0 = true) := by decide +kernel

theorem test_background :
    (let s : State := { hosted with tableMoves := [⟨0, 3, 0, 0⟩], allocs := [⟨0, 0, 64, .table 0 0⟩] }
     soundB s = true ∧ s.tableRun 0 = some ⟨0, 0, 64, .table 0 0⟩ ∧ 0 + 1 < 64 / 32 ∧ s.moveJobs = []) ∧
    (let s : State := { hosted with scopes := [(1, 9)], activation := some ⟨9, 4, false⟩, writing := some {}, storeDirty := true }
     soundB s = true ∧ s.scopes = [(1, 9)] ∧ s.activation = some ⟨9, 4, false⟩ ∧ s.writing = some {}) ∧
    (let x : SelfTest := ⟨1, 40, 9, false, none, false⟩
     let y : SelfTest := ⟨2, 0, 9, false, none, false⟩
     let s : State := { crewAt demoCrew 0 0 with gals := [(0, { st := 3 })], selfTests := [x, y] }
     soundB s = true ∧ s.selfTests[0]? = some x ∧ s.selfTests[1]? = some y ∧ s.testFree x = true ∧ s.testFree y = false) := by decide +kernel

/-! ### The remaining statements -/

/-- What keeps an instruction from its effect: an outstanding source, a register with an error, a fault of a copy, and a crew that does not run. -/
theorem test_kept_back :
    (∀ x ∈ [{ demoCrew with outs := [⟨0, [.v 0 0 5], false, 7⟩] }, { demoCrew with regErr := [0] }],
      (issueAt (crewAt x (word 1 0 0) 0) demoId).any (fun z => z.i.known && z.i.legal 8 32 && decide (z.i.cls = 1 ∧ z.i.op = 0) &&
        (x.blocked (z.i.sources 8) || decide (x.badSource z.act (z.i.sources 8) = some 0))) = true ∧ soundB (crewAt x (word 1 0 0) 0) = true) ∧
    (∀ x ∈ [{ demoCrew with copyFault := some (3, 64) }, { demoCrew with state := .halted }, { demoCrew with retry := true }],
      (crewAt x (word 1 0 0) 0).crew 0 0 = some x) ∧ State.reset.crew 0 0 = none ∧
    (issueAt (crewAt demoCrew (word 0xF 0 0) 0) demoId).any (fun z => !z.i.known) = true := by decide +kernel

theorem test_formats : (shortOf 8).isSome = true ∧ (shortOf 12).isSome = true ∧ (fp32.unpack 0x3F800000).compare (.fin false 1 0) = some .eq := by decide +kernel

theorem test_ingress_window : soundB hosted = true ∧ (hosted.ctx 0).state ≠ .free ∧ hosted.served = true ∧ (hosted.ctx 0).fn ≠ 1 ∧
    (hosted.ctx 0).expected = 0 ∧ ({ hosted with parts := [(0, { live := true })] } : State).part (1 - 1) = { live := true } := by decide +kernel

/-! ### What else the statements ask of a state -/

/-! #### Thread instructions and packets -/

/-- A store that reaches no translation. -/
theorem test_store_fault : let s := crewAt { single with u := [(0, 2 ^ 40)] } (memWord 8 1 2 1 1 0) 0
    ∃ z, s.Ready demoId z 8 1 ∧
      (match s.checkAccess z (z.requester false) false { w := true } z.threads with
        | (s1, .go as) => decide (firstFault as ≠ none ∧ s1.stalled = false ∧ s1.dropHeld (.crew z.core z.key) = s1 ∧ s1.crew z.core z.key = some z.x ∧
            s1.hbm = s.hbm ∧ s1.slots = s.slots ∧ s1.cores = s.cores)
        | _ => false) = true := readyWith_ready (by decide +kernel)

/-- Under `ORDERED_ATOMICS` an atomic waits for an earlier crew of its launch. -/
theorem test_ordered_atomic : let s := { crewAt { single with idx := 1 } (memWord 9 0 2 2 0 0) 0 with
        launches := [(0, { demoLaunch with options := 4 })] }
    let t : State := s.setCrew 0 1 { single with path := none }
    ∃ z, t.Ready demoId z 9 0 ∧ bit z.options 2 = true ∧ t.earlierCrew z.x.launch z.x.idx = true := readyWith_ready (by decide +kernel)

/-- The one thread of a crew reaches address 0, whose line serves and is not poisoned, with no wait. -/
theorem test_cache_reach :
    (let s := crewAt single (memWord 0xD 0 2 1 1 0) 0
     ∃ z, s.Ready demoId z 0xD 0 ∧ (match (s.advance z).xlate (z.requester false) 0 { r := true } with
      | (s1, .ok pa) => decide (z.threads = [0] ∧ placeOf z.i.space (z.ea 0) = .global 0) && (match s1.locate 0 pa with | .host _ => false | _ => true) &&
          !(s1.paRead (.crew z.core false) 0 z.x.ctx (pa / 128 * 128) 128).1.stalled
      | _ => false) = true) ∧
    (let s := crewAt single (memWord 0xD 1 2 1 1 0) 0
     ∃ z, s.Ready demoId z 0xD 1 ∧ (match (s.advance z).xlate (z.requester false) 0 { r := true } with
      | (s1, .ok pa) => s1.lineServes 0 pa && decide (s1.homePoison 0 pa = 0) && !((s1.reachHome 0 pa).throughSlice 0 pa false false).stalled
      | _ => false) = true) ∧
    (let s := crewAt single (memWord 0xD 2 2 1 1 0) 0
     ∃ z, s.Ready demoId z 0xD 2 ∧ (match (s.advance z).xlate (z.requester false) 0 { r := true } with
      | (s1, .ok _) => !s1.stalled
      | _ => false) = true) :=
  ⟨readyWith_ready (by decide +kernel), readyWith_ready (by decide +kernel), readyWith_ready (by decide +kernel)⟩

/-- A presented access that goes through, and a copy's queue with room. -/
theorem test_retry_effect : let s := (crewAt { demoCrew with retry := true } (memWord 8 0 2 2 0 0) 0).setCrew 0 0 demoCrew
    (match s.nextIssue 0 0 demoCrew with
      | some z => !(s.effect z).stalled
      | none => false) = true ∧ (s.core 0).engine.queue.length < 16 := by decide +kernel

/-- A `FENCE` of the remote operations, with one open. -/
theorem test_fence_open : let p := pkt 0x04 [(16, 1, 4)]
    let s := { stream [p] with kftOpen := [(0, 3)] }
    s.AtPoint 0 p 0x04 ∧ (ctxOf [p]).dueNow 0x04 = none ∧ (ctxOf [p]).earlierRetired p.pid = true ∧ bit (field p.data 16 1) 2 = true ∧ (0, 3) ∈ s.kftOpen ∧
      soundB s = true := by
  unfold State.AtPoint; decide +kernel

/-- A read of a flag that does not wait, in a chain whose end has been passed and in one whose end has not. -/
theorem test_flag_levels : ∀ pos ∈ [0, 64], let l : Level := { base := 0x1000, size := 64, pos }
    let p := { pkt 0x0C [(16, 8, 0x100)] with predicted := false, resume := [l, {}] }
    (stream [p]).AtPoint 0 p 0x0C ∧ (match (stream [p]).spaceRead (sequencer 0) 0 0x100 8 with
      | (s1, .ok d) => !s1.stalled && decide (ofBytes d &&& field p.data 24 8 = field p.data 32 8)
      | _ => false) = true ∧ field p.data 40 1 = 0 ∧ soundB (stream [p]) = true := by
  unfold State.AtPoint; decide +kernel

/-- One thread at an atomic on its own scratch. -/
theorem test_single_atomic : ∀ op < 10, let w := memWord 9 op (if op = 9 then 3 else 2) 2 0 0
    let s := crewAt single w 0
    ∃ z, s.Ready demoId z 9 op ∧ z.threads = [0] ∧ ownAt0 s z [0] = true ∧ (s.core z.core).seq.banks = [] ∧ s.dropHeld (.crew z.core z.key) = s ∧
      bit z.options 2 = false ∧ (s.core 0).scratchPoison = [] ∧ (s.core 0).scratchSoft = [] := fun op h =>
  readyWith_ready ((by decide +kernel : ∀ op < 10, let w := memWord 9 op (if op = 9 then 3 else 2) 2 0 0
    let s := crewAt single w 0
    readyWith s demoId 9 op (fun z => decide (z.threads = [0] ∧ ownAt0 s z [0] = true ∧ (s.core z.core).seq.banks = [] ∧
      s.dropHeld (.crew z.core z.key) = s ∧ bit z.options 2 = false ∧ (s.core 0).scratchPoison = [] ∧ (s.core 0).scratchSoft = [])) = true) op h)
theorem test_sound_single : ∀ w, (crewAt single w 0).Sound := fun w => sound_of (by simp [soundB, crewAt]; decide +kernel)

/-! #### Strokes, copies and caches -/

/-- Nothing is poisoned, nor found with an error, and nothing waits, where the strokes and the copies of the tests begin. -/
theorem test_stroke_data :
    (let s := atPart 6 0 {} {};
      (s.core 0).scratchPoison = [] ∧ (s.core 0).scratchSoft = [] ∧ (s.core 0).array.accPoison = [] ∧ (s.core 0).array.accErr = [] ∧
      (s.core 0).array.rowErr = [] ∧ (s.core 0).seq.srPoison = [] ∧ (s.core 0).seq.srErr = [] ∧ s.stalled = false) ∧
    (∀ v ∈ [2, 3 + 2 ^ 14, 4 + 4 * 2 ^ 14], (waiting v).stalled = false ∧ (waiting v).slot 10000 = { state := .armed, kind := 0, n := 9, remain := 9 } ∧ (waiting v).moves = [] ∧ demoCox.limit = 0) ∧
    (∀ op ∈ [1, 2, 3], let b := descriptor op (if op = 3 then 5 else 0) (if op = 3 then 0x0D else 0)
      let s := copying (demoChain 0) b
      (s.core 0).scratchSoft = [] ∧ (s.core 0).seq.banks = [] ∧ (s.core 0).engine.waiting = [] ∧ soundB s = true ∧ (demoChain 0).area = none ∧
      (demoChain 0).strayed = false ∧ (demoChain 0).desc = none ∧ (demoChain 0).row = 0 ∧ (demoChain 0).got = [] ∧ (demoChain 0).writes = none) := by decide +kernel

theorem flows_of {s : State} (hs : s.hbmStacks = []) (hb : s.buckets = []) : s.Flows := by
  constructor
  · intro k; simp [State.stack, hs, mget]
  · intro k; left; simp [State.bucket, hb, mget]

/-- Where no bucket is set and no stack reports a temperature, everything is served. -/
theorem test_flows :
    (∀ x, (homeAt x [4]).Flows ∧ (homeAt x []).Flows) ∧ (∀ y z l, (answering y z l).Flows) ∧ (∀ x, (sliced x).Flows) ∧ rebuilding.Flows ∧
    (∀ l, (segmented l).Flows) ∧ hosted.Flows :=
  ⟨fun _ => ⟨flows_of rfl rfl, flows_of rfl rfl⟩, fun _ _ _ => flows_of rfl rfl, fun _ => flows_of rfl rfl, flows_of rfl rfl, fun _ => flows_of rfl rfl,
    flows_of rfl rfl⟩

/-- The home of the tests is clean, has its line's bytes in HBM, and is free for a move; a host core holds its line, and a core's way is full. -/
theorem test_clean_homes :
    (∀ x ∈ [({} : HomeLine), { dir := .shared [0] }, { dir := .owned 160 }], let s := homeAt x [4]
      s.hbmPoison = [] ∧ (s.slice (s.homeGallery 0 512)).lines = [] ∧ s.cellOf 0 512 = some 512 ∧ soundB s = true) ∧
    (∀ r ∈ answerRows, (answering { dir := r.2.1, txn := some r.1 } r.2.2 []).cellOf 0 512 = some 512) ∧
    (let s := answering { txn := some (served (.atomic 0 0 2 0 5 0 false) 0) } {} []
     soundB s = true ∧ (s.home 4).txn = some (served (.atomic 0 0 2 0 5 0 false) 0)) ∧
    (let s := answering { txn := some { served (.rdShared 0) 1 with poison := 1 } } {} []
     soundB s = true ∧ (s.home 4).txn = some { served (.rdShared 0) 1 with poison := 1 }) ∧
    (rebuilding.home (lineKey 0 0)).busy = false := by decide +kernel

/-- A way with a dirty line. -/
theorem test_way_lines : let x : Slice := { enable := true, enabled := true, lines := [(16 * 4, { line := 4, dirty := true })] }
    soundB (sliced x) = true ∧ (sliced x).slice 0 = x ∧ mfind x.lines (16 * 4) = some { line := 4, dirty := true } ∧
    (sliced x).cellOf 0 (4 * 128) = some 512 ∧ 0 < (sliced x).setting 1 4 := by decide +kernel

/-! #### Removals and commands of Mitor -/

/-- A line whose error has been found; a drain of a context that ends, one of a core, and a core's substitution with nobody waiting. -/
theorem test_removal_steps :
    (let s := { stream [] with segs := [(2, { demoSegment with lines := [], found := [(3, 5)] })] }
     soundB s = true ∧ (s.seg 2).live = true ∧ mfind (s.seg 2).found 3 = some 5 ∧ mfind demoSegment.found 3 = none) ∧
    (let d : Drain := { obj := .ctx 0, after := .ctxDisable }
     let s := { stream [] with drains := [d] }
     (({ s with drains := s.drains.filter (fun e => decide (e ≠ d)) } : State).endCtx 0).stalled = false) ∧
    (let d : Drain := { obj := .core 0, after := .substitute }
     let s := { stream [] with cores := [], drains := [d], slots := [(1, { state := .armed })] }
     soundB s = true ∧ d.cut = false ∧ d.path = none ∧ s.coreBusy 0 = false ∧ s.slotsOfCore 0 ≠ [] ∧ (stream []).slotsOfCore 0 = [] ∧ (0 ∉ s.retired)) := by
  decide +kernel

theorem test_context_ends :
    (let s := handing (stream []) 0 operator (sub 0x102 [num 1 1 0])
     ((s.cutCtx 0).endCtx 0).stalled = false ∧
       ((((((s.cutCtx 0).dropQueues 0).modCtx 0 Ctx.wasReset).clearCtxBits 0).dropTraces 0).writeCredit 0).stalled = false ∧ s.ctxResizing 0 = false ∧
       (s.ctx 0).creditSpace ≠ 0 ∧ (s.ctx 0).ringSpace ≠ 0) ∧
    (let s := handing (landed {}) 0 operator (sub 0x205 [num 1 1 0, num 2 1 1])
     soundB s = true ∧ (s.dropQueue 0 1).stalled = false ∧ (s.sendQueue 1).entries = []) ∧
    (let c := { demoCrew with state := .halted }
     let s1 := (debugging 4 c).setCrew 0 0 { c with retry := false }
     ((s1.issue 0 0 none).haltAgain 0 0 c.idleFrom).stalled = false) := by decide +kernel

theorem test_memory_ends :
    (let s := handing roomy 0 operator (sub 0x303 [num 1 1 1])
     match mfind s.regions 1 with
     | some r => decide (r.mode ≤ 2 ∧ dieOk (s.part 0).groups 0 r.die = true ∧ s.drains = [] ∧ (s.dropRegion 1 r).stalled = false)
     | none => false) = true ∧
    (let s := handing roomy 9 installer (sub 0x304 [])
     s.pagesOwn 0 0x8000 0x1000 = true) ∧
    (let s := handing (segmented []) 9 installer (sub 0x306 [])
     (match s.setStage2 0 ((s.mapsOf 0).flatMap (cutMap (segAddr 2 0) (segAddr 2 0 + 0x1000))) with
       | some v => !(v.dropRange 0 (segAddr 2 0) 0x1000).stalled
       | none => false) = true) ∧
    (let s : State := { handing (stream []) 9 installer (sub 0x308 []) with linkUp := false, segs := [(2, { demoSegment with lines := [(3, .lost)] })] }
     soundB s = true ∧ (s.segFromHost 2 3 0).stalled = false) := by decide +kernel

theorem test_partition_ends :
    (let s := handing (stream []) 9 installer (sub 0x402 [num 1 1 0, num 4 1 5])
     s.preempting 0 = false ∧ (s.part 0).groups < 2 ^ 32 ∧ s.drains = [] ∧ (∀ n ∈ s.ctxsOf 0, (s.ctx n).creditSpace ≠ 0 ∧ (s.ctx n).ringSpace ≠ 0)) ∧
    (let s := landed {}
     (s.closeAssoc 3).stalled = false) ∧
    (let u := sub 0x502 [num 1 1 4, (2, zeros 16), num 4 1 10]
     u.has 3 = false ∧ (u.bytesOf 2).length = 16 ∧ ({} : SubPort).ip4 = []) := by decide +kernel

/-! #### Fabric -/

theorem test_lane8 :
    (let s := wired { cls := 1, pattern := some (0, 9) } { up := true, offerAt := some 3, offerSeq := 9 }
     soundB s = true ∧ (s.port 1).pattern.map (·.1) = some (4 % 4) ∧ ((s.port 1).served = none ∨ (s.port 1).served = some (4 % 4)) ∧
       (s.port 1).spare = none ∧ (s.port 1).txLane = none ∧ s.subOfLane 1 2 = 4 ∧ (s.subPort 4).offered + 60000000000 ≤ 60000000000) ∧
    (let s := wired { cls := 1, pattern := some (0, 9), txLane := some 2 } { up := true }
     soundB s = true ∧ (s.port 1).txLane = some (beField (laneBytes 5 2 9) 2 1) ∧ (s.port 1).pattern.map (·.1) = some (4 % 4)) ∧
    (let s := wired { cls := 1, spare := some 0 } { up := true }
     soundB s = true ∧ (s.port 1).count ≠ 0 ∧ (s.subPort (4 * 1 + (s.port 1).spare.getD 0)).up = true ∧ (8 ∉ (s.port 1).failed) ∧ (s.port 1).rxLane = none ∧
       (s.port 1).request = none) ∧
    (let s := wired { cls := 1, spare := some 0, rxLane := some 3 } { up := true }
     soundB s = true ∧ (s.port 1).rxLane ≠ none ∧ (s.port 1).spare = some (4 % 4)) := by decide +kernel

/-- Handshake packets: one whose header is not that of Table 12-3, one that reaches Mitor, and one of too many. -/
theorem test_handshake_arrivals :
    let k : HsPacket := { sub := 4, ce := false, len := 80, head := ⟨0x14, 0, 0, 1, 0, 0, 0, 0⟩ }
    let s := packeted carrying
    (s.hsArrive { k with head := { k.head with verType := 0x24 } }).2 = false ∧ (s.hsArrive { k with head := { k.head with flags := 4 } }).2 = false ∧
    hsHeadOk k.head = true ∧ s.subExists k.sub = true ∧ (s.subPort k.sub).up = true ∧ s.udpPort ≠ none ∧ (s.subPort k.sub).hsCount < 1000 ∧
    carrying.state ≠ .idle ∧ carrying.state ≠ .failed ∧ (s.endAssoc 3 .idle 0x25).stalled = false ∧
    ((({ s with assocs := [(3, { carrying with state := .rekeying })] } : State).until 10000000000).endAssoc 3 .failed 0x25).stalled = false := by decide +kernel

/-- What the packets of messages meet: a window of the target, an aligned atomic in it, and messages of its own that wait for an answer. -/
theorem test_performing :
    let x : Assoc := { carrying with
      windows := [(0, { base := 0, size := 0x10000, r := true, w := true, a := true })]
      outMsgs := [{ seq := 0, mop := 2, entry := some 0, len := 8, addr := 0x5000 }, { seq := 1, mop := 4, entry := some 1, len := 8, addr := 0x5000 }] }
    let s : State := { packeted x with stage2 := [⟨0, 0, 0, 0x10000, 64, true, true, true⟩] }
    soundB s = true ∧ s.targetLive (s.assoc 3) = true ∧ x.allows 0x5000 8 (·.w) = true ∧ x.allows 0x5000 8 (·.r) = true ∧ x.allows 0x5000 8 (·.a) = true ∧
      x.allows 0x20000 8 (·.a) = false ∧
    (match s.vaWrite (kftEngine x.target) 0x5000 (zeros 8) with | (w, .ok _) => !w.stalled | _ => false) = true ∧
    (match s.remoteRead 3 { mop := 2, seq := 0, total := 8, addr := 0x5000 } with | (w, .ok _) => !w.stalled | _ => false) = true ∧
    (match s.xlate (kftEngine x.target) 0x5000 { r := true, w := true } with
      | (w, .ok pa) => (match w.locate x.part pa with | .segment _ _ => false | _ => true) &&
        (match w.paRead (.io 4) x.part x.target pa 8 with
          | (v, .ok bs) => !v.stalled && !((v.paWrite (.io 4) x.part x.target pa bs).1).stalled
          | _ => false)
      | _ => false) = true ∧
    (∀ m ∈ x.outMsgs, (match s.vaWrite (kftEngine m.ctx) m.addr (zeros 8) with | (w, .ok _) => !(w.answered 3 m 0).stalled | _ => false) = true ∧
      (s.answered 3 m 0x22).stalled = false) ∧
    (s.slot 20000).mirror = none ∧ aopOf 0 = some 0 ∧ aopOf 7 = none := by decide +kernel

/-! #### Resets and waits -/

/-- A host that resets a module whose one context reports to it. -/
theorem test_cuts : let s : State := { hosted with perstN := true, numVfs := 2 }
    soundB s = true ∧ s.Flows ∧ (∀ k, (s.sendQueue k).entries = []) ∧ ∀ n, (s.ctx n).state ≠ .free → s.CutsAtOnce n := by
  refine ⟨by decide +kernel, flows_of rfl rfl, fun k => rfl, fun n h => ?_⟩
  match n with
  | 0 => exact ⟨by decide +kernel, by decide +kernel, fun _ _ => rfl⟩
  | n + 1 => exact absurd (by simp [State.ctx, hosted, onPf0, stream, streamOf, mget]) h

theorem test_host_waits :
    (let s : State := { hosted with hostReads := [⟨0, 0, 0x100, 5, false⟩] }
     soundB s = true ∧ s.hostReads.find? (fun x => x.is 0 0 0x100 && !x.expired) = some ⟨0, 0, 0x100, 5, false⟩) ∧
    (let s := powered { st := 3 }
     let cap := s.capSet 1 0 3200
     cap - cap / 50 < 3000 + s.capSet 3 0 350 + 450) ∧
    (hosted.resetAsked 0 = false) := by decide +kernel

/-- A self-test of a test that may need memory, in a module whose memory flows. -/
theorem test_flowing_test : let x : SelfTest := ⟨7, 0, 9, false, none, false⟩
    let s : State := { hosted with selfTests := [x] }
    soundB s = true ∧ s.Flows ∧ s.selfTests[0]? = some x := ⟨by decide +kernel, flows_of rfl rfl, rfl⟩

/-! ### Effects, one step each -/

/-- The first result on its way after a step. -/
def firstResult (o : Outcome) : Option (List RegWrite) :=
  match o with
  | .next t => (t.crew 0 0).bind (fun x => (x.outs.head?).map (·.writes))
  | _ => none

def afterStep (o : Outcome) : State := match o with | .next t => t | _ => State.reset

/-- `IADD` with r0 = 0xFFFFFFFF and the 16-bit immediate 2 wraps to 1 (R120). -/
theorem test_iadd_wraps :
    firstResult (exec (.iadd demoId) (crewAt { single with v := [(0, 0xFFFFFFFF)] } (word 1 0 (2 ^ 52 + 2 * 2 ^ 32)) 0)) = some [.v 0 0 1] := by decide +kernel

/-- `IDIV` by zero gives all ones (R120). -/
theorem test_idiv_by_zero :
    firstResult (exec (.idiv demoId) (crewAt { single with v := [(0, 7)] } (word 1 0x13 (2 ^ 52)) 0)) = some [.v 0 0 0xFFFFFFFF] := by decide +kernel

/-- `FADD` of 1 and 1 is 2. -/
theorem test_fadd : firstResult (exec (.fadd demoId) (crewAt { single with v := [(0, 0x3F800000)] } (word 3 0 0) 0)) = some [.v 0 0 0x40000000] := by decide +kernel

/-- A reserved operation makes the crew fault with ILLEGAL_INSTRUCTION (R117). -/
theorem test_illegal : ((afterStep (exec (.iadd demoId) (crewAt demoCrew (word 1 0x7F 0) 0))).crew 0 0).map (fun x => (x.state, x.fault.code)) = some (.faulted, 1) := by
  decide +kernel

/-- `EXIT` of all threads ends the path; `CBAR` with every thread of the crew goes on behind it. -/
theorem test_exit_and_barrier :
    ((afterStep (exec (.exitOp demoId) (crewAt demoCrew (word 7 4 0) 0))).crew 0 0).map (fun x => (x.path, x.exited)) = some (none, 0xFF) ∧
    ((afterStep (exec (.cbar demoId) (crewAt demoCrew (word 7 5 0) 0))).crew 0 0).map (·.path) = some (some (8, 0xFF)) := by decide +kernel

/-- `ST` of r0 to scratch address 0, one thread: four bytes, the lowest first. -/
theorem test_store : ((afterStep (exec (.st demoId) (crewAt { single with v := [(1, 0x04030201)] } (memWord 8 1 2 2 0 0 + 2 ^ 32) 0))).core 0).scratch =
    [(0, 1), (1, 2), (2, 3), (3, 4)] := by decide +kernel

/-- `SET_IDS` at the dispatch point sets the context's pair. -/
theorem test_set_ids : let p := pkt 1 [(16, 2, 7), (18, 2, 9)]
    ((afterStep (exec (.setIds 0) (stream [p]))).ctx 0).curLayer = 7 ∧ ((afterStep (exec (.setIds 0) (stream [p]))).ctx 0).curOper = 9 := by decide +kernel

/-- `ADD` of slot X lands at the start of the next stroke: 5 + (-2) for AG0. -/
theorem test_add_scalar : let w := (2 + 8 * 16 + 8 * 1024 + 0xFFFFFFFE * 2 ^ 32) * 2 ^ 160
    ((afterStep (exec (.addScalar 0) (atPart 7 w { ag := [(0, 5)] } {}))).core 0).seq.writes = [⟨501, 4, 0, .scalar 8 3⟩] := by decide +kernel

/-- The front of the queue runs, and the queue's rest stays. -/
theorem test_queue : ∃ t, step { State.reset with pending := [.muWake, .pwrEnAssert] } = .next t ∧ t.pending = [.pwrEnAssert] := ⟨_, rfl, rfl⟩

/-- No row of the table has bits. -/
theorem test_no_words : decodeTableWord 64 0 = none ∧ State.reset.withFetchWord 64 0 = State.reset := ⟨rfl, rfl⟩

/-! ### Well-formedness: an ill-formed command for each check -/

theorem test_ill_formed : ∀ c ∈ ([.iadd ⟨160, 0, 0⟩, .iadd ⟨0, 4, 0⟩, .iadd ⟨0, 0, 48⟩, .registerWrite ⟨9, 0, 8, 0⟩, .registerWrite ⟨0, 2 ^ 26, 8, 0⟩,
    .registerWrite ⟨0, 0, 0, 0⟩, .registerWrite ⟨0, 0, 9, 0⟩, .registerWrite ⟨0, 0, 1, 256⟩, .probe ⟨32, false, 0, []⟩, .info 11, .flitReplay 16 0, .lockstepMismatch 2,
    .ingressGranule 9 0 0 [], .ingressGranule 0 64 0 [], .nop 64, .crewPlace 160, .sliceDisabled 20, .wayDisable 0 16 ⟨1, [], false⟩, .rdShared 8 0 0, .rdShared 0 0 200,
    .hbmRead 512 0 0 0, .hbmRead 0 0 2 0, .patrolScrub 8 {}, .ldgArrive 40 0 { off := 0, size := 8, store := true }, .segmentRestore 16 0, .linkUp 32, .offerRepeat 8, .remoteWrite 0 8, .kftSend 128 0,
    .bar2Read 9 0 0, .vfEnable 9, .flrVf 0, .flrVf 9, .railThrottle 24, .droopStretch 20 true, .stackPowerDown 8, .thermalSample 5 0] : List Instr),
    c.wf = false := by decide

theorem test_well_formed : ∀ c ∈ ([.iadd ⟨159, 3, 47⟩, .registerWrite ⟨8, 2 ^ 26 - 1, 8, 5⟩, .probe ⟨31, false, 0, []⟩, .info 10, .info 16, .nop 63, .flrVf 8, .thermalSample 4 0] : List Instr),
    c.wf = true := by decide

end Sys2Proof.Tests
end

section
/-! Maps whose keys rise: what a write leaves to be read, without the canonical form that `mwf` asks for. -/

namespace Sys2Proof.Machine

open Sys2Proof

variable {α : Type}

/-- A key below every listed one is not listed. -/
theorem mget_of_forall_lt (d : α) (m : Map α) (k : Nat) (h : ∀ j ∈ m.map (·.1), k < j) : mget d m k = d := by
  cases m with
  | nil => rfl
  | cons e m =>
    have hlt : k < e.1 := h e.1 (by simp)
    simp [mget, hlt, Nat.ne_of_gt hlt]

theorem mget_merase_same {m : Map α} (d : α) (k : Nat) (h : rising m) : mget d (merase m k) k = d := by
  induction m with
  | nil => rfl
  | cons e m ih =>
    obtain ⟨j, w⟩ := e
    obtain ⟨hj, hm⟩ := List.pairwise_cons.1 h
    by_cases hjk : j = k
    · subst hjk
      simpa [merase] using mget_of_forall_lt d m j hj
    · by_cases hlt : k < j
      · simp [merase, mget, hjk, hlt]
      · simpa [merase, mget, hjk, hlt] using ih hm

theorem mget_mset_same_of_rising [DecidableEq α] {m : Map α} (d : α) (k : Nat) (v : α) (h : rising m) :
    mget d (mset d m k v) k = v := by
  by_cases hv : v = d
  · simp [mset, hv, mget_merase_same d k h]
  · exact mget_mset_same_of_ne m k hv

theorem mget_mset_other_of_rising [DecidableEq α] {m : Map α} (d : α) {k k' : Nat} (v : α) (hk : k' ≠ k) (h : rising m) :
    mget d (mset d m k v) k' = mget d m k' := by
  by_cases hv : v = d
  · simp [mset, hv, mget_merase_other d m k k' hk h]
  · rw [mset_eq_minsert m k hv, mget_minsert_other d m k k' v hk]

theorem mset_keeps_rising [DecidableEq α] {m : Map α} (d : α) (k : Nat) (v : α) (h : rising m) : rising (mset d m k v) := by
  unfold mset
  split
  · exact merase_sorted m k h
  · exact minsert_sorted m k v h

/-! ### The tables of a sound state -/

theorem State.Sound.rising_ctxs {s : State} (h : s.Sound) : rising s.ctxs := by
  obtain ⟨_, _, _, hctxs, _⟩ := h
  exact hctxs

theorem State.Sound.rising_funcs {s : State} (h : s.Sound) : rising s.funcs := by
  obtain ⟨_, _, _, _, _, _, _, _, _, _, _, _, _, _, _, hfuncs, _⟩ := h
  exact hfuncs

theorem ctx_setCtx_same_of_rising {s : State} (n : Nat) (x : Ctx) (h : rising s.ctxs) : (s.setCtx n x).ctx n = x :=
  mget_mset_same_of_rising _ n x h

theorem ctx_setCtx_other_of_rising {s : State} {n k : Nat} (x : Ctx) (hk : k ≠ n) (h : rising s.ctxs) :
    (s.setCtx n x).ctx k = s.ctx k :=
  mget_mset_other_of_rising _ x hk h

theorem func_setFunc_same_of_rising {s : State} (n : Nat) (x : Func) (h : rising s.funcs) : (s.setFunc n x).func n = x :=
  mget_mset_same_of_rising _ n x h

theorem func_setFunc_other_of_rising {s : State} {n k : Nat} (x : Func) (hk : k ≠ n) (h : rising s.funcs) :
    (s.setFunc n x).func k = s.func k :=
  mget_mset_other_of_rising _ x hk h

theorem setFunc_keeps_rising {s : State} (n : Nat) (x : Func) (h : rising s.funcs) : rising (s.setFunc n x).funcs :=
  mset_keeps_rising _ n x h

end Sys2Proof.Machine
end

section
/-! The record of a host error (R12, R339): an interrupt that is delivered and a pin that is driven leave it as it is. -/

namespace Sys2Proof.Machine

open Sys2Proof

theorem bit_setBit_same (v i : Nat) : bit (setBit v i true) i = true := by
  have hpos : 0 < 2 ^ i := Nat.two_pow_pos i
  have hsplit : v = v % 2 ^ i + 2 ^ i * (v / 2 ^ i) := (Nat.mod_add_div v (2 ^ i)).symm
  have hset : setBit v i true = v % 2 ^ i + 2 ^ i * (v / 2 ^ i - v / 2 ^ i % 2 + 1) := by
    have hle : v / 2 ^ i % 2 * 2 ^ i ≤ 2 ^ i * (v / 2 ^ i) := by
      rw [Nat.mul_comm]
      exact Nat.mul_le_mul_left _ (Nat.mod_le _ _)
    simp only [setBit, setBits, bits, b2n, if_true, Nat.pow_one, Nat.mul_add, Nat.mul_sub, Nat.mul_one, Nat.one_mod]
    rw [Nat.mul_comm (2 ^ i) (v / 2 ^ i % 2)]
    omega
  rw [bit, hset, Nat.add_mul_div_left _ _ hpos, Nat.div_eq_of_lt (Nat.mod_lt _ hpos), decide_eq_true_eq]
  omega

/-- What a function holds of its host errors: `ATT_HOST`, and the first error captured while it was zero. -/
def Func.hostErrors (f : Func) : Nat × Nat × Bool × Nat × Nat := (f.host, f.errKind, f.errWrite, f.errCtx, f.errAddr)

/-- From s to t no context, no byte of HBM and no function's record of host errors has changed; the functions stay listed in rising
order. -/
def State.KeepsErrors (s t : State) : Prop :=
  t.ctxs = s.ctxs ∧ t.hbm = s.hbm ∧ rising t.funcs ∧ ∀ k, (t.func k).hostErrors = (s.func k).hostErrors

theorem State.KeepsErrors.refl {s : State} (h : rising s.funcs) : s.KeepsErrors s := ⟨rfl, rfl, h, fun _ => rfl⟩

theorem State.KeepsErrors.emit {s t : State} (h : s.KeepsErrors t) (e : OutEvent) : s.KeepsErrors (t.emit e) := h

theorem State.KeepsErrors.setFunc {s t : State} (h : s.KeepsErrors t) {n : Nat} {x : Func} (hx : x.hostErrors = (t.func n).hostErrors) :
    s.KeepsErrors (t.setFunc n x) := by
  obtain ⟨hctxs, hhbm, hrise, herr⟩ := h
  refine ⟨hctxs, hhbm, setFunc_keeps_rising n x hrise, fun k => ?_⟩
  by_cases hk : k = n
  · rw [hk, func_setFunc_same_of_rising n x hrise, hx, herr]
  · rw [func_setFunc_other_of_rising x hk hrise, herr]

theorem State.KeepsErrors.deliver {s t : State} (h : s.KeepsErrors t) (fn : Nat) : s.KeepsErrors (t.deliver fn) := by
  unfold State.deliver
  extract_lets _ u f bound v
  have hu : s.KeepsErrors u := by
    unfold u
    split
    · apply State.KeepsErrors.emit
      exact h.setFunc rfl
    · exact h
  split
  · split
    · exact hu.setFunc rfl
    split
    · exact hu
    split
    · exact hu.setFunc rfl
    split
    · exact hu.setFunc rfl
    · apply State.KeepsErrors.emit
      exact hu.setFunc rfl
  · split
    · exact hu
    have hfn : fn = 0 := by simpa using ‹¬fn ≠ 0›
    have hf : f.hostErrors = (u.func 0).hostErrors := congrArg (fun k => (u.func k).hostErrors) hfn
    have hv : s.KeepsErrors v := hu.setFunc hf
    split
    · split
      · exact hv.emit _
      · exact hv
    split
    · exact hu
    · apply State.KeepsErrors.emit
      exact hu.setFunc hf

theorem State.KeepsErrors.driveAttn {s t : State} (h : s.KeepsErrors t) : s.KeepsErrors t.driveAttn := by
  unfold State.driveAttn
  extract_lets f low u wake
  have hu : s.KeepsErrors u := by
    unfold u
    split
    · exact h
    · exact State.KeepsErrors.emit (t := { t with attnLow := low }) h _
  split
  · exact hu
  · exact State.KeepsErrors.emit (t := { u with wakeLow := wake }) hu _

/-- A function that is written, with the interrupt and the pin that follow from it, holds the host errors that were written. -/
theorem setFunc_deliver_driveAttn {s : State} (fn : Nat) (x : Func) (h : rising s.funcs) :
    let t := ((s.setFunc fn x).deliver fn).driveAttn
    t.ctxs = s.ctxs ∧ t.hbm = s.hbm ∧ (t.func fn).hostErrors = x.hostErrors := by
  have hset : rising (s.setFunc fn x).funcs := setFunc_keeps_rising fn x h
  obtain ⟨hctxs, hhbm, _, herr⟩ := ((State.KeepsErrors.refl hset).deliver fn).driveAttn
  refine ⟨hctxs, hhbm, ?_⟩
  rw [herr fn, func_setFunc_same_of_rising fn x h]

/-- A cause of the host block that is set shows in `ATT_HOST`, and the capture stays. -/
theorem raise_host {s : State} (fn i : Nat) (h : rising s.funcs) :
    let f := s.func fn
    let t := s.raise fn (.host i)
    t.ctxs = s.ctxs ∧ t.hbm = s.hbm ∧
      (t.func fn).hostErrors = (setBit f.host i true, f.errKind, f.errWrite, f.errCtx, f.errAddr) :=
  setFunc_deliver_driveAttn fn _ h

/-- A host error is captured while `ATT_HOST` is zero (R339). -/
theorem hostError_of_clear {s : State} {fn : Nat} (kind : Nat) (write : Bool) (ctx addr : Nat) (h : rising s.funcs)
    (hclear : (s.func fn).host = 0) :
    let t := s.hostError fn kind write ctx addr
    t.ctxs = s.ctxs ∧ t.hbm = s.hbm ∧ (t.func fn).hostErrors = (setBit 0 (kind - 1) true, kind, write, ctx, addr) := by
  simp only [State.hostError, if_pos hclear]
  obtain ⟨hctxs, hhbm, herr⟩ := raise_host fn (kind - 1) (setFunc_keeps_rising fn
    { s.func fn with errKind := kind, errWrite := write, errCtx := ctx, errAddr := addr } h)
  rw [func_setFunc_same_of_rising fn _ h] at herr
  exact ⟨hctxs, hhbm, by rw [herr, hclear]⟩

/-- Behind a host error that stands, only the cause of the next one is set. -/
theorem hostError_of_standing {s : State} {fn : Nat} (kind : Nat) (write : Bool) (ctx addr : Nat) (h : rising s.funcs)
    (hstands : (s.func fn).host ≠ 0) :
    let f := s.func fn
    let t := s.hostError fn kind write ctx addr
    t.ctxs = s.ctxs ∧ t.hbm = s.hbm ∧
      (t.func fn).hostErrors = (setBit f.host (kind - 1) true, f.errKind, f.errWrite, f.errCtx, f.errAddr) := by
  simp only [State.hostError, if_neg hstands]
  exact raise_host fn (kind - 1) h

/-- What R12 and R39 call recorded: no context and no byte of HBM has changed, `REG_ACCESS` is set, and the access at an address is
captured where no host error stood. -/
def State.RecordsWrite (s t : State) (fn addr : Nat) : Prop :=
  t.ctxs = s.ctxs ∧ t.hbm = s.hbm ∧ bit (t.func fn).host 0 = true ∧
    ((s.func fn).host = 0 → (t.func fn).errKind = 1 ∧ (t.func fn).errWrite = true ∧ (t.func fn).errAddr = addr)

/-- A register access error of a write is recorded (R12, R339). -/
theorem hostError_recordsWrite {s : State} (fn ctx addr : Nat) (h : rising s.funcs) :
    s.RecordsWrite (s.hostError fn 1 true ctx addr) fn addr := by
  by_cases hclear : (s.func fn).host = 0
  · obtain ⟨hctxs, hhbm, herr⟩ := hostError_of_clear 1 true ctx addr h hclear
    simp only [Func.hostErrors, Prod.mk.injEq] at herr
    obtain ⟨hhost, hkind, hwrite, -, haddr⟩ := herr
    exact ⟨hctxs, hhbm, by rw [hhost, bit_setBit_same], fun _ => ⟨hkind, hwrite, haddr⟩⟩
  · obtain ⟨hctxs, hhbm, herr⟩ := hostError_of_standing 1 true ctx addr h hclear
    simp only [Func.hostErrors, Prod.mk.injEq] at herr
    obtain ⟨hhost, -⟩ := herr
    exact ⟨hctxs, hhbm, by rw [hhost, bit_setBit_same], fun hzero => absurd hzero hclear⟩

end Sys2Proof.Machine
end

section
/-! The ingress window of a context in BAR0 (R39 to R41). -/

namespace Sys2Proof.Machine

open Sys2Proof

theorem blockAt_ingress {n o : Nat} (hn : n < 64) (ho : o < 0x10000) :
    blockAt (0x02000000 + n * 0x10000 + o) = (.ingress n, o) := by
  have hblock : (0x02000000 + n * 0x10000 + o - 0x2000000) / 0x10000 = n := by omega
  have hoff : (0x02000000 + n * 0x10000 + o) % 0x10000 = o := by omega
  unfold blockAt
  iterate 11 rw [if_neg (by omega)]
  rw [if_pos (by omega), hblock, hoff]

/-- The 8-byte aligned register of an access to the window lies in the window. -/
theorem blockAt_ingress_aligned {n o : Nat} (hn : n < 64) (ho : o < 0x10000) :
    blockAt ((0x02000000 + n * 0x10000 + o) / 8 * 8) = (.ingress n, o / 8 * 8) := by
  rw [show (0x02000000 + n * 0x10000 + o) / 8 * 8 = 0x02000000 + n * 0x10000 + o / 8 * 8 by omega]
  exact blockAt_ingress hn (by omega)

theorem readReg_ingress {s : State} {fn off n o : Nat} (h : blockAt off = (.ingress n, o)) : s.readReg fn off = 0 := by
  simp [State.readReg, h]

theorem deadVf_eq_false {s : State} {fn : Nat} (h : fn = 0 ∨ (s.part (fn - 1)).live = true) : s.deadVf fn = false := by
  rcases h with h | h <;> simp [State.deadVf, h]

theorem writeReg_ingress_foreign {s : State} {fn off n o : Nat} (m v : Nat) (h : blockAt off = (.ingress n, o))
    (hlive : s.deadVf fn = false) (hfree : (s.ctx n).state ≠ .free) (hfn : (s.ctx n).fn ≠ fn) : s.writeReg fn off m v = none := by
  simp [State.writeReg, h, hlive, hfree, hfn]

theorem accAligned_of_off_mod {a : HostAccess} (h : (a.size = 8 ∧ a.off % 8 = 0) ∨ (a.size = 4 ∧ a.off % 4 = 0)) :
    accAligned a = true := by
  simpa [accAligned] using h

/-- An aligned read of a register that reads zero answers zero. -/
theorem exec_read_of_zero {s : State} {a : HostAccess} (hfn : a.fn ≤ 8) (hs : s.served = true) (ha : accAligned a = true)
    (h : s.readReg a.fn (a.off / 8 * 8) = 0) : exec (.badRegisterAccess a false) s = .next (s.emit (.regData a.fn 0)) := by
  change execBadRegisterAccess a false s = _
  simp [execBadRegisterAccess, Nat.not_lt.2 hfn, hs, ha, h]

/-- A write that no register takes is discarded and recorded. -/
theorem exec_write_of_none {s : State} {a : HostAccess} (hfn : a.fn ≤ 8) (hs : s.served = true) (h : s.tryWrite a = none) :
    exec (.registerWrite a) s = .next (s.badAccess a true) := by
  change execRegisterWrite a s = _
  simp [execRegisterWrite, Nat.not_lt.2 hfn, hs, State.regWrite, h]

/-- The functions that the window serves: R337 leaves a VF without a partition out. -/
theorem ingress_served {s : State} {fn : Nat} (hs : s.served = true) (hlive : fn = 0 ∨ (s.part (fn - 1)).live = true) :
    ¬(s.served = false ∨ (fn ≠ 0 ∧ (s.part (fn - 1)).live = false)) := by
  rintro (h | ⟨h0, hpart⟩)
  · simp [hs] at h
  · simp [h0, hpart] at hlive

theorem exec_ingressGranule_foreign {s : State} {fn n : Nat} (o : Nat) (bytes : List Byte) (hs : s.served = true)
    (hlive : fn = 0 ∨ (s.part (fn - 1)).live = true) (hfree : (s.ctx n).state ≠ .free) (hfn : (s.ctx n).fn ≠ fn) :
    exec (.ingressGranule fn n o bytes) s = .next (s.hostError fn 1 true 0 (0x02000000 + n * 0x10000 + o)) := by
  change execIngressGranule fn n o bytes s = _
  simp only [execIngressGranule, if_neg (ingress_served hs hlive), if_pos (And.intro hfree hfn)]

theorem exec_ingressGranule_owner {s : State} {fn n : Nat} (o : Nat) (bytes : List Byte) (hs : s.served = true)
    (hlive : fn = 0 ∨ (s.part (fn - 1)).live = true) (hfn : (s.ctx n).fn = fn) (hrem : s.removalPrepared = false) :
    exec (.ingressGranule fn n o bytes) s = .next (s.granules n (bytes.length / 64 + 2) o bytes) := by
  change execIngressGranule fn n o bytes s = _
  have hown : ¬((s.ctx n).state ≠ .free ∧ (s.ctx n).fn ≠ fn) := fun h => h.2 hfn
  have hstays : ¬(s.removalPrepared = true) := by simp [hrem]
  simp only [execIngressGranule, if_neg (ingress_served hs hlive), if_neg hown, if_neg hstays]

/-- A write of one whole granule is that granule. -/
theorem granules_of_one {s : State} {o : Nat} {bytes : List Byte} (n : Nat) (hlen : bytes.length = 64) (ho : o % 64 = 0) :
    s.granules n (bytes.length / 64 + 2) o bytes = s.granule n o bytes := by
  have hne : bytes ≠ [] := by
    rintro rfl
    simp at hlen
  simp [State.granules, hlen, ho, hne, List.take_of_length_le, List.drop_of_length_le]

/-- R41, R43: a granule at the expected offset, within the credit, is accepted: only its own context changes. -/
theorem granule_accepted {s : State} {n o : Nat} (bytes : List Byte) (hrise : rising s.ctxs) (hreset : s.resetAsked n = false)
    (hact : (s.ctx n).state = .active) (ho : (s.ctx n).expected = o)
    (hcredit : (s.ctx n).accepted + 64 - (s.ctx n).consumed ≤ 262144) :
    ((s.granule n o bytes).ctx n).accepted = (s.ctx n).accepted + 64 ∧ ∀ k, k ≠ n → (s.granule n o bytes).ctx k = s.ctx k := by
  simp only [State.granule, hreset, hact, ho, hcredit, ne_eq, not_true, if_false, if_true, Bool.false_eq_true]
  exact ⟨by rw [ctx_setCtx_same_of_rising n _ hrise], fun k hk => ctx_setCtx_other_of_rising _ hk hrise⟩

/-- Settles O55: a read of the window finds no register, the window's owner test refuses a foreign write, which is then recorded as a host
error, and an owner's aligned write of 64 bytes is one granule. -/
theorem ingressWindow : Obligations.IngressWindow := by
  unfold Obligations.IngressWindow
  intro s n o fn data hsound hn ho hfn hserved hlive hfree at' recorded
  refine ⟨fun size hsize => ?_, fun bytes hother => ?_, fun bytes hown hrem hreset hact hlen hexp halign hcredit => ?_⟩
  · intro a
    have hoff : (size = 8 ∧ at' % 8 = 0) ∨ (size = 4 ∧ at' % 4 = 0) := by omega
    have haligned : accAligned a = true := accAligned_of_off_mod hoff
    have hblock : blockAt (a.off / 8 * 8) = (.ingress n, o / 8 * 8) := blockAt_ingress_aligned hn ho
    refine ⟨exec_read_of_zero hfn hserved haligned (readReg_ingress hblock), fun hother => ?_⟩
    have hnone : s.tryWrite a = none := by
      rw [State.tryWrite, if_pos ⟨hfn, haligned⟩]
      exact writeReg_ingress_foreign _ _ hblock (deadVf_eq_false hlive) hfree hother
    exact ⟨_, exec_write_of_none hfn hserved hnone, hostError_recordsWrite fn 0 at' hsound.rising_funcs⟩
  · exact ⟨_, exec_ingressGranule_foreign o bytes hserved hlive hfree hother, hostError_recordsWrite fn 0 at' hsound.rising_funcs⟩
  · refine ⟨_, exec_ingressGranule_owner o bytes hserved hlive hown hrem, ?_⟩
    rw [granules_of_one n hlen halign]
    exact granule_accepted bytes hsound.rising_ctxs hreset hact hexp hcredit

end Sys2Proof.Machine
end

section
/-! What an interrupt, a pin, a notification and a crew fault leave as they were: the memories, the landing slots, and of the cores
their crews and scratch (R94, R95, R363). -/

namespace Sys2Proof.Machine

open Sys2Proof

variable {α β : Type}

/-- Where values are changed in place, what every change keeps of its value reads as before. -/
theorem mget_mmapVals_keeps {g : α → β} {f : Nat → α → α} (h : ∀ k v, g (f k v) = g v) (d : α) (m : Map α) (k : Nat) :
    g (mget d (mmapVals m f) k) = g (mget d m k) := by
  induction m with
  | nil => rfl
  | cons e m ih =>
    obtain ⟨j, w⟩ := e
    simp only [mmapVals, List.map_cons, mget] at ih ⊢
    split
    · exact h j w
    split
    · rfl
    · exact ih

/-! ### The host's side -/

/-- A state without its functions, what has left the module, and its two pins: what an interrupt or a pin cannot change. -/
def State.inner (s : State) : State := { s with funcs := [], out := [], attnLow := false, wakeLow := false }

@[simp] theorem setFunc_inner (s : State) (n : Nat) (x : Func) : (s.setFunc n x).inner = s.inner := rfl

@[simp] theorem emit_inner (s : State) (e : OutEvent) : (s.emit e).inner = s.inner := rfl

@[simp] theorem deliver_inner (s : State) (fn : Nat) : (s.deliver fn).inner = s.inner := by
  unfold State.deliver
  extract_lets u t f bound v
  have ht : t.inner = s.inner := by
    unfold t
    split <;> simp
  have hv : v.inner = s.inner := ht
  split_ifs <;> simp [ht, hv]

@[simp] theorem driveAttn_inner (s : State) : s.driveAttn.inner = s.inner := by
  unfold State.driveAttn
  extract_lets f low t wake
  have ht : t.inner = s.inner := by
    unfold t
    split <;> rfl
  split
  · exact ht
  · exact ht

@[simp] theorem raise_inner (s : State) (fn : Nat) (c : Cause) : (s.raise fn c).inner = s.inner := by simp [State.raise]

theorem raise_logs (s : State) (fn : Nat) (c : Cause) : (s.raise fn c).logs = s.logs := (congrArg State.logs (raise_inner s fn c) :)

/-! ### Work that stays -/

/-- From s to t the memories, the landing slots, and of every core its crews and its scratch are as they were, and t waits for an access
where s does. -/
def State.KeepsWork (s t : State) : Prop :=
  t.hbm = s.hbm ∧ t.slots = s.slots ∧ t.stalled = s.stalled ∧
    ∀ k, (t.core k).crews = (s.core k).crews ∧ (t.core k).scratch = (s.core k).scratch

theorem State.KeepsWork.refl (s : State) : s.KeepsWork s := ⟨rfl, rfl, rfl, fun _ => ⟨rfl, rfl⟩⟩

theorem State.KeepsWork.trans {s t u : State} (h : s.KeepsWork t) (h' : t.KeepsWork u) : s.KeepsWork u := by
  obtain ⟨hhbm, hslots, hst, hcore⟩ := h
  obtain ⟨hhbm', hslots', hst', hcore'⟩ := h'
  exact ⟨hhbm'.trans hhbm, hslots'.trans hslots, hst'.trans hst,
    fun k => ⟨(hcore' k).1.trans (hcore k).1, (hcore' k).2.trans (hcore k).2⟩⟩

theorem State.KeepsWork.crew {s t : State} (h : s.KeepsWork t) (core key : Nat) : t.crew core key = s.crew core key := by
  obtain ⟨-, -, -, hcore⟩ := h
  simp [State.crew, (hcore core).1]

theorem keepsWork_of_cores {s t : State} (hhbm : t.hbm = s.hbm) (hslots : t.slots = s.slots) (hst : t.stalled = s.stalled)
    (hcores : t.cores = s.cores) : s.KeepsWork t :=
  ⟨hhbm, hslots, hst, fun k => by simp [core_of_cores hcores k]⟩

theorem keepsWork_of_unseen {s t : State} (h : t.unseen = s.unseen) (hcores : t.cores = s.cores) : s.KeepsWork t :=
  keepsWork_of_cores (congrArg State.hbm h :) (congrArg State.slots h :) (congrArg State.stalled h :) hcores

theorem keepsWork_of_inner {s t : State} (h : t.inner = s.inner) : s.KeepsWork t :=
  keepsWork_of_cores (congrArg State.hbm h :) (congrArg State.slots h :) (congrArg State.stalled h :) (congrArg State.cores h :)

/-- A launch leaves the list, and every core is changed in place, but for its crews and its scratch. -/
theorem mmapVals_cores_keepsWork (s : State) (launches : Map Launch) {f : Nat → Core → Core} (hcrews : ∀ j k, (f j k).crews = k.crews)
    (hscratch : ∀ j k, (f j k).scratch = k.scratch) : s.KeepsWork { s with launches, cores := mmapVals s.cores f } :=
  ⟨rfl, rfl, rfl, fun k => ⟨mget_mmapVals_keeps hcrews _ _ k, mget_mmapVals_keeps hscratch _ _ k⟩⟩

theorem sample_keepsWork (s : State) : s.KeepsWork s.sample.1 := keepsWork_of_cores rfl rfl rfl rfl

theorem setEvlog_keepsWork (s : State) (fn : Nat) (l : EventLog) : s.KeepsWork (s.setEvlog fn l) := keepsWork_of_cores rfl rfl rfl rfl

theorem notifyFn_keepsWork (s : State) (fn kind : Nat) (body : List Byte) : s.KeepsWork (s.notifyFn fn kind body) := by
  simp only [State.notifyFn]
  split
  · exact (sample_keepsWork s).trans (setEvlog_keepsWork _ _ _)
  · exact ((sample_keepsWork s).trans (setEvlog_keepsWork _ _ _)).trans (keepsWork_of_inner (raise_inner _ _ _))

theorem notifyFn_ite_keepsWork (p : Prop) [Decidable p] (s : State) (fn kind : Nat) (body : List Byte) :
    s.KeepsWork (if p then s.notifyFn fn kind body else s) := by
  split
  · exact notifyFn_keepsWork s fn kind body
  · exact .refl s

theorem modLaunch_keepsWork (s : State) (n : Nat) (f : Launch → Launch) : s.KeepsWork (s.modLaunch n f) := by
  unfold State.modLaunch
  split
  · exact keepsWork_of_cores rfl rfl rfl rfl
  · exact .refl s

theorem traceEvent_keepsWork (s : State) (b pair ev : Nat) (payload : List Byte) : s.KeepsWork (s.traceEvent b pair ev payload) :=
  keepsWork_of_unseen (traceEvent_unseen s b pair ev payload) (traceEvent_cores s b pair ev payload)

theorem foldl_traceEnd_keepsWork (cores : List Nat) (pair tag src ctx status : Nat) (s : State) :
    s.KeepsWork (cores.foldl (fun s c => s.traceEnd c pair tag src ctx status) s) := by
  induction cores generalizing s with
  | nil => exact .refl s
  | cons c cores ih => exact (traceEvent_keepsWork s _ _ _ _).trans (ih _)

theorem packetDone_keepsWork (s : State) (ctx pid status detail : Nat) : s.KeepsWork (s.packetDone ctx pid status detail) :=
  keepsWork_of_cores rfl rfl rfl rfl

/-- A launch ends: its cores give up what they had queued of it, and nothing of what they hold. -/
theorem checkLaunch_keepsWork (s : State) (n : Nat) : s.KeepsWork (s.checkLaunch n) := by
  unfold State.checkLaunch
  split
  · exact .refl s
  rename_i l hl
  split
  · exact .refl s
  extract_lets tag status t u
  have ht : s.KeepsWork t := foldl_traceEnd_keepsWork _ _ _ _ _ _ s
  have hu : t.KeepsWork u := by
    apply mmapVals_cores_keepsWork t (merase t.launches n) <;> exact fun _ _ => rfl
  refine (ht.trans hu).trans ?_
  split
  · exact packetDone_keepsWork _ _ _ _ _
  split
  · split
    · exact packetDone_keepsWork _ _ _ _ _
    · exact packetDone_keepsWork _ _ _ _ _
  · exact packetDone_keepsWork _ _ _ _ _

/-! ### Crew faults -/

/-- A crew with its fault record (R94). -/
def Crew.stoppedBy (x : Crew) (r : FaultRec) : Crew := { x with state := .faulted, fault := r, outs := [], retry := false }

/-- A crew fault puts the stopped crew into its slot; the launch's record, the trace and the session's notification keep the work of the
cores. -/
theorem crewFault_keepsWork {s : State} {core key : Nat} {x : Crew} (r : FaultRec) (h : s.crew core key = some x)
    (hx : x.state ≠ .faulted) : (s.setCrew core key (x.stoppedBy r)).KeepsWork (s.crewFault core key r) := by
  unfold State.crewFault
  simp only [h, if_neg hx]
  refine .trans ?_ (checkLaunch_keepsWork _ _)
  have hset : (s.setCrew core key (x.stoppedBy r)).KeepsWork (s.sample.1.setCrew core key (x.stoppedBy r)) :=
    keepsWork_of_cores rfl rfl rfl rfl
  exact ((hset.trans (modLaunch_keepsWork _ _ _)).trans (traceEvent_keepsWork _ _ _ _ _)).trans (notifyFn_ite_keepsWork _ _ _ _ _)

theorem setCrew_scratch (s : State) (core key k : Nat) (y : Crew) : ((s.setCrew core key y).core k).scratch = (s.core k).scratch := by
  by_cases hk : k = core
  · rw [hk, setCrew_core_same]
  · rw [setCrew_core_other _ _ _ _ _ hk]

theorem issued_keepsWork (s : State) (z : Issue) : s.KeepsWork (s.issued z) := keepsWork_of_unseen (issued_unseen s z) (issued_cores s z)

theorem trap_stalled {s : State} {z : Issue} (code addr thread : Nat) (h : s.crew z.core z.key = some z.x) (hx : z.x.state = .running) :
    (s.trap z code addr thread).stalled = s.stalled := by
  have hissued := issued_keepsWork s z
  obtain ⟨-, -, hst, -⟩ := crewFault_keepsWork ⟨code, addr, z.pc, z.mask, thread⟩ ((hissued.crew _ _).trans h) (by simp [hx])
  obtain ⟨-, -, hst', -⟩ := hissued
  exact hst.trans hst'

/-- A trap of a running crew is the fault that R94 describes. -/
theorem trap_faults {s : State} {z : Issue} (code addr thread : Nat) (h : s.crew z.core z.key = some z.x) (hx : z.x.state = .running) :
    s.Faults z (.next (s.trap z code addr thread)) code addr thread := by
  have hissued := issued_keepsWork s z
  have hfault := crewFault_keepsWork ⟨code, addr, z.pc, z.mask, thread⟩ ((hissued.crew _ _).trans h) (by simp [hx])
  have hcrew := (hfault.crew z.core z.key).trans (setCrew_crew_same _ _ _ _)
  obtain ⟨hhbm, hslots, -, hcore⟩ := hissued
  obtain ⟨hhbm', hslots', -, hcore'⟩ := hfault
  refine ⟨_, rfl, hcrew, hhbm'.trans hhbm, hslots'.trans hslots, fun k => ?_⟩
  calc ((s.trap z code addr thread).core k).scratch
    _ = (((s.issued z).setCrew z.core z.key _).core k).scratch := (hcore' k).2
    _ = ((s.issued z).core k).scratch := setCrew_scratch _ _ _ _ _
    _ = (s.core k).scratch := (hcore k).2

end Sys2Proof.Machine
end

section
/-! What the command of a ready instruction leaves: one crew changed, changed again, or changed after the clocks have moved on. -/

namespace Sys2Proof.Machine

open Sys2Proof

variable {α : Type}

theorem minsert_minsert_same (m : Map α) (k : Nat) (v w : α) : minsert (minsert m k v) k w = minsert m k w := by
  induction m with
  | nil => simp [minsert]
  | cons e m ih =>
    obtain ⟨j, u⟩ := e
    rcases Nat.lt_trichotomy k j with h | h | h
    · simp [minsert, h]
    · simp [minsert, h]
    · simp [minsert, Nat.lt_asymm h, Nat.ne_of_gt h, ih]

theorem modCrew_now (s : State) (core key : Nat) (f : Crew → Crew) : (s.modCrew core key f).now = s.now := by
  unfold State.modCrew
  split <;> rfl

/-! ### One crew changed -/

theorem State.OnlyCrew.stalled {s t : State} {z : Issue} {y : Crew} (h : s.OnlyCrew t z y) : t.stalled = s.stalled :=
  (congrArg State.stalled h.1 :)

theorem State.OnlyCrew.fnOf {s t : State} {z : Issue} {y : Crew} (h : s.OnlyCrew t z y) (q : Nat) : t.fnOf q = s.fnOf q := by
  have hpart : t.part q = s.part q := congrArg (mget ({} : Partition) · q) (congrArg State.parts h.1 :)
  rw [State.fnOf, hpart, State.fnOf]

theorem State.OnlyCrew.evlog {s t : State} {z : Issue} {y : Crew} (h : s.OnlyCrew t z y) (fn : Nat) : t.evlog fn = s.evlog fn := by
  have hlogs : t.logs = s.logs := (congrArg State.logs h.1 :)
  rw [State.evlog, hlogs, State.evlog]

theorem State.OnlyCrew.crew {s t : State} {z : Issue} {y : Crew} (h : s.OnlyCrew t z y) : t.crew z.core z.key = some y := by
  obtain ⟨-, hcore, -⟩ := h
  simp [State.crew, hcore]

theorem State.OnlyCrew.modCrew {s t : State} {z : Issue} {y : Crew} (h : s.OnlyCrew t z y) (f : Crew → Crew) :
    s.OnlyCrew (t.modCrew z.core z.key f) z (f y) := by
  rw [modCrew_of_crew f h.crew]
  obtain ⟨hoff, hcore, hother⟩ := h
  refine ⟨(setCrew_offCores _ _ _ _).trans hoff, ?_, fun k hk => ?_⟩
  · rw [setCrew_core_same, hcore, minsert_minsert_same]
  · rw [setCrew_core_other _ _ _ _ _ hk, hother k hk]

theorem advance_onlyCrew {s : State} {z : Issue} (h : s.crew z.core z.key = some z.x) :
    s.OnlyCrew (s.advance z) z (z.after (s.core z.core).clock [] 0) := finish_onlyCrew h [] 0 false

theorem ready_running {s : State} {c : CrewId} {z : Issue} {cls op : Nat} (h : s.Ready c z cls op) : z.x.state = .running := by
  obtain ⟨-, -, -, hrun, -⟩ := h
  exact hrun

theorem ready_stalled {s : State} {c : CrewId} {z : Issue} {cls op : Nat} (h : s.Ready c z cls op) : s.stalled = false := h.1

/-- A ready instruction whose effect is one crew changed leaves exactly that. -/
theorem thread_leaves {s : State} {c : CrewId} {z : Issue} {cls op : Nat} {y : Crew} (hk : z.i.known = true) (h : s.Ready c z cls op)
    (he : s.OnlyCrew (s.effect z) z y) : s.Leaves z (.next (s.thread c cls op)) y :=
  ⟨_, rfl, by rwa [thread_of_served hk h (he.stalled.trans (ready_stalled h))]⟩

/-- Results that raise no flag are delivered in every participating thread. -/
theorem perThread_onlyCrew {s : State} {z : Issue} (n : Nat) (f : Nat → Nat) (h : s.crew z.core z.key = some z.x) :
    s.OnlyCrew (s.perThread z n (fun t => (f t, 0))) z (z.after (s.core z.core).clock (z.results n f) 0) := by
  rw [perThread_of_no_trap (fun t _ => traps_zero _), foldl_or_zero]
  exact finish_onlyCrew h _ _ _

/-! ### The clocks -/

theorem now_le_traceEvent (s : State) (b pair ev : Nat) (payload : List Byte) : s.now ≤ (s.traceEvent b pair ev payload).now := by
  simp only [State.traceEvent]
  split
  · exact now_le_sample s
  · exact Nat.le_refl _

theorem now_le_wakeGal (s : State) (g : Nat) : s.now ≤ (s.wakeGal g).now := by
  simp only [State.wakeGal]
  split
  · exact now_le_traceEvent (s.setGal g { s.gal g with st := 3 }) _ _ _ _
  · exact Nat.le_refl _

@[simp] theorem count_now (s : State) (c ev src pair n : Nat) : (s.count c ev src pair n).now = s.now := by
  unfold State.count
  split <;> rfl

theorem now_le_finish (s : State) (z : Issue) (ws : List RegWrite) (flags : Nat) (load : Bool) :
    s.now ≤ (s.finish z ws flags load).now := by
  simpa [State.finish, modCrew_now, State.issued] using now_le_wakeGal s (galleryOf z.core)

/-- A core's clock that does not run back reaches a moment, and nothing else of the cores changes. -/
theorem tick_only_clock (s : State) (core v : Nat) (h : (s.core core).clock ≤ v) :
    (s.tick core v).offCores = s.offCores ∧ (s.tick core v).core core = { s.core core with clock := v } ∧
      ∀ k, k ≠ core → (s.tick core v).core k = s.core k := by
  simp only [State.tick]
  split
  · rename_i hv
    rw [Nat.le_antisymm hv h]
    exact ⟨rfl, rfl, fun _ _ => rfl⟩
  · rename_i hv
    have hne : ({ s.core core with clock := v } : Core) ≠ {} := fun e => hv (by simp [show v = 0 from congrArg Core.clock e])
    have hset := mset_eq_minsert s.cores core hne
    refine ⟨rfl, ?_, fun k hk => ?_⟩
    · exact (congrArg (mget {} · core) hset).trans (mget_minsert_same _ _ _ _)
    · exact (congrArg (mget {} · k) hset).trans (mget_minsert_other _ _ _ _ _ hk)

/-- The clock of a core that is read has not run back. -/
theorem clock_le_sampleClock (s : State) (core : Nat) : (s.core core).clock ≤ (s.sampleClock core).2 := Nat.le_add_right _ _

theorem sampleClock_only_clock (s : State) (core : Nat) :
    (s.sampleClock core).1.offCores = s.offCores ∧
      (s.sampleClock core).1.core core = { s.core core with clock := (s.sampleClock core).2 } ∧
      ∀ k, k ≠ core → (s.sampleClock core).1.core k = s.core k :=
  tick_only_clock { s with free := s.free + 1 } core _ (clock_le_sampleClock s core)

end Sys2Proof.Machine
end

section
/-! The system instructions (Table 4-9, class 0xE): moves, the special registers, `NOP` and `BRK` (R104, R112). -/

namespace Sys2Proof.Machine

open Sys2Proof

/-! ### The effect of each operation -/

section
variable {s : State} {c : CrewId} {z : Issue} {op : Nat}

theorem ready_system (h : s.Ready c z 0xE op) : z.i.cls = 0xE ∧ z.i.op = op ∧ legalSystem z.i z.x.regs = true := by
  obtain ⟨-, -, -, -, -, -, -, hcls, hop, hlegal, -, -⟩ := h
  exact ⟨hcls, hop, by simpa [Inst.legal, hcls] using hlegal⟩

theorem known_system (h : s.Ready c z 0xE op) (hop : op ≤ 5) : z.i.known = true := by
  obtain ⟨hcls, hi, -⟩ := ready_system h
  simp [Inst.known, hcls, hi, hop]

theorem effect_nop (h : s.Ready c z 0xE 0) : s.effect z = s.advance z := by
  obtain ⟨hcls, hop, -⟩ := ready_system h
  simp [State.effect, hcls, hop]

theorem effect_mov (h : s.Ready c z 0xE 1) : s.effect z = s.move z := by
  obtain ⟨hcls, hop, -⟩ := ready_system h
  simp [State.effect, hcls, hop]

theorem effect_umov (h : s.Ready c z 0xE 2) : s.effect z = s.umove z := by
  obtain ⟨hcls, hop, -⟩ := ready_system h
  simp [State.effect, hcls, hop]

theorem effect_rds (h : s.Ready c z 0xE 3) : s.effect z = s.readSpecial z := by
  obtain ⟨hcls, hop, -⟩ := ready_system h
  simp [State.effect, hcls, hop]

theorem effect_wrs (h : s.Ready c z 0xE 4) : s.effect z = s.writeFlags z := by
  obtain ⟨hcls, hop, -⟩ := ready_system h
  simp [State.effect, hcls, hop]

theorem effect_brk (h : s.Ready c z 0xE 5) : s.effect z = s.breakpoint z := by
  obtain ⟨hcls, hop, -⟩ := ready_system h
  simp [State.effect, hcls, hop]

end

/-! ### Special registers -/

/-- What each special register of Table 4-1 reads as in a thread, by its number. -/
def State.specials (s : State) (z : Issue) (l : Launch) (t clock time : Nat) : List Nat :=
  [t, z.x.idx % l.gx, z.x.idx / l.gx % l.gy, z.x.idx / l.gx / l.gy, l.gx, l.gy, l.gz, z.x.width, z.core,
    s.pcore (s.ctx z.x.ctx).part z.core, z.key / 48, z.key % 48, z.x.scratchBase, clock, time, z.x.flags, z.x.bb, z.x.lstatus, z.x.lgen,
    z.pc, z.mask]

theorem specialReg_eq_specials {s : State} {z : Issue} {l : Launch} {n : Nat} (t clock time : Nat) (hl : s.launch z.x.launch = some l)
    (hn : n ≤ 0x14) : specialReg s z n t clock time = (s.specials z l t clock time).getD n 0 := by
  simp only [specialReg, hl, Option.getD_some]
  interval_cases n <;> rfl

theorem specialReg_clock (s : State) (z : Issue) (t clock time : Nat) : specialReg s z 0x0D t clock time = clock := rfl

theorem specialReg_time (s : State) (z : Issue) (t clock time : Nat) : specialReg s z 0x0E t clock time = time := rfl

/-- The special register that a legal `RDS` names is in Table 4-1. -/
theorem special_le_of_ready {s : State} {c : CrewId} {z : Issue} (h : s.Ready c z 0xE 3) : z.i.b ≤ 0x14 := by
  obtain ⟨-, hop, hlegal⟩ := ready_system h
  by_contra hb
  have hnone : srRegs z.i.b = none := by
    rw [srRegs, if_neg (by omega), if_neg hb]
  simp [legalSystem, hop, hnone] at hlegal

/-- The width of a special register other than `CLOCK` and `TIME`. -/
theorem srRegs_of_not_clock {n : Nat} (hn : n ≤ 0x14) (hclock : n ≠ 0x0D) (htime : n ≠ 0x0E) :
    (srRegs n).getD 1 = if n = 0x13 ∨ n = 0x14 then 2 else 1 := by
  by_cases hw : n = 0x13 ∨ n = 0x14 <;> simp [srRegs, hclock, htime, hw, hn]

theorem readSpecial_plain {s : State} {z : Issue} (hclock : z.i.b ≠ 0x0D) (htime : z.i.b ≠ 0x0E) :
    s.readSpecial z = s.perThread z ((srRegs z.i.b).getD 1) (fun t => (specialReg s z z.i.b t 0 0, 0)) := by
  simp [State.readSpecial, hclock, htime]

theorem readSpecial_clock {s : State} {z : Issue} (hclock : z.i.b = 0x0D) :
    s.readSpecial z = (s.sampleClock z.core).1.perThread z 2 (fun _ => ((s.sampleClock z.core).2, 0)) := by
  simp [State.readSpecial, hclock, specialReg_clock, srRegs]

theorem readSpecial_time {s : State} {z : Issue} (htime : z.i.b = 0x0E) :
    s.readSpecial z = s.sample.1.perThread z 2 (fun _ => (s.sample.2, 0)) := by
  simp [State.readSpecial, htime, specialReg_time, srRegs]

/-- `RDS` of a register other than `CLOCK` and `TIME` gives its value in every participating thread. -/
theorem readSpecial_plain_onlyCrew {s : State} {z : Issue} {l : Launch} (hcrew : s.crew z.core z.key = some z.x)
    (hl : s.launch z.x.launch = some l) (hn : z.i.b ≤ 0x14) (hclock : z.i.b ≠ 0x0D) (htime : z.i.b ≠ 0x0E) :
    s.OnlyCrew (s.readSpecial z) z (z.after (s.core z.core).clock
      (z.results (if z.i.b = 0x13 ∨ z.i.b = 0x14 then 2 else 1) (fun t => (s.specials z l t 0 0).getD z.i.b 0)) 0) := by
  rw [readSpecial_plain hclock htime, srRegs_of_not_clock hn hclock htime]
  simp only [specialReg_eq_specials _ _ _ hl hn]
  exact perThread_onlyCrew _ _ hcrew

/-- `RDS` of `CLOCK`: the core's clock is read, and the crew gets the value. -/
theorem readSpecial_clock_leaves {s : State} {z : Issue} (hcrew : s.crew z.core z.key = some z.x) (hclock : z.i.b = 0x0D) :
    let v := (s.sampleClock z.core).2
    (s.readSpecial z).offCores = s.offCores ∧
      (s.readSpecial z).core z.core = { s.core z.core with
        clock := v, crews := minsert (s.core z.core).crews z.key (z.after v (z.results 2 (fun _ => v)) 0) } ∧
      ∀ k, k ≠ z.core → (s.readSpecial z).core k = s.core k := by
  intro v
  obtain ⟨hoff, hcore, hother⟩ := sampleClock_only_clock s z.core
  have hcrew' : (s.sampleClock z.core).1.crew z.core z.key = some z.x := by
    rw [← hcrew, State.crew, hcore]
    rfl
  obtain ⟨hoff', hcore', hother'⟩ := perThread_onlyCrew (z := z) 2 (fun _ => v) hcrew'
  rw [readSpecial_clock hclock]
  refine ⟨hoff'.trans hoff, ?_, fun k hk => (hother' k hk).trans (hother k hk)⟩
  rw [hcore', hcore]

/-- `RDS` of `TIME`: the module timestamp is read, and the crew gets the value. -/
theorem readSpecial_time_leaves {s : State} {z : Issue} (hcrew : s.crew z.core z.key = some z.x) (htime : z.i.b = 0x0E) :
    s.sample.2 ≤ (s.readSpecial z).now ∧
      s.OnlyCrew (s.readSpecial z) z (z.after (s.core z.core).clock (z.results 2 (fun _ => s.sample.2)) 0) := by
  rw [readSpecial_time htime]
  refine ⟨?_, perThread_onlyCrew (s := s.sample.1) 2 (fun _ => s.sample.2) hcrew⟩
  rw [perThread_of_no_trap (fun t _ => traps_zero _)]
  exact now_le_finish s.sample.1 z _ _ _

/-! ### Moves and flags -/

theorem move_onlyCrew {s : State} {z : Issue} (hcrew : s.crew z.core z.key = some z.x) :
    let n := if z.i.w64 then 2 else 1
    s.OnlyCrew (s.move z) z (z.after (s.core z.core).clock (z.results n (fun t =>
      if z.i.long ∨ z.i.i16 ∨ z.i.bu then z.x.opB z.i .int t n else z.x.opA z.i t n)) 0) := by
  simpa [State.move, or_assoc] using perThread_onlyCrew _ _ hcrew

theorem umove_eq (s : State) (z : Issue) :
    s.umove z = s.uniform z (if z.i.long then z.i.w1 else if z.i.i16 then immValue .int z.i.imm16 2 else z.x.ureg z.i.a) := by
  cases hlong : z.i.long <;> cases himm : z.i.i16 <;> simp [State.umove, Crew.opBU, hlong, himm]

/-- `WRS` takes the flags from its first participating thread. -/
theorem writeFlags_onlyCrew {s : State} {z : Issue} (hcrew : s.crew z.core z.key = some z.x) :
    s.OnlyCrew (s.writeFlags z) z { z.after (s.core z.core).clock [] 0 with
      flags := match z.threads with | th :: _ => z.x.opA z.i th 1 % 32 | [] => z.x.flags } := by
  unfold State.writeFlags
  cases hts : z.threads with
  | nil => simpa [Issue.after] using advance_onlyCrew hcrew
  | cons th ths => exact (advance_onlyCrew hcrew).modCrew _

/-! ### Breakpoints -/

/-- A notification that finds room joins the queue, with the time at which it was placed (R363). -/
theorem notifyFn_notes {s : State} {fn : Nat} (kind : Nat) (body : List Byte) (h : (s.evlog fn).notes.length < 64) :
    ((s.notifyFn fn kind body).evlog fn).notes = (s.evlog fn).notes ++ [logEntry kind s.sample.2 body] := by
  have hroom : ¬ 64 ≤ (s.sample.1.evlog fn).notes.length := Nat.not_le.2 h
  simp only [State.notifyFn, if_neg hroom]
  rw [State.evlog, raise_logs, State.setEvlog, mget_mset_same_of_ne]
  · rfl
  · intro hempty
    simpa using congrArg EventLog.notes hempty

/-- A crew that has been halted at a moment of its core's clock (R104). -/
def Crew.haltAt (x : Crew) (clock : Nat) : Crew := { x with state := .halted, idleFrom := clock }

/-- The crew that `BRK` halts behind it. -/
def Issue.haltedAt (z : Issue) (clock : Nat) : Crew := (z.after clock [] 0).haltAt clock

/-- The body of the notification that `BRK` sends (R104). -/
def Issue.breakNote (z : Issue) : List Byte :=
  toBytes 2 z.core ++ toBytes 1 (z.key / 48) ++ toBytes 1 (z.key % 48) ++ zeros 4 ++ toBytes 8 z.x.fault.pc

/-- `BRK` with a debug session open: the crew is halted, then the session's function is notified. -/
theorem breakpoint_open {s : State} {z : Issue} (hcrew : s.crew z.core z.key = some z.x)
    (hopen : (s.part (s.ctx z.x.ctx).part).debugOpen = true) :
    ∃ t, s.OnlyCrew t z (z.haltedAt (s.core z.core).clock) ∧
      s.breakpoint z = t.notifyFn (s.fnOf (s.ctx z.x.ctx).part) 0x10 z.breakNote := by
  have hhalt := (advance_onlyCrew hcrew).modCrew (fun x => x.haltAt (s.core z.core).clock)
  refine ⟨_, hhalt, ?_⟩
  rw [← hhalt.fnOf, State.breakpoint, if_pos hopen]
  rfl

theorem breakpoint_closed {s : State} {z : Issue} (hclosed : (s.part (s.ctx z.x.ctx).part).debugOpen = false) :
    s.breakpoint z = s.trap z 0x0D 0 z.lead := by
  simp [State.breakpoint, hclosed, State.trapAt]

/-- R104, with a session open: the crew is halted behind the `BRK`, and its function's queue holds one notification more where it has
room. -/
theorem brk_open {s : State} {c : CrewId} {z : Issue} (h : s.Ready c z 0xE 5)
    (hopen : (s.part (s.ctx z.x.ctx).part).debugOpen = true) :
    let f := s.fnOf (s.ctx z.x.ctx).part
    let u := s.thread c 0xE 5
    u.crew z.core z.key = some (z.haltedAt (s.core z.core).clock) ∧ u.hbm = s.hbm ∧ u.slots = s.slots ∧
      ((s.evlog f).notes.length < 64 → ∃ v, (u.evlog f).notes = (s.evlog f).notes ++ [logEntry 0x10 v z.breakNote]) := by
  intro f u
  obtain ⟨t, ht, heq⟩ := breakpoint_open (ready_crew h) hopen
  have hkeep := notifyFn_keepsWork t f 0x10 z.breakNote
  obtain ⟨hhbm, hslots, hstalled, -⟩ := id hkeep
  have heffect : s.effect z = t.notifyFn f 0x10 z.breakNote := (effect_brk h).trans heq
  have hu : u = t.notifyFn f 0x10 z.breakNote := by
    rw [← heffect]
    exact thread_of_served (known_system h (by omega)) h (by rw [heffect, hstalled, ht.stalled, ready_stalled h])
  rw [hu]
  refine ⟨(hkeep.crew _ _).trans ht.crew, hhbm.trans (congrArg State.hbm ht.1 :), hslots.trans (congrArg State.slots ht.1 :),
    fun hroom => ⟨t.sample.2, ?_⟩⟩
  rw [← ht.evlog] at hroom ⊢
  exact notifyFn_notes 0x10 z.breakNote hroom

/-- R104, without a session: the crew faults with BREAK_UNHANDLED. -/
theorem brk_closed {s : State} {c : CrewId} {z : Issue} (h : s.Ready c z 0xE 5)
    (hclosed : (s.part (s.ctx z.x.ctx).part).debugOpen = false) : s.Faults z (.next (s.thread c 0xE 5)) 0x0D 0 z.lead := by
  have heffect : s.effect z = s.trap z 0x0D 0 z.lead := (effect_brk h).trans (breakpoint_closed hclosed)
  have hstalled : (s.effect z).stalled = false := by
    rw [heffect, trap_stalled _ _ _ (ready_crew h) (ready_running h), ready_stalled h]
  rw [thread_of_served (known_system h (by omega)) h hstalled, heffect]
  exact trap_faults 0x0D 0 z.lead (ready_crew h) (ready_running h)

/-! ### The commands -/

/-- R112: `RDS` in its three forms. -/
theorem rds_special {s : State} {c : CrewId} {z : Issue} (h : s.Ready c z 0xE 3) :
    (∀ l, s.launch z.x.launch = some l → z.i.b ≠ 0x0D → z.i.b ≠ 0x0E →
      s.Gives z (.next (s.thread c 0xE 3)) (z.results (if z.i.b = 0x13 ∨ z.i.b = 0x14 then 2 else 1)
        (fun t => (s.specials z l t 0 0).getD z.i.b 0)) 0) ∧
    (z.i.b = 0x0D → ∃ t v, (.next (s.thread c 0xE 3) : Outcome) = .next t ∧ (s.core z.core).clock ≤ v ∧
      t.offCores = s.offCores ∧ t.core z.core = { s.core z.core with
        clock := v, crews := minsert (s.core z.core).crews z.key (z.after v (z.results 2 (fun _ => v)) 0) } ∧
      ∀ j, j ≠ z.core → t.core j = s.core j) ∧
    (z.i.b = 0x0E → ∃ t v, (.next (s.thread c 0xE 3) : Outcome) = .next t ∧ s.now ≤ v ∧ v ≤ t.now ∧
      s.OnlyCrew t z (z.after (s.core z.core).clock (z.results 2 (fun _ => v)) 0)) := by
  have hk := known_system h (by omega)
  have hcrew := ready_crew h
  refine ⟨fun l hl hclock htime => ?_, fun hclock => ?_, fun htime => ?_⟩
  · refine thread_leaves hk h ?_
    rw [effect_rds h]
    exact readSpecial_plain_onlyCrew hcrew hl (special_le_of_ready h) hclock htime
  · obtain ⟨hoff, hcore, hother⟩ := readSpecial_clock_leaves hcrew hclock
    have hsame : (s.readSpecial z).stalled = s.stalled := (congrArg State.stalled hoff :)
    have hstalled : (s.effect z).stalled = false := by rw [effect_rds h, hsame, ready_stalled h]
    rw [thread_of_served hk h hstalled, effect_rds h]
    exact ⟨_, _, rfl, clock_le_sampleClock s z.core, hoff, hcore, hother⟩
  · obtain ⟨hnow, honly⟩ := readSpecial_time_leaves hcrew htime
    have hstalled : (s.effect z).stalled = false := by rw [effect_rds h, honly.stalled, ready_stalled h]
    rw [thread_of_served hk h hstalled, effect_rds h]
    exact ⟨_, _, rfl, now_le_sample s, hnow, honly⟩

/-- Settles O9: each operation of class 0xE changes its own crew alone, but for the clock that `RDS` of `CLOCK` reads, and for `BRK`, which
halts the crew and notifies the open session, or faults. -/
theorem systemInstructions : Obligations.SystemInstructions := by
  unfold Obligations.SystemInstructions
  intro s c z i x k n
  refine ⟨fun h => ?_, fun h => ?_, fun h => ?_, fun h => ?_, fun h => ?_, fun h => ⟨fun hopen => ?_, fun hclosed => ?_⟩⟩
  · exact thread_leaves (known_system h (by omega)) h (effect_nop h ▸ advance_onlyCrew (ready_crew h))
  · exact thread_leaves (known_system h (by omega)) h (effect_mov h ▸ move_onlyCrew (ready_crew h))
  · refine thread_leaves (known_system h (by omega)) h ?_
    rw [effect_umov h, umove_eq]
    exact finish_onlyCrew (ready_crew h) _ _ _
  · exact rds_special h
  · exact thread_leaves (known_system h (by omega)) h (effect_wrs h ▸ writeFlags_onlyCrew (ready_crew h))
  · exact ⟨_, rfl, brk_open h hopen⟩
  · exact brk_closed h hclosed

end Sys2Proof.Machine
end

section
/-! The model's numbers as words: two's complement, bit fields, bit counts and the reversal of a number are operations on `BitVec`. -/

namespace Sys2Proof.Machine

open Sys2Proof

variable {n : Nat}

/-! ### Two's complement -/

theorem sext_eq_toInt (v n : Nat) : sext v n = (BitVec.ofNat n v).toInt := by
  rw [BitVec.toInt_eq_toNat_cond, BitVec.toNat_ofNat]
  cases n with
  | zero => simp [sext, Nat.mod_one]
  | succ k =>
    have hhalf : v % 2 ^ (k + 1) < 2 ^ k ↔ 2 * (v % 2 ^ (k + 1)) < 2 ^ (k + 1) := by omega
    simp [sext, hhalf]

@[simp] theorem sext_toNat (x : BitVec n) : sext x.toNat n = x.toInt := by simp [sext_eq_toInt]

theorem toMod_eq_toNat (z : Int) (n : Nat) : toMod z n = (BitVec.ofInt n z).toNat := by simp [toMod, BitVec.toNat_ofInt]

theorem toMod_lt (z : Int) (n : Nat) : toMod z n < 2 ^ n := toMod_eq_toNat z n ▸ BitVec.isLt _

@[simp] theorem ofNat_toMod (z : Int) (n : Nat) : BitVec.ofNat n (toMod z n) = BitVec.ofInt n z := by
  rw [toMod_eq_toNat, BitVec.ofNat_toNat, BitVec.setWidth_eq]

/-- The high half of a number that is formed in twice the width. -/
theorem extractLsb'_ofInt_high (p : Int) : (BitVec.ofInt (2 * n) p).extractLsb' n n = BitVec.ofInt n (p / 2 ^ n) := by
  have hne : (2 ^ n : Int) ≠ 0 := by positivity
  have hsplit : p / 2 ^ n % 2 ^ n = p % 2 ^ (2 * n) / 2 ^ n % 2 ^ n := by
    conv_lhs => rw [← Int.emod_add_mul_ediv p (2 ^ (2 * n))]
    rw [Nat.two_mul, pow_add, Int.mul_assoc, Int.add_mul_ediv_left _ _ hne, Int.add_mul_emod_self_left]
  have hnonneg : 0 ≤ p % 2 ^ (2 * n) := Int.emod_nonneg _ (by positivity)
  apply BitVec.eq_of_toNat_eq
  rw [BitVec.extractLsb'_toNat, BitVec.toNat_ofInt, BitVec.toNat_ofInt, Nat.shiftRight_eq_div_pow]
  push_cast
  rw [hsplit]
  lift p % 2 ^ (2 * n) to Nat using hnonneg with q
  norm_cast

/-! ### Bits and fields -/

theorem bit_eq_testBit (v i : Nat) : bit v i = v.testBit i := by simp [bit, Nat.testBit_eq_decide_div_mod_eq]

/-- A bit field is the word shifted down and cut. -/
theorem bits_toNat (x : BitVec n) (lo len : Nat) : bits x.toNat lo len = ((x >>> lo).setWidth len).toNat := by
  simp [bits, Nat.shiftRight_eq_div_pow]

theorem setBits_eq_mul_add (v lo len f : Nat) :
    setBits v lo len f = 2 ^ lo * (2 ^ len * (v / 2 ^ lo / 2 ^ len) + f % 2 ^ len) + v % 2 ^ lo := by
  have hlow := Nat.div_add_mod v (2 ^ lo)
  have hfield := Nat.div_add_mod (v / 2 ^ lo) (2 ^ len)
  calc setBits v lo len f
    _ = 2 ^ lo * (2 ^ len * (v / 2 ^ lo / 2 ^ len) + v / 2 ^ lo % 2 ^ len) + v % 2 ^ lo - v / 2 ^ lo % 2 ^ len * 2 ^ lo +
          f % 2 ^ len * 2 ^ lo := by
      rw [hfield, hlow]
      rfl
    _ = 2 ^ lo * (2 ^ len * (v / 2 ^ lo / 2 ^ len) + f % 2 ^ len) + v % 2 ^ lo := by
      rw [Nat.mul_add, Nat.mul_add, Nat.mul_comm (v / 2 ^ lo % 2 ^ len), Nat.mul_comm (f % 2 ^ len)]
      omega

/-- A bit of a number with a field replaced. -/
theorem testBit_setBits (v lo len f i : Nat) :
    (setBits v lo len f).testBit i = if lo ≤ i ∧ i < lo + len then f.testBit (i - lo) else v.testBit i := by
  rw [setBits_eq_mul_add, Nat.testBit_two_pow_mul_add _ (Nat.mod_lt _ (Nat.two_pow_pos lo)),
    Nat.testBit_two_pow_mul_add _ (Nat.mod_lt _ (Nat.two_pow_pos len))]
  simp only [Nat.testBit_mod_two_pow, Nat.testBit_div_two_pow]
  by_cases hlo : i < lo
  · rw [if_pos hlo, if_neg (by omega), decide_eq_true hlo, Bool.true_and]
  by_cases hin : i - lo < len
  · rw [if_neg hlo, if_pos hin, if_pos (by omega), decide_eq_true hin, Bool.true_and]
  · rw [if_neg hlo, if_neg hin, if_neg (by omega), show i - lo - len + len + lo = i by omega]

/-! ### Counts and reversal -/

theorem popcount_eq_countP (n v : Nat) : popcount n v = (List.range n).countP (fun i => v.testBit i) := by
  induction n with
  | zero => rfl
  | succ n ih => rw [popcount, ih, bit_eq_testBit, List.range_succ, List.countP_append, Nat.add_comm, List.countP_singleton]

theorem bitReverse_lt (n v : Nat) : bitReverse n v < 2 ^ n := by
  induction n generalizing v with
  | zero => simp [bitReverse]
  | succ n ih =>
    have := ih (v / 2)
    rw [bitReverse, Nat.pow_succ]
    split <;> omega

theorem testBit_bitReverse {n v i : Nat} (hi : i < n) : (bitReverse n v).testBit i = v.testBit (n - 1 - i) := by
  induction n generalizing v i with
  | zero => omega
  | succ n ih =>
    have htop : bitReverse (n + 1) v = 2 ^ n * (v.testBit 0).toNat + bitReverse n (v / 2) := by
      rw [bitReverse, bit_eq_testBit]
      cases v.testBit 0 <;> simp
    rw [htop, Nat.testBit_two_pow_mul_add _ (bitReverse_lt n _)]
    by_cases hlt : i < n
    · rw [if_pos hlt, ih hlt, Nat.testBit_div_two, show n - 1 - i + 1 = n + 1 - 1 - i by omega]
    · obtain rfl : i = n := by omega
      rw [if_neg hlt, Nat.sub_self, Nat.add_sub_cancel, Nat.sub_self]
      cases v.testBit 0 <;> rfl

theorem ofNat_bitReverse (x : BitVec n) : BitVec.ofNat n (bitReverse n x.toNat) = x.reverse := by
  apply BitVec.eq_of_getLsbD_eq
  intro i hi
  rw [BitVec.getLsbD_ofNat, testBit_bitReverse hi, BitVec.getLsbD_reverse, BitVec.getMsbD, BitVec.getLsbD]

theorem clz_toNat_lt {x : BitVec n} (hx : x ≠ 0) : x.clz.toNat < n := by
  have hlt : x.clz < BitVec.ofNat n n := BitVec.clz_lt_iff_ne_zero.2 hx
  rw [BitVec.lt_def, BitVec.toNat_ofNat] at hlt
  exact hlt.trans_le (Nat.mod_le _ _)

/-- The leading zeros of a word are what its length leaves. -/
theorem clz_toNat (x : BitVec n) : x.clz.toNat = n - bitLen x.toNat := by
  by_cases hx : x = 0
  · rw [BitVec.clz_eq_iff_eq_zero.2 hx]
    simp [hx, bitLen, Nat.mod_eq_of_lt Nat.lt_two_pow_self]
  · have hclz := clz_toNat_lt hx
    have hlow := BitVec.two_pow_sub_clz_le_toNat_of_ne_zero (by omega) hx
    have hhigh := BitVec.toNat_lt_two_pow_sub_clz (x := x)
    have hne : x.toNat ≠ 0 := (Nat.two_pow_pos _).trans_le hlow |>.ne'
    have hlog : x.toNat.log2 = n - 1 - x.clz.toNat :=
      (Nat.log2_eq_iff hne).2 ⟨hlow, by rwa [show n - 1 - x.clz.toNat + 1 = n - x.clz.toNat by omega]⟩
    rw [bitLen, if_neg hne, hlog]
    omega

end Sys2Proof.Machine
end

section
/-! The integer operations of Table 4-9 (class 0x1) on words: what R120 computes on n-bit numbers is an operation of `BitVec n`. -/

namespace Sys2Proof.Machine

open Sys2Proof

/-- An integer operation of Table 4-9 on words of n bits. -/
def intWord (op : Nat) (sgn : Bool) (n : Nat) (a b c : BitVec n) : BitVec n := BitVec.ofNat n (intOp op n sgn a.toNat b.toNat c.toNat)

variable {n : Nat} {sgn : Bool} (a b c : BitVec n)

/-! ### Sums and products -/

theorem intWord_iadd : intWord 0x00 sgn n a b c = a + b := by
  apply BitVec.eq_of_toNat_eq
  simp [intWord, intOp]

theorem intWord_isub : intWord 0x01 sgn n a b c = a - b := by
  have hb := b.isLt
  apply BitVec.eq_of_toNat_eq
  rw [intWord, intOp, BitVec.toNat_ofNat, BitVec.toNat_sub, Nat.mod_mod, show 2 ^ n - b.toNat + a.toNat = a.toNat + 2 ^ n - b.toNat by omega]

theorem intWord_imul : intWord 0x02 sgn n a b c = a * b := by
  apply BitVec.eq_of_toNat_eq
  simp [intWord, intOp]

theorem setWidth_eq_ofInt (v : Nat) : a.setWidth v = BitVec.ofInt v a.toNat := by
  rw [BitVec.ofInt_natCast, BitVec.ofNat_toNat]

/-- The high half of a product, of numbers with or without a sign. -/
theorem intWord_imulh : intWord 0x03 sgn n a b c =
    if sgn then (a.signExtend (2 * n) * b.signExtend (2 * n)).extractLsb' n n
    else (a.setWidth (2 * n) * b.setWidth (2 * n)).extractLsb' n n := by
  cases sgn with
  | true => simp [intWord, intOp, BitVec.signExtend, ← BitVec.ofInt_mul, extractLsb'_ofInt_high]
  | false =>
    simp only [setWidth_eq_ofInt, ← BitVec.ofInt_mul, extractLsb'_ofInt_high]
    simp [intWord, intOp, ← BitVec.ofInt_natCast]

theorem intWord_imad : intWord 0x04 sgn n a b c = a * b + c := by
  apply BitVec.eq_of_toNat_eq
  simp [intWord, intOp]

/-! ### Order and magnitude -/

theorem intWord_imin : intWord 0x05 sgn n a b c = if sgn then (if a.slt b then a else b) else if a.ult b then a else b := by
  cases sgn <;> simp [intWord, intOp, BitVec.slt_eq_decide, BitVec.ult_eq_decide, apply_ite (BitVec.ofNat n)]

theorem intWord_imax : intWord 0x06 sgn n a b c = if sgn then (if a.slt b then b else a) else if a.ult b then b else a := by
  cases sgn <;> simp [intWord, intOp, BitVec.slt_eq_decide, BitVec.ult_eq_decide, apply_ite (BitVec.ofNat n)]

theorem intWord_iabs : intWord 0x07 sgn n a b c = if a.msb then -a else a := by
  rw [intWord, intOp, sext_toNat, ← BitVec.natCast_eq_ofNat]
  cases hmsb : a.msb with
  | true => simp [BitVec.toInt_eq_neg_toNat_neg_of_msb_true hmsb, -BitVec.toNat_neg]
  | false => simp [BitVec.toInt_eq_toNat_of_msb hmsb]

/-! ### Bitwise operations and shifts -/

theorem intWord_and : intWord 0x08 sgn n a b c = a &&& b := by
  apply BitVec.eq_of_toNat_eq
  rw [intWord, intOp, BitVec.toNat_ofNat, BitVec.toNat_and, Nat.mod_eq_of_lt (Nat.and_lt_two_pow _ b.isLt)]

theorem intWord_or : intWord 0x09 sgn n a b c = a ||| b := by
  apply BitVec.eq_of_toNat_eq
  rw [intWord, intOp, BitVec.toNat_ofNat, BitVec.toNat_or, Nat.mod_eq_of_lt (Nat.or_lt_two_pow a.isLt b.isLt)]

theorem intWord_xor : intWord 0x0A sgn n a b c = a ^^^ b := by
  apply BitVec.eq_of_toNat_eq
  rw [intWord, intOp, BitVec.toNat_ofNat, BitVec.toNat_xor, Nat.mod_eq_of_lt (Nat.xor_lt_two_pow a.isLt b.isLt)]

theorem intWord_andn : intWord 0x0B sgn n a b c = a &&& ~~~b := by
  rw [← intWord_and (sgn := sgn) a (~~~b) c, intWord, intWord, intOp, intOp, BitVec.toNat_not]

theorem intWord_shl : intWord 0x0C sgn n a b c = a <<< (b.toNat % n) := by
  apply BitVec.eq_of_toNat_eq
  simp [intWord, intOp, Nat.shiftLeft_eq]

theorem intWord_shr : intWord 0x0D sgn n a b c = if sgn then a.sshiftRight (b.toNat % n) else a >>> (b.toNat % n) := by
  cases sgn with
  | true => simp [intWord, intOp, BitVec.sshiftRight_eq, Int.shiftRight_eq_div_pow]
  | false =>
    apply BitVec.eq_of_toNat_eq
    have hlt : a.toNat / 2 ^ (b.toNat % n) < 2 ^ n := (Nat.div_le_self _ _).trans_lt a.isLt
    simp [intWord, intOp, Nat.shiftRight_eq_div_pow, Nat.mod_eq_of_lt hlt]

/-! ### Counts and reversal -/

theorem intWord_popc : intWord 0x0E sgn n a b c = BitVec.ofNat n ((List.range n).countP (fun i => a.getLsbD i)) := by
  rw [intWord, intOp, popcount_eq_countP]
  rfl

theorem intWord_clz : intWord 0x0F sgn n a b c = a.clz := by
  rw [intWord, intOp, ← clz_toNat, BitVec.ofNat_toNat, BitVec.setWidth_eq]

theorem intWord_brev : intWord 0x10 sgn n a b c = a.reverse := ofNat_bitReverse a

/-! ### Bit fields -/

/-- A field of no bits is 0 with and without a sign. -/
theorem ofNat_extendField {len : Nat} (f : BitVec len) :
    BitVec.ofNat n (if sgn && decide (0 < len) then toMod (sext f.toNat len) n else f.toNat % 2 ^ n) =
      if sgn then f.signExtend n else f.setWidth n := by
  cases sgn with
  | false =>
    apply BitVec.eq_of_toNat_eq
    simp
  | true =>
    cases len with
    | zero => simp [BitVec.of_length_zero, BitVec.signExtend]
    | succ len => simp [BitVec.signExtend]

theorem intWord_bfe : intWord 0x11 sgn n a b c =
    let f := (a >>> (b.toNat % 256)).setWidth (b.toNat / 256 % 256)
    if sgn then f.signExtend n else f.setWidth n := by
  rw [intWord, intOp, bfe, bits_toNat]
  exact ofNat_extendField _

theorem testBit_bfi (a b c : Nat) {i : Nat} (hi : i < n) :
    (bfi n a b c).testBit i =
      if b % 256 ≤ i ∧ i < b % 256 + b / 256 % 256 then a.testBit (i - b % 256) else c.testBit i := by
  unfold bfi
  extract_lets pos stop
  split
  · rw [if_neg (by omega)]
  · rw [testBit_setBits]
    exact if_congr (by omega) rfl rfl

theorem intWord_bfi : intWord 0x12 sgn n a b c =
    let pos := b.toNat % 256
    let mask := (BitVec.allOnes (b.toNat / 256 % 256)).setWidth _ <<< pos
    (c &&& ~~~ mask) ||| ((a <<< pos) &&& mask) := by
  apply BitVec.eq_of_getLsbD_eq
  intro i hi
  rw [intWord, intOp, BitVec.getLsbD_ofNat, testBit_bfi _ _ _ hi, BitVec.testBit_toNat, BitVec.testBit_toNat]
  by_cases hlow : i < b.toNat % 256
  · simp [hi, hlow, Nat.not_le.2 hlow]
  have hle : b.toNat % 256 ≤ i := Nat.not_lt.1 hlow
  by_cases hin : i - b.toNat % 256 < b.toNat / 256 % 256
  · simp [hi, hlow, hle, hin, show i < b.toNat % 256 + b.toNat / 256 % 256 by omega,
      BitVec.getLsbD_eq_getElem (show i - b.toNat % 256 < n by omega)]
  · simp [hi, hlow, hin, show ¬ i < b.toNat % 256 + b.toNat / 256 % 256 by omega]

/-! ### Division -/

theorem sdiv_eq_ofInt : a.sdiv b = BitVec.ofInt n (a.toInt.tdiv b.toInt) := by
  apply BitVec.eq_of_toInt_eq
  rw [BitVec.toInt_sdiv, BitVec.toInt_ofInt]

theorem srem_eq_ofInt : a.srem b = BitVec.ofInt n (a.toInt.tmod b.toInt) := by
  rw [← BitVec.toInt_srem, BitVec.ofInt_toInt]

theorem divide_of_zero {sgn : Bool} (h : b = 0) : divide n sgn a.toNat b.toNat = (2 ^ n - 1, a.toNat) := by simp [divide, h]

theorem divide_unsigned (h : b ≠ 0) : divide n false a.toNat b.toNat = ((a / b).toNat, (a % b).toNat) := by
  have hb : b.toNat ≠ 0 := by simpa [BitVec.toNat_eq] using h
  simp [divide, hb]

/-- The one quotient that leaves the range wraps to the dividend, as the quotient of words does. -/
theorem divide_signed (h : b ≠ 0) : divide n true a.toNat b.toNat = ((a.sdiv b).toNat, (a.srem b).toNat) := by
  have hb : b.toNat ≠ 0 := by simpa [BitVec.toNat_eq] using h
  have hn : 0 < n := Nat.pos_of_ne_zero fun h0 => h (by subst h0; exact BitVec.of_length_zero)
  simp only [divide, if_neg hb, if_true, sext_toNat]
  split
  next hover =>
    obtain ⟨hmin, hone⟩ := hover
    have ha : a = BitVec.intMin n := BitVec.eq_of_toInt_eq (by rw [hmin, BitVec.toInt_intMin_of_pos hn])
    have hb : b = -1#n := BitVec.eq_of_toInt_eq (by rw [hone, BitVec.neg_one_eq_allOnes, BitVec.toInt_allOnes, if_pos hn])
    rw [srem_eq_ofInt, hone]
    simp [ha, hb, BitVec.intMin_sdiv_neg_one]
  next => rw [toMod_eq_toNat, toMod_eq_toNat, sdiv_eq_ofInt, srem_eq_ofInt, Int.tmod_def, Int.mul_comm]

theorem intWord_idiv : intWord 0x13 sgn n a b c = if b = 0 then BitVec.allOnes n else if sgn then a.sdiv b else a / b := by
  rw [intWord, intOp]
  by_cases hb : b = 0
  · rw [divide_of_zero a b hb, if_pos hb, ← BitVec.toNat_allOnes, BitVec.ofNat_toNat, BitVec.setWidth_eq]
  rw [if_neg hb]
  cases sgn with
  | true => simp [divide_signed a b hb]
  | false => rw [divide_unsigned a b hb, BitVec.ofNat_toNat, BitVec.setWidth_eq, if_neg Bool.false_ne_true]

theorem intWord_irem : intWord 0x14 sgn n a b c = if b = 0 then a else if sgn then a.srem b else a % b := by
  change BitVec.ofNat n (divide n sgn a.toNat b.toNat).2 = _
  by_cases hb : b = 0
  · rw [divide_of_zero a b hb, if_pos hb, BitVec.ofNat_toNat, BitVec.setWidth_eq]
  rw [if_neg hb]
  cases sgn with
  | true => simp [divide_signed a b hb]
  | false => rw [divide_unsigned a b hb, BitVec.ofNat_toNat, BitVec.setWidth_eq, if_neg Bool.false_ne_true]

end Sys2Proof.Machine
end

section
/-! Operands and results of thread instructions as words: what an operand field names fits the registers it is read from (R107 to R109,
R116, R118), and a result counts modulo the registers it is written to. -/

namespace Sys2Proof.Machine

open Sys2Proof

/-! ### Operands -/

theorem vreg_lt (x : Crew) (t f n : Nat) : x.vreg t f n < 2 ^ (32 * n) := by
  induction n generalizing f with
  | zero => simp [Crew.vreg]
  | succ n ih =>
    have hlow := (mget 0 x.v (256 * t + f)).isLt
    have hhigh := ih (f + 1)
    rw [Crew.vreg, Nat.mul_succ, Nat.pow_add]
    omega

theorem opA_lt (x : Crew) (i : Inst) (t n : Nat) : x.opA i t n < 2 ^ (32 * n) := vreg_lt x t i.a n

theorem immValue_int_lt (imm n : Nat) : immValue .int imm n < 2 ^ (32 * n) := toMod_lt _ _

theorem opB_int_lt (x : Crew) (i : Inst) (t n : Nat) : x.opB i .int t n < 2 ^ (32 * n) := by
  have hpos : 0 < 2 ^ (32 * n) := Nat.two_pow_pos _
  unfold Crew.opB
  split
  · exact Nat.mod_lt _ hpos
  split
  · exact immValue_int_lt _ n
  split
  · exact Nat.mod_lt _ hpos
  · exact vreg_lt x t i.b n

theorem opC_lt (x : Crew) (i : Inst) (t n : Nat) : x.opC i t n < 2 ^ (32 * n) := by
  unfold Crew.opC
  split
  · exact Nat.mod_lt _ (Nat.two_pow_pos _)
  · exact vreg_lt x t i.c n

theorem ureg_lt (x : Crew) (r : Nat) : x.ureg r < 2 ^ 64 := (mget 0 x.u r).isLt

theorem opBU_lt (x : Crew) {i : Inst} (h : i.w1 < 2 ^ 64) : x.opBU i < 2 ^ 64 := by
  unfold Crew.opBU
  split
  · exact h
  split
  · exact immValue_int_lt _ 2
  · exact ureg_lt x i.b

/-! ### The second instruction word -/

theorem ofBytes_lt (bs : List Byte) : ofBytes bs < 256 ^ bs.length := by
  induction bs with
  | nil => simp [ofBytes]
  | cons b bs ih =>
    have hb : b.toNat < 256 := b.isLt
    rw [ofBytes, List.length_cons, Nat.pow_succ]
    omega

theorem field_lt (bs : List Byte) (off n : Nat) : field bs off n < 256 ^ n :=
  (ofBytes_lt _).trans_le (Nat.pow_le_pow_right (by omega) (List.length_take_le n _))

theorem fetchWord_lt {s : State} {core ctx pc w : Nat} (h : s.fetchWord core ctx pc = some w) : w < 2 ^ 64 := by
  obtain ⟨bs, -, rfl⟩ := Option.map_eq_some_iff.1 h
  exact field_lt bs _ 8

theorem fetch_snd_lt {s : State} {core ctx pc : Nat} {w : Nat × Nat} (h : s.fetch core ctx pc = some w) : w.2 < 2 ^ 64 := by
  unfold State.fetch at h
  split at h
  · split at h
    · obtain ⟨w1, hw1, rfl⟩ := Option.map_eq_some_iff.1 h
      exact fetchWord_lt hw1
    · obtain rfl := Option.some.inj h
      exact Nat.two_pow_pos 64
  · cases h

theorem nextIssue_w1_lt {s : State} {core key : Nat} {x : Crew} {z : Issue} (h : s.nextIssue core key x = some z) : z.i.w1 < 2 ^ 64 := by
  unfold State.nextIssue at h
  split at h
  · split at h
    · rename_i hfetch
      obtain rfl := Option.some.inj h
      exact fetch_snd_lt hfetch
    · cases h
  · cases h

theorem ready_w1_lt {s : State} {c : CrewId} {z : Issue} {cls op : Nat} (h : s.Ready c z cls op) : z.i.w1 < 2 ^ 64 := by
  obtain ⟨-, -, -, -, -, -, hnext, -⟩ := h
  exact nextIssue_w1_lt hnext

/-! ### Results -/

theorem vWrites_mod (t d n x : Nat) : vWrites t d n (x % 2 ^ (32 * n)) = vWrites t d n x := by
  induction n generalizing d x with
  | zero => rfl
  | succ n ih =>
    have hlow : BitVec.ofNat 32 (x % 2 ^ (32 * (n + 1))) = BitVec.ofNat 32 x := by
      apply BitVec.eq_of_toNat_eq
      rw [BitVec.toNat_ofNat, BitVec.toNat_ofNat, Nat.mod_mod_of_dvd _ (Nat.pow_dvd_pow 2 (by omega))]
    have hhigh : x % 2 ^ (32 * (n + 1)) / 2 ^ 32 = x / 2 ^ 32 % 2 ^ (32 * n) := by
      rw [Nat.mul_succ, Nat.add_comm, Nat.pow_add, Nat.mod_mul_right_div_self]
    rw [vWrites, vWrites, hlow, hhigh, ih]

/-- Results that agree as words of their registers are the same writes. -/
theorem results_congr {z : Issue} {n : Nat} {f g : Nat → Nat} (h : ∀ t, BitVec.ofNat (32 * n) (f t) = BitVec.ofNat (32 * n) (g t)) :
    z.results n f = z.results n g := by
  unfold Issue.results
  congr 1
  funext t
  have hmod : f t % 2 ^ (32 * n) = g t % 2 ^ (32 * n) := by simpa using congrArg BitVec.toNat (h t)
  rw [← vWrites_mod, hmod, vWrites_mod]

end Sys2Proof.Machine
end

section
/-! The integer instructions (Table 4-9, class 0x1, R120): in every participating thread, or once on uniform registers. -/

namespace Sys2Proof.Machine

open Sys2Proof

/-! ### Legality -/

/-- A legal instruction of format R outside the system class has a signature, and the forms that the signature allows (R117). -/
theorem sigR_of_legal {i : Inst} {width regs : Nat} (hcls : i.cls < 7 ∨ i.cls = 0xB) (h : i.legal width regs = true) :
    ∃ g, sigR i width = some g ∧ legalR i regs g = true := by
  unfold Inst.legal at h
  split at h
  case h_8 =>
    split at h
    next g hg => exact ⟨g, hg, (Bool.and_eq_true_iff.1 h).1⟩
    next => cases h
  all_goals omega

/-- A uniform register stands in for operands B and C only where those are thread registers (R116). -/
theorem legalR_uniform_operands {i : Inst} {regs : Nat} {g : Sig} (h : legalR i regs g = true) :
    (i.bu = true → g.b.isV = true) ∧ (i.cu = true → g.c.isV = true) := by
  obtain ⟨-, hform⟩ := Bool.and_eq_true_iff.1 h
  refine ⟨fun hbu => ?_, fun hcu => ?_⟩
  · rw [hbu] at hform
    split_ifs at hform <;> simp_all
  · rw [hcu] at hform
    split_ifs at hform <;> simp_all

theorem sigInt_op_le {i : Inst} {g : Sig} (h : sigInt i = some g) : i.op ≤ 0x14 := by
  by_contra hop
  have hne : ∀ k ≤ 0x14, i.op ≠ k := fun k hk => by omega
  simp [sigInt, hop, hne] at h

/-- The operands of a uniform integer instruction are uniform registers of 64 bits (R120). -/
theorem sigInt_uniform {i : Inst} {g : Sig} (huni : i.uni = true) (h : sigInt i = some g) :
    i.w64 = true ∧ g.b.isV = false ∧ g.c.isV = false := by
  have hw : i.w64 = true := by
    by_contra hw
    simp [sigInt, huni, hw] at h
  refine ⟨hw, ?_⟩
  simp only [sigInt, huni, hw] at h
  split_ifs at h <;> obtain rfl := Option.some.inj h <;> exact ⟨rfl, rfl⟩

theorem sigR_int {i : Inst} (width : Nat) (h : i.cls = 1) : sigR i width = sigInt i := by simp [sigR, h]

theorem known_int {i : Inst} {width regs : Nat} (hcls : i.cls = 1) (h : i.legal width regs = true) : i.known = true := by
  obtain ⟨g, hsig, -⟩ := sigR_of_legal (.inl (by omega)) h
  simpa [Inst.known, hcls] using sigInt_op_le (sigR_int width hcls ▸ hsig)

/-- A uniform integer instruction has 64 bits, and nothing stands in for its operands (R120). -/
theorem uniform_int_illegal {i : Inst} (width regs : Nat) (hcls : i.cls = 1) (huni : i.uni = true)
    (hbad : i.w64 = false ∨ i.bu = true ∨ i.cu = true) : i.legal width regs = false := by
  cases hlegal : i.legal width regs with
  | false => rfl
  | true =>
    obtain ⟨g, hsig, hg⟩ := sigR_of_legal (.inl (by omega)) hlegal
    obtain ⟨hw, hb, hc⟩ := sigInt_uniform huni (sigR_int width hcls ▸ hsig)
    obtain ⟨hbu, hcu⟩ := legalR_uniform_operands hg
    rcases hbad with hnarrow | hubad | hubad
    · exact absurd hw (by simp [hnarrow])
    · exact absurd (hbu hubad) (by simp [hb])
    · exact absurd (hcu hubad) (by simp [hc])

/-! ### Execution -/

section
variable {s : State} {c : CrewId} {z : Issue} {op : Nat}

theorem effect_int (h : s.Ready c z 1 op) : s.effect z = s.intClass z := by
  obtain ⟨-, -, -, -, -, -, -, hcls, -⟩ := h
  simp [State.effect, hcls]

theorem intClass_uniform (huni : z.i.uni = true) (hw1 : z.i.w1 < 2 ^ 64) :
    s.intClass z = s.finish z [.u z.i.d (intWord z.i.op z.i.sgnI 64 (BitVec.ofNat 64 (z.x.ureg z.i.a)) (BitVec.ofNat 64 (z.x.opBU z.i))
      (BitVec.ofNat 64 (z.x.ureg z.i.c)))] 0 := by
  rw [intWord, BitVec.toNat_ofNat, BitVec.toNat_ofNat, BitVec.toNat_ofNat, Nat.mod_eq_of_lt (ureg_lt _ _), Nat.mod_eq_of_lt (opBU_lt _ hw1),
    Nat.mod_eq_of_lt (ureg_lt _ _)]
  simp [State.intClass, huni, State.uniform]

/-- What an integer instruction computes in a thread, on words of the registers that it names. -/
def Issue.intResult (z : Issue) (n t : Nat) : BitVec (32 * n) :=
  intWord z.i.op z.i.sgnI (32 * n) (BitVec.ofNat _ (z.x.opA z.i t n)) (BitVec.ofNat _ (z.x.opB z.i .int t n)) (BitVec.ofNat _ (z.x.opC z.i t n))

theorem intResult_eq (n t : Nat) : z.intResult n t =
    BitVec.ofNat (32 * n) (intOp z.i.op (32 * n) z.i.sgnI (z.x.opA z.i t n) (z.x.opB z.i .int t n) (z.x.opC z.i t n)) := by
  rw [Issue.intResult, intWord, BitVec.toNat_ofNat, BitVec.toNat_ofNat, BitVec.toNat_ofNat, Nat.mod_eq_of_lt (opA_lt _ _ _ _),
    Nat.mod_eq_of_lt (opB_int_lt _ _ _ _), Nat.mod_eq_of_lt (opC_lt _ _ _ _)]

theorem intClass_perThread_onlyCrew (hcrew : s.crew z.core z.key = some z.x) (huni : z.i.uni = false) :
    let n := if z.i.w64 then 2 else 1
    s.OnlyCrew (s.intClass z) z (z.after (s.core z.core).clock (z.results n (fun t => (z.intResult n t).toNat)) 0) := by
  intro n
  have hresults : z.results n (fun t => (z.intResult n t).toNat) =
      z.results n (fun t => intOp z.i.op (32 * n) z.i.sgnI (z.x.opA z.i t n) (z.x.opB z.i .int t n) (z.x.opC z.i t n)) :=
    results_congr fun t => by rw [BitVec.ofNat_toNat, BitVec.setWidth_eq, intResult_eq]
  have hclass : s.intClass z = s.perThread z n (fun t =>
      (intOp z.i.op (32 * n) z.i.sgnI (z.x.opA z.i t n) (z.x.opB z.i .int t n) (z.x.opC z.i t n), 0)) := if_neg (by simp [huni])
  rw [hresults, hclass]
  exact perThread_onlyCrew n _ hcrew

/-- R120: an integer instruction gives its operation on words. -/
theorem integer_gives {f : (n : Nat) → BitVec n → BitVec n → BitVec n → BitVec n} (h : s.Ready c z 1 op)
    (hf : ∀ n a b d, intWord op z.i.sgnI n a b d = f n a b d) : s.GivesInt z (.next (s.thread c 1 op)) f := by
  obtain rfl : intWord op z.i.sgnI = f := by
    funext n a b d
    exact hf n a b d
  obtain ⟨-, -, -, -, -, -, -, hcls, hop, hlegal, -⟩ := id h
  subst hop
  have hk := known_int hcls hlegal
  unfold State.GivesInt
  split
  next huni =>
    refine thread_leaves hk h ?_
    rw [effect_int h, intClass_uniform huni (ready_w1_lt h)]
    exact finish_onlyCrew (ready_crew h) _ _ _
  next huni =>
    refine thread_leaves hk h ?_
    rw [effect_int h]
    exact intClass_perThread_onlyCrew (ready_crew h) (by simpa using huni)

end

/-- Settles O2: each operation is the one of `BitVec` that the table names, in the form that the instruction's fields give. -/
theorem integerInstructions : Obligations.IntegerInstructions := by
  unfold Obligations.IntegerInstructions
  intro s c z
  refine ⟨fun h => integer_gives h fun _ => intWord_iadd, fun h => integer_gives h fun _ => intWord_isub,
    fun h => integer_gives h fun _ => intWord_imul, fun h => integer_gives h fun _ => intWord_imulh,
    fun h => integer_gives h fun _ => intWord_imad, fun h => integer_gives h fun _ => intWord_imin,
    fun h => integer_gives h fun _ => intWord_imax, fun h => integer_gives h fun _ => intWord_iabs,
    fun h => integer_gives h fun _ => intWord_and, fun h => integer_gives h fun _ => intWord_or,
    fun h => integer_gives h fun _ => intWord_xor, fun h => integer_gives h fun _ => intWord_andn,
    fun h => integer_gives h fun _ => intWord_shl, fun h => integer_gives h fun _ => intWord_shr,
    fun h => integer_gives h fun _ => intWord_popc, fun h => integer_gives h fun _ => intWord_clz,
    fun h => integer_gives h fun _ => intWord_brev, fun h => integer_gives h fun _ => intWord_bfe,
    fun h => integer_gives h fun _ => intWord_bfi, fun h => integer_gives h fun _ => intWord_idiv,
    fun h => integer_gives h fun _ => intWord_irem, fun i width regs => uniform_int_illegal width regs⟩

end Sys2Proof.Machine
end

section
/-! What a thread instruction's command does where its result is a predicate, where it traps, and where it is not legal (R101, R110,
R117). -/

namespace Sys2Proof.Machine

open Sys2Proof

variable {s : State} {c : CrewId} {z : Issue} {cls op : Nat}

/-! ### Predicates and traps -/

theorem perThreadPred_of_untrapped {f : Nat → Bool × Nat} (h : z.untrapped (fun t => (f t).2)) :
    s.perThreadPred z f = s.finish z (if z.i.d = 7 ∨ z.act = 0 then [] else [.p z.i.d z.act (z.maskWhere (fun t => (f t).1))])
      (z.flagsOf (fun t => (f t).2)) := by
  have hnone : (z.threads.map (fun t => (t, f t))).find? (fun r => traps z.options r.2.2) = none := by
    simpa [List.find?_eq_none, Issue.untrapped] using h
  unfold State.perThreadPred
  simp only [hnone]
  simp [Issue.maskWhere, Issue.flagsOf, List.filter_map, List.foldl_map, Function.comp_def]

theorem perThreadPred_of_trapped {f : Nat → Bool × Nat} {t : Nat} (h : z.threads.find? (fun t => traps z.options (f t).2) = some t) :
    s.perThreadPred z f = s.trap z 0x05 0 t := by
  have hsome : (z.threads.map (fun t => (t, f t))).find? (fun r => traps z.options r.2.2) = some (t, f t) := by
    rw [List.find?_map, Function.comp_def, h]
    rfl
  unfold State.perThreadPred
  simp only [hsome]
  rfl

/-- A ready instruction whose effect is a trap makes its crew fault. -/
theorem thread_faults {code addr thread : Nat} (hk : z.i.known = true) (h : s.Ready c z cls op)
    (he : s.effect z = s.trap z code addr thread) : s.Faults z (.next (s.thread c cls op)) code addr thread := by
  have hstalled : (s.effect z).stalled = false := by
    rw [he, trap_stalled _ _ _ (ready_crew h) (ready_running h), ready_stalled h]
  rw [thread_of_served hk h hstalled, he]
  exact trap_faults _ _ _ (ready_crew h) (ready_running h)

/-- A ready instruction whose effect is a predicate in every participating thread. -/
theorem thread_givesPred {f : Nat → Bool × Nat} (hk : z.i.known = true) (h : s.Ready c z cls op)
    (he : s.effect z = s.perThreadPred z f) : s.GivesPred z (.next (s.thread c cls op)) f := by
  refine ⟨fun huntrapped => thread_leaves hk h ?_, fun t ht => thread_faults hk h ?_⟩
  · rw [he, perThreadPred_of_untrapped huntrapped]
    exact finish_onlyCrew (ready_crew h) _ _ _
  · rw [he, perThreadPred_of_trapped ht]

/-- A ready instruction whose effect is a result of n registers, without flags, in every participating thread. -/
theorem thread_gives_results {n : Nat} {f : Nat → Nat} (hk : z.i.known = true) (h : s.Ready c z cls op)
    (he : s.effect z = s.perThread z n (fun t => (f t, 0))) : s.Gives z (.next (s.thread c cls op)) (z.results n f) 0 :=
  thread_leaves hk h (he ▸ perThread_onlyCrew n f (ready_crew h))

/-- A ready instruction whose effect is a uniform result. -/
theorem thread_gives_uniform {v : Nat} (hk : z.i.known = true) (h : s.Ready c z cls op) (he : s.effect z = s.uniform z v) :
    s.Gives z (.next (s.thread c cls op)) [.u z.i.d (BitVec.ofNat 64 v)] 0 :=
  thread_leaves hk h (he ▸ finish_onlyCrew (ready_crew h) _ _ _)

/-! ### Illegal instructions -/

theorem nextIssue_place {core key : Nat} {x : Crew} (h : s.nextIssue core key x = some z) : z.core = core ∧ z.key = key := by
  unfold State.nextIssue at h
  split at h
  · split at h
    · obtain rfl := Option.some.inj h
      exact ⟨rfl, rfl⟩
    · cases h
  · cases h

/-- An instruction that is not legal makes its crew fault with ILLEGAL_INSTRUCTION; the record names a thread that participates, or the
lowest of the path (log entry 47). -/
theorem thread_of_illegal (h : s.Facing c z) (hcls : z.i.cls = cls) (hop : z.i.op = op)
    (hlegal : z.i.legal z.x.width z.x.regs = false) :
    s.Faults z (.next (s.thread c cls op)) 0x01 0 ((bitList z.x.width z.act).headD z.lead) := by
  obtain ⟨hstalled, holder, hcrew, hrun, hretry, hcopy, hnext⟩ := h
  obtain ⟨hcore, hkey⟩ := nextIssue_place hnext
  have hcrew' : s.crew z.core z.key = some z.x := by rw [hcore, hkey, hcrew]
  have hissue : s.issue c.core (ckey c) (some (cls, op)) = s.trap z 0x01 0 ((bitList z.x.width z.act).headD z.lead) := by
    simp [State.issue, hcrew, hcopy, hnext, hcls, hop, hlegal, State.trapAt]
  have hthread : s.thread c cls op = s.trap z 0x01 0 ((bitList z.x.width z.act).headD z.lead) := by
    simp only [State.thread, hcrew, hrun, hretry, holder, and_self, if_true, hissue]
    exact orWait_of_served _ _ (by rw [trap_stalled _ _ _ hcrew' hrun, hstalled])
  rw [hthread]
  exact trap_faults _ _ _ hcrew' hrun

theorem illegal_of_sigR_none {i : Inst} {width regs : Nat} (hcls : i.cls < 7 ∨ i.cls = 0xB) (h : sigR i width = none) :
    i.legal width regs = false := by
  cases hlegal : i.legal width regs with
  | false => rfl
  | true =>
    obtain ⟨g, hsig, -⟩ := sigR_of_legal hcls hlegal
    simp [h] at hsig

end Sys2Proof.Machine
end

section
/-! Compares, `SEL` and `PLOP` (Table 4-9, class 0x6, R124). -/

namespace Sys2Proof.Machine

open Sys2Proof

/-! ### The table of R124 -/

section
variable {n : Nat} (sgn : Bool) (x y : BitVec n)

/-- A word as a number, with or without a sign. -/
def wordNum : Int := if sgn then x.toInt else x.toNat

/-- The order of words, with or without a sign. -/
def wordLess : Bool := if sgn then x.slt y else x.ult y

theorem wordLess_eq_decide : wordLess sgn x y = decide (wordNum sgn x < wordNum sgn y) := by
  cases sgn <;> simp [wordLess, wordNum, BitVec.slt_eq_decide, BitVec.ult_eq_decide]

theorem wordNum_inj : wordNum sgn x = wordNum sgn y ↔ x = y := by
  cases sgn <;> simp [wordNum, BitVec.toInt_inj, BitVec.toNat_inj]

/-- Whether a condition holds of two words. -/
def wordCompare (cc : Nat) : Bool :=
  match cc with
  | 0 => x == y
  | 1 => x != y
  | 2 => wordLess sgn x y
  | 3 => !wordLess sgn y x
  | 4 => wordLess sgn y x
  | _ => !wordLess sgn x y

theorem intCompare_eq_wordCompare (cc : Nat) : intCompare cc (wordNum sgn x) (wordNum sgn y) = wordCompare sgn x y cc := by
  unfold intCompare wordCompare
  rw [Bool.eq_iff_iff]
  split <;> simp [wordLess_eq_decide, wordNum_inj]

end

/-- Two data are unordered exactly where one is a NaN. -/
theorem compare_isNone (a b : Fp) : (a.compare b).isNone = (a.isNan || b.isNan) := by
  unfold Fp.compare
  split
  next hnan => rw [hnan]; rfl
  next hnan =>
    split <;> simpa using hnan

/-- Whether a condition holds of two data: one that asks for an order holds of no NaN. -/
def Fp.holds (cc : Nat) (a b : Fp) : Bool :=
  match cc with
  | 0 => decide (a.compare b = some .eq)
  | 1 => decide (a.compare b ≠ some .eq)
  | 2 => decide (a.compare b = some .lt)
  | 3 => decide (a.compare b = some .lt ∨ a.compare b = some .eq)
  | 4 => decide (a.compare b = some .gt)
  | 5 => decide (a.compare b = some .gt ∨ a.compare b = some .eq)
  | 6 => !(a.isNan || b.isNan)
  | _ => a.isNan || b.isNan

/-- Whether a condition is an invalid operation on two data: of a signalling NaN always, of any NaN where it asks for an order. -/
def Fp.invalidFor (cc : Nat) (a b : Fp) : Bool :=
  a.isSnan || b.isSnan || ((a.isNan || b.isNan) && decide (2 ≤ cc) && decide (cc ≤ 5))

theorem isNan_of_isSnan {a : Fp} (h : a.isSnan = true) : a.isNan = true := by
  cases a with
  | nan => rfl
  | _ => cases h

theorem invalidFor_of_order {cc : Nat} (a b : Fp) (hlow : 2 ≤ cc) (hhigh : cc ≤ 5) : a.invalidFor cc b = (a.isNan || b.isNan) := by
  have ha := @isNan_of_isSnan a
  have hb := @isNan_of_isSnan b
  rw [Bool.eq_iff_iff]
  simp [Fp.invalidFor, hlow, hhigh]
  tauto

theorem invalidFor_of_no_order {cc : Nat} (a b : Fp) (h : cc < 2 ∨ 5 < cc) : a.invalidFor cc b = (a.isSnan || b.isSnan) := by
  have hcc : (decide (2 ≤ cc) && decide (cc ≤ 5)) = false := by
    rw [← Bool.decide_and]
    exact decide_eq_false (by omega)
  simp [Fp.invalidFor, Bool.and_assoc, hcc]

/-- The model's compare follows the table. -/
theorem cmp_eq (f : Fmt) {cc : Nat} (hcc : cc ≤ 7) (x y : Nat) :
    f.cmp cc x y = some ((f.unpack x).holds cc (f.unpack y), if (f.unpack x).invalidFor cc (f.unpack y) then fInvalid else 0) := by
  have hsome : ((f.unpack x).compare (f.unpack y)).isSome = !((f.unpack x).isNan || (f.unpack y).isNan) := by
    rw [← compare_isNone, Option.not_isNone]
  by_cases horder : 2 ≤ cc ∧ cc ≤ 5
  · obtain ⟨hlow, hhigh⟩ := horder
    rw [invalidFor_of_order _ _ hlow hhigh]
    interval_cases cc <;> simp [Fmt.cmp, Fp.holds, compare_isNone]
  · rw [invalidFor_of_no_order _ _ (by omega)]
    interval_cases cc <;> simp [Fmt.cmp, Fp.holds, compare_isNone, hsome] at horder ⊢

/-! ### Legality -/

theorem sigCmp_op_le {i : Inst} {g : Sig} (h : sigCmp i = some g) : i.op ≤ 4 := by
  by_contra hop
  obtain ⟨k, hk⟩ : ∃ k, i.op = k + 5 := ⟨i.op - 5, by omega⟩
  simp [sigCmp, hk] at h

theorem sigR_cmp {i : Inst} (width : Nat) (h : i.cls = 6) : sigR i width = sigCmp i := by simp [sigR, h]

theorem known_cmp {i : Inst} {width regs : Nat} (hcls : i.cls = 6) (h : i.legal width regs = true) : i.known = true := by
  obtain ⟨g, hsig, -⟩ := sigR_of_legal (.inl (by omega)) h
  simpa [Inst.known, hcls] using sigCmp_op_le (sigR_cmp width hcls ▸ hsig)

/-- A reserved condition (R124): from 6 on for integers, from 8 on for floating-point data. -/
def Inst.reservedCondition (i : Inst) : Prop := (i.op = 0 ∧ 6 ≤ i.cc) ∨ ((i.op = 1 ∨ i.op = 2) ∧ 8 ≤ i.cc)

theorem sigCmp_of_reserved {i : Inst} (h : i.reservedCondition) : sigCmp i = none := by
  rcases h with ⟨hop, hcc⟩ | ⟨hop | hop, hcc⟩
  · simp [sigCmp, hop, Nat.not_le.2 hcc]
  · simp [sigCmp, hop, Nat.not_le.2 hcc]
  · simp [sigCmp, hop, Nat.not_le.2 hcc]

/-! ### Execution -/

section
variable {s : State} {c : CrewId} {z : Issue} {op : Nat}

theorem effect_cmp (h : s.Ready c z 6 op) : s.effect z = s.compareClass z := by
  obtain ⟨-, -, -, -, -, -, -, hcls, -⟩ := h
  simp [State.effect, hcls]

/-- A ready instruction of class 0x6 is known, and its condition is not reserved. -/
theorem ready_cmp (h : s.Ready c z 6 op) : z.i.op = op ∧ z.i.known = true ∧ ¬ z.i.reservedCondition := by
  obtain ⟨-, -, -, -, -, -, -, hcls, hop, hlegal, -⟩ := h
  refine ⟨hop, known_cmp hcls hlegal, fun hbad => ?_⟩
  have hillegal := illegal_of_sigR_none (regs := z.x.regs) (.inl (by omega)) ((sigR_cmp z.x.width hcls).trans (sigCmp_of_reserved hbad))
  simp [hlegal] at hillegal

/-- The registers of an operand of `ICMP` or `SEL`. -/
def Inst.cmpRegs (i : Inst) : Nat := if i.w64C then 2 else 1

theorem num_eq_wordNum {sgn : Bool} {n v : Nat} (hv : v < 2 ^ n) :
    (if sgn then sext v n else (v : Int)) = wordNum sgn (BitVec.ofNat n v) := by
  rw [wordNum, BitVec.toNat_ofNat, Nat.mod_eq_of_lt hv, sext_eq_toInt]

theorem icmp_gives (h : s.Ready c z 6 0) : s.GivesPred z (.next (s.thread c 6 0)) (fun t =>
    (wordCompare z.i.sgnC (BitVec.ofNat (32 * z.i.cmpRegs) (z.x.opA z.i t z.i.cmpRegs))
      (BitVec.ofNat (32 * z.i.cmpRegs) (z.x.opB z.i .int t z.i.cmpRegs)) z.i.cc, 0)) := by
  obtain ⟨hop, hk, -⟩ := ready_cmp h
  refine thread_givesPred hk h ?_
  simp only [effect_cmp h, State.compareClass, hop, ← intCompare_eq_wordCompare, ← num_eq_wordNum (opA_lt _ _ _ _),
    ← num_eq_wordNum (opB_int_lt _ _ _ _)]
  rfl

/-- What a compare of two data of a format answers in a thread, and the flag that it raises. -/
def Issue.floatCompare (z : Issue) (f : Fmt) (t : Nat) : Bool × Nat :=
  let a := f.unpack (f.flushIn (flushes z.options f) (z.x.opA z.i t (f.width / 32)))
  let b := f.unpack (f.flushIn (flushes z.options f) (z.x.opB z.i .top t (f.width / 32)))
  (a.holds z.i.cc b, if a.invalidFor z.i.cc b then fInvalid else 0)

theorem fpCompare_eq_floatCompare (f : Fmt) (hcc : z.i.cc ≤ 7) (t : Nat) :
    fpCompare f z.options z.i.cc (z.x.opA z.i t (f.width / 32)) (z.x.opB z.i .top t (f.width / 32)) = z.floatCompare f t := by
  rw [fpCompare, cmp_eq f hcc]
  rfl

/-- The condition of a ready compare of data is in the table. -/
theorem cc_le_of_ready (h : s.Ready c z 6 op) (hfloat : op = 1 ∨ op = 2) : z.i.cc ≤ 7 := by
  obtain ⟨hop, -, hcond⟩ := ready_cmp h
  by_contra hcc
  exact hcond (.inr ⟨hop ▸ hfloat, by omega⟩)

theorem dcmp_gives (h : s.Ready c z 6 1) : s.GivesPred z (.next (s.thread c 6 1)) (z.floatCompare fp64) := by
  obtain ⟨hop, hk, -⟩ := ready_cmp h
  refine thread_givesPred hk h ?_
  simp only [effect_cmp h, State.compareClass, hop, ← funext (fpCompare_eq_floatCompare fp64 (cc_le_of_ready h (.inl rfl)))]
  rfl

theorem fcmp_gives (h : s.Ready c z 6 2) : s.GivesPred z (.next (s.thread c 6 2)) (z.floatCompare fp32) := by
  obtain ⟨hop, hk, -⟩ := ready_cmp h
  refine thread_givesPred hk h ?_
  simp only [effect_cmp h, State.compareClass, hop, ← funext (fpCompare_eq_floatCompare fp32 (cc_le_of_ready h (.inr rfl)))]
  rfl

theorem sel_gives (h : s.Ready c z 6 3) : s.Gives z (.next (s.thread c 6 3)) (z.results z.i.cmpRegs (fun t =>
    if bit (z.x.pred (z.i.c % 8)) t then z.x.opA z.i t z.i.cmpRegs else z.x.opB z.i .int t z.i.cmpRegs)) 0 := by
  obtain ⟨hop, hk, -⟩ := ready_cmp h
  refine thread_gives_results hk h ?_
  simp only [effect_cmp h, State.compareClass, hop]
  rfl

theorem plop_gives (h : s.Ready c z 6 4) : s.GivesPred z (.next (s.thread c 6 4)) (fun t =>
    (bit z.i.cc (2 * b2n (bit (z.x.pred (z.i.a % 8)) t) + b2n (bit (z.x.pred (z.i.b % 8)) t)), 0)) := by
  obtain ⟨hop, hk, -⟩ := ready_cmp h
  refine thread_givesPred hk h ?_
  simp only [effect_cmp h, State.compareClass, hop]

/-- A compare with a reserved condition is illegal (R117, R124). -/
theorem reserved_faults (h : s.Facing c z) (hcls : z.i.cls = 6) (hop : z.i.op = op) (hbad : z.i.reservedCondition) :
    s.Faults z (.next (s.thread c 6 op)) 0x01 0 ((bitList z.x.width z.act).headD z.lead) :=
  thread_of_illegal h hcls hop
    (illegal_of_sigR_none (.inl (by omega)) ((sigR_cmp _ hcls).trans (sigCmp_of_reserved hbad)))

end

/-- Settles O7: integers compare as words, data by the table of R124, and a reserved condition is an illegal instruction. -/
theorem compareInstructions : Obligations.CompareInstructions := by
  unfold Obligations.CompareInstructions
  intro s c z i float n
  refine ⟨icmp_gives, dcmp_gives, fcmp_gives, fun h hcls hcc => ⟨fun hop => ?_, fun hcc hop => ?_, fun hcc hop => ?_⟩, sel_gives, plop_gives⟩
  · exact reserved_faults h hcls hop (.inl ⟨hop, hcc⟩)
  · exact reserved_faults h hcls hop (.inr ⟨.inl hop, hcc⟩)
  · exact reserved_faults h hcls hop (.inr ⟨.inr hop, hcc⟩)

end Sys2Proof.Machine
end

section
/-! Shuffles, votes and reductions (Table 4-9, class 0xB, R132). -/

namespace Sys2Proof.Machine

open Sys2Proof

/-! ### Legality -/

theorem sigShuffle_op_le {i : Inst} {width : Nat} {g : Sig} (h : sigShuffle i width = some g) : i.op ≤ 0x0A := by
  unfold sigShuffle at h
  split_ifs at h <;> omega

theorem sigR_shuffle {i : Inst} (width : Nat) (h : i.cls = 0xB) : sigR i width = sigShuffle i width := by simp [sigR, h]

theorem known_shuffle {i : Inst} {width regs : Nat} (hcls : i.cls = 0xB) (h : i.legal width regs = true) : i.known = true := by
  obtain ⟨g, hsig, -⟩ := sigR_of_legal (.inr hcls) h
  simpa [Inst.known, hcls] using sigShuffle_op_le (sigR_shuffle width hcls ▸ hsig)

/-- A segment that is reserved, or wider than the crew. -/
theorem sigShuffle_of_wide {i : Inst} {width : Nat} (hop : i.op ≤ 3) (hseg : 5 < i.seg ∨ width < 2 ^ (i.seg + 1)) :
    sigShuffle i width = none := by
  rw [sigShuffle, if_pos hop, if_neg (by omega)]

/-! ### Execution -/

section
variable {s : State} {c : CrewId} {z : Issue} {op : Nat}

theorem effect_shuffle (h : s.Ready c z 0xB op) : s.effect z = s.shuffleClass z := by
  obtain ⟨-, -, -, -, -, -, -, hcls, -⟩ := h
  simp [State.effect, hcls]

theorem ready_shuffle (h : s.Ready c z 0xB op) : z.i.op = op ∧ z.i.known = true := by
  obtain ⟨-, -, -, -, -, -, -, hcls, hop, hlegal, -⟩ := h
  exact ⟨hop, known_shuffle hcls hlegal⟩

/-- `SHFL`: each participating thread reads A of its source. -/
theorem shfl_gives (h : s.Ready c z 0xB op) (hle : op ≤ 3) : s.Gives z (.next (s.thread c 0xB op)) (z.results 1 (fun t =>
    z.x.opA z.i (shuffleSource op z.i.seg z.act t (z.x.opB z.i .int t 1)) 1)) 0 := by
  obtain ⟨hop, hk⟩ := ready_shuffle h
  refine thread_gives_results hk h ?_
  rw [effect_shuffle h]
  interval_cases op <;> simp [State.shuffleClass, hop]

theorem wide_segment_faults (h : s.Facing c z) (hcls : z.i.cls = 0xB) (hseg : 5 < z.i.seg ∨ z.x.width < 2 ^ (z.i.seg + 1))
    (hle : op ≤ 3) (hop : z.i.op = op) :
    s.Faults z (.next (s.thread c 0xB op)) 0x01 0 ((bitList z.x.width z.act).headD z.lead) :=
  thread_of_illegal h hcls hop
    (illegal_of_sigR_none (.inr hcls) ((sigR_shuffle _ hcls).trans (sigShuffle_of_wide (hop ▸ hle) hseg)))

theorem voteAny_gives (h : s.Ready c z 0xB 4) :
    s.GivesPred z (.next (s.thread c 0xB 4)) (fun _ => (decide (z.x.pred (z.i.a % 8) &&& z.act ≠ 0), 0)) := by
  obtain ⟨hop, hk⟩ := ready_shuffle h
  exact thread_givesPred hk h (by simp only [effect_shuffle h, State.shuffleClass, hop])

theorem voteAll_gives (h : s.Ready c z 0xB 5) :
    s.GivesPred z (.next (s.thread c 0xB 5)) (fun _ => (decide (z.x.pred (z.i.a % 8) &&& z.act = z.act), 0)) := by
  obtain ⟨hop, hk⟩ := ready_shuffle h
  exact thread_givesPred hk h (by simp only [effect_shuffle h, State.shuffleClass, hop])

theorem ballot_gives (h : s.Ready c z 0xB 6) :
    s.Gives z (.next (s.thread c 0xB 6)) [.u z.i.d (BitVec.ofNat 64 (z.x.pred (z.i.a % 8) &&& z.act))] 0 := by
  obtain ⟨hop, hk⟩ := ready_shuffle h
  exact thread_gives_uniform hk h (by simp only [effect_shuffle h, State.shuffleClass, hop])

/-- Operand A of the lowest-numbered participating thread, 0 where none participates. -/
def Issue.firstA (z : Issue) : Nat :=
  match z.threads with
  | t :: _ => z.x.opA z.i t 1
  | [] => 0

theorem ufrom_gives (h : s.Ready c z 0xB 0x0A) : s.Gives z (.next (s.thread c 0xB 0x0A)) [.u z.i.d (BitVec.ofNat 64 z.firstA)] 0 := by
  obtain ⟨hop, hk⟩ := ready_shuffle h
  refine thread_gives_uniform hk h ?_
  simp only [effect_shuffle h, State.shuffleClass, hop]
  rfl

/-- The operand of a reduction in a thread, with or without a sign. -/
def Issue.reduxNum (z : Issue) (t : Nat) : Int := if z.i.sgnX then sext (z.x.opA z.i t 1) 32 else (z.x.opA z.i t 1 : Int)

theorem redux_gives (h : s.Ready c z 0xB op) (hlow : 7 ≤ op) (hhigh : op ≤ 9) :
    s.Gives z (.next (s.thread c 0xB op))
      [.u z.i.d (BitVec.ofNat 64 (reduce op z.i.sgnX (z.threads.map (fun t => z.x.opA z.i t 1))))] 0 := by
  obtain ⟨hop, hk⟩ := ready_shuffle h
  refine thread_gives_uniform hk h ?_
  rw [effect_shuffle h]
  interval_cases op <;> simp [State.shuffleClass, hop]

theorem reduce_add (z : Issue) : BitVec.ofNat 64 (reduce 7 z.i.sgnX (z.threads.map (fun t => z.x.opA z.i t 1))) =
    BitVec.ofInt 64 ((z.threads.map z.reduxNum).foldl (· + ·) 0) := by
  simp only [reduce, ofNat_toMod, List.map_map]
  rfl

theorem reduce_min (z : Issue) : BitVec.ofNat 64 (reduce 8 z.i.sgnX (z.threads.map (fun t => z.x.opA z.i t 1))) =
    BitVec.ofInt 64 ((z.threads.map z.reduxNum).foldl min (if z.i.sgnX then 0x7FFFFFFF else 0xFFFFFFFF)) := by
  simp only [reduce, ofNat_toMod, List.map_map]
  rfl

theorem reduce_max (z : Issue) : BitVec.ofNat 64 (reduce 9 z.i.sgnX (z.threads.map (fun t => z.x.opA z.i t 1))) =
    BitVec.ofInt 64 ((z.threads.map z.reduxNum).foldl max (if z.i.sgnX then -0x80000000 else 0)) := by
  simp only [reduce, ofNat_toMod, List.map_map]
  rfl

end

/-- Settles O8: each operation of class 0xB is a result in every participating thread, a predicate or a uniform result; a segment that is
reserved or wider than the crew is an illegal instruction. -/
theorem shuffleInstructions : Obligations.ShuffleInstructions := by
  unfold Obligations.ShuffleInstructions
  intro s c z i n base shuffle num reduced held
  refine ⟨fun h => shfl_gives h (by omega), fun h => shfl_gives h (by omega), fun h => shfl_gives h (by omega),
    fun h => shfl_gives h (by omega), fun h hcls hseg => ⟨?_, ?_, ?_, ?_⟩, voteAny_gives, voteAll_gives, ballot_gives,
    fun h => ?_, fun h => ?_, fun h => ?_, ufrom_gives⟩
  · exact wide_segment_faults h hcls hseg (by omega)
  · exact wide_segment_faults h hcls hseg (by omega)
  · exact wide_segment_faults h hcls hseg (by omega)
  · exact wide_segment_faults h hcls hseg (by omega)
  · have hgives := redux_gives h (by omega) (by omega)
    rwa [reduce_add] at hgives
  · have hgives := redux_gives h (by omega) (by omega)
    rwa [reduce_min] at hgives
  · have hgives := redux_gives h (by omega) (by omega)
    rwa [reduce_max] at hgives

end Sys2Proof.Machine
end

section
/-! Words that are put together from fields: what each field reads (Table 4-10 and the formats of R98). -/

namespace Sys2Proof.Machine

open Sys2Proof

theorem bits_lt (v lo len : Nat) : bits v lo len < 2 ^ len := Nat.mod_lt _ (Nat.two_pow_pos len)

/-- An element of a packed register is read from its own place. -/
theorem bits_packBits {w k : Nat} {l : List Nat} (hk : k < l.length) : bits (packBits w l) (w * k) w = l[k] % 2 ^ w := by
  induction l generalizing k with
  | nil => cases hk
  | cons x l ih =>
    cases k with
    | zero => simp [bits, packBits]
    | succ k =>
      have hrest : (x % 2 ^ w + 2 ^ w * packBits w l) / 2 ^ w = packBits w l := by
        rw [Nat.add_mul_div_left _ _ (Nat.two_pow_pos w), Nat.div_eq_of_lt (Nat.mod_lt _ (Nat.two_pow_pos w)), Nat.zero_add]
      rw [bits, packBits, Nat.mul_succ, Nat.add_comm (w * k), pow_add, ← Nat.div_div_eq_div_mul, hrest]
      exact ih (Nat.lt_of_succ_lt_succ hk)

/-! ### The fields of a datum -/

section
variable {f : Fmt} {neg : Bool} {e m : Nat}

theorem bits_pack_fraction (hm : m < 2 ^ f.mb) : bits (f.pack neg e m) 0 f.mb = m := by
  rw [bits, Fmt.pack, pow_zero, Nat.div_one, Nat.mul_add_mod_of_lt hm]

theorem pack_div_fraction (hm : m < 2 ^ f.mb) : f.pack neg e m / 2 ^ f.mb = b2n neg * 2 ^ f.eb + e := by
  rw [Fmt.pack, Nat.add_comm, Nat.add_mul_div_right _ _ (Nat.two_pow_pos _), Nat.div_eq_of_lt hm, Nat.zero_add]

theorem bits_pack_exponent (he : e < 2 ^ f.eb) (hm : m < 2 ^ f.mb) : bits (f.pack neg e m) f.mb f.eb = e := by
  rw [bits, pack_div_fraction hm, Nat.mul_add_mod_of_lt he]

theorem bit_pack_sign (he : e < 2 ^ f.eb) (hm : m < 2 ^ f.mb) : bit (f.pack neg e m) (f.eb + f.mb) = neg := by
  rw [bit, Nat.add_comm, pow_add, ← Nat.div_div_eq_div_mul, pack_div_fraction hm, Nat.add_comm,
    Nat.add_mul_div_right _ _ (Nat.two_pow_pos _), Nat.div_eq_of_lt he, Nat.zero_add]
  cases neg <;> rfl

theorem pack_lt (he : e < 2 ^ f.eb) (hm : m < 2 ^ f.mb) : f.pack neg e m < 2 ^ f.width := by
  have hsign : b2n neg * 2 ^ f.eb ≤ 1 * 2 ^ f.eb := Nat.mul_le_mul_right _ (by cases neg <;> decide)
  have hhigh : f.pack neg e m / 2 ^ f.mb < 2 ^ (1 + f.eb) := by
    rw [pack_div_fraction hm, pow_add, pow_one]
    omega
  rw [Fmt.width, pow_add]
  exact (Nat.div_lt_iff_lt_mul (Nat.two_pow_pos _)).1 hhigh

theorem unpack_pack_normal (hpos : 0 < e) (he : e < 2 ^ f.eb - 1) (hm : m < 2 ^ f.mb) :
    f.unpack (f.pack neg e m) = .fin neg (2 ^ f.mb + m) (f.qmin + (e : Int) - 1) := by
  have he' : e < 2 ^ f.eb := by omega
  simp only [Fmt.unpack, bit_pack_sign he' hm, bits_pack_exponent he' hm, bits_pack_fraction hm]
  rw [if_neg (by omega), if_neg (by omega)]

theorem unpack_pack_subnormal (heb : 0 < f.eb) (hpos : 0 < m) (hm : m < 2 ^ f.mb) :
    f.unpack (f.pack neg 0 m) = .fin neg m f.qmin := by
  have htop : 1 < 2 ^ f.eb := Nat.one_lt_two_pow (by omega)
  simp only [Fmt.unpack, bit_pack_sign (Nat.two_pow_pos _) hm, bits_pack_exponent (Nat.two_pow_pos _) hm, bits_pack_fraction hm]
  rw [if_neg (by omega), if_pos True.intro, if_neg (by omega)]

end

end Sys2Proof.Machine
end

section
/-! Exact rounding (R98): a value that a format holds is rounded to itself, without a flag. -/

namespace Sys2Proof.Machine

open Sys2Proof

theorem bitLen_eq_size (m : Nat) : bitLen m = m.size := by
  refine eq_of_forall_ge_iff fun n => ?_
  rw [Nat.size_le]
  by_cases hm : m = 0
  · simp [bitLen, hm]
  · rw [bitLen, if_neg hm, Nat.succ_le_iff, Nat.log2_lt hm]

/-- Terms with the same sign and value compare as equal, whatever the exponent they are written with. -/
theorem compare_fin_shift (neg : Bool) (m d : Nat) (e : Int) : (Fp.fin neg (m * 2 ^ d) (e - d)).compare (.fin neg m e) = some .eq := by
  simp [Fp.compare, Fp.isNan, Fp.exp?, Fp.units]

/-- A magnitude m × 2^e that lies among the finite values of a format: its significant bits fit, its last one is no lower than the
least subnormal, and its leading one is no higher than the greatest exponent. -/
structure Fmt.Fits (f : Fmt) (m : Nat) (e : Int) : Prop where
  pos : 0 < m
  digits : bitLen m ≤ f.mb + 1
  least : f.qmin ≤ e
  greatest : e + (bitLen m : Int) - 1 ≤ f.bias

variable {f : Fmt} {neg : Bool} {m : Nat} {e : Int}

theorem cut_of_le {q : Int} (h : q ≤ e) (mode : Nat) (sticky : Bool) : cut mode neg m e q sticky = (m * 2 ^ (e - q).toNat, sticky) := if_pos h

theorem two_pow_eq_bias (heb : 0 < f.eb) : 2 ^ f.eb = 2 * f.bias + 2 := by
  obtain ⟨n, hn⟩ := Nat.exists_eq_succ_of_ne_zero heb.ne'
  have hpos := Nat.two_pow_pos n
  rw [Fmt.bias, hn, Nat.succ_sub_one, Nat.pow_succ]
  omega

/-- What a format holds, normalized to d more trailing bits: a subnormal in units of the least one, or a whole significand. -/
theorem exists_normalized (h : f.Fits m e) : ∃ d : Nat, max (e + (bitLen m : Int) - 1 - f.mb) f.qmin = e - d ∧ m * 2 ^ d < 2 ^ (f.mb + 1) ∧
    (m * 2 ^ d < 2 ^ f.mb → e - d = f.qmin) ∧ (2 ^ f.mb ≤ m * 2 ^ d → e - d + f.mb ≤ f.bias) := by
  obtain ⟨hpos, hdigits, hleast, hgreatest⟩ := h
  obtain ⟨d, hd⟩ := Int.le.dest (max_le (show e + (bitLen m : Int) - 1 - f.mb ≤ e by omega) hleast)
  have hsize : (m * 2 ^ d).size = bitLen m + d := by rw [bitLen_eq_size, ← Nat.shiftLeft_eq, Nat.size_shiftLeft hpos.ne']
  refine ⟨d, by omega, ?_, fun hlow => ?_, fun hhigh => ?_⟩
  · rw [← Nat.size_le]
    omega
  · rw [← Nat.size_le] at hlow
    omega
  · rw [← Nat.lt_size] at hhigh
    omega

/-- What a format holds is rounded to itself, and raises nothing. -/
theorem round_of_fits (heb : 0 < f.eb) (h : f.Fits m e) (mode : Nat) (neg : Bool) :
    ∃ (w d : Nat), f.round mode neg m e = (w, 0) ∧ w < 2 ^ f.width ∧ f.unpack w = .fin neg (m * 2 ^ d) (e - d) := by
  have htwo := two_pow_eq_bias heb
  obtain ⟨d, hmax, hlt, hlow, hhigh⟩ := exists_normalized h
  have hleast : f.qmin ≤ e - d := hmax ▸ le_max_right _ _
  have hpos : 0 < m * 2 ^ d := Nat.mul_pos h.pos (Nat.two_pow_pos d)
  have hqmin : f.qmin = 1 - (f.bias : Int) - f.mb := rfl
  have hcut : cut mode neg m e (e - d) false = (m * 2 ^ d, false) := by
    rw [cut_of_le (by omega), show (e - (e - (d : Int))).toNat = d by omega]
  simp only [Fmt.round, hmax, hcut]
  generalize hvalue : m * 2 ^ d = k at *
  have hcarry : k ≠ 2 ^ (f.mb + 1) := hlt.ne
  rw [pow_succ] at hlt
  rcases Nat.lt_or_ge k (2 ^ f.mb) with hk | hk
  · have hsub := hlow hk
    refine ⟨f.pack neg 0 k, d, ?_, pack_lt (Nat.two_pow_pos _) hk, by rw [hvalue, hsub, unpack_pack_subnormal heb hpos hk]⟩
    simp [hk, hcarry]
  · have htop := hhigh hk
    have hfield : ((e - d - f.qmin + 1).toNat : Int) = e - d - f.qmin + 1 := Int.toNat_of_nonneg (by omega)
    refine ⟨f.pack neg (e - d - f.qmin + 1).toNat (k - 2 ^ f.mb), d, ?_, pack_lt (by omega) (by omega), ?_⟩
    · rw [if_neg hcarry, if_neg (by omega)]
      simp [Nat.not_lt.2 hk]
    · rw [unpack_pack_normal (by omega) (by omega) (by omega), hfield, Nat.add_sub_cancel' hk, hvalue,
        show f.qmin + (e - d - f.qmin + 1) - 1 = e - d by omega]

/-- What a format holds is written in it with its own value and sign. -/
theorem ofFp_of_fits (heb : 0 < f.eb) (h : f.Fits m e) (neg : Bool) :
    (f.unpack (f.ofFp (.fin neg m e))).compare (.fin neg m e) = some .eq ∧ (f.unpack (f.ofFp (.fin neg m e))).neg = neg := by
  obtain ⟨w, d, hround, -, hval⟩ := round_of_fits heb h 0 neg
  rw [Fmt.ofFp, hround, hval]
  exact ⟨compare_fin_shift neg m d e, rfl⟩

end Sys2Proof.Machine
end

section
/-! Short formats and MX-integer elements decode exactly (R196, R198, R199, R201). -/

namespace Sys2Proof.Machine

open Sys2Proof

/-! ### Short formats -/

/-- The formats of Table 7-2 are small. -/
theorem shortOf_bounds {code : Nat} {h : Short} (hcode : shortOf code = some h) : h.eb ≤ 5 ∧ h.mb ≤ 3 ∧ h.bias ≤ 15 := by
  unfold shortOf at hcode
  split at hcode
  case h_6 => cases hcode
  all_goals
    cases hcode
    decide

/-- A finite element that is not zero lies between the least subnormal and the top of the highest binade. -/
theorem short_unpack_fin {h : Short} {w m : Nat} {neg : Bool} {e : Int} (hval : h.unpack w = .fin neg m e) :
    0 < m ∧ m < 2 ^ (h.mb + 1) ∧ 1 - (h.bias : Int) - h.mb ≤ e ∧ e + h.bias + h.mb ≤ 2 ^ h.eb := by
  have hfrac := bits_lt w 0 h.mb
  have hexp : (bits w h.mb h.eb : Int) < 2 ^ h.eb := by exact_mod_cast bits_lt w h.mb h.eb
  have hpos : (1 : Int) ≤ 2 ^ h.eb := one_le_pow₀ (by decide)
  rw [pow_succ]
  simp only [Short.unpack] at hval
  split at hval
  next => cases hval
  split at hval
  next => cases hval
  split at hval
  next =>
    split at hval
    next => cases hval
    next =>
      cases hval
      omega
  next =>
    cases hval
    omega

/-- FP32 holds every finite element of a short format. -/
theorem short_fits {code w m : Nat} {h : Short} {neg : Bool} {e : Int} (hcode : shortOf code = some h) (hval : h.unpack w = .fin neg m e) :
    fp32.Fits m e := by
  obtain ⟨heb, hmb, hbias⟩ := shortOf_bounds hcode
  obtain ⟨hpos, hlt, hleast, hgreatest⟩ := short_unpack_fin hval
  have hlen : bitLen m ≤ h.mb + 1 := by rwa [bitLen_eq_size, Nat.size_le]
  have htop : (2 : Int) ^ h.eb ≤ 2 ^ 5 := pow_le_pow_right₀ (by decide) heb
  have hqmin : fp32.qmin = -149 := rfl
  have hbias32 : fp32.bias = 127 := rfl
  have hmb32 : fp32.mb = 23 := rfl
  constructor <;> omega

theorem ofFp_lt_of_shortOf {code : Nat} {h : Short} (hcode : shortOf code = some h) (w : Nat) : fp32.ofFp (h.unpack w) < 2 ^ 32 := by
  cases hval : h.unpack w with
  | nan => exact (by decide : fp32.qnan < 2 ^ 32)
  | inf neg => cases neg <;> decide
  | zero neg => cases neg <;> decide
  | fin neg m e =>
    obtain ⟨r, d, hround, hlt, -⟩ := round_of_fits (by decide) (short_fits hcode hval) 0 neg
    rwa [Fmt.ofFp, hround]

/-- Element k of a packed register is decoded from its own place. -/
theorem unpackShort_element {code k : Nat} {h : Short} (hcode : shortOf code = some h) (a : Nat) (hk : k < if code = 12 then 8 else 4) :
    bits (unpackShort code a) (32 * k) 32 = fp32.ofFp (h.unpack (bits a (h.width * k) h.width)) := by
  simp only [unpackShort, hcode]
  rw [bits_packBits (by simpa using hk), List.getElem_map, List.getElem_range]
  exact Nat.mod_eq_of_lt (ofFp_lt_of_shortOf hcode _)

/-! ### MX-integer elements -/

/-- FP32 and BF16 hold the value of an element of n + 1 bits at every scale, but for the least element at the greatest scale. -/
theorem mx_fits {f : Fmt} (hf : f = fp32 ∨ f = bf16) {n x : Nat} {q : Int} (hn : n ≤ 7) (hlow : -2 ^ n ≤ q) (hhigh : q < 2 ^ n)
    (hx : x < 255) (hq : q ≠ 0) (hin : ¬ (q = -2 ^ n ∧ x = 254)) : f.Fits q.natAbs (x - ((126 + n : Nat) : Int)) := by
  have hbias : f.bias = 127 := by rcases hf with rfl | rfl <;> rfl
  have hmb : 7 ≤ f.mb := by rcases hf with rfl | rfl <;> decide
  have hqmin : f.qmin = 1 - (f.bias : Int) - f.mb := rfl
  have habs : q.natAbs ≤ 2 ^ n := by
    zify
    exact abs_le.2 ⟨hlow, hhigh.le⟩
  have hlen : bitLen q.natAbs ≤ n + 1 := by
    rw [bitLen_eq_size, Nat.size_le, pow_succ]
    have := Nat.two_pow_pos n
    omega
  have hfull : x = 254 → bitLen q.natAbs ≤ n := by
    intro hmax
    rw [bitLen_eq_size, Nat.size_le]
    zify
    exact abs_lt.2 ⟨lt_of_le_of_ne hlow (fun heq => hin ⟨heq.symm, hmax⟩), hhigh⟩
  constructor <;> omega

theorem mxDecode_nan (f : Fmt) (q : Int) (eight : Bool) : mxDecode f q 255 eight = f.qnan := if_pos rfl

/-- A result that raises nothing is the decoded element. -/
theorem mxDecode_of_roundInt {f : Fmt} {q : Int} {x w : Nat} {eight : Bool} (hx : x < 255)
    (hround : f.roundInt 0 q ((x : Int) - (if eight then 133 else 129)) false = (w, 0)) : mxDecode f q x eight = w := by
  simp [mxDecode, hx.ne, hround, bit]

theorem mxDecode_zero (f : Fmt) {x : Nat} (hx : x < 255) (eight : Bool) : mxDecode f 0 x eight = f.nought false :=
  mxDecode_of_roundInt hx rfl

/-- An element whose value the format holds decodes to that value. -/
theorem compare_mxDecode {f : Fmt} {q : Int} {x : Nat} {eight : Bool} (heb : 0 < f.eb) (hx : x < 255) (hq : q ≠ 0)
    (hfits : f.Fits q.natAbs ((x : Int) - (if eight then 133 else 129))) :
    (f.unpack (mxDecode f q x eight)).compare (.fin (decide (q < 0)) q.natAbs ((x : Int) - (if eight then 133 else 129))) = some .eq := by
  obtain ⟨w, d, hround, -, hval⟩ := round_of_fits heb hfits 0 (decide (q < 0))
  rw [mxDecode_of_roundInt hx ((if_neg hq).trans hround), hval, compare_fin_shift]

/-- Settles O54: the value of a short or an MX-integer element is one that the wider format holds, and such a value is rounded to itself. -/
theorem formatDecoding : Obligations.FormatDecoding := by
  unfold Obligations.FormatDecoding
  refine ⟨fun code h w hcode _ => ?_, fun code h a k hcode hk => unpackShort_element hcode a hk, ?_⟩
  · cases hval : h.unpack w with
    | nan => rfl
    | inf neg => cases neg <;> rfl
    | zero neg => cases neg <;> rfl
    | fin neg m e => exact ofFp_of_fits (by decide) (short_fits hcode hval) neg
  · intro eight wide q x f least v hlow hhigh _
    have hf : f = fp32 ∨ f = bf16 := by cases wide <;> simp [f]
    refine ⟨fun hx => ?_, fun hx hq => ?_, fun hx hq hin => compare_mxDecode ?_ hx hq ?_⟩
    · subst hx
      rw [show v = f.qnan from mxDecode_nan f q eight]
      cases wide <;> decide
    · subst hq
      rw [show v = f.nought false from mxDecode_zero f hx eight]
      cases wide <;> decide
    · cases wide <;> decide
    · cases eight with
      | true => exact mx_fits hf (n := 7) (by decide) hlow hhigh hx hq hin
      | false => exact mx_fits hf (n := 3) (by decide) hlow hhigh hx hq hin

end Sys2Proof.Machine
end

section
/-! The state that reset leaves, and the step at the front of the queue. -/

namespace Sys2Proof.Machine

open Sys2Proof

/-- R3, R385: the invariant of every step holds of the unpowered module. -/
theorem State.reset_sound : State.reset.Sound := by
  refine ⟨rfl, by decide, rfl, ?_⟩
  simp [State.reset, rising]

/-- Settles O56: every field of the reset state is at its default. -/
theorem resetState : Obligations.ResetState :=
  ⟨State.reset_sound, rfl, rfl, rfl, rfl, rfl, fun _ => rfl, fun _ => rfl, fun _ => rfl, fun _ => rfl, rfl, rfl, rfl, rfl,
    fun _ => ⟨rfl, rfl⟩⟩

theorem step_of_pending_nil {s : State} (h : s.pending = []) : step s = .next s := by
  unfold step
  rw [h]

/-- No row of the table gives bits (log entry 17). -/
theorem decodeTableWord_none (nbits w : Nat) : decodeTableWord nbits w = none := rfl

/-- Settles O57: the equations of `step`, and that no word spells a command. -/
theorem stepRunsFront : Obligations.StepRunsFront := by
  refine ⟨fun c s => rfl, fun s h => step_of_pending_nil h, fun s nbits w => ?_⟩
  unfold State.withFetchWord
  rw [decodeTableWord_none]

end Sys2Proof.Machine
end

section
/-! What every operation of the model keeps, whichever it is: the queue of commands, the direction of time, of the audit numbering and of
what has left the module, and the tables of the invariant. One relation holds them, so that each operation is gone through once. -/

namespace Sys2Proof.Machine

open Sys2Proof

/-! ### The tables -/

/-- What `State.Sound` asks of memory, tables and power: all of it but that no access is left waiting. -/
structure State.Tables (s : State) : Prop where
  hbm : mwf 0 s.hbm = true
  supply : s.supply ≤ 2
  ctxs : rising s.ctxs
  launches : rising s.launches
  coxLaunches : rising s.coxLaunches
  cores : rising s.cores
  slots : rising s.slots
  parts : rising s.parts
  regions : rising s.regions
  segs : rising s.segs
  hbmStacks : rising s.hbmStacks
  slices : rising s.slices
  homes : rising s.homes
  hostLines : rising s.hostLines
  funcs : rising s.funcs
  mailboxes : rising s.mailboxes
  logs : rising s.logs
  ports : rising s.ports
  subPorts : rising s.subPorts
  assocs : rising s.assocs
  queues : rising s.queues
  gals : rising s.gals
  hostCores : rising s.hostCores
  coreBanks : rising s.coreBanks
  galBanks : rising s.galBanks
  traces : rising s.traces

theorem State.sound_iff {s : State} : s.Sound ↔ s.Tables ∧ s.stalled = false := by
  constructor
  · rintro ⟨h0, h1, hs, h2, h3, h4, h5, h6, h7, h8, h9, h10, h11, h12, h13, h14, h15, h16, h17, h18, h19, h20, h21, h22, h23, h24, h25⟩
    exact ⟨⟨h0, h1, h2, h3, h4, h5, h6, h7, h8, h9, h10, h11, h12, h13, h14, h15, h16, h17, h18, h19, h20, h21, h22, h23, h24, h25⟩, hs⟩
  · rintro ⟨⟨h0, h1, h2, h3, h4, h5, h6, h7, h8, h9, h10, h11, h12, h13, h14, h15, h16, h17, h18, h19, h20, h21, h22, h23, h24, h25⟩, hs⟩
    exact ⟨h0, h1, hs, h2, h3, h4, h5, h6, h7, h8, h9, h10, h11, h12, h13, h14, h15, h16, h17, h18, h19, h20, h21, h22, h23, h24, h25⟩

theorem State.Sound.tables {s : State} (h : s.Sound) : s.Tables := (State.sound_iff.mp h).1

theorem State.Sound.served {s : State} (h : s.Sound) : s.stalled = false := (State.sound_iff.mp h).2

/-! ### Tables that keep their order -/

section
variable {α : Type} {m : Map α}

theorem rising_minsert (k : Nat) (v : α) (h : rising m) : rising (minsert m k v) := minsert_sorted m k v h

theorem rising_merase (k : Nat) (h : rising m) : rising (merase m k) := merase_sorted m k h

theorem rising_mset [DecidableEq α] (d : α) (k : Nat) (v : α) (h : rising m) : rising (mset d m k v) := mset_keeps_rising d k v h

theorem rising_filter (p : Nat × α → Bool) (h : rising m) : rising (m.filter p) :=
  List.Pairwise.sublist (List.Sublist.map _ List.filter_sublist) h

theorem rising_map (f : Nat × α → α) (h : rising m) : rising (m.map (fun e => (e.1, f e))) := by
  simpa [rising, List.map_map, Function.comp_def] using h

theorem rising_map_same (f : Nat × α → Nat × α) (hf : ∀ e, (f e).1 = e.1) (h : rising m) : rising (m.map f) := by
  simpa [rising, List.map_map, Function.comp_def, hf] using h

end

/-! ### What an access touches, and what outlasts the end of work -/

/-- The state without what an access of memory may write: the caches, the homes and memory itself, the links it runs over, what it tells the
functions and counts, and the clock. -/
def State.offAccess (s : State) : State := { s with
  cores := [], funcs := [], slices := [], homes := [], hostLines := [], hbmStacks := [], segs := [], buckets := [], bucketTime := 0, free := 0
  now := 0, stalled := false, out := [], coreBanks := [], galBanks := [], wideCounters := [], traces := [], gals := [], logs := []
  attnLow := false, wakeLow := false, hostReads := [], rasTimes := [], corrTimes := [], hbm := [], hbmPoison := [], uncoreIdle := []
  stamp := 0, tlb := [] }

/-- What the end of a part of the work leaves as it is: the launches, the partitions with their regions, the host's link and the supply. -/
def State.lasting (s : State) : Map Launch × Map CoxLaunch × Map Partition × Map Region × Bool × Nat :=
  (s.launches, s.coxLaunches, s.parts, s.regions, s.linkUp, s.supply)

theorem State.lasting_offAccess (s : State) : s.offAccess.lasting = s.lasting := rfl

/-- What a context is to its function: its state, its partition and the places of its records. -/
def Ctx.standing (c : Ctx) : CtxState × Nat × Nat × Nat × Nat × Nat × Nat × Nat × Nat × Nat :=
  (c.state, c.part, c.fn, c.creditAddr, c.creditSpace, c.creditStep, c.ringAddr, c.ringSpace, c.ringSize, c.root)

theorem standing_ite {p : Prop} [Decidable p] {c c' c0 : Ctx} (h : c.standing = c0.standing) (h' : c'.standing = c0.standing) :
    (if p then c else c').standing = c0.standing := by
  split
  · exact h
  · exact h'

theorem standing_consume (c : Ctx) (p : Pkt) : (c.consume p).standing = c.standing := by
  unfold Ctx.consume
  split <;> rfl

theorem standing_endChains (c : Ctx) (ps : List Pkt) : (c.endChains ps).standing = c.standing := by
  induction ps with
  | nil => rfl
  | cons p ps ih =>
    unfold Ctx.endChains
    exact standing_ite ih ih

theorem standing_mmapVals {f : Nat → Ctx → Ctx} (hf : ∀ n c, (f n c).standing = c.standing) (m : Map Ctx) (n : Nat) :
    (mget {} (mmapVals m f) n).standing = (mget ({} : Ctx) m n).standing := by
  induction m with
  | nil => rfl
  | cons e m ih =>
    obtain ⟨j, c⟩ := e
    simp only [mmapVals, List.map_cons, mget] at ih ⊢
    split
    · exact hf _ _
    · split
      · rfl
      · exact ih

/-! ### The relation -/

/-- An operation has led from s to t: its commands still wait, the clock, the audit numbering and the output have not run back, and the
tables of the invariant are as they should be if they were. With `served`, no access is left waiting that was not. The depth says how far
the operation reaches: an access of memory (0), the end of a part of the work (1), the removal of work (2), or of contexts (3), or more. -/
structure State.Onward (served : Bool) (deep : Nat) (s t : State) : Prop where
  pending : t.pending = s.pending
  audit : s.auditNext ≤ t.auditNext
  out : s.out <:+ t.out
  now : s.now ≤ t.now
  stalled : served = true → s.stalled = false → t.stalled = false
  tables : s.Tables → t.Tables
  access : deep = 0 → t.offAccess = s.offAccess
  lasts : deep ≤ 1 → t.lasting = s.lasting
  stands : deep ≤ 2 → s.Tables → ∀ n, (t.ctx n).standing = (s.ctx n).standing
  link : deep ≤ 3 → t.linkUp = s.linkUp
  gone : deep ≤ 3 → s.Tables → ∀ q, (t.part q).live = true → (s.part q).live = true

variable {b : Bool} {deep : Nat} {s t u : State}

theorem State.Onward.refl (b : Bool) (s : State) : s.Onward b deep s :=
  ⟨rfl, le_refl _, List.suffix_refl _, le_refl _, fun _ h => h, fun h => h, fun _ => rfl, fun _ => rfl, fun _ _ _ => rfl, fun _ => rfl,
    fun _ _ _ h => h⟩

theorem State.Onward.trans (h : s.Onward b deep t) (h' : t.Onward b deep u) : s.Onward b deep u where
  pending := h'.pending.trans h.pending
  audit := h.audit.trans h'.audit
  out := h.out.trans h'.out
  now := h.now.trans h'.now
  stalled := fun hb hs => h'.stalled hb (h.stalled hb hs)
  tables := fun hs => h'.tables (h.tables hs)
  access := fun hd => (h'.access hd).trans (h.access hd)
  lasts := fun hd => (h'.lasts hd).trans (h.lasts hd)
  stands := fun hd hs n => (h'.stands hd (h.tables hs) n).trans (h.stands hd hs n)
  link := fun hd => (h'.link hd).trans (h.link hd)
  gone := fun hd hs q hq => h.gone hd hs q (h'.gone hd (h.tables hs) q hq)

/-- Whatever the access, what has been kept is kept. -/
theorem State.Onward.any (h : s.Onward b deep t) : s.Onward false deep t := { h with stalled := fun hb => by cases hb }

/-- What reaches no further reaches no further than a deeper operation. -/
theorem State.Onward.deeper (h : s.Onward b deep t) : s.Onward b (deep + 1) t := { h with
  access := fun hd => by omega, lasts := fun hd => h.lasts (by omega), stands := fun hd => h.stands (by omega)
  link := fun hd => h.link (by omega), gone := fun hd => h.gone (by omega) }

/-- A write of fields leaves the queue, the clock, the output and the audit numbering as they are. -/
def State.SameTime (t u : State) : Prop :=
  (u.pending, u.out, u.now, u.stalled, u.auditNext) = (t.pending, t.out, t.now, t.stalled, t.auditNext)

/-- Fields are written, of which the tables keep their order. -/
theorem State.Onward.replace (h : s.Onward b (deep + 4) t) (e : t.SameTime u) (hu : t.Tables → u.Tables) : s.Onward b (deep + 4) u := by
  obtain ⟨hp, ho, hn, hs, ha⟩ : u.pending = t.pending ∧ u.out = t.out ∧ u.now = t.now ∧ u.stalled = t.stalled ∧ u.auditNext = t.auditNext := by
    simpa [State.SameTime] using e
  exact ⟨hp.trans h.pending, ha ▸ h.audit, ho ▸ h.out, hn ▸ h.now, hs ▸ h.stalled, fun r => hu (h.tables r), fun hd => by omega,
    fun hd => by omega, fun hd => by omega, fun hd => by omega, fun hd => by omega⟩

/-- Fields other than the partitions and the link are written. -/
theorem State.Onward.lose (h : s.Onward b (deep + 3) t) (e : t.SameTime u) (ho : (u.parts, u.linkUp) = (t.parts, t.linkUp))
    (hu : t.Tables → u.Tables) : s.Onward b (deep + 3) u := by
  obtain ⟨hparts, hlink⟩ : u.parts = t.parts ∧ u.linkUp = t.linkUp := by simpa using ho
  have hfree : s.Onward b (deep + 3 + 1) u := (State.Onward.replace (h.deeper : s.Onward b (deep + 4) t) e hu)
  exact { hfree with
    access := fun hd => by omega, lasts := fun hd => by omega, stands := fun hd => by omega, link := fun hd => hlink.trans (h.link hd)
    gone := fun hd r q hq => h.gone hd r q (by rwa [State.part, hparts] at hq) }

/-- Fields are written other than the contexts and the link, and the partitions among them only to take one away. -/
theorem State.Onward.part (h : s.Onward b (deep + 2) t) (e : t.SameTime u) (ho : (u.ctxs, u.linkUp) = (t.ctxs, t.linkUp))
    (hu : t.Tables → u.Tables) (hg : t.Tables → ∀ q, (u.part q).live = true → (t.part q).live = true) : s.Onward b (deep + 2) u := by
  obtain ⟨hctxs, hlink⟩ : u.ctxs = t.ctxs ∧ u.linkUp = t.linkUp := by simpa using ho
  have hfree : s.Onward b (deep + 2 + 2) u := (State.Onward.replace (h.deeper.deeper : s.Onward b (deep + 4) t) e hu)
  exact { hfree with
    access := fun hd => by omega, lasts := fun hd => by omega, link := fun hd => hlink.trans (h.link hd)
    stands := fun hd r n => by rw [State.ctx, hctxs]; exact h.stands hd r n
    gone := fun hd r q hq => h.gone hd r q (hg (h.tables r) q hq) }

/-- Fields other than the contexts, the partitions and the link are written. -/
theorem State.Onward.shrink (h : s.Onward b (deep + 2) t) (e : t.SameTime u)
    (ho : (u.ctxs, u.parts, u.linkUp) = (t.ctxs, t.parts, t.linkUp)) (hu : t.Tables → u.Tables) : s.Onward b (deep + 2) u := by
  obtain ⟨hctxs, hparts, hlink⟩ : u.ctxs = t.ctxs ∧ u.parts = t.parts ∧ u.linkUp = t.linkUp := by simpa using ho
  exact h.part e (by rw [hctxs, hlink]) hu fun _ q hq => by rwa [State.part, hparts] at hq

/-- The contexts are written, each keeping its standing. -/
theorem State.Onward.stand (h : s.Onward b (deep + 1) t) (e : t.SameTime u) (ho : u.lasting = t.lasting) (hu : t.Tables → u.Tables)
    (hc : t.Tables → ∀ n, (u.ctx n).standing = (t.ctx n).standing) : s.Onward b (deep + 1) u := by
  have hparts : u.parts = t.parts := (congrArg (fun x => x.2.2.1) ho :)
  have hlink : u.linkUp = t.linkUp := (congrArg (fun x => x.2.2.2.2.1) ho :)
  have hfree : s.Onward b (deep + 1 + 3) u := (State.Onward.replace (h.deeper.deeper.deeper : s.Onward b (deep + 4) t) e hu)
  exact { hfree with
    access := fun hd => by omega, lasts := fun hd => ho.trans (h.lasts hd), link := fun hd => hlink.trans (h.link hd)
    stands := fun hd r n => (hc (h.tables r) n).trans (h.stands hd r n)
    gone := fun hd r q hq => h.gone hd r q (by rwa [State.part, hparts] at hq) }

/-- Fields other than the contexts are written that the end of work may write. -/
theorem State.Onward.change (h : s.Onward b (deep + 1) t) (e : t.SameTime u) (ho : (u.ctxs, u.lasting) = (t.ctxs, t.lasting))
    (hu : t.Tables → u.Tables) : s.Onward b (deep + 1) u := by
  obtain ⟨hctxs, hlast⟩ : u.ctxs = t.ctxs ∧ u.lasting = t.lasting := by simpa using ho
  exact h.stand e hlast hu fun _ n => by rw [State.ctx, State.ctx, hctxs]

/-- Fields are written that an access may write. -/
theorem State.Onward.update (h : s.Onward b deep t) (e : t.SameTime u) (ho : u.offAccess = t.offAccess) (hu : t.Tables → u.Tables) :
    s.Onward b deep u := by
  have hctxs : u.ctxs = t.ctxs := (congrArg State.ctxs ho :)
  have hlast : u.lasting = t.lasting := (congrArg State.lasting ho :)
  have hdeep : s.Onward b (deep + 1) u := h.deeper.change e (by rw [hctxs, hlast]) hu
  have hparts : u.parts = t.parts := (congrArg State.parts ho :)
  have hlink : u.linkUp = t.linkUp := (congrArg State.linkUp ho :)
  exact { hdeep with
    access := fun hd => ho.trans (h.access hd), lasts := fun hd => hlast.trans (h.lasts hd), link := fun hd => hlink.trans (h.link hd)
    stands := fun hd r n => by rw [State.ctx, hctxs]; exact h.stands hd r n
    gone := fun hd r q hq => h.gone hd r q (by rwa [State.part, hparts] at hq) }

theorem State.Onward.later {n : Nat} (h : s.Onward b deep t) (hn : t.now ≤ n) : s.Onward b deep { t with now := n } :=
  { h with now := h.now.trans hn, tables := fun hs => { h.tables hs with } }

/-! ### Branches, pairs and folds -/

theorem State.Onward.ite {c : Prop} [Decidable c] (ht : s.Onward b deep t) (hu : s.Onward b deep u) : s.Onward b deep (if c then t else u) := by
  split
  · exact ht
  · exact hu

section
variable {α β : Type}

theorem State.Onward.ite_fst {c : Prop} [Decidable c] {p q : State × α} (hp : s.Onward b deep p.1) (hq : s.Onward b deep q.1) :
    s.Onward b deep (if c then p else q).1 := by
  split
  · exact hp
  · exact hq

theorem State.Onward.pair {a : α} (h : s.Onward b deep t) : s.Onward b deep (t, a).1 := h

theorem State.Onward.of_eq {p : State × α} {a : α} (h : s.Onward b deep p.1) (e : p = (u, a)) : s.Onward b deep u := by
  rw [e] at h
  exact h

theorem State.Onward.foldl {f : State → α → State} {l : List α} (h : s.Onward b deep t)
    (hf : ∀ u x, s.Onward b deep u → s.Onward b deep (f u x)) : s.Onward b deep (l.foldl f t) := by
  induction l generalizing t with
  | nil => exact h
  | cons x l ih => exact ih (hf t x h)

theorem State.Onward.foldl_fst {f : State × β → α → State × β} {l : List α} {p : State × β} (h : s.Onward b deep p.1)
    (hf : ∀ u x, s.Onward b deep u.1 → s.Onward b deep (f u x).1) : s.Onward b deep (l.foldl f p).1 := by
  induction l generalizing p with
  | nil => exact h
  | cons x l ih => exact ih (hf p x h)

theorem State.Onward.foldl_snd {f : β × State → α → β × State} {l : List α} {p : β × State} (h : s.Onward b deep p.2)
    (hf : ∀ u x, s.Onward b deep u.2 → s.Onward b deep (f u x).2) : s.Onward b deep (l.foldl f p).2 := by
  induction l generalizing p with
  | nil => exact h
  | cons x l ih => exact ih (hf p x h)

end

/-! ### Outcomes -/

/-- The outcome goes on, to a state that keeps what every operation keeps. -/
def State.Goes (b : Bool) (deep : Nat) (s : State) (o : Outcome) : Prop := ∃ u, o = .next u ∧ s.Onward b deep u

theorem State.Goes.next (h : s.Onward b deep u) : s.Goes b deep (.next u) := ⟨u, rfl, h⟩

theorem State.Goes.ite {c : Prop} [Decidable c] {o o' : Outcome} (h : s.Goes b deep o) (h' : s.Goes b deep o') : s.Goes b deep
    (if c then o else o') := by
  split
  · exact h
  · exact h'

/-! ### Results that may be missing -/

/-- Where the operation has a result, it keeps what every operation keeps. -/
def State.Opens (b : Bool) (deep : Nat) (s : State) (o : Option State) : Prop := ∀ u, o = some u → s.Onward b deep u

theorem State.Opens.none : s.Opens b deep none := fun _ h => by cases h

theorem State.Opens.some (h : s.Onward b deep t) : s.Opens b deep (some t) := fun _ e => by
  cases e
  exact h

theorem State.Opens.of_eq {o : Option State} (h : s.Opens b deep o) (e : o = .some u) : s.Onward b deep u := h u e

theorem State.Opens.ite {c : Prop} [Decidable c] {o o' : Option State} (h : s.Opens b deep o) (h' : s.Opens b deep o') :
    s.Opens b deep (if c then o else o') := by
  split
  · exact h
  · exact h'

theorem State.Opens.map {o : Option State} {f : State → State} (h : s.Opens b deep o) (hf : ∀ u, s.Onward b deep u → s.Onward b deep (f u)) :
    s.Opens b deep (o.map f) := by
  cases o with
  | none => exact .none
  | some u => exact .some (hf u (h u rfl))

theorem State.Opens.bind {o : Option State} {f : State → Option State} (h : s.Opens b deep o) (hf : ∀ u, s.Onward b deep u → s.Opens b deep (f u)) :
    s.Opens b deep (o.bind f) := by
  cases o with
  | none => exact .none
  | some u => exact hf u (h u rfl)

section
variable {α : Type}

theorem State.Opens.map_of {o : Option α} {f : α → State} (hf : ∀ x, s.Onward b deep (f x)) : s.Opens b deep (o.map f) := by
  cases o with
  | none => exact .none
  | some x => exact .some (hf x)

theorem State.Opens.map_fst {o : Option (State × α)} {f : State × α → State} (h : s.Opens b deep (o.map (·.1)))
    (hf : ∀ p, s.Onward b deep p.1 → s.Onward b deep (f p)) : s.Opens b deep (o.map f) := by
  cases o with
  | none => exact .none
  | some p => exact .some (hf p (h p.1 rfl))

theorem State.Opens.of_fst {o : Option (State × α)} {p : State × α} (h : s.Opens b deep (o.map (·.1))) (e : o = .some p) : s.Onward b deep p.1 := by
  rw [e] at h
  exact h p.1 rfl

end

/-! ### The operations of Ops.lean -/

theorem State.Onward.until {n : Nat} (h : s.Onward b deep t) : s.Onward b deep (t.until n) := h.later (now_le_until t n)

theorem State.Onward.sample (h : s.Onward b deep t) : s.Onward b deep t.sample.1 := 
  { h with now := h.now.trans (now_le_sample t), tables := fun hs => { h.tables hs with } }

theorem State.Onward.stall (h : s.Onward false deep t) : s.Onward false deep t.stall :=
  { h with stalled := fun hb => (by cases hb), tables := fun hs => { h.tables hs with } }

theorem State.Onward.emit {e : OutEvent} (h : s.Onward b deep t) : s.Onward b deep (t.emit e) :=
  { h with out := h.out.trans (List.suffix_cons e t.out), tables := fun hs => { h.tables hs with } }

theorem State.Onward.orWait (h : s.Onward b deep t) (hu : s.Onward false deep u) : s.Onward b deep (t.orWait u) := by
  cases hw : u.stalled with
  | false =>
    rw [orWait_of_served _ _ hw]
    exact { hu with stalled := fun _ _ => hw }
  | true =>
    rw [orWait_of_stalled _ _ hw]
    exact { h with now := hu.now, stalled := fun _ _ => rfl, tables := fun hs => { h.tables hs with } }

theorem waits_goes {o : Outcome} (h : s.Onward b deep t) (ho : s.Goes false deep o) : s.Goes b deep (t.waits o) := by
  obtain ⟨u, rfl, hu⟩ := ho
  exact .next (h.orWait hu)

end Sys2Proof.Machine
end

section
/-! What the operations of Ops.lean keep. -/

namespace Sys2Proof.Machine

open Sys2Proof

variable {b : Bool} {deep : Nat} {s t u : State}

theorem State.Onward.setCtx {n c} (h : s.Onward b (deep + 3) t) : s.Onward b (deep + 3) (t.setCtx n c) := by
  unfold State.setCtx
  exact h.lose rfl rfl fun r => { r with ctxs := rising_mset _ _ _ r.ctxs }

/-- A context is written that keeps its standing. -/
theorem State.Onward.setCtx_of {n c} (h : s.Onward b (deep + 1) t) (hc : c.standing = (t.ctx n).standing) : s.Onward b (deep + 1) (t.setCtx n c) := by
  refine h.stand rfl rfl (fun r => { r with ctxs := rising_mset _ _ _ r.ctxs }) fun r m => ?_
  by_cases hm : m = n
  · subst hm
    rw [State.ctx, State.setCtx, mget_mset_same_of_rising _ _ _ r.ctxs]
    exact hc
  · rw [State.ctx, State.setCtx, mget_mset_other_of_rising _ _ hm r.ctxs]
    rfl

theorem State.Onward.modCtx_of {n f} (h : s.Onward b (deep + 1) t) (hf : ∀ c : Ctx, (f c).standing = c.standing) :
    s.Onward b (deep + 1) (t.modCtx n f) := by
  unfold State.modCtx
  exact .setCtx_of h (hf _)

/-- Every context is written and keeps its standing. -/
theorem State.Onward.mapCtxs {f : Nat → Ctx → Ctx} (h : s.Onward b (deep + 1) t) (hf : ∀ n c, (f n c).standing = c.standing) :
    s.Onward b (deep + 1) { t with ctxs := mmapVals t.ctxs f } :=
  h.stand rfl rfl (fun r => { r with ctxs := rising_map _ r.ctxs }) fun _ n => standing_mmapVals hf t.ctxs n

theorem State.Onward.modCtx {n f} (h : s.Onward b (deep + 3) t) : s.Onward b (deep + 3) (t.modCtx n f) := by
  unfold State.modCtx
  exact .setCtx h

theorem State.Onward.setCore {n c} (h : s.Onward b deep t) : s.Onward b deep (t.setCore n c) := by
  unfold State.setCore
  exact h.update rfl rfl fun r => { r with cores := rising_mset _ _ _ r.cores }

theorem State.Onward.modCore {n f} (h : s.Onward b deep t) : s.Onward b deep (t.modCore n f) := by
  unfold State.modCore
  exact .setCore h

theorem State.Onward.setPart {n p} (h : s.Onward b (deep + 4) t) : s.Onward b (deep + 4) (t.setPart n p) := by
  unfold State.setPart
  exact h.replace rfl fun r => { r with parts := rising_mset _ _ _ r.parts }

/-- A partition is written that lives only if it did. -/
theorem State.Onward.setPart_of {n p} (h : s.Onward b (deep + 2) t) (hp : p.live = true → (t.part n).live = true) :
    s.Onward b (deep + 2) (t.setPart n p) := by
  refine h.part rfl rfl (fun r => { r with parts := rising_mset _ _ _ r.parts }) fun r q hq => ?_
  by_cases hqn : q = n
  · subst hqn
    rw [State.part, State.setPart, mget_mset_same_of_rising _ _ _ r.parts] at hq
    exact hp hq
  · rwa [State.part, State.setPart, mget_mset_other_of_rising _ _ hqn r.parts] at hq

theorem State.Onward.setSlot {k x} (h : s.Onward b (deep + 1) t) : s.Onward b (deep + 1) (t.setSlot k x) := by
  unfold State.setSlot
  exact h.change rfl rfl fun r => { r with slots := rising_mset _ _ _ r.slots }

theorem State.Onward.modSlot {k f} (h : s.Onward b (deep + 1) t) : s.Onward b (deep + 1) (t.modSlot k f) := by
  unfold State.modSlot
  exact .setSlot h

theorem State.Onward.setFunc {n x} (h : s.Onward b deep t) : s.Onward b deep (t.setFunc n x) := by
  unfold State.setFunc
  exact h.update rfl rfl fun r => { r with funcs := rising_mset _ _ _ r.funcs }

theorem State.Onward.modFunc {n f} (h : s.Onward b deep t) : s.Onward b deep (t.modFunc n f) := by
  unfold State.modFunc
  exact .setFunc h

theorem State.Onward.setSlice {g x} (h : s.Onward b deep t) : s.Onward b deep (t.setSlice g x) := by
  unfold State.setSlice
  exact h.update rfl rfl fun r => { r with slices := rising_mset _ _ _ r.slices }

theorem State.Onward.modSlice {g f} (h : s.Onward b deep t) : s.Onward b deep (t.modSlice g f) := by
  unfold State.modSlice
  exact .setSlice h

theorem State.Onward.setHome {k x} (h : s.Onward b deep t) : s.Onward b deep (t.setHome k x) := by
  unfold State.setHome
  exact h.update rfl rfl fun r => { r with homes := rising_mset _ _ _ r.homes }

theorem State.Onward.setHostLine {k x} (h : s.Onward b deep t) : s.Onward b deep (t.setHostLine k x) := by
  unfold State.setHostLine
  exact h.update rfl rfl fun r => { r with hostLines := rising_mset _ _ _ r.hostLines }

theorem State.Onward.setStack {k x} (h : s.Onward b deep t) : s.Onward b deep (t.setStack k x) := by
  unfold State.setStack
  exact h.update rfl rfl fun r => { r with hbmStacks := rising_mset _ _ _ r.hbmStacks }

theorem State.Onward.setSeg {i x} (h : s.Onward b deep t) : s.Onward b deep (t.setSeg i x) := by
  unfold State.setSeg
  exact h.update rfl rfl fun r => { r with segs := rising_mset _ _ _ r.segs }

theorem State.Onward.setBucket {k x} (h : s.Onward b deep t) : s.Onward b deep (t.setBucket k x) := by
  unfold State.setBucket
  exact h.update rfl rfl fun r => { r with }

theorem State.Onward.setCrew {core key c} (h : s.Onward b deep t) : s.Onward b deep (t.setCrew core key c) := by
  unfold State.setCrew
  exact .modCore h

theorem State.Onward.modCrew {core key f} (h : s.Onward b deep t) : s.Onward b deep (t.modCrew core key f) := by
  unfold State.modCrew
  split
  · exact .setCrew h
  · exact h

theorem State.Onward.modLaunch {n f} (h : s.Onward b (deep + 2) t) : s.Onward b (deep + 2) (t.modLaunch n f) := by
  unfold State.modLaunch
  split
  · exact h.shrink rfl rfl fun r => { r with launches := rising_minsert _ _ r.launches }
  · exact h

theorem State.Onward.pick {n} (h : s.Onward b deep t) : s.Onward b deep (t.pick n).1 := by
  unfold State.pick
  dsimp only
  exact h.update rfl rfl fun r => { r with }

theorem State.Onward.fresh (h : s.Onward b deep t) : s.Onward b deep t.fresh.1 := by
  unfold State.fresh
  dsimp only
  exact h.update rfl rfl fun r => { r with }

end Sys2Proof.Machine
end

section
/-! What the operations of Counters.lean keep. -/

namespace Sys2Proof.Machine

open Sys2Proof

variable {b : Bool} {deep : Nat} {s t u : State}

theorem State.Onward.setCoreBank {c b1} (h : s.Onward b deep t) : s.Onward b deep (t.setCoreBank c b1) := by
  unfold State.setCoreBank
  exact h.update rfl rfl fun r => { r with coreBanks := rising_mset _ _ _ r.coreBanks }

theorem State.Onward.setGalBank {g b1} (h : s.Onward b deep t) : s.Onward b deep (t.setGalBank g b1) := by
  unfold State.setGalBank
  exact h.update rfl rfl fun r => { r with galBanks := rising_mset _ _ _ r.galBanks }

theorem State.Onward.tick {core t1} (h : s.Onward b deep t) : s.Onward b deep (t.tick core t1) := by
  unfold State.tick
  dsimp only
  exact .ite h (.modCore (.setCoreBank h))

theorem State.Onward.sampleClock {core} (h : s.Onward b deep t) : s.Onward b deep (t.sampleClock core).1 := by
  unfold State.sampleClock
  dsimp only
  exact .tick (h.update rfl rfl fun r => { r with })

theorem State.Onward.count {c ev src pair n} (h : s.Onward b deep t) : s.Onward b deep (t.count c ev src pair n) := by
  unfold State.count
  exact .ite h (.setCoreBank h)

theorem State.Onward.countGal {g ev n} (h : s.Onward b deep t) : s.Onward b deep (t.countGal g ev n) := by
  unfold State.countGal
  exact .ite h (.setGalBank h)

theorem State.Onward.countWide {i n} (h : s.Onward b deep t) : s.Onward b deep (t.countWide i n) := by
  unfold State.countWide
  exact h.update rfl rfl fun r => { r with }

theorem State.Onward.setTrc {b1 t1} (h : s.Onward b deep t) : s.Onward b deep (t.setTrc b1 t1) := by
  unfold State.setTrc
  exact h.update rfl rfl fun r => { r with traces := rising_mset _ _ _ r.traces }

theorem State.Onward.traceEvent {b1 pair ev payload} (h : s.Onward b deep t) : s.Onward b deep (t.traceEvent b1 pair ev payload) := by
  unfold State.traceEvent
  dsimp only
  exact .ite (.setTrc (.sample h)) h

theorem State.Onward.traceStart {core pair tag src ctx} (h : s.Onward b deep t) : s.Onward b deep (t.traceStart core pair tag src ctx) := by
  unfold State.traceStart
  exact .traceEvent h

theorem State.Onward.traceEnd {core pair tag src ctx status} (h : s.Onward b deep t) : s.Onward b deep (t.traceEnd core pair tag src ctx status) := by
  unfold State.traceEnd
  exact .traceEvent h

theorem State.Onward.setGal {g x} (h : s.Onward b deep t) : s.Onward b deep (t.setGal g x) := by
  unfold State.setGal
  exact h.update rfl rfl fun r => { r with gals := rising_mset _ _ _ r.gals }

theorem State.Onward.setLimit {g i duty mhz} (h : s.Onward b deep t) : s.Onward b deep (t.setLimit g i duty mhz) := by
  unfold State.setLimit
  dsimp only
  exact .setGal h

theorem State.Onward.galState {g st} (h : s.Onward b deep t) : s.Onward b deep (t.galState g st) := by
  unfold State.galState
  dsimp only
  exact .traceEvent (.setGal h)

theorem State.Onward.wakeGal {g} (h : s.Onward b deep t) : s.Onward b deep (t.wakeGal g) := by
  unfold State.wakeGal
  dsimp only
  exact .ite (.galState h) h

theorem State.Onward.endPhase {g} (h : s.Onward b deep t) : s.Onward b deep (t.endPhase g) := by
  unfold State.endPhase
  dsimp only
  exact .setGal (.pick (.pick (.pick h)))

theorem State.Onward.startPhase {g pair} (h : s.Onward b deep t) : s.Onward b deep (t.startPhase g pair) := by
  unfold State.startPhase
  dsimp only
  exact .ite h (.traceEvent (.setLimit (.setGal (.pick (.pick (.pick (.ite (.endPhase h) (.countGal (.endPhase h)))))))))

theorem State.Onward.startCommand {c src pair} (h : s.Onward b deep t) : s.Onward b deep (t.startCommand c src pair) := by
  unfold State.startCommand
  dsimp only
  refine .setCoreBank ?_
  split
  · exact .tick (.startPhase (.wakeGal h))
  · exact .startPhase (.wakeGal h)

theorem State.Onward.setEvlog {fn l} (h : s.Onward b deep t) : s.Onward b deep (t.setEvlog fn l) := by
  unfold State.setEvlog
  exact h.update rfl rfl fun r => { r with logs := rising_mset _ _ _ r.logs }

end Sys2Proof.Machine
end

section
/-! What the operations of Attention.lean keep. -/

namespace Sys2Proof.Machine

open Sys2Proof

variable {b : Bool} {deep : Nat} {s t u : State}

theorem State.Onward.deliver {fn} (h : s.Onward b deep t) : s.Onward b deep (t.deliver fn) := by
  unfold State.deliver
  extract_lets src u f bound v
  have hu : s.Onward b deep u := .ite (.emit (.setFunc h)) h
  have hv : s.Onward b deep v := .setFunc hu
  exact .ite (.ite (.setFunc hu) (.ite hu (.ite (.setFunc hu) (.ite (.setFunc hu) (.emit (.setFunc hu))))))
    (.ite hu (.ite (.ite (.emit hv) hv) (.ite hu (.emit (.setFunc hu)))))

theorem State.Onward.driveAttn (h : s.Onward b deep t) : s.Onward b deep t.driveAttn := by
  unfold State.driveAttn
  extract_lets f low u wake
  have hu : s.Onward b deep u := .ite h (.emit (h.update rfl rfl fun r => { r with }))
  exact .ite hu (.emit (hu.update rfl rfl fun r => { r with }))

theorem State.Onward.settle {fn} (h : s.Onward b deep t) : s.Onward b deep (t.settle fn) := by
  unfold State.settle
  dsimp only
  exact .driveAttn (.deliver (.setFunc h))

theorem State.Onward.raise {fn c} (h : s.Onward b deep t) : s.Onward b deep (t.raise fn c) := by
  unfold State.raise
  dsimp only
  exact .driveAttn (.deliver (.setFunc h))

theorem State.Onward.hostError {fn kind write ctx addr} (h : s.Onward b deep t) : s.Onward b deep (t.hostError fn kind write ctx addr) := by
  unfold State.hostError
  dsimp only
  exact .raise (.ite (.setFunc h) h)

theorem State.Onward.logEvent {fn kind body} (h : s.Onward b deep t) : s.Onward b deep (t.logEvent fn kind body) := by
  unfold State.logEvent
  dsimp only
  exact .ite (.raise (.raise (.setEvlog (.sample h)))) (.raise (.setEvlog (.sample h)))

theorem State.Onward.notifyFn {fn kind body} (h : s.Onward b deep t) : s.Onward b deep (t.notifyFn fn kind body) := by
  unfold State.notifyFn
  dsimp only
  exact .ite (.setEvlog (.sample h)) (.raise (.setEvlog (.sample h)))

theorem State.Onward.postWrites {fn size addr bytes fuel} (h : s.Onward b deep t) : s.Onward b deep (t.postWrites fn size addr bytes fuel) := by
  induction fuel generalizing t fn size addr bytes with
  | zero =>
    unfold State.postWrites
    exact h
  | succ n ih =>
    unfold State.postWrites
    exact .ite (.emit h) (ih (.emit h))

theorem State.Onward.hostWrite {fn ctx addr bytes} (h : s.Onward b deep t) : s.Onward b deep (t.hostWrite fn ctx addr bytes) := by
  unfold State.hostWrite
  exact .ite (.postWrites h) (.hostError h)

theorem State.Onward.hostRead {fn ctx addr n} (h : s.Onward false deep t) : s.Onward false deep (t.hostRead fn ctx addr n).1 := by
  unfold State.hostRead
  extract_lets u
  have hu : s.Onward false deep u := h.update rfl rfl fun r => { r with }
  have hp := hu.pick (n := 4)
  exact .ite_fst (.ite_fst hu (.ite_fst (.pair (.hostError hp)) (.ite_fst (.pair (.hostError hp))
    (.ite_fst (.pair (.stall (hp.update rfl rfl fun r => { r with }))) (hp.update rfl rfl fun r => { r with }))))) (.pair (.hostError hu))

end Sys2Proof.Machine
end

section
/-! What the operations of Ras.lean keep. -/

namespace Sys2Proof.Machine

open Sys2Proof

variable {b : Bool} {deep : Nat} {s t u : State}

theorem State.Onward.rasCount {key} (h : s.Onward b deep t) : s.Onward b deep (t.rasCount key) := by
  unfold State.rasCount
  exact h.update rfl rfl fun r => { r with }

theorem State.Onward.rasTell {e count rest} (h : s.Onward b deep t) : s.Onward b deep (t.rasTell e count rest) := by
  induction rest generalizing t e count with
  | nil =>
    unfold State.rasTell
    exact h
  | cons x xs ih =>
    unfold State.rasTell
    exact ih (.logEvent (.raise h))

theorem State.Onward.ras {e} (h : s.Onward b deep t) : s.Onward b deep (t.ras e) := by
  unfold State.ras
  dsimp only
  exact .rasTell (.rasCount h)

theorem State.Onward.rasCorrected {source unit fns} (h : s.Onward b deep t) : s.Onward b deep (t.rasCorrected source unit fns) := by
  unfold State.rasCorrected
  dsimp only
  exact .foldl (.rasCount h) (fun _ _ hu => (hu.update rfl rfl fun r => { r with }))

theorem State.Onward.rasRepaired {e} (h : s.Onward b deep t) : s.Onward b deep (t.rasRepaired e) := by
  unfold State.rasRepaired
  exact .foldl h (fun _ _ hu => .logEvent hu)

end Sys2Proof.Machine
end

section
/-! What the operations of Memory.lean keep. -/

namespace Sys2Proof.Machine

open Sys2Proof

variable {b : Bool} {deep : Nat} {s t u : State}

theorem State.Onward.hbmWrite {key bytes} (h : s.Onward b deep t) : s.Onward b deep (t.hbmWrite key bytes) := by
  unfold State.hbmWrite
  exact h.update rfl rfl fun r => { r with hbm := writeBytes_keeps_mwf _ _ _ r.hbm }

theorem State.Onward.setCellPoison {cell mask} (h : s.Onward b deep t) : s.Onward b deep (t.setCellPoison cell mask) := by
  unfold State.setCellPoison
  dsimp only
  exact h.update rfl rfl fun r => { r with }

theorem State.Onward.refill (h : s.Onward b deep t) : s.Onward b deep t.refill := by
  unfold State.refill
  dsimp only
  exact h.update rfl rfl fun r => { r with }

theorem State.Onward.debit {r q bytes} (h : s.Onward b deep t) : s.Onward b deep (t.debit r q bytes) := by
  unfold State.debit
  dsimp only
  exact .setBucket h

theorem State.Onward.charge {r q bytes} (h : s.Onward false deep t) : s.Onward false deep (t.charge r q bytes) := by
  unfold State.charge
  dsimp only
  exact .ite (.refill h) (.ite (.debit (.refill h)) (.ite (.ite_fst (.pick (.refill h)) (.pair (.refill h))) (.ite (.stall (.ite_fst (.pick
      (.refill h)) (.pair (.refill h)))) (.debit (.refill (.until (.ite_fst (.pick (.refill h)) (.pair (.refill h)))))))))

theorem State.Onward.chargeRoute {q rest} (h : s.Onward false deep t) : s.Onward false deep (t.chargeRoute q rest) := by
  induction rest generalizing t q with
  | nil =>
    unfold State.chargeRoute
    exact h
  | cons x xs ih =>
    unfold State.chargeRoute
    split
    · exact ih (.charge h)
    · exact ih h

theorem State.Onward.chargeHop {q src dst} (h : s.Onward false deep t) : s.Onward false deep (t.chargeHop q src dst) := by
  unfold State.chargeHop
  dsimp only
  exact .ite (h.update rfl rfl fun r => { r with }) (.ite (.charge (h.update rfl rfl fun r => { r with })) (.ite (.charge (h.update rfl rfl fun r =>
      { r with })) (.chargeRoute (h.update rfl rfl fun r => { r with }))))

theorem State.Onward.wakeStack {k dies} (h : s.Onward b deep t) : s.Onward b deep (t.wakeStack k dies) := by
  unfold State.wakeStack
  dsimp only
  exact (h.ite h.setStack).update rfl rfl fun r => { r with }

theorem State.Onward.chargeStack {payer cell write} (h : s.Onward false deep t) : s.Onward false deep (t.chargeStack payer cell write) := by
  unfold State.chargeStack
  dsimp only
  exact .ite (.stall h) (.countWide (.charge (.wakeStack h)))

theorem State.Onward.chargeHbm {payer g cell write} (h : s.Onward false deep t) : s.Onward false deep (t.chargeHbm payer g cell write) := by
  unfold State.chargeHbm
  dsimp only
  exact .ite (.chargeHop (.countGal (.chargeStack h))) (.chargeHop (.countGal (.chargeStack h)))

theorem State.Onward.setCopy {g place c} (h : s.Onward b deep t) : s.Onward b deep (t.setCopy g place c) := by
  unfold State.setCopy
  exact .modSlice h

theorem State.Onward.setHomePoison {q pa mask} (h : s.Onward b deep t) : s.Onward b deep (t.setHomePoison q pa mask) := by
  unfold State.setHomePoison
  split
  · exact .setCopy h
  · split
    · exact .setCellPoison h
    · exact h

theorem writeRuns_keeps_mwf {m : Map Byte} {key : Nat} {runs : List (Nat × List Byte)} (h : mwf 0 m = true) :
    mwf 0 (writeRuns m key runs) = true := by
  unfold writeRuns
  induction runs generalizing m with
  | nil => exact h
  | cons r rs ih => exact ih (writeBytes_keeps_mwf _ _ _ h)

theorem State.Onward.homeWrite {q pa runs} (h : s.Onward b deep t) : s.Onward b deep (t.homeWrite q pa runs) := by
  unfold State.homeWrite
  split
  · exact h
  · split
    next k c _ =>
      dsimp only
      refine .setCopy (h.update rfl rfl fun r => { r with hbm := writeRuns_keeps_mwf ?_ })
      split
      · exact writeBytes_keeps_mwf _ _ _ r.hbm
      · exact r.hbm
    · exact .setCellPoison (h.update rfl rfl fun r => { r with hbm := writeRuns_keeps_mwf r.hbm })

theorem State.Onward.gcOut {g paid c} (h : s.Onward false deep t) : s.Onward false deep (t.gcOut g paid c) := by
  unfold State.gcOut
  dsimp only
  split
  · exact .ite (.setCellPoison (.ite (.chargeHbm (.countGal h)) (.countGal h))) h
  · exact h

theorem State.Onward.throughSlice {q pa write full} (h : s.Onward false deep t) : s.Onward false deep (t.throughSlice q pa write full) := by
  unfold State.throughSlice
  dsimp only
  split
  · exact h
  · split
    · exact .countGal h
    · refine .ite (.chargeHbm (.countGal h)) (.setCopy (.ite ?_ (.chargeHbm ?_)))
      · split
        · refine .gcOut ?_
          split
          · dsimp only
            exact .countGal h
          · dsimp only
            exact .pick (.countGal h)
        · split
          · dsimp only
            exact .countGal h
          · dsimp only
            exact .pick (.countGal h)
      · split
        · refine .gcOut ?_
          split
          · dsimp only
            exact .countGal h
          · dsimp only
            exact .pick (.countGal h)
        · split
          · dsimp only
            exact .countGal h
          · dsimp only
            exact .pick (.countGal h)

theorem State.Onward.hostCoreData (h : s.Onward b deep t) : s.Onward b deep t.hostCoreData.1 := by
  unfold State.hostCoreData
  dsimp only
  exact h.update rfl rfl fun r => { r with }

theorem State.Onward.lineWrite {line bytes poison} (h : s.Onward false deep t) : s.Onward false deep (t.lineWrite line bytes poison) := by
  unfold State.lineWrite
  dsimp only
  exact .ite (.homeWrite (.throughSlice h)) (.setHomePoison (.pick (.homeWrite (.throughSlice h))))

theorem State.Onward.recall {line agent keep paid} (h : s.Onward false deep t) : s.Onward false deep (t.recall line agent keep paid) := by
  unfold State.recall
  dsimp only
  exact .ite (.modCore h) (.ite (.setHostLine h) (.setHostLine (.ite (.lineWrite (.ite (.chargeHop (.hostCoreData (.pick (.until h))))
      (.hostCoreData (.pick (.until h))))) (.pick (.until h)))))

theorem State.Onward.dropCopies {line paid rest} (h : s.Onward false deep t) : s.Onward false deep (t.dropCopies line paid rest) := by
  induction rest generalizing t line paid with
  | nil =>
    unfold State.dropCopies
    exact h
  | cons x xs ih =>
    unfold State.dropCopies
    exact ih (.recall h)

theorem State.Onward.directoryRoom {q pa} (h : s.Onward false deep t) : s.Onward false deep (t.directoryRoom q pa) := by
  unfold State.directoryRoom
  dsimp only
  refine .ite h (.ite h ?_)
  split
  · exact .ite (.stall h) (.setHome (.dropCopies (.countGal (.countGal h))))
  · exact h

theorem State.Onward.setDir {line d} (h : s.Onward b deep t) : s.Onward b deep (t.setDir line d) := by
  unfold State.setDir
  dsimp only
  exact .setHome (h.update rfl rfl fun r => { r with })

theorem State.Onward.reachHome {q pa} (h : s.Onward false deep t) : s.Onward false deep (t.reachHome q pa) := by
  unfold State.reachHome
  exact .ite (.stall h) h

theorem State.Onward.askOwner {q pa} (h : s.Onward false deep t) : s.Onward false deep (t.askOwner q pa) := by
  unfold State.askOwner
  dsimp only
  split
  · exact .ite (.setDir (.recall (.countGal (.setHostLine (.pick (.reachHome h)))))) (.pick (.reachHome h))
  · exact .reachHome h

theorem State.Onward.homeIoRead {q pa die} (h : s.Onward false deep t) : s.Onward false deep (t.homeIoRead q pa die) := by
  unfold State.homeIoRead
  exact .chargeHop (.throughSlice (.askOwner h))

theorem State.Onward.homeIoWrite {q pa die full} (h : s.Onward false deep t) : s.Onward false deep (t.homeIoWrite q pa die full) := by
  unfold State.homeIoWrite
  dsimp only
  exact .throughSlice (.chargeHop (.ite (.reachHome h) (.setDir (.dropCopies (.countGal (.reachHome h))))))

theorem State.Onward.l1Touch {core line} (h : s.Onward b deep t) : s.Onward b deep (t.l1Touch core line) := by
  unfold State.l1Touch
  exact .modCore h

theorem State.Onward.leaveShared {line agent} (h : s.Onward b deep t) : s.Onward b deep (t.leaveShared line agent) := by
  unfold State.leaveShared
  split
  · exact .ite (.setDir h) h
  · exact h

theorem State.Onward.l1Insert {core line} (h : s.Onward b deep t) : s.Onward b deep (t.l1Insert core line) := by
  unfold State.l1Insert
  dsimp only
  exact .l1Touch (.modCore (.ite h (.leaveShared (.modCore (.pick h)))))

theorem State.Onward.crewRead {core q pa na} (h : s.Onward false deep t) : s.Onward false deep (t.crewRead core q pa na) := by
  unfold State.crewRead
  dsimp only
  refine .ite (.leaveShared (.chargeHop (.throughSlice ?_))) (.ite (.chargeHop (.throughSlice ?_)) (.l1Insert (.setDir (.chargeHop
      (.throughSlice ?_)))))
  · split
    · exact .setDir (.recall (.countGal (.ite (.modCore (.ite (.rasCorrected (.reachHome h)) (.reachHome h))) (.directoryRoom (.modCore
        (.ite (.rasCorrected (.reachHome h)) (.reachHome h)))))))
    · exact .ite (.modCore (.ite (.rasCorrected (.reachHome h)) (.reachHome h))) (.directoryRoom (.modCore (.ite (.rasCorrected (.reachHome
        h)) (.reachHome h))))
  · split
    · exact .setDir (.recall (.countGal (.ite (.modCore (.ite (.rasCorrected (.reachHome h)) (.reachHome h))) (.directoryRoom (.modCore
        (.ite (.rasCorrected (.reachHome h)) (.reachHome h)))))))
    · exact .ite (.modCore (.ite (.rasCorrected (.reachHome h)) (.reachHome h))) (.directoryRoom (.modCore (.ite (.rasCorrected (.reachHome
        h)) (.reachHome h))))
  · split
    · exact .setDir (.recall (.countGal (.ite (.modCore (.ite (.rasCorrected (.reachHome h)) (.reachHome h))) (.directoryRoom (.modCore
        (.ite (.rasCorrected (.reachHome h)) (.reachHome h)))))))
    · exact .ite (.modCore (.ite (.rasCorrected (.reachHome h)) (.reachHome h))) (.directoryRoom (.modCore (.ite (.rasCorrected (.reachHome
        h)) (.reachHome h))))

theorem State.Onward.crewWrite {core q pa full} (h : s.Onward false deep t) : s.Onward false deep (t.crewWrite core q pa full) := by
  unfold State.crewWrite
  dsimp only
  exact .throughSlice (.chargeHop (.ite (.dropCopies (.countGal (.reachHome h))) (.setDir (.dropCopies (.countGal (.reachHome h))))))

theorem State.Onward.dropSegLine {i line} (h : s.Onward false deep t) : s.Onward false deep (t.dropSegLine i line) := by
  unfold State.dropSegLine
  refine .foldl h fun w _ hw => ?_
  extract_lets k dir v
  have hv : s.Onward false deep v := .ite hw hw.dropCopies.setDir
  clear_value v
  exact hv.update rfl rfl fun r => { r with slices := rising_map _ r.slices }

theorem State.Onward.segMark {i line} (h : s.Onward false deep t) : s.Onward false deep (t.segMark i line) := by
  unfold State.segMark
  dsimp only
  exact .dropSegLine (.setSeg h)

theorem State.Onward.segSeen {i line} (h : s.Onward false deep t) : s.Onward false deep (t.segSeen i line) := by
  unfold State.segSeen
  dsimp only
  split
  · exact h
  · exact .ite (.pick h) (.segMark (.pick h))

theorem State.Onward.lineRead {m q pa n} (h : s.Onward false deep t) : s.Onward false deep (t.lineRead m q pa n).1 := by
  unfold State.lineRead
  dsimp only
  split
  · exact .ite_fst (.pair (.l1Touch h)) (.pair (.crewRead h))
  · dsimp only
    exact .homeIoRead h

theorem State.Onward.lineOpen {m q pa full} (h : s.Onward false deep t) : s.Onward false deep (t.lineOpen m q pa full) := by
  unfold State.lineOpen
  split
  · exact .crewWrite h
  · exact .homeIoWrite h

theorem State.Onward.lineStore {m q pa runs} (h : s.Onward false deep t) : s.Onward false deep (t.lineStore m q pa runs) := by
  unfold State.lineStore
  exact .homeWrite (.lineOpen h)

theorem State.Onward.paRead {m q ctx pa n} (h : s.Onward false deep t) : s.Onward false deep (t.paRead m q ctx pa n).1 := by
  unfold State.paRead
  dsimp only
  split
  · exact .lineRead h
  · refine .ite_fst h ?_
    split
    · exact .lineRead (.segSeen h)
    · dsimp only
      exact .segSeen h
    · dsimp only
      exact .segSeen h
  · split
    next e1 =>
      dsimp only
      exact h.hostRead.of_eq e1
    next e2 =>
      dsimp only
      exact h.hostRead.of_eq e2
    next e3 =>
      dsimp only
      exact h.hostRead.of_eq e3
  · dsimp only
    exact h

theorem State.Onward.paWrite {m q ctx pa bytes} (h : s.Onward false deep t) : s.Onward false deep (t.paWrite m q ctx pa bytes).1 := by
  unfold State.paWrite
  split
  · dsimp only
    exact .lineStore h
  · dsimp only
    exact .hostWrite h
  · dsimp only
    exact h

theorem State.Onward.walk {q va p fuel table} (h : s.Onward false deep t) : s.Onward false deep (t.walk q va p fuel table).1 := by
  induction fuel generalizing t q va p table with
  | zero =>
    unfold State.walk
    dsimp only
    split
    · dsimp only
      exact h
    · split
      next e1 =>
        dsimp only
        exact h.paRead.of_eq e1
      next e2 =>
        refine .ite_fst (.pair (h.paRead.of_eq e2)) (.ite_fst ?_ (.ite_fst (.pair (h.paRead.of_eq e2)) (.pair (h.paRead.of_eq e2))))
        split
        · dsimp only
          exact h.paRead.of_eq e2
        · refine .ite_fst (.pair (h.paRead.of_eq e2)) (.ite_fst (.pair (h.paRead.of_eq e2)) ?_)
          split
          · dsimp only
            exact h.paRead.of_eq e2
          · split
            next e3 =>
              dsimp only
              exact ((h.paRead.of_eq e2).paWrite).of_eq e3
            next e4 =>
              dsimp only
              exact ((h.paRead.of_eq e2).paWrite).of_eq e4
      next e5 =>
        dsimp only
        exact h.paRead.of_eq e5
      next e6 =>
        dsimp only
        exact h.paRead.of_eq e6
  | succ n ih =>
    unfold State.walk
    dsimp only
    split
    · dsimp only
      exact h
    · split
      next e1 =>
        dsimp only
        exact h.paRead.of_eq e1
      next e2 =>
        refine .ite_fst (.pair (h.paRead.of_eq e2)) (.ite_fst ?_ (.ite_fst (.pair (h.paRead.of_eq e2)) (ih (h.paRead.of_eq e2))))
        split
        · dsimp only
          exact h.paRead.of_eq e2
        · refine .ite_fst (.pair (h.paRead.of_eq e2)) (.ite_fst (.pair (h.paRead.of_eq e2)) ?_)
          split
          · dsimp only
            exact h.paRead.of_eq e2
          · split
            next e3 =>
              dsimp only
              exact ((h.paRead.of_eq e2).paWrite).of_eq e3
            next e4 =>
              dsimp only
              exact ((h.paRead.of_eq e2).paWrite).of_eq e4
      next e5 =>
        dsimp only
        exact h.paRead.of_eq e5
      next e6 =>
        dsimp only
        exact h.paRead.of_eq e6

theorem State.Onward.tlbAdd {e} (h : s.Onward b deep t) : s.Onward b deep (t.tlbAdd e) := by
  unfold State.tlbAdd
  dsimp only
  refine .ite (h.update rfl rfl fun r => { r with }) ?_
  have hp := h.pick (n := (t.tlb.filter (fun x => decide (x.cache = e.cache))).length)
  split
  · exact hp.update rfl rfl fun r => { r with }
  · exact hp

theorem State.Onward.translate {cache q ctx root va p fill} (h : s.Onward false deep t) :
    s.Onward false deep (t.translate cache q ctx root va p fill).1 := by
  unfold State.translate
  refine .ite_fst h ?_
  extract_lets hit
  clear_value hit
  split
  next u useOld e =>
    have hu : s.Onward false deep u := by
      split at e
      · have hp := h.pick (n := 2)
        cases e
        exact hp
      · cases e
        exact h
    split
    · exact hu
    · split
      next e => exact .of_eq (.walk hu) e
      next e => exact .of_eq (.walk hu) e
      next e => exact .of_eq (.walk hu) e
      next v _ _ _ _ _ _ e =>
        have hv : s.Onward false deep v := .of_eq (.walk hu) e
        split
        · exact hv
        · exact .ite_fst hv (.pair (.ite (.tlbAdd hv) hv))

theorem State.Onward.xlate {w va p} (h : s.Onward false deep t) : s.Onward false deep (t.xlate w va p).1 := by
  unfold State.xlate
  dsimp only
  exact .translate h

theorem State.Onward.readPieces {w acc rest} (h : s.Onward false deep t) : s.Onward false deep (t.readPieces w acc rest).1 := by
  induction rest generalizing t w acc with
  | nil =>
    unfold State.readPieces
    dsimp only
    exact h
  | cons x xs ih =>
    unfold State.readPieces
    split
    next e1 =>
      dsimp only
      exact h.xlate.of_eq e1
    next e2 =>
      dsimp only
      exact h.xlate.of_eq e2
    next e3 =>
      dsimp only
      exact h.xlate.of_eq e3
    next e4 =>
      split
      next e5 =>
        exact ih (((h.xlate.of_eq e4).paRead).of_eq e5)
      next e6 =>
        dsimp only
        exact ((h.xlate.of_eq e4).paRead).of_eq e6
      next e7 =>
        dsimp only
        exact ((h.xlate.of_eq e4).paRead).of_eq e7

theorem State.Onward.vaRead {w va n} (h : s.Onward false deep t) : s.Onward false deep (t.vaRead w va n).1 := by
  unfold State.vaRead
  exact .readPieces h

theorem State.Onward.writePieces {w bytes rest} (h : s.Onward false deep t) : s.Onward false deep (t.writePieces w bytes rest).1 := by
  induction rest generalizing t w bytes with
  | nil =>
    unfold State.writePieces
    dsimp only
    exact h
  | cons x xs ih =>
    unfold State.writePieces
    split
    next e1 =>
      dsimp only
      exact h.xlate.of_eq e1
    next e2 =>
      dsimp only
      exact h.xlate.of_eq e2
    next e3 =>
      dsimp only
      exact h.xlate.of_eq e3
    next e4 =>
      split
      next e5 =>
        exact ih (((h.xlate.of_eq e4).paWrite).of_eq e5)
      next e6 =>
        dsimp only
        exact ((h.xlate.of_eq e4).paWrite).of_eq e6
      next e7 =>
        dsimp only
        exact ((h.xlate.of_eq e4).paWrite).of_eq e7

theorem State.Onward.vaWrite {w va bytes} (h : s.Onward false deep t) : s.Onward false deep (t.vaWrite w va bytes).1 := by
  unfold State.vaWrite
  exact .writePieces h

theorem State.Onward.holdRead {r seg line} (h : s.Onward b deep t) : s.Onward b deep (t.holdRead r seg line) := by
  unfold State.holdRead
  dsimp only
  exact .ite h (.setSeg (.sample h))

theorem State.Onward.dropHeld {r} (h : s.Onward b deep t) : s.Onward b deep (t.dropHeld r) := by
  unfold State.dropHeld
  dsimp only
  exact .ite (h.update rfl rfl fun r => { r with segs := rising_map _ r.segs }) h

theorem State.Onward.orHeld {r a} (h : s.Onward b deep t) : s.Onward b deep (t.orHeld r a).1 := by
  unfold State.orHeld
  split
  · exact .ite_fst (.pair (.dropHeld h)) (.pair (.holdRead h))
  · dsimp only
    exact h

theorem State.Onward.spaceRead {w space addr n} (h : s.Onward false deep t) : s.Onward false deep (t.spaceRead w space addr n).1 := by
  unfold State.spaceRead
  dsimp only
  refine .ite_fst (.orHeld (.vaRead h)) ?_
  split
  next e1 =>
    dsimp only
    exact h.hostRead.of_eq e1
  next e2 =>
    dsimp only
    exact h.hostRead.of_eq e2
  next e3 =>
    dsimp only
    exact h.hostRead.of_eq e3

theorem State.Onward.recordWrite {ctx space addr bytes} (h : s.Onward false deep t) : s.Onward false deep (t.recordWrite ctx space addr bytes) := by
  unfold State.recordWrite
  refine .ite ?_ (.hostWrite h)
  split
  next e1 =>
    exact h.vaWrite.of_eq e1
  next e2 =>
    exact .stall (h.vaWrite.of_eq e2)
  next e3 =>
    exact .hostError (h.vaWrite.of_eq e3)

end Sys2Proof.Machine
end

section
/-! What the operations of CrewOps.lean keep. -/

namespace Sys2Proof.Machine

open Sys2Proof

variable {b : Bool} {deep : Nat} {s t u : State}

theorem State.Onward.modPkt {ctx pid f} (h : s.Onward b (deep + 1) t) : s.Onward b (deep + 1) (t.modPkt ctx pid f) := by
  unfold State.modPkt
  exact .modCtx_of h fun _ => rfl

theorem State.Onward.packetDone {ctx pid status detail} (h : s.Onward b (deep + 1) t) : s.Onward b (deep + 1)
    (t.packetDone ctx pid status detail) := by
  unfold State.packetDone
  exact .modPkt h

theorem State.Onward.checkLaunch {n} (h : s.Onward b (deep + 2) t) : s.Onward b (deep + 2) (t.checkLaunch n) := by
  unfold State.checkLaunch
  dsimp only
  split
  · exact h
  · refine .ite h (.ite (.packetDone ((h.foldl (fun _ _ hu => .traceEnd hu)).shrink rfl rfl fun r =>
      { r with launches := rising_merase _ r.launches, cores := rising_map _ r.cores })) ?_)
    split
    · exact .ite (.packetDone ((h.foldl (fun _ _ hu => .traceEnd hu)).shrink rfl rfl fun r =>
        { r with launches := rising_merase _ r.launches, cores := rising_map _ r.cores })) (.packetDone ((h.foldl (fun _ _ hu => .traceEnd
        hu)).shrink rfl rfl fun r => { r with launches := rising_merase _ r.launches, cores := rising_map _ r.cores }))
    · exact .packetDone ((h.foldl (fun _ _ hu => .traceEnd hu)).shrink rfl rfl fun r =>
        { r with launches := rising_merase _ r.launches, cores := rising_map _ r.cores })

theorem State.Onward.crewFault {core key r} (h : s.Onward b (deep + 2) t) : s.Onward b (deep + 2) (t.crewFault core key r) := by
  unfold State.crewFault
  dsimp only
  split
  · exact h
  · exact .ite h (.checkLaunch (.ite (.notifyFn (.traceEvent (.modLaunch (.setCrew (.sample h))))) (.traceEvent (.modLaunch (.setCrew
      (.sample h))))))

theorem State.Onward.crewLost {core key reg} (h : s.Onward b (deep + 2) t) : s.Onward b (deep + 2) (t.crewLost core key reg) := by
  unfold State.crewLost
  dsimp only
  split
  · exact h
  · exact .checkLaunch (.ras (.modLaunch (.modCore (.sample h))))

theorem State.Onward.pathFault {core key code addr thread} (h : s.Onward b (deep + 2) t) : s.Onward b (deep + 2)
    (t.pathFault core key code addr thread) := by
  unfold State.pathFault
  dsimp only
  split
  · split
    · exact .crewFault h
    · exact .crewFault (.fresh (.fresh h))
  · exact h

theorem State.Onward.strandCheck {core key} (h : s.Onward b (deep + 2) t) : s.Onward b (deep + 2) (t.strandCheck core key) := by
  unfold State.strandCheck
  dsimp only
  split
  · exact .ite (.pathFault (.fresh h)) h
  · exact h

theorem State.Onward.freeCrew {core key} (h : s.Onward b deep t) : s.Onward b deep (t.freeCrew core key) := by
  unfold State.freeCrew
  exact .modCore h

end Sys2Proof.Machine
end

section
/-! What the operations of LandingOps.lean keep. -/

namespace Sys2Proof.Machine

open Sys2Proof

variable {b : Bool} {deep : Nat} {s t u : State}

theorem State.Onward.releaseMark {w status gen} (h : s.Onward b (deep + 1) t) : s.Onward b (deep + 1) (t.releaseMark w status gen) := by
  unfold State.releaseMark
  dsimp only
  exact h.change rfl rfl fun r => { r with cores := rising_map _ r.cores }

theorem State.Onward.notify {p status gen} (h : s.Onward b (deep + 1) t) : s.Onward b (deep + 1) (t.notify p status gen) := by
  unfold State.notify
  dsimp only
  split
  · exact .releaseMark h
  · exact .modCore h
  · split
    · exact .ite (.modCtx_of h fun _ => rfl) (.packetDone h)
    · exact h

theorem State.Onward.notifyAll {status gen rest} (h : s.Onward b (deep + 1) t) : s.Onward b (deep + 1) (t.notifyAll status gen rest) := by
  induction rest generalizing t status gen with
  | nil =>
    unfold State.notifyAll
    exact h
  | cons x xs ih =>
    unfold State.notifyAll
    exact ih (.notify h)

theorem State.Onward.traceRelease {key gen status} (h : s.Onward b deep t) : s.Onward b deep (t.traceRelease key gen status) := by
  unfold State.traceRelease
  dsimp only
  exact .ite h (.traceEvent (.fresh h))

theorem State.Onward.releaseSlot {key gen} (h : s.Onward b (deep + 1) t) : s.Onward b (deep + 1) (t.releaseSlot key gen) := by
  unfold State.releaseSlot
  dsimp only
  exact .traceRelease (.notifyAll (.setSlot h))

theorem State.Onward.realign {ctx lid period} (h : s.Onward b (deep + 1) t) : s.Onward b (deep + 1) (t.realign ctx lid period) := by
  unfold State.realign
  dsimp only
  exact .ite h (.ite h (.modSlot h))

theorem State.Onward.tellSubscribers {key kind gen status} (h : s.Onward b (deep + 1) t) : s.Onward b (deep + 1)
    (t.tellSubscribers key kind gen status) := by
  unfold State.tellSubscribers
  exact h.change rfl rfl fun r => { r with }

theorem State.Onward.arriveFull {key fuel table} (h : s.Onward b (deep + 1) t) : s.Onward b (deep + 1) (t.arriveFull key fuel table) := by
  induction fuel generalizing t key table with
  | zero =>
    unfold State.arriveFull
    exact h
  | succ n ih =>
    unfold State.arriveFull
    dsimp only
    exact .ite h (.ite (.setSlot h) (.ite (.setSlot h) (ih (.modSlot (.tellSubscribers (.releaseSlot (.ite (.realign (.realign (.modSlot
        (.setSlot h)))) (.modSlot (.setSlot h)))))))))

theorem State.Onward.loseSlot {key} (h : s.Onward b (deep + 1) t) : s.Onward b (deep + 1) (t.loseSlot key) := by
  unfold State.loseSlot
  extract_lets x u v w
  refine .ite h ?_
  have hw : s.Onward b (deep + 1) w := h.tellSubscribers.setSlot.notifyAll
  clear_value w
  exact .mapCtxs (t := { w with mirrorQ := w.mirrorQ.filter (fun m => decide (m.slot ≠ key)) }) (hw.change rfl rfl fun r => { r with }) fun _ _ => rfl

theorem State.Onward.slotError {key} (h : s.Onward b (deep + 1) t) : s.Onward b (deep + 1) (t.slotError key) := by
  unfold State.slotError
  dsimp only
  exact .ite (.loseSlot (.ras (.setSlot h))) h

theorem State.Onward.meetSlot {key} (h : s.Onward false (deep + 1) t) : s.Onward false (deep + 1) (t.meetSlot key) := by
  unfold State.meetSlot
  split
  · exact .ite (.stall h) (.slotError h)
  · exact .slotError h

theorem State.Onward.arrive {key ctx c} (h : s.Onward false (deep + 1) t) : s.Onward false (deep + 1) (t.arrive key ctx c) := by
  unfold State.arrive
  dsimp only
  split
  · exact .meetSlot h
  · exact .meetSlot h
  · refine .ite (h.meetSlot.change rfl rfl fun r => { r with }) ?_
    split
    · exact .ite (.tellSubscribers (.releaseSlot (.setSlot (.meetSlot h)))) (.arriveFull (.meetSlot h))
    · exact .setSlot (.meetSlot h)

theorem State.Onward.wait {key p mode target} (h : s.Onward false (deep + 1) t) : s.Onward false (deep + 1) (t.wait key p mode target).1 := by
  unfold State.wait
  dsimp only
  split
  · dsimp only
    exact .meetSlot h
  · dsimp only
    exact .meetSlot h
  · exact .ite_fst (.pair (.meetSlot h)) (.pair (.modSlot (.sample (.meetSlot h))))

theorem State.Onward.arriveWait {key ctx c p} (h : s.Onward false (deep + 1) t) : s.Onward false (deep + 1) (t.arriveWait key ctx c p).1 := by
  unfold State.arriveWait
  dsimp only
  exact .ite_fst (.pair (.arrive h)) (.wait (.arrive h))

theorem State.Onward.loseSlots {rest} (h : s.Onward b (deep + 1) t) : s.Onward b (deep + 1) (t.loseSlots rest) := by
  induction rest generalizing t with
  | nil =>
    unfold State.loseSlots
    exact h
  | cons x xs ih =>
    unfold State.loseSlots
    exact ih (.loseSlot h)

end Sys2Proof.Machine
end

section
/-! What the operations of MitorOps.lean keep. -/

namespace Sys2Proof.Machine

open Sys2Proof

variable {b : Bool} {deep : Nat} {s t u : State}

theorem State.Onward.setBank {b1 x} (h : s.Onward b (deep + 1) t) : s.Onward b (deep + 1) (t.setBank b1 x) := by
  unfold State.setBank
  exact .ite (h.change rfl rfl fun r => { r with }) (h.change rfl rfl fun r => { r with })

theorem State.Onward.startWrite (h : s.Onward b (deep + 1) t) : s.Onward b (deep + 1) t.startWrite := by
  unfold State.startWrite
  dsimp only
  exact h.setBank.change rfl rfl fun r => { r with }

theorem State.Onward.persist (h : s.Onward b (deep + 1) t) : s.Onward b (deep + 1) t.persist := by
  unfold State.persist
  exact .ite (h.change rfl rfl fun r => { r with }) (.startWrite h)

theorem State.Onward.modRepair {f} (h : s.Onward b (deep + 1) t) : s.Onward b (deep + 1) (t.modRepair f) := by
  unfold State.modRepair
  dsimp only
  exact h.change rfl rfl fun r => { r with }

theorem State.Onward.auditAdd {path role gen keyId code counter result accepted req} (h : s.Onward b (deep + 1) t) :
    s.Onward b (deep + 1) (t.auditAdd path role gen keyId code counter result accepted req).1 := by
  unfold State.auditAdd
  have hs := h.sample
  exact { hs with audit := hs.audit.trans (Nat.le_succ _), tables := fun r => { hs.tables r with }, access := fun hd => by omega }

theorem State.Onward.auditEnd {seq status} (h : s.Onward b (deep + 1) t) : s.Onward b (deep + 1) (t.auditEnd seq status) := by
  unfold State.auditEnd
  split
  · exact h
  · split
    · exact h.change rfl rfl fun r => { r with }
    · exact h

theorem State.Onward.setMbox {p x} (h : s.Onward b (deep + 1) t) : s.Onward b (deep + 1) (t.setMbox p x) := by
  unfold State.setMbox
  exact h.change rfl rfl fun r => { r with mailboxes := rising_mset _ _ _ r.mailboxes }

theorem State.Onward.setTaken {p t1} (h : s.Onward b (deep + 1) t) : s.Onward b (deep + 1) (t.setTaken p t1) := by
  unfold State.setTaken
  exact h.change rfl rfl fun r => { r with }

theorem State.Onward.post {path via discard msg} (h : s.Onward b (deep + 1) t) : s.Onward b (deep + 1) (t.post path via discard msg) := by
  unfold State.post
  dsimp only
  exact .ite (.emit h) (.ite h (.raise (.setMbox h)))

theorem State.Onward.deliverTaken {path} (h : s.Onward b (deep + 1) t) : s.Onward b (deep + 1) (t.deliverTaken path) := by
  unfold State.deliverTaken
  dsimp only
  split
  · exact h
  · exact .post (h.change rfl rfl fun r => { r with })

theorem State.Onward.addResponse {path status resp} (h : s.Onward b (deep + 1) t) : s.Onward b (deep + 1) (t.addResponse path status resp) := by
  unfold State.addResponse
  split
  · exact .setTaken h
  · exact h

theorem State.Onward.accept {path u1} (h : s.Onward b (deep + 1) t) : s.Onward b (deep + 1) (t.accept path u1) := by
  unfold State.accept
  dsimp only
  split
  · exact h
  · split
    · exact .addResponse (.auditEnd (.ite_fst (.auditAdd (.ite h (h.change rfl rfl fun r => { r with }))) (.pair (.ite h (h.change rfl rfl fun r =>
        { r with })))))
    · exact .setTaken (.ite_fst (.auditAdd (.ite h (h.change rfl rfl fun r => { r with }))) (.pair (.ite h (h.change rfl rfl fun r => { r with }))))

theorem State.Onward.beginSub {path gen bs form} (h : s.Onward b (deep + 1) t) : s.Onward b (deep + 1) (t.beginSub path gen bs form) := by
  unfold State.beginSub
  split
  · exact h
  · dsimp only
    split
    · exact .addResponse (.ite (.auditAdd h) h)
    · exact .accept h
    next x _ _ u _ =>
      have hs := h.setTaken (p := path) (t1 := { x with cur := some { u with stage := .reserving (t.writeNo + 1) } })
      exact .persist (hs.change rfl rfl fun r => { r with })

theorem State.Onward.nextSubs {path rest} (h : s.Onward b (deep + 1) t) : s.Onward b (deep + 1) (t.nextSubs path rest) := by
  induction rest generalizing t path with
  | nil =>
    unfold State.nextSubs
    exact .deliverTaken h
  | cons x xs ih =>
    unfold State.nextSubs
    dsimp only
    split
    · exact h
    · refine .ite (ih (.addResponse (.setTaken h))) (.ite (.setTaken h) ?_)
      split
      · exact .ite (.beginSub (.setTaken h)) (.beginSub (.setTaken h))
      · exact ih (.ite (.beginSub (.setTaken h)) (.beginSub (.setTaken h)))

theorem State.Onward.goOn {path} (h : s.Onward b (deep + 1) t) : s.Onward b (deep + 1) (t.goOn path) := by
  unfold State.goOn
  split
  · exact .ite h (.nextSubs h)
  · exact h

theorem State.Onward.reply {path status detail fields} (h : s.Onward b (deep + 1) t) : s.Onward b (deep + 1) (t.reply path status detail fields) := by
  unfold State.reply
  dsimp only
  split
  · exact h
  · exact .goOn (.addResponse (.auditEnd h))

theorem State.Onward.reply1 {path status payload} (h : s.Onward b (deep + 1) t) : s.Onward b (deep + 1) (t.reply1 path status payload) := by
  unfold State.reply1
  dsimp only
  split
  · exact h
  · exact .goOn (.addResponse (.auditEnd h))

theorem State.Onward.answer {path status detail fields} (h : s.Onward b (deep + 1) t) : s.Onward b (deep + 1)
    (t.answer path status detail fields) := by
  unfold State.answer
  split
  · exact .reply h
  · exact h

theorem State.Onward.await {path} (h : s.Onward b (deep + 1) t) : s.Onward b (deep + 1) (t.await path) := by
  unfold State.await
  split
  · split
    · exact .setTaken h
    · exact h
  · exact h

theorem State.Onward.replyStored {path fields} (h : s.Onward b (deep + 1) t) : s.Onward b (deep + 1) (t.replyStored path fields) := by
  unfold State.replyStored
  split
  · split
    · exact .persist (.setTaken h)
    · exact .persist h
  · exact .persist h

theorem State.Onward.answerStored {path fields} (h : s.Onward b (deep + 1) t) : s.Onward b (deep + 1) (t.answerStored path fields) := by
  unfold State.answerStored
  split
  · exact .replyStored h
  · exact .persist h

theorem State.Onward.command {path code f} (h : s.Onward b (deep + 1) t) (hf : ∀ x u, s.Onward b (deep + 1) (f x u)) : s.Onward b (deep + 1)
    (t.command path code f) := by
  unfold State.command
  split
  · split
    · exact .ite (.ite (.reply h) (hf _ _)) h
    · exact h
  · exact h

theorem State.Onward.takeMessage {path role part via posted bs} (h : s.Onward b (deep + 1) t) : s.Onward b (deep + 1)
    (t.takeMessage path role part via posted bs)
    := by
  unfold State.takeMessage
  dsimp only
  refine .ite (.goOn (.beginSub (.setTaken h))) (.ite (.ite (.goOn (.beginSub (.setTaken h))) (.goOn (.setTaken (.setTaken h)))) (.ite ?_
      (.goOn (.addResponse (.setTaken h)))))
  split
  · exact .goOn (.addResponse (.setTaken h))
  · exact .goOn (.setTaken (.setTaken h))

end Sys2Proof.Machine
end

section
/-! What the operations of StreamOps.lean keep. -/

namespace Sys2Proof.Machine

open Sys2Proof

variable {b : Bool} {deep : Nat} {s t u : State}

theorem State.Onward.logIngress {ctx e} (h : s.Onward b (deep + 3) t) : s.Onward b (deep + 3) (t.logIngress ctx e) := by
  unfold State.logIngress
  dsimp only
  exact .raise (.setCtx h)

theorem State.Onward.writeCredit {ctx} (h : s.Onward false (deep + 1) t) : s.Onward false (deep + 1) (t.writeCredit ctx) := by
  unfold State.writeCredit
  dsimp only
  exact .modCtx_of (.recordWrite h) fun _ => rfl

theorem State.Onward.writeRecord {ctx tag layer oper detail status interrupt} (h : s.Onward false (deep + 1) t) : s.Onward false (deep + 1)
    (t.writeRecord ctx tag
    layer oper detail status interrupt) := by
  unfold State.writeRecord
  dsimp only
  exact .modCtx_of (.recordWrite (.recordWrite (.sample h))) fun _ => rfl

theorem State.Onward.dropRunAhead {ctx gone} (h : s.Onward b (deep + 2) t) : s.Onward b (deep + 2) (t.dropRunAhead ctx gone) := by
  unfold State.dropRunAhead
  dsimp only
  exact .ite h (h.shrink rfl rfl fun r => { r with coxLaunches := rising_filter _ r.coxLaunches, cores := rising_map _ r.cores })

theorem State.Onward.unwait {p} (h : s.Onward b (deep + 1) t) : s.Onward b (deep + 1) (t.unwait p) := by
  unfold State.unwait
  exact h.change rfl rfl fun r => { r with slots := rising_map _ r.slots }

theorem State.Onward.unwaitAll {ctx rest} (h : s.Onward b (deep + 1) t) : s.Onward b (deep + 1) (t.unwaitAll ctx rest) := by
  induction rest generalizing t ctx with
  | nil =>
    unfold State.unwaitAll
    exact h
  | cons x xs ih =>
    unfold State.unwaitAll
    exact .ite (ih (.unwait h)) (ih h)

theorem State.Onward.dropUndispatched {ctx} (h : s.Onward b (deep + 2) t) : s.Onward b (deep + 2) (t.dropUndispatched ctx) := by
  unfold State.dropUndispatched
  dsimp only
  exact .modCtx_of (.dropRunAhead (.unwaitAll h)) fun c => standing_endChains _ _

theorem State.Onward.endPreempt {ctx status} (h : s.Onward b (deep + 1) t) : s.Onward b (deep + 1) (t.endPreempt ctx status) := by
  unfold State.endPreempt
  dsimp only
  refine .answer ?_
  split
  · exact .answer (.setCtx_of h rfl)
  · exact .setCtx_of h rfl

theorem State.Onward.faultCtx {ctx status tag} (h : s.Onward b (deep + 3) t) : s.Onward b (deep + 3) (t.faultCtx ctx status tag) := by
  unfold State.faultCtx
  dsimp only
  exact .ite (.endPreempt (.dropUndispatched (.setCtx h))) h

theorem State.Onward.completePkt {ctx p status detail} (h : s.Onward false (deep + 3) t) : s.Onward false (deep + 3)
    (t.completePkt ctx p status detail) := by
  unfold State.completePkt
  dsimp only
  exact .ite (.modPkt h) (.ite (.faultCtx (.writeRecord (.modPkt h))) (.writeRecord (.modPkt h)))

theorem State.Onward.dispatch {ctx pid stage} (h : s.Onward b (deep + 3) t) : s.Onward b (deep + 3) (t.dispatch ctx pid stage) := by
  unfold State.dispatch
  dsimp only
  exact .modCtx h

theorem State.Onward.atDispatch {ctx op f} (h : s.Onward b (deep + 3) t) (hf : ∀ p, s.Onward b (deep + 3) (f t p)) : s.Onward b (deep + 3)
    (t.atDispatch ctx op f) := by
  unfold State.atDispatch
  split
  next p _ => exact .ite (.ite (.dispatch h) (hf p)) h
  · exact h

end Sys2Proof.Machine
end

section
/-! What the operations of Crews.lean keep. -/

namespace Sys2Proof.Machine

open Sys2Proof

variable {b : Bool} {deep : Nat} {s t u : State}

theorem State.Onward.enqueueCrews {n total table rest} (h : s.Onward b deep t) : s.Onward b deep (t.enqueueCrews n total table rest) := by
  induction rest generalizing t n total table with
  | nil =>
    unfold State.enqueueCrews
    exact h
  | cons x xs ih =>
    unfold State.enqueueCrews
    dsimp only
    exact ih (.ite (.modCore h) h)

theorem execLaunchCrews_goes {ctx} (h : s.Onward b (deep + 3) t) : s.Goes b (deep + 3) (execLaunchCrews ctx t) := by
  unfold execLaunchCrews
  dsimp only
  exact .next (.atDispatch h (fun _ => (.ite h (.ite (.packetDone (.dispatch h)) (.ite (.packetDone (.dispatch h)) (.enqueueCrews
      (h.dispatch.lose rfl rfl fun r => { r with launches := rising_minsert _ _ r.launches })))))))

theorem State.Onward.placeIn {core q c} (h : s.Onward b deep t) : s.Onward b deep (t.placeIn core q c) := by
  unfold State.placeIn
  dsimp only
  exact .ite (.setCrew (.pick h)) (.setCrew (.modCore (.pick h)))

theorem State.Onward.checkResume {ctx} (h : s.Onward b (deep + 3) t) : s.Onward b (deep + 3) (t.checkResume ctx) := by
  unfold State.checkResume
  dsimp only
  split
  · exact .ite h (.reply (.foldl (.setCtx h) (fun _ _ hu => .packetDone hu)))
  · exact h

theorem execCrewPlace_goes {core} (h : s.Onward b (deep + 3) t) : s.Goes b (deep + 3) (execCrewPlace core t) := by
  unfold execCrewPlace
  dsimp only
  split
  · exact .next (.modCore h)
  · split
    · exact .next (.modCore h)
    · split
      · exact .next (.placeIn (.modCore (.ite (.traceStart (.startCommand (.sampleClock (.modCore h)))) (.sampleClock (.modCore h)))))
      · exact .next (.modCore h)
  · split
    · exact .ite (.next (.checkResume (.placeIn (.modCore (.sampleClock (.modCore h)))))) (.next (.modCore h))
    · exact .next (.modCore h)

theorem execCrewLeave_goes {c} (h : s.Onward b (deep + 2) t) : s.Goes b (deep + 2) (execCrewLeave c t) := by
  unfold execCrewLeave
  split
  · exact .ite (.next (.checkLaunch (.freeCrew h))) (.next h)
  · exact .next h

theorem execLaunchFaultSignal_goes {launch core} (h : s.Onward b (deep + 2) t) : s.Goes b (deep + 2) (execLaunchFaultSignal launch core t) := by
  unfold execLaunchFaultSignal
  split
  · exact .ite (.next (.checkLaunch (.modLaunch h))) (.next h)
  · exact .next h

theorem execWatchdog_goes {c} (h : s.Onward b (deep + 2) t) : s.Goes b (deep + 2) (execWatchdog c t) := by
  unfold execWatchdog
  dsimp only
  split
  · split
    · exact .ite (.next h) (.next (.pathFault (.fresh (.tick h))))
    · exact .next h
  · exact .next h

theorem execResultArrival_goes {c n} (h : s.Onward b deep t) : s.Goes b deep (execResultArrival c n t) := by
  unfold execResultArrival
  dsimp only
  split
  · split
    · exact .next (.setCrew (.tick h))
    · exact .next h
  · exact .next h

theorem State.Onward.fetchLine {core ctx va} (h : s.Onward false deep t) : s.Onward false deep (t.fetchLine core ctx va).1 := by
  unfold State.fetchLine
  dsimp only
  split
  next e1 =>
    dsimp only
    exact h.xlate.of_eq e1
  next e2 =>
    dsimp only
    exact h.xlate.of_eq e2
  next e3 =>
    dsimp only
    exact h.xlate.of_eq e3
  next e4 =>
    split
    next e5 =>
      dsimp only
      exact ((h.xlate.of_eq e4).paRead).of_eq e5
    next e6 =>
      dsimp only
      exact ((h.xlate.of_eq e4).paRead).of_eq e6

theorem State.Onward.icacheAdd {core key pa bs} (h : s.Onward b deep t) : s.Onward b deep (t.icacheAdd core key pa bs) := by
  unfold State.icacheAdd
  dsimp only
  exact .modCore (.ite_fst h (.pair (.pick h)))

theorem execInstructionCacheFill_goes {c} (h : s.Onward b (deep + 2) t) : s.Goes b (deep + 2) (execInstructionCacheFill c t) := by
  unfold execInstructionCacheFill
  dsimp only
  refine waits_goes h ?_
  split
  · split
    · refine .ite (.next h.any) ?_
      split
      · exact .next h.any
      · split
        next e1 =>
          exact .next (.icacheAdd (.dropHeld (h.any.fetchLine.orHeld.of_eq e1)))
        next e2 =>
          exact .next (.pathFault (h.any.fetchLine.orHeld.of_eq e2))
        next e3 =>
          exact .next (.pathFault (h.any.fetchLine.orHeld.of_eq e3))
        next e4 =>
          exact .next (h.any.fetchLine.orHeld.of_eq e4)
    · exact .next h.any
  · exact .next h.any

end Sys2Proof.Machine
end

section
/-! What the operations of ThreadAlu.lean keep. -/

namespace Sys2Proof.Machine

open Sys2Proof

variable {b : Bool} {deep : Nat} {s t u : State}

theorem State.Onward.issued {z} (h : s.Onward b deep t) : s.Onward b deep (t.issued z) := by
  unfold State.issued
  exact .count (.count (.count (.wakeGal h)))

theorem State.Onward.trap {z code addr thread} (h : s.Onward b (deep + 2) t) : s.Onward b (deep + 2) (t.trap z code addr thread) := by
  unfold State.trap
  exact .crewFault (.issued h)

theorem State.Onward.trapAt {z code thread} (h : s.Onward b (deep + 2) t) : s.Onward b (deep + 2) (t.trapAt z code thread) := by
  unfold State.trapAt
  exact .trap h

theorem State.Onward.finish {z writes flags load} (h : s.Onward b deep t) : s.Onward b deep (t.finish z writes flags load) := by
  unfold State.finish
  dsimp only
  exact .modCrew (.issued h)

theorem State.Onward.advance {z} (h : s.Onward b deep t) : s.Onward b deep (t.advance z) := by
  unfold State.advance
  exact .finish h

theorem State.Onward.perThread {z n f} (h : s.Onward b (deep + 2) t) : s.Onward b (deep + 2) (t.perThread z n f) := by
  unfold State.perThread
  dsimp only
  split
  · exact .trapAt h
  · exact .finish h

theorem State.Onward.perThreadPred {z f} (h : s.Onward b (deep + 2) t) : s.Onward b (deep + 2) (t.perThreadPred z f) := by
  unfold State.perThreadPred
  dsimp only
  split
  · exact .trapAt h
  · exact .finish h

theorem State.Onward.uniform {z x} (h : s.Onward b deep t) : s.Onward b deep (t.uniform z x) := by
  unfold State.uniform
  exact .finish h

theorem State.Onward.intClass {z} (h : s.Onward b (deep + 2) t) : s.Onward b (deep + 2) (t.intClass z) := by
  unfold State.intClass
  dsimp only
  exact .ite (.uniform h) (.perThread h)

theorem State.Onward.fpClass {z f} (h : s.Onward b (deep + 2) t) : s.Onward b (deep + 2) (t.fpClass z f) := by
  unfold State.fpClass
  dsimp only
  exact .perThread h

theorem State.Onward.halfClass {z} (h : s.Onward b (deep + 2) t) : s.Onward b (deep + 2) (t.halfClass z) := by
  unfold State.halfClass
  dsimp only
  exact .perThread h

theorem State.Onward.toMx {z} (h : s.Onward b (deep + 2) t) : s.Onward b (deep + 2) (t.toMx z) := by
  unfold State.toMx
  dsimp only
  exact .perThread h

theorem State.Onward.fromMx {z} (h : s.Onward b (deep + 2) t) : s.Onward b (deep + 2) (t.fromMx z) := by
  unfold State.fromMx
  dsimp only
  exact .perThread h

theorem State.Onward.convertClass {z} (h : s.Onward b (deep + 2) t) : s.Onward b (deep + 2) (t.convertClass z) := by
  unfold State.convertClass
  dsimp only
  exact .ite (.perThread h) (.ite (.perThread h) (.ite (.toMx h) (.ite (.fromMx h) (.ite (.perThread h) (.perThread h)))))

theorem State.Onward.compareClass {z} (h : s.Onward b (deep + 2) t) : s.Onward b (deep + 2) (t.compareClass z) := by
  unfold State.compareClass
  dsimp only
  split
  · exact .perThreadPred h
  · exact .perThreadPred h
  · exact .perThreadPred h
  · exact .perThread h
  · exact .perThreadPred h

theorem State.Onward.shuffleClass {z} (h : s.Onward b (deep + 2) t) : s.Onward b (deep + 2) (t.shuffleClass z) := by
  unfold State.shuffleClass
  dsimp only
  split
  · exact .perThreadPred h
  · exact .perThreadPred h
  · exact .uniform h
  · exact .uniform h
  · exact .ite (.perThread h) (.uniform h)

theorem State.Onward.readSpecial {z} (h : s.Onward b (deep + 2) t) : s.Onward b (deep + 2) (t.readSpecial z) := by
  unfold State.readSpecial
  dsimp only
  exact .perThread (.ite_fst (.sample (.ite_fst (.sampleClock h) h)) (.pair (.ite_fst (.sampleClock h) h)))

theorem State.Onward.writeFlags {z} (h : s.Onward b deep t) : s.Onward b deep (t.writeFlags z) := by
  unfold State.writeFlags
  split
  · exact .modCrew (.advance h)
  · exact .advance h

theorem State.Onward.move {z} (h : s.Onward b (deep + 2) t) : s.Onward b (deep + 2) (t.move z) := by
  unfold State.move
  dsimp only
  exact .perThread h

theorem State.Onward.umove {z} (h : s.Onward b deep t) : s.Onward b deep (t.umove z) := by
  unfold State.umove
  dsimp only
  exact .uniform h

end Sys2Proof.Machine
end

section
/-! What the operations of ThreadMem.lean keep. -/

namespace Sys2Proof.Machine

open Sys2Proof

variable {b : Bool} {deep : Nat} {s t u : State}

theorem State.Onward.xlateAll {who w p acc rest} (h : s.Onward false deep t) : s.Onward false deep (t.xlateAll who w p acc rest).1 := by
  induction rest generalizing t who w p acc with
  | nil =>
    unfold State.xlateAll
    dsimp only
    exact h
  | cons x xs ih =>
    unfold State.xlateAll
    split
    · split
      next e1 =>
        exact ih (h.xlate.of_eq e1)
      next e2 =>
        exact ih (h.xlate.of_eq e2)
      next e3 =>
        exact ih (h.xlate.of_eq e3)
      next e4 =>
        exact .ite_fst (ih (h.xlate.of_eq e4)) (.pair (.holdRead (h.xlate.of_eq e4)))
    · exact ih h
    · exact ih h

theorem State.Onward.scratchCorrect {core sa n} (h : s.Onward b deep t) : s.Onward b deep (t.scratchCorrect core sa n) := by
  unfold State.scratchCorrect
  dsimp only
  exact .ite h (.foldl (.modCore h) (fun _ _ hu => .rasCorrected hu))

theorem State.Onward.readAll {z m n seen acc rest} (h : s.Onward false deep t) : s.Onward false deep (t.readAll z m n seen acc rest).1 := by
  induction rest generalizing t z m n seen acc with
  | nil =>
    unfold State.readAll
    dsimp only
    exact h
  | cons x xs ih =>
    unfold State.readAll
    dsimp only
    refine .ite_fst (ih h) ?_
    split
    · split
      next e1 =>
        exact ih ((h.ite_fst h.paRead).of_eq e1)
      next e2 =>
        exact ih ((h.ite_fst h.paRead).of_eq e2)
      next e3 =>
        exact ih ((h.ite_fst h.paRead).of_eq e3)
      next e4 =>
        exact .ite_fst (ih ((h.ite_fst h.paRead).of_eq e4)) (.pair ((h.ite_fst h.paRead).of_eq e4))
    · exact .ite_fst (ih (.ite (.scratchCorrect h) h)) (ih (.ite (.scratchCorrect h) h))
    · exact ih h

theorem State.Onward.checkAccess {z w load p ts} (h : s.Onward false deep t) : s.Onward false deep (t.checkAccess z w load p ts).1 := by
  unfold State.checkAccess
  dsimp only
  split
  · dsimp only
    exact h
  · split
    next e1 =>
      dsimp only
      exact h.xlateAll.of_eq e1
    next e2 =>
      exact .ite_fst (.pair (h.xlateAll.of_eq e2)) (.pair (h.xlateAll.of_eq e2))

theorem State.Onward.setRetry {z} (h : s.Onward b deep t) : s.Onward b deep (t.setRetry z) := by
  unfold State.setRetry
  exact .modCrew (.count h)

theorem State.Onward.countL1 {z as} (h : s.Onward b deep t) : s.Onward b deep (t.countL1 z as) := by
  unfold State.countL1
  dsimp only
  exact .count (.count h)

theorem State.Onward.load {z} (h : s.Onward false (deep + 2) t) : s.Onward false (deep + 2) (t.load z) := by
  unfold State.load
  dsimp only
  split
  next e1 =>
    exact .trap (h.checkAccess.of_eq e1)
  next e2 =>
    exact .setRetry (h.checkAccess.of_eq e2)
  next e3 =>
    exact h.checkAccess.of_eq e3
  next e4 =>
    split
    next e5 =>
      exact .trap (.dropHeld ((((h.checkAccess.of_eq e4).countL1).readAll).of_eq e5))
    next e6 =>
      exact .holdRead ((((h.checkAccess.of_eq e4).countL1).readAll).of_eq e6)
    next e7 =>
      exact .finish (.dropHeld ((((h.checkAccess.of_eq e4).countL1).readAll).of_eq e7))

theorem State.Onward.loadUniform {z} (h : s.Onward false (deep + 2) t) : s.Onward false (deep + 2) (t.loadUniform z) := by
  unfold State.loadUniform
  dsimp only
  split
  next e1 =>
    exact .trap (h.checkAccess.of_eq e1)
  next e2 =>
    exact .setRetry (h.checkAccess.of_eq e2)
  next e3 =>
    exact h.checkAccess.of_eq e3
  next e4 =>
    split
    next e5 =>
      exact .trap (.dropHeld ((((h.checkAccess.of_eq e4).countL1).readAll).of_eq e5))
    next e6 =>
      exact .holdRead ((((h.checkAccess.of_eq e4).countL1).readAll).of_eq e6)
    next e7 =>
      exact .finish (.dropHeld ((((h.checkAccess.of_eq e4).countL1).readAll).of_eq e7))

theorem State.Onward.writeAcc {z a bs} (h : s.Onward b deep t) : s.Onward b deep (t.writeAcc z a bs) := by
  unfold State.writeAcc
  dsimp only
  split
  · split
    · exact .homeWrite h
    · exact .hostWrite h
    · exact h
  · exact .modCore h
  · exact h

theorem State.Onward.storeAll {z ws} (h : s.Onward false deep t) : s.Onward false deep (t.storeAll z ws) := by
  unfold State.storeAll
  dsimp only
  exact .foldl (.ite (.foldl h (fun _ _ hu => .lineStore hu)) (.modCore (.foldl h (fun _ _ hu => .lineStore hu)))) (fun _ _ hu => .writeAcc
      hu)

theorem State.Onward.store {z} (h : s.Onward false (deep + 2) t) : s.Onward false (deep + 2) (t.store z) := by
  unfold State.store
  dsimp only
  split
  next e1 =>
    exact .trap (h.checkAccess.of_eq e1)
  next e2 =>
    exact .setRetry (h.checkAccess.of_eq e2)
  next e3 =>
    exact h.checkAccess.of_eq e3
  next e4 =>
    split
    · exact .trap (.dropHeld (h.checkAccess.of_eq e4))
    · exact .advance (.storeAll (.dropHeld (h.checkAccess.of_eq e4)))

theorem State.Onward.shuffleAccs {fuel table} (h : s.Onward b deep t) : s.Onward b deep (t.shuffleAccs fuel table).1 := by
  induction fuel generalizing t table with
  | zero =>
    unfold State.shuffleAccs
    dsimp only
    exact h
  | succ n ih =>
    unfold State.shuffleAccs
    dsimp only
    split
    · dsimp only
      exact h
    · dsimp only
      exact ih (.pick h)

theorem State.Onward.atomicAll {z n host ws rest} (h : s.Onward b deep t) : s.Onward b deep (t.atomicAll z n host ws rest).1 := by
  induction rest generalizing t z n host ws with
  | nil =>
    unfold State.atomicAll
    dsimp only
    exact h
  | cons x xs ih =>
    unfold State.atomicAll
    dsimp only
    refine ih ?_
    split
    · exact .writeAcc h
    · exact h

theorem State.Onward.atomic {z} (h : s.Onward false (deep + 2) t) : s.Onward false (deep + 2) (t.atomic z) := by
  unfold State.atomic
  dsimp only
  refine .ite h ?_
  split
  next e1 =>
    exact .trap (h.checkAccess.of_eq e1)
  next e2 =>
    exact .setRetry (h.checkAccess.of_eq e2)
  next e3 =>
    exact h.checkAccess.of_eq e3
  next e4 =>
    split
    next e5 =>
      exact .trap (.dropHeld ((((h.checkAccess.of_eq e4).ite ((h.checkAccess.of_eq e4).foldl (fun _ _ hu => .crewWrite hu))).readAll).of_eq
          e5))
    next e6 =>
      exact .holdRead ((((h.checkAccess.of_eq e4).ite ((h.checkAccess.of_eq e4).foldl (fun _ _ hu => .crewWrite hu))).readAll).of_eq e6)
    next e7 =>
      exact .finish (.atomicAll (.dropHeld (.ite_fst (.pair ((((h.checkAccess.of_eq e4).ite ((h.checkAccess.of_eq e4).foldl (fun _ _ hu =>
          .crewWrite hu))).readAll).of_eq e7)) (.shuffleAccs ((((h.checkAccess.of_eq e4).ite ((h.checkAccess.of_eq e4).foldl (fun _ _ hu =>
          .crewWrite hu))).readAll).of_eq e7)))))

theorem State.Onward.l1Drop {core line} (h : s.Onward b deep t) : s.Onward b deep (t.l1Drop core line) := by
  unfold State.l1Drop
  exact .leaveShared (.modCore h)

theorem State.Onward.l1DropAll {core rest} (h : s.Onward b deep t) : s.Onward b deep (t.l1DropAll core rest) := by
  induction rest generalizing t core with
  | nil =>
    unfold State.l1DropAll
    exact h
  | cons x xs ih =>
    unfold State.l1DropAll
    exact ih (.l1Drop h)

theorem State.Onward.cacheLine {z t1} (h : s.Onward false deep t) : s.Onward false deep (t.cacheLine z t1) := by
  unfold State.cacheLine
  dsimp only
  split
  · split
    next e1 =>
      split
      · split
        · exact h.xlate.of_eq e1
        · exact .paRead (h.xlate.of_eq e1)
      · exact .ite (.throughSlice (.reachHome (h.xlate.of_eq e1))) (h.xlate.of_eq e1)
      · exact .l1Drop (h.xlate.of_eq e1)
    next e2 =>
      exact h.xlate.of_eq e2
  · exact h

theorem State.Onward.cacheLines {z rest} (h : s.Onward false deep t) : s.Onward false deep (t.cacheLines z rest) := by
  induction rest generalizing t z with
  | nil =>
    unfold State.cacheLines
    exact h
  | cons x xs ih =>
    unfold State.cacheLines
    exact ih (.cacheLine h)

theorem State.Onward.cacheClass {z} (h : s.Onward false deep t) : s.Onward false deep (t.cacheClass z) := by
  unfold State.cacheClass
  dsimp only
  split
  · exact .ite (.advance h) (.l1DropAll (.advance h))
  · exact .ite (.advance h) (.modCore (.advance h))
  · exact .cacheLines (.advance h)

end Sys2Proof.Machine
end

section
/-! What the operations of ThreadFlow.lean keep. -/

namespace Sys2Proof.Machine

open Sys2Proof

variable {b : Bool} {deep : Nat} {s t u : State}

theorem State.Onward.branchTo {z targets go others link} (h : s.Onward b (deep + 2) t) : s.Onward b (deep + 2)
    (t.branchTo z targets go others link) := by
  unfold State.branchTo
  dsimp only
  split
  · split
    · exact .trapAt h
    · exact .setCrew (.issued (.ite (.count h) h))
  · exact h

theorem State.Onward.branchCond {z link} (h : s.Onward b (deep + 2) t) : s.Onward b (deep + 2) (t.branchCond z link) := by
  unfold State.branchCond
  dsimp only
  exact .ite (.branchTo h) (.ite (.branchTo h) (.branchTo h))

theorem State.Onward.branchIndirect {z} (h : s.Onward b (deep + 2) t) : s.Onward b (deep + 2) (t.branchIndirect z) := by
  unfold State.branchIndirect
  dsimp only
  split
  · exact .advance h
  · exact .branchTo h

theorem State.Onward.endPath {z c how} (h : s.Onward b (deep + 2) t) : s.Onward b (deep + 2) (t.endPath z c how) := by
  unfold State.endPath
  split
  · exact .trapAt h
  · exact .strandCheck (.setCrew (.issued h))

theorem State.Onward.joinPath {z} (h : s.Onward b (deep + 2) t) : s.Onward b (deep + 2) (t.joinPath z) := by
  unfold State.joinPath
  split
  · exact .endPath h
  · exact h

theorem State.Onward.exitPath {z} (h : s.Onward b (deep + 2) t) : s.Onward b (deep + 2) (t.exitPath z) := by
  unfold State.exitPath
  dsimp only
  split
  · exact .endPath h
  · exact h

theorem State.Onward.crewBarrier {z} (h : s.Onward b (deep + 2) t) : s.Onward b (deep + 2) (t.crewBarrier z) := by
  unfold State.crewBarrier
  dsimp only
  split
  · exact .ite (.setCrew (.issued h)) (.ite (.trapAt h) (.endPath h))
  · exact h

theorem State.Onward.waitAnswered {z status gen} (h : s.Onward b deep t) : s.Onward b deep (t.waitAnswered z status gen) := by
  unfold State.waitAnswered
  dsimp only
  exact .modCrew (.advance h)

theorem State.Onward.parkPath {z mark} (h : s.Onward b (deep + 2) t) : s.Onward b (deep + 2) (t.parkPath z mark) := by
  unfold State.parkPath
  split
  · exact .endPath h
  · exact h

theorem State.Onward.landingArrive {z} (h : s.Onward false (deep + 2) t) : s.Onward false (deep + 2) (t.landingArrive z) := by
  unfold State.landingArrive
  split
  · exact .trapAt h
  · exact .advance h
  · exact .arrive (.advance h)

theorem State.Onward.landingWait {z} (h : s.Onward false (deep + 2) t) : s.Onward false (deep + 2) (t.landingWait z) := by
  unfold State.landingWait
  split
  · exact .trapAt h
  · refine .ite (.trapAt h) ?_
    split
    next k _ =>
      have hm : s.Onward false (deep + 2) { t with nextMark := t.nextMark + 1 } := h.shrink rfl rfl fun r => { r with }
      extract_lets mark u
      split
      next e => exact .waitAnswered (State.Onward.of_eq (.wait hm) e)
      next e => exact .parkPath (State.Onward.of_eq (.wait hm) e)
    · exact .waitAnswered h

theorem State.Onward.landingArriveWait {z} (h : s.Onward false (deep + 2) t) : s.Onward false (deep + 2) (t.landingArriveWait z) := by
  unfold State.landingArriveWait
  split
  · exact .trapAt h
  · refine .ite (.trapAt h) ?_
    split
    next k _ =>
      have hm : s.Onward false (deep + 2) { t with nextMark := t.nextMark + 1 } := h.shrink rfl rfl fun r => { r with }
      extract_lets mark u
      split
      next e => exact .waitAnswered (State.Onward.of_eq (.arriveWait hm) e)
      next e => exact .parkPath (State.Onward.of_eq (.arriveWait hm) e)
    · exact .waitAnswered h

theorem State.Onward.landingTest {z} (h : s.Onward b (deep + 2) t) : s.Onward b (deep + 2) (t.landingTest z) := by
  unfold State.landingTest
  dsimp only
  split
  · exact .trapAt h
  · exact .modCrew (.advance h)
  · exact .modCrew (.advance h)

theorem State.Onward.landingClass {z} (h : s.Onward false (deep + 2) t) : s.Onward false (deep + 2) (t.landingClass z) := by
  unfold State.landingClass
  split
  · exact .landingArrive h
  · exact .landingWait h
  · exact .landingArriveWait h
  · exact .landingTest h

theorem State.Onward.fdma {z} (h : s.Onward false (deep + 2) t) : s.Onward false (deep + 2) (t.fdma z) := by
  unfold State.fdma
  dsimp only
  exact .ite (.trapAt h) (.ite (.stall h) (.modCrew (.advance (.modCore h))))

end Sys2Proof.Machine
end

section
/-! What the operations of Cox.lean keep. -/

namespace Sys2Proof.Machine

open Sys2Proof

variable {b : Bool} {deep : Nat} {s t u : State}

theorem State.Onward.modSeq {core f} (h : s.Onward b deep t) : s.Onward b deep (t.modSeq core f) := by
  unfold State.modSeq
  exact .modCore h

theorem State.Onward.modArray {core f} (h : s.Onward b deep t) : s.Onward b deep (t.modArray core f) := by
  unfold State.modArray
  exact .modCore h

theorem State.Onward.coxLogNow {core pair e} (h : s.Onward b deep t) : s.Onward b deep (t.coxLogNow core pair e) := by
  unfold State.coxLogNow
  exact .count (.modSeq h)

theorem State.Onward.coxLog {core slot pc kind reason w2 w3} (h : s.Onward b deep t) : s.Onward b deep (t.coxLog core slot pc kind reason w2 w3) := by
  unfold State.coxLog
  dsimp only
  exact .modSeq h

theorem State.Onward.early {core slot kind index table} (h : s.Onward b deep t) : s.Onward b deep (t.early core slot kind index table) := by
  unfold State.early
  split
  · exact h
  · exact .coxLog h

theorem State.Onward.coxWait {core ctx y} (h : s.Onward false (deep + 1) t) : s.Onward false (deep + 1) (t.coxWait core ctx y).1 := by
  unfold State.coxWait
  dsimp only
  split
  · exact h
  · exact h
  next key _ =>
    have hr : s.Onward false (deep + 1) (match bits y 0 4 with
        | 2 => t.wait key (.cox core) 0 0
        | 3 => t.arriveWait key ctx (bits y 14 8) (.cox core)
        | _ => t.wait key (.cox core) 1 ((t.core core).seq.scalar (bits y 14 6) % 2 ^ 32)).1 := by
      split
      · exact .wait h
      · exact .arriveWait h
      · exact .wait h
    split
    next e => exact hr.of_eq e
    next e => exact .pair (.modSeq (hr.of_eq e))

theorem State.Onward.coxReleased {core st lid} (h : s.Onward b deep t) : s.Onward b deep (t.coxReleased core st lid) := by
  unfold State.coxReleased
  dsimp only
  exact .ite (.modSeq h) (.ite (.modSeq (.coxLog (.modSeq h))) (.modSeq (.coxLog (.modSeq h))))

theorem State.Onward.coxBegin {core w} (h : s.Onward b deep t) : s.Onward b deep (t.coxBegin core w) := by
  unfold State.coxBegin
  exact .modSeq h

theorem State.Onward.beginStroke {core} (h : s.Onward false (deep + 1) t) : s.Onward false (deep + 1) (t.beginStroke core).1 := by
  unfold State.beginStroke
  extract_lets k q
  split
  · exact h
  · refine .ite_fst h (.ite_fst (.ite_fst (.pair (.coxBegin h)) h) (.ite_fst h ?_))
    split
    · exact h
    · refine .ite_fst h ?_
      split
      · exact .pair (.coxLog (.coxBegin h))
      · refine .ite_fst ?_ (.pair (.coxBegin h))
        split
        · exact h
        · exact .pair (.coxBegin (.coxReleased h))
        · split
          next e => exact .pair (.coxBegin (.coxReleased (State.Onward.of_eq (.coxWait h) e)))
          next e => exact State.Onward.of_eq (.coxWait h) e

theorem State.Onward.doubleWrites {core kind index ws} (h : s.Onward b deep t) : s.Onward b deep (t.doubleWrites core kind index ws) := by
  unfold State.doubleWrites
  dsimp only
  exact .foldl h (fun _ _ hu => .ite hu (.coxLog hu))

theorem State.Onward.landStaging {core i} (h : s.Onward b deep t) : s.Onward b deep (t.landStaging core i) := by
  unfold State.landStaging
  dsimp only
  split
  · split
    · exact .modSeq (.doubleWrites h)
    · exact .doubleWrites h
  · exact .doubleWrites h

theorem State.Onward.landStores {core} (h : s.Onward b deep t) : s.Onward b deep (t.landStores core) := by
  unfold State.landStores
  dsimp only
  exact .foldl h (fun _ _ hu => .modCore hu)

theorem State.Onward.accRead {core keys} (h : s.Onward b deep t) : s.Onward b deep (t.accRead core keys) := by
  unfold State.accRead
  dsimp only
  exact .foldl h (fun _ _ hu => (.ite (.ras (.modArray hu)) (.rasCorrected (.modArray hu))))

theorem State.Onward.stagingRead {core i} (h : s.Onward b deep t) : s.Onward b deep (t.stagingRead core i) := by
  unfold State.stagingRead
  dsimp only
  split
  · exact h
  · exact .ite (.ras (.modSeq h)) (.rasCorrected (.modSeq h))

theorem State.Onward.landRows {core} (h : s.Onward b deep t) : s.Onward b deep (t.landRows core) := by
  unfold State.landRows
  dsimp only
  exact .count (.foldl h (fun _ _ hu => (.modArray (.ite hu (.accRead hu)))))

theorem State.Onward.coxLandings {core} (h : s.Onward b deep t) : s.Onward b deep (t.coxLandings core) := by
  unfold State.coxLandings
  exact .landRows (.landStores (.foldl h (fun _ _ hu => .landStaging hu)))

theorem State.Onward.reportRow {core row} (h : s.Onward b deep t) : s.Onward b deep (t.reportRow core row) := by
  unfold State.reportRow
  exact .foldl h (fun _ _ hu => .ras hu)

theorem State.Onward.coxLoad {core n} (h : s.Onward b deep t) : s.Onward b deep (t.coxLoad core n) := by
  unfold State.coxLoad
  dsimp only
  refine .ite h (.ite (.ite (.modSeq ?_) ?_) (.modSeq (.stagingRead (.early h))))
  · split
    · exact .modSeq (.reportRow (.scratchCorrect (.early h)))
    · exact .modSeq (.reportRow (.scratchCorrect (.early h)))
    · exact .modSeq (.reportRow (.scratchCorrect (.early h)))
  · split
    · exact .modSeq (.reportRow (.scratchCorrect (.early h)))
    · exact .modSeq (.reportRow (.scratchCorrect (.early h)))
    · exact .modSeq (.reportRow (.scratchCorrect (.early h)))

theorem State.Onward.coxStore {core} (h : s.Onward b deep t) : s.Onward b deep (t.coxStore core) := by
  unfold State.coxStore
  dsimp only
  refine .ite h (.modSeq (.accRead (.foldl h (fun _ _ hu => ?_))))
  split
  · exact .early hu
  · exact hu

theorem State.Onward.coxScalar {core} (h : s.Onward b deep t) : s.Onward b deep (t.coxScalar core) := by
  unfold State.coxScalar
  dsimp only
  split
  · exact .modSeq h
  · exact .modSeq h
  · exact .ite (.modSeq (.modSeq h)) (.modSeq (.modSeq h))
  · exact .ite (.modSeq h) h
  · exact .ite (.modSeq h) h
  · exact .modSeq h
  · exact .ite (.modSeq h) h
  · exact .modSeq h
  · exact h

theorem State.Onward.coxSync {core} (h : s.Onward false (deep + 1) t) : s.Onward false (deep + 1) (t.coxSync core) := by
  unfold State.coxSync
  dsimp only
  split
  · exact h
  · split
    · split
      · exact .coxReleased h
      · exact h
      · exact .arrive h
    · exact .modSeq h
    · exact .modSeq h
    · exact .traceEvent h
    · exact h

theorem State.Onward.coxPath {core b1} (h : s.Onward b deep t) : s.Onward b deep (t.coxPath core b1).1 := by
  unfold State.coxPath
  dsimp only
  split
  · split
    · dsimp only
      exact .modSeq (.doubleWrites h)
    · dsimp only
      exact .modSeq (.doubleWrites h)
    · dsimp only
      exact .modSeq (.doubleWrites h)
  · dsimp only
    exact .modSeq (.doubleWrites h)

theorem State.Onward.checkRows {core} (h : s.Onward b deep t) : s.Onward b deep (t.checkRows core) := by
  unfold State.checkRows
  dsimp only
  exact .foldl h (fun _ _ hu => .ras (.modArray hu))

theorem State.Onward.coxArray {core} (h : s.Onward b deep t) : s.Onward b deep (t.coxArray core) := by
  unfold State.coxArray
  dsimp only
  exact .modArray (.checkRows (.coxPath (.coxPath h)))

theorem State.Onward.flushLog {core pair} (h : s.Onward b deep t) : s.Onward b deep (t.flushLog core pair) := by
  unfold State.flushLog
  dsimp only
  exact .count (.modSeq h)

theorem State.Onward.coxFinish {core} (h : s.Onward b deep t) : s.Onward b deep (t.coxFinish core) := by
  unfold State.coxFinish
  dsimp only
  split
  · exact h
  · exact .modSeq (.foldl (.modSeq (.tick (.count (.flushLog (.wakeGal (.ite (.modArray (.ite (.coxLog h) h)) (.ite (.coxLog h) h)))))))
      (fun _ _ hu => .doubleWrites hu))

theorem State.Onward.coxPart {core p} (h : s.Onward false (deep + 1) t) : s.Onward false (deep + 1) (t.coxPart core p) := by
  unfold State.coxPart
  dsimp only
  split
  · exact .modSeq (.coxLandings h)
  · exact .modSeq (.modArray h)
  · exact .modSeq (.coxLoad h)
  · exact .modSeq (.coxLoad h)
  · exact .modSeq (.coxStore h)
  · exact .modSeq (.coxScalar h)
  · exact .modSeq (.coxSync h)
  · exact .modSeq (.coxArray h)
  · exact .coxFinish h

theorem State.Onward.coxParts {core rest} (h : s.Onward false (deep + 1) t) : s.Onward false (deep + 1) (t.coxParts core rest) := by
  induction rest generalizing t core with
  | nil =>
    unfold State.coxParts
    exact h
  | cons x xs ih =>
    unfold State.coxParts
    exact ih (.coxPart h)

theorem State.Onward.strokeTo {core p} (h : s.Onward false (deep + 1) t) : s.Onward false (deep + 1) (t.strokeTo core p) := by
  unfold State.strokeTo
  exact .coxParts h

end Sys2Proof.Machine
end

section
/-! What the operations of CoxRows.lean keep. -/

namespace Sys2Proof.Machine

open Sys2Proof

variable {b : Bool} {deep : Nat} {s t u : State}

theorem State.Onward.coxRow {core p due} (h : s.Onward b (deep + 1) t) : s.Onward b (deep + 1) (t.coxRow core p due) := by
  unfold State.coxRow
  dsimp only
  exact .ite (.orWait h (.strokeTo (.beginStroke h.any))) h

theorem State.Onward.coxStream {core op} (h : s.Onward b (deep + 1) t) : s.Onward b (deep + 1) (t.coxStream core op) := by
  unfold State.coxStream
  exact .ite (.coxRow h) (.coxRow h)

theorem State.Onward.coxWaitRow {core op} (h : s.Onward b (deep + 1) t) : s.Onward b (deep + 1) (t.coxWaitRow core op) := by
  unfold State.coxWaitRow
  dsimp only
  exact .ite (.orWait h (.ite (.ite (.strokeTo (.beginStroke h.any)) (.beginStroke h.any)) (.beginStroke h.any))) h

theorem execLoad_goes {core} (h : s.Onward b (deep + 1) t) : s.Goes b (deep + 1) (execLoad core t) := by
  unfold execLoad
  exact .next (.coxRow h)

theorem execResult_goes {core} (h : s.Onward b (deep + 1) t) : s.Goes b (deep + 1) (execResult core t) := by
  unfold execResult
  exact .next (.coxRow h)

theorem execSlice_goes {core} (h : s.Onward b (deep + 1) t) : s.Goes b (deep + 1) (execSlice core t) := by
  unfold execSlice
  exact .next (.coxRow h)

theorem execSlicePass_goes {core} (h : s.Onward b (deep + 1) t) : s.Goes b (deep + 1) (execSlicePass core t) := by
  unfold execSlicePass
  exact .next (.coxRow h)

theorem execRowCommit_goes {core} (h : s.Onward b (deep + 1) t) : s.Goes b (deep + 1) (execRowCommit core t) := by
  unfold execRowCommit
  exact .next (.coxRow h)

theorem execResultRowLands_goes {core} (h : s.Onward b (deep + 1) t) : s.Goes b (deep + 1) (execResultRowLands core t) := by
  unfold execResultRowLands
  exact .next (.coxRow h)

theorem execToA_goes {core} (h : s.Onward b (deep + 1) t) : s.Goes b (deep + 1) (execToA core t) := by
  unfold execToA
  exact .next (.coxStream h)

theorem execToB_goes {core} (h : s.Onward b (deep + 1) t) : s.Goes b (deep + 1) (execToB core t) := by
  unfold execToB
  exact .next (.coxStream h)

theorem execStg_goes {core} (h : s.Onward b (deep + 1) t) : s.Goes b (deep + 1) (execStg core t) := by
  unfold execStg
  exact .next (.coxStream h)

theorem execSrToA_goes {core} (h : s.Onward b (deep + 1) t) : s.Goes b (deep + 1) (execSrToA core t) := by
  unfold execSrToA
  exact .next (.coxStream h)

theorem execSrToB_goes {core} (h : s.Onward b (deep + 1) t) : s.Goes b (deep + 1) (execSrToB core t) := by
  unfold execSrToB
  exact .next (.coxStream h)

theorem execStore_goes {core} (h : s.Onward b (deep + 1) t) : s.Goes b (deep + 1) (execStore core t) := by
  unfold execStore
  exact .next (.coxRow h)

theorem execStreamerDelivery_goes {core} (h : s.Onward b (deep + 1) t) : s.Goes b (deep + 1) (execStreamerDelivery core t) := by
  unfold execStreamerDelivery
  exact .next (.coxRow h)

theorem execStagingLands_goes {core} (h : s.Onward b (deep + 1) t) : s.Goes b (deep + 1) (execStagingLands core t) := by
  unfold execStagingLands
  exact .next (.coxRow h)

theorem execStoreLands_goes {core} (h : s.Onward b (deep + 1) t) : s.Goes b (deep + 1) (execStoreLands core t) := by
  unfold execStoreLands
  exact .next (.coxRow h)

theorem execSetScalar_goes {core} (h : s.Onward b (deep + 1) t) : s.Goes b (deep + 1) (execSetScalar core t) := by
  unfold execSetScalar
  exact .next (.coxRow h)

theorem execAddScalar_goes {core} (h : s.Onward b (deep + 1) t) : s.Goes b (deep + 1) (execAddScalar core t) := by
  unfold execAddScalar
  exact .next (.coxRow h)

theorem execLoop_goes {core} (h : s.Onward b (deep + 1) t) : s.Goes b (deep + 1) (execLoop core t) := by
  unfold execLoop
  exact .next (.coxRow h)

theorem execBr_goes {core} (h : s.Onward b (deep + 1) t) : s.Goes b (deep + 1) (execBr core t) := by
  unfold execBr
  exact .next (.coxRow h)

theorem execXBrc_goes {core} (h : s.Onward b (deep + 1) t) : s.Goes b (deep + 1) (execXBrc core t) := by
  unfold execXBrc
  exact .next (.coxRow h)

theorem execCmpcfg_goes {core} (h : s.Onward b (deep + 1) t) : s.Goes b (deep + 1) (execCmpcfg core t) := by
  unfold execCmpcfg
  exact .next (.coxRow h)

theorem execBrf_goes {core} (h : s.Onward b (deep + 1) t) : s.Goes b (deep + 1) (execBrf core t) := by
  unfold execBrf
  exact .next (.coxRow h)

theorem execEndProgram_goes {core} (h : s.Onward b (deep + 1) t) : s.Goes b (deep + 1) (execEndProgram core t) := by
  unfold execEndProgram
  exact .next (.coxRow h)

theorem execArrive_goes {core} (h : s.Onward b (deep + 1) t) : s.Goes b (deep + 1) (execArrive core t) := by
  unfold execArrive
  exact .next (.coxRow h)

theorem execWait_goes {core} (h : s.Onward b (deep + 1) t) : s.Goes b (deep + 1) (execWait core t) := by
  unfold execWait
  exact .next (.coxWaitRow h)

theorem execArrwait_goes {core} (h : s.Onward b (deep + 1) t) : s.Goes b (deep + 1) (execArrwait core t) := by
  unfold execArrwait
  exact .next (.coxWaitRow h)

theorem execWaitgen_goes {core} (h : s.Onward b (deep + 1) t) : s.Goes b (deep + 1) (execWaitgen core t) := by
  unfold execWaitgen
  exact .next (.coxWaitRow h)

theorem execFlagset_goes {core} (h : s.Onward b (deep + 1) t) : s.Goes b (deep + 1) (execFlagset core t) := by
  unfold execFlagset
  exact .next (.coxRow h)

theorem execFlagclr_goes {core} (h : s.Onward b (deep + 1) t) : s.Goes b (deep + 1) (execFlagclr core t) := by
  unfold execFlagclr
  exact .next (.coxRow h)

theorem execMark_goes {core} (h : s.Onward b (deep + 1) t) : s.Goes b (deep + 1) (execMark core t) := by
  unfold execMark
  exact .next (.coxRow h)

theorem State.Onward.coxDone {core launch out} (h : s.Onward b deep t) : s.Onward b deep (t.coxDone core launch out) := by
  unfold State.coxDone
  dsimp only
  split
  · exact .traceEnd (.modCore h)
  · exact .modCore h

theorem State.Onward.queueChain {core c} (h : s.Onward b deep t) : s.Onward b deep (t.queueChain core c) := by
  unfold State.queueChain
  dsimp only
  exact .modCore h

theorem State.Onward.coxStop {core} (h : s.Onward b (deep + 1) t) : s.Onward b (deep + 1) (t.coxStop core) := by
  unfold State.coxStop
  exact .modArray (.modSeq (.unwait h))

theorem execStrokeLimit_goes {core} (h : s.Onward b (deep + 1) t) : s.Goes b (deep + 1) (execStrokeLimit core t) := by
  unfold execStrokeLimit
  dsimp only
  split
  · exact .ite (.next (.coxStop (.modSeq h))) (.next h)
  · exact .next h

theorem execDrainEnd_goes {core} (h : s.Onward b deep t) : s.Goes b deep (execDrainEnd core t) := by
  unfold execDrainEnd
  dsimp only
  split
  · exact .ite (.ite (.next (.coxDone (.modCore (.flushLog h)))) (.next (.queueChain (.modCore (.modCore (.flushLog h)))))) (.next h)
  · exact .next h

theorem execStrokeIssue_goes {core} (h : s.Onward b (deep + 1) t) : s.Goes b (deep + 1) (execStrokeIssue core t) := by
  unfold execStrokeIssue
  dsimp only
  refine waits_goes h (.ite (.next (.strokeTo (.beginStroke h.any))) ?_)
  split
  · exact .next h.any
  · exact .ite (.next (.ras (.coxStop (.modCore (.beginStroke h.any))))) (.ite (.next (.tick (.count (.modSeq (.beginStroke h.any)))))
      (.next (.modSeq (.beginStroke h.any))))

theorem execCoxLaunchComplete_goes {launch} (h : s.Onward b (deep + 2) t) : s.Goes b (deep + 2) (execCoxLaunchComplete launch t) := by
  unfold execCoxLaunchComplete
  dsimp only
  split
  · exact .next h
  · exact .ite (.next h) (.next (.ite (.packetDone ((h.foldl (fun _ _ hu => .modCore hu)).shrink rfl rfl fun r =>
      { r with coxLaunches := rising_merase _ r.coxLaunches })) (.packetDone ((h.foldl (fun _ _ hu => .modCore hu)).shrink rfl rfl fun r =>
      { r with coxLaunches := rising_merase _ r.coxLaunches }))))

theorem State.Onward.queuePrefetch {core launch} (h : s.Onward b deep t) : s.Onward b deep (t.queuePrefetch core launch) := by
  unfold State.queuePrefetch
  dsimp only
  split
  · exact .ite h (.modCore (.foldl h (fun _ _ hu => .queueChain hu)))
  · exact h

theorem State.Onward.logOwed {core launch} (h : s.Onward b deep t) : s.Onward b deep (t.logOwed core launch) := by
  unfold State.logOwed
  dsimp only
  split
  · exact .modCore (.foldl h (fun _ _ hu => .coxLogNow hu))
  · exact h

theorem State.Onward.makeLaunch {ctx p cores} (h : s.Onward b (deep + 2) t) : s.Onward b (deep + 2) (t.makeLaunch ctx p cores).1 := by
  unfold State.makeLaunch
  dsimp only
  split
  · dsimp only
    exact h
  · dsimp only
    exact h.shrink rfl rfl fun r => { r with coxLaunches := rising_minsert _ _ r.coxLaunches }

theorem State.Onward.launchCox {ctx p} (h : s.Onward b (deep + 3) t) : s.Onward b (deep + 3) (t.launchCox ctx p) := by
  unfold State.launchCox
  refine .ite h (.ite (.packetDone (.dispatch h)) (.foldl ?_ fun _ _ hw => .queuePrefetch (.logOwed (.modCore hw))))
  have hu := (h.dispatch (ctx := ctx) (pid := p.pid) (stage := .dispatched)).makeLaunch (ctx := ctx)
    (p := ((t.dispatch ctx p.pid .dispatched).pkt ctx p.pid).getD p) (cores := t.coxCores ctx p)
  refine hu.lose rfl rfl fun r => { r with coxLaunches := rising_map_same _ (fun e => ?_) r.coxLaunches }
  dsimp only
  rw [apply_ite Prod.fst, ite_self]

theorem execLaunchCox_goes {ctx} (h : s.Onward b (deep + 3) t) : s.Goes b (deep + 3) (execLaunchCox ctx t) := by
  unfold execLaunchCox
  exact .next (.atDispatch h (fun _ => (.launchCox h)))

theorem execBroadcastCox_goes {ctx} (h : s.Onward b (deep + 3) t) : s.Goes b (deep + 3) (execBroadcastCox ctx t) := by
  unfold execBroadcastCox
  exact .next (.atDispatch h (fun _ => (.launchCox h)))

theorem State.Onward.refreshIcache {w core bytes rest} (h : s.Onward false deep t) : s.Onward false deep (t.refreshIcache w core bytes rest) := by
  induction rest generalizing t w core bytes with
  | nil =>
    unfold State.refreshIcache
    exact h
  | cons x xs ih =>
    unfold State.refreshIcache
    dsimp only
    split
    next e1 =>
      exact ih (.modCore (h.xlate.of_eq e1))
    next e2 =>
      exact ih (h.xlate.of_eq e2)

theorem State.Onward.loadProgram {core launch l own speculative} (h : s.Onward false deep t) : s.Onward false deep (t.loadProgram core launch l own
    speculative) := by
  unfold State.loadProgram
  dsimp only
  split
  next e1 =>
    exact .ite (.coxDone (h.vaRead.of_eq e1)) (.ite h (h.vaRead.of_eq e1))
  next e2 =>
    exact .ite (.coxDone (h.vaRead.of_eq e2)) (.ite h (h.vaRead.of_eq e2))
  next e3 =>
    split
    next e4 =>
      exact .ite (.coxDone (((h.vaRead.of_eq e3).orHeld).of_eq e4)) (.ite h (((h.vaRead.of_eq e3).orHeld).of_eq e4))
    next e5 =>
      exact ((h.vaRead.of_eq e3).orHeld).of_eq e5
  next e6 =>
    refine .ite (.modCore (h.vaRead.of_eq e6)) (.ite h ?_)
    split
    next e7 =>
      exact .ite (.coxDone (((h.vaRead.of_eq e6).vaRead).of_eq e7)) (.ite h (((h.vaRead.of_eq e6).vaRead).of_eq e7))
    next e8 =>
      exact .ite (.coxDone (((h.vaRead.of_eq e6).vaRead).of_eq e8)) (.ite h (((h.vaRead.of_eq e6).vaRead).of_eq e8))
    next e9 =>
      split
      next e10 =>
        exact .ite (.coxDone (((((h.vaRead.of_eq e6).vaRead).of_eq e9).orHeld).of_eq e10)) (.ite h (((((h.vaRead.of_eq e6).vaRead).of_eq
            e9).orHeld).of_eq e10))
      next e11 =>
        exact ((((h.vaRead.of_eq e6).vaRead).of_eq e9).orHeld).of_eq e11
    next e12 =>
      exact .queuePrefetch (.modCore (.ite (((h.vaRead.of_eq e6).vaRead).of_eq e12) (.refreshIcache (((h.vaRead.of_eq e6).vaRead).of_eq
          e12))))

theorem State.Onward.evictRunAhead {core} (h : s.Onward b deep t) : s.Onward b deep (t.evictRunAhead core) := by
  unfold State.evictRunAhead
  dsimp only
  exact .modCore h

theorem execCoxProgramLoad_goes {core ctx pid} (h : s.Onward b (deep + 2) t) : s.Goes b (deep + 2) (execCoxProgramLoad core ctx pid t) := by
  unfold execCoxProgramLoad
  dsimp only
  refine waits_goes h ?_
  split
  · exact .next h.any
  · refine .ite (.next h.any) (.ite ?_ (.ite (.ite (.next h.any) (.ite (.next h.any) ?_)) (.next h.any)))
    · split
      · exact .next h.any
      · split
        · exact .ite (.next h.any) (.ite (.next (.ite (.evictRunAhead h.any) h.any)) (.next (.loadProgram (.ite (.evictRunAhead h.any)
            h.any))))
        · exact .next h.any
    · split
      · exact .next h.any
      · exact .ite (.next (.loadProgram (.modCore (.makeLaunch h.any)))) (.next h.any)

theorem execProgramStart_goes {core} (h : s.Onward b deep t) : s.Goes b deep (execProgramStart core t) := by
  unfold execProgramStart
  dsimp only
  split
  · exact .next h
  · refine .ite (.next h) ?_
    split
    · exact .next h
    · exact .ite (.next (.coxDone (.coxLogNow h))) (.ite (.next (.modCore (.traceStart (.startCommand h)))) (.next h))

end Sys2Proof.Machine
end

section
/-! What the operations of Feeder.lean keep. -/

namespace Sys2Proof.Machine

open Sys2Proof

variable {b : Bool} {deep : Nat} {s t u : State}

theorem State.Onward.modEngine {core f} (h : s.Onward b deep t) : s.Onward b deep (t.modEngine core f) := by
  unfold State.modEngine
  exact .modCore h

theorem State.Onward.modChain {core f} (h : s.Onward b deep t) : s.Onward b deep (t.modChain core f) := by
  unfold State.modChain
  exact .modEngine h

theorem State.Onward.countChain {core c ev n} (h : s.Onward b deep t) : s.Onward b deep (t.countChain core c ev n) := by
  unfold State.countChain
  exact .ite h (.count h)

theorem State.Onward.engineAccess {core c space addr n} (h : s.Onward false deep t) : s.Onward false deep (t.engineAccess core c space addr n).1 := by
  unfold State.engineAccess
  dsimp only
  refine .ite_fst (.ite_fst h (.pair (.scratchCorrect h))) (.ite_fst (.orHeld (.vaRead h)) ?_)
  split
  next e1 =>
    dsimp only
    exact h.hostRead.of_eq e1
  next e2 =>
    dsimp only
    exact h.hostRead.of_eq e2
  next e3 =>
    dsimp only
    exact h.hostRead.of_eq e3

theorem State.Onward.engineRead {core c space rest} (h : s.Onward false deep t) : s.Onward false deep (t.engineRead core c space rest).1 := by
  induction rest generalizing t core c space with
  | nil =>
    unfold State.engineRead
    dsimp only
    exact h
  | cons x xs ih =>
    unfold State.engineRead
    refine .ite_fst (.pair (.countChain h)) ?_
    split
    next e1 =>
      exact ih (.modChain (h.engineAccess.of_eq e1))
    next e2 =>
      dsimp only
      exact h.engineAccess.of_eq e2
    next e3 =>
      dsimp only
      exact h.engineAccess.of_eq e3

theorem State.Onward.engineWrite {core c space addr bs} (h : s.Onward false deep t) : s.Onward false deep (t.engineWrite core c space addr bs).1 := by
  unfold State.engineWrite
  dsimp only
  exact .ite_fst (.pair (.modCore (.ite (.modChain h) h))) (.ite_fst (.pair (.ite (.modChain h) h)) (.ite_fst (.vaWrite (.ite (.modChain h)
      h)) (.pair (.hostWrite (.ite (.modChain h) h)))))

theorem State.Onward.engineWrites {core c space rest} (h : s.Onward false deep t) : s.Onward false deep (t.engineWrites core c space rest).1 := by
  induction rest generalizing t core c space with
  | nil =>
    unfold State.engineWrites
    dsimp only
    exact h
  | cons x xs ih =>
    unfold State.engineWrites
    dsimp only
    refine .ite_fst (.pair (.modChain (.countChain h))) ?_
    split
    next e1 =>
      exact ih (.countChain (h.engineWrite.orHeld.of_eq e1))
    next e2 =>
      dsimp only
      exact .modChain (h.engineWrite.orHeld.of_eq e2)
    next e3 =>
      dsimp only
      exact h.engineWrite.orHeld.of_eq e3

theorem State.Onward.enginePut {core c space ws} (h : s.Onward false deep t) : s.Onward false deep (t.enginePut core c space ws).1 := by
  unfold State.enginePut
  dsimp only
  exact .engineWrites (.modChain h)

theorem State.Onward.engineRow {core c d r} (h : s.Onward false deep t) : s.Onward false deep (t.engineRow core c d r).1 := by
  unfold State.engineRow
  dsimp only
  split
  · exact .engineWrites h
  · split
    · exact .enginePut (.countChain (.countChain (.countChain (.ite_fst h (.engineRead h)))))
    · dsimp only
      exact .ite_fst h (.engineRead h)

theorem State.Onward.engineRows {core c d rest} (h : s.Onward false deep t) : s.Onward false deep (t.engineRows core c d rest).1 := by
  induction rest generalizing t core c d with
  | nil =>
    unfold State.engineRows
    dsimp only
    exact h
  | cons x xs ih =>
    unfold State.engineRows
    split
    next e =>
      exact ih (.modChain (h.engineRow.of_eq e))
    · exact .engineRow h

theorem State.Onward.chainStop {core fault} (h : s.Onward b deep t) : s.Onward b deep (t.chainStop core fault) := by
  unfold State.chainStop
  exact .modChain h

theorem State.Onward.chainFault {core a} (h : s.Onward b deep t) : s.Onward b deep (t.chainFault core a) := by
  unfold State.chainFault
  split
  · exact .chainStop h
  · exact .chainStop h
  · exact h

theorem State.Onward.chainNext {core addr space last} (h : s.Onward b deep t) : s.Onward b deep (t.chainNext core addr space last) := by
  unfold State.chainNext
  dsimp only
  split
  · exact .ite (.chainStop (.modChain h)) (.ite (.chainStop (.modEngine (.modChain h))) (.ite (.chainStop (.modEngine (.modChain h)))
      (.modChain h)))
  · exact .modChain h

theorem State.Onward.logBounds {core c} (h : s.Onward b deep t) : s.Onward b deep (t.logBounds core c) := by
  unfold State.logBounds
  split
  · exact .ite (.modCore h) (.coxLogNow h)
  · exact h

theorem State.Onward.endDesc {core c} (h : s.Onward b deep t) : s.Onward b deep (t.endDesc core c) := by
  unfold State.endDesc
  split
  · exact .ite (.logBounds (.modChain h)) h
  · exact h

theorem State.Onward.engineCycle {core} (h : s.Onward b deep t) : s.Onward b deep (t.engineCycle core) := by
  unfold State.engineCycle
  exact .tick h

theorem State.Onward.runDesc {core c d} (h : s.Onward false deep t) : s.Onward false deep (t.runDesc core c d) := by
  unfold State.runDesc
  split
  next e1 =>
    exact .chainNext (.endDesc (h.engineCycle.engineRows.of_eq e1))
  next e2 =>
    exact h.engineCycle.engineRows.of_eq e2
  next e3 =>
    exact .chainFault (.endDesc (h.engineCycle.engineRows.of_eq e3))

theorem State.Onward.descriptor {core op run} (h : s.Onward false deep t) (hrun : ∀ u c d, s.Onward false deep u → s.Onward false deep (run u c d)) :
    s.Onward false deep (t.descriptor core op run) := by
  unfold State.descriptor
  split
  · exact h
  next c _ _ =>
    extract_lets dump read
    have hread : s.Onward false deep read.1 := by
      unfold read
      split
      · exact h
      · exact .ite_fst (.pair (.countChain h)) (.engineAccess h)
    clear_value dump read
    refine .ite h ?_
    split
    next e => exact .ite h (.ite (hrun _ _ _ (.modChain hread)) (.chainNext (.modEngine hread)))
    next e => exact hread
    next e => exact .chainFault hread

theorem execFdmaChainStart_goes {core} (h : s.Onward b deep t) : s.Goes b deep (execFdmaChainStart core t) := by
  unfold execFdmaChainStart
  dsimp only
  split
  · exact .ite (.next h) (.ite (.next (.chainStop (.modEngine (.ite (.modChain (.modEngine h)) (.traceStart (.startCommand (.modChain
      (.modEngine h)))))))) (.next (.ite (.modChain (.modEngine h)) (.traceStart (.startCommand (.modChain (.modEngine h)))))))
  · exact .next h

theorem State.Onward.rawTransfer {core fill} (h : s.Onward false deep t) : s.Onward false deep (t.rawTransfer core fill) := by
  unfold State.rawTransfer
  dsimp only
  split
  · exact h
  next e1 =>
    refine .ite h ?_
    split
    · refine .ite h ?_
      split
      next e2 =>
        split
        · split
          next e3 =>
            exact .chainStop (((h.engineCycle.engineRead.of_eq e2).engineWrites).of_eq e3)
          next e4 =>
            exact ((h.engineCycle.engineRead.of_eq e2).engineWrites).of_eq e4
          next e5 =>
            exact .chainFault (((h.engineCycle.engineRead.of_eq e2).engineWrites).of_eq e5)
        · split
          next e6 =>
            exact .chainStop (((h.engineCycle.engineRead.of_eq e2).enginePut).of_eq e6)
          next e7 =>
            exact ((h.engineCycle.engineRead.of_eq e2).enginePut).of_eq e7
          next e8 =>
            exact .chainFault (((h.engineCycle.engineRead.of_eq e2).enginePut).of_eq e8)
      · split
        next e9 =>
          exact .chainStop (h.engineCycle.engineRead.of_eq e9)
        next e10 =>
          exact h.engineCycle.engineRead.of_eq e10
        next e11 =>
          exact .chainFault (h.engineCycle.engineRead.of_eq e11)
    · refine .ite ?_ h
      split
      · split
        next e12 =>
          exact .chainStop (h.engineCycle.engineWrites.of_eq e12)
        next e13 =>
          exact h.engineCycle.engineWrites.of_eq e13
        next e14 =>
          exact .chainFault (h.engineCycle.engineWrites.of_eq e14)
      · split
        next e15 =>
          exact .chainStop (h.engineCycle.enginePut.of_eq e15)
        next e16 =>
          exact h.engineCycle.enginePut.of_eq e16
        next e17 =>
          exact .chainFault (h.engineCycle.enginePut.of_eq e17)
    · refine .ite h ?_
      split
      · split
        · split
          next e18 =>
            exact .chainStop (h.engineCycle.engineWrites.of_eq e18)
          next e19 =>
            exact h.engineCycle.engineWrites.of_eq e19
          next e20 =>
            exact .chainFault (h.engineCycle.engineWrites.of_eq e20)
        · split
          next e21 =>
            exact .chainStop (h.engineCycle.enginePut.of_eq e21)
          next e22 =>
            exact h.engineCycle.enginePut.of_eq e22
          next e23 =>
            exact .chainFault (h.engineCycle.enginePut.of_eq e23)
      · exact .chainStop h
    · exact h

theorem execDescriptorCopy_goes {core} (h : s.Onward b deep t) : s.Goes b deep (execDescriptorCopy core t) := by
  unfold execDescriptorCopy
  exact waits_goes h (.next (.rawTransfer (.descriptor h.any (fun _ _ _ hu => .runDesc hu))))

theorem execDescriptorFill_goes {core} (h : s.Onward b deep t) : s.Goes b deep (execDescriptorFill core t) := by
  unfold execDescriptorFill
  exact waits_goes h (.next (.rawTransfer (.descriptor h.any (fun _ _ _ hu => .runDesc hu))))

theorem execConvertDesc_goes {core} (h : s.Onward b deep t) : s.Goes b deep (execConvertDesc core t) := by
  unfold execConvertDesc
  exact waits_goes h (.next (.descriptor h.any (fun _ _ _ hu => .runDesc hu)))

theorem execLinkDesc_goes {core} (h : s.Onward b deep t) : s.Goes b deep (execLinkDesc core t) := by
  unfold execLinkDesc
  exact waits_goes h (.next (.descriptor h.any (fun _ _ _ hu => .chainNext hu)))

theorem State.Onward.crewCopyDone {core key launch idx fault} (h : s.Onward b (deep + 2) t) : s.Onward b (deep + 2)
    (t.crewCopyDone core key launch idx fault) :=
    by
  unfold State.crewCopyDone
  dsimp only
  split
  · refine .ite h ?_
    split
    · exact .setCrew h
    · exact .ite (.modCrew (.setCrew h)) (.pathFault (.setCrew h))
  · exact h

theorem execFdmaChainComplete_goes {core} (h : s.Onward b (deep + 2) t) : s.Goes b (deep + 2) (execFdmaChainComplete core t) := by
  unfold execFdmaChainComplete
  dsimp only
  refine waits_goes h ?_
  split
  · refine .ite (.next h.any) ?_
    split
    · refine .next (.packetDone ?_)
      split
      · split
        · exact .arrive (.ite (.modEngine h.any) (.traceEnd (.modEngine h.any)))
        · exact .ite (.modEngine h.any) (.traceEnd (.modEngine h.any))
      · exact .ite (.modEngine h.any) (.traceEnd (.modEngine h.any))
    · refine .next (.crewCopyDone ?_)
      split
      · split
        · exact .arrive (.ite (.modEngine h.any) (.traceEnd (.modEngine h.any)))
        · exact .ite (.modEngine h.any) (.traceEnd (.modEngine h.any))
      · exact .ite (.modEngine h.any) (.traceEnd (.modEngine h.any))
    · split
      · refine .next (.modCore ?_)
        split
        · split
          · exact .arrive (.ite (.modEngine h.any) (.traceEnd (.modEngine h.any)))
          · exact .ite (.modEngine h.any) (.traceEnd (.modEngine h.any))
        · exact .ite (.modEngine h.any) (.traceEnd (.modEngine h.any))
      · refine .next (.ite (.modCore ?_) (.ite (.queuePrefetch (.modCore ?_)) (.coxDone (.modCore ?_))))
        · split
          · split
            · exact .arrive (.ite (.modEngine h.any) (.traceEnd (.modEngine h.any)))
            · exact .ite (.modEngine h.any) (.traceEnd (.modEngine h.any))
          · exact .ite (.modEngine h.any) (.traceEnd (.modEngine h.any))
        · split
          · split
            · exact .arrive (.ite (.modEngine h.any) (.traceEnd (.modEngine h.any)))
            · exact .ite (.modEngine h.any) (.traceEnd (.modEngine h.any))
          · exact .ite (.modEngine h.any) (.traceEnd (.modEngine h.any))
        · split
          · split
            · exact .arrive (.ite (.modEngine h.any) (.traceEnd (.modEngine h.any)))
            · exact .ite (.modEngine h.any) (.traceEnd (.modEngine h.any))
          · exact .ite (.modEngine h.any) (.traceEnd (.modEngine h.any))
    · split
      · refine .next (.coxDone (.modCore ?_))
        split
        · split
          · exact .arrive (.ite (.modEngine h.any) (.traceEnd (.modEngine h.any)))
          · exact .ite (.modEngine h.any) (.traceEnd (.modEngine h.any))
        · exact .ite (.modEngine h.any) (.traceEnd (.modEngine h.any))
      · refine .next ?_
        split
        · split
          · exact .arrive (.ite (.modEngine h.any) (.traceEnd (.modEngine h.any)))
          · exact .ite (.modEngine h.any) (.traceEnd (.modEngine h.any))
        · exact .ite (.modEngine h.any) (.traceEnd (.modEngine h.any))
  · exact .next h.any

theorem State.Onward.engineCore {ctx c} (h : s.Onward b deep t) : s.Onward b deep (t.engineCore ctx c).1 := by
  unfold State.engineCore
  dsimp only
  exact .ite_fst (.pair (.pick h)) h

theorem State.Onward.transferPacket {ctx p c lid addr raw} (h : s.Onward b (deep + 3) t) : s.Onward b (deep + 3)
    (t.transferPacket ctx p c lid addr raw) := by
  unfold State.transferPacket
  dsimp only
  split
  next e1 =>
    exact .packetDone (.dispatch (h.engineCore.of_eq e1))
  next e2 =>
    exact .ite h (.ite (.packetDone (.dispatch (h.engineCore.of_eq e2))) (.queueChain (.dispatch (h.engineCore.of_eq e2))))

theorem execCopy_goes {ctx} (h : s.Onward b (deep + 3) t) : s.Goes b (deep + 3) (execCopy ctx t) := by
  unfold execCopy
  dsimp only
  exact .next (.atDispatch h (fun _ => (.transferPacket h)))

theorem execFill_goes {ctx} (h : s.Onward b (deep + 3) t) : s.Goes b (deep + 3) (execFill ctx t) := by
  unfold execFill
  dsimp only
  exact .next (.atDispatch h (fun _ => (.transferPacket h)))

end Sys2Proof.Machine
end

section
/-! What the operations of Homes.lean keep. -/

namespace Sys2Proof.Machine

open Sys2Proof

variable {b : Bool} {deep : Nat} {s t u : State}

theorem State.Onward.serveTxn {q line} (h : s.Onward false deep t) : s.Onward false deep (t.serveTxn q line) := by
  unfold State.serveTxn
  dsimp only
  split
  · exact h
  · refine .ite h ?_
    split
    · exact .ite (.setHome (.chargeHop (.throughSlice (.directoryRoom h)))) (.ite (.setHome (.setDir (.chargeHop (.throughSlice
        (.directoryRoom h))))) (.setHome (.setDir (.chargeHop (.throughSlice (.directoryRoom h))))))
    · exact .setHome (.setDir (.chargeHop (.throughSlice (.directoryRoom h))))
    · exact .setHome (.setDir (.homeWrite (.throughSlice (.chargeHop h))))
    · refine .setHome (.setDir ?_)
      split
      · exact .ite (.homeWrite (.throughSlice (.chargeHop h))) (.throughSlice (.chargeHop h))
      · exact .throughSlice (.chargeHop h)
    · exact .setHome (.chargeHop (.throughSlice h))
    · exact .setHome (.setDir (.homeWrite (.throughSlice (.chargeHop h))))

theorem State.Onward.beginTxn {q line} (h : s.Onward false deep t) : s.Onward false deep (t.beginTxn q line) := by
  unfold State.beginTxn
  dsimp only
  split
  · exact .serveTxn (.setHome (.countGal h))
  · exact h

theorem State.Onward.request {q line r} (h : s.Onward false deep t) : s.Onward false deep (t.request q line r) := by
  unfold State.request
  dsimp only
  exact .beginTxn (.setHome h)

theorem State.Onward.endTxn {q line} (h : s.Onward false deep t) : s.Onward false deep (t.endTxn q line) := by
  unfold State.endTxn
  dsimp only
  exact .beginTxn (.setHome h)

theorem execRdShared_goes {part line agent} (h : s.Onward b deep t) : s.Goes b deep (execRdShared part line agent t) := by
  unfold execRdShared
  exact waits_goes h (.ite (.next (.request h.any)) (.next h.any))

theorem execRdUnique_goes {part line agent} (h : s.Onward b deep t) : s.Goes b deep (execRdUnique part line agent t) := by
  unfold execRdUnique
  exact waits_goes h (.ite (.next (.request h.any)) (.next h.any))

theorem execWrThrough_goes {part line agent mask bytes} (h : s.Onward b deep t) : s.Goes b deep (execWrThrough part line agent mask bytes t) := by
  unfold execWrThrough
  exact waits_goes h (.ite (.next (.request h.any)) (.next h.any))

theorem execAtomic_goes {part line agent op size off a b1 sgn} (h : s.Onward b deep t) : s.Goes b deep (execAtomic part line agent op size off a b1
    sgn t) := by
  unfold execAtomic
  dsimp only
  exact waits_goes h (.ite (.next (.request h.any)) (.next h.any))

theorem execIoRead_goes {part line agent} (h : s.Onward b deep t) : s.Goes b deep (execIoRead part line agent t) := by
  unfold execIoRead
  exact waits_goes h (.ite (.next (.request h.any)) (.next h.any))

theorem execIoWrite_goes {part line agent mask bytes} (h : s.Onward b deep t) : s.Goes b deep (execIoWrite part line agent mask bytes t) := by
  unfold execIoWrite
  exact waits_goes h (.ite (.next (.request h.any)) (.next h.any))

theorem State.Onward.removeHolder {q line agent} (h : s.Onward b deep t) : s.Onward b deep (t.removeHolder q line agent) := by
  unfold State.removeHolder
  dsimp only
  split
  · exact h
  · exact .setDir h
  · exact .ite (.setDir h) h

theorem execWriteback_goes {part line agent bytes} (h : s.Onward b deep t) : s.Goes b deep (execWriteback part line agent bytes t) := by
  unfold execWriteback
  dsimp only
  exact waits_goes h (.ite (.next (.removeHolder (.lineWrite (.chargeHop (.setHostLine h.any))))) (.next h.any))

theorem execEvictClean_goes {part line agent} (h : s.Onward b deep t) : s.Goes b deep (execEvictClean part line agent t) := by
  unfold execEvictClean
  dsimp only
  exact .ite (.ite (.next (.removeHolder (.modCore h))) (.next h)) (.ite (.next (.removeHolder (.setHostLine h))) (.next h))

theorem State.Onward.l2Room {agent} (h : s.Onward false deep t) : s.Onward false deep (t.l2Room agent) := by
  unfold State.l2Room
  dsimp only
  refine .ite h ?_
  split
  · exact .removeHolder (.recall (.pick h))
  · exact .pick h

theorem execDataFill_goes {part line} (h : s.Onward b deep t) : s.Goes b deep (execDataFill part line t) := by
  unfold execDataFill
  dsimp only
  refine waits_goes h ?_
  split
  · exact .ite (.next (.setHome (.ite (.ite (.l1Insert h.any) h.any) (.setHostLine (.l2Room h.any))))) (.next h.any)
  · exact .next h.any

theorem execCompAck_goes {part line agent} (h : s.Onward b deep t) : s.Goes b deep (execCompAck part line agent t) := by
  unfold execCompAck
  dsimp only
  refine waits_goes h ?_
  split
  · exact .ite (.next (.endTxn (.ite (.setHostLine (.sample h.any)) h.any))) (.next h.any)
  · exact .next h.any

theorem State.Onward.ackL1 {line t1} (h : s.Onward b deep t) : s.Onward b deep (t.ackL1 line t1) := by
  unfold State.ackL1
  split
  · exact .modCore h
  · exact h

theorem execAck_goes {part line} (h : s.Onward b deep t) : s.Goes b deep (execAck part line t) := by
  unfold execAck
  refine waits_goes h ?_
  split
  · exact .ite (.next (.endTxn (.ackL1 h.any))) (.next h.any)
  · exact .next h.any

theorem State.Onward.takeSnoop {q line agent down} (h : s.Onward b deep t) : s.Onward b deep (t.takeSnoop q line agent down) := by
  unfold State.takeSnoop
  dsimp only
  refine .ite ?_ (.ite ?_ (.ite (.setHostLine ?_) (.setHostLine ?_)))
  · split
    · exact .setHome (.modCore h)
    · exact .modCore h
  · split
    · exact .setHome h
    · exact h
  · split
    · exact .setHome (.pick h)
    · exact .pick h
  · split
    · exact .setHome (.pick h)
    · exact .pick h

theorem State.Onward.snoopRow {q line agent down} (h : s.Onward b deep t) : s.Onward b deep (t.snoopRow q line agent down) := by
  unfold State.snoopRow
  dsimp only
  split
  · exact .ite h (.ite (.takeSnoop h) (.ite (.setHostLine (.sample h)) (.takeSnoop (.sample h))))
  · exact h

theorem execInv_goes {part line agent} (h : s.Onward b deep t) : s.Goes b deep (execInv part line agent t) := by
  unfold execInv
  exact .next (.snoopRow h)

theorem execDowngrade_goes {part line agent} (h : s.Onward b deep t) : s.Goes b deep (execDowngrade part line agent t) := by
  unfold execDowngrade
  exact .next (.snoopRow h)

theorem execHoldExpiry_goes {part line agent} (h : s.Onward b deep t) : s.Goes b deep (execHoldExpiry part line agent t) := by
  unfold execHoldExpiry
  dsimp only
  exact .ite (.next (.ite (.setHostLine (.until h)) (.takeSnoop (.setHostLine (.until h))))) (.next h)

theorem State.Onward.snoopAnswer {q line agent plain withData bytes} (h : s.Onward false deep t) : s.Onward false deep (t.snoopAnswer q line agent
    plain withData bytes) := by
  unfold State.snoopAnswer
  dsimp only
  split
  · exact .ite h (.serveTxn (.setHome (.ite (.removeHolder (.ite (.lineWrite (.chargeHop h)) h)) (.setDir (.ite (.lineWrite (.chargeHop h))
      h)))))
  · exact h

theorem execInvAck_goes {part line agent bytes} (h : s.Onward b deep t) : s.Goes b deep (execInvAck part line agent bytes t) := by
  unfold execInvAck
  exact waits_goes h (.next (.snoopAnswer h.any))

theorem execDownAck_goes {part line agent bytes} (h : s.Onward b deep t) : s.Goes b deep (execDownAck part line agent bytes t) := by
  unfold execDownAck
  exact waits_goes h (.next (.snoopAnswer h.any))

theorem State.Onward.emptySlice {g paid} (h : s.Onward false deep t) : s.Onward false deep (t.emptySlice g paid) := by
  unfold State.emptySlice
  exact .modSlice (.foldl h (fun _ _ hu => .gcOut hu))

theorem State.Onward.raiseGallery {g} (h : s.Onward b deep t) : s.Onward b deep (t.raiseGallery g) := by
  unfold State.raiseGallery
  split
  · exact .raise h
  · exact h

theorem State.Onward.gcCtrl {g data} (h : s.Onward b deep t) : s.Onward b deep (t.gcCtrl g data) := by
  unfold State.gcCtrl
  dsimp only
  exact .ite (.ite (.ite h (.ite (.raiseGallery (.setSlice h)) (.setSlice h))) (.ite (.raiseGallery (.setSlice (.ite h (.ite (.raiseGallery
      (.setSlice h)) (.setSlice h))))) (.setSlice (.ite h (.ite (.raiseGallery (.setSlice h)) (.setSlice h)))))) (.ite (.setSlice (.ite h
      (.ite (.raiseGallery (.setSlice h)) (.setSlice h)))) (.ite h (.ite (.raiseGallery (.setSlice h)) (.setSlice h))))

theorem State.Onward.gcWays {g data} (h : s.Onward b deep t) : s.Onward b deep (t.gcWays g data) := by
  unfold State.gcWays
  dsimp only
  exact .ite (.raiseGallery (.setSlice h)) (.setSlice h)

theorem State.Onward.gcStatus {g data} (h : s.Onward b deep t) : s.Onward b deep (t.gcStatus g data) := by
  unfold State.gcStatus
  dsimp only
  split
  · exact .settle (.setSlice h)
  · exact .setSlice h

theorem execSliceDisabled_goes {g} (h : s.Onward b deep t) : s.Goes b deep (execSliceDisabled g t) := by
  unfold execSliceDisabled
  dsimp only
  exact waits_goes h (.ite (.next (.setSlice (.emptySlice h.any))) (.next h.any))

theorem execInvalidateDone_goes {g} (h : s.Onward b deep t) : s.Goes b deep (execInvalidateDone g t) := by
  unfold execInvalidateDone
  dsimp only
  exact .ite (.next (.setSlice h)) (.next h)

theorem State.Onward.dropWay {g w} (h : s.Onward false deep t) : s.Onward false deep (t.dropWay g w) := by
  unfold State.dropWay
  exact .modSlice (.foldl h (fun _ _ hu => .gcOut hu))

theorem State.Onward.disableWay {g w} (h : s.Onward false deep t) : s.Onward false deep (t.disableWay g w) := by
  unfold State.disableWay
  dsimp only
  refine .ite ?_ (.modSlice (.dropWay h))
  split
  · exact .modSlice (.dropWay h)
  · exact .modSlice (.dropWay h)

theorem State.Onward.wayError {g place} (h : s.Onward false deep t) : s.Onward false deep (t.wayError g place) := by
  unfold State.wayError
  dsimp only
  split
  · exact h
  · exact .ite (.ras (.modSlice (.gcOut h))) (.modSlice (.gcOut h))

end Sys2Proof.Machine
end

section
/-! What the operations of Hbm.lean keep. -/

namespace Sys2Proof.Machine

open Sys2Proof

variable {b : Bool} {deep : Nat} {s t u : State}

theorem State.Onward.allocate {owner balanced n lists} (h : s.Onward b (deep + 1) t) :
    s.Opens b (deep + 1) ((t.allocate owner balanced n lists).map (·.1)) := by
  unfold State.allocate
  dsimp only
  split
  · exact .none
  · exact .some (h.change rfl rfl fun r => { r with hbm := filter_keeps_mwf _ _ _ r.hbm })

theorem State.Onward.release {owner} (h : s.Onward b (deep + 1) t) : s.Onward b (deep + 1) (t.release owner) := by
  unfold State.release
  exact h.change rfl rfl fun r => { r with }

theorem State.Onward.defaultBuckets {q groups galleries} (h : s.Onward b deep t) : s.Onward b deep (t.defaultBuckets q groups galleries) := by
  unfold State.defaultBuckets
  dsimp only
  exact .foldl h (fun _ _ hu => (.ite hu (.ite (.setBucket hu) (.setBucket hu))))

theorem State.Onward.segNotify {i line outcome} (h : s.Onward b deep t) : s.Onward b deep (t.segNotify i line outcome) := by
  unfold State.segNotify
  exact .foldl h (fun _ _ hu => .logEvent (.raise hu))

theorem State.Onward.segError {i line} (h : s.Onward b deep t) : s.Onward b deep (t.segError i line) := by
  unfold State.segError
  dsimp only
  exact .ite h (.segNotify (.setSeg h))

theorem State.Onward.segLineDone {seg line x outcome} (h : s.Onward b deep t) : s.Onward b deep (t.segLineDone seg line x outcome) := by
  unfold State.segLineDone
  dsimp only
  exact .segNotify (.setSeg h)

theorem State.Onward.segWrite {l line bytes} (h : s.Onward b deep t) : s.Onward b deep (t.segWrite l line bytes) := by
  unfold State.segWrite
  dsimp only
  exact .hbmWrite (.hbmWrite h)

theorem State.Onward.segCopyError {i line l} (h : s.Onward false deep t) : s.Onward false deep (t.segCopyError i line l) := by
  unfold State.segCopyError
  dsimp only
  exact .ite (.segLineDone (.dropSegLine (.segNotify h))) (.segNotify (.segWrite (.segNotify h)))

theorem State.Onward.queueRetire {channel path} (h : s.Onward b (deep + 1) t) : s.Onward b (deep + 1) (t.queueRetire channel path) := by
  unfold State.queueRetire
  exact .ite h (h.change rfl rfl fun r => { r with })

theorem State.Onward.poisonHalf {pc line half} (h : s.Onward false (deep + 1) t) : s.Onward false (deep + 1) (t.poisonHalf pc line half) := by
  unfold State.poisonHalf
  refine .ite h ?_
  split
  next u now e =>
    split
    next q addr _ =>
      extract_lets v w ts x y
      have hv : s.Onward false (deep + 1) v := (h.sample.of_eq e).change rfl rfl fun r => { r with }
      have hx : s.Onward false (deep + 1) x := hv.ras.change rfl rfl fun r => { r with }
      have hy : s.Onward false (deep + 1) y := .ite (.queueRetire hx) (.ite (.rasRepaired hx) hx)
      clear_value y
      split
      · exact .segError hy
      · split
        · exact .segCopyError hy
        · exact hy
      · exact hy

theorem State.Onward.rowCorrected {pc line} (h : s.Onward b deep t) : s.Onward b deep (t.rowCorrected pc line) := by
  unfold State.rowCorrected
  dsimp only
  exact .rasCorrected (h.sample.update rfl rfl fun r => { r with })

theorem State.Onward.corruptHalf {pc line half} (h : s.Onward b (deep + 1) t) : s.Onward b (deep + 1) (t.corruptHalf pc line half) := by
  unfold State.corruptHalf
  dsimp only
  refine .ite h ?_
  have hv : s.Onward b (deep + 1) ((t.viewsOf pc line).foldl (fun s v => match s.gcCopy v.1 v.2 with
      | some (k, c) => s.setCopy (s.homeGallery v.1 v.2) k { c with keep := some (s.homeBytes v.1 v.2) }
      | none => s) t) := by
    refine h.foldl fun u v hu => ?_
    split
    · exact .setCopy hu
    · exact hu
  exact hv.change rfl rfl fun r => { r with hbm := writeBytes_keeps_mwf _ _ _ r.hbm }

theorem execHbmRead_goes {pc line half symbols} (h : s.Onward b (deep + 1) t) : s.Goes b (deep + 1) (execHbmRead pc line half symbols t) := by
  unfold execHbmRead
  dsimp only
  exact waits_goes h (.ite (.next h.any) (.ite (.next (.rowCorrected h.any)) (.next (.ite (.poisonHalf (.pick h.any)) (.corruptHalf (.pick
      h.any))))))

theorem execPatrolScrub_goes {stack found} (h : s.Onward b (deep + 1) t) : s.Goes b (deep + 1) (execPatrolScrub stack found t) := by
  unfold execPatrolScrub
  dsimp only
  exact waits_goes h (.ite (.next (.sample h.any)) (.next (.foldl (.foldl (.wakeStack (.setStack (.sample h.any))) (fun _ _ hu => .ite
      (.rowCorrected hu) hu)) (fun _ _ hu => .ite (.poisonHalf hu) hu))))

theorem execRowRepair_goes {pc row} (h : s.Onward b (deep + 1) t) : s.Goes b (deep + 1) (execRowRepair pc row t) := by
  unfold execRowRepair
  have hs := h.sample
  have hp := hs.pick (n := 2)
  exact .ite (.next hs) (.ite (.next (.rasRepaired (hs.change rfl rfl fun r => { r with })))
    (.ite (.next (.queueRetire hp)) (.next (.rasRepaired (.persist (.modRepair (hp.change rfl rfl fun r => { r with })))))))

theorem State.Onward.startRebuild {c key r} (h : s.Onward b (deep + 1) t) : s.Opens b (deep + 1) (t.startRebuild c key r) := by
  unfold State.startRebuild
  dsimp only
  split
  next e =>
    exact .some ((h.allocate.of_fst e).change rfl rfl fun r => { r with })
  · exact .none

theorem State.Onward.moveSegForm {i owner l mask keeper out} (h : s.Onward b (deep + 1) t) :
    s.Opens b (deep + 1) ((t.moveSegForm i owner l mask keeper out).map (·.1)) := by
  unfold State.moveSegForm
  dsimp only
  split
  · exact .none
  next u l1 e =>
    have hu := (h.release (owner := owner)).allocate.of_fst e
    refine .some (hu.foldl fun v x hv => ?_)
    refine .foldl (hv.change rfl rfl fun r => { r with hbm := ?_ }) fun w j hw => .ite (hw.change rfl rfl fun r => { r with }) hw
    exact writeBytes_keeps_mwf _ _ _ r.hbm

theorem State.Onward.moveSegs {out rest} (h : s.Onward b (deep + 1) t) : s.Opens b (deep + 1) (t.moveSegs out rest) := by
  induction rest generalizing t out with
  | nil =>
    unfold State.moveSegs
    exact .some h
  | cons x xs ih =>
    unfold State.moveSegs
    dsimp only
    split
    next e =>
      refine ih ((State.Opens.bind (State.Opens.ite (State.Opens.map_fst h.moveSegForm (fun _ hu => .setSeg hu)) (State.Opens.some h)) (fun
          _ hu => ?_)).of_eq e)
      split
      · exact .ite (.map_fst hu.moveSegForm (fun _ hu => .setSeg hu)) (.some hu)
      · exact .some hu
    · exact .none

theorem State.Onward.placeTables {q groups lines out} (h : s.Onward b (deep + 1) t) : s.Opens b (deep + 1) (t.placeTables q groups lines out) := by
  unfold State.placeTables
  have hr := h.release (owner := .table q 0)
  exact .map_of fun _ => hr.change rfl rfl fun r => { r with }

theorem State.Onward.moveTablesOut {out rest} (h : s.Onward b (deep + 1) t) : s.Opens b (deep + 1) (t.moveTablesOut out rest) := by
  induction rest generalizing t out with
  | nil =>
    unfold State.moveTablesOut
    exact .some h
  | cons x xs ih =>
    unfold State.moveTablesOut
    split
    · refine .ite ?_ (ih h)
      split
      next e =>
        exact ih (h.placeTables.of_eq e)
      · exact .none
    · exact ih h

theorem State.Onward.moveRest {c} (h : s.Onward b (deep + 1) t) : s.Opens b (deep + 1) (t.moveRest c) := by
  unfold State.moveRest
  split
  · exact .bind h.moveSegs (fun _ hu => (hu.moveTablesOut ))
  · exact h.moveSegs 
  · exact .some h

theorem State.Onward.finishJob {j} (h : s.Onward b (deep + 2) t) : s.Onward b (deep + 2) (t.finishJob j) := by
  unfold State.finishJob
  dsimp only
  split
  · exact .rasRepaired (.answerStored (.modRepair h))
  · exact .answer (.defaultBuckets (.setPart_of h id))
  · exact .answer h

/-- Whatever the step of a job leads to, it keeps what every operation keeps. -/
def State.Steps (b : Bool) (deep : Nat) (s : State) : JobStep → Prop
  | .started u => s.Onward b deep u
  | .done u => s.Onward b deep u
  | .short _ => True

theorem State.Onward.jobStep {j todo} (h : s.Onward b (deep + 2) t) : s.Steps b (deep + 2) (t.jobStep j todo) := by
  induction todo with
  | nil =>
    unfold State.jobStep
    split
    next e => exact .finishJob (h.moveRest.of_eq e)
    · trivial
  | cons key todo ih =>
    unfold State.jobStep
    split
    · exact ih
    · split
      next e => exact (h.startRebuild.of_eq e).shrink rfl rfl fun r => { r with }
      · trivial

theorem State.Onward.startMoves {n} (h : s.Onward b (deep + 2) t) : s.Onward b (deep + 2) (State.startMoves n t) := by
  induction n generalizing t with
  | zero => exact h
  | succ n ih =>
    unfold State.startMoves
    refine .ite h ?_
    split
    · exact h
    next j rest _ =>
      have hr : s.Onward b (deep + 2) { t with moveJobs := rest } := h.shrink rfl rfl fun r => { r with }
      have hj := hr.jobStep (j := j) (todo := t.jobTodo j)
      split
      next e =>
        rw [e] at hj
        exact hj
      next e =>
        rw [e] at hj
        exact ih hj
      · split
        · extract_lets u v
          have hu : s.Onward b (deep + 2) u := .ite h (.answer (.logEvent (.raise h)))
          have hv : s.Onward b (deep + 2) v := ih (hu.shrink rfl rfl fun r => { r with })
          exact hv.shrink rfl rfl fun r => { r with }
        · exact ih (.answer hr)

theorem State.Onward.dropRange {q base size} (h : s.Onward false deep t) : s.Onward false deep (t.dropRange q base size) := by
  unfold State.dropRange
  dsimp only
  exact (h.foldl (fun _ _ hu => .ite (.dropCopies hu) hu)).update rfl rfl fun r =>
      { r with slices := rising_map _ r.slices, homes := rising_filter _ r.homes }

theorem State.Onward.endRebuild {b1} (h : s.Onward false (deep + 2) t) : s.Onward false (deep + 2) (t.endRebuild b1) := by
  unfold State.endRebuild
  dsimp only
  exact h.dropRange.release.shrink rfl rfl fun r => { r with regions := rising_minsert _ _ r.regions }

theorem State.Onward.chargeMove {q pa src dst} (h : s.Onward false deep t) : s.Onward false deep (t.chargeMove q pa src dst) := by
  unfold State.chargeMove
  dsimp only
  exact .chargeStack (.chargeHop (.chargeHop (.ite (.countGal h) (.chargeHbm (.countGal h)))))

theorem State.Onward.writeLine {key bytes rs} (h : s.Onward b (deep + 2) t) :
    s.Onward b (deep + 2) { t with hbm := writeBytes t.hbm key bytes, rebuilds := rs } :=
  h.shrink rfl rfl fun r => { r with hbm := writeBytes_keeps_mwf _ _ _ r.hbm }

theorem execLineMove_goes (h : s.Onward b (deep + 2) t) : s.Goes b (deep + 2) (execLineMove t) := by
  unfold execLineMove
  refine waits_goes h ?_
  have ha := h.any
  split
  · exact .next (.startMoves ha)
  · split
    · exact .next (ha.shrink rfl rfl fun r => { r with })
    · extract_lets x pa
      split
      split
      refine .ite (.next ha) ?_
      extract_lets u bs bad v
      have hu : s.Onward false (deep + 2) u := .chargeMove (.askOwner ha)
      clear_value u bs
      have hv : s.Onward false (deep + 2) v := .setCellPoison (.writeLine hu)
      clear_value v
      exact .ite (.next hv) (.next (.startMoves (.endRebuild hv)))

end Sys2Proof.Machine
end

section
/-! What the operations of FabricOps.lean keep. -/

namespace Sys2Proof.Machine

open Sys2Proof

variable {b : Bool} {deep : Nat} {s t u : State}

theorem State.Onward.setPort {p x} (h : s.Onward b (deep + 1) t) : s.Onward b (deep + 1) (t.setPort p x) := by
  unfold State.setPort
  exact h.change rfl rfl fun r => { r with ports := rising_mset _ _ _ r.ports }

theorem State.Onward.setSubPort {k x} (h : s.Onward b (deep + 1) t) : s.Onward b (deep + 1) (t.setSubPort k x) := by
  unfold State.setSubPort
  exact h.change rfl rfl fun r => { r with subPorts := rising_mset _ _ _ r.subPorts }

theorem State.Onward.setAssoc {a x} (h : s.Onward b (deep + 1) t) : s.Onward b (deep + 1) (t.setAssoc a x) := by
  unfold State.setAssoc
  exact h.change rfl rfl fun r => { r with assocs := rising_mset _ _ _ r.assocs }

theorem State.Onward.setSendQueue {k x} (h : s.Onward b (deep + 1) t) : s.Onward b (deep + 1) (t.setSendQueue k x) := by
  unfold State.setSendQueue
  exact h.change rfl rfl fun r => { r with queues := rising_mset _ _ _ r.queues }

theorem State.Onward.subCount {sub k n} (h : s.Onward b (deep + 1) t) : s.Onward b (deep + 1) (t.subCount sub k n) := by
  unfold State.subCount
  dsimp only
  exact .setSubPort h

theorem State.Onward.hsCountUp {sub limit} (h : s.Onward b (deep + 1) t) : s.Onward b (deep + 1) (t.hsCountUp sub limit) := by
  unfold State.hsCountUp
  dsimp only
  exact .setSubPort h

theorem State.Onward.portEvent {p b1} (h : s.Onward b (deep + 1) t) : s.Onward b (deep + 1) (t.portEvent p b1) := by
  unfold State.portEvent
  exact .raise (h.change rfl rfl fun r => { r with })

theorem State.Onward.resolve {k} (h : s.Onward b deep t) : s.Onward b deep (t.resolve k) := by
  unfold State.resolve
  dsimp only
  exact .ite h (.emit h)

theorem State.Onward.resolveAll {ps} (h : s.Onward b deep t) : s.Onward b deep (t.resolveAll ps) := by
  unfold State.resolveAll
  exact .foldl h (fun _ _ hu => .resolve hu)

theorem State.Onward.sendFrame {sub bytes} (h : s.Onward b deep t) : s.Onward b deep (t.sendFrame sub bytes) := by
  unfold State.sendFrame
  exact .emit (.countWide h)

theorem State.Onward.sendPacket {a k payload} (h : s.Onward b (deep + 1) t) : s.Onward b (deep + 1) (t.sendPacket a k payload) := by
  unfold State.sendPacket
  dsimp only
  exact .subCount (.subCount (.sendFrame (.setAssoc h)))

theorem State.Onward.sealSend {a path typ flags key body} (h : s.Onward b (deep + 1) t) : s.Onward b (deep + 1)
    (t.sealSend a path typ flags key body) := by
  unfold State.sealSend
  dsimp only
  split
  · exact h
  · exact .sendPacket (.setAssoc (.sample h))

theorem State.Onward.openPacket {k} (h : s.Onward b (deep + 1) t) : s.Onward b (deep + 1) (t.openPacket k).1 := by
  unfold State.openPacket
  dsimp only
  refine .ite_fst (.pair (.subCount h)) (.ite_fst (.pair (.subCount h)) (.ite_fst h ?_))
  split
  · dsimp only
    exact .subCount h
  · split
    · dsimp only
      exact .subCount h
    · split
      · dsimp only
        exact .subCount h
      · refine .ite_fst (.pair (.subCount h)) ?_
        split
        · dsimp only
          exact .subCount (.setAssoc h)
        · dsimp only
          exact .setAssoc h

theorem State.Onward.sendAck {a path flags} (h : s.Onward b (deep + 1) t) : s.Onward b (deep + 1) (t.sendAck a path flags) := by
  unfold State.sendAck
  dsimp only
  split
  · exact .setAssoc (.sealSend (.pick h))
  · exact h

theorem State.Onward.promote {a} (h : s.Onward b (deep + 1) t) : s.Onward b (deep + 1) (t.promote a) := by
  unfold State.promote
  dsimp only
  split
  · exact .setAssoc h
  · exact h

/-- `acceptPacket` with the note of the packet's number left open, so that nothing unfolds it. -/
def State.acceptWith (note : RxPath → Nat → Nat → Bool → Bool → RxPath × Bool) (s : State) (k : KftPacket) (o : Opened) : State :=
  let (s, t) := s.sample
  let s := (((s.subCount k.sub 1 1).subCount k.sub 3 k.len).subCount k.sub 5 (b2n k.ce)).countWide (17 + 2 * (k.sub / 4)) k.len
  let x := s.assoc o.assoc
  let (r, gap) := note (mget ({} : RxPath) x.rxPaths o.path) o.psn o.ts k.ce (decide (o.typ = 1))
  let r := { r with since := if o.typ = 1 ∧ r.since = none then some t else r.since }
  let s := s.setAssoc o.assoc { x with rxPaths := minsert x.rxPaths o.path r, ce := (x.ce + b2n k.ce) % 2 ^ 64 }
  let s := if o.fresh && (x.initiator || o.confirm) then s.promote o.assoc else s
  if (o.typ = 1 ∧ 4 ≤ r.owed) ∨ o.confirm = true ∨ (o.typ ≠ 3 ∧ (gap = true ∨ bit o.flags 0 = true)) then s.sendAck o.assoc o.path 0 else s

theorem acceptPacket_eq : State.acceptPacket = State.acceptWith RxPath.note := by
  delta State.acceptPacket State.acceptWith
  rfl

theorem State.Onward.acceptWith {note k o} (h : s.Onward b (deep + 1) t) : s.Onward b (deep + 1) (t.acceptWith note k o) := by
  unfold State.acceptWith
  split
  next e =>
    extract_lets u x
    have hu : s.Onward b (deep + 1) u := .countWide (.subCount (.subCount (.subCount (h.sample.of_eq e))))
    clear_value u
    split
    extract_lets r v w
    have hv : s.Onward b (deep + 1) v := .setAssoc hu
    have hw : s.Onward b (deep + 1) w := .ite (.promote hv) hv
    exact .ite (.sendAck hw) hw

theorem State.Onward.acceptPacket {k o} (h : s.Onward b (deep + 1) t) : s.Onward b (deep + 1) (t.acceptPacket k o) := by
  rw [acceptPacket_eq]
  exact .acceptWith h

theorem State.Onward.finishEntry {ctx queue no status} (h : s.Onward false (deep + 1) t) : s.Onward false (deep + 1)
    (t.finishEntry ctx queue no status) := by
  unfold State.finishEntry
  dsimp only
  split
  · exact h
  · refine .ite (.vaWrite (.vaWrite (h.setSendQueue.change rfl rfl fun r => { r with }))) ?_
    split
    · exact .arrive (.vaWrite (.vaWrite (h.setSendQueue.change rfl rfl fun r => { r with })))
    · exact .vaWrite (.vaWrite (h.setSendQueue.change rfl rfl fun r => { r with }))

theorem State.Onward.finishEntries {ctx queue status rest} (h : s.Onward false (deep + 1) t) : s.Onward false (deep + 1)
    (t.finishEntries ctx queue status rest)
    := by
  induction rest generalizing t ctx queue status with
  | nil =>
    unfold State.finishEntries
    exact h
  | cons x xs ih =>
    unfold State.finishEntries
    exact ih (.finishEntry h)

theorem State.Onward.stopQueue {ctx queue} (h : s.Onward b (deep + 1) t) : s.Onward b (deep + 1) (t.stopQueue ctx queue) := by
  unfold State.stopQueue
  dsimp only
  exact .logEvent (.raise (.setSendQueue h))

theorem State.Onward.orphan {ctx queue} (h : s.Onward b (deep + 1) t) : s.Onward b (deep + 1) (t.orphan ctx queue) := by
  unfold State.orphan
  dsimp only
  exact h.change rfl rfl fun r => { r with assocs := rising_map _ r.assocs }

theorem State.Onward.dropQueue {ctx queue} (h : s.Onward false (deep + 1) t) : s.Onward false (deep + 1) (t.dropQueue ctx queue) := by
  unfold State.dropQueue
  dsimp only
  exact .setSendQueue (.orphan (.finishEntries (.foldl (.dropHeld h) (fun _ _ hu => .dropHeld hu))))

theorem State.Onward.dropOut {a seq} (h : s.Onward b (deep + 1) t) : s.Onward b (deep + 1) (t.dropOut a seq) := by
  unfold State.dropOut
  dsimp only
  exact .setAssoc h

theorem State.Onward.answered {a m status} (h : s.Onward false (deep + 1) t) : s.Onward false (deep + 1) (t.answered a m status) := by
  unfold State.answered
  dsimp only
  split
  · exact .finishEntry (.dropOut h)
  · split
    · exact h.dropOut.change rfl rfl fun r => { r with }
    · exact .dropOut h

theorem State.Onward.queueSeg {a g} (h : s.Onward b (deep + 1) t) : s.Onward b (deep + 1) (t.queueSeg a g) := by
  unfold State.queueSeg
  dsimp only
  exact .setAssoc h

theorem State.Onward.newMessage {a m g} (h : s.Onward b (deep + 1) t) : s.Onward b (deep + 1) (t.newMessage a m g) := by
  unfold State.newMessage
  dsimp only
  exact .setAssoc h

theorem State.Onward.queueLandings {a} (h : s.Onward b (deep + 1) t) : s.Onward b (deep + 1) (t.queueLandings a) := by
  unfold State.queueLandings
  dsimp only
  exact .foldl h (fun _ _ hu => .ite (hu.newMessage.change rfl rfl fun r => { r with }) hu)

theorem State.Onward.msgDone {a seq} (h : s.Onward b (deep + 1) t) : s.Onward b (deep + 1) (t.msgDone a seq) := by
  unfold State.msgDone
  dsimp only
  exact .setAssoc h

theorem State.Onward.refuse {a seq status} (h : s.Onward b (deep + 1) t) : s.Onward b (deep + 1) (t.refuse a seq status) := by
  unfold State.refuse
  exact .msgDone (.queueSeg h)

theorem State.Onward.acknowledge {a seq} (h : s.Onward b (deep + 1) t) : s.Onward b (deep + 1) (t.acknowledge a seq) := by
  unfold State.acknowledge
  exact .msgDone (.queueSeg h)

theorem State.Onward.performWrite {a g} (h : s.Onward false (deep + 1) t) : s.Onward false (deep + 1) (t.performWrite a g) := by
  unfold State.performWrite
  dsimp only
  refine .ite (.refuse h) (.ite h ?_)
  split
  next e1 =>
    exact .refuse (h.vaWrite.of_eq e1)
  next e2 =>
    exact .refuse (h.vaWrite.of_eq e2)
  next e3 =>
    exact .stall (h.vaWrite.of_eq e3)
  next e4 =>
    exact .ite (.acknowledge (h.vaWrite.of_eq e4)) (.setAssoc (h.vaWrite.of_eq e4))

theorem State.Onward.remoteRead {a g} (h : s.Onward false deep t) : s.Onward false deep (t.remoteRead a g).1 := by
  unfold State.remoteRead
  dsimp only
  exact .orHeld (.vaRead h)

theorem State.Onward.performRead {a g} (h : s.Onward false (deep + 1) t) : s.Onward false (deep + 1) (t.performRead a g) := by
  unfold State.performRead
  dsimp only
  refine .ite (.refuse h) ?_
  split
  next e1 =>
    exact .msgDone (.queueSeg (h.remoteRead.of_eq e1))
  next e2 =>
    exact .refuse (h.remoteRead.of_eq e2)
  next e3 =>
    exact .refuse (h.remoteRead.of_eq e3)
  next e4 =>
    exact .stall (h.remoteRead.of_eq e4)

theorem State.Onward.performAtomic {a g} (h : s.Onward false (deep + 1) t) : s.Onward false (deep + 1) (t.performAtomic a g) := by
  unfold State.performAtomic
  dsimp only
  refine .ite (.refuse h) ?_
  split
  · exact .refuse h
  · refine .ite (.refuse h) ?_
    split
    next e1 =>
      exact .refuse (h.xlate.of_eq e1)
    next e2 =>
      exact .refuse (h.xlate.of_eq e2)
    next e3 =>
      exact .stall (h.xlate.of_eq e3)
    next e4 =>
      split
      · exact .refuse (h.xlate.of_eq e4)
      · split
        next e5 =>
          refine .msgDone (.queueSeg ?_)
          split
          · exact .paWrite (((h.xlate.of_eq e4).paRead).of_eq e5)
          · exact ((h.xlate.of_eq e4).paRead).of_eq e5
        next e6 =>
          exact .refuse (((h.xlate.of_eq e4).paRead).of_eq e6)
        next e7 =>
          exact .refuse (((h.xlate.of_eq e4).paRead).of_eq e7)

theorem State.Onward.applyLanding {a seq mop addr arg} (h : s.Onward false (deep + 1) t) : s.Onward false (deep + 1)
    (t.applyLanding a seq mop addr arg) := by
  unfold State.applyLanding
  dsimp only
  exact .ite (.ite (.acknowledge (.arrive h)) (.refuse h)) (.ite (.refuse h) (.ite (.ite (.acknowledge (.releaseSlot (.setSlot h)))
      (.acknowledge (.notifyAll (.modSlot (.setSlot h))))) (.acknowledge (.loseSlot h))))

theorem State.Onward.landingsDue {a fuel} (h : s.Onward false (deep + 1) t) : s.Onward false (deep + 1) (t.landingsDue a fuel) := by
  induction fuel generalizing t a with
  | zero =>
    unfold State.landingsDue
    exact h
  | succ n ih =>
    unfold State.landingsDue
    dsimp only
    split
    · exact ih (.applyLanding h)
    · exact h

theorem State.Onward.performRequest {sub a g} (h : s.Onward false (deep + 1) t) : s.Onward false (deep + 1) (t.performRequest sub a g) := by
  unfold State.performRequest
  dsimp only
  refine .ite h (.ite (.subCount h) (.landingsDue ?_))
  split
  · exact .performWrite h
  · exact .performRead h
  · exact .performAtomic h
  · exact .ite (.applyLanding h) (.ite h (.setAssoc h))

theorem State.Onward.writeLocal {m off data} (h : s.Onward false deep t) : s.Onward false deep (t.writeLocal m off data).1 := by
  unfold State.writeLocal
  exact .ite_fst h (.vaWrite h)

theorem State.Onward.readReturns {a m g} (h : s.Onward false (deep + 1) t) : s.Onward false (deep + 1) (t.readReturns a m g) := by
  unfold State.readReturns
  dsimp only
  refine .ite h ?_
  split
  next e1 =>
    exact .stall (h.writeLocal.of_eq e1)
  next e2 =>
    exact .ite (.answered (h.writeLocal.of_eq e2)) (.setAssoc (h.writeLocal.of_eq e2))
  next e3 =>
    exact .answered (h.writeLocal.of_eq e3)

theorem State.Onward.performAnswer {a g} (h : s.Onward false (deep + 1) t) : s.Onward false (deep + 1) (t.performAnswer a g) := by
  unfold State.performAnswer
  split
  · exact h
  · split
    · exact .ite (.readReturns h) h
    · refine .ite ?_ h
      split
      next e1 =>
        exact .stall (h.writeLocal.of_eq e1)
      next e2 =>
        exact .answered (h.writeLocal.of_eq e2)
      next e3 =>
        exact .answered (h.writeLocal.of_eq e3)
    · exact .ite h (.answered h)
    · exact .answered h

theorem State.Onward.performSegs {sub a rest} (h : s.Onward false (deep + 1) t) : s.Onward false (deep + 1) (t.performSegs sub a rest) := by
  induction rest generalizing t sub a with
  | nil =>
    unfold State.performSegs
    exact h
  | cons x xs ih =>
    unfold State.performSegs
    exact ih (.ite (.performAnswer h) (.performRequest h))

theorem State.Onward.ackEntry {a path ce cum map ts} (h : s.Onward b (deep + 1) t) : s.Onward b (deep + 1) (t.ackEntry a path ce cum map ts) := by
  unfold State.ackEntry
  dsimp only
  split
  · exact .sample h
  · exact .setAssoc (.sample h)

theorem State.Onward.ackEntries {a fuel table} (h : s.Onward b (deep + 1) t) : s.Onward b (deep + 1) (t.ackEntries a fuel table) := by
  induction fuel generalizing t a table with
  | zero =>
    unfold State.ackEntries
    exact h
  | succ n ih =>
    unfold State.ackEntries
    exact .ite h (ih (.ackEntry h))

theorem State.Onward.abortEntries {a status} (h : s.Onward false (deep + 1) t) : s.Onward false (deep + 1) (t.abortEntries a status) := by
  unfold State.abortEntries
  exact .foldl h (fun _ _ hu => .ite (.finishEntries hu) hu)

theorem State.Onward.endAssoc {a st reason} (h : s.Onward false (deep + 1) t) : s.Onward false (deep + 1) (t.endAssoc a st reason) := by
  unfold State.endAssoc
  dsimp only
  exact .logEvent (.raise (.ite (.setAssoc (h.abortEntries.loseSlots.change rfl rfl fun r => { r with slots := rising_map _ r.slots }))
      (.logEvent (.raise (.setAssoc (h.abortEntries.loseSlots.change rfl rfl fun r => { r with slots := rising_map _ r.slots }))))))

theorem State.Onward.draw32 (h : s.Onward b deep t) : s.Onward b deep t.draw32.1 := by
  unfold State.draw32
  dsimp only
  exact h.update rfl rfl fun r => { r with }

theorem State.Onward.tagFor {a} (h : s.Onward b deep t) : s.Onward b deep (t.tagFor a).1 := by
  unfold State.tagFor
  dsimp only
  exact .ite_fst h (.pair (.pick h))

theorem State.Onward.sendHandshake {a epoch body} (h : s.Onward b (deep + 1) t) : s.Onward b (deep + 1) (t.sendHandshake a epoch body) := by
  unfold State.sendHandshake
  dsimp only
  split
  · exact .ite (.sample h) (.sendPacket (.sample h))
  · exact h

theorem State.Onward.sendHello {a} (h : s.Onward b (deep + 1) t) : s.Onward b (deep + 1) (t.sendHello a) := by
  unfold State.sendHello
  dsimp only
  split
  · exact h
  · exact .sendHandshake (.setAssoc (.sample (.tagFor (.draw32 (.draw32 h)))))

theorem State.Onward.hsAdmit {sub} (h : s.Onward b (deep + 1) t) : s.Onward b (deep + 1) (t.hsAdmit sub).1 := by
  unfold State.hsAdmit
  dsimp only
  exact .ite_fst (.pair (.setSubPort (.sample h))) (.pair (.hsCountUp (.setSubPort (.sample h))))

theorem State.Onward.hsArrive {k} (h : s.Onward b (deep + 1) t) : s.Onward b (deep + 1) (t.hsArrive k).1 := by
  unfold State.hsArrive
  refine .ite_fst h (.ite_fst (.pair (.subCount h)) (.ite_fst (.pair (.subCount h)) ?_))
  split
  next e =>
    dsimp only
    exact .countWide (.subCount (.subCount (.subCount (h.hsAdmit.of_eq e))))
  · exact .hsAdmit h

theorem State.Onward.buildPaths {x} (h : s.Onward b deep t) : s.Onward b deep (t.buildPaths x).1 := by
  unfold State.buildPaths
  dsimp only
  exact .pick h

theorem State.Onward.rebuildPaths (h : s.Onward b (deep + 1) t) : s.Onward b (deep + 1) t.rebuildPaths := by
  unfold State.rebuildPaths
  dsimp only
  exact .foldl h (fun _ _ hu => (.ite (.resolveAll (.setAssoc (.buildPaths hu))) hu))

end Sys2Proof.Machine
end

section
/-! What the operations of Ports.lean keep. -/

namespace Sys2Proof.Machine

open Sys2Proof

variable {b : Bool} {deep : Nat} {s t u : State}

theorem State.Onward.sendLane {sub code lane seq seed} (h : s.Onward b deep t) : s.Onward b deep (t.sendLane sub code lane seq seed) := by
  unfold State.sendLane
  exact .emit (.countWide h)

theorem State.Onward.laneFrame {sub code payload f} (h : s.Onward b (deep + 1) t) (hf : s.Onward b (deep + 1) (f t)) :
    s.Onward b (deep + 1) (t.laneFrame sub code payload f) := by
  unfold State.laneFrame
  exact .ite h (.ite (.subCount h) (.ite hf h))

theorem State.Onward.offerOn {sub} (h : s.Onward b (deep + 1) t) : s.Onward b (deep + 1) (t.offerOn sub) := by
  unfold State.offerOn
  dsimp only
  exact .sendLane (.setSubPort (.sample (.pick h)))

theorem State.Onward.offerAll {subs} (h : s.Onward b (deep + 1) t) : s.Onward b (deep + 1) (t.offerAll subs) := by
  unfold State.offerAll
  exact .foldl h (fun _ _ hu => .offerOn hu)

theorem State.Onward.subDown {sub} (h : s.Onward b (deep + 1) t) : s.Onward b (deep + 1) (t.subDown sub) := by
  unfold State.subDown
  dsimp only
  exact .ite (.sample h) (.ite (.offerAll (.setPort (.portEvent (h.sample.setSubPort.change rfl rfl fun r =>
      { r with assocs := rising_map _ r.assocs })))) (.setPort (.portEvent (h.sample.setSubPort.change rfl rfl fun r =>
      { r with assocs := rising_map _ r.assocs }))))

theorem execLinkUp_goes {sub} (h : s.Onward b (deep + 1) t) : s.Goes b (deep + 1) (execLinkUp sub t) := by
  unfold execLinkUp
  dsimp only
  exact .ite (.next h) (.next (.offerOn (.foldl (.portEvent (.setSubPort h)) (fun _ _ hu => .resolveAll hu))))

theorem execTrainRetry_goes {sub} (h : s.Onward b (deep + 1) t) : s.Goes b (deep + 1) (execTrainRetry sub t) := by
  unfold execTrainRetry
  dsimp only
  exact .ite (.next h) (.next (.subCount (.setSubPort (.until h))))

theorem execOffer_goes {sub payload} (h : s.Onward b (deep + 1) t) : s.Goes b (deep + 1) (execOffer sub payload t) := by
  unfold execOffer
  dsimp only
  exact .next (.laneFrame h (.ite h (.sendLane (.setPort h))))

theorem execAccept_goes {sub payload} (h : s.Onward b (deep + 1) t) : s.Goes b (deep + 1) (execAccept sub payload t) := by
  unfold execAccept
  dsimp only
  refine .next (.laneFrame h ?_)
  split
  · exact .ite (.setSubPort (.sample h)) (.sample h)
  · exact .sample h

theorem execOfferRepeat_goes {port} (h : s.Onward b (deep + 1) t) : s.Goes b (deep + 1) (execOfferRepeat port t) := by
  unfold execOfferRepeat
  dsimp only
  split
  · exact .next h
  · exact .ite (.next h) (.next (.offerAll (.until h)))

theorem execSpareAssign_goes {port sub} (h : s.Onward b (deep + 1) t) : s.Goes b (deep + 1) (execSpareAssign port sub t) := by
  unfold execSpareAssign
  dsimp only
  split
  · exact .ite (.next (.until h)) (.next (.setPort (.foldl (.until h) (fun _ _ hu => .setSubPort hu))))
  · exact .next h

theorem execLane8PatternTimeout_goes {port} (h : s.Onward b (deep + 1) t) : s.Goes b (deep + 1) (execLane8PatternTimeout port t) := by
  unfold execLane8PatternTimeout
  dsimp only
  split
  · split
    · split
      · exact .next (.setSubPort (.setSubPort (.until h)))
      · exact .next (.setSubPort (.until h))
    · exact .next h
  · exact .next h

theorem State.Onward.recordLane {port dir lane} (h : s.Onward b (deep + 1) t) : s.Onward b (deep + 1) (t.recordLane port dir lane) := by
  unfold State.recordLane
  dsimp only
  exact .rasRepaired (.persist (.modRepair h))

theorem execLaneFail_goes {port lane} (h : s.Onward b (deep + 1) t) : s.Goes b (deep + 1) (execLaneFail port lane t) := by
  unfold execLaneFail
  dsimp only
  exact .ite (.next h) (.ite (.next (.rasRepaired h)) (.ite (.next (.ite (.subDown (.portEvent h)) (.setPort (.portEvent h)))) (.ite (.next
      (.sendLane (.setPort (.pick (.sample (.portEvent (.setPort h))))))) (.next (.subDown (.portEvent (.setPort h)))))))

theorem execShadowReq_goes {sub payload} (h : s.Onward b (deep + 1) t) : s.Goes b (deep + 1) (execShadowReq sub payload t) := by
  unfold execShadowReq
  dsimp only
  exact .next (.laneFrame h (.ite h (.sendLane (.setPort h))))

theorem execShadowOn_goes {sub payload} (h : s.Onward b (deep + 1) t) : s.Goes b (deep + 1) (execShadowOn sub payload t) := by
  unfold execShadowOn
  dsimp only
  refine .next (.laneFrame h ?_)
  split
  · exact .ite (.setPort h) h
  · exact h

theorem execSwapDone_goes {sub own payload} (h : s.Onward b (deep + 1) t) : s.Goes b (deep + 1) (execSwapDone sub own payload t) := by
  unfold execSwapDone
  dsimp only
  refine .ite ?_ (.next (.laneFrame h ?_))
  · split
    · exact .next (.sendLane (.recordLane (.portEvent (.setPort h))))
    · exact .next h
  · split
    · exact .ite (.portEvent (.recordLane h)) h
    · exact h

theorem execShadowOff_goes {sub own payload} (h : s.Onward b (deep + 1) t) : s.Goes b (deep + 1) (execShadowOff sub own payload t) := by
  unfold execShadowOff
  dsimp only
  refine .ite ?_ (.next (.laneFrame h (.ite (.portEvent (.persist (.modRepair (.setPort h)))) h)))
  split
  · exact .ite (.next h) (.next (.sendLane (.persist (.modRepair (.portEvent (.setPort h))))))
  · exact .next h

theorem execShadowReqRepeat_goes {port} (h : s.Onward b (deep + 1) t) : s.Goes b (deep + 1) (execShadowReqRepeat port t) := by
  unfold execShadowReqRepeat
  dsimp only
  split
  · exact .ite (.next (.subDown (.until h))) (.next (.sendLane (.setPort (.until h))))
  · exact .next h

theorem execForeign_goes {sub corrupt} (h : s.Onward b (deep + 1) t) : s.Goes b (deep + 1) (execForeign sub corrupt t) := by
  unfold execForeign
  exact .ite (.next h) (.next (.subCount h))

theorem execArpNdIcmpFrame_goes {f} (h : s.Onward b (deep + 1) t) : s.Goes b (deep + 1) (execArpNdIcmpFrame f t) := by
  unfold execArpNdIcmpFrame
  dsimp only
  exact .ite (.next h) (.ite (.next (h.change rfl rfl fun r => { r with })) (.ite (.next h) (.ite (.next h) (.next (.emit (.ite h (h.change rfl rfl
      fun r => { r with })))))))

theorem execStrangerAttention_goes {port} (h : s.Onward b (deep + 1) t) : s.Goes b (deep + 1) (execStrangerAttention port t) := by
  unfold execStrangerAttention
  dsimp only
  refine .ite (.next h) (.next (.portEvent (.setPort ?_)))
  split
  · exact .until h
  · exact h

end Sys2Proof.Machine
end

section
/-! What the operations of Kft.lean keep. -/

namespace Sys2Proof.Machine

open Sys2Proof

variable {b : Bool} {deep : Nat} {s t u : State}

theorem State.Onward.kftRow {k typ mop f} (h : s.Onward b (deep + 1) t) (hf : ∀ u o, s.Onward b (deep + 1) u → s.Onward b (deep + 1) (f u o)) :
    s.Onward b (deep + 1) (t.kftRow k typ mop f) := by
  unfold State.kftRow
  split
  next u o e =>
    have hu := (h.openPacket (k := k)).of_eq e
    exact .ite (.ite (hf _ _ (.acceptPacket hu)) (.acceptPacket hu)) h
  · exact h

theorem State.Onward.readHeld {a rest} (h : s.Onward false deep t) : s.Opens false deep (t.readHeld a rest) := by
  induction rest generalizing t a with
  | nil =>
    unfold State.readHeld
    exact .none
  | cons x xs ih =>
    unfold State.readHeld
    dsimp only
    refine .ite ?_ (ih h)
    split
    next e =>
      exact .some (h.remoteRead.of_eq e)
    · exact ih h

theorem State.Onward.msgRow {k mop} (h : s.Onward false (deep + 1) t) : s.Onward false (deep + 1) (t.msgRow k mop) := by
  unfold State.msgRow
  extract_lets held
  have hh : t.Opens false (deep + 1) held := by
    unfold held
    split
    next e => exact .ite (State.Onward.readHeld ((State.Onward.openPacket (.refl false t)).of_eq e)) .none
    · exact .none
  clear_value held
  split
  next u =>
    have hu := hh u rfl
    exact { h with now := h.now.trans hu.now, tables := fun r => { h.tables r with segs := (hu.tables (h.tables r)).segs } }
  · exact .kftRow h fun _ _ hu => .performSegs hu

theorem execMsgWrite_goes {k} (h : s.Onward b (deep + 1) t) : s.Goes b (deep + 1) (execMsgWrite k t) := by
  unfold execMsgWrite
  exact waits_goes h (.next (.msgRow h.any))

theorem execReadReq_goes {k} (h : s.Onward b (deep + 1) t) : s.Goes b (deep + 1) (execReadReq k t) := by
  unfold execReadReq
  exact waits_goes h (.next (.msgRow h.any))

theorem execReadResp_goes {k} (h : s.Onward b (deep + 1) t) : s.Goes b (deep + 1) (execReadResp k t) := by
  unfold execReadResp
  exact waits_goes h (.next (.msgRow h.any))

theorem execMsgAtomic_goes {k} (h : s.Onward b (deep + 1) t) : s.Goes b (deep + 1) (execMsgAtomic k t) := by
  unfold execMsgAtomic
  exact waits_goes h (.next (.msgRow h.any))

theorem execAtomicResp_goes {k} (h : s.Onward b (deep + 1) t) : s.Goes b (deep + 1) (execAtomicResp k t) := by
  unfold execAtomicResp
  exact waits_goes h (.next (.msgRow h.any))

theorem execWriteAck_goes {k} (h : s.Onward b (deep + 1) t) : s.Goes b (deep + 1) (execWriteAck k t) := by
  unfold execWriteAck
  exact waits_goes h (.next (.msgRow h.any))

theorem execMsgLdgArrive_goes {k} (h : s.Onward b (deep + 1) t) : s.Goes b (deep + 1) (execMsgLdgArrive k t) := by
  unfold execMsgLdgArrive
  exact waits_goes h (.next (.msgRow h.any))

theorem execLdgRelease_goes {k} (h : s.Onward b (deep + 1) t) : s.Goes b (deep + 1) (execLdgRelease k t) := by
  unfold execLdgRelease
  exact waits_goes h (.next (.msgRow h.any))

theorem execLdgLoss_goes {k} (h : s.Onward b (deep + 1) t) : s.Goes b (deep + 1) (execLdgLoss k t) := by
  unfold execLdgLoss
  exact waits_goes h (.next (.msgRow h.any))

theorem execNak_goes {k} (h : s.Onward b (deep + 1) t) : s.Goes b (deep + 1) (execNak k t) := by
  unfold execNak
  exact waits_goes h (.next (.msgRow h.any))

theorem execKftAck_goes {k} (h : s.Onward b (deep + 1) t) : s.Goes b (deep + 1) (execKftAck k t) := by
  unfold execKftAck
  exact .next (.kftRow h (fun _ _ hu => .ackEntries hu))

theorem execProbe_goes {k} (h : s.Onward b (deep + 1) t) : s.Goes b (deep + 1) (execProbe k t) := by
  unfold execProbe
  exact .next (.kftRow h (fun _ _ hu => .sendAck hu))

theorem execConfirm_goes {k} (h : s.Onward b (deep + 1) t) : s.Goes b (deep + 1) (execConfirm k t) := by
  unfold execConfirm
  split
  next e =>
    exact .ite (.next (.acceptPacket (h.openPacket.of_eq e))) (.next h)
  · exact .next h

theorem execStrangerPacket_goes {k} (h : s.Onward b (deep + 1) t) : s.Goes b (deep + 1) (execStrangerPacket k t) := by
  unfold execStrangerPacket
  split
  next e =>
    exact .next (h.openPacket.of_eq e)
  · exact .next h

theorem execHello_goes {h1} (h : s.Onward b (deep + 1) t) : s.Goes b (deep + 1) (execHello h1 t) := by
  unfold execHello
  dsimp only
  split
  next e1 =>
    exact .next (h.hsArrive.of_eq e1)
  next e2 =>
    split
    · exact .next (.hsCountUp (h.hsArrive.of_eq e2))
    · split
      · exact .next (h.hsArrive.of_eq e2)
      · exact .ite (.next (.hsCountUp (h.hsArrive.of_eq e2))) (.ite (.next (h.hsArrive.of_eq e2)) (.ite (.next (h.hsArrive.of_eq e2)) (.next
          (.sendHandshake (.setAssoc (.sample (.tagFor (.draw32 (.draw32 (h.hsArrive.of_eq e2))))))))))

theorem execReply_goes {h1} (h : s.Onward b (deep + 1) t) : s.Goes b (deep + 1) (execReply h1 t) := by
  unfold execReply
  dsimp only
  split
  next e1 =>
    exact .next (h.hsArrive.of_eq e1)
  next e2 =>
    split
    · exact .next (.hsCountUp (h.hsArrive.of_eq e2))
    · refine .ite (.next (.hsCountUp (h.hsArrive.of_eq e2))) ?_
      split
      · exact .next (.sealSend (.setAssoc (.sample (h.hsArrive.of_eq e2))))
      · exact .next (.setAssoc (.sample (h.hsArrive.of_eq e2)))

theorem execClose_goes {p b1} (h : s.Onward b (deep + 1) t) : s.Goes b (deep + 1) (execClose p b1 t) := by
  unfold execClose
  dsimp only
  split
  next e1 =>
    exact .next (h.hsArrive.of_eq e1)
  next e2 =>
    exact .ite (waits_goes (h.hsArrive.of_eq e2) (.next (.endAssoc (h.any.hsArrive.of_eq e2)))) (.next (.hsCountUp (h.hsArrive.of_eq e2)))

theorem execRekeyStart_goes {assoc} (h : s.Onward b (deep + 1) t) : s.Goes b (deep + 1) (execRekeyStart assoc t) := by
  unfold execRekeyStart
  dsimp only
  split
  · exact .ite (.next h) (.ite (.next (.sendHello h)) (.next (.sendHello (.until h))))
  · exact .next h

theorem execRekeyTimeout_goes {assoc} (h : s.Onward b (deep + 1) t) : s.Goes b (deep + 1) (execRekeyTimeout assoc t) := by
  unfold execRekeyTimeout
  dsimp only
  exact .ite (waits_goes h (.next (.endAssoc (.until h.any)))) (.next h)

theorem execOldEpochErase_goes {assoc} (h : s.Onward b (deep + 1) t) : s.Goes b (deep + 1) (execOldEpochErase assoc t) := by
  unfold execOldEpochErase
  dsimp only
  split
  · exact .next (.setAssoc (.until h))
  · exact .next h

theorem State.Onward.wakeQueue {ctx queue} (h : s.Onward b (deep + 1) t) : s.Onward b (deep + 1) (t.wakeQueue ctx queue) := by
  unfold State.wakeQueue
  dsimp only
  refine .ite h ?_
  split
  · exact .ite h (.setSendQueue h)
  · exact h

theorem State.Onward.sendEntry {ctx queue w} (h : s.Onward false (deep + 1) t) : s.Onward false (deep + 1) (t.sendEntry ctx queue w) := by
  unfold State.sendEntry
  dsimp only
  refine .ite (.finishEntry (.setSendQueue h)) (.ite (.finishEntry (.setSendQueue h)) ?_)
  split
  · split
    next e1 =>
      exact .newMessage (.dropHeld (h.setSendQueue.vaRead.orHeld.of_eq e1))
    next e2 =>
      exact .setSendQueue (h.setSendQueue.vaRead.orHeld.of_eq e2)
    next e3 =>
      exact .finishEntry (h.setSendQueue.vaRead.orHeld.of_eq e3)
  · exact .newMessage (.setSendQueue h)
  · exact .newMessage (.setSendQueue h)
  · exact .newMessage (.setSendQueue h)

theorem State.Onward.nextEntry {ctx queue q mine} (h : s.Onward false (deep + 1) t) : s.Onward false (deep + 1) (t.nextEntry ctx queue q mine) := by
  unfold State.nextEntry
  dsimp only
  split
  next e1 =>
    exact .ite (.setSendQueue (.dropHeld (h.vaRead.orHeld.of_eq e1))) (.ite (.dropHeld (h.vaRead.orHeld.of_eq e1)) (.ite
        ((((h.vaRead.orHeld.of_eq e1).dropHeld).setSendQueue).change rfl rfl fun r => { r with }) (.sendEntry ((((h.vaRead.orHeld.of_eq
        e1).dropHeld).setSendQueue).change rfl rfl fun r => { r with }))))
  next e2 =>
    exact h.vaRead.orHeld.of_eq e2
  next e3 =>
    exact .stopQueue (h.vaRead.orHeld.of_eq e3)

theorem State.Onward.takeEntry {ctx queue op} (h : s.Onward false (deep + 1) t) : s.Onward false (deep + 1) (t.takeEntry ctx queue op) := by
  unfold State.takeEntry
  dsimp only
  refine .ite (.wakeQueue h) ?_
  split
  · exact .sendEntry (.wakeQueue h)
  · exact .ite (.nextEntry (.wakeQueue h)) (.wakeQueue h)

theorem execRemoteWrite_goes {ctx queue} (h : s.Onward b (deep + 1) t) : s.Goes b (deep + 1) (execRemoteWrite ctx queue t) := by
  unfold execRemoteWrite
  exact waits_goes h (.next (.takeEntry h.any))

theorem execRemoteRead_goes {ctx queue} (h : s.Onward b (deep + 1) t) : s.Goes b (deep + 1) (execRemoteRead ctx queue t) := by
  unfold execRemoteRead
  exact waits_goes h (.next (.takeEntry h.any))

theorem execRemoteAtomic_goes {ctx queue} (h : s.Onward b (deep + 1) t) : s.Goes b (deep + 1) (execRemoteAtomic ctx queue t) := by
  unfold execRemoteAtomic
  exact waits_goes h (.next (.takeEntry h.any))

theorem execRemoteLandingArrive_goes {ctx queue} (h : s.Onward b (deep + 1) t) : s.Goes b (deep + 1) (execRemoteLandingArrive ctx queue t) := by
  unfold execRemoteLandingArrive
  exact waits_goes h (.next (.takeEntry h.any))

theorem execKftSend_goes {assoc room} (h : s.Onward b (deep + 1) t) : s.Goes b (deep + 1) (execKftSend assoc room t) := by
  unfold execKftSend
  dsimp only
  refine waits_goes h (.ite (.next (.queueLandings h.any)) ?_)
  split
  · split
    · exact .next (.queueLandings h.any)
    · exact .ite (.next (.queueLandings h.any)) (.next (.subCount (.setAssoc (.sealSend (.setAssoc (.charge (.until (.queueLandings
        h.any))))))))
  · exact .next (.queueLandings h.any)

theorem execAckDelay_goes {assoc path} (h : s.Onward b (deep + 1) t) : s.Goes b (deep + 1) (execAckDelay assoc path t) := by
  unfold execAckDelay
  split
  · exact .next (.sendAck (.until h))
  · exact .next h

theorem execRetxTimer_goes {assoc path psn} (h : s.Onward b (deep + 1) t) : s.Goes b (deep + 1) (execRetxTimer assoc path psn t) := by
  unfold execRetxTimer
  dsimp only
  split
  · exact .next (.setAssoc (.until h))
  · exact .next h

theorem execSegmentTimeout_goes {assoc path psn} (h : s.Onward b (deep + 1) t) : s.Goes b (deep + 1) (execSegmentTimeout assoc path psn t) := by
  unfold execSegmentTimeout
  dsimp only
  split
  · exact waits_goes h (.next (.endAssoc (.until h.any)))
  · exact .next h

theorem execProbeTimer_goes {assoc path} (h : s.Onward b (deep + 1) t) : s.Goes b (deep + 1) (execProbeTimer assoc path t) := by
  unfold execProbeTimer
  dsimp only
  split
  · exact .ite (.next h) (.next (.sealSend (.setAssoc (.until h))))
  · exact .next h

theorem execPathMove_goes {assoc path} (h : s.Onward b (deep + 1) t) : s.Goes b (deep + 1) (execPathMove assoc path t) := by
  unfold execPathMove
  dsimp only
  split
  · refine .ite (.next h) ?_
    split
    · exact .next (.resolve (.setAssoc h))
    · exact .next (.setAssoc h)
  · exact .next h

end Sys2Proof.Machine
end

section
/-! What the operations of Landings.lean keep. -/

namespace Sys2Proof.Machine

open Sys2Proof

variable {b : Bool} {deep : Nat} {s t u : State}

theorem execSlotReturn_goes {slot} (h : s.Onward b (deep + 1) t) : s.Goes b (deep + 1) (execSlotReturn slot t) := by
  unfold execSlotReturn
  dsimp only
  exact .ite (.next (.setSlot h)) (.next h)

theorem execTimeout_goes {slot n} (h : s.Onward b (deep + 1) t) : s.Goes b (deep + 1) (execTimeout slot n t) := by
  unfold execTimeout
  dsimp only
  split
  · exact .ite (.next h) (.next (.traceRelease (.notify (.setSlot (.until h)))))
  · exact .next h

theorem State.Onward.resumeCore {c} (h : s.Onward b (deep + 1) t) : s.Onward b (deep + 1) (t.resumeCore c) := by
  unfold State.resumeCore
  exact .ite h (h.change rfl rfl fun r => { r with })

theorem execLandingMove_goes (h : s.Onward b (deep + 3) t) : s.Goes b (deep + 3) (execLandingMove t) := by
  unfold execLandingMove
  split
  · exact .next h
  next m rest _ =>
    extract_lets u v
    have hu : s.Onward b (deep + 3) u := h.lose rfl rfl fun r => { r with }
    have hv : s.Onward b (deep + 3) v := .setSlot (.setSlot hu)
    exact .ite (.next (.resumeCore hu)) (.next (hv.lose rfl rfl fun r => { r with ctxs := rising_map _ r.ctxs }))

theorem execMirrorForward_goes {slot} (h : s.Onward b (deep + 1) t) : s.Goes b (deep + 1) (execMirrorForward slot t) := by
  unfold execMirrorForward
  dsimp only
  split
  · exact .ite (.next h) (.next (h.change rfl rfl fun r => { r with }))
  · exact .next h

theorem State.Onward.modHostCore {h1 f} (h : s.Onward b (deep + 1) t) : s.Onward b (deep + 1) (t.modHostCore h1 f) := by
  unfold State.modHostCore
  exact h.change rfl rfl fun r => { r with hostCores := rising_mset _ _ _ r.hostCores }

theorem State.Onward.hostArrive {ctx lid n} (h : s.Onward false (deep + 3) t) : s.Onward false (deep + 3) (t.hostArrive ctx lid n) := by
  unfold State.hostArrive
  refine .ite h ?_
  split
  · exact .arrive h
  · exact h
  · exact .ite (.faultCtx (.modCtx h)) h

theorem execLdgArrive_goes {h1 ctx a} (h : s.Onward b (deep + 3) t) : s.Goes b (deep + 3) (execLdgArrive h1 ctx a t) := by
  unfold execLdgArrive
  dsimp only
  exact waits_goes h (.ite (.next h.any) (.ite (.next (.modHostCore h.any)) (.ite (.next (.ite (.hostArrive (.modHostCore h.any))
      (.modHostCore h.any))) (.next (.modHostCore (.modHostCore h.any))))))

end Sys2Proof.Machine
end

section
/-! What the operations of Preempt.lean keep. -/

namespace Sys2Proof.Machine

open Sys2Proof

variable {b : Bool} {deep : Nat} {s t u : State}

theorem State.Onward.savePieces {ctx base rest} (h : s.Onward false deep t) : s.Onward false deep (t.savePieces ctx base rest).1 := by
  induction rest generalizing t ctx base with
  | nil =>
    unfold State.savePieces
    dsimp only
    exact h
  | cons x xs ih =>
    unfold State.savePieces
    dsimp only
    split
    next e =>
      exact ih (h.vaWrite.orHeld.of_eq e)
    · exact .orHeld (.vaWrite h)

theorem State.Onward.saveCrew {ctx area core} (h : s.Onward false deep t) : s.Onward false deep (t.saveCrew ctx area core).1 := by
  unfold State.saveCrew
  exact .savePieces (h.update rfl rfl fun r => { r with })

theorem State.Onward.saveCrews {ctx area rest} (h : s.Onward false (deep + 1) t) : s.Onward false (deep + 1) (t.saveCrews ctx area rest).1 := by
  induction rest generalizing t ctx area with
  | nil =>
    unfold State.saveCrews
    dsimp only
    exact h
  | cons x xs ih =>
    unfold State.saveCrews
    dsimp only
    split
    next e1 =>
      dsimp only
      exact h.saveCrew.of_eq e1
    next e2 =>
      dsimp only
      exact h.saveCrew.of_eq e2
    next e3 =>
      dsimp only
      exact h.saveCrew.of_eq e3
    next e4 =>
      exact ih (((h.saveCrew.of_eq e4).freeCrew).change rfl rfl fun r => { r with })

theorem State.Onward.discardCrews {ctx} (h : s.Onward b (deep + 1) t) : s.Onward b (deep + 1) (t.discardCrews ctx) := by
  unfold State.discardCrews
  dsimp only
  exact h.change rfl rfl fun r => { r with cores := rising_map _ r.cores, slots := rising_map _ r.slots }

theorem State.Onward.setAside {ctx} (h : s.Onward b (deep + 1) t) : s.Onward b (deep + 1) (t.setAside ctx) := by
  unfold State.setAside
  dsimp only
  exact h.change rfl rfl fun r => { r with cores := rising_map _ r.cores }

theorem execPreemptSave_goes {ctx} (h : s.Onward b (deep + 3) t) : s.Goes b (deep + 3) (execPreemptSave ctx t) := by
  unfold execPreemptSave
  dsimp only
  refine waits_goes h ?_
  split
  · exact .next h.any
  · refine .ite (.next h.any) ?_
    split
    · exact .next (.holdRead h.any)
    next e1 =>
      exact .next (.reply (.writeCredit (.modCtx (.setAside (h.any.saveCrews.of_eq e1)))))
    next e2 =>
      exact .next (.faultCtx (.foldl (((h.any.saveCrews.of_eq e2).discardCrews).lose rfl rfl fun r =>
          { r with launches := rising_filter _ r.launches }) (fun _ _ hu => .packetDone hu)))

theorem execPreemptTimeout_goes {ctx} (h : s.Onward b (deep + 3) t) : s.Goes b (deep + 3) (execPreemptTimeout ctx t) := by
  unfold execPreemptTimeout
  split
  · exact .ite (.next h) (.next (.reply (.modCtx (.until h))))
  · exact .next h

theorem State.Onward.resumeCtx {ctx} (h : s.Onward b (deep + 1) t) : s.Onward b (deep + 1) (t.resumeCtx ctx) := by
  unfold State.resumeCtx
  dsimp only
  exact .foldl (h.change rfl rfl fun r => { r with }) (fun _ _ hu => .modCore hu)

theorem State.Onward.xltWrite {ctx data} (h : s.Onward b (deep + 3) t) : s.Onward b (deep + 3) (t.xltWrite ctx data) := by
  unfold State.xltWrite
  dsimp only
  exact .ite (.setCtx h) (.setCtx h)

theorem execInvalidationDone_goes {ctx} (h : s.Onward b (deep + 3) t) : s.Goes b (deep + 3) (execInvalidationDone ctx t) := by
  unfold execInvalidationDone
  dsimp only
  split
  · exact .next h
  · exact .next (.setCtx (h.lose rfl rfl fun r => { r with }))

theorem State.Onward.segFromHost {seg line addr} (h : s.Onward false deep t) : s.Onward false deep (t.segFromHost seg line addr) := by
  unfold State.segFromHost
  split
  next e1 =>
    exact .segLineDone (.segWrite (h.hostRead.of_eq e1))
  next e2 =>
    exact .segLineDone (h.hostRead.of_eq e2)

theorem execSegmentRestore_goes {seg line} (h : s.Onward b deep t) : s.Goes b deep (execSegmentRestore seg line t) := by
  unfold execSegmentRestore
  dsimp only
  refine waits_goes h (.ite (.next (.segMark h.any)) (.ite (.next h.any) ?_))
  split
  · exact .ite (.next (.segLineDone h.any)) (.next (.segLineDone (.segWrite h.any)))
  · exact .next (.segFromHost h.any)

theorem execSegmentHoldExpiry_goes {seg n} (h : s.Onward b deep t) : s.Goes b deep (execSegmentHoldExpiry seg n t) := by
  unfold execSegmentHoldExpiry
  dsimp only
  split
  · exact .next (.setSeg (.until h))
  · exact .next h

end Sys2Proof.Machine
end

section
/-! What the operations of Streams.lean keep. -/

namespace Sys2Proof.Machine

open Sys2Proof

variable {b : Bool} {deep : Nat} {s t u : State}

theorem State.Onward.granule {ctx off bytes} (h : s.Onward b (deep + 3) t) : s.Onward b (deep + 3) (t.granule ctx off bytes) := by
  unfold State.granule
  dsimp only
  refine .ite h ?_
  split
  · exact h
  · exact .setCtx h
  · exact .setCtx h
  · exact .ite (.logIngress (.setCtx h)) (.ite (.setCtx h) (.faultCtx (.setCtx h)))

theorem State.Onward.partialGranule {ctx off n} (h : s.Onward b (deep + 3) t) : s.Onward b (deep + 3) (t.partialGranule ctx off n) := by
  unfold State.partialGranule
  dsimp only
  refine .ite h ?_
  split
  · exact h
  · exact .setCtx h
  · exact .setCtx h
  · exact .logIngress (.setCtx h)

theorem State.Onward.granules {ctx fuel table mark} (h : s.Onward b (deep + 3) t) : s.Onward b (deep + 3) (t.granules ctx fuel table mark) := by
  induction fuel generalizing t ctx table mark with
  | zero =>
    unfold State.granules
    exact h
  | succ n ih =>
    unfold State.granules
    dsimp only
    exact .ite h (ih (.ite (.granule h) (.partialGranule h)))

theorem execIngressGranule_goes {fn ctx off bytes} (h : s.Onward b (deep + 3) t) : s.Goes b (deep + 3) (execIngressGranule fn ctx off bytes t) := by
  unfold execIngressGranule
  dsimp only
  exact .ite (.next h) (.ite (.next (.hostError h)) (.ite (.next h) (.next (.granules h))))

theorem State.Onward.chainPacket {w l} (h : s.Onward false deep t) : s.Onward false deep (t.chainPacket w l).1 := by
  unfold State.chainPacket
  dsimp only
  split
  next e1 =>
    refine .ite_fst (.pair (h.spaceRead.of_eq e1)) ?_
    split
    next e2 =>
      dsimp only
      exact ((h.spaceRead.of_eq e1).spaceRead).of_eq e2
    · exact .spaceRead (h.spaceRead.of_eq e1)
  · exact .spaceRead h

theorem State.Onward.decodeOne {n} (h : s.Onward false (deep + 3) t) : s.Onward false (deep + 3) (t.decodeOne n) := by
  unfold State.decodeOne
  dsimp only
  split
  · exact h
  · exact .ite (.faultCtx (.modCtx (.ras h))) (.setCtx h)
  · split
    next e1 =>
      exact .modCtx (h.chainPacket.of_eq e1)
    next e2 =>
      exact .ite (h.chainPacket.of_eq e2) (.modPkt (h.chainPacket.of_eq e2))
    next e3 =>
      exact .ite (h.chainPacket.of_eq e3) (.modPkt (h.chainPacket.of_eq e3))
    next e4 =>
      exact h.chainPacket.of_eq e4

theorem execPacketDecode_goes (h : s.Onward b (deep + 3) t) : s.Goes b (deep + 3) (execPacketDecode t) := by
  unfold execPacketDecode
  dsimp only
  refine waits_goes h ?_
  split
  · exact .next (h.any.decodeOne.lose rfl rfl fun r => { r with })
  · exact .next h.any

theorem execPacketSkip_goes {ctx} (h : s.Onward b (deep + 3) t) : s.Goes b (deep + 3) (execPacketSkip ctx t) := by
  unfold execPacketSkip
  dsimp only
  split
  · exact .ite (.next h) (.ite (.next (.dispatch h)) (.next (.logIngress (.dispatch h))))
  · exact .next h

theorem execNop_goes {ctx} (h : s.Onward b (deep + 3) t) : s.Goes b (deep + 3) (execNop ctx t) := by
  unfold execNop
  exact .next (.atDispatch h (fun _ => (.dispatch h)))

theorem execSetIds_goes {ctx} (h : s.Onward b (deep + 3) t) : s.Goes b (deep + 3) (execSetIds ctx t) := by
  unfold execSetIds
  exact .next (.atDispatch h (fun _ => (.modCtx (.dispatch h))))

theorem State.Onward.writeTimestamp {ctx p} (h : s.Onward false (deep + 1) t) : s.Onward false (deep + 1) (t.writeTimestamp ctx p) := by
  unfold State.writeTimestamp
  dsimp only
  refine .ite ?_ (.packetDone (.hostWrite (.sample h)))
  split
  next e1 =>
    exact .packetDone (h.sample.vaWrite.of_eq e1)
  next e2 =>
    exact .packetDone (h.sample.vaWrite.of_eq e2)
  next e3 =>
    exact .packetDone (h.sample.vaWrite.of_eq e3)

theorem execTimestamp_goes {ctx} (h : s.Onward b (deep + 3) t) : s.Goes b (deep + 3) (execTimestamp ctx t) := by
  unfold execTimestamp
  dsimp only
  refine waits_goes h ?_
  split
  · exact .next (.writeTimestamp h.any)
  · exact .next (.atDispatch h.any (fun _ => (.ite (.writeTimestamp (.dispatch h.any)) (.dispatch h.any))))

theorem State.Onward.report {ctx pid} (h : s.Onward false (deep + 1) t) : s.Onward false (deep + 1) (t.report ctx pid) := by
  unfold State.report
  dsimp only
  split
  · exact .packetDone (.ite (.raise (.writeRecord h)) (.writeRecord h))
  · exact h

theorem execReport_goes {ctx} (h : s.Onward b (deep + 3) t) : s.Goes b (deep + 3) (execReport ctx t) := by
  unfold execReport
  dsimp only
  refine waits_goes h ?_
  split
  · exact .next (.report h.any)
  · exact .next (.atDispatch h.any (fun _ => (.ite (.report (.dispatch h.any)) (.dispatch h.any))))

theorem State.Onward.fenceDone {ctx pid} (h : s.Onward b (deep + 1) t) : s.Onward b (deep + 1) (t.fenceDone ctx pid) := by
  unfold State.fenceDone
  split
  · exact .ite h (.packetDone h)
  · exact h

theorem execFence_goes {ctx} (h : s.Onward b (deep + 3) t) : s.Goes b (deep + 3) (execFence ctx t) := by
  unfold execFence
  split
  · exact .next (.fenceDone h)
  · exact .next (.atDispatch h (fun _ => (.ite (.fenceDone (.modPkt (.dispatch h))) h)))

theorem State.Onward.packetArrive {ctx p} (h : s.Onward false (deep + 1) t) : s.Onward false (deep + 1) (t.packetArrive ctx p) := by
  unfold State.packetArrive
  dsimp only
  split
  · exact .packetDone h
  · exact .packetDone h
  · exact .packetDone (.arrive h)

theorem execLandingArrive_goes {ctx} (h : s.Onward b (deep + 3) t) : s.Goes b (deep + 3) (execLandingArrive ctx t) := by
  unfold execLandingArrive
  dsimp only
  refine waits_goes h ?_
  split
  · exact .next (.packetArrive h.any)
  · exact .next (.atDispatch h.any (fun _ => (.ite (.packetArrive (.dispatch h.any)) (.dispatch h.any))))

theorem execLandingWait_goes {ctx} (h : s.Onward b (deep + 3) t) : s.Goes b (deep + 3) (execLandingWait ctx t) := by
  unfold execLandingWait
  dsimp only
  refine waits_goes h (.next (.atDispatch h.any (fun _ => (.ite h.any ?_))))
  split
  · exact .packetDone (.dispatch h.any)
  · exact .packetDone (.dispatch h.any)
  · split
    next e1 =>
      exact .packetDone (.dispatch (h.any.wait.of_eq e1))
    next e2 =>
      exact .dispatch (h.any.wait.of_eq e2)

theorem State.Onward.resolveFlag {ctx p holds} (h : s.Onward b (deep + 3) t) : s.Onward b (deep + 3) (t.resolveFlag ctx p holds) := by
  unfold State.resolveFlag
  dsimp only
  exact .ite (.dispatch h) (.modCtx (.dropRunAhead (.dispatch h)))

theorem State.Onward.completeAt {ctx p status detail} (h : s.Onward false (deep + 3) t) : s.Onward false (deep + 3)
    (t.completeAt ctx p status detail) := by
  unfold State.completeAt
  dsimp only
  split
  · exact .completePkt (.dispatch h)
  · exact .dispatch h

theorem execIfFlag_goes {ctx} (h : s.Onward b (deep + 3) t) : s.Goes b (deep + 3) (execIfFlag ctx t) := by
  unfold execIfFlag
  dsimp only
  refine waits_goes h (.next (.atDispatch h.any (fun _ => ?_)))
  split
  next e1 =>
    exact .resolveFlag (h.any.spaceRead.of_eq e1)
  next e2 =>
    exact .completeAt (h.any.spaceRead.of_eq e2)
  next e3 =>
    exact .completeAt (h.any.spaceRead.of_eq e3)
  next e4 =>
    exact h.any.spaceRead.of_eq e4

theorem execElsePacket_goes {ctx} (h : s.Onward b (deep + 3) t) : s.Goes b (deep + 3) (execElsePacket ctx t) := by
  unfold execElsePacket
  exact .next (.atDispatch h (fun _ => (.dispatch h)))

theorem execEndIf_goes {ctx} (h : s.Onward b (deep + 3) t) : s.Goes b (deep + 3) (execEndIf ctx t) := by
  unfold execEndIf
  exact .next (.atDispatch h (fun _ => (.dispatch h)))

theorem execFetchChain_goes {ctx} (h : s.Onward b (deep + 3) t) : s.Goes b (deep + 3) (execFetchChain ctx t) := by
  unfold execFetchChain
  refine waits_goes h (.next (.atDispatch h.any (fun _ => ?_)))
  split
  · exact .completeAt h.any
  · exact .dispatch h.any

theorem execChainFault_goes {ctx} (h : s.Onward b (deep + 3) t) : s.Goes b (deep + 3) (execChainFault ctx t) := by
  unfold execChainFault
  refine waits_goes h ?_
  split
  · split
    · exact .next (.completePkt h.any)
    · exact .next h.any
  · exact .next h.any

theorem State.Onward.logOpenRanges {ctx depth rest} (h : s.Onward b (deep + 3) t) : s.Onward b (deep + 3) (t.logOpenRanges ctx depth rest) := by
  induction rest generalizing t ctx depth with
  | nil =>
    unfold State.logOpenRanges
    exact h
  | cons x xs ih =>
    unfold State.logOpenRanges
    exact ih (.logIngress h)

theorem execChainEnd_goes {ctx} (h : s.Onward b (deep + 3) t) : s.Goes b (deep + 3) (execChainEnd ctx t) := by
  unfold execChainEnd
  split
  · exact .ite (.next (.logOpenRanges (.dispatch h))) (.next h)
  · exact .next h

theorem execPacketComplete_goes {ctx pid} (h : s.Onward b (deep + 3) t) : s.Goes b (deep + 3) (execPacketComplete ctx pid t) := by
  unfold execPacketComplete
  refine waits_goes h ?_
  split
  · split
    · exact .next (.completePkt h.any)
    · exact .next h.any
  · exact .next h.any

theorem execFaultCreditRecord_goes {ctx} (h : s.Onward b (deep + 3) t) : s.Goes b (deep + 3) (execFaultCreditRecord ctx t) := by
  unfold execFaultCreditRecord
  dsimp only
  refine waits_goes h (.ite (.next (.raise (.writeCredit (.modCtx ?_)))) (.next h.any))
  split
  · exact .writeRecord h.any
  · exact h.any

theorem execPacketRetire_goes {ctx} (h : s.Onward b (deep + 3) t) : s.Goes b (deep + 3) (execPacketRetire ctx t) := by
  unfold execPacketRetire
  dsimp only
  refine waits_goes h ?_
  split
  · exact .ite (.next h.any) (.ite (.next (.writeCredit (.setCtx h.any))) (.next (.setCtx h.any)))
  · exact .next h.any

end Sys2Proof.Machine
end

section
/-! What the operations of Removals.lean keep. -/

namespace Sys2Proof.Machine

open Sys2Proof

variable {b : Bool} {deep : Nat} {s t u : State}

theorem State.Onward.dropJobs {core gone} (h : s.Onward b (deep + 1) t) : s.Onward b (deep + 1) (t.dropJobs core gone) := by
  unfold State.dropJobs
  dsimp only
  exact .modCore (.ite (.dropHeld (.unwait h)) h)

theorem State.Onward.dropChains {core gone} (h : s.Onward b deep t) : s.Onward b deep (t.dropChains core gone) := by
  unfold State.dropChains
  exact .modEngine h

theorem State.Onward.cutPackets {n rest} (h : s.Onward false (deep + 1) t) : s.Onward false (deep + 1) (t.cutPackets n rest) := by
  induction rest generalizing t n with
  | nil =>
    unfold State.cutPackets
    exact h
  | cons x xs ih =>
    unfold State.cutPackets
    dsimp only
    refine ih (.modCtx_of (.ite h ?_) fun c => ?_)
    split
    · exact h
    · exact .ite h (.writeRecord h)
    · exact .writeRecord h
    · exact standing_ite rfl (standing_consume c _)

theorem State.Onward.cutCtx {n} (h : s.Onward false (deep + 2) t) : s.Onward false (deep + 2) (t.cutCtx n) := by
  unfold State.cutCtx
  dsimp only
  refine .loseSlots (.modCtx_of ?_ fun _ => rfl)
  exact (.cutPackets (.dropHeld ((((h.endPreempt.unwaitAll.foldl (fun _ _ hu => .dropHeld hu)).discardCrews).foldl (fun
      _ _ hu => .dropChains (.dropJobs hu))).shrink rfl rfl fun r =>
      { r with launches := rising_filter _ r.launches, coxLaunches := rising_filter _ r.coxLaunches })))

theorem State.Onward.dropQueues {n} (h : s.Onward false (deep + 1) t) : s.Onward false (deep + 1) (t.dropQueues n) := by
  unfold State.dropQueues
  exact .foldl h (fun _ _ hu => .ite (.dropQueue hu) hu)

theorem State.Onward.clearCtxBits {n} (h : s.Onward b deep t) : s.Onward b deep (t.clearCtxBits n) := by
  unfold State.clearCtxBits
  dsimp only
  exact .setFunc h

theorem State.Onward.dropTraces {n} (h : s.Onward b deep t) : s.Onward b deep (t.dropTraces n) := by
  unfold State.dropTraces
  exact h.update rfl rfl fun r => { r with traces := rising_map _ r.traces }

theorem State.Onward.freeCtx {n} (h : s.Onward false (deep + 3) t) : s.Onward false (deep + 3) (t.freeCtx n) := by
  unfold State.freeCtx
  extract_lets fn u other
  have hu : s.Onward false (deep + 3) u := .settle (.setCtx (.dropTraces (.clearCtxBits (.dropQueues h))))
  clear_value u
  exact hu.lose rfl rfl fun r => { r with cores := rising_map _ r.cores }

theorem State.Onward.abortDrains {gone} (h : s.Onward b (deep + 1) t) : s.Onward b (deep + 1) (t.abortDrains gone) := by
  unfold State.abortDrains
  dsimp only
  exact .foldl (h.change rfl rfl fun r => { r with }) (fun _ _ hu => .answer hu)

theorem State.Onward.endCtx {n} (h : s.Onward false (deep + 3) t) : s.Onward false (deep + 3) (t.endCtx n) := by
  unfold State.endCtx
  dsimp only
  exact .freeCtx (.writeCredit (.loseSlots (.dropQueues (.modCtx (.abortDrains h)))))

theorem State.Onward.destroyCtx {n} (h : s.Onward false (deep + 3) t) : s.Onward false (deep + 3) (t.destroyCtx n) := by
  unfold State.destroyCtx
  exact .endCtx (.cutCtx h)

theorem State.Onward.destroyCtxs {rest} (h : s.Onward false (deep + 3) t) : s.Onward false (deep + 3) (t.destroyCtxs rest) := by
  induction rest generalizing t with
  | nil =>
    unfold State.destroyCtxs
    exact h
  | cons x xs ih =>
    unfold State.destroyCtxs
    exact ih (.destroyCtx h)

theorem State.Onward.drainCtx {n} (h : s.Onward false (deep + 3) t) : s.Onward false (deep + 3) (t.drainCtx n) := by
  unfold State.drainCtx
  dsimp only
  exact .dropUndispatched (.writeCredit (.modCtx (.endPreempt h)))

theorem State.Onward.clearCore {c} (h : s.Onward b (deep + 1) t) : s.Onward b (deep + 1) (t.clearCore c) := by
  unfold State.clearCore
  exact h.change rfl rfl fun r =>
      { r with
        cores := rising_merase _ r.cores
        slots := rising_filter _ r.slots
        coreBanks := rising_merase _ r.coreBanks
        traces := rising_merase _ r.traces }

theorem State.Onward.addGallery {g} (h : s.Onward b (deep + 1) t) : s.Onward b (deep + 1) (t.addGallery g) := by
  unfold State.addGallery
  dsimp only
  exact (h.foldl (fun _ _ hu => .clearCore hu)).change rfl rfl fun r =>
      { r with
        slices := rising_mset _ _ _ r.slices
        hostLines := rising_filter _ r.hostLines
        galBanks := rising_merase _ r.galBanks
        traces := rising_merase _ r.traces
        gals := rising_minsert _ _ r.gals
        hostCores := rising_merase _ (rising_merase _ r.hostCores) }

theorem State.Onward.galleryOff {g} (h : s.Onward b (deep + 1) t) : s.Onward b (deep + 1) (t.galleryOff g) := by
  unfold State.galleryOff
  exact h.change rfl rfl fun r => { r with gals := rising_merase _ r.gals, hostCores := rising_merase _ (rising_merase _ r.hostCores) }

theorem State.Onward.recallPart {q} (h : s.Onward false deep t) : s.Onward false deep (t.recallPart q) := by
  unfold State.recallPart
  dsimp only
  exact .foldl (.foldl h (fun _ _ hu => (.ite (.setDir (.dropCopies hu)) hu))) (fun _ _ hu => (.ite (.raiseGallery (.modSlice (.emptySlice
      hu))) (.modSlice (.emptySlice hu))))

theorem State.Onward.powerStacks (h : s.Onward b deep t) : s.Onward b deep t.powerStacks := by
  unfold State.powerStacks
  dsimp only
  exact .foldl h (fun _ _ hu => (.ite (.ite (.setStack hu) hu) (.ite hu (.setStack hu))))

theorem State.Onward.emptyPart {q} (h : s.Onward false (deep + 2) t) : s.Onward false (deep + 2) (t.emptyPart q) := by
  unfold State.emptyPart
  extract_lets gs u1 u2 u3 u4 u5 u6 u7
  have h2 : s.Onward false (deep + 2) u2 := .foldl (.abortDrains h) fun _ _ hu => .answer hu
  have h4 : s.Onward false (deep + 2) u4 := .foldl (.recallPart h2) fun _ _ hu => .ite (.setAssoc (.endAssoc hu)) hu
  have h5 : s.Onward false (deep + 2) u5 := h4.foldl fun _ _ hu => .galleryOff hu
  clear_value u5
  have h6 : s.Onward false (deep + 2) u6 := h5.shrink rfl rfl fun r => { r with
    homes := rising_filter _ r.homes, regions := rising_filter _ r.regions, segs := rising_map _ r.segs }
  clear_value u6
  exact .powerStacks (.setPart_of (.ite h6 (.startMoves h6)) id)

theorem State.Onward.cutPart {q} (h : s.Onward false (deep + 3) t) : s.Onward false (deep + 3) (t.cutPart q) := by
  unfold State.cutPart
  exact .emptyPart (.destroyCtxs h)

theorem State.Onward.destroyPart {q} (h : s.Onward false (deep + 3) t) : s.Onward false (deep + 3) (t.destroyPart q) := by
  unfold State.destroyPart
  exact .setPart_of (.cutPart h) fun hx => by cases hx

theorem State.Onward.dropKey {k} (h : s.Onward b (deep + 1) t) : s.Onward b (deep + 1) (t.dropKey k) := by
  unfold State.dropKey
  dsimp only
  exact h.change rfl rfl fun r => { r with }

theorem State.Onward.dropPartKeys {q} (h : s.Onward b (deep + 1) t) : s.Onward b (deep + 1) (t.dropPartKeys q) := by
  unfold State.dropPartKeys
  exact .foldl h (fun _ _ hu => .dropKey hu)

theorem State.Onward.destroyParts {rest} (h : s.Onward false (deep + 3) t) : s.Onward false (deep + 3) (t.destroyParts rest) := by
  induction rest generalizing t with
  | nil =>
    unfold State.destroyParts
    exact h
  | cons x xs ih =>
    unfold State.destroyParts
    exact ih (.destroyPart h)

theorem State.Onward.atOnce (h : s.Onward b deep t) (hu : s.Onward false deep u) : s.Onward b deep (t.atOnce u) := by
  unfold State.atOnce
  exact { hu with stalled := h.stalled, tables := fun r => { hu.tables r with } }

theorem State.Onward.partFatal {q e} (h : s.Onward b (deep + 3) t) : s.Onward b (deep + 3) (t.partFatal q e) := by
  unfold State.partFatal
  exact .atOnce h (.cutPart (.ras h.any))

theorem State.Onward.partsFatal {e rest} (h : s.Onward b (deep + 3) t) : s.Onward b (deep + 3) (t.partsFatal e rest) := by
  induction rest generalizing t e with
  | nil =>
    unfold State.partsFatal
    exact h
  | cons x xs ih =>
    unfold State.partsFatal
    exact ih (.partFatal h)

theorem State.Onward.checkLaunches {rest} (h : s.Onward b (deep + 2) t) : s.Onward b (deep + 2) (t.checkLaunches rest) := by
  induction rest generalizing t with
  | nil =>
    unfold State.checkLaunches
    exact h
  | cons x xs ih =>
    unfold State.checkLaunches
    exact ih (.checkLaunch h)

theorem State.Onward.cutCore {c} (h : s.Onward b (deep + 2) t) : s.Onward b (deep + 2) (t.cutCore c) := by
  unfold State.cutCore
  extract_lets k crews cox packets u1 u2 u3 u4 u5 u6 u7
  have h1 : s.Onward b (deep + 2) u1 := h.foldl fun _ _ hu => .dropHeld hu
  have h4 : s.Onward b (deep + 2) u4 := .foldl (.modCore (.dropHeld (.unwait h1))) fun _ _ hu => .modLaunch hu
  have h5 : s.Onward b (deep + 2) u5 := h4.shrink rfl rfl fun r => { r with coxLaunches := rising_map _ r.coxLaunches }
  have h6 : s.Onward b (deep + 2) u6 := h5.foldl fun _ _ hu => .packetDone hu
  have h7 : s.Onward b (deep + 2) u7 := h6.shrink rfl rfl fun r => { r with slots := rising_map _ r.slots }
  exact .checkLaunches h7

theorem State.Onward.moveSlotsOut {ks} (h : s.Onward b (deep + 1) t) : s.Onward b (deep + 1) (t.moveSlotsOut ks) := by
  -- the list of free slots is left open: its length would be unfolded
  obtain ⟨f, hf⟩ : ∃ f, f = State.moveSlotsOut := ⟨_, rfl⟩
  rw [← hf]
  delta State.moveSlotsOut State.moveSlotsOut._f at hf
  generalize List.range 1024 = ds at hf
  subst hf
  induction ks generalizing t with
  | nil => exact h
  | cons k ks ih =>
    simp only [List.brecOn.go] at ih ⊢
    split
    next d _ => exact ih (h.change rfl rfl fun r => { r with })
    · exact ih (.loseSlot h)

theorem State.Onward.abortAbsent {q} (h : s.Onward b (deep + 1) t) : s.Onward b (deep + 1) (t.abortAbsent q) := by
  unfold State.abortAbsent
  exact .mapCtxs h fun _ c => standing_ite rfl rfl

theorem State.Onward.chooseSite {sites} (h : s.Onward b (deep + 1) t) : s.Onward b (deep + 1) (t.chooseSite sites).1 := by
  induction sites generalizing t with
  | nil => exact h
  | cons x xs ih =>
    unfold State.chooseSite
    have hp := h.sample.pick (n := 2)
    exact .ite_fst (ih h) (.ite_fst h (.ite_fst (hp.change rfl rfl fun r => { r with }) (ih (.modRepair hp))))

theorem State.Onward.substitute {c} (h : s.Onward b (deep + 1) t) : s.Onward b (deep + 1) (t.substitute c) := by
  unfold State.substitute
  extract_lets old served die u
  have hu : s.Onward b (deep + 1) u := .modRepair h
  split
  next v site e =>
    have hv : s.Onward b (deep + 1) v := State.Onward.of_eq (.ite_fst hu (.chooseSite hu)) e
    extract_lets q v1 w1 v2 conf map v3 v4
    have h1 : s.Onward b (deep + 1) v1 := .clearCore hv
    have hw : s.Onward b (deep + 1) w1 := { h1 with
      tables := fun r => { h1.tables r with slots := (hv.tables r).slots }, access := fun hd => by omega }
    have h2 : s.Onward b (deep + 1) v2 := .moveSlotsOut hv
    have h3 : s.Onward b (deep + 1) v3 := .persist (h2.change rfl rfl fun r => { r with })
    have h4 : s.Onward b (deep + 1) v4 := by
      unfold v4
      clear_value q
      split
      · exact .abortAbsent h3
      · exact h3
    clear_value w1 v4
    cases site with
    | some x =>
      have hy : ∀ {f}, s.Onward b (deep + 1) (w1.modRepair f).persist := .persist (.modRepair hw)
      exact .rasRepaired (hy.change rfl rfl fun r => { r with })
    | none => exact .rasRepaired h4

theorem State.Onward.drainCore {c} (h : s.Onward b (deep + 1) t) : s.Onward b (deep + 1) (t.drainCore c) := by
  unfold State.drainCore
  exact h.change rfl rfl fun r => { r with }

theorem State.Onward.applyLanes {p} (h : s.Onward b (deep + 1) t) : s.Onward b (deep + 1) (t.applyLanes p) := by
  unfold State.applyLanes
  dsimp only
  exact .foldl h (fun _ _ hu => .ite (.setPort hu) hu)

theorem State.Onward.portOff {p mode} (h : s.Onward b (deep + 1) t) : s.Onward b (deep + 1) (t.portOff p mode) := by
  unfold State.portOff
  dsimp only
  split
  · exact .rebuildPaths (.applyLanes (.setPort (.foldl (.sample (.foldl h (fun _ _ hu => .subDown hu))) (fun _ _ hu => .setSubPort hu))))
  · exact .setPort (.sample (.foldl h (fun _ _ hu => .subDown hu)))

theorem State.Onward.cutObj {o} (h : s.Onward false (deep + 2) t) : s.Onward false (deep + 2) (t.cutObj o) := by
  unfold State.cutObj
  split
  · exact .cutCtx h
  · exact .foldl h (fun _ _ hu => .cutCtx hu)
  · exact .foldl h (fun _ _ hu => (hu.shrink rfl rfl fun r => { r with assocs := rising_map _ r.assocs }))
  · exact .cutCore h

theorem State.Onward.startDrain {d} (h : s.Onward false (deep + 3) t) : s.Onward false (deep + 3) (t.startDrain d) := by
  unfold State.startDrain
  extract_lets u v
  have hu : s.Onward false (deep + 3) u := by
    unfold u
    split
    · exact .ite (.modCtx h) (.drainCtx h)
    · exact h.foldl fun _ _ hw => .ite (.modCtx hw) (.drainCtx hw)
    · exact .setPort h
    · exact .drainCore h
  have hv : s.Onward false (deep + 3) v := .ite (.cutObj hu) hu
  exact hv.lose rfl rfl fun r => { r with }

theorem State.Onward.closeAssoc {a} (h : s.Onward false (deep + 1) t) : s.Onward false (deep + 1) (t.closeAssoc a) := by
  unfold State.closeAssoc
  dsimp only
  refine .endAssoc ?_
  split
  · exact .ite (.sendHandshake h) h
  · exact h

theorem State.Onward.closeAssocs {q} (h : s.Onward false (deep + 1) t) : s.Onward false (deep + 1) (t.closeAssocs q) := by
  unfold State.closeAssocs
  exact .foldl h (fun _ _ hu => .ite (.closeAssoc hu) hu)

theorem State.Onward.finishRemoval {d} (h : s.Onward false (deep + 2) t) : s.Onward false (deep + 2) (t.finishRemoval d) := by
  unfold State.finishRemoval
  extract_lets u v w
  have hu : s.Onward false (deep + 2) u := h.foldl fun _ _ hx => .closeAssocs hx
  have hv : s.Onward false (deep + 2) v := hu.foldl fun _ _ hx => .emptyPart hx
  have hw : s.Onward false (deep + 2) w := hv.foldl fun _ _ hx => .portOff hx
  clear_value v w
  exact .ite (hv.shrink rfl rfl fun r => { r with }) (.answer (hw.shrink rfl rfl fun r => { r with }))

theorem State.Onward.finishDrain {d} (h : s.Onward false (deep + 4) t) : s.Onward false (deep + 4) (t.finishDrain d) := by
  unfold State.finishDrain
  dsimp only
  split
  · exact .answer (.endCtx (h.replace rfl fun r => { r with }))
  · exact .ite (.answer (.dropPartKeys (.setPart (.emptyPart (.foldl (h.replace rfl fun r => { r with }) (fun _ _ hu => .endCtx hu))))))
      (.answerStored (.dropPartKeys (.setPart (.emptyPart (.foldl (h.replace rfl fun r => { r with }) (fun _ _ hu => .endCtx hu))))))
  · exact .ite (.foldl (h.replace rfl fun r => { r with }) (fun _ _ hu => .endCtx hu)) (.finishRemoval (.foldl (h.replace rfl fun r =>
      { r with }) (fun _ _ hu => .endCtx hu)))
  · exact .answer (.emptyPart (.foldl (h.replace rfl fun r => { r with }) (fun _ _ hu => .endCtx hu)))
  · exact .answer (.portOff (h.replace rfl fun r => { r with }))
  · exact .answer (.portOff (h.replace rfl fun r => { r with }))
  · exact .answer (.substitute (h.replace rfl fun r => { r with }))
  · exact h.replace rfl fun r => { r with }
  · exact .answer (h.replace rfl fun r => { r with })

theorem execDrainTimeout_goes {n} (h : s.Onward b (deep + 2) t) : s.Goes b (deep + 2) (execDrainTimeout n t) := by
  unfold execDrainTimeout
  dsimp only
  refine waits_goes h ?_
  split
  · exact .ite (.next h.any) (.next (h.any.until.cutObj.shrink rfl rfl fun r => { r with }))
  · exact .next h.any

theorem execDrainComplete_goes {n} (h : s.Onward b (deep + 4) t) : s.Goes b (deep + 4) (execDrainComplete n t) := by
  unfold execDrainComplete
  refine waits_goes h ?_
  split
  · exact .ite (.next h.any) (.next (.finishDrain h.any))
  · exact .next h.any

theorem execCoreSubstitution_goes {core} (h : s.Onward b (deep + 4) t) : s.Goes b (deep + 4) (execCoreSubstitution core t) := by
  unfold execCoreSubstitution
  refine waits_goes h ?_
  split
  · exact .ite (.next (.finishDrain h.any)) (.next h.any)
  · exact .ite (.next h.any) (.next (.startDrain h.any))

end Sys2Proof.Machine
end

section
/-! What the operations of HostLink.lean keep. -/

namespace Sys2Proof.Machine

open Sys2Proof

variable {b : Bool} {deep : Nat} {s t u : State}

theorem State.Onward.aperFault {fn addr write} (h : s.Onward b deep t) : s.Onward b deep (t.aperFault fn addr write) := by
  unfold State.aperFault
  exact .hostError h

theorem State.Onward.aperRead {fn q acc rest} (h : s.Onward false deep t) : s.Onward false deep (t.aperRead fn q acc rest).1 := by
  induction rest generalizing t fn q acc with
  | nil =>
    unfold State.aperRead
    dsimp only
    exact h
  | cons x xs ih =>
    unfold State.aperRead
    dsimp only
    split
    · dsimp only
      exact h
    · split
      next e1 =>
        exact ih (h.paRead.orHeld.of_eq e1)
      next e2 =>
        dsimp only
        exact h.paRead.orHeld.of_eq e2

theorem execBar2Read_goes {fn addr n} (h : s.Onward b deep t) : s.Goes b deep (execBar2Read fn addr n t) := by
  unfold execBar2Read
  dsimp only
  refine waits_goes h (.ite (.next h.any) ?_)
  split
  · exact .next (.emit h.any)
  · refine .ite (.next (.emit h.any)) ?_
    split
    next e1 =>
      exact .next (.emit (.dropHeld (h.any.aperRead.of_eq e1)))
    next e2 =>
      exact .next (.emit (.aperFault (h.any.aperRead.of_eq e2)))
    next e3 =>
      exact .next (.emit (.dropHeld (h.any.aperRead.of_eq e3)))
    next e4 =>
      exact .next (h.any.aperRead.of_eq e4)

theorem State.Onward.aperWrite {q bytes rest} (h : s.Onward false deep t) : s.Onward false deep (t.aperWrite q bytes rest).1 := by
  induction rest generalizing t q bytes with
  | nil =>
    unfold State.aperWrite
    dsimp only
    exact h
  | cons x xs ih =>
    unfold State.aperWrite
    split
    · dsimp only
      exact h
    · split
      next e1 =>
        exact ih (h.paWrite.of_eq e1)
      next e2 =>
        dsimp only
        exact h.paWrite.of_eq e2

theorem execBar2Write_goes {fn addr bytes} (h : s.Onward b deep t) : s.Goes b deep (execBar2Write fn addr bytes t) := by
  unfold execBar2Write
  dsimp only
  refine waits_goes h (.ite (.next h.any) ?_)
  split
  · exact .next h.any
  · split
    next e1 =>
      exact .next (h.any.aperWrite.of_eq e1)
    next e2 =>
      exact .next (.aperFault (h.any.aperWrite.of_eq e2))

theorem State.Onward.failReads {p} (h : s.Onward b deep t) : s.Onward b deep (t.failReads p) := by
  unfold State.failReads
  dsimp only
  exact .foldl (h.update rfl rfl fun r => { r with }) (fun _ _ hu => .hostError hu)

theorem execCompletionTimeout_goes {fn ctx addr} (h : s.Onward b deep t) : s.Goes b deep (execCompletionTimeout fn ctx addr t) := by
  unfold execCompletionTimeout
  split
  · exact .next (.failReads (.until h))
  · exact .next h

theorem execModerationTimer_goes {fn} (h : s.Onward b deep t) : s.Goes b deep (execModerationTimer fn t) := by
  unfold execModerationTimer
  dsimp only
  split
  · exact .ite (.next h) (.next (.deliver (.until h)))
  · exact .next h

theorem execVectorUnmask_goes {fn enable} (h : s.Onward b deep t) : s.Goes b deep (execVectorUnmask fn enable t) := by
  unfold execVectorUnmask
  exact .next (.deliver (.modFunc h))

theorem execBusMasterEnable_goes {fn} (h : s.Onward b deep t) : s.Goes b deep (execBusMasterEnable fn t) := by
  unfold execBusMasterEnable
  exact .next (.deliver (.modFunc h))

theorem State.Onward.deliverAll (h : s.Onward b deep t) : s.Onward b deep t.deliverAll := by
  unfold State.deliverAll
  exact .foldl h (fun _ _ hu => .deliver hu)

theorem execVfEnable_goes {n} (h : s.Onward b (deep + 1) t) : s.Goes b (deep + 1) (execVfEnable n t) := by
  unfold execVfEnable
  exact .ite (.next h) (.next (.deliverAll (h.change rfl rfl fun r => { r with })))

theorem execPerstNRelease_goes {refclk} (h : s.Onward b (deep + 1) t) : s.Goes b (deep + 1) (execPerstNRelease refclk t) := by
  unfold execPerstNRelease
  exact .next (.driveAttn (h.change rfl rfl fun r => { r with }))

theorem State.Onward.train (h : s.Onward b (deep + 4) t) : s.Onward b (deep + 4) t.train := by
  unfold State.train
  have hp := ((h.pick (n := 6)).pick (n := 5)).pick (n := 2)
  exact hp.replace rfl fun r => { r with }

theorem execPcieLinkUp_goes (h : s.Onward b (deep + 4) t) : s.Goes b (deep + 4) (execPcieLinkUp t) := by
  unfold execPcieLinkUp
  exact .ite (.next h) (.next (.deliverAll (.train h)))

theorem execDataLinkLayerDown_goes (h : s.Onward b (deep + 4) t) : s.Goes b (deep + 4) (execDataLinkLayerDown t) := by
  unfold execDataLinkLayerDown
  exact .next (.failReads (h.replace rfl fun r => { r with }))

end Sys2Proof.Machine
end

section
/-! What the operations of Power.lean keep. -/

namespace Sys2Proof.Machine

open Sys2Proof

variable {b : Bool} {deep : Nat} {s t u : State}

theorem State.Onward.powerEvent {b1 value} (h : s.Onward b deep t) : s.Onward b deep (t.powerEvent b1 value) := by
  unfold State.powerEvent
  exact .logEvent (.raise h)

theorem State.Onward.endPaddle {g} (h : s.Onward b deep t) : s.Onward b deep (t.endPaddle g) := by
  unfold State.endPaddle
  dsimp only
  exact .setGal h

theorem State.Onward.chooseLimit (h : s.Onward b deep t) : s.Onward b deep t.chooseLimit.1 := by
  unfold State.chooseLimit
  dsimp only
  exact .pick (.pick h)

theorem State.Onward.limitAll {i gs} (h : s.Onward b deep t) : s.Onward b deep (t.limitAll i gs) := by
  unfold State.limitAll
  dsimp only
  exact .foldl h (fun _ _ hu => (.endPaddle (.setLimit (.chooseLimit hu))))

theorem execRailThrottle_goes {rail} (h : s.Onward b (deep + 1) t) : s.Goes b (deep + 1) (execRailThrottle rail t) := by
  unfold execRailThrottle
  have hp := h.pick (n := 2 ^ 32)
  exact .ite (.next (.powerEvent (.limitAll hp))) (.ite (.next (.powerEvent (hp.change rfl rfl fun r => { r with })))
    (.ite (.next (.powerEvent (hp.change rfl rfl fun r => { r with }))) (.next h)))

theorem execThrottleReleaseStep_goes {rail} (h : s.Onward b (deep + 1) t) : s.Goes b (deep + 1) (execThrottleReleaseStep rail t) := by
  unfold execThrottleReleaseStep
  refine .ite (.next (.foldl h (fun _ _ hu => ?_))) (.next (h.change rfl rfl fun r => { r with }))
  split
  · exact .setLimit hu
  · exact hu

theorem execDroopStretch_goes {g low} (h : s.Onward b (deep + 1) t) : s.Goes b (deep + 1) (execDroopStretch g low t) := by
  unfold execDroopStretch
  exact .ite (.next h) (.next (h.change rfl rfl fun r => { r with }))

theorem State.Onward.fitGallery {g draw part} (h : s.Onward b deep t) : s.Onward b deep (t.fitGallery g draw part) := by
  unfold State.fitGallery
  dsimp only
  exact .ite (.setLimit h) (.endPaddle (.setLimit (.chooseLimit h)))

theorem State.Onward.paddle {g draw} (h : s.Onward b deep t) : s.Onward b deep (t.paddle g draw) := by
  unfold State.paddle
  dsimp only
  exact .ite (.setGal h) (.ite (.setGal h) (.ite (.setLimit (.setGal (.chooseLimit h))) (.setGal h)))

theorem State.Onward.capLimit {g} (h : s.Onward b deep t) : s.Onward b deep (t.capLimit g) := by
  unfold State.capLimit
  dsimp only
  refine .ite (.setGal h) ?_
  split
  · exact .setGal h
  · exact .ite (.powerEvent (.setGal h)) h

theorem execPowerAllocation_goes {d1 d2 iin draws} (h : s.Onward b (deep + 1) t) : s.Goes b (deep + 1) (execPowerAllocation d1 d2 iin draws t) := by
  unfold execPowerAllocation
  split
  next u now e =>
    have hu : s.Onward b (deep + 1) u := (State.Onward.sample h.until).of_eq e
    extract_lets v draw host used b1 tight b2 b3
    have hv : s.Onward b (deep + 1) v := hu.change rfl rfl fun r => { r with }
    clear_value v
    split
    next u1 cut e =>
      have h1 := hv.pick.of_eq e
      extract_lets b4
      split
      next u2 step e =>
        have h2 := h1.pick.of_eq e
        split
        next u3 pin e =>
          have h3 := h2.pick.of_eq e
          extract_lets budgets shares u4 r u5 u6 u7
          have hs : s.Onward b (deep + 1) u4 := .foldl_snd h3 fun _ _ hw => hw.pick (n := 10 * d2 + 1)
          have h5 : s.Onward b (deep + 1) u5 := hs.change rfl rfl fun r => { r with }
          have h6 : s.Onward b (deep + 1) u6 := h5.foldl fun _ q hw => hw.foldl fun _ g hx =>
            .capLimit (.paddle (.ite (.endPaddle (.setLimit hx)) (.fitGallery hx)))
          have h7 : s.Onward b (deep + 1) u7 := h6.change rfl rfl fun r => { r with }
          exact .next (.ite (.powerEvent h7) h7)

theorem execPaddleStep_goes {g} (h : s.Onward b (deep + 1) t) : s.Goes b (deep + 1) (execPaddleStep g t) := by
  unfold execPaddleStep
  extract_lets x u
  have hu : s.Onward b (deep + 1) u := .until h
  refine .ite (.next h) (.ite (.ite (.next (.endPaddle hu)) (.next (.setLimit (.setGal (.chooseLimit hu))))) ?_)
  split
  next v e _ =>
    have hv := hu.pick.of_eq ‹_›
    extract_lets w
    have hw : s.Onward b (deep + 1) w := by
      unfold w
      split
      · exact hv.change rfl rfl fun r => { r with }
      · exact hv
    exact .ite (.next (.endPaddle hw)) (.next (.setGal hw))

theorem execClockGateEntry_goes {g} (h : s.Onward b deep t) : s.Goes b deep (execClockGateEntry g t) := by
  unfold execClockGateEntry
  dsimp only
  exact .ite (.next h) (.next (.setGal (.galState (.until h))))

theorem execRetentionEntry_goes {g} (h : s.Onward b deep t) : s.Goes b deep (execRetentionEntry g t) := by
  unfold execRetentionEntry
  dsimp only
  split
  · exact .ite (.next h) (.next (.galState (.until h)))
  · exact .next h

theorem execGalleryWake_goes {g} (h : s.Onward b deep t) : s.Goes b deep (execGalleryWake g t) := by
  unfold execGalleryWake
  dsimp only
  exact .next (.ite (.wakeGal h) (.setGal (.wakeGal h)))

theorem execMuSleep_goes (h : s.Onward b (deep + 1) t) : s.Goes b (deep + 1) (execMuSleep t) := by
  unfold execMuSleep
  exact .ite (.next h) (.next (h.change rfl rfl fun r => { r with }))

theorem execMuWake_goes (h : s.Onward b (deep + 1) t) : s.Goes b (deep + 1) (execMuWake t) := by
  unfold execMuWake
  exact .next (h.change rfl rfl fun r => { r with })

theorem execStackPowerDown_goes {stack} (h : s.Onward b deep t) : s.Goes b deep (execStackPowerDown stack t) := by
  unfold execStackPowerDown
  dsimp only
  exact .ite (.next (.setStack (.until h))) (.ite (.next (.setStack (.until h))) (.next h))

theorem execUncoreIdleEntry_goes {die} (h : s.Onward b deep t) : s.Goes b deep (execUncoreIdleEntry die t) := by
  unfold execUncoreIdleEntry
  exact .ite (.next h) (.next (h.update rfl rfl fun r => { r with }))

theorem State.Onward.tellLost {q} (h : s.Onward b deep t) : s.Onward b deep (t.tellLost q) := by
  unfold State.tellLost
  dsimp only
  exact .rasTell (.pick h)

theorem State.Onward.loseMemory (h : s.Onward b (deep + 3) t) : s.Onward b (deep + 3) t.loseMemory := by
  unfold State.loseMemory
  extract_lets u v w
  have hu : s.Onward b (deep + 3) u := h.atOnce (.abortDrains (.destroyParts h.any))
  have hv : s.Onward b (deep + 3) v := hu.foldl fun _ _ hx => .answer hx
  have hw : s.Onward b (deep + 3) w := hv.foldl fun _ _ hx => .setStack hx
  exact hw.lose rfl rfl fun r => { r with
    segs := .nil, hbm := rfl, cores := .nil, slices := .nil, gals := .nil, hostCores := .nil, homes := .nil, hostLines := .nil }

theorem State.Onward.trip {value} (h : s.Onward b (deep + 3) t) : s.Onward b (deep + 3) (t.trip value) := by
  unfold State.trip
  extract_lets u v
  have hu : s.Onward b (deep + 3) u := h.foldl fun _ _ hw => .tellLost hw
  have hv : s.Onward b (deep + 3) v := .loseMemory hu
  clear_value v
  exact .powerEvent (hv.lose rfl rfl fun r => { r with })

theorem State.Onward.cooled (h : s.Onward b (deep + 1) t) : s.Onward b (deep + 1) t.cooled := by
  unfold State.cooled
  exact .ite (h.change rfl rfl fun r => { r with }) h

theorem State.Onward.setHeat {die x} (h : s.Onward b (deep + 1) t) : s.Onward b (deep + 1) (t.setHeat die x) := by
  unfold State.setHeat
  exact h.change rfl rfl fun r => { r with }

theorem State.Onward.holdDie {die duty} (h : s.Onward b deep t) : s.Onward b deep (t.holdDie die duty) := by
  unfold State.holdDie
  exact .foldl h (fun _ _ hu => .endPaddle (.setLimit hu))

theorem State.Onward.fallDie {die} (h : s.Onward b deep t) : s.Onward b deep (t.fallDie die) := by
  unfold State.fallDie
  exact .foldl h (fun _ _ hu => .endPaddle (.setLimit hu))

theorem State.Onward.returnDie {die} (h : s.Onward b deep t) : s.Onward b deep (t.returnDie die) := by
  unfold State.returnDie
  refine .foldl h (fun _ _ hu => ?_)
  split
  · exact .setLimit hu
  · exact hu

theorem execThermalSample_goes {die temp} (h : s.Onward b (deep + 3) t) : s.Goes b (deep + 3) (execThermalSample die temp t) := by
  unfold execThermalSample
  refine .ite (.next h) ?_
  split
  next u now e =>
    have hu := h.sample.of_eq e
    extract_lets old readings u1 v u2 u3 x due u4 y
    have h1 : s.Onward b (deep + 3) u1 := hu.lose rfl rfl fun r => { r with }
    have h2 : s.Onward b (deep + 3) u2 := .ite (.powerEvent h1) h1
    have h3 : s.Onward b (deep + 3) u3 := .ite (.powerEvent h2) h2
    have h4 : s.Onward b (deep + 3) u4 := .ite (.holdDie (.setHeat h3)) h3
    exact .ite (.next (.ite h1 (.trip h1))) (.ite
      (.ite (.next (.cooled (.setHeat h3))) (.ite (.next (.cooled (.setHeat h3))) (.next (.cooled h3))))
      (.ite (.next (.holdDie (.setHeat h3))) (.ite (.next (.cooled h4)) (.ite (.next (.fallDie (.setHeat h4)))
        (.ite (.next (.cooled (.returnDie (.setHeat h4)))) (.next (.cooled h4)))))))

theorem execStackTempReport_goes {stack temp} (h : s.Onward b (deep + 3) t) : s.Goes b (deep + 3) (execStackTempReport stack temp t) := by
  unfold execStackTempReport
  extract_lets x
  refine .ite (.next h) ?_
  split
  next u now e =>
    have hu := h.sample.of_eq e
    extract_lets y u1 u2 die heat
    have h2 : s.Onward b (deep + 3) u2 := .ite (.raise (.setStack hu)) (.setStack hu)
    exact .ite (.next (.ite h2 (.trip h2))) (.ite (.next (.powerEvent (.holdDie (.setHeat h2))))
      (.ite (.next (.cooled (.ite (.foldl (.setHeat h2) fun _ _ hv => .setLimit hv) (.setHeat h2)))) (.next (.cooled h2))))

theorem execCoolantReport_goes {inlet outlet} (h : s.Onward b (deep + 1) t) : s.Goes b (deep + 1) (execCoolantReport inlet outlet t) := by
  unfold execCoolantReport
  dsimp only
  exact .next (.ite (.powerEvent (h.change rfl rfl fun r => { r with })) (h.change rfl rfl fun r => { r with }))

theorem execInputVoltageMeasurement_goes {mv} (h : s.Onward b (deep + 1) t) : s.Goes b (deep + 1) (execInputVoltageMeasurement mv t) := by
  unfold execInputVoltageMeasurement
  dsimp only
  exact .ite (.next h) (.next (.ite (.powerEvent (h.sample.change rfl rfl fun r => { r with })) (h.sample.change rfl rfl fun r => { r with })))

end Sys2Proof.Machine
end

section
/-! What the operations of Registers.lean keep. -/

namespace Sys2Proof.Machine

open Sys2Proof

variable {b : Bool} {deep : Nat} {s t u : State}

theorem State.Onward.writeHost {fn off m v} (h : s.Onward b deep t) : s.Opens b deep (t.writeHost fn off m v) := by
  unfold State.writeHost
  dsimp only
  split
  · exact .some (.setFunc h)
  · exact .some h
  · exact .some h
  · exact .none

theorem State.Onward.writeCfg {fn off m v} (h : s.Onward b (deep + 1) t) : s.Opens b (deep + 1) (t.writeCfg fn off m v) := by
  unfold State.writeCfg
  dsimp only
  exact .ite (.ite .none (.some h)) (.some (.deliverAll (.setFunc (h.change rfl rfl fun r => { r with }))))

theorem State.Onward.rearm {fn} (h : s.Onward b deep t) : s.Onward b deep (t.rearm fn) := by
  unfold State.rearm
  dsimp only
  exact .ite (.deliver (.setFunc (.sample h))) (.ite (.sample h) (.setFunc (.sample h)))

theorem State.Onward.writeEnable {fn m v} (h : s.Onward b deep t) : s.Onward b deep (t.writeEnable fn m v) := by
  unfold State.writeEnable
  dsimp only
  exact .deliver (.setFunc (.sample h))

theorem State.Onward.writeAtt {fn off m v} (h : s.Onward b deep t) : s.Opens b deep (t.writeAtt fn off m v) := by
  unfold State.writeAtt
  dsimp only
  split
  · exact .some (.settle (.setFunc h))
  · split
    · exact .some (.driveAttn (.deliver (.setFunc h)))
    · exact .some (.writeEnable h)
    · exact .some (.deliver (.setFunc h))
    · exact .some (.ite (.rearm h) h)
    · exact .some h
    · exact .some (.ite (.driveAttn (.setFunc h)) h)
    · exact .some (.settle (.setFunc h))
    · exact .some (.settle (.setFunc h))
    · exact .some (.settle (.setFunc h))
    · exact .none

theorem State.Onward.writeMbx {fn off m v} (h : s.Onward b (deep + 1) t) : s.Opens b (deep + 1) (t.writeMbx fn off m v) := by
  rw [State.writeMbx]
  split
  · exact .none
  · exact .ite (.ite (.some h) (.ite (.some (.setMbox h)) (.some (.setMbox h))))
      (.ite .none (.ite (.some (.setMbox h)) (.some (.setMbox h))))

theorem State.Onward.writeCtx {fn n off v} (h : s.Onward b (deep + 3) t) : s.Opens b (deep + 3) (t.writeCtx fn n off v) := by
  unfold State.writeCtx
  dsimp only
  refine .ite .none ?_
  split
  · exact .some (.ite (.settle (.setCtx h)) h)
  · exact .some (.xltWrite h)
  · exact .some (.ite (.setCtx h) h)
  · exact .some h

theorem State.Onward.writeGc {fn g off m v} (h : s.Onward b deep t) : s.Opens b deep (t.writeGc fn g off m v) := by
  unfold State.writeGc
  refine .ite ?_ (.ite .none (.some h))
  split
  · exact .some (.ite (.gcCtrl h) h)
  · exact .some (.gcStatus h)
  · exact .some (.ite (.gcWays h) h)
  · exact .none

theorem State.Onward.writeHbms {fn off v} (h : s.Onward b deep t) : s.Opens b deep (t.writeHbms fn off v) := by
  unfold State.writeHbms
  dsimp only
  exact .ite .none (.ite (.some (.settle (.setStack h))) (.some h))

theorem State.Onward.writeFab {fn p off v} (h : s.Onward b (deep + 1) t) : s.Opens b (deep + 1) (t.writeFab fn p off v) := by
  unfold State.writeFab
  exact .ite .none (.ite (.some (.settle (h.change rfl rfl fun r => { r with }))) (.some h))

theorem State.Onward.tickGal {g} (h : s.Onward b deep t) : s.Onward b deep (t.tickGal g) := by
  unfold State.tickGal
  dsimp only
  exact .ite h (.setGalBank h)

theorem State.Onward.sampleCore {core} (h : s.Onward b (deep + 1) t) : s.Onward b (deep + 1) (t.sampleCore core) := by
  unfold State.sampleCore
  dsimp only
  exact .setCoreBank (h.sampleClock.change rfl rfl fun r => { r with })

theorem State.Onward.sampleGal {g} (h : s.Onward b (deep + 1) t) : s.Onward b (deep + 1) (t.sampleGal g) := by
  unfold State.sampleGal
  dsimp only
  exact .setGalBank (h.sample.tickGal.change rfl rfl fun r => { r with })

theorem State.Onward.trcCtrl {b1 q m v} (h : s.Onward b deep t) : s.Onward b deep (t.trcCtrl b1 q m v) := by
  unfold State.trcCtrl
  dsimp only
  exact .ite h (.ite (.setTrc h) (.setTrc h))

theorem State.Onward.writeBank {core gallery off m v} (h : s.Onward b (deep + 1) t) : s.Onward b (deep + 1) (t.writeBank core gallery off m v) := by
  unfold State.writeBank
  dsimp only
  exact .ite (.ite (.setGalBank (.tickGal (.sample h))) (.setCoreBank (.sampleClock h))) (.ite (.ite (.sampleGal h) (.sampleCore h)) h)

theorem State.Onward.writeTrc {b1 q off m v} (h : s.Onward b deep t) : s.Onward b deep (t.writeTrc b1 q off m v) := by
  unfold State.writeTrc
  dsimp only
  split
  · exact .trcCtrl h
  · exact .setTrc h
  · exact .ite (.setTrc h) h
  · exact h

theorem State.Onward.writeWindow {fn core off m v} (h : s.Onward b (deep + 1) t) : s.Opens b (deep + 1) (t.writeWindow fn core off m v) := by
  unfold State.writeWindow
  dsimp only
  split
  · exact .ite (.ite (.map_of (fun _ => h)) .none) (.ite .none (.ite (.some (.modCore h)) (.ite (.some (.writeBank h)) (.ite (.some
      (.writeBank h)) (.ite (.some (.writeTrc h)) (.ite (.some (.writeTrc h)) (.some h)))))))
  · exact .ite (.map_of (fun _ => h)) .none

theorem State.Onward.writeReg {fn off m v} (h : s.Onward b (deep + 3) t) : s.Opens b (deep + 3) (t.writeReg fn off m v) := by
  unfold State.writeReg
  dsimp only
  split
  · exact .some h
  · exact h.writeAtt 
  · exact h.writeMbx 
  · exact h.writeCfg 
  · exact .none
  · refine .ite (.some h) ?_
    split
    · exact h.writeHost 
    · exact h.writeCtx 
    · exact .ite (.some h) .none
    · exact h.writeGc 
    · exact .ite .none (.some h)
    · exact h.writeHbms 
    · exact h.writeFab 
    · exact .ite .none (.some h)
    · exact .ite .none (.some (.ite h (.partialGranule h)))
    · exact h.writeWindow 
    · exact .none

theorem State.Onward.tryWrite {a} (h : s.Onward b (deep + 3) t) : s.Opens b (deep + 3) (t.tryWrite a) := by
  unfold State.tryWrite
  exact .ite h.writeReg .none

theorem State.Onward.badAccess {a write} (h : s.Onward b deep t) : s.Onward b deep (t.badAccess a write) := by
  unfold State.badAccess
  exact .hostError h

theorem State.Onward.regWrite {a} (h : s.Onward b (deep + 3) t) : s.Onward b (deep + 3) (t.regWrite a) := by
  unfold State.regWrite
  split
  next e => exact h.tryWrite.of_eq e
  · exact .badAccess h

theorem execRegisterWrite_goes {a} (h : s.Onward b (deep + 3) t) : s.Goes b (deep + 3) (execRegisterWrite a t) := by
  unfold execRegisterWrite
  exact .ite (.next h) (.next (.regWrite h))

theorem execBadRegisterAccess_goes {a write} (h : s.Onward b deep t) : s.Goes b deep (execBadRegisterAccess a write t) := by
  unfold execBadRegisterAccess
  dsimp only
  refine .ite (.next h) (.ite ?_ (.ite (.next (.emit h)) (.next (.emit (.badAccess h)))))
  split
  · exact .next h
  · exact .next (.badAccess h)

theorem regRow_goes {a due} (h : s.Onward b (deep + 3) t) : s.Goes b (deep + 3) (t.regRow a due) := by
  unfold State.regRow
  exact .ite (.next (.regWrite h)) (.next h)

theorem execGcEnable_goes {a} (h : s.Onward b (deep + 3) t) : s.Goes b (deep + 3) (execGcEnable a t) := by
  unfold execGcEnable
  exact regRow_goes h

theorem execGcDisable_goes {a} (h : s.Onward b (deep + 3) t) : s.Goes b (deep + 3) (execGcDisable a t) := by
  unfold execGcDisable
  exact regRow_goes h

theorem execGcInvalidate_goes {a} (h : s.Onward b (deep + 3) t) : s.Goes b (deep + 3) (execGcInvalidate a t) := by
  unfold execGcInvalidate
  exact regRow_goes h

theorem execGcWaysWrite_goes {a} (h : s.Onward b (deep + 3) t) : s.Goes b (deep + 3) (execGcWaysWrite a t) := by
  unfold execGcWaysWrite
  exact regRow_goes h

theorem execBadDescClear_goes {a} (h : s.Onward b (deep + 3) t) : s.Goes b (deep + 3) (execBadDescClear a t) := by
  unfold execBadDescClear
  exact regRow_goes h

theorem execXltInvContext_goes {a} (h : s.Onward b (deep + 3) t) : s.Goes b (deep + 3) (execXltInvContext a t) := by
  unfold execXltInvContext
  exact regRow_goes h

theorem execXltInvPage_goes {a} (h : s.Onward b (deep + 3) t) : s.Goes b (deep + 3) (execXltInvPage a t) := by
  unfold execXltInvPage
  exact regRow_goes h

theorem execAttSummaryWrite_goes {a} (h : s.Onward b (deep + 3) t) : s.Goes b (deep + 3) (execAttSummaryWrite a t) := by
  unfold execAttSummaryWrite
  exact regRow_goes h

theorem execAttRearm_goes {a} (h : s.Onward b (deep + 3) t) : s.Goes b (deep + 3) (execAttRearm a t) := by
  unfold execAttRearm
  exact regRow_goes h

theorem execCtrCfgWrite_goes {a} (h : s.Onward b (deep + 3) t) : s.Goes b (deep + 3) (execCtrCfgWrite a t) := by
  unfold execCtrCfgWrite
  exact regRow_goes h

theorem execCtrSample_goes {a} (h : s.Onward b (deep + 3) t) : s.Goes b (deep + 3) (execCtrSample a t) := by
  unfold execCtrSample
  exact regRow_goes h

theorem execGctrSample_goes {a} (h : s.Onward b (deep + 3) t) : s.Goes b (deep + 3) (execGctrSample a t) := by
  unfold execGctrSample
  exact regRow_goes h

theorem execTrcCtrlWrite_goes {a} (h : s.Onward b (deep + 3) t) : s.Goes b (deep + 3) (execTrcCtrlWrite a t) := by
  unfold execTrcCtrlWrite
  exact regRow_goes h

theorem execTrcRingWrite_goes {a} (h : s.Onward b (deep + 3) t) : s.Goes b (deep + 3) (execTrcRingWrite a t) := by
  unfold execTrcRingWrite
  exact regRow_goes h

theorem execRequestPost_goes {a} (h : s.Onward b (deep + 3) t) : s.Goes b (deep + 3) (execRequestPost a t) := by
  unfold execRequestPost
  exact regRow_goes h

theorem execResponseRelease_goes {a} (h : s.Onward b (deep + 3) t) : s.Goes b (deep + 3) (execResponseRelease a t) := by
  unfold execResponseRelease
  exact regRow_goes h

theorem State.Onward.drainRecs {b1 rest} (h : s.Onward false deep t) : s.Onward false deep (t.drainRecs b1 rest).1 := by
  induction rest generalizing t b1 with
  | nil =>
    unfold State.drainRecs
    dsimp only
    exact h
  | cons x xs ih =>
    unfold State.drainRecs
    dsimp only
    split
    next e1 =>
      exact ih (.setTrc (h.vaWrite.of_eq e1))
    next e2 =>
      dsimp only
      exact h.vaWrite.of_eq e2
    next e3 =>
      dsimp only
      exact h.vaWrite.of_eq e3

theorem execTraceDrain_goes {buffer} (h : s.Onward b deep t) : s.Goes b deep (execTraceDrain buffer t) := by
  unfold execTraceDrain
  dsimp only
  refine waits_goes h (.ite (.next h.any) ?_)
  split
  next e1 =>
    exact .next (.setTrc (((h.any.until.ite h.any).drainRecs).of_eq e1))
  next e2 =>
    exact .next (.logEvent (.setTrc (((h.any.until.ite h.any).drainRecs).of_eq e2)))

end Sys2Proof.Machine
end

section
/-! What the operations of Requests.lean keep. -/

namespace Sys2Proof.Machine

open Sys2Proof

variable {b : Bool} {deep : Nat} {s t u : State}

theorem execRequestTake_goes {path} (h : s.Onward b (deep + 1) t) : s.Goes b (deep + 1) (execRequestTake path t) := by
  unfold execRequestTake
  dsimp only
  exact .ite (.next h) (.ite (.next h) (.next (.takeMessage (.setMbox h))))

theorem State.Onward.turnAway {ep via status bs} (h : s.Onward b deep t) : s.Onward b deep (t.turnAway ep via status bs) := by
  unfold State.turnAway
  dsimp only
  exact .emit h

theorem State.Onward.sideRequest {ep via bytes} (h : s.Onward b (deep + 1) t) : s.Onward b (deep + 1) (t.sideRequest ep via bytes) := by
  unfold State.sideRequest
  exact .ite (.turnAway h) (.ite (.takeMessage h) (.ite (.takeMessage h) (.ite (.takeMessage h) (.turnAway h))))

theorem State.Onward.mctpControl {ep body} (h : s.Onward b (deep + 1) t) : s.Onward b (deep + 1) (t.mctpControl ep body) := by
  unfold State.mctpControl
  dsimp only
  exact .emit (.ite (h.change rfl rfl fun r => { r with }) h)

theorem execSidebandMessage_goes {bus ep m} (h : s.Onward b (deep + 1) t) : s.Goes b (deep + 1) (execSidebandMessage bus ep m t) := by
  unfold execSidebandMessage
  dsimp only
  exact .ite (.next h) (.ite (.next (.mctpControl (h.change rfl rfl fun r => { r with }))) (.ite (.next (h.change rfl rfl fun r => { r with }))
      (.next (.sideRequest (h.change rfl rfl fun r => { r with })))))

theorem State.Onward.writeDone {n ok path} (h : s.Onward b (deep + 1) t) : s.Onward b (deep + 1) (t.writeDone n ok path) := by
  unfold State.writeDone
  dsimp only
  split
  · exact h
  · split
    · exact h
    · split
      · exact .ite h (.ite (.reply h) (.reply h))
      · exact .ite h (.ite (.goOn (.accept h)) (.goOn (.addResponse (.auditAdd (h.change rfl rfl fun r => { r with })))))
      · exact h

theorem execStoreRecordCurrent_goes {ok} (h : s.Onward b (deep + 1) t) : s.Goes b (deep + 1) (execStoreRecordCurrent ok t) := by
  unfold execStoreRecordCurrent
  dsimp only
  split
  · exact .next h
  · exact .next (.foldl (.foldl (.ite (.startWrite (.ite (h.setBank.change rfl rfl fun r => { r with }) (h.change rfl rfl fun r => { r with })))
      (.ite (h.setBank.change rfl rfl fun r => { r with }) (h.change rfl rfl fun r => { r with }))) (fun _ _ hu => .writeDone hu)) (fun _ _ hu =>
      .goOn hu))

theorem execStoreRecovery_goes {image sig} (h : s.Onward b (deep + 1) t) : s.Goes b (deep + 1) (execStoreRecovery image sig t) := by
  unfold execStoreRecovery
  exact .ite (.next (h.change rfl rfl fun r => { r with })) (.next h)

theorem execStoreStatus_goes {path} (h : s.Onward b (deep + 1) t) : s.Goes b (deep + 1) (execStoreStatus path t) := by
  unfold execStoreStatus
  dsimp only
  exact .next (.command h (fun _ _ => .reply h))

theorem execAuditRead_goes {path} (h : s.Onward b (deep + 1) t) : s.Goes b (deep + 1) (execAuditRead path t) := by
  unfold execAuditRead
  dsimp only
  exact .next (.command h (fun _ _ => .ite (.reply h) (.reply h)))

theorem execInfo_goes {path} (h : s.Onward b (deep + 1) t) : s.Goes b (deep + 1) (execInfo path t) := by
  unfold execInfo
  dsimp only
  exact .next (.command h (fun _ _ => .reply h))

theorem execSensorRead_goes {path} (h : s.Onward b (deep + 1) t) : s.Goes b (deep + 1) (execSensorRead path t) := by
  unfold execSensorRead
  dsimp only
  exact .next (.command h (fun _ _ => .ite (.reply1 h) (.reply h)))

theorem execEventRead_goes {path} (h : s.Onward b (deep + 1) t) : s.Goes b (deep + 1) (execEventRead path t) := by
  unfold execEventRead
  dsimp only
  exact .next (.command h (fun _ _ => (.ite (.reply h) (.reply (.setEvlog h)))))

theorem execNotifyRead_goes {path} (h : s.Onward b (deep + 1) t) : s.Goes b (deep + 1) (execNotifyRead path t) := by
  unfold execNotifyRead
  dsimp only
  exact .next (.command h (fun _ _ => (.ite (.reply h) (.reply (.setEvlog h)))))

theorem State.Onward.readBank {kind unit} (h : s.Onward b (deep + 1) t) : s.Onward b (deep + 1) (t.readBank kind unit).1 := by
  unfold State.readBank
  dsimp only
  split
  · dsimp only
    exact .sampleCore h
  · dsimp only
    exact .sampleGal h
  · dsimp only
    exact h

theorem State.Onward.readBanks {rest} (h : s.Onward b (deep + 1) t) : s.Onward b (deep + 1) (t.readBanks rest).1 := by
  induction rest generalizing t with
  | nil =>
    unfold State.readBanks
    dsimp only
    exact h
  | cons x xs ih =>
    unfold State.readBanks
    dsimp only
    exact ih (.readBank h)

theorem execCounterRead_goes {path} (h : s.Onward b (deep + 1) t) : s.Goes b (deep + 1) (execCounterRead path t) := by
  unfold execCounterRead
  dsimp only
  refine .next (.command h (fun _ _ => ?_))
  split
  · exact .reply h
  · refine .ite ?_ (.reply (.readBanks h))
    split
    · exact .ite (.reply h) (.reply1 (.readBank h))
    · exact .reply h

theorem State.Onward.attestReport {seed nonce part} (h : s.Onward b deep t) : s.Onward b deep (t.attestReport seed nonce part).1 := by
  unfold State.attestReport
  dsimp only
  exact .fresh h

theorem execAttest_goes {path} (h : s.Onward b (deep + 1) t) : s.Goes b (deep + 1) (execAttest path t) := by
  unfold execAttest
  refine .next (.command h fun x u => ?_)
  split
  · exact .reply h
  next seed _ =>
    extract_lets part chunk n key
    have hr : s.Onward b (deep + 1) (t.attestReport seed (u.bytesOf 1) part).1 := .attestReport h
    refine .ite (.ite (.reply h) ?_) ?_
    · split
      next v r e =>
        have hv : s.Onward b (deep + 1) v := by
          refine .of_eq ?_ e
          exact .ite_fst (hr.change rfl rfl fun r => { r with }) h
        exact .ite (.reply hv) (.reply1 hv)
    · exact .reply hr

theorem execKeyStatus_goes {path} (h : s.Onward b (deep + 1) t) : s.Goes b (deep + 1) (execKeyStatus path t) := by
  unfold execKeyStatus
  dsimp only
  exact .next (.command h (fun _ _ => .reply h))

theorem execKeyEnrol_goes {path} (h : s.Onward b (deep + 1) t) : s.Goes b (deep + 1) (execKeyEnrol path t) := by
  unfold execKeyEnrol
  refine .next (.command h fun x u => ?_)
  extract_lets k v conf
  split
  · exact .reply h
  · refine .ite (.reply h) (.ite (.reply h) (.ite (.reply h) ?_))
    extract_lets agree wrap
    split
    · exact .reply h
    · have hv : s.Onward b (deep + 1) v := .dropKey h
      exact .replyStored (hv.change rfl rfl fun r => { r with })

theorem execKeyRevoke_goes {path} (h : s.Onward b (deep + 1) t) : s.Goes b (deep + 1) (execKeyRevoke path t) := by
  unfold execKeyRevoke
  dsimp only
  exact .next (.command h (fun _ _ => (.ite (.reply h) (.ite (.reply h) (.replyStored (.dropKey h))))))

theorem execMakerAllow_goes {path} (h : s.Onward b (deep + 1) t) : s.Goes b (deep + 1) (execMakerAllow path t) := by
  unfold execMakerAllow
  dsimp only
  exact .next (.command h (fun _ _ => .reply (h.sample.change rfl rfl fun r => { r with })))

theorem execMakerToken_goes {path} (h : s.Onward b (deep + 1) t) : s.Goes b (deep + 1) (execMakerToken path t) := by
  unfold execMakerToken
  dsimp only
  exact .next (.command h (fun _ _ => (.ite (.reply (.sample h)) (.replyStored (h.sample.change rfl rfl fun r => { r with })))))

theorem execMakerScopeLapse_goes (h : s.Onward b (deep + 1) t) : s.Goes b (deep + 1) (execMakerScopeLapse t) := by
  unfold execMakerScopeLapse
  dsimp only
  split
  · exact .next h
  · exact .next (h.until.change rfl rfl fun r => { r with })

theorem execIdentityEnrol_goes {path} (h : s.Onward b (deep + 1) t) : s.Goes b (deep + 1) (execIdentityEnrol path t) := by
  unfold execIdentityEnrol
  dsimp only
  exact .next (.command h (fun _ _ => (.ite (.reply h) (.replyStored (h.change rfl rfl fun r => { r with })))))

theorem execFwWrite_goes {path} (h : s.Onward b (deep + 1) t) : s.Goes b (deep + 1) (execFwWrite path t) := by
  unfold execFwWrite
  dsimp only
  exact .next (.command h (fun _ _ => (.ite (.reply h) (.ite (.reply h) (.reply (h.change rfl rfl fun r => { r with }))))))

theorem execFwActivate_goes {path} (h : s.Onward b (deep + 1) t) : s.Goes b (deep + 1) (execFwActivate path t) := by
  unfold execFwActivate
  dsimp only
  exact .next (.command h (fun _ _ => (.ite (.reply h) (.ite (.reply h) (.ite (.reply h) (.await (h.sample.change rfl rfl fun r =>
      { r with })))))))

theorem State.Onward.raiseReady (h : s.Onward b deep t) : s.Onward b deep t.raiseReady := by
  unfold State.raiseReady
  exact .foldl h (fun _ _ hu => .raise hu)

theorem execStandbyReady_goes (h : s.Onward b (deep + 1) t) : s.Goes b (deep + 1) (execStandbyReady t) := by
  unfold execStandbyReady
  dsimp only
  split
  · exact .next h
  · exact .next (.replyStored (.raiseReady (h.change rfl rfl fun r => { r with })))

theorem execActivationTimeout_goes (h : s.Onward b (deep + 1) t) : s.Goes b (deep + 1) (execActivationTimeout t) := by
  unfold execActivationTimeout
  dsimp only
  split
  · exact .next h
  · exact .next (.reply (h.until.change rfl rfl fun r => { r with }))

theorem execFwSetFloor_goes {path} (h : s.Onward b (deep + 1) t) : s.Goes b (deep + 1) (execFwSetFloor path t) := by
  unfold execFwSetFloor
  dsimp only
  exact .next (.command h (fun _ _ => (.ite (.reply h) (.replyStored (h.change rfl rfl fun r => { r with })))))

end Sys2Proof.Machine
end

section
/-! What the operations of Contexts.lean keep. -/

namespace Sys2Proof.Machine

open Sys2Proof

variable {b : Bool} {deep : Nat} {s t u : State}

theorem State.Onward.onCtx {path code f} (h : s.Onward b (deep + 1) t) (hf : ∀ u n, s.Onward b (deep + 1) (f u n)) : s.Onward b (deep + 1)
    (t.onCtx path code f) := by
  unfold State.onCtx
  refine .command h fun x u => ?_
  split
  · exact .reply h
  · exact hf _ _

theorem State.Onward.checked {path status rules f} (h : s.Onward b (deep + 1) t) (hf : s.Onward b (deep + 1) f) : s.Onward b (deep + 1)
    (t.checked path status rules f) := by
  unfold State.checked
  split
  · exact .reply h
  · exact hf

theorem execCtxCreate_goes {path} (h : s.Onward b (deep + 3) t) : s.Goes b (deep + 3) (execCtxCreate path t) := by
  unfold execCtxCreate
  dsimp only
  refine .next (.command h (fun _ _ => (.ite (.reply h) (.checked h (.ite (.reply h) ?_)))))
  split
  · exact .reply h
  · exact .ite (.reply h) (.reply (.setCtx h))

theorem execCtxDestroy_goes {path} (h : s.Onward b (deep + 3) t) : s.Goes b (deep + 3) (execCtxDestroy path t) := by
  unfold execCtxDestroy
  dsimp only
  exact waits_goes h (.next (.onCtx h.any (fun _ _ => (.ite (.reply h.any) (.reply (.endCtx (.cutCtx h.any)))))))

theorem execCtxReset_goes {path} (h : s.Onward b (deep + 3) t) : s.Goes b (deep + 3) (execCtxReset path t) := by
  unfold execCtxReset
  dsimp only
  exact waits_goes h (.next (.onCtx h.any (fun _ _ => (.ite (.reply h.any) (.reply (.writeCredit (.dropTraces (.clearCtxBits (.modCtx
      (.dropQueues (.cutCtx h.any)))))))))))

theorem execCtxPreempt_goes {path} (h : s.Onward b (deep + 3) t) : s.Goes b (deep + 3) (execCtxPreempt path t) := by
  unfold execCtxPreempt
  dsimp only
  exact .next (.onCtx h (fun _ _ => (.checked h (.ite (.reply h) (.ite (.reply h) (.ite (.reply h) (.await (.modCtx (.sample h)))))))))

theorem execCtxResume_goes {path} (h : s.Onward b (deep + 3) t) : s.Goes b (deep + 3) (execCtxResume path t) := by
  unfold execCtxResume
  dsimp only
  exact .next (.onCtx h (fun _ _ => (.ite (.reply h) (.ite (.reply h) (.checkResume (.await (.modCtx (.resumeCtx h))))))))

theorem execCtxDisable_goes {path} (h : s.Onward b (deep + 3) t) : s.Goes b (deep + 3) (execCtxDisable path t) := by
  unfold execCtxDisable
  dsimp only
  exact waits_goes h (.next (.onCtx h.any (fun _ _ => (.checked h.any (.ite (.reply h.any) (.await (.startDrain (.sample h.any))))))))

theorem State.Onward.takeSlot {ctx lo n ceiling mirror} (h : s.Onward b (deep + 1) t) :
    s.Opens b (deep + 1) ((t.takeSlot ctx lo n ceiling mirror).map (·.1)) := by
  unfold State.takeSlot
  split
  · exact .none
  · split
    · exact .some (.setSlot h)
    · exact .none

theorem State.Onward.mapped {path n lid e} (h : s.Onward b (deep + 3) t) : s.Onward b (deep + 3) (t.mapped path n lid e) := by
  unfold State.mapped
  exact .reply (.modCtx h)

theorem execLdgMap_goes {path} (h : s.Onward b (deep + 3) t) : s.Goes b (deep + 3) (execLdgMap path t) := by
  unfold execLdgMap
  dsimp only
  refine .next (.onCtx h (fun _ _ => (.ite (.reply h) (.ite (.reply h) (.ite (.ite (.reply h) (.checked h (.mapped h))) ?_)))))
  split
  · split
    · refine .ite (.reply h) ?_
      split
      next e1 =>
        exact .mapped (h.takeSlot.of_fst e1)
      · exact .reply h
    · exact .reply h
  · split
    next e2 =>
      exact .mapped (h.takeSlot.of_fst e2)
    · exact .reply h
  · split
    next e3 =>
      exact .mapped (h.takeSlot.of_fst e3)
    · exact .reply h
  · refine .ite (.reply h) (.ite (.reply h) (.ite (.reply h) ?_))
    split
    next e4 =>
      exact .mapped (h.takeSlot.of_fst e4)
    · exact .reply h

theorem execLdgUnmap_goes {path} (h : s.Onward b (deep + 3) t) : s.Goes b (deep + 3) (execLdgUnmap path t) := by
  unfold execLdgUnmap
  dsimp only
  exact .next (.onCtx h (fun _ _ => (.ite (.reply h) (.reply (.modCtx (.ite (.loseSlot h) h))))))

theorem execLdgArm_goes {path} (h : s.Onward b (deep + 1) t) : s.Goes b (deep + 1) (execLdgArm path t) := by
  unfold execLdgArm
  dsimp only
  exact .next (.onCtx h (fun _ _ => (.checked h (.reply (.setSlot h)))))

theorem execSqCreate_goes {path} (h : s.Onward b (deep + 1) t) : s.Goes b (deep + 1) (execSqCreate path t) := by
  unfold execSqCreate
  dsimp only
  refine .next (.onCtx h (fun _ _ => .checked h ?_))
  split
  · exact .reply (.setSendQueue h)
  · exact .reply h

theorem execSqDestroy_goes {path} (h : s.Onward b (deep + 1) t) : s.Goes b (deep + 1) (execSqDestroy path t) := by
  unfold execSqDestroy
  dsimp only
  exact waits_goes h (.next (.onCtx h.any (fun _ _ => (.ite (.reply h.any) (.reply (.dropQueue h.any))))))

theorem execKftWindow_goes {path} (h : s.Onward b (deep + 1) t) : s.Goes b (deep + 1) (execKftWindow path t) := by
  unfold execKftWindow
  dsimp only
  exact .next (.command h (fun _ _ => (.ite (.reply h) (.ite (.reply h) (.checked h (.reply (.setAssoc h)))))))

end Sys2Proof.Machine
end

section
/-! What the operations of Threads.lean keep. -/

namespace Sys2Proof.Machine

open Sys2Proof

variable {b : Bool} {deep : Nat} {s t u : State}

theorem State.Onward.breakpoint {z} (h : s.Onward b (deep + 2) t) : s.Onward b (deep + 2) (t.breakpoint z) := by
  unfold State.breakpoint
  dsimp only
  exact .ite (.notifyFn (.modCrew (.advance h))) (.trapAt h)

theorem State.Onward.effect {z} (h : s.Onward false (deep + 2) t) : s.Onward false (deep + 2) (t.effect z) := by
  unfold State.effect
  split
  · exact .intClass h
  · exact .fpClass h
  · exact .fpClass h
  · exact .halfClass h
  · exact .convertClass h
  · exact .compareClass h
  · split
    · exact .branchCond h
    · exact .branchIndirect h
    · exact .branchCond h
    · exact .joinPath h
    · exact .exitPath h
    · exact .crewBarrier h
  · split
    · exact .load h
    · exact .store h
    · exact .loadUniform h
    · exact .advance h
  · exact .atomic h
  · exact .landingClass h
  · exact .shuffleClass h
  · exact .fdma h
  · exact .cacheClass h
  · split
    · exact .advance h
    · exact .move h
    · exact .umove h
    · exact .readSpecial h
    · exact .writeFlags h
    · exact .breakpoint h

theorem State.Onward.issue {core key want} (h : s.Onward false (deep + 2) t) : s.Onward false (deep + 2) (t.issue core key want) := by
  unfold State.issue
  dsimp only
  split
  · exact h
  · split
    · exact .pathFault h
    · split
      · exact h
      · refine .ite h (.ite (.trapAt h) (.ite h ?_))
        split
        · exact .crewLost h
        · exact .effect h

theorem State.Onward.thread {c cls op} (h : s.Onward b (deep + 2) t) : s.Onward b (deep + 2) (t.thread c cls op) := by
  unfold State.thread
  split
  · exact .ite (.orWait h (.issue h.any)) h
  · exact h

theorem execScratchRetry_goes {c} (h : s.Onward b (deep + 2) t) : s.Goes b (deep + 2) (execScratchRetry c t) := by
  unfold execScratchRetry
  refine waits_goes h ?_
  split
  · exact .ite (.next (.issue (.modCrew h.any))) (.next h.any)
  · exact .next h.any

theorem execIadd_goes {c} (h : s.Onward b (deep + 2) t) : s.Goes b (deep + 2) (execIadd c t) := by
  unfold execIadd
  exact .next (.thread h)

theorem execIsub_goes {c} (h : s.Onward b (deep + 2) t) : s.Goes b (deep + 2) (execIsub c t) := by
  unfold execIsub
  exact .next (.thread h)

theorem execImul_goes {c} (h : s.Onward b (deep + 2) t) : s.Goes b (deep + 2) (execImul c t) := by
  unfold execImul
  exact .next (.thread h)

theorem execImulh_goes {c} (h : s.Onward b (deep + 2) t) : s.Goes b (deep + 2) (execImulh c t) := by
  unfold execImulh
  exact .next (.thread h)

theorem execImad_goes {c} (h : s.Onward b (deep + 2) t) : s.Goes b (deep + 2) (execImad c t) := by
  unfold execImad
  exact .next (.thread h)

theorem execImin_goes {c} (h : s.Onward b (deep + 2) t) : s.Goes b (deep + 2) (execImin c t) := by
  unfold execImin
  exact .next (.thread h)

theorem execImax_goes {c} (h : s.Onward b (deep + 2) t) : s.Goes b (deep + 2) (execImax c t) := by
  unfold execImax
  exact .next (.thread h)

theorem execIabs_goes {c} (h : s.Onward b (deep + 2) t) : s.Goes b (deep + 2) (execIabs c t) := by
  unfold execIabs
  exact .next (.thread h)

theorem execAndOp_goes {c} (h : s.Onward b (deep + 2) t) : s.Goes b (deep + 2) (execAndOp c t) := by
  unfold execAndOp
  exact .next (.thread h)

theorem execOrOp_goes {c} (h : s.Onward b (deep + 2) t) : s.Goes b (deep + 2) (execOrOp c t) := by
  unfold execOrOp
  exact .next (.thread h)

theorem execXorOp_goes {c} (h : s.Onward b (deep + 2) t) : s.Goes b (deep + 2) (execXorOp c t) := by
  unfold execXorOp
  exact .next (.thread h)

theorem execAndn_goes {c} (h : s.Onward b (deep + 2) t) : s.Goes b (deep + 2) (execAndn c t) := by
  unfold execAndn
  exact .next (.thread h)

theorem execShl_goes {c} (h : s.Onward b (deep + 2) t) : s.Goes b (deep + 2) (execShl c t) := by
  unfold execShl
  exact .next (.thread h)

theorem execShr_goes {c} (h : s.Onward b (deep + 2) t) : s.Goes b (deep + 2) (execShr c t) := by
  unfold execShr
  exact .next (.thread h)

theorem execPopc_goes {c} (h : s.Onward b (deep + 2) t) : s.Goes b (deep + 2) (execPopc c t) := by
  unfold execPopc
  exact .next (.thread h)

theorem execClz_goes {c} (h : s.Onward b (deep + 2) t) : s.Goes b (deep + 2) (execClz c t) := by
  unfold execClz
  exact .next (.thread h)

theorem execBrev_goes {c} (h : s.Onward b (deep + 2) t) : s.Goes b (deep + 2) (execBrev c t) := by
  unfold execBrev
  exact .next (.thread h)

theorem execBfe_goes {c} (h : s.Onward b (deep + 2) t) : s.Goes b (deep + 2) (execBfe c t) := by
  unfold execBfe
  exact .next (.thread h)

theorem execBfi_goes {c} (h : s.Onward b (deep + 2) t) : s.Goes b (deep + 2) (execBfi c t) := by
  unfold execBfi
  exact .next (.thread h)

theorem execIdiv_goes {c} (h : s.Onward b (deep + 2) t) : s.Goes b (deep + 2) (execIdiv c t) := by
  unfold execIdiv
  exact .next (.thread h)

theorem execIrem_goes {c} (h : s.Onward b (deep + 2) t) : s.Goes b (deep + 2) (execIrem c t) := by
  unfold execIrem
  exact .next (.thread h)

theorem execDadd_goes {c} (h : s.Onward b (deep + 2) t) : s.Goes b (deep + 2) (execDadd c t) := by
  unfold execDadd
  exact .next (.thread h)

theorem execDsub_goes {c} (h : s.Onward b (deep + 2) t) : s.Goes b (deep + 2) (execDsub c t) := by
  unfold execDsub
  exact .next (.thread h)

theorem execDmul_goes {c} (h : s.Onward b (deep + 2) t) : s.Goes b (deep + 2) (execDmul c t) := by
  unfold execDmul
  exact .next (.thread h)

theorem execDfma_goes {c} (h : s.Onward b (deep + 2) t) : s.Goes b (deep + 2) (execDfma c t) := by
  unfold execDfma
  exact .next (.thread h)

theorem execDmin_goes {c} (h : s.Onward b (deep + 2) t) : s.Goes b (deep + 2) (execDmin c t) := by
  unfold execDmin
  exact .next (.thread h)

theorem execDmax_goes {c} (h : s.Onward b (deep + 2) t) : s.Goes b (deep + 2) (execDmax c t) := by
  unfold execDmax
  exact .next (.thread h)

theorem execDdiv_goes {c} (h : s.Onward b (deep + 2) t) : s.Goes b (deep + 2) (execDdiv c t) := by
  unfold execDdiv
  exact .next (.thread h)

theorem execDsqrt_goes {c} (h : s.Onward b (deep + 2) t) : s.Goes b (deep + 2) (execDsqrt c t) := by
  unfold execDsqrt
  exact .next (.thread h)

theorem execFadd_goes {c} (h : s.Onward b (deep + 2) t) : s.Goes b (deep + 2) (execFadd c t) := by
  unfold execFadd
  exact .next (.thread h)

theorem execFsub_goes {c} (h : s.Onward b (deep + 2) t) : s.Goes b (deep + 2) (execFsub c t) := by
  unfold execFsub
  exact .next (.thread h)

theorem execFmul_goes {c} (h : s.Onward b (deep + 2) t) : s.Goes b (deep + 2) (execFmul c t) := by
  unfold execFmul
  exact .next (.thread h)

theorem execFfma_goes {c} (h : s.Onward b (deep + 2) t) : s.Goes b (deep + 2) (execFfma c t) := by
  unfold execFfma
  exact .next (.thread h)

theorem execFmin_goes {c} (h : s.Onward b (deep + 2) t) : s.Goes b (deep + 2) (execFmin c t) := by
  unfold execFmin
  exact .next (.thread h)

theorem execFmax_goes {c} (h : s.Onward b (deep + 2) t) : s.Goes b (deep + 2) (execFmax c t) := by
  unfold execFmax
  exact .next (.thread h)

theorem execFdiv_goes {c} (h : s.Onward b (deep + 2) t) : s.Goes b (deep + 2) (execFdiv c t) := by
  unfold execFdiv
  exact .next (.thread h)

theorem execFsqrt_goes {c} (h : s.Onward b (deep + 2) t) : s.Goes b (deep + 2) (execFsqrt c t) := by
  unfold execFsqrt
  exact .next (.thread h)

theorem execFrcp_goes {c} (h : s.Onward b (deep + 2) t) : s.Goes b (deep + 2) (execFrcp c t) := by
  unfold execFrcp
  exact .next (.thread h)

theorem execFrsq_goes {c} (h : s.Onward b (deep + 2) t) : s.Goes b (deep + 2) (execFrsq c t) := by
  unfold execFrsq
  exact .next (.thread h)

theorem execFexp2_goes {c} (h : s.Onward b (deep + 2) t) : s.Goes b (deep + 2) (execFexp2 c t) := by
  unfold execFexp2
  exact .next (.thread h)

theorem execFlog2_goes {c} (h : s.Onward b (deep + 2) t) : s.Goes b (deep + 2) (execFlog2 c t) := by
  unfold execFlog2
  exact .next (.thread h)

theorem execHadd2_goes {c} (h : s.Onward b (deep + 2) t) : s.Goes b (deep + 2) (execHadd2 c t) := by
  unfold execHadd2
  exact .next (.thread h)

theorem execHsub2_goes {c} (h : s.Onward b (deep + 2) t) : s.Goes b (deep + 2) (execHsub2 c t) := by
  unfold execHsub2
  exact .next (.thread h)

theorem execHmul2_goes {c} (h : s.Onward b (deep + 2) t) : s.Goes b (deep + 2) (execHmul2 c t) := by
  unfold execHmul2
  exact .next (.thread h)

theorem execHfma2_goes {c} (h : s.Onward b (deep + 2) t) : s.Goes b (deep + 2) (execHfma2 c t) := by
  unfold execHfma2
  exact .next (.thread h)

theorem execHmin2_goes {c} (h : s.Onward b (deep + 2) t) : s.Goes b (deep + 2) (execHmin2 c t) := by
  unfold execHmin2
  exact .next (.thread h)

theorem execHmax2_goes {c} (h : s.Onward b (deep + 2) t) : s.Goes b (deep + 2) (execHmax2 c t) := by
  unfold execHmax2
  exact .next (.thread h)

theorem execHdot2_goes {c} (h : s.Onward b (deep + 2) t) : s.Goes b (deep + 2) (execHdot2 c t) := by
  unfold execHdot2
  exact .next (.thread h)

theorem execCvt_goes {c} (h : s.Onward b (deep + 2) t) : s.Goes b (deep + 2) (execCvt c t) := by
  unfold execCvt
  exact .next (.thread h)

theorem execFrnd_goes {c} (h : s.Onward b (deep + 2) t) : s.Goes b (deep + 2) (execFrnd c t) := by
  unfold execFrnd
  exact .next (.thread h)

theorem execIcmp_goes {c} (h : s.Onward b (deep + 2) t) : s.Goes b (deep + 2) (execIcmp c t) := by
  unfold execIcmp
  exact .next (.thread h)

theorem execDcmp_goes {c} (h : s.Onward b (deep + 2) t) : s.Goes b (deep + 2) (execDcmp c t) := by
  unfold execDcmp
  exact .next (.thread h)

theorem execFcmp_goes {c} (h : s.Onward b (deep + 2) t) : s.Goes b (deep + 2) (execFcmp c t) := by
  unfold execFcmp
  exact .next (.thread h)

theorem execSel_goes {c} (h : s.Onward b (deep + 2) t) : s.Goes b (deep + 2) (execSel c t) := by
  unfold execSel
  exact .next (.thread h)

theorem execPlop_goes {c} (h : s.Onward b (deep + 2) t) : s.Goes b (deep + 2) (execPlop c t) := by
  unfold execPlop
  exact .next (.thread h)

theorem execBrc_goes {c} (h : s.Onward b (deep + 2) t) : s.Goes b (deep + 2) (execBrc c t) := by
  unfold execBrc
  exact .next (.thread h)

theorem execBrx_goes {c} (h : s.Onward b (deep + 2) t) : s.Goes b (deep + 2) (execBrx c t) := by
  unfold execBrx
  exact .next (.thread h)

theorem execCall_goes {c} (h : s.Onward b (deep + 2) t) : s.Goes b (deep + 2) (execCall c t) := by
  unfold execCall
  exact .next (.thread h)

theorem execJoin_goes {c} (h : s.Onward b (deep + 2) t) : s.Goes b (deep + 2) (execJoin c t) := by
  unfold execJoin
  exact .next (.thread h)

theorem execExitOp_goes {c} (h : s.Onward b (deep + 2) t) : s.Goes b (deep + 2) (execExitOp c t) := by
  unfold execExitOp
  exact .next (.thread h)

theorem execCbar_goes {c} (h : s.Onward b (deep + 2) t) : s.Goes b (deep + 2) (execCbar c t) := by
  unfold execCbar
  exact .next (.thread h)

theorem execLd_goes {c} (h : s.Onward b (deep + 2) t) : s.Goes b (deep + 2) (execLd c t) := by
  unfold execLd
  exact .next (.thread h)

theorem execSt_goes {c} (h : s.Onward b (deep + 2) t) : s.Goes b (deep + 2) (execSt c t) := by
  unfold execSt
  exact .next (.thread h)

theorem execLdu_goes {c} (h : s.Onward b (deep + 2) t) : s.Goes b (deep + 2) (execLdu c t) := by
  unfold execLdu
  exact .next (.thread h)

theorem execMemoryFence_goes {c} (h : s.Onward b (deep + 2) t) : s.Goes b (deep + 2) (execMemoryFence c t) := by
  unfold execMemoryFence
  exact .next (.thread h)

theorem execAadd_goes {c} (h : s.Onward b (deep + 2) t) : s.Goes b (deep + 2) (execAadd c t) := by
  unfold execAadd
  exact .next (.thread h)

theorem execAmin_goes {c} (h : s.Onward b (deep + 2) t) : s.Goes b (deep + 2) (execAmin c t) := by
  unfold execAmin
  exact .next (.thread h)

theorem execAmax_goes {c} (h : s.Onward b (deep + 2) t) : s.Goes b (deep + 2) (execAmax c t) := by
  unfold execAmax
  exact .next (.thread h)

theorem execAand_goes {c} (h : s.Onward b (deep + 2) t) : s.Goes b (deep + 2) (execAand c t) := by
  unfold execAand
  exact .next (.thread h)

theorem execAor_goes {c} (h : s.Onward b (deep + 2) t) : s.Goes b (deep + 2) (execAor c t) := by
  unfold execAor
  exact .next (.thread h)

theorem execAxor_goes {c} (h : s.Onward b (deep + 2) t) : s.Goes b (deep + 2) (execAxor c t) := by
  unfold execAxor
  exact .next (.thread h)

theorem execAxch_goes {c} (h : s.Onward b (deep + 2) t) : s.Goes b (deep + 2) (execAxch c t) := by
  unfold execAxch
  exact .next (.thread h)

theorem execAcas_goes {c} (h : s.Onward b (deep + 2) t) : s.Goes b (deep + 2) (execAcas c t) := by
  unfold execAcas
  exact .next (.thread h)

theorem execAfadd_goes {c} (h : s.Onward b (deep + 2) t) : s.Goes b (deep + 2) (execAfadd c t) := by
  unfold execAfadd
  exact .next (.thread h)

theorem execAdfadd_goes {c} (h : s.Onward b (deep + 2) t) : s.Goes b (deep + 2) (execAdfadd c t) := by
  unfold execAdfadd
  exact .next (.thread h)

theorem execLarrive_goes {c} (h : s.Onward b (deep + 2) t) : s.Goes b (deep + 2) (execLarrive c t) := by
  unfold execLarrive
  exact .next (.thread h)

theorem execLwait_goes {c} (h : s.Onward b (deep + 2) t) : s.Goes b (deep + 2) (execLwait c t) := by
  unfold execLwait
  exact .next (.thread h)

theorem execLarrwait_goes {c} (h : s.Onward b (deep + 2) t) : s.Goes b (deep + 2) (execLarrwait c t) := by
  unfold execLarrwait
  exact .next (.thread h)

theorem execLtest_goes {c} (h : s.Onward b (deep + 2) t) : s.Goes b (deep + 2) (execLtest c t) := by
  unfold execLtest
  exact .next (.thread h)

theorem execShflIdx_goes {c} (h : s.Onward b (deep + 2) t) : s.Goes b (deep + 2) (execShflIdx c t) := by
  unfold execShflIdx
  exact .next (.thread h)

theorem execShflUp_goes {c} (h : s.Onward b (deep + 2) t) : s.Goes b (deep + 2) (execShflUp c t) := by
  unfold execShflUp
  exact .next (.thread h)

theorem execShflDown_goes {c} (h : s.Onward b (deep + 2) t) : s.Goes b (deep + 2) (execShflDown c t) := by
  unfold execShflDown
  exact .next (.thread h)

theorem execShflXor_goes {c} (h : s.Onward b (deep + 2) t) : s.Goes b (deep + 2) (execShflXor c t) := by
  unfold execShflXor
  exact .next (.thread h)

theorem execVoteAny_goes {c} (h : s.Onward b (deep + 2) t) : s.Goes b (deep + 2) (execVoteAny c t) := by
  unfold execVoteAny
  exact .next (.thread h)

theorem execVoteAll_goes {c} (h : s.Onward b (deep + 2) t) : s.Goes b (deep + 2) (execVoteAll c t) := by
  unfold execVoteAll
  exact .next (.thread h)

theorem execBallot_goes {c} (h : s.Onward b (deep + 2) t) : s.Goes b (deep + 2) (execBallot c t) := by
  unfold execBallot
  exact .next (.thread h)

theorem execReduxAdd_goes {c} (h : s.Onward b (deep + 2) t) : s.Goes b (deep + 2) (execReduxAdd c t) := by
  unfold execReduxAdd
  exact .next (.thread h)

theorem execReduxMin_goes {c} (h : s.Onward b (deep + 2) t) : s.Goes b (deep + 2) (execReduxMin c t) := by
  unfold execReduxMin
  exact .next (.thread h)

theorem execReduxMax_goes {c} (h : s.Onward b (deep + 2) t) : s.Goes b (deep + 2) (execReduxMax c t) := by
  unfold execReduxMax
  exact .next (.thread h)

theorem execUfrom_goes {c} (h : s.Onward b (deep + 2) t) : s.Goes b (deep + 2) (execUfrom c t) := by
  unfold execUfrom
  exact .next (.thread h)

theorem execFdma_goes {c} (h : s.Onward b (deep + 2) t) : s.Goes b (deep + 2) (execFdma c t) := by
  unfold execFdma
  exact .next (.thread h)

theorem execPfL1_goes {c} (h : s.Onward b (deep + 2) t) : s.Goes b (deep + 2) (execPfL1 c t) := by
  unfold execPfL1
  exact .next (.thread h)

theorem execPfGc_goes {c} (h : s.Onward b (deep + 2) t) : s.Goes b (deep + 2) (execPfGc c t) := by
  unfold execPfGc
  exact .next (.thread h)

theorem execInvL1_goes {c} (h : s.Onward b (deep + 2) t) : s.Goes b (deep + 2) (execInvL1 c t) := by
  unfold execInvL1
  exact .next (.thread h)

theorem execInvL1all_goes {c} (h : s.Onward b (deep + 2) t) : s.Goes b (deep + 2) (execInvL1all c t) := by
  unfold execInvL1all
  exact .next (.thread h)

theorem execInvIc_goes {c} (h : s.Onward b (deep + 2) t) : s.Goes b (deep + 2) (execInvIc c t) := by
  unfold execInvIc
  exact .next (.thread h)

theorem execMov_goes {c} (h : s.Onward b (deep + 2) t) : s.Goes b (deep + 2) (execMov c t) := by
  unfold execMov
  exact .next (.thread h)

theorem execUmov_goes {c} (h : s.Onward b (deep + 2) t) : s.Goes b (deep + 2) (execUmov c t) := by
  unfold execUmov
  exact .next (.thread h)

theorem execRds_goes {c} (h : s.Onward b (deep + 2) t) : s.Goes b (deep + 2) (execRds c t) := by
  unfold execRds
  exact .next (.thread h)

theorem execWrs_goes {c} (h : s.Onward b (deep + 2) t) : s.Goes b (deep + 2) (execWrs c t) := by
  unfold execWrs
  exact .next (.thread h)

theorem execBrk_goes {c} (h : s.Onward b (deep + 2) t) : s.Goes b (deep + 2) (execBrk c t) := by
  unfold execBrk
  exact .next (.thread h)

theorem execNopInstruction_goes {c} (h : s.Onward b (deep + 2) t) : s.Goes b (deep + 2) (execNopInstruction c t) := by
  unfold execNopInstruction
  exact .next (.thread h)

end Sys2Proof.Machine
end

section
/-! What the operations of Debug.lean keep. -/

namespace Sys2Proof.Machine

open Sys2Proof

variable {b : Bool} {deep : Nat} {s t u : State}

theorem execDebugOpen_goes {path} (h : s.Onward b (deep + 4) t) : s.Goes b (deep + 4) (execDebugOpen path t) := by
  unfold execDebugOpen
  dsimp only
  exact .next (.command h (fun _ _ => .reply (.setPart h)))

theorem execDebugClose_goes {path} (h : s.Onward b (deep + 4) t) : s.Goes b (deep + 4) (execDebugClose path t) := by
  unfold execDebugClose
  dsimp only
  exact .next (.command h (fun _ _ => .reply (.setPart h)))

theorem State.Onward.replyTyped {path body} (h : s.Onward b (deep + 1) t) : s.Onward b (deep + 1) (t.replyTyped path body) := by
  unfold State.replyTyped
  dsimp only
  split
  · exact h
  · exact .goOn (.addResponse (.auditEnd h))

theorem State.Onward.debug {path op f} (h : s.Onward b (deep + 1) t) (hf : ∀ u core key c, s.Onward b (deep + 1) (f u core key c)) :
    s.Onward b (deep + 1) (t.debug path op f) := by
  unfold State.debug
  refine .command h fun x u => ?_
  extract_lets q core key
  refine .ite (.reply h) (.ite h (.ite (.reply h) (.ite (.reply h) ?_)))
  split
  · exact .reply h
  · exact .ite (.reply h) (hf _ _ _ _)

theorem execHaltCrew_goes {path} (h : s.Onward b (deep + 1) t) : s.Goes b (deep + 1) (execHaltCrew path t) := by
  unfold execHaltCrew
  dsimp only
  exact .next (.debug h (fun _ _ _ _ => (.ite (.reply h) (.ite (.reply h) (.ite h (.reply (.setCrew (.sampleClock h))))))))

theorem State.Onward.haltAgain {core key from'} (h : s.Onward b deep t) : s.Onward b deep (t.haltAgain core key from') := by
  unfold State.haltAgain
  exact .modCrew h

theorem execStepCrew_goes {path} (h : s.Onward b (deep + 2) t) : s.Goes b (deep + 2) (execStepCrew path t) := by
  unfold execStepCrew
  dsimp only
  refine waits_goes h (.next (.debug h.any (fun _ _ _ _ => .ite (.reply h.any) ?_)))
  split
  · exact .reply h.any
  · refine .ite (.setCrew h.any) ?_
    split
    · exact .ite (.haltAgain (.issue (.setCrew h.any))) (.reply (.haltAgain (.issue (.setCrew h.any))))
    · exact .reply (.haltAgain (.issue (.setCrew h.any)))

theorem execResume_goes {path} (h : s.Onward b (deep + 2) t) : s.Goes b (deep + 2) (execResume path t) := by
  unfold execResume
  dsimp only
  refine .next (.debug h (fun _ _ _ _ => .ite (.reply h) (.reply ?_)))
  split
  · exact .pathFault (.setCrew (.ite (.modCore (.sampleClock h)) (.sampleClock h)))
  · exact .strandCheck (.setCrew (.ite (.modCore (.sampleClock h)) (.sampleClock h)))

theorem execReadState_goes {path} (h : s.Onward b (deep + 1) t) : s.Goes b (deep + 1) (execReadState path t) := by
  unfold execReadState
  exact .next (.debug h (fun _ _ _ _ => (.ite (.reply h) (.ite (.reply h) (.replyTyped h)))))

theorem execWriteState_goes {path} (h : s.Onward b (deep + 1) t) : s.Goes b (deep + 1) (execWriteState path t) := by
  unfold execWriteState
  dsimp only
  exact .next (.debug h (fun _ _ _ _ => (.ite (.reply h) (.ite (.reply h) (.ite (.reply h) (.ite (.reply h) (.reply (.setCrew h))))))))

end Sys2Proof.Machine
end

section
/-! What the operations of Partitions.lean keep. -/

namespace Sys2Proof.Machine

open Sys2Proof

variable {b : Bool} {deep : Nat} {s t u : State}

theorem execRegionCreate_goes {path} (h : s.Onward b (deep + 2) t) : s.Goes b (deep + 2) (execRegionCreate path t) := by
  unfold execRegionCreate
  dsimp only
  refine .next (.command h (fun _ _ => (.checked h (.ite (.reply h) ?_))))
  split
  · exact .reply h
  · split
    · exact .reply h
    next e =>
      exact .reply ((h.allocate.of_fst e).shrink rfl rfl fun r => { r with regions := rising_minsert _ _ r.regions })

theorem execRegionChange_goes {path} (h : s.Onward b (deep + 2) t) : s.Goes b (deep + 2) (execRegionChange path t) := by
  unfold execRegionChange
  dsimp only
  refine .next (.command h (fun _ _ => ?_))
  split
  · exact .reply h
  · exact .ite (.reply h) (.checked h (.ite (.reply h) (.ite (.reply h) (.startMoves (h.await.shrink rfl rfl fun r => { r with })))))

theorem State.Onward.dropRegion {key r} (h : s.Onward false (deep + 2) t) : s.Onward false (deep + 2) (t.dropRegion key r) := by
  unfold State.dropRegion
  extract_lets u mine jobs u1 v
  have hu : s.Onward false (deep + 2) u := .dropRange h
  have hr : s.Onward false (deep + 2) ((u.release (.region (key / 64) (key % 64))).release (.regionNew (key / 64) (key % 64))) :=
    .release (.release hu)
  have hv : s.Onward false (deep + 2) v := hr.shrink rfl rfl fun r => { r with regions := rising_merase _ r.regions }
  exact .startMoves (.foldl hv fun _ _ hw => .answer hw)

theorem execRegionDestroy_goes {path} (h : s.Onward b (deep + 2) t) : s.Goes b (deep + 2) (execRegionDestroy path t) := by
  unfold execRegionDestroy
  dsimp only
  refine waits_goes h (.next (.command h.any (fun _ _ => ?_)))
  split
  · exact .reply h.any
  · exact .ite (.reply h.any) (.reply (.dropRegion h.any))

theorem State.Onward.setStage2 {q ms} (h : s.Onward b (deep + 1) t) : s.Opens b (deep + 1) (t.setStage2 q ms) := by
  unfold State.setStage2
  dsimp only
  exact .map (.ite (.some h) h.placeTables) (fun _ hu => .powerStacks (hu.change rfl rfl fun r => { r with }))

theorem execStage2Map_goes {path} (h : s.Onward b (deep + 1) t) : s.Goes b (deep + 1) (execStage2Map path t) := by
  unfold execStage2Map
  dsimp only
  refine .next (.command h (fun _ _ => (.checked h (.ite (.reply h) ?_))))
  split
  next e =>
    exact .reply (h.setStage2.of_eq e)
  · exact .reply h

theorem State.Onward.startTableMove {q groups out} (h : s.Onward b (deep + 1) t) : s.Opens b (deep + 1) (t.startTableMove q groups out) := by
  unfold State.startTableMove
  dsimp only
  split
  · exact .some h
  · exact .map_of (fun _ => (h.change rfl rfl fun r => { r with }))

theorem State.Onward.endTableMove {m} (h : s.Onward b (deep + 1) t) : s.Onward b (deep + 1) (t.endTableMove m) := by
  unfold State.endTableMove
  have hr := h.release (owner := .table m.part 0)
  exact .powerStacks (hr.change rfl rfl fun r => { r with })

theorem execStage2TableMove_goes (h : s.Onward b (deep + 2) t) : s.Goes b (deep + 2) (execStage2TableMove t) := by
  unfold execStage2TableMove
  dsimp only
  split
  · exact .next h
  · exact .ite (.next (h.shrink rfl rfl fun r => { r with })) (.next (.startMoves (.endTableMove h)))

theorem State.Onward.fillSeg {l table mark rest} (h : s.Onward b deep t) : s.Onward b deep (t.fillSeg l table mark rest) := by
  induction rest generalizing t l table mark with
  | nil =>
    unfold State.fillSeg
    exact h
  | cons x xs ih =>
    unfold State.fillSeg
    exact ih (.segWrite h)

theorem execSegCreate_goes {path} (h : s.Onward b (deep + 1) t) : s.Goes b (deep + 1) (execSegCreate path t) := by
  unfold execSegCreate
  refine waits_goes h (.next (.command h.any fun x u => ?_))
  have ha := h.any
  extract_lets i size keeper mask copy
  refine .ite (.reply ha) (.ite (.reply ha) (.checked ha (.ite (.reply ha) ?_)))
  split
  · exact .reply ha
  next v l e =>
    have hv := ha.allocate.of_fst e
    extract_lets second
    have hsecond : s.Opens false (deep + 1) (second.map (·.1)) := by
      unfold second
      split
      · rw [Option.map_map]
        exact hv.allocate
      · exact .some hv
    clear_value second
    split
    · exact .reply ha
    next w golden =>
      have hw : s.Onward false (deep + 1) w := hsecond w rfl
      split
      next x bs e =>
        have hx : s.Onward false (deep + 1) x := .of_eq (.hostRead hw) e
        refine .reply (.powerStacks (.setSeg ?_))
        split
        · exact .fillSeg (.fillSeg hx)
        · exact .fillSeg hx
      next e => exact .reply (.release (.release (.of_eq (.hostRead hw) e)))

theorem execSegMap_goes {path} (h : s.Onward b (deep + 1) t) : s.Goes b (deep + 1) (execSegMap path t) := by
  unfold execSegMap
  dsimp only
  refine waits_goes h (.next (.command h.any (fun _ _ => (.checked h.any (.ite (.reply h.any) ?_)))))
  split
  · exact .reply h.any
  next e =>
    exact .reply (.setSeg (.ite (h.any.setStage2.of_eq e) (.dropRange (h.any.setStage2.of_eq e))))

theorem execSegDestroy_goes {path} (h : s.Onward b (deep + 1) t) : s.Goes b (deep + 1) (execSegDestroy path t) := by
  unfold execSegDestroy
  dsimp only
  exact .next (.command h (fun _ _ => (.ite (.reply h) (.reply (.powerStacks (.setSeg (.release (.release h))))))))

theorem execSegRepair_goes {path} (h : s.Onward b (deep + 1) t) : s.Goes b (deep + 1) (execSegRepair path t) := by
  unfold execSegRepair
  dsimp only
  exact waits_goes h (.next (.command h.any (fun _ _ => (.checked h.any (.reply (.segFromHost h.any))))))

theorem execChannelRetire_goes {path} (h : s.Onward b (deep + 2) t) : s.Goes b (deep + 2) (execChannelRetire path t) := by
  unfold execChannelRetire
  dsimp only
  exact .next (.command h (fun _ _ => (.ite (.reply h) (.ite (.reply h) (.startMoves (.queueRetire (.await h)))))))

theorem State.Onward.moveForeign {groups rest} (h : s.Onward b (deep + 1) t) : s.Opens b (deep + 1) (t.moveForeign groups rest) := by
  induction rest generalizing t groups with
  | nil =>
    unfold State.moveForeign
    exact .some h
  | cons x xs ih =>
    unfold State.moveForeign
    refine .ite (ih h) ?_
    split
    next e =>
      exact ih (h.startTableMove.of_eq e)
    · exact .none

theorem State.Onward.newPart {p} (h : s.Onward b (deep + 4) t) : s.Onward b (deep + 4) (t.newPart p) := by
  unfold State.newPart
  extract_lets q u v
  have hu : s.Onward b (deep + 4) u := .foldl (.setPart h) fun _ _ hu => .addGallery hu
  have hv : s.Onward b (deep + 4) v := .defaultBuckets hu
  clear_value v
  exact .powerStacks (hv.replace rfl fun r => { r with })

/-- Whatever becomes of a new partition, it keeps what every operation keeps. -/
def State.Makes (b : Bool) (deep : Nat) (s : State) : NewPart → Prop
  | .made u => s.Onward b deep u
  | .moving u => s.Onward b deep u
  | .refused _ _ => True

theorem State.Onward.makePart {p} (h : s.Onward b (deep + 4) t) : s.Makes b (deep + 4) (t.makePart p) := by
  unfold State.makePart
  split
  · trivial
  · split
    · trivial
    · split
      · split
        next e => exact h.moveForeign.of_eq e
        · trivial
      · split
        next e => exact .newPart (h.placeTables.of_eq e)
        · trivial

theorem execPartCreate_goes {path} (h : s.Onward b (deep + 4) t) : s.Goes b (deep + 4) (execPartCreate path t) := by
  unfold execPartCreate
  refine .next (.command h fun x u => ?_)
  extract_lets p
  refine .checked h ?_
  have hp := h.makePart (p := p)
  split
  · exact .reply h
  next e =>
    rw [e] at hp
    exact hp
  next e =>
    rw [e] at hp
    exact .replyStored hp

theorem State.Onward.changeGalleries {q old new} (h : s.Onward false (deep + 4) t) : s.Onward false (deep + 4) (t.changeGalleries q old new) := by
  unfold State.changeGalleries
  dsimp only
  exact .ite (.setPart (.foldl (.foldl (.recallPart h) (fun _ _ hu => .galleryOff hu)) (fun _ _ hu => .addGallery hu))) (.foldl (.setPart
      (.foldl (.foldl (.recallPart h) (fun _ _ hu => .galleryOff hu)) (fun _ _ hu => .addGallery hu))) (fun _ _ hu => .modSlice hu))

theorem State.Onward.resizeGroups {p} (h : s.Onward b (deep + 4) t) (e : t.resizeGroups p = .ok u) : s.Onward b (deep + 4) u := by
  unfold State.resizeGroups at e
  extract_lets q x leaving out leave v at e
  have hv : s.Opens b (deep + 4) (if leave || (decide (x.groups = 0) && decide (p.groups ≠ 0)) then v.startTableMove q p.groups out else some v) :=
    .ite (State.Onward.startTableMove (.setPart h)) (.some (.setPart h))
  split at e
  · cases e
  next w ew =>
    split at e
    · cases e
      exact hv.of_eq ew
    · cases e

theorem State.Onward.resizePart {path p} (h : s.Onward false (deep + 4) t) : s.Onward false (deep + 4) (t.resizePart path p) := by
  unfold State.resizePart
  extract_lets q x leaving keys j
  split
  · exact .reply h
  next e =>
    have h2 := h.resizeGroups e
    extract_lets u part v w y
    have hu : s.Onward false (deep + 4) u := .ite h2 (.changeGalleries h2)
    have hv : s.Onward false (deep + 4) v := .setPart hu
    have hw : s.Onward false (deep + 4) w := .powerStacks (.defaultBuckets hv)
    have hy : s.Onward false (deep + 4) y := .await hw
    clear_value y
    exact .ite (.reply hw) (.startMoves (hy.replace rfl fun r => { r with }))

theorem execPartResize_goes {path} (h : s.Onward b (deep + 4) t) : s.Goes b (deep + 4) (execPartResize path t) := by
  unfold execPartResize
  dsimp only
  refine waits_goes h (.next (.command h.any (fun _ _ => (.ite (.reply h.any) (.checked h.any (.ite (.reply h.any) (.ite (.reply h.any)
      (.ite (.resizePart h.any) ?_))))))))
  split
  · exact .reply h.any
  next e =>
    split
    · exact .reply h.any
    · exact h.any.moveForeign.of_eq e

theorem execPartDestroy_goes {path} (h : s.Onward b (deep + 3) t) : s.Goes b (deep + 3) (execPartDestroy path t) := by
  unfold execPartDestroy
  dsimp only
  exact waits_goes h (.next (.command h.any (fun _ _ => (.checked h.any (.ite (.reply h.any) (.startDrain (.await (.sample h.any))))))))

theorem execDisable_goes {path} (h : s.Onward b (deep + 3) t) : s.Goes b (deep + 3) (execDisable path t) := by
  unfold execDisable
  dsimp only
  exact waits_goes h (.next (.command h.any (fun _ _ => (.checked h.any (.ite (.reply h.any) (.startDrain (.await (.sample h.any))))))))

theorem execRegSet_goes {path} (h : s.Onward b (deep + 1) t) : s.Goes b (deep + 1) (execRegSet path t) := by
  unfold execRegSet
  dsimp only
  exact .next (.command h (fun _ _ => (.checked h (.reply (.setBucket (.refill h))))))

theorem execHostcoreBoot_goes {path} (h : s.Onward b (deep + 1) t) : s.Goes b (deep + 1) (execHostcoreBoot path t) := by
  unfold execHostcoreBoot
  dsimp only
  refine .next (.command h (fun _ _ => ?_))
  split
  · exact .reply h
  · exact .ite (.reply h) (.ite (.reply h) (.reply (.wakeGal (h.change rfl rfl fun r =>
      { r with hostCores := rising_minsert _ _ r.hostCores }))))

theorem execHostcoreStop_goes {path} (h : s.Onward b (deep + 1) t) : s.Goes b (deep + 1) (execHostcoreStop path t) := by
  unfold execHostcoreStop
  dsimp only
  refine .next (.command h (fun _ _ => ?_))
  split
  · exact .reply h
  · exact .ite (.reply h) (.reply (h.change rfl rfl fun r => { r with hostCores := rising_minsert _ _ r.hostCores }))

end Sys2Proof.Machine
end

section
/-! What the operations of Management.lean keep. -/

namespace Sys2Proof.Machine

open Sys2Proof

variable {b : Bool} {deep : Nat} {s t u : State}

theorem execPortMode_goes {path} (h : s.Onward b (deep + 3) t) : s.Goes b (deep + 3) (execPortMode path t) := by
  unfold execPortMode
  dsimp only
  exact waits_goes h (.next (.command h.any (fun _ _ => (.checked h.any (.ite (.reply h.any) (.startDrain (.await (.sample h.any))))))))

theorem State.Onward.takeAddr {k bs} (h : s.Onward b (deep + 1) t) : s.Onward b (deep + 1) (t.takeAddr k bs) := by
  unfold State.takeAddr
  dsimp only
  exact .setSubPort h

theorem execFabAddr_goes {path} (h : s.Onward b (deep + 1) t) : s.Goes b (deep + 1) (execFabAddr path t) := by
  unfold execFabAddr
  dsimp only
  exact .next (.command h (fun _ _ => (.checked h (.replyStored (.rebuildPaths (.takeAddr (h.change rfl rfl fun r => { r with })))))))

theorem execAssocSet_goes {path} (h : s.Onward b (deep + 1) t) : s.Goes b (deep + 1) (execAssocSet path t) := by
  unfold execAssocSet
  dsimp only
  exact .next (.command h (fun _ _ => (.checked h (.ite (.reply h) (.reply (.sendHello (.resolveAll (.setAssoc (.buildPaths h)))))))))

theorem execAssocRemove_goes {path} (h : s.Onward b (deep + 1) t) : s.Goes b (deep + 1) (execAssocRemove path t) := by
  unfold execAssocRemove
  dsimp only
  exact waits_goes h (.next (.command h.any (fun _ _ => (.ite (.reply h.any) (.reply (.setAssoc (.closeAssoc h.any)))))))

theorem execPowerCap_goes {path} (h : s.Onward b (deep + 1) t) : s.Goes b (deep + 1) (execPowerCap path t) := by
  unfold execPowerCap
  dsimp only
  exact .next (.command h (fun _ _ => (.checked h (.ite (.reply (h.change rfl rfl fun r => { r with })) (.replyStored (h.change rfl rfl fun r =>
      { r with }))))))

theorem execThresholds_goes {path} (h : s.Onward b (deep + 1) t) : s.Goes b (deep + 1) (execThresholds path t) := by
  unfold execThresholds
  dsimp only
  exact .next (.command h (fun _ _ => (.ite (.reply h) (.ite (.reply (h.change rfl rfl fun r => { r with })) (.replyStored (h.change rfl rfl fun r
      => { r with }))))))

theorem State.Onward.forceFree {kind unit} (h : s.Onward false (deep + 4) t) : s.Opens false (deep + 4) (t.forceFree kind unit) := by
  unfold State.forceFree
  dsimp only
  split
  · exact .ite (.some h) (.ite .none (.some (.startDrain h)))
  · split
    · exact .some h
    · exact .ite .none (.some (.defaultBuckets (.changeGalleries h)))
  · exact .some (.ite (h.replace rfl fun r => { r with hostCores := rising_minsert _ _ r.hostCores }) h)
  · exact .ite (.some h) (.ite (.ite (.some (.sendLane (.setPort (.pick (.sample h))))) (.some (.subDown h))) (.ite .none (.some (.persist
      (.modRepair h)))))
  · refine .ite (.some h) ?_
    split
    · exact .ite (.some (.startMoves (.queueRetire h))) .none
    · exact .some h
  · exact .some (.dropWay h)
  · exact .some h

theorem State.Onward.askLend {kind unit ms} (h : s.Onward b deep t) : s.Onward b deep (t.askLend kind unit ms) := by
  unfold State.askLend
  split
  · exact .notifyFn h
  · exact h

theorem execSelfTest_goes {path} (h : s.Onward b (deep + 4) t) : s.Goes b (deep + 4) (execSelfTest path t) := by
  unfold execSelfTest
  refine waits_goes h (.next (.command h.any fun x u => ?_))
  have ha := h.any
  extract_lets kind unit ms flags operator lend
  refine .ite (.reply ha) (.ite (.reply ha) (.ite (.reply ha) (.ite (.reply ha) (.checked ha ?_))))
  split
  next v _ e =>
    have hv := ha.sample.of_eq e
    extract_lets test w y
    have hw : s.Onward false (deep + 4) w := .ite (hv.replace rfl fun r => { r with }) hv
    have hy : s.Onward false (deep + 4) y := .ite hw (.askLend hw)
    clear_value w y
    refine .ite ?_ ?_
    · split
      · exact .reply hv
      next z e =>
        have hx : s.Onward false (deep + 4) (z.await path) := .await (hv.forceFree.of_eq e)
        exact hx.replace rfl fun r => { r with }
    · have hx : s.Onward false (deep + 4) (y.await path) := .await hy
      exact hx.replace rfl fun r => { r with }

theorem State.Onward.retireHost {h1 src} (h : s.Onward b (deep + 1) t) : s.Onward b (deep + 1) (t.retireHost h1 src) := by
  unfold State.retireHost
  dsimp only
  exact .rasRepaired (.ite (h.modRepair.persist.change rfl rfl fun r => { r with hostCores := rising_minsert _ _ r.hostCores }) (.persist
      (.modRepair h)))

theorem State.Onward.retireUnit {unit} (h : s.Onward b (deep + 1) t) : s.Onward b (deep + 1) (t.retireUnit unit) := by
  unfold State.retireUnit
  exact .persist (.modRepair h)

theorem State.Onward.testFailed {t1} (h : s.Onward false (deep + 3) t) : s.Onward false (deep + 3) (t.testFailed t1) := by
  unfold State.testFailed
  dsimp only
  split
  · exact .persist (.modRepair h)
  · exact .ite h (.ite (.rasRepaired h) (.startDrain h))
  · exact .ite h (.ite (.rasRepaired h) (.retireHost h))
  · exact .ite (.ite (.rasRepaired h) (.ite (.setPort h) (.setPort h))) h
  · exact .ite (.rasRepaired h) (.startMoves (.queueRetire h))
  · exact .ite h (.ite (.rasRepaired h) (.rasRepaired (.persist (.modRepair (.raiseGallery (.disableWay h))))))
  · exact .retireUnit h
  · exact h

theorem State.Onward.returnCore {t1} (h : s.Onward b (deep + 1) t) : s.Onward b (deep + 1) (t.returnCore t1) := by
  unfold State.returnCore
  exact .ite (h.change rfl rfl fun r => { r with }) h

theorem execSelfTestRun_goes {n pass locator} (h : s.Onward b (deep + 3) t) : s.Goes b (deep + 3) (execSelfTestRun n pass locator t) := by
  unfold execSelfTestRun
  refine waits_goes h ?_
  have ha := h.any
  split
  · exact .next ha
  next x _ =>
    refine .ite (.next ha) ?_
    split
    next v now e =>
      extract_lets w y
      have hw : s.Onward false (deep + 3) w := .returnCore ((ha.sample.of_eq e).lose rfl rfl fun r => { r with })
      have hy : s.Onward false (deep + 3) y := by
        refine .ite ?_ (.testFailed hw)
        split
        · exact hw.lose rfl rfl fun r => { r with }
        · exact hw.lose rfl rfl fun r => { r with }
        · exact hw
      exact .next (.answer hy)

theorem execSelfTestTimeout_goes {n} (h : s.Onward b (deep + 1) t) : s.Goes b (deep + 1) (execSelfTestTimeout n t) := by
  unfold execSelfTestTimeout
  dsimp only
  split
  · exact .next h
  · exact .ite (.next h) (.next (.answer (.returnCore (h.until.change rfl rfl fun r => { r with }))))

theorem execPrepareRemoval_goes {path} (h : s.Onward b (deep + 3) t) : s.Goes b (deep + 3) (execPrepareRemoval path t) := by
  unfold execPrepareRemoval
  dsimp only
  exact waits_goes h (.next (.command h.any (fun _ _ => (.checked h.any (.ite (.reply h.any) (.foldl (.await (.sample h.any)) (fun _ _ hu =>
      .startDrain hu)))))))

end Sys2Proof.Machine
end

section
/-! What the operations of Reliability.lean keep. -/

namespace Sys2Proof.Machine

open Sys2Proof

variable {b : Bool} {deep : Nat} {s t u : State}

theorem execFlitReplay_goes {link lane} (h : s.Onward b deep t) : s.Goes b deep (execFlitReplay link lane t) := by
  unfold execFlitReplay
  dsimp only
  exact .ite (.next h) (.next (.rasCorrected (.sample h)))

theorem execDieLaneFail_goes {link lane} (h : s.Onward b (deep + 1) t) : s.Goes b (deep + 1) (execDieLaneFail link lane t) := by
  unfold execDieLaneFail
  dsimp only
  refine .ite (.next h) (.ite (.next (.rasRepaired (.sample h))) ?_)
  split
  · exact .next (.rasRepaired (.persist (.modRepair (.sample h))))
  · exact .next (.persist (.modRepair (.sample h)))

theorem State.Onward.interruptTaken {path} (h : s.Onward b (deep + 1) t) : s.Onward b (deep + 1) (t.interruptTaken path) := by
  unfold State.interruptTaken
  dsimp only
  split
  · exact h
  · refine .ite ?_ (.deliverTaken (.foldl ?_ (fun _ _ hu => .addResponse hu)))
    · split
      · exact .addResponse (.auditEnd h)
      · exact h
    · split
      · exact .addResponse (.auditEnd h)
      · exact h

theorem State.Onward.forgetPaths (h : s.Onward b (deep + 3) t) : s.Onward b (deep + 3) t.forgetPaths := by
  unfold State.forgetPaths
  exact h.lose rfl rfl fun r => { r with ctxs := rising_map _ r.ctxs }

theorem State.Onward.interruptAll (h : s.Onward b (deep + 3) t) : s.Onward b (deep + 3) t.interruptAll := by
  unfold State.interruptAll
  dsimp only
  exact .foldl (.forgetPaths (.foldl h (fun _ _ hu => .interruptTaken hu))) (fun _ _ hu => .goOn hu)

theorem execLockstepMismatch_goes {unit} (h : s.Onward b (deep + 3) t) : s.Goes b (deep + 3) (execLockstepMismatch unit t) := by
  unfold execLockstepMismatch
  refine .ite (.next h) ?_
  split
  next u now e =>
    have hu := h.sample.of_eq e
    refine .ite (.next (.retireUnit hu)) (.ite (.next (.driveAttn (.forgetPaths (hu.lose rfl rfl fun r => { r with })))) ?_)
    extract_lets running v w x
    have hv : s.Onward b (deep + 3) v := .raiseReady (.interruptAll (hu.lose rfl rfl fun r => { r with }))
    have hx : s.Onward b (deep + 3) x := .rasRepaired (.logEvent hv)
    split
    next y bad e =>
      have hy := hx.pick.of_eq e
      exact .next (.ite (hy.lose rfl rfl fun r => { r with }) (.retireUnit hy))

theorem execStandbySelfTest_goes {pass} (h : s.Onward b (deep + 1) t) : s.Goes b (deep + 1) (execStandbySelfTest pass t) := by
  unfold execStandbySelfTest
  dsimp only
  exact .ite (.next h) (.next (.ite (h.until.change rfl rfl fun r => { r with }) (.retireUnit (.until h))))

theorem execCorrectedAttention_goes {fn} (h : s.Onward b (deep + 1) t) : s.Goes b (deep + 1) (execCorrectedAttention fn t) := by
  unfold execCorrectedAttention
  dsimp only
  exact .ite (.next (.sample h)) (.next (.raise (h.sample.change rfl rfl fun r => { r with })))

theorem execRecalibration_goes {kind unit lane} (h : s.Onward b (deep + 1) t) : s.Goes b (deep + 1) (execRecalibration kind unit lane t) := by
  unfold execRecalibration
  extract_lets key u
  have hu : s.Onward b (deep + 1) u := by
    unfold u
    split
    · exact .until h
    · exact h
  exact .ite (.next h) (.ite (.next (hu.sample.change rfl rfl fun r => { r with })) (.next (hu.sample.change rfl rfl fun r => { r with })))

theorem State.Onward.tagError {g} (h : s.Onward b (deep + 3) t) : s.Onward b (deep + 3) (t.tagError g) := by
  unfold State.tagError
  dsimp only
  split
  · exact .partFatal h
  · exact .ras h

theorem execWayDisable_goes {g way found} (h : s.Onward b (deep + 3) t) : s.Goes b (deep + 3) (execWayDisable g way found t) := by
  unfold execWayDisable
  refine waits_goes h ?_
  have ha := h.any
  obtain ⟨errors, bad, tags⟩ := found
  refine .ite (.next ha) ?_
  split
  next u now e =>
    have hu := ha.sample.of_eq e
    extract_lets u1 x window kept mine u2 u3 u4 y ev u5 u6
    have h1 : s.Onward false (deep + 3) u1 := .ite (.tagError hu) hu
    have h4 : s.Onward false (deep + 3) u4 := .foldl (.rasCorrected (.setSlice h1)) fun _ _ hv => .wayError hv
    have h6 : s.Onward false (deep + 3) u6 := .persist (.modRepair (.raiseGallery (.disableWay h4)))
    exact .ite (.next h1) (.ite (.next h4) (.ite (.next (.rasRepaired h4)) (.next (.rasRepaired h6))))

theorem State.Onward.hostFailing {h1 src} (h : s.Onward b (deep + 1) t) : s.Onward b (deep + 1) (t.hostFailing h1 src) := by
  unfold State.hostFailing
  exact .ite h (.ite (.rasRepaired h) (.retireHost h))

theorem execHostCoreError_goes {h1 arch addr} (h : s.Onward b (deep + 3) t) : s.Goes b (deep + 3) (execHostCoreError h1 arch addr t) := by
  unfold execHostCoreError
  dsimp only
  split
  · exact .next h
  · exact .ite (.next (.hostFailing (.partFatal (.sample h)))) (.next (.ite (.ras (.sample h)) (.hostFailing (.ras (.sample h)))))

theorem execRailOutOfRegulation_goes {rail} (h : s.Onward b (deep + 3) t) : s.Goes b (deep + 3) (execRailOutOfRegulation rail t) := by
  unfold execRailOutOfRegulation
  dsimp only
  exact .ite (.next h) (.next (.ite (.emit (h.sample.partsFatal.lose rfl rfl fun r => { r with })) (.partsFatal (.sample h))))

theorem execRepairMapClear_goes {kind a b1} (h : s.Onward b (deep + 1) t) : s.Goes b (deep + 1) (execRepairMapClear kind a b1 t) := by
  unfold execRepairMapClear
  dsimp only
  exact .ite (.next h) (.next (.persist (.ite (.modSlice (.ite (h.change rfl rfl fun r => { r with }) (.modRepair h))) (.ite (.setPort (.ite
      (h.change rfl rfl fun r => { r with }) (.modRepair h))) (.ite (h.change rfl rfl fun r => { r with }) (.modRepair h))))))

end Sys2Proof.Machine
end

section
/-! What the operations of Startup.lean keep. -/

namespace Sys2Proof.Machine

open Sys2Proof

variable {b : Bool} {deep : Nat} {s t u : State}

theorem State.Onward.unpowered (h : s.Onward b (deep + 4) t) : s.Onward b (deep + 4) t.unpowered :=
  { h with
    stalled := fun _ _ => rfl, tables := fun _ => { State.reset_sound.tables with }, access := fun hd => by omega, lasts
        := fun hd => by omega, stands := fun hd => by omega
    link := fun hd => by omega, gone := fun hd => by omega }

theorem State.Onward.boathouse (h : s.Onward b (deep + 4) t) : s.Onward b (deep + 4) t.boathouse :=
  { h with
    stalled := fun _ _ => rfl
    tables := fun r => { State.reset_sound.tables with supply := by simp [State.boathouse], logs := (h.tables r).logs }
    access := fun hd => by omega, lasts := fun hd => by omega, stands := fun hd => by omega, link := fun hd => by omega, gone := fun hd => by omega }

theorem State.Onward.railsOff (h : s.Onward b (deep + 4) t) : s.Onward b (deep + 4) t.railsOff := by
  unfold State.railsOff
  extract_lets good u1 u2 u3 u4 u5 u6
  have h1 : s.Onward b (deep + 4) u1 := .foldl (h.replace rfl fun r => { r with }) fun _ _ hw => .endPreempt hw
  have h2 : s.Onward b (deep + 4) u2 := .abortDrains h1
  have h3 : s.Onward b (deep + 4) u3 := .foldl (h2.replace rfl fun r => { r with }) fun _ _ hw => .answer hw
  have h4 : s.Onward b (deep + 4) u4 := .foldl (h3.replace rfl fun r => { r with }) fun _ _ hw => .answer hw
  have h5 : s.Onward b (deep + 4) u5 := .boathouse h4
  exact .driveAttn (.ite (.emit h5) h5)

theorem State.Onward.migrationBuckets (h : s.Onward b deep t) : s.Onward b deep t.migrationBuckets := by
  unfold State.migrationBuckets
  exact .foldl (h.update rfl rfl fun r => { r with }) (fun _ _ hu => .setBucket hu)

theorem State.Onward.ioDieOn (h : s.Onward b (deep + 4) t) : s.Onward b (deep + 4) t.ioDieOn := by
  unfold State.ioDieOn
  dsimp only
  refine .emit (.migrationBuckets (.foldl (h.replace rfl fun r => { r with supply := le_refl 2 }) fun u k hu => ?_))
  split
  · exact .takeAddr hu
  · exact hu

theorem State.Onward.manage {fn code value} (h : s.Onward b deep t) : s.Onward b deep (t.manage fn code value) := by
  unfold State.manage
  exact .logEvent h

theorem State.Onward.endTableMoves (h : s.Onward b (deep + 1) t) : s.Onward b (deep + 1) t.endTableMoves := by
  unfold State.endTableMoves
  exact .foldl h (fun _ _ hu => .endTableMove hu)

theorem State.Onward.applyParts {ps} (h : s.Onward b (deep + 4) t) : s.Onward b (deep + 4) (t.applyParts ps) := by
  induction ps generalizing t with
  | nil => exact h
  | cons p ps ih =>
    unfold State.applyParts
    extract_lets r u
    have hr : s.Makes b (deep + 4) r := by
      have hp := h.makePart (p := p)
      unfold r
      split
      next e =>
        rw [e] at hp
        exact (State.Onward.endTableMoves hp).makePart
      · exact hp
    have hu : s.Onward b (deep + 4) u := by
      unfold u
      clear_value r
      split
      · exact .persist (.manage hr)
      · exact .manage h
    exact ih hu

theorem State.Onward.applyLayout (h : s.Onward b (deep + 4) t) : s.Onward b (deep + 4) t.applyLayout := by
  unfold State.applyLayout
  dsimp only
  exact .ite h (.ite (h.replace rfl fun r => { r with }) (.manage (.applyParts (h.replace rfl fun r => { r with }))))

theorem State.Onward.readyToFunctions (h : s.Onward b (deep + 4) t) : s.Onward b (deep + 4) t.readyToFunctions := by
  unfold State.readyToFunctions
  dsimp only
  exact .applyLayout (.driveAttn (.raiseReady (.modFunc (h.replace rfl fun r => { r with }))))

theorem State.Onward.resumeCounters (h : s.Onward b (deep + 1) t) : s.Onward b (deep + 1) t.resumeCounters := by
  unfold State.resumeCounters
  exact h.change rfl rfl fun r => { r with }

theorem State.Onward.startImage (h : s.Onward b (deep + 1) t) : s.Onward b (deep + 1) t.startImage := by
  unfold State.startImage
  dsimp only
  exact .ite (h.change rfl rfl fun r => { r with }) (.ite (.manage (h.change rfl rfl fun r => { r with })) (h.change rfl rfl fun r => { r with }))

theorem State.Onward.chooseUnit (h : s.Onward b (deep + 1) t) : s.Onward b (deep + 1) t.chooseUnit := by
  unfold State.chooseUnit
  dsimp only
  split
  · exact h.change rfl rfl fun r => { r with }
  · exact h.change rfl rfl fun r => { r with }

/-- Power-on starts the clock of the boathouse anew (R67). -/
theorem execPowerOn_goes {pwrEn} : State.Goes b (deep + 4) { t with now := 0 } (execPowerOn pwrEn t) := by
  have h0 : State.Onward b (deep + 4) { t with now := 0 } t :=
    { State.Onward.refl b t with now := Nat.zero_le _, tables := fun r => { r with }, stands := fun hd => by omega, gone := fun hd => by omega }
  have hz : State.Onward b (deep + 4) { t with now := 0 } { t.unpowered with now := 0 } :=
    { h0.unpowered with now := le_refl _, tables := fun _ => { State.reset_sound.tables with } }
  unfold execPowerOn
  refine .ite (.next h0) ?_
  extract_lets src u cur d v w
  have hu : State.Onward b (deep + 4) { t with now := 0 } u :=
    { hz with
      tables := fun _ => { State.reset_sound.tables with supply := by simp [u] }, access := fun hd => by omega, lasts
          := fun hd => by omega, stands := fun hd => by omega
      link := fun hd => by omega, gone := fun hd => by omega }
  have hv : State.Onward b (deep + 4) { t with now := 0 } v := hu.replace rfl fun r => { r with }
  have hw : State.Onward b (deep + 4) { t with now := 0 } w := .startImage (.chooseUnit (.resumeCounters hv))
  exact .ite (.next (hu.replace rfl fun r => { r with })) (.ite (.next hw) (.next (.driveAttn (.ite (.ioDieOn hw) hw))))

theorem execMitorReady_goes (h : s.Onward b (deep + 4) t) : s.Goes b (deep + 4) (execMitorReady t) := by
  unfold execMitorReady
  dsimp only
  exact .ite (.next h) (.next (.ite (.readyToFunctions (.ite (.persist (h.replace rfl fun r => { r with })) (h.replace rfl fun r =>
      { r with }))) (.ite (.persist (h.replace rfl fun r => { r with })) (h.replace rfl fun r => { r with }))))

theorem execPwrEnAssert_goes (h : s.Onward b (deep + 4) t) : s.Goes b (deep + 4) (execPwrEnAssert t) := by
  unfold execPwrEnAssert
  dsimp only
  exact .ite (.next (h.replace rfl fun r => { r with })) (.next (.ite (.readyToFunctions (.ioDieOn (h.replace rfl fun r => { r with })))
      (.ioDieOn (h.replace rfl fun r => { r with }))))

theorem State.Onward.tellRemoval {q} (h : s.Onward b deep t) : s.Onward b deep (t.tellRemoval q) := by
  unfold State.tellRemoval
  dsimp only
  exact .manage (.logEvent (.pick h))

theorem execPwrEnDeassert_goes (h : s.Onward b (deep + 4) t) : s.Goes b (deep + 4) (execPwrEnDeassert t) := by
  unfold execPwrEnDeassert
  dsimp only
  exact .ite (.next (h.replace rfl fun r => { r with })) (.next (.railsOff (.foldl (h.replace rfl fun r => { r with }) (fun _ _ hu =>
      .tellRemoval hu))))

theorem execSupplyLoss_goes (h : s.Onward b (deep + 4) t) : s.Goes b (deep + 4) (execSupplyLoss t) := by
  unfold execSupplyLoss
  dsimp only
  exact .ite (.next h) (.next (.ite (.emit (.ite (.emit (.ite (.emit (.unpowered h)) (.unpowered h))) (.ite (.emit (.unpowered h))
      (.unpowered h)))) (.ite (.emit (.ite (.emit (.unpowered h)) (.unpowered h))) (.ite (.emit (.unpowered h)) (.unpowered h)))))

theorem execSupplyLockout_goes (h : s.Onward b (deep + 4) t) : s.Goes b (deep + 4) (execSupplyLockout t) := by
  unfold execSupplyLockout
  dsimp only
  exact .ite (.next (.sample h)) (.next (.railsOff (h.sample.manage.replace rfl fun r => { r with })))

theorem execLockoutRecovery_goes (h : s.Onward b (deep + 4) t) : s.Goes b (deep + 4) (execLockoutRecovery t) := by
  unfold execLockoutRecovery
  dsimp only
  split
  · exact .next h
  · exact .ite (.next h) (.ite (.next (.driveAttn (.until (h.replace rfl fun r => { r with })))) (.next (.ite (.readyToFunctions (.ioDieOn
      (.driveAttn (.until (h.replace rfl fun r => { r with }))))) (.ioDieOn (.driveAttn (.until (h.replace rfl fun r => { r with })))))))

theorem execMitorSoftReset_goes (h : s.Onward b (deep + 3) t) : s.Goes b (deep + 3) (execMitorSoftReset t) := by
  unfold execMitorSoftReset
  refine .ite (.next h) ?_
  split
  next u now e =>
    have hu := h.sample.of_eq e
    extract_lets v times w x other conf y
    have hv : s.Onward b (deep + 3) v := .interruptAll hu
    have hw : s.Onward b (deep + 3) w := hv.lose rfl rfl fun r => { r with }
    have hx : s.Onward b (deep + 3) x := .manage (.resumeCounters hw)
    have hy : s.Onward b (deep + 3) y := .ite (.manage (hx.lose rfl rfl fun r => { r with })) (.startImage hx)
    exact .next (.driveAttn hy)

theorem State.Onward.resetPairs {ps} (h : s.Onward b (deep + 1) t) : s.Onward b (deep + 1) (t.resetPairs ps) := by
  unfold State.resetPairs
  exact h.change rfl rfl fun r => { r with mailboxes := rising_filter _ r.mailboxes }

theorem State.Onward.resetFunc {fn pairs} (h : s.Onward b (deep + 1) t) : s.Onward b (deep + 1) (t.resetFunc fn pairs) := by
  unfold State.resetFunc
  dsimp only
  exact .driveAttn (.resetPairs (.modFunc ((h.failReads.emit.ite h.failReads).change rfl rfl fun r =>
      { r with funcs := rising_merase _ r.funcs })))

theorem State.Onward.endSession {q} (h : s.Onward b (deep + 4) t) : s.Onward b (deep + 4) (t.endSession q) := by
  unfold State.endSession
  dsimp only
  exact .ite (.setPart h) h

theorem State.Onward.dropTransient {rest} (h : s.Onward false (deep + 3) t) : s.Onward false (deep + 3) (t.dropTransient rest) := by
  induction rest generalizing t with
  | nil =>
    unfold State.dropTransient
    exact h
  | cons x xs ih =>
    unfold State.dropTransient
    exact ih (.ite h (.persist (.dropPartKeys (.destroyPart h))))

theorem execPerstNAssert_goes (h : s.Onward b (deep + 4) t) : s.Goes b (deep + 4) (execPerstNAssert t) := by
  unfold execPerstNAssert
  dsimp only
  exact waits_goes h (.ite (.next h.any) (.ite (.next (h.any.replace rfl fun r => { r with })) (.next (.applyParts (.resetPairs (.foldl
      (.destroyCtxs (.dropTransient (h.any.replace rfl fun r => { r with }))) (fun _ _ hu => .resetFunc hu)))))))

theorem execFlrVf_goes {vf} (h : s.Onward b (deep + 4) t) : s.Goes b (deep + 4) (execFlrVf vf t) := by
  unfold execFlrVf
  dsimp only
  refine waits_goes h (.ite (.next h.any) (.next (.resetFunc ?_)))
  split
  · exact .endSession (.destroyCtxs h.any)
  · exact h.any

theorem execFlrPf0_goes (h : s.Onward b (deep + 4) t) : s.Goes b (deep + 4) (execFlrPf0 t) := by
  unfold execFlrPf0
  refine waits_goes h (.ite (.next h.any) ?_)
  extract_lets u
  have hu : s.Onward false (deep + 4) u := by
    unfold u
    split
    · exact .endSession (.destroyCtxs h.any)
    · exact h.any
  exact .next (.resetFunc (hu.replace rfl fun r => { r with }))

end Sys2Proof.Machine
end

section
/-! One step: what every command keeps, and the invariants of every state. -/

namespace Sys2Proof.Machine

open Sys2Proof

variable {s : State}

/-- R67 apart: every command but power-on leads on from the state it finds. -/
theorem exec_goes (c : Instr) (hc : ∀ p, c ≠ .powerOn p) : s.Goes true 4 (exec c s) := by
  have h : s.Onward true 4 s := State.Onward.refl true s
  cases c with
  | registerWrite => exact execRegisterWrite_goes h
  | badRegisterAccess => exact execBadRegisterAccess_goes h
  | powerOn p => exact absurd rfl (hc p)
  | mitorReady => exact execMitorReady_goes h
  | pwrEnAssert => exact execPwrEnAssert_goes h
  | pwrEnDeassert => exact execPwrEnDeassert_goes h
  | supplyLoss => exact execSupplyLoss_goes h
  | supplyLockout => exact execSupplyLockout_goes h
  | lockoutRecovery => exact execLockoutRecovery_goes h
  | mitorSoftReset => exact execMitorSoftReset_goes h
  | flitReplay => exact execFlitReplay_goes h
  | dieLaneFail => exact execDieLaneFail_goes h
  | lockstepMismatch => exact execLockstepMismatch_goes h
  | standbySelfTest => exact execStandbySelfTest_goes h
  | ingressGranule => exact execIngressGranule_goes h
  | packetDecode => exact execPacketDecode_goes h
  | packetSkip => exact execPacketSkip_goes h
  | nop => exact execNop_goes h
  | setIds => exact execSetIds_goes h
  | timestamp => exact execTimestamp_goes h
  | report => exact execReport_goes h
  | fence => exact execFence_goes h
  | landingArrive => exact execLandingArrive_goes h
  | landingWait => exact execLandingWait_goes h
  | ifFlag => exact execIfFlag_goes h
  | elsePacket => exact execElsePacket_goes h
  | endIf => exact execEndIf_goes h
  | fetchChain => exact execFetchChain_goes h
  | chainFault => exact execChainFault_goes h
  | chainEnd => exact execChainEnd_goes h
  | copy => exact execCopy_goes h
  | fill => exact execFill_goes h
  | launchCrews => exact execLaunchCrews_goes h
  | launchCox => exact execLaunchCox_goes h
  | broadcastCox => exact execBroadcastCox_goes h
  | packetComplete => exact execPacketComplete_goes h
  | faultCreditRecord => exact execFaultCreditRecord_goes h
  | packetRetire => exact execPacketRetire_goes h
  | crewPlace => exact execCrewPlace_goes h
  | crewLeave => exact execCrewLeave_goes h
  | launchFaultSignal => exact execLaunchFaultSignal_goes h
  | watchdog => exact execWatchdog_goes h
  | resultArrival => exact execResultArrival_goes h
  | scratchRetry => exact execScratchRetry_goes h
  | iadd => exact execIadd_goes h
  | isub => exact execIsub_goes h
  | imul => exact execImul_goes h
  | imulh => exact execImulh_goes h
  | imad => exact execImad_goes h
  | imin => exact execImin_goes h
  | imax => exact execImax_goes h
  | iabs => exact execIabs_goes h
  | andOp => exact execAndOp_goes h
  | orOp => exact execOrOp_goes h
  | xorOp => exact execXorOp_goes h
  | andn => exact execAndn_goes h
  | shl => exact execShl_goes h
  | shr => exact execShr_goes h
  | popc => exact execPopc_goes h
  | clz => exact execClz_goes h
  | brev => exact execBrev_goes h
  | bfe => exact execBfe_goes h
  | bfi => exact execBfi_goes h
  | idiv => exact execIdiv_goes h
  | irem => exact execIrem_goes h
  | dadd => exact execDadd_goes h
  | dsub => exact execDsub_goes h
  | dmul => exact execDmul_goes h
  | dfma => exact execDfma_goes h
  | dmin => exact execDmin_goes h
  | dmax => exact execDmax_goes h
  | ddiv => exact execDdiv_goes h
  | dsqrt => exact execDsqrt_goes h
  | fadd => exact execFadd_goes h
  | fsub => exact execFsub_goes h
  | fmul => exact execFmul_goes h
  | ffma => exact execFfma_goes h
  | fmin => exact execFmin_goes h
  | fmax => exact execFmax_goes h
  | fdiv => exact execFdiv_goes h
  | fsqrt => exact execFsqrt_goes h
  | frcp => exact execFrcp_goes h
  | frsq => exact execFrsq_goes h
  | fexp2 => exact execFexp2_goes h
  | flog2 => exact execFlog2_goes h
  | hadd2 => exact execHadd2_goes h
  | hsub2 => exact execHsub2_goes h
  | hmul2 => exact execHmul2_goes h
  | hfma2 => exact execHfma2_goes h
  | hmin2 => exact execHmin2_goes h
  | hmax2 => exact execHmax2_goes h
  | hdot2 => exact execHdot2_goes h
  | cvt => exact execCvt_goes h
  | frnd => exact execFrnd_goes h
  | icmp => exact execIcmp_goes h
  | dcmp => exact execDcmp_goes h
  | fcmp => exact execFcmp_goes h
  | sel => exact execSel_goes h
  | plop => exact execPlop_goes h
  | brc => exact execBrc_goes h
  | brx => exact execBrx_goes h
  | call => exact execCall_goes h
  | join => exact execJoin_goes h
  | exitOp => exact execExitOp_goes h
  | cbar => exact execCbar_goes h
  | ld => exact execLd_goes h
  | st => exact execSt_goes h
  | ldu => exact execLdu_goes h
  | memoryFence => exact execMemoryFence_goes h
  | aadd => exact execAadd_goes h
  | amin => exact execAmin_goes h
  | amax => exact execAmax_goes h
  | aand => exact execAand_goes h
  | aor => exact execAor_goes h
  | axor => exact execAxor_goes h
  | axch => exact execAxch_goes h
  | acas => exact execAcas_goes h
  | afadd => exact execAfadd_goes h
  | adfadd => exact execAdfadd_goes h
  | larrive => exact execLarrive_goes h
  | lwait => exact execLwait_goes h
  | larrwait => exact execLarrwait_goes h
  | ltest => exact execLtest_goes h
  | shflIdx => exact execShflIdx_goes h
  | shflUp => exact execShflUp_goes h
  | shflDown => exact execShflDown_goes h
  | shflXor => exact execShflXor_goes h
  | voteAny => exact execVoteAny_goes h
  | voteAll => exact execVoteAll_goes h
  | ballot => exact execBallot_goes h
  | reduxAdd => exact execReduxAdd_goes h
  | reduxMin => exact execReduxMin_goes h
  | reduxMax => exact execReduxMax_goes h
  | ufrom => exact execUfrom_goes h
  | fdma => exact execFdma_goes h
  | pfL1 => exact execPfL1_goes h
  | pfGc => exact execPfGc_goes h
  | invL1 => exact execInvL1_goes h
  | invL1all => exact execInvL1all_goes h
  | invIc => exact execInvIc_goes h
  | nopInstruction => exact execNopInstruction_goes h
  | mov => exact execMov_goes h
  | umov => exact execUmov_goes h
  | rds => exact execRds_goes h
  | wrs => exact execWrs_goes h
  | brk => exact execBrk_goes h
  | haltCrew => exact execHaltCrew_goes h
  | readState => exact execReadState_goes h
  | writeState => exact execWriteState_goes h
  | stepCrew => exact execStepCrew_goes h
  | resume => exact execResume_goes h
  | coxProgramLoad => exact execCoxProgramLoad_goes h
  | programStart => exact execProgramStart_goes h
  | load => exact execLoad_goes h
  | result => exact execResult_goes h
  | slice => exact execSlice_goes h
  | slicePass => exact execSlicePass_goes h
  | rowCommit => exact execRowCommit_goes h
  | resultRowLands => exact execResultRowLands_goes h
  | toA => exact execToA_goes h
  | toB => exact execToB_goes h
  | stg => exact execStg_goes h
  | srToA => exact execSrToA_goes h
  | srToB => exact execSrToB_goes h
  | store => exact execStore_goes h
  | streamerDelivery => exact execStreamerDelivery_goes h
  | stagingLands => exact execStagingLands_goes h
  | storeLands => exact execStoreLands_goes h
  | setScalar => exact execSetScalar_goes h
  | addScalar => exact execAddScalar_goes h
  | loop => exact execLoop_goes h
  | br => exact execBr_goes h
  | xBrc => exact execXBrc_goes h
  | cmpcfg => exact execCmpcfg_goes h
  | brf => exact execBrf_goes h
  | endProgram => exact execEndProgram_goes h
  | arrive => exact execArrive_goes h
  | wait => exact execWait_goes h
  | arrwait => exact execArrwait_goes h
  | waitgen => exact execWaitgen_goes h
  | flagset => exact execFlagset_goes h
  | flagclr => exact execFlagclr_goes h
  | mark => exact execMark_goes h
  | strokeLimit => exact execStrokeLimit_goes h
  | drainEnd => exact execDrainEnd_goes h
  | coxLaunchComplete => exact execCoxLaunchComplete_goes h
  | fdmaChainStart => exact execFdmaChainStart_goes h
  | descriptorCopy => exact execDescriptorCopy_goes h
  | descriptorFill => exact execDescriptorFill_goes h
  | convertDesc => exact execConvertDesc_goes h
  | linkDesc => exact execLinkDesc_goes h
  | fdmaChainComplete => exact execFdmaChainComplete_goes h
  | badDescClear => exact execBadDescClear_goes h
  | gcEnable => exact execGcEnable_goes h
  | gcDisable => exact execGcDisable_goes h
  | sliceDisabled => exact execSliceDisabled_goes h
  | gcInvalidate => exact execGcInvalidate_goes h
  | invalidateDone => exact execInvalidateDone_goes h
  | gcWaysWrite => exact execGcWaysWrite_goes h
  | wayDisable => exact execWayDisable_goes h
  | rdShared => exact execRdShared_goes h
  | rdUnique => exact execRdUnique_goes h
  | wrThrough => exact execWrThrough_goes h
  | atomic => exact execAtomic_goes h
  | ioRead => exact execIoRead_goes h
  | ioWrite => exact execIoWrite_goes h
  | writeback => exact execWriteback_goes h
  | evictClean => exact execEvictClean_goes h
  | dataFill => exact execDataFill_goes h
  | inv => exact execInv_goes h
  | downgrade => exact execDowngrade_goes h
  | ack => exact execAck_goes h
  | invAck => exact execInvAck_goes h
  | downAck => exact execDownAck_goes h
  | compAck => exact execCompAck_goes h
  | holdExpiry => exact execHoldExpiry_goes h
  | hbmRead => exact execHbmRead_goes h
  | patrolScrub => exact execPatrolScrub_goes h
  | rowRepair => exact execRowRepair_goes h
  | lineMove => exact execLineMove_goes h
  | stackTempReport => exact execStackTempReport_goes h
  | slotReturn => exact execSlotReturn_goes h
  | timeout => exact execTimeout_goes h
  | landingMove => exact execLandingMove_goes h
  | mirrorForward => exact execMirrorForward_goes h
  | ldgArrive => exact execLdgArrive_goes h
  | preemptSave => exact execPreemptSave_goes h
  | preemptTimeout => exact execPreemptTimeout_goes h
  | xltInvContext => exact execXltInvContext_goes h
  | xltInvPage => exact execXltInvPage_goes h
  | invalidationDone => exact execInvalidationDone_goes h
  | segmentRestore => exact execSegmentRestore_goes h
  | segmentHoldExpiry => exact execSegmentHoldExpiry_goes h
  | drainTimeout => exact execDrainTimeout_goes h
  | drainComplete => exact execDrainComplete_goes h
  | coreSubstitution => exact execCoreSubstitution_goes h
  | linkUp => exact execLinkUp_goes h
  | trainRetry => exact execTrainRetry_goes h
  | offer => exact execOffer_goes h
  | accept => exact execAccept_goes h
  | offerRepeat => exact execOfferRepeat_goes h
  | spareAssign => exact execSpareAssign_goes h
  | laneFail => exact execLaneFail_goes h
  | shadowReq => exact execShadowReq_goes h
  | shadowOn => exact execShadowOn_goes h
  | swapDone => exact execSwapDone_goes h
  | shadowOff => exact execShadowOff_goes h
  | shadowReqRepeat => exact execShadowReqRepeat_goes h
  | foreign => exact execForeign_goes h
  | kftAck => exact execKftAck_goes h
  | probe => exact execProbe_goes h
  | hello => exact execHello_goes h
  | reply => exact execReply_goes h
  | confirm => exact execConfirm_goes h
  | close => exact execClose_goes h
  | msgWrite => exact execMsgWrite_goes h
  | readReq => exact execReadReq_goes h
  | readResp => exact execReadResp_goes h
  | msgAtomic => exact execMsgAtomic_goes h
  | atomicResp => exact execAtomicResp_goes h
  | writeAck => exact execWriteAck_goes h
  | msgLdgArrive => exact execMsgLdgArrive_goes h
  | ldgRelease => exact execLdgRelease_goes h
  | ldgLoss => exact execLdgLoss_goes h
  | nak => exact execNak_goes h
  | remoteWrite => exact execRemoteWrite_goes h
  | remoteRead => exact execRemoteRead_goes h
  | remoteAtomic => exact execRemoteAtomic_goes h
  | remoteLandingArrive => exact execRemoteLandingArrive_goes h
  | kftSend => exact execKftSend_goes h
  | ackDelay => exact execAckDelay_goes h
  | retxTimer => exact execRetxTimer_goes h
  | segmentTimeout => exact execSegmentTimeout_goes h
  | probeTimer => exact execProbeTimer_goes h
  | pathMove => exact execPathMove_goes h
  | rekeyStart => exact execRekeyStart_goes h
  | rekeyTimeout => exact execRekeyTimeout_goes h
  | oldEpochErase => exact execOldEpochErase_goes h
  | strangerAttention => exact execStrangerAttention_goes h
  | bar2Read => exact execBar2Read_goes h
  | bar2Write => exact execBar2Write_goes h
  | attSummaryWrite => exact execAttSummaryWrite_goes h
  | attRearm => exact execAttRearm_goes h
  | moderationTimer => exact execModerationTimer_goes h
  | vectorUnmask => exact execVectorUnmask_goes h
  | busMasterEnable => exact execBusMasterEnable_goes h
  | vfEnable => exact execVfEnable_goes h
  | flrVf => exact execFlrVf_goes h
  | flrPf0 => exact execFlrPf0_goes h
  | perstNAssert => exact execPerstNAssert_goes h
  | perstNRelease => exact execPerstNRelease_goes h
  | pcieLinkUp => exact execPcieLinkUp_goes h
  | requestPost => exact execRequestPost_goes h
  | requestTake => exact execRequestTake_goes h
  | responseRelease => exact execResponseRelease_goes h
  | sidebandMessage => exact execSidebandMessage_goes h
  | storeRecordCurrent => exact execStoreRecordCurrent_goes h
  | storeRecovery => exact execStoreRecovery_goes h
  | info => exact execInfo_goes h
  | sensorRead => exact execSensorRead_goes h
  | eventRead => exact execEventRead_goes h
  | notifyRead => exact execNotifyRead_goes h
  | counterRead => exact execCounterRead_goes h
  | attest => exact execAttest_goes h
  | keyStatus => exact execKeyStatus_goes h
  | ctxCreate => exact execCtxCreate_goes h
  | ctxDestroy => exact execCtxDestroy_goes h
  | ctxReset => exact execCtxReset_goes h
  | ctxPreempt => exact execCtxPreempt_goes h
  | ctxResume => exact execCtxResume_goes h
  | ctxDisable => exact execCtxDisable_goes h
  | ldgMap => exact execLdgMap_goes h
  | ldgUnmap => exact execLdgUnmap_goes h
  | ldgArm => exact execLdgArm_goes h
  | sqCreate => exact execSqCreate_goes h
  | sqDestroy => exact execSqDestroy_goes h
  | kftWindow => exact execKftWindow_goes h
  | regionCreate => exact execRegionCreate_goes h
  | regionChange => exact execRegionChange_goes h
  | regionDestroy => exact execRegionDestroy_goes h
  | stage2Map => exact execStage2Map_goes h
  | segCreate => exact execSegCreate_goes h
  | segMap => exact execSegMap_goes h
  | segDestroy => exact execSegDestroy_goes h
  | segRepair => exact execSegRepair_goes h
  | channelRetire => exact execChannelRetire_goes h
  | partCreate => exact execPartCreate_goes h
  | partResize => exact execPartResize_goes h
  | partDestroy => exact execPartDestroy_goes h
  | disable => exact execDisable_goes h
  | regSet => exact execRegSet_goes h
  | hostcoreBoot => exact execHostcoreBoot_goes h
  | hostcoreStop => exact execHostcoreStop_goes h
  | portMode => exact execPortMode_goes h
  | fabAddr => exact execFabAddr_goes h
  | assocSet => exact execAssocSet_goes h
  | assocRemove => exact execAssocRemove_goes h
  | powerCap => exact execPowerCap_goes h
  | thresholds => exact execThresholds_goes h
  | selfTest => exact execSelfTest_goes h
  | selfTestRun => exact execSelfTestRun_goes h
  | selfTestTimeout => exact execSelfTestTimeout_goes h
  | prepareRemoval => exact execPrepareRemoval_goes h
  | debugOpen => exact execDebugOpen_goes h
  | debugClose => exact execDebugClose_goes h
  | keyEnrol => exact execKeyEnrol_goes h
  | keyRevoke => exact execKeyRevoke_goes h
  | makerAllow => exact execMakerAllow_goes h
  | makerToken => exact execMakerToken_goes h
  | makerScopeLapse => exact execMakerScopeLapse_goes h
  | identityEnrol => exact execIdentityEnrol_goes h
  | fwWrite => exact execFwWrite_goes h
  | fwActivate => exact execFwActivate_goes h
  | standbyReady => exact execStandbyReady_goes h
  | activationTimeout => exact execActivationTimeout_goes h
  | fwSetFloor => exact execFwSetFloor_goes h
  | auditRead => exact execAuditRead_goes h
  | storeStatus => exact execStoreStatus_goes h
  | railThrottle => exact execRailThrottle_goes h
  | throttleReleaseStep => exact execThrottleReleaseStep_goes h
  | droopStretch => exact execDroopStretch_goes h
  | powerAllocation => exact execPowerAllocation_goes h
  | paddleStep => exact execPaddleStep_goes h
  | clockGateEntry => exact execClockGateEntry_goes h
  | retentionEntry => exact execRetentionEntry_goes h
  | galleryWake => exact execGalleryWake_goes h
  | muSleep => exact execMuSleep_goes h
  | muWake => exact execMuWake_goes h
  | stackPowerDown => exact execStackPowerDown_goes h
  | thermalSample => exact execThermalSample_goes h
  | correctedAttention => exact execCorrectedAttention_goes h
  | recalibration => exact execRecalibration_goes h
  | ctrCfgWrite => exact execCtrCfgWrite_goes h
  | ctrSample => exact execCtrSample_goes h
  | gctrSample => exact execGctrSample_goes h
  | trcCtrlWrite => exact execTrcCtrlWrite_goes h
  | trcRingWrite => exact execTrcRingWrite_goes h
  | traceDrain => exact execTraceDrain_goes h
  | strokeIssue => exact execStrokeIssue_goes h
  | inputVoltageMeasurement => exact execInputVoltageMeasurement_goes h
  | railOutOfRegulation => exact execRailOutOfRegulation_goes h
  | coolantReport => exact execCoolantReport_goes h
  | uncoreIdleEntry => exact execUncoreIdleEntry_goes h
  | dataLinkLayerDown => exact execDataLinkLayerDown_goes h
  | completionTimeout => exact execCompletionTimeout_goes h
  | arpNdIcmpFrame => exact execArpNdIcmpFrame_goes h
  | strangerPacket => exact execStrangerPacket_goes h
  | stage2TableMove => exact execStage2TableMove_goes h
  | lane8PatternTimeout => exact execLane8PatternTimeout_goes h
  | hostCoreError => exact execHostCoreError_goes h
  | repairMapClear => exact execRepairMapClear_goes h
  | instructionCacheFill => exact execInstructionCacheFill_goes h

/-- Power-on leads on from the clock's new start. -/
theorem step_goes_powerOn {p rest} (h : s.pending = .powerOn p :: rest) : State.Goes true 4 { s with pending := rest, now := 0 } (step s) := by
  unfold step
  rw [h]
  exact execPowerOn_goes (t := { s with pending := rest })

theorem step_goes {c rest} (h : s.pending = c :: rest) (hc : ∀ p, c ≠ .powerOn p) : State.Goes true 4 { s with pending := rest } (step s) := by
  unfold step
  rw [h]
  exact exec_goes c hc

/-- What a step can do: on an empty queue the block stays, and otherwise the command in front leads on from the state with the queue's rest,
whose clock power-on sets anew. -/
theorem step_cases (s : State) :
    (s.pending = [] ∧ step s = .next s) ∨
      ∃ c rest n, s.pending = c :: rest ∧ ((∀ p, c ≠ .powerOn p) → n = s.now) ∧
        State.Goes true 4 { s with pending := rest, now := n } (step s) := by
  cases h : s.pending with
  | nil => exact .inl ⟨rfl, step_of_pending_nil h⟩
  | cons c rest =>
    refine .inr ⟨c, rest, ?_⟩
    by_cases hc : ∀ p, c ≠ .powerOn p
    · exact ⟨s.now, rfl, fun _ => rfl, step_goes h hc⟩
    · obtain ⟨p, rfl⟩ := not_forall_not.mp hc
      exact ⟨0, rfl, fun hc => absurd rfl (hc p), step_goes_powerOn h⟩

/-- Settles O58: each command of the table leads on, and the commands behind it wait as they did. -/
theorem everyStepAnswers : Obligations.EveryStepAnswers := by
  intro s
  obtain ⟨hp, hs⟩ | ⟨c, rest, n, hp, -, t, ht, h⟩ := step_cases s
  · exact ⟨s, hs, by rw [hp, List.tail_nil]⟩
  · exact ⟨t, ht, by rw [h.pending, hp, List.tail_cons]⟩

/-- Settles O60: every operation keeps the direction of the clock, the audit numbering and the output; power-on does from the clock's new start. -/
theorem nothingRunsBack : Obligations.NothingRunsBack := by
  intro s t ht
  obtain ⟨-, hs⟩ | ⟨c, rest, n, hp, hn, u, hu, h⟩ := step_cases s
  · cases hs.symm.trans ht
    exact ⟨le_refl _, List.suffix_refl _, fun _ => le_refl _⟩
  · cases hu.symm.trans ht
    refine ⟨h.audit, h.out, fun hb => ?_⟩
    have hc : ∀ p, c ≠ .powerOn p := fun p e => hb p (by rw [hp, e, List.head?_cons])
    rw [← hn hc]
    exact h.now

/-- Settles O1: every operation keeps the tables of the invariant, and no command leaves an access waiting. -/
theorem stepKeepsSound : Obligations.StepKeepsSound := by
  intro s t hs ht
  obtain ⟨-, he⟩ | ⟨c, rest, n, -, -, u, hu, h⟩ := step_cases s
  · cases he.symm.trans ht
    exact hs
  · cases hu.symm.trans ht
    exact State.sound_iff.mpr ⟨h.tables { hs.tables with }, h.stalled rfl hs.served⟩

end Sys2Proof.Machine
end

section
/-! Floating point, packed halves and conversions (Table 4-9, classes 0x2 to 0x5, R98 to R101, R121 to R123). -/

namespace Sys2Proof.Machine

open Sys2Proof

section
variable {s : State} {c : CrewId} {z : Issue} {op : Nat}

/-- Results with flags: the first thread that traps makes the crew fault, and where none does the results and the flags are delivered. -/
theorem perThread_of_trapped {n : Nat} {f : Nat → Nat × Nat} {t : Nat}
    (h : z.threads.find? (fun t => traps z.options (f t).2) = some t) : s.perThread z n f = s.trap z 0x05 0 t := by
  have hsome : (z.threads.map (fun t => (t, f t))).find? (fun r => traps z.options r.2.2) = some (t, f t) := by
    rw [List.find?_map, Function.comp_def, h]
    rfl
  unfold State.perThread
  simp only [hsome]
  rfl

/-- A ready instruction whose effect is a result of n registers, with flags, in every participating thread. -/
theorem thread_givesFlagged {cls n : Nat} {f : Nat → Nat × Nat} (hk : z.i.known = true) (h : s.Ready c z cls op)
    (he : s.effect z = s.perThread z n f) : s.GivesFlagged z (.next (s.thread c cls op)) n f := by
  refine ⟨fun huntrapped => thread_leaves hk h ?_, fun t ht => thread_faults hk h ?_⟩
  · rw [he, perThread_of_no_trap huntrapped]
    exact finish_onlyCrew (ready_crew h) _ _ _
  · rw [he, perThread_of_trapped ht]

theorem ready_cls {cls : Nat} (h : s.Ready c z cls op) : z.i.cls = cls ∧ z.i.op = op := by
  obtain ⟨-, -, -, -, -, -, -, hcls, hop, -⟩ := h
  exact ⟨hcls, hop⟩

theorem ready_legal {cls : Nat} (h : s.Ready c z cls op) : z.i.legal z.x.width z.x.regs = true := by
  obtain ⟨-, -, -, -, -, -, -, -, -, hlegal, -⟩ := h
  exact hlegal

/-! ### FP64 and FP32 -/

/-- The operation of a class 0x2 or 0x3 instruction on words of its format, without modifiers and flushes. -/
def Fmt.operation (f : Fmt) (op rm : Nat) (x y z : Nat) : Nat × Nat :=
  match op with
  | 0 => f.add rm x y
  | 1 => f.add rm x (f.modify y false true)
  | 2 => f.mul rm x y
  | 3 => f.fma rm x y z
  | 4 => f.minMax false x y
  | 5 => f.minMax true x y
  | 6 => f.div rm x y
  | _ => f.sqrt rm x

theorem arith_eq_operation (f : Fmt) (ftz : Bool) (op rm : Nat) (m : Mods) (a b c : Nat) : f.arith ftz op rm m a b c =
    f.flushOut ftz (f.operation op rm (f.flushIn ftz (f.modify a m.aa m.na)) (f.flushIn ftz (f.modify b m.ab m.nb))
      (f.flushIn ftz (f.modify c false m.nc))) := rfl

theorem fpClass_givesFp {cls : Nat} {f : Fmt} (hk : z.i.known = true) (hop : op < 8) (h : s.Ready c z cls op)
    (he : s.effect z = s.fpClass z f) : s.GivesFp z (.next (s.thread c cls op)) f (f.operation op z.i.rm) := by
  refine thread_givesFlagged hk h ?_
  rw [he, State.fpClass]
  simp only [fpResult, (ready_cls h).2, if_pos hop, arith_eq_operation]

theorem fp64_gives (h : s.Ready c z 2 op) (hop : op < 8) :
    s.GivesFp z (.next (s.thread c 2 op)) fp64 (fp64.operation op z.i.rm) := by
  obtain ⟨hcls, hop'⟩ := ready_cls h
  refine fpClass_givesFp ?_ hop h ?_
  · simp [Inst.known, hcls, hop', Nat.le_of_lt_succ hop]
  · simp [State.effect, hcls]

theorem known_fp32 (h : s.Ready c z 3 op) (hop : op ≤ 0x0B) : z.i.known = true := by
  obtain ⟨hcls, hop'⟩ := ready_cls h
  simp [Inst.known, hcls, hop', hop]

theorem effect_fp32 (h : s.Ready c z 3 op) : s.effect z = s.fpClass z fp32 := by simp [State.effect, (ready_cls h).1]

theorem fp32_gives (h : s.Ready c z 3 op) (hop : op < 8) :
    s.GivesFp z (.next (s.thread c 3 op)) fp32 (fp32.operation op z.i.rm) :=
  fpClass_givesFp (known_fp32 h (by omega)) hop h (effect_fp32 h)

/-! ### The approximations -/

/-- The results that the table of R121 states for the approximation op of a datum. -/
def approxStated (op : Nat) (x : Fp) : Option (Nat × Nat) :=
  match x with
  | .nan signalling => some (fp32.qnan, if signalling then fInvalid else 0)
  | .zero neg => if op = 8 then some (fp32.infinity neg, fDivZero) else if op = 11 then some (fp32.infinity true, fDivZero) else none
  | .inf neg => if op = 11 ∧ neg = true then some (fp32.qnan, fInvalid) else none
  | .fin neg k e =>
    if op = 11 ∧ neg = true then some (fp32.qnan, fInvalid)
    else if op = 10 ∧ neg = false ∧ 7 ≤ e + (bitLen k : Int) - 1 then some (fp32.infinity false, fOverflow + fInexact) else none

theorem approx_eq_stated (ftz : Bool) (m : Mods) (a : Nat) (hlow : 8 ≤ op) (hhigh : op ≤ 11) :
    approx ftz op m a =
      let x := fp32.flushIn ftz (fp32.modify a m.aa m.na)
      (approxStated op (fp32.unpack x)).getD
        (fp32.flushOut ftz (approxValue op (BitVec.ofNat 32 x), Config.sfuFlags op (BitVec.ofNat 32 x) % 32)) := by
  unfold approx
  extract_lets x w other
  rw [show (fp32.flushOut ftz (approxValue op (BitVec.ofNat 32 x), Config.sfuFlags op (BitVec.ofNat 32 x) % 32)) = other from rfl]
  clear_value other
  obtain rfl | rfl | rfl | rfl : op = 8 ∨ op = 9 ∨ op = 10 ∨ op = 11 := by omega
  all_goals
    generalize fp32.unpack x = d
    cases d with
    | nan sig => rfl
    | zero neg => rfl
    | inf neg => cases neg <;> rfl
    | fin neg k e =>
      cases neg
      · simp [approxStated, apply_ite (Option.getD · other)]
      · simp [approxStated]

theorem fp32_approx_gives (h : s.Ready c z 3 op) (hlow : 8 ≤ op) (hhigh : op ≤ 11) :
    s.GivesApprox z (.next (s.thread c 3 op)) op := by
  refine thread_givesFlagged (known_fp32 h hhigh) h ?_
  rw [effect_fp32 h, State.fpClass]
  simp only [fpResult, (ready_cls h).2, if_neg (Nat.not_lt.2 hlow), approx_eq_stated _ _ _ hlow hhigh]
  rfl

/-! ### Packed halves -/

theorem known_half (h : s.Ready c z 4 op) (hop : op ≤ 6) : z.i.known = true := by
  obtain ⟨hcls, hop'⟩ := ready_cls h
  simp [Inst.known, hcls, hop', hop]

theorem effect_half (h : s.Ready c z 4 op) : s.effect z = s.halfClass z := by simp [State.effect, (ready_cls h).1]

theorem lowHalf_eq_bits (v : Nat) : lowHalf v = bits v (16 * 0) 16 := by simp [lowHalf, bits]

theorem highHalf_eq_bits (v : Nat) : highHalf v = bits v (16 * 1) 16 := rfl

theorem half_gives (h : s.Ready c z 4 op) (hop : op < 6) :
    s.GivesHalves z (.next (s.thread c 4 op)) (fun f => f.operation op z.i.rm) := by
  refine thread_givesFlagged (known_half h (by omega)) h ?_
  rw [effect_half h, State.halfClass]
  simp only [halfResult, (ready_cls h).2, if_neg (Nat.ne_of_lt hop), arith_eq_operation, lowHalf_eq_bits, highHalf_eq_bits, show 65536 = 2 ^ 16 from rfl]

theorem hdot2_gives (h : s.Ready c z 4 6) : s.GivesFlagged z (.next (s.thread c 4 6)) 1 (fun t =>
    hdot2 (if bit z.i.w 58 then bf16 else fp16) z.options z.i.rm z.i.modifiers (z.x.opA z.i t 1) (z.x.opB z.i .both t 1)
      (z.x.opC z.i t 1)) := by
  refine thread_givesFlagged (known_half h (by omega)) h ?_
  rw [effect_half h, State.halfClass]
  simp only [halfResult, (ready_cls h).2, if_true]

end

/-- Settles O3: each operation of class 0x2 is that of FP64, on its operands with their modifiers, flushed where the launch says so. -/
theorem fp64Instructions : Obligations.Fp64Instructions := by
  unfold Obligations.Fp64Instructions
  intro s c z
  exact ⟨fun h => fp64_gives h (by omega), fun h => fp64_gives h (by omega), fun h => fp64_gives h (by omega),
    fun h => fp64_gives h (by omega), fun h => fp64_gives h (by omega), fun h => fp64_gives h (by omega),
    fun h => fp64_gives h (by omega), fun h => fp64_gives h (by omega)⟩

/-- Settles O4: the operations below 8 are those of FP32, and the four approximations give what R121 states. -/
theorem fp32Instructions : Obligations.Fp32Instructions := by
  unfold Obligations.Fp32Instructions
  intro s c z
  exact ⟨fun h => fp32_gives h (by omega), fun h => fp32_gives h (by omega), fun h => fp32_gives h (by omega),
    fun h => fp32_gives h (by omega), fun h => fp32_gives h (by omega), fun h => fp32_gives h (by omega),
    fun h => fp32_gives h (by omega), fun h => fp32_gives h (by omega),
    fun h => fp32_approx_gives h (by omega) (by omega), fun h => fp32_approx_gives h (by omega) (by omega),
    fun h => fp32_approx_gives h (by omega) (by omega), fun h => fp32_approx_gives h (by omega) (by omega)⟩

/-- Settles O5: each packed operation is that of its format on both halves, and `HDOT2` has its own. -/
theorem halfInstructions : Obligations.HalfInstructions := by
  unfold Obligations.HalfInstructions
  intro s c z
  exact ⟨fun h => half_gives h (by omega), fun h => half_gives h (by omega), fun h => half_gives h (by omega),
    fun h => half_gives h (by omega), fun h => half_gives h (by omega), fun h => half_gives h (by omega), hdot2_gives⟩

/-! ### Conversions (R122, R123) -/

section
variable {s : State} {c : CrewId} {z : Issue} {op : Nat}

theorem known_convert (h : s.Ready c z 5 op) (hop : op ≤ 1) : z.i.known = true := by
  obtain ⟨hcls, hop'⟩ := ready_cls h
  simp [Inst.known, hcls, hop', hop]

theorem effect_convert (h : s.Ready c z 5 op) : s.effect z = s.convertClass z := by simp [State.effect, (ready_cls h).1]

/-- A conversion is one between scalar formats, or one of the formats lies outside them. -/
theorem effect_cvt_scalar (h : s.Ready c z 5 0) (hs : z.i.srcFmt < 8) (hd : z.i.dstFmt < 8) :
    s.effect z = s.perThread z (scalarRegs z.i.dstFmt)
      (fun t => scalarConvert z.i.srcFmt z.i.dstFmt z.i.rm (z.x.opA z.i t (scalarRegs z.i.srcFmt))) := by
  simp [effect_convert h, State.convertClass, (ready_cls h).2, hs, hd]

/-- An integer that fits the destination is itself, and one that does not is the nearer end of the range, with invalid raised. -/
theorem intToInt_clamps (v : Int) (n : Nat) (signed : Bool) :
    intToInt v n signed =
      let low : Int := if signed then -2 ^ (n - 1) else 0
      let high : Int := if signed then 2 ^ (n - 1) - 1 else 2 ^ n - 1
      ((max low (min v high) % 2 ^ n).toNat, if low ≤ v ∧ v ≤ high then 0 else fInvalid) := by
  have hpos : (0 : Int) < 2 ^ (n - 1) := by positivity
  have hpos' : (0 : Int) < 2 ^ n := by positivity
  unfold intToInt
  extract_lets lo hi
  have hle : lo ≤ hi := by
    cases signed
    · simp only [lo, hi, Bool.false_eq_true, if_false]; omega
    · simp only [lo, hi, if_true]; omega
  clear_value lo hi
  by_cases hlow : v < lo
  · rw [if_pos hlow, if_neg (by omega), show max lo (min v hi) = lo by omega]
    rfl
  · rw [if_neg hlow]
    by_cases hhigh : hi < v
    · rw [if_pos hhigh, if_neg (by omega), show max lo (min v hi) = hi by omega]
      rfl
    · rw [if_neg hhigh, if_pos (by omega), show max lo (min v hi) = v by omega]
      rfl

theorem cvt_int_gives (h : s.Ready c z 5 0) (hs : z.i.srcFmt < 4) (hd : z.i.dstFmt < 4) :
    s.GivesFlagged z (.next (s.thread c 5 0)) (scalarRegs z.i.dstFmt) (fun t =>
      intToInt (intValue z.i.srcFmt (z.x.opA z.i t (scalarRegs z.i.srcFmt))) (intBits z.i.dstFmt) (intSigned z.i.dstFmt)) := by
  refine thread_givesFlagged (known_convert h (by omega)) h ?_
  rw [effect_cvt_scalar h (by omega) (by omega)]
  simp only [scalarConvert, if_pos hs, if_pos hd]

theorem cvt_scalar_gives (h : s.Ready c z 5 0) (hs : z.i.srcFmt < 8) (hd : z.i.dstFmt < 8) :
    s.GivesFlagged z (.next (s.thread c 5 0)) (scalarRegs z.i.dstFmt)
      (fun t => scalarConvert z.i.srcFmt z.i.dstFmt z.i.rm (z.x.opA z.i t (scalarRegs z.i.srcFmt))) :=
  thread_givesFlagged (known_convert h (by omega)) h (effect_cvt_scalar h hs hd)

theorem cvt_pack_gives (h : s.Ready c z 5 0) (hs : z.i.srcFmt = 5) (hlow : 8 ≤ z.i.dstFmt) (hhigh : z.i.dstFmt ≤ 12) :
    s.Gives z (.next (s.thread c 5 0))
      (z.results 1 (fun t => packShort z.i.dstFmt (z.x.opA z.i t (if z.i.dstFmt = 12 then 8 else 4)))) 0 := by
  refine thread_gives_results (known_convert h (by omega)) h ?_
  rw [effect_convert h]
  simp [State.convertClass, (ready_cls h).2, hs, Nat.not_lt.2 hlow, show ¬ 13 ≤ z.i.dstFmt by omega]

theorem cvt_unpack_gives (h : s.Ready c z 5 0) (hlow : 8 ≤ z.i.srcFmt) (hhigh : z.i.srcFmt ≤ 12) (hd : z.i.dstFmt = 5) :
    s.Gives z (.next (s.thread c 5 0))
      (z.results (if z.i.srcFmt = 12 then 8 else 4) (fun t => unpackShort z.i.srcFmt (z.x.opA z.i t 1))) 0 := by
  refine thread_gives_results (known_convert h (by omega)) h ?_
  rw [effect_convert h]
  simp [State.convertClass, (ready_cls h).2, hd, Nat.not_lt.2 hlow, show ¬ 13 ≤ z.i.srcFmt by omega, show z.i.srcFmt ≠ 5 by omega]

theorem effect_toMx (h : s.Ready c z 5 0) (hd : 13 ≤ z.i.dstFmt) : s.effect z = s.toMx z := by
  rw [effect_convert h]
  simp [State.convertClass, (ready_cls h).2, hd, show ¬ z.i.dstFmt < 8 by omega]

/-- The destination of a legal conversion from an MX format is a scalar format (R122). -/
theorem dstFmt_of_fromMx (h : s.Ready c z 5 0) (hs : 13 ≤ z.i.srcFmt) : z.i.dstFmt < 8 := by
  obtain ⟨hcls, hop⟩ := ready_cls h
  obtain ⟨g, hsig, -⟩ := sigR_of_legal (.inl (by omega)) (ready_legal h)
  simp only [sigR, hcls, hop, if_true, sigCvt] at hsig
  split_ifs at hsig <;> omega

theorem effect_fromMx (h : s.Ready c z 5 0) (hs : 13 ≤ z.i.srcFmt) : s.effect z = s.fromMx z := by
  have hd := dstFmt_of_fromMx h hs
  rw [effect_convert h]
  simp [State.convertClass, (ready_cls h).2, hs, show ¬ z.i.srcFmt < 8 by omega, show ¬ 13 ≤ z.i.dstFmt by omega]

theorem frnd_gives (h : s.Ready c z 5 1) : s.GivesFlagged z (.next (s.thread c 5 1)) (scalarRegs z.i.srcFmt) (fun t =>
    (floatOf z.i.srcFmt).integral z.i.rm (z.x.opA z.i t (scalarRegs z.i.srcFmt) % 2 ^ (floatOf z.i.srcFmt).width)) := by
  refine thread_givesFlagged (known_convert h (by omega)) h ?_
  rw [effect_convert h]
  simp [State.convertClass, (ready_cls h).2]

end

/-- Settles O6: the pair of formats decides which of the conversions it is, and integers are clamped to their destination. -/
theorem convertInstructions : Obligations.ConvertInstructions := by
  unfold Obligations.ConvertInstructions
  intro s c z i
  refine ⟨fun h => ⟨fun hs hd => ?_, fun _ => cvt_scalar_gives h, cvt_pack_gives h, fun hd hlow hhigh => cvt_unpack_gives h hlow hhigh hd,
    fun hd => ?_, fun hs => ?_⟩, frnd_gives⟩
  · have hgives := cvt_int_gives h hs hd
    simp only [intToInt_clamps, intSigned, intBits, decide_eq_true_eq] at hgives
    exact hgives
  · refine thread_gives_results (known_convert h (by omega)) h ?_
    rw [effect_toMx h hd, State.toMx]
    simp only [decide_eq_true_eq]
    rfl
  · refine thread_gives_results (known_convert h (by omega)) h ?_
    rw [effect_fromMx h hs, State.fromMx]
    simp only [decide_eq_true_eq, Nat.mul_comm]
    rfl

end Sys2Proof.Machine
end

section
/-! What keeps a thread instruction from its effect (R79, R101, R117, R133, R405). -/

namespace Sys2Proof.Machine

open Sys2Proof

variable {s : State} {c : CrewId} {z : Issue} {cls op : Nat}

/-! ### A crew that is lost -/

theorem logEvent_keepsWork (s : State) (fn kind : Nat) (body : List Byte) : s.KeepsWork (s.logEvent fn kind body) := by
  have hlog (l : EventLog) : s.KeepsWork ((s.sample.1.setEvlog fn l).raise fn (.event 0)) :=
    ((sample_keepsWork s).trans (setEvlog_keepsWork _ _ _)).trans (keepsWork_of_inner (raise_inner _ _ _))
  simp only [State.logEvent]
  split
  · exact (hlog _).trans (keepsWork_of_inner (raise_inner _ _ _))
  · exact hlog _

theorem rasTell_keepsWork (s : State) (e : RasEvent) (count : Nat) (fns : List Nat) : s.KeepsWork (s.rasTell e count fns) := by
  induction fns generalizing s with
  | nil => exact .refl s
  | cons fn fns ih =>
    exact ((keepsWork_of_inner (raise_inner s fn _)).trans (logEvent_keepsWork _ fn 1 _)).trans (ih _)

theorem ras_keepsWork (s : State) (e : RasEvent) : s.KeepsWork (s.ras e) :=
  (keepsWork_of_cores rfl rfl rfl rfl : s.KeepsWork (s.rasCount _)).trans (rasTell_keepsWork _ _ _ _)

/-- A crew that is discarded leaves its slot; its launch's record and the report keep the work of the cores (R405). -/
theorem crewLost_keepsWork {core key : Nat} {x : Crew} (reg : Nat) (h : s.crew core key = some x) :
    (s.modCore core (fun k => { k with crews := merase k.crews key })).KeepsWork (s.crewLost core key reg) := by
  unfold State.crewLost
  simp only [h]
  refine .trans ?_ (checkLaunch_keepsWork _ _)
  refine .trans ?_ (ras_keepsWork _ _)
  refine .trans ?_ (modLaunch_keepsWork _ _ _)
  exact keepsWork_of_cores rfl rfl rfl rfl

theorem mfind_eq_none {α : Type} {m : Map α} {k : Nat} (h : k ∉ m.map (·.1)) : mfind m k = none := by
  simp only [mfind, Option.map_eq_none_iff, List.find?_eq_none, decide_eq_true_eq]
  exact fun e he hk => h (hk ▸ List.mem_map_of_mem he)

theorem mfind_merase_same {α : Type} {m : Map α} (k : Nat) (h : rising m) : mfind (merase m k) k = none := by
  induction m with
  | nil => rfl
  | cons e m ih =>
    obtain ⟨j, w⟩ := e
    obtain ⟨hj, hm⟩ := List.pairwise_cons.1 h
    rw [merase]
    split
    next hjk =>
      refine mfind_eq_none fun hk => ?_
      exact absurd (hj k hk) (by simp [hjk])
    split
    next hjk hlt =>
      rw [mfind_cons, if_neg hjk]
      refine mfind_eq_none fun hk => ?_
      exact absurd (hj k hk) (Nat.lt_asymm hlt)
    next hjk hlt => rw [mfind_cons, if_neg hjk, ih hm]

theorem crew_erased (core key : Nat) (hcores : rising s.cores) (hcrews : rising (s.core core).crews) :
    (s.modCore core (fun k => { k with crews := merase k.crews key })).crew core key = none := by
  unfold State.crew State.modCore State.core State.setCore
  rw [mget_mset_same_of_rising _ _ _ hcores]
  exact mfind_merase_same key hcrews

theorem issue_thread {x : Crew} (hcrew : s.crew c.core (ckey c) = some x) (hrun : x.state = .running) (hretry : x.retry = false)
    (holder : s.olderReady c.core (ckey c) x = false) :
    s.thread c cls op = s.orWait (s.issue c.core (ckey c) (some (cls, op))) := by
  simp [State.thread, hcrew, hrun, hretry, holder]

/-! ### The cases of a command -/

theorem facing_place (h : s.Facing c z) : z.core = c.core ∧ z.key = ckey c := by
  obtain ⟨-, -, -, -, -, -, hnext⟩ := h
  exact nextIssue_place hnext

theorem facing_crew (h : s.Facing c z) : s.crew z.core z.key = some z.x := by
  obtain ⟨hcore, hkey⟩ := facing_place h
  obtain ⟨-, -, hcrew, -⟩ := h
  rw [hcore, hkey, hcrew]

/-- What the command of a crew that faces an instruction does, by what the instruction is and by its sources. -/
theorem thread_of_facing (h : s.Facing c z) : s.thread c cls op = s.orWait (
    if z.i.known && !(decide (z.i.cls = cls) && decide (z.i.op = op)) then s
    else if !(z.i.known && z.i.legal z.x.width z.x.regs) then s.trap z 0x01 0 ((bitList z.x.width z.act).headD z.lead)
    else if z.x.blocked (z.i.sources z.x.width) then s
    else match z.x.badSource z.act (z.i.sources z.x.width) with
      | some r => s.crewLost z.core z.key r
      | none => s.effect z) := by
  obtain ⟨hcore, hkey⟩ := facing_place h
  obtain ⟨-, holder, hcrew, hrun, hretry, hcopy, hnext⟩ := h
  rw [issue_thread hcrew hrun hretry holder, hcore, hkey]
  simp only [State.issue, hcrew, hcopy, hnext]
  rfl

/-- An instruction that no command names makes its crew fault, whichever command it is (R117). -/
theorem thread_of_unknown (h : s.Facing c z) (hk : z.i.known = false) :
    s.Faults z (.next (s.thread c cls op)) 0x01 0 ((bitList z.x.width z.act).headD z.lead) := by
  have hcrew := facing_crew h
  rw [thread_of_facing h]
  obtain ⟨hst, -, -, hrun, -⟩ := h
  simp only [hk, Bool.false_and, Bool.not_false, Bool.false_eq_true, if_false, if_true]
  rw [orWait_of_served _ _ ((trap_stalled _ _ _ hcrew hrun).trans hst)]
  exact trap_faults _ _ _ hcrew hrun

theorem thread_of_other (h : s.Facing c z) (hk : z.i.known = true) (hother : ¬ (z.i.cls = cls ∧ z.i.op = op)) : s.thread c cls op = s := by
  rw [thread_of_facing h, if_pos (by simpa [hk, ← not_and_or] using hother)]
  exact orWait_of_served _ _ h.1

theorem thread_of_blocked (h : s.Facing c z) (hk : z.i.known = true) (hnamed : z.i.cls = cls ∧ z.i.op = op)
    (hlegal : z.i.legal z.x.width z.x.regs = true) (hblocked : z.x.blocked (z.i.sources z.x.width) = true) : s.thread c cls op = s := by
  rw [thread_of_facing h]
  simp only [hk, hnamed, hlegal, hblocked, decide_true, Bool.and_self, Bool.not_true, Bool.and_false, Bool.false_eq_true, if_false, if_true]
  exact orWait_of_served _ _ h.1

/-- A crew that reads a register with an uncorrectable error is discarded (R405). -/
theorem thread_of_badSource {r : Nat} (h : s.Facing c z) (hk : z.i.known = true) (hnamed : z.i.cls = cls ∧ z.i.op = op)
    (hlegal : z.i.legal z.x.width z.x.regs = true) (hblocked : z.x.blocked (z.i.sources z.x.width) = false)
    (hbad : z.x.badSource z.act (z.i.sources z.x.width) = some r) (hcores : rising s.cores) (hcrews : rising (s.core z.core).crews) :
    (s.thread c cls op).crew z.core z.key = none ∧ (s.thread c cls op).hbm = s.hbm ∧ (s.thread c cls op).slots = s.slots := by
  have hlost := crewLost_keepsWork r (facing_crew h)
  rw [thread_of_facing h]
  simp only [hk, hnamed, hlegal, hblocked, hbad, decide_true, Bool.and_self, Bool.not_true, Bool.and_false, Bool.false_eq_true, if_false]
  have hgone := (hlost.crew z.core z.key).trans (crew_erased _ _ hcores hcrews)
  obtain ⟨hhbm, hslots, hst, -⟩ := hlost
  rw [orWait_of_served _ _ (hst.trans h.1)]
  exact ⟨hgone, hhbm, hslots⟩

/-- A copy's fault takes effect at the instruction boundary (R133). -/
theorem thread_of_copyFault {code addr pc m : Nat} {y : Crew} (hst : s.stalled = false) (hcrew : s.crew c.core (ckey c) = some y)
    (holder : s.olderReady c.core (ckey c) y = false) (hrun : y.state = .running) (hretry : y.retry = false)
    (hcopy : y.copyFault = some (code, addr)) (hpath : y.path = some (pc, m)) :
    (s.thread c cls op).hbm = s.hbm ∧ (s.thread c cls op).crew c.core (ckey c) =
      some { y with state := .faulted, fault := ⟨code, addr, pc, m, 0⟩, outs := [], retry := false } := by
  have hissue : s.issue c.core (ckey c) (some (cls, op)) = s.crewFault c.core (ckey c) ⟨code, addr, pc, m, 0⟩ := by
    simp only [State.issue, hcrew, hcopy, State.pathFault, hpath]
  have hfault := crewFault_keepsWork ⟨code, addr, pc, m, 0⟩ hcrew (by simp [hrun])
  have hcrew' := (hfault.crew c.core (ckey c)).trans (setCrew_crew_same _ _ _ _)
  obtain ⟨hhbm, -, hst', -⟩ := hfault
  rw [issue_thread hcrew hrun hretry holder, hissue, orWait_of_served _ _ (hst'.trans hst)]
  exact ⟨hhbm, hcrew'⟩

theorem thread_of_idle {y : Crew} (hcrew : s.crew c.core (ckey c) = some y) (hidle : y.state ≠ .running ∨ y.retry = true) :
    s.thread c cls op = s := by
  have hno : ¬ (y.state = .running ∧ y.retry = false ∧ s.olderReady c.core (ckey c) y = false) := by
    rintro ⟨hrun, hretry, -⟩
    rcases hidle with hidle | hidle
    · exact hidle hrun
    · simp [hidle] at hretry
  simp only [State.thread, hcrew, if_neg hno]

theorem thread_of_none (hcrew : s.crew c.core (ckey c) = none) : s.thread c cls op = s := by simp only [State.thread, hcrew]

/-- Settles O53: every command of the list is that of its class and operation, and what such a command does follows the cases of its issue. -/
theorem threadForms : Obligations.ThreadForms := by
  unfold Obligations.ThreadForms
  intro s c z commands p hp
  have hexec : ∀ p ∈ commands, exec p.1 s = .next (s.thread c p.2.1 p.2.2) := by
    simp only [commands, List.forall_mem_append, List.forall_mem_cons, List.not_mem_nil, false_imp_iff, implies_true, and_true]
    repeat' apply And.intro
    all_goals rfl
  have hp' := hexec p hp
  obtain ⟨k, cls, op⟩ := p
  dsimp only at hp' ⊢
  rw [hp']
  refine ⟨fun h => ⟨?_, fun hk hother => ?_, fun hk hnamed hlegal hblocked => ?_, fun r hk hnamed hlegal hblocked hbad hsound hcrews => ?_⟩,
    fun code addr pc m y hst hcrew holder hrun hretry hcopy hpath => ?_, fun y hcrew hidle => ?_, fun hcrew => ?_⟩
  · rintro (hk | ⟨⟨hcls, hop⟩, hlegal⟩)
    · exact thread_of_unknown h hk
    · exact thread_of_illegal h hcls hop hlegal
  · rw [thread_of_other h hk hother]
  · rw [thread_of_blocked h hk hnamed hlegal hblocked]
  · exact ⟨_, rfl, thread_of_badSource h hk hnamed hlegal hblocked hbad hsound.tables.cores hcrews⟩
  · exact ⟨_, rfl, thread_of_copyFault hst hcrew holder hrun hretry hcopy hpath⟩
  · rw [thread_of_idle hcrew hidle]
  · rw [thread_of_none hcrew]

end Sys2Proof.Machine
end

section
/-! Branches and the ends of paths (R82 to R92, R125, R453). -/

namespace Sys2Proof.Machine

open Sys2Proof

/-! ### The reconvergence stack -/

theorem hasRunnable_of_takeRunnable {st : List StackEntry} {r : (Nat × Nat) × List StackEntry} (h : takeRunnable st = some r) :
    hasRunnable st = true := by
  induction st generalizing r with
  | nil => cases h
  | cons e st ih =>
    cases e with
    | join a m => cases h
    | pending pc m w =>
      have hrest : hasRunnable (.pending pc m w :: st) = ((StackEntry.pending pc m w).runnable || hasRunnable st) := rfl
      rw [hrest, Bool.or_eq_true]
      cases w with
      | runnable => exact .inl rfl
      | _ =>
        obtain ⟨r', hr, -⟩ := Option.map_eq_some_iff.1 h
        exact .inr (ih hr)

/-- A waiting entry stays on top of what is left when a runnable one below it is taken. -/
theorem takeRunnable_waiting {pc m : Nat} {w : PathWait} {st rest : List StackEntry} {p : Nat × Nat}
    (hw : (StackEntry.pending pc m w).runnable = false) (h : takeRunnable st = some (p, rest)) :
    takeRunnable (.pending pc m w :: st) = some (p, .pending pc m w :: rest) := by
  cases w with
  | runnable => cases hw
  | _ => simp [takeRunnable, h]

theorem discardEmpty_pending {pc m : Nat} (w : PathWait) (st : List StackEntry) (hm : m ≠ 0) :
    discardEmpty (.pending pc m w :: st) = .pending pc m w :: discardEmpty st := if_neg hm

/-! ### Distinct targets -/

/-- The threads of a list that go to an address, as a mask. -/
def goMask (goal : Nat → Nat) (ts : List Nat) (a : Nat) : Nat := maskOf (ts.filter (fun t => decide (goal t = a)))

theorem goMask_cons_same {goal : Nat → Nat} {t : Nat} (ts : List Nat) : goMask goal (t :: ts) (goal t) = 2 ^ t ||| goMask goal ts (goal t) := by
  simp [goMask, maskOf]

theorem goMask_cons_other {goal : Nat → Nat} {t a : Nat} (ts : List Nat) (h : goal t ≠ a) : goMask goal (t :: ts) a = goMask goal ts a := by
  simp [goMask, h]

/-- What gathering adds to the targets that it has so far: the later threads to each of them, and behind them the targets that are new. -/
theorem gather_eq (goal : Nat → Nat) (ts : List Nat) (acc : List (Nat × Nat)) :
    gather acc (ts.map (fun t => (goal t, t))) =
      acc.map (fun e => (e.1, e.2 ||| goMask goal ts e.1)) ++
        ((ts.map goal).filter (fun a => decide (a ∉ acc.map Prod.fst))).eraseDups.map (fun a => (a, goMask goal ts a)) := by
  induction ts generalizing acc with
  | nil => simp [gather, goMask, maskOf]
  | cons t ts ih =>
    have hlisted : (acc.any (fun e => decide (e.1 = goal t)) = true) ↔ goal t ∈ acc.map Prod.fst := by
      simp [List.any_eq_true]
    have hnew (keys : List Nat) (hkeys : goal t ∈ keys) :
        ((ts.map goal).filter (fun a => decide (a ∉ keys))).eraseDups.map (fun a => (a, goMask goal (t :: ts) a)) =
        ((ts.map goal).filter (fun a => decide (a ∉ keys))).eraseDups.map (fun a => (a, goMask goal ts a)) := by
      refine List.map_congr_left fun a ha => ?_
      have hout : a ∉ keys := by simpa using (List.mem_filter.1 (List.mem_eraseDups.1 ha)).2
      rw [goMask_cons_other ts (fun (he : goal t = a) => hout (he ▸ hkeys))]
    rw [List.map_cons, gather]
    split
    next hany =>
      have hin := hlisted.1 hany
      have hkeys : (acc.map (fun e => if e.1 = goal t then (goal t, e.2 ||| 2 ^ t) else e)).map Prod.fst = acc.map Prod.fst := by
        rw [List.map_map]
        refine List.map_congr_left fun e _ => ?_
        by_cases he : e.1 = goal t <;> simp [he]
      rw [ih, hkeys, List.map_cons, List.filter_cons_of_neg (by simpa using hin), hnew _ hin, List.map_map]
      congr 1
      refine List.map_congr_left fun e _ => ?_
      by_cases he : e.1 = goal t
      · simp [he, goMask_cons_same, Nat.or_assoc]
      · simp [he, goMask_cons_other ts (Ne.symm he)]
    next hany =>
      have hout := fun hin => hany (hlisted.2 hin)
      have hfilter : ((ts.map goal).filter (fun a => decide (a ∉ acc.map Prod.fst))).filter (fun b => !b == goal t) =
          (ts.map goal).filter (fun a => decide (a ∉ (acc ++ [(goal t, 2 ^ t)]).map Prod.fst)) := by
        rw [List.filter_filter]
        refine List.filter_congr fun a _ => ?_
        rw [Bool.eq_iff_iff, List.map_append]
        simp [and_comm]
      rw [ih, List.map_cons (f := goal), List.filter_cons_of_pos (by simpa using hout), List.eraseDups_cons, hfilter, List.map_cons,
        hnew _ (by simp), List.map_append, List.append_assoc]
      congr 1
      · refine List.map_congr_left fun e he => ?_
        rw [goMask_cons_other ts (fun (heq : goal t = e.1) => hout (heq ▸ List.mem_map_of_mem he))]
      · simp [goMask_cons_same]

/-- The distinct targets of threads, each with its threads, in the order in which they are met first. -/
theorem gather_nil (goal : Nat → Nat) (ts : List Nat) :
    gather [] (ts.map (fun t => (goal t, t))) = (ts.map goal).eraseDups.map (fun a => (a, goMask goal ts a)) := by
  simpa using gather_eq goal ts []

/-! ### Branches -/

section
variable {s : State} {c : CrewId} {z : Issue} {op : Nat}

theorem known_flow (h : s.Ready c z 7 op) (hop : op ≤ 5) : z.i.known = true := by
  obtain ⟨hcls, hop'⟩ := ready_cls h
  simp [Inst.known, hcls, hop', hop]

/-- Where the threads of a path come together again (R82). -/
def Issue.joinAt (z : Issue) : Nat := toMod ((z.pc : Int) + 8 * z.i.join) 64

/-- The stack with a join entry for the branch on top, which an equal one that lies there already stands for (R85). -/
def Issue.joined (z : Issue) : List StackEntry :=
  if (match z.x.stack with | .join a _ :: _ => decide (a = z.joinAt) | _ => false) then z.x.stack else .join z.joinAt z.mask :: z.x.stack

/-- A crew with the link of a `CALL` on its way to the register that the instruction names. -/
def Issue.linked (z : Issue) (clock : Nat) (y : Crew) : Crew :=
  let ws := z.threads.flatMap (fun t => vWrites t z.i.reg 2 z.next)
  if ws = [] then y else { y with seq := z.x.seq + 1, outs := z.x.outs ++ [{ seq := z.x.seq, writes := ws, due := clock }] }

/-- What a branch leaves of its crew, once its stack is y's: the link, where there is one. -/
def Issue.branched (z : Issue) (clock : Nat) (link : Bool) (y : Crew) : Crew := if link then z.linked clock y else y

theorem diverge_alone (x : Crew) (join mask : Nat) (go : Nat × Nat) : x.diverge join mask go [] = some { x with path := some go } := rfl

theorem foldl_push (others : List (Nat × Nat)) (base : List StackEntry) :
    others.foldl (fun st o => .pending o.1 o.2 .runnable :: st) base = others.reverse.map (fun o => .pending o.1 o.2 .runnable) ++ base := by
  induction others generalizing base with
  | nil => rfl
  | cons o others ih => simp [ih]

theorem diverge_fits {go : Nat × Nat} {others : List (Nat × Nat)} (hothers : others ≠ []) (hfits : z.joined.length + others.length ≤ 32) :
    z.x.diverge z.joinAt z.mask go others =
      some { z.x with path := some go, stack := others.reverse.map (fun o => .pending o.1 o.2 .runnable) ++ z.joined, bb := 0 } := by
  have hlen : ¬ stackMax < (others.reverse.map (fun o => StackEntry.pending o.1 o.2 .runnable) ++ z.joined).length := by
    simp [stackMax]
    omega
  rw [Crew.diverge, if_neg hothers]
  simp only [foldl_push]
  exact if_neg hlen

theorem diverge_overflows {go : Nat × Nat} {others : List (Nat × Nat)} (hothers : others ≠ []) (hfull : 32 < z.joined.length + others.length) :
    z.x.diverge z.joinAt z.mask go others = none := by
  have hlen : stackMax < (others.reverse.map (fun o => StackEntry.pending o.1 o.2 .runnable) ++ z.joined).length := by
    simp [stackMax]
    omega
  rw [Crew.diverge, if_neg hothers]
  simp only [foldl_push]
  exact if_pos hlen

theorem branchTo_of_none {targets others : List (Nat × Nat)} {go : Nat × Nat} (link : Bool) (hcrew : s.crew z.core z.key = some z.x)
    (hd : z.x.diverge z.joinAt z.mask go others = none) : s.branchTo z targets go others link = s.trap z 0x08 0 z.lead := by
  simp only [State.branchTo, hcrew]
  rw [show z.x.diverge (toMod ((z.pc : Int) + 8 * z.i.join) 64) z.mask go others = none from hd]
  rfl

theorem branchTo_onlyCrew {targets others : List (Nat × Nat)} {go : Nat × Nat} {y w : Crew} (link : Bool)
    (hcrew : s.crew z.core z.key = some z.x) (hd : z.x.diverge z.joinAt z.mask go others = some y)
    (hw : (if others = [] ∧ go.1 ≤ z.pc ∧ targets.any (fun e => decide (e.2 = z.mask)) = true then y.countBackward else y) = w)
    (hseq : w.seq = z.x.seq) (houts : w.outs = z.x.outs) :
    s.OnlyCrew (s.branchTo z targets go others link) z (z.branched (s.core z.core).clock link w) := by
  have hcounted (b : Prop) [Decidable b] : (if b then s.count z.core 0x15 1 z.pair 1 else s).unseen = s.unseen ∧
      (if b then s.count z.core 0x15 1 z.pair 1 else s).cores = s.cores := by
    split <;> simp
  simp only [State.branchTo, hcrew]
  rw [show z.x.diverge (toMod ((z.pc : Int) + 8 * z.i.join) 64) z.mask go others = some y from hd]
  simp only [hw]
  obtain ⟨hunseen, hcores⟩ := hcounted ((decide (y.bb = 63) && decide (w.bb = 0)) = true)
  have honly := onlyCrew_of_seen ((issued_unseen _ z).trans hunseen) ((issued_cores _ z).trans hcores) z
    (z.branched (s.core z.core).clock link w)
  convert honly using 2
  rw [core_of_cores hcores, Issue.branched, Issue.linked, ← hseq, ← houts]
  cases link
  · rfl
  · simp only [if_true]
    split <;> rfl

/-- A crew's next instruction runs on threads of its path. -/
theorem nextIssue_act_le {core key : Nat} {x : Crew} (h : s.nextIssue core key x = some z) : z.act ≤ z.mask := by
  unfold State.nextIssue at h
  split at h
  · split at h
    · obtain rfl := Option.some.inj h
      dsimp only
      split
      · exact Nat.le_refl _
      · exact Nat.and_le_left
    · cases h
  · cases h

theorem act_le_mask (h : s.Ready c z 7 op) : z.act ≤ z.mask := by
  obtain ⟨-, -, -, -, -, -, hnext, -⟩ := h
  exact nextIssue_act_le hnext

variable {link : Bool}

/-- A branch that no thread takes goes on behind it. -/
theorem branch_falls_through (hk : z.i.known = true) (h : s.Ready c z 7 op) (he : s.effect z = s.branchCond z link) (hact : z.act = 0) :
    s.Leaves z (.next (s.thread c 7 op)) { z.x with path := some (z.next, z.mask) } := by
  refine thread_leaves hk h ?_
  rw [he, State.branchCond, if_pos hact]
  exact branchTo_onlyCrew false (ready_crew h) (diverge_alone _ _ _ _) (if_neg (by simp)) rfl rfl

/-- A branch of the whole path (R86, R87): the path is at the target, or the count of backward branches says more. -/
theorem branch_uniform {w : Crew} (hk : z.i.known = true) (h : s.Ready c z 7 op) (he : s.effect z = s.branchCond z link) (hact : z.act ≠ 0)
    (hall : z.act = z.mask)
    (hw : (if z.target ≤ z.pc then ({ z.x with path := some (z.target, z.mask) } : Crew).countBackward
      else { z.x with path := some (z.target, z.mask) }) = w) (hseq : w.seq = z.x.seq) (houts : w.outs = z.x.outs) :
    s.Leaves z (.next (s.thread c 7 op)) (z.branched (s.core z.core).clock link w) := by
  refine thread_leaves hk h ?_
  rw [he, State.branchCond, if_neg hact, if_pos (by omega)]
  exact branchTo_onlyCrew link (ready_crew h) (diverge_alone _ _ _ _) (by simpa using hw) hseq houts

theorem countBackward_alone {y : Crew} (h : hasRunnable y.stack = false) : y.countBackward = y := by simp [Crew.countBackward, h]

theorem ite_countBackward_alone {y : Crew} (p : Prop) [Decidable p] (h : hasRunnable y.stack = false) :
    (if p then y.countBackward else y) = y := by rw [countBackward_alone h, ite_self]

theorem countBackward_counts {y : Crew} (h : hasRunnable y.stack = true) (hbb : y.bb + 1 < 64) :
    y.countBackward = { y with bb := y.bb + 1 } := by
  simp [Crew.countBackward, h, hbb]

/-- The 64th backward branch sets the path aside (R87). -/
theorem countBackward_aside {y : Crew} {pc m : Nat} {p : Nat × Nat} {st : List StackEntry} (hpath : y.path = some (pc, m))
    (h : takeRunnable y.stack = some (p, st)) (hbb : 64 ≤ y.bb + 1) : y.countBackward =
      { y with path := some p, stack := openGroup st ++ .pending pc m .runnable :: st.drop (openGroup st).length, bb := 0 } := by
  simp [Crew.countBackward, hasRunnable_of_takeRunnable h, Nat.not_lt.2 hbb, hpath, h]

/-- A branch that a part of the path takes: that part goes on, and the other one waits on the stack (R83). -/
theorem branch_diverges (hk : z.i.known = true) (h : s.Ready c z 7 op) (he : s.effect z = s.branchCond z link) (hact : z.act ≠ 0)
    (hall : z.act ≠ z.mask) (hfits : z.joined.length + 1 ≤ 32) :
    s.Leaves z (.next (s.thread c 7 op)) (z.branched (s.core z.core).clock link { z.x with
      path := some (z.target, z.act), stack := .pending z.next (z.mask - z.act) .runnable :: z.joined, bb := 0 }) := by
  have hle := act_le_mask h
  refine thread_leaves hk h ?_
  rw [he, State.branchCond, if_neg hact, if_neg (by omega)]
  exact branchTo_onlyCrew link (ready_crew h) (diverge_fits (by simp) hfits) (if_neg (by simp)) rfl rfl

/-- A branch whose paths do not fit on the stack faults (R84). -/
theorem branch_overflows (hk : z.i.known = true) (h : s.Ready c z 7 op) (he : s.effect z = s.branchCond z link) (hact : z.act ≠ 0)
    (hall : z.act ≠ z.mask) (hfull : 32 < z.joined.length + 1) : s.Faults z (.next (s.thread c 7 op)) 0x08 0 z.lead := by
  have hle := act_le_mask h
  refine thread_faults hk h ?_
  rw [he, State.branchCond, if_neg hact, if_neg (by omega)]
  exact branchTo_of_none link (ready_crew h) (diverge_overflows (by simp) hfull)

theorem effect_branch (h : s.Ready c z 7 op) (hop : op = if link then 2 else 0) : s.effect z = s.branchCond z link := by
  obtain ⟨hcls, hop'⟩ := ready_cls h
  subst hop
  cases link <;> simp [State.effect, hcls, hop']

/-- What a branch does, with its link (R125): fall-through, a uniform branch, one that is counted or set aside, and divergence. -/
theorem branch_cases (h : s.Ready c z 7 op) (hop : op = if link then 2 else 0) :
    (z.act = 0 → s.Leaves z (.next (s.thread c 7 op)) { z.x with path := some (z.next, z.mask) }) ∧
    (z.act ≠ 0 → z.act = z.mask →
      (z.pc < z.target ∨ hasRunnable z.x.stack = false →
        s.Leaves z (.next (s.thread c 7 op)) (z.branched (s.core z.core).clock link { z.x with path := some (z.target, z.mask) })) ∧
      (z.target ≤ z.pc → hasRunnable z.x.stack = true → z.x.bb + 1 < 64 →
        s.Leaves z (.next (s.thread c 7 op)) (z.branched (s.core z.core).clock link
          { z.x with path := some (z.target, z.mask), bb := z.x.bb + 1 })) ∧
      (∀ p st, z.target ≤ z.pc → takeRunnable z.x.stack = some (p, st) → 64 ≤ z.x.bb + 1 →
        s.Leaves z (.next (s.thread c 7 op)) (z.branched (s.core z.core).clock link { z.x with
          path := some p, stack := openGroup st ++ .pending z.target z.mask .runnable :: st.drop (openGroup st).length, bb := 0 }))) ∧
    (z.act ≠ 0 → z.act ≠ z.mask →
      (z.joined.length + 1 ≤ 32 → s.Leaves z (.next (s.thread c 7 op)) (z.branched (s.core z.core).clock link { z.x with
        path := some (z.target, z.act), stack := .pending z.next (z.mask - z.act) .runnable :: z.joined, bb := 0 })) ∧
      (32 < z.joined.length + 1 → s.Faults z (.next (s.thread c 7 op)) 0x08 0 z.lead)) := by
  have hk := known_flow h (by rw [hop]; split <;> omega)
  have he := effect_branch h hop
  refine ⟨branch_falls_through hk h he, fun hact hall => ⟨fun hfree => ?_, fun hback hrun hbb => ?_, fun p st hback htake hbb => ?_⟩,
    fun hact hall => ⟨branch_diverges hk h he hact hall, branch_overflows hk h he hact hall⟩⟩
  · refine branch_uniform hk h he hact hall ?_ rfl rfl
    rcases hfree with hahead | hrun
    · exact if_neg (Nat.not_le.2 hahead)
    · exact ite_countBackward_alone _ hrun
  · exact branch_uniform hk h he hact hall ((if_pos hback).trans (countBackward_counts hrun hbb)) rfl rfl
  · exact branch_uniform hk h he hact hall ((if_pos hback).trans (countBackward_aside rfl htake hbb)) rfl rfl

/-! ### Indirect branches -/

/-- Where a thread of the path goes at a `BRX`. -/
def Issue.goal (z : Issue) (t : Nat) : Nat := if bit z.act t then z.x.vreg t z.i.reg 2 / 8 * 8 else z.next

/-- The threads of the path that go to an address at a `BRX`. -/
def Issue.goers (z : Issue) (a : Nat) : Nat := goMask z.goal (bitList z.x.width z.mask) a

theorem effect_brx (h : s.Ready c z 7 1) {a : Nat} {others : List Nat}
    (hgoals : ((bitList z.x.width z.mask).map z.goal).eraseDups = a :: others) :
    s.effect z = s.branchTo z (if z.act = 0 then [] else [(a, z.goers a)]) (a, z.goers a)
      (others.map (fun b => (b, z.goers b))).reverse false := by
  obtain ⟨hcls, hop⟩ := ready_cls h
  have hgather := gather_nil z.goal (bitList z.x.width z.mask)
  rw [hgoals, List.map_cons] at hgather
  simp only [State.effect, hcls, hop, State.branchIndirect]
  rw [show (fun t => (if bit z.act t then z.x.vreg t z.i.reg 2 / 8 * 8 else z.next, t)) = fun t => (z.goal t, t) from rfl, hgather]
  rfl

/-- Every thread goes to one target, and the branch is not counted. -/
theorem brx_uniform (h : s.Ready c z 7 1) {a : Nat} (hgoals : ((bitList z.x.width z.mask).map z.goal).eraseDups = [a])
    (hfree : z.pc < a ∨ hasRunnable z.x.stack = false) : s.Leaves z (.next (s.thread c 7 1)) { z.x with path := some (a, z.goers a) } := by
  refine thread_leaves (known_flow h (by omega)) h ?_
  rw [effect_brx h hgoals]
  refine branchTo_onlyCrew false (ready_crew h) (diverge_alone _ _ _ _) ?_ rfl rfl
  rcases hfree with hahead | hrun
  · exact if_neg fun hcounts => absurd hcounts.2.1 (Nat.not_le.2 hahead)
  · exact ite_countBackward_alone _ hrun

theorem brx_diverges (h : s.Ready c z 7 1) {a : Nat} {others : List Nat}
    (hgoals : ((bitList z.x.width z.mask).map z.goal).eraseDups = a :: others) (hothers : others ≠ [])
    (hfits : z.joined.length + others.length ≤ 32) : s.Leaves z (.next (s.thread c 7 1)) { z.x with
      path := some (a, z.goers a), stack := others.map (fun b => .pending b (z.goers b) .runnable) ++ z.joined, bb := 0 } := by
  refine thread_leaves (known_flow h (by omega)) h ?_
  rw [effect_brx h hgoals]
  have hsome : (others.map (fun b => (b, z.goers b))).reverse ≠ [] := by simpa using hothers
  have hleaves := branchTo_onlyCrew (targets := if z.act = 0 then [] else [(a, z.goers a)]) false (ready_crew h)
    (diverge_fits (go := (a, z.goers a)) hsome (by simpa using hfits)) (if_neg fun hcounts => hsome hcounts.1) rfl rfl
  simpa [Issue.branched, Function.comp_def] using hleaves

theorem brx_overflows (h : s.Ready c z 7 1) {a : Nat} {others : List Nat}
    (hgoals : ((bitList z.x.width z.mask).map z.goal).eraseDups = a :: others) (hothers : others ≠ [])
    (hfull : 32 < z.joined.length + others.length) : s.Faults z (.next (s.thread c 7 1)) 0x08 0 z.lead := by
  refine thread_faults (known_flow h (by omega)) h ?_
  rw [effect_brx h hgoals]
  exact branchTo_of_none false (ready_crew h) (diverge_overflows (by simpa using hothers) (by simpa using hfull))

end

/-- Settles O10: `BRC` and `CALL` are one branch, without and with its link, and `BRX` goes by the distinct targets of the threads. -/
theorem branchInstructions : Obligations.BranchInstructions := by
  unfold Obligations.BranchInstructions
  intro s c z x i join target base branch ts goal part
  refine ⟨fun h => branch_cases (link := false) h rfl, fun h => branch_cases (link := true) h rfl, fun h a others hgoals => ⟨?_, ?_⟩⟩
  · rintro rfl
    exact brx_uniform h hgoals
  · exact fun hothers => ⟨brx_diverges h hgoals hothers, brx_overflows h hgoals hothers⟩

/-! ### The ends of paths -/

section
variable {s : State} {c : CrewId} {z : Issue} {op : Nat} {y : Crew} {how : PathEnd}

theorem effect_join (h : s.Ready c z 7 3) : s.effect z = s.endPath z z.x (.atJoin z.pc) := by
  obtain ⟨hcls, hop⟩ := ready_cls h
  simp only [State.effect, hcls, hop, State.joinPath, ready_crew h]

theorem effect_exit (h : s.Ready c z 7 4) : s.effect z = s.exitPath z := by
  obtain ⟨hcls, hop⟩ := ready_cls h
  simp only [State.effect, hcls, hop]

theorem effect_cbar (h : s.Ready c z 7 5) : s.effect z = s.crewBarrier z := by
  obtain ⟨hcls, hop⟩ := ready_cls h
  simp only [State.effect, hcls, hop]

theorem nextPath_runnable {p : Nat × Nat} {rest : List StackEntry} (h : takeRunnable (discardEmpty y.stack) = some (p, rest)) :
    y.nextPath how = some { y with path := some p, stack := rest, bb := 0 } := by
  simp only [Crew.nextPath, h]

theorem nextPath_waits (h : takeRunnable (discardEmpty y.stack) = none) (hopen : openGroup (discardEmpty y.stack) ≠ [])
    (hy : y.state = .running) :
    y.nextPath how = some { y with path := none, stack := discardEmpty y.stack, bb := 0, state := .waiting } := by
  simp only [Crew.nextPath, h, if_pos hopen, hy, if_true]

theorem nextPath_empty (h : discardEmpty y.stack = []) :
    y.nextPath how = match how with | .atJoin _ => none | _ => some { y with path := none, stack := [], bb := 0 } := by
  cases how <;> simp [Crew.nextPath, h, takeRunnable, openGroup]

theorem nextPath_join {a m : Nat} {rest : List StackEntry} (h : discardEmpty y.stack = .join a m :: rest) :
    y.nextPath how = match how with
      | .atJoin b => if b = a then some { y with path := some (b + 8, m), stack := rest, bb := 0 } else none
      | .atExit => some { y with path := some (a, m), stack := .join a m :: rest, bb := 0 }
      | .atWait => some { y with path := none, stack := .join a m :: rest, bb := 0 } := by
  cases how <;> simp [Crew.nextPath, h, takeRunnable, openGroup, StackEntry.isJoin]

/-- The check for a stranded crew finds none where the crew runs, or where an open entry does not wait on a barrier (R92). -/
theorem strandCheck_idle {core key : Nat} (h : s.crew core key = some y) (hy : y.state ≠ .waiting ∨ strandedStack y.stack = false) :
    s.strandCheck core key = s := by
  have hno : ¬ ((decide (y.state = .waiting) && y.path.isNone && !y.allExited && strandedStack y.stack) = true) := by
    rcases hy with hy | hy <;> simp [hy]
  simp only [State.strandCheck, h]
  exact if_neg hno

/-- A path that ends with another one to run, or with the crew waiting, leaves the crew as the choice of R453 says. -/
theorem endPath_onlyCrew {x w : Crew} (hnext : x.nextPath how = some w) (hw : w.state ≠ .waiting ∨ strandedStack w.stack = false) :
    s.OnlyCrew (s.endPath z x how) z w := by
  simp only [State.endPath, hnext]
  rw [strandCheck_idle (setCrew_crew_same _ _ _ _) hw]
  exact onlyCrew_of_seen (issued_unseen s z) (issued_cores s z) z w

theorem endPath_of_none {x : Crew} (hnext : x.nextPath how = none) : s.endPath z x how = s.trap z 0x09 0 z.lead := by
  simp only [State.endPath, hnext]
  rfl

/-! ### `JOIN` -/

theorem join_leaves {w : Crew} (h : s.Ready c z 7 3) (hnext : z.x.nextPath (.atJoin z.pc) = some w)
    (hw : w.state ≠ .waiting ∨ strandedStack w.stack = false) : s.Leaves z (.next (s.thread c 7 3)) w :=
  thread_leaves (known_flow h (by omega)) h (effect_join h ▸ endPath_onlyCrew hnext hw)

theorem join_faults (h : s.Ready c z 7 3) (hnext : z.x.nextPath (.atJoin z.pc) = none) :
    s.Faults z (.next (s.thread c 7 3)) 0x09 0 z.lead :=
  thread_faults (known_flow h (by omega)) h ((effect_join h).trans (endPath_of_none hnext))

/-! ### `EXIT` -/

/-- The crew of an `EXIT`, its threads taken out of the stack. -/
def Issue.exited (z : Issue) : Crew :=
  { z.x with exited := z.x.exited ||| z.mask, stack := z.x.stack.map (StackEntry.without z.mask) }

/-- No barrier is complete where none has an arrival. -/
theorem releaseFull_of_none (h : y.barriers = []) (bs : List Nat) : y.releaseFull bs = y := by
  induction bs with
  | nil => rfl
  | cons b bs ih =>
    have hfull : y.barrierFull b = false := by simp [Crew.barrierFull, h]
    rw [Crew.releaseFull, hfull, if_neg Bool.false_ne_true, ih]

theorem exit_leaves {w : Crew} (h : s.Ready c z 7 4) (hbarriers : z.x.barriers = []) (hnext : z.exited.nextPath .atExit = some w)
    (hw : w.state ≠ .waiting) : s.Leaves z (.next (s.thread c 7 4)) w := by
  have hrelease : z.exited.releaseFull [0, 1, 2, 3] = z.exited := releaseFull_of_none (y := z.exited) hbarriers _
  refine thread_leaves (known_flow h (by omega)) h ?_
  rw [effect_exit h]
  simp only [State.exitPath, ready_crew h]
  rw [show ({ z.x with exited := z.x.exited ||| z.mask, stack := z.x.stack.map (StackEntry.without z.mask) } : Crew) = z.exited from rfl,
    hrelease]
  exact endPath_onlyCrew hnext (.inl hw)

/-! ### `CBAR` -/

/-- The threads that have arrived at the barrier of a `CBAR`, its own among them. -/
def Issue.arrived (z : Issue) : Nat := mget 0 z.x.barriers (z.i.reg % 4) ||| z.mask

/-- The crew of a `CBAR`, its threads arrived. -/
def Issue.arriving (z : Issue) : Crew := { z.x with barriers := mset 0 z.x.barriers (z.i.reg % 4) z.arrived }

/-- The last threads to arrive release the barrier and go on. -/
theorem cbar_releases (h : s.Ready c z 7 5) (hfull : z.arrived ||| z.x.exited = 2 ^ z.x.width - 1) :
    s.Leaves z (.next (s.thread c 7 5)) { z.arriving.releaseBarrier (z.i.reg % 4) with path := some (z.next, z.mask) } := by
  have he : s.effect z =
      (s.issued z).setCrew z.core z.key { z.arriving.releaseBarrier (z.i.reg % 4) with path := some (z.next, z.mask) } := by
    rw [effect_cbar h]
    simp only [State.crewBarrier, ready_crew h]
    exact if_pos hfull
  exact thread_leaves (known_flow h (by omega)) h (he ▸ onlyCrew_of_seen (issued_unseen s z) (issued_cores s z) z _)

theorem cbar_overflows (h : s.Ready c z 7 5) (hfull : z.arrived ||| z.x.exited ≠ 2 ^ z.x.width - 1) (hdeep : 32 ≤ z.x.stack.length) :
    s.Faults z (.next (s.thread c 7 5)) 0x08 0 z.lead := by
  refine thread_faults (known_flow h (by omega)) h ?_
  rw [effect_cbar h]
  simp only [State.crewBarrier, ready_crew h]
  exact (if_neg hfull).trans (if_pos hdeep)

/-- Threads that arrive before the last wait on the stack, and another path runs. -/
theorem cbar_waits {p : Nat × Nat} {rest : List StackEntry} (h : s.Ready c z 7 5) (hfull : z.arrived ||| z.x.exited ≠ 2 ^ z.x.width - 1)
    (hdeep : z.x.stack.length < 32) (hmask : z.mask ≠ 0) (hst : takeRunnable (discardEmpty z.x.stack) = some (p, rest)) :
    s.Leaves z (.next (s.thread c 7 5))
      { z.arriving with path := some p, stack := .pending z.next z.mask (.barrier (z.i.reg % 4)) :: rest, bb := 0 } := by
  have he : s.effect z = s.endPath z
      { z.arriving with path := none, stack := .pending z.next z.mask (.barrier (z.i.reg % 4)) :: z.x.stack } .atWait := by
    rw [effect_cbar h]
    simp only [State.crewBarrier, ready_crew h]
    exact (if_neg hfull).trans (if_neg (Nat.not_le.2 hdeep))
  refine thread_leaves (known_flow h (by omega)) h (he ▸ endPath_onlyCrew (nextPath_runnable ?_) (.inl ?_))
  · rw [discardEmpty_pending _ _ hmask]
    exact takeRunnable_waiting rfl hst
  · simp [Issue.arriving, ready_running h]

end

/-- Settles O11: what runs next is the choice of R453 on the stack that the instruction leaves, and a complete barrier releases its paths. -/
theorem pathEndInstructions : Obligations.PathEndInstructions := by
  unfold Obligations.PathEndInstructions
  intro s c z x b st
  have hrun {op : Nat} (h : s.Ready c z 7 op) : z.x.state ≠ .waiting := by simp [ready_running h]
  refine ⟨fun h => ⟨fun p rest hst => ?_, fun m rest hst => ?_, fun hst hopen hstranded => ?_, fun a m rest hst ha => ?_, fun hst => ?_⟩,
    ?_, ?_⟩
  · exact join_leaves h (nextPath_runnable hst) (.inl (hrun h))
  · exact join_leaves h ((nextPath_join hst).trans (if_pos rfl)) (.inl (hrun h))
  · exact join_leaves h (nextPath_waits hst hopen (ready_running h)) (.inr hstranded)
  · exact join_faults h ((nextPath_join hst).trans (if_neg (Ne.symm ha)))
  · exact join_faults h (nextPath_empty hst)
  · intro h hbarriers left y
    refine ⟨fun hleft => ?_, fun p rest hleft => ?_, fun a m rest hleft => ?_⟩
    · exact exit_leaves h hbarriers (nextPath_empty (y := z.exited) hleft) (hrun h)
    · exact exit_leaves h hbarriers (nextPath_runnable (y := z.exited) hleft) (hrun h)
    · rw [hleft]
      exact exit_leaves h hbarriers (nextPath_join (y := z.exited) hleft) (hrun h)
  · intro h arrived bs
    exact ⟨cbar_releases h, cbar_overflows h, fun p rest hfull hdeep => cbar_waits h hfull hdeep⟩

end Sys2Proof.Machine
end

section
/-! Loads, stores and atomics (Table 4-9, classes 0x8 and 0x9, R126 to R130, R136, R209 to R214). -/

namespace Sys2Proof.Machine

open Sys2Proof

/-! ### Accesses of the crew's own scratch -/

section
variable {s t : State} {c : CrewId} {z : Issue} {op : Nat} {sa : Nat → Nat} {ts : List Nat}

/-- The access of a thread, before its translation. -/
def Issue.access (z : Issue) (th : Nat) : Acc := { t := th, ea := z.ea th, place := placeOf z.i.space (z.ea th) }

/-- The threads reach the crew's own scratch at these addresses, aligned, and none meets a bank that the cox stream takes (R127, R136, R211). -/
def Issue.OwnScratch (z : Issue) (k : Core) (sa : Nat → Nat) (ts : List Nat) : Prop :=
  ∀ th ∈ ts, placeOf z.i.space (z.ea th) = .scratch (sa th) ∧ z.ea th % 2 ^ z.i.size = 0 ∧ z.x.scratchBase ≤ sa th ∧
    sa th + 2 ^ z.i.size ≤ z.x.scratchBase + z.x.scratchSize ∧ sa th / 128 % 32 ∉ k.seq.banks

/-- No word that the threads read of scratch is poisoned, and none has an error to correct (R214). -/
def Issue.CleanScratch (z : Issue) (k : Core) (sa : Nat → Nat) (ts : List Nat) : Prop :=
  ∀ th ∈ ts, k.scratchPoisoned (sa th) (2 ^ z.i.size) = false ∧ k.scratchSoft = []

theorem Issue.OwnScratch.place {k : Core} {th : Nat} (h : z.OwnScratch k sa ts) (hth : th ∈ ts) : (z.access th).place = .scratch (sa th) :=
  (h th hth).1

theorem Issue.OwnScratch.scratchOk {k k' : Core} {th : Nat} (h : z.OwnScratch k sa ts) (hth : th ∈ ts) (load : Bool) :
    scratchOk k' z.x load (sa th) (2 ^ z.i.size) = true := by
  obtain ⟨-, -, hlow, hhigh, -⟩ := h th hth
  simp [Sys2Proof.Machine.scratchOk, hlow, hhigh]

/-- Accesses of scratch are not translated. -/
theorem xlateAll_scratch {who : Reader} {w : Requester} {p : Perm} {as acc : List Acc} (h : ∀ a ∈ as, ∃ sa, a.place = .scratch sa) :
    s.xlateAll who w p acc as = (s, some (acc ++ as)) := by
  induction as generalizing acc with
  | nil => simp [State.xlateAll]
  | cons a as ih =>
    obtain ⟨sa, ha⟩ := h a (by simp)
    simp only [State.xlateAll, ha]
    rw [ih fun b hb => h b (List.mem_cons_of_mem a hb), List.append_assoc, List.singleton_append]

/-- Accesses of the crew's own scratch pass every check (R136). -/
theorem checkAccess_scratch (w : Requester) (load : Bool) (p : Perm) (h : z.OwnScratch (s.core z.core) sa ts) :
    s.checkAccess z w load p ts = (s, .go (ts.map z.access)) := by
  have hplace : ∀ a ∈ ts.map z.access, ∃ sa, a.place = .scratch sa := by
    simp only [List.forall_mem_map]
    exact fun th hth => ⟨sa th, h.place hth⟩
  have hgood : firstBad (s.core z.core) z.x load z.i.accessBytes (ts.map z.access) = none := by
    have haligned : (ts.map z.access).find? (fun a => decide (a.ea % z.i.accessBytes ≠ 0)) = none := by
      simp only [List.find?_eq_none, List.forall_mem_map]
      intro th hth
      obtain ⟨-, halign, -⟩ := h th hth
      simp [Issue.access, Inst.accessBytes, halign]
    have hbounds : (ts.map z.access).find? (fun a => a.outOfBounds (s.core z.core) z.x load z.i.accessBytes) = none := by
      simp only [List.find?_eq_none, List.forall_mem_map]
      intro th hth
      simp only [Acc.outOfBounds, h.place hth]
      rw [Inst.accessBytes, h.scratchOk hth]
      exact Bool.false_ne_true
    simp only [firstBad, haligned, hbounds, Option.map_none]
  have hcollides : (s.core z.core).collides (ts.map z.access) = false := by
    simp only [Core.collides, banksOf, List.filterMap_map, List.any_eq_false, List.mem_filterMap, Function.comp_apply, decide_eq_true_eq,
      forall_exists_index, and_imp]
    intro b th hth hb
    obtain ⟨-, -, -, -, hbank⟩ := h th hth
    rw [h.place hth] at hb
    exact Option.some.inj hb ▸ hbank
  have hkept : (ts.map z.access).map (fun a => if p.w && a.bad.isNone && s.unwritable (s.ctx z.x.ctx).part a
      then { a with bad := some (0x03, a.ea) } else a) = ts.map z.access := by
    rw [List.map_map]
    refine List.map_congr_left fun th hth => if_neg ?_
    simp [State.unwritable, h.place hth]
  simp only [State.checkAccess]
  rw [show (ts.map fun t => ({ t, ea := z.ea t, place := placeOf z.i.space (z.ea t) } : Acc)) = ts.map z.access from rfl, hgood]
  simp only [xlateAll_scratch hplace, List.nil_append, hkept, hcollides, Bool.and_false, Bool.false_eq_true, if_false]

theorem firstFault_of_good {as : List Acc} (h : ∀ a ∈ as, a.bad = none) : firstFault as = none := by
  unfold firstFault
  extract_lets found
  have hfound (code : Nat) : found code = none := List.findSome?_eq_none_iff.2 fun a ha => by simp [h a ha]
  simp only [hfound]

/-- What the threads read of the crew's own scratch. -/
theorem readAll_scratch {m : Master} {seen : List Nat} {acc : List (Acc × List Byte)} (h : z.OwnScratch (s.core z.core) sa ts)
    (hclean : z.CleanScratch (s.core z.core) sa ts) (hacc : ∀ a ∈ acc, a.1.bad = none) :
    s.readAll z m (2 ^ z.i.size) seen acc (ts.map z.access) =
      (s, .data (acc ++ ts.map (fun th => (z.access th, (s.core z.core).scratchRead (sa th) (2 ^ z.i.size))))) := by
  induction ts generalizing acc with
  | nil =>
    have hgood : firstFault (acc.map (·.1)) = none := firstFault_of_good (by simpa using hacc)
    simp only [List.map_nil, State.readAll, hgood, List.append_nil]
  | cons th ts ih =>
    have hown : z.OwnScratch (s.core z.core) sa ts := fun u hu => h u (List.mem_cons_of_mem th hu)
    obtain ⟨hpoison, hsoft⟩ := hclean th (List.mem_cons_self ..)
    have hcorrect : s.scratchCorrect z.core (sa th) (2 ^ z.i.size) = s := by simp [State.scratchCorrect, hsoft]
    have hbad : (z.access th).bad = none := rfl
    simp only [List.map_cons, State.readAll, hbad, h.place (List.mem_cons_self ..), h.scratchOk (List.mem_cons_self ..), if_true, hcorrect,
      hpoison, Option.isSome_none, Bool.false_eq_true, if_false, Bool.and_false]
    rw [ih hown (fun u hu => hclean u (List.mem_cons_of_mem th hu)) (by simpa [or_imp, forall_and, hbad] using hacc), List.append_assoc,
      List.singleton_append]

/-! ### States that differ in what is seen -/

theorem State.OnlyCrew.of_seen {u : State} {y : Crew} (h : t.OnlyCrew u z y) (hunseen : t.unseen = s.unseen) (hcores : t.cores = s.cores) :
    s.OnlyCrew u z y := by
  obtain ⟨hoff, hcore, hother⟩ := h
  refine ⟨hoff.trans (offCores_of_unseen hunseen), ?_, fun k hk => (hother k hk).trans (core_of_cores hcores k)⟩
  rw [hcore, core_of_cores hcores]

/-- Where a reader holds nothing back, giving up what it holds changes nothing, whatever else of the state is different. -/
theorem dropHeld_of_segs {r : Reader} (h : s.dropHeld r = s) (hsegs : t.segs = s.segs) : t.dropHeld r = t := by
  unfold State.dropHeld at h ⊢
  rw [hsegs]
  split
  next hany =>
    rw [if_pos hany] at h
    have hmap := congrArg State.segs h
    dsimp only at hmap
    rw [hmap, ← hsegs]
  next => rfl

theorem dropHeld_stalled (r : Reader) : (s.dropHeld r).stalled = s.stalled := by
  unfold State.dropHeld
  split <;> rfl

theorem dropHeld_cores (r : Reader) : (s.dropHeld r).cores = s.cores := by
  unfold State.dropHeld
  split <;> rfl

theorem countL1_unseen (as : List Acc) : (s.countL1 z as).unseen = s.unseen := by simp [State.countL1]

theorem countL1_cores (as : List Acc) : (s.countL1 z as).cores = s.cores := by simp [State.countL1]

theorem finish_stalled (ws : List RegWrite) (flags : Nat) (load : Bool) : (s.finish z ws flags load).stalled = s.stalled := by
  have hissued : (s.issued z).stalled = s.stalled :=
    (congrArg State.stalled (issued_unseen s z) :)
  unfold State.finish State.modCrew
  split
  · exact hissued
  · exact hissued

/-! ### Loads -/

theorem known_mem (h : s.Ready c z 8 op) (hop : op ≤ 3) : z.i.known = true := by
  obtain ⟨hcls, hop'⟩ := ready_cls h
  simp [Inst.known, hcls, hop', hop]

theorem effect_load (h : s.Ready c z 8 0) : s.effect z = s.load z := by
  obtain ⟨hcls, hop⟩ := ready_cls h
  simp only [State.effect, hcls, hop]

theorem effect_store (h : s.Ready c z 8 1) : s.effect z = s.store z := by
  obtain ⟨hcls, hop⟩ := ready_cls h
  simp only [State.effect, hcls, hop]

theorem effect_loadUniform (h : s.Ready c z 8 2) : s.effect z = s.loadUniform z := by
  obtain ⟨hcls, hop⟩ := ready_cls h
  simp only [State.effect, hcls, hop]

theorem effect_fence (h : s.Ready c z 8 3) : s.effect z = s.advance z := by
  obtain ⟨hcls, hop⟩ := ready_cls h
  simp only [State.effect, hcls, hop]

/-- A load whose accesses are read has its values on their way to its registers. -/
theorem load_of_data {s1 s2 : State} {as : List Acc} {ds : List (Acc × List Byte)}
    (hcheck : s.checkAccess z (z.requester z.i.na) true { r := true } z.threads = (s1, .go as))
    (hread : (s1.countL1 z as).readAll z (z.requester z.i.na).master (2 ^ z.i.size) [] [] as = (s2, .data ds)) :
    s.load z = (s2.dropHeld (.crew z.core z.key)).finish z
      (ds.flatMap (fun d => vWrites d.1.t z.i.d (sizeRegs z.i.size) (loadValue z.i d.2))) 0 true := by
  simp only [State.load, hcheck, Inst.accessBytes, hread]

theorem scratchRead_length (k : Core) (a n : Nat) : (k.scratchRead a n).length = n := by simp [Core.scratchRead]

/-- What is read of the crew's own scratch after the counts of the L1 have been taken. -/
theorem readAll_seen {m : Master} (hunseen : t.unseen = s.unseen) (hcores : t.cores = s.cores) (h : z.OwnScratch (s.core z.core) sa ts)
    (hclean : z.CleanScratch (s.core z.core) sa ts) (hheld : s.dropHeld (.crew z.core z.key) = s) :
    t.readAll z m (2 ^ z.i.size) [] [] (ts.map z.access) =
      (t, .data (ts.map (fun th => (z.access th, (s.core z.core).scratchRead (sa th) (2 ^ z.i.size))))) ∧
    t.dropHeld (.crew z.core z.key) = t := by
  have hcore := core_of_cores hcores z.core
  have hread := readAll_scratch (s := t) (m := m) (seen := []) (acc := []) (by rwa [hcore]) (by rwa [hcore]) (by simp)
  rw [hcore] at hread
  exact ⟨hread, dropHeld_of_segs hheld (congrArg State.segs hunseen :)⟩

theorem finish_onlyCrew_seen (hunseen : t.unseen = s.unseen) (hcores : t.cores = s.cores) (hcrew : s.crew z.core z.key = some z.x)
    (ws : List RegWrite) (load : Bool) : s.OnlyCrew (t.finish z ws 0 load) z (z.after (s.core z.core).clock ws 0 load) := by
  have honly := finish_onlyCrew ((crew_of_cores hcores z.core z.key).trans hcrew) ws 0 load
  rw [core_of_cores hcores] at honly
  exact honly.of_seen hunseen hcores

/-- A load from the crew's own scratch (R126 to R128). -/
theorem load_scratch (hcrew : s.crew z.core z.key = some z.x) (h : z.OwnScratch (s.core z.core) sa z.threads)
    (hclean : z.CleanScratch (s.core z.core) sa z.threads) (hheld : s.dropHeld (.crew z.core z.key) = s) :
    s.OnlyCrew (s.load z) z (z.after (s.core z.core).clock (z.results (sizeRegs z.i.size)
      (fun th => loadValue z.i ((s.core z.core).scratchRead (sa th) (2 ^ z.i.size)))) 0 true) := by
  have hunseen := countL1_unseen (s := s) (z := z) (z.threads.map z.access)
  have hcores := countL1_cores (s := s) (z := z) (z.threads.map z.access)
  obtain ⟨hread, hdrop⟩ := readAll_seen (m := (z.requester z.i.na).master) hunseen hcores h hclean hheld
  rw [load_of_data (checkAccess_scratch _ _ _ h) hread, hdrop, List.flatMap_map]
  exact finish_onlyCrew_seen hunseen hcores hcrew _ true

/-- What a load brings is on its way to its registers. -/
theorem finish_delivers {ws : List RegWrite} {y : Crew} (load : Bool) (hcrew : s.crew z.core z.key = some y) :
    ∃ y', (s.finish z ws 0 load).crew z.core z.key = some y' ∧ y'.path = some (z.next, z.mask) ∧ ∀ w ∈ ws, ∃ r ∈ y'.outs, w ∈ r.writes := by
  have hcrew' := (crew_of_cores (issued_cores s z) z.core z.key).trans hcrew
  unfold State.finish
  rw [modCrew_of_crew _ hcrew']
  refine ⟨_, setCrew_crew_same _ _ _ _, rfl, fun w hw => ?_⟩
  rw [if_neg (List.ne_nil_of_mem hw)]
  exact ⟨_, List.mem_append_right _ (List.mem_singleton_self _), hw⟩

/-- A load whose accesses are read has its path behind it and its values on their way. -/
theorem load_delivers {s1 s2 : State} {as : List Acc} {ds : List (Acc × List Byte)} {y : Crew} (h : s.Ready c z 8 0)
    (hcheck : s.checkAccess z (z.requester z.i.na) true { r := true } z.threads = (s1, .go as))
    (hread : (s1.countL1 z as).readAll z (z.requester z.i.na).master (2 ^ z.i.size) [] [] as = (s2, .data ds))
    (hcrew : s2.crew z.core z.key = some y) (hserved : s2.stalled = false) :
    ∃ y', (s.thread c 8 0).crew z.core z.key = some y' ∧ y'.path = some (z.next, z.mask) ∧
      ∀ d ∈ ds, ∀ w ∈ vWrites d.1.t z.i.d (sizeRegs z.i.size) (loadValue z.i d.2), ∃ r ∈ y'.outs, w ∈ r.writes := by
  have heffect := (effect_load h).trans (load_of_data hcheck hread)
  rw [thread_of_served (known_mem h (by omega)) h (by rw [heffect, finish_stalled, dropHeld_stalled, hserved]), heffect]
  obtain ⟨y', hy, hpath, houts⟩ := finish_delivers (ws := ds.flatMap (fun d =>
    vWrites d.1.t z.i.d (sizeRegs z.i.size) (loadValue z.i d.2))) true ((crew_of_cores (dropHeld_cores (.crew z.core z.key)) _ _).trans hcrew)
  exact ⟨y', hy, hpath, fun d hd w hw => houts w (List.mem_flatMap.2 ⟨d, hd, hw⟩)⟩

/-- `LDU` reads the doubleword of the path's lowest thread (R128). -/
theorem loadUniform_scratch (hcrew : s.crew z.core z.key = some z.x) (hsize : z.i.size = 3) (h : z.OwnScratch (s.core z.core) sa [z.lead])
    (hclean : z.CleanScratch (s.core z.core) sa [z.lead]) (hheld : s.dropHeld (.crew z.core z.key) = s) :
    s.OnlyCrew (s.loadUniform z) z (z.after (s.core z.core).clock
      [.u z.i.d (BitVec.ofNat 64 (ofBytes ((s.core z.core).scratchRead (sa z.lead) (2 ^ z.i.size))))] 0 true) := by
  have hunseen := countL1_unseen (s := s) (z := z) ([z.lead].map z.access)
  have hcores := countL1_cores (s := s) (z := z) ([z.lead].map z.access)
  obtain ⟨hread, hdrop⟩ := readAll_seen (m := (z.requester z.i.na).master) hunseen hcores h hclean hheld
  rw [hsize, show 2 ^ 3 = 8 from rfl] at hread
  simp only [State.loadUniform, checkAccess_scratch _ _ _ h, hread]
  rw [hdrop, hsize]
  exact finish_onlyCrew_seen hunseen hcores hcrew _ true

theorem size_of_ldu (h : s.Ready c z 8 2) : z.i.size = 3 := by
  obtain ⟨hcls, hop⟩ := ready_cls h
  have hlegal := ready_legal h
  simp only [Inst.legal, hcls, legalMem, hop, Bool.and_eq_true, decide_eq_true_eq] at hlegal
  obtain ⟨⟨⟨⟨⟨⟨-, hsize⟩, -⟩, -⟩, -⟩, -⟩, -⟩ := hlegal
  exact hsize

/-! ### Stores to the crew's own scratch -/

/-- From s to t only the scratch of a core has changed, to m, beside what is seen of the work. -/
def State.HoldsScratch (s t : State) (core : Nat) (m : Map Byte) : Prop :=
  t.offCores = s.offCores ∧ t.core core = { s.core core with scratch := m } ∧ ∀ j, j ≠ core → t.core j = s.core j

/-- From s to t only the scratch of the core of z has changed, to m, and its crew, to y. -/
def State.OnlyScratch (s t : State) (z : Issue) (m : Map Byte) (y : Crew) : Prop :=
  t.offCores = s.offCores ∧ t.core z.core = { s.core z.core with scratch := m, crews := minsert (s.core z.core).crews z.key y } ∧
    ∀ j, j ≠ z.core → t.core j = s.core j

theorem State.HoldsScratch.refl (s : State) (core : Nat) : s.HoldsScratch s core (s.core core).scratch := ⟨rfl, rfl, fun _ _ => rfl⟩

theorem State.HoldsScratch.crew {m : Map Byte} {core key : Nat} (h : s.HoldsScratch t core m) : t.crew core key = s.crew core key := by
  obtain ⟨-, hcore, -⟩ := h
  simp [State.crew, hcore]

theorem crews_ne_of_crew {core key : Nat} {x : Crew} (h : s.crew core key = some x) : (s.core core).crews ≠ [] := by
  intro hnil
  simp [State.crew, hnil] at h

/-- A core that holds a crew keeps its place in the list when it is changed. -/
theorem modCore_of_crews {core : Nat} {k : Core} (hk : k.crews ≠ []) :
    s.setCore core k = { s with cores := minsert s.cores core k } := by
  have hne : k ≠ {} := fun he => hk (congrArg Core.crews he)
  simp [State.setCore, mset, hne]

theorem State.HoldsScratch.store {m : Map Byte} {core key : Nat} {x : Crew} (h : s.HoldsScratch t core m) (runs : List (Nat × List Byte))
    (hcrew : s.crew core key = some x) (hpoison : (s.core core).scratchPoison = []) (hsoft : (s.core core).scratchSoft = []) :
    s.HoldsScratch (t.modCore core (fun k => k.scratchStore runs)) core (writeRuns m 0 runs) := by
  obtain ⟨hoff, hcore, hother⟩ := h
  have hstored : (t.core core).scratchStore runs = { s.core core with scratch := writeRuns m 0 runs } := by
    simp [hcore, Core.scratchStore, hpoison, hsoft]
  have hcrews : ({ s.core core with scratch := writeRuns m 0 runs } : Core).crews ≠ [] := crews_ne_of_crew hcrew
  rw [State.modCore, hstored, modCore_of_crews hcrews]
  exact ⟨hoff, by simp [State.core], fun j hj => (mget_minsert_other _ _ _ _ _ hj).trans (hother j hj)⟩

theorem State.HoldsScratch.finish {m : Map Byte} (h : s.HoldsScratch t z.core m) (hcrew : s.crew z.core z.key = some z.x)
    (ws : List RegWrite) (flags : Nat) (load : Bool) :
    s.OnlyScratch (t.finish z ws flags load) z m (z.after (s.core z.core).clock ws flags load) := by
  have honly := finish_onlyCrew (h.crew.trans hcrew) ws flags load
  obtain ⟨hoff, hcore, hother⟩ := h
  obtain ⟨hoff', hcore', hother'⟩ := honly
  refine ⟨hoff'.trans hoff, ?_, fun j hj => (hother' j hj).trans (hother j hj)⟩
  rw [hcore', hcore]

theorem State.OnlyScratch.stalled {m : Map Byte} {y : Crew} (h : s.OnlyScratch t z m y) : t.stalled = s.stalled :=
  (congrArg State.stalled h.1 :)

/-- Accesses of scratch name no line of memory, and no other global place. -/
theorem storeAll_scratch {f : Nat → List Byte} (h : z.OwnScratch (s.core z.core) sa ts) :
    s.storeAll z (ts.map (fun th => (z.access th, f th))) =
      if ts = [] then s else s.modCore z.core (fun k => k.scratchStore (ts.map (fun th => (sa th, f th)))) := by
  have hlines : (ts.map (fun th => (z.access th, f th))).filterMap (fun w => s.regionLine (s.ctx z.x.ctx).part w.1) = [] := by
    rw [List.filterMap_eq_nil_iff]
    simp only [List.forall_mem_map]
    intro th hth
    simp only [State.regionLine, h.place hth]
  have hruns : (ts.map (fun th => (z.access th, f th))).filterMap
      (fun w => match w.1.place with | .scratch a => some (a, w.2) | _ => none) = ts.map (fun th => (sa th, f th)) := by
    rw [List.filterMap_map, ← List.filterMap_eq_map]
    refine List.filterMap_congr fun th hth => ?_
    simp only [Function.comp_apply, h.place hth]
  have hglobal : (ts.map (fun th => (z.access th, f th))).filter
      (fun w => match w.1.place with | .global _ => (s.regionLine (s.ctx z.x.ctx).part w.1).isNone | _ => false) = [] := by
    rw [List.filter_eq_nil_iff]
    simp only [List.forall_mem_map]
    intro th hth
    simp [h.place hth]
  unfold State.storeAll
  extract_lets q lines t runs t'
  have ht : t = s := by
    unfold t lines
    rw [hlines]
    rfl
  have hruns' : runs = ts.map (fun th => (sa th, f th)) := hruns
  refine (congrArg (List.foldl _ t') hglobal).trans ?_
  rw [List.foldl_nil]
  unfold t'
  rw [ht, hruns']
  simp only [List.map_eq_nil_iff]

theorem writeRuns_map (m : Map Byte) (f : Nat → List Byte) (ts : List Nat) :
    writeRuns m 0 (ts.map (fun th => (sa th, f th))) = ts.foldl (fun m th => writeBytes m (sa th) (f th)) m := by
  simp [writeRuns, List.foldl_map]

/-- A store to the crew's own scratch (R126 to R128, R214). -/
theorem store_scratch (hcrew : s.crew z.core z.key = some z.x) (h : z.OwnScratch (s.core z.core) sa z.threads)
    (hpoison : (s.core z.core).scratchPoison = []) (hsoft : (s.core z.core).scratchSoft = []) (hheld : s.dropHeld (.crew z.core z.key) = s) :
    s.OnlyScratch (s.store z) z
      (z.threads.foldl (fun m th => writeBytes m (sa th) (toBytes (2 ^ z.i.size) (z.x.vreg th z.i.b (sizeRegs z.i.size)))) (s.core z.core).scratch)
      (z.after (s.core z.core).clock [] 0) := by
  have hgood : firstFault (z.threads.map z.access) = none := firstFault_of_good (by simp [Issue.access])
  have hstore : s.store z = (s.storeAll z (z.threads.map (fun th =>
      (z.access th, toBytes (2 ^ z.i.size) (z.x.vreg th z.i.b (sizeRegs z.i.size)))))).advance z := by
    simp only [State.store, checkAccess_scratch _ _ _ h, hheld, hgood, List.map_map]
    rfl
  rw [hstore, storeAll_scratch h]
  refine State.HoldsScratch.finish ?_ hcrew [] 0 false
  split
  next hnil =>
    rw [hnil]
    exact .refl s _
  next =>
    rw [← writeRuns_map]
    exact (State.HoldsScratch.refl s _).store _ hcrew hpoison hsoft

/-- A store whose accesses pass their checks stores thread by thread. -/
theorem store_of_good {s1 : State} {as : List Acc} (h : s.Ready c z 8 1)
    (hcheck : s.checkAccess z (z.requester false) false { w := true } z.threads = (s1, .go as)) (hgood : ∀ a ∈ as, a.bad = none)
    (hserved : (((s1.dropHeld (.crew z.core z.key)).storeAll z
      (as.map (fun a => (a, toBytes (2 ^ z.i.size) (z.x.vreg a.t z.i.b (sizeRegs z.i.size)))))).advance z).stalled = false) :
    s.thread c 8 1 = ((s1.dropHeld (.crew z.core z.key)).storeAll z
      (as.map (fun a => (a, toBytes (2 ^ z.i.size) (z.x.vreg a.t z.i.b (sizeRegs z.i.size)))))).advance z := by
  have heffect : s.effect z = ((s1.dropHeld (.crew z.core z.key)).storeAll z
      (as.map (fun a => (a, toBytes (2 ^ z.i.size) (z.x.vreg a.t z.i.b (sizeRegs z.i.size)))))).advance z := by
    simp only [effect_store h, State.store, hcheck, firstFault_of_good hgood]
    rfl
  rw [thread_of_served (known_mem h (by omega)) h (by rw [heffect, hserved]), heffect]

/-- A store that meets a fault faults with the one that R136 reports. -/
theorem store_faults {s1 : State} {as : List Acc} {f : Nat × Nat × Nat} (h : s.Ready c z 8 1)
    (hcheck : s.checkAccess z (z.requester false) false { w := true } z.threads = (s1, .go as)) (hserved : s1.stalled = false)
    (hheld : s1.dropHeld (.crew z.core z.key) = s1) (hcrew : s1.crew z.core z.key = some z.x) (hhbm : s1.hbm = s.hbm)
    (hslots : s1.slots = s.slots) (hcores : s1.cores = s.cores) (hfault : firstFault as = some f) :
    s.Faults z (.next (s.thread c 8 1)) f.1 f.2.1 f.2.2 := by
  have heffect : s.effect z = s1.trap z f.1 f.2.1 f.2.2 := by
    simp only [effect_store h, State.store, hcheck, hheld, hfault]
  rw [thread_of_served (known_mem h (by omega)) h
    (by rw [heffect, trap_stalled _ _ _ hcrew (ready_running h), hserved]), heffect]
  obtain ⟨t, ht, hcrew', hhbm', hslots', hscratch⟩ := trap_faults f.1 f.2.1 f.2.2 hcrew (ready_running h)
  exact ⟨t, ht, hcrew', hhbm'.trans hhbm, hslots'.trans hslots, fun k => (hscratch k).trans (by rw [core_of_cores hcores])⟩

end

/-- Settles O12: accesses of the crew's own scratch pass every check and are read or written there, thread by thread; others leave what their
checks and reads bring. -/
theorem memoryInstructions : Obligations.MemoryInstructions := by
  unfold Obligations.MemoryInstructions
  intro s c z sa i x k n own value extended
  have hown {ts : List Nat} (h : own ts) : z.OwnScratch (s.core z.core) sa ts := fun th hth => by
    obtain ⟨hplace, halign, hlow, hhigh, hbank, -⟩ := h th hth
    exact ⟨hplace, halign, hlow, hhigh, hbank⟩
  have hclean {ts : List Nat} (h : own ts) : z.CleanScratch (s.core z.core) sa ts := fun th hth => by
    obtain ⟨-, -, -, -, -, hclean⟩ := h th hth
    exact hclean
  refine ⟨fun h hscratch hheld => ?_, fun h s1 as s2 ds y hcheck hread hcrew hserved => ?_, fun h hscratch hpoison hsoft hheld => ?_,
    fun h s1 as hcheck hgood => ?_, fun f s1 as hcheck hserved hheld hcrew hhbm hslots hcores hfault h => ?_,
    fun h hscratch hheld => ?_, fun h => ?_⟩
  · have hleaves := load_scratch (ready_crew h) (hown hscratch) (hclean hscratch) hheld
    simp only [loadValue, scratchRead_length] at hleaves
    exact thread_leaves (known_mem h (by omega)) h (effect_load h ▸ hleaves)
  · exact ⟨_, rfl, load_delivers h hcheck hread hcrew hserved⟩
  · have hleaves := store_scratch (ready_crew h) (hown hscratch) hpoison hsoft hheld
    refine ⟨_, rfl, ?_⟩
    rw [thread_of_served (known_mem h (by omega)) h (by rw [effect_store h, hleaves.stalled, ready_stalled h]), effect_store h]
    exact hleaves
  · intro t hserved
    exact congrArg (fun t => (.next t : Outcome)) (store_of_good h hcheck hgood hserved)
  · exact store_faults h hcheck hserved hheld hcrew hhbm hslots hcores hfault
  · exact thread_leaves (known_mem h (by omega)) h
      (effect_loadUniform h ▸ loadUniform_scratch (ready_crew h) (size_of_ldu h) (hown hscratch) (hclean hscratch) hheld)
  · exact thread_leaves (known_mem h (by omega)) h (effect_fence h ▸ advance_onlyCrew (ready_crew h))

end Sys2Proof.Machine
end

section
/-! Atomics (Table 4-9, class 0x9, R129, R130). -/

namespace Sys2Proof.Machine

open Sys2Proof

section
variable {s : State} {c : CrewId} {z : Issue} {op : Nat} {sa : Nat → Nat}

theorem known_atomic (h : s.Ready c z 9 op) (hop : op ≤ 9) : z.i.known = true := by
  obtain ⟨hcls, hop'⟩ := ready_cls h
  simp [Inst.known, hcls, hop', hop]

theorem effect_atomic (h : s.Ready c z 9 op) : s.effect z = s.atomic z := by
  obtain ⟨hcls, -⟩ := ready_cls h
  simp only [State.effect, hcls]

/-! ### The order of the operations -/

/-- An order of the module's choice takes every access once, and changes nothing but the free values. -/
theorem shuffleAccs_spec (s : State) (f : Nat) (as : List Acc) (hf : as.length ≤ f) :
    (∃ v, (s.shuffleAccs f as).1 = { s with free := v }) ∧ (s.shuffleAccs f as).2.Perm as := by
  induction f generalizing s as with
  | zero => exact ⟨⟨s.free, rfl⟩, .refl _⟩
  | succ f ih =>
    cases as with
    | nil => exact ⟨⟨s.free, rfl⟩, .refl _⟩
    | cons a rest =>
      have hpick := pick_lt s (a :: rest).length (by simp)
      simp only [State.shuffleAccs]
      generalize (s.pick (a :: rest).length).2 = k at hpick
      have hlen : (if k = 0 then rest else (a :: rest).eraseIdx k).length ≤ f := by
        split
        · simpa using hf
        · rw [List.length_eraseIdx, if_pos hpick]
          simpa using hf
      have hperm : ((a :: rest).getD k a :: if k = 0 then rest else (a :: rest).eraseIdx k).Perm (a :: rest) := by
        split
        next hk => simp [hk]
        next hk =>
          rw [List.getD_eq_getElem _ _ hpick]
          exact List.getElem_cons_eraseIdx_perm hpick
      obtain ⟨⟨v, hv⟩, hrest⟩ := ih (s.pick (a :: rest).length).1 _ hlen
      exact ⟨⟨v, hv⟩, (hrest.cons _).trans hperm⟩

/-! ### What an atomic does -/

/-- Under `ORDERED_ATOMICS` an atomic is not performed while an earlier crew of its launch is there (R130). -/
theorem atomic_waits (h : s.Ready c z 9 op) (hop : op ≤ 9) (hordered : bit z.options 2 = true)
    (hearlier : s.earlierCrew z.x.launch z.x.idx = true) : s.thread c 9 op = s := by
  have heffect : s.effect z = s := by
    rw [effect_atomic h, State.atomic]
    exact if_pos (by simp [hordered, hearlier])
  rw [thread_of_served (known_atomic h hop) h (by rw [heffect, ready_stalled h]), heffect]

/-- The lines of regions that an atomic names, each once. -/
def State.atomicLines (s : State) (z : Issue) (as : List Acc) : List Nat := (as.filterMap (s.regionLine (s.ctx z.x.ctx).part)).eraseDups

/-- The state in which the homes of an atomic's lines have taken it (Table 8-9). -/
def State.atomicTaken (s : State) (z : Issue) (as : List Acc) : State :=
  (s.atomicLines z as).foldl (fun s' l => s'.crewWrite z.core (s.ctx z.x.ctx).part (l * 128) false) s

/-- An atomic whose accesses pass their checks and are read is performed access by access: in their order under `ORDERED_ATOMICS` and in
scratch, else in an order of the module's choice. -/
theorem atomic_of_data {s1 s2 : State} {as : List Acc} {ds : List (Acc × List Byte)}
    (hturn : bit z.options 2 = true → s.earlierCrew z.x.launch z.x.idx = false)
    (hcheck : s.checkAccess z (z.requester true) false { r := true, w := true } z.threads = (s1, .go as)) (hgood : ∀ a ∈ as, a.bad = none)
    (hread : (s1.atomicTaken z as).readAll z (z.requester true).master (2 ^ z.i.size)
      ((s1.atomicLines z as).map (fun l => lineKey (s1.ctx z.x.ctx).part (l * 128))) [] as = (s2, .data ds)) :
    s.atomic z =
      let o := if bit z.options 2 || as.any (fun a => match a.place with | .scratch _ => true | _ => false) then (s2, as)
        else s2.shuffleAccs as.length as
      let r := (o.1.dropHeld (.crew z.core z.key)).atomicAll z (2 ^ z.i.size) ds [] o.2
      r.1.finish z r.2 0 true := by
  have hturn' : ¬ ((bit z.options 2 && s.earlierCrew z.x.launch z.x.idx) = true) := by
    rw [Bool.and_eq_true]
    rintro ⟨hordered, hearlier⟩
    rw [hturn hordered] at hearlier
    cases hearlier
  have hlines : (as.filterMap (fun a => if a.bad.isNone then s1.regionLine (s1.ctx z.x.ctx).part a else none)).eraseDups =
      s1.atomicLines z as := by
    rw [State.atomicLines]
    congr 1
    exact List.filterMap_congr fun a ha => by simp [hgood a ha]
  rw [State.atomic]
  refine (if_neg hturn').trans ?_
  simp only [hcheck, hlines, firstFault_of_good hgood, Option.any_none, Bool.false_eq_true, if_false]
  rw [show (s1.atomicLines z as).foldl (fun s' l => s'.crewWrite z.core (s1.ctx z.x.ctx).part (l * 128) false) s1 = s1.atomicTaken z as from rfl]
  simp only [Inst.accessBytes, hread] <;> rfl

/-- An atomic is performed in an order of its accesses, which is their own under `ORDERED_ATOMICS` (R129, R130). -/
theorem atomic_performs {s1 s2 : State} {as : List Acc} {ds : List (Acc × List Byte)} (h : s.Ready c z 9 op) (hop : op ≤ 9)
    (hturn : bit z.options 2 = true → s.earlierCrew z.x.launch z.x.idx = false)
    (hcheck : s.checkAccess z (z.requester true) false { r := true, w := true } z.threads = (s1, .go as)) (hgood : ∀ a ∈ as, a.bad = none)
    (hread : (s1.atomicTaken z as).readAll z (z.requester true).master (2 ^ z.i.size)
      ((s1.atomicLines z as).map (fun l => lineKey (s1.ctx z.x.ctx).part (l * 128))) [] as = (s2, .data ds)) :
    ∃ v order, order.Perm as ∧ (bit z.options 2 = true → order = as) ∧
      let r := ({ s2 with free := v }.dropHeld (.crew z.core z.key)).atomicAll z (2 ^ z.i.size) ds [] order
      (r.1.stalled = false → s.thread c 9 op = r.1.finish z r.2 0 true) := by
  have heffect := (effect_atomic h).trans (atomic_of_data hturn hcheck hgood hread)
  have hserved {t : State} {ws : List RegWrite} (he : s.effect z = t.finish z ws 0 true) (hst : t.stalled = false) :
      s.thread c 9 op = t.finish z ws 0 true := by
    rw [thread_of_served (known_atomic h hop) h (by rw [he, finish_stalled, hst]), he]
  dsimp only at heffect
  split at heffect
  next => exact ⟨s2.free, as, .refl _, fun _ => rfl, hserved heffect⟩
  next hfree =>
    obtain ⟨⟨v, hv⟩, hperm⟩ := shuffleAccs_spec s2 as.length as (Nat.le_refl _)
    rw [hv] at heffect
    refine ⟨v, _, hperm, fun hordered => ?_, hserved heffect⟩
    simp [hordered] at hfree

/-! ### Atomics on the crew's own scratch -/

/-- The word of scratch that a thread names. -/
def scratchWord (sa : Nat → Nat) (n : Nat) (m : Map Byte) (th : Nat) : Nat :=
  ofBytes ((List.range n).map (fun j => mget 0 m ((sa th + j) % 0x80000)))

/-- Scratch after an operation of a thread, and the writes of its old values. -/
def Issue.takeWord (z : Issue) (sa : Nat → Nat) (f : Nat → Nat → Nat → Option Nat) (e : Map Byte × List RegWrite) (th : Nat) :
    Map Byte × List RegWrite :=
  let n := 2 ^ z.i.size
  let r := sizeRegs z.i.size
  (match f (scratchWord sa n e.1 th) (z.x.vreg th z.i.b r) (z.x.vreg th z.i.c r) with
    | some v => writeBytes e.1 (sa th) (toBytes n v)
    | none => e.1, e.2 ++ vWrites th z.i.d r (scratchWord sa n e.1 th))

/-- The operations of an atomic on the crew's own scratch, thread after thread. -/
theorem atomicAll_scratch {t : State} {x : Crew} {m : Map Byte} {ws : List RegWrite} {host : List (Acc × List Byte)} {ts : List Nat}
    (h : s.HoldsScratch t z.core m) (hplace : ∀ th ∈ ts, (z.access th).place = .scratch (sa th))
    (hcrew : s.crew z.core z.key = some x) (hpoison : (s.core z.core).scratchPoison = []) (hsoft : (s.core z.core).scratchSoft = []) :
    let after := ts.foldl (z.takeWord sa (atomicOp z.i.op (2 ^ z.i.size) z.i.sgnM)) (m, ws)
    let r := t.atomicAll z (2 ^ z.i.size) host ws (ts.map z.access)
    s.HoldsScratch r.1 z.core after.1 ∧ r.2 = after.2 := by
  induction ts generalizing t m ws with
  | nil => exact ⟨h, rfl⟩
  | cons th ts ih =>
    have hth := hplace th (List.mem_cons_self ..)
    have hold : t.holds z (2 ^ z.i.size) host (z.access th) = scratchWord sa (2 ^ z.i.size) m th := by
      obtain ⟨-, hcore, -⟩ := h
      simp only [State.holds, hth, hcore]
      rfl
    have hrest := fun (u : Nat) (hu : u ∈ ts) => hplace u (List.mem_cons_of_mem th hu)
    have hthread : (z.access th).t = th := rfl
    simp only [List.map_cons, List.foldl_cons, State.atomicAll, hold, hthread]
    cases hv : atomicOp z.i.op (2 ^ z.i.size) z.i.sgnM (scratchWord sa (2 ^ z.i.size) m th)
        (z.x.vreg th z.i.b (sizeRegs z.i.size)) (z.x.vreg th z.i.c (sizeRegs z.i.size)) with
    | none =>
      have htake : z.takeWord sa (atomicOp z.i.op (2 ^ z.i.size) z.i.sgnM) (m, ws) th =
          (m, ws ++ vWrites th z.i.d (sizeRegs z.i.size) (scratchWord sa (2 ^ z.i.size) m th)) := by
        simp only [Issue.takeWord, hv]
      rw [htake]
      exact ih h hrest
    | some v =>
      have htake : z.takeWord sa (atomicOp z.i.op (2 ^ z.i.size) z.i.sgnM) (m, ws) th =
          (writeBytes m (sa th) (toBytes (2 ^ z.i.size) v),
            ws ++ vWrites th z.i.d (sizeRegs z.i.size) (scratchWord sa (2 ^ z.i.size) m th)) := by
        simp only [Issue.takeWord, hv]
      have hwrite := h.store [(sa th, toBytes (2 ^ z.i.size) v)] hcrew hpoison hsoft
      rw [htake]
      simp only [State.writeAcc, hth]
      refine ih ?_ hrest
      simpa [writeRuns, Core.scratchWrite] using hwrite

/-- An atomic on the crew's own scratch takes each thread's word in turn (R129, R130). -/
theorem atomic_scratch (hcrew : s.crew z.core z.key = some z.x) (h : z.OwnScratch (s.core z.core) sa z.threads) (hsome : z.threads ≠ [])
    (hpoison : (s.core z.core).scratchPoison = []) (hsoft : (s.core z.core).scratchSoft = []) (hheld : s.dropHeld (.crew z.core z.key) = s)
    (hturn : bit z.options 2 = true → s.earlierCrew z.x.launch z.x.idx = false) :
    let after := z.threads.foldl (z.takeWord sa (atomicOp z.i.op (2 ^ z.i.size) z.i.sgnM)) ((s.core z.core).scratch, [])
    s.OnlyScratch (s.atomic z) z after.1 (z.after (s.core z.core).clock after.2 0 true) := by
  have hclean : z.CleanScratch (s.core z.core) sa z.threads := fun th _ => ⟨by simp [Core.scratchPoisoned, hpoison], hsoft⟩
  have hplace : ∀ a ∈ z.threads.map z.access, ∃ b, a.place = .scratch b := by
    simp only [List.forall_mem_map]
    exact fun th hth => ⟨sa th, h.place hth⟩
  have hlines : s.atomicLines z (z.threads.map z.access) = [] := by
    have hnone : (z.threads.map z.access).filterMap (s.regionLine (s.ctx z.x.ctx).part) = [] := by
      rw [List.filterMap_eq_nil_iff]
      intro a ha
      obtain ⟨b, hb⟩ := hplace a ha
      simp only [State.regionLine, hb]
    rw [State.atomicLines, hnone]
    rfl
  have htaken : s.atomicTaken z (z.threads.map z.access) = s := by
    rw [State.atomicTaken, hlines]
    rfl
  have hany : (bit z.options 2 || (z.threads.map z.access).any (fun a => match a.place with | .scratch _ => true | _ => false)) = true := by
    obtain ⟨th, hth⟩ := List.exists_mem_of_ne_nil _ hsome
    rw [Bool.or_eq_true, List.any_eq_true]
    exact .inr ⟨z.access th, List.mem_map_of_mem hth, by rw [h.place hth]⟩
  have hread := readAll_scratch (m := (z.requester true).master) (seen := (s.atomicLines z (z.threads.map z.access)).map
    (fun l => lineKey (s.ctx z.x.ctx).part (l * 128))) (acc := []) h hclean (by simp)
  have hatomic := atomic_of_data hturn (checkAccess_scratch _ _ _ h) (by simp [Issue.access]) (by rw [htaken]; exact hread)
  simp only [hany, if_true, hheld] at hatomic
  have hall := atomicAll_scratch (z := z) (ws := []) (host := [] ++ z.threads.map (fun th =>
    (z.access th, (s.core z.core).scratchRead (sa th) (2 ^ z.i.size)))) (.refl s z.core) (fun th hth => h.place hth) hcrew hpoison hsoft
  obtain ⟨hholds, hwrites⟩ := hall
  rw [hatomic, hwrites]
  exact hholds.finish hcrew _ _ _

theorem atomic_scratch_leaves (h : s.Ready c z 9 op) (hop : op ≤ 9) (hown : z.OwnScratch (s.core z.core) sa z.threads)
    (hsome : z.threads ≠ []) (hpoison : (s.core z.core).scratchPoison = []) (hsoft : (s.core z.core).scratchSoft = [])
    (hheld : s.dropHeld (.crew z.core z.key) = s) (hturn : bit z.options 2 = true → s.earlierCrew z.x.launch z.x.idx = false)
    {f : Nat → Nat → Nat → Option Nat} (hf : atomicOp op (2 ^ z.i.size) z.i.sgnM = f) :
    let after := z.threads.foldl (z.takeWord sa f) ((s.core z.core).scratch, [])
    s.OnlyScratch (s.thread c 9 op) z after.1 (z.after (s.core z.core).clock after.2 0 true) := by
  have honly := atomic_scratch (ready_crew h) hown hsome hpoison hsoft hheld hturn
  rw [← effect_atomic h, (ready_cls h).2, hf] at honly
  rwa [thread_of_served (known_atomic h hop) h (honly.stalled.trans (ready_stalled h))]

end

/-- Settles O13: an atomic is performed access by access once all are checked and read, and on the crew's own scratch each access takes what
the ones before it left. -/
theorem atomicInstructions : Obligations.AtomicInstructions := by
  unfold Obligations.AtomicInstructions
  intro s c z sa i x k n r own ordered inTurn less takes commands
  have htakes {op : Nat} {f : Nat → Nat → Nat → Option Nat} (hop : op ≤ 9) (hf : atomicOp op n i.sgnM = f) (h : s.Ready c z 9 op) :
      takes (.next (s.thread c 9 op)) f := fun hown hsome hpoison hsoft hheld hturn =>
    ⟨_, rfl, atomic_scratch_leaves h hop hown hsome hpoison hsoft hheld hturn hf⟩
  refine ⟨fun p hp h => ?_, htakes (by omega) rfl, htakes (by omega) rfl, htakes (by omega) rfl, htakes (by omega) rfl, htakes (by omega) rfl,
    htakes (by omega) rfl, htakes (by omega) rfl, htakes (by omega) rfl, htakes (by omega) rfl, htakes (by omega) rfl⟩
  have hops : ∀ p ∈ commands, p.2 ≤ 9 := by simp [commands]
  have hexec : ∀ p ∈ commands, exec p.1 s = .next (s.thread c 9 p.2) := by
    simp only [commands, List.forall_mem_cons, List.not_mem_nil, false_imp_iff, implies_true, and_true]
    repeat' apply And.intro
    all_goals rfl
  have hop := hops p hp
  rw [hexec p hp]
  refine ⟨fun hordered hearlier => by rw [atomic_waits h hop hordered hearlier], fun hturn s1 s2 as ds lines hcheck hgood hlines hread => ?_⟩
  subst hlines
  obtain ⟨v, order, hperm, hkept, hdone⟩ := atomic_performs h hop hturn hcheck hgood hread
  exact ⟨v, order, hperm, hkept, fun hserved => congrArg (fun t => (.next t : Outcome)) (hdone hserved)⟩

end Sys2Proof.Machine
end

section
/-! Landing instructions at a sound slot (Table 4-9, class 0xA, R91, R131, R263 to R267). -/

namespace Sys2Proof.Machine

open Sys2Proof

section
variable {s t u : State} {c : CrewId} {z : Issue} {op key : Nat}

theorem known_landing (h : s.Ready c z 0xA op) (hop : op ≤ 3) : z.i.known = true := by
  obtain ⟨hcls, hop'⟩ := ready_cls h
  simp [Inst.known, hcls, hop', hop]

theorem effect_larrive (h : s.Ready c z 0xA 0) : s.effect z = s.landingArrive z := by
  obtain ⟨hcls, hop⟩ := ready_cls h
  simp only [State.effect, State.landingClass, hcls, hop]

theorem effect_lwait (h : s.Ready c z 0xA 1) : s.effect z = s.landingWait z := by
  obtain ⟨hcls, hop⟩ := ready_cls h
  simp only [State.effect, State.landingClass, hcls, hop]

theorem effect_larrwait (h : s.Ready c z 0xA 2) : s.effect z = s.landingArriveWait z := by
  obtain ⟨hcls, hop⟩ := ready_cls h
  simp only [State.effect, State.landingClass, hcls, hop]

theorem effect_ltest (h : s.Ready c z 0xA 3) : s.effect z = s.landingTest z := by
  obtain ⟨hcls, hop⟩ := ready_cls h
  simp only [State.effect, State.landingClass, hcls, hop]

/-! ### One slot changed -/

/-- What holds between two states but for a slot holds once both have it changed alike. -/
theorem State.OnlyCrew.setSlot {y : Crew} (h : s.OnlyCrew t z y) (k : Nat) (x : Slot) : (s.setSlot k x).OnlyCrew (t.setSlot k x) z y := by
  obtain ⟨hoff, hcore, hother⟩ := h
  exact ⟨congrArg (fun v : State => v.setSlot k x) hoff, hcore, hother⟩

theorem setSlot_eq_minsert {k : Nat} {x : Slot} (hx : x.state = .armed) : s.setSlot k x = { s with slots := minsert s.slots k x } := by
  have hne : x ≠ {} := fun he => by simp [he] at hx
  simp [State.setSlot, mset, hne]

theorem slot_setSlot_armed {k : Nat} {x : Slot} (hx : x.state = .armed) : (s.setSlot k x).slot k = x := by
  simp [setSlot_eq_minsert hx, State.slot]

theorem setSlot_setSlot_armed {k : Nat} {x : Slot} (hx : x.state = .armed) : (s.setSlot k x).setSlot k x = s.setSlot k x := by
  simp only [setSlot_eq_minsert hx, minsert_minsert_same]

/-- A sound slot meets an operation as it is (R276, R404). -/
theorem meetSlot_armed (h : s.Armed key) : s.meetSlot key = s := by
  obtain ⟨-, -, herr, hmoves⟩ := h
  have herror : s.slotError key = s := by simp [State.slotError, herr]
  unfold State.meetSlot
  split
  next m rest hm => rw [if_neg (hmoves m rest hm), herror]
  next => exact herror

theorem State.Armed.of_eq (h : s.Armed key) (hslots : t.slots = s.slots) (hmoves : t.moves = s.moves) : t.Armed key := by
  unfold State.Armed State.slot at h ⊢
  rwa [hslots, hmoves]

theorem slot_of_slots (hslots : t.slots = s.slots) (key : Nat) : t.slot key = s.slot key := by rw [State.slot, hslots, State.slot]

/-! ### Arrivals -/

/-- An arrival that a full landing has room for lowers its remainder (R264). -/
theorem arrive_full {ctx n : Nat} (h : s.Armed key) (hkind : (s.slot key).kind = 0) (hpos : n ≠ 0) (hroom : n < (s.slot key).remain) :
    s.arrive key ctx n = s.setSlot key { s.slot key with remain := (s.slot key).remain - n } := by
  have hmeet := meetSlot_armed h
  obtain ⟨hstate, hmirror, -⟩ := h
  have hleft : (s.slot key).remain - n ≠ 0 := by omega
  simp [State.arrive, hmeet, hstate, hmirror, hkind, State.arriveFull, hpos, Nat.min_eq_left (Nat.le_of_lt hroom), hleft]

theorem traceRelease_disabled {gen status : Nat} (h : (s.trc (key / 48)).enable = false) : s.traceRelease key gen status = s := by
  simp [State.traceRelease, h]

/-- An arrival at a counting landing that nobody waits at and nobody subscribes to raises its count (R265). -/
theorem arrive_counting {ctx n : Nat} (h : s.Armed key) (hkind : (s.slot key).kind = 1) (hwaiters : (s.slot key).waiters = [])
    (hsubs : (s.slot key).subs = []) (htrace : key / 48 < 160 → (s.trc (key / 48)).enable = false) :
    s.arrive key ctx n = s.setSlot key { s.slot key with
      count := min ((s.slot key).count + n) 0xFFFFFFFF
      saturated := (s.slot key).saturated || decide (0xFFFFFFFF < (s.slot key).count + n) } := by
  have hmeet := meetSlot_armed h
  obtain ⟨hstate, hmirror, -⟩ := h
  generalize hx : ({ s.slot key with
      count := min ((s.slot key).count + n) 0xFFFFFFFF
      saturated := (s.slot key).saturated || decide (0xFFFFFFFF < (s.slot key).count + n) } : Slot) = x
  have hxs : x.state = .armed := hx ▸ hstate
  have hxw : x.waiters = [] := hx ▸ hwaiters
  have hxsub : x.subs = [] := hx ▸ hsubs
  have hrelease (gen : Nat) : (s.setSlot key x).releaseSlot key gen = s.setSlot key x := by
    have hx' : ({ x with waiters := [] } : Slot) = x := by rw [← hxw]
    simp only [State.releaseSlot, slot_setSlot_armed hxs, hxw, List.filter_nil, List.map_nil, State.notifyAll, hx', setSlot_setSlot_armed hxs]
    by_cases hcore : key / 48 < 160
    · exact traceRelease_disabled (htrace hcore)
    · exact if_pos (.inl (by omega))
  have htell (gen : Nat) : (s.setSlot key x).tellSubscribers key 1 gen 0 = s.setSlot key x := by
    simp only [State.tellSubscribers, slot_setSlot_armed hxs, hxsub, List.map_nil, List.append_nil]
  simp only [hstate, hkind, hmirror] at hx
  simp only [State.arrive, hmeet, hstate, hmirror, hkind, hx, Option.isSome_none, Bool.false_eq_true, if_false, if_true, hrelease, htell]

/-! ### What an instruction's issue shows in a core's trace -/

theorem count_traces (s : State) (core ev src pair n : Nat) : (s.count core ev src pair n).traces = s.traces := by
  unfold State.count
  split <;> rfl

/-- A gallery that wakes writes to its own trace buffer, and to none of a core (R426). -/
theorem wakeGal_trc (s : State) (g b : Nat) (hb : b < 1000) (h : rising s.traces) : (s.wakeGal g).trc b = s.trc b := by
  have hgal (x : GalPower) (r : Trace) (free now : Nat) : ({ s.setGal g x with free, now }.setTrc (1000 + g) r).trc b = s.trc b :=
    mget_mset_other_of_rising _ _ (by omega) h
  simp only [State.wakeGal]
  split
  · simp only [State.galState, State.traceEvent]
    split
    · exact hgal _ _ _ _
    · rfl
  · rfl

theorem issued_trc (s : State) (z : Issue) (b : Nat) (hb : b < 1000) (h : rising s.traces) : (s.issued z).trc b = s.trc b := by
  have hgal := wakeGal_trc s (galleryOf z.core) b hb h
  rw [State.trc] at hgal ⊢
  rwa [State.issued, count_traces, count_traces, count_traces]

theorem advance_trc (b : Nat) (hb : b < 1000) (h : rising s.traces) : (s.advance z).trc b = s.trc b := by
  have hissued := issued_trc s z b hb h
  have hmod (f : Crew → Crew) : ((s.issued z).modCrew z.core z.key f).traces = (s.issued z).traces := by
    unfold State.modCrew
    split <;> rfl
  rw [State.advance, State.finish, State.trc, hmod]
  exact hissued

/-! ### What the instructions leave -/

/-- A ready instruction whose effect is one crew changed from another state that waits for nothing either. -/
theorem thread_leaves_from {cls : Nat} {y : Crew} (hk : z.i.known = true) (h : s.Ready c z cls op) (hu : u.stalled = s.stalled)
    (he : u.OnlyCrew (s.effect z) z y) : ∃ t, (.next (s.thread c cls op) : Outcome) = .next t ∧ u.OnlyCrew t z y :=
  ⟨_, rfl, by rwa [thread_of_served hk h (he.stalled.trans (hu.trans (ready_stalled h)))]⟩

/-- The landing of the instruction, by its slot. -/
def State.AtSlot (s : State) (z : Issue) (key : Nat) : Prop := s.landing z.x.ctx z.lid (.fromCore z.core) = .slot key

theorem count_of_larrive (h : s.Ready c z 0xA 0) : z.i.count ≠ 0 := by
  obtain ⟨hcls, hop⟩ := ready_cls h
  have hlegal := ready_legal h
  simp only [Inst.legal, hcls, legalLanding, hop, Bool.and_eq_true, decide_eq_true_eq] at hlegal
  obtain ⟨-, -, hcount⟩ := hlegal
  exact hcount

theorem State.OnlyCrew.slots {y : Crew} (h : s.OnlyCrew t z y) : t.slots = s.slots := (congrArg State.slots h.1 :)

theorem State.OnlyCrew.moves {y : Crew} (h : s.OnlyCrew t z y) : t.moves = s.moves := (congrArg State.moves h.1 :)

theorem advance_armed (hcrew : s.crew z.core z.key = some z.x) (harmed : s.Armed key) :
    (s.advance z).Armed key ∧ (s.advance z).slot key = s.slot key := by
  have honly := advance_onlyCrew hcrew
  exact ⟨harmed.of_eq honly.slots honly.moves, slot_of_slots honly.slots key⟩

/-- An arrival of `LARRIVE` at a full landing. -/
theorem larrive_full (h : s.Ready c z 0xA 0) (hat : s.AtSlot z key) (harmed : s.Armed key) (hkind : (s.slot key).kind = 0)
    (hroom : z.i.count < (s.slot key).remain) : ∃ t, (.next (s.thread c 0xA 0) : Outcome) = .next t ∧
      (s.setSlot key { s.slot key with remain := (s.slot key).remain - z.i.count }).OnlyCrew t z (z.after (s.core z.core).clock [] 0) := by
  obtain ⟨harmed', hslot⟩ := advance_armed (ready_crew h) harmed
  have harrive := arrive_full (ctx := z.x.ctx) harmed' (by rwa [hslot]) (count_of_larrive h) (by rwa [hslot])
  refine thread_leaves_from (known_landing h (by omega)) h rfl ?_
  simp only [effect_larrive h, State.landingArrive]
  rw [show s.landing z.x.ctx z.lid (.fromCore z.core) = .slot key from hat]
  dsimp only
  rw [harrive, hslot]
  exact (advance_onlyCrew (ready_crew h)).setSlot _ _

/-- An arrival of `LARRIVE` at a counting landing. -/
theorem larrive_counting (h : s.Ready c z 0xA 0) (hat : s.AtSlot z key) (harmed : s.Armed key) (hsound : s.Sound)
    (hkind : (s.slot key).kind = 1) (hwaiters : (s.slot key).waiters = []) (hsubs : (s.slot key).subs = [])
    (htrace : (s.trc (key / 48)).enable = false) : ∃ t, (.next (s.thread c 0xA 0) : Outcome) = .next t ∧
      (s.setSlot key { s.slot key with
        count := min ((s.slot key).count + z.i.count) 0xFFFFFFFF
        saturated := (s.slot key).saturated || decide (0xFFFFFFFF < (s.slot key).count + z.i.count) }).OnlyCrew
          t z (z.after (s.core z.core).clock [] 0) := by
  obtain ⟨harmed', hslot⟩ := advance_armed (ready_crew h) harmed
  have harrive := arrive_counting (ctx := z.x.ctx) (n := z.i.count) harmed' (by rwa [hslot]) (by rwa [hslot]) (by rwa [hslot])
    (fun hcore => by rwa [advance_trc _ (by omega) hsound.tables.traces])
  refine thread_leaves_from (known_landing h (by omega)) h rfl ?_
  simp only [effect_larrive h, State.landingArrive]
  rw [show s.landing z.x.ctx z.lid (.fromCore z.core) = .slot key from hat]
  dsimp only
  rw [harrive, hslot]
  exact (advance_onlyCrew (ready_crew h)).setSlot _ _

/-- The crew of a wait that is answered at once (R131, R267). -/
def Issue.answered (z : Issue) (clock status gen : Nat) : Crew :=
  { (z.after clock [] 0).putPred z.i.pd z.mask (if status = 0 then z.mask else 0) with lstatus := status, lgen := gen }

theorem waitAnswered_onlyCrew (status gen : Nat) (hcrew : s.crew z.core z.key = some z.x) :
    s.OnlyCrew (s.waitAnswered z status gen) z (z.answered (s.core z.core).clock status gen) :=
  (advance_onlyCrew hcrew).modCrew _

/-- The state in which a wait has its mark (R91). -/
def State.marked (s : State) : State := { s with nextMark := s.nextMark + 1 }

/-- Whether the generation of a slot has reached the target of an instruction (R266). -/
def State.reached (s : State) (z : Issue) (key : Nat) : Bool :=
  Waiter.ready ⟨.crew 0, 1, z.x.ureg z.i.ureg, 0⟩ (s.slot key).kind (s.slot key).generation

theorem landingWait_eq (hat : s.AtSlot z key) (hdeep : z.x.stack.length < 32) : s.landingWait z =
    match s.marked.wait key (.crew s.nextMark) z.i.mode (if z.i.mode = 1 then z.x.ureg z.i.ureg else 0) with
    | (s, some (st, gen)) => s.waitAnswered z st gen
    | (s', none) => s'.parkPath z s.nextMark := by
  have hdeep' : ¬ stackMax ≤ z.x.stack.length := Nat.not_le.2 hdeep
  unfold State.landingWait
  rw [show s.landing z.x.ctx z.lid (.fromCore z.core) = .slot key from hat]
  exact if_neg hdeep'

/-- A wait that is answered already sets its predicate and goes on. -/
theorem lwait_answered (h : s.Ready c z 0xA 1) (hat : s.AtSlot z key) (harmed : s.Armed key) (hdeep : z.x.stack.length < 32)
    (hmode : z.i.mode = 1) (hreached : s.reached z key = true) : ∃ t, (.next (s.thread c 0xA 1) : Outcome) = .next t ∧
      s.marked.OnlyCrew t z (z.answered (s.core z.core).clock 0 (s.slot key).generation) := by
  have hmeet : s.marked.meetSlot key = s.marked := meetSlot_armed (harmed.of_eq rfl rfl)
  obtain ⟨hstate, -⟩ := harmed
  have hready : Waiter.ready ⟨.crew s.nextMark, 1, z.x.ureg z.i.ureg, 0⟩ (s.slot key).kind (s.slot key).generation = true := hreached
  have hwait : s.marked.wait key (.crew s.nextMark) z.i.mode (if z.i.mode = 1 then z.x.ureg z.i.ureg else 0) =
      (s.marked, some (0, (s.slot key).generation)) := by
    simp only [State.wait, hmeet, show s.marked.slot key = s.slot key from rfl, hstate, hmode, if_true, hready, decide_true, Bool.and_self]
  refine thread_leaves_from (known_landing h (by omega)) h rfl ?_
  have hcrew := ready_crew h
  rw [effect_lwait h, landingWait_eq hat hdeep, hwait]
  exact waitAnswered_onlyCrew (s := s.marked) 0 _ hcrew

/-- A path that waits lies on the stack under its mark, and another one runs. -/
theorem parkPath_onlyCrew {mark : Nat} {p : Nat × Nat} {rest : List StackEntry} (hcrew : s.crew z.core z.key = some z.x)
    (hrun : z.x.state = .running) (hmask : z.mask ≠ 0) (hst : takeRunnable (discardEmpty z.x.stack) = some (p, rest)) :
    s.OnlyCrew (s.parkPath z mark) z
      { z.x with path := some p, stack := .pending z.next z.mask (.landing mark z.i.pd) :: rest, bb := 0 } := by
  simp only [State.parkPath, hcrew]
  refine endPath_onlyCrew (nextPath_runnable ?_) (.inl (by simp [hrun]))
  rw [discardEmpty_pending _ _ hmask]
  exact takeRunnable_waiting rfl hst

/-- A wait that is not answered yet is registered at the slot, and its path waits. -/
theorem lwait_waits {p : Nat × Nat} {rest : List StackEntry} (h : s.Ready c z 0xA 1) (hat : s.AtSlot z key) (harmed : s.Armed key)
    (hdeep : z.x.stack.length < 32) (hwaits : z.i.mode = 0 ∨ s.reached z key = false) (hmask : z.mask ≠ 0)
    (hst : takeRunnable (discardEmpty z.x.stack) = some (p, rest)) : ∃ t v, (.next (s.thread c 0xA 1) : Outcome) = .next t ∧ s.now ≤ v ∧
      (s.marked.setSlot key { s.slot key with waiters := (s.slot key).waiters ++
        [⟨.crew s.nextMark, z.i.mode, if z.i.mode = 1 then z.x.ureg z.i.ureg else 0, v⟩] }).OnlyCrew t z
          { z.x with path := some p, stack := .pending z.next z.mask (.landing s.nextMark z.i.pd) :: rest, bb := 0 } := by
  have hmeet : s.marked.meetSlot key = s.marked := meetSlot_armed (harmed.of_eq rfl rfl)
  obtain ⟨hstate, -⟩ := harmed
  have hnot : ¬ ((decide (z.i.mode = 1) && Waiter.ready ⟨.crew s.nextMark, z.i.mode, if z.i.mode = 1 then z.x.ureg z.i.ureg else 0, 0⟩
      (s.slot key).kind (s.slot key).generation) = true) := by
    rw [Bool.and_eq_true, decide_eq_true_eq]
    rintro ⟨hmode, hready⟩
    rcases hwaits with hzero | hreached
    · omega
    · rw [hmode, if_pos rfl] at hready
      exact Bool.false_ne_true (hreached.symm.trans hready)
  have hwait : s.marked.wait key (.crew s.nextMark) z.i.mode (if z.i.mode = 1 then z.x.ureg z.i.ureg else 0) =
      (s.marked.sample.1.modSlot key (fun y => { y with waiters := y.waiters ++
        [⟨.crew s.nextMark, z.i.mode, if z.i.mode = 1 then z.x.ureg z.i.ureg else 0, s.marked.sample.2⟩] }), none) := by
    simp only [State.wait, hmeet, show s.marked.slot key = s.slot key from rfl, hstate]
    exact if_neg hnot
  have hcrew := ready_crew h
  have honly (x : Slot) : (s.marked.setSlot key x).OnlyCrew ((s.marked.sample.1.setSlot key x).parkPath z s.nextMark) z
      { z.x with path := some p, stack := .pending z.next z.mask (.landing s.nextMark z.i.pd) :: rest, bb := 0 } :=
    State.OnlyCrew.of_seen (parkPath_onlyCrew (s := s.marked.sample.1.setSlot key x) hcrew (ready_running h) hmask hst) rfl rfl
  have heffect : s.effect z = (s.marked.sample.1.setSlot key { s.slot key with waiters := (s.slot key).waiters ++
      [⟨.crew s.nextMark, z.i.mode, if z.i.mode = 1 then z.x.ureg z.i.ureg else 0, s.marked.sample.2⟩] }).parkPath z s.nextMark := by
    rw [effect_lwait h, landingWait_eq hat hdeep, hwait]
    rfl
  have hleaves := honly { s.slot key with waiters := (s.slot key).waiters ++
    [⟨.crew s.nextMark, z.i.mode, if z.i.mode = 1 then z.x.ureg z.i.ureg else 0, s.marked.sample.2⟩] }
  rw [← heffect] at hleaves
  obtain ⟨t, ht, hleft⟩ := thread_leaves_from (known_landing h (by omega)) h (setSlot_stalled s.marked _ _) hleaves
  exact ⟨t, s.marked.sample.2, ht, now_le_sample s.marked, hleft⟩

/-- An arrive-and-wait at a counting landing is answered with the count that it leaves (R267). -/
theorem larrwait_counting (h : s.Ready c z 0xA 2) (hat : s.AtSlot z key) (harmed : s.Armed key) (hdeep : z.x.stack.length < 32)
    (hkind : (s.slot key).kind = 1) (hwaiters : (s.slot key).waiters = []) (hsubs : (s.slot key).subs = [])
    (htrace : (s.trc (key / 48)).enable = false) : ∃ t, (.next (s.thread c 0xA 2) : Outcome) = .next t ∧
      (s.marked.setSlot key { s.slot key with
        count := min ((s.slot key).count + z.i.count) 0xFFFFFFFF
        saturated := (s.slot key).saturated || decide (0xFFFFFFFF < (s.slot key).count + z.i.count) }).OnlyCrew t z
          (z.answered (s.core z.core).clock 0 (min ((s.slot key).count + z.i.count) 0xFFFFFFFF)) := by
  have harrive := arrive_counting (s := s.marked) (ctx := z.x.ctx) (n := z.i.count) (harmed.of_eq rfl rfl) hkind hwaiters hsubs (fun _ => htrace)
  obtain ⟨hstate, -⟩ := harmed
  have hdeep' : ¬ stackMax ≤ z.x.stack.length := Nat.not_le.2 hdeep
  generalize hx : ({ s.marked.slot key with
      count := min ((s.marked.slot key).count + z.i.count) 0xFFFFFFFF
      saturated := (s.marked.slot key).saturated || decide (0xFFFFFFFF < (s.marked.slot key).count + z.i.count) } : Slot) = x at harrive
  have hxs : x.state = .armed := hx ▸ hstate
  have hxgen : x.generation = min ((s.slot key).count + z.i.count) 0xFFFFFFFF := by
    have hxkind : x.kind = 1 := hx ▸ hkind
    rw [Slot.generation, if_pos hxkind, ← hx]
    rfl
  have hwait : s.marked.arriveWait key z.x.ctx z.i.count (.crew s.nextMark) = (s.marked.setSlot key x, some (0, x.generation)) := by
    simp only [State.arriveWait, harrive, slot_setSlot_armed hxs, hxs]
    exact if_pos ⟨hkind, by simp⟩
  have hcrew := ready_crew h
  have heffect : s.effect z = (s.marked.setSlot key x).waitAnswered z 0 x.generation := by
    rw [effect_larrwait h]
    unfold State.landingArriveWait
    rw [show s.landing z.x.ctx z.lid (.fromCore z.core) = .slot key from hat]
    dsimp only
    rw [if_neg hdeep', show ({ s with nextMark := s.nextMark + 1 } : State) = s.marked from rfl, hwait]
  have hleaves := waitAnswered_onlyCrew (s := s.marked.setSlot key x) 0 x.generation hcrew
  rw [← heffect, hxgen, ← hx] at hleaves
  exact thread_leaves_from (known_landing h (by omega)) h (setSlot_stalled s.marked _ _) hleaves

/-- `LTEST` sets its predicate to whether the generation has reached the target. -/
theorem ltest_leaves (h : s.Ready c z 0xA 3) (hat : s.AtSlot z key) : s.Leaves z (.next (s.thread c 0xA 3))
    ((z.after (s.core z.core).clock [] 0).putPred z.i.pd z.mask (if s.reached z key then z.mask else 0)) := by
  refine thread_leaves (known_landing h (by omega)) h ?_
  rw [effect_ltest h]
  unfold State.landingTest
  rw [show s.landing z.x.ctx z.lid (.fromCore z.core) = .slot key from hat]
  exact (advance_onlyCrew (ready_crew h)).modCrew _

end

/-- Settles O14: an arrival changes its slot alone, a wait is answered at once or registered under a mark, and a test only answers. -/
theorem landingInstructions : Obligations.LandingInstructions := by
  unfold Obligations.LandingInstructions
  intro s c z key x i y k lid gen reached marked answered hat harmed hsound
  have hreached : reached = s.reached z key := by
    rw [State.reached, Waiter.ready, if_neg (by simp)]
    rfl
  clear_value reached
  subst hreached
  refine ⟨fun h => ⟨fun hkind hroom => larrive_full h hat harmed hkind hroom,
    fun hkind hwaiters hsubs htrace => larrive_counting h hat harmed hsound hkind hwaiters hsubs htrace⟩,
    fun h hdeep => ⟨fun hmode hreached => lwait_answered h hat harmed hdeep hmode hreached,
      fun p rest hwaits hmask hst => lwait_waits h hat harmed hdeep hwaits hmask hst⟩,
    fun h hdeep hkind hwaiters hsubs htrace => larrwait_counting h hat harmed hdeep hkind hwaiters hsubs htrace,
    fun h => ltest_leaves h hat⟩

end Sys2Proof.Machine
end

section
/-! Crews that come and go (R73 to R79): the statement asks for no order of the tables, and a core that is listed twice refutes it. -/

namespace Sys2Proof.Machine

open Sys2Proof

/-- A launch of no threads and no cores. -/
def emptyLaunch : Launch :=
  { ctx := 0, pid := 0, entry := 0, args := 0, gx := 0, gy := 0, gz := 0, coreCount := 0, cores := [], width := 0, regs := 0, options := 0,
    scratch := 0, watchdog := 0, layer := 0, oper := 0 }

/-- A state that lists core 0 twice, in a gallery that sleeps: the first entry holds nothing but a queue of one crew, and the second one a
queue of its own. -/
def coreTwice : State :=
  { cores := [(0, { queue := [.fresh 0 0] }), (0, { queue := [.fresh 7 7] })]
    launches := [(0, emptyLaunch)]
    gals := [(0, { st := 1 })] }

/-- The crew at the head of the queue is placed, its entry has nothing left to hold and leaves the list, and the second one shows. -/
theorem crewPlace_coreTwice {t : State} (h : exec (.crewPlace 0) coreTwice = .next t) : (t.core 0).queue = [.fresh 7 7] := by
  obtain rfl : _ = t := by injection h
  rfl

/-- Refutes O16: the tables are not assumed to list each unit once, and where a core is listed twice its queue after a placement is not the
rest of the queue. -/
theorem not_crewEvents : ¬ Obligations.CrewEvents := by
  unfold Obligations.CrewEvents
  rintro ⟨hplace, -⟩
  obtain ⟨t, key, x, ht, -, -, -, -, -, -, -, -, -, -, -, -, -, -, -, -, -, hqueue⟩ :=
    hplace coreTwice 0 0 0 0 0 [] emptyLaunch rfl rfl (by decide) rfl rfl rfl ⟨0, by decide, rfl⟩
  rw [crewPlace_coreTwice ht] at hqueue
  exact absurd hqueue (by decide)

end Sys2Proof.Machine
end

section
/-! The parts of a stroke (R180): what a part leaves of its core, and the command that a part of the stroke in progress is due for. -/

namespace Sys2Proof.Machine

open Sys2Proof

variable {s t u : State} {core p w : Nat} {j : CoxJob} {l : CoxLaunch} {k : Core}

/-! ### Only one core changes -/

/-- From s to t only this core has changed, to k, with what is seen of its work. -/
def State.HoldsCore (s t : State) (core : Nat) (k : Core) : Prop :=
  t.offCores = s.offCores ∧ t.core core = k ∧ ∀ i, i ≠ core → t.core i = s.core i

theorem State.HoldsCore.refl (s : State) (core : Nat) : s.HoldsCore s core (s.core core) := ⟨rfl, rfl, fun _ _ => rfl⟩

theorem State.HoldsCore.holds (h : s.HoldsCore t core k) : t.core core = k := h.2.1

theorem State.HoldsCore.stalled (h : s.HoldsCore t core k) : t.stalled = s.stalled := (congrArg State.stalled h.1 :)

theorem State.HoldsCore.coxLaunch (h : s.HoldsCore t core k) (n : Nat) : t.coxLaunch n = s.coxLaunch n :=
  (congrArg (fun x : State => x.coxLaunch n) h.1 :)

theorem State.HoldsCore.leaves (h : s.HoldsCore t core k) : s.LeavesCore core (.next t) k := by
  obtain ⟨hoff, hcore, hother⟩ := h
  exact ⟨t, rfl, hoff, hcore, hother⟩

/-- A core that is not empty keeps its place in the list when it is written. -/
theorem State.HoldsCore.setCore {k' : Core} (h : s.HoldsCore t core k) (hne : k' ≠ {}) : s.HoldsCore (t.setCore core k') core k' := by
  obtain ⟨hoff, -, hother⟩ := h
  have heq : t.setCore core k' = { t with cores := minsert t.cores core k' } := by simp [State.setCore, mset, hne]
  rw [heq]
  exact ⟨hoff, by simp [State.core], fun i hi => (mget_minsert_other _ _ _ _ _ hi).trans (hother i hi)⟩

/-- A core with a program is not empty. -/
theorem core_ne_of_jobs (h : k.jobs ≠ []) : k ≠ {} := fun he => h (congrArg Core.jobs he)

theorem State.HoldsCore.modCore (h : s.HoldsCore t core k) (f : Core → Core) (hne : (f k).jobs ≠ []) :
    s.HoldsCore (t.modCore core f) core (f k) := by
  rw [State.modCore, h.holds]
  exact h.setCore (core_ne_of_jobs hne)

theorem State.HoldsCore.modSeq (h : s.HoldsCore t core k) (f : Sequencer → Sequencer) (hne : k.jobs ≠ []) :
    s.HoldsCore (t.modSeq core f) core { k with seq := f k.seq } := h.modCore _ hne

theorem State.HoldsCore.modArray (h : s.HoldsCore t core k) (f : Matrix → Matrix) (hne : k.jobs ≠ []) :
    s.HoldsCore (t.modArray core f) core { k with array := f k.array } := h.modCore _ hne

theorem State.HoldsCore.of_unseen (h : s.HoldsCore t core k) (hunseen : u.unseen = t.unseen) (hcores : u.cores = t.cores) :
    s.HoldsCore u core k := by
  obtain ⟨hoff, hcore, hother⟩ := h
  exact ⟨(offCores_of_unseen hunseen).trans hoff, (core_of_cores hcores core).trans hcore,
    fun i hi => (core_of_cores hcores i).trans (hother i hi)⟩

theorem State.HoldsCore.count (h : s.HoldsCore t core k) (c ev src pair n : Nat) : s.HoldsCore (t.count c ev src pair n) core k :=
  h.of_unseen (count_unseen ..) (count_cores ..)

/-! ### A stroke in progress -/

/-- The job of the running program is among those of its core. -/
theorem jobs_of_coxNow (h : s.coxNow core = some (j, l)) : (s.core core).coxJob = some j ∧ s.coxLaunch j.launch = some l ∧ (s.core core).jobs ≠ [] := by
  unfold State.coxNow at h
  split at h
  case h_1 j' hj =>
    obtain ⟨l', hl, heq⟩ := Option.map_eq_some_iff.mp h
    obtain ⟨rfl, rfl⟩ := Prod.mk.inj heq
    refine ⟨hj, hl, fun hnil => ?_⟩
    simp [Core.coxJob, hnil] at hj
  case h_2 => simp at h

/-- The running program stays the same where the jobs of its core do. -/
theorem State.HoldsCore.coxNow (h : s.HoldsCore t core k) (hjobs : k.jobs = (s.core core).jobs) : t.coxNow core = s.coxNow core := by
  simp only [State.coxNow, Core.coxJob, h.holds, h.coxLaunch, hjobs]

variable (h : s.AtStroke core p j l w)

include h

theorem State.AtStroke.jobs : (s.core core).jobs ≠ [] := by
  obtain ⟨-, hnow, -⟩ := h
  exact (jobs_of_coxNow hnow).2.2

theorem State.AtStroke.now : s.coxNow core = some (j, l) := h.2.1

theorem State.AtStroke.word : (s.core core).seq.word = w := by
  obtain ⟨-, -, -, -, -, -, hword⟩ := h
  exact hword

/-- The slot of the word at the issue point has the operation that the word gives it. -/
theorem State.AtStroke.slotOp {n op : Nat} (hop : bits (slotOf w n) 0 4 = op) : (s.core core).slotOp n op = true := by
  obtain ⟨-, hnow, -, -, hdrain, hword, -⟩ := h
  simp [Core.slotOp, (jobs_of_coxNow hnow).1, hdrain, hword, hop]

/-- A stroke is in progress. -/
theorem State.AtStroke.begun : s.beginStroke core = (s, true) := by
  obtain ⟨-, hnow, hphase, hp, -⟩ := h
  have hne : (s.core core).seq.phase ≠ 0 := by omega
  unfold State.beginStroke
  simp only [hnow]
  rw [if_pos hne]

/-- Up to the part that is next there is that part alone. -/
theorem State.AtStroke.strokeTo : s.strokeTo core p = s.coxPart core p := by
  obtain ⟨-, -, hphase, hp, -⟩ := h
  have hparts : (List.range (p + 1)).filter (fun i => decide ((s.core core).seq.phase < i) && decide (2 ≤ i)) = [p] := by
    have hbelow : (List.range p).filter (fun i => decide ((s.core core).seq.phase < i) && decide (2 ≤ i)) = [] := by
      simp only [List.filter_eq_nil_iff, List.mem_range, Bool.and_eq_true, decide_eq_true_eq]
      omega
    rw [List.range_succ, List.filter_append, hbelow]
    simp [hp]
    omega
  rw [State.strokeTo, hparts]
  rfl

/-- The command of the part that is next performs that part. -/
theorem State.AtStroke.row_eq {due : Core → Bool} (hdue : due (s.core core) = true) (hserved : (s.coxPart core p).stalled = false) :
    s.coxRow core p due = s.coxPart core p := by
  have hphase : (s.core core).seq.phase < p := by
    obtain ⟨-, -, hphase, -⟩ := h
    omega
  unfold State.coxRow
  simp only [h.begun, hphase, hdue, h.strokeTo, decide_true, Bool.and_self, if_true]
  exact orWait_of_served _ _ hserved

theorem State.AtStroke.row {due : Core → Bool} (hdue : due (s.core core) = true) (hleaves : s.HoldsCore (s.coxPart core p) core k) :
    s.LeavesCore core (.next (s.coxRow core p due)) k := by
  rw [h.row_eq hdue (hleaves.stalled.trans h.1)]
  exact hleaves.leaves

/-- Part 3 of a stroke is the slot-A operation and what the sequencer issues for a slice run. -/
theorem State.AtStroke.array {due : Core → Bool} {a : Matrix} (hp : p = 3) (hdue : due (s.core core) = true)
    (ha : (s.core core).array.issueA (s.core core).seq = a) : s.LeavesArray core 3 (.next (s.coxRow core p due)) a := by
  refine h.row hdue ?_
  subst hp ha
  exact ((State.HoldsCore.refl s core).modArray (fun a => a.issueA (s.core core).seq) h.jobs).modSeq (fun q => { q with phase := 3 }) h.jobs

omit h

/-- The first stroke of a slice run begins its first pass. -/
theorem runStep_first (a : Matrix) (r : SliceRun) : ({ a with run := some r } : Matrix).runStep r.t0 =
    { a with run := some r, loads := a.loads ++ [⟨r.t0, 0, true, true, r.kr⟩], lastLoad := some r.t0 } := by
  have hstop : ¬ r.stop ≤ r.t0 := by
    have hpasses : 0 < r.passes := by unfold SliceRun.passes; split <;> omega
    have : 0 < r.passes * (r.m + 128) := Nat.mul_pos hpasses (by omega)
    unfold SliceRun.stop
    omega
  simp [Matrix.runStep, hstop]

/-- A later pass of a slice run begins with its load. -/
theorem runStep_pass {a : Matrix} {r : SliceRun} {t : Nat} (hrun : a.run = some r) (hstop : t < r.stop) (hpass : (t - r.t0) % (r.m + 128) = 0) :
    a.runStep t = { a with loads := a.loads ++ [⟨t, 0, true, true, r.kr⟩], lastLoad := some t } := by
  simp [Matrix.runStep, hrun, Nat.not_le.mpr hstop, hpass]

theorem runStep_none {a : Matrix} (t : Nat) (hrun : a.run = none) : a.runStep t = a := by simp [Matrix.runStep, hrun]

/-- Settles O20: slot A, then what the sequencer issues for the run. -/
theorem strokeArrayCommands : Obligations.StrokeArrayCommands := by
  unfold Obligations.StrokeArrayCommands
  intro s core j l w h q a t v
  have hv : slotA (s.core core).seq.word = v := congrArg slotA h.word
  refine ⟨fun hop hrun => ?_, ?_, fun hop => ?_, fun r hop hrun ht0 htend hpass => ?_⟩
  · refine h.array rfl (due := fun k => k.slotOp 0 1) (h.slotOp hop) ?_
    simp only [Matrix.issueA, hv, hop]
    exact runStep_none _ hrun
  · intro hop hrun n row
    refine h.array rfl (due := fun k => k.slotOp 0 2) (h.slotOp hop) ?_
    simp only [Matrix.issueA, hv, hop]
    refine (runStep_none _ ?_).trans ?_
    · split
      · exact hrun
      · exact hrun
    · split
      next => rw [List.append_nil]
      next => rfl
  · refine h.array rfl (due := fun k => k.slotOp 0 3) (h.slotOp hop) ?_
    simp only [Matrix.issueA, hv, hop]
    exact runStep_first _ _
  · have hstop : t < r.stop := htend
    replace hrun : (s.core core).array.run = some r := hrun
    refine h.array rfl (due := _) ?_ ?_
    · simp only [hrun]
      simpa using ⟨⟨ht0, hstop⟩, hpass⟩
    · simp only [Matrix.issueA, hv, hop]
      exact runStep_pass hrun hstop hpass

end Sys2Proof.Machine
end

section
/-! The streamers in their strokes (R171 to R173, R183). -/

namespace Sys2Proof.Machine

open Sys2Proof

variable {s t : State} {core w : Nat} {j : CoxJob} {l : CoxLaunch} {k : Core}

/-! ### What a streamer changes: the log of the stroke and the tracked writes -/

/-- A core whose stroke has logged these entries too. -/
def Core.logged (k : Core) (es : List CoxEntry) : Core := { k with seq := { k.seq with strokeLog := k.seq.strokeLog ++ es } }

/-- A core whose streamers track these writes too. -/
def Core.tracked (k : Core) (xs : List CoxWrite) : Core := { k with seq := { k.seq with writes := k.seq.writes ++ xs } }

theorem logged_nil (k : Core) : k.logged [] = k := by simp [Core.logged]

theorem logged_logged (k : Core) (a b : List CoxEntry) : (k.logged a).logged b = k.logged (a ++ b) := by simp [Core.logged]

theorem tracked_nil (k : Core) : k.tracked [] = k := by simp [Core.tracked]

theorem tracked_tracked (k : Core) (a b : List CoxWrite) : (k.tracked a).tracked b = k.tracked (a ++ b) := by simp [Core.tracked]

theorem State.HoldsCore.track (h : s.HoldsCore t core k) (hjobs : k.jobs ≠ []) (due n : Nat) (x : CoxTarget) :
    s.HoldsCore (t.modSeq core (fun q => { q with writes := q.writes ++ [⟨due, n, q.pc, x⟩] })) core (k.tracked [⟨due, n, k.seq.pc, x⟩]) :=
  h.modSeq _ hjobs

/-- An entry of the stroke names the launch of the running program. -/
theorem State.HoldsCore.coxLog (h : s.HoldsCore t core k) (hnow : t.coxNow core = some (j, l)) (hjobs : k.jobs ≠ [])
    (slot pc kind reason w2 w3 : Nat) : s.HoldsCore (t.coxLog core slot pc kind reason w2 w3) core
      (k.logged [⟨k.seq.stroke % 2 ^ 40, pc, slot, kind, l.layer, l.oper, reason, w2, w3⟩]) := by
  have hlogged := h.modSeq (fun q => { q with
    strokeLog := q.strokeLog ++ [⟨q.stroke % 2 ^ 40, pc, slot, kind, l.layer, l.oper, reason, w2, w3⟩] }) hjobs
  unfold State.coxLog
  rw [hnow]
  exact hlogged

theorem State.HoldsCore.early (h : s.HoldsCore t core k) (hnow : t.coxNow core = some (j, l)) (hjobs : k.jobs ≠ [])
    (slot kind index : Nat) (due : List Nat) :
    s.HoldsCore (t.early core slot kind index due) core (k.logged (k.seq.earlyEntry l slot kind index due)) := by
  cases due with
  | nil =>
    rw [Sequencer.earlyEntry, logged_nil]
    exact h
  | cons x xs =>
    simp only [State.early, h.holds]
    exact h.coxLog hnow hjobs slot k.seq.pc 1 0 (kind + 16 * index) (minOf x xs % 2 ^ 40)

/-! ### Reads that meet no error -/

theorem scratchCorrect_clean (hsoft : (t.core core).scratchSoft = []) (sa n : Nat) : t.scratchCorrect core sa n = t := by
  simp [State.scratchCorrect, hsoft]

theorem reportRow_clean (hpoison : (t.core core).scratchPoison = []) (row : Nat) : t.reportRow core row = t := by
  simp [State.reportRow, hpoison]

theorem streamerRow_clean (hpoison : k.scratchPoison = []) (row : Nat) :
    k.streamerRow row = (List.range 128).map (fun i => mget 0 k.scratch (128 * row + i)) := by
  simp [Core.streamerRow, hpoison]

theorem stagingRead_clean (herr : (t.core core).seq.srErr = []) (i : Nat) : t.stagingRead core i = t := by
  simp [State.stagingRead, herr, mfind]

theorem accRead_clean (herr : (t.core core).array.accErr = []) (keys : List Nat) : t.accRead core keys = t := by
  simp [State.accRead, herr]

/-! ### Load streamers -/

/-- What a read of scratch by slot n delivers, and the stroke in which it lands. -/
def streamed (op t n pc sr : Nat) (data : List Byte) : CoxWrite :=
  match op with
  | 1 => ⟨t + 12, n, pc, .pathA data⟩
  | 2 => ⟨t + 12, n, pc, .pathB data⟩
  | _ => ⟨t + 4, n, pc, .staging sr data false⟩

theorem streamed_staging (t n pc sr : Nat) (data : List Byte) : streamed 3 t n pc sr data = ⟨t + 4, n, pc, .staging sr data false⟩ := rfl

/-- The step of an address generator that slot n with field v asks for. -/
def Sequencer.generatorStep (q : Sequencer) (n v : Nat) : List CoxWrite :=
  if bit v 7 then
    [⟨q.stroke + 1, n, q.pc, .scalar (8 + bits v 4 3) (BitVec.ofNat 64 (q.scalar (8 + bits v 4 3) + q.scalar (16 + bits v 4 3)))⟩]
  else []

/-- A load streamer reads its row of scratch. -/
theorem coxLoad_reads {n op : Nat} (hnow : s.coxNow core = some (j, l)) (hpoison : (s.core core).scratchPoison = [])
    (hsoft : (s.core core).scratchSoft = []) (hop : bits (slotOf (s.core core).seq.word n) 0 4 = op) (hpos : op ≠ 0) (hread : op ≤ 3) :
    let k := s.core core
    let q := k.seq
    let v := slotOf q.word n
    let row := q.rowAt (bits v 4 3)
    s.HoldsCore (s.coxLoad core n) core ((k.logged (q.earlyEntry l n 3 row (q.scratchDue q.word q.stroke row))).tracked
      (streamed op q.stroke n q.pc (bits v 8 3) ((List.range 128).map (fun i => mget 0 k.scratch (128 * row + i))) :: q.generatorStep n v)) := by
  intro k q v row
  have hjobs : k.jobs ≠ [] := (jobs_of_coxNow hnow).2.2
  have hearly := (State.HoldsCore.refl s core).early hnow hjobs n 3 row (q.scratchDue q.word q.stroke row)
  unfold State.coxLoad
  extract_lets q' v' t op' add ag inc row' s1 data s2
  have hdata : data = (List.range 128).map (fun i => mget 0 k.scratch (128 * row + i)) := by
    have hcore : s1.core core = _ := hearly.holds
    have hclean : (s1.core core).scratchPoison = [] := (congrArg Core.scratchPoison hcore).trans hpoison
    exact (streamerRow_clean hclean row').trans (by rw [congrArg Core.scratch hcore]; rfl)
  have hs2 : s2 = s1 := by
    unfold s2
    rw [scratchCorrect_clean (by rw [hearly.holds]; exact hsoft), reportRow_clean (by rw [hearly.holds]; exact hpoison)]
  have hop' : op' = op := hop
  have hstep {u : State} {x : CoxWrite} {es : List CoxEntry} (hu : s.HoldsCore u core ((k.logged es).tracked [x])) :
      s.HoldsCore (inc u) core ((k.logged es).tracked (x :: q.generatorStep n v)) := by
    rw [← List.singleton_append, ← tracked_tracked]
    unfold inc Sequencer.generatorStep
    split
    next => exact hu.track hjobs _ _ _
    next =>
      rw [tracked_nil]
      exact hu
  rw [hop', if_neg hpos, if_pos hread, hs2, hdata]
  interval_cases op
  · exact absurd rfl hpos
  · exact hstep (hearly.track hjobs (t + 12) n _)
  · exact hstep (hearly.track hjobs (t + 12) n _)
  · exact hstep (hearly.track hjobs (t + 4) n _)

/-- A load streamer moves a staging register to a path. -/
theorem coxLoad_moves {n op : Nat} (hnow : s.coxNow core = some (j, l)) (hpoison : (s.core core).seq.srPoison = [])
    (herr : (s.core core).seq.srErr = []) (hop : bits (slotOf (s.core core).seq.word n) 0 4 = op) (hmove : 3 < op) :
    let k := s.core core
    let q := k.seq
    let sr := bits (slotOf q.word n) 8 3
    let held := (List.range 128).map (fun i => mget 0 q.sr (128 * sr + i))
    s.HoldsCore (s.coxLoad core n) core ((k.logged (q.earlyEntry l n 1 sr (q.stagingDue q.word q.stroke sr))).tracked
      [⟨q.stroke + 12, n, q.pc, if op = 4 then .pathA held else .pathB held⟩]) := by
  intro k q sr held
  have hjobs : k.jobs ≠ [] := (jobs_of_coxNow hnow).2.2
  have hearly := (State.HoldsCore.refl s core).early hnow hjobs n 1 sr (q.stagingDue q.word q.stroke sr)
  have hclean := stagingRead_clean (t := s.early core n 1 sr (q.stagingDue q.word q.stroke sr)) (core := core) (by rw [hearly.holds]; exact herr) sr
  unfold State.coxLoad
  extract_lets q' v t op' add ag inc row s1 data s2 i s3 q2 data'
  have hs3 : s3 = s.early core n 1 sr (q.stagingDue q.word q.stroke sr) := hclean
  have hdata : data' = held := by
    have hq2 : q2 = _ := congrArg Core.seq ((congrArg (fun u : State => u.core core) hs3).trans hearly.holds)
    have hnone : q2.srPoison = [] := (congrArg Sequencer.srPoison hq2).trans hpoison
    unfold data'
    rw [hnone, if_neg (List.not_mem_nil), congrArg Sequencer.sr hq2]
    rfl
  have hop' : op' = op := hop
  rw [hop', if_neg (by omega), if_neg (by omega), hdata, hs3]
  exact hearly.track hjobs (t + 12) n _

/-! ### The store streamer -/

/-- The entry that a store's read of accumulator row r leaves where a landing on it is still to come. -/
def Matrix.earlyStore (a : Matrix) (q : Sequencer) (l : CoxLaunch) (r : Nat) : List CoxEntry :=
  match a.nextLanding q.stroke r with
  | some x => q.earlyEntry l 3 2 r [x]
  | none => []

theorem State.HoldsCore.earlyStores (a : Matrix) (n : Nat) (rows : List Nat) : ∀ {t : State} {k : Core}, s.HoldsCore t core k →
    t.coxNow core = some (j, l) → k.jobs = (s.core core).jobs → k.jobs ≠ [] → k.seq.stroke = n →
    s.HoldsCore (rows.foldl (fun s r => match a.nextLanding n r with | some x => s.early core 3 2 r [x] | none => s) t) core
      (k.logged (rows.flatMap (a.earlyStore k.seq l))) := by
  induction rows with
  | nil =>
    intro t k h _ _ _ _
    rw [List.flatMap_nil, logged_nil]
    exact h
  | cons r rows ih =>
    intro t k h hnow hsame hjobs hn
    subst hn
    rw [List.flatMap_cons, ← logged_logged, List.foldl_cons]
    have hrow : s.HoldsCore (match a.nextLanding k.seq.stroke r with | some x => t.early core 3 2 r [x] | none => t) core
        (k.logged (a.earlyStore k.seq l r)) := by
      unfold Matrix.earlyStore
      split
      next x _ => exact h.early hnow hjobs 3 2 r [x]
      next =>
        rw [logged_nil]
        exact h
    exact ih hrow ((hrow.coxNow hsame).trans ((h.coxNow hsame).symm.trans hnow)) hsame hjobs rfl

/-- The store streamer reads its rows of the accumulator. -/
theorem coxStore_reads (hnow : s.coxNow core = some (j, l)) (hpoison : (s.core core).array.accPoison = [])
    (herr : (s.core core).array.accErr = []) (hop : bits (slotS (s.core core).seq.word) 0 4 = 1) :
    let k := s.core core
    let q := k.seq
    let v := slotS q.word
    let pair := convPair (bits v 17 3)
    let row := q.rowIndex (bits v 8 9) (bits v 26 3) (if pair then 2 else 1)
    s.HoldsCore (s.coxStore core) core ((k.logged ((if pair then [row, row + 1] else [row]).flatMap (k.array.earlyStore q l))).tracked
      (⟨q.stroke + 8, 3, q.pc, .scratch ((q.storeAddrs v).zip (k.array.converted (bits v 17 3) (bits v 21 5) row)) []⟩ :: q.generatorStep 3 v)) := by
  intro k q v pair row
  have hjobs : k.jobs ≠ [] := (jobs_of_coxNow hnow).2.2
  have hearly := (State.HoldsCore.refl s core).earlyStores k.array q.stroke (if pair then [row, row + 1] else [row]) hnow rfl hjobs rfl
  unfold State.coxStore
  extract_lets t conv row' rows s1 s2 k2 addrs bytes bad spoilt ag stored stepped
  have hs2 : s2 = s1 := accRead_clean (by rw [show s1.core core = _ from hearly.holds]; exact herr) _
  have hk2 : k2.array = k.array := by
    have hcore : k2 = _ := (congrArg (fun u : State => u.core core) hs2).trans (show s1.core core = _ from hearly.holds)
    rw [hcore]
    rfl
  have hspoilt : spoilt = [] := by
    have hnone : k2.array.accPoison = [] := (congrArg Matrix.accPoison hk2).trans hpoison
    simp [spoilt, bad, hnone]
  have hstored : stored = ⟨q.stroke + 8, 3, q.pc, .scratch ((q.storeAddrs v).zip (k.array.converted (bits v 17 3) (bits v 21 5) row)) []⟩ := by
    unfold stored bytes
    rw [hspoilt, hk2]
    rfl
  have hwrites : (if bit v 7 then [stored, stepped] else [stored]) = stored :: q.generatorStep 3 v := by
    unfold Sequencer.generatorStep
    split
    · rfl
    · rfl
  rw [if_neg (not_not_intro hop), hs2, hwrites, ← hstored]
  exact hearly.modSeq _ hjobs

/-- A core whose streamer has logged and tracked, after part p of its stroke. -/
def Core.streamedIn (k : Core) (p : Nat) (es : List CoxEntry) (xs : List CoxWrite) : Core :=
  { k with seq := { k.seq with phase := p, writes := k.seq.writes ++ xs, strokeLog := k.seq.strokeLog ++ es } }

theorem State.HoldsCore.streamed {es : List CoxEntry} {xs : List CoxWrite} (h : s.HoldsCore t core ((k.logged es).tracked xs)) (hjobs : k.jobs ≠ [])
    (p : Nat) : s.HoldsCore (t.modSeq core (fun q => { q with phase := p })) core (k.streamedIn p es xs) := h.modSeq _ hjobs

/-- The command of a load streamer's operation performs the part of the slot that holds it. -/
theorem State.AtStroke.stream {n op : Nat} (hn : n = 1 ∨ n = 2) (h : s.AtStroke core (3 + n) j l w) (hop : bits (slotOf w n) 0 4 = op)
    {es : List CoxEntry} {xs : List CoxWrite} (hload : s.HoldsCore (s.coxLoad core n) core (((s.core core).logged es).tracked xs)) :
    s.LeavesCore core (.next (s.coxStream core op)) ((s.core core).streamedIn (3 + n) es xs) := by
  have hslot := h.slotOp hop
  have hphase : (s.core core).seq.phase + 1 = 3 + n := by
    obtain ⟨-, -, hphase, -⟩ := h
    exact hphase
  obtain rfl | rfl := hn
  · have hbefore : (s.core core).seq.phase < 4 := by omega
    rw [State.coxStream, if_pos (by simp [hslot, hbefore])]
    exact h.row hslot (hload.streamed h.jobs 4)
  · have hbehind : ¬ (s.core core).seq.phase < 4 := by omega
    rw [State.coxStream, if_neg (by simp [hbehind])]
    exact h.row (due := fun k => k.slotOp 2 op) hslot (hload.streamed h.jobs 5)

/-- So does that of the store streamer's. -/
theorem State.AtStroke.storeStream (h : s.AtStroke core 6 j l w) (hop : bits (slotS w) 0 4 = 1)
    {es : List CoxEntry} {xs : List CoxWrite} (hstore : s.HoldsCore (s.coxStore core) core (((s.core core).logged es).tracked xs)) :
    s.LeavesCore core (exec (.store core) s) ((s.core core).streamedIn 6 es xs) :=
  h.row (due := fun k => k.slotOp 3 1) (h.slotOp hop) (hstore.streamed h.jobs 6)

/-- Settles O21: each slot reads and tracks as `coxLoad_reads`, `coxLoad_moves` and `coxStore_reads` say. -/
theorem streamerCommands : Obligations.StreamerCommands := by
  unfold Obligations.StreamerCommands
  intro s core j l w k q t
  refine ⟨?_, ?_⟩
  · intro n hn h hscratch hsoft hsr herr v ag row sr step reads moves data held
    obtain rfl : (s.core core).seq.word = w := h.word
    refine ⟨fun hop => ?_, fun hop => ?_, fun hop => ?_, fun hop => ?_, fun hop => ?_⟩
    · exact h.stream hn hop (coxLoad_reads h.now hscratch hsoft hop (by decide) (by decide))
    · exact h.stream hn hop (coxLoad_reads h.now hscratch hsoft hop (by decide) (by decide))
    · exact h.stream hn hop (coxLoad_reads h.now hscratch hsoft hop (by decide) (by decide))
    · exact h.stream hn hop (coxLoad_moves h.now hsr herr hop (by decide))
    · exact h.stream hn hop (coxLoad_moves h.now hsr herr hop (by decide))
  · intro h hpoison herr v conv pair row ag early hop
    obtain rfl : (s.core core).seq.word = w := h.word
    have hreads := h.storeStream hop (coxStore_reads h.now hpoison herr hop)
    have hrow : (s.core core).seq.rowIndex (bits (slotS (s.core core).seq.word) 8 9) (bits (slotS (s.core core).seq.word) 26 3)
        (if convPair (bits (slotS (s.core core).seq.word) 17 3) then 2 else 1) = row := by
      unfold convPair
      simp only [decide_eq_true_eq]
      rfl
    have hrows : (if convPair (bits (slotS (s.core core).seq.word) 17 3) then [row, row + 1] else [row]).flatMap
        ((s.core core).array.earlyStore (s.core core).seq l) = early row ++ (if pair then early (row + 1) else []) := by
      unfold convPair
      by_cases hpair : pair
      · rw [decide_eq_true hpair, if_pos rfl, if_pos hpair, List.flatMap_cons, List.flatMap_singleton]
        rfl
      · rw [decide_eq_false hpair, if_neg (by decide), if_neg hpair, List.flatMap_singleton, List.append_nil]
        rfl
    rw [hrow, hrows, Core.streamedIn, ← List.append_assoc] at hreads
    exact hreads

end Sys2Proof.Machine
end

section
/-! What lands in its stroke (R143, R146 to R148, R152, R181, R182). -/

namespace Sys2Proof.Machine

open Sys2Proof

variable {s t : State} {core w : Nat} {j : CoxJob} {l : CoxLaunch} {k : Core}

/-! ### Writes due -/

/-- The writes that land in stroke t. -/
def Sequencer.dueIn (q : Sequencer) (t : Nat) : List CoxWrite := q.writes.filter (fun x => decide (x.due = t))

/-- A staging register takes a row of those due. -/
def CoxWrite.toStaging (x : CoxWrite) (i : Nat) : Bool := match x.target with | .staging j _ _ => decide (i = j) | _ => false

theorem stagingNow_eq (q : Sequencer) (n i : Nat) : q.stagingNow n i = (q.dueIn n).filter (fun x => x.toStaging i) := by
  unfold Sequencer.stagingNow Sequencer.dueIn
  rw [List.filter_filter]
  congr 1
  funext x
  rw [Bool.and_comm]
  rfl

/-- Where nothing else is due, nothing is once the write has landed. -/
theorem dueIn_landed {q q' : Sequencer} {n : Nat} {x : CoxWrite} (h : q.dueIn n = [x]) (hwrites : q'.writes = q.writes.filter (fun y => decide (y ≠ x))) :
    q'.dueIn n = [] := by
  have hswap : q'.dueIn n = (q.dueIn n).filter (fun y => decide (y ≠ x)) := by
    unfold Sequencer.dueIn
    rw [hwrites, List.filter_filter, List.filter_filter]
    congr 1
    funext y
    exact Bool.and_comm _ _
  simp [hswap, h]

/-! ### Staging registers -/

theorem doubleWrites_nil (kind index : Nat) : t.doubleWrites core kind index [] = t := rfl

theorem doubleWrites_single (kind index : Nat) (x : Nat × Nat) : t.doubleWrites core kind index [x] = t := by simp [State.doubleWrites]

theorem landStaging_none {i : Nat} (h : (t.core core).seq.stagingNow (t.core core).seq.stroke i = []) : t.landStaging core i = t := by
  simp [State.landStaging, h, lastSlot, doubleWrites_nil]

/-- A staging register has taken its row. -/
def Sequencer.staged (q : Sequencer) (x : CoxWrite) (i : Nat) (d : List Byte) : Sequencer :=
  { q with
    sr := writeBytes q.sr (128 * i) d, srPoison := sremove q.srPoison i, srErr := merase q.srErr i
    writes := q.writes.filter (fun y => decide (y ≠ x)) }

theorem landStaging_one {i : Nat} {x : CoxWrite} {d : List Byte} {p : Bool} (h : (t.core core).seq.stagingNow (t.core core).seq.stroke i = [x])
    (hx : x.target = .staging i d p) : t.landStaging core i = t.modSeq core (fun q => q.staged x i d) := by
  simp [State.landStaging, h, lastSlot, doubleWrites_single, hx, Sequencer.staged]

theorem landStagings_none {is : List Nat} (h : (t.core core).seq.dueIn (t.core core).seq.stroke = []) :
    is.foldl (fun s i => s.landStaging core i) t = t := by
  induction is with
  | nil => rfl
  | cons i is ih =>
    rw [List.foldl_cons, landStaging_none (by rw [stagingNow_eq, h]; rfl)]
    exact ih

theorem landStagings_stores {is : List Nat} {x : CoxWrite} {bs : List (Nat × Byte)} {p : List Nat}
    (h : (t.core core).seq.dueIn (t.core core).seq.stroke = [x]) (hx : x.target = .scratch bs p) :
    is.foldl (fun s i => s.landStaging core i) t = t := by
  induction is with
  | nil => rfl
  | cons i is ih =>
    rw [List.foldl_cons, landStaging_none (by simp [stagingNow_eq, h, CoxWrite.toStaging, hx])]
    exact ih

/-- Of the staging registers the one takes its row that a write is due for. -/
theorem landStagings_one {is : List Nat} {i : Nat} {x : CoxWrite} {d : List Byte} {p : Bool}
    (ht : s.HoldsCore t core k) (hjobs : k.jobs ≠ [])
    (h : k.seq.dueIn k.seq.stroke = [x]) (hx : x.target = .staging i d p) (hi : i ∈ is) :
    s.HoldsCore (is.foldl (fun s i => s.landStaging core i) t) core { k with seq := k.seq.staged x i d } := by
  induction is with
  | nil => simp at hi
  | cons a is ih =>
    rw [List.foldl_cons]
    by_cases ha : a = i
    · subst ha
      have hnow : (t.core core).seq.stagingNow (t.core core).seq.stroke a = [x] := by
        simp [ht.holds, stagingNow_eq, h, CoxWrite.toStaging, hx]
      have hlands := ht.modSeq (fun q => q.staged x a d) hjobs
      rw [landStaging_one hnow hx, landStagings_none]
      · exact hlands
      · rw [hlands.holds]
        exact dueIn_landed h rfl
    · rw [landStaging_none]
      · exact ih ((List.mem_cons.mp hi).resolve_left (Ne.symm ha))
      · simp [ht.holds, stagingNow_eq, h, CoxWrite.toStaging, hx, ha]

/-! ### Stores and result rows -/

theorem landStores_eq (t : State) (core : Nat) : t.landStores core =
    ((t.core core).seq.dueIn (t.core core).seq.stroke).foldl (fun s x => s.modCore core (fun k => k.landStore x)) t := rfl

theorem landStores_none (h : (t.core core).seq.dueIn (t.core core).seq.stroke = []) : t.landStores core = t := by
  rw [landStores_eq, h]
  rfl

/-- The bytes of a store land in a scratch without poison. -/
theorem landStore_clean {x : CoxWrite} {bs : List (Nat × Byte)} (hx : x.target = .scratch bs []) (hpoison : k.scratchPoison = [])
    (hsoft : k.scratchSoft = []) : k.landStore x = { k with
      scratch := bs.foldl (fun m b => mset 0 m b.1 b.2) k.scratch
      seq := { k.seq with writes := k.seq.writes.filter (fun y => decide (y ≠ x)) } } := by
  simp [Core.landStore, hx, hpoison, hsoft]

theorem landStores_one {x : CoxWrite} (h : (t.core core).seq.dueIn (t.core core).seq.stroke = [x]) :
    t.landStores core = t.modCore core (fun k => k.landStore x) := by
  rw [landStores_eq, h]
  rfl

/-- The result commands whose rows land in stroke t. -/
def Matrix.dueRows (a : Matrix) (t : Nat) : List ResultCmd := a.results.filter (fun c => decide (c.head + 260 = t))

theorem landRows_eq (t : State) (core : Nat) : t.landRows core =
    (((t.core core).array.dueRows (t.core core).seq.stroke).foldl (fun s c =>
      (if c.op = 1 then s else s.accRead core (entryKeys c.fmt c.row)).modArray core (fun a => a.land c (t.core core).seq.stroke)) t).count
        core 0x0A 2 (t.coxPair core) ((t.core core).array.dueRows (t.core core).seq.stroke).length := rfl

theorem State.HoldsCore.landRows_none (ht : s.HoldsCore t core k) (h : k.array.dueRows k.seq.stroke = []) :
    s.HoldsCore (t.landRows core) core k := by
  rw [landRows_eq, ht.holds, h]
  exact ht.count _ _ _ _ _

theorem State.HoldsCore.landRows_one {c : ResultCmd} (ht : s.HoldsCore t core k) (hjobs : k.jobs ≠ [])
    (h : k.array.dueRows k.seq.stroke = [c]) (herr : k.array.accErr = []) :
    s.HoldsCore (t.landRows core) core { k with array := k.array.land c k.seq.stroke } := by
  have hread : (if c.op = 1 then t else t.accRead core (entryKeys c.fmt c.row)) = t := by
    rw [accRead_clean (by rw [ht.holds]; exact herr), ite_self]
  rw [landRows_eq, ht.holds, h, List.foldl_cons, List.foldl_nil, hread]
  exact (ht.modArray _ hjobs).count _ _ _ _ _

/-! ### The step of the array -/

/-- A map made of the values of a function at rising keys, those that are d left out, holds the function's value at each of them. -/
theorem mget_of_values {α : Type} [DecidableEq α] (d : α) (g : Nat → α) {is : List Nat} (h : is.Pairwise (· < ·)) (n : Nat) :
    mget d (is.filterMap (fun i => if g i = d then none else some (i, g i))) n = if n ∈ is then g n else d := by
  induction is with
  | nil => rfl
  | cons i is ih =>
    obtain ⟨hi, hrest⟩ := List.pairwise_cons.mp h
    specialize ih hrest
    have hnot : i ∉ is := fun hmem => Nat.lt_irrefl _ (hi i hmem)
    by_cases hd : g i = d
    · rw [List.filterMap_cons_none (by rw [if_pos hd]), ih]
      by_cases hn : n = i
      · subst hn
        simp [hnot, hd]
      · simp [hn]
    · rw [List.filterMap_cons_some (by rw [if_neg hd]), mget, ih]
      by_cases hn : i = n
      · subst hn
        simp
      · by_cases hlt : n < i
        · have hnone : n ∉ is := fun hmem => Nat.lt_asymm hlt (hi n hmem)
          simp [hn, Ne.symm hn, hlt, hnone]
        · simp [hn, Ne.symm hn, hlt]

/-- The map of one value for every cell holds each of them. -/
theorem mget_gridMap {α : Type} [DecidableEq α] (d : α) (f : Nat → Nat → α) {r i : Nat} (hr : r < 128) (hi : i < 128) :
    mget d (gridMap d f) (128 * r + i) = f r i := by
  refine (mget_of_values d (fun n => f (n / 128) (n % 128)) List.pairwise_lt_range _).trans ?_
  rw [if_pos (List.mem_range.mpr (by omega)), show (128 * r + i) / 128 = r by omega, show (128 * r + i) % 128 = i by omega]

/-- A write delivers a row to the A path (false) or to the B-load path (true). -/
def CoxWrite.toPath (x : CoxWrite) (b : Bool) : Bool := match x.target with
  | .pathA _ => !b
  | .pathB _ => b
  | _ => false

/-- The rows that are due on a path. -/
def Sequencer.pathDue (q : Sequencer) (b : Bool) : List CoxWrite := (q.dueIn q.stroke).filter (fun x => x.toPath b)

theorem coxPath_eq (t : State) (core : Nat) (b : Bool) : t.coxPath core b =
    let ws := (t.core core).seq.pathDue b
    let u := (t.doubleWrites core (if b then 6 else 5) 0 (ws.map (fun x => (x.slot, x.pc)))).modSeq core (fun q =>
      { q with writes := q.writes.filter (fun y => decide (y ∉ ws)) })
    match lastSlot ws with
    | some x => match x.target with
      | .pathA d => (u, d)
      | .pathB d => (u, d)
      | _ => (u, zeros 128)
    | none => (u, zeros 128) := by
  have hdue : (t.core core).seq.pathDue b = (t.core core).seq.writes.filter (fun x => decide (x.due = (t.core core).seq.stroke) && x.toPath b) := by
    simp only [Sequencer.pathDue, Sequencer.dueIn, List.filter_filter, Bool.and_comm]
  rw [hdue]
  rfl

theorem State.HoldsCore.coxPath_none {b : Bool} (ht : s.HoldsCore t core k) (hjobs : k.jobs ≠ []) (h : k.seq.pathDue b = []) :
    s.HoldsCore (t.coxPath core b).1 core k ∧ (t.coxPath core b).2 = zeros 128 := by
  have hsame := ht.modSeq (fun q => { q with writes := q.writes.filter (fun y => decide (y ∉ ([] : List CoxWrite))) }) hjobs
  rw [coxPath_eq, ht.holds, h]
  simp only [List.not_mem_nil, not_false_eq_true, decide_true, List.filter_true] at hsame ⊢
  exact ⟨hsame, rfl⟩

theorem State.HoldsCore.coxPath_one {x : CoxWrite} {d : List Byte} (ht : s.HoldsCore t core k) (hjobs : k.jobs ≠ []) (h : k.seq.pathDue false = [x])
    (hx : x.target = .pathA d) : s.HoldsCore (t.coxPath core false).1 core
      { k with seq := { k.seq with writes := k.seq.writes.filter (fun y => decide (y ≠ x)) } } ∧ (t.coxPath core false).2 = d := by
  have htaken := ht.modSeq (fun q => { q with writes := q.writes.filter (fun y => decide (y ≠ x)) }) hjobs
  rw [coxPath_eq, ht.holds, h]
  simp only [List.map_cons, List.map_nil, doubleWrites_single, List.mem_singleton, lastSlot, List.foldl_cons, List.foldl_nil, hx, and_true]
  exact htaken

theorem checkRows_clean (h : (t.core core).array.rowErr = []) : t.checkRows core = t := by simp [State.checkRows, h]

/-- The array takes its step with what the paths have delivered. -/
theorem State.HoldsCore.coxArray {q1 q2 : Sequencer} {dA dB : List Byte} (hjobs : k.jobs ≠ []) (herr : k.array.rowErr = [])
    (hA : s.HoldsCore (t.coxPath core false).1 core { k with seq := q1 } ∧ (t.coxPath core false).2 = dA)
    (hB : s.HoldsCore ((t.coxPath core false).1.coxPath core true).1 core { k with seq := q2 } ∧
      ((t.coxPath core false).1.coxPath core true).2 = dB) :
    s.HoldsCore (t.coxArray core) core { k with seq := q2, array := k.array.step q2.stroke dA dB } := by
  obtain ⟨-, rfl⟩ := hA
  obtain ⟨hB, rfl⟩ := hB
  have hstep := hB.modArray (fun a => a.step q2.stroke (t.coxPath core false).2 ((t.coxPath core false).1.coxPath core true).2) hjobs
  have heq : t.coxArray core = ((((t.coxPath core false).1.coxPath core true).1.checkRows core).modArray core (fun a =>
      a.step (((t.coxPath core false).1.coxPath core true).1.core core).seq.stroke (t.coxPath core false).2
        ((t.coxPath core false).1.coxPath core true).2)) := rfl
  rw [heq, checkRows_clean (by rw [hB.holds]; exact herr), hB.holds]
  exact hstep

/-- The array of a stroke in which no row commits. -/
theorem step_of_commits_nil {a : Matrix} {t : Nat} (dA dB : List Byte) (h : a.commits t = []) :
    (a.step t dA dB).pass = gridMap 0 (a.passed t dA dB) ∧ (a.step t dA dB).weights = a.weights ∧ (a.step t dA dB).modes = a.modes ∧
    (a.step t dA dB).acc = a.acc ∧ (a.step t dA dB).results = a.results := by
  simp only [Matrix.step, h, List.foldl_nil, and_self]

/-- The array of a stroke in which one row commits. -/
theorem step_of_commits_one {a : Matrix} {t r : Nat} {e : LoadPhase} (dA dB : List Byte) (h : a.commits t = [(r, e)]) :
    (a.step t dA dB).acc = a.acc ∧ (a.step t dA dB).modes = mset {} a.modes r ⟨e.mode, e.asgn, e.bsgn, decide (r < e.kr)⟩ ∧
    (a.step t dA dB).weights = (List.range 128).foldl (fun m i => mset 0 m (128 * r + i) (mget 0 (a.step t dA dB).pass (128 * r + i))) a.weights := by
  simp only [Matrix.step, h, List.foldl_cons, List.foldl_nil, Matrix.commitRow, and_self]

theorem coxLandings_eq (t : State) (core : Nat) :
    t.coxLandings core = (((List.range 8).foldl (fun s i => s.landStaging core i) t).landStores core).landRows core := rfl

theorem mem_of_dueIn {q : Sequencer} {n : Nat} {x : CoxWrite} (h : q.dueIn n = [x]) : x ∈ q.writes ∧ x.due = n := by
  have hx : x ∈ q.dueIn n := by simp [h]
  simpa [Sequencer.dueIn] using hx

/-- Some write of the stroke is of a kind that the one write due is of. -/
theorem any_of_dueIn {q : Sequencer} {n : Nat} {x : CoxWrite} {f : CoxTarget → Bool} (h : q.dueIn n = [x]) (hx : f x.target = true) :
    q.writes.any (fun x => decide (x.due = n) && f x.target) = true := by
  obtain ⟨hmem, hdue⟩ := mem_of_dueIn h
  exact List.any_eq_true.mpr ⟨x, hmem, by simp [hdue, hx]⟩

section
variable (hrows : (s.core core).array.dueRows (s.core core).seq.stroke = [])
include hrows

theorem coxLandings_staging {x : CoxWrite} {i : Nat} {d : List Byte} {p : Bool} (hjobs : (s.core core).jobs ≠ [])
    (hdue : (s.core core).seq.dueIn (s.core core).seq.stroke = [x]) (hx : x.target = .staging i d p) (hi : i < 8) :
    s.HoldsCore (s.coxLandings core) core { s.core core with seq := (s.core core).seq.staged x i d } := by
  have hstaged := landStagings_one (is := List.range 8) (.refl s core) hjobs hdue hx (List.mem_range.mpr hi)
  have hstores := landStores_none (core := core) (t := (List.range 8).foldl (fun s i => s.landStaging core i) s) (by
    rw [hstaged.holds]
    exact dueIn_landed hdue rfl)
  rw [coxLandings_eq, hstores]
  exact hstaged.landRows_none hrows

theorem coxLandings_store {x : CoxWrite} {bs : List (Nat × Byte)} (hjobs : (s.core core).jobs ≠ [])
    (hdue : (s.core core).seq.dueIn (s.core core).seq.stroke = [x]) (hx : x.target = .scratch bs [])
    (hpoison : (s.core core).scratchPoison = []) (hsoft : (s.core core).scratchSoft = []) :
    s.HoldsCore (s.coxLandings core) core { s.core core with
      scratch := bs.foldl (fun m b => mset 0 m b.1 b.2) (s.core core).scratch
      seq := { (s.core core).seq with writes := (s.core core).seq.writes.filter (fun y => decide (y ≠ x)) } } := by
  have hland := landStore_clean hx hpoison hsoft
  have hstored := (State.HoldsCore.refl s core).modCore (fun k => k.landStore x) (by rw [hland]; exact hjobs)
  rw [hland] at hstored
  rw [coxLandings_eq, landStagings_stores hdue hx, landStores_one hdue]
  exact hstored.landRows_none hrows

end

theorem coxLandings_row {c : ResultCmd} (hjobs : (s.core core).jobs ≠ []) (hdue : (s.core core).seq.dueIn (s.core core).seq.stroke = [])
    (herr : (s.core core).array.accErr = []) (hrows : (s.core core).array.dueRows (s.core core).seq.stroke = [c]) :
    s.HoldsCore (s.coxLandings core) core { s.core core with array := (s.core core).array.land c (s.core core).seq.stroke } := by
  rw [coxLandings_eq, landStagings_none hdue, landStores_none hdue]
  exact (State.HoldsCore.refl s core).landRows_one hjobs hrows herr

theorem coxArray_delivery {x : CoxWrite} {d : List Byte} (hjobs : (s.core core).jobs ≠ [])
    (hdue : (s.core core).seq.dueIn (s.core core).seq.stroke = [x]) (hx : x.target = .pathA d) (herr : (s.core core).array.rowErr = []) :
    s.HoldsCore (s.coxArray core) core { s.core core with
      seq := { (s.core core).seq with writes := (s.core core).seq.writes.filter (fun y => decide (y ≠ x)) }
      array := (s.core core).array.step (s.core core).seq.stroke d (zeros 128) } := by
  have hA := (State.HoldsCore.refl s core).coxPath_one hjobs (x := x) (d := d) (by
    rw [Sequencer.pathDue, hdue]
    simp [CoxWrite.toPath, hx]) hx
  have hB := hA.1.coxPath_none (b := true) hjobs (by
    rw [Sequencer.pathDue, dueIn_landed (n := (s.core core).seq.stroke) hdue rfl]
    rfl)
  exact State.HoldsCore.coxArray hjobs herr hA hB

theorem coxArray_nothing (hjobs : (s.core core).jobs ≠ []) (hdue : (s.core core).seq.dueIn (s.core core).seq.stroke = [])
    (herr : (s.core core).array.rowErr = []) :
    s.HoldsCore (s.coxArray core) core { s.core core with array := (s.core core).array.step (s.core core).seq.stroke (zeros 128) (zeros 128) } := by
  have hnone (b : Bool) : (s.core core).seq.pathDue b = [] := by rw [Sequencer.pathDue, hdue]; rfl
  have hA := (State.HoldsCore.refl s core).coxPath_none hjobs (hnone false)
  exact State.HoldsCore.coxArray hjobs herr hA (hA.1.coxPath_none hjobs (hnone true))

/-- What the pass registers hold after a stroke without a load phase. -/
theorem passed_step {a : Matrix} (t : Nat) (d : List Byte) (hloads : a.loads = []) {r : Nat} (hr : r < 128) :
    mget 0 (a.step t d (zeros 128)).pass (128 * r) = d.getD r 0 ∧
    ∀ i < 127, mget 0 (a.step t d (zeros 128)).pass (128 * r + i + 1) = mget 0 a.pass (128 * r + i) := by
  have hcommits : a.commits t = [] := by simp [Matrix.commits, hloads]
  have hcell {i : Nat} (hi : i < 128) : mget 0 (a.step t d (zeros 128)).pass (128 * r + i) = a.passed t d (zeros 128) r i := by
    rw [(step_of_commits_nil d (zeros 128) hcommits).1, mget_gridMap 0 _ hr hi]
  refine ⟨(hcell (i := 0) (by decide)).trans ?_, fun i hi => (hcell (i := i + 1) (by omega)).trans ?_⟩
  · simp [Matrix.passed, Matrix.edge, hloads]
  · simp [Matrix.passed]

/-- Settles O22: a landing of each kind, and the array's step. -/
theorem strokeLandings : Obligations.StrokeLandings := by
  unfold Obligations.StrokeLandings
  intro s core j l w k q a t due rows passed
  refine ⟨fun h hrows => ⟨fun x i d p hdue hx hi => ?_, fun x bs hdue hx hpoison hsoft => ?_⟩, fun h hdue herr c hrows => ?_,
    fun h herr => ⟨fun x d hdue hx hloads => ?_, fun r e hdue hcommits hr => ?_⟩⟩
  · exact h.row (any_of_dueIn (f := fun x => match x with | .staging _ _ _ => true | _ => false) hdue (by rw [hx]))
      ((coxLandings_staging hrows h.jobs hdue hx hi).modSeq (fun q => { q with phase := 2 }) h.jobs)
  · exact h.row (any_of_dueIn (f := fun x => match x with | .scratch _ _ => true | _ => false) hdue (by rw [hx]))
      ((coxLandings_store hrows h.jobs hdue hx hpoison hsoft).modSeq (fun q => { q with phase := 2 }) h.jobs)
  · have hmem : c ∈ rows := by simp [hrows]
    obtain ⟨hc, hhead⟩ := List.mem_filter.mp hmem
    have hdue' : decide (c.head + resultLatency = (s.core core).seq.stroke) = true := by
      unfold resultLatency
      exact hhead
    have hrow : s.LeavesArray core 2 (.next (s.coxRow core 2 (fun k => k.array.results.any (fun c => decide (c.head + resultLatency = k.seq.stroke)))))
        ((s.core core).array.land c (s.core core).seq.stroke) :=
      h.row (List.any_eq_true.mpr ⟨c, hc, hdue'⟩) ((coxLandings_row h.jobs hdue herr hrows).modSeq (fun q => { q with phase := 2 }) h.jobs)
    exact hrow
  · have hcommits : a.commits t = [] := by simp [Matrix.commits, hloads]
    obtain ⟨-, hkept⟩ := step_of_commits_nil d (zeros 128) hcommits
    refine ⟨_, h.row (any_of_dueIn (f := fun x => match x with | .pathA _ => true | .pathB _ => true | _ => false) hdue (by rw [hx]))
      ((coxArray_delivery h.jobs hdue hx herr).modSeq (fun q => { q with phase := 9 }) h.jobs), fun r hr => passed_step t d hloads hr, hkept⟩
  · obtain ⟨hacc, hmodes, hweights⟩ := step_of_commits_one (zeros 128) (zeros 128) hcommits
    refine ⟨_, h.row ?_ ((coxArray_nothing h.jobs hdue herr).modSeq (fun q => { q with phase := 9 }) h.jobs), ?_, hacc, hweights⟩
    · rw [hcommits]
      rfl
    · have henabled : (⟨e.mode, e.asgn, e.bsgn, true⟩ : RowMode) ≠ {} := fun he => Bool.noConfusion (congrArg RowMode.enable he)
      rw [hmodes, decide_eq_true hr, mset, if_neg henabled]
      exact mget_minsert_same _ _ _ _

end Sys2Proof.Machine
end

section
/-! Slots X and Y without a wait (R174 to R177, R186, R189). -/

namespace Sys2Proof.Machine

open Sys2Proof

variable {s t : State} {core w p : Nat} {j : CoxJob} {l : CoxLaunch} {k : Core}

/-- The command of slot X's operation performs its part, which changes the sequencer. -/
theorem State.AtStroke.slotX {op : Nat} {q : Sequencer} (h : s.AtStroke core 7 j l w) (hop : bits (slotX w) 0 4 = op)
    (hscalar : s.HoldsCore (s.coxScalar core) core { s.core core with seq := q }) :
    s.LeavesSeq core (.next (s.coxRow core 7 (fun k => k.slotOp 4 op))) { q with phase := 7 } :=
  h.row (h.slotOp hop) (hscalar.modSeq (fun q => { q with phase := 7 }) h.jobs)

/-- So does that of slot Y's. -/
theorem State.AtStroke.slotY {op : Nat} {q : Sequencer} (h : s.AtStroke core 8 j l w) (hop : bits (slotY w) 0 4 = op)
    (hsync : s.HoldsCore (s.coxSync core) core { s.core core with seq := q }) :
    s.LeavesSeq core (.next (s.coxRow core 8 (fun k => k.slotOp 5 op))) { q with phase := 8 } :=
  h.row (h.slotOp hop) (hsync.modSeq (fun q => { q with phase := 8 }) h.jobs)

/-- A branch of slot X: the sequencer is changed where it is taken. -/
theorem State.HoldsCore.branch (b : Bool) (f : Sequencer → Sequencer) (h : s.HoldsCore t core k) (hjobs : k.jobs ≠ []) :
    s.HoldsCore (if b then t.modSeq core f else t) core { k with seq := if b then f k.seq else k.seq } := by
  cases b
  · exact h
  · exact h.modSeq f hjobs

/-- What a branch leaves of the sequencer, after its part. -/
theorem phase_ite (b : Bool) (q : Sequencer) (n p : Nat) :
    { (if b then { q with nextPc := some n } else q) with phase := p } =
      if b then { q with phase := p, nextPc := some n } else { q with phase := p } := by cases b <;> rfl

/-- Settles O23: each operation's equation, and what follows from it. -/
theorem scalarAndFlagCommands : Obligations.ScalarAndFlagCommands := by
  unfold Obligations.ScalarAndFlagCommands
  intro s core j l w q t tracked
  refine ⟨?_, ?_⟩
  · intro h v op imm wide n taken
    obtain rfl : (s.core core).seq.word = w := h.word
    have hold := State.HoldsCore.refl s core
    have htaken {op : Nat} (b : Bool) (hop : bits v 0 4 = op)
        (hscalar : s.coxScalar core = if b then s.modSeq core (fun q => { q with nextPc := some (imm % 2048) }) else s) :
        taken (.next (s.coxRow core 7 (fun k => k.slotOp 4 op))) b := by
      have hleaves := h.slotX hop (hscalar ▸ hold.branch b (fun q => { q with nextPc := some (imm % 2048) }) h.jobs)
      rw [phase_ite] at hleaves
      exact hleaves
    refine ⟨fun hop => ?_, fun hop => ?_, ?_, fun hop => ?_, fun hop => ?_, fun hop => ?_, fun hop => ?_, fun hop => ?_⟩
    · refine h.slotX hop (q := { q with writes := q.writes ++ [⟨t + 1, 4, q.pc, .scalar (bits v 4 6) wide⟩] }) ?_
      simp only [State.coxScalar, show bits (slotX (s.core core).seq.word) 0 4 = 1 from hop, ofNat_toMod]
      exact hold.modSeq _ h.jobs
    · refine h.slotX hop (q := { q with writes := q.writes ++ [⟨t + 1, 4, q.pc, .scalar (bits v 4 6) _⟩] }) ?_
      simp only [State.coxScalar, show bits (slotX (s.core core).seq.word) 0 4 = 2 from hop, BitVec.ofNat_add, ofNat_toMod]
      exact hold.modSeq _ h.jobs
    · intro hop count x
      have hloop : (s.coxScalar core) = 
          (if count = 0 then (s.modSeq core (fun q => { q with writes := q.writes ++ [⟨t + 1, 4, q.pc, .scalar (4 + n) 0⟩] })).modSeq core (fun q =>
              { q with nextPc := some (imm % 2048), zeroTrips := min (q.zeroTrips + 1) (2 ^ 24 - 1) })
            else (s.modSeq core (fun q => { q with writes := q.writes ++ [⟨t + 1, 4, q.pc, .scalar (4 + n) 0⟩] })).modSeq core (fun q =>
              { q with loops := ⟨n, q.pc + 1, imm % 2048, count⟩ :: q.loops })) := by
        simp only [State.coxScalar, show bits (slotX (s.core core).seq.word) 0 4 = 3 from hop]
        rfl
      have hwritten := hold.modSeq (fun q => { q with writes := q.writes ++ [⟨t + 1, 4, q.pc, .scalar (4 + n) 0⟩] }) h.jobs
      refine ⟨fun hcount => ?_, fun hcount => ?_⟩
      · rw [if_neg hcount] at hloop
        exact h.slotX hop (hloop ▸ hwritten.modSeq _ h.jobs)
      · rw [if_pos hcount] at hloop
        exact h.slotX hop (hloop ▸ hwritten.modSeq _ h.jobs)
    · refine htaken true hop ?_
      simp only [State.coxScalar, show bits (slotX (s.core core).seq.word) 0 4 = 4 from hop]
      rfl
    · refine htaken (q.compare n != bit v 21) hop ?_
      simp only [State.coxScalar, show bits (slotX (s.core core).seq.word) 0 4 = 5 from hop]
      rfl
    · refine h.slotX hop (q := { q with writes := q.writes ++ [⟨t + 1, 4, q.pc, .cmp n _ _ _⟩] }) ?_
      simp only [State.coxScalar, show bits (slotX (s.core core).seq.word) 0 4 = 6 from hop]
      exact hold.modSeq _ h.jobs
    · refine htaken (bit q.cf (bits v 18 3) != bit v 21) hop ?_
      simp only [State.coxScalar, show bits (slotX (s.core core).seq.word) 0 4 = 7 from hop]
      rfl
    · refine h.slotX hop (q := { q with ending := true }) ?_
      simp only [State.coxScalar, show bits (slotX (s.core core).seq.word) 0 4 = 8 from hop]
      exact hold.modSeq _ h.jobs
  · intro h v op
    obtain rfl : (s.core core).seq.word = w := h.word
    have hold := State.HoldsCore.refl s core
    have hnow : s.coxNow core = some (j, l) := h.now
    refine ⟨fun hop => ?_, fun hop => ?_, fun hop => ?_, ?_⟩
    · refine h.slotY hop (q := { q with writes := q.writes ++ [⟨t + 1, 5, q.pc, .flags true (bits v 4 8)⟩] }) ?_
      simp only [State.coxSync, hnow, show bits (slotY (s.core core).seq.word) 0 4 = 5 from hop]
      exact hold.modSeq _ h.jobs
    · refine h.slotY hop (q := { q with writes := q.writes ++ [⟨t + 1, 5, q.pc, .flags false (bits v 4 8)⟩] }) ?_
      simp only [State.coxSync, hnow, show bits (slotY (s.core core).seq.word) 0 4 = 6 from hop]
      exact hold.modSeq _ h.jobs
    · refine h.slotY hop (q := q) ?_
      simp only [State.coxSync, hnow, show bits (slotY (s.core core).seq.word) 0 4 = 7 from hop]
      exact hold.of_unseen (traceEvent_unseen ..) (traceEvent_cores ..)
    · intro key y hop hlanding harmed hkind hpos hroom
      have hpart : s.coxPart core 8 = (s.setSlot key { y with remain := y.remain - bits v 14 8 }).modSeq core (fun q => { q with phase := 8 }) := by
        have hsync : s.coxSync core = s.setSlot key { y with remain := y.remain - bits v 14 8 } := by
          simp only [State.coxSync, hnow, show bits (slotY (s.core core).seq.word) 0 4 = 1 from hop]
          rw [show s.landing l.ctx (bits (slotY (s.core core).seq.word) 4 10) (.fromCore core) = .slot key from hlanding]
          exact arrive_full harmed hkind (Nat.ne_of_gt hpos) hroom
        rw [← hsync]
        rfl
      have hholds := (State.HoldsCore.refl (s.setSlot key { y with remain := y.remain - bits v 14 8 }) core).modSeq (fun q => { q with phase := 8 }) h.jobs
      rw [← hpart] at hholds
      have hrow := h.row_eq (due := fun k => k.slotOp 5 1) (h.slotOp hop) (hholds.stalled.trans h.1)
      have hleaves := hholds.leaves
      rw [← hrow] at hleaves
      exact hleaves

end Sys2Proof.Machine
end

section
/-! The waits of slot Y (R177, R178, R180). -/

namespace Sys2Proof.Machine

open Sys2Proof

variable {s t : State} {core w key op : Nat} {j : CoxJob} {l : CoxLaunch}

/-- A wait that nothing has answered yet registers at a sound slot, with the moment at which it did. -/
theorem wait_registers {p : Party} {mode target : Nat} (h : s.Armed key)
    (hnot : mode = 1 → Waiter.ready ⟨p, mode, target, 0⟩ (s.slot key).kind (s.slot key).generation = false) :
    s.wait key p mode target =
      (s.sample.1.modSlot key (fun y => { y with waiters := y.waiters ++ [⟨p, mode, target, s.sample.2⟩] }), none) := by
  have hmeet := meetSlot_armed h
  obtain ⟨hstate, -⟩ := h
  have hready : ¬ ((decide (mode = 1) && Waiter.ready ⟨p, mode, target, 0⟩ (s.slot key).kind (s.slot key).generation) = true) := by
    rw [Bool.and_eq_true, decide_eq_true_eq]
    rintro ⟨hmode, hready⟩
    exact Bool.false_ne_true ((hnot hmode).symm.trans hready)
  simp only [State.wait, hmeet, hstate]
  exact if_neg hready

/-- The program of a core has come to the issue point of a word whose slot Y holds a wait that has not been registered. -/
def State.AtIssue (s : State) (core : Nat) (j : CoxJob) (l : CoxLaunch) (w : Nat) : Prop :=
  let q := (s.core core).seq
  s.stalled = false ∧ s.coxNow core = some (j, l) ∧ q.phase = 0 ∧ q.draining = false ∧ q.active = true ∧
    (l.limit = 0 ∨ q.issued < l.limit) ∧ j.words[q.pc]? = some w ∧ q.pc ∉ j.wordErr ∧ coxCheck (s.core core).array q j.words.length w = none ∧
    q.ywait = .none

/-- A wait that registers leaves its word where it is. -/
theorem State.AtIssue.waits (h : s.AtIssue core j l w) (hop : bits (slotY w) 0 4 = op) (hwaits : op ∈ [2, 3, 4])
    (hwait : s.coxWait core l.ctx (slotY w) = (t, none)) (hserved : t.stalled = false) : s.coxWaitRow core op = t := by
  obtain ⟨-, hnow, hphase, hdrain, hactive, hlimit, hword, herr, hcheck, hywait⟩ := h
  have hslot : (s.core core).slotOp 5 op = true := by
    simp [Core.slotOp, (jobs_of_coxNow hnow).1, hdrain, hword, slotOf, hop]
  have hgoes : ¬ ((!(s.core core).seq.active) = true ∨ l.limit ≠ 0 ∧ l.limit ≤ (s.core core).seq.issued) := by
    simp only [hactive, Bool.not_true, Bool.false_eq_true, false_or, not_and, not_le]
    intro hne
    exact hlimit.resolve_left hne
  have hbegin : s.beginStroke core = (t, false) := by
    simp only [State.beginStroke, hnow, hphase, hdrain, hword, hcheck, hywait, hwait, if_neg hgoes, if_neg herr, hop, if_pos hwaits, ne_eq,
      not_true_eq_false, if_false, Bool.false_eq_true]
  rw [State.coxWaitRow, if_pos hslot, hbegin]
  exact orWait_of_served _ _ hserved

/-- What the wait of slot Y with field y asks of its landing's slot. -/
def State.coxAsks (s : State) (core key ctx y : Nat) : State × Option (Nat × Nat) :=
  match bits y 0 4 with
  | 2 => s.wait key (.cox core) 0 0
  | 3 => s.arriveWait key ctx (bits y 14 8) (.cox core)
  | _ => s.wait key (.cox core) 1 ((s.core core).seq.scalar (bits y 14 6) % 2 ^ 32)

section
variable {ctx y : Nat}

theorem coxAsks_wait (h : bits y 0 4 = 2) : s.coxAsks core key ctx y = s.wait key (.cox core) 0 0 := by simp only [State.coxAsks, h]

theorem coxAsks_arrwait (h : bits y 0 4 = 3) (hkind : (s.slot key).kind = 0) : s.coxAsks core key ctx y =
    (s.arrive key ctx (bits y 14 8)).wait key (.cox core) 1 (((s.slot key).gen + 1) % 2 ^ 32) := by
  simp only [State.coxAsks, h, State.arriveWait]
  exact if_neg (fun hone => by omega)

theorem coxAsks_waitgen (h : bits y 0 4 = 4) :
    s.coxAsks core key ctx y = s.wait key (.cox core) 1 ((s.core core).seq.scalar (bits y 14 6) % 2 ^ 32) := by simp only [State.coxAsks, h]

end

/-- A wait that registers does so under its landing ID. -/
theorem coxWait_none {ctx y : Nat} {u : State} (hlanding : s.landing ctx (bits y 4 10) (.fromCore core) = .slot key)
    (hwait : s.coxAsks core key ctx y = (u, none)) :
    s.coxWait core ctx y = (u.modSeq core (fun q => { q with ywait := .registered (bits y 4 10) 0 }), none) := by
  have heq : s.coxWait core ctx y = match s.coxAsks core key ctx y with
      | (s, some (st, _)) => (s, some (st, bits y 4 10))
      | (s, none) => (s.modSeq core (fun q => { q with ywait := .registered (bits y 4 10) 0 }), none) := by
    unfold State.coxWait
    simp only [hlanding]
    rfl
  rw [heq, hwait]

/-- What a registered wait leaves: the slot with the waiter, and the sequencer that stands at its word. -/
theorem State.AtIssue.registers {u : State} {x : Slot} (h : s.AtIssue core j l w) (hop : bits (slotY w) 0 4 = op) (hwaits : op ∈ [2, 3, 4])
    (hlanding : s.landing l.ctx (bits (slotY w) 4 10) (.fromCore core) = .slot key) (hwait : s.coxAsks core key l.ctx (slotY w) = (u, none))
    (hunseen : u.unseen = (s.setSlot key x).unseen) (hcores : u.cores = s.cores) :
    (s.setSlot key x).LeavesSeq core (.next (s.coxWaitRow core op)) { (s.core core).seq with ywait := .registered (bits (slotY w) 4 10) 0 } := by
  have hjobs : (s.core core).jobs ≠ [] := (jobs_of_coxNow h.2.1).2.2
  have hslot := (State.HoldsCore.refl (s.setSlot key x) core).of_unseen hunseen hcores
  have hholds := hslot.modSeq (fun q => { q with ywait := .registered (bits (slotY w) 4 10) 0 }) hjobs
  rw [h.waits hop hwaits (coxWait_none hlanding hwait) (hholds.stalled.trans h.1)]
  exact hholds.leaves

/-- A slot that is written and then changed at a later moment. -/
theorem sampled_modSlot_unseen {x : Slot} {f : Slot → Slot} (hx : x.state = .armed) (hf : (f x).state = .armed) :
    ((s.setSlot key x).sample.1.modSlot key f).unseen = (s.setSlot key (f x)).unseen := by
  have hmod : (s.setSlot key x).sample.1.modSlot key f = (s.setSlot key x).sample.1.setSlot key (f ((s.setSlot key x).slot key)) := rfl
  have htwice : (s.setSlot key x).setSlot key (f x) = s.setSlot key (f x) := by
    simp only [setSlot_eq_minsert hx, setSlot_eq_minsert hf, minsert_minsert_same]
  rw [hmod, slot_setSlot_armed hx, ← htwice]
  rfl

/-- The generation that an arrival joins has not been reached before it is complete. -/
theorem ready_next {p : Party} {kind gen : Nat} (hkind : kind ≠ 1) (hgen : gen < 2 ^ 32) :
    Waiter.ready ⟨p, 1, (gen + 1) % 2 ^ 32, 0⟩ kind gen = false := by
  have hbehind : ¬ (gen + 2 ^ 32 - (gen + 1) % 2 ^ 32 % 2 ^ 32) % 2 ^ 32 < 2 ^ 31 := by omega
  simp only [Waiter.ready, one_ne_zero, if_false, if_neg hkind, decide_eq_false hbehind]

/-- Settles O24: each wait registers where nothing has answered it. -/
theorem strokeWaits : Obligations.StrokeWaits := by
  unfold Obligations.StrokeWaits
  intro s core j l w key k q v y g registers hserved hnow hphase hdrain hactive hlimit hword herr hcheck hywait hlanding harmed
  have hat : s.AtIssue core j l w := ⟨hserved, hnow, hphase, hdrain, hactive, hlimit, hword, herr, hcheck, hywait⟩
  refine ⟨fun hop => ?_, fun hop hkind hgen hpos hroom => ?_, fun hop hnot => ?_⟩
  · have hwait := wait_registers (p := .cox core) (mode := 0) (target := 0) harmed (fun hmode => absurd hmode (by decide))
    exact ⟨_, s.sample.2, rfl, now_le_sample s, hat.registers hop (by decide) hlanding ((coxAsks_wait hop).trans hwait) rfl rfl⟩
  · generalize hx : ({ y with remain := y.remain - bits v 14 8 } : Slot) = x
    have hxs : x.state = .armed := hx ▸ harmed.1
    have hslot : (s.setSlot key x).slot key = x := slot_setSlot_armed hxs
    have harmed' : (s.setSlot key x).Armed key := by
      obtain ⟨-, hmirror, hsound, hmoves⟩ := harmed
      unfold State.Armed
      rw [hslot, ← hx]
      exact ⟨hx ▸ hxs, hmirror, hsound, hmoves⟩
    have hwait := wait_registers (p := .cox core) (mode := 1) (target := (y.gen + 1) % 2 ^ 32) harmed' (fun _ => by
      have hkind' : y.kind ≠ 1 := fun hone => absurd (hkind.symm.trans hone) (by decide)
      rw [hslot, Slot.generation, ← hx, if_neg hkind']
      exact ready_next hkind' hgen)
    have harrive : s.arrive key l.ctx (bits v 14 8) = s.setSlot key x := hx ▸ arrive_full harmed hkind (Nat.ne_of_gt hpos) hroom
    have hasks := (coxAsks_arrwait (core := core) (ctx := l.ctx) hop hkind).trans ((congrArg (fun u : State =>
      u.wait key (.cox core) 1 ((y.gen + 1) % 2 ^ 32)) harrive).trans hwait)
    have hleaves := hat.registers (x := { x with waiters := x.waiters ++ [⟨.cox core, 1, (y.gen + 1) % 2 ^ 32, (s.setSlot key x).sample.2⟩] })
      hop (by decide) hlanding hasks ?_ rfl
    · exact ⟨_, (s.setSlot key x).sample.2, rfl, now_le_sample _, hleaves⟩
    · exact sampled_modSlot_unseen hxs hxs
  · have hwait := wait_registers (p := .cox core) (mode := 1) (target := g) harmed (fun _ => by
      unfold Waiter.ready
      simp only [one_ne_zero, if_false]
      split
      next hone => 
        rw [if_pos hone] at hnot
        rw [Slot.generation, if_pos hone]
        exact decide_eq_false (Nat.not_le.mpr hnot)
      next hne =>
        rw [if_neg hne] at hnot
        rw [Slot.generation, if_neg hne, Nat.mod_eq_of_lt (Nat.mod_lt _ (by decide) : g < 2 ^ 32)]
        exact decide_eq_false (Nat.not_lt.mpr hnot))
    exact ⟨_, s.sample.2, rfl, now_le_sample s, hat.registers hop (by decide) hlanding ((coxAsks_waitgen hop).trans hwait) rfl rfl⟩

end Sys2Proof.Machine
end

section
/-! How cox programs begin, run and end (R163 to R168, R180, R189 to R194). -/

namespace Sys2Proof.Machine

open Sys2Proof

variable {s t : State} {core : Nat} {j : CoxJob} {l : CoxLaunch} {k : Core}

/-! ### Steps that keep to their core -/

theorem State.HoldsCore.trans {u : State} {k' : Core} (h : s.HoldsCore t core k) (h' : t.HoldsCore u core k') : s.HoldsCore u core k' := by
  obtain ⟨hoff, -, hother⟩ := h
  obtain ⟨hoff', hcore', hother'⟩ := h'
  exact ⟨hoff'.trans hoff, hcore', fun i hi => (hother' i hi).trans (hother i hi)⟩

theorem State.HoldsCore.tick (h : s.HoldsCore t core k) {v : Nat} (hv : k.clock ≤ v) : s.HoldsCore (t.tick core v) core { k with clock := v } := by
  have htick := tick_only_clock t core v (by rw [h.holds]; exact hv)
  rw [h.holds] at htick
  exact h.trans htick

theorem State.HoldsCore.wakeGal (h : s.HoldsCore t core k) (g : Nat) : s.HoldsCore (t.wakeGal g) core k :=
  h.of_unseen (wakeGal_unseen t g) (wakeGal_cores t g)

theorem State.HoldsCore.traceEvent (h : s.HoldsCore t core k) (b pair ev : Nat) (payload : List Byte) :
    s.HoldsCore (t.traceEvent b pair ev payload) core k :=
  h.of_unseen (traceEvent_unseen ..) (traceEvent_cores ..)

/-- Entries in slot order. -/
def inSlotOrder (es : List CoxEntry) : List CoxEntry := (List.range 7).flatMap (fun n => es.filter (fun e => decide (e.slot = n)))

/-- A sequencer that has written these entries, as the log of its stroke. -/
def Sequencer.flushes (q : Sequencer) (es : List CoxEntry) : Sequencer := es.foldl Sequencer.writeLog { q with strokeLog := [] }

theorem flushLog_eq (t : State) (core pair : Nat) : t.flushLog core pair =
    (t.modSeq core (fun q => q.flushes (inSlotOrder (t.core core).seq.strokeLog))).count core 0x16 2 pair (t.core core).seq.strokeLog.length := rfl

theorem State.HoldsCore.flushLog (h : s.HoldsCore t core k) (hjobs : k.jobs ≠ []) (pair : Nat) :
    s.HoldsCore (t.flushLog core pair) core { k with seq := k.seq.flushes (inSlotOrder k.seq.strokeLog) } := by
  rw [flushLog_eq, h.holds]
  exact (h.modSeq _ hjobs).count _ _ _ _ _

/-- A log of one entry at most is in slot order. -/
theorem inSlotOrder_of_short {es : List CoxEntry} (h : es.length ≤ 1) (hslot : ∀ e ∈ es, e.slot ≤ 6) : inSlotOrder es = es := by
  unfold inSlotOrder
  match es, h with
  | [], _ => simp
  | [e], _ =>
    have he : e.slot ≤ 6 := hslot e (by simp)
    have hone (n : Nat) : [e].filter (fun e => decide (e.slot = n)) = if e.slot = n then [e] else [] := by
      simp only [List.filter_cons, List.filter_nil, decide_eq_true_eq]
    simp only [hone, List.range, List.range.loop, List.flatMap_cons, List.flatMap_nil]
    generalize e.slot = n at he
    interval_cases n <;> rfl

theorem State.HoldsCore.coxDone (h : s.HoldsCore t core k) (hjobs : k.jobs ≠ []) (launch : Nat) (out : Nat × Nat) :
    s.HoldsCore (t.coxDone core launch out) core (k.modJob launch (fun j => { j with done := some out })) := by
  have hdone := h.modCore (fun k => k.modJob launch (fun j => { j with done := some out })) (by simpa [Core.modJob] using hjobs)
  unfold State.coxDone
  simp only
  split
  · exact hdone.traceEvent _ _ _ _
  · exact hdone

theorem State.HoldsCore.queueChain (h : s.HoldsCore t core k) (hjobs : k.jobs ≠ []) (c : Chain) (hroom : k.engine.queue.length < 16)
    (hwaiting : k.engine.waiting = []) :
    s.HoldsCore (t.queueChain core c) core { k with engine := { k.engine with queue := k.engine.queue ++ [c] } } := by
  have hqueued := h.modCore (fun k => { k with engine :=
    if k.engine.queue.length < engineDepth ∧ k.engine.waiting = [] then { k.engine with queue := k.engine.queue ++ [c] }
    else { k.engine with waiting := k.engine.waiting ++ [c] } }) hjobs
  have hroom' : k.engine.queue.length < engineDepth ∧ k.engine.waiting = [] := ⟨hroom, hwaiting⟩
  simp only [if_pos hroom'] at hqueued
  exact hqueued

/-! ### The end of a drain -/

/-- One change after another of the job of a launch, which keep its launch. -/
theorem modJob_modJob (k : Core) (launch : Nat) (f g : CoxJob → CoxJob) (hf : ∀ x, (f x).launch = x.launch) :
    (k.modJob launch f).modJob launch g = k.modJob launch (fun x => g (f x)) := by
  have hmap : ((fun x : CoxJob => if x.launch = launch then g x else x) ∘ fun x => if x.launch = launch then f x else x) =
      fun x => if x.launch = launch then g (f x) else x := by
    funext x
    by_cases hx : x.launch = launch
    · simp [hx, hf]
    · simp [hx]
  simp only [Core.modJob, List.map_map, hmap]

/-- The core of a program whose drain is complete, before what follows from it. -/
def Core.drained (k : Core) (launch : Nat) (q : Sequencer) (f : CoxJob → CoxJob) : Core :=
  { k with
    jobs := k.jobs.map (fun x => if x.launch = launch then f { x with drained := true, dumpStatus := q.status } else x)
    seq := { q with draining := false, banks := [] }
    array := { k.array with run := none } }

theorem modJob_drained (k : Core) (launch : Nat) (q : Sequencer) (g : CoxJob → CoxJob) :
    (k.drained launch q id).modJob launch g = k.drained launch q g := by
  have h := modJob_modJob k launch (fun x => { x with drained := true, dumpStatus := q.status }) g (fun _ => rfl)
  exact congrArg (fun y : Core => ({ y with seq := { q with draining := false, banks := [] }, array := { k.array with run := none } } : Core)) h

theorem jobs_drained_ne {launch : Nat} {q : Sequencer} {f : CoxJob → CoxJob} (hjobs : k.jobs ≠ []) : (k.drained launch q f).jobs ≠ [] := by
  simpa [Core.drained] using hjobs

/-- The state in which the drain of a program has ended on its core. -/
def State.drainedBy (s : State) (core : Nat) (j : CoxJob) (l : CoxLaunch) : State :=
  (s.flushLog core (pairOf l.layer l.oper)).modCore core (fun k =>
    { k.modJob j.launch (fun j => { j with drained := true, dumpStatus := k.seq.status }) with
      seq := { k.seq with draining := false, banks := [] }, array := { k.array with run := none } })

theorem drainedBy_holds (hjobs : (s.core core).jobs ≠ []) (hlen : (s.core core).seq.strokeLog.length ≤ 1)
    (hslot : ∀ e ∈ (s.core core).seq.strokeLog, e.slot ≤ 6) :
    s.HoldsCore (s.drainedBy core j l) core ((s.core core).drained j.launch ((s.core core).seq.flushes (s.core core).seq.strokeLog) id) := by
  have hflush := (State.HoldsCore.refl s core).flushLog hjobs (pairOf l.layer l.oper)
  rw [inSlotOrder_of_short hlen hslot] at hflush
  exact hflush.modCore _ (by simpa [Core.modJob] using hjobs)

/-- The end of a drain: the program is done, or its dump joins the engine. -/
theorem drainEnd_eq (hnow : s.coxNow core = some (j, l)) (hdrain : (s.core core).seq.draining = true) (hphase : (s.core core).seq.phase = 0)
    (hbusy : (s.core core).coxBusy = false) (hdrained : j.drained = false) : exec (.drainEnd core) s = .next (
      if l.limit = 0 ∨ j.fault.isSome = true then (s.drainedBy core j l).coxDone core j.launch ((s.drainedBy core j l).coxStatus core j l)
      else ((s.drainedBy core j l).modCore core (fun k => k.modJob j.launch (fun j => { j with dump := 1 }))).queueChain core
        { owner := .dump j.launch, ctx := l.ctx, addr := l.dump + j.rank * 0x41000, layer := l.layer, oper := l.oper }) := by
  show execDrainEnd core s = _
  unfold execDrainEnd
  simp only [hnow]
  rw [if_pos ⟨hdrain, hphase, hbusy, hdrained⟩]
  split
  · rfl
  · rfl

/-- The end of a drain without a dump. -/
theorem drainEnd_done (hnow : s.coxNow core = some (j, l)) (hdrain : (s.core core).seq.draining = true) (hphase : (s.core core).seq.phase = 0)
    (hbusy : (s.core core).coxBusy = false) (hdrained : j.drained = false) (hlen : (s.core core).seq.strokeLog.length ≤ 1)
    (hslot : ∀ e ∈ (s.core core).seq.strokeLog, e.slot ≤ 6) (hlimit : l.limit = 0) (hfault : j.fault = none)
    (hstopped : ((s.core core).seq.flushes (s.core core).seq.strokeLog).stopped = false) :
    s.LeavesCore core (exec (.drainEnd core) s) ((s.core core).drained j.launch ((s.core core).seq.flushes (s.core core).seq.strokeLog) (fun x =>
      { x with done := some (match ((s.core core).seq.flushes (s.core core).seq.strokeLog).firstUnmapped with
        | some lid => (0x13, lid)
        | none => ((s.core core).seq.flushes (s.core core).seq.strokeLog).firstRelease.getD (0, 0)) })) := by
  have hjobs : (s.core core).jobs ≠ [] := (jobs_of_coxNow hnow).2.2
  have hends := drainedBy_holds (j := j) (l := l) hjobs hlen hslot
  have hdone := hends.coxDone (jobs_drained_ne hjobs) j.launch ((s.drainedBy core j l).coxStatus core j l)
  have hstatus : (s.drainedBy core j l).coxStatus core j l = match ((s.core core).seq.flushes (s.core core).seq.strokeLog).firstUnmapped with
      | some lid => (0x13, lid)
      | none => ((s.core core).seq.flushes (s.core core).seq.strokeLog).firstRelease.getD (0, 0) := by
    unfold State.coxStatus
    rw [hends.holds]
    simp only [Core.drained, hfault, hstopped]
    cases ((s.core core).seq.flushes (s.core core).seq.strokeLog).firstUnmapped with
    | none => rfl
    | some lid => rfl
  rw [drainEnd_eq hnow hdrain hphase hbusy hdrained, if_pos (Or.inl hlimit), ← modJob_drained, ← hstatus]
  exact hdone.leaves

/-- The end of a drain of a stroke-limited launch queues its dump. -/
theorem drainEnd_dumps (hnow : s.coxNow core = some (j, l)) (hdrain : (s.core core).seq.draining = true) (hphase : (s.core core).seq.phase = 0)
    (hbusy : (s.core core).coxBusy = false) (hdrained : j.drained = false) (hlen : (s.core core).seq.strokeLog.length ≤ 1)
    (hslot : ∀ e ∈ (s.core core).seq.strokeLog, e.slot ≤ 6) (hlimit : l.limit ≠ 0) (hfault : j.fault = none)
    (hroom : (s.core core).engine.queue.length < 16) (hwaiting : (s.core core).engine.waiting = []) :
    s.LeavesCore core (exec (.drainEnd core) s)
      { (s.core core).drained j.launch ((s.core core).seq.flushes (s.core core).seq.strokeLog) (fun x => { x with dump := 1 }) with
        engine := { (s.core core).engine with queue := (s.core core).engine.queue ++
          [{ owner := .dump j.launch, ctx := l.ctx, addr := l.dump + j.rank * 0x41000, layer := l.layer, oper := l.oper }] } } := by
  have hjobs : (s.core core).jobs ≠ [] := (jobs_of_coxNow hnow).2.2
  have hends := drainedBy_holds (j := j) (l := l) hjobs hlen hslot
  have hdump := hends.modCore (fun k => k.modJob j.launch (fun j => { j with dump := 1 })) (by
    rw [modJob_drained]
    exact jobs_drained_ne hjobs)
  rw [modJob_drained] at hdump
  have hnot : ¬ (l.limit = 0 ∨ j.fault.isSome = true) := by simp [hlimit, hfault]
  rw [drainEnd_eq hnow hdrain hphase hbusy hdrained, if_neg hnot]
  exact (hdump.queueChain (jobs_drained_ne hjobs) _ hroom hwaiting).leaves

/-! ### The start of a program -/

theorem countGal_unseen (t : State) (g ev n : Nat) : (t.countGal g ev n).unseen = t.unseen ∧ (t.countGal g ev n).cores = t.cores := by
  unfold State.countGal
  split
  · exact ⟨rfl, rfl⟩
  · exact ⟨rfl, rfl⟩

theorem pick_unseen (t : State) (n : Nat) : (t.pick n).1.unseen = t.unseen := rfl

theorem setGal_unseen (t : State) (g : Nat) (x : GalPower) : (t.setGal g x).unseen = t.unseen := rfl

theorem setGal_cores (t : State) (g : Nat) (x : GalPower) : (t.setGal g x).cores = t.cores := rfl

theorem setLimit_unseen (t : State) (g i duty mhz : Nat) : (t.setLimit g i duty mhz).unseen = t.unseen := rfl

theorem setLimit_cores (t : State) (g i duty mhz : Nat) : (t.setLimit g i duty mhz).cores = t.cores := rfl

theorem endPhase_unseen (t : State) (g : Nat) : (t.endPhase g).unseen = t.unseen := rfl

theorem endPhase_cores (t : State) (g : Nat) : (t.endPhase g).cores = t.cores := rfl

/-- The begin of a gallery's phase is seen of the work of its cores, and no more. -/
theorem startPhase_unseen (t : State) (g pair : Nat) : (t.startPhase g pair).unseen = t.unseen ∧ (t.startPhase g pair).cores = t.cores := by
  have hcounted (b : Bool) (u : State) : (if b then u else u.countGal g 0x0B 1).unseen = u.unseen ∧
      (if b then u else u.countGal g 0x0B 1).cores = u.cores := by
    split
    · exact ⟨rfl, rfl⟩
    · exact countGal_unseen ..
  unfold State.startPhase
  extract_lets x s1 x1 old s2
  split
  · exact ⟨rfl, rfl⟩
  · obtain ⟨hunseen, hcores⟩ := hcounted old.isSome s1
    simp only [traceEvent_unseen, traceEvent_cores, setLimit_unseen, setLimit_cores, setGal_unseen, setGal_cores, pick_unseen]
    exact ⟨hunseen, hcores⟩

/-- A core's clock that is to reach a moment does not run back. -/
theorem State.HoldsCore.ticks (h : s.HoldsCore t core k) (n : Nat) : ∃ v, k.clock ≤ v ∧ s.HoldsCore (t.tick core n) core { k with clock := v } := by
  rcases Nat.le_total k.clock n with hn | hn
  · exact ⟨n, hn, h.tick hn⟩
  · refine ⟨k.clock, Nat.le_refl _, ?_⟩
    have hstays : t.tick core n = t := by
      simp only [State.tick, h.holds]
      exact if_pos hn
    rw [hstays]
    exact h

theorem State.HoldsCore.startCommand (h : s.HoldsCore t core k) (src pair : Nat) :
    ∃ v, k.clock ≤ v ∧ s.HoldsCore (t.startCommand core src pair) core { k with clock := v } := by
  have hbegun : s.HoldsCore ((t.wakeGal (galleryOf core)).startPhase (galleryOf core) pair) core k := by
    obtain ⟨hunseen, hcores⟩ := startPhase_unseen (t.wakeGal (galleryOf core)) (galleryOf core) pair
    exact (h.wakeGal _).of_unseen hunseen hcores
  unfold State.startCommand
  extract_lets s1 s2 v b
  have hticks : ∃ v, k.clock ≤ v ∧ s.HoldsCore s2 core { k with clock := v } := by
    unfold s2
    split
    · exact hbegun.ticks _
    · exact ⟨k.clock, Nat.le_refl _, hbegun⟩
  obtain ⟨v', hv, hholds⟩ := hticks
  exact ⟨v', hv, hholds.of_unseen rfl rfl⟩

/-- A map into which the values of a function are written at the numbers below n. -/
theorem mget_foldl_mset_range {α : Type} [DecidableEq α] (d : α) (f : Nat → α) (n : Nat) :
    rising ((List.range n).foldl (fun m i => mset d m i (f i)) []) ∧
    ∀ i < n, mget d ((List.range n).foldl (fun m i => mset d m i (f i)) []) i = f i := by
  induction n with
  | zero => exact ⟨List.Pairwise.nil, fun i hi => absurd hi (Nat.not_lt_zero i)⟩
  | succ n ih =>
    obtain ⟨hrising, hgets⟩ := ih
    rw [List.range_succ, List.foldl_append, List.foldl_cons, List.foldl_nil]
    refine ⟨rising_mset d _ _ hrising, fun i hi => ?_⟩
    by_cases hin : i = n
    · subst hin
      exact mget_mset_same_of_rising d _ _ hrising
    · rw [mget_mset_other_of_rising d _ hin hrising]
      exact hgets i (by omega)

/-- A program starts. -/
theorem programStart_holds (hjob : (s.core core).jobs.find? (fun j => j.dispatched && j.done.isNone) = some j) (hstarted : j.started = false)
    (hloaded : j.loaded = true) (hbad : j.bad = false) (hlaunch : s.coxLaunch j.launch = some l) (hpf : ∀ p ∈ j.pf, p.stage = 2) :
    ∃ t v, exec (.programStart core) s = .next t ∧
      s.HoldsCore t core ((({ s.core core with clock := v } : Core).modJob j.launch (fun j => { j with started := true })).strokeZero l j.rank) := by
  have hjobs : (s.core core).jobs ≠ [] := by
    intro hnil
    simp [hnil] at hjob
  have hall : j.pf.all (fun p => decide (p.stage = 2)) = true := by simpa using hpf
  obtain ⟨v, -, hbegun⟩ := (State.HoldsCore.refl s core).startCommand 2 (pairOf l.layer l.oper)
  have htraced := hbegun.traceEvent core (pairOf l.layer l.oper) 1
    (toBytes 4 (match s.pkt l.ctx l.pid with | some p => p.tag | none => 0) ++ toBytes 1 2 ++ toBytes 1 l.ctx)
  refine ⟨_, v, ?_, htraced.modCore (fun k => (k.modJob j.launch (fun j => { j with started := true })).strokeZero l j.rank) ?_⟩
  · show execProgramStart core s = _
    unfold execProgramStart
    simp only [hjob, hstarted, hloaded, hlaunch, hbad, hall]
    rfl
  · simpa [Core.modJob, Core.strokeZero] using hjobs

/-! ### An empty stroke -/

/-- A core that has performed part p of its stroke. -/
def Core.inPhase (k : Core) (p : Nat) : Core := { k with seq := { k.seq with phase := p } }

theorem State.HoldsCore.inPhase (h : s.HoldsCore t core k) (hjobs : k.jobs ≠ []) (p : Nat) :
    s.HoldsCore (t.modSeq core (fun q => { q with phase := p })) core (k.inPhase p) := h.modSeq _ hjobs

/-- A core in a stroke whose word is empty and in which nothing is on its way but load phases. -/
structure Core.Quiet (k : Core) (j : CoxJob) : Prop where
  job : k.coxJob = some j
  word : k.seq.word = 0
  draining : k.seq.draining = false
  writes : k.seq.writes = []
  log : k.seq.strokeLog = []
  loops : k.seq.loops = []
  nextPc : k.seq.nextPc = none
  ending : k.seq.ending = false
  results : k.array.results = []
  run : k.array.run = none
  rowErr : k.array.rowErr = []

section
variable (hk : k.Quiet j)
include hk

theorem Core.Quiet.jobs : k.jobs ≠ [] := by
  intro hnil
  have hjob := hk.job
  simp [Core.coxJob, hnil] at hjob

theorem Core.Quiet.dueIn (n : Nat) : k.seq.dueIn n = [] := by simp [Sequencer.dueIn, hk.writes]

theorem Core.Quiet.dueRows (n : Nat) : k.array.dueRows n = [] := by simp [Matrix.dueRows, hk.results]

theorem Core.Quiet.pathDue (b : Bool) : k.seq.pathDue b = [] := by rw [Sequencer.pathDue, hk.dueIn]; rfl

theorem Core.Quiet.op (n : Nat) : bits (slotOf k.seq.word n) 0 4 = 0 := by
  have hslot : slotOf 0 n = 0 := by
    unfold slotOf
    split <;> rfl
  rw [hk.word, hslot]
  rfl

theorem Core.Quiet.issueA : k.array.issueA k.seq = k.array := by
  unfold Matrix.issueA
  simp only [show bits (slotA k.seq.word) 0 4 = 0 from hk.op 0]
  exact runStep_none _ hk.run

theorem Core.Quiet.inPhase (p : Nat) : (k.inPhase p).Quiet j :=
  ⟨hk.job, hk.word, hk.draining, hk.writes, hk.log, hk.loops, hk.nextPc, hk.ending, hk.results, hk.run, hk.rowErr⟩

variable (h : s.HoldsCore t core k)
include h

theorem Core.Quiet.landings : s.HoldsCore (t.coxLandings core) core k := by
  have hdue : (t.core core).seq.dueIn (t.core core).seq.stroke = [] := by rw [h.holds]; exact hk.dueIn _
  rw [coxLandings_eq, landStagings_none hdue, landStores_none hdue]
  exact h.landRows_none (hk.dueRows _)

theorem Core.Quiet.load (n : Nat) : t.coxLoad core n = t := by
  unfold State.coxLoad
  simp only [h.holds, hk.op n]
  rfl

theorem Core.Quiet.store : t.coxStore core = t := by
  unfold State.coxStore
  simp only [h.holds]
  exact if_pos (by rw [show bits (slotS k.seq.word) 0 4 = 0 from hk.op 3]; decide)

theorem Core.Quiet.scalar : t.coxScalar core = t := by
  unfold State.coxScalar
  simp only [h.holds, show bits (slotX k.seq.word) 0 4 = 0 from hk.op 4]

theorem Core.Quiet.sync : t.coxSync core = t := by
  unfold State.coxSync
  simp only [h.holds, show bits (slotY k.seq.word) 0 4 = 0 from hk.op 5]
  split
  · rfl
  · rfl

theorem Core.Quiet.array : s.HoldsCore (t.coxArray core) core { k with array := k.array.step k.seq.stroke (zeros 128) (zeros 128) } := by
  have hA := h.coxPath_none hk.jobs (hk.pathDue false)
  exact State.HoldsCore.coxArray hk.jobs hk.rowErr hA (hA.1.coxPath_none hk.jobs (hk.pathDue true))

/-- Up to the array's step an empty stroke changes nothing but its progress. -/
theorem Core.Quiet.part {p : Nat} (hp : p ∈ [2, 3, 4, 5, 6, 7, 8]) : s.HoldsCore (t.coxPart core p) core (k.inPhase p) := by
  simp only [List.mem_cons, List.not_mem_nil, or_false] at hp
  obtain rfl | rfl | rfl | rfl | rfl | rfl | rfl := hp
  · exact (hk.landings h).inPhase hk.jobs 2
  · have hA := h.modArray (fun a => a.issueA (t.core core).seq) hk.jobs
    rw [h.holds, hk.issueA] at hA
    have hpart : t.coxPart core 3 = (t.modArray core (fun a => a.issueA (t.core core).seq)).modSeq core (fun q => { q with phase := 3 }) := rfl
    rw [hpart, h.holds]
    exact hA.inPhase hk.jobs 3
  · have hpart : t.coxPart core 4 = (t.coxLoad core 1).modSeq core (fun q => { q with phase := 4 }) := rfl
    rw [hpart, hk.load h]
    exact h.inPhase hk.jobs 4
  · have hpart : t.coxPart core 5 = (t.coxLoad core 2).modSeq core (fun q => { q with phase := 5 }) := rfl
    rw [hpart, hk.load h]
    exact h.inPhase hk.jobs 5
  · have hpart : t.coxPart core 6 = (t.coxStore core).modSeq core (fun q => { q with phase := 6 }) := rfl
    rw [hpart, hk.store h]
    exact h.inPhase hk.jobs 6
  · have hpart : t.coxPart core 7 = (t.coxScalar core).modSeq core (fun q => { q with phase := 7 }) := rfl
    rw [hpart, hk.scalar h]
    exact h.inPhase hk.jobs 7
  · have hpart : t.coxPart core 8 = (t.coxSync core).modSeq core (fun q => { q with phase := 8 }) := rfl
    rw [hpart, hk.sync h]
    exact h.inPhase hk.jobs 8

omit h in
theorem Core.Quiet.partsTo (ps : List Nat) (hps : ∀ p ∈ ps, p ∈ [2, 3, 4, 5, 6, 7, 8]) : ∀ {t : State} {p : Nat},
    s.HoldsCore t core (k.inPhase p) → ∃ p', s.HoldsCore (t.coxParts core ps) core (k.inPhase p') := by
  induction ps with
  | nil => exact fun h => ⟨_, h⟩
  | cons a ps ih =>
    intro t p h
    exact ih (fun p hp => hps p (List.mem_cons_of_mem _ hp)) (t := t.coxPart core a) ((hk.inPhase p).part h (hps a (List.mem_cons_self ..)))

end

/-- The array's step keeps the accumulator, and the slice run that is in progress. -/
theorem step_keeps (a : Matrix) (n : Nat) (dA dB : List Byte) : (a.step n dA dB).acc = a.acc ∧ (a.step n dA dB).run = a.run := by
  have hfold : ∀ (es : List (Nat × LoadPhase)) (b : Matrix), (es.foldl (fun b e => b.commitRow e.1 e.2) b).acc = b.acc ∧
      (es.foldl (fun b e => b.commitRow e.1 e.2) b).run = b.run := by
    intro es
    induction es with
    | nil => exact fun b => ⟨rfl, rfl⟩
    | cons e es ih => exact fun b => ih (b.commitRow e.1 e.2)
  exact hfold (a.commits n) _

/-- The sequencer at the end of an empty stroke. -/
def Sequencer.nextStroke (q : Sequencer) (ends : Bool) : Sequencer :=
  let q := { q with issued := q.issued + 1, stroke := q.stroke + 1, phase := 0, nextPc := none, pc := q.pc + 1, loops := [] }
  if ends then ({ q with ending := false } : Sequencer).endProgram else q

/-- Where no write to a register or to the flags is due, none lands. -/
theorem State.HoldsCore.landsNothing (h : s.HoldsCore t core k) (hjobs : k.jobs ≠ []) {now : List CoxWrite} (hnow : now = [])
    (f : Nat → CoxWrite → Bool) (is : List Nat) :
    s.HoldsCore ((is.foldl (fun s sel => s.doubleWrites core 4 sel ((now.filter (f sel)).map (fun x => (x.slot, x.pc)))) t).modSeq core (fun q =>
      now.foldl Sequencer.apply { q with writes := q.writes.filter (fun y => decide (y ∉ now)) })) core k := by
  subst hnow
  have hnone : is.foldl (fun s sel => s.doubleWrites core 4 sel ((([] : List CoxWrite).filter (f sel)).map (fun x => (x.slot, x.pc)))) t = t := by
    induction is with
    | nil => rfl
    | cons i is ih => exact ih
  have hsame := h.modSeq (fun q => { q with writes := q.writes.filter (fun y => decide (y ∉ ([] : List CoxWrite))) }) hjobs
  simp only [List.not_mem_nil, not_false_eq_true, decide_true, List.filter_true] at hsame
  rw [hnone]
  simp only [List.not_mem_nil, not_false_eq_true, decide_true, List.filter_true, List.foldl_nil]
  exact hsame

/-- The next stroke, in which no write lands. -/
theorem State.HoldsCore.nextStroke (h : s.HoldsCore t core k) (hjobs : k.jobs ≠ []) {f : Sequencer → Sequencer} {q : Sequencer}
    {due : CoxWrite → Bool} {hits : Nat → CoxWrite → Bool} {is : List Nat} (hf : f k.seq = q) (hwrites : q.writes = []) :
    s.HoldsCore ((is.foldl (fun s sel => s.doubleWrites core 4 sel (((((t.modSeq core f).core core).seq.writes.filter due).filter (hits sel)).map
      (fun x => (x.slot, x.pc)))) (t.modSeq core f)).modSeq core (fun q =>
        (((t.modSeq core f).core core).seq.writes.filter due).foldl Sequencer.apply
          { q with writes := q.writes.filter (fun y => decide (y ∉ ((t.modSeq core f).core core).seq.writes.filter due)) })) core
      { k with seq := q } := by
  have hmoved := h.modSeq f hjobs
  rw [hf] at hmoved
  refine hmoved.landsNothing hjobs ?_ hits is
  rw [hmoved.holds]
  simp [hwrites]

/-- The end of an empty stroke. -/
theorem coxFinish_empty (h : s.HoldsCore t core k) (hnow : t.coxNow core = some (j, l)) (hjobs : k.jobs ≠ [])
    (hdrain : k.seq.draining = false) (hwrites : k.seq.writes = []) (hlog : k.seq.strokeLog = []) (hloops : k.seq.loops = [])
    (hnext : k.seq.nextPc = none) (hending : k.seq.ending = false) (hrun : k.array.run = none) :
    s.HoldsCore (t.coxFinish core) core
      { k with clock := k.clock + 1, seq := k.seq.nextStroke (decide (j.words.length ≤ k.seq.pc + 1)) } := by
  have hflushed : k.seq.flushes (inSlotOrder k.seq.strokeLog) = k.seq := by
    rw [hlog]
    exact congrArg (fun es => ({ k.seq with strokeLog := es } : Sequencer)) hlog.symm
  have hcounted := ((h.wakeGal (galleryOf core)).flushLog hjobs (pairOf l.layer l.oper)).count core 0x02 2 (pairOf l.layer l.oper) 1
  rw [hflushed] at hcounted
  unfold State.coxFinish
  simp only [hnow, h.holds, hnext, hending, hloops, loopBack, hdrain, Matrix.runs, hrun, Bool.and_false, Bool.false_or, Bool.false_eq_true, if_false]
  generalize ((t.wakeGal (galleryOf core)).flushLog core (pairOf l.layer l.oper)).count core 0x02 2 (pairOf l.layer l.oper) 1 = u at hcounted ⊢
  have hticked := hcounted.tick (Nat.le_succ k.clock)
  rw [hcounted.holds]
  refine hticked.nextStroke hjobs ?_ ?_
  · unfold Sequencer.nextStroke
    split
    · rfl
    · rfl
  · unfold Sequencer.nextStroke Sequencer.endProgram
    split
    · exact hwrites
    · exact hwrites

/-- An empty word is consistent. -/
theorem coxCheck_empty (a : Matrix) (q : Sequencer) (n : Nat) : coxCheck a q n 0 = none := rfl

theorem coxParts_append (t : State) (core : Nat) (ps ps' : List Nat) : t.coxParts core (ps ++ ps') = (t.coxParts core ps).coxParts core ps' := by
  induction ps generalizing t with
  | nil => rfl
  | cons p ps ih => exact ih (t.coxPart core p)

/-- An empty word issues, and its stroke happens. -/
theorem strokeIssue_empty (hserved : s.stalled = false) (hnow : s.coxNow core = some (j, l)) (hphase : (s.core core).seq.phase = 0)
    (hdrain : (s.core core).seq.draining = false) (hactive : (s.core core).seq.active = true)
    (hlimit : l.limit = 0 ∨ (s.core core).seq.issued < l.limit) (herr : (s.core core).array.rowErr = [])
    (hword : j.words[(s.core core).seq.pc]? = some 0) (hsound : (s.core core).seq.pc ∉ j.wordErr) (hwrites : (s.core core).seq.writes = [])
    (hloops : (s.core core).seq.loops = []) (hnext : (s.core core).seq.nextPc = none) (hending : (s.core core).seq.ending = false)
    (hlog : (s.core core).seq.strokeLog = []) (hresults : (s.core core).array.results = []) (hrun : (s.core core).array.run = none) :
    ∃ t q a, exec (.strokeIssue core) s = .next t ∧
      s.HoldsCore t core { s.core core with clock := (s.core core).clock + 1, seq := q, array := a } ∧ a.acc = (s.core core).array.acc ∧
      ∃ banks, q = ({ (s.core core).seq with word := 0, banks } : Sequencer).nextStroke (decide (j.words.length ≤ (s.core core).seq.pc + 1)) := by
  obtain ⟨hjob, hlaunch, hjobs⟩ := jobs_of_coxNow hnow
  have hgoes : ¬ ((!(s.core core).seq.active) = true ∨ l.limit ≠ 0 ∧ l.limit ≤ (s.core core).seq.issued) := by
    simp only [hactive, Bool.not_true, Bool.false_eq_true, false_or, not_and, not_le]
    exact hlimit.resolve_left
  have hbegin : s.beginStroke core = (s.coxBegin core 0, true) := by
    simp only [State.beginStroke, hnow, hphase, hdrain, hword, coxCheck_empty, if_neg hgoes, if_neg hsound, ne_eq, not_true_eq_false, if_false,
      Bool.false_eq_true]
    rfl
  have hbegun : s.HoldsCore (s.coxBegin core 0) core { s.core core with seq := { (s.core core).seq with
      phase := 1, word := 0, banks := (s.core core).seq.strokeBanks 0 } } := (State.HoldsCore.refl s core).modSeq _ hjobs
  have hquiet : ({ s.core core with seq := { (s.core core).seq with phase := 1, word := 0, banks := (s.core core).seq.strokeBanks 0 } } : Core).Quiet j :=
    ⟨hjob, rfl, hdrain, hwrites, hlog, hloops, hnext, hending, hresults, hrun, herr⟩
  obtain ⟨p, h8⟩ := hquiet.partsTo [2, 3, 4, 5, 6, 7, 8] (fun _ hp => hp) (p := 1) hbegun
  have h9 := ((hquiet.inPhase p).array h8).inPhase hjobs 9
  have hfinish := coxFinish_empty h9 ((h9.coxNow rfl).trans hnow) hjobs hdrain hwrites hlog hloops hnext hending ((step_keeps ..).2.trans hrun)
  have hparts : (s.coxBegin core 0).strokeTo core 10 = (((((s.coxBegin core 0).coxParts core [2, 3, 4, 5, 6, 7, 8]).coxArray core).modSeq core
      (fun q => { q with phase := 9 })).coxFinish core) := by
    have hone : ((s.coxBegin core 0).core core).seq.phase = 1 := congrArg (fun k : Core => k.seq.phase) hbegun.holds
    rw [State.strokeTo, hone]
    rfl
  have hexec : exec (.strokeIssue core) s = .next ((s.coxBegin core 0).strokeTo core 10) := by
    show s.waits _ = _
    simp only [hbegin, if_true, State.waits]
    rw [hparts, orWait_of_served _ _ (hfinish.stalled.trans hserved)]
  rw [hparts] at hexec
  exact ⟨_, _, _, hexec, hfinish, (step_keeps ..).1, _, rfl⟩

/-! ### The stroke limit -/

/-- A program that has issued as many words as its launch allows stops. -/
theorem strokeLimit_stops (hnow : s.coxNow core = some (j, l)) (hactive : (s.core core).seq.active = true) (hphase : (s.core core).seq.phase = 0)
    (hlimit : l.limit ≠ 0) (hissued : l.limit ≤ (s.core core).seq.issued) :
    ∃ t, exec (.strokeLimit core) s = .next t ∧ (∀ i, i ≠ core → t.core i = s.core i) ∧
      t.core core = { s.core core with
        seq := { (s.core core).seq with
          strokeLog := (s.core core).seq.strokeLog ++
            [⟨(s.core core).seq.stroke % 2 ^ 40, (s.core core).seq.pc, 6, 6, l.layer, l.oper, 0, 0, (s.core core).seq.issued⟩]
          active := false, draining := true, ywait := .none, banks := [] }
        array := { (s.core core).array with run := none } } := by
  have hjobs := (jobs_of_coxNow hnow).2.2
  have hstops := (((State.HoldsCore.refl (s.unwait (.cox core)) core).modSeq (fun q => { q with
    strokeLog := q.strokeLog ++ [⟨q.stroke % 2 ^ 40, q.pc, 6, 6, l.layer, l.oper, 0, 0, q.issued⟩] }) hjobs).modSeq
      (fun q => { q with active := false, draining := true, ywait := .none, banks := [] }) hjobs).modArray (fun a => { a with run := none }) hjobs
  obtain ⟨-, hcore, hother⟩ := hstops
  refine ⟨_, ?_, hother, hcore⟩
  show execStrokeLimit core s = _
  unfold execStrokeLimit
  simp only [hnow]
  exact if_pos ⟨hactive, hphase, hlimit, hissued⟩

/-! ### The completion of a launch -/

/-- A context with packets is not empty. -/
theorem ctx_ne_of_pkts {c : Ctx} (h : c.pkts ≠ []) : c ≠ {} := fun he => h (congrArg Ctx.pkts he)

theorem ctx_setCtx_of_pkts {n : Nat} {c : Ctx} (h : c.pkts ≠ []) : (s.setCtx n c).ctx n = c := by
  simp only [State.setCtx, State.ctx, mset, if_neg (ctx_ne_of_pkts h)]
  exact mget_minsert_same _ _ _ _

theorem mem_of_pkt {ctx pid : Nat} {p : Pkt} (h : s.pkt ctx pid = some p) : p ∈ (s.ctx ctx).pkts ∧ p.pid = pid :=
  ⟨List.mem_of_find?_eq_some h, by simpa using List.find?_some h⟩

/-- A packet that is changed and keeps its number is in its context as it is now. -/
theorem mem_modPkt {ctx pid : Nat} {p : Pkt} {f : Pkt → Pkt} (h : p ∈ (s.ctx ctx).pkts) (hpid : p.pid = pid) :
    f p ∈ ((s.modPkt ctx pid f).ctx ctx).pkts := by
  have hne : ((s.ctx ctx).modPkt pid f).pkts ≠ [] := by simpa [Ctx.modPkt] using List.ne_nil_of_mem h
  rw [State.modPkt, State.modCtx, ctx_setCtx_of_pkts hne]
  exact List.mem_map.mpr ⟨p, h, if_pos hpid⟩

/-- The work of a dispatched packet is done. -/
theorem packetDone_staged {ctx pid : Nat} {p : Pkt} (h : s.pkt ctx pid = some p) (hstage : p.stage = .dispatched) (st d : Nat) :
    (s.packetDone ctx pid st d).Staged ctx pid (.workDone st d) := by
  obtain ⟨hmem, hpid⟩ := mem_of_pkt h
  refine ⟨{ p with stage := .workDone st d }, ?_, hpid, rfl⟩
  have hdone := mem_modPkt (f := fun p => match p.stage with
    | .completed => p
    | .workDone _ _ => p
    | _ => { p with stage := .workDone st d }) hmem hpid
  simp only [hstage] at hdone
  exact hdone

/-- A core that has given up what it held for a launch. -/
def Core.without (k : Core) (n : Nat) : Core :=
  { k with jobs := k.jobs.filter (fun j => decide (j.launch ≠ n)), staging := k.staging.filter (fun a => decide (a.launch ≠ n)) }

/-- The state in which a launch on one core has completed with a status and a detail. -/
def State.completes (s : State) (core n : Nat) (l : CoxLaunch) (st d : Nat) : State :=
  ({ s.modCore core (fun k => k.without n) with coxLaunches := merase s.coxLaunches n } : State).packetDone l.ctx l.pid st d

theorem completes_core {n st d : Nat} (hclock : 0 < (s.core core).clock) : (s.completes core n l st d).core core = (s.core core).without n := by
  have hne : (s.core core).without n ≠ {} := fun he => Nat.ne_of_gt hclock (congrArg Core.clock he)
  exact ((State.HoldsCore.refl s core).setCore hne).holds

/-- A launch on one core completes with what its program came to. -/
theorem coxLaunchComplete_one {n st d : Nat} (hlaunch : s.coxLaunch n = some l) (hdispatched : l.dispatched = true)
    (haborted : l.aborted = false) (hcores : l.cores = [core]) (hjob : (s.core core).jobs.find? (fun j => decide (j.launch = n)) = some j)
    (hdone : j.done = some (st, d)) : exec (.coxLaunchComplete n) s = .next (s.completes core n l st d) := by
  have hbest : ∀ st, coxRankOf st ≤ 4 := by
    intro st
    unfold coxRankOf
    split_ifs <;> omega
  show execCoxLaunchComplete n s = _
  unfold execCoxLaunchComplete
  simp only [hlaunch, hcores, State.jobsOf, List.map_cons, List.map_nil, hjob, Option.bind_some, hdone, hdispatched, haborted]
  have hmin : minOf 4 [coxRankOf st] = coxRankOf st := Nat.min_eq_right (hbest st)
  simp only [Option.isNone_some, List.any_cons, List.any_nil, Bool.or_false, Bool.not_true, Bool.false_eq_true, or_self, if_false,
    List.filterMap_cons, List.filterMap_nil, id_eq, List.map_cons, List.map_nil, hmin, List.find?_cons, decide_true, Option.getD_some]
  rfl

/-! ### The load of an image -/

/-- The image of a dispatched launch is read where its core's next program is the launch's and the buffer has room. -/
theorem coxProgramLoad_eq {ctx n : Nat} {p : Pkt} (hpkt : s.pkt ctx p.pid = some p) (hop : p.opcode = 0x31) (hskip : p.skip = 0)
    (hdead : p.dead = false) (hstage : p.stage = .dispatched) (hnumber : s.launchOfPkt ctx p.pid = some n) (hlaunch : s.coxLaunch n = some l)
    (hjob : (s.core core).jobs.find? (fun j => decide (j.dispatched = true) && !j.loaded && j.done.isNone) = some j) (hn : j.launch = n)
    (hroom : (s.core core).halvesUsed + (if field p.data 24 4 ≤ 1024 then 1 else 2) ≤ 2) :
    exec (.coxProgramLoad core ctx p.pid) s = .next (s.orWait (s.loadProgram core n l true false)) := by
  show s.waits _ = _
  have hfull : ¬ 2 < (s.core core).halvesUsed + (if field p.data 24 4 ≤ 1024 then 1 else 2) := Nat.not_lt.mpr hroom
  simp only [hpkt, hop, hskip, hdead, hnumber, hlaunch, hjob]
  rw [if_neg (by decide), if_pos hstage]
  simp only [if_neg (not_not_intro hn), if_neg hfull]
  rfl

/-- A job of the launch that is among those of the core is there as it has been changed. -/
theorem mem_modJob {f : CoxJob → CoxJob} {n : Nat} (h : j ∈ k.jobs) (hn : j.launch = n) : f j ∈ (k.modJob n f).jobs :=
  List.mem_map.mpr ⟨j, h, if_pos hn⟩

theorem modCore_core_of_jobs {f : Core → Core} (h : (f (s.core core)).jobs ≠ []) : (s.modCore core f).core core = f (s.core core) :=
  ((State.HoldsCore.refl s core).modCore f h).holds

/-- A job that has taken its image, of a header h without prefetch areas and the words in bs. -/
def CoxJob.withImage (j : CoxJob) (words : Nat) (h bs : List Byte) : CoxJob :=
  { j with
    loaded := true, claimed := true, halves := (if words ≤ 1024 then 1 else 2), pf := []
    words := (List.range words).map (fun i => field bs (32 * i) 32), resBase := field h 4 4, resBytes := field h 8 4 }

/-- The state in which the jobs of a launch on a core have taken their image. -/
def State.takesImage (s : State) (core n words : Nat) (h bs : List Byte) : State :=
  s.modCore core (fun k => k.modJob n (fun j => j.withImage words h bs))

/-- An image with a sound header is taken. -/
theorem loadProgram_good {s1 s2 : State} {n : Nat} {h bs : List Byte}
    (hread : s.vaRead { cache := core, master := .io (dieOf core), ctx := l.ctx, fill := true } l.program 128 = (s1, .ok h))
    (hgood : headerOk h = true)
    (hclear : clearOf ((s1.core core).crews.map (fun e => (e.2.scratchBase, e.2.scratchSize))) (field h 4 4) (field h 8 4) = true)
    (hread' : s1.vaRead { cache := core, master := .io (dieOf core), ctx := l.ctx, fill := true } (l.program + 128) (32 * l.words) = (s2, .ok bs))
    (hpf : headerPrefetch h = []) : s.loadProgram core n l true false =
      ((s2.refreshIcache { cache := core, master := .io (dieOf core), ctx := l.ctx, fill := true } core (h ++ bs)
        (linePieces (l.words / 4 + 3) l.program (128 + 32 * l.words))).takesImage core n l.words h bs).queuePrefetch core n := by
  unfold State.loadProgram State.takesImage CoxJob.withImage
  simp only [Bool.not_false, hread, hgood, hclear, hread', hpf, Bool.not_true, Bool.false_and, Bool.false_eq_true, if_false, List.filter_nil,
    List.map_nil, List.append_nil]

/-- A program without prefetch areas queues no chain. -/
theorem queuePrefetch_none {n : Nat} (hpf : ∀ x ∈ (t.core core).jobs, x.launch = n → x.pf = []) (hmem : j ∈ (t.core core).jobs) (hn : j.launch = n) :
    (t.queuePrefetch core n).hbm = t.hbm ∧ (t.queuePrefetch core n).stalled = t.stalled ∧ j ∈ ((t.queuePrefetch core n).core core).jobs := by
  unfold State.queuePrefetch
  split
  next x l' hx hl =>
    have hnone : x.pf = [] := hpf x (List.mem_of_find?_eq_some hx) (by simpa using List.find?_some hx)
    split
    · exact ⟨rfl, rfl, hmem⟩
    · have hchanged := mem_modJob (f := fun j => { j with pf := j.pf.map (fun p => if p.stage = 0 then { p with stage := 1 } else p) }) hmem hn
      have hsame : { j with pf := j.pf.map (fun p => if p.stage = 0 then { p with stage := 1 } else p) } = j := by
        rw [hpf j hmem hn, List.map_nil, ← hpf j hmem hn]
      rw [hsame] at hchanged
      simp only [hnone, List.zip_nil_left, List.filter_nil, List.foldl_nil]
      refine ⟨rfl, rfl, ?_⟩
      rw [modCore_core_of_jobs (List.ne_nil_of_mem hchanged)]
      exact hchanged
  next => exact ⟨rfl, rfl, hmem⟩

/-- Settles O25: each event's equation, and the core that it leaves. -/
theorem coxPrograms : Obligations.CoxPrograms := by
  unfold Obligations.CoxPrograms
  refine ⟨?_, ?_, ?_, ?_, ?_, ?_⟩
  · intro s s1 s2 core ctx n p l j h bs r s3 hpkt hop hskip hdead hstage hnumber hlaunch hjob hn hroom hread
    have hexec := coxProgramLoad_eq hpkt hop hskip hdead hstage hnumber hlaunch hjob hn hroom
    refine ⟨fun hbad hserved hmem => ?_, fun hgood hclear hread' hserved hmem hpf => ?_⟩
    · have hload : s.loadProgram core n l true false = s1.modCore core (fun k => k.modJob n (fun j => { j with loaded := true, bad := true })) := by
        unfold State.loadProgram
        simp only [show s.vaRead { cache := core, master := .io (dieOf core), ctx := l.ctx, fill := !false } l.program 128 = (s1, .ok h) from hread,
          hbad]
        rfl
      have hchanged := mem_modJob (f := fun j => { j with loaded := true, bad := true }) hmem hn
      rw [hload, orWait_of_served _ (s1.modCore core _) hserved] at hexec
      refine ⟨_, hexec, ?_, rfl⟩
      rw [modCore_core_of_jobs (List.ne_nil_of_mem hchanged)]
      exact hchanged
    · have hload := loadProgram_good (n := n) hread hgood hclear hread' hpf
      have hchanged := mem_modJob (f := fun j => j.withImage l.words h bs) hmem hn
      have hcore : (s3.takesImage core n l.words h bs).core core = (s3.core core).modJob n (fun j => j.withImage l.words h bs) :=
        modCore_core_of_jobs (f := fun k => k.modJob n (fun j => j.withImage l.words h bs)) (List.ne_nil_of_mem hchanged)
      obtain ⟨hhbm, hstalled, hin⟩ := queuePrefetch_none (t := s3.takesImage core n l.words h bs) (j := j.withImage l.words h bs) (core := core) (n := n) (fun x hx hxn => by
        rw [hcore] at hx
        obtain ⟨y, -, rfl⟩ := List.mem_map.mp hx
        by_cases hy : y.launch = n
        · rw [if_pos hy]
          rfl
        · rw [if_neg hy] at hxn
          exact absurd hxn hy) (by rw [hcore]; exact hchanged) hn
      rw [hload, orWait_of_served _ (State.queuePrefetch _ core n) (hstalled.trans hserved)] at hexec
      exact ⟨_, hexec, hhbm, hin⟩
  · intro s core j l hjob hstarted hloaded hbad hlaunch hpf
    obtain ⟨t, v, hexec, hholds⟩ := programStart_holds hjob hstarted hloaded hbad hlaunch hpf
    obtain ⟨hoff, hcore, hother⟩ := hholds
    refine ⟨t, hexec, hoff, hother, ?_⟩
    rw [hcore]
    obtain ⟨-, hgets⟩ := mget_foldl_mset_range (0 : U64) (fun i => l.agBase.getD i 0 + BitVec.ofNat 64 j.rank * l.agStride.getD i 0) 8
    refine ⟨rfl, rfl, rfl, rfl, rfl, rfl, fun i hi => ?_, fun i hi => ⟨?_, ?_⟩, rfl, rfl, rfl, rfl, rfl, rfl, rfl, rfl, rfl, rfl, rfl⟩
    · simp only [Core.strokeZero, Sequencer.scalar]
      split_ifs
      · rfl
      · rfl
    · simp only [Core.strokeZero, Sequencer.scalar]
      rw [if_neg (by omega), if_neg (by omega), if_pos (by omega), Nat.add_sub_cancel_left]
      exact congrArg BitVec.toNat (hgets i hi)
    · simp only [Core.strokeZero, Sequencer.scalar]
      rw [if_neg (by omega), if_neg (by omega), if_neg (by omega)]
      rfl
  · intro s core j l q hserved hnow hphase hdrain hactive hlimit herr hword hsound hwrites hloops hnext hending hlog hresults hrun
    obtain ⟨t, q', a, hexec, ⟨hoff, hcore, hother⟩, hacc, banks, hq⟩ := strokeIssue_empty hserved hnow hphase hdrain hactive hlimit herr hword hsound
      hwrites hloops hnext hending hlog hresults hrun
    refine ⟨t, hexec, hoff, hother, ?_⟩
    rw [hcore]
    subst hq
    refine ⟨rfl, rfl, hacc, ?_⟩
    unfold Sequencer.nextStroke
    by_cases hends : j.words.length ≤ q.pc + 1
    · rw [if_neg (Nat.not_lt.mpr hends), if_pos (decide_eq_true hends)]
      exact ⟨rfl, rfl, rfl, rfl, rfl, rfl, rfl, rfl⟩
    · rw [if_pos (Nat.not_le.mp hends), if_neg (by simpa using hends)]
      exact ⟨rfl, rfl, rfl, rfl, rfl, hactive, hdrain⟩
  · intro s core j l q hnow hactive hphase hlimit hissued
    obtain ⟨t, hexec, hother, hcore⟩ := strokeLimit_stops hnow hactive hphase hlimit hissued
    refine ⟨t, hexec, hother, ?_⟩
    rw [hcore]
    exact ⟨rfl, rfl, rfl, rfl, rfl, rfl, rfl, rfl⟩
  · intro s core j l k q hnow hdrain hphase hwrites hresults hloads hdrained hlen hslot after
    have hbusy : k.coxBusy = false := by simp [Core.coxBusy, hwrites, hresults, hloads]
    exact ⟨fun hlimit hfault hstopped => drainEnd_done hnow hdrain hphase hbusy hdrained hlen hslot hlimit hfault hstopped,
      fun hlimit hfault hroom hwaiting => drainEnd_dumps hnow hdrain hphase hbusy hdrained hlen hslot hlimit hfault hroom hwaiting⟩
  · intro s n core st d l j p hlaunch hdispatched haborted hcores hjob hdone hpkt hstage hclock
    refine ⟨_, coxLaunchComplete_one hlaunch hdispatched haborted hcores hjob hdone, packetDone_staged hpkt hstage st d, rfl, rfl, ?_, ?_⟩
    · rw [completes_core hclock]
      rfl
    · intro x hx
      rw [completes_core hclock] at hx
      simpa using (List.mem_filter.mp hx).2

end Sys2Proof.Machine
end

section
/-! What the feeder DMA engine reads and writes in its core's scratch (R209 to R211, R217, R218). -/

namespace Sys2Proof.Machine

open Sys2Proof

variable {s t : State} {core : Nat} {k : Core} {c h : Chain} {rest : List Chain}

/-! ### A string cut at its lines -/

/-- What a string from an address on holds: the pieces at its lines hold it one after the other. -/
theorem flatMap_linePieces {α : Type} (read : Nat → Nat → List α) (hnil : ∀ a, read a 0 = [])
    (happend : ∀ a i j, read a (i + j) = read a i ++ read (a + i) j) (f : Nat) : ∀ va n, n = 0 ∨ va % 128 + n ≤ 128 * f →
    (linePieces f va n).flatMap (fun e => read e.1 e.2) = read va n := by
  induction f with
  | zero =>
    intro va n h
    obtain rfl : n = 0 := by omega
    exact (hnil va).symm
  | succ f ih =>
    intro va n h
    unfold linePieces
    split
    next hn =>
      subst hn
      exact (hnil va).symm
    next hn =>
      have hrest : n - min n (128 - va % 128) = 0 ∨ (va + min n (128 - va % 128)) % 128 + (n - min n (128 - va % 128)) ≤ 128 * f := by omega
      have hsplit : n = min n (128 - va % 128) + (n - min n (128 - va % 128)) := by omega
      rw [List.flatMap_cons, ih _ _ hrest, ← happend, ← hsplit]

/-- The lines that a string touches are no more than the model counts. -/
theorem linePieces_covers (va n : Nat) : n = 0 ∨ va % 128 + n ≤ 128 * (n / 128 + 2) := by omega

theorem wrapped_nil (m : Map Byte) (a : Nat) : wrapped m a [] = m := rfl

theorem wrapped_append (m : Map Byte) (a : Nat) (xs ys : List Byte) : wrapped m a (xs ++ ys) = wrapped (wrapped m a xs) (a + xs.length) ys := by
  have hleft : ∀ (is : List Nat) (m : Map Byte), (∀ i ∈ is, i < xs.length) →
      is.foldl (fun m i => mset 0 m ((a + i) % 0x80000) ((xs ++ ys).getD i 0)) m = is.foldl (fun m i => mset 0 m ((a + i) % 0x80000) (xs.getD i 0)) m := by
    intro is
    induction is with
    | nil => exact fun _ _ => rfl
    | cons i is ih =>
      intro m hi
      have hget : (xs ++ ys).getD i 0 = xs.getD i 0 := List.getD_append _ _ _ _ (hi i (List.mem_cons_self ..))
      rw [List.foldl_cons, List.foldl_cons, hget, ih _ (fun i hmem => hi i (List.mem_cons_of_mem _ hmem))]
  unfold wrapped
  rw [List.length_append, List.range_add, List.foldl_append, hleft _ _ (fun i hi => List.mem_range.mp hi), List.foldl_map]
  congr 1
  funext m i
  rw [List.getD_append_right _ _ _ _ (Nat.le_add_right _ _), Nat.add_sub_cancel_left, Nat.add_assoc]

/-- Bytes that are written row by row are written as one string. -/
theorem foldl_rowRuns (m : Map Byte) (addr : Nat) (bs : List Byte) : (rowRuns addr bs).foldl (fun m w => wrapped m w.1 w.2) m = wrapped m addr bs := by
  have hfrom : ∀ (f off : Nat) (m : Map Byte), off ≤ bs.length →
      bs.length - off = 0 ∨ (addr + off) % 128 + (bs.length - off) ≤ 128 * f →
      ((linePieces f (addr + off) (bs.length - off)).map (fun e => (e.1, (bs.drop (e.1 - addr)).take e.2))).foldl (fun m w => wrapped m w.1 w.2) m =
        wrapped m (addr + off) (bs.drop off) := by
    intro f
    induction f with
    | zero =>
      intro off m hoff h
      rw [List.drop_eq_nil_of_le (by omega)]
      rfl
    | succ f ih =>
      intro off m hoff h
      unfold linePieces
      split
      next hn =>
        rw [List.drop_eq_nil_of_le (by omega)]
        rfl
      next hn =>
        have hk : min (bs.length - off) (128 - (addr + off) % 128) ≤ bs.length - off := Nat.min_le_left _ _
        generalize hkd : min (bs.length - off) (128 - (addr + off) % 128) = k at hk
        have hlen : ((bs.drop off).take k).length = k := by simp [hk]
        have hnext := ih (off + k) (wrapped m (addr + off) ((bs.drop off).take k)) (by omega) (by omega)
        have hsplit : wrapped m (addr + off) (bs.drop off) = wrapped (wrapped m (addr + off) ((bs.drop off).take k)) (addr + off + k) (bs.drop (off + k)) := by
          have happend := wrapped_append m (addr + off) ((bs.drop off).take k) ((bs.drop off).drop k)
          rwa [List.take_append_drop, hlen, List.drop_drop] at happend
        rw [List.map_cons, List.foldl_cons, hsplit, Nat.add_assoc, ← hnext, Nat.add_sub_cancel_left, Nat.sub_sub]
  have hall := hfrom (bs.length / 128 + 2) 0 m (Nat.zero_le _) (linePieces_covers _ _)
  rw [Nat.sub_zero, Nat.add_zero, List.drop_zero] at hall
  exact hall

/-- What an access of the engine without an area writes to scratch. -/
theorem engineScratch_clean (hpoison : k.scratchPoison = []) (hsoft : k.scratchSoft = []) (addr : Nat) (bs : List Byte) :
    k.engineScratch none addr bs = { k with scratch := wrapped k.scratch addr bs } := by
  have hzip : bs.zip (List.range bs.length) = (List.range bs.length).map (fun i => (bs.getD i 0, i)) := by
    apply List.ext_getElem
    · simp
    · intro i h1 h2
      simp only [List.length_zip, List.length_range, Nat.min_self] at h1
      simp [h1]
  unfold Core.engineScratch wrapped
  simp only [hpoison, hsoft, List.filter_nil, inArea, List.filter_true, hzip, List.map_map, List.foldl_map, Function.comp_apply]

/-- The scratch bytes from an address on, wrapping at 512 KiB. -/
def Core.reads (k : Core) (a n : Nat) : List Byte := k.scratchRead (a % 0x80000) n

theorem reads_append (k : Core) (a i j : Nat) : k.reads a (i + j) = k.reads a i ++ k.reads (a + i) j := by
  unfold Core.reads Core.scratchRead
  rw [List.range_add, List.map_append, List.map_map]
  congr 1
  refine List.map_congr_left fun x _ => ?_
  simp only [Function.comp_apply, Nat.mod_add_mod, Nat.add_assoc]

theorem flatMap_reads (k : Core) (a n : Nat) : (linePieces (n / 128 + 2) a n).flatMap (fun e => k.reads e.1 e.2) = k.reads a n :=
  flatMap_linePieces k.reads (fun _ => rfl) (reads_append k) _ a n (linePieces_covers a n)

/-! ### The engine at its core -/

/-- A core whose scratch an engine's accesses meet without poison, error or collision, with chain h at the head of its queue. -/
structure Core.Heads (k : Core) (h : Chain) (rest : List Chain) : Prop where
  queue : k.engine.queue = h :: rest
  poison : k.scratchPoison = []
  soft : k.scratchSoft = []
  banks : k.seq.banks = []

/-- A core whose engine has this queue. -/
def Core.queued (k : Core) (q : List Chain) : Core := { k with engine := { k.engine with queue := q } }

section
variable (hk : k.Heads h rest)
include hk

theorem Core.Heads.queued (h' : Chain) : (k.queued (h' :: rest)).Heads h' rest := ⟨rfl, hk.poison, hk.soft, hk.banks⟩

theorem Core.Heads.ne : k ≠ {} := fun he => by
  have hq := hk.queue
  simp [he] at hq

theorem Core.Heads.modChain (ht : s.HoldsCore t core k) (f : Chain → Chain) : s.HoldsCore (t.modChain core f) core (k.queued (f h :: rest)) := by
  have hf : t.modChain core f = t.setCore core (k.queued (f h :: rest)) := by
    unfold State.modChain State.modEngine State.modCore Core.queued
    rw [ht.holds]
    simp only [hk.queue]
  rw [hf]
  exact ht.setCore (hk.queued (f h)).ne

theorem Core.Heads.notTaken (ht : s.HoldsCore t core k) (space a n : Nat) : t.engineTaken core space a n = false := by
  simp [State.engineTaken, ht.holds, hk.banks]

theorem Core.Heads.access (ht : s.HoldsCore t core k) (c : Chain) (a n : Nat) : t.engineAccess core c 2 a n = (t, .ok (k.reads a n)) := by
  have hcorrect : t.scratchCorrect core (a % 0x80000) n = t := scratchCorrect_clean (by rw [ht.holds]; exact hk.soft) _ _
  simp only [State.engineAccess, if_true, ht.holds, hk.poison, List.any_nil, Bool.false_eq_true, if_false, hcorrect]
  rfl

end

theorem State.HoldsCore.countChain (ht : s.HoldsCore t core k) (c : Chain) (ev n : Nat) : s.HoldsCore (t.countChain core c ev n) core k := by
  unfold State.countChain
  split
  · exact ht
  · exact ht.count _ _ _ _ _

/-- A chain that has read more bytes. -/
def Chain.gets (h : Chain) (bs : List Byte) : Chain := { h with got := h.got ++ bs }

theorem gets_nil (h : Chain) : h.gets [] = h := by simp [Chain.gets]

theorem gets_gets (h : Chain) (xs ys : List Byte) : (h.gets xs).gets ys = h.gets (xs ++ ys) := by simp [Chain.gets]

/-- The engine reads pieces of scratch, one after the other. -/
theorem engineRead_scratch (c : Chain) (parts : List (Nat × Nat)) : ∀ {t : State} {h : Chain}, (k.queued (h :: rest)).Heads h rest →
    s.HoldsCore t core (k.queued (h :: rest)) → ∃ u, t.engineRead core c 2 parts = (u, .done) ∧
      s.HoldsCore u core (k.queued (h.gets (parts.flatMap (fun e => k.reads e.1 e.2)) :: rest)) := by
  induction parts with
  | nil =>
    intro t h _ ht
    refine ⟨t, rfl, ?_⟩
    rw [List.flatMap_nil, gets_nil]
    exact ht
  | cons e parts ih =>
    intro t h hk ht
    have hread := hk.modChain ht (fun c => c.gets (k.reads e.1 e.2))
    obtain ⟨u, hu, hholds⟩ := ih (hk.queued _) hread
    rw [gets_gets] at hholds
    refine ⟨u, ?_, hholds⟩
    rw [State.engineRead, hk.notTaken ht, if_neg Bool.false_ne_true, hk.access ht]
    exact hu

/-- The engine writes runs of bytes to scratch, one after the other. -/
theorem engineWrites_scratch (hc : c.area = none) (ws : List (Nat × List Byte)) : ∀ {t : State} {k : Core}, k.Heads h rest →
    s.HoldsCore t core k → ∃ u, t.engineWrites core c 2 ws = (u, .done) ∧
      s.HoldsCore u core { k with scratch := ws.foldl (fun m w => wrapped m w.1 w.2) k.scratch } := by
  induction ws with
  | nil =>
    intro t k _ ht
    exact ⟨t, rfl, ht⟩
  | cons w ws ih =>
    intro t k hk ht
    have hclean := engineScratch_clean hk.poison hk.soft w.1 w.2
    have hwrite : t.engineWrite core c 2 w.1 w.2 = (t.setCore core { k with scratch := wrapped k.scratch w.1 w.2 }, .ok []) := by
      simp only [State.engineWrite, writtenBytes, hc, Nat.lt_irrefl, if_false, if_true, State.modCore, ht.holds, hclean]
    have hk' : ({ k with scratch := wrapped k.scratch w.1 w.2 } : Core).Heads h rest := ⟨hk.queue, hk.poison, hk.soft, hk.banks⟩
    have hset := (ht.setCore hk'.ne).countChain c 0x14 (writtenBytes c.area 2 w.1 w.2.length)
    obtain ⟨u, hu, hholds⟩ := ih hk' hset
    refine ⟨u, ?_, hholds⟩
    rw [State.engineWrites, hk.notTaken ht, if_neg Bool.false_ne_true]
    simp only [hwrite, State.orHeld]
    exact hu

end Sys2Proof.Machine
end

section
/-! Descriptors of a chain that lies in scratch (R215 to R221), and the start and end of chains. -/

namespace Sys2Proof.Machine

open Sys2Proof

variable {s t : State} {core op : Nat} {k : Core} {c h : Chain} {rest : List Chain} {d : Desc}

/-- A chain that runs in scratch and has begun nothing of its next descriptor. -/
structure Chain.AtDesc (c : Chain) : Prop where
  started : c.started = true
  finished : c.finished = false
  raw : c.raw = none
  owner : ∀ l, c.owner ≠ .dump l
  space : c.space = 2
  area : c.area = none
  strayed : c.strayed = false
  desc : c.desc = none
  row : c.row = 0
  got : c.got = []
  writes : c.writes = none
  count : c.count < 65535

/-- A chain that goes on to its next descriptor at an address in a space, after one that was its last or not. -/
def Chain.goesOn (c : Chain) (addr space : Nat) (last : Bool) : Chain :=
  { c with
    count := c.count + 1, addr, space, desc := none, row := 0, got := [], writes := none, finished := last || c.finished
    fault := if last then none else c.fault, early := !last && c.early }

/-- A chain that has left its descriptor. -/
def Chain.leftDesc (c : Chain) (addr space : Nat) : Chain :=
  { c with count := c.count + 1, addr, space, desc := none, row := 0, got := [], writes := none }

/-- A chain that has run its last descriptor without a fault. -/
def Chain.stopped (c : Chain) : Chain := { c with finished := true, fault := none, early := false }

theorem goesOn_last (c : Chain) (addr space : Nat) : (c.leftDesc addr space).stopped = c.goesOn addr space true := rfl

theorem goesOn_next (c : Chain) (addr space : Nat) : c.leftDesc addr space = c.goesOn addr space false := rfl

theorem Core.Heads.chainStop (hk : k.Heads h rest) (ht : s.HoldsCore t core k) : s.HoldsCore (t.chainStop core none) core (k.queued (h.stopped :: rest)) :=
  hk.modChain ht _

/-- The chain at the head goes on. -/
theorem Core.Heads.chainNext (hk : k.Heads h rest) (ht : s.HoldsCore t core k) (addr space : Nat) (last : Bool) (halign : last = false → addr % 64 = 0)
    (hcount : h.count < 65535) : s.HoldsCore (t.chainNext core addr space last) core (k.queued (h.goesOn addr space last :: rest)) := by
  have hmod : s.HoldsCore (t.modChain core (·.leftDesc addr space)) core (k.queued (h.leftDesc addr space :: rest)) := hk.modChain ht _
  have hq : ((t.modChain core (·.leftDesc addr space)).core core).engine.queue = h.leftDesc addr space :: rest := by
    rw [hmod.holds]
    rfl
  have hnext : t.chainNext core addr space last = if last then (t.modChain core (·.leftDesc addr space)).chainStop core none
      else if addr % 64 ≠ 0 then ((t.modChain core (·.leftDesc addr space)).modEngine core (fun e => e.bad 7 addr)).chainStop core none
      else if 65536 ≤ h.count + 1 then ((t.modChain core (·.leftDesc addr space)).modEngine core (fun e => e.bad 6 addr)).chainStop core none
      else t.modChain core (·.leftDesc addr space) := by
    simp only [State.chainNext, Chain.leftDesc] at hq ⊢
    simp only [hq]
  rw [hnext]
  cases last with
  | true =>
    rw [if_pos rfl, ← goesOn_last]
    exact (hk.queued _).chainStop hmod
  | false =>
    rw [if_neg Bool.false_ne_true, if_neg (fun hne => hne (halign rfl)), if_neg (by omega), ← goesOn_next]
    exact hmod

theorem headChain_of_holds (hk : k.Heads h rest) (ht : s.HoldsCore t core k) : t.headChain core = some h := by
  rw [State.headChain, ht.holds, hk.queue]
  rfl

/-- The descriptor that a chain in scratch meets is read at once, and run or skipped by its checks. -/
theorem descriptor_eq (hc : c.AtDesc) (hk : (s.core core).Heads c rest) (hd : parseDesc ((s.core core).reads c.addr 64) = d) (hop : d.op = op)
    (run : State → Chain → Desc → State) : s.descriptor core op run =
      if d.check c.anyCore = 0 then run (s.modChain core (fun x => { x with desc := some ((s.core core).reads c.addr 64) })) c d
      else (s.modEngine core (fun e => e.bad (d.check c.anyCore) c.addr)).chainNext core (c.addr + 64) c.space (d.last || decide (d.op = 4)) := by
  have hread := hk.access (State.HoldsCore.refl s core) c c.addr 64
  have hthis : ¬ (d.op ≠ op ∧ 1 ≤ d.op ∧ d.op ≤ 4) := fun h => h.1 hop
  unfold State.descriptor
  simp only [hk.queue, hc.started, hc.finished, hc.raw, hc.desc, hc.space, hk.notTaken (State.HoldsCore.refl s core), hread]
  subst hd
  simp only [Bool.not_true, Bool.or_false, Bool.false_or, Option.isSome_none, Bool.false_eq_true, if_false, if_neg hthis]
  cases ho : c.owner with
  | dump l => exact absurd ho (hc.owner l)
  | _ => rfl

/-! ### A row -/

/-- The bytes of a row's source in scratch. -/
def Desc.rowSource (d : Desc) (k : Core) : List Byte :=
  if d.op = 2 then [] else k.reads d.src (if d.op = 3 then sourceBytes d.srcFmt d.rowLen else d.rowLen)

/-- Scratch after the writes of the one row of a descriptor. -/
def Desc.rowScratch (d : Desc) (k : Core) : Map Byte := (d.make 0 (d.rowSource k)).writes.foldl (fun m x => wrapped m x.1 x.2) k.scratch

/-- Pieces of writes, cut at their rows, are written as the pieces are. -/
theorem foldl_flatMap_rowRuns (m : Map Byte) (ws : List (Nat × List Byte)) :
    (ws.flatMap (fun w => rowRuns w.1 w.2)).foldl (fun (m : Map Byte) w => wrapped m w.1 w.2) m = ws.foldl (fun m w => wrapped m w.1 w.2) m := by
  rw [List.foldl_flatMap]
  congr 1
  funext m w
  exact foldl_rowRuns m w.1 w.2

/-- The engine puts writes to scratch. -/
theorem enginePut_scratch (hc : c.area = none) (ws : List (Nat × List Byte)) (hk : k.Heads h rest) (ht : s.HoldsCore t core k) :
    ∃ u, t.enginePut core c 2 ws = (u, .done) ∧ s.HoldsCore u core
      ({ k with scratch := ws.foldl (fun m (w : Nat × List Byte) => wrapped m w.1 w.2) k.scratch }.queued ({ h with got := [], writes := some [] } :: rest)) := by
  have hmod := hk.modChain ht (fun c => { c with got := [], writes := some [] })
  obtain ⟨u, hu, hholds⟩ := engineWrites_scratch hc (ws.flatMap (fun w => rowRuns w.1 w.2)) (hk.queued _) hmod
  refine ⟨u, hu, ?_⟩
  rw [foldl_flatMap_rowRuns] at hholds
  exact hholds

/-- The source of a row is read from scratch, or the row needs none. -/
theorem rowSource_read (hsrc : d.op ≠ 2 → d.srcSpace = 2) (hgot : h.got = []) (hk : (k.queued (h :: rest)).Heads h rest)
    (ht : s.HoldsCore t core (k.queued (h :: rest))) {n : Nat} (hn : n = if d.op = 3 then sourceBytes d.srcFmt d.rowLen else d.rowLen) :
    ∃ u, (if d.op = 2 then (t, Progress.done) else t.engineRead core c d.srcSpace (readParts d.srcSpace d.src n)) = (u, .done) ∧
      s.HoldsCore u core (k.queued ({ h with got := d.rowSource k } :: rest)) := by
  unfold Desc.rowSource
  split
  next =>
    have hsame : ({ h with got := [] } : Chain) = h := by rw [← hgot]
    refine ⟨t, rfl, ?_⟩
    rw [hsame]
    exact ht
  next hop =>
    obtain ⟨u, hu, hholds⟩ := engineRead_scratch c (linePieces (n / 128 + 2) d.src n) hk ht
    rw [flatMap_reads, Chain.gets, hgot, List.nil_append] at hholds
    rw [hsrc hop, ← hn]
    exact ⟨u, hu, hholds⟩

/-- The one row of a descriptor from scratch, or from its own pattern, to scratch. -/
theorem engineRow_scratch (hc : c.area = none) (hsrc : d.op ≠ 2 → d.srcSpace = 2) (hdst : d.dstSpace = 2) (hgot : h.got = []) (hwrites : h.writes = none)
    (hk : (k.queued (h :: rest)).Heads h rest) (ht : s.HoldsCore t core (k.queued (h :: rest))) :
    ∃ u, t.engineRow core c d 0 = (u, .done) ∧
      s.HoldsCore u core ({ k with scratch := d.rowScratch k }.queued ({ h with got := [], writes := some [] } :: rest)) := by
  obtain ⟨u, hu, hread⟩ := rowSource_read (c := c) hsrc hgot hk ht rfl
  have hcounted := ((hread.countChain c 0x11 (d.make 0 (d.rowSource k)).flushed).countChain c 0x12 (d.make 0 (d.rowSource k)).nonfinite).countChain c 0x13
    (d.make 0 (d.rowSource k)).clamped
  obtain ⟨v, hv, hput⟩ := enginePut_scratch hc (d.make 0 (d.rowSource k)).writes (hk.queued _) hcounted
  refine ⟨v, ?_, hput⟩
  have hhead : t.headChain core = some h := headChain_of_holds hk ht
  have hhead' : u.headChain core = some { h with got := d.rowSource k } := headChain_of_holds (hk.queued _) hread
  unfold State.engineRow
  simp only [hhead, Option.bind_some, hwrites, Option.map_some, Option.getD_some, hgot, List.length_nil, Nat.zero_mul, Nat.add_zero, Nat.sub_zero, hu, hhead',
    hdst]
  exact hv

/-! ### A descriptor -/

/-- A chain that has read its descriptor. -/
def Chain.holding (c : Chain) (bs : List Byte) : Chain := { c with desc := some bs }

/-- A core a cycle later. -/
def Core.cycled (k : Core) : Core := { k with clock := k.clock + 1 }

/-- A core that has run the one row of a descriptor, its chain gone on. -/
def Core.ran (k : Core) (c : Chain) (d : Desc) (rest : List Chain) : Core :=
  { k.cycled with scratch := d.rowScratch k }.queued (c.goesOn (c.addr + 64) c.space d.last :: rest)

theorem Core.Heads.cycled (hk : k.Heads h rest) : k.cycled.Heads h rest := ⟨hk.queue, hk.poison, hk.soft, hk.banks⟩

theorem State.HoldsCore.engineCycle (ht : s.HoldsCore t core k) : s.HoldsCore (t.engineCycle core) core k.cycled := by
  unfold State.engineCycle
  rw [ht.holds]
  exact ht.tick (Nat.le_succ _)

theorem Core.Heads.endDesc (hk : k.Heads h rest) (ht : s.HoldsCore t core k) (c : Chain) (hstrayed : h.strayed = false) : t.endDesc core c = t := by
  unfold State.endDesc
  simp only [ht.holds, hk.queue, hstrayed, Bool.false_eq_true, if_false]

/-- A descriptor of one row, from scratch or from its own pattern to scratch, runs whole. -/
theorem runDesc_scratch (hc : c.AtDesc) (hk : k.Heads c rest) (bs : List Byte) (ht : s.HoldsCore t core (k.queued (c.holding bs :: rest)))
    (hrows : d.rows = 1) (hsrc : d.op ≠ 2 → d.srcSpace = 2) (hdst : d.dstSpace = 2) (halign : c.addr % 64 = 0) :
    s.HoldsCore (t.runDesc core c d) core (k.ran c d rest) := by
  have hcycle : s.HoldsCore (t.engineCycle core) core (k.cycled.queued (c.holding bs :: rest)) := ht.engineCycle
  obtain ⟨u, hu, hrow⟩ := engineRow_scratch (h := c.holding bs) hc.area hsrc hdst hc.got hc.writes (hk.cycled.queued (c.holding bs)) hcycle
  have hran : (k.cycled.queued (({ c.holding bs with got := [], writes := some [] } : Chain) :: rest)).Heads
      { c.holding bs with got := [], writes := some [] } rest := hk.cycled.queued _
  have hheads : ({ k.cycled with scratch := d.rowScratch k.cycled }.queued (({ c.holding bs with got := [], writes := some [] } : Chain) :: rest)).Heads
      { c.holding bs with got := [], writes := some [] } rest := ⟨hran.queue, hran.poison, hran.soft, hran.banks⟩
  have hdone := hheads.modChain hrow (fun c => { c with row := 0 + 1, writes := none })
  have hrows' : (t.engineCycle core).engineRows core c d ((List.range d.rows).drop c.row) =
      (u.modChain core (fun c => { c with row := 0 + 1, writes := none }), .done) := by
    rw [hrows, hc.row]
    show (t.engineCycle core).engineRows core c d [0] = _
    rw [State.engineRows, hu]
    rfl
  unfold State.runDesc
  rw [hrows']
  have hend := (hheads.queued _).endDesc hdone c hc.strayed
  simp only [hend]
  exact (hheads.queued _).chainNext hdone (c.addr + 64) c.space d.last (fun _ => by omega) hc.count

/-- A transfer without descriptors has nothing to do for a chain that has none to do. -/
theorem rawTransfer_none (hk : k.Heads h rest) (ht : s.HoldsCore t core k) (hraw : h.raw = none) (howner : ∀ l, h.owner ≠ .dump l) (fill : Bool) :
    t.rawTransfer core fill = t := by
  unfold State.rawTransfer
  simp only [ht.holds, hk.queue, hraw]
  split
  · rfl
  cases ho : h.owner with
  | dump l => exact absurd ho (howner l)
  | _ => rfl

/-- The chain that a descriptor's end leaves, in the statement's words. -/
theorem goesOn_atDesc (hc : c.AtDesc) (addr space : Nat) (last : Bool) : c.goesOn addr space last =
    { c with count := c.count + 1, addr, space, finished := last, fault := if last then none else c.fault, early := !last && c.early } := by
  obtain ⟨-, hfin, -, -, -, -, -, hdesc, hrow, hgot, hwrites, -⟩ := hc
  cases c
  subst hfin hdesc hrow hgot hwrites
  simp only [Chain.goesOn, Bool.or_false]

/-- A core whose engine has skipped a descriptor. -/
def Core.badAt (k : Core) (reason addr : Nat) : Core := { k with engine := k.engine.bad reason addr }

/-- The first skipped descriptor is recorded. -/
theorem badAt_first (h : k.engine.badDesc = false) (reason addr : Nat) :
    k.badAt reason addr = { k with engine := { k.engine with badDesc := true, reason := reason, badAddr := addr, badCount := 1 } } := by
  simp only [Core.badAt, Engine.bad, h, Bool.false_eq_true, if_false]

theorem badAt_queue (k : Core) (reason addr : Nat) : (k.badAt reason addr).engine.queue = k.engine.queue := by
  unfold Core.badAt Engine.bad
  simp only
  split <;> rfl

theorem core_ne_of_queue (hq : k.engine.queue = h :: rest) : k ≠ {} := fun he => by simp [he] at hq

theorem State.HoldsCore.engineBad (ht : s.HoldsCore t core k) (hq : k.engine.queue = h :: rest) (reason addr : Nat) :
    s.HoldsCore (t.modEngine core (fun e => e.bad reason addr)) core (k.badAt reason addr) := by
  have heq : t.modEngine core (fun e => e.bad reason addr) = t.setCore core (k.badAt reason addr) := by
    unfold State.modEngine State.modCore
    rw [ht.holds]
    rfl
  rw [heq]
  exact ht.setCore (core_ne_of_queue ((badAt_queue k reason addr).trans hq))

theorem Core.Heads.badAt (hk : k.Heads h rest) (reason addr : Nat) : (k.badAt reason addr).Heads h rest :=
  ⟨(badAt_queue k reason addr).trans hk.queue, hk.poison, hk.soft, hk.banks⟩

theorem goesOn_linked (hc : c.AtDesc) (addr space : Nat) : c.goesOn addr space false = { c with count := c.count + 1, addr, space } := by
  have hfin := hc.finished
  rw [goesOn_atDesc hc]
  cases c
  subst hfin
  rfl

section
variable (hc : c.AtDesc) (hk : (s.core core).Heads c rest) (hd : parseDesc ((s.core core).reads c.addr 64) = d)
include hc hk hd

/-- A descriptor that passes its checks, of one row and within scratch, is run by the command of its operation. -/
theorem descriptor_runs (hop : d.op = op) (hcheck : d.check c.anyCore = 0) (hrows : d.rows = 1) (hsrc : d.op ≠ 2 → d.srcSpace = 2) (hdst : d.dstSpace = 2)
    (halign : c.addr % 64 = 0) : s.HoldsCore (s.descriptor core op (fun s c d => s.runDesc core c d)) core ((s.core core).ran c d rest) := by
  rw [descriptor_eq hc hk hd hop, if_pos hcheck]
  exact runDesc_scratch hc hk _ (hk.modChain (State.HoldsCore.refl s core) _) hrows hsrc hdst halign

/-- A descriptor that fails its checks is skipped. -/
theorem descriptor_skips (hop : d.op = op) (hcheck : d.check c.anyCore ≠ 0) (hlast : d.last = true) (run : State → Chain → Desc → State) :
    s.HoldsCore (s.descriptor core op run) core
      (((s.core core).badAt (d.check c.anyCore) c.addr).queued (c.goesOn (c.addr + 64) c.space true :: rest)) := by
  have hbad := (State.HoldsCore.refl s core).engineBad hk.queue (d.check c.anyCore) c.addr
  rw [descriptor_eq hc hk hd hop, if_neg hcheck, hlast, Bool.true_or]
  exact (hk.badAt _ _).chainNext hbad _ _ true (fun h => Bool.noConfusion h) hc.count

/-- A link names the next descriptor. -/
theorem descriptor_links (hop : d.op = 4) (hcheck : d.check c.anyCore = 0) (hlast : d.last = false) (halign : d.src % 64 = 0) :
    s.HoldsCore (s.descriptor core 4 (fun s _ d => s.chainNext core d.src d.srcSpace d.last)) core
      ((s.core core).queued (c.goesOn d.src d.srcSpace false :: rest)) := by
  have hread := hk.modChain (State.HoldsCore.refl s core) (fun x => { x with desc := some ((s.core core).reads c.addr 64) })
  rw [descriptor_eq hc hk hd hop, if_pos hcheck, hlast]
  exact (hk.queued _).chainNext hread _ _ false (fun _ => halign) hc.count

end

/-! ### The start and the end of a chain -/

theorem takeIn_none {e : Engine} (h : e.waiting = []) : e.takeIn = e := by
  simp only [Engine.takeIn, h, List.take_nil, List.drop_nil, List.append_nil]
  rw [← h]

/-- A core whose head chain runs. -/
def Chain.starts (c : Chain) : Chain := { c with started := true }

theorem State.HoldsCore.modChain (ht : s.HoldsCore t core k) (hq : k.engine.queue = h :: rest) (f : Chain → Chain) :
    s.HoldsCore (t.modChain core f) core (k.queued (f h :: rest)) := by
  have hf : t.modChain core f = t.setCore core (k.queued (f h :: rest)) := by
    unfold State.modChain State.modEngine State.modCore Core.queued
    rw [ht.holds]
    simp only [hq]
  rw [hf]
  exact ht.setCore (core_ne_of_queue (rfl : (k.queued (f h :: rest)).engine.queue = _))

/-- No chain waits for room in the queue. -/
theorem takeIn_holds (hq : (s.core core).engine.queue = c :: rest) (hw : (s.core core).engine.waiting = []) :
    s.HoldsCore (s.modEngine core Engine.takeIn) core (s.core core) := by
  have heq : s.modEngine core Engine.takeIn = s.setCore core (s.core core) := by
    simp only [State.modEngine, State.modCore, takeIn_none hw]
  rw [heq]
  exact (State.HoldsCore.refl s core).setCore (core_ne_of_queue hq)

/-- The command starts at its core, where the chain does not run ahead. -/
theorem State.HoldsCore.chainBegins (ht : s.HoldsCore t core k) (ahead : Bool) (src pair tag ctx : Nat) : ∃ v, k.clock ≤ v ∧
    s.HoldsCore (if ahead then t else (t.startCommand core src pair).traceStart core pair tag src ctx) core { k with clock := v } := by
  cases ahead with
  | true => exact ⟨k.clock, Nat.le_refl _, ht⟩
  | false =>
    obtain ⟨v, hv, hstart⟩ := ht.startCommand src pair
    exact ⟨v, hv, hstart.traceEvent _ _ _ _⟩

/-- A core whose head chain runs from a time on. -/
def Core.begun (k : Core) (c : Chain) (rest : List Chain) (v : Nat) : Core := { k.queued (c.starts :: rest) with clock := v }

/-- The state in which a chain that starts has begun. -/
def State.chainBegun (s : State) (core : Nat) (c : Chain) : State :=
  if s.runAhead c then (s.modEngine core Engine.takeIn).modChain core Chain.starts
  else (((s.modEngine core Engine.takeIn).modChain core Chain.starts).startCommand core 3 (pairOf c.layer c.oper)).traceStart core
    (pairOf c.layer c.oper) (s.chainTag c) 3 c.ctx

/-- A chain at the head of the queue starts, and ends at once where its address is not aligned. -/
theorem fdmaChainStart_holds (hq : (s.core core).engine.queue = c :: rest) (hw : (s.core core).engine.waiting = []) (hstarted : c.started = false)
    (hraw : c.raw = none) (howner : ∀ l, c.owner ≠ .dump l) : ∃ t v, exec (.fdmaChainStart core) s = .next t ∧ (s.core core).clock ≤ v ∧
      s.HoldsCore t core (if c.addr % 64 ≠ 0 then (((s.core core).begun c rest v).badAt 7 c.addr).queued (c.starts.stopped :: rest)
        else (s.core core).begun c rest v) := by
  have hmod := (takeIn_holds hq hw).modChain hq Chain.starts
  obtain ⟨v, hv, hbegun⟩ := hmod.chainBegins (s.runAhead c) 3 (pairOf c.layer c.oper) (s.chainTag c) c.ctx
  have hqueue : ((s.modEngine core Engine.takeIn).core core).engine.queue = c :: rest := by
    rw [(takeIn_holds hq hw).holds, hq]
  have hexec : exec (.fdmaChainStart core) s = if c.addr % 64 ≠ 0 then
      .next (((s.chainBegun core c).modEngine core (fun e => e.bad 7 c.addr)).chainStop core none) else .next (s.chainBegun core c) := by
    show execFdmaChainStart core s = _
    unfold execFdmaChainStart
    simp only [hqueue, hstarted, Bool.false_eq_true, if_false]
    cases ho : c.owner with
    | dump l => exact absurd ho (howner l)
    | _ =>
      simp only [hraw, Option.isNone_none, Bool.true_and, decide_eq_true_eq]
      rfl
  rw [hexec]
  split
  next =>
    have hbad := hbegun.engineBad (k := (s.core core).begun c rest v) (h := c.starts) (rest := rest) rfl 7 c.addr
    exact ⟨_, v, rfl, hv, hbad.modChain ((badAt_queue _ _ _).trans rfl) _⟩
  next => exact ⟨_, v, rfl, hv, hbegun⟩

/-- A chain of a packet, without a landing, that has ended leaves the queue, and its packet's work is done. -/
theorem fdmaChainComplete_staged {ctx pid : Nat} {p : Pkt} (hs : s.stalled = false) (hq : (s.core core).engine.queue = c :: rest)
    (hw : (s.core core).engine.waiting = []) (hfin : c.finished = true) (hland : c.landing = none) (howner : c.owner = .packet ctx pid)
    (hp : s.pkt ctx pid = some p) (hstage : p.stage = .dispatched) (hclock : 0 < (s.core core).clock) :
    ∃ t, exec (.fdmaChainComplete core) s = .next t ∧ t.hbm = s.hbm ∧
      t.Staged ctx pid (.workDone (c.fault.getD (0, 0)).1 (c.fault.getD (0, 0)).2) ∧ t.core core = (s.core core).queued rest := by
  have hne : (s.core core).queued rest ≠ {} := fun he => Nat.ne_of_gt hclock (congrArg Core.clock he)
  have hleft : s.HoldsCore (s.modEngine core (fun e => { e with queue := rest }.takeIn)) core ((s.core core).queued rest) := by
    have heq : s.modEngine core (fun e => { e with queue := rest }.takeIn) = s.setCore core ((s.core core).queued rest) := by
      simp only [State.modEngine, State.modCore]
      rw [takeIn_none (e := { (s.core core).engine with queue := rest }) hw]
      rfl
    rw [heq]
    exact (State.HoldsCore.refl s core).setCore hne
  obtain ⟨u, hu⟩ : ∃ u, u = if s.runAhead c || c.early then s.modEngine core (fun e => { e with queue := rest }.takeIn)
      else (s.modEngine core (fun e => { e with queue := rest }.takeIn)).traceEnd core (pairOf c.layer c.oper) (s.chainTag c) 3 c.ctx
        (match c.fault with | some (st, _) => st | none => 0) := ⟨_, rfl⟩
  have hholds : s.HoldsCore u core ((s.core core).queued rest) := by
    rw [hu]
    split
    · exact hleft
    · exact hleft.traceEvent _ _ _ _
  obtain ⟨hoff, hcore, -⟩ := hholds
  have hpkt : u.pkt ctx pid = some p := (congrArg (fun x : State => x.pkt ctx pid) hoff).trans hp
  have hstalled : (u.packetDone ctx pid (c.fault.getD (0, 0)).1 (c.fault.getD (0, 0)).2).stalled = false :=
    (congrArg State.stalled hoff :).trans hs
  refine ⟨u.packetDone ctx pid (c.fault.getD (0, 0)).1 (c.fault.getD (0, 0)).2, ?_, (congrArg State.hbm hoff :), packetDone_staged hpkt hstage _ _, hcore⟩
  have hexec : exec (.fdmaChainComplete core) s = s.waits (.next (u.packetDone ctx pid (c.fault.getD (0, 0)).1 (c.fault.getD (0, 0)).2)) := by
    show execFdmaChainComplete core s = _
    unfold execFdmaChainComplete
    rw [hu]
    congr 1
    simp only [hq, hfin, hland, howner, Bool.not_true, Bool.false_eq_true, if_false]
    cases c.fault <;> rfl
  rw [hexec]
  show (.next (s.orWait _) : Outcome) = _
  rw [orWait_of_served s _ hstalled]

/-! ### The statement -/

/-- Settles O26: the engine reads and writes its core's scratch piece by piece, and goes from descriptor to descriptor. -/
theorem copyEngine : Obligations.CopyEngine := by
  unfold Obligations.CopyEngine
  intro s core c rest k e a d plain inCore headed stepped runs
  have hat : inCore → c.AtDesc ∧ (s.core core).Heads c rest ∧ s.stalled = false := by
    rintro ⟨⟨hq, hstarted, hfin⟩, ⟨hraw, howner⟩, hspace, harea, hstrayed, hdesc, hrow, hgot, hwrites, hpoison, hsoft, hbanks, hcount, -, -, hstalled, -⟩
    exact ⟨⟨hstarted, hfin, hraw, howner, hspace, harea, hstrayed, hdesc, hrow, hgot, hwrites, hcount⟩, ⟨hq, hpoison, hsoft, hbanks⟩, hstalled⟩
  have hrun {op : Nat} (hin : inCore) (halign : c.addr % 64 = 0) (hop : d.op = op) (hcheck : d.check c.anyCore = 0) (hrows : d.rows = 1)
      (hdst : d.dstSpace = 2) (hsrc : op ≠ 2 → d.srcSpace = 2) : s.HoldsCore (s.descriptor core op (fun s c d => s.runDesc core c d)) core
        ((s.core core).ran c d rest) := by
    obtain ⟨hc, hk, -⟩ := hat hin
    exact descriptor_runs hc hk rfl hop hcheck hrows (fun hne => hsrc (hop ▸ hne)) hdst halign
  have hran {op : Nat} (hin : inCore) (hop : d.op = op) : (s.core core).ran c d rest = headed { k with
      clock := k.clock + 1
      scratch := (d.make 0 (if op = 2 then [] else k.scratchRead (d.src % 0x80000)
        (if op = 3 then sourceBytes d.srcFmt d.rowLen else d.rowLen))).writes.foldl (fun m x => wrapped m x.1 x.2) k.scratch } stepped := by
    subst hop
    rw [Core.ran, goesOn_atDesc (hat hin).1]
    rfl
  have hwaits {t : State} {k' : Core} (hin : inCore) (ht : s.HoldsCore t core k') : s.LeavesCore core (s.waits (.next t)) k' := by
    have hserved : s.orWait t = t := orWait_of_served s t (ht.stalled.trans (hat hin).2.2)
    show s.LeavesCore core (.next (s.orWait t)) k'
    rw [hserved]
    exact ht.leaves
  have hraw {t : State} {k' : Core} {h : Chain} (hk' : k'.Heads h rest) (ht : s.HoldsCore t core k') (hraw : h.raw = none)
      (howner : ∀ l, h.owner ≠ .dump l) (fill : Bool) : s.HoldsCore (t.rawTransfer core fill) core k' := by
    rw [rawTransfer_none hk' ht hraw howner]
    exact ht
  have hheads (hin : inCore) : ((s.core core).ran c d rest).Heads (c.goesOn (c.addr + 64) c.space d.last) rest := by
    obtain ⟨-, hk, -⟩ := hat hin
    exact ⟨rfl, hk.poison, hk.soft, hk.banks⟩
  have hclause {op : Nat} {o : Outcome} (ho : inCore → s.HoldsCore (s.descriptor core op (fun s c d => s.runDesc core c d)) core
      ((s.core core).ran c d rest) → s.LeavesCore core o ((s.core core).ran c d rest)) : runs o op := by
    intro hin halign hop hcheck hrows hdst hsrc n
    have hleaves := ho hin (hrun hin halign hop hcheck hrows hdst hsrc)
    rw [hran hin hop] at hleaves
    exact hleaves
  refine ⟨?_, ?_, ?_, ?_, ?_, ?_, ?_⟩
  case refine_1 =>
    rintro hq hw hstarted ⟨hplain, howner⟩
    obtain ⟨t, v, hexec, hv, hoff, hcore, hother⟩ := fdmaChainStart_holds hq hw hstarted hplain howner
    refine ⟨t, v, hexec, hv, hoff, hother, fun halign => ?_, fun hodd hgood => ?_⟩
    · rw [hcore, if_neg (fun hne => hne halign)]
      rfl
    · have hbad : ((s.core core).begun c rest v).engine.badDesc = false := hgood
      rw [hcore, if_pos hodd, badAt_first hbad]
      rfl
  case refine_2 => exact hclause fun hin hdone => hwaits hin (hraw (hheads hin) hdone (hat hin).1.raw (hat hin).1.owner false)
  case refine_3 => exact hclause fun hin hdone => hwaits hin (hraw (hheads hin) hdone (hat hin).1.raw (hat hin).1.owner true)
  case refine_4 => exact hclause fun hin hdone => hwaits hin hdone
  case refine_5 =>
    intro hin hop hcheck hlast halign
    obtain ⟨hc, hk, -⟩ := hat hin
    have hlink := descriptor_links hc hk rfl hop hcheck hlast halign
    rw [goesOn_linked hc] at hlink
    exact hwaits hin hlink
  case refine_6 =>
    intro hin hop hcheck hlast hgood
    obtain ⟨hc, hk, -⟩ := hat hin
    have hbad : (s.core core).engine.badDesc = false := hgood
    have hskip := descriptor_skips hc hk rfl hop hcheck hlast (fun s c d => s.runDesc core c d)
    have hdone := hwaits hin (hraw ((hk.badAt _ _).queued _) hskip hc.raw hc.owner true)
    rw [goesOn_atDesc hc, badAt_first hbad] at hdone
    have hstepped : stepped = { c with
        count := c.count + 1, addr := c.addr + 64, finished := true, fault := if true then none else c.fault, early := !true && c.early } := by
      show ({ c with
        count := c.count + 1, addr := c.addr + 64, finished := d.last, fault := if d.last then none else c.fault, early := !d.last && c.early } : Chain) = _
      rw [hlast]
    rw [hstepped]
    exact hdone
  case refine_7 =>
    intro ctx pid p hs hq hw hfin hland howner hp hstage hclock
    obtain ⟨-, -, hstalled, -⟩ := hs
    exact fdmaChainComplete_staged hstalled hq hw hfin hland howner hp hstage hclock

end Sys2Proof.Machine
end

section
/-! Partition numbers that no module has (R282): a regulator's bucket is found by 16 r + q for resource r and partition q, so that of a partition 16 of
resource r is that of a partition 0 of resource r + 1. The statements about homes and slices that ask for no partition below 16 meet it: a state that
serves every bucket of its own resource leaves the requests of such a partition waiting at a resource without a rate, here stack 32. -/

namespace Sys2Proof.Machine

open Sys2Proof

theorem rising_nil {α : Type} : rising ([] : Map α) := List.Pairwise.nil

theorem rising_singleton {α : Type} (k : Nat) (v : α) : rising [(k, v)] := List.pairwise_singleton _ _

/-- A module of one partition, 16, with a region of one line on stack 32, whose bucket is empty, and which has no rate; the resource that shares its
number has one. -/
def farHome (homes : Map HomeLine) (hostLines : Map HostLine) (slices : Map Slice) : State :=
  { parts := [(16, { live := true, galleries := 1 })]
    regions := [(1024, { base := 0, size := 128, mode := 0, die := 0, layout := { lists := [[2048]] } })]
    ports := [(1, { cls := 1 })]
    buckets := [(528, { rate := 1, burst := 1 })]
    homes, hostLines, slices }

theorem farHome_flows (homes : Map HomeLine) (hostLines : Map HostLine) (slices : Map Slice) : (farHome homes hostLines slices).Flows := by
  refine ⟨fun k => rfl, fun k => ?_⟩
  by_cases hk : k = 528
  · subst hk
    exact .inr (by decide : 0 < 1 * 500)
  · refine .inl ?_
    have hnone : (farHome homes hostLines slices).bucket k = {} := by
      show (if 528 = k then _ else if k < 528 then _ else _) = ({} : Bucket)
      rw [if_neg (Ne.symm hk)]
      split <;> rfl
    rw [hnone]

theorem farHome_sound {homes : Map HomeLine} {hostLines : Map HostLine} {slices : Map Slice} (hhomes : rising homes) (hlines : rising hostLines)
    (hslices : rising slices) : (farHome homes hostLines slices).Sound := by
  simp only [rising] at hhomes hlines hslices
  simp [State.Sound, rising, farHome, mwf, hhomes, hlines, hslices]

/-- A request for the line waits at its stack, and its transaction does not begin. -/
theorem rdShared_farHome {t : State} (h : exec (.rdShared 16 0 0) (farHome [] [] []) = .next t) : t.homes = [] := by
  obtain rfl : _ = t := by injection h
  decide +kernel

/-- Refutes O27, which asks for no well-formed command: a read by a core of partition 16 is not served, since its bucket at stack 32 is empty and that resource has no rate, though the
resource that the bucket's number names has one. -/
theorem not_homeRequests : ¬ Obligations.HomeRequests := by
  unfold Obligations.HomeRequests
  intro h
  obtain ⟨hread, -⟩ := h (farHome [] [] []) 16 0 0 0 [] (farHome_sound rising_nil rising_nil rising_nil) (farHome_flows _ _ _) ⟨rfl, by decide +kernel⟩ rfl rfl
    (fun _ => by decide)
  obtain ⟨t, ht, -, htxn, -⟩ := (hread (by decide +kernel) (by decide +kernel)).1 (fun o he => DirState.noConfusion he)
  rw [State.home, rdShared_farHome ht] at htxn
  exact absurd htxn (by decide +kernel)

/-- The line of partition 16 as a host core holds it, in M. -/
def farOwned : State := farHome [(16 * 2 ^ 45, { dir := .owned 160 })] [(16 * 2 ^ 45, { st := 3 })] []

/-- The line that a host core sends back waits at its stack. -/
theorem writeback_farOwned {t : State} (h : exec (.writeback 16 0 160 (zeros 128)) farOwned = .next t) : t.hostLines ≠ [] := by
  have hrun : (match exec (.writeback 16 0 160 (zeros 128)) farOwned with
      | .next t => t.hostLines
      | _ => []) ≠ [] := by decide +kernel
  rw [h] at hrun
  exact hrun

/-- Refutes O28, which asks for no well-formed command: a host core of partition 16 does not give its line back, since its bucket at stack 32 is empty and that resource has no rate. -/
theorem not_homeAnswers : ¬ Obligations.HomeAnswers := by
  unfold Obligations.HomeAnswers
  intro h
  obtain ⟨-, hback, -⟩ := h farOwned 16 0 160 { req := .ioRead 0, inv := [], down := [] } (farOwned.home (16 * 2 ^ 45)) (zeros 128)
    (farHome_sound (rising_singleton _ _) (rising_singleton _ _) rising_nil) (farHome_flows _ _ _) ⟨rfl, by decide +kernel⟩
  obtain ⟨t, ht, -, hlines, -⟩ := hback (by decide) (by decide +kernel) (by decide +kernel) (by decide) (2048 * 9437184 * 128) (by decide +kernel)
    (by decide +kernel) (by decide +kernel)
  exact writeback_farOwned ht (hlines.trans (by decide +kernel))

/-- A slice that is being disabled and holds the line of partition 16, modified. -/
def farSlice : State := farHome [] [] [(0, { enabled := true, lines := [(0, { line := 16 * 2 ^ 45, dirty := true })] })]

/-- The slice's line waits at its stack. -/
theorem sliceDisabled_farSlice {t : State} (h : exec (.sliceDisabled 0) farSlice = .next t) : t.slices = farSlice.slices := by
  obtain rfl : _ = t := by injection h
  decide +kernel

/-- Refutes O29: a slice that holds a modified line of partition 16 is not disabled, since the line's bucket at stack 32 is empty and that resource
has no rate. -/
theorem not_galleryCacheCommands : ¬ Obligations.GalleryCacheCommands := by
  unfold Obligations.GalleryCacheCommands
  intro h
  obtain ⟨-, -, -, -, hdisabled, -⟩ := h farSlice { fn := 0, off := 0, size := 0, data := 0 } 0 0
  obtain ⟨t, ht, -, hslices⟩ := hdisabled (by decide +kernel) (by decide +kernel) (farHome_sound rising_nil rising_nil (rising_singleton _ _)) (farHome_flows _ _ _)
  rw [sliceDisabled_farSlice ht] at hslices
  exact absurd hslices (by decide +kernel)

end Sys2Proof.Machine
end

section
/-! The commands of landings outside crews (R263, R276 to R281). -/

namespace Sys2Proof.Machine

open Sys2Proof

variable {s t : State} {key ctx pid : Nat}

theorem slot_setSlot_of_rising (h : rising s.slots) (y : Slot) : (s.setSlot key y).slot key = y := mget_mset_same_of_rising _ _ _ h

theorem slot_setSlot_ne_of_rising (h : rising s.slots) (y : Slot) {k : Nat} (hk : k ≠ key) : (s.setSlot key y).slot k = s.slot k :=
  mget_mset_other_of_rising _ _ hk h

/-- A command that has met no access that must wait leaves what it has done. -/
theorem waits_of_served (h : t.stalled = false) : s.waits (.next t) = .next t := by
  show (.next (s.orWait t) : Outcome) = .next t
  rw [orWait_of_served s t h]

/-! ### The timer of a waiter -/

/-- A release that is traced changes no more than is seen of it. -/
theorem traceRelease_unseen (t : State) (key gen status : Nat) : (t.traceRelease key gen status).unseen = t.unseen := by
  unfold State.traceRelease
  dsimp only
  split
  · rfl
  · exact traceEvent_unseen ..

/-- The work of a packet that waits is done. -/
theorem packetDone_staged_of_waiting {p : Pkt} (h : s.pkt ctx pid = some p) (hstage : p.stage = .waiting) (st d : Nat) :
    (s.packetDone ctx pid st d).Staged ctx pid (.workDone st d) := by
  obtain ⟨hmem, hpid⟩ := mem_of_pkt h
  refine ⟨{ p with stage := .workDone st d }, ?_, hpid, rfl⟩
  have hdone := mem_modPkt (f := fun p => match p.stage with
    | .completed => p
    | .workDone _ _ => p
    | _ => { p with stage := .workDone st d }) hmem hpid
  simp only [hstage] at hdone
  exact hdone

/-- A packet that is told of a release leaves slots and clock alone. -/
theorem notify_packet_slots (t : State) (ctx pid status gen : Nat) :
    (t.notify (.packet ctx pid) status gen).slots = t.slots ∧ (t.notify (.packet ctx pid) status gen).now = t.now := by
  unfold State.notify
  dsimp only
  split
  · split <;> exact ⟨rfl, rfl⟩
  · exact ⟨rfl, rfl⟩

/-- The slot whose n-th waiter's timer has expired. -/
def Slot.timedOut (y : Slot) (n : Nat) : Slot := { y with waiters := y.waiters.eraseIdx n }

/-- The state in which a waiter's timer has expired. -/
def State.timesOut (s : State) (key n : Nat) (w : Waiter) : State :=
  (s.until (w.since + 1000 * (s.slot key).timeoutUs)).setSlot key ((s.slot key).timedOut n)

/-- The timer of a waiter that is a packet releases it alone with TIMEOUT (R279). -/
theorem timeout_packet {n : Nat} {w : Waiter} {p : Pkt} (hs : s.Sound) (hw : (s.slot key).waiters[n]? = some w) (htime : (s.slot key).timeoutUs ≠ 0)
    (hparty : w.party = .packet ctx pid) (hp : s.pkt ctx pid = some p) (hstage : p.stage = .waiting) :
    ∃ t, exec (.timeout key n) s = .next t ∧ w.since + 1000 * (s.slot key).timeoutUs ≤ t.now ∧
      t.slot key = (s.slot key).timedOut n ∧ (∀ k, k ≠ key → t.slot k = s.slot k) ∧
      ((s.ctx ctx).state ≠ .preempted → t.Staged ctx pid (.workDone 3 (field p.data 16 2))) ∧
      ((s.ctx ctx).state = .preempted → t.ctx ctx = { s.ctx ctx with heldPkts := (s.ctx ctx).heldPkts ++ [(pid, 3, field p.data 16 2)] }) := by
  have htables := hs.tables
  have hexec : exec (.timeout key n) s =
      .next (((s.timesOut key n w).notify w.party 3 (s.slot key).generation).traceRelease key (s.slot key).generation 3) := by
    show execTimeout key n s = _
    unfold execTimeout
    simp only [hw, htime, if_false]
    rfl
  rw [hparty] at hexec
  have hpkt : (s.timesOut key n w).pkt ctx pid = some p := hp
  have hctx : (s.timesOut key n w).ctx ctx = s.ctx ctx := rfl
  generalize hv : (s.timesOut key n w).notify (.packet ctx pid) 3 (s.slot key).generation = v at hexec
  have hunseen := traceRelease_unseen v key (s.slot key).generation 3
  have hnow := ((State.Onward.refl (deep := 4) false v).traceRelease (key := key) (gen := (s.slot key).generation) (status := 3)).now
  generalize v.traceRelease key (s.slot key).generation 3 = t at hexec hunseen hnow
  obtain ⟨hvslots, hvnow⟩ := notify_packet_slots (s.timesOut key n w) ctx pid 3 (s.slot key).generation
  rw [hv] at hvslots hvnow
  have hslots : t.slots = (s.timesOut key n w).slots := (congrArg State.slots hunseen :).trans hvslots
  have hctxs : t.ctxs = v.ctxs := (congrArg State.ctxs hunseen :)
  refine ⟨t, hexec, ?_, ?_, fun k hk => ?_, fun hrun => ?_, fun hpre => ?_⟩
  · rw [hvnow] at hnow
    exact Nat.le_trans (Nat.le_max_right _ _) hnow
  · rw [slot_of_slots hslots]
    exact slot_setSlot_of_rising htables.slots _
  · rw [slot_of_slots hslots]
    exact slot_setSlot_ne_of_rising htables.slots _ hk
  · have hdone : v = (s.timesOut key n w).packetDone ctx pid 3 (field p.data 16 2) := by
      rw [← hv]
      simp only [State.notify, hpkt, hctx, hrun, if_false]
      rfl
    have hstaged := packetDone_staged_of_waiting hpkt hstage 3 (field p.data 16 2)
    rw [← hdone] at hstaged
    unfold State.Staged State.ctx at hstaged ⊢
    rwa [hctxs]
  · have hheld : v = (s.timesOut key n w).modCtx ctx (fun c => { c with heldPkts := c.heldPkts ++ [(pid, 3, field p.data 16 2)] }) := by
      rw [← hv]
      simp only [State.notify, hpkt, hctx, hpre, if_true]
      rfl
    rw [State.ctx, hctxs, hheld]
    exact mget_mset_same_of_rising _ _ _ htables.ctxs

/-! ### A landing that moves -/

/-- The map entry that names the new slot where it named the old one. -/
def LEntry.moved (e : LEntry) (m : SlotMove) : LEntry := if e.kind ≠ 0 ∧ e.kind ≠ 5 ∧ e.key = m.src then e.toKey m.dst else e

theorem moved_eq (e : LEntry) (m : SlotMove) :
    (if decide (e.kind ≠ 0) && decide (e.kind ≠ 5) && decide (e.key = m.src) then e.toKey m.dst else e) = e.moved m := by
  simp only [LEntry.moved, Bool.and_eq_true, decide_eq_true_eq, and_assoc]

theorem mget_mmapVals_default {α : Type} {d : α} {f : Nat → α → α} (hd : ∀ k, f k d = d) (m : Map α) (k : Nat) :
    mget d (mmapVals m f) k = f k (mget d m k) := by
  induction m with
  | nil => exact (hd k).symm
  | cons e m ih =>
    obtain ⟨j, w⟩ := e
    simp only [mmapVals, List.map_cons, mget] at ih ⊢
    split
    next hj => rw [hj]
    · split
      · exact (hd k).symm
      · exact ih

/-- A context whose map follows a landing that has moved. -/
def Ctx.lmapMoved (c : Ctx) (m : SlotMove) : Ctx := { c with lmap := mmapVals c.lmap (fun _ e => e.moved m) }

/-- The state in which a landing has moved. -/
def State.slotMoved (s : State) (m : SlotMove) (rest : List SlotMove) : State :=
  { s with
    moves := rest
    slots := mset {} (mset {} s.slots m.dst (s.slot m.src)) m.src {}
    mirrorQ := s.mirrorQ.map (fun a => if a.slot = m.src then { a with slot := m.dst } else a)
    ctxs := mmapVals s.ctxs (fun _ c => c.lmapMoved m) }

theorem landingMove_eq {m : SlotMove} {rest : List SlotMove} (hmoves : s.moves = m :: rest) (hne : m.src ≠ m.dst) :
    exec .landingMove s = .next (s.slotMoved m rest) := by
  show execLandingMove s = _
  unfold execLandingMove
  simp only [hmoves, hne, if_false, moved_eq, State.setSlot, State.slotMoved, State.slot, Ctx.lmapMoved]

theorem slotMoved_slot (s : State) (m : SlotMove) (rest : List SlotMove) (k : Nat) :
    (s.slotMoved m rest).slot k = mget {} (mset {} (mset {} s.slots m.dst (s.slot m.src)) m.src {}) k := rfl

theorem slotMoved_lmap (s : State) (m : SlotMove) (rest : List SlotMove) (c lid : Nat) :
    mget {} ((s.slotMoved m rest).ctx c).lmap lid = (mget {} (s.ctx c).lmap lid).moved m := by
  have hctx : (s.slotMoved m rest).ctx c = (s.ctx c).lmapMoved m := mget_mmapVals_default (d := ({} : Ctx)) (f := fun _ c => c.lmapMoved m) (fun _ => rfl) s.ctxs c
  rw [hctx]
  exact mget_mmapVals_default (d := ({} : LEntry)) (f := fun _ e => e.moved m) (fun _ => rfl) (s.ctx c).lmap lid

/-- A landing moves to its new slot, and every map with it (R276). -/
theorem landingMove_moves {m : SlotMove} {rest : List SlotMove} (hs : s.Sound) (hmoves : s.moves = m :: rest) (hne : m.src ≠ m.dst) :
    ∃ t, exec .landingMove s = .next t ∧ t.moves = rest ∧ t.slot m.dst = s.slot m.src ∧ t.slot m.src = {} ∧
      (∀ k, k ≠ m.src → k ≠ m.dst → t.slot k = s.slot k) ∧
      ∀ c lid, mget {} (t.ctx c).lmap lid = (mget {} (s.ctx c).lmap lid).moved m := by
  have hslots := hs.tables.slots
  have hset : rising (mset {} s.slots m.dst (s.slot m.src)) := rising_mset _ _ _ hslots
  refine ⟨_, landingMove_eq hmoves hne, rfl, ?_, ?_, fun k hsrc hdst => ?_, slotMoved_lmap s m rest⟩
  · rw [slotMoved_slot, mget_mset_other_of_rising _ _ (Ne.symm hne) hset, mget_mset_same_of_rising _ _ _ hslots]
  · rw [slotMoved_slot, mget_mset_same_of_rising _ _ _ hset]
  · rw [slotMoved_slot, mget_mset_other_of_rising _ _ hsrc hset, mget_mset_other_of_rising _ _ hdst hslots]
    rfl

/-! ### A host core's access to a landing page -/

/-- A host core whose access has not failed. -/
def HostCore.reached (k : HostCore) : HostCore := { k with pageFault := false }

/-- A running host core reaches the page of a context of its partition. -/
theorem ldgArrive_eq {h : Nat} (hpart : s.partOfGallery (h / 2) = some (s.ctx ctx).part) (hctx : ctx < 64) (hstate : (s.ctx ctx).state ≠ .free)
    (hrun : s.hostRuns h = true) (a : PageAccess) : exec (.ldgArrive h ctx a) s = s.waits (
      if a.size ≠ 8 ∨ a.off % 8 ≠ 0 then .next (s.modHostCore h (fun k => { k with pageFault := true }))
      else if a.store then .next (if a.off = 0 then (s.modHostCore h HostCore.reached).hostArrive ctx (bits a.data 0 10) (bits a.data 16 16)
        else s.modHostCore h HostCore.reached)
      else .next ((s.modHostCore h HostCore.reached).modHostCore h (fun k => { k with pageData := (s.modHostCore h HostCore.reached).pageRead ctx a.off }))) := by
  have hmapped : s.pageMapped (s.ctx ctx).part ctx = true := by simp [State.pageMapped, hctx, hstate]
  show execLdgArrive h ctx a s = _
  unfold execLdgArrive
  simp only [hrun, hpart, hmapped, Bool.true_eq_false, or_self, if_false]
  rfl

/-- A running host core is listed: what is written to it twice is the last. -/
theorem modHostCore_modHostCore {h : Nat} (hs : s.Sound) (hrun : s.hostRuns h = true) (f g : HostCore → HostCore)
    (hf : ∀ k, (f k).run = k.run) (hg : ∀ k, (g k).run = k.run) :
    (s.modHostCore h f).modHostCore h g = s.modHostCore h (fun k => g (f k)) := by
  have hone : (mget {} s.hostCores h).run = 1 := of_decide_eq_true hrun
  have hne : ∀ k : HostCore, k.run = 1 → k ≠ {} := fun k hk he => by simp [he] at hk
  have hfk : (f (mget {} s.hostCores h)).run = 1 := (hf _).trans hone
  have hgk : (g (f (mget {} s.hostCores h))).run = 1 := (hg _).trans hfk
  have hget : mget {} (mset {} s.hostCores h (f (mget {} s.hostCores h))) h = f (mget {} s.hostCores h) :=
    mget_mset_same_of_rising _ _ _ hs.tables.hostCores
  unfold State.modHostCore
  dsimp only
  rw [hget]
  simp only [mset, if_neg (hne _ hfk), if_neg (hne _ hgk), minsert_minsert_same]

/-- Settles O31: each command does to its slot, its move, its mirror or its page what it is for, and no more. -/
theorem landingCommands : Obligations.LandingCommands := by
  unfold Obligations.LandingCommands
  intro s hs
  have hslots := hs.tables.slots
  refine ⟨?_, ?_, ?_, ?_, ?_⟩
  case refine_1 =>
    intro key y hstate hseen hloss
    have hall : y.unseen.all s.observed = true := List.all_eq_true.mpr hseen
    refine ⟨s.setSlot key {}, ?_, slot_setSlot_of_rising hslots _, fun k hk => slot_setSlot_ne_of_rising hslots _ hk, rfl, rfl⟩
    exact if_pos ⟨hstate, hall, hloss⟩
  case refine_2 =>
    intro key n ctx pid w p y hw htime hparty hp hstage
    exact timeout_packet hs hw htime hparty hp hstage
  case refine_3 =>
    intro m rest hmoves hne
    exact landingMove_moves hs hmoves hne
  case refine_4 =>
    intro a rest assoc master hq hmirror hafter
    have hopen : a.after.any (fun n => s.kftOpen.any (fun e => decide (e.2 = n))) = false := by
      simp only [List.any_eq_false, List.any_eq_true, decide_eq_true_eq, not_exists, not_and]
      exact hafter
    show execMirrorForward a.slot s = _
    unfold execMirrorForward
    simp only [hq, hmirror, List.find?_cons, decide_true, hopen, Bool.false_eq_true, if_false, List.findIdx_cons, cond_true, List.eraseIdx_cons_zero]
  case refine_5 =>
    intro h ctx hpart hctx hstate hrun
    refine ⟨?_, fun i hi => ?_, fun p hp => ?_⟩
    · intro data key y n hland harmed hkind hpos hroom
      have hreach : (s.modHostCore h HostCore.reached).landing ctx (bits data 0 10) .fromIo = .slot key := by
        rw [show bits data 0 10 = data % 1024 by simp [bits]]
        exact hland
      have hcount : bits data 16 16 = n := rfl
      have harrive := arrive_full (s := s.modHostCore h HostCore.reached) (ctx := ctx) (n := n) (harmed.of_eq rfl rfl) hkind (Nat.ne_of_gt hpos) hroom
      have hdone : (s.modHostCore h HostCore.reached).hostArrive ctx (bits data 0 10) (bits data 16 16) =
          (s.modHostCore h HostCore.reached).setSlot key { y with remain := y.remain - n } := by
        unfold State.hostArrive
        rw [hreach, hcount]
        simp only [if_neg (Nat.ne_of_gt hpos), harrive]
        rfl
      rw [ldgArrive_eq hpart hctx hstate hrun, if_neg (fun hodd => hodd.elim (fun hsize => hsize rfl) (fun hoff => hoff rfl)), if_pos rfl, if_pos rfl, hdone]
      exact waits_of_served hs.served
    · have haligned : ¬ ((8 : Nat) ≠ 8 ∨ (0x2000 + 8 * i) % 8 ≠ 0) := by omega
      have htwice := modHostCore_modHostCore hs hrun HostCore.reached (fun k => { k with pageData := s.ldgStateReg ctx i }) (fun _ => rfl) (fun _ => rfl)
      have hread : (s.modHostCore h HostCore.reached).pageRead ctx (0x2000 + 8 * i) = s.ldgStateReg ctx i := by
        unfold State.pageRead
        rw [if_pos (by omega), show (0x2000 + 8 * i - 0x2000) / 8 = i by omega]
        rfl
      rw [ldgArrive_eq hpart hctx hstate hrun, if_neg haligned, if_neg Bool.false_ne_true, hread, htwice]
      exact waits_of_served hs.served
    · rw [ldgArrive_eq hpart hctx hstate hrun, if_pos hp]
      exact waits_of_served hs.served

end Sys2Proof.Machine
end

section
/-! A line of a shared segment that is marked while a cache of a partition holds it modified (R299): the same meeting of partition and resource
numbers as at the homes keeps the mark from being made. -/

namespace Sys2Proof.Machine

open Sys2Proof

/-- The key of the segment's first line at its home, for partition 16. -/
def farKey : Nat := lineKey 16 (segAddr 0 0)

/-- A segment of one line, on stack 32, mapped into partition 16, whose line has been found in error while a host core holds it in M. -/
def farSegment : State :=
  { farHome [(farKey, { dir := .owned 160 })] [(farKey, { st := 3 })] [] with
    segs := [(0, { live := true, found := [(0, 0)], size := 128, layout := { lists := [[2048]] }, filled := true, mapped := [16] })] }

theorem farSegment_sound : farSegment.Sound := by
  simp [State.Sound, rising, farSegment, farHome, mwf]

/-- The line that the host core gives up waits at its stack, and the line is not marked. -/
theorem segmentRestore_farSegment {t : State} (h : exec (.segmentRestore 0 0) farSegment = .next t) : (t.seg 0).lines = [] := by
  have hrun : (match exec (.segmentRestore 0 0) farSegment with
      | .next t => (t.seg 0).lines
      | _ => [(0, .good)]) = [] := by decide +kernel
  rw [h] at hrun
  exact hrun

/-- Refutes O32: a segment line that a host core of partition 16 holds is not marked IN_REPAIR, since the partition's bucket at stack 32, where the
line lies, is empty and that resource has no rate. -/
theorem not_removalCommands : ¬ Obligations.RemovalCommands := by
  unfold Obligations.RemovalCommands
  intro h
  obtain ⟨-, -, -, -, hmark, -⟩ := h farSegment farSegment_sound
  have hflows : farSegment.Flows := farHome_flows [(farKey, { dir := .owned 160 })] [(farKey, { st := 3 })] []
  obtain ⟨t, ht, hlines, -⟩ := hmark 0 0 0 rfl (by decide) hflows
  rw [segmentRestore_farSegment ht] at hlines
  exact absurd hlines (by decide)

end Sys2Proof.Machine
end

section
/-! How an interrupt is delivered and a pin driven (R341 to R346, R348), and what both leave unchanged. -/

namespace Sys2Proof.Machine

open Sys2Proof

/-- A function without what the delivery of its interrupt keeps (R345, R346). -/
def Func.offDelivery (f : Func) : Func :=
  { f with armed := false, events := 0, winStart := none, msixPending := false, held := false, asserted := false }

/-- A state without its functions, what has left the module, and its two attention pins. -/
def State.offFuncs (s : State) : State := { s with funcs := [], out := [], attnLow := false, wakeLow := false }

/-- From s to t interrupts have been delivered and pins driven, and nothing else has happened. -/
structure State.Rings (s t : State) : Prop where
  off : t.offFuncs = s.offFuncs
  funcs : rising t.funcs
  func : ∀ k, (t.func k).offDelivery = (s.func k).offDelivery

theorem State.Rings.refl {s : State} (h : rising s.funcs) : s.Rings s := ⟨rfl, h, fun _ => rfl⟩

theorem State.Rings.trans {s t u : State} (h : s.Rings t) (h' : t.Rings u) : s.Rings u :=
  ⟨h'.off.trans h.off, h'.funcs, fun k => (h'.func k).trans (h.func k)⟩

theorem State.Rings.emit {s t : State} (h : s.Rings t) (e : OutEvent) : s.Rings (t.emit e) := ⟨h.off, h.funcs, h.func⟩

theorem State.Rings.setFunc {s t : State} (h : s.Rings t) {n : Nat} {x : Func} (hx : x.offDelivery = (t.func n).offDelivery) :
    s.Rings (t.setFunc n x) := by
  refine ⟨h.off, setFunc_keeps_rising n x h.funcs, fun k => ?_⟩
  by_cases hk : k = n
  · rw [hk, func_setFunc_same_of_rising n x h.funcs, hx, h.func]
  · rw [func_setFunc_other_of_rising x hk h.funcs, h.func]

theorem State.Rings.deliver {s t : State} (h : s.Rings t) (fn : Nat) : s.Rings (t.deliver fn) := by
  unfold State.deliver
  extract_lets _ u f bound v
  have hu : s.Rings u := by
    unfold u
    split
    · refine State.Rings.emit ?_ _
      exact h.setFunc rfl
    · exact h
  split
  · split
    · exact hu.setFunc rfl
    split
    · exact hu
    split
    · exact hu.setFunc rfl
    split
    · exact hu.setFunc rfl
    · refine State.Rings.emit ?_ _
      exact hu.setFunc rfl
  · split
    · exact hu
    have hfn : fn = 0 := by simpa using ‹¬fn ≠ 0›
    have hf : f.offDelivery = (u.func 0).offDelivery := congrArg (fun k => (u.func k).offDelivery) hfn
    have hv : s.Rings v := hu.setFunc hf
    split
    · split
      · exact hv.emit _
      · exact hv
    split
    · exact hu
    · refine State.Rings.emit ?_ _
      exact hu.setFunc hf

theorem State.Rings.driveAttn {s t : State} (h : s.Rings t) : s.Rings t.driveAttn := by
  unfold State.driveAttn
  extract_lets f low u wake
  have hu : s.Rings u := by
    unfold u
    split
    · exact h
    · exact ⟨h.off, h.funcs, h.func⟩
  split
  · exact hu
  · exact ⟨hu.off, hu.funcs, hu.func⟩

theorem State.Rings.deliverAll {s t : State} (h : s.Rings t) : s.Rings t.deliverAll := by
  unfold State.deliverAll
  generalize List.range 9 = fns
  induction fns generalizing t with
  | nil => exact h
  | cons fn fns ih => exact ih (h.deliver fn)

/-- What does not lie in the functions or at the pins is as it was. -/
theorem State.Rings.keeps {α : Type} {s t : State} (h : s.Rings t) (f : State → α) (hf : ∀ u : State, f u.offFuncs = f u) : f t = f s := by
  rw [← hf t, ← hf s, h.off]

variable {s t : State}

theorem now_of_offFuncs (h : t.offFuncs = s.offFuncs) : t.now = s.now := (congrArg State.now h :)
theorem hostReads_of_offFuncs (h : t.offFuncs = s.offFuncs) : t.hostReads = s.hostReads := (congrArg State.hostReads h :)

theorem State.Rings.link (h : s.Rings t) :
    t.linkUp = s.linkUp ∧ t.linkRate = s.linkRate ∧ t.linkWidth = s.linkWidth ∧ t.linkFlit = s.linkFlit :=
  ⟨(congrArg State.linkUp h.off :), (congrArg State.linkRate h.off :), (congrArg State.linkWidth h.off :), (congrArg State.linkFlit h.off :)⟩

theorem State.Rings.numVfs (h : s.Rings t) : t.numVfs = s.numVfs := (congrArg State.numVfs h.off :)
theorem State.Rings.ctxs (h : s.Rings t) : t.ctxs = s.ctxs := (congrArg State.ctxs h.off :)
theorem State.Rings.parts (h : s.Rings t) : t.parts = s.parts := (congrArg State.parts h.off :)
theorem State.Rings.cores (h : s.Rings t) : t.cores = s.cores := (congrArg State.cores h.off :)
theorem State.Rings.now (h : s.Rings t) : t.now = s.now := (congrArg State.now h.off :)

theorem State.Rings.summary (h : s.Rings t) (k : Nat) : (t.func k).summary = (s.func k).summary := (congrArg Func.summary (h.func k) :)
theorem State.Rings.enableMask (h : s.Rings t) (k : Nat) : (t.func k).enableMask = (s.func k).enableMask :=
  (congrArg Func.enableMask (h.func k) :)
theorem State.Rings.hostErrors (h : s.Rings t) (k : Nat) : (t.func k).hostErrors = (s.func k).hostErrors :=
  (congrArg Func.hostErrors (h.func k) :)

/-- The function's record as its message leaves it (R345). -/
def Func.sent (f : Func) : Func := { f with armed := false, events := 0, winStart := none, msixPending := false, held := false }

/-- A message that is due and that nothing holds back is sent (R345). -/
theorem deliver_sends {fn : Nat} (hon : (s.func fn).msixEnabled = true) (hline : (s.func fn).asserted = false)
    (hpend : (s.func fn).summary &&& (s.func fn).enableMask ≠ 0)
    (hdue : ((s.func fn).armed && ((s.func fn).countMet || (s.func fn).timeMet s.now)) = true ∨ (s.func fn).held = true ∨ (s.func fn).msixPending = true)
    (hmask : (s.func fn).msixMasked = false) (hopen : s.hostOpen fn = true) :
    s.deliver fn = (s.setFunc fn (s.func fn).sent).emit (.msix fn) := by
  have hnot : (!((s.func fn).armed && ((s.func fn).countMet || (s.func fn).timeMet s.now)) && !(s.func fn).held && !(s.func fn).msixPending) = false := by
    rcases hdue with h | h | h <;> simp [h]
  have hnow : (s.func fn).pendingNow = true := by simpa [Func.pendingNow] using hpend
  simp only [State.deliver, hline, Bool.and_false, hon, hnow, hnot, hmask, hopen, if_true, Bool.not_true, Bool.false_eq_true, if_false, Func.sent]

/-- The function's record with no message kept back (R345). -/
def Func.silent (f : Func) : Func := { f with msixPending := false, held := false }

/-- A function with a message that is not due, and that nothing is pending of, sends none (R345). -/
theorem deliver_of_idle {fn : Nat} (hon : (s.func fn).msixEnabled = true) (hline : (s.func fn).asserted = false)
    (hpend : (s.func fn).summary &&& (s.func fn).enableMask = 0) :
    s.deliver fn = s.setFunc fn (s.func fn).silent := by
  have hnow : (s.func fn).pendingNow = false := by simpa [Func.pendingNow] using hpend
  simp only [State.deliver, hline, Bool.and_false, hon, hnow, if_true, Bool.not_false, Bool.false_eq_true, if_false, Func.silent]

/-! ### Accesses of registers by their offset (Table 13-2) -/

theorem blockAt_att {o : Nat} (ho : o < 0x1000) : blockAt (0x8000 + o) = (.att, o) := by
  unfold blockAt
  iterate 2 rw [if_neg (by omega)]
  rw [if_pos (by omega), Nat.add_sub_cancel_left]

/-- An access that is served, as a register's command makes it (R12). -/
theorem regRow_of_writes {a : HostAccess} {off : Nat} (h : s.Writes a off) {due : Bool} (hdue : due = true) :
    s.regRow a due = .next ((s.writeReg a.fn off (2 ^ 64 - 1) (a.data % 2 ^ 64)).getD (s.badAccess a true)) := by
  obtain ⟨hfn, hserved, hsize, hoff, haligned, -⟩ := h
  have hal : accAligned a = true := accAligned_of_off_mod (.inl ⟨hsize, by rw [hoff]; exact haligned⟩)
  have hat : a.off / 8 * 8 = off := by omega
  rw [State.regRow, if_pos (by simp [hfn, hserved, hal, hdue]), State.regWrite, State.tryWrite, if_pos ⟨hfn, hal⟩, hat, accMask, accValue, if_pos hsize,
    if_pos hsize]
  cases s.writeReg a.fn off (2 ^ 64 - 1) (a.data % 2 ^ 64) <;> rfl

theorem writes_at {a : HostAccess} {off : Nat} (h : s.Writes a off) : a.off / 8 * 8 = off := by
  obtain ⟨-, -, -, hoff, haligned, -⟩ := h
  omega

theorem writes_value {a : HostAccess} {off : Nat} (h : s.Writes a off) : accValue a = a.data % 2 ^ 64 := by
  obtain ⟨-, -, hsize, -⟩ := h
  rw [accValue, if_pos hsize]

theorem writes_mask {a : HostAccess} {off : Nat} (h : s.Writes a off) : accMask a = 2 ^ 64 - 1 := by
  obtain ⟨-, -, hsize, -⟩ := h
  rw [accMask, if_pos hsize]

theorem accHits_att {a : HostAccess} {o : Nat} (h : s.Writes a (0x8000 + o)) (ho : o < 0x1000) : accHits a isAtt o = true := by
  simp [accHits, writes_at h, blockAt_att ho, isAtt]

end Sys2Proof.Machine
end

section
/-! The attention summary, interrupts, moderation and pins (R336 to R346, R434 to R436): the obligation `InterruptCommands`. -/

namespace Sys2Proof.Machine

open Sys2Proof

variable {s t u : State} {fn : Nat}

/-- Everything that a message waits for is there: it is due or was kept back, and nothing keeps it back now (R345). -/
structure State.MessageLeaves (u : State) (fn : Nat) : Prop where
  on : (u.func fn).msixEnabled = true
  line : (u.func fn).asserted = false
  pending : (u.func fn).summary &&& (u.func fn).enableMask ≠ 0
  due : ((u.func fn).armed && ((u.func fn).countMet || (u.func fn).timeMet u.now)) = true ∨ (u.func fn).held = true ∨ (u.func fn).msixPending = true
  unmasked : (u.func fn).msixMasked = false
  isOpen : u.hostOpen fn = true

theorem sends_of_leaves (h : u.MessageLeaves fn) (hrise : rising u.funcs) (hout : u.out = s.out) (hctxs : u.ctxs = s.ctxs)
    (hcores : u.cores = s.cores) (hsum : (u.func fn).summary = (s.func fn).summary) :
    ∃ t, (.next (u.deliver fn) : Outcome) = .next t ∧ t.out = .msix fn :: s.out ∧ (t.func fn).armed = false ∧ (t.func fn).events = 0 ∧
      (t.func fn).msixPending = false ∧ (t.func fn).held = false ∧ (t.func fn).summary = (s.func fn).summary ∧ t.ctxs = s.ctxs ∧ t.cores = s.cores := by
  refine ⟨_, rfl, ?_⟩
  rw [deliver_sends h.on h.line h.pending h.due h.unmasked h.isOpen]
  have hfn : ((u.setFunc fn (u.func fn).sent).emit (.msix fn)).func fn = (u.func fn).sent := func_setFunc_same_of_rising fn _ hrise
  rw [hfn]
  exact ⟨congrArg (OutEvent.msix fn :: ·) hout, rfl, rfl, rfl, rfl, hsum, hctxs, hcores⟩

/-! ### Writes of the ATT block -/

theorem exec_attSummaryWrite {a : HostAccess} (h : s.Writes a 0x8000) :
    exec (.attSummaryWrite a) s = .next (((s.setFunc a.fn { s.func a.fn with
      summary := clearBits (s.func a.fn).summary (a.data % 2 ^ 64) }).deliver a.fn).driveAttn) := by
  change s.regRow a _ = _
  rw [regRow_of_writes h (accHits_att (o := 0) h (by decide))]
  rfl

theorem exec_attRearm {a : HostAccess} (h : s.Writes a 0x8018) (hbit : a.data % 2 = 1) :
    exec (.attRearm a) s = .next (s.rearm a.fn) := by
  have hset : bit (a.data % 2 ^ 64) 0 = true := by
    simp only [bit, Nat.pow_zero, Nat.div_one, decide_eq_true_eq]
    omega
  change s.regRow a _ = _
  rw [regRow_of_writes h (by rw [accHits_att (o := 0x18) h (by decide), writes_value h, hset]; rfl)]
  have hw : s.writeReg a.fn 0x8018 (2 ^ 64 - 1) (a.data % 2 ^ 64) = some (if bit (a.data % 2 ^ 64) 0 then s.rearm a.fn else s) := rfl
  rw [hw, if_pos hset]
  rfl

/-- The function as a write of `ATT_REARM` finds it ready for its next message (R345). -/
def Func.rearmed (f : Func) (now : Nat) : Func :=
  { f with armed := true, events := if f.pendingNow && decide (f.events = 0) then 1 else f.events, winStart := some now }

theorem rearm_of_msix (hon : (s.func fn).msixEnabled = true) :
    s.rearm fn = (s.sample.1.setFunc fn ((s.func fn).rearmed s.sample.2)).deliver fn := by
  have hon' : (s.sample.1.func fn).msixEnabled = true := hon
  simp only [State.rearm]
  rw [if_pos hon']
  rfl

theorem rearm_leaves (h : rising s.funcs) (hon : (s.func fn).msixEnabled = true) (hline : (s.func fn).asserted = false)
    (hpend : (s.func fn).summary &&& (s.func fn).enableMask ≠ 0) (hmask : (s.func fn).msixMasked = false) (hopen : s.hostOpen fn = true)
    (htime : (s.func fn).modTime = 0) (hcount : (s.func fn).modCount ≤ 1) :
    (s.sample.1.setFunc fn ((s.func fn).rearmed s.sample.2)).MessageLeaves fn := by
  have hfn : (s.sample.1.setFunc fn ((s.func fn).rearmed s.sample.2)).func fn = (s.func fn).rearmed s.sample.2 :=
    func_setFunc_same_of_rising (s := s.sample.1) fn _ h
  have hnow : (s.func fn).pendingNow = true := by simpa [Func.pendingNow] using hpend
  have hmet : ((s.func fn).rearmed s.sample.2).countMet = true := by
    simp only [Func.countMet, Func.rearmed, htime, hnow, Bool.true_and, decide_eq_true_eq, decide_true, Bool.and_true, Bool.and_eq_true]
    by_cases hz : (s.func fn).modCount = 0
    · simp only [hz, if_true]
      split <;> omega
    · simp only [hz, if_false]
      split <;> omega
  refine ⟨?_, ?_, ?_, .inl ?_, ?_, ?_⟩
  · rw [hfn]; exact hon
  · rw [hfn]; exact hline
  · rw [hfn]; exact hpend
  · rw [hfn, hmet]; rfl
  · rw [hfn]; exact hmask
  · rw [State.hostOpen, hfn]; exact hopen

/-! ### Reads that fail (R336) -/

theorem raise_rings (h : rising s.funcs) (c : Cause) : (s.raise fn c).offFuncs = s.offFuncs ∧ rising (s.raise fn c).funcs :=
  let hr := ((State.Rings.refl (setFunc_keeps_rising fn _ h)).deliver fn).driveAttn
  ⟨hr.off, hr.funcs⟩

theorem hostError_offFuncs (h : rising s.funcs) (kind : Nat) (write : Bool) (ctx addr : Nat) :
    (s.hostError fn kind write ctx addr).offFuncs = s.offFuncs ∧ rising (s.hostError fn kind write ctx addr).funcs := by
  unfold State.hostError
  extract_lets f u
  have hu : u.offFuncs = s.offFuncs ∧ rising u.funcs := by
    unfold u
    split
    · exact ⟨rfl, setFunc_keeps_rising fn _ h⟩
    · exact ⟨rfl, h⟩
  obtain ⟨hoff, hrise⟩ := raise_rings (fn := fn) hu.2 (.host (kind - 1))
  exact ⟨hoff.trans hu.1, hrise⟩

/-- The reads of a list fail one after another. -/
def State.failEach (s : State) (gone : List HostRead) : State := gone.foldl (fun s h => s.hostError h.fn 3 false h.ctx h.addr) s

theorem failEach_offFuncs (h : rising s.funcs) (gone : List HostRead) :
    (s.failEach gone).offFuncs = s.offFuncs ∧ rising (s.failEach gone).funcs := by
  induction gone generalizing s with
  | nil => exact ⟨rfl, h⟩
  | cons x gone ih =>
    obtain ⟨hoff, hrise⟩ := hostError_offFuncs (fn := x.fn) h 3 false x.ctx x.addr
    obtain ⟨hoff', hrise'⟩ := ih hrise
    exact ⟨hoff'.trans hoff, hrise'⟩

theorem standing_of_hostErrors {f : Func} {v i : Nat} {e : Nat × Bool × Nat × Nat} (h : f.hostErrors = (setBit v i true, e)) :
    bit f.host i = true := by
  have hhost : f.host = setBit v i true := congrArg Prod.fst h
  rw [hhost, bit_setBit_same]

/-- Behind a `DMA_ERROR` that stands, the reads that fail leave the capture as it is. -/
theorem failEach_of_standing (h : rising s.funcs) (gone : List HostRead) (hfn : ∀ x ∈ gone, x.fn = fn) (hstands : bit (s.func fn).host 2 = true) :
    bit ((s.failEach gone).func fn).host 2 = true ∧ ((s.failEach gone).func fn).hostErrors.2 = (s.func fn).hostErrors.2 := by
  induction gone generalizing s with
  | nil => exact ⟨hstands, rfl⟩
  | cons x gone ih =>
    obtain rfl := hfn x (by simp)
    have hne : (s.func x.fn).host ≠ 0 := fun h0 => by simp [h0, bit] at hstands
    obtain ⟨-, -, herr⟩ := hostError_of_standing 3 false x.ctx x.addr h hne
    obtain ⟨-, hrise⟩ := hostError_offFuncs (fn := x.fn) h 3 false x.ctx x.addr
    obtain ⟨hbit, htail⟩ := ih hrise (fun y hy => hfn y (by simp [hy])) (standing_of_hostErrors herr)
    exact ⟨hbit, by rw [State.failEach, List.foldl_cons, ← State.failEach, htail, herr]; rfl⟩

theorem failEach_captures (h : rising s.funcs) {gone : List HostRead} {ctx addr : Nat} (hne : gone ≠ [])
    (his : ∀ x ∈ gone, x.fn = fn ∧ x.ctx = ctx ∧ x.addr = addr) :
    bit ((s.failEach gone).func fn).host 2 = true ∧
      ((s.func fn).host = 0 → ((s.failEach gone).func fn).hostErrors.2 = (3, false, ctx, addr)) := by
  obtain ⟨x, rest, rfl⟩ := List.exists_cons_of_ne_nil hne
  obtain ⟨rfl, rfl, rfl⟩ := his x (by simp)
  obtain ⟨-, hrise⟩ := hostError_offFuncs (fn := x.fn) h 3 false x.ctx x.addr
  have hrest : ∀ y ∈ rest, y.fn = x.fn := fun y hy => (his y (by simp [hy])).1
  by_cases h0 : (s.func x.fn).host = 0
  · obtain ⟨-, -, herr⟩ := hostError_of_clear 3 false x.ctx x.addr h h0
    obtain ⟨hbit, htail⟩ := failEach_of_standing hrise rest hrest (standing_of_hostErrors herr)
    exact ⟨hbit, fun _ => htail.trans (congrArg Prod.snd herr)⟩
  · obtain ⟨-, -, herr⟩ := hostError_of_standing 3 false x.ctx x.addr h h0
    obtain ⟨hbit, -⟩ := failEach_of_standing hrise rest hrest (standing_of_hostErrors herr)
    exact ⟨hbit, fun h => absurd h h0⟩

/-- The reads that a predicate names, marked as expired. -/
def State.expireReads (s : State) (p : HostRead → Bool) : State :=
  { s with hostReads := s.hostReads.map (fun h => if p h then { h with expired := true } else h) }

theorem failReads_eq (p : HostRead → Bool) :
    s.failReads p = (s.expireReads p).failEach (s.hostReads.filter (fun h => p h && !h.expired)) := rfl

theorem is_iff {h : HostRead} {ctx addr : Nat} : h.is fn ctx addr = true ↔ h.fn = fn ∧ h.ctx = ctx ∧ h.addr = addr := by
  simp [HostRead.is, and_assoc]

theorem completionTimeout_fails (h : rising s.funcs) {ctx addr : Nat} {x : HostRead}
    (hfind : s.hostReads.find? (fun x => x.is fn ctx addr && !x.expired) = some x) :
    ∃ t, exec (.completionTimeout fn ctx addr) s = .next t ∧ x.since + 1000 * (s.func fn).cplTimeoutUs ≤ t.now ∧ bit (t.func fn).host 2 = true ∧
      t.ctxs = s.ctxs ∧ (∀ x ∈ t.hostReads, x.is fn ctx addr = true → x.expired = true) ∧
      ((s.func fn).host = 0 → (t.func fn).errKind = 3 ∧ (t.func fn).errWrite = false ∧ (t.func fn).errCtx = ctx ∧ (t.func fn).errAddr = addr) := by
  let p : HostRead → Bool := fun x => x.is fn ctx addr
  let u := s.until (x.since + 1000 * (s.func fn).cplTimeoutUs)
  refine ⟨u.failReads p, ?_, ?_⟩
  · change execCompletionTimeout fn ctx addr s = _
    rw [execCompletionTimeout, hfind]
  have hmem : x ∈ u.hostReads.filter (fun h => p h && !h.expired) := by
    have hprop := List.find?_some hfind
    exact List.mem_filter.mpr ⟨List.mem_of_find?_eq_some hfind, hprop⟩
  have hrise : rising (u.expireReads p).funcs := h
  obtain ⟨hbit, hcap⟩ := failEach_captures (s := u.expireReads p) (fn := fn) (ctx := ctx) (addr := addr) hrise
    (gone := u.hostReads.filter (fun h => p h && !h.expired)) (List.ne_nil_of_mem hmem) (fun y hy => by
      have hy' := (List.mem_filter.mp hy).2
      rw [Bool.and_eq_true] at hy'
      exact is_iff.mp hy'.1)
  obtain ⟨hoff, -⟩ := failEach_offFuncs hrise (u.hostReads.filter (fun h => p h && !h.expired))
  rw [failReads_eq]
  refine ⟨?_, hbit, (congrArg State.ctxs hoff :), fun y hy his => ?_, fun h0 => ?_⟩
  · rw [now_of_offFuncs hoff]
    exact Nat.le_max_right _ _
  · rw [hostReads_of_offFuncs hoff] at hy
    obtain ⟨z, -, rfl⟩ := List.mem_map.mp hy
    by_cases hz : p z = true
    · rw [if_pos hz]
    · rw [if_neg hz] at his
      exact absurd his hz
  · have htuple := hcap h0
    simp only [Func.hostErrors, Prod.mk.injEq] at htuple
    exact htuple

/-! ### The link -/

/-- What training leaves of the link (R334). -/
theorem train_trains (s : State) :
    s.train.linkUp = true ∧ s.train.linkRate < 6 ∧ s.train.linkWidth ∈ [1, 2, 4, 8, 16] ∧ (s.train.linkRate = 5 → s.train.linkFlit = true) := by
  have hrate : (s.pick 6).2 < 6 := pick_lt s 6 (by decide)
  have hwidth : ((s.pick 6).1.pick 5).2 < 5 := pick_lt _ 5 (by decide)
  refine ⟨rfl, hrate, ?_, fun h => ?_⟩
  · change 2 ^ ((s.pick 6).1.pick 5).2 ∈ [1, 2, 4, 8, 16]
    interval_cases ((s.pick 6).1.pick 5).2 <;> decide
  · exact Bool.or_eq_true_iff.mpr (.inr (decide_eq_true h))

theorem train_keeps (s : State) : s.train.funcs = s.funcs ∧ s.train.ctxs = s.ctxs ∧ s.train.parts = s.parts := ⟨rfl, rfl, rfl⟩

/-! ### The clauses -/

theorem rearm_of_idle (h : rising s.funcs) (hon : (s.func fn).msixEnabled = true) (hline : (s.func fn).asserted = false)
    (hpend : (s.func fn).summary &&& (s.func fn).enableMask = 0) :
    ((s.rearm fn).func fn).armed = true ∧ ((s.rearm fn).func fn).events = (s.func fn).events ∧ (s.rearm fn).out = s.out ∧ (s.rearm fn).ctxs = s.ctxs := by
  let u := s.sample.1.setFunc fn ((s.func fn).rearmed s.sample.2)
  have hrise : rising u.funcs := setFunc_keeps_rising _ _ h
  have hfn : u.func fn = (s.func fn).rearmed s.sample.2 := func_setFunc_same_of_rising (s := s.sample.1) fn _ h
  have hidle : s.rearm fn = u.setFunc fn (u.func fn).silent := by
    rw [rearm_of_msix hon]
    exact deliver_of_idle (s := u) (by rw [hfn]; exact hon) (by rw [hfn]; exact hline) (by rw [hfn]; exact hpend)
  have hnow : (s.func fn).pendingNow = false := by simpa [Func.pendingNow] using hpend
  rw [hidle, func_setFunc_same_of_rising fn _ hrise, hfn]
  refine ⟨rfl, ?_, rfl, rfl⟩
  simp [Func.silent, Func.rearmed, hnow]

theorem exec_moderationTimer {w : Nat} (hw : (s.func fn).winStart = some w) (htime : (s.func fn).modTime ≠ 0) :
    exec (.moderationTimer fn) s = .next ((s.until (w + 1000 * (s.func fn).modTime)).deliver fn) := by
  change execModerationTimer fn s = _
  simp only [execModerationTimer, hw, if_neg htime]

theorem until_leaves {w : Nat} (hw : (s.func fn).winStart = some w) (htime : (s.func fn).modTime ≠ 0) (hon : (s.func fn).msixEnabled = true)
    (hline : (s.func fn).asserted = false) (hpend : (s.func fn).summary &&& (s.func fn).enableMask ≠ 0) (hmask : (s.func fn).msixMasked = false)
    (harmed : (s.func fn).armed = true) (hopen : s.hostOpen fn = true) : (s.until (w + 1000 * (s.func fn).modTime)).MessageLeaves fn := by
  have hmet : (s.func fn).timeMet (s.until (w + 1000 * (s.func fn).modTime)).now = true := by
    simp [Func.timeMet, hw, htime, State.until]
  refine ⟨hon, hline, hpend, .inl ?_, hmask, hopen⟩
  change ((s.func fn).armed && ((s.func fn).countMet || (s.func fn).timeMet (s.until (w + 1000 * (s.func fn).modTime)).now)) = true
  simp [hmet, harmed]

/-- The function's record behind the write that unmasks its vector. -/
def Func.unmasked (f : Func) (enable : Bool) : Func := { f with msixEnabled := enable, msixMasked := false }

theorem unmask_leaves (h : rising s.funcs) (hline : (s.func fn).asserted = false) (hpend : (s.func fn).summary &&& (s.func fn).enableMask ≠ 0)
    (hmsix : (s.func fn).msixPending = true) (hopen : s.hostOpen fn = true) :
    (s.setFunc fn ((s.func fn).unmasked true)).MessageLeaves fn := by
  have hfn := func_setFunc_same_of_rising (s := s) fn ((s.func fn).unmasked true) h
  refine ⟨?_, ?_, ?_, .inr (.inr ?_), ?_, ?_⟩
  · rw [hfn]; rfl
  · rw [hfn]; exact hline
  · rw [hfn]; exact hpend
  · rw [hfn]; exact hmsix
  · rw [hfn]; rfl
  · rw [State.hostOpen, hfn]; exact hopen

/-- The function's record with BME set. -/
def Func.mastering (f : Func) : Func := { f with bme := true }

theorem mastering_leaves (h : rising s.funcs) (hon : (s.func fn).msixEnabled = true) (hline : (s.func fn).asserted = false)
    (hpend : (s.func fn).summary &&& (s.func fn).enableMask ≠ 0) (hmask : (s.func fn).msixMasked = false) (hheld : (s.func fn).held = true)
    (hlink : s.linkUp = true) (hpresent : fn = 0 ∨ fn ≤ s.numVfs) :
    (s.setFunc fn (s.func fn).mastering).MessageLeaves fn := by
  have hfn := func_setFunc_same_of_rising (s := s) fn (s.func fn).mastering h
  refine ⟨?_, ?_, ?_, .inr (.inl ?_), ?_, ?_⟩
  · rw [hfn]; exact hon
  · rw [hfn]; exact hline
  · rw [hfn]; exact hpend
  · rw [hfn]; exact hheld
  · rw [hfn]; exact hmask
  · rw [State.hostOpen, hfn]
    change (true && s.linkUp && (decide (fn = 0) || decide (fn ≤ s.numVfs))) = true
    simpa [hlink] using hpresent

theorem driveAttn_wakeLow (h : s.perstN = true) : s.driveAttn.wakeLow = false := by
  unfold State.driveAttn
  extract_lets f low u wake
  have hu : u.perstN = true := by
    unfold u
    split <;> exact h
  have hwake : wake = false := by simp [wake, hu]
  split
  · exact ‹wake = u.wakeLow› ▸ hwake
  · exact hwake

theorem exec_perstNRelease (clock : Bool) :
    ∃ t, exec (.perstNRelease clock) s = .next t ∧ t.perstN = true ∧ t.sris = !clock ∧ t.wakeLow = false ∧ t.ctxs = s.ctxs ∧
      t.parts = s.parts ∧ t.cores = s.cores := by
  let u : State := { s with perstN := true, sris := !clock }
  refine ⟨u.driveAttn, rfl, ?_, ?_, driveAttn_wakeLow rfl, ?_, ?_, ?_⟩
  all_goals
    simp only [State.driveAttn, u]
    split <;> split <;> rfl

theorem dataLinkLayerDown_fails (h : rising s.funcs) :
    ∃ t, exec .dataLinkLayerDown s = .next t ∧ t.linkUp = false ∧ t.ctxs = s.ctxs ∧ t.parts = s.parts ∧ t.cores = s.cores ∧
      ∀ x ∈ t.hostReads, x.expired = true := by
  let u : State := { s with linkUp := false }
  have hrise : rising (u.expireReads (fun _ => true)).funcs := h
  obtain ⟨hoff, -⟩ := failEach_offFuncs hrise (u.hostReads.filter (fun h => true && !h.expired))
  refine ⟨u.failReads (fun _ => true), rfl, ?_⟩
  rw [failReads_eq]
  refine ⟨(congrArg State.linkUp hoff :), (congrArg State.ctxs hoff :), (congrArg State.parts hoff :), (congrArg State.cores hoff :), fun y hy => ?_⟩
  rw [hostReads_of_offFuncs hoff] at hy
  obtain ⟨z, -, rfl⟩ := List.mem_map.mp hy
  rfl

/-- Settles O34: each clause follows from what a delivery sends and keeps, and from what the failed reads of a function record. -/
theorem interruptCommands : Obligations.InterruptCommands := by
  unfold Obligations.InterruptCommands
  intro s fn hs
  have hrise : rising s.funcs := hs.tables.funcs
  intro f due sent
  refine ⟨?_, ?_, ?_, ?_, ?_, ?_, fun ctx addr x hfind => completionTimeout_fails hrise hfind, exec_perstNRelease, ?_,
    dataLinkLayerDown_fails hrise⟩
  · rintro a rfl hw
    have hr := ((State.Rings.refl (setFunc_keeps_rising a.fn { f with summary := clearBits f.summary (a.data % 2 ^ 64) } hrise)).deliver a.fn).driveAttn
    refine ⟨_, exec_attSummaryWrite hw, ?_, ?_, hr.ctxs⟩
    · rw [hr.summary, func_setFunc_same_of_rising _ _ hrise]
      rfl
    · rw [hr.enableMask, func_setFunc_same_of_rising _ _ hrise]
  · rintro a rfl hw hbit
    rw [exec_attRearm hw hbit]
    refine ⟨?_, fun hon hline hpend => ⟨_, rfl, rearm_of_idle hrise hon hline hpend⟩⟩
    rintro ⟨hon, hline, hpend⟩ hmask hopen htime hcount
    rw [rearm_of_msix hon]
    refine sends_of_leaves (rearm_leaves hrise hon hline hpend hmask hopen htime hcount) (setFunc_keeps_rising _ _ hrise) rfl rfl rfl ?_
    rw [func_setFunc_same_of_rising (s := s.sample.1) _ _ hrise]
    rfl
  · rintro w hw htime ⟨hon, hline, hpend⟩ hmask harmed hopen
    rw [exec_moderationTimer hw htime]
    refine ⟨sends_of_leaves (until_leaves hw htime hon hline hpend hmask harmed hopen) hrise rfl rfl rfl rfl, _, rfl, ?_⟩
    rw [((State.Rings.refl (s := s.until (w + 1000 * (s.func fn).modTime)) hrise).deliver fn).now]
    exact Nat.le_max_right _ _
  · intro hpend hline hmsix hopen
    refine sends_of_leaves (unmask_leaves hrise hline hpend hmsix hopen) (setFunc_keeps_rising _ _ hrise) rfl rfl rfl
      (show ((s.setFunc fn (f.unmasked true)).func fn).summary = f.summary by rw [func_setFunc_same_of_rising _ _ hrise]; rfl)
  · rintro ⟨hon, hline, hpend⟩ hmask hheld hlink hpresent
    refine sends_of_leaves (mastering_leaves hrise hon hline hpend hmask hheld hlink hpresent) (setFunc_keeps_rising _ _ hrise) rfl rfl rfl
      (show ((s.setFunc fn f.mastering).func fn).summary = f.summary by rw [func_setFunc_same_of_rising _ _ hrise]; rfl)
  · intro n hn hlink
    have hr := (State.Rings.refl (s := { s with numVfs := n }) hrise).deliverAll
    refine ⟨_, ?_, hr.numVfs, hr.ctxs, hr.parts⟩
    change execVfEnable n s = _
    rw [execVfEnable, if_neg (by simp [hlink, hn])]
  · intro hperst hsupply
    have hr := (State.Rings.refl (s := s.train) hrise).deliverAll
    obtain ⟨hup, hrate, hwidth, hflit⟩ := train_trains s
    obtain ⟨hlink, hrates, hwidths, hflits⟩ := hr.link
    refine ⟨s.train.deliverAll, ?_, hlink.trans hup, by rwa [hrates], by rwa [hwidths], by rwa [hrates, hflits], hr.ctxs, hr.parts⟩
    change execPcieLinkUp s = _
    rw [execPcieLinkUp, if_neg (by simp [hperst, hsupply])]

end Sys2Proof.Machine
end

section
/-! Writes of named registers by the function that owns them (R7 to R12, R337 to R340, R352, R353, R418 to R428): the obligation
`RegisterCommands`. -/

namespace Sys2Proof.Machine

open Sys2Proof

variable {s t : State} {a : HostAccess} {core q : Nat}

/-! ### Where a register lies, and what a write of all its bits leaves -/

theorem blockAt_host : blockAt 0x4000 = (.host, 0) := rfl
theorem blockAt_request : blockAt 0x10000 = (.mbx, 0x10000) := rfl
theorem blockAt_response : blockAt 0x11000 = (.mbx, 0x11000) := rfl

theorem blockAt_core {o : Nat} (hcore : core < 160) (ho : o < 0x10000) : blockAt (0x2800000 + 0x10000 * core + o) = (.core core, o) := by
  have hblock : (0x2800000 + 0x10000 * core + o - 0x2800000) / 0x10000 = core := by omega
  have hoff : (0x2800000 + 0x10000 * core + o) % 0x10000 = o := by omega
  unfold blockAt
  iterate 12 rw [if_neg (by omega)]
  rw [if_pos (by omega), hblock, hoff]

/-- A write that reaches all 64 bits leaves the value in them, whatever a register holds beyond. -/
theorem mergeBits_full (old v : Nat) : mergeBits old (2 ^ 64 - 1) v = 2 ^ 64 * (old / 2 ^ 64) + v := by
  rw [mergeBits, Nat.and_two_pow_sub_one_eq_mod]
  omega

theorem and_of_mergeBits (old : Nat) {v mask : Nat} (hv : v < 2 ^ 64) (hmask : mask < 2 ^ 64) :
    mergeBits old (2 ^ 64 - 1) v &&& mask = v &&& mask := by
  have hlow : ∀ x : Nat, x &&& mask = x % 2 ^ 64 &&& mask := fun x => by
    rw [← Nat.and_two_pow_sub_one_eq_mod, Nat.and_assoc, Nat.and_comm (2 ^ 64 - 1) mask, Nat.and_two_pow_sub_one_eq_mod, Nat.mod_eq_of_lt hmask]
  rw [hlow, mergeBits_full, Nat.mul_add_mod, Nat.mod_eq_of_lt hv]

theorem bits_of_mergeBits (old v : Nat) {lo len : Nat} (h : lo + len ≤ 64) : bits (mergeBits old (2 ^ 64 - 1) v) lo len = bits v lo len := by
  have hhigh : 2 ^ 64 * (old / 2 ^ 64) = 2 ^ lo * (2 ^ len * (2 ^ (64 - (lo + len)) * (old / 2 ^ 64))) := by
    rw [← Nat.mul_assoc, ← Nat.mul_assoc, ← Nat.pow_add, ← Nat.pow_add, Nat.add_sub_cancel' h]
  rw [mergeBits_full, bits, bits, hhigh, Nat.mul_add_div (Nat.two_pow_pos lo), Nat.mul_add_mod]

theorem bit_of_mergeBits (old v : Nat) {i : Nat} (h : i < 64) : bit (mergeBits old (2 ^ 64 - 1) v) i = bit v i := by
  have hbits := bits_of_mergeBits old v (lo := i) (len := 1) h
  simp only [bits, Nat.pow_one] at hbits
  simp only [bit, hbits]

theorem value_lt (a : HostAccess) : a.data % 2 ^ 64 < 2 ^ 64 := Nat.mod_lt _ (by decide)

/-- The function that writes is one that the module serves in full (R337). -/
theorem writes_live {off : Nat} (h : s.Writes a off) : s.deadVf a.fn = false := by
  obtain ⟨-, -, -, -, -, hlive⟩ := h
  exact deadVf_eq_false hlive

theorem exec_registerWrite {off : Nat} (h : s.Writes a off) :
    exec (.registerWrite a) s = .next ((s.writeReg a.fn off (2 ^ 64 - 1) (a.data % 2 ^ 64)).getD (s.badAccess a true)) := by
  rw [← regRow_of_writes h (due := true) rfl]
  obtain ⟨hfn, hserved, hsize, hoff, haligned, -⟩ := h
  have hal : accAligned a = true := accAligned_of_off_mod (.inl ⟨hsize, by rw [hoff]; exact haligned⟩)
  change execRegisterWrite a s = _
  rw [execRegisterWrite, if_neg (by simp [hfn, hserved]), State.regRow, if_pos (by simp [hfn, hserved, hal])]

/-! ### `HOST_APER`, `ATT_ENABLE`, and accesses that no register takes -/

theorem write_aperture (h : s.Writes a 0x4000) :
    exec (.registerWrite a) s = .next (s.setFunc a.fn { s.func a.fn with
      aperEnable := bit (a.data % 2 ^ 64) 0, aperBase := bits (a.data % 2 ^ 64) 30 18 }) := by
  have hw : s.writeReg a.fn 0x4000 (2 ^ 64 - 1) (a.data % 2 ^ 64) = s.writeHost a.fn 0 (2 ^ 64 - 1) (a.data % 2 ^ 64) := by
    simp [State.writeReg, blockAt_host, writes_live h]
  rw [exec_registerWrite h, hw, State.writeHost]
  simp only [bit_of_mergeBits _ _ (show 0 < 64 by decide), bits_of_mergeBits _ _ (show 30 + 18 ≤ 64 by decide)]
  rfl

theorem summaryMask_lt (fn : Nat) : summaryMask fn < 2 ^ 64 := by
  unfold summaryMask
  split <;> decide

theorem write_enableMask (hs : rising s.funcs) (h : s.Writes a 0x8008) :
    ∃ t, exec (.registerWrite a) s = .next t ∧ t.ctxs = s.ctxs ∧ (t.func a.fn).enableMask = a.data % 2 ^ 64 &&& summaryMask a.fn := by
  have hw : s.writeReg a.fn 0x8008 (2 ^ 64 - 1) (a.data % 2 ^ 64) = some (s.writeEnable a.fn (2 ^ 64 - 1) (a.data % 2 ^ 64)) := rfl
  refine ⟨_, by rw [exec_registerWrite h, hw, Option.getD_some], ?_⟩
  have hu : rising s.sample.1.funcs := hs
  have hr := fun x => (State.Rings.refl (setFunc_keeps_rising a.fn x hu)).deliver a.fn
  refine ⟨(hr _).ctxs, ((hr _).enableMask _).trans ?_⟩
  rw [func_setFunc_same_of_rising _ _ hu]
  exact and_of_mergeBits _ (value_lt a) (summaryMask_lt _)

theorem badAccess_records (hs : rising s.funcs) (write : Bool) :
    let t := s.badAccess a write
    bit (t.func a.fn).host 0 = true ∧ t.ctxs = s.ctxs ∧ t.cores = s.cores ∧
      ((s.func a.fn).host = 0 → (t.func a.fn).errKind = 1 ∧ (t.func a.fn).errWrite = write ∧ (t.func a.fn).errAddr = a.off) := by
  obtain ⟨hoff, -⟩ := hostError_offFuncs (fn := a.fn) hs 1 write 0 a.off
  refine ⟨?_, (congrArg State.ctxs hoff :), (congrArg State.cores hoff :), fun hzero => ?_⟩
  · by_cases hzero : (s.func a.fn).host = 0
    · exact standing_of_hostErrors (hostError_of_clear 1 write 0 a.off hs hzero).2.2
    · exact standing_of_hostErrors (hostError_of_standing 1 write 0 a.off hs hzero).2.2
  · obtain ⟨-, -, herr⟩ := hostError_of_clear 1 write 0 a.off hs hzero
    simp only [Func.hostErrors, Prod.mk.injEq] at herr
    obtain ⟨-, hkind, hwrite, -, haddr⟩ := herr
    exact ⟨hkind, hwrite, haddr⟩

theorem exec_badRegisterAccess_of_size (write : Bool) (hfn : a.fn ≤ 8) (hserved : s.served = true) (h4 : a.size ≠ 4) (h8 : a.size ≠ 8) :
    exec (.badRegisterAccess a write) s =
      .next (if write then s.badAccess a true else (s.badAccess a false).emit (.regData a.fn 0)) := by
  have hal : accAligned a = false := by simp [accAligned, h4, h8]
  have htry : s.tryWrite a = none := by simp [State.tryWrite, hal]
  change execBadRegisterAccess a write s = _
  cases write <;> simp [execBadRegisterAccess, Nat.not_lt.2 hfn, hserved, hal, htry]

/-! ### Mailboxes -/

theorem accMboxStatus_request (h : s.Writes a 0x10000) : accMboxStatus a false = true := by
  simp [accMboxStatus, writes_at h, blockAt_request, b2n]

theorem accMboxStatus_response (h : s.Writes a 0x11000) : accMboxStatus a true = true := by
  simp [accMboxStatus, writes_at h, blockAt_response, b2n]

theorem bit_full_zero : bit (2 ^ 64 - 1) 0 = true := by decide

theorem exec_requestPost (h : s.Writes a 0x10000) :
    exec (.requestPost a) s = .next (s.setMbox a.fn ((s.mbox a.fn).postWrite (2 ^ 64 - 1) (a.data % 2 ^ 64))) := by
  change s.regRow a _ = _
  rw [regRow_of_writes h (accMboxStatus_request h)]
  rfl

theorem exec_responseRelease (h : s.Writes a 0x11000) (hbit : bit (a.data % 2 ^ 64) 0 = true) :
    exec (.responseRelease a) s = .next (s.setMbox a.fn { s.mbox a.fn with respPost := false }) := by
  change s.regRow a _ = _
  rw [regRow_of_writes h (by rw [accMboxStatus_response h, writes_value h, hbit]; rfl)]
  have hw : s.writeReg a.fn 0x11000 (2 ^ 64 - 1) (a.data % 2 ^ 64) =
      some (s.setMbox a.fn { s.mbox a.fn with respPost := (s.mbox a.fn).respPost && !bit (a.data % 2 ^ 64) 0 }) := rfl
  rw [hw, hbit]
  simp

/-! ### The window of a core -/

/-- The function that owns the window of a core (R418). -/
structure State.OwnsWindow (s : State) (a : HostAccess) (core q : Nat) : Prop where
  lt : core < 160
  part : s.partOfGallery (core / 8) = some q
  fn : s.fnOf q = a.fn

theorem accHits_core {o : Nat} (hcore : core < 160) (ho : o < 0x10000) (h : s.Writes a (0x2800000 + 0x10000 * core + o)) :
    accHits a isCore o = true := by
  simp [accHits, writes_at h, blockAt_core hcore ho, isCore]

theorem accInWindow_core {o base len : Nat} (hcore : core < 160) (ho : o < 0x10000) (h : s.Writes a (0x2800000 + 0x10000 * core + o))
    (hbase : base ≤ o) (hlen : o < base + len) : accInWindow a base len = true := by
  simp [accInWindow, writes_at h, blockAt_core hcore ho, isCore, hbase, hlen]

theorem writeReg_core {o : Nat} (how : s.OwnsWindow a core q) (ho : o < 0x10000) (h : s.Writes a (0x2800000 + 0x10000 * core + o)) (m v : Nat) :
    s.writeReg a.fn (0x2800000 + 0x10000 * core + o) m v = s.writeWindow a.fn core o m v := by
  simp [State.writeReg, blockAt_core how.lt ho, writes_live h]

theorem writeWindow_engine (how : s.OwnsWindow a core q) (m v : Nat) :
    s.writeWindow a.fn core 0x4000 m v = some (s.modCore core (fun k => { k with engine := k.engine.statusWrite v })) := by
  simp [State.writeWindow, galleryOf, how.part, how.fn, State.windowReg, Engine.reg]

theorem writeWindow_coreBank {o : Nat} (how : s.OwnsWindow a core q) (ho : o ≤ 0x80) (m v : Nat) :
    s.writeWindow a.fn core (0x6000 + o) m v = some (s.writeBank core false o m v) := by
  have hreg : s.windowReg core (0x6000 + o) ≠ none := by
    simp only [State.windowReg]
    rw [if_neg (by omega), if_neg (by omega), if_neg (by omega), if_neg (by omega), if_pos (by omega), Nat.add_sub_cancel_left]
    by_cases hlt : o < 0x80
    · simp [Bank.reg, hlt]
    · simp [Bank.reg, show o = 0x80 by omega]
  simp only [State.writeWindow, galleryOf, how.part, how.fn, ne_eq, not_true_eq_false, if_false, hreg]
  rw [if_neg (by omega), if_pos (by omega), Nat.add_sub_cancel_left]

theorem writeWindow_galBank (how : s.OwnsWindow a core q) (m v : Nat) :
    s.writeWindow a.fn core 0x6880 m v = some (s.writeBank core true 0x80 m v) := by
  simp [State.writeWindow, galleryOf, how.part, how.fn, State.windowReg, Bank.reg]

theorem writeWindow_trace {o : Nat} (how : s.OwnsWindow a core q) (ho : o = 0 ∨ o = 8) (m v : Nat) :
    s.writeWindow a.fn core (0x7000 + o) m v = some (s.writeTrc core q o m v) := by
  rcases ho with rfl | rfl <;> simp [State.writeWindow, galleryOf, how.part, how.fn, State.windowReg, Trace.reg]

theorem exec_badDescClear (how : s.OwnsWindow a core q) (h : s.Writes a (0x2800000 + 0x10000 * core + 0x4000)) (hbit : bit (a.data % 2 ^ 64) 0 = true) :
    exec (.badDescClear a) s = .next (s.modCore core (fun k => { k with
      engine := { k.engine with badDesc := false, reason := 0, badCount := 0, badAddr := 0 } })) := by
  change s.regRow a _ = _
  rw [regRow_of_writes h (by rw [accHits_core how.lt (by decide) h, writes_value h, hbit]; rfl), writeReg_core how (by decide) h,
    writeWindow_engine how]
  simp only [Option.getD_some, Engine.statusWrite, hbit, if_true]

/-! ### Counter banks -/

theorem mget_map_or {α : Type} (d : α) (m : Map α) (f : Nat → α → α) (k : Nat) :
    mget d (m.map (fun e => (e.1, f e.1 e.2))) k = f k (mget d m k) ∨
      mget d (m.map (fun e => (e.1, f e.1 e.2))) k = d ∧ mget d m k = d := by
  induction m with
  | nil => exact .inr ⟨rfl, rfl⟩
  | cons e m ih =>
    simp only [List.map_cons, mget]
    split
    · exact .inl (by subst_vars; rfl)
    split
    · exact .inr ⟨rfl, rfl⟩
    · exact ih

theorem mget_map {α : Type} (d : α) (m : Map α) (f : Nat → α → α) (k : Nat) (hd : f k d = d) :
    mget d (m.map (fun e => (e.1, f e.1 e.2))) k = f k (mget d m k) := by
  rcases mget_map_or d m f k with h | ⟨h, h0⟩
  · exact h
  · rw [h, h0, hd]

/-- A counter whose clock moves: `CYCLES` counts (R421). -/
def Counter.ticked (k : Counter) (old new : Nat) : Counter :=
  let from' := match k.resetAt with | some r => max old r | none => old
  if k.event = 1 ∧ k.takes k.source k.pair = true ∧ from' < new then
    { (k.bump (new - 1) (new - from' - 1)).bump new 1 with curAt := new } else k

theorem tick_ctrs (b : Bank) (old new i : Nat) : mget {} (b.tick old new).ctrs i = (mget {} b.ctrs i).ticked old new :=
  mget_map {} b.ctrs (fun _ k => k.ticked old new) i rfl

theorem ticked_of_event {k : Counter} (h : k.event ≠ 1) (old new : Nat) : k.ticked old new = k := by
  simp [Counter.ticked, h]

/-- What configuration and samples hold of a counter. -/
def Counter.snap (k : Counter) : Nat × Nat × Nat := (k.cfg, k.snapValue, k.snapTag)

theorem bump_snap (k : Counter) (t n : Nat) : (k.bump t n).snap = k.snap := by
  unfold Counter.bump
  split
  · rfl
  split <;> rfl

theorem ticked_snap (k : Counter) (old new : Nat) : (k.ticked old new).snap = k.snap := by
  unfold Counter.ticked
  extract_lets from'
  split
  · exact (bump_snap (k.bump (new - 1) (new - from' - 1)) new 1).trans (bump_snap k _ _)
  · rfl

/-- A counter with what time alone has counted added. -/
def Counter.freed (k : Counter) (evs : List Nat) (t n : Nat) : Counter := if k.event ∈ evs ∧ k.enabled = true then k.bump (t - 1) n else k

theorem addFree_ctrs (b : Bank) (evs : List Nat) (t seed i : Nat) :
    mget {} (b.addFree evs t seed).ctrs i = (mget {} b.ctrs i).freed evs t (Config.choice (seed + i)) :=
  mget_map {} b.ctrs (fun i k => k.freed evs t (Config.choice (seed + i))) i (by simp [Counter.freed, Counter.enabled, bit])

theorem freed_of_event {k : Counter} {evs : List Nat} (h : k.event ∉ evs) (t n : Nat) : k.freed evs t n = k := by
  simp [Counter.freed, h]

/-- The sample of a counter that does not count by command is its count (R424); one that is not listed has none. -/
theorem sampled_value (b : Bank) (t i : Nat) (h : (mget {} b.ctrs i).perCmd = false) :
    (mget {} (b.sampled t).ctrs i).snapValue = (mget {} b.ctrs i).upTo t := by
  rcases mget_map_or {} b.ctrs (fun _ k => k.sampled t b.lastPair) i with hi | ⟨hi, h0⟩
  · rw [show (b.sampled t).ctrs = b.ctrs.map (fun e => (e.1, e.2.sampled t b.lastPair)) from rfl, hi, Counter.sampled, if_neg (by simp [h])]
  · rw [show (b.sampled t).ctrs = b.ctrs.map (fun e => (e.1, e.2.sampled t b.lastPair)) from rfl, hi, h0]
    simp [Counter.upTo]

theorem coreBank_setCoreBank (hs : rising s.coreBanks) (c : Nat) (b : Bank) : (s.setCoreBank c b).coreBank c = b :=
  mget_mset_same_of_rising _ _ _ hs

theorem galBank_setGalBank (hs : rising s.galBanks) (g : Nat) (b : Bank) : (s.setGalBank g b).galBank g = b :=
  mget_mset_same_of_rising _ _ _ hs

/-- The clock of a core reaches a moment: its bank has ticked, and nothing but the core's clock and its bank has changed. -/
theorem tick_bank (hs : rising s.coreBanks) (core t i : Nat) :
    ((s.tick core t).ctxs = s.ctxs ∧ (s.tick core t).hbm = s.hbm ∧ rising (s.tick core t).coreBanks) ∧
      (mget {} ((s.tick core t).coreBank core).ctrs i = mget {} (s.coreBank core).ctrs i ∨
        mget {} ((s.tick core t).coreBank core).ctrs i = (mget {} (s.coreBank core).ctrs i).ticked (s.core core).clock t) := by
  unfold State.tick
  extract_lets old
  split
  · exact ⟨⟨rfl, rfl, hs⟩, .inl rfl⟩
  · refine ⟨⟨rfl, rfl, mset_keeps_rising _ _ _ hs⟩, .inr ?_⟩
    rw [← tick_ctrs]
    exact congrArg (fun b : Bank => mget {} b.ctrs i) (coreBank_setCoreBank hs core _)

theorem tickGal_bank (hs : rising s.galBanks) (g i : Nat) :
    ((s.tickGal g).ctxs = s.ctxs ∧ (s.tickGal g).now = s.now ∧ rising (s.tickGal g).galBanks) ∧
      (mget {} ((s.tickGal g).galBank g).ctrs i = mget {} (s.galBank g).ctrs i ∨
        mget {} ((s.tickGal g).galBank g).ctrs i = (mget {} (s.galBank g).ctrs i).ticked ((s.galBank g).lastStart.getD 0) (2 * s.now)) := by
  unfold State.tickGal
  extract_lets b t old
  split
  · exact ⟨⟨rfl, rfl, hs⟩, .inl rfl⟩
  · refine ⟨⟨rfl, rfl, mset_keeps_rising _ _ _ hs⟩, .inr ?_⟩
    rw [← tick_ctrs, galBank_setGalBank hs]

/-- A core's bank as a configuration write of one of its counters leaves it (R420). -/
theorem configure_ctr {b : Bank} {i v : Nat} {c : Nat × Nat × Nat} (hsnap : (mget {} b.ctrs i).snap = c) (hv : v < 2 ^ 64) (hev : v % 256 ≤ 0x16)
    (hbit : bit v 11 = true) :
    mget {} (b.configure false i (2 ^ 64 - 1) v).ctrs i = { cfg := v &&& 0x0000FFFFFFFF1FFF, snapValue := c.2.1, snapTag := c.2.2 } := by
  subst hsnap
  have hcfg : mergeBits (mget {} b.ctrs i).cfg (2 ^ 64 - 1) v &&& 0x0000FFFFFFFF1FFF = v &&& 0x0000FFFFFFFF1FFF :=
    and_of_mergeBits _ hv (by decide)
  have hlow : (v &&& 0x0000FFFFFFFF1FFF) % 256 = v % 256 := by
    rw [show 256 = 2 ^ 8 from rfl, ← Nat.and_two_pow_sub_one_eq_mod, Nat.and_assoc]
    exact Nat.and_two_pow_sub_one_eq_mod v 8
  have hset : v &&& 0x0000FFFFFFFF1FFF ≠ 0 := fun h0 => by
    have hbit' := congrArg (Nat.testBit · 11) h0
    rw [bit_eq_testBit] at hbit
    simp only [Nat.testBit_and, hbit, Nat.zero_testBit] at hbit'
    exact absurd hbit' (by decide)
  simp only [Bank.configure, hcfg, hlow, Bool.false_eq_true, if_false]
  rw [if_neg (by omega)]
  exact mget_mset_same_of_ne _ _ (fun h => hset (congrArg Counter.cfg h))

theorem exec_ctrCfgWrite {i : Nat} (how : s.OwnsWindow a core q) (hi : i < 16) (h : s.Writes a (0x2800000 + 0x10000 * core + (0x6000 + 8 * i))) :
    exec (.ctrCfgWrite a) s = .next ((s.sampleClock core).1.setCoreBank core
      (((s.sampleClock core).1.coreBank core).configure false i (2 ^ 64 - 1) (a.data % 2 ^ 64))) := by
  change s.regRow a _ = _
  rw [regRow_of_writes h (by rw [accInWindow_core how.lt (by omega) h (by omega) (by omega), Bool.true_or]), writeReg_core how (by omega) h,
    writeWindow_coreBank how (by omega), Option.getD_some, State.writeBank, if_pos (by omega), if_neg (by simp), Nat.mul_div_cancel_left i (by decide)]

theorem ctrCfgWrite_configures {i : Nat} (hs : rising s.coreBanks) (how : s.OwnsWindow a core q) (hi : i < 16)
    (h : s.Writes a (0x2800000 + 0x10000 * core + (0x6000 + 8 * i))) (hev : a.data % 2 ^ 64 % 256 ≤ 0x16) :
    ∃ t, exec (.ctrCfgWrite a) s = .next t ∧
      let k := mget {} (s.coreBank core).ctrs i
      (bit (a.data % 2 ^ 64) 11 = true → mget {} (t.coreBank core).ctrs i =
        { cfg := a.data % 2 ^ 64 &&& 0x0000FFFFFFFF1FFF, snapValue := k.snapValue, snapTag := k.snapTag }) ∧
      t.hbm = s.hbm ∧ t.ctxs = s.ctxs := by
  refine ⟨_, exec_ctrCfgWrite how hi h, ?_⟩
  obtain ⟨⟨hctxs, hhbm, hrise⟩, htick⟩ := tick_bank (s := { s with free := s.free + 1 }) hs core (s.sampleClock core).2 i
  refine ⟨fun hbit => ?_, hhbm, hctxs⟩
  have hsnap : (mget {} ((s.sampleClock core).1.coreBank core).ctrs i).snap = (mget {} (s.coreBank core).ctrs i).snap := by
    rcases htick with heq | heq
    · exact congrArg Counter.snap heq
    · exact (congrArg Counter.snap heq).trans (ticked_snap _ _ _)
  rw [coreBank_setCoreBank (s := (s.sampleClock core).1) hrise]
  exact configure_ctr hsnap (value_lt a) hev hbit

theorem exec_ctrSample (how : s.OwnsWindow a core q) (h : s.Writes a (0x2800000 + 0x10000 * core + 0x6080)) (hbit : bit (a.data % 2 ^ 64) 0 = true) :
    exec (.ctrSample a) s = .next (s.sampleCore core) := by
  change s.regRow a _ = _
  rw [regRow_of_writes h (by rw [accHits_core how.lt (by decide) h, writes_value h, hbit]; rfl), writeReg_core how (by decide) h,
    writeWindow_coreBank (o := 0x80) how (by decide), Option.getD_some, State.writeBank, if_neg (by decide), if_pos ⟨rfl, hbit⟩, if_neg (by simp)]

theorem sampleCore_samples (hs : rising s.coreBanks) (core : Nat) :
    (s.core core).clock ≤ (s.sampleClock core).2 ∧ (s.sampleCore core).ctxs = s.ctxs ∧ ∀ i, let k := mget {} (s.coreBank core).ctrs i
      k.perCmd = false → k.event ∉ [1, 4, 5, 6, 7, 8, 9] →
        (mget {} ((s.sampleCore core).coreBank core).ctrs i).snapValue = k.upTo (s.sampleClock core).2 := by
  have htick := fun i => tick_bank (s := { s with free := s.free + 1 }) hs core (s.sampleClock core).2 i
  refine ⟨Nat.le_add_right _ _, (htick 0).1.1, fun i => ?_⟩
  intro k hper hev
  obtain ⟨⟨-, -, hrise⟩, hkeep⟩ := htick i
  have hone : k.event ≠ 1 := fun h => hev (by simp [h])
  have hsame : mget {} ((s.sampleClock core).1.coreBank core).ctrs i = k := by
    rcases hkeep with heq | heq
    · exact heq
    · exact heq.trans (ticked_of_event hone _ _)
  have hfree : ∀ t seed, mget {} (((s.sampleClock core).1.coreBank core).addFree coreTimeEvents t seed).ctrs i = k := fun t seed => by
    rw [addFree_ctrs, hsame, freed_of_event (fun h => hev (by simp [coreTimeEvents] at h ⊢; omega))]
  have hbank := coreBank_setCoreBank (s := { (s.sampleClock core).1 with free := (s.sampleClock core).1.free + 16 }) hrise core
    ((((s.sampleClock core).1.coreBank core).addFree coreTimeEvents (s.sampleClock core).2 (s.sampleClock core).1.free).sampled (s.sampleClock core).2)
  refine (congrArg (fun b : Bank => (mget {} b.ctrs i).snapValue) hbank).trans ?_
  rw [sampled_value _ _ _ (by rw [hfree]; exact hper), hfree]

theorem exec_gctrSample (how : s.OwnsWindow a core q) (h : s.Writes a (0x2800000 + 0x10000 * core + 0x6880)) (hbit : bit (a.data % 2 ^ 64) 0 = true) :
    exec (.gctrSample a) s = .next (s.sampleGal (core / 8)) := by
  change s.regRow a _ = _
  rw [regRow_of_writes h (by rw [accHits_core how.lt (by decide) h, writes_value h, hbit]; rfl), writeReg_core how (by decide) h,
    writeWindow_galBank how, Option.getD_some, State.writeBank, if_neg (by decide), if_pos ⟨rfl, hbit⟩, if_pos rfl]
  rfl

theorem sampleGal_samples (hs : rising s.galBanks) (g : Nat) :
    s.now ≤ s.sample.2 ∧ (s.sampleGal g).ctxs = s.ctxs ∧ ∀ i, let k := mget {} (s.galBank g).ctrs i
      k.perCmd = false → k.event ∉ [1, 5, 9, 10] →
        (mget {} ((s.sampleGal g).galBank g).ctrs i).snapValue = k.upTo (2 * s.sample.2) := by
  have htick := fun i => tickGal_bank (s := s.sample.1) hs g i
  refine ⟨Nat.le_add_right _ _, (htick 0).1.1, fun i => ?_⟩
  intro k hper hev
  obtain ⟨⟨-, hnow, hrise⟩, hkeep⟩ := htick i
  have hone : k.event ≠ 1 := fun h => hev (by simp [h])
  have hsame : mget {} ((s.sample.1.tickGal g).galBank g).ctrs i = k := by
    rcases hkeep with heq | heq
    · exact heq
    · exact heq.trans (ticked_of_event hone _ _)
  have hfree : ∀ t seed, mget {} (((s.sample.1.tickGal g).galBank g).addFree galTimeEvents t seed).ctrs i = k := fun t seed => by
    rw [addFree_ctrs, hsame, freed_of_event (fun h => hev (by simp [galTimeEvents] at h ⊢; omega))]
  let u : State := s.sample.1.tickGal g
  have hbank := galBank_setGalBank (s := { u with free := u.free + 16 }) hrise g
    { ((u.galBank g).addFree galTimeEvents (2 * u.now) u.free).sampled (2 * u.now) with lastPair := 0 }
  refine (congrArg (fun b : Bank => (mget {} b.ctrs i).snapValue) hbank).trans ?_
  rw [sampled_value _ _ _ (by rw [hfree]; exact hper), hfree, hnow]
  rfl

/-! ### Trace buffers -/

theorem exec_trcCtrlWrite (how : s.OwnsWindow a core q) (h : s.Writes a (0x2800000 + 0x10000 * core + 0x7000)) :
    exec (.trcCtrlWrite a) s = .next (s.trcCtrl core q (2 ^ 64 - 1) (a.data % 2 ^ 64)) := by
  change s.regRow a _ = _
  rw [regRow_of_writes h (by rw [accHits_core how.lt (by decide) h, Bool.true_or]), writeReg_core how (by decide) h,
    writeWindow_trace (o := 0) how (.inl rfl)]
  rfl

theorem trcCtrl_enables {m v : Nat} (hm : m = 2 ^ 64 - 1) (hbit : bit v 0 = true) (hoff : (s.trc core).enable = false) (h6 : 6 ≤ (s.trc core).log2)
    (h20 : (s.trc core).log2 ≤ 20) (hctx : (s.ctx (bits v 16 6)).state ≠ .free) (hpart : (s.ctx (bits v 16 6)).part = q) :
    s.trcCtrl core q m v = s.setTrc core { s.trc core with
      enable := true, mask := bits v 1 8, ctx := bits v 16 6, written := 0, seq := 0, drops := 0, owedDrops := 0, recs := [] } := by
  subst hm
  have hmask := bits_of_mergeBits (s.trc core).ctrl v (show 1 + 8 ≤ 64 by decide)
  have hc := bits_of_mergeBits (s.trc core).ctrl v (show 16 + 6 ≤ 64 by decide)
  have hen := bit_of_mergeBits (s.trc core).ctrl v (show 0 < 64 by decide)
  have hright : (decide ((s.trc core).log2 < 6) || decide (20 < (s.trc core).log2) || decide ((s.ctx (bits v 16 6)).state = .free) ||
      decide ((s.ctx (bits v 16 6)).part ≠ q)) = false := by
    simp [Nat.not_lt.2 h6, Nat.not_lt.2 h20, hctx, hpart]
  simp only [State.trcCtrl, hmask, hc, hen, hright, hbit, hoff, Bool.and_false, Bool.false_eq_true, if_false, Bool.not_false, Bool.and_self, if_true]

theorem exec_trcRingWrite (how : s.OwnsWindow a core q) (h : s.Writes a (0x2800000 + 0x10000 * core + 0x7008)) :
    exec (.trcRingWrite a) s = .next (s.setTrc core ((s.trc core).setRing (2 ^ 64 - 1) (a.data % 2 ^ 64))) := by
  change s.regRow a _ = _
  rw [regRow_of_writes h (by rw [accHits_core how.lt (by decide) h, Bool.true_or]), writeReg_core how (by decide) h,
    writeWindow_trace (o := 8) how (.inr rfl)]
  rfl

theorem setRing_of_disabled {t : Trace} (h : t.enable = false) (v : Nat) :
    t.setRing (2 ^ 64 - 1) v = { t with log2 := bits v 0 5, base := bits v 12 36 * 4096 } := by
  rw [Trace.setRing, if_neg (by simp [h])]
  simp only [bits_of_mergeBits _ _ (show 0 + 5 ≤ 64 by decide), bits_of_mergeBits _ _ (show 12 + 36 ≤ 64 by decide)]

theorem traceDrain_drains (hs : s.Sound) {b : Nat} {s1 : State} (hen : (s.trc b).enable = true) (hlen : 8 ≤ (s.trc b).recs.length)
    (hdrain : s.drainRecs b (s.trc b).recs = (s1, [], none)) (hstall : s1.stalled = false) :
    ∃ u, exec (.traceDrain b) s = .next u ∧ (u.trc b).recs = [] ∧ u.hbm = s1.hbm := by
  have hrise : rising s1.traces := by
    have htables := ((State.Onward.refl (deep := 4) false s).drainRecs (b1 := b) (rest := (s.trc b).recs)).tables hs.tables
    rw [hdrain] at htables
    exact htables.traces
  have hne : (s.trc b).recs ≠ [] := fun h0 => by simp [h0] at hlen
  have hexec : exec (.traceDrain b) s = s.waits (.next (s1.setTrc b { s1.trc b with recs := [] })) := by
    change execTraceDrain b s = _
    simp only [execTraceDrain]
    rw [if_neg (by simp [hen, hne]), if_neg (by omega), hdrain]
  refine ⟨s1.setTrc b { s1.trc b with recs := [] }, by rw [hexec, waits_of_served (t := s1.setTrc b _) hstall], ?_, rfl⟩
  have htrc : (s1.setTrc b { s1.trc b with recs := [] }).trc b = { s1.trc b with recs := [] } := mget_mset_same_of_rising _ _ _ hrise
  rw [htrc]

/-! ### The aperture -/

theorem dropHeld_keeps (t : State) (r : Reader) :
    (t.dropHeld r).out = t.out ∧ (t.dropHeld r).hbm = t.hbm ∧ (t.dropHeld r).stalled = t.stalled := by
  unfold State.dropHeld
  split <;> exact ⟨rfl, rfl, rfl⟩

theorem exec_bar2_closed {fn addr n : Nat} (hs : s.stalled = false) (hfn : s.fnPresent fn = true) (hq : s.partOf fn = some q)
    (hoff : (s.func fn).aperEnable = false) :
    exec (.bar2Read fn addr n) s = .next (s.emit (.bar2Fail fn 1)) ∧ ∀ bs, exec (.bar2Write fn addr bs) s = .next s := by
  refine ⟨?_, fun bs => ?_⟩
  · have hexec : exec (.bar2Read fn addr n) s = s.waits (.next (s.emit (.bar2Fail fn 1))) := by
      change execBar2Read fn addr n s = _
      simp [execBar2Read, hfn, hq, hoff]
    rw [hexec, waits_of_served (t := s.emit _) hs]
  · have hexec : exec (.bar2Write fn addr bs) s = s.waits (.next s) := by
      change execBar2Write fn addr bs s = _
      simp [execBar2Write, hoff]
    rw [hexec, waits_of_served hs]

theorem exec_bar2Read_open {fn addr n : Nat} {s1 : State} {bs : List Byte} (hfn : s.fnPresent fn = true) (hq : s.partOf fn = some q)
    (hon : (s.func fn).aperEnable = true) (hthere : (s.func fn).aperRemoved = false)
    (hread : s.aperRead fn q [] (linePieces (n / 128 + 2) ((s.func fn).aperture addr) n) = (s1, .ok bs)) (hs1 : s1.stalled = false) :
    ∃ t, exec (.bar2Read fn addr n) s = .next t ∧ t.out = .bar2Data fn bs :: s1.out ∧ t.hbm = s1.hbm := by
  obtain ⟨hout, hhbm, hstall⟩ := dropHeld_keeps s1 (.bar2 fn)
  refine ⟨(s1.dropHeld (.bar2 fn)).emit (.bar2Data fn bs), ?_, congrArg (OutEvent.bar2Data fn bs :: ·) hout, hhbm⟩
  have hexec : exec (.bar2Read fn addr n) s = s.waits (.next ((s1.dropHeld (.bar2 fn)).emit (.bar2Data fn bs))) := by
    change execBar2Read fn addr n s = _
    simp [execBar2Read, hfn, hq, hon, hthere, hread]
  rw [hexec, waits_of_served (t := (s1.dropHeld (.bar2 fn)).emit _) (hstall.trans hs1)]

theorem exec_bar2Write_open {fn addr : Nat} {s1 : State} {bs : List Byte} (hfn : s.fnPresent fn = true) (hq : s.partOf fn = some q)
    (hon : (s.func fn).aperEnable = true) (hthere : (s.func fn).aperRemoved = false)
    (hwrite : s.aperWrite q bs (linePieces (bs.length / 128 + 2) ((s.func fn).aperture addr) bs.length) = (s1, true)) (hs1 : s1.stalled = false) :
    exec (.bar2Write fn addr bs) s = .next s1 := by
  have hexec : exec (.bar2Write fn addr bs) s = s.waits (.next s1) := by
    change execBar2Write fn addr bs s = _
    simp [execBar2Write, hfn, hq, hon, hthere, hwrite]
  rw [hexec, waits_of_served hs1]

/-- Settles O33: each register's row of Table 13-2 leads to its own write, whose mask reaches all 64 bits. -/
theorem registerCommands : Obligations.RegisterCommands := by
  unfold Obligations.RegisterCommands
  intro s a hs
  have hfuncs : rising s.funcs := hs.tables.funcs
  intro f v mine window
  have howns : ∀ core q, mine core q → s.OwnsWindow a core q := fun core q ⟨hlt, hpart, hfn⟩ => ⟨hlt, hpart, hfn⟩
  refine ⟨write_aperture, write_enableMask hfuncs, ?_, ?_, exec_responseRelease, fun core q hmine => exec_badDescClear (howns core q hmine), ?_, ?_, ?_,
    ?_, fun b s1 => ?_, ?_⟩
  · intro write hfn hserved h4 h8
    refine ⟨_, exec_badRegisterAccess_of_size write hfn hserved h4 h8, ?_⟩
    obtain ⟨hbit, hctxs, hcores, herr⟩ := badAccess_records (a := a) hfuncs write
    cases write with
    | true => exact ⟨hbit, hctxs, hcores, herr, fun h => absurd h (by decide)⟩
    | false => exact ⟨hbit, hctxs, hcores, herr, fun _ => List.mem_cons_self⟩
  · rintro x rfl hw
    refine ⟨fun howner hpost hbit => ?_, fun howner => ?_⟩
    · rw [exec_requestPost hw, Mailbox.postWrite, if_neg (by simp [howner]), if_neg (by simp only [inLow, bit_full_zero]; decide), if_neg (by simp [hpost])]
      simp only [v] at hbit
      simp only [hpost, hbit, Bool.false_or, v]
    · rw [exec_requestPost hw, Mailbox.postWrite, if_pos howner]
  · intro core q i hmine hi hw hev
    exact ctrCfgWrite_configures hs.tables.coreBanks (howns core q hmine) hi (Nat.add_assoc _ _ _ ▸ hw) hev
  · intro core q hmine hw hbit
    exact ⟨_, _, exec_ctrSample (howns core q hmine) hw hbit, sampleCore_samples hs.tables.coreBanks core⟩
  · intro core q hmine hw hbit
    exact ⟨_, _, exec_gctrSample (howns core q hmine) hw hbit, sampleGal_samples hs.tables.galBanks (core / 8)⟩
  · intro core q hmine t
    refine ⟨fun hw hbit hoff h6 h20 hctx hpart => ?_, fun hw => ⟨fun hoff => ?_, fun hon => ?_⟩⟩
    · rw [exec_trcCtrlWrite (howns core q hmine) hw, trcCtrl_enables rfl hbit hoff h6 h20 hctx hpart]
    · rw [exec_trcRingWrite (howns core q hmine) hw, setRing_of_disabled hoff]
    · rw [exec_trcRingWrite (howns core q hmine) hw, Trace.setRing, if_pos hon]
  · intro t hen hlen hdrain hstall
    exact traceDrain_drains hs hen hlen hdrain hstall
  · intro addr n q hlink hserved hfn hpresent hq
    have hpres : s.fnPresent a.fn = true := by
      simpa [State.fnPresent, hlink, hserved, hfn] using hpresent
    have hstall : s.stalled = false := hs.2.2.1
    exact ⟨exec_bar2_closed hstall hpres hq, fun hon hthere =>
      ⟨fun s1 bs hread hs1 => exec_bar2Read_open hpres hq hon hthere hread hs1,
        fun s1 bs hwrite hs1 => exec_bar2Write_open hpres hq hon hthere hwrite hs1⟩⟩

end Sys2Proof.Machine
end

section
/-! What telling a function leaves: a cause that is set, an entry of an event log, and the interrupt and pins that follow (R341 to R349, R363). -/

namespace Sys2Proof.Machine

open Sys2Proof

/-- A state without what telling its functions changes. -/
def State.offTold (s : State) : State := { s.offFuncs with logs := [], free := 0, now := 0 }

/-- A cause that stands in one register stands in another. -/
def covers (v w : Nat) : Prop := ∀ b, bit v b = true → bit w b = true

theorem covers_refl (v : Nat) : covers v v := fun _ h => h

theorem covers_setBit (v i : Nat) : covers v (setBit v i true) := fun b h => by
  rw [bit_eq_testBit] at h ⊢
  by_cases hb : b = i
  · rw [hb, ← bit_eq_testBit, bit_setBit_same]
  · simp only [setBit, testBit_setBits]
    rw [if_neg (by omega)]
    exact h

/-- Every cause of f that a write clears stands in g too. -/
structure Func.Within (f g : Func) : Prop where
  host : covers f.host g.host
  ras : covers f.ras g.ras
  event : covers f.event g.event
  power : covers f.power g.power

theorem Func.Within.refl (f : Func) : f.Within f := ⟨covers_refl _, covers_refl _, covers_refl _, covers_refl _⟩

theorem Func.Within.trans {f g h : Func} (a : f.Within g) (b : g.Within h) : f.Within h :=
  ⟨fun i hi => b.host i (a.host i hi), fun i hi => b.ras i (a.ras i hi), fun i hi => b.event i (a.event i hi), fun i hi => b.power i (a.power i hi)⟩

theorem within_setCause (f : Func) (c : Cause) : f.Within (setCause f c) := by
  cases c with
  | host b => exact ⟨covers_setBit _ _, covers_refl _, covers_refl _, covers_refl _⟩
  | ras b => exact ⟨covers_refl _, covers_setBit _ _, covers_refl _, covers_refl _⟩
  | event b => exact ⟨covers_refl _, covers_refl _, covers_setBit _ _, covers_refl _⟩
  | power b => exact ⟨covers_refl _, covers_refl _, covers_refl _, covers_setBit _ _⟩
  | _ => exact ⟨covers_refl _, covers_refl _, covers_refl _, covers_refl _⟩

/-- From s to t functions have been told something, and nothing else has happened. -/
structure State.Tells (s t : State) : Prop where
  off : t.offTold = s.offTold
  funcs : rising t.funcs
  now : s.now ≤ t.now
  causes : ∀ k, (s.func k).Within (t.func k)

variable {s t u : State}

theorem State.Tells.refl (h : rising s.funcs) : s.Tells s := ⟨rfl, h, le_refl _, fun _ => .refl _⟩

theorem State.Tells.trans (h : s.Tells t) (h' : t.Tells u) : s.Tells u :=
  ⟨h'.off.trans h.off, h'.funcs, h.now.trans h'.now, fun k => (h.causes k).trans (h'.causes k)⟩

/-- What a function holds beside the delivery of its interrupt decides which causes it shows. -/
theorem within_of_offDelivery {f g : Func} (h : g.offDelivery = f.offDelivery) : f.Within g := by
  have hhost : g.host = f.host := (congrArg Func.host h :)
  have hras : g.ras = f.ras := (congrArg Func.ras h :)
  have hevent : g.event = f.event := (congrArg Func.event h :)
  have hpower : g.power = f.power := (congrArg Func.power h :)
  constructor
  · rw [hhost]; exact covers_refl _
  · rw [hras]; exact covers_refl _
  · rw [hevent]; exact covers_refl _
  · rw [hpower]; exact covers_refl _

theorem State.Tells.rings (h : s.Tells t) (h' : t.Rings u) : s.Tells u where
  off := (congrArg (fun x : State => { x with logs := [], free := 0, now := 0 }) h'.off).trans h.off
  funcs := h'.funcs
  now := h'.now ▸ h.now
  causes k := (h.causes k).trans (within_of_offDelivery (h'.func k))

theorem State.Tells.setFunc (h : s.Tells t) {n : Nat} {x : Func} (hx : (t.func n).Within x) : s.Tells (t.setFunc n x) := by
  refine ⟨h.off, setFunc_keeps_rising n x h.funcs, h.now, fun k => ?_⟩
  by_cases hk : k = n
  · rw [hk, func_setFunc_same_of_rising n x h.funcs]
    exact (h.causes n).trans hx
  · rw [func_setFunc_other_of_rising x hk h.funcs]
    exact h.causes k

/-- The function's record with a cause set, its summary, and its event counted (R342, R344). -/
def State.raised (s : State) (fn : Nat) (c : Cause) : Func :=
  let f := setCause (s.func fn) c
  let b := causeBlock c
  let counted := bit f.enableMask b && s.interrupts fn
  { f with
    summary := setBit f.summary b true
    hidden := mset 0 f.hidden b (setBit (mget 0 f.hidden b) (causeBit c) false)
    events := if counted then min 65535 (f.events + 1) else f.events
    winStart := if counted && (decide (f.events = 0) || f.winStart.isNone) then some s.now else f.winStart }

theorem raise_eq (s : State) (fn : Nat) (c : Cause) : s.raise fn c = ((s.setFunc fn (s.raised fn c)).deliver fn).driveAttn := rfl

theorem within_raised (s : State) (fn : Nat) (c : Cause) : (setCause (s.func fn) c).Within (s.raised fn c) :=
  ⟨covers_refl _, covers_refl _, covers_refl _, covers_refl _⟩

theorem raise_rings_raised (h : rising s.funcs) (fn : Nat) (c : Cause) : (s.setFunc fn (s.raised fn c)).Rings (s.raise fn c) :=
  ((State.Rings.refl (setFunc_keeps_rising fn _ h)).deliver fn).driveAttn

theorem State.Tells.raise (h : s.Tells t) (fn : Nat) (c : Cause) : s.Tells (t.raise fn c) :=
  (h.setFunc ((within_setCause _ c).trans (within_raised t fn c))).rings (raise_rings_raised h.funcs fn c)

theorem State.Tells.setEvlog (h : s.Tells t) (fn : Nat) (l : EventLog) : s.Tells (t.setEvlog fn l) := ⟨h.off, h.funcs, h.now, h.causes⟩

theorem State.Tells.sample (h : s.Tells t) : s.Tells t.sample.1 := ⟨h.off, h.funcs, h.now.trans (Nat.le_add_right _ _), h.causes⟩

theorem State.Tells.pick (h : s.Tells t) (n : Nat) : s.Tells (t.pick n).1 := ⟨h.off, h.funcs, h.now, h.causes⟩

theorem State.Tells.logEvent (h : s.Tells t) (fn kind : Nat) (body : List Byte) : s.Tells (t.logEvent fn kind body) := by
  simp only [State.logEvent]
  have h0 := fun l => (h.sample.setEvlog fn l).raise fn (.event 0)
  split
  · exact (h0 _).raise _ _
  · exact h0 _

/-- The cause that an event sets stands (R342). -/
theorem raise_power (h : rising s.funcs) (fn b : Nat) : bit ((s.raise fn (.power b)).func fn).power b = true := by
  have hr := (raise_rings_raised h fn (.power b)).func fn
  rw [func_setFunc_same_of_rising _ _ h] at hr
  have hpower : ((s.raise fn (.power b)).func fn).power = setBit (s.func fn).power b true := (congrArg Func.power hr :)
  rw [hpower, bit_setBit_same]

theorem raise_ras (h : rising s.funcs) (fn b : Nat) : bit ((s.raise fn (.ras b)).func fn).ras b = true := by
  have hr := (raise_rings_raised h fn (.ras b)).func fn
  rw [func_setFunc_same_of_rising _ _ h] at hr
  have hras : ((s.raise fn (.ras b)).func fn).ras = setBit (s.func fn).ras b true := (congrArg Func.ras hr :)
  rw [hras, bit_setBit_same]

theorem State.Tells.powerEvent (h : s.Tells t) (b value : Nat) : s.Tells (t.powerEvent b value) := (h.raise _ _).logEvent _ _ _

theorem powerEvent_told (h : rising s.funcs) (b value : Nat) : bit ((s.powerEvent b value).func 0).power b = true :=
  (((State.Tells.refl ((State.Tells.refl h).raise 0 (.power b)).funcs).logEvent 0 6 _).causes 0).power b (raise_power h 0 b)

/-! What a function told of something leaves as it was. -/

theorem State.Tells.gals (h : s.Tells t) : t.gals = s.gals := (congrArg State.gals h.off :)
theorem State.Tells.ctxs (h : s.Tells t) : t.ctxs = s.ctxs := (congrArg State.ctxs h.off :)
theorem State.Tells.cores (h : s.Tells t) : t.cores = s.cores := (congrArg State.cores h.off :)
theorem State.Tells.hbm (h : s.Tells t) : t.hbm = s.hbm := (congrArg State.hbm h.off :)
theorem State.Tells.parts (h : s.Tells t) : t.parts = s.parts := (congrArg State.parts h.off :)

end Sys2Proof.Machine
end

section
/-! Rails, droop, the module cap, sleep states and paddling (R382 to R386, R389 to R397): the obligation `PowerCommands`. -/

namespace Sys2Proof.Machine

open Sys2Proof

variable {s t u : State} {g : Nat}

/-! ### The limits of a gallery -/

/-- A map that reads a listed value at a key keeps it when a higher key is taken out. -/
theorem mget_merase_above {α : Type} {d : α} {m : Map α} {j k : Nat} (h : mget d m j ≠ d) (hjk : j < k) : mget d (merase m k) j = mget d m j := by
  induction m with
  | nil => rfl
  | cons e m ih =>
    obtain ⟨k', v'⟩ := e
    simp only [mget, merase] at h ⊢
    by_cases hkk : k' = k
    · rw [if_neg (by omega), if_pos (by omega)] at h
      exact absurd rfl h
    rw [if_neg hkk]
    split
    · rfl
    · simp only [mget]
      by_cases hk : k' = j
      · rw [if_pos hk, if_pos hk]
      · rw [if_neg hk] at h
        rw [if_neg hk, if_neg hk]
        split
        · rfl
        · rename_i hlt
          rw [if_neg hlt] at h
          exact ih h

theorem mget_mset_above {α : Type} [DecidableEq α] {d : α} {m : Map α} {j k : Nat} (v : α) (h : mget d m j ≠ d) (hjk : j < k) :
    mget d (mset d m k v) j = mget d m j := by
  unfold mset
  split
  · exact mget_merase_above h hjk
  · exact mget_minsert_other d m k j v (by omega)

theorem gal_setGal (h : rising s.gals) (g : Nat) (x : GalPower) : (s.setGal g x).gal g = x := mget_mset_same_of_rising _ _ _ h

theorem gal_setGal_other (h : rising s.gals) {g k : Nat} (hk : k ≠ g) (x : GalPower) : (s.setGal g x).gal k = s.gal k :=
  mget_mset_other_of_rising _ _ hk h

theorem setGal_keeps_rising (h : rising s.gals) (g : Nat) (x : GalPower) : rising (s.setGal g x).gals := mset_keeps_rising _ _ _ h

/-! ### What a change of one gallery leaves -/

/-- A state without its galleries and what telling of a limit changes. -/
def State.offGals (s : State) : State := { s.offTold with gals := [] }

/-- From s to t the settings of gallery g have changed, what its operator is told with them, and nothing else. -/
structure State.Sets (s t : State) (g : Nat) : Prop where
  off : t.offGals = s.offGals
  funcs : rising t.funcs
  gals : rising t.gals
  st : (t.gal g).st = (s.gal g).st
  others : ∀ k, k ≠ g → t.gal k = s.gal k

theorem State.Sets.refl (hf : rising s.funcs) (hg : rising s.gals) (g : Nat) : s.Sets s g := ⟨rfl, hf, hg, rfl, fun _ _ => rfl⟩

theorem State.Sets.trans (h : s.Sets t g) (h' : t.Sets u g) : s.Sets u g :=
  ⟨h'.off.trans h.off, h'.funcs, h'.gals, h'.st.trans h.st, fun k hk => (h'.others k hk).trans (h.others k hk)⟩

theorem State.Sets.setGal (h : s.Sets t g) {x : GalPower} (hx : x.st = (t.gal g).st) : s.Sets (t.setGal g x) g where
  off := h.off
  funcs := h.funcs
  gals := setGal_keeps_rising h.gals g x
  st := by rw [gal_setGal h.gals, hx, h.st]
  others k hk := by rw [gal_setGal_other h.gals hk, h.others k hk]

theorem State.Sets.setLimit (h : s.Sets t g) (i d c : Nat) : s.Sets (t.setLimit g i d c) g := h.setGal rfl

theorem State.Sets.endPaddle (h : s.Sets t g) : s.Sets (t.endPaddle g) g := h.setGal rfl

theorem State.Sets.pick (h : s.Sets t g) (n : Nat) : s.Sets (t.pick n).1 g := ⟨h.off, h.funcs, h.gals, h.st, h.others⟩

theorem State.Sets.chooseLimit (h : s.Sets t g) : s.Sets t.chooseLimit.1 g := (h.pick 16).pick 33

theorem State.Sets.tells (h : s.Sets t g) (h' : t.Tells u) : s.Sets u g := by
  have hgal : ∀ k, u.gal k = t.gal k := fun k => (congrArg (fun m => mget ({} : GalPower) m k) h'.gals :)
  exact ⟨(congrArg (fun x : State => { x with gals := [] }) h'.off).trans h.off, h'.funcs, h'.gals ▸ h.gals, by rw [hgal, h.st],
    fun k hk => by rw [hgal, h.others k hk]⟩

theorem State.Sets.powerEvent (h : s.Sets t g) (b v : Nat) : s.Sets (t.powerEvent b v) g := h.tells ((State.Tells.refl h.funcs).powerEvent b v)

theorem State.Sets.fitGallery (h : s.Sets t g) (draw part : Nat) : s.Sets (t.fitGallery g draw part) g := by
  simp only [State.fitGallery]
  split
  · exact h.setLimit _ _ _
  · exact (h.chooseLimit.setLimit _ _ _).endPaddle

theorem State.Sets.paddle (h : s.Sets t g) (draw : Nat) : s.Sets (t.paddle g draw) g := by
  simp only [State.paddle]
  split
  · exact h.setGal rfl
  split
  · exact h.setGal rfl
  split
  · refine State.Sets.setLimit ?_ _ _ _
    exact State.Sets.setGal h.chooseLimit rfl
  · exact h.setGal rfl

theorem State.Sets.capLimit (h : s.Sets t g) : s.Sets (t.capLimit g) g := by
  simp only [State.capLimit]
  split
  · exact h.setGal rfl
  split
  · exact h.setGal rfl
  split
  · refine State.Sets.powerEvent ?_ _ _
    exact h.setGal rfl
  · exact h

/-- The duty and the clock that a controller chooses lie in what Table 15-4 lets them be. -/
theorem chooseLimit_bounds (s : State) :
    1 ≤ s.chooseLimit.2.1 ∧ s.chooseLimit.2.1 ≤ 16 ∧ 800 ≤ s.chooseLimit.2.2 ∧ s.chooseLimit.2.2 ≤ 4000 := by
  have hd := pick_lt s 16 (by decide)
  have hc := pick_lt (s.pick 16).1 33 (by decide)
  simp only [State.chooseLimit]
  omega

/-! ### Loops over galleries -/

/-- From s to t settings of galleries have changed, what their operators are told with them, and nothing else. -/
structure State.Limits (s t : State) : Prop where
  off : t.offGals = s.offGals
  funcs : rising t.funcs
  gals : rising t.gals
  st : ∀ k, (t.gal k).st = (s.gal k).st

theorem State.Limits.refl (hf : rising s.funcs) (hg : rising s.gals) : s.Limits s := ⟨rfl, hf, hg, fun _ => rfl⟩

theorem State.Limits.trans (h : s.Limits t) (h' : t.Limits u) : s.Limits u :=
  ⟨h'.off.trans h.off, h'.funcs, h'.gals, fun k => (h'.st k).trans (h.st k)⟩

theorem State.Sets.limits (h : s.Sets t g) : s.Limits t := by
  refine ⟨h.off, h.funcs, h.gals, fun k => ?_⟩
  by_cases hk : k = g
  · rw [hk, h.st]
  · rw [h.others k hk]

theorem State.Limits.tells (h : s.Limits t) (h' : t.Tells u) : s.Limits u :=
  h.trans ((State.Sets.refl h.funcs h.gals 0).tells h').limits

/-- A loop whose every turn keeps to its gallery. -/
theorem foldl_limits {f : State → Nat → State} (hf : ∀ (t : State) g, rising t.funcs → rising t.gals → t.Sets (f t g) g) (hfs : rising s.funcs)
    (hgs : rising s.gals) (gs : List Nat) : s.Limits (gs.foldl f s) := by
  induction gs generalizing s with
  | nil => exact .refl hfs hgs
  | cons g gs ih =>
    have hstep := (hf s g hfs hgs).limits
    exact hstep.trans (ih hstep.funcs hstep.gals)

/-- A gallery that no turn of a loop is for keeps its settings. -/
theorem foldl_limits_other {f : State → Nat → State} (hf : ∀ (t : State) g, rising t.funcs → rising t.gals → t.Sets (f t g) g) (hfs : rising s.funcs)
    (hgs : rising s.gals) {gs : List Nat} (hg : g ∉ gs) : (gs.foldl f s).gal g = s.gal g := by
  induction gs generalizing s with
  | nil => rfl
  | cons x gs ih =>
    rw [List.mem_cons, not_or] at hg
    have hstep := hf s x hfs hgs
    rw [List.foldl_cons, ih hstep.funcs hstep.gals hg.2, hstep.others g hg.1]

/-- What the turn of a gallery leaves it with, the whole loop leaves it with, where no gallery has two turns. -/
theorem foldl_limits_at {f : State → Nat → State} {P : GalPower → GalPower → Prop}
    (hf : ∀ (t : State) g, rising t.funcs → rising t.gals → t.Sets (f t g) g) (hP : ∀ (t : State) g, rising t.gals → P (t.gal g) ((f t g).gal g))
    (hfs : rising s.funcs) (hgs : rising s.gals) {gs : List Nat} (hnodup : gs.Nodup) (hg : g ∈ gs) : P (s.gal g) ((gs.foldl f s).gal g) := by
  induction gs generalizing s with
  | nil => exact absurd hg (by simp)
  | cons x gs ih =>
    have hstep := hf s x hfs hgs
    rw [List.nodup_cons] at hnodup
    rw [List.foldl_cons]
    by_cases hx : g = x
    · subst hx
      rw [foldl_limits_other hf hstep.funcs hstep.gals hnodup.1]
      exact hP s g hgs
    · rw [← hstep.others g hx]
      exact ih hstep.funcs hstep.gals hnodup.2 (by simpa [hx] using hg)

theorem dieGals_nodup (s : State) (die : Nat) : (s.dieGals die).Nodup := by
  unfold State.dieGals
  refine List.Nodup.filter _ (List.Nodup.map (fun a b h => ?_) List.nodup_range)
  simpa using h

/-! ### Rails -/

/-- A gallery that a controller holds to settings of its choice (R384, R391). -/
def heldAt (i : Nat) (x y : GalPower) : Prop :=
  ∃ d c, 1 ≤ d ∧ d ≤ 16 ∧ 800 ≤ c ∧ c ≤ 4000 ∧ y.floorStep = 0 ∧ y.rising = false ∧
    y.limits = mset (16, 4000) (mset (16, 4000) x.limits i (d, c)) 5 (16, 4000)

/-- The turn of a gallery that a controller limits. -/
def State.limitOne (i : Nat) (s : State) (g : Nat) : State :=
  ((s.chooseLimit.1.setLimit g i s.chooseLimit.2.1 s.chooseLimit.2.2).endPaddle g)

theorem limitAll_eq (s : State) (i : Nat) (gs : List Nat) : s.limitAll i gs = gs.foldl (State.limitOne i) s := rfl

theorem limitOne_sets (i : Nat) (t : State) (g : Nat) (hf : rising t.funcs) (hg : rising t.gals) : t.Sets (t.limitOne i g) g :=
  (((State.Sets.refl hf hg g).chooseLimit).setLimit _ _ _).endPaddle

theorem limitOne_held (i : Nat) (t : State) (g : Nat) (hg : rising t.gals) : heldAt i (t.gal g) ((t.limitOne i g).gal g) := by
  obtain ⟨hd1, hd16, hc800, hc4000⟩ := chooseLimit_bounds t
  have hlimit := gal_setGal (s := t.chooseLimit.1) hg g
    { t.gal g with limits := mset (16, 4000) (t.gal g).limits i (t.chooseLimit.2.1, t.chooseLimit.2.2) }
  have hrise := setGal_keeps_rising (s := t.chooseLimit.1) hg g
    { t.gal g with limits := mset (16, 4000) (t.gal g).limits i (t.chooseLimit.2.1, t.chooseLimit.2.2) }
  refine ⟨_, _, hd1, hd16, hc800, hc4000, ?_⟩
  unfold State.limitOne State.endPaddle
  rw [gal_setGal (s := t.chooseLimit.1.setLimit g i t.chooseLimit.2.1 t.chooseLimit.2.2) hrise]
  exact ⟨rfl, rfl, congrArg (fun x : GalPower => mset (16, 4000) x.limits 5 (16, 4000)) hlimit⟩

/-- The turn of a gallery whose throttle is released by one step (R382). -/
def State.releaseOne (s : State) (g : Nat) : State :=
  match mfind (s.gal g).limits 3 with
  | some (d, c) => s.setLimit g 3 (min 16 (d + 1)) (min 4000 (c + 100))
  | none => s

/-- A gallery whose throttle has been released by one step. -/
def releasedAt (x y : GalPower) : Prop :=
  ∀ d c, mfind x.limits 3 = some (d, c) → y = { x with limits := mset (16, 4000) x.limits 3 (min 16 (d + 1), min 4000 (c + 100)) }

theorem releaseOne_sets (t : State) (g : Nat) (hf : rising t.funcs) (hg : rising t.gals) : t.Sets (t.releaseOne g) g := by
  unfold State.releaseOne
  split
  · exact (State.Sets.refl hf hg g).setLimit _ _ _
  · exact .refl hf hg g

theorem releaseOne_released (t : State) (g : Nat) (hg : rising t.gals) : releasedAt (t.gal g) ((t.releaseOne g).gal g) := by
  intro d c h
  rw [State.releaseOne, h]
  exact gal_setGal hg g _

/-! What limits leave as it was. -/

theorem State.Limits.work (h : s.Limits t) : t.ctxs = s.ctxs ∧ t.cores = s.cores ∧ t.hbm = s.hbm ∧ t.parts = s.parts :=
  ⟨(congrArg State.ctxs h.off :), (congrArg State.cores h.off :), (congrArg State.hbm h.off :), (congrArg State.parts h.off :)⟩

theorem State.Tells.work (h : s.Tells t) : t.ctxs = s.ctxs ∧ t.cores = s.cores ∧ t.hbm = s.hbm ∧ t.parts = s.parts :=
  ⟨h.ctxs, h.cores, h.hbm, h.parts⟩

theorem State.Tells.gal (h : s.Tells t) (k : Nat) : t.gal k = s.gal k := (congrArg (fun m => mget ({} : GalPower) m k) h.gals :)

theorem railThrottle_core (hf : rising s.funcs) (hg : rising s.gals) {rail : Nat} (hr : rail < 4) :
    ∃ t, exec (.railThrottle rail) s = .next t ∧ bit (t.func 0).power 1 = true ∧ s.Limits t ∧
      ∀ g ∈ s.dieGals rail, heldAt 3 (s.gal g) (t.gal g) := by
  let v := (s.pick (2 ^ 32)).1
  let w := v.limitAll 3 (s.dieGals rail)
  have hw : s.Limits w := (((State.Sets.refl hf hg 0).pick (2 ^ 32)).limits).trans (foldl_limits (s := v) (limitOne_sets 3) hf hg _)
  have htell := (State.Tells.refl hw.funcs).powerEvent 1 (s.pick (2 ^ 32)).2
  refine ⟨w.powerEvent 1 (s.pick (2 ^ 32)).2, ?_, powerEvent_told hw.funcs _ _, hw.tells htell, fun g hg' => ?_⟩
  · change execRailThrottle rail s = _
    simp only [execRailThrottle]
    rw [if_pos hr]
    rfl
  · rw [htell.gal]
    exact foldl_limits_at (s := v) (limitOne_sets 3) (limitOne_held 3) hf hg (dieGals_nodup s rail) hg'

/-- The state with one more step of a rail's throttle, up to a highest one. -/
def State.stepRail (s : State) (rail top : Nat) : State :=
  { s with railSteps := mset 0 s.railSteps rail (min top (mget 0 s.railSteps rail + 1)) }

/-- The rails that are throttled by a step of their own (R382). -/
theorem railThrottle_step (hf : rising s.funcs) {rail top : Nat} (h : 8 ≤ rail ∧ rail < 12 ∧ top = 28 ∨ 15 ≤ rail ∧ rail < 23 ∧ top = 7) :
    ∃ t, exec (.railThrottle rail) s = .next t ∧ bit (t.func 0).power 1 = true ∧ (s.stepRail rail top).Tells t := by
  have hv := (State.Tells.refl (s := s.stepRail rail top) hf).pick (2 ^ 32)
  refine ⟨((s.stepRail rail top).pick (2 ^ 32)).1.powerEvent 1 (s.pick (2 ^ 32)).2, ?_, powerEvent_told hv.funcs _ _, hv.powerEvent _ _⟩
  change execRailThrottle rail s = _
  simp only [execRailThrottle]
  rcases h with ⟨hlo, hhi, rfl⟩ | ⟨hlo, hhi, rfl⟩
  · rw [if_neg (by omega), if_pos ⟨hlo, hhi⟩]
    rfl
  · rw [if_neg (by omega), if_neg (by omega), if_pos ⟨hlo, hhi⟩]
    rfl

/-! ### The module cap (R385 to R389) -/

/-- The budget of the memory class (R386). -/
def State.allocMem (s : State) (d1 d2 : Nat) : Nat :=
  if overCap s.capW s.floorMem d1 then s.floorMem else budgetMem s.capW s.floorMem (max s.floorLinks d1) d2

/-- The turn of a gallery in an allocation (R387, R389, R390). -/
def State.allocTurn (tight : Bool) (draw : Nat → Nat) (part : Nat) (s : State) (g : Nat) : State :=
  ((if tight then (s.setLimit g 2 1 800).endPaddle g else s.fitGallery g (draw g) part).paddle g (draw g)).capLimit g

/-- The powered galleries of a partition. -/
def State.poweredOf (s : State) (q : Nat) : List Nat := (s.galleriesOf q).filter (fun g => decide ((s.gal g).st ≠ 0))

/-- The turns of a partition's galleries in an allocation. -/
def State.allocPart (tight : Bool) (draws : List Nat) (budgets : Map Nat) (s : State) (q : Nat) : State :=
  (s.poweredOf q).foldl (State.allocTurn tight (fun g => draws.getD g 0)
    ((mget 0 budgets q - draws.getD (20 + q) 0) / max 1 (s.poweredOf q).length)) s

/-- The state with the galleries' limits of an allocation. -/
def State.allocLimited (v : State) (tight : Bool) (draws : List Nat) (budgets : Map Nat) : State :=
  v.liveParts.foldl (State.allocPart tight draws budgets) v

/-- The end of an allocation: the galleries' limits, the budgets, and what is told of a cap that is exceeded. -/
def State.allocEnd (v : State) (tight : Bool) (draws : List Nat) (budgets : Map Nat) (pin : Nat) : State :=
  let w := { v.allocLimited tight draws budgets with budgets }
  if tight then w.powerEvent 0 pin else w

/-- The power of each partition in a report: what its stacks draw is free (log entry 5). -/
def State.sharePower (s : State) (d2 : Nat) (used : Nat → Nat) (qs : List Nat) (m : Map Nat) : Map Nat × State :=
  qs.foldl (fun (a : Map Nat × State) q =>
    let (t, x) := a.2.pick (10 * d2 + 1)
    (mset 0 a.1 q (10 * used q + x), t)) (m, s)

theorem sharePower_state (d2 : Nat) (used : Nat → Nat) (qs : List Nat) (m : Map Nat) : ∃ n, (s.sharePower d2 used qs m).2 = { s with free := n } := by
  induction qs generalizing s m with
  | nil => exact ⟨s.free, rfl⟩
  | cons q qs ih =>
    obtain ⟨n, hn⟩ := ih (s := (s.pick (10 * d2 + 1)).1) (m := mset 0 m q (10 * used q + (s.pick (10 * d2 + 1)).2))
    exact ⟨n, hn⟩

/-- The state of an allocation before the galleries' limits follow: of s only the clock, the free choices, the moment, the memory class's
step and the readings have changed. -/
structure State.Allots (s v : State) (d1 d2 iin : Nat) (draws : List Nat) : Prop where
  off : v.offGals = { s.offGals with allocAt := v.allocAt, memStep := v.memStep, readings := v.readings }
  funcs : v.funcs = s.funcs
  gals : v.gals = s.gals
  moment : s.allocAt + 10000 ≤ v.allocAt
  iin : v.readings.iin = iin
  power : v.readings.classPower = [10 * d1, 10 * d2, 10 * sum draws]
  step : ∃ step < 7, v.memStep = if s.allocMem d1 d2 < d2 then step + 1 else 0

/-- What a moment that is taken and what choices leave as it was, but for the moment of the allocation. -/
structure State.Chooses (s t : State) : Prop where
  off : t.offGals = { s.offGals with allocAt := t.allocAt }
  funcs : t.funcs = s.funcs
  gals : t.gals = s.gals
  moment : s.allocAt + 10000 ≤ t.allocAt

theorem State.Chooses.conf (h : s.Chooses t) : t.conf = s.conf := (congrArg State.conf h.off :)

theorem chooses_start (s : State) :
    s.Chooses { (s.until (s.allocAt + 10000)).sample.1 with allocAt := (s.until (s.allocAt + 10000)).sample.2 } :=
  ⟨rfl, rfl, rfl, (Nat.le_max_right _ _).trans (Nat.le_add_right _ _)⟩

theorem State.Chooses.free (h : s.Chooses t) (n : Nat) : s.Chooses { t with free := n } := ⟨h.off, h.funcs, h.gals, h.moment⟩

theorem State.Chooses.of_pick (h : s.Chooses t) {n c : Nat} (hu : t.pick n = (u, c)) : s.Chooses u := by
  have hfst : u = (t.pick n).1 := (congrArg Prod.fst hu).symm
  rw [hfst]
  exact h.free _

theorem State.Chooses.allots (h : s.Chooses t) {d1 d2 iin pin step : Nat} {draws : List Nat} {powers : Map Nat} (hstep : step < 7) :
    s.Allots { t with memStep := if s.allocMem d1 d2 < d2 then step + 1 else 0
                      readings := { t.readings with iin, pin, classPower := [10 * d1, 10 * d2, 10 * sum draws], partPower := powers } }
      d1 d2 iin draws where
  off := congrArg (fun x : State => { x with
    memStep := if s.allocMem d1 d2 < d2 then step + 1 else 0
    readings := { t.readings with iin, pin, classPower := [10 * d1, 10 * d2, 10 * sum draws], partPower := powers } }) h.off
  funcs := h.funcs
  gals := h.gals
  moment := h.moment
  iin := rfl
  power := rfl
  step := ⟨step, hstep, rfl⟩

theorem exec_powerAllocation (d1 d2 iin : Nat) (draws : List Nat) :
    ∃ v budgets pin, exec (.powerAllocation d1 d2 iin draws) s = .next (v.allocEnd (overCap s.capW s.floorMem d1) draws budgets pin) ∧
      s.Allots v d1 d2 iin draws := by
  change ∃ v budgets pin, execPowerAllocation d1 d2 iin draws s = _ ∧ _
  unfold execPowerAllocation
  have hstart := chooses_start s
  split
  rename_i u now hp
  rw [hp] at hstart
  extract_lets s1 draw host used b1 tight b2 b3
  have hconf : s1.conf = s.conf := State.Chooses.conf hstart
  have hset : ∀ type index dflt, s1.capSet type index dflt = s.capSet type index dflt := fun type index dflt => by
    simp only [State.capSet, hconf]
  have htight : tight = overCap s.capW s.floorMem d1 := by
    simp only [tight, State.capW, State.floorMem, hset]
  have hb2 : b2 = s.allocMem d1 d2 := by
    simp only [b2, htight, b1, State.allocMem, State.capW, State.floorMem, State.floorLinks, hset] <;> rfl
  split
  rename_i s2 cut hcut
  extract_lets b3'
  split
  rename_i s3 step hstep
  split
  rename_i s4 pin hpin
  extract_lets budgets shares s5 r s6 s7 s8
  have h4 : s.Chooses s4 := ((State.Chooses.of_pick hstart hcut).of_pick hstep).of_pick hpin
  obtain ⟨n, hn⟩ := sharePower_state (s := s4) d2 used s4.liveParts []
  have h5 : s.Chooses s5 := by
    have heq : s5 = { s4 with free := n } := hn
    rw [heq]
    exact h4.free n
  refine ⟨s6, budgets, pin, ?_, ?_⟩
  · rw [← htight]
    rfl
  · have hlt : step < 7 := by
      have hsnd : step = (s2.pick 7).2 := (congrArg Prod.snd hstep).symm
      rw [hsnd]
      exact pick_lt _ 7 (by decide)
    simp only [s6, hb2]
    exact h5.allots hlt

theorem allocTurn_sets (tight : Bool) (draw : Nat → Nat) (part : Nat) (t : State) (g : Nat) (hf : rising t.funcs) (hg : rising t.gals) :
    t.Sets (State.allocTurn tight draw part t g) g := by
  refine State.Sets.capLimit (State.Sets.paddle ?_ _)
  split
  · exact ((State.Sets.refl hf hg g).setLimit _ _ _).endPaddle
  · exact (State.Sets.refl hf hg g).fitGallery _ _

theorem allocPart_limits (tight : Bool) (draws : List Nat) (budgets : Map Nat) (t : State) (q : Nat) (hf : rising t.funcs) (hg : rising t.gals) :
    t.Limits (State.allocPart tight draws budgets t q) := foldl_limits (allocTurn_sets _ _ _) hf hg _

/-- A loop over partitions whose every turn sets limits of galleries. -/
theorem foldl_parts_limits {f : State → Nat → State} (hf : ∀ (t : State) q, rising t.funcs → rising t.gals → t.Limits (f t q)) (hfs : rising s.funcs)
    (hgs : rising s.gals) (qs : List Nat) : s.Limits (qs.foldl f s) := by
  induction qs generalizing s with
  | nil => exact .refl hfs hgs
  | cons q qs ih =>
    have hstep := hf s q hfs hgs
    exact hstep.trans (ih hstep.funcs hstep.gals)

theorem galleriesOf_of_parts (h : t.parts = s.parts) (q : Nat) : t.galleriesOf q = s.galleriesOf q := by
  have hpart : t.part q = s.part q := congrArg (fun m => mget ({} : Partition) m q) h
  rw [State.galleriesOf, State.galleriesOf, hpart]

/-! A cap that is exceeded (R386): every powered gallery falls to duty 1 at 800 MHz. -/

/-- A gallery that the module cap holds to the lowest duty and clock. -/
def capped (x : GalPower) : Prop := mget (16, 4000) x.limits 2 = (1, 800)

theorem capped_of_above {x y : GalPower} (h : capped x) (v : Nat × Nat) (hy : y.limits = x.limits ∨ y.limits = mset (16, 4000) x.limits 5 v) :
    capped y := by
  have hne : mget (16, 4000) x.limits 2 ≠ (16, 4000) := by
    rw [h]
    decide
  rcases hy with hy | hy
  · rwa [capped, hy]
  · rw [capped, hy, mget_mset_above v hne (by decide)]
    exact h

theorem setGal_capped (hg : rising t.gals) (h : capped (t.gal g)) {x : GalPower} (hx : x.limits = (t.gal g).limits) :
    capped ((t.setGal g x).gal g) := by
  rwa [gal_setGal hg, capped, hx]

theorem endPaddle_capped (hg : rising t.gals) (h : capped (t.gal g)) : capped ((t.endPaddle g).gal g) :=
  capped_of_above h (16, 4000) (.inr (congrArg GalPower.limits (gal_setGal hg g _)))

theorem setLimit_capped (hg : rising t.gals) : capped ((t.setLimit g 2 1 800).gal g) := by
  unfold State.setLimit
  rw [gal_setGal hg, capped]
  exact mget_mset_same_of_ne (d := ((16, 4000) : Nat × Nat)) (v := (1, 800)) _ 2 (by decide)

theorem paddle_capped (hg : rising t.gals) (h : capped (t.gal g)) (draw : Nat) : capped ((t.paddle g draw).gal g) := by
  simp only [State.paddle]
  split
  · exact setGal_capped hg h rfl
  split
  · exact setGal_capped hg h rfl
  split
  · refine capped_of_above h (t.chooseLimit.2.1, t.chooseLimit.2.2) (.inr ?_)
    unfold State.setLimit
    rw [gal_setGal (setGal_keeps_rising (s := t.chooseLimit.1) hg g _), gal_setGal (s := t.chooseLimit.1) hg]
  · exact setGal_capped hg h rfl

theorem powerEvent_gal (hf : rising t.funcs) (b v k : Nat) : (t.powerEvent b v).gal k = t.gal k := ((State.Tells.refl hf).powerEvent b v).gal k

theorem capLimit_capped (hf : rising t.funcs) (hg : rising t.gals) (h : capped (t.gal g)) : capped ((t.capLimit g).gal g) := by
  simp only [State.capLimit]
  split
  · exact setGal_capped hg h rfl
  split
  · exact setGal_capped hg h rfl
  split
  · rw [powerEvent_gal (t := t.setGal g _) hf]
    exact setGal_capped hg h rfl
  · exact h

theorem allocTurn_capped (hf : rising t.funcs) (hg : rising t.gals) (draw : Nat → Nat) (part g : Nat) :
    capped ((State.allocTurn true draw part t g).gal g) := by
  have h0 := (State.Sets.refl hf hg g).setLimit 2 1 800
  have h1 := h0.endPaddle
  have h2 := h1.paddle (draw g)
  exact capLimit_capped h2.funcs h2.gals (paddle_capped h1.gals (endPaddle_capped h0.gals (setLimit_capped hg)) _)

theorem allocTurn_keeps_capped (hf : rising t.funcs) (hg : rising t.gals) (draw : Nat → Nat) (part x : Nat) (h : capped (t.gal g)) :
    capped ((State.allocTurn true draw part t x).gal g) := by
  by_cases hx : g = x
  · rw [hx]
    exact allocTurn_capped hf hg draw part x
  · rw [(allocTurn_sets true draw part t x hf hg).others g hx]
    exact h

/-- What a turn of a loop establishes and every turn keeps, the loop establishes; J holds at every turn. -/
theorem foldl_establishes {α : Type} {J P : State → Prop} {f : State → α → State} (hJ : ∀ t x, J t → J (f t x))
    (hkeep : ∀ t x, J t → P t → P (f t x)) {l : List α} {x : α} (hx : x ∈ l) (hset : ∀ t, J t → P (f t x)) (hs : J s) : P (l.foldl f s) := by
  have hstay : ∀ (l : List α) (t : State), J t → P t → P (l.foldl f t) := fun l => by
    induction l with
    | nil => exact fun t _ hp => hp
    | cons y l ih => exact fun t hj hp => ih _ (hJ t y hj) (hkeep t y hj hp)
  induction l generalizing s with
  | nil => exact absurd hx (by simp)
  | cons y l ih =>
    rw [List.foldl_cons]
    by_cases hy : x = y
    · subst hy
      exact hstay l _ (hJ s x hs) (hset s hs)
    · exact ih (by simpa [hy] using hx) (hJ s y hs)

theorem foldl_keeps_capped (draw : Nat → Nat) (part : Nat) (hf : rising t.funcs) (hg : rising t.gals) (h : capped (t.gal g)) (gs : List Nat) :
    capped ((gs.foldl (State.allocTurn true draw part) t).gal g) := by
  induction gs generalizing t with
  | nil => exact h
  | cons x gs ih =>
    have hstep := allocTurn_sets true draw part t x hf hg
    exact ih hstep.funcs hstep.gals (allocTurn_keeps_capped hf hg draw part x h)

theorem allocLimited_capped {v : State} (hf : rising v.funcs) (hg : rising v.gals) (draws : List Nat) (budgets : Map Nat) {q : Nat} (hq : q < 8)
    (hmem : g ∈ v.galleriesOf q) (hst : (v.gal g).st ≠ 0) : capped ((v.allocLimited true draws budgets).gal g) := by
  have hlive : q ∈ v.liveParts := by
    unfold State.galleriesOf at hmem
    split at hmem
    · exact List.mem_filter.mpr ⟨List.mem_range.mpr hq, ‹_›⟩
    · exact absurd hmem (by simp)
  refine foldl_establishes (J := fun t => v.Limits t) (P := fun t => capped (t.gal g))
    (fun t x ht => ht.trans (allocPart_limits _ _ _ t x ht.funcs ht.gals)) (fun t x ht h => foldl_keeps_capped _ _ ht.funcs ht.gals h _) hlive
    (fun t ht => ?_) (State.Limits.refl hf hg)
  have hparts : t.parts = v.parts := ht.work.2.2.2
  have hin : g ∈ t.poweredOf q := by
    refine List.mem_filter.mpr ⟨?_, by simpa [ht.st g] using hst⟩
    rwa [galleriesOf_of_parts hparts]
  exact foldl_establishes (J := fun u => v.Limits u) (P := fun u => capped (u.gal g))
    (fun u x hu => hu.trans (allocTurn_sets _ _ _ u x hu.funcs hu.gals).limits) (fun u x hu h => allocTurn_keeps_capped hu.funcs hu.gals _ _ x h) hin
    (fun u hu => allocTurn_capped hu.funcs hu.gals _ _ g) ht

/-- What an allocation leaves (R385 to R389). -/
theorem powerAllocation_allocates (hf : rising s.funcs) (hg : rising s.gals) (d1 d2 iin : Nat) (draws : List Nat) :
    ∃ t v, exec (.powerAllocation d1 d2 iin draws) s = .next t ∧ s.Allots v d1 d2 iin draws ∧ t.allocAt = v.allocAt ∧ t.memStep = v.memStep ∧
      t.readings = v.readings ∧ (t.ctxs = s.ctxs ∧ t.cores = s.cores ∧ t.hbm = s.hbm ∧ t.parts = s.parts) ∧
      (overCap s.capW s.floorMem d1 = true → bit (t.func 0).power 0 = true ∧
        ∀ q < 8, ∀ g ∈ s.galleriesOf q, (s.gal g).st ≠ 0 → capped (t.gal g)) := by
  obtain ⟨v, budgets, pin, hexec, hv⟩ := exec_powerAllocation (s := s) d1 d2 iin draws
  have hvf : rising v.funcs := hv.funcs ▸ hf
  have hvg : rising v.gals := hv.gals ▸ hg
  let tight := overCap s.capW s.floorMem d1
  let w : State := { v.allocLimited tight draws budgets with budgets }
  have hlim : v.Limits (v.allocLimited tight draws budgets) := foldl_parts_limits (allocPart_limits _ _ _) hvf hvg _
  have htell : w.Tells (v.allocEnd tight draws budgets pin) := by
    unfold State.allocEnd
    split
    · exact (State.Tells.refl (s := w) hlim.funcs).powerEvent _ _
    · exact .refl (s := w) hlim.funcs
  have hoff : (v.allocEnd tight draws budgets pin).offGals = { v.offGals with budgets } :=
    (congrArg (fun x : State => { x with gals := [] }) htell.off).trans (congrArg (fun x : State => { x with budgets }) hlim.off)
  refine ⟨_, v, hexec, hv, (congrArg State.allocAt hoff :), (congrArg State.memStep hoff :), (congrArg State.readings hoff :), ⟨?_, ?_, ?_, ?_⟩, ?_⟩
  · exact (congrArg State.ctxs hoff :).trans (congrArg State.ctxs hv.off :)
  · exact (congrArg State.cores hoff :).trans (congrArg State.cores hv.off :)
  · exact (congrArg State.hbm hoff :).trans (congrArg State.hbm hv.off :)
  · exact (congrArg State.parts hoff :).trans (congrArg State.parts hv.off :)
  · intro htight
    have hparts : v.parts = s.parts := (congrArg State.parts hv.off :)
    refine ⟨?_, fun q hq g hmem hst => ?_⟩
    · rw [State.allocEnd, if_pos htight]
      exact powerEvent_told (s := { v.allocLimited (overCap s.capW s.floorMem d1) draws budgets with budgets }) hlim.funcs _ _
    · rw [show (v.allocEnd (overCap s.capW s.floorMem d1) draws budgets pin).gal g = w.gal g from htell.gal g]
      have hgal : v.gal g = s.gal g := congrArg (fun m => mget ({} : GalPower) m g) hv.gals
      have hcap := allocLimited_capped hvf hvg draws budgets hq (g := g) (by rwa [galleriesOf_of_parts hparts])
        (by rw [hgal]; exact hst)
      rw [show w.gal g = (v.allocLimited true draws budgets).gal g by simp only [w, tight, htight]; rfl]
      exact hcap

end Sys2Proof.Machine
end

section
/-! Paddling and sleep (R390 to R397), and the obligation `PowerCommands`. -/

namespace Sys2Proof.Machine

open Sys2Proof

variable {s t u : State} {g : Nat}

/-- What a power command leaves beside the galleries: contexts, cores, memory and partitions. -/
def State.SameWork (s t : State) : Prop := t.ctxs = s.ctxs ∧ t.cores = s.cores ∧ t.hbm = s.hbm ∧ t.parts = s.parts

/-! ### Paddling -/

/-- The state with the energy of the filler counted for the partition that holds a gallery (R392). -/
def State.burn (s : State) (g e : Nat) : State :=
  match s.partOfGallery g with
  | some q => { s with paddleEnergy := mset 0 s.paddleEnergy q ((mget 0 s.paddleEnergy q + e) % 2 ^ 64) }
  | none => s

theorem burn_keeps (s : State) (g e : Nat) : s.SameWork (s.burn g e) ∧ (s.burn g e).gals = s.gals ∧ (s.burn g e).now = s.now := by
  unfold State.burn
  split <;> exact ⟨⟨rfl, rfl, rfl, rfl⟩, rfl, rfl⟩

/-- A gallery whose floor or rise has ended at a moment (R391). -/
theorem endPaddle_ends (hg : rising s.gals) (g : Nat) :
    ((s.endPaddle g).gal g).floorStep = 0 ∧ ((s.endPaddle g).gal g).rising = false ∧ ((s.endPaddle g).gal g).idleAt = s.now := by
  unfold State.endPaddle
  rw [gal_setGal hg]
  exact ⟨rfl, rfl, rfl⟩

/-- The gallery's record as the rise limit steps up. -/
def GalPower.risen (x : GalPower) (now : Nat) : GalPower := { x with floorStep := x.floorStep + 1, stepAt := now }

/-- The gallery's record as the floor steps down. -/
def GalPower.fallen (x : GalPower) (now : Nat) : GalPower := { x with floorStep := x.floorStep - 1, stepAt := now }

/-- The moment of a paddle's step (R390). -/
def State.atStep (s : State) (g : Nat) : State := s.until ((s.gal g).stepAt + 1000 * s.paddleUs / 16)

theorem exec_paddleStep_end (h0 : (s.gal g).floorStep ≠ 0) (hr : (s.gal g).rising = true) (h15 : 15 ≤ (s.gal g).floorStep) :
    exec (.paddleStep g) s = .next ((s.atStep g).endPaddle g) := by
  change execPaddleStep g s = _
  simp only [execPaddleStep]
  rw [if_neg h0, if_pos hr, if_pos h15]
  rfl

theorem exec_paddleStep_rise (h0 : (s.gal g).floorStep ≠ 0) (hr : (s.gal g).rising = true) (h15 : ¬ 15 ≤ (s.gal g).floorStep) :
    exec (.paddleStep g) s = .next (((s.atStep g).chooseLimit.1.setGal g ((s.gal g).risen (s.atStep g).now)).setLimit g 5
      (s.atStep g).chooseLimit.2.1 (s.atStep g).chooseLimit.2.2) := by
  change execPaddleStep g s = _
  simp only [execPaddleStep]
  rw [if_neg h0, if_pos hr, if_neg h15]
  rfl

theorem exec_paddleStep_last (hr : (s.gal g).rising = false) (h1 : (s.gal g).floorStep = 1) :
    exec (.paddleStep g) s = .next ((((s.atStep g).pick (2 ^ 16)).1.burn g ((s.atStep g).pick (2 ^ 16)).2).endPaddle g) := by
  change execPaddleStep g s = _
  simp only [execPaddleStep]
  rw [if_neg (by omega), if_neg (by simp [hr]), if_pos h1]
  rfl

theorem exec_paddleStep_fall (h0 : (s.gal g).floorStep ≠ 0) (hr : (s.gal g).rising = false) (h1 : (s.gal g).floorStep ≠ 1) :
    exec (.paddleStep g) s = .next (let u := ((s.atStep g).pick (2 ^ 16)).1.burn g ((s.atStep g).pick (2 ^ 16)).2
      u.setGal g ((s.gal g).fallen u.now)) := by
  change execPaddleStep g s = _
  simp only [execPaddleStep]
  rw [if_neg h0, if_neg (by simp [hr]), if_neg h1]
  rfl

theorem atStep_now (s : State) (g : Nat) : (s.gal g).stepAt + 1000 * s.paddleUs / 16 ≤ (s.atStep g).now := Nat.le_max_right _ _

theorem paddleStep_steps (hg : rising s.gals) (h0 : (s.gal g).floorStep ≠ 0) :
    ∃ t, exec (.paddleStep g) s = .next t ∧ (s.gal g).stepAt + 1000 * s.paddleUs / 16 ≤ t.now ∧ s.SameWork t ∧
      let x := s.gal g
      (x.rising = true → x.floorStep < 15 → (t.gal g).floorStep = x.floorStep + 1 ∧ (t.gal g).rising = true) ∧
      (x.rising = false → x.floorStep ≠ 1 → t.gal g = { x with floorStep := x.floorStep - 1, stepAt := t.now }) ∧
      ((x.rising = true ∧ 15 ≤ x.floorStep) ∨ (x.rising = false ∧ x.floorStep = 1) → (t.gal g).floorStep = 0 ∧ (t.gal g).rising = false ∧
        (t.gal g).idleAt = t.now) ∧
      (x.rising = true → t.paddleEnergy = s.paddleEnergy) := by
  have hnow := atStep_now s g
  by_cases hr : (s.gal g).rising = true
  · by_cases h15 : 15 ≤ (s.gal g).floorStep
    · refine ⟨_, exec_paddleStep_end h0 hr h15, hnow, ⟨rfl, rfl, rfl, rfl⟩, fun _ h => absurd h15 (by omega), fun h => absurd h (by simp [hr]),
        fun _ => endPaddle_ends (s := s.atStep g) hg g, fun _ => rfl⟩
    · refine ⟨_, exec_paddleStep_rise h0 hr h15, hnow, ⟨rfl, rfl, rfl, rfl⟩, fun _ _ => ?_, fun h => absurd h (by simp [hr]),
        fun h => absurd h (by simp [hr, h15]), fun _ => rfl⟩
      unfold State.setLimit
      rw [gal_setGal (setGal_keeps_rising (s := (s.atStep g).chooseLimit.1) hg g _), gal_setGal (s := (s.atStep g).chooseLimit.1) hg]
      exact ⟨rfl, hr⟩
  · rw [Bool.not_eq_true] at hr
    let u := ((s.atStep g).pick (2 ^ 16)).1.burn g ((s.atStep g).pick (2 ^ 16)).2
    obtain ⟨hwork, hgals, hsame⟩ := burn_keeps ((s.atStep g).pick (2 ^ 16)).1 g ((s.atStep g).pick (2 ^ 16)).2
    have hgu : rising u.gals := hgals ▸ hg
    have hnow' : (s.gal g).stepAt + 1000 * s.paddleUs / 16 ≤ u.now := hsame ▸ hnow
    by_cases h1 : (s.gal g).floorStep = 1
    · exact ⟨_, exec_paddleStep_last hr h1, hnow', hwork, fun h => absurd h (by simp [hr]), fun _ h => absurd h1 h,
        fun _ => endPaddle_ends hgu g, fun h => absurd h (by simp [hr])⟩
    · exact ⟨_, exec_paddleStep_fall h0 hr h1, hnow', hwork, fun h => absurd h (by simp [hr]), fun _ _ => gal_setGal hgu g _,
        fun h => absurd h (by simp [hr, h1]), fun h => absurd h (by simp [hr])⟩

/-! ### Sleep -/

theorem traceEvent_gals (s : State) (b pair ev : Nat) (payload : List Byte) :
    (s.traceEvent b pair ev payload).gals = s.gals ∧ s.now ≤ (s.traceEvent b pair ev payload).now := by
  simp only [State.traceEvent]
  split
  · exact ⟨rfl, Nat.le_add_right _ _⟩
  · exact ⟨rfl, le_refl _⟩

theorem unseen_work (h : t.unseen = s.unseen) : s.SameWork t :=
  ⟨(congrArg State.ctxs h :), (congrArg State.cores h :), (congrArg State.hbm h :), (congrArg State.parts h :)⟩

theorem galState_changes (hg : rising s.gals) (g st : Nat) :
    (s.galState g st).gal g = { s.gal g with st } ∧ rising (s.galState g st).gals ∧ s.now ≤ (s.galState g st).now ∧ s.SameWork (s.galState g st) := by
  unfold State.galState
  obtain ⟨hgals, hnow⟩ := traceEvent_gals (s.setGal g { s.gal g with st }) (1000 + g) 0 7 (toBytes 1 (s.gal g).st ++ toBytes 1 st)
  refine ⟨?_, ?_, hnow, unseen_work (traceEvent_unseen (s.setGal g { s.gal g with st }) _ _ _ _)⟩
  · exact (congrArg (fun m => mget ({} : GalPower) m g) hgals).trans (gal_setGal hg g _)
  · exact hgals ▸ setGal_keeps_rising hg g _

theorem clockGateEntry_gates (hg : rising s.gals) (hst : (s.gal g).st = 3) (hidle : s.galIdle g = true) :
    ∃ t, exec (.clockGateEntry g) s = .next t ∧ s.SameWork t ∧ (s.gal g).idleAt + 1000 ≤ t.now ∧
      t.gal g = { s.gal g with st := 2, gatedAt := t.now } := by
  let u := (s.until ((s.gal g).idleAt + 1000)).galState g 2
  obtain ⟨hgal, hrise, hnow, hwork⟩ := galState_changes (s := s.until ((s.gal g).idleAt + 1000)) hg g 2
  refine ⟨u.setGal g { u.gal g with gatedAt := u.now }, ?_, hwork, (Nat.le_max_right _ _).trans hnow, ?_⟩
  · change execClockGateEntry g s = _
    simp only [execClockGateEntry]
    rw [if_neg (by simp [hst, hidle])]
  · rw [gal_setGal hrise, hgal]
    rfl

theorem retentionEntry_retains {q : Nat} (hg : rising s.gals) (hq : s.partOfGallery g = some q) (hst : (s.gal g).st = 2)
    (hus : s.capSet 6 q 1000 ≠ 0) :
    ∃ t, exec (.retentionEntry g) s = .next t ∧ s.SameWork t ∧ (s.gal g).gatedAt + 1000 * s.capSet 6 q 1000 ≤ t.now ∧
      t.gal g = { s.gal g with st := 1 } := by
  obtain ⟨hgal, -, hnow, hwork⟩ := galState_changes (s := s.until ((s.gal g).gatedAt + 1000 * s.retentionUs q)) hg g 1
  refine ⟨(s.until ((s.gal g).gatedAt + 1000 * s.retentionUs q)).galState g 1, ?_, hwork, (Nat.le_max_right _ _).trans hnow, hgal⟩
  change execRetentionEntry g s = _
  simp only [execRetentionEntry, hq]
  rw [if_neg (by simp [hst, State.retentionUs, hus])]

theorem galleryWake_wakes (hg : rising s.gals) (hst : (s.gal g).st = 1 ∨ (s.gal g).st = 2) :
    ∃ t, exec (.galleryWake g) s = .next t ∧ s.SameWork t ∧ t.gal g = { s.gal g with st := 3, idleAt := t.now } := by
  obtain ⟨hgal, hrise, -, hwork⟩ := galState_changes hg g 3
  refine ⟨(s.galState g 3).setGal g { (s.galState g 3).gal g with idleAt := (s.galState g 3).now }, ?_, hwork, ?_⟩
  · change execGalleryWake g s = _
    have hwake : s.wakeGal g = s.galState g 3 := if_pos hst
    simp only [execGalleryWake, hwake]
    rw [if_neg (by simp [hgal])]
  · rw [gal_setGal hrise, hgal]
    rfl

theorem exec_muSleep (hup : s.mitorUp = true) (htaken : s.taken = []) (hwriting : s.writing = none)
    (hmbx : ∀ e ∈ s.mailboxes, e.2.post = true → e.2.owner = true ∨ e.2.respPost = true) : exec .muSleep s = .next { s with muAsleep := true } := by
  have hnone : s.mailboxes.any (fun e => e.2.post && !e.2.owner && !e.2.respPost) = false := by
    rw [List.any_eq_false]
    intro e he
    cases hpost : e.2.post with
    | false => simp
    | true => rcases hmbx e he hpost with h | h <;> simp [h]
  change execMuSleep s = _
  rw [execMuSleep, if_neg (by simp [hup, htaken, hwriting, hnone])]

theorem exec_stackPowerDown (k : Nat) :
    ((s.stack k).power = 3 → exec (.stackPowerDown k) s =
      .next ((s.until ((s.stack k).lastUse + 1000)).setStack k { s.stack k with power := 2 })) ∧
    ((s.stack k).power = 2 → exec (.stackPowerDown k) s =
      .next ((s.until ((s.stack k).lastUse + 1000000)).setStack k { s.stack k with power := 1 })) := by
  refine ⟨fun h => ?_, fun h => ?_⟩
  · change execStackPowerDown k s = _
    simp only [execStackPowerDown]
    rw [if_pos h]
  · change execStackPowerDown k s = _
    simp only [execStackPowerDown]
    rw [if_neg (by omega), if_pos h]

theorem exec_uncoreIdleEntry {die : Nat} (hdie : die < 4)
    (hpow : s.dieGals die ≠ [] ∨ (s.stack (2 * die)).power ≠ 0 ∨ (s.stack (2 * die + 1)).power ≠ 0) :
    exec (.uncoreIdleEntry die) s = .next { s with uncoreIdle := sinsert s.uncoreIdle die } := by
  have hpowered : s.diePowered die = true := by
    simpa [State.diePowered, or_assoc] using hpow
  change execUncoreIdleEntry die s = _
  rw [execUncoreIdleEntry, if_neg (by simp [hpowered, hdie])]

theorem exec_droopStretch (hst : (s.gal g).st ≠ 0) (low : Bool) :
    exec (.droopStretch g low) s = .next { s with stretched := if low then sinsert s.stretched g else sremove s.stretched g } := by
  change execDroopStretch g low s = _
  rw [execDroopStretch, if_neg hst]

theorem exec_throttleReleaseStep_rail {rail : Nat} (hr : 4 ≤ rail) :
    exec (.throttleReleaseStep rail) s = .next { s with railSteps := mset 0 s.railSteps rail (mget 0 s.railSteps rail - 1) } := by
  change execThrottleReleaseStep rail s = _
  rw [execThrottleReleaseStep, if_neg (by omega)]

theorem exec_throttleReleaseStep_core {rail : Nat} (hr : rail < 4) :
    exec (.throttleReleaseStep rail) s = .next ((s.dieGals rail).foldl State.releaseOne s) := by
  change execThrottleReleaseStep rail s = _
  rw [execThrottleReleaseStep, if_pos hr]
  rfl

theorem overCap_iff (cap floorMem d1 : Nat) : overCap cap floorMem d1 = true ↔ cap - cap / 50 < d1 + floorMem + 450 := by
  simp [overCap]

/-- Settles O49: a limit changes the settings of its gallery alone, an allocation gives each powered gallery one turn, and the commands of
sleep change the one record that they name. -/
theorem powerCommands : Obligations.PowerCommands := by
  unfold Obligations.PowerCommands
  intro s hs
  have hf : rising s.funcs := hs.tables.funcs
  have hg : rising s.gals := hs.tables.gals
  intro told held work
  refine ⟨fun rail => ⟨?_, ?_, ?_, exec_throttleReleaseStep_rail, ?_⟩, fun g hst => ⟨exec_droopStretch hst true, exec_droopStretch hst false⟩, ?_,
    fun g h0 => paddleStep_steps hg h0, fun g hst hidle => clockGateEntry_gates hg hst hidle,
    fun g q hq hst hus => retentionEntry_retains hg hq hst hus, fun g hst => galleryWake_wakes hg hst, exec_muSleep, rfl,
    exec_stackPowerDown, fun die hdie hpow => exec_uncoreIdleEntry hdie hpow⟩
  · intro hr
    obtain ⟨t, hexec, htold, hlim, hheld⟩ := railThrottle_core hf hg hr
    refine ⟨t, hexec, htold, hlim.work, fun g hg' => ?_⟩
    obtain ⟨d, c, hd1, hd16, hc800, hc4000, hfloor, hrising, hlimits⟩ := hheld g hg'
    exact ⟨d, c, hd1, hd16, hc800, hc4000, hfloor, hrising, hlimits⟩
  · intro hlo hhi
    obtain ⟨t, hexec, htold, htell⟩ := railThrottle_step hf (.inl ⟨hlo, hhi, rfl⟩)
    exact ⟨t, hexec, htold, htell.work, htell.gals, (congrArg State.railSteps htell.off :)⟩
  · intro hlo hhi
    obtain ⟨t, hexec, htold, htell⟩ := railThrottle_step hf (.inr ⟨hlo, hhi, rfl⟩)
    exact ⟨t, hexec, htold, htell.work, htell.gals, (congrArg State.railSteps htell.off :)⟩
  · intro hr
    have hlim : s.Limits _ := foldl_limits releaseOne_sets hf hg (s.dieGals rail)
    exact ⟨_, exec_throttleReleaseStep_core hr, hlim.work, fun g hg' d c hfind =>
      foldl_limits_at releaseOne_sets releaseOne_released hf hg (dieGals_nodup s rail) hg' d c hfind⟩
  · intro d1 d2 iin draws
    obtain ⟨t, v, hexec, hv, hat, hstep, hread, hwork, htight⟩ := powerAllocation_allocates hf hg d1 d2 iin draws
    refine ⟨t, hexec, hat ▸ hv.moment, hwork, hread ▸ hv.iin, hread ▸ hv.power, ?_⟩
    intro cap floorMem b1 avail
    obtain ⟨step, hlt, hmem⟩ := hv.step
    refine ⟨fun hle => ?_, fun hover => ?_⟩
    · intro b2
      have hb2 : s.allocMem d1 d2 = b2 := by
        have hfit : ¬ avail < d1 + floorMem + 450 := by
          have : d1 ≤ b1 := Nat.le_max_right _ _
          omega
        exact if_neg (fun h => hfit ((overCap_iff _ _ _).mp h))
      rw [hb2] at hmem
      refine ⟨fun h => ?_, fun h => ?_⟩
      · rw [hstep, hmem, if_neg (by omega)]
      · rw [hstep, hmem, if_pos h]
        omega
    · exact htight ((overCap_iff _ _ _).mpr hover)

end Sys2Proof.Machine
end

section
/-! Each atomic of one thread and each power command with its effect: the obligation `AtomicAndPowerEffects`. -/

namespace Sys2Proof.Machine

open Sys2Proof

variable {s t : State} {c : CrewId} {z : Issue} {op g : Nat}

/-- The crew behind an instruction with results holds them as outstanding (R79, R111). -/
theorem after_outs {clock flags : Nat} {ws : List RegWrite} {load : Bool} {w : RegWrite} (hw : w ∈ ws) :
    ∃ o ∈ (z.after clock ws flags load).outs, w ∈ o.writes := by
  refine ⟨{ seq := z.x.seq, writes := ws, load, due := clock + z.i.latency z.x.width }, ?_, hw⟩
  have hne : ws ≠ [] := List.ne_nil_of_mem hw
  simp [Issue.after, hne]

/-- An atomic of a single thread on a word of the crew's own scratch (R129). -/
theorem atomic_of_one {th sa : Nat} (h : s.Ready c z 9 op) (hop : op ≤ 9) (hth : z.threads = [th])
    (hplace : placeOf z.i.space (z.ea th) = .scratch sa) (halign : z.ea th % 2 ^ z.i.size = 0) (hbase : z.x.scratchBase ≤ sa)
    (hend : sa + 2 ^ z.i.size ≤ z.x.scratchBase + z.x.scratchSize) (hbanks : (s.core z.core).seq.banks = [])
    (hpoison : (s.core z.core).scratchPoison = []) (hsoft : (s.core z.core).scratchSoft = []) (hheld : s.dropHeld (.crew z.core z.key) = s)
    (hturn : bit z.options 2 = false) :
    ∃ y, (s.thread c 9 op).crew z.core z.key = some y ∧ y.path = some (z.next, z.mask) ∧
      (∀ w ∈ vWrites th z.i.d (sizeRegs z.i.size) (ofBytes ((List.range (2 ^ z.i.size)).map (fun j => mget 0 (s.core z.core).scratch ((sa + j) % 0x80000)))),
        ∃ o ∈ y.outs, w ∈ o.writes) ∧ (s.thread c 9 op).offCores = s.offCores ∧
      (∀ j, j ≠ z.core → (s.thread c 9 op).core j = s.core j) ∧
      (((s.thread c 9 op).core z.core).scratch = (s.core z.core).scratch ∨
        ∃ v, ((s.thread c 9 op).core z.core).scratch = writeBytes (s.core z.core).scratch sa (toBytes (2 ^ z.i.size) v)) := by
  have hown : z.OwnScratch (s.core z.core) (fun _ => sa) z.threads := fun x hx => by
    rw [hth, List.mem_singleton] at hx
    subst hx
    exact ⟨hplace, halign, hbase, hend, by simp [hbanks]⟩
  obtain ⟨hoff, hcore, hothers⟩ := atomic_scratch_leaves h hop hown (by simp [hth]) hpoison hsoft hheld (by simp [hturn]) rfl
  rw [hth] at hcore
  have hcrew : (s.thread c 9 op).crew z.core z.key = some (z.after (s.core z.core).clock
      (z.takeWord (fun _ => sa) (atomicOp op (2 ^ z.i.size) z.i.sgnM) ((s.core z.core).scratch, []) th).2 0 true) := by
    rw [State.crew, hcore]
    exact mfind_minsert_same _ _ _
  refine ⟨_, hcrew, rfl, fun w hw => after_outs ?_, hoff, hothers, ?_⟩
  · exact List.mem_append_right _ hw
  · rw [hcore]
    simp only [List.foldl_cons, List.foldl_nil, Issue.takeWord]
    split
    · exact .inr ⟨_, rfl⟩
    · exact .inl rfl

theorem mem_sinsert_self (l : List Nat) (x : Nat) : x ∈ sinsert l x := by
  induction l with
  | nil => simp [sinsert]
  | cons y ys ih =>
    simp only [sinsert]
    split
    · simp
    split
    · simp [*]
    · exact List.mem_cons_of_mem _ ih

/-- Settles O59: an atomic of one thread takes the one word, and each power command has its effect. -/
theorem atomicAndPowerEffects : Obligations.AtomicAndPowerEffects := by
  unfold Obligations.AtomicAndPowerEffects
  intro s hs
  have hf : rising s.funcs := hs.tables.funcs
  have hg : rising s.gals := hs.tables.gals
  refine ⟨?_, ?_, fun rail hr => ⟨_, exec_throttleReleaseStep_rail hr, rfl, rfl⟩,
    fun g hst => ⟨_, exec_droopStretch hst true, mem_sinsert_self _ _, rfl⟩, ?_, ?_, ?_, ⟨_, rfl, rfl⟩, ?_, ?_⟩
  · intro c z th sa
    intro i k n old hth hplace halign hbase hend hbanks hpoison hsoft hheld hturn p hp hready
    have hops : p.2 ≤ 9 ∧ exec p.1 s = .next (s.thread c 9 p.2) := by
      revert p
      simp only [List.forall_mem_cons, List.not_mem_nil, false_imp_iff, implies_true, and_true]
      refine ⟨?_, ?_, ?_, ?_, ?_, ?_, ?_, ?_, ?_, ?_⟩
      all_goals exact fun _ => ⟨by decide, rfl⟩
    obtain ⟨hop, hexec⟩ := hops
    exact ⟨_, (atomic_of_one hready hop hth hplace halign hbase hend hbanks hpoison hsoft hheld hturn).imp fun y hy => ⟨hexec, hy⟩⟩
  · intro rail hlt hr
    by_cases hcore : rail < 4
    · obtain ⟨t, hexec, htold, hlim, -⟩ := railThrottle_core hf hg hcore
      exact ⟨t, hexec, htold, hlim.work.2.2.1⟩
    · obtain ⟨t, hexec, htold, htell⟩ := railThrottle_step hf (.inl ⟨by omega, hlt, rfl⟩)
      exact ⟨t, hexec, htold, htell.hbm⟩
  · intro d1 d2 iin draws
    obtain ⟨t, v, hexec, hv, hat, -, hread, ⟨-, -, hhbm, -⟩, -⟩ := powerAllocation_allocates hf hg d1 d2 iin draws
    exact ⟨t, hexec, hat ▸ hv.moment, hread ▸ hv.iin, hhbm⟩
  · intro g x
    refine ⟨fun hstep hfall => ?_, fun hst hidle => ?_, fun q hq hst hus => ?_, fun hst => ?_⟩
    · obtain ⟨t, hexec, -, -, -, hdown, -⟩ := paddleStep_steps hg (g := g) (Nat.ne_of_gt (Nat.lt_of_succ_lt hstep))
      exact ⟨t, hexec, by rw [hdown hfall (Nat.ne_of_gt hstep)]⟩
    · obtain ⟨t, hexec, -, hnow, hgal⟩ := clockGateEntry_gates hg hst hidle
      exact ⟨t, hexec, by rw [hgal], hnow⟩
    · obtain ⟨t, hexec, -, -, hgal⟩ := retentionEntry_retains hg hq hst hus
      exact ⟨t, hexec, by rw [hgal]⟩
    · obtain ⟨t, hexec, -, hgal⟩ := galleryWake_wakes hg hst
      exact ⟨t, hexec, by rw [hgal]⟩
  · intro hup htaken hwriting hmbx
    exact ⟨_, exec_muSleep hup htaken hwriting (by simp [hmbx]), rfl⟩
  · intro k hk
    refine ⟨_, (exec_stackPowerDown k).1 hk, ?_⟩
    rw [show ((s.until ((s.stack k).lastUse + 1000)).setStack k { s.stack k with power := 2 }).stack k = { s.stack k with power := 2 } from
      mget_mset_same_of_rising _ _ _ hs.tables.hbmStacks]
  · intro die hdie hpow
    exact ⟨_, exec_uncoreIdleEntry hdie (.inr (.inl hpow)), mem_sinsert_self _ _, rfl⟩

end Sys2Proof.Machine
end

section
/-! Requests of Mitor: how a request in hand runs its command, how bytes and numbers spell each other, and how an answer is posted
(R353, R356, R455). -/

namespace Sys2Proof.Machine

open Sys2Proof

variable {s v : State} {path code : Nat} {t : Taken} {u : Sub}

/-! ### Bytes and numbers -/

@[simp] theorem length_toBytes (n v : Nat) : (toBytes n v).length = n := by
  induction n generalizing v with
  | zero => rfl
  | succ n ih => simp [toBytes, ih]

@[simp] theorem length_zeros (n : Nat) : (zeros n).length = n := by simp [zeros]

theorem ofBytes_toBytes (n v : Nat) : ofBytes (toBytes n v) = v % 256 ^ n := by
  induction n generalizing v with
  | zero => simp [toBytes, ofBytes, Nat.mod_one]
  | succ n ih =>
    have hlow : (BitVec.ofNat 8 v).toNat = v % 256 := rfl
    rw [toBytes, ofBytes, ih, hlow, Nat.pow_succ', Nat.mod_mul]

/-- The number at an offset of bytes whose part from there on begins with the bytes of a number. -/
theorem field_of_drop {bs rest : List Byte} {off n v : Nat} (h : bs.drop off = toBytes n v ++ rest) : field bs off n = v % 256 ^ n := by
  rw [field, h, List.take_append_of_le_length (by simp), List.take_of_length_le (by simp), ofBytes_toBytes]

/-! ### A request in hand -/

theorem command_of_inHand (h : s.InHand path code t u) (f : Taken → Sub → State) : s.command path code f = f t u := by
  obtain ⟨htaken, hcur, hcode, hstage, hprep⟩ := h
  simp only [State.command, htaken, hcur]
  rw [if_pos ⟨hcode, hstage⟩, hprep, Bool.false_and, if_neg (by decide)]

/-! ### Messages that are taken -/

theorem mfind_setTaken (s : State) (path : Nat) (t : Taken) : mfind (s.setTaken path t).taken path = some t := mfind_minsert_same _ _ _

theorem goOn_of_idle (h : mfind s.taken path = some t) (hcur : t.cur = none) : s.goOn path = s.nextSubs path t.rest := by
  rw [State.goOn, h]
  simp only [hcur, Option.isSome_none, Bool.false_eq_true, if_false]

/-- The state with the message of a path taken out. -/
def State.untaken (s : State) (path : Nat) : State := { s with taken := merase s.taken path }

/-- A message of which nothing is left to do is answered. -/
theorem goOn_of_last (h : mfind s.taken path = some t) (hcur : t.cur = none) (hrest : t.rest = []) (hbatch : t.batch = false) :
    s.goOn path = (s.untaken path).post path t.via t.discard t.done.flatten := by
  rw [goOn_of_idle h hcur, hrest, State.nextSubs, State.deliverTaken, h]
  simp only [hbatch, Bool.false_eq_true, if_false]
  rfl

/-- A message with one more response in it. -/
def Taken.answered (t : Taken) (status : Nat) (r : List Byte) : Taken :=
  { t with done := t.done ++ [r], cur := none, failed := t.failed || decide (status ≠ 0) }

theorem addResponse_of (h : mfind s.taken path = some t) (status : Nat) (r : List Byte) :
    s.addResponse path status r = s.setTaken path (t.answered status r) := by
  rw [State.addResponse, h]
  rfl

/-! ### The response window -/

/-- The bytes of a message in the window from a position on. -/
theorem mget_writeAll (msg : List Byte) (m : Map Byte) (k i : Nat) (h : rising m) :
    rising (State.post.writeAll m k msg) ∧ mget 0 (State.post.writeAll m k msg) i =
      if k ≤ i ∧ i < k + msg.length then msg.getD (i - k) 0 else mget 0 m i := by
  induction msg generalizing m k with
  | nil =>
    refine ⟨h, ?_⟩
    rw [if_neg (by simp)]
    rfl
  | cons b bs ih =>
    obtain ⟨hrise, hget⟩ := ih (mset 0 m k b) (k + 1) (rising_mset 0 k b h)
    refine ⟨hrise, ?_⟩
    rw [State.post.writeAll, hget, List.length_cons]
    by_cases hik : i = k
    · subst hik
      rw [if_neg (by omega), if_pos (by omega), mget_mset_same_of_rising _ _ _ h]
      simp
    · rw [mget_mset_other_of_rising _ _ hik h]
      by_cases hin : k + 1 ≤ i ∧ i < k + 1 + bs.length
      · rw [if_pos hin, if_pos (by omega), show i - k = i - (k + 1) + 1 by omega, List.getD_cons_succ]
      · rw [if_neg hin, if_neg (by omega)]

theorem areaBytes_writeAll (msg : List Byte) : areaBytes (State.post.writeAll [] 0 msg) msg.length = msg := by
  refine List.ext_getElem (by simp [areaBytes]) fun i hi hi' => ?_
  simp only [areaBytes, List.getElem_map, List.getElem_range]
  rw [(mget_writeAll msg [] 0 i List.Pairwise.nil).2, if_pos (by omega), Nat.sub_zero, List.getD_eq_getElem _ _ hi']

/-- The function whose cause tells of a response (Table 13-4). -/
def answerFn (path : Nat) : Nat := if path ≤ 8 then path else 0

/-- The pair of a mailbox with a response in its window (R353). -/
def Mailbox.answered (m : Mailbox) (msg : List Byte) : Mailbox :=
  { m with respArea := State.post.writeAll [] 0 msg, respLen := msg.length, respPost := true, owner := false }

theorem post_posts (hf : rising s.funcs) (hm : rising s.mailboxes) (via : Nat) (msg : List Byte) (hpath : path ≤ 10) :
    (s.post path via false msg).mbox path = (s.mbox path).answered msg ∧
      bit ((s.post path via false msg).func (answerFn path)).mbx (mboxBit path) = true := by
  have hpost : s.post path via false msg =
      (s.setMbox path ((s.mbox path).answered msg)).raise (answerFn path) (.mailbox (mboxBit path)) := by
    rw [State.post, if_neg (by omega), if_neg (by decide)]
    rfl
  have htell := (State.Tells.refl (s := s.setMbox path ((s.mbox path).answered msg)) hf).raise (answerFn path) (.mailbox (mboxBit path))
  rw [hpost]
  refine ⟨?_, ?_⟩
  · have hboxes : ((s.setMbox path ((s.mbox path).answered msg)).raise (answerFn path) (.mailbox (mboxBit path))).mailboxes =
        (s.setMbox path ((s.mbox path).answered msg)).mailboxes := (congrArg State.mailboxes htell.off :)
    exact (congrArg (fun m => mget ({} : Mailbox) m path) hboxes).trans (mget_mset_same_of_rising _ _ _ hm)
  · have hr := (raise_rings_raised (s := s.setMbox path ((s.mbox path).answered msg)) hf (answerFn path) (.mailbox (mboxBit path))).func (answerFn path)
    rw [func_setFunc_same_of_rising (s := s.setMbox path ((s.mbox path).answered msg)) _ _ hf] at hr
    have hmbx : (((s.setMbox path ((s.mbox path).answered msg)).raise (answerFn path) (.mailbox (mboxBit path))).func (answerFn path)).mbx =
        setBit (s.func (answerFn path)).mbx (mboxBit path) true := (congrArg Func.mbx hr :)
    rw [hmbx, bit_setBit_same]

/-! ### The answer of a single request -/

theorem auditEnd_off (s : State) (seq : Option Nat) (status : Nat) : { s.auditEnd seq status with audit := [] } = { s with audit := [] } := by
  unfold State.auditEnd
  split
  · rfl
  split <;> rfl

/-- The message of a request that came alone is answered with it. -/
theorem reply_of_single (htaken : mfind s.taken path = some t) (hcur : t.cur = some u) (hrest : t.rest = []) (hdone : t.done = [])
    (hbatch : t.batch = false) (status detail : Nat) (fields : List (List Byte)) :
    s.reply path status detail fields =
      let r := answerBytes u.gen u.code u.tag status detail fields
      (((s.auditEnd u.audit status).setTaken path (t.answered status r)).untaken path).post path t.via t.discard r := by
  have haudit : mfind (s.auditEnd u.audit status).taken path = some t := by
    have hsame : (s.auditEnd u.audit status).taken = s.taken := (congrArg State.taken (auditEnd_off s u.audit status) :)
    rw [hsame, htaken]
  simp only [State.reply, htaken, Option.bind_some, hcur]
  rw [addResponse_of haudit, goOn_of_last (t := t.answered status _) (mfind_setTaken _ _ _) rfl hrest hbatch]
  simp [Taken.answered, hdone]

/-- The answer to a request that came alone stands in the response window of its pair (R353). -/
theorem reply_posts (hf : rising s.funcs) (hm : rising s.mailboxes) (htaken : mfind s.taken path = some t) (hcur : t.cur = some u)
    (hrest : t.rest = []) (hdone : t.done = []) (hbatch : t.batch = false) (hkeep : t.discard = false) (hpath : path ≤ 10)
    (status detail : Nat) (fields : List (List Byte)) :
    (s.reply path status detail fields).mbox path = (s.mbox path).answered (answerBytes u.gen u.code u.tag status detail fields) ∧
      bit ((s.reply path status detail fields).func (answerFn path)).mbx (mboxBit path) = true := by
  let r := answerBytes u.gen u.code u.tag status detail fields
  let v := ((s.auditEnd u.audit status).setTaken path (t.answered status r)).untaken path
  have hoff := auditEnd_off s u.audit status
  have hfuncs : v.funcs = s.funcs := (congrArg State.funcs hoff :)
  have hboxes : v.mailboxes = s.mailboxes := (congrArg State.mailboxes hoff :)
  have hbox : v.mbox path = s.mbox path := congrArg (fun m => mget ({} : Mailbox) m path) hboxes
  rw [reply_of_single htaken hcur hrest hdone hbatch, hkeep]
  obtain ⟨hmbox, hbit⟩ := post_posts (s := v) (hfuncs ▸ hf) (hboxes ▸ hm) t.via r hpath
  exact ⟨by rw [← hbox]; exact hmbox, hbit⟩

end Sys2Proof.Machine
end

section
/-! Taking requests, and the commands that tell of the module: the obligation `InformationCommands`. -/

namespace Sys2Proof.Machine

open Sys2Proof

variable {s v : State} {path code : Nat} {t : Taken} {u : Sub} {b : List Byte}

/-! ### A request of `INFO` without fields and without a key -/

/-- A Mitor-2 message that holds the request `INFO` alone. -/
structure PlainInfo (b : List Byte) : Prop where
  length : b.length = 8
  gen : field b 0 1 = 2
  flags : field b 1 1 = 0
  size : field b 2 2 = 8
  code : field b 4 2 = 1

/-- The request that a plain `INFO` makes. -/
def infoSub (b : List Byte) : Sub := { gen := 2, code := 1, tag := field b 6 2, bytes := b }

theorem check455_info (h : PlainInfo b) {role : Nat} (hrole : role = 1 ∨ role = 2 ∨ role = 3) (part : Option Nat) :
    s.check455 path role part 2 b false = .go (infoSub b) false := by
  have hdrop : b.drop 8 = [] := by simp [h.length]
  have hbits : 7 / 2 ^ (role - 1) % 2 = 1 := by rcases hrole with rfl | rfl | rfl <;> rfl
  simp [State.check455, h.code, h.flags, catalogue, hbits, hdrop, parseFields, bit, badField, commandFields, infoSub]

theorem accept_info (h : mfind s.taken path = some t) (b : List Byte) :
    s.accept path (infoSub b) = s.setTaken path { t with cur := some (infoSub b) } := by
  simp [State.accept, h, infoSub, audited, catalogue]

/-- A message of one request, taken and accepted. -/
def infoTaken (role : Nat) (part : Option Nat) (via : Nat) (b : List Byte) : Taken := { role, part, via, gen := 2, cur := some (infoSub b) }

theorem beginSub_info (h : PlainInfo b) (htaken : mfind s.taken path = some t) (hrole : t.role = 1 ∨ t.role = 2 ∨ t.role = 3) :
    s.beginSub path 2 b false = s.setTaken path { t with cur := some (infoSub b) } := by
  rw [State.beginSub, htaken]
  simp only [check455_info h hrole, accept_info htaken b]

theorem nextSubs_info (h : PlainInfo b) (htaken : mfind s.taken path = some t) (hrole : t.role = 1 ∨ t.role = 2 ∨ t.role = 3)
    (hbatch : t.batch = false) (hstop : t.stop = false) :
    s.nextSubs path [b] = (s.setTaken path { t with rest := [] }).setTaken path { t with rest := [], cur := some (infoSub b) } := by
  have hbegin := beginSub_info (s := s.setTaken path { t with rest := [] }) h (mfind_setTaken _ _ _) hrole
  have hkey : bit (field b 1 1) 0 = false := by
    rw [h.flags]
    rfl
  rw [State.nextSubs, htaken]
  dsimp only
  rw [if_neg (by simp [hstop]), if_neg (by simp [hkey]), if_neg (by simp [hbatch]), hbegin, mfind_setTaken]
  rfl

theorem setTaken_mailboxes (s : State) (path : Nat) (t : Taken) : (s.setTaken path t).mailboxes = s.mailboxes := rfl

theorem setTaken_funcs (s : State) (path : Nat) (t : Taken) : (s.setTaken path t).funcs = s.funcs := rfl

theorem untaken_mailboxes (s : State) (path : Nat) : (s.untaken path).mailboxes = s.mailboxes := rfl

theorem untaken_funcs (s : State) (path : Nat) : (s.untaken path).funcs = s.funcs := rfl

theorem setMbox_funcs (s : State) (path : Nat) (m : Mailbox) : (s.setMbox path m).funcs = s.funcs := rfl

theorem takeMessage_info (h : PlainInfo b) {role : Nat} (hrole : role = 1 ∨ role = 2 ∨ role = 3) (part : Option Nat) (via : Nat) :
    (s.takeMessage path role part via 8 b).mailboxes = s.mailboxes ∧
      mfind (s.takeMessage path role part via 8 b).taken path = some (infoTaken role part via b) := by
  let t0 : Taken := { role, part, via, gen := 2 }
  let s1 := (s.setTaken path t0).setTaken path { t0 with rest := [b] }
  have hform : s.takeMessage path role part via 8 b = s1.goOn path := by
    simp [State.takeMessage, h.gen, h.size, h.flags, s1, t0]
  have hgo : s1.goOn path = s1.nextSubs path [b] := goOn_of_idle (t := { t0 with rest := [b] }) (mfind_setTaken _ _ _) rfl
  rw [hform, hgo, nextSubs_info (s := s1) (t := { t0 with rest := [b] }) h (mfind_setTaken _ _ _) hrole rfl rfl]
  exact ⟨by simp only [setTaken_mailboxes, s1], mfind_setTaken _ _ (infoTaken role part via b)⟩

/-! ### A message of a generation that is not there -/

theorem takeMessage_other {role posted : Nat} {part : Option Nat} {via : Nat} (hgen : field b 0 1 = 0 ∨ 3 < field b 0 1) (h8 : 8 ≤ posted)
    (hmax : posted ≤ 3840) :
    ∃ w : Taken, w.discard = false ∧ ∃ r : List Byte, r.length = 20 ∧
      s.takeMessage path role part via posted b = (((s.setTaken path { role, part, via, gen := field b 0 1 }).setTaken path w).untaken path).post path via false r := by
  let t0 : Taken := { role, part, via, gen := field b 0 1 }
  let r := answerBytes 2 (heldField b 4 2) (heldField b 6 2) 9 0 []
  have hlen : r.length = 20 := by
    simp [r, answerBytes, responseBytes, fieldBytes]
  refine ⟨t0.answered 9 r, rfl, r, hlen, ?_⟩
  have htake : s.takeMessage path role part via posted b = ((s.setTaken path t0).addResponse path 9 r).goOn path := by
    simp only [State.takeMessage]
    rw [if_neg (by omega), if_neg (by omega), if_neg (by omega), if_neg (by omega)]
  rw [htake, addResponse_of (mfind_setTaken _ _ _), goOn_of_last (t := t0.answered 9 r) (mfind_setTaken _ _ _) rfl rfl rfl]
  simp [Taken.answered, t0]

/-- The role and the partition that a pair gives its requests (R358). -/
def State.pairRole (s : State) (p : Nat) : Nat × Option Nat := if p ≤ 8 then (1, s.partOf p) else if p = 9 then (2, none) else (3, none)

/-- Mitor serves mailboxes and the sideband (R353, R355). -/
theorem mitorServes_of (h : s.mitorUp = true ∧ s.musLost = false ∧ s.muAsleep = false ∧ s.supply ≠ 0) : s.mitorServes = true := by
  obtain ⟨hup, hmus, hsleep, hsupply⟩ := h
  simp [State.mitorServes, hup, hmus, hsleep, hsupply]

/-- A request that is posted, where no key of its own is in use. -/
theorem exec_requestTake (hp : path ≤ 10) (hserves : s.mitorServes = true) (hfree : mfind s.taken path = none) (hready : s.mitorReady = true)
    (hpost : (s.mbox path).post = true) (howner : (s.mbox path).owner = false) (hresp : (s.mbox path).respPost = false)
    (hb : areaBytes (s.mbox path).area (min (s.mbox path).len 3840) = b) (hkey : field b 0 1 ≠ 2 ∨ field b 1 1 = 0) :
    exec (.requestTake path) s = .next ((s.setMbox path { s.mbox path with post := false, owner := true }).takeMessage path
      (s.pairRole path).1 (s.pairRole path).2 0 (s.mbox path).len b) := by
  have hkeyed : (decide (field b 0 1 = 2) && bit (field b 1 1) 0) = false := by
    rcases hkey with h | h <;> simp [h, bit]
  change execRequestTake path s = _
  simp only [execRequestTake, hb, hkeyed, Bool.false_and, Bool.false_eq_true, if_false]
  rw [if_neg (by simp [hp, hserves, hready, hpost, howner, hresp, hfree])]
  rfl

/-! ### The sideband (R355) -/

/-- A Mitor message of the sideband, with its path byte. -/
def sideBody (via : Nat) (b : List Byte) : MctpMessage := { typ := 0x7E, body := vendorBytes ++ toBytes 1 via ++ b }

theorem length_vendorBytes : vendorBytes.length = 2 := by simp [vendorBytes]

theorem sideBody_parts {via : Nat} (hvia : via < 256) (b : List Byte) :
    (sideBody via b).body.take 2 = vendorBytes ∧ (sideBody via b).body.length = 3 + b.length ∧ field (sideBody via b).body 2 1 = via ∧
      (sideBody via b).body.drop 3 = b := by
  have hlen := length_vendorBytes
  refine ⟨?_, ?_, ?_, ?_⟩
  · simp [sideBody, hlen]
  · simp [sideBody, hlen]
    omega
  · rw [field_of_drop (rest := b) (v := via) (by simp [sideBody, hlen]), Nat.pow_one, Nat.mod_eq_of_lt hvia]
  · simp [sideBody, hlen, List.drop_append]

theorem exec_sidebandMessage {bus : Option Nat} {ep via : Nat} (hserves : s.mitorServes = true) (hawake : s.muAsleep = false)
    (hbus : bus = none ∨ bus = some s.conf.sideAddr) (hvia : via < 256) (hlen : b.length ≤ 3840) :
    exec (.sidebandMessage bus ep (sideBody via b)) s = .next (s.sideRequest ep via b) := by
  obtain ⟨htake, hlength, hfield, hdrop⟩ := sideBody_parts hvia b
  have hs : ({ s with muAsleep := false } : State) = s := by
    rw [← hawake]
  have hbus' : ¬ (bus.isSome = true ∧ bus ≠ some s.conf.sideAddr) := by
    rcases hbus with rfl | rfl <;> simp
  change execSidebandMessage bus ep (sideBody via b) s = _
  simp only [execSidebandMessage, hs]
  have hform : ¬ ((sideBody via b).typ ≠ 0x7E ∨ (sideBody via b).body.take 2 ≠ vendorBytes ∨ (sideBody via b).body.length < 3 ∨
      3843 < (sideBody via b).body.length) := by
    rw [htake, hlength]
    rintro (h | h | h | h)
    · exact h rfl
    · exact h rfl
    · omega
    · omega
  rw [if_neg (by rw [hserves]; simpa using hbus'), if_neg (show ¬ (sideBody via b).typ = 0 by simp [sideBody]), if_neg hform, hfield, hdrop]

theorem exec_sidebandMessage_elsewhere {ep via addr : Nat} (haddr : addr ≠ s.conf.sideAddr) :
    exec (.sidebandMessage (some addr) ep (sideBody via b)) s = .next s := by
  change execSidebandMessage (some addr) ep (sideBody via b) s = _
  simp only [execSidebandMessage]
  rw [if_pos (.inr ⟨rfl, by simpa using haddr⟩)]

theorem turnAway_busy {ep via : Nat} (hgen : field b 0 1 = 2) (hlen : 8 ≤ b.length) :
    s.turnAway ep via 2 b = s.emit (.sideband ep (sideMessage via (answerBytes 2 (field b 4 2) (field b 6 2) 2 0 []))) := by
  have h1 : 6 ≤ b.length := by omega
  have h2 : 8 ≤ b.length := hlen
  simp [State.turnAway, hgen, codeTag, heldField, h1, h2]

/-! ### What the module tells -/

theorem exec_info (h : s.InHand path 0x0001 t u) :
    exec (.info path) s = .next (s.reply path 0 0 [toBytes 2 0x0160, toBytes 1 0xB0, toBytes 2 0x4341, toBytes 8 Config.serial.toNat,
      toBytes 4 s.runningImage.2, toBytes 4 s.runningImage.1, toBytes 1 7, toBytes 1 (b2n s.seed.isSome), toBytes 1 t.role, toBytes 1 s.conf.slot]) :=
  congrArg (fun x => (.next x : Outcome)) (command_of_inHand h _)

/-- The partition whose readings a request sees; none for the installer's. -/
def Taken.viewer (t : Taken) : Option Nat := if t.role = 1 then some (t.part.getD 8) else none

/-- The filler's energy of the partitions as a request sees it (R392, R400). -/
def State.energyWords (s : State) (part : Option Nat) : List Byte :=
  (List.range 8).flatMap (fun q => toBytes 8 (if part.isNone || decide (part = some q) then mget 0 s.paddleEnergy q else 0))

theorem exec_sensorRead (h : s.InHand path 0x0002 t u) (hgen : u.gen ≠ 1) :
    exec (.sensorRead path) s = .next (s.reply path 0 0
      ((s.sensorWords t.viewer).map (fun ws => ws.flatMap (toBytes 4)) ++ [s.energyWords t.viewer])) := by
  refine congrArg (fun x => (.next x : Outcome)) ((command_of_inHand h _).trans ?_)
  exact if_neg hgen

/-- A list of words, each of the same number of bytes. -/
theorem drop_flatMap_words (f : Nat → List Byte) (k : Nat) (hf : ∀ i, (f i).length = k) {n q : Nat} (hq : q < n) :
    ∃ rest, ((List.range n).flatMap f).drop (k * q) = f q ++ rest := by
  obtain ⟨m, rfl⟩ : ∃ m, n = q + (m + 1) := ⟨n - q - 1, by omega⟩
  have hlen : ((List.range q).flatMap f).length = k * q := by
    simp [List.length_flatMap, hf, Nat.mul_comm]
  refine ⟨((List.range m).map (fun i => q + (i + 1))).flatMap f, ?_⟩
  rw [List.range_add, List.flatMap_append, List.drop_append_of_le_length (by omega), ← hlen, List.drop_length, List.nil_append,
    List.range_succ_eq_map, List.map_cons, List.flatMap_cons, Nat.add_zero, List.map_map]
  rfl

theorem energyWords_spec (s : State) (part : Option Nat) :
    (s.energyWords part).length = 64 ∧ ∀ q < 8, field (s.energyWords part) (8 * q) 8 =
      (if part.isNone || decide (part = some q) then mget 0 s.paddleEnergy q else 0) % 2 ^ 64 := by
  refine ⟨by simp [State.energyWords, List.length_flatMap], fun q hq => ?_⟩
  obtain ⟨rest, hrest⟩ := drop_flatMap_words
    (fun q => toBytes 8 (if part.isNone || decide (part = some q) then mget 0 s.paddleEnergy q else 0)) 8 (fun i => length_toBytes _ _) hq
  rw [show (2 : Nat) ^ 64 = 256 ^ 8 by norm_num]
  exact field_of_drop hrest

theorem exec_eventRead (h : s.InHand path 0x0003 t u) (hgen : u.gen ≠ 1) :
    exec (.eventRead path) s = .next (if u.num 1 = 0 ∨ 52 < u.num 1 then s.reply path 3 1 [] else
      let l := s.evlog (s.logFn t)
      (s.setEvlog (s.logFn t) { l with events := l.events.drop (u.num 1) }).reply path 0 0
        [toBytes 2 (l.events.take (u.num 1)).length, toBytes 4 (l.events.length - (l.events.take (u.num 1)).length), (l.events.take (u.num 1)).flatten]) := by
  refine congrArg (fun x => (.next x : Outcome)) ((command_of_inHand h _).trans ?_)
  simp only [hgen, if_false]

theorem exec_notifyRead (h : s.InHand path 0x0004 t u) :
    exec (.notifyRead path) s = .next (if u.num 1 = 0 ∨ 52 < u.num 1 then s.reply path 3 1 [] else
      let l := s.evlog (s.logFn t)
      (s.setEvlog (s.logFn t) { l with notes := l.notes.drop (u.num 1), dropped := 0 }).reply path 0 0
        [toBytes 2 (l.notes.take (u.num 1)).length, toBytes 4 l.dropped, (l.notes.take (u.num 1)).flatten]) :=
  congrArg (fun x => (.next x : Outcome)) (command_of_inHand h _)

/-! ### Counters -/

/-- The banks that a request of one word names. -/
theorem counterRead_banks (hlen : (u.bytesOf 1).length = 4) (hkind : field (u.bytesOf 1) 0 1 = 0) :
    (List.range ((u.bytesOf 1).length / 4)).map (fun i => (field (u.bytesOf 1) (4 * i) 1, field (u.bytesOf 1) (4 * i + 2) 2)) =
      [(0, field (u.bytesOf 1) 2 2)] := by
  simp [hlen, hkind]

theorem exec_counterRead_beyond (h : s.InHand path 0x0005 t u) (hlen : (u.bytesOf 1).length = 4) (hkind : field (u.bytesOf 1) 0 1 = 0)
    (hc : 160 ≤ field (u.bytesOf 1) 2 2) : exec (.counterRead path) s = .next (s.reply path 3 1 []) := by
  refine congrArg (fun x => (.next x : Outcome)) ((command_of_inHand h _).trans ?_)
  simp only [counterRead_banks hlen hkind]
  simp [State.bankStatus, hc]

theorem exec_counterRead_core (h : s.InHand path 0x0005 t u) (hgen : u.gen ≠ 1) (hlen : (u.bytesOf 1).length = 4)
    (hkind : field (u.bytesOf 1) 0 1 = 0) (hc : field (u.bytesOf 1) 2 2 < 160) (hrole : t.role ≠ 1) :
    let c := field (u.bytesOf 1) 2 2
    let v := s.sampleCore c
    let k := fun (i : Nat) => mget ({} : Counter) (v.coreBank c).ctrs i
    exec (.counterRead path) s = .next (v.reply path 0 0 [toBytes 1 0 ++ zeros 1 ++ toBytes 2 c ++
      (List.range 16).flatMap (fun i => toBytes 8 (k i).snapValue) ++ (List.range 16).flatMap (fun i => toBytes 8 (k i).snapTag)]) := by
  refine congrArg (fun x => (.next x : Outcome)) ((command_of_inHand h _).trans ?_)
  simp only [counterRead_banks hlen hkind]
  simp [State.bankStatus, Nat.not_le.2 hc, hrole, hgen, State.readBanks, State.readBank, List.flatMap_map]

/-! ### Attestation, keys, the audit log and the store -/

theorem exec_attest_none (h : s.InHand path 0x0006 t u) (hseed : s.seed = none) : exec (.attest path) s = .next (s.reply path 5 0 []) := by
  refine congrArg (fun x => (.next x : Outcome)) ((command_of_inHand h _).trans ?_)
  simp only [hseed]

/-- What a report is signed over (R379). -/
def State.attested (s : State) (nonce : List Byte) (part : Option Nat) : List Byte :=
  let qs := match part with | some q => [q] | none => s.fresh.1.liveParts
  toBytes 8 Config.serial.toNat ++ toBytes 1 0xB0 ++ toBytes 1 s.fresh.2.toNat ++ toBytes 2 0x4341 ++
    fit 64 (Config.sha512 Config.bootRom) ++ fit 64 (Config.fwDigest s.running) ++ toBytes 4 s.runningImage.1 ++
    fit 64 (Config.measure (storeNats s.conf)) ++ fit 64 (Config.measure (s.fresh.1.layoutNats qs)) ++ toBytes 1 (s.scopeMask % 4) ++ nonce ++ s.conf.chain

theorem attested_ends (s : State) (nonce : List Byte) (part : Option Nat) :
    (s.attested nonce part).take 9 = toBytes 8 Config.serial.toNat ++ toBytes 1 0xB0 ∧ nonce ++ s.conf.chain <:+ s.attested nonce part := by
  refine ⟨?_, ?_⟩
  · simp only [State.attested, List.append_assoc]
    rw [← List.append_assoc (toBytes 8 _) (toBytes 1 _), List.take_append_of_le_length (by simp), List.take_of_length_le (by simp)]
  · unfold State.attested
    rw [List.append_assoc _ nonce]
    exact List.suffix_append _ _

theorem exec_attest_some {seed : List Byte} (h : s.InHand path 0x0006 t u) (hgen : u.gen ≠ 1) (hseed : s.seed = some seed) :
    let signed := s.attested (u.bytesOf 1) (if t.role = 1 then t.part else none)
    exec (.attest path) s = .next (s.fresh.1.reply path 0 0 [signed ++ Config.ed25519Sign (identityKey seed) signed]) := by
  refine congrArg (fun x => (.next x : Outcome)) ((command_of_inHand h _).trans ?_)
  simp only [hseed, hgen, if_false]
  rfl

theorem exec_keyStatus (h : s.InHand path 0x0007 t u) :
    exec (.keyStatus path) s = .next (s.reply path 0 0 [((s.conf.keys.map (·.1)).filter (keyInReach t)).flatMap
      (fun k => toBytes 2 k ++ zeros 6 ++ toBytes 8 (mget 0 s.keyLast k + 1))]) :=
  congrArg (fun x => (.next x : Outcome)) (command_of_inHand h _)

/-- The entries of the audit log from a number onward, in their order. -/
def State.auditFrom (s : State) (n : Nat) : List (List Byte) :=
  sortBy (fun e => field e 0 8) ((s.audit.map (·.2)).filter (fun e => decide (n ≤ field e 0 8)))

/-- The number behind the last of the entries read. -/
def nextEntry (from' : Nat) (es : List (List Byte)) : Nat :=
  match es.getLast? with
  | some e => field e 0 8 + 1
  | none => from'

theorem exec_auditRead (h : s.InHand path 0x0904 t u) :
    exec (.auditRead path) s = .next (if u.num 2 = 0 ∨ 28 < u.num 2 then s.reply path 3 2 [] else
      let es := (s.auditFrom (u.num 1)).take (u.num 2)
      s.reply path 0 0 [toBytes 2 es.length, toBytes 8 (nextEntry (u.num 1) es), es.flatten]) :=
  congrArg (fun x => (.next x : Outcome)) (command_of_inHand h _)

theorem mem_insertBy {α : Type} {rank : α → Nat} {x y : α} {l : List α} : y ∈ insertBy rank x l ↔ y = x ∨ y ∈ l := by
  induction l with
  | nil => simp [insertBy]
  | cons z zs ih =>
    simp only [insertBy]
    split
    · simp
    · simp only [List.mem_cons, ih]
      tauto

theorem mem_sortBy {α : Type} {rank : α → Nat} {y : α} {l : List α} : y ∈ sortBy rank l ↔ y ∈ l := by
  induction l with
  | nil => rfl
  | cons x l ih => rw [sortBy, List.foldr_cons, mem_insertBy, ← sortBy, ih, List.mem_cons]

theorem mem_auditFrom {n : Nat} {e : List Byte} (h : e ∈ s.auditFrom n) : n ≤ field e 0 8 ∧ ∃ k, (k, e) ∈ s.audit := by
  rw [State.auditFrom, mem_sortBy, List.mem_filter, List.mem_map] at h
  obtain ⟨⟨x, hx, rfl⟩, hle⟩ := h
  exact ⟨by simpa using hle, x.1, hx⟩

theorem exec_storeStatus (h : s.InHand path 0x0905 t u) :
    exec (.storeStatus path) s = .next (s.reply path 0 0 [toBytes 1 s.curBank, toBytes 8 (s.bank s.curBank).seq,
      toBytes 1 (b2n (s.bank (1 - s.curBank)).valid), toBytes 8 (if (s.bank (1 - s.curBank)).valid then (s.bank (1 - s.curBank)).seq else 0),
      toBytes 8 s.auditNext]) :=
  congrArg (fun x => (.next x : Outcome)) (command_of_inHand h _)

/-! ### What each part of a request gives -/

theorem length_of_areaBytes_eight {m : Map Byte} {n : Nat} (h : (areaBytes m (min n 3840)).length = 8) : n = 8 := by
  rw [areaBytes, List.length_map, List.length_range] at h
  omega

theorem requestTake_info (hs : s.Sound) (hp : path ≤ 10) (hserves : s.mitorServes = true) (hfree : mfind s.taken path = none)
    (hready : s.mitorReady = true) (hpost : (s.mbox path).post = true) (howner : (s.mbox path).owner = false)
    (hresp : (s.mbox path).respPost = false) (hb : areaBytes (s.mbox path).area (min (s.mbox path).len 3840) = b) (hinfo : PlainInfo b) :
    ∃ v, exec (.requestTake path) s = .next v ∧ v.mbox path = { s.mbox path with post := false, owner := true } ∧
      mfind v.taken path = some (infoTaken (s.pairRole path).1 (s.pairRole path).2 0 b) := by
  have hlen : (s.mbox path).len = 8 := length_of_areaBytes_eight (hb ▸ hinfo.length)
  have hrole : (s.pairRole path).1 = 1 ∨ (s.pairRole path).1 = 2 ∨ (s.pairRole path).1 = 3 := by
    unfold State.pairRole
    split
    · exact .inl rfl
    split
    · exact .inr (.inl rfl)
    · exact .inr (.inr rfl)
  obtain ⟨hboxes, htaken⟩ := takeMessage_info (s := s.setMbox path { s.mbox path with post := false, owner := true }) (path := path) hinfo hrole
    (s.pairRole path).2 0
  refine ⟨_, exec_requestTake hp hserves hfree hready hpost howner hresp hb (.inr hinfo.flags), ?_, ?_⟩
  · rw [hlen, State.mbox, hboxes]
    exact mget_mset_same_of_rising _ _ _ hs.tables.mailboxes
  · rw [hlen]
    exact htaken

theorem requestTake_other (hs : s.Sound) (hp : path ≤ 10) (hserves : s.mitorServes = true) (hfree : mfind s.taken path = none)
    (hready : s.mitorReady = true) (hpost : (s.mbox path).post = true) (howner : (s.mbox path).owner = false)
    (hresp : (s.mbox path).respPost = false) (hb : areaBytes (s.mbox path).area (min (s.mbox path).len 3840) = b)
    (hgen : field b 0 1 = 0 ∨ 3 < field b 0 1) (h8 : 8 ≤ (s.mbox path).len) (hmax : (s.mbox path).len ≤ 3840) :
    ∃ v, exec (.requestTake path) s = .next v ∧ (v.mbox path).post = false ∧ (v.mbox path).owner = false ∧ (v.mbox path).respPost = true ∧
      (v.mbox path).respLen = 20 := by
  let s0 := s.setMbox path { s.mbox path with post := false, owner := true }
  obtain ⟨w, -, r, hr, htake⟩ := takeMessage_other (s := s0) (path := path) (role := (s.pairRole path).1) (part := (s.pairRole path).2) (via := 0)
    hgen h8 hmax
  let v0 := ((s0.setTaken path { role := (s.pairRole path).1, part := (s.pairRole path).2, via := 0, gen := field b 0 1 }).setTaken path w).untaken path
  have hbox : v0.mbox path = { s.mbox path with post := false, owner := true } := mget_mset_same_of_rising _ _ _ hs.tables.mailboxes
  have hfuncs : rising v0.funcs := by
    simp only [v0, s0, untaken_funcs, setTaken_funcs, setMbox_funcs, hs.tables.funcs]
  have hboxes : rising v0.mailboxes := by
    simp only [v0, s0, untaken_mailboxes, setTaken_mailboxes]
    exact rising_mset _ _ _ hs.tables.mailboxes
  obtain ⟨hmbox, -⟩ := post_posts hfuncs hboxes 0 r hp
  refine ⟨v0.post path 0 false r, ?_, ?_⟩
  · rw [exec_requestTake hp hserves hfree hready hpost howner hresp hb (.inl (by omega)), htake]
  · rw [hmbox, hbox]
    exact ⟨rfl, rfl, rfl, hr⟩

theorem sideRequest_info {ep : Nat} (hfree : mfind s.taken (16 + ep) = none) (hinfo : PlainInfo b) :
    mfind (s.sideRequest ep 1 b).taken (16 + ep) = some (infoTaken 2 none 1 b) := by
  simp only [State.sideRequest, hfree, Option.isSome_none, Bool.false_eq_true, if_false, if_true, hinfo.length]
  exact (takeMessage_info hinfo (.inr (.inl rfl)) none 1).2

theorem sideRequest_busy {ep via : Nat} (hbusy : mfind s.taken (16 + ep) ≠ none) (hgen : field b 0 1 = 2) (hlen : 8 ≤ b.length) :
    s.sideRequest ep via b = s.emit (.sideband ep (sideMessage via (answerBytes 2 (field b 4 2) (field b 6 2) 2 0 []))) := by
  rw [State.sideRequest, if_pos (Option.isSome_iff_ne_none.2 hbusy), turnAway_busy hgen hlen]

theorem sensorWords_spec (s : State) (t : Taken) :
    let words := (s.sensorWords t.viewer).map (fun ws => ws.flatMap (toBytes 4))
    words.length = 10 ∧ (t.role ≠ 1 → words.take 3 = [toBytes 4 s.readings.vin, toBytes 4 s.readings.iin, toBytes 4 s.readings.pin]) ∧
      (t.role = 1 → words.take 3 = [toBytes 4 0, toBytes 4 0, toBytes 4 0]) ∧
      words[5]? = some (toBytes 4 s.capW ++ toBytes 4 s.floorLinks ++ toBytes 4 s.floorMem) := by
  refine ⟨rfl, fun h => ?_, fun h => ?_, ?_⟩
  · simp [State.sensorWords, Taken.viewer, h]
  · simp [State.sensorWords, Taken.viewer, h]
  · simp [State.sensorWords]

theorem viewed_iff {q : Nat} (hq : q < 8) (t : Taken) :
    (t.viewer.isNone || decide (t.viewer = some q)) = true ↔ t.role ≠ 1 ∨ t.part = some q := by
  by_cases hrole : t.role = 1
  · cases hpart : t.part with
    | none =>
      simp [Taken.viewer, hrole, hpart]
      omega
    | some p => simp [Taken.viewer, hrole, hpart]
  · simp [Taken.viewer, hrole]

/-- Settles O35: a taken message starts its one request through `takeMessage_info`, an answer reaches its window through `reply_posts`,
and each command in hand answers what its own equation says. -/
theorem informationCommands : Obligations.InformationCommands := by
  unfold Obligations.InformationCommands
  intro s path t u hs gives turns serves plainInfo log
  have hplain : ∀ {b}, plainInfo b → PlainInfo b := fun ⟨hlen, hgen, hflags, hsize, hcode⟩ => ⟨hlen, hgen, hflags, hsize, hcode⟩
  refine ⟨?_, ?_, ?_, ?_, ?_, ?_, ?_, ?_, ?_, ?_, ?_, ?_⟩
  · intro p m hp hserves hfree hready hpost howner hresp b
    have hm := mitorServes_of hserves
    refine ⟨fun hinfo => ?_, fun hgen h8 hmax => requestTake_other hs hp hm hfree hready hpost howner hresp rfl hgen h8 hmax⟩
    obtain ⟨v, hexec, hbox, htaken⟩ := requestTake_info hs hp hm hfree hready hpost howner hresp rfl (hplain hinfo)
    refine ⟨v, _, _, hexec, hbox, htaken, rfl, rfl, rfl, rfl, ?_, fun hp8 => ?_⟩
    · simp only [infoTaken, State.pairRole]
      split
      · rfl
      split <;> rfl
    · simp only [infoTaken, State.pairRole, if_pos hp8]
  · intro bus ep via b hserves m
    have hm := mitorServes_of hserves
    refine ⟨fun hbus => ⟨fun hfree hvia hinfo => ?_, fun hbusy hvia hlen hmax hgen => ?_⟩, ?_⟩
    · subst hvia
      have hlen := (hplain hinfo).length
      exact ⟨_, _, _, exec_sidebandMessage hm hserves.2.2.1 hbus (by decide) (by omega), sideRequest_info hfree (hplain hinfo), rfl, rfl, rfl, rfl⟩
    · rw [← sideRequest_busy hbusy hgen hlen]
      exact exec_sidebandMessage hm hserves.2.2.1 hbus hvia hmax
    · rintro addr rfl haddr
      exact exec_sidebandMessage_elsewhere haddr
  · intro code status detail fs hin hrest hdone hbatch hkeep hpath v message
    obtain ⟨htaken, hcur, -⟩ := hin
    obtain ⟨hbox, hbit⟩ := reply_posts hs.tables.funcs hs.tables.mailboxes htaken hcur hrest hdone hbatch hkeep hpath status detail fs
    rw [show v.mbox path = _ from hbox]
    exact ⟨rfl, rfl, rfl, areaBytes_writeAll message, hbit⟩
  · exact exec_info
  · intro hin hgen mine
    obtain ⟨hlen, hinst, hop, hset⟩ := sensorWords_spec s t
    obtain ⟨helen, henergy⟩ := energyWords_spec s t.viewer
    refine ⟨_, _, exec_sensorRead hin hgen, hlen, helen, hinst, hop, hset, fun q hq => ⟨fun hmine => ?_, fun hmine => ?_⟩⟩
    · rw [henergy q hq, if_pos ((viewed_iff hq t).2 hmine)]
    · rw [henergy q hq, if_neg (fun h => hmine ((viewed_iff hq t).1 h))]
      rfl
  · intro hin hgen n
    refine ⟨fun h1 h52 => ?_, fun hout => ?_⟩
    · exact (exec_eventRead hin hgen).trans (congrArg (fun x => (.next x : Outcome)) (if_neg (show ¬ (n = 0 ∨ 52 < n) by omega)))
    · exact (exec_eventRead hin hgen).trans (congrArg (fun x => (.next x : Outcome)) (if_pos hout))
  · intro hin n
    refine ⟨fun h1 h52 => ?_, fun hout => ?_⟩
    · exact (exec_notifyRead hin).trans (congrArg (fun x => (.next x : Outcome)) (if_neg (show ¬ (n = 0 ∨ 52 < n) by omega)))
    · exact (exec_notifyRead hin).trans (congrArg (fun x => (.next x : Outcome)) (if_pos hout))
  · intro hin hgen hlen hkind c
    exact ⟨exec_counterRead_beyond hin hlen hkind, fun hc hrole => exec_counterRead_core hin hgen hlen hkind hc hrole⟩
  · intro hin
    refine ⟨exec_attest_none hin, fun seed hseed hgen => ?_⟩
    obtain ⟨hhead, htail⟩ := attested_ends s (u.bytesOf 1) (if t.role = 1 then t.part else none)
    exact ⟨_, _, exec_attest_some hin hgen hseed, rfl, rfl, hhead, htail⟩
  · exact exec_keyStatus
  · intro hin n
    refine ⟨fun h1 h28 => ?_, fun hout => ?_⟩
    · refine ⟨_, _, (exec_auditRead hin).trans (congrArg (fun x => (.next x : Outcome)) (if_neg (show ¬ (n = 0 ∨ 28 < n) by omega))), List.length_take_le _ _,
        fun e he => mem_auditFrom (List.mem_of_mem_take he), fun hnil => ?_, fun e he => ?_⟩
      · simp only [hnil, nextEntry, List.getLast?_nil]
      · simp only [he, nextEntry]
    · exact (exec_auditRead hin).trans (congrArg (fun x => (.next x : Outcome)) (if_pos hout))
  · exact exec_storeStatus

end Sys2Proof.Machine
end

section
/-! Keys, the maker's tokens and firmware: the obligation `SecurityCommands`. -/

namespace Sys2Proof.Machine

open Sys2Proof

variable {s v : State} {path code : Nat} {t : Taken} {u : Sub}

/-! ### A command in hand runs -/

/-- A command that only looks at the request in hand answers what its body gives. -/
theorem next_of_inHand (h : s.InHand path code t u) {f : Taken → Sub → State} (hf : f t u = v) :
    (.next (s.command path code f) : Outcome) = .next v :=
  congrArg (fun x => (.next x : Outcome)) ((command_of_inHand h f).trans hf)

theorem isNone_of_ne {α : Type} {x : Option α} (h : x ≠ none) : ¬ x.isNone = true := by
  cases x with
  | none => exact absurd rfl h
  | some _ => simp

/-! ### Keys -/

/-- The answer to an enrolment whose key passes every check but its unwrapping. -/
theorem exec_keyEnrol_unwraps {seed : List Byte} (h : s.InHand path 0x0801 t u) (hseed : s.seed = some seed) (hid : keyIdOk (u.num 1) = true)
    (hreach : keyInReach t (u.num 1) = true)
    (hroom : mfind s.conf.keys (u.num 1) ≠ none ∨
      (s.conf.keys.filter (fun e => decide (e.1 / 256 = u.num 1 / 256))).length < keyLimit (u.num 1 / 4096)) :
    let agree := Config.hkdf [] seed (textBytes "Exurso agreement v1") 32
    let wrap := (Config.hkdf [] (Config.x25519 agree (u.bytesOf 2)) (textBytes "Mitor key wrap v1") 32).take 32
    exec (.keyEnrol path) s = .next (match Config.gcmOpen wrap (u.bytesOf 3) [] (u.bytesOf 4) with
      | none => s.reply path 3 4 []
      | some key => State.replyStored { s with
          keyLast := merase s.keyLast (u.num 1)
          conf := { s.conf with keys := minsert (merase s.conf.keys (u.num 1)) (u.num 1) key, reserv := merase s.conf.reserv (u.num 1) } } path []) := by
  have hfull : ¬ ((mfind s.conf.keys (u.num 1)).isNone = true ∧
      keyLimit (u.num 1 / 4096) ≤ (s.conf.keys.filter (fun e => decide (e.1 / 256 = u.num 1 / 256))).length) := by
    rintro ⟨hnone, hle⟩
    rcases hroom with hheld | hlt
    · exact isNone_of_ne hheld hnone
    · omega
  intro agree wrap
  refine next_of_inHand h ?_
  dsimp only
  split
  case h_1 hnone => exact absurd (hseed.symm.trans hnone) (Option.some_ne_none seed)
  case h_2 seed' hsome =>
    obtain rfl : seed = seed' := Option.some.inj (hseed.symm.trans hsome)
    rw [if_neg (by simp [hid]), if_neg (by simp [hreach]), if_neg hfull]
    rfl

/-! ### The maker's tokens -/

/-- A token that the maker has signed. -/
theorem signed_iff (key : Option (List Byte)) (f : List Byte → Bool) :
    (match key with | some pk => f pk | none => false) = true ↔ ∃ pk, key = some pk ∧ f pk = true := by
  cases key <;> simp

/-- A token is allowed for an hour after the installer's leave. -/
theorem allowed_iff (leave : Option Nat) (now : Nat) :
    (match leave with | some t => decide (now ≤ t + hourNs) | none => false) = true ↔ ∃ t, leave = some t ∧ now ≤ t + 3600000000000 := by
  cases leave <;> simp [show hourNs = 3600000000000 from rfl]

/-! ### Firmware -/

/-- The bytes of a firmware slot after a chunk is written. -/
theorem mget_writeSlot (bs : List Byte) (m : Map Byte) (k i : Nat) (h : rising m) :
    mget 0xFF (execFwWrite.writeSlot m k bs) i = if k ≤ i ∧ i < k + bs.length then bs.getD (i - k) 0 else mget 0xFF m i := by
  induction bs generalizing m k with
  | nil =>
    rw [if_neg (by simp)]
    rfl
  | cons b bs ih =>
    rw [execFwWrite.writeSlot, ih _ _ (rising_mset _ k b h), List.length_cons]
    by_cases hik : i = k
    · subst hik
      rw [if_neg (by omega), if_pos (by omega), mget_mset_same_of_rising _ _ _ h]
      simp
    · rw [mget_mset_other_of_rising _ _ hik h]
      by_cases hin : k + 1 ≤ i ∧ i < k + 1 + bs.length
      · rw [if_pos hin, if_pos (by omega), show i - k = i - (k + 1) + 1 by omega, List.getD_cons_succ]
      · rw [if_neg hin, if_neg (by omega)]

theorem exec_fwWrite (h : s.InHand path 0x0901 t u) (hfits : u.num 1 + (u.bytesOf 2).length ≤ 2 ^ 25) (hidle : s.activation = none) :
    exec (.fwWrite path) s = .next (State.reply { s with
      fwSlots := minsert s.fwSlots (1 - s.conf.slot) (execFwWrite.writeSlot (mget [] s.fwSlots (1 - s.conf.slot)) (u.num 1) (u.bytesOf 2)) } path 0 0 []) := by
  refine next_of_inHand h ?_
  dsimp only
  rw [if_neg (by simp only [slotBytes]; omega), if_neg (by simp [hidle])]

/-- The state in which the standby unit boots the inactive slot (R377). -/
def State.activating (s : State) (path : Nat) : State :=
  State.await { s.sample.1 with activation := some { path, since := s.sample.2 } } path

theorem await_off (s : State) (path : Nat) : { s.await path with taken := [] } = { s with taken := [] } := by
  unfold State.await
  split
  · split <;> rfl
  · rfl

theorem exec_fwActivate (h : s.InHand path 0x0902 t u) (hidle : s.activation = none) :
    exec (.fwActivate path) s = .next (if s.slotBoots (1 - s.conf.slot) = false then s.reply path 3 0 []
      else if s.conf.repair.units ≠ [] then s.reply path 0x13 0 [] else s.activating path) := by
  refine next_of_inHand h ?_
  dsimp only
  rw [if_neg (by simp [hidle])]
  rfl

/-- Settles O42: each command in hand answers what its body gives once its checks are decided. -/
theorem securityCommands : Obligations.SecurityCommands := by
  unfold Obligations.SecurityCommands
  intro s path t u hs gives stores turns
  refine ⟨?_, ?_, ?_, ?_, ?_, ?_, ?_, ?_⟩
  · intro h k held
    refine ⟨fun hseed => next_of_inHand h ?_, fun seed hseed => ⟨fun hid => next_of_inHand h ?_, fun hid hreach => next_of_inHand h ?_,
      fun hid hreach hnew hfull => next_of_inHand h ?_, fun hid hreach hroom => exec_keyEnrol_unwraps h hseed hid hreach hroom⟩⟩
    · simp only [hseed]
    · simp only [hseed]
      rw [if_pos hid]
    · simp only [hseed]
      rw [if_neg (by simpa using hid), if_pos hreach]
    · simp only [hseed]
      rw [if_neg (by simpa using hid), if_neg (by simpa using hreach), if_pos ⟨by simpa using hnew, hfull⟩]
  · intro h k
    refine ⟨fun hreach hheld => next_of_inHand h ?_, fun hreach hnone => next_of_inHand h ?_, fun hreach => next_of_inHand h (if_pos hreach)⟩
    · dsimp only
      rw [if_neg (by simpa using hreach), if_neg (isNone_of_ne hheld)]
      rfl
    · dsimp only
      rw [if_neg (by simpa using hreach), if_pos (by simpa using hnone)]
  · intro h
    exact ⟨_, next_of_inHand h rfl, rfl, Nat.le_add_right _ _, rfl, rfl⟩
  · intro h token body seconds signed
    refine ⟨s.sample.1, Nat.le_add_right _ _, rfl, rfl, ?_⟩
    intro good
    have hsigned := signed_iff (Config.makerCertKey (body.drop 24)) (fun pk => Config.ed25519Verify pk body (token.drop (token.length - 64)))
    have hallowed := allowed_iff s.makerAllowed s.sample.1.now
    refine ⟨fun hbad => next_of_inHand h ?_, fun hgood => next_of_inHand h ?_⟩
    · refine if_pos ?_
      by_contra hno
      push Not at hno
      obtain ⟨hlen, hserial, hcounter, hseconds, hsig, hall⟩ := hno
      exact hbad ⟨hlen, hserial, hcounter, hseconds, hsigned.1 (Bool.of_not_eq_false hsig), hallowed.1 (Bool.of_not_eq_false hall)⟩
    · obtain ⟨hlen, hserial, hcounter, hseconds, hsig, hall⟩ := hgood
      refine if_neg ?_
      rintro (hl | hl | hl | hl | hl | hl)
      · exact absurd hlen (Nat.not_le.2 hl)
      · exact hl hserial
      · exact absurd hcounter (Nat.not_lt.2 hl)
      · exact absurd hseconds (Nat.not_le.2 hl)
      · exact Bool.false_ne_true (hl.symm.trans (hsigned.2 hsig))
      · exact Bool.false_ne_true (hl.symm.trans (hallowed.2 hall))
  · intro h
    exact ⟨fun hnone => next_of_inHand h (if_pos hnone), fun hsome => next_of_inHand h (if_neg hsome)⟩
  · intro h
    dsimp only
    refine ⟨fun hslot hrise hfits hidle => ⟨_, exec_fwWrite h hfits hidle, ?_, fun i => ?_⟩, fun hbig => next_of_inHand h (if_pos hbig)⟩
    · exact mget_minsert_other _ _ _ _ _ (by omega)
    · rw [mget_minsert_same]
      exact mget_writeSlot _ _ _ _ hrise
  · intro h
    refine ⟨fun hbusy => next_of_inHand h (if_pos (by simpa [Option.isSome_iff_ne_none] using hbusy)), fun hidle => ?_⟩
    have hoff : { s.activating path with taken := [] } = { ({ s.sample.1 with activation := some { path, since := s.sample.2 } } : State) with taken := [] } :=
      await_off _ _
    exact ⟨s.activating path, { path, since := s.sample.2 }, (congrArg State.activation hoff :), rfl, Nat.le_add_right _ _,
      (congrArg State.running hoff :), (congrArg State.conf hoff :), (congrArg State.activeMu hoff :), exec_fwActivate h hidle⟩
  · intro h v
    refine ⟨fun hlow => next_of_inHand h (if_pos (.inl hlow)), fun hle => next_of_inHand h ?_⟩
    have hv : ¬ u.num 1 < s.conf.floor := Nat.not_lt.2 hle
    dsimp only
    simp only [hv, false_or]
    rfl

end Sys2Proof.Machine
end

section
/-! Landings, send queues and windows as the operator makes them: the obligation `ResourceCommands`. -/

namespace Sys2Proof.Machine

open Sys2Proof

variable {s v : State} {path code n : Nat} {t : Taken} {u : Sub}

/-! ### Commands on a context -/

/-- A command on a context that its sender may reach runs on it. -/
theorem onCtx_of (h : s.OnCtx path code t u n) (f : Sub → Nat → State) : s.onCtx path code f = f u n := by
  obtain ⟨hin, rfl, hn, hstate, hown⟩ := h
  have hdenied : s.ctxDenied t (u.num 1) = none := by
    simp only [State.ctxDenied]
    rw [if_neg (by rintro (h | h) <;> [omega; exact hstate h]), if_neg]
    rintro ⟨hrole, hpart⟩
    rcases hown with h | h
    · exact h hrole
    · exact hpart h
  rw [State.onCtx, command_of_inHand hin, hdenied]

theorem next_of_onCtx (h : s.OnCtx path code t u n) {f : Sub → Nat → State} (hf : f u n = v) :
    (.next (s.onCtx path code f) : Outcome) = .next v :=
  congrArg (fun x => (.next x : Outcome)) ((onCtx_of h f).trans hf)

theorem checked_of_kept {status : Nat} {rules : List (Bool × Nat)} {f : State} (h : firstBroken rules = none) :
    s.checked path status rules f = f := by
  rw [State.checked, h]

theorem checked_of_broken {status k : Nat} {rules : List (Bool × Nat)} {f : State} (h : firstBroken rules = some k) :
    s.checked path status rules f = s.reply path status k [] := by
  rw [State.checked, h]

/-- An answer leaves no access waiting. -/
theorem reply_served (hs : s.stalled = false) (status detail : Nat) (fields : List (List Byte)) : (s.reply path status detail fields).stalled = false :=
  (State.Onward.reply (.refl (deep := 4) true s)).stalled rfl hs

/-! ### Landings of a context -/

theorem takeSlot_of_gives {lo count ceiling key : Nat} (h : s.GivesSlot n lo count ceiling key) (mirror : Option (Nat × Nat)) :
    s.takeSlot n lo count ceiling mirror = some (s.setSlot key { state := .unarmed, owner := n, part := (s.ctx n).part, mirror }, key - lo) := by
  obtain ⟨hroom, hfind⟩ := h
  rw [State.takeSlot, if_neg (Nat.not_le.2 hroom), hfind]

theorem takeSlot_of_full {lo count ceiling : Nat} (h : ceiling ≤ s.slotsHeld (s.ctx n).part lo count) (mirror : Option (Nat × Nat)) :
    s.takeSlot n lo count ceiling mirror = none := if_pos h

section
variable (h : s.OnCtx path 0x0201 t u n) (hlid : u.num 2 ≤ 1023) (hnew : (mget ({} : LEntry) (s.ctx n).lmap (u.num 2)).kind = 0)
  (h5 : u.has 5 = false) (h6 : u.has 6 = false)
include h hlid hnew h5 h6

theorem exec_ldgMap_core {c key : Nat} (hkind : u.num 3 = 1) (h4 : u.has 4 = true) (hcore : (s.coresOf (s.ctx n).part)[u.num 4]? = some c)
    (hgives : s.GivesSlot n (48 * c) 48 49 key) :
    exec (.ldgMap path) s = .next ((s.setSlot key { state := .unarmed, owner := n, part := (s.ctx n).part, mirror := none }).mapped path n (u.num 2)
      { kind := 1, core := c, slot := key - 48 * c, owner := n }) := by
  refine next_of_onCtx h ?_
  dsimp only
  rw [if_neg (by simp [hnew]; omega), if_neg (by omega), if_neg (by simp [h5, h6])]
  simp only [hkind, hcore]
  rw [if_neg (by simp [h4]), takeSlot_of_gives hgives]

theorem exec_ldgMap_device (hkind : u.num 3 = 2) :
    exec (.ldgMap path) s = .next (match s.takeSlot n 10000 1024 (s.part (s.ctx n).part).deviceCeiling none with
      | some (v, k) => v.mapped path n (u.num 2) { kind := 2, slot := k, owner := n }
      | none => s.reply path 0x12 0 []) := by
  refine next_of_onCtx h ?_
  dsimp only
  rw [if_neg (by simp [hnew]; omega), if_neg (by omega), if_neg (by simp [h5, h6])]
  simp only [hkind] <;> rfl

theorem exec_ldgMap_fabric {key : Nat} (hkind : u.num 3 = 3) (hgives : s.GivesSlot n 20000 256 (s.part (s.ctx n).part).fabricCeiling key) :
    exec (.ldgMap path) s = .next ((s.setSlot key { state := .unarmed, owner := n, part := (s.ctx n).part, mirror := none }).mapped path n (u.num 2)
      { kind := 3, slot := key - 20000, owner := n }) := by
  refine next_of_onCtx h ?_
  dsimp only
  rw [if_neg (by simp [hnew]; omega), if_neg (by omega), if_neg (by simp [h5, h6])]
  simp only [hkind]
  rw [takeSlot_of_gives hgives]

theorem exec_ldgMap_mirror {key : Nat} (hkind : u.num 3 = 4) (h7 : u.has 7 = true) (h8 : u.has 8 = true) (hlive : (s.assoc (u.num 7)).live = true)
    (hpart : (s.assoc (u.num 7)).part = (s.ctx n).part) (hgives : s.GivesSlot n 20000 256 (s.part (s.ctx n).part).fabricCeiling key) :
    exec (.ldgMap path) s = .next ((s.setSlot key { state := .unarmed, owner := n, part := (s.ctx n).part, mirror := some (u.num 7, u.num 8) }).mapped
      path n (u.num 2) { kind := 4, assoc := u.num 7, slot := key - 20000, owner := n, remote := u.num 8 }) := by
  refine next_of_onCtx h ?_
  dsimp only
  rw [if_neg (by simp [hnew]; omega), if_neg (by omega), if_neg (by simp [h5, h6])]
  simp only [hkind]
  rw [if_neg (by simp [h7, h8]), if_neg (by simp [hlive]), if_neg (by simp [hpart]), takeSlot_of_gives hgives]

end

/-- What arming a slot again discards (R262). -/
theorem stray_arm_iff (x : Slot) (n : Nat) (u : Sub) (subs : List (Nat × Nat)) :
    (x.arm n u subs).stray = true ↔ x.state = .armed ∧ ((x.kind = 1 ∧ x.count ≠ 0) ∨ (x.kind ≠ 1 ∧ x.remain ≠ x.n)) := by
  by_cases hkind : x.kind = 1 <;> simp [Slot.arm, hkind]

/-- The fields with which a slot may be armed (Table 10-2). -/
def armForm (u : Sub) : Prop :=
  (u.num 3 = 0 ∧ 1 ≤ u.num 4 ∧ u.num 4 ≤ 16777215 ∧ u.num 5 ≤ 1 ∧ u.num 7 = 0) ∨ (u.num 3 = 1 ∧ u.num 4 = 0 ∧ u.num 5 = 0 ∧ u.num 7 = 0) ∨
    (u.num 3 = 2 ∧ 1 ≤ u.num 4 ∧ u.num 4 ≤ 16777215 ∧ u.num 5 = 1 ∧ 1 ≤ u.num 7 ∧ u.num 7 ≤ 16777215)

theorem exec_ldgArm (h : s.OnCtx path 0x0203 t u n) (hlid : u.num 2 ≤ 1023) :
    let e := mget ({} : LEntry) (s.ctx n).lmap (u.num 2)
    let x := s.slot e.key
    1 ≤ e.kind ∧ e.kind ≤ 3 → u.has 10 = false → x.subs = [] → u.num 8 = 0xFFFF → u.num 9 = 0xFFFF → x.state ≠ .free → x.state ≠ .releasing →
      armForm u → exec (.ldgArm path) s = .next ((s.setSlot e.key { x with
        state := .armed, kind := u.num 3, n := u.num 4, rearm := decide (u.num 5 = 1), timeoutUs := u.num 6, period := u.num 7, link0 := 0xFFFF
        link1 := 0xFFFF, armCtx := n, subs := [], gen := if x.state = .armed then x.gen else 0, remain := u.num 4, count := 0, drift := false
        stray := (x.arm n u []).stray, saturated := false }).reply path 0 0 [toBytes 4 (if x.state = .armed then x.gen else 0)]) := by
  intro e x hkind h10 hsubs h8 h9 hfree hrel hform
  have hold : (if u.has 10 then subscribersOf u else x.subs) = [] := by rw [h10, hsubs, if_neg Bool.false_ne_true]
  refine next_of_onCtx h ?_
  dsimp only
  rw [show (if u.has 10 then subscribersOf u else (s.slot (mget ({} : LEntry) (s.ctx n).lmap (u.num 2)).key).subs) = [] from hold, checked_of_kept]
  · simp [Slot.arm, e, x, h8, h9]
  · have hslot : 1 ≤ e.kind ∧ e.kind ≤ 3 ∧ ¬ x.state = .free ∧ ¬ x.state = .releasing := ⟨hkind.1, hkind.2, hfree, hrel⟩
    rcases hform with ⟨h3, h4, h4', h5, h7⟩ | ⟨h3, h4, h5, h7⟩ | ⟨h3, h4, h4', h5, h7, h7'⟩
    · simp only [firstBroken, State.linkOk, h3, h4, h4', h5, h7, h8, h9, hlid]
      simpa using hslot
    · simp only [firstBroken, State.linkOk, h3, h4, h5, h7, h8, h9, hlid]
      simpa using hslot
    · simp only [firstBroken, State.linkOk, h3, h4, h4', h5, h7, h7', h8, h9, hlid]
      simpa using hslot

/-! ### Send queues -/

theorem sqRules_kept (hring : u.num 2 % 4096 = 0) (hlog : 6 ≤ u.num 3 ∧ u.num 3 ≤ 16) (hlive : (s.assoc (u.num 4)).live = true)
    (hpart : (s.assoc (u.num 4)).part = (s.ctx n).part) (hlid : u.num 5 ≤ 1023) :
    let e := mget ({} : LEntry) (s.ctx n).lmap (u.num 5)
    let x := s.slot e.key
    e.kind = 2 → x.state = .armed → x.kind = 0 → x.n = 1 → x.rearm = true →
      firstBroken [(decide (u.num 2 % 4096 = 0), 2), (decide (6 ≤ u.num 3 ∧ u.num 3 ≤ 16), 3),
        ((s.assoc (u.num 4)).live && decide ((s.assoc (u.num 4)).part = (s.ctx n).part), 4),
        (decide (u.num 5 ≤ 1023) && decide (e.kind = 2) && decide (x.state = .armed) && decide (x.kind = 0) && decide (x.n = 1) && x.rearm, 5)] =
          none := by
  intro e x hkind harmed hfull hn hrearm
  simp [firstBroken, hring, hlog, hlive, hpart, hlid, hkind, harmed, hfull, hn, hrearm]

/-- What a queue that is dropped leaves behind. -/
theorem dropQueue_of_empty (hs : rising s.queues) (i : Nat) (h : (s.sendQueue (8 * n + i)).entries = []) :
    (s.dropQueue n i).hbm = s.hbm ∧ ∀ k, k ≠ 8 * n + i → (s.dropQueue n i).sendQueue k = s.sendQueue k := by
  have hform : s.dropQueue n i = ((s.dropHeld (ringReader n i)).orphan n i).setSendQueue (8 * n + i) {} := by
    simp only [State.dropQueue, h, List.map_nil, List.foldl_nil, State.finishEntries]
  have hheld : (s.dropHeld (ringReader n i)).hbm = s.hbm ∧ (s.dropHeld (ringReader n i)).queues = s.queues := by
    unfold State.dropHeld
    split <;> exact ⟨rfl, rfl⟩
  obtain ⟨hhbm, hqueues⟩ := hheld
  refine ⟨by rw [hform]; exact hhbm, fun k hk => ?_⟩
  have hset : (s.dropQueue n i).queues = mset {} s.queues (8 * n + i) {} := by
    rw [hform, ← hqueues]
    rfl
  rw [State.sendQueue, hset]
  exact mget_mset_other_of_rising _ _ hk hs

theorem sendQueue_setSendQueue (h : rising s.queues) (k : Nat) (q : SendQueue) : (s.setSendQueue k q).sendQueue k = q :=
  mget_mset_same_of_rising _ _ _ h

theorem dropQueue_ends (hs : s.Tables) (i : Nat) :
    (s.dropQueue n i).sendQueue (8 * n + i) = {} ∧
      ∀ e ∈ (s.dropQueue n i).assocs, ∀ m ∈ e.2.outMsgs, m.ctx = n → m.queue = i → m.ldg = none → m.entry = none := by
  let w := (s.sendQueue (8 * n + i)).entries.map (·.no) |>.foldl (fun s n => s.dropHeld (entryReader n)) (s.dropHeld (ringReader n i))
  let y := w.finishEntries n i 1 ((s.sendQueue (8 * n + i)).entries.map (·.no))
  have hform : s.dropQueue n i = (y.orphan n i).setSendQueue (8 * n + i) {} := rfl
  have htables : (y.orphan n i).Tables :=
    (State.Onward.orphan (.finishEntries (.foldl (.dropHeld (.refl (deep := 4) false s)) (fun _ _ hu => .dropHeld hu)))).tables hs
  refine ⟨?_, ?_⟩
  · rw [hform]
    exact sendQueue_setSendQueue htables.queues _ _
  · rw [hform]
    intro e he m hm hctx hqueue hldg
    simp only [State.setSendQueue, State.orphan, mmapVals, List.mem_map] at he
    obtain ⟨⟨a, x⟩, -, rfl⟩ := he
    obtain ⟨m', -, rfl⟩ := List.mem_map.1 hm
    by_cases hmine : m'.ctx = n ∧ m'.queue = i ∧ m'.ldg = none
    · rw [if_pos hmine]
    · rw [if_neg hmine] at hctx hqueue hldg
      exact absurd ⟨hctx, hqueue, hldg⟩ hmine

/-- Settles O37: each command is run on the context that it names, and its checks are decided one by one. -/
theorem resourceCommands : Obligations.ResourceCommands := by
  unfold Obligations.ResourceCommands
  intro s path t u n hs gives turns p lid e x
  refine ⟨?_, ?_, ?_, ?_, ?_, ?_⟩
  · intro h hlid hnew h5 h6 maps
    refine ⟨fun c key hkind h4 hcore hgives => exec_ldgMap_core h hlid hnew h5 h6 hkind h4 hcore hgives, fun key hkind hgives => ?_,
      fun key hkind hgives => exec_ldgMap_fabric h hlid hnew h5 h6 hkind hgives,
      fun key hkind h7 h8 hlive hpart hgives => exec_ldgMap_mirror h hlid hnew h5 h6 hkind h7 h8 hlive hpart hgives, fun hkind hfull => ?_⟩
    · refine (exec_ldgMap_device h hlid hnew h5 h6 hkind).trans ?_
      rw [takeSlot_of_gives hgives]
      rfl
    · refine (exec_ldgMap_device h hlid hnew h5 h6 hkind).trans ?_
      rw [takeSlot_of_full hfull]
  · intro h ends
    refine ⟨fun hlid h0 h5 howner => next_of_onCtx h ?_, fun hlid h0 hother => next_of_onCtx h ?_, fun hbad => next_of_onCtx h (if_pos hbad)⟩
    · dsimp only
      rw [if_neg (by rintro (hl | hl) <;> [exact absurd hlid (Nat.not_le.2 hl); exact h0 hl]), if_pos ⟨h5, howner⟩]
    · dsimp only
      rw [if_neg (by rintro (hl | hl) <;> [exact absurd hlid (Nat.not_le.2 hl); exact h0 hl]), if_neg]
      rintro ⟨hne, howner⟩
      rcases hother with hl | hl
      · exact hne hl
      · exact hl howner
  · intro h hlid hk1 hk3 h10 hsubs h8 h9 kind
    refine ⟨?_, fun hgone => ?_⟩
    · intro hfree hrel hform gen
      exact ⟨_, exec_ldgArm h hlid ⟨hk1, hk3⟩ h10 hsubs h8 h9 hfree hrel hform, stray_arm_iff x n u []⟩
    · refine next_of_onCtx h (checked_of_broken ?_)
      have hstate : (decide (lid ≤ 1023) && decide (1 ≤ e.kind ∧ e.kind ≤ 3) && decide (x.state ≠ .free) && decide (x.state ≠ .releasing)) = false := by
        rcases hgone with hg | hg <;> simp [hg]
      rw [firstBroken, hstate, if_neg Bool.false_ne_true]
  · intro h hring hlog6 hlog16 hlive hpart hlid go y hkind harmed hfull hn hrearm
    refine ⟨fun i hfree => next_of_onCtx h ?_, fun hnone => next_of_onCtx h ?_⟩
    · refine (checked_of_kept (sqRules_kept hring ⟨hlog6, hlog16⟩ hlive hpart hlid hkind harmed hfull hn hrearm)).trans ?_
      rw [hfree]
    · refine (checked_of_kept (sqRules_kept hring ⟨hlog6, hlog16⟩ hlive hpart hlid hkind harmed hfull hn hrearm)).trans ?_
      have hfind : (List.range 8).find? (fun i => !(s.sendQueue (8 * n + i)).live) = none := by
        rw [List.find?_eq_none]
        intro i hi
        simp [hnone i (List.mem_range.1 hi)]
      rw [hfind]
  · intro h q
    refine ⟨fun hi hlive hserved => ⟨s.dropQueue n (u.num 2), ?_, (dropQueue_ends hs.tables _).1, (dropQueue_ends hs.tables _).2,
      dropQueue_of_empty hs.tables.queues _⟩, fun hbad => ?_⟩
    · have hexec : exec (.sqDestroy path) s = s.waits (.next ((s.dropQueue n (u.num 2)).reply path 0 0 [])) := by
        refine congrArg s.waits (next_of_onCtx h (if_neg ?_))
        rintro (hl | hl)
        · exact absurd hi (Nat.not_lt.2 hl)
        · exact Bool.false_ne_true (hl.symm.trans hlive)
      exact hexec.trans (waits_of_served (reply_served hserved _ _ _))
    · have hexec : exec (.sqDestroy path) s = s.waits (.next (s.reply path 3 2 [])) := congrArg s.waits (next_of_onCtx h (if_pos hbad))
      exact hexec.trans (waits_of_served (reply_served hs.served _ _ _))
  · intro h a perm
    refine ⟨fun hlive hpart hwin hperm => next_of_inHand h ?_, fun hlive => next_of_inHand h (if_pos hlive), fun hlive hpart => next_of_inHand h ?_⟩
    · dsimp only
      rw [if_neg (by simp [a, hlive]), if_neg (by simp [a, hpart]), checked_of_kept]
      simp [firstBroken, hwin, perm, hperm]
    · dsimp only
      rw [if_neg (by simp [a, hlive]), if_pos hpart]

end Sys2Proof.Machine
end

section
/-! Contexts: how a cut, an end, a reset and a drain leave them, and the obligation `ContextCommands`. -/

namespace Sys2Proof.Machine

open Sys2Proof

variable {s v w : State} {path code n : Nat} {t : Taken} {u : Sub}

/-! ### Contexts that are written -/

theorem ctx_modCtx_same (hs : rising s.ctxs) (n : Nat) (f : Ctx → Ctx) : (s.modCtx n f).ctx n = f (s.ctx n) :=
  mget_mset_same_of_rising _ _ _ hs

/-- An access leaves every context as it is. -/
theorem State.Onward.ctx_eq {b : Bool} (h : s.Onward b 0 v) (m : Nat) : v.ctx m = s.ctx m := by
  have hctxs : v.ctxs = s.ctxs := (congrArg State.ctxs (h.access rfl) :)
  rw [State.ctx, State.ctx, hctxs]

theorem launches_of_lasting (h : v.lasting = s.lasting) : v.launches = s.launches ∧ v.coxLaunches = s.coxLaunches :=
  ⟨congrArg (fun x => x.1) h, congrArg (fun x => x.2.1) h⟩

/-! ### A cut -/

/-- A cut ends the launches of its context (R301). -/
theorem cutCtx_launches (s : State) (n : Nat) :
    (∀ l ∈ (s.cutCtx n).launches, l.2.ctx ≠ n) ∧ ∀ l ∈ (s.cutCtx n).coxLaunches, l.2.ctx ≠ n := by
  unfold State.cutCtx
  extract_lets u1 u2 u3 u4 cox u5 u6 u7
  clear_value u5
  have hcut : u6.Onward false 1 (u7.modCtx n (fun c =>
      { c with pkts := [], heldPkts := [], levels := [{}], faultRec := none, faultOpen := false })) :=
    .modCtx_of (.cutPackets (.dropHeld (.refl false u6))) fun _ => rfl
  have hend := State.Onward.loseSlots (rest := u7.slotsOwned n) hcut
  obtain ⟨hlaunches, hcox⟩ := launches_of_lasting (hend.lasts le_rfl)
  rw [hlaunches, hcox]
  constructor <;> intro l hl <;> simpa using (List.mem_filter.1 hl).2

/-! ### The end of a context -/

/-- The state with a context's queues, its bits of the attention tree and its traces dropped. -/
def State.cleared (s : State) (n : Nat) : State := ((s.dropQueues n).clearCtxBits n).dropTraces n

/-- The state without what is translated and fetched for a context. -/
def State.offCtx (s : State) (n : Nat) : State := { s with
  tlb := s.tlb.filter (fun e => decide (e.ctx ≠ n))
  kftOpen := s.kftOpen.filter (fun e => decide (e.1 ≠ n))
  cores := mmapVals s.cores (fun _ k => { k with
    icache := k.icache.filter (fun e => decide (e.1 / 2 ^ 57 ≠ n)), icachePa := k.icachePa.filter (fun e => decide (e.1 / 2 ^ 57 ≠ n)) }) }

theorem freeCtx_eq (s : State) (n : Nat) : s.freeCtx n = ((((s.cleared n).setCtx n {}).settle (s.ctx n).fn).offCtx n) := rfl

theorem offCtx_ctx (s : State) (n m : Nat) : (s.offCtx n).ctx m = s.ctx m := rfl

theorem offCtx_lasting (s : State) (n : Nat) : (s.offCtx n).lasting = s.lasting := rfl

theorem offCtx_tlb (s : State) (n : Nat) : ∀ e ∈ (s.offCtx n).tlb, e.ctx ≠ n := fun e he => by simpa using (List.mem_filter.1 he).2

theorem setCtx_lasting (s : State) (n : Nat) (c : Ctx) : (s.setCtx n c).lasting = s.lasting := rfl

theorem freeCtx_frees (hs : s.Tables) (n : Nat) :
    (s.freeCtx n).ctx n = {} ∧ (∀ m, m ≠ n → ((s.freeCtx n).ctx m).standing = (s.ctx m).standing) ∧ (s.freeCtx n).lasting = s.lasting ∧
      ∀ e ∈ (s.freeCtx n).tlb, e.ctx ≠ n := by
  have hclear : s.Onward false 1 (s.cleared n) := .dropTraces (.clearCtxBits (.dropQueues (.refl false s)))
  have hw := (hclear.tables hs).ctxs
  have hsettle : ((s.cleared n).setCtx n {}).Onward false 0 (((s.cleared n).setCtx n {}).settle (s.ctx n).fn) := .settle (.refl false _)
  rw [freeCtx_eq]
  refine ⟨?_, fun m hm => ?_, ?_, offCtx_tlb _ n⟩
  · rw [offCtx_ctx, hsettle.ctx_eq, ctx_setCtx_same_of_rising _ _ hw]
  · rw [offCtx_ctx, hsettle.ctx_eq, ctx_setCtx_other_of_rising _ hm hw, hclear.stands (by omega) hs m]
  · rw [offCtx_lasting, hsettle.lasts (by omega), setCtx_lasting, hclear.lasts le_rfl]

/-- A context that ends enters DRAINING first (R302). -/
def State.toEnd (s : State) (n : Nat) : State :=
  (s.abortDrains (fun d => decide (d.obj = .ctx n))).modCtx n (fun c => { c with state := .draining })

theorem endCtx_eq (s : State) (n : Nat) :
    s.endCtx n = ((((s.toEnd n).dropQueues n).loseSlots (((s.toEnd n).dropQueues n).slotsOwned n)).writeCredit n).freeCtx n := rfl

theorem endCtx_frees (hs : s.Tables) (n : Nat) :
    (s.endCtx n).ctx n = {} ∧ (∀ m, m ≠ n → ((s.endCtx n).ctx m).standing = (s.ctx m).standing) ∧ (s.endCtx n).lasting = s.lasting ∧
      ∀ e ∈ (s.endCtx n).tlb, e.ctx ≠ n := by
  have hfirst : s.Onward false 1 (s.abortDrains (fun d => decide (d.obj = .ctx n))) := .abortDrains (.refl false s)
  have htoEnd : (s.toEnd n).Tables := (State.Onward.modCtx (deep := 0) (.abortDrains (.refl false s))).tables hs
  have hrest : (s.toEnd n).Onward false 1
      ((((s.toEnd n).dropQueues n).loseSlots (((s.toEnd n).dropQueues n).slotsOwned n)).writeCredit n) :=
    .writeCredit (.loseSlots (.dropQueues (.refl false _)))
  obtain ⟨hfree, hothers, hlast, htlb⟩ := freeCtx_frees (hrest.tables htoEnd) n
  rw [endCtx_eq]
  refine ⟨hfree, fun m hm => ?_, ?_, htlb⟩
  · rw [hothers m hm, hrest.stands (by omega) htoEnd m, State.toEnd, State.modCtx, ctx_setCtx_other_of_rising _ hm (hfirst.tables hs).ctxs,
      hfirst.stands (by omega) hs m]
  · rw [hlast, hrest.lasts le_rfl, State.toEnd, State.modCtx, setCtx_lasting, hfirst.lasts le_rfl]

/-! ### Records that go to the host -/

theorem recordWrite_host {space : Nat} (h : space ≠ 0) (ctx addr : Nat) (bytes : List Byte) :
    s.recordWrite ctx space addr bytes = s.hostWrite (s.ctx ctx).fn ctx addr bytes := if_neg h

theorem Onward.recordWrite_host {b : Bool} {deep space ctx addr : Nat} {bytes : List Byte} (h : space ≠ 0) (hv : s.Onward b deep v) :
    s.Onward b deep (v.recordWrite ctx space addr bytes) := by
  rw [Machine.recordWrite_host h]
  exact .hostWrite hv

theorem Onward.writeCredit_host {b : Bool} {deep : Nat} (h : (v.ctx n).creditSpace ≠ 0) (hv : s.Onward b (deep + 1) v) :
    s.Onward b (deep + 1) (v.writeCredit n) := by
  unfold State.writeCredit
  exact .modCtx_of (Onward.recordWrite_host h hv) fun _ => rfl

theorem Onward.writeRecord_host {b : Bool} {deep tag layer oper detail status : Nat} {interrupt : Bool} (h : (v.ctx n).ringSpace ≠ 0)
    (hv : s.Onward b (deep + 1) v) : s.Onward b (deep + 1) (v.writeRecord n tag layer oper detail status interrupt) := by
  unfold State.writeRecord
  exact .modCtx_of (Onward.recordWrite_host h (Onward.recordWrite_host h (.sample hv))) fun _ => rfl

/-- A standing outlasts what reaches no further than the removal of work. -/
theorem ringSpace_of_stands {b : Bool} (h : s.Onward b 2 v) (hs : s.Tables) (n : Nat) : (v.ctx n).ringSpace = (s.ctx n).ringSpace :=
  congrArg (fun x => x.2.2.2.2.2.2.2.1) (h.stands le_rfl hs n)

theorem creditSpace_of_stands {b : Bool} (h : s.Onward b 2 v) (hs : s.Tables) (n : Nat) : (v.ctx n).creditSpace = (s.ctx n).creditSpace :=
  congrArg (fun x => x.2.2.2.2.1) (h.stands le_rfl hs n)

theorem state_of_stands {b : Bool} (h : s.Onward b 2 v) (hs : s.Tables) (n : Nat) : (v.ctx n).state = (s.ctx n).state :=
  congrArg (fun x => x.1) (h.stands le_rfl hs n)

theorem Onward.cutPackets_host {b : Bool} (h : (s.ctx n).ringSpace ≠ 0) (hs : s.Tables) {ps : List Pkt} (hv : s.Onward b 2 v) :
    s.Onward b 2 (v.cutPackets n ps) := by
  induction ps generalizing v with
  | nil => exact hv
  | cons p ps ih =>
    have hring : (v.ctx n).ringSpace ≠ 0 := by rwa [ringSpace_of_stands hv hs]
    unfold State.cutPackets
    dsimp only
    refine ih (.modCtx_of (deep := 1) (.ite hv ?_) fun c => standing_ite rfl (standing_consume c _))
    split
    · exact hv
    · exact .ite hv (Onward.writeRecord_host hring hv)
    · exact Onward.writeRecord_host hring hv

/-- A cut of a context whose records go to the host leaves no access waiting. -/
theorem Onward.cutCtx_host {b : Bool} (h : (s.ctx n).ringSpace ≠ 0) (hs : s.Tables) (hv : s.Onward b 2 v) : s.Onward b 2 (v.cutCtx n) := by
  unfold State.cutCtx
  extract_lets u1 u2 u3 u4 cox u5 u6 u7
  have h4 : s.Onward b 2 u4 :=
    .discardCrews (deep := 1) (.foldl (.unwaitAll (deep := 1) (.endPreempt (deep := 1) hv)) fun _ _ hu => .dropHeld hu)
  have h5 : s.Onward b 2 u5 := h4.foldl fun _ _ hu => .dropChains (.dropJobs (deep := 1) hu)
  have h6 : s.Onward b 2 u6 := h5.shrink (deep := 0) rfl rfl fun r =>
    { r with launches := rising_filter _ r.launches, coxLaunches := rising_filter _ r.coxLaunches }
  have h7 : s.Onward b 2 u7 := Onward.cutPackets_host h hs (.dropHeld h6)
  exact .loseSlots (deep := 1) (.modCtx_of (deep := 1) h7 fun _ => rfl)

/-! ### Draining -/

/-- A context that enters DRAINING. -/
def Ctx.draining (c : Ctx) : Ctx := { c with state := .draining }

/-- A context that drains, with no pre-emption in progress any more. -/
def State.toDrain (s : State) (n : Nat) : State := (s.endPreempt n 1).modCtx n Ctx.draining

theorem toDrain_keeps (hs : s.Sound) (n : Nat) :
    s.Onward true 4 (s.toDrain n) ∧ (s.toDrain n).ctx n = ((s.endPreempt n 1).ctx n).draining :=
  ⟨.modCtx (deep := 1) (.endPreempt (.refl true s)),
    ctx_modCtx_same ((State.Onward.endPreempt (deep := 3) (.refl true s)).tables hs.tables).ctxs n _⟩

/-- A drain of a context whose credit record goes to the host leaves no access waiting, and the context in DRAINING. -/
theorem drainCtx_drains (hs : s.Sound) (h : (s.ctx n).creditSpace ≠ 0) :
    (s.drainCtx n).stalled = false ∧ ((s.drainCtx n).ctx n).state = .draining := by
  obtain ⟨hto, hctx⟩ := toDrain_keeps hs n
  have htables := hto.tables hs.tables
  have hpreempt : s.Onward true 2 (s.endPreempt n 1) := .endPreempt (deep := 1) (.refl true s)
  have hcredit : ((s.toDrain n).ctx n).creditSpace ≠ 0 := by
    rw [hctx]
    exact fun hz => h ((creditSpace_of_stands hpreempt hs.tables n).symm.trans hz)
  have hdrain : (s.toDrain n).Onward true 2 (s.drainCtx n) :=
    .dropUndispatched (deep := 0) (Onward.writeCredit_host (deep := 1) hcredit (.refl true (s.toDrain n)))
  refine ⟨hdrain.stalled rfl (hto.stalled rfl hs.served), ?_⟩
  rw [state_of_stands hdrain htables n, hctx]
  rfl

/-- A cut of a context that enters DRAINING and whose records go to the host does the same. -/
theorem cutCtx_drains (hs : s.Sound) (h : (s.ctx n).ringSpace ≠ 0) :
    ((s.modCtx n Ctx.draining).cutCtx n).stalled = false ∧ (((s.modCtx n Ctx.draining).cutCtx n).ctx n).state = .draining := by
  have hto : s.Onward true 4 (s.modCtx n Ctx.draining) := .modCtx (deep := 1) (.refl true s)
  have hctx : (s.modCtx n Ctx.draining).ctx n = (s.ctx n).draining := ctx_modCtx_same hs.tables.ctxs n _
  have hcut : (s.modCtx n Ctx.draining).Onward true 2 ((s.modCtx n Ctx.draining).cutCtx n) :=
    Onward.cutCtx_host (n := n) (by rw [hctx]; exact h) (hto.tables hs.tables) (.refl true _)
  refine ⟨hcut.stalled rfl (hto.stalled rfl hs.served), ?_⟩
  rw [state_of_stands hcut (hto.tables hs.tables) n, hctx]
  rfl

/-- A removal joins those under way. -/
def State.withDrain (s : State) (d : Drain) : State := { s with drains := s.drains ++ [d] }

theorem startDrain_ctx {d : Drain} (h : d.obj = .ctx n) :
    s.startDrain d = (if d.cut = true then (s.modCtx n Ctx.draining).cutCtx n else s.drainCtx n).withDrain d := by
  unfold State.startDrain
  rw [h]
  cases hcut : d.cut with
  | false => simp only [Bool.false_eq_true, if_false, State.withDrain]
  | true => simp only [if_true, State.cutObj, State.withDrain, State.modCtx, Ctx.draining]

/-! ### A reset -/

theorem writeCredit_ctx (hs : s.Tables) (n : Nat) : (s.writeCredit n).ctx n = { s.ctx n with lastCredit := (s.ctx n).consumed } := by
  have hwrite : s.Onward false 0 (s.recordWrite n (s.ctx n).creditSpace (s.ctx n).creditAddr (creditRecord (s.ctx n))) := .recordWrite (.refl false s)
  refine (ctx_modCtx_same (hwrite.tables hs).ctxs n _).trans ?_
  rw [hwrite.ctx_eq]

/-- A context's stream starts again (R38). -/
def State.restarted (s : State) (n : Nat) : State := (((s.modCtx n Ctx.wasReset).clearCtxBits n).dropTraces n).writeCredit n

theorem restarted_ctx (hs : s.Tables) (n : Nat) : (s.restarted n).ctx n = { (s.ctx n).wasReset with lastCredit := 0 } := by
  have hmod : (s.modCtx n Ctx.wasReset).Tables := ((State.Onward.refl (deep := 4) false s).modCtx).tables hs
  have hbits : (s.modCtx n Ctx.wasReset).Onward false 0 (((s.modCtx n Ctx.wasReset).clearCtxBits n).dropTraces n) :=
    .dropTraces (.clearCtxBits (.refl false _))
  rw [State.restarted, writeCredit_ctx (hbits.tables hmod), hbits.ctx_eq, ctx_modCtx_same hs.ctxs]
  rfl

theorem restarted_lasting (s : State) (n : Nat) : (s.restarted n).lasting = s.lasting := by
  have hrest : (s.modCtx n Ctx.wasReset).Onward false 1 (s.restarted n) := .writeCredit (.dropTraces (.clearCtxBits (.refl false _)))
  rw [hrest.lasts le_rfl, State.modCtx, setCtx_lasting]

/-! ### Commands on contexts -/

theorem onCtx_of_denied (h : s.InHand path code t u) {st : Nat} (hd : s.ctxDenied t (u.num 1) = some st) (f : Sub → Nat → State) :
    s.onCtx path code f = s.reply path st 1 [] := by
  rw [State.onCtx, command_of_inHand h, hd]

theorem waits_of_next {o : Outcome} (h : o = .next v) (hv : v.stalled = false) : s.waits o = .next v := by
  rw [h, waits_of_served hv]

section
variable (h : s.InHand path 0x0101 t u)
include h

theorem exec_ctxCreate {q : Nat} (hrole : t.role = 1) (hpart : t.part = some q) (h8 : u.has 8 = false) (hq : q < 8)
    (hlive : (s.part q).live = true) (h1 : u.num 1 % 64 = 0) (h2 : u.num 2 ≤ 1) (h3 : u.num 3 ≤ 2) (h4 : u.num 4 % 32 = 0) (h5 : u.num 5 ≤ 1)
    (h6 : 6 ≤ u.num 6 ∧ u.num 6 ≤ 16) (h7 : bits (u.num 7) 60 4 = 9) (hdrain : ∀ d ∈ s.drains, d.obj ≠ .part q) :
    exec (.ctxCreate path) s = .next (match (List.range 64).find? (fun n => decide ((s.ctx n).state = .free)) with
      | none => s.reply path 0x12 0 []
      | some n =>
        if (s.part q).ctxCeiling ≤ (s.ctxsOf q).length then s.reply path 0x12 0 []
        else
          (s.setCtx n {
            state := .active, part := q, fn := s.fnOf q, creditAddr := u.num 1, creditSpace := u.num 2, creditStep := 4096 * 4 ^ u.num 3
            ringAddr := u.num 4, ringSpace := u.num 5, ringSize := 2 ^ u.num 6, root := bits (u.num 7) 0 44 * 4096 }).reply path 0 0 [toBytes 1 n]) := by
  have hnone : s.drains.any (fun d => decide (d.obj = .part q)) = false := by simpa using hdrain
  refine next_of_inHand h ?_
  simp only [hrole, hpart, if_true, Option.getD_some, h8]
  rw [if_neg (by simp), checked_of_kept (by simp [firstBroken, hq, hlive, h1, h2, h3, h4, h5, h6, h7]), hnone]
  exact if_neg Bool.false_ne_true

end

/-- A command on a context that its sender may not reach is turned away. -/
theorem context_denied (hs : s.Sound) {i : Instr} {code st : Nat}
    (hi : (i, code) ∈ [(Instr.ctxDestroy path, 0x0102), (Instr.ctxReset path, 0x0103), (Instr.ctxPreempt path, 0x0104),
      (Instr.ctxResume path, 0x0105), (Instr.ctxDisable path, 0x0106)]) (h : s.InHand path code t u) (hd : s.ctxDenied t (u.num 1) = some st) :
    exec i s = .next (s.reply path st 1 []) := by
  have hnext : ∀ f, (.next (s.onCtx path code f) : Outcome) = .next (s.reply path st 1 []) := fun f =>
    congrArg (fun x => (.next x : Outcome)) (onCtx_of_denied h hd f)
  have hserved := reply_served (path := path) hs.served st 1 []
  simp only [List.mem_cons, Prod.mk.injEq, List.not_mem_nil, or_false] at hi
  rcases hi with ⟨rfl, rfl⟩ | ⟨rfl, rfl⟩ | ⟨rfl, rfl⟩ | ⟨rfl, rfl⟩ | ⟨rfl, rfl⟩
  · exact waits_of_next (hnext _) hserved
  · exact waits_of_next (hnext _) hserved
  · exact hnext _
  · exact hnext _
  · exact waits_of_next (hnext _) hserved

/-- Settles O36: each command is run on its context, and what it leaves is read off the rules of cutting, ending, resetting and draining. -/
theorem contextCommands : Obligations.ContextCommands := by
  unfold Obligations.ContextCommands
  intro s path t u n hs gives turns c free
  refine ⟨?_, ?_, ?_, ?_, ?_, ?_, ?_, ?_⟩
  · intro q h hrole hpart h8 hq hlive h1 h2 h3 h4 h5 h6 h6' h7 hdrain
    refine ⟨fun hroom hfind => ?_, fun hfull => ?_⟩
    · refine (exec_ctxCreate h hrole hpart h8 hq hlive h1 h2 h3 h4 h5 ⟨h6, h6'⟩ h7 hdrain).trans ?_
      rw [hfind]
      dsimp only
      rw [if_neg (Nat.not_le.2 hroom)]
    · refine (exec_ctxCreate h hrole hpart h8 hq hlive h1 h2 h3 h4 h5 ⟨h6, h6'⟩ h7 hdrain).trans ?_
      split
      · rfl
      · rw [if_pos hfull]
  · intro h hfree hserved
    obtain ⟨hctx, -, hlast, htlb⟩ := endCtx_frees (((State.Onward.refl (deep := 4) false s).cutCtx (n := n)).tables hs.tables) n
    obtain ⟨hlaunches, hcox⟩ := launches_of_lasting hlast
    obtain ⟨hcut, hcutCox⟩ := cutCtx_launches s n
    refine ⟨(s.cutCtx n).endCtx n, waits_of_next (next_of_onCtx h ?_) (reply_served hserved _ _ _), hctx, htlb, ?_, ?_⟩
    · exact if_neg (by simpa using hfree)
    · rw [hlaunches]
      exact hcut
    · rw [hcox]
      exact hcutCox
  · intro h hfree hserved
    have hcut : s.Onward false 2 ((s.cutCtx n).dropQueues n) := .dropQueues (deep := 1) (.cutCtx (deep := 0) (.refl false s))
    have hdrop : (s.cutCtx n).Onward false 1 ((s.cutCtx n).dropQueues n) := .dropQueues (.refl false _)
    have hctx := restarted_ctx (hcut.tables hs.tables) n
    have hstands := hcut.stands le_rfl hs.tables n
    simp only [Ctx.standing, Prod.mk.injEq] at hstands
    obtain ⟨-, hpart, -, hcredit, -, -, hring, -, -, hroot⟩ := hstands
    refine ⟨((s.cutCtx n).dropQueues n).restarted n, _, waits_of_next (next_of_onCtx h (if_neg (by simpa using hfree)))
      (reply_served hserved _ _ _), ?_, ?_⟩
    · rw [(launches_of_lasting (restarted_lasting _ n)).1, (launches_of_lasting (hdrop.lasts le_rfl)).1]
      exact (cutCtx_launches s n).1
    · intro d
      rw [show d = _ from hctx]
      generalize ((s.cutCtx n).dropQueues n).ctx n = c' at hpart hcredit hring hroot ⊢
      exact ⟨rfl, rfl, rfl, rfl, rfl, rfl, rfl, rfl, hcredit, hring, hroot, hpart⟩
  · intro h hpage us hus1 hus2
    have hrules : firstBroken [(decide (u.num 2 % 4096 = 0), 2), (decide (1 ≤ us ∧ us ≤ 1000000), 3)] = none := by
      simp [firstBroken, hpage, hus1, hus2]
    refine ⟨fun hfault => next_of_onCtx h ((checked_of_kept hrules).trans (if_pos hfault)), fun hactive hpre hres hfree hsize => ?_,
      fun hfault hbusy => next_of_onCtx h ((checked_of_kept hrules).trans ?_)⟩
    · refine ⟨s.sample.1.modCtx n (fun c => { c with hold := true, preempt := some (u.num 2, s.sample.1.inUs us, path) }), s.sample.1.inUs us,
        next_of_onCtx h ((checked_of_kept hrules).trans ?_), ?_, ctx_modCtx_same (s := s.sample.1) hs.tables.ctxs n _, rfl⟩
      · rw [if_neg (by simp [show (s.ctx n).state = _ from hactive]), if_neg, if_neg (not_not.2 hactive)]
        rintro (hb | hb | hb | hb)
        · simp [show (s.ctx n).preempt = _ from hpre] at hb
        · simp [show (s.ctx n).resumePath = _ from hres] at hb
        · exact Bool.false_ne_true (hfree.symm.trans hb)
        · exact Bool.false_ne_true (hsize.symm.trans hb)
      · exact Nat.add_le_add_right (Nat.le_add_right _ _) _
    · rw [if_neg hfault, if_pos]
      rcases hbusy with hb | hb
      · exact .inl (Option.isSome_iff_ne_none.2 hb)
      · exact .inr (.inr (.inr hb))
  · intro h hresume hfree hsize
    have hidle : ¬ ((s.ctx n).resumePath.isSome = true ∨ s.ctxLeaving n = true ∨ s.ctxResizing n = true) := by
      rintro (hb | hb | hb)
      · simp [show (s.ctx n).resumePath = _ from hresume] at hb
      · exact Bool.false_ne_true (hfree.symm.trans hb)
      · exact Bool.false_ne_true (hsize.symm.trans hb)
    refine ⟨fun hstate => next_of_onCtx h ?_, fun hstate => next_of_onCtx h ?_⟩
    · exact (if_neg hidle).trans (if_neg (not_not.2 hstate))
    · exact (if_neg hidle).trans (if_pos hstate)
  · intro h hmode us hus1 hus2
    have hrules : firstBroken [(decide (u.num 2 ≤ 1), 2), (decide (1 ≤ us ∧ us ≤ 10000000), 3)] = none := by
      simp [firstBroken, hmode, hus1, hus2]
    refine ⟨fun hfree hcredit hring => ?_, fun hleaving => ?_⟩
    · let d : Drain := { obj := .ctx n, cut := decide (u.num 2 = 1), deadline := s.sample.1.inUs us, after := .ctxDisable, path := some path }
      have hsample : s.sample.1.Sound :=
        State.sound_iff.2 ⟨(State.Onward.sample (deep := 4) (.refl true s)).tables hs.tables, hs.served⟩
      let y := if d.cut = true then (s.sample.1.modCtx n Ctx.draining).cutCtx n else s.sample.1.drainCtx n
      have hstart : s.sample.1.startDrain d = y.withDrain d := startDrain_ctx rfl
      have hy : y.stalled = false ∧ (y.ctx n).state = .draining := by
        unfold y
        split
        · exact cutCtx_drains hsample hring
        · exact drainCtx_drains hsample hcredit
      refine ⟨y.withDrain d, d, ?_, List.mem_append_right _ (List.mem_singleton_self d), rfl, rfl, rfl, by simp [d], ?_, hy.2⟩
      · rw [← hstart]
        refine waits_of_next (next_of_onCtx h ((checked_of_kept hrules).trans (if_neg (by simpa using hfree)))) ?_
        rw [hstart]
        exact (State.Onward.await (deep := 3) (.refl true (y.withDrain d))).stalled rfl hy.1
      · exact Nat.add_le_add_right (Nat.le_add_right _ _) _
    · exact waits_of_next (next_of_onCtx h ((checked_of_kept hrules).trans (if_pos hleaving))) (reply_served hs.served _ _ _)
  · intro h hleaving
    exact waits_of_next (next_of_onCtx h (if_pos hleaving)) (reply_served hs.served _ _ _)
  · intro i code hmem h hn
    refine ⟨fun hgone => ?_, fun hn64 hstate hrole hpart => ?_⟩
    · exact context_denied hs hmem h (by rw [State.ctxDenied, hn]; exact if_pos hgone)
    · refine context_denied hs hmem h ?_
      rw [State.ctxDenied, hn]
      exact (if_neg (by rintro (hb | hb) <;> [omega; exact hstate hb])).trans (if_pos ⟨hrole, hpart⟩)

end Sys2Proof.Machine
end

section
/-! Temperatures, the coolant and the input: the obligation `ThermalCommands` (R260, R381, R398, R399). -/

namespace Sys2Proof.Machine

open Sys2Proof

variable {s t u : State} {die : Nat} {temp : Int}

/-! ### The trip -/

theorem part_setPart (h : rising s.parts) (q : Nat) (p : Partition) : (s.setPart q p).part q = p := mget_mset_same_of_rising _ _ _ h

theorem part_setPart_ne (h : rising s.parts) {q k : Nat} (hk : k ≠ q) (p : Partition) : (s.setPart q p).part k = s.part k :=
  mget_mset_other_of_rising _ _ hk h

theorem destroyPart_dead (h : s.Tables) (q : Nat) : ((s.destroyPart q).part q).live = false := by
  have hcut : (s.cutPart q).Tables := (State.Onward.cutPart (deep := 0) (q := q) (.refl false s)).tables h
  rw [State.destroyPart, part_setPart hcut.parts]

/-- A partition that is gone stays gone while the tables keep their order. -/
theorem State.Onward.dead {b : Bool} {q : Nat} (h : s.Onward b 3 t) (hs : s.Tables) (hq : (s.part q).live = false) : (t.part q).live = false := by
  cases hlive : (t.part q).live with
  | false => rfl
  | true => exact absurd (h.gone le_rfl hs q hlive) (by rw [hq]; exact Bool.false_ne_true)

theorem destroyParts_dead {q : Nat} (qs : List Nat) (h : s.Tables) (hq : q ∈ qs ∨ (s.part q).live = false) : ((s.destroyParts qs).part q).live = false := by
  induction qs generalizing s with
  | nil => exact hq.resolve_left List.not_mem_nil
  | cons x xs ih =>
    have hstep : s.Onward false 3 (s.destroyPart x) := .destroyPart (deep := 0) (.refl false s)
    have hleft : q ∈ xs ∨ ((s.destroyPart x).part q).live = false := by
      rcases hq with hq | hq
      · rcases List.mem_cons.1 hq with hq | hq
        · subst hq
          exact .inr (destroyPart_dead h q)
        · exact .inl hq
      · exact .inr (hstep.dead h hq)
    have htables := hstep.tables h
    unfold State.destroyParts
    generalize s.destroyPart x = u at htables hleft ⊢
    exact ih htables hleft

/-- The loss of memory as it runs: the partitions go with the drains that no port has, then moves and stacks end, and at last the tables. -/
def State.lostWork (s : State) : State := s.atOnce ((s.destroyParts s.liveParts).abortDrains (fun d => match d.obj with | .port _ => false | _ => true))

def State.lostMoves (s : State) : State := s.moveJobs.foldl (fun s j => s.answer j.path 1 0 []) s

def State.lostStacks (s : State) : State :=
  s.hbmStacks.foldl (fun t e => t.setStack e.1 { e.2 with power := 0, temp := 0, step := 0, refreshOnly := false }) s

def State.lostTables (s : State) : State := { s with
    segs := [], allocs := [], rebuilds := [], moveJobs := [], tableMoves := [], hbm := [], hbmPoison := []
    cores := [], slices := [], gals := [], hostCores := [], stretched := [], homes := [], hostLines := [] }

theorem loseMemory_eq (s : State) : s.loseMemory = s.lostWork.lostMoves.lostStacks.lostTables := rfl

theorem atOnce_part (s t : State) (q : Nat) : (s.atOnce t).part q = t.part q := rfl

theorem lostTables_part (s : State) (q : Nat) : s.lostTables.part q = s.part q := rfl

/-- No partition is left when memory is lost (R399). -/
theorem loseMemory_dead (h : s.Tables) {q : Nat} (hq : q < 8) : (s.loseMemory.part q).live = false := by
  have hdead : ((s.destroyParts s.liveParts).part q).live = false := by
    refine destroyParts_dead _ h ?_
    cases hlive : (s.part q).live with
    | false => exact .inr rfl
    | true => exact .inl (List.mem_filter.2 ⟨List.mem_range.2 hq, hlive⟩)
  have htables : (s.destroyParts s.liveParts).Tables := (State.Onward.destroyParts (deep := 0) (.refl false s)).tables h
  have hwork : (s.lostWork.part q).live = false := by
    rw [State.lostWork, atOnce_part]
    exact (State.Onward.abortDrains (deep := 2) (.refl false _)).dead htables hdead
  have hworkTables : s.lostWork.Tables := (State.Onward.atOnce (.refl true s) (.abortDrains (deep := 2) (.destroyParts (deep := 0) (.refl false s)))).tables h
  have hmoves : s.lostWork.Onward true 3 s.lostWork.lostMoves := (State.Onward.refl true _).foldl fun _ _ hx => .answer (deep := 2) hx
  have hstacks : s.lostWork.Onward true 3 s.lostWork.lostMoves.lostStacks := hmoves.foldl fun _ _ hx => .setStack hx
  rw [loseMemory_eq, lostTables_part]
  exact hstacks.dead hworkTables hwork

def State.setTripped (s : State) : State := { s with tripped := true }

theorem setTripped_part (s : State) (q : Nat) : s.setTripped.part q = s.part q := rfl

/-- The state in which a trip tells its function. -/
def State.tripping (s : State) : State := (s.liveParts.foldl (fun s q => s.tellLost q) s).loseMemory.setTripped

theorem trip_eq (s : State) (v : Nat) : s.trip v = s.tripping.powerEvent 3 v := rfl

theorem tripping_onward (s : State) : s.Onward true 3 s.tripping := by
  unfold State.tripping
  have hu : s.Onward true 3 (s.liveParts.foldl (fun s q => s.tellLost q) s) := (State.Onward.refl true s).foldl fun _ _ hw => .tellLost hw
  have hv := State.Onward.loseMemory (deep := 0) hu
  generalize (s.liveParts.foldl (fun s q => s.tellLost q) s).loseMemory = v at hv
  exact hv.lose rfl rfl fun r => { r with }

theorem tripping_dead (h : s.Tables) {q : Nat} (hq : q < 8) : (s.tripping.part q).live = false := by
  have hu : s.Onward true 3 (s.liveParts.foldl (fun s q => s.tellLost q) s) := (State.Onward.refl true s).foldl fun _ _ hw => .tellLost hw
  rw [State.tripping, setTripped_part]
  exact loseMemory_dead (hu.tables h) hq

theorem tripping_empty (s : State) : s.tripping.tripped = true ∧ s.tripping.hbm = [] ∧ s.tripping.cores = [] ∧ s.tripping.gals = [] := ⟨rfl, rfl, rfl, rfl⟩

theorem State.Tells.tripped (h : s.Tells t) : t.tripped = s.tripped := (congrArg State.tripped h.off :)
theorem State.Tells.linkUp (h : s.Tells t) : t.linkUp = s.linkUp := (congrArg State.linkUp h.off :)
theorem State.Tells.heat (h : s.Tells t) : t.heat = s.heat := (congrArg State.heat h.off :)
theorem State.Tells.hbmStacks (h : s.Tells t) : t.hbmStacks = s.hbmStacks := (congrArg State.hbmStacks h.off :)
theorem State.Tells.readings (h : s.Tells t) : t.readings = s.readings := (congrArg State.readings h.off :)
theorem State.Tells.stack (h : s.Tells t) (k : Nat) : t.stack k = s.stack k := (congrArg (fun m => mget ({} : Stack) m k) h.hbmStacks :)
theorem State.Tells.supply (h : s.Tells t) : t.supply = s.supply := (congrArg State.supply h.off :)
theorem State.Tells.part (h : s.Tells t) (q : Nat) : t.part q = s.part q := (congrArg (fun m => mget ({} : Partition) m q) h.parts :)

/-- A trip (R399): it is told, memory, cores and galleries are empty, no partition is left, and the link stands. -/
theorem trip_loses (h : s.Tables) (v : Nat) :
    (s.trip v).tripped = true ∧ bit ((s.trip v).func 0).power 3 = true ∧ (s.trip v).hbm = [] ∧ (s.trip v).cores = [] ∧ (s.trip v).gals = [] ∧
      (s.trip v).linkUp = s.linkUp ∧ ∀ q < 8, ((s.trip v).part q).live = false := by
  have htrip := tripping_onward s
  have hfuncs : rising s.tripping.funcs := (htrip.tables h).funcs
  have htells := (State.Tells.refl hfuncs).powerEvent 3 v
  obtain ⟨htripped, hhbm, hcores, hgals⟩ := tripping_empty s
  have hdead := fun q (hq : q < 8) => tripping_dead h hq
  rw [trip_eq]
  generalize s.tripping = u at *
  refine ⟨htells.tripped.trans htripped, powerEvent_told hfuncs 3 v, htells.hbm.trans hhbm, htells.cores.trans hcores,
    htells.gals.trans hgals, htells.linkUp.trans (htrip.link le_rfl), fun q hq => ?_⟩
  exact (congrArg Partition.live (htells.part q)).trans (hdead q hq)

/-! ### What regulating a die leaves -/

/-- A state without the settings that a temperature acts on. -/
def State.offHeat (s : State) : State := { s with gals := [], heat := [], tripped := false }

/-- From s to t the galleries' settings and the control of dies have changed, and a trip may have ended where every die is cool. -/
structure State.Regulates (s t : State) : Prop where
  off : t.offHeat = s.offHeat
  tripped : ¬ (∀ e ∈ s.readings.dieTemp, e.2 < 900) → t.tripped = s.tripped

theorem State.Regulates.refl (s : State) : s.Regulates s := ⟨rfl, fun _ => rfl⟩

theorem State.Regulates.readings (h : s.Regulates t) : t.readings = s.readings := (congrArg State.readings h.off :)
theorem State.Regulates.funcs (h : s.Regulates t) : t.funcs = s.funcs := (congrArg State.funcs h.off :)
theorem State.Regulates.ctxs (h : s.Regulates t) : t.ctxs = s.ctxs := (congrArg State.ctxs h.off :)
theorem State.Regulates.hbm (h : s.Regulates t) : t.hbm = s.hbm := (congrArg State.hbm h.off :)
theorem State.Regulates.cores (h : s.Regulates t) : t.cores = s.cores := (congrArg State.cores h.off :)
theorem State.Regulates.now (h : s.Regulates t) : t.now = s.now := (congrArg State.now h.off :)
theorem State.Regulates.hbmStacks (h : s.Regulates t) : t.hbmStacks = s.hbmStacks := (congrArg State.hbmStacks h.off :)

theorem State.Regulates.trans (h : s.Regulates t) (h' : t.Regulates u) : s.Regulates u :=
  ⟨h'.off.trans h.off, fun hw => (h'.tripped (by rwa [h.readings])).trans (h.tripped hw)⟩

theorem State.Regulates.setHeat (h : s.Regulates t) (die : Nat) (x : DieHeat) : s.Regulates (t.setHeat die x) := h.trans ⟨rfl, fun _ => rfl⟩

theorem State.Regulates.setLimit (h : s.Regulates t) (g i d c : Nat) : s.Regulates (t.setLimit g i d c) := h.trans ⟨rfl, fun _ => rfl⟩

theorem State.Regulates.endPaddle (h : s.Regulates t) (g : Nat) : s.Regulates (t.endPaddle g) := h.trans ⟨rfl, fun _ => rfl⟩

theorem State.Regulates.foldl (h : s.Regulates t) {f : State → Nat → State} (hf : ∀ u g, s.Regulates u → s.Regulates (f u g)) (gs : List Nat) :
    s.Regulates (gs.foldl f t) := by
  induction gs generalizing t with
  | nil => exact h
  | cons g gs ih => exact ih (hf _ _ h)

theorem State.Regulates.cooled (h : s.Regulates t) : s.Regulates t.cooled := by
  refine h.trans ?_
  unfold State.cooled
  split
  next hcool =>
    refine ⟨rfl, fun hw => absurd (fun e he => ?_) hw⟩
    have hall := (Bool.and_eq_true_iff.1 hcool.2).1
    exact of_decide_eq_true (List.all_eq_true.1 hall e he)
  next => exact .refl t

theorem State.Regulates.holdDie (h : s.Regulates t) (die duty : Nat) : s.Regulates (t.holdDie die duty) :=
  h.foldl (fun _ g hu => (hu.setLimit g 4 duty 800).endPaddle g) _

theorem State.Regulates.fallDie (h : s.Regulates t) (die : Nat) : s.Regulates (t.fallDie die) :=
  h.foldl (fun _ g hu => (hu.setLimit g 4 16 _).endPaddle g) _

/-- The turn of a gallery whose clock returns a step. -/
def State.returnOne (s : State) (g : Nat) : State :=
  match mfind (s.gal g).limits 4 with
  | some (_, c) => s.setLimit g 4 16 (min 4000 (c + 100))
  | none => s

theorem returnDie_eq (s : State) (die : Nat) : s.returnDie die = (s.dieGals die).foldl State.returnOne s := rfl

theorem State.Regulates.returnDie (h : s.Regulates t) (die : Nat) : s.Regulates (t.returnDie die) := by
  rw [returnDie_eq]
  refine h.foldl (fun u g hu => ?_) _
  unfold State.returnOne
  split
  · exact hu.setLimit g 4 16 _
  · exact hu

theorem cooled_gal (s : State) (g : Nat) : s.cooled.gal g = s.gal g := by
  unfold State.cooled
  split <;> rfl

theorem cooled_dieHeat (s : State) (die : Nat) : s.cooled.dieHeat die = s.dieHeat die := by
  unfold State.cooled
  split <;> rfl

theorem holdDie_dieHeat (s : State) (d duty die : Nat) : (s.holdDie d duty).dieHeat die = s.dieHeat die := by
  unfold State.holdDie
  generalize s.dieGals d = gs
  induction gs generalizing s with
  | nil => rfl
  | cons g gs ih => exact ih _

/-! ### The galleries of a die -/

theorem setLimit_endPaddle_sets (i d c : Nat) (t : State) (g : Nat) (hf : rising t.funcs) (hg : rising t.gals) :
    t.Sets ((t.setLimit g i d c).endPaddle g) g := ((State.Sets.refl hf hg g).setLimit i d c).endPaddle

theorem setLimit_endPaddle_limits (hg : rising t.gals) (g i d c : Nat) :
    (((t.setLimit g i d c).endPaddle g).gal g).limits = mset (16, 4000) (mset (16, 4000) (t.gal g).limits i (d, c)) 5 (16, 4000) := by
  simp only [State.endPaddle, State.setLimit]
  rw [gal_setGal (setGal_keeps_rising hg g _), gal_setGal hg]

/-- Every gallery of a die that is held runs at 800 MHz at the duty (Table 15-8). -/
theorem holdDie_held (hf : rising s.funcs) (hg : rising s.gals) (die duty : Nat) {g : Nat} (hmem : g ∈ s.dieGals die) :
    ((s.holdDie die duty).gal g).limits = mset (16, 4000) (mset (16, 4000) (s.gal g).limits 4 (duty, 800)) 5 (16, 4000) :=
  foldl_limits_at (P := fun x y => y.limits = mset (16, 4000) (mset (16, 4000) x.limits 4 (duty, 800)) 5 (16, 4000))
    (setLimit_endPaddle_sets 4 duty 800) (fun _ g ht => setLimit_endPaddle_limits ht g 4 duty 800) hf hg (dieGals_nodup s die) hmem

theorem foldl_min_le (m : Map (Nat × Nat)) (d : Nat) : m.foldl (fun d e => min d e.2.2) d ≤ d := by
  induction m generalizing d with
  | nil => exact le_refl d
  | cons e m ih => exact (ih _).trans (Nat.min_le_left _ _)

theorem clock_le (x : GalPower) : x.clock ≤ 4000 := foldl_min_le _ _

/-- Every gallery of a die whose clocks fall runs 100 MHz below its clock, or at 800 MHz. -/
theorem fallDie_falls (hf : rising s.funcs) (hg : rising s.gals) (die : Nat) {g : Nat} (hmem : g ∈ s.dieGals die) :
    mget (16, 4000) ((s.fallDie die).gal g).limits 4 = (16, max 800 ((s.gal g).clock - 100)) := by
  refine foldl_limits_at (P := fun x y => mget (16, 4000) y.limits 4 = (16, max 800 (x.clock - 100)))
    (fun t g hft hgt => setLimit_endPaddle_sets 4 16 (max 800 ((t.gal g).clock - 100)) t g hft hgt) (fun t g ht => ?_) hf hg (dieGals_nodup s die) hmem
  have hclock := clock_le (t.gal g)
  have hne : ((16, max 800 ((t.gal g).clock - 100)) : Nat × Nat) ≠ (16, 4000) := by
    simp only [ne_eq, Prod.mk.injEq, true_and]
    omega
  have hset : mget (16, 4000) (mset (16, 4000) (t.gal g).limits 4 (16, max 800 ((t.gal g).clock - 100))) 4 = _ := mget_mset_same_of_ne _ _ hne
  rw [setLimit_endPaddle_limits ht, mget_mset_above _ (by rwa [hset]) (by decide), hset]

theorem returnDie_returns (hf : rising s.funcs) (hg : rising s.gals) (die : Nat) {g d c : Nat} (hmem : g ∈ s.dieGals die)
    (hfind : mfind (s.gal g).limits 4 = some (d, c)) :
    (s.returnDie die).gal g = { s.gal g with limits := mset (16, 4000) (s.gal g).limits 4 (16, min 4000 (c + 100)) } := by
  rw [returnDie_eq]
  refine foldl_limits_at (f := State.returnOne)
    (P := fun x y => ∀ d c, mfind x.limits 4 = some (d, c) → y = { x with limits := mset (16, 4000) x.limits 4 (16, min 4000 (c + 100)) })
    (fun t g hft hgt => ?_) (fun t g ht d c hfind => ?_) hf hg (dieGals_nodup s die) hmem d c hfind
  · unfold State.returnOne
    split
    · exact (State.Sets.refl hft hgt g).setLimit 4 16 _
    · exact .refl hft hgt g
  · unfold State.returnOne
    rw [hfind]
    exact gal_setGal ht g _

/-! ### The sample of a die -/

/-- The reading of a die noted, before its actions. -/
def State.metered (s : State) (die : Nat) (temp : Int) : State :=
  { s.sample.1 with readings := { s.sample.1.readings with dieTemp := mset 0 s.sample.1.readings.dieTemp die temp } }

/-- The thresholds of Table 15-8 that a die's temperature crosses, told. -/
def State.warned (s : State) (old temp : Int) : State :=
  let s := if 1000 ≤ temp ∧ old < 1000 then s.powerEvent 2 (tempValue temp) else s
  if 1100 ≤ temp ∧ old < 1100 then s.powerEvent 3 (tempValue temp) else s

/-- Whether a step of 100 µs has passed since the clocks of a die last moved. -/
def DieHeat.due (x : DieHeat) (now : Nat) : Bool := decide (x.stepAt + 100000 ≤ now) || decide (x.stepAt = 0)

/-- What the temperature of the IO die does to the host cores. -/
def State.slowHost (s : State) (x : DieHeat) (temp : Int) (now : Nat) : State :=
  if 1000 < temp ∧ x.due now = true then (s.setHeat 4 { x with stepAt := now, slow := min 7 (x.slow + 1) }).cooled
  else if temp ≤ 970 ∧ x.due now = true ∧ x.slow ≠ 0 then (s.setHeat 4 { x with stepAt := now, slow := x.slow - 1 }).cooled
  else s.cooled

/-- A die that 110 °C holds is let go. -/
def State.unheld (s : State) (die : Nat) (temp : Int) : State :=
  if (s.dieHeat die).crit = true ∧ temp ≤ 1000 then (s.setHeat die { s.dieHeat die with crit := false }).holdDie die 16 else s

/-- A step of a die's clocks, where nothing holds them. -/
def State.stepped (s : State) (die : Nat) (temp : Int) (now : Nat) (due : Bool) : State :=
  let x := s.dieHeat die
  if x.crit = true ∨ x.held ≠ [] then s.cooled
  else if 1000 ≤ temp ∧ due = true then (s.setHeat die { x with stepAt := now }).fallDie die
  else if temp ≤ 970 ∧ due = true then ((s.setHeat die { x with stepAt := now }).returnDie die).cooled
  else s.cooled

/-- What a temperature below that of a trip does to the clocks. -/
def State.regulated (s : State) (die : Nat) (temp : Int) (now : Nat) : State :=
  if die = 4 then s.slowHost (s.dieHeat die) temp now
  else if 1100 ≤ temp then (s.setHeat die { s.dieHeat die with crit := true, stepAt := now }).holdDie die 4
  else (s.unheld die temp).stepped die temp now ((s.dieHeat die).due now)

theorem slowHost_outcome (s : State) (x : DieHeat) (temp : Int) (now : Nat) : (.next (s.slowHost x temp now) : Outcome) =
    if 1000 < temp ∧ x.due now = true then .next (s.setHeat 4 { x with stepAt := now, slow := min 7 (x.slow + 1) }).cooled
    else if temp ≤ 970 ∧ x.due now = true ∧ x.slow ≠ 0 then .next (s.setHeat 4 { x with stepAt := now, slow := x.slow - 1 }).cooled
    else .next s.cooled := by
  simp only [State.slowHost, apply_ite (fun x => (.next x : Outcome))]

theorem stepped_outcome (s : State) (die : Nat) (temp : Int) (now : Nat) (due : Bool) : (.next (s.stepped die temp now due) : Outcome) =
    let x := s.dieHeat die
    if x.crit = true ∨ x.held ≠ [] then .next s.cooled
    else if 1000 ≤ temp ∧ due = true then .next ((s.setHeat die { x with stepAt := now }).fallDie die)
    else if temp ≤ 970 ∧ due = true then .next ((s.setHeat die { x with stepAt := now }).returnDie die).cooled
    else .next s.cooled := by
  simp only [State.stepped, apply_ite (fun x => (.next x : Outcome))]

theorem regulated_outcome (s : State) (die : Nat) (temp : Int) (now : Nat) : (.next (s.regulated die temp now) : Outcome) =
    if die = 4 then .next (s.slowHost (s.dieHeat die) temp now)
    else if 1100 ≤ temp then .next ((s.setHeat die { s.dieHeat die with crit := true, stepAt := now }).holdDie die 4)
    else .next ((s.unheld die temp).stepped die temp now ((s.dieHeat die).due now)) := by
  simp only [State.regulated, apply_ite (fun x => (.next x : Outcome))]

theorem exec_thermalSample (hdie : die < 5) (htemp : temp < 1200) :
    exec (.thermalSample die temp) s =
      .next (((s.metered die temp).warned ((mfind s.readings.dieTemp die).getD 0) temp).regulated die temp s.sample.2) := by
  have hunfold : exec (.thermalSample die temp) s = execThermalSample die temp s := rfl
  rw [hunfold, execThermalSample, if_neg (by omega)]
  refine (if_neg (show ¬ 1200 ≤ temp by omega)).trans ?_
  rw [regulated_outcome, slowHost_outcome, stepped_outcome]
  rfl

theorem exec_thermalSample_trip (hdie : die < 5) (htemp : 1200 ≤ temp) :
    exec (.thermalSample die temp) s = .next (if s.tripped then s.metered die temp else (s.metered die temp).trip (tempValue temp)) := by
  have hunfold : exec (.thermalSample die temp) s = execThermalSample die temp s := rfl
  rw [hunfold, execThermalSample, if_neg (by omega)]
  exact if_pos htemp

theorem metered_keeps (s : State) (die : Nat) (temp : Int) : (s.metered die temp).funcs = s.funcs ∧ (s.metered die temp).gals = s.gals ∧
    (s.metered die temp).ctxs = s.ctxs ∧ (s.metered die temp).hbm = s.hbm ∧ (s.metered die temp).cores = s.cores ∧
    (s.metered die temp).heat = s.heat ∧ (s.metered die temp).tripped = s.tripped ∧
    (s.metered die temp).readings.dieTemp = mset 0 s.readings.dieTemp die temp := ⟨rfl, rfl, rfl, rfl, rfl, rfl, rfl, rfl⟩

theorem warned_tells (hf : rising s.funcs) (old temp : Int) : s.Tells (s.warned old temp) := by
  have h0 := State.Tells.refl hf
  unfold State.warned
  dsimp only
  split
  · exact State.Tells.powerEvent (by split <;> [exact h0.powerEvent _ _; exact h0]) _ _
  · split
    · exact h0.powerEvent _ _
    · exact h0

theorem warned_high (hf : rising s.funcs) {old temp : Int} (h : 1000 ≤ temp) (hold : old < 1000) : bit ((s.warned old temp).func 0).power 2 = true := by
  have htold := powerEvent_told hf 2 (tempValue temp)
  have hrise := ((State.Tells.refl hf).powerEvent 2 (tempValue temp)).funcs
  unfold State.warned
  simp only [if_pos (And.intro h hold)]
  split
  · exact (((State.Tells.refl hrise).powerEvent 3 (tempValue temp)).causes 0).power 2 htold
  · exact htold

theorem warned_crit (hf : rising s.funcs) {old temp : Int} (h : 1100 ≤ temp) (hold : old < 1100) : bit ((s.warned old temp).func 0).power 3 = true := by
  unfold State.warned
  simp only [if_pos (And.intro h hold)]
  split
  · exact powerEvent_told ((State.Tells.refl hf).powerEvent 2 (tempValue temp)).funcs 3 _
  · exact powerEvent_told hf 3 _

theorem slowHost_regulates (s : State) (x : DieHeat) (temp : Int) (now : Nat) : s.Regulates (s.slowHost x temp now) := by
  unfold State.slowHost
  have h0 := State.Regulates.refl s
  split
  · exact (h0.setHeat _ _).cooled
  split
  · exact (h0.setHeat _ _).cooled
  · exact h0.cooled

theorem stepped_regulates (h : s.Regulates t) (die : Nat) (temp : Int) (now : Nat) (due : Bool) : s.Regulates (t.stepped die temp now due) := by
  unfold State.stepped
  dsimp only
  split
  · exact h.cooled
  split
  · exact (h.setHeat _ _).fallDie _
  split
  · exact ((h.setHeat _ _).returnDie _).cooled
  · exact h.cooled

theorem unheld_regulates (s : State) (die : Nat) (temp : Int) : s.Regulates (s.unheld die temp) := by
  unfold State.unheld
  split
  · exact ((State.Regulates.refl s).setHeat _ _).holdDie _ _
  · exact .refl s

theorem regulated_regulates (s : State) (die : Nat) (temp : Int) (now : Nat) : s.Regulates (s.regulated die temp now) := by
  unfold State.regulated
  split
  · exact slowHost_regulates s _ temp now
  split
  · exact ((State.Regulates.refl s).setHeat _ _).holdDie _ _
  · exact stepped_regulates (unheld_regulates s die temp) _ _ _ _

theorem dieHeat_setHeat (s : State) (die : Nat) {x : DieHeat} (h : x ≠ {}) : (s.setHeat die x).dieHeat die = x := mget_mset_same_of_ne _ _ h

/-- The IO die above 100 °C slows the host cores by a step. -/
theorem regulated_slow (s : State) {now : Nat} (htemp : 1000 < temp) (hdue : (s.dieHeat 4).due now = true) :
    ((s.regulated 4 temp now).dieHeat 4).slow = min 7 ((s.dieHeat 4).slow + 1) := by
  unfold State.regulated State.slowHost
  rw [if_pos rfl, if_pos ⟨htemp, hdue⟩, cooled_dieHeat, dieHeat_setHeat]
  intro h
  have hslow : min 7 ((s.dieHeat 4).slow + 1) = 0 := congrArg DieHeat.slow h
  omega

/-- A compute die at 110 °C is held at a quarter of the strokes. -/
theorem regulated_crit (s : State) (hdie : die ≠ 4) (htemp : 1100 ≤ temp) (now : Nat) :
    s.regulated die temp now = (s.setHeat die { s.dieHeat die with crit := true, stepAt := now }).holdDie die 4 := by
  rw [State.regulated, if_neg hdie, if_pos htemp]

theorem regulated_free (s : State) (hdie : die ≠ 4) (htemp : temp < 1100) {now : Nat} (hcrit : (s.dieHeat die).crit = false)
    (hheld : (s.dieHeat die).held = []) (hdue : (s.dieHeat die).due now = true) :
    s.regulated die temp now =
      if 1000 ≤ temp then (s.setHeat die { s.dieHeat die with stepAt := now }).fallDie die
      else if temp ≤ 970 then ((s.setHeat die { s.dieHeat die with stepAt := now }).returnDie die).cooled
      else s.cooled := by
  rw [State.regulated, if_neg hdie, if_neg (by omega), State.unheld, if_neg (by simp [hcrit]), State.stepped]
  simp only [hcrit, hheld, hdue, Bool.false_eq_true, ne_eq, not_true_eq_false, or_self, if_false, and_true]

/-- A die that 110 °C held is let go below 100 °C. -/
theorem regulated_released (s : State) (hdie : die ≠ 4) (hlow : 970 < temp) (hhigh : temp < 1000) (now : Nat) (hcrit : (s.dieHeat die).crit = true) :
    s.regulated die temp now = ((s.setHeat die { s.dieHeat die with crit := false }).holdDie die 16).cooled := by
  rw [State.regulated, if_neg hdie, if_neg (by omega), State.unheld, if_pos ⟨hcrit, by omega⟩, State.stepped]
  simp only [show ¬ 1000 ≤ temp by omega, show ¬ temp ≤ 970 by omega, false_and, if_false, ite_self]

/-- What a die that leads from s has as s has it. -/
structure State.SameDie (s t : State) : Prop where
  heat : t.heat = s.heat
  gals : t.gals = s.gals

theorem State.SameDie.dieHeat (h : s.SameDie t) (die : Nat) : t.dieHeat die = s.dieHeat die := congrArg (fun m => mget ({} : DieHeat) m die) h.heat
theorem State.SameDie.gal (h : s.SameDie t) (g : Nat) : t.gal g = s.gal g := congrArg (fun m => mget ({} : GalPower) m g) h.gals
theorem State.SameDie.dieGals (h : s.SameDie t) (die : Nat) : t.dieGals die = s.dieGals die := by
  simp only [State.dieGals, h.gal]

theorem due_of_moment {x : DieHeat} {now now' : Nat} (hle : now ≤ now') (h : x.stepAt = 0 ∨ x.stepAt + 100000 ≤ now) : x.due now' = true := by
  simp only [DieHeat.due, Bool.or_eq_true, decide_eq_true_eq]
  omega

/-- The state in which a sample's steps are taken. -/
theorem warned_metered (hf : rising s.funcs) (die : Nat) (temp old : Int) :
    let w := (s.metered die temp).warned old temp
    s.SameDie w ∧ rising w.funcs ∧ w.ctxs = s.ctxs ∧ w.hbm = s.hbm ∧ w.cores = s.cores ∧ w.tripped = s.tripped ∧
      w.readings.dieTemp = mset 0 s.readings.dieTemp die temp := by
  obtain ⟨hfuncs, hgals, hctxs, hhbm, hcores, hheat, htripped, hread⟩ := metered_keeps s die temp
  have htells := warned_tells (s := s.metered die temp) (by rwa [hfuncs]) old temp
  generalize s.metered die temp = v at *
  exact ⟨⟨htells.heat.trans hheat, htells.gals.trans hgals⟩, htells.funcs, htells.ctxs.trans hctxs, htells.hbm.trans hhbm,
    htells.cores.trans hcores, htells.tripped.trans htripped, (congrArg Readings.dieTemp htells.readings).trans hread⟩

/-! ### The report of a stack -/

/-- A stack's report noted, and a stack that goes into refresh-only service told of. -/
def State.stackRead (s : State) (k : Nat) (y : Stack) : State :=
  if y.refreshOnly = true ∧ (s.stack k).refreshOnly = false then (s.sample.1.setStack k y).raise 0 (.hbmHot k) else s.sample.1.setStack k y

/-- A stack whose refresh-only service has ended holds the galleries of its die no longer. -/
def State.unheldStack (s : State) (k : Nat) : State :=
  let h := s.dieHeat (k / 2)
  let s := s.setHeat (k / 2) { h with held := sremove h.held k }
  if sremove h.held k = [] ∧ h.crit = false then (s.dieGals (k / 2)).foldl (fun s g => s.setLimit g 4 16 4000) s else s

/-- The galleries of a stack's die held while its refresh-only service lasts. -/
def State.heldStack (s : State) (k : Nat) : State :=
  (s.setHeat (k / 2) { s.dieHeat (k / 2) with held := sinsert (s.dieHeat (k / 2)).held k }).holdDie (k / 2) 16

/-- What a stack's report below 120 °C does. -/
def State.stackActs (s : State) (k temp : Nat) (y : Stack) (now : Nat) : State :=
  if y.refreshOnly = true ∧ y.refreshSince + 1000000000 < now ∧ k ∉ (s.dieHeat (k / 2)).held then (s.heldStack k).powerEvent 3 (10 * temp)
  else if y.refreshOnly = false ∧ k ∈ (s.dieHeat (k / 2)).held then (s.unheldStack k).cooled
  else s.cooled

theorem stackActs_outcome (s : State) (k temp : Nat) (y : Stack) (now : Nat) : (.next (s.stackActs k temp y now) : Outcome) =
    if y.refreshOnly = true ∧ y.refreshSince + 1000000000 < now ∧ k ∉ (s.dieHeat (k / 2)).held then .next ((s.heldStack k).powerEvent 3 (10 * temp))
    else if y.refreshOnly = false ∧ k ∈ (s.dieHeat (k / 2)).held then .next (s.unheldStack k).cooled
    else .next s.cooled := by
  simp only [State.stackActs, apply_ite (fun x => (.next x : Outcome))]

/-- A stack after its report of a temperature. -/
def State.reported (s : State) (k temp : Nat) : Stack := (s.stack k).report temp (s.setting 5 95) s.sample.2

theorem exec_stackTempReport {k temp : Nat} (hk : k < 8) (hpow : (s.stack k).power ≠ 0) (htemp : temp < 120) :
    exec (.stackTempReport k temp) s = .next ((s.stackRead k (s.reported k temp)).stackActs k temp (s.reported k temp) s.sample.2) := by
  have hunfold : exec (.stackTempReport k temp) s = execStackTempReport k temp s := rfl
  rw [hunfold, execStackTempReport, if_neg (by omega)]
  refine (if_neg (show ¬ 120 ≤ temp by omega)).trans ?_
  rw [stackActs_outcome]
  rfl

theorem exec_stackTempReport_trip {k temp : Nat} (hk : k < 8) (hpow : (s.stack k).power ≠ 0) (htemp : 120 ≤ temp) :
    exec (.stackTempReport k temp) s = .next (if (s.stackRead k (s.reported k temp)).tripped then s.stackRead k (s.reported k temp)
      else (s.stackRead k (s.reported k temp)).trip (10 * temp)) := by
  have hunfold : exec (.stackTempReport k temp) s = execStackTempReport k temp s := rfl
  rw [hunfold, execStackTempReport, if_neg (by omega)]
  exact if_pos htemp

/-- What a stack's report has left before its actions: the stack as reported, and the rest as it was. -/
theorem stackRead_keeps (hs : s.Tables) (k : Nat) (y : Stack) :
    s.SameDie (s.stackRead k y) ∧ (s.stackRead k y).stack k = y ∧ (s.stackRead k y).ctxs = s.ctxs ∧ (s.stackRead k y).hbm = s.hbm ∧
      (s.stackRead k y).cores = s.cores ∧ (s.stackRead k y).tripped = s.tripped := by
  have hset : ∀ v : State, v.hbmStacks = mset {} s.hbmStacks k y → v.stack k = y := fun v hv =>
    (congrArg (fun m => mget ({} : Stack) m k) hv).trans (mget_mset_same_of_rising _ _ _ hs.hbmStacks)
  unfold State.stackRead
  split
  · have htells := (State.Tells.refl (s := s.sample.1.setStack k y) hs.funcs).raise 0 (.hbmHot k)
    exact ⟨⟨htells.heat, htells.gals⟩, hset _ htells.hbmStacks, htells.ctxs, htells.hbm, htells.cores, htells.tripped⟩
  · exact ⟨⟨rfl, rfl⟩, hset _ rfl, rfl, rfl, rfl, rfl⟩

theorem stackRead_onward (s : State) (k : Nat) (y : Stack) : s.Onward true 3 (s.stackRead k y) := by
  unfold State.stackRead
  exact .ite (.raise (.setStack (.sample (.refl true s)))) (.setStack (.sample (.refl true s)))

theorem heldStack_regulates (s : State) (k : Nat) : s.Regulates (s.heldStack k) := ((State.Regulates.refl s).setHeat _ _).holdDie _ _

theorem unheldStack_regulates (s : State) (k : Nat) : s.Regulates (s.unheldStack k) := by
  unfold State.unheldStack
  dsimp only
  have hset := (State.Regulates.refl s).setHeat (k / 2) { s.dieHeat (k / 2) with held := sremove (s.dieHeat (k / 2)).held k }
  split
  · exact hset.foldl (fun _ g hu => hu.setLimit g 4 16 4000) _
  · exact hset

theorem stackActs_keeps (hf : rising s.funcs) (k temp : Nat) (y : Stack) (now : Nat) :
    (s.stackActs k temp y now).stack k = s.stack k ∧ (s.stackActs k temp y now).ctxs = s.ctxs ∧ (s.stackActs k temp y now).hbm = s.hbm ∧
      (s.stackActs k temp y now).cores = s.cores := by
  have hkeep : ∀ v : State, s.Regulates v → v.stack k = s.stack k ∧ v.ctxs = s.ctxs ∧ v.hbm = s.hbm ∧ v.cores = s.cores := fun v hv =>
    ⟨congrArg (fun m => mget ({} : Stack) m k) hv.hbmStacks, hv.ctxs, hv.hbm, hv.cores⟩
  unfold State.stackActs
  split
  · have hheld := heldStack_regulates s k
    obtain ⟨hstack, hctxs, hhbm, hcores⟩ := hkeep _ hheld
    have hrise : rising (s.heldStack k).funcs := by rwa [hheld.funcs]
    generalize s.heldStack k = v at *
    have htells := (State.Tells.refl hrise).powerEvent 3 (10 * temp)
    exact ⟨(htells.stack k).trans hstack, htells.ctxs.trans hctxs, htells.hbm.trans hhbm, htells.cores.trans hcores⟩
  split
  · exact hkeep _ (unheldStack_regulates s k).cooled
  · exact hkeep _ (State.Regulates.refl s).cooled

theorem heldStack_held (hf : rising s.funcs) (hg : rising s.gals) (k : Nat) {g : Nat} (hmem : g ∈ s.dieGals (k / 2)) :
    ((s.heldStack k).gal g).limits = mset (16, 4000) (mset (16, 4000) (s.gal g).limits 4 (16, 800)) 5 (16, 4000) :=
  holdDie_held (s := s.setHeat (k / 2) _) hf hg (k / 2) 16 hmem

/-- Refresh-only service of more than a second holds the galleries of the stack's die (R398). -/
theorem stackActs_held (hf : rising s.funcs) (hg : rising s.gals) {k temp : Nat} {y : Stack} {now : Nat} (hy : y.refreshOnly = true)
    (hlong : y.refreshSince + 1000000000 < now) (hnew : k ∉ (s.dieHeat (k / 2)).held) :
    bit ((s.stackActs k temp y now).func 0).power 3 = true ∧ ∀ g ∈ s.dieGals (k / 2),
      ((s.stackActs k temp y now).gal g).limits = mset (16, 4000) (mset (16, 4000) (s.gal g).limits 4 (16, 800)) 5 (16, 4000) := by
  have hheld := heldStack_regulates s k
  have hrise : rising (s.heldStack k).funcs := by rwa [hheld.funcs]
  have hlimits : ∀ g ∈ s.dieGals (k / 2), ((s.heldStack k).gal g).limits = mset (16, 4000) (mset (16, 4000) (s.gal g).limits 4 (16, 800)) 5 (16, 4000) :=
    fun g hmem => heldStack_held hf hg k hmem
  rw [State.stackActs, if_pos ⟨hy, hlong, hnew⟩]
  generalize s.heldStack k = v at *
  refine ⟨powerEvent_told hrise 3 _, fun g hmem => ?_⟩
  rw [powerEvent_gal hrise]
  exact hlimits g hmem

/-- The throttle step of a stack after a report of a temperature, against a threshold (R260). -/
def Stack.up (x : Stack) (temp limit : Nat) : Nat :=
  if limit ≤ temp then min 7 (x.step + 1) else if temp + 3 ≤ limit then x.step - 1 else x.step

theorem report_hot (x : Stack) {temp limit now : Nat} (h : 105 ≤ temp) :
    x.report temp limit now = { x with temp, step := x.up temp limit, refreshOnly := true,
                                       refreshSince := if x.refreshOnly then x.refreshSince else now, hot := x.hot || !x.refreshOnly } := if_pos h

theorem report_warm (x : Stack) {temp limit now : Nat} (hlo : 100 < temp) (hhi : temp < 105) :
    x.report temp limit now = { x with temp, step := x.up temp limit } := by
  have hcold : ¬ (x.refreshOnly && decide (temp ≤ 100)) = true := by simp [show ¬ temp ≤ 100 by omega]
  rw [Stack.report, if_neg (by omega), if_neg hcold]
  rfl

theorem report_cold (x : Stack) {temp limit now : Nat} (h : temp ≤ 100) :
    x.report temp limit now = { x with temp, step := if x.refreshOnly then 7 else x.up temp limit, refreshOnly := false } := by
  rw [Stack.report, if_neg (by omega)]
  cases hx : x.refreshOnly with
  | false =>
    obtain ⟨⟩ := x
    simp_all [Stack.up]
  | true => simp [h]

/-! ### The coolant and the input -/

theorem exec_coolantReport (inlet outlet : Int) (s : State) : ∃ v : State, v = { s with readings := { s.readings with coolant := [inlet, outlet] } } ∧
    exec (.coolantReport inlet outlet) s =
      .next (if (coolantBreach inlet outlet && !(match s.readings.coolant with | [i, o] => coolantBreach i o | _ => false)) = true
        then v.powerEvent 4 (tempValue (if 400 < inlet then inlet else outlet)) else v) := ⟨_, rfl, rfl⟩

/-- What a report of the coolant leaves. -/
theorem coolantReport_reports (hf : rising s.funcs) (inlet outlet : Int) :
    ∃ t, exec (.coolantReport inlet outlet) s = .next t ∧ t.readings = { s.readings with coolant := [inlet, outlet] } ∧
      ((400 < inlet ∨ 200 < outlet - inlet) → s.readings.coolant = [] → bit (t.func 0).power 4 = true) ∧ t.gals = s.gals ∧ t.ctxs = s.ctxs ∧
      (inlet ≤ 400 → outlet - inlet ≤ 200 → t.funcs = s.funcs) := by
  obtain ⟨v, hv, hexec⟩ := exec_coolantReport inlet outlet s
  have hfuncs : v.funcs = s.funcs := by rw [hv]
  have hgals : v.gals = s.gals := by rw [hv]
  have hctxs : v.ctxs = s.ctxs := by rw [hv]
  have hread : v.readings = { s.readings with coolant := [inlet, outlet] } := by rw [hv]
  have hrise : rising v.funcs := by rwa [hfuncs]
  have htells := (State.Tells.refl hrise).powerEvent 4 (tempValue (if 400 < inlet then inlet else outlet))
  refine ⟨_, hexec, ?_⟩
  by_cases hbreach : (coolantBreach inlet outlet && !(match s.readings.coolant with | [i, o] => coolantBreach i o | _ => false)) = true
  · rw [if_pos hbreach]
    refine ⟨htells.readings.trans hread, fun _ _ => powerEvent_told hrise 4 _, htells.gals.trans hgals, htells.ctxs.trans hctxs, fun hin hout => ?_⟩
    have hnone : coolantBreach inlet outlet = false := by simp [coolantBreach, hin, hout]
    rw [hnone] at hbreach
    exact absurd hbreach Bool.false_ne_true
  · rw [if_neg hbreach]
    refine ⟨hread, fun hin hempty => ?_, hgals, hctxs, fun _ _ => hfuncs⟩
    rw [hempty] at hbreach
    exact absurd (by simpa [coolantBreach] using hin) hbreach

/-- The measurement noted, with how long the input has stood where it is. -/
def State.measured (s : State) (mv : Nat) : State :=
  { s.sample.1 with
    readings := { s.sample.1.readings with vin := mv }
    brownSince := if decide (36000 ≤ mv) && decide (mv < 40000) then some (s.sample.1.brownSince.getD s.sample.2) else none
    goodSince := if decide (44000 ≤ mv) && decide (mv ≤ 62000) then some (s.sample.1.goodSince.getD s.sample.2) else none }

theorem measured_keeps (s : State) (mv : Nat) : (s.measured mv).readings = { s.readings with vin := mv } ∧ (s.measured mv).funcs = s.funcs ∧
    (s.measured mv).supply = s.supply ∧
    (s.measured mv).brownSince = (if decide (36000 ≤ mv) && decide (mv < 40000) then some (s.brownSince.getD (s.measured mv).now) else none) ∧
    (s.measured mv).goodSince = (if decide (44000 ≤ mv) && decide (mv ≤ 62000) then some (s.goodSince.getD (s.measured mv).now) else none) :=
  ⟨rfl, rfl, rfl, rfl, rfl⟩

theorem exec_inputVoltageMeasurement (hsupply : s.supply ≠ 0) (mv : Nat) :
    exec (.inputVoltageMeasurement mv) s =
      .next (if supplyBand mv ≠ 0 ∧ supplyBand mv ≠ supplyBand s.readings.vin then (s.measured mv).powerEvent 5 mv else s.measured mv) := if_neg hsupply

theorem supplyBand_high {mv : Nat} : supplyBand mv = 1 ↔ 62000 < mv ∧ mv ≤ 66000 := by
  unfold supplyBand
  split
  · simp [*]
  · split <;> simp [*]

theorem supplyBand_low {mv : Nat} : supplyBand mv = 2 ↔ 40000 ≤ mv ∧ mv < 44000 := by
  unfold supplyBand
  split
  · omega
  · split <;> simp [*]

/-- What a measurement of the input leaves (R381). -/
theorem inputVoltage_measured (hf : rising s.funcs) (hsupply : s.supply ≠ 0) (mv : Nat) :
    ∃ t, exec (.inputVoltageMeasurement mv) s = .next t ∧ t.readings = { s.readings with vin := mv } ∧
      (62000 < mv → mv ≤ 66000 → ¬(62000 < s.readings.vin ∧ s.readings.vin ≤ 66000) → bit (t.func 0).power 5 = true) ∧
      (40000 ≤ mv → mv < 44000 → ¬(40000 ≤ s.readings.vin ∧ s.readings.vin < 44000) → bit (t.func 0).power 5 = true) ∧
      (44000 ≤ mv → mv ≤ 62000 → t.funcs = s.funcs ∧ t.goodSince = some (s.goodSince.getD t.now) ∧ t.brownSince = none) ∧
      (36000 ≤ mv → mv < 40000 → t.brownSince = some (s.brownSince.getD t.now) ∧ t.goodSince = none) ∧ t.supply = s.supply := by
  obtain ⟨hread, hfuncs, hsup, hbrown, hgood⟩ := measured_keeps s mv
  have hexec := exec_inputVoltageMeasurement hsupply mv
  generalize s.measured mv = v at *
  have hrise : rising v.funcs := by rwa [hfuncs]
  refine ⟨_, hexec, ?_⟩
  by_cases hband : supplyBand mv ≠ 0 ∧ supplyBand mv ≠ supplyBand s.readings.vin
  · have htells := (State.Tells.refl hrise).powerEvent 5 mv
    have htold := powerEvent_told hrise 5 mv
    have hzero : ¬ ((44000 ≤ mv ∧ mv ≤ 62000) ∨ (36000 ≤ mv ∧ mv < 40000)) := fun hin => hband.1 (by
      unfold supplyBand
      rw [if_neg (by omega), if_neg (by omega)])
    rw [if_pos hband]
    exact ⟨htells.readings.trans hread, fun _ _ _ => htold, fun _ _ _ => htold, fun hlo hhi => absurd (.inl ⟨hlo, hhi⟩) hzero,
      fun hlo hhi => absurd (.inr ⟨hlo, hhi⟩) hzero, htells.supply.trans hsup⟩
  · rw [if_neg hband]
    refine ⟨hread, fun hlo hhi hold => absurd ?_ hband, fun hlo hhi hold => absurd ?_ hband, fun hlo hhi => ⟨hfuncs, ?_, ?_⟩, fun hlo hhi => ⟨?_, ?_⟩, hsup⟩
    · have hmv := supplyBand_high.2 ⟨hlo, hhi⟩
      exact ⟨by rw [hmv]; decide, fun heq => hold (supplyBand_high.1 (heq.symm.trans hmv))⟩
    · have hmv := supplyBand_low.2 ⟨hlo, hhi⟩
      exact ⟨by rw [hmv]; decide, fun heq => hold (supplyBand_low.1 (heq.symm.trans hmv))⟩
    · rw [hgood, if_pos (by simp [hlo, hhi])]
    · rw [hbrown, if_neg (by simp; omega)]
    · rw [hbrown, if_pos (by simp [hlo, hhi])]
    · rw [hgood, if_neg (by simp; omega)]

/-- What a sample of a die below a trip leaves (Table 15-8). -/
theorem thermalSample_regulates (hs : s.Tables) (hdie : die < 5) (htemp : temp < 1200) :
    let old := (mfind s.readings.dieTemp die).getD 0
    let x := s.dieHeat die
    let due := x.stepAt = 0 ∨ x.stepAt + 100000 ≤ s.now
    ∃ t, exec (.thermalSample die temp) s = .next t ∧ s.now ≤ t.now ∧
      t.readings.dieTemp = mset 0 s.readings.dieTemp die temp ∧ t.ctxs = s.ctxs ∧ t.hbm = s.hbm ∧ t.cores = s.cores ∧
      (1000 ≤ temp → old < 1000 → bit (t.func 0).power 2 = true) ∧
      (1100 ≤ temp → old < 1100 → bit (t.func 0).power 3 = true) ∧
      (die < 4 → 1100 ≤ temp → (t.dieHeat die).crit = true ∧ ∀ g ∈ s.dieGals die,
        (t.gal g).limits = mset (16, 4000) (mset (16, 4000) (s.gal g).limits 4 (4, 800)) 5 (16, 4000)) ∧
      (die < 4 → 1000 ≤ temp → temp < 1100 → x.crit = false → x.held = [] → due → ∀ g ∈ s.dieGals die,
        mget (16, 4000) (t.gal g).limits 4 = (16, max 800 ((s.gal g).clock - 100))) ∧
      (die < 4 → temp ≤ 970 → x.crit = false → x.held = [] → due → ∀ g ∈ s.dieGals die, ∀ d c, mfind (s.gal g).limits 4 = some (d, c) →
        t.gal g = { s.gal g with limits := mset (16, 4000) (s.gal g).limits 4 (16, min 4000 (c + 100)) }) ∧
      (die < 4 → 970 < temp → temp < 1000 → x.crit = true → ∀ g ∈ s.dieGals die,
        (t.gal g).limits = mset (16, 4000) (mset (16, 4000) (s.gal g).limits 4 (16, 800)) 5 (16, 4000)) ∧
      (die = 4 → 1000 < temp → due → (t.dieHeat 4).slow = min 7 (x.slow + 1)) ∧
      (¬(∀ e ∈ t.readings.dieTemp, e.2 < 900) → t.tripped = s.tripped) := by
  intro old x due
  obtain ⟨hsame, hrise, hctxs, hhbm, hcores, htripped, hread⟩ := warned_metered hs.funcs die temp old
  have hexec := exec_thermalSample (s := s) hdie htemp
  have hmetered : rising (s.metered die temp).funcs := hs.funcs
  have hhigh := fun h => warned_high hmetered (old := old) (temp := temp) h
  have hcrit := fun h => warned_crit hmetered (old := old) (temp := temp) h
  have hnow : s.now ≤ ((s.metered die temp).warned old temp).now := (Nat.le_add_right _ _).trans (warned_tells hmetered old temp).now
  have hdue : due → x.due s.sample.2 = true := fun h => due_of_moment (Nat.le_add_right _ _) h
  have hgals : rising ((s.metered die temp).warned old temp).gals := by rw [hsame.gals]; exact hs.gals
  change exec _ s = .next (((s.metered die temp).warned old temp).regulated die temp s.sample.2) at hexec
  generalize (s.metered die temp).warned old temp = w at *
  generalize s.sample.2 = now at *
  have hreg := regulated_regulates w die temp now
  have hx : w.dieHeat die = x := hsame.dieHeat die
  refine ⟨_, hexec, by rwa [hreg.now], by rw [hreg.readings, hread], hreg.ctxs.trans hctxs, hreg.hbm.trans hhbm, hreg.cores.trans hcores, ?_, ?_,
    ?_, ?_, ?_, ?_, ?_, fun hwarm => (hreg.tripped (by rwa [hreg.readings] at hwarm)).trans htripped⟩
  · intro h hold
    rw [State.func, hreg.funcs]
    exact hhigh h hold
  · intro h hold
    rw [State.func, hreg.funcs]
    exact hcrit h hold
  · intro hd h
    rw [regulated_crit w (by omega) h]
    refine ⟨?_, fun g hmem => ?_⟩
    · rw [holdDie_dieHeat, dieHeat_setHeat]
      exact fun hd => Bool.noConfusion (congrArg DieHeat.crit hd : true = false)
    · rw [← hsame.dieGals] at hmem
      rw [← hsame.gal]
      exact holdDie_held (s := w.setHeat die _) hrise hgals die 4 hmem
  · intro hd h h' hc hheld hdue'
    rw [regulated_free w (by omega) h' (hx ▸ hc) (hx ▸ hheld) (hx ▸ hdue hdue'), if_pos h]
    intro g hmem
    rw [← hsame.dieGals] at hmem
    rw [← hsame.gal]
    exact fallDie_falls (s := w.setHeat die _) hrise hgals die hmem
  · intro hd h hc hheld hdue'
    rw [regulated_free w (by omega) (by omega) (hx ▸ hc) (hx ▸ hheld) (hx ▸ hdue hdue'), if_neg (by omega), if_pos h]
    intro g hmem d c hfind
    rw [← hsame.dieGals] at hmem
    rw [← hsame.gal] at hfind ⊢
    rw [cooled_gal]
    exact returnDie_returns (s := w.setHeat die _) hrise hgals die hmem hfind
  · intro hd h h' hc
    rw [regulated_released w (by omega) h h' now (hx ▸ hc)]
    intro g hmem
    rw [← hsame.dieGals] at hmem
    rw [← hsame.gal, cooled_gal]
    exact holdDie_held (s := w.setHeat die _) hrise hgals die 16 hmem
  · intro hd h hdue'
    subst hd
    rw [regulated_slow w h (hx ▸ hdue hdue'), hx]

/-- What a stack's report below 120 °C leaves (R260, R398). -/
theorem stackTempReport_reports (hs : s.Tables) {k temp : Nat} (hk : k < 8) (hpow : (s.stack k).power ≠ 0) (htemp : temp < 120) :
    ∃ t y, exec (.stackTempReport k temp) s = .next t ∧ y = (s.stack k).report temp (s.setting 5 95) s.sample.2 ∧ t.stack k = y ∧
      t.ctxs = s.ctxs ∧ t.hbm = s.hbm ∧ t.cores = s.cores ∧
      (y.refreshOnly = true → y.refreshSince + 1000000000 < s.now → k ∉ (s.dieHeat (k / 2)).held → bit (t.func 0).power 3 = true ∧
        ∀ g ∈ s.dieGals (k / 2), (t.gal g).limits = mset (16, 4000) (mset (16, 4000) (s.gal g).limits 4 (16, 800)) 5 (16, 4000)) := by
  have hexec := exec_stackTempReport hk hpow htemp
  obtain ⟨hsame, hstack, hctxs, hhbm, hcores, -⟩ := stackRead_keeps hs k (s.reported k temp)
  have htables := (stackRead_onward s k (s.reported k temp)).tables hs
  have hnow : s.now ≤ s.sample.2 := Nat.le_add_right _ _
  generalize hv : s.stackRead k (s.reported k temp) = v at *
  obtain ⟨hstack', hctxs', hhbm', hcores'⟩ := stackActs_keeps htables.funcs k temp (s.reported k temp) s.sample.2
  refine ⟨_, _, hexec, rfl, hstack'.trans hstack, hctxs'.trans hctxs, hhbm'.trans hhbm, hcores'.trans hcores, fun hy hlong hnew => ?_⟩
  have hheld := stackActs_held (temp := temp) htables.funcs htables.gals hy (lt_of_lt_of_le hlong hnow) (by rwa [hsame.dieHeat])
  rw [hsame.dieGals] at hheld
  refine ⟨hheld.1, fun g hmem => ?_⟩
  rw [← hsame.gal]
  exact hheld.2 g hmem

/-- Settles O50: a trip empties the module and leaves no partition, a sample below it acts on the galleries of its die alone, and a stack's
report changes that stack. -/
theorem thermalCommands : Obligations.ThermalCommands := by
  unfold Obligations.ThermalCommands
  intro s hs
  have hT := hs.tables
  intro told held lost
  have hlost : ∀ (w : State) (v : Nat), s.Onward true 3 w → lost (w.trip v) := fun w v hw => by
    obtain ⟨h1, h2, h3, h4, h5, h6, h7⟩ := trip_loses (hw.tables hT) v
    exact ⟨h1, h2, h3, h4, h5, h6.trans (hw.link le_rfl), h7⟩
  refine ⟨fun die temp hdie => ?_, fun k temp hk hpow => ?_, coolantReport_reports hT.funcs, fun mv hsup => inputVoltage_measured hT.funcs hsup mv⟩
  · by_cases htemp : 1200 ≤ temp
    · have hmeter : s.Onward true 3 (s.metered die temp) := .lose (.sample (.refl true s)) rfl rfl fun r => { r with }
      have htrip : s.Onward true 3 ((s.metered die temp).trip (tempValue temp)) := .trip (deep := 0) hmeter
      have hhigh : ¬ temp < 1200 := by omega
      refine ⟨_, exec_thermalSample_trip hdie htemp, ?_, fun h => absurd h hhigh, fun _ htripped => ?_, fun _ h => absurd h hhigh,
        fun _ h => absurd h hhigh, fun _ _ h => absurd h hhigh, fun _ _ h => absurd h (by omega), fun _ h => absurd h (by omega),
        fun _ _ h => absurd h (by omega), fun _ _ h => absurd h hhigh, fun h => absurd h hhigh⟩
      · split
        · exact hmeter.now
        · exact htrip.now
      · rw [if_neg (by simp [htripped])]
        exact hlost _ _ hmeter
    · obtain ⟨t, hexec, hnow, hread, hctxs, hhbm, hcores, h2, h3, hcrit, hfall, hreturn, hrelease, hslow, htripped⟩ :=
        thermalSample_regulates hT hdie (not_le.1 htemp)
      exact ⟨t, hexec, hnow, fun _ => ⟨hread, hctxs, hhbm, hcores⟩, fun h => absurd h htemp, fun h _ => h2 h, fun h _ => h3 h,
        fun hd h _ => hcrit hd h, hfall, hreturn, hrelease, fun hd h _ => hslow hd h, fun _ => htripped⟩
  · by_cases htemp : 120 ≤ temp
    · have hread := stackRead_onward s k (s.reported k temp)
      obtain ⟨-, -, -, -, -, htripped⟩ := stackRead_keeps hT k (s.reported k temp)
      have hhigh : ¬ temp < 120 := by omega
      refine ⟨_, exec_stackTempReport_trip hk hpow htemp, fun _ h => ?_, fun _ h => absurd h hhigh, fun _ h => absurd h hhigh,
        fun _ h => absurd h (by omega), fun h => absurd h (by omega), fun h => absurd h hhigh⟩
      rw [if_neg (by simp [htripped, h])]
      exact hlost _ _ hread
    · obtain ⟨t, y, hexec, hy, hstack, hctxs, hhbm, hcores, hheld⟩ := stackTempReport_reports hT hk hpow (not_le.1 htemp)
      refine ⟨t, hexec, fun h => absurd h htemp, fun hhot _ hserved => ?_, fun hhot _ hrefresh => ?_, fun hlo hhi => ?_, fun hcold => ?_,
        fun _ => ⟨hctxs, hhbm, hcores⟩⟩
      · rw [report_hot _ hhot, hserved] at hy
        rw [hstack, hy, Bool.not_false, Bool.or_true]
        exact ⟨rfl, Nat.le_add_right _ _⟩
      · rw [report_hot _ hhot, hrefresh] at hy
        have hsame : y = { s.stack k with temp, step := (s.stack k).up temp (s.setting 5 95) } := by
          rw [hy]
          simp [hrefresh]
        refine ⟨hstack.trans hsame, fun hlong hnew => ?_⟩
        rw [hsame] at hheld
        exact hheld hrefresh hlong hnew
      · rw [hstack, hy, report_warm _ hlo hhi]
        rfl
      · rw [hstack, hy, report_cold _ hcold]
        rfl

end Sys2Proof.Machine
end

section
/-! Debug sessions and `CREW_DEBUG` (R102 to R106, Table 3-8): the obligation `DebugCommands`. -/

namespace Sys2Proof.Machine

open Sys2Proof

variable {s v : State} {path op core key : Nat} {t : Taken} {u : Sub} {c : Crew}

/-! ### A request on a crew -/

/-- A request that names a resident crew runs its operation on it. -/
theorem next_of_debugs (h : s.Debugs path op t u core key c) (hop : op ≠ 0 ∧ op ≤ 5) {f : Sub → Nat → Nat → Crew → State} (hf : f u core key c = v) :
    (.next (s.debug path op f) : Outcome) = .next v := by
  obtain ⟨hhand, hnum, hcore, hkey, hopen, hpart, hquarter, hslot, hcrew, hstate⟩ := h
  refine next_of_inHand hhand ?_
  simp only [hnum, hcore, hkey, hopen, hpart, hcrew, hquarter, hslot, and_self, if_true]
  rw [if_neg (by omega), if_neg (by simp), if_neg (by simp), if_neg (by simp), if_neg (by
    rintro ⟨hfaulted, hne⟩
    exact hstate.elim (fun h => h hfaulted) hne)]
  exact hf

/-- Without a session no operation is accepted (R102). -/
theorem next_of_closed {q : Nat} (h : s.InHand path 0x0703 t u) (hq : t.part = some q) (hclosed : (s.part q).debugOpen = false) (hnum : u.num 2 = op)
    (hop : op ≠ 0 ∧ op ≤ 5) (f : Sub → Nat → Nat → Crew → State) : (.next (s.debug path op f) : Outcome) = .next (s.reply path 3 0 []) := by
  refine next_of_inHand h ?_
  simp only [hnum, hq, Option.getD_some, hclosed, if_true]
  rw [if_neg (by omega), if_neg (by simp)]

/-! ### What the operations do to a crew -/

theorem crew_setCrew_other (s : State) {core key k : Nat} (y : Crew) (h : k ≠ key) : (s.setCrew core key y).crew core k = s.crew core k := by
  simp only [State.crew, setCrew_core_same]
  exact mfind_minsert_other _ _ _ _ h

theorem wake_of_path {p : Nat × Nat} (h : c.path = some p) : c.wake = c := by
  rw [Crew.wake, h]

theorem wake_of_stack (hpath : c.path = none) (hstack : takeRunnable c.stack = none) : c.wake = c := by
  rw [Crew.wake, hpath, hstack]

theorem halted_of_state (h : c.state = .halted) : { c with state := .halted } = c := by
  rw [← h]

/-- Nothing is discarded for the sake of no write. -/
theorem without_nil (w : RegWrite) : w.without [] = some w := by
  cases w <;> simp [RegWrite.without]

theorem discard_nil (c : Crew) (older : Result → Bool) : c.discard [] older = c := by
  have hid : ∀ o : Result, (if older o then { o with writes := o.writes.filterMap (fun w => w.without []) } else o) = o := fun o => by
    simp only [without_nil, List.filterMap_some, ite_self]
  simp only [Crew.discard, hid, List.map_id']

/-- A core whose clock is read for a crew: that crew has changed, no other, and no memory and no context. -/
theorem sampleClock_setCrew (s : State) (core key : Nat) (y : Crew) :
    let x := (s.sampleClock core).1.setCrew core key y
    x.crew core key = some y ∧ (∀ k, k ≠ key → x.crew core k = s.crew core k) ∧ x.hbm = s.hbm ∧ x.ctxs = s.ctxs := by
  obtain ⟨hoff, hcore, -⟩ := sampleClock_only_clock s core
  refine ⟨setCrew_crew_same _ _ _ _, fun k hk => ?_, (congrArg State.hbm hoff :), (congrArg State.ctxs hoff :)⟩
  rw [crew_setCrew_other _ _ hk, State.crew, hcore]
  rfl

/-! ### Reading -/

theorem readFields_flags (u : Sub) (c : Crew) (h : u.num 3 = 32) : readFields u c = fieldBytes 0x0A (toBytes 4 c.flags) := by
  simp [readFields, h, bit_eq_testBit, Nat.testBit]

theorem readFields_preds (u : Sub) (c : Crew) (h : u.num 3 = 4) :
    readFields u c = fieldBytes 6 ((List.range 8).flatMap (fun p => toBytes 8 (c.pred p))) := by
  simp [readFields, h, bit_eq_testBit, Nat.testBit]

theorem readFields_vregs (u : Sub) (c : Crew) (h : u.num 3 = 1) (hall : u.has 4 = false) :
    readFields u c = fieldBytes 4 (toBytes 1 0 ++ toBytes 1 0 ++ toBytes 1 c.regs ++ zeros 1 ++
      (List.range c.regs).flatMap (fun i => toBytes 4 (mget 0 c.v i).toNat)) := by
  simp [readFields, h, bit_eq_testBit, Nat.testBit, vregsOf, hall]

/-! ### Writing -/

theorem num?_of_has {n : Nat} (h : u.has n = false) : u.num? n = none := by
  rw [Sub.has, Option.isSome_eq_false_iff, Option.isNone_iff_eq_none] at h
  rw [Sub.num?, h]
  rfl

theorem has_of_num? {n x : Nat} (h : u.num? n = some x) : u.has n = true := by
  rw [Sub.num?, Option.map_eq_some_iff] at h
  obtain ⟨bs, hbs, -⟩ := h
  rw [Sub.has, hbs]
  rfl

/-- A write that names no register and no program counter changes nothing. -/
theorem writtenCrew_of_none (h4 : u.has 4 = false) (h5 : u.has 5 = false) (h6 : u.has 6 = false) (h7 : u.has 7 = false) : writtenCrew u c = c := by
  simp [writtenCrew, h4, h5, h6, num?_of_has h7, Crew.commitAll, discard_nil]

theorem writtenCrew_of_pc {pc a m : Nat} (h4 : u.has 4 = false) (h5 : u.has 5 = false) (h6 : u.has 6 = false) (h7 : u.num? 7 = some pc)
    (hpath : c.path = some (a, m)) : writtenCrew u c = { c with path := some (pc, m) } := by
  simp [writtenCrew, h4, h5, h6, h7, Crew.commitAll, discard_nil, hpath]

/-- A write of one uniform register. -/
def writtenUniform (c : Crew) (r v : Nat) : Crew :=
  (c.commit (.u r (BitVec.ofNat 64 v))).discard [.u r (BitVec.ofNat 64 v)] (fun _ => true)

theorem uregsOf_of_bytes {r v : Nat} (hbytes : u.bytesOf 5 = toBytes 1 r ++ toBytes 1 1 ++ zeros 2 ++ toBytes 8 v) (h5 : u.has 5 = true) (hr : r < 64) :
    uregsOf u = (r, 1) := by
  have hfirst : field (u.bytesOf 5) 0 1 = r := by
    rw [field_of_drop (rest := toBytes 1 1 ++ zeros 2 ++ toBytes 8 v) (v := r) (by rw [hbytes]; simp)]
    omega
  have hcount : field (u.bytesOf 5) 1 1 = 1 :=
    (field_of_drop (rest := zeros 2 ++ toBytes 8 v) (v := 1) (by rw [hbytes]; simp)).trans (by norm_num)
  rw [uregsOf, if_pos h5, hfirst, hcount]

theorem writtenCrew_of_uniform {r v : Nat} (h4 : u.has 4 = false) (h6 : u.has 6 = false) (h7 : u.has 7 = false)
    (hbytes : u.bytesOf 5 = toBytes 1 r ++ toBytes 1 1 ++ zeros 2 ++ toBytes 8 v) (h5 : u.has 5 = true) (hr : r < 64) :
    writtenCrew u c = writtenUniform c r v := by
  have hvalue : field (u.bytesOf 5) 4 8 = v % 256 ^ 8 :=
    field_of_drop (rest := []) (by rw [hbytes, List.drop_left' (by simp), List.append_nil])
  have hword : BitVec.ofNat 64 (field (u.bytesOf 5) 4 8) = BitVec.ofNat 64 v := by
    rw [hvalue]
    exact BitVec.eq_of_toNat_eq (by simp)
  simp [writtenCrew, h4, h5, h6, num?_of_has h7, uregsOf_of_bytes hbytes h5 hr, Crew.commitAll, hword, writtenUniform]

theorem writtenUniform_writes (hrise : rising c.u) (r v : Nat) :
    mget 0 (writtenUniform c r v).u r = BitVec.ofNat 64 v ∧ ∀ k, k ≠ r → mget 0 (writtenUniform c r v).u k = mget 0 c.u k :=
  ⟨mget_mset_same_of_rising _ _ _ hrise, fun _ hk => mget_mset_other_of_rising _ _ hk hrise⟩

/-! ### Stepping -/

theorem haltAgain_state {d : Crew} {a : Nat} (h : (s.haltAgain core key a).crew core key = some d) : d.state = .halted ∨ d.state = .faulted := by
  unfold State.haltAgain State.modCrew at h
  split at h
  next e he =>
    rw [setCrew_crew_same, Option.some_inj] at h
    subst h
    dsimp only
    split
    next hfaulted => exact .inr hfaulted
    next => exact .inl rfl
  next hnone => exact absurd (hnone.symm.trans h) (by simp)

/-- Whether a crew's next instruction can execute in a step. -/
def stepReady (c : Crew) (z : Option Issue) : Bool := match z with
  | some z => c.copyFault.isSome || !(z.i.known && z.i.legal c.width c.regs) || !c.blocked (z.i.sources c.width)
  | none => c.copyFault.isSome

/-- A halted crew after the instruction of a step. -/
def State.stepDone (s : State) (core key : Nat) (c : Crew) : State :=
  ((s.setCrew core key { c with retry := false }).issue core key none).haltAgain core key c.idleFrom

/-- A step of a halted crew. -/
def State.stepHalted (s : State) (path core key : Nat) (c : Crew) : State :=
  match c.path with
  | none => s.reply path 0x11 0 []
  | some _ =>
    if !stepReady c ((s.setCrew core key { c with retry := false }).nextIssue core key c) then s.setCrew core key { c with retry := false }
    else
      let s := s.stepDone core key c
      match s.crew core key with
      | some c => if c.retry then s else s.reply path 0 0 []
      | none => s.reply path 0 0 []

theorem exec_stepCrew (h : s.Debugs path 4 t u core key c) (hstate : c.state = .halted)
    (hserved : (s.stepHalted path core key { c.wake with state := .halted }).stalled = false) :
    exec (.stepCrew path) s = .next (s.stepHalted path core key { c.wake with state := .halted }) :=
  waits_of_next (next_of_debugs h (by decide) (if_neg (not_not.2 hstate))) hserved

/-- A step that is ready and comes to its end is answered (R103). -/
theorem exec_stepCrew_done {p : Nat × Nat} {z : Issue} {d : Crew} (h : s.Debugs path 4 t u core key c) (hstate : c.state = .halted) (hpath : c.path = some p)
    (hcopy : c.copyFault = none) (hz : (s.setCrew core key { c with retry := false }).nextIssue core key c = some z) (hknown : z.i.known = true)
    (hlegal : z.i.legal c.width c.regs = true) (hblocked : c.blocked (z.i.sources c.width) = false)
    (hserved : (s.stepDone core key c).stalled = false)
    (hd : (s.stepDone core key c).crew core key = some d)
    (hretry : d.retry = false) :
    exec (.stepCrew path) s =
      .next ((s.stepDone core key c).reply path 0 0 []) := by
  have hready : stepReady c ((s.setCrew core key { c with retry := false }).nextIssue core key c) = true := by
    rw [hz]
    simp [stepReady, hcopy, hknown, hlegal, hblocked]
  have hstep : s.stepHalted path core key { c.wake with state := .halted } = (s.stepDone core key c).reply path 0 0 [] := by
    rw [wake_of_path hpath, halted_of_state hstate, State.stepHalted]
    split
    next hnone => exact absurd (hnone.symm.trans hpath) (by simp)
    next =>
      rw [hready, if_neg (by decide)]
      dsimp only
      rw [hd]
      simp [hretry]
  rw [exec_stepCrew h hstate (by rw [hstep]; exact reply_served hserved _ _ _), hstep]

/-! ### Resuming -/

/-- A crew that resumes in a state, with the age that it had or a new one (R97, R105). -/
def Crew.resumed (c : Crew) (seq now : Nat) (state : CrewState) : Crew := { c with
  age := if c.newAge then seq else c.age
  newAge := false
  excluded := c.excluded + (now - c.idleFrom)
  state }

/-- The state in which a crew resumes: its core's clock read, and its quarter's ages counted on where it takes a new one. -/
def State.onResume (s : State) (core key : Nat) (c : Crew) : State :=
  if c.newAge then (s.sampleClock core).1.modCore core
      (fun k => { k with ageSeq := mset 0 k.ageSeq (key / 48) (mget 0 ((s.sampleClock core).1.core core).ageSeq (key / 48) + 1) })
  else (s.sampleClock core).1

theorem onResume_keeps (s : State) (core key : Nat) (c : Crew) : (s.onResume core key c).hbm = s.hbm ∧ (s.onResume core key c).ctxs = s.ctxs := by
  obtain ⟨hoff, -⟩ := sampleClock_only_clock s core
  have hhbm : (s.sampleClock core).1.hbm = s.hbm := (congrArg State.hbm hoff :)
  have hctxs : (s.sampleClock core).1.ctxs = s.ctxs := (congrArg State.ctxs hoff :)
  unfold State.onResume
  split
  · exact ⟨hhbm, hctxs⟩
  · exact ⟨hhbm, hctxs⟩

theorem strandCheck_of_running {d : Crew} (h : s.crew core key = some d) (hd : d.state = .running) : s.strandCheck core key = s := by
  rw [State.strandCheck, h]
  simp [hd]

/-- What a resume of a crew does, once it is known to be halted. -/
def State.resumeHalted (s : State) (path core key : Nat) (c : Crew) : State :=
  let d := c.resumed (mget 0 ((s.sampleClock core).1.core core).ageSeq (key / 48)) (s.sampleClock core).2
    (if c.path.isSome || c.allExited then .running else .waiting)
  let s := (s.onResume core key c).setCrew core key d.wake
  let s := match c.copyFault with
    | some (code, a) => s.pathFault core key code a 0
    | none => s.strandCheck core key
  s.reply path 0 0 []

theorem exec_resume (h : s.Debugs path 5 t u core key c) (hstate : c.state = .halted) :
    exec (.resume path) s = .next (s.resumeHalted path core key c) :=
  next_of_debugs h (by decide) (if_neg (not_not.2 hstate))

/-- A halted crew with a current path runs on (R97). -/
theorem resumeHalted_runs {p : Nat × Nat} (hpath : c.path = some p) (hcopy : c.copyFault = none) :
    s.resumeHalted path core key c = ((s.onResume core key c).setCrew core key
      (c.resumed (mget 0 ((s.sampleClock core).1.core core).ageSeq (key / 48)) (s.sampleClock core).2 .running)).reply path 0 0 [] := by
  have hrun : (if c.path.isSome || c.allExited then CrewState.running else .waiting) = .running := by simp [hpath]
  unfold State.resumeHalted
  rw [hrun]
  dsimp only
  rw [wake_of_path (c := c.resumed _ _ _) hpath, hcopy]
  dsimp only
  rw [strandCheck_of_running (setCrew_crew_same _ _ _ _) rfl]

/-! ### Sessions -/

/-- Settles O38: an operation reaches the crew that its request names while a session is open, and changes that crew as Table 3-8 says. -/
theorem debugCommands : Obligations.DebugCommands := by
  unfold Obligations.DebugCommands
  intro s path t u core key c hs gives turns
  refine ⟨fun q hq => ⟨fun h => next_of_inHand h ?_, fun h => next_of_inHand h ?_, fun h hclosed op i hmem hnum => ?_⟩, fun h hstate hexit hretry => ?_,
    fun h hv hu => ⟨?_, fun h32 => readFields_flags u c h32, fun h4 => readFields_preds u c h4, fun h1 hall => readFields_vregs u c h1 hall⟩,
    fun h => ⟨fun hstate => ?_, fun hstate h4 h6 h7 => ⟨fun h5 => ?_, fun r v hbytes h5 hr hrise => ?_⟩, fun pc a m hstate h4 h5 h6 h7 hpath => ?_⟩,
    fun h => ⟨fun hstate => ?_, fun hstate hpath hstack => ?_, ?_⟩, fun h => ⟨fun hstate => ?_, fun p hstate hpath hcopy => ?_⟩⟩
  · rw [hq]
    rfl
  · rw [hq]
    rfl
  · have hclosed' := fun hop f => next_of_closed h hq hclosed hnum hop f
    simp only [List.mem_cons, Prod.mk.injEq, List.not_mem_nil, or_false] at hmem
    rcases hmem with ⟨rfl, rfl⟩ | ⟨rfl, rfl⟩ | ⟨rfl, rfl⟩ | ⟨rfl, rfl⟩ | ⟨rfl, rfl⟩
    · exact hclosed' (by decide) _
    · exact hclosed' (by decide) _
    · exact hclosed' (by decide) _
    · exact waits_of_next (hclosed' (by decide) _) (reply_served hs.served _ _ _)
    · exact hclosed' (by decide) _
  · obtain ⟨hcrew, hothers, hhbm, hctxs⟩ := sampleClock_setCrew s core key { c.settled with state := .halted, idleFrom := (s.sampleClock core).2 }
    refine ⟨_, (s.sampleClock core).2, next_of_debugs h (by decide) ?_, clock_le_sampleClock s core, hcrew, hothers, hhbm, hctxs⟩
    rw [if_neg hstate, if_neg (by simp [hexit]), if_neg (by simp [hretry])]
  · refine next_of_debugs h (by decide) ?_
    rw [if_neg (by rcases hv with hv | hv <;> simp [hv]), if_neg (by rcases hu with hu | hu <;> simp [hu])]
  · exact next_of_debugs h (by decide) (if_pos hstate)
  · refine next_of_debugs h (by decide) ?_
    simp [hstate, h4, h5, h7, writtenCrew_of_none h4 h5 h6 h7]
  · obtain ⟨hsame, hothers⟩ := writtenUniform_writes hrise r v
    have hregs := uregsOf_of_bytes hbytes h5 hr
    have hfit : uregsFit (uregsOf u) = true := by
      rw [hregs]
      simp [uregsFit]
      omega
    have hlen : (u.bytesOf 5).length = 4 + 8 * (uregsOf u).2 := by
      rw [hregs, hbytes]
      simp [zeros]
    refine ⟨writtenUniform c r v, next_of_debugs h (by decide) ?_, hsame, hothers, rfl, hstate⟩
    simp [hstate, h4, h7, hfit, hlen, writtenCrew_of_uniform h4 h6 h7 hbytes h5 hr]
  · refine next_of_debugs h (by decide) ?_
    simp [hstate, h4, h5, hpath, writtenCrew_of_pc h4 h5 h6 h7 hpath]
  · exact waits_of_next (next_of_debugs h (by decide) (if_pos hstate)) (reply_served hs.served _ _ _)
  · have hstep : s.stepHalted path core key { c.wake with state := .halted } = s.reply path 0x11 0 [] := by
      rw [wake_of_stack hpath hstack, halted_of_state hstate, State.stepHalted, hpath]
    exact (exec_stepCrew h hstate (by rw [hstep]; exact reply_served hs.served _ _ _)).trans (by rw [hstep])
  · intro p z d hstate hpath hcopy s1 hz hknown hlegal hblocked s2 hserved hd hretry
    exact ⟨exec_stepCrew_done h hstate hpath hcopy hz hknown hlegal hblocked hserved hd hretry, haltAgain_state hd⟩
  · exact next_of_debugs h (by decide) (if_pos hstate)
  · obtain ⟨hhbm, hctxs⟩ := onResume_keeps s core key c
    refine ⟨(s.onResume core key c).setCrew core key (c.resumed (mget 0 ((s.sampleClock core).1.core core).ageSeq (key / 48)) (s.sampleClock core).2 .running),
      c.resumed (mget 0 ((s.sampleClock core).1.core core).ageSeq (key / 48)) (s.sampleClock core).2 .running, (exec_resume h hstate).trans (by rw [resumeHalted_runs hpath hcopy]),
      setCrew_crew_same _ _ _ _, rfl, hpath, rfl, Nat.le_add_right _ _, rfl, rfl, rfl, fun hold => if_neg (by simp [hold]), hhbm, hctxs⟩

end Sys2Proof.Machine
end

section
/-! Commands on partitions, ports, cores, regulators and host cores: the obligation `PartitionCommands` (R249 to R251, R282 to R286, R300 to R302, R409). -/

namespace Sys2Proof.Machine

open Sys2Proof

variable {s v : State} {path q : Nat} {t : Taken} {u : Sub}

/-! ### What a new partition is given -/

theorem clearCore_gals (s : State) (c : Nat) : (s.clearCore c).gals = s.gals ∧ (s.clearCore c).parts = s.parts ∧ (s.clearCore c).conf = s.conf := ⟨rfl, rfl, rfl⟩

theorem foldl_fixes {α β : Type} {f : State → β → State} (get : State → α) (hf : ∀ s x, get (f s x) = get s) (xs : List β) (s : State) :
    get (xs.foldl f s) = get s := by
  induction xs generalizing s with
  | nil => rfl
  | cons x xs ih => exact (ih _).trans (hf s x)

theorem clearCores_fixes (s : State) (g : Nat) :
    let t := (List.range 8).foldl (fun s j => s.clearCore (8 * g + j)) s
    t.gals = s.gals ∧ t.parts = s.parts ∧ t.conf = s.conf :=
  ⟨foldl_fixes (f := fun s j => s.clearCore (8 * g + j)) State.gals (fun _ _ => rfl) _ s,
    foldl_fixes (f := fun s j => s.clearCore (8 * g + j)) State.parts (fun _ _ => rfl) _ s,
    foldl_fixes (f := fun s j => s.clearCore (8 * g + j)) State.conf (fun _ _ => rfl) _ s⟩

/-- The cores of a gallery cleared, and what else is of it. -/
def State.joined (s : State) (g : Nat) : State := { s with
  galBanks := merase s.galBanks g
  traces := merase s.traces (1000 + g)
  slices := mset {} s.slices g { disabledWays := s.repairedWays g }
  hostLines := s.hostLines.filter (fun e => decide (e.1 / 2 ^ 50 / 2 ≠ g))
  hostCores := merase (merase s.hostCores (2 * g)) (2 * g + 1)
  gals := minsert s.gals g { st := 3 }
  uncoreIdle := sremove s.uncoreIdle (g / 5) }

theorem addGallery_eq (s : State) (g : Nat) : s.addGallery g = ((List.range 8).foldl (fun s j => s.clearCore (8 * g + j)) s).joined g := rfl

theorem joined_keeps (s : State) (g : Nat) :
    (s.joined g).gals = minsert s.gals g { st := 3 } ∧ (s.joined g).parts = s.parts ∧ (s.joined g).conf = s.conf := ⟨rfl, rfl, rfl⟩

/-- A gallery that joins a partition is powered with no limits; no other is, and no partition changes. -/
theorem addGallery_adds (s : State) (g : Nat) :
    (s.addGallery g).gals = minsert s.gals g { st := 3 } ∧ (s.addGallery g).parts = s.parts ∧ (s.addGallery g).conf = s.conf := by
  obtain ⟨hgals, hparts, hconf⟩ := clearCores_fixes s g
  rw [addGallery_eq]
  generalize (List.range 8).foldl (fun s j => s.clearCore (8 * g + j)) s = t at hgals hparts hconf ⊢
  obtain ⟨hgals', hparts', hconf'⟩ := joined_keeps t g
  exact ⟨by rw [hgals', hgals], hparts'.trans hparts, hconf'.trans hconf⟩

theorem gal_addGallery (s : State) (x g : Nat) : (s.addGallery x).gal g = if g = x then { st := 3 } else s.gal g := by
  rw [State.gal, (addGallery_adds s x).1]
  split
  next hx => rw [hx, mget_minsert_same]
  next hx => rw [mget_minsert_other _ _ _ _ _ hx]; rfl

theorem addGalleries_add (gs : List Nat) {g : Nat} (h : g ∈ gs ∨ s.gal g = { st := 3 }) :
    (gs.foldl (fun s g => s.addGallery g) s).gal g = { st := 3 } := by
  induction gs generalizing s with
  | nil => exact h.resolve_left List.not_mem_nil
  | cons x gs ih =>
    have hstep : g ∈ gs ∨ (s.addGallery x).gal g = { st := 3 } := by
      rw [gal_addGallery]
      split
      next => exact .inr rfl
      next hx => exact h.imp_left fun h => (List.mem_cons.1 h).resolve_left hx
    rw [List.foldl_cons]
    generalize s.addGallery x = w at hstep ⊢
    exact ih hstep

theorem addGalleries_fix (gs : List Nat) (s : State) :
    (gs.foldl (fun s g => s.addGallery g) s).parts = s.parts ∧ (gs.foldl (fun s g => s.addGallery g) s).conf = s.conf :=
  ⟨foldl_fixes State.parts (fun s g => (addGallery_adds s g).2.1) gs s, foldl_fixes State.conf (fun s g => (addGallery_adds s g).2.2) gs s⟩

/-- A state without its buckets. -/
def State.offBuckets (s : State) : State := { s with buckets := [] }

theorem defaultBuckets_off (s : State) (q groups galleries : Nat) : (s.defaultBuckets q groups galleries).offBuckets = s.offBuckets := by
  refine foldl_fixes State.offBuckets (fun s r => ?_) _ s
  dsimp only
  split
  · rfl
  · split <;> rfl

/-- A state without its stacks. -/
def State.offStacks (s : State) : State := { s with hbmStacks := [] }

theorem powerStacks_off (s : State) : s.powerStacks.offStacks = s.offStacks := by
  refine foldl_fixes State.offStacks (fun s k => ?_) _ s
  dsimp only
  split
  · split <;> rfl
  · split <;> rfl

/-- The partition that a request describes. -/
def LayoutPart.partition (p : LayoutPart) : Partition :=
  { live := true, galleries := p.galleries, groups := p.groups, onPf0 := p.onPf0, ctxCeiling := p.ctxCeiling
    deviceCeiling := p.deviceCeiling, fabricCeiling := p.fabricCeiling, persist := p.persist }

/-- A new partition with its galleries, before its buckets and stacks. -/
def State.peopled (s : State) (p : LayoutPart) : State :=
  (bitList 20 p.galleries).foldl (fun s g => s.addGallery g) (s.setPart p.part p.partition)

/-- The generation of a partition counted on. -/
def State.countGen (s : State) (q : Nat) : State :=
  { s with conf := { s.conf with partGens := mset 0 s.conf.partGens q (mget 0 s.conf.partGens q + 1) } }

theorem newPart_eq (s : State) (p : LayoutPart) :
    s.newPart p = (((s.peopled p).defaultBuckets p.part p.groups p.galleries).countGen p.part).powerStacks := by
  unfold State.newPart State.peopled LayoutPart.partition State.countGen
  rfl

theorem keeps_of_offBuckets (h : v.offBuckets = s.offBuckets) : v.gals = s.gals ∧ v.parts = s.parts ∧ v.conf = s.conf :=
  ⟨(congrArg State.gals h :), (congrArg State.parts h :), (congrArg State.conf h :)⟩

theorem keeps_of_offStacks (h : v.offStacks = s.offStacks) : v.gals = s.gals ∧ v.parts = s.parts ∧ v.conf = s.conf :=
  ⟨(congrArg State.gals h :), (congrArg State.parts h :), (congrArg State.conf h :)⟩

theorem countGen_keeps (s : State) (q : Nat) : (s.countGen q).gals = s.gals ∧ (s.countGen q).parts = s.parts ∧
    (s.countGen q).conf = { s.conf with partGens := mset 0 s.conf.partGens q (mget 0 s.conf.partGens q + 1) } := ⟨rfl, rfl, rfl⟩

theorem countGen_powerStacks (s : State) (q : Nat) :
    (s.countGen q).powerStacks.gals = s.gals ∧ (s.countGen q).powerStacks.parts = s.parts ∧
      mget 0 (s.countGen q).powerStacks.conf.partGens q = mget 0 s.conf.partGens q + 1 := by
  obtain ⟨hgals, hparts, hconf⟩ := keeps_of_offStacks (powerStacks_off (s.countGen q))
  obtain ⟨hgals', hparts', hconf'⟩ := countGen_keeps s q
  refine ⟨hgals.trans hgals', hparts.trans hparts', ?_⟩
  rw [hconf, hconf']
  exact mget_mset_same_of_ne _ _ (Nat.succ_ne_zero _)

/-- A partition that comes into being (R283). -/
theorem newPart_makes (h : rising s.parts) (p : LayoutPart) :
    (s.newPart p).part p.part = p.partition ∧ (∀ g ∈ bitList 20 p.galleries, (s.newPart p).gal g = { st := 3 }) ∧
      mget 0 (s.newPart p).conf.partGens p.part = mget 0 s.conf.partGens p.part + 1 ∧ ∀ q, q ≠ p.part → (s.newPart p).part q = s.part q := by
  have hadd := fun g (hg : g ∈ bitList 20 p.galleries) => addGalleries_add (s := s.setPart p.part p.partition) (bitList 20 p.galleries) (.inl hg)
  obtain ⟨hfixParts, hfixConf⟩ := addGalleries_fix (bitList 20 p.galleries) (s.setPart p.part p.partition)
  change ∀ g ∈ bitList 20 p.galleries, (s.peopled p).gal g = _ at hadd
  change (s.peopled p).parts = _ at hfixParts
  change (s.peopled p).conf = _ at hfixConf
  obtain ⟨hgals, hparts, hconf⟩ := keeps_of_offBuckets (defaultBuckets_off (s.peopled p) p.part p.groups p.galleries)
  obtain ⟨hgals', hparts', hgen⟩ := countGen_powerStacks ((s.peopled p).defaultBuckets p.part p.groups p.galleries) p.part
  rw [hconf, hfixConf] at hgen
  rw [newPart_eq]
  generalize (((s.peopled p).defaultBuckets p.part p.groups p.galleries).countGen p.part).powerStacks = w at hgals' hparts' hgen ⊢
  have hpart : ∀ q, w.part q = (s.setPart p.part p.partition).part q := fun q =>
    congrArg (fun m => mget ({} : Partition) m q) (hparts'.trans (hparts.trans hfixParts))
  refine ⟨(hpart _).trans (part_setPart h _ _), fun g hg => ?_, hgen, fun q hq => (hpart q).trans (part_setPart_ne h hq _)⟩
  rw [State.gal, hgals', hgals]
  exact hadd g hg

/-! ### Rules that a request breaks -/

theorem firstBroken_of_mem {rules : List (Bool × Nat)} {k : Nat} (h : (false, k) ∈ rules) : ∃ j, firstBroken rules = some j := by
  induction rules with
  | nil => exact absurd h List.not_mem_nil
  | cons r rules ih =>
    obtain ⟨ok, j⟩ := r
    cases ok with
    | false => exact ⟨j, rfl⟩
    | true => exact ih ((List.mem_cons.1 h).resolve_left (by simp))

theorem testBit_foldl_or {α : Type} (f : α → Nat) (xs : List α) (m i : Nat) :
    (xs.foldl (fun m x => m ||| f x) m).testBit i = (m.testBit i || xs.any (fun x => (f x).testBit i)) := by
  induction xs generalizing m with
  | nil => simp
  | cons x xs ih => simp [ih, Bool.or_assoc]

/-- A partition's own share meets what the others hold where it meets what one of them holds. -/
theorem heldBy_meets {a p : Nat} {f : Partition → Nat} (hq : q < 8) (hne : q ≠ p) (hlive : (s.part q).live = true) (h : a &&& f (s.part q) ≠ 0) :
    a &&& s.heldBy p f ≠ 0 := by
  obtain ⟨i, hi⟩ := Nat.exists_testBit_of_ne_zero h
  rw [Nat.testBit_and, Bool.and_eq_true] at hi
  intro hzero
  have hmem : q ∈ s.liveParts.filter (· ≠ p) := by simp [State.liveParts, hq, hlive, hne]
  have hbit : (s.heldBy p f).testBit i = true := by
    rw [State.heldBy, testBit_foldl_or]
    simp only [Bool.or_eq_true, List.any_eq_true]
    exact .inr ⟨q, hmem, hi.2⟩
  have hand : (a &&& s.heldBy p f).testBit i = true := by rw [Nat.testBit_and, hi.1, hbit]; rfl
  rw [hzero, Nat.zero_testBit] at hand
  exact Bool.false_ne_true hand

/-! ### Creation -/

/-- What becomes of a creation, once its flags are in range. -/
def State.createAs (s : State) (path : Nat) : NewPart → State
  | .refused st d => s.reply path st d []
  | .moving x => x
  | .made x => x.replyStored path []

/-- The partition that the fields of a creation describe. -/
def newPartOf (u : Sub) : LayoutPart := {
  part := u.num 1, galleries := u.num 2, groups := u.num 3, onPf0 := decide (u.num 4 = 0), ctxCeiling := u.num 5
  deviceCeiling := u.num 6, fabricCeiling := u.num 7, persist := decide (u.num 8 = 1) }

theorem exec_partCreate (h : s.InHand path 0x0401 t u) (h4 : u.num 4 ≤ 1) (h8 : u.num 8 ≤ 1) :
    exec (.partCreate path) s = .next (s.createAs path (s.makePart (newPartOf u))) := by
  refine next_of_inHand h ((checked_of_kept (by simp [firstBroken, h4, h8])).trans ?_)
  unfold State.createAs newPartOf
  rfl

theorem makePart_of_broken {p : LayoutPart} {k : Nat}
    (h : firstBroken ((decide (p.part < 8) && !(s.part p.part).live, 1) :: s.partRules p 5) = some k) : s.makePart p = .refused 3 k := by
  rw [State.makePart, h]

/-- After a thermal trip no partition is created (R399). -/
theorem makePart_tripped (p : LayoutPart) (h : s.tripped = true) : ∃ d, s.makePart p = .refused 3 d := by
  unfold State.makePart
  split
  · exact ⟨_, rfl⟩
  · rw [h]
    exact ⟨0, rfl⟩

/-- A partition that comes into being, from the state that has its tables. -/
theorem makePart_made {p : LayoutPart} (h : s.makePart p = .made v) :
    ∃ w, s.placeTables p.part p.groups (32 * tablePages []) (fun _ => false) = some w ∧ v = w.newPart p := by
  unfold State.makePart at h
  split at h
  · cases h
  split at h
  · cases h
  split at h
  · split at h <;> cases h
  split at h
  next w hw => exact ⟨w, hw, (NewPart.made.inj h).symm⟩
  next => cases h

theorem placeTables_keeps {groups lines : Nat} {out : Nat → Bool} (h : s.placeTables q groups lines out = some v) :
    v.parts = s.parts ∧ v.conf = s.conf := by
  rw [State.placeTables, Option.map_eq_some_iff] at h
  obtain ⟨r, -, hr⟩ := h
  rw [← hr]
  exact ⟨rfl, rfl⟩

/-- What a creation answers, and what it makes. -/
theorem partCreate_creates (hs : s.Sound) {p : LayoutPart} (h : s.InHand path 0x0401 t u) (h4 : u.num 4 ≤ 1) (h8 : u.num 8 ≤ 1) (hp : p = newPartOf u) :
    (s.tripped = true → ∃ d, exec (.partCreate path) s = .next (s.reply path 3 d [])) ∧
      ((s.part p.part).live = true → exec (.partCreate path) s = .next (s.reply path 3 1 [])) ∧
      (p.part < 8 → (∃ q < 8, q ≠ p.part ∧ (s.part q).live = true ∧ p.galleries &&& (s.part q).galleries ≠ 0) →
        ∃ d, exec (.partCreate path) s = .next (s.reply path 3 d [])) ∧
      (∀ v, s.makePart p = .made v → exec (.partCreate path) s = .next (v.replyStored path []) ∧ v.part p.part = p.partition ∧
        (∀ g ∈ bitList 20 p.galleries, v.gal g = { st := 3 }) ∧
        mget 0 v.conf.partGens p.part = mget 0 s.conf.partGens p.part + 1 ∧ ∀ q, q ≠ p.part → v.part q = s.part q) := by
  have hexec := exec_partCreate h h4 h8
  rw [← hp] at hexec
  refine ⟨fun htripped => ?_, fun hlive => ?_, fun hp8 hmeet => ?_, fun v hv => ?_⟩
  · obtain ⟨d, hd⟩ := makePart_tripped p htripped
    rw [hd] at hexec
    exact ⟨d, hexec⟩
  · rw [makePart_of_broken (k := 1) (by simp [firstBroken, hlive])] at hexec
    exact hexec
  · obtain ⟨q, hq, hne, hlive, hand⟩ := hmeet
    have hheld := heldBy_meets (a := p.galleries) (f := (·.galleries)) hq hne hlive hand
    have hmem : (false, 2) ∈ (decide (p.part < 8) && !(s.part p.part).live, 1) :: s.partRules p 5 := by
      simp [State.partRules, hheld]
    obtain ⟨d, hd⟩ := firstBroken_of_mem hmem
    rw [makePart_of_broken hd] at hexec
    exact ⟨d, hexec⟩
  · obtain ⟨w, hw, hvw⟩ := makePart_made hv
    obtain ⟨hparts, hconf⟩ := placeTables_keeps hw
    obtain ⟨hpart, hgals, hgen, hothers⟩ := newPart_makes (s := w) (by rw [hparts]; exact hs.tables.parts) p
    rw [hv] at hexec
    rw [← hvw] at hpart hgals hgen hothers
    rw [hconf] at hgen
    exact ⟨hexec, hpart, hgals, hgen, fun q hq => (hothers q hq).trans (congrArg (fun m => mget ({} : Partition) m q) hparts)⟩

/-! ### A change of ceilings -/

theorem groupsCanLeave_nil (s : State) (q leaving : Nat) : s.groupsCanLeave q leaving [] = true := rfl

/-- A partition with the groups that a change adds. -/
def State.withGroups (s : State) (p : LayoutPart) : State := s.setPart p.part { s.part p.part with groups := (s.part p.part).groups ||| p.groups }

/-- A partition with its new ceilings. -/
def State.withCeilings (s : State) (p : LayoutPart) : State := s.setPart p.part { s.part p.part with
  ctxCeiling := p.ctxCeiling, deviceCeiling := p.deviceCeiling, fabricCeiling := p.fabricCeiling, persist := p.persist }

/-- The partition with its new ceilings, and with what follows from galleries and groups that it keeps. -/
def State.ceiled (s : State) (p : LayoutPart) : State :=
  (((s.withGroups p).withCeilings p).defaultBuckets p.part p.groups p.galleries).powerStacks

theorem resizeGroups_kept {p : LayoutPart} (hleaving : s.leavingGroups p = 0) (hne : (s.part p.part).groups ≠ 0) :
    s.resizeGroups p = .ok (s.withGroups p) := by
  have hkeys : s.leavingKeys p = [] := by simp [State.leavingKeys, hleaving]
  have hzero : ∀ n, bit 0 n = false := fun n => by rw [bit_eq_testBit, Nat.zero_testBit]
  unfold State.resizeGroups
  cases htables : s.tableRun p.part with
  | none =>
    simp only [htables, hkeys, hne, decide_false, Bool.false_and, Bool.or_false, Bool.false_eq_true, if_false, groupsCanLeave_nil, if_true]
    rfl
  | some a =>
    simp only [htables, hkeys, hne, hleaving, hzero, decide_false, Bool.false_and, Bool.or_false, Bool.false_eq_true, if_false, groupsCanLeave_nil, if_true]
    rfl

theorem resizePart_ceilings {p : LayoutPart} (hgroups : p.groups = (s.part p.part).groups) (hgalleries : p.galleries = (s.part p.part).galleries)
    (hne : (s.part p.part).groups ≠ 0) : s.resizePart path p = (s.ceiled p).reply path 0 0 [] := by
  have hleaving : s.leavingGroups p = 0 := by simp [State.leavingGroups, hgroups]
  have hresize := resizeGroups_kept hleaving hne
  unfold State.resizePart State.ceiled State.withCeilings
  generalize s.withGroups p = w at hresize ⊢
  rw [hresize]
  dsimp only
  rw [if_pos hgalleries, if_pos hleaving]

/-- What a change of ceilings leaves the partition with. -/
theorem ceiled_sets (h : rising s.parts) {p : LayoutPart} (hgroups : p.groups = (s.part p.part).groups) :
    (s.ceiled p).part p.part = { s.part p.part with
      ctxCeiling := p.ctxCeiling, deviceCeiling := p.deviceCeiling, fabricCeiling := p.fabricCeiling, persist := p.persist } := by
  have hbuckets := keeps_of_offBuckets (defaultBuckets_off ((s.withGroups p).withCeilings p) p.part p.groups p.galleries)
  have hstacks := keeps_of_offStacks (powerStacks_off (((s.withGroups p).withCeilings p).defaultBuckets p.part p.groups p.galleries))
  have hrise : rising (s.withGroups p).parts := mset_keeps_rising _ _ _ h
  have hwith : (s.withGroups p).part p.part = s.part p.part := by
    rw [State.withGroups, part_setPart h, hgroups, Nat.or_self]
  have hset : ((s.withGroups p).withCeilings p).part p.part = { s.part p.part with
      ctxCeiling := p.ctxCeiling, deviceCeiling := p.deviceCeiling, fabricCeiling := p.fabricCeiling, persist := p.persist } := by
    rw [State.withCeilings, hwith]
    exact part_setPart hrise _ _
  exact (congrArg (fun m => mget ({} : Partition) m p.part) (hstacks.2.1.trans hbuckets.2.1)).trans hset

/-- A state without its partitions and what follows from their galleries and groups. -/
def State.offCeilings (s : State) : State := { s with parts := [], buckets := [], hbmStacks := [] }

theorem offCeilings_of_offBuckets (h : v.offBuckets = s.offBuckets) : v.offCeilings = s.offCeilings :=
  (congrArg (fun x : State => { x with parts := [], hbmStacks := [] }) h :)

theorem offCeilings_of_offStacks (h : v.offStacks = s.offStacks) : v.offCeilings = s.offCeilings :=
  (congrArg (fun x : State => { x with parts := [], buckets := [] }) h :)

theorem setPart_offCeilings (s : State) (q : Nat) (x : Partition) : (s.setPart q x).offCeilings = s.offCeilings := rfl

theorem ceiled_off (s : State) (p : LayoutPart) : (s.ceiled p).offCeilings = s.offCeilings := by
  unfold State.ceiled
  have hset : ((s.withGroups p).withCeilings p).offCeilings = s.offCeilings :=
    (setPart_offCeilings _ _ _).trans (setPart_offCeilings _ _ _)
  generalize (s.withGroups p).withCeilings p = w at hset ⊢
  have hbuckets := offCeilings_of_offBuckets (defaultBuckets_off w p.part p.groups p.galleries)
  generalize w.defaultBuckets p.part p.groups p.galleries = w' at hbuckets ⊢
  exact (offCeilings_of_offStacks (powerStacks_off w')).trans (hbuckets.trans hset)

theorem keeps_of_offCeilings (h : v.offCeilings = s.offCeilings) : v.regions = s.regions ∧ v.hbm = s.hbm ∧ v.ctxs = s.ctxs ∧ v.stalled = s.stalled :=
  ⟨(congrArg State.regions h :), (congrArg State.hbm h :), (congrArg State.ctxs h :), (congrArg State.stalled h :)⟩

/-- The partition that the fields of a resize describe. -/
def resizedPart (u : Sub) (q : Nat) (x : Partition) : LayoutPart := {
  part := q, galleries := (u.num? 2).getD x.galleries, groups := (u.num? 3).getD x.groups, onPf0 := x.onPf0
  ctxCeiling := (u.num? 4).getD x.ctxCeiling, deviceCeiling := (u.num? 5).getD x.deviceCeiling
  fabricCeiling := (u.num? 6).getD x.fabricCeiling
  persist := match u.num? 7 with | some b => decide (b = 1) | none => x.persist }

/-- The rules of a resize (R284 to R286). -/
def State.resizeRules (s : State) (u : Sub) (p : LayoutPart) : List (Bool × Nat) :=
  s.partRules p 4 ++ [(decide ((u.num? 7).getD 0 ≤ 1), 7),
    (decide (s.leavingGroups p = 0) || !(List.range 16).any (fun i => (s.seg i).live && decide ((s.seg i).keeper = p.part)), 3),
    (s.defaultsFit p.part p.groups p.galleries, 0)]

theorem resizedPart_kept (h2 : u.has 2 = false) (h3 : u.has 3 = false) {q : Nat} {x : Partition} :
    (resizedPart u q x).part = q ∧ (resizedPart u q x).galleries = x.galleries ∧ (resizedPart u q x).groups = x.groups := by
  simp [resizedPart, num?_of_has h2, num?_of_has h3]

/-- The rules of a change of ceilings: those of the ceilings are left, where the partition keeps to R282 with what it holds. -/
theorem resizeRules_ceilings {p : LayoutPart} (hq8 : u.num 1 < 8) (h2 : u.has 2 = false) (h3 : u.has 3 = false)
    (hp : p = resizedPart u (u.num 1) (s.part (u.num 1))) (hgne : (s.part (u.num 1)).galleries ≠ 0) (hglt : (s.part (u.num 1)).galleries < 2 ^ 20)
    (hrlt : (s.part (u.num 1)).groups < 2 ^ 32) (hgheld : (s.part (u.num 1)).galleries &&& s.heldBy (u.num 1) (·.galleries) = 0)
    (hrheld : (s.part (u.num 1)).groups &&& s.heldBy (u.num 1) (·.groups) = 0)
    (hpf0 : (s.part (u.num 1)).onPf0 = true → ∀ p < 8, p ≠ u.num 1 → (s.part p).live = true → (s.part p).onPf0 = false)
    (hfit : s.defaultsFit (u.num 1) (s.part (u.num 1)).groups (s.part (u.num 1)).galleries = true) (hpersist : (u.num? 7).getD 0 ≤ 1) :
    (1 ≤ p.ctxCeiling → p.ctxCeiling ≤ 32 → p.deviceCeiling ≤ 1024 → p.fabricCeiling ≤ 256 → firstBroken (s.resizeRules u p) = none) ∧
      (32 < p.ctxCeiling → firstBroken (s.resizeRules u p) = some 4) ∧
      (1 ≤ p.ctxCeiling → p.ctxCeiling ≤ 32 → 1024 < p.deviceCeiling → firstBroken (s.resizeRules u p) = some 5) := by
  obtain ⟨hpart, hgalleries, hgroups⟩ := resizedPart_kept h2 h3 (q := u.num 1) (x := s.part (u.num 1))
  rw [← hp] at hpart hgalleries hgroups
  have honPf0 : p.onPf0 = (s.part (u.num 1)).onPf0 := congrArg LayoutPart.onPf0 hp
  have hleaving : s.leavingGroups p = 0 := by simp [State.leavingGroups, hpart, hgroups]
  have halone : (p.onPf0 && (s.liveParts.filter (· ≠ p.part)).any (fun q => (s.part q).onPf0)) = false := by
    rw [Bool.and_eq_false_iff, hpart, honPf0]
    cases hon : (s.part (u.num 1)).onPf0 with
    | false => exact .inl rfl
    | true =>
      refine .inr (List.any_eq_false.2 fun q hq => ?_)
      simp only [List.mem_filter, State.liveParts, List.mem_range, decide_eq_true_eq] at hq
      simp [hpf0 hon q hq.1.1 hq.2 hq.1.2]
  have hrules : s.partRules p 4 = [(true, 1), (true, 2), (true, 3), (true, 4), (decide (1 ≤ p.ctxCeiling) && decide (p.ctxCeiling ≤ 32), 4),
      (decide (p.deviceCeiling ≤ 1024), 5), (decide (p.fabricCeiling ≤ 256), 6)] := by
    rw [State.partRules, halone]
    simp only [hpart, hgalleries, hgroups, hgheld, hrheld, hgne, hq8, hglt, hrlt, decide_true, Bool.and_self, ne_eq, not_false_eq_true, Bool.not_false]
  rw [State.resizeRules, hrules]
  refine ⟨fun hc1 hc2 hd hf => ?_, fun hc => ?_, fun hc1 hc2 hd => ?_⟩
  · simp [firstBroken, hleaving, hpart, hgroups, hgalleries, hfit, hpersist, hc1, hc2, hd, hf]
  · simp [firstBroken, show ¬ p.ctxCeiling ≤ 32 by omega]
  · simp [firstBroken, hc1, hc2, show ¬ p.deviceCeiling ≤ 1024 by omega]

theorem exec_partResize_broken {p : LayoutPart} {k : Nat} (hs : s.Sound) (h : s.InHand path 0x0402 t u) (hq : u.num 1 < 8)
    (hlive : (s.part (u.num 1)).live = true) (hp : p = resizedPart u (u.num 1) (s.part (u.num 1))) (hrule : firstBroken (s.resizeRules u p) = some k) :
    exec (.partResize path) s = .next (s.reply path 3 k []) := by
  subst hp
  refine waits_of_next (next_of_inHand h ?_) (reply_served hs.served _ _ _)
  exact (if_neg (by simp [hlive, hq])).trans (checked_of_broken hrule)

theorem exec_partResize_kept {p : LayoutPart} (hs : s.Sound) (h : s.InHand path 0x0402 t u) (hq : u.num 1 < 8)
    (hlive : (s.part (u.num 1)).live = true) (hp : p = resizedPart u (u.num 1) (s.part (u.num 1))) (hrule : firstBroken (s.resizeRules u p) = none)
    (hgroups : p.groups = (s.part p.part).groups) (hgalleries : p.galleries = (s.part p.part).galleries) (hne : (s.part p.part).groups ≠ 0)
    (hbusy : s.partBusy p.part = false) (hpre : s.preempting p.part = false) (hmoves : ∀ m ∈ s.tableMoves, m.part ≠ p.part)
    (hforeign : s.foreignTables p.part p.groups = []) :
    exec (.partResize path) s = .next ((s.ceiled p).reply path 0 0 []) := by
  obtain ⟨-, -, -, hstalled⟩ := keeps_of_offCeilings (ceiled_off s p)
  have hnone : s.tableMoves.any (fun m => decide (m.part = p.part)) = false := by simpa using hmoves
  have hresize := resizePart_ceilings (path := path) hgroups hgalleries hne
  subst hp
  change s.partBusy (u.num 1) = false at hbusy
  change s.preempting (u.num 1) = false at hpre
  change s.tableMoves.any (fun m => decide (m.part = u.num 1)) = false at hnone
  refine waits_of_next (next_of_inHand h ?_) (reply_served (hstalled.trans hs.served) _ _ _)
  refine (if_neg (by simp [hlive, hq])).trans ((checked_of_kept hrule).trans ?_)
  refine (if_neg ?_).trans ((if_neg ?_).trans ((if_pos hforeign).trans hresize))
  · exact fun hb => Bool.false_ne_true (by simpa only [hbusy, hpre, hnone, Bool.or_self] using hb)
  · exact fun hb => hb.1 hgalleries

/-! ### Drains of a partition -/

/-- What a context's state of draining does to what it is to its function. -/
theorem draining_standing {c d : Ctx} (h : c.standing = d.standing) : c.draining.standing = d.draining.standing := by
  simp only [Ctx.standing, Prod.mk.injEq] at h
  obtain ⟨-, hpart, hfn, hca, hcs, hct, hra, hrs, hrz, hroot⟩ := h
  simp only [Ctx.standing, Ctx.draining, hpart, hfn, hca, hcs, hct, hra, hrs, hrz, hroot]

theorem modCtx_draining_standing (h : rising s.ctxs) (m n : Nat) :
    ((s.modCtx m Ctx.draining).ctx n).standing = (if n = m then (s.ctx n).draining else s.ctx n).standing := by
  split
  next heq => rw [heq, ctx_modCtx_same h]
  next hne => exact congrArg Ctx.standing (ctx_setCtx_other_of_rising _ hne h)

/-- A drain of one context leaves every other what it was to its function. -/
theorem drainCtx_standing (h : s.Tables) (m n : Nat) :
    ((s.drainCtx m).ctx n).standing = (if n = m then (s.ctx n).draining else s.ctx n).standing := by
  have hpreempt : s.Onward false 2 (s.endPreempt m 1) := .endPreempt (deep := 1) (.refl false s)
  have hto : s.Onward false 4 (s.toDrain m) := .modCtx (deep := 1) (.endPreempt (.refl false s))
  have hdrain : (s.toDrain m).Onward false 2 (s.drainCtx m) := .dropUndispatched (deep := 0) (.writeCredit (deep := 1) (.refl false (s.toDrain m)))
  rw [hdrain.stands le_rfl (hto.tables h) n, State.toDrain, modCtx_draining_standing (hpreempt.tables h).ctxs]
  have hsame := hpreempt.stands le_rfl h n
  split
  · exact draining_standing hsame
  · exact hsame

/-- The contexts of a list enter DRAINING by turns that each keep a property. -/
theorem foldl_drains {P : State → Prop} {f : State → Nat → State} (all : List Nat)
    (hf : ∀ (s : State) m, m ∈ all → P s → P (f s m) ∧ ∀ n, ((f s m).ctx n).standing = (if n = m then (s.ctx n).draining else s.ctx n).standing)
    {ns : List Nat} (hns : ∀ n ∈ ns, n ∈ all) (hs : P s) :
    P (ns.foldl f s) ∧ ∀ n, ((ns.foldl f s).ctx n).standing = (if n ∈ ns then (s.ctx n).draining else s.ctx n).standing := by
  induction ns generalizing s with
  | nil => exact ⟨hs, fun n => rfl⟩
  | cons m ns ih =>
    obtain ⟨hw, hstep⟩ := hf s m (hns m (by simp)) hs
    obtain ⟨hend, hstands⟩ := ih (fun n hn => hns n (by simp [hn])) hw
    refine ⟨hend, fun n => (hstands n).trans ?_⟩
    have hstep := hstep n
    by_cases hm : n = m
    · rw [if_pos hm] at hstep
      rw [if_pos (show n ∈ m :: ns by simp [hm])]
      split
      · exact (draining_standing hstep).trans rfl
      · exact hstep
    · rw [if_neg hm] at hstep
      by_cases hn : n ∈ ns
      · rw [if_pos hn, if_pos (show n ∈ m :: ns by simp [hn])]
        exact draining_standing hstep
      · rw [if_neg hn, if_neg (show n ∉ m :: ns by simp [hm, hn])]
        exact hstep

theorem spaces_of_standing {c d : Ctx} {p : Prop} [Decidable p] (h : c.standing = (if p then d.draining else d).standing) :
    c.creditSpace = d.creditSpace ∧ c.ringSpace = d.ringSpace ∧ c.part = d.part ∧ (p → c.state = .draining) ∧ (¬ p → c.state = d.state) := by
  simp only [Ctx.standing, Prod.mk.injEq] at h
  obtain ⟨hstate, hpart, -, -, hcredit, -, -, hring, -⟩ := h
  by_cases hp : p
  · simp only [if_pos hp] at hstate hpart hcredit hring
    exact ⟨hcredit, hring, hpart, fun _ => hstate, fun hn => absurd hp hn⟩
  · simp only [if_neg hp] at hstate hpart hcredit hring
    exact ⟨hcredit, hring, hpart, fun hn => absurd hn hp, fun _ => hstate⟩

/-- The contexts of a list drain, their records going to the host. -/
theorem drainCtxs_drain {ns : List Nat} (hs : s.Sound) (h : ∀ n ∈ ns, (s.ctx n).creditSpace ≠ 0) :
    (ns.foldl (fun s n => s.drainCtx n) s).Sound ∧
      ∀ n, ((ns.foldl (fun s n => s.drainCtx n) s).ctx n).standing = (if n ∈ ns then (s.ctx n).draining else s.ctx n).standing := by
  obtain ⟨⟨hsound, -⟩, hstands⟩ := foldl_drains (f := fun s n => s.drainCtx n) (P := fun s => s.Sound ∧ ∀ n ∈ ns, (s.ctx n).creditSpace ≠ 0) ns
    (fun s m hm hP => by
      have hstep := drainCtx_standing hP.1.tables m
      have htables : (s.drainCtx m).Tables := (State.Onward.drainCtx (deep := 0) (n := m) (.refl false s)).tables hP.1.tables
      refine ⟨⟨State.sound_iff.2 ⟨htables, (drainCtx_drains hP.1 (hP.2 m hm)).1⟩, fun n hn hz => hP.2 n hn ?_⟩, hstep⟩
      exact (spaces_of_standing (hstep n)).1.symm.trans hz) (fun _ hn => hn) ⟨hs, h⟩
  exact ⟨hsound, hstands⟩

/-- The contexts of a list enter DRAINING. -/
theorem markCtxs_drain (ns : List Nat) (h : rising s.ctxs) :
    ∀ n, ((ns.foldl (fun s n => s.modCtx n Ctx.draining) s).ctx n).standing = (if n ∈ ns then (s.ctx n).draining else s.ctx n).standing :=
  (foldl_drains (f := fun s n => s.modCtx n Ctx.draining) (P := fun s => rising s.ctxs) ns
    (fun s m _ hP => ⟨mset_keeps_rising ({} : Ctx) m (s.ctx m).draining hP, modCtx_draining_standing hP m⟩) (fun _ hn => hn) h).2

/-- The contexts of a list are cut, their records going to the host. -/
theorem cutCtxs_host {b : Bool} (ns : List Nat) (hs : s.Tables) (h : ∀ n ∈ ns, (s.ctx n).ringSpace ≠ 0) (hv : s.Onward b 2 v) :
    s.Onward b 2 (ns.foldl (fun s n => s.cutCtx n) v) := by
  induction ns generalizing v with
  | nil => exact hv
  | cons m ns ih => exact ih (fun n hn => h n (by simp [hn])) (Onward.cutCtx_host (h m (by simp)) hs hv)

theorem mem_of_mget_ne {α : Type} {d : α} {m : Map α} {k : Nat} (h : mget d m k ≠ d) : (k, mget d m k) ∈ m := by
  induction m with
  | nil => exact absurd rfl h
  | cons e m ih =>
    obtain ⟨j, x⟩ := e
    simp only [mget] at h ⊢
    by_cases hj : j = k
    · rw [if_pos hj, hj]
      exact List.mem_cons_self
    · rw [if_neg hj] at h ⊢
      split at h
      next => exact absurd rfl h
      next hlt =>
        rw [if_neg hlt]
        exact List.mem_cons_of_mem _ (ih h)

theorem mget_of_mem_of_rising {α : Type} (d : α) {m : Map α} {k : Nat} {v : α} (h : rising m) (hmem : (k, v) ∈ m) : mget d m k = v := by
  induction m with
  | nil => exact absurd hmem List.not_mem_nil
  | cons e m ih =>
    obtain ⟨j, x⟩ := e
    simp only [rising, List.map_cons, List.pairwise_cons] at h
    rcases List.mem_cons.1 hmem with heq | hin
    · obtain ⟨rfl, rfl⟩ := Prod.mk.inj heq
      simp [mget]
    · have hlt : j < k := h.1 k (List.mem_map_of_mem hin)
      simp only [mget]
      rw [if_neg (by omega), if_neg (by omega)]
      exact ih h.2 hin

theorem mem_ctxsOf (h : rising s.ctxs) {n q : Nat} : n ∈ s.ctxsOf q ↔ (s.ctx n).state ≠ .free ∧ (s.ctx n).part = q := by
  simp only [State.ctxsOf, List.mem_map, List.mem_filter, Bool.and_eq_true, decide_eq_true_eq, Prod.exists, exists_and_right, exists_eq_right]
  constructor
  · rintro ⟨c, hmem, hstate, hpart⟩
    rw [State.ctx, mget_of_mem_of_rising _ h hmem]
    exact ⟨hstate, hpart⟩
  · rintro ⟨hstate, hpart⟩
    have hne : mget ({} : Ctx) s.ctxs n ≠ {} := fun hnone => hstate (congrArg Ctx.state hnone)
    exact ⟨s.ctx n, mem_of_mget_ne hne, hstate, hpart⟩

/-- What a drain or a cut of a partition begins with. -/
def State.beginPart (s : State) (cut : Bool) (q : Nat) : State :=
  let marked := (s.ctxsOf q).foldl (fun s n => s.modCtx n Ctx.draining) s
  if cut then (marked.ctxsOf q).foldl (fun s n => s.cutCtx n) marked else (s.ctxsOf q).foldl (fun s n => s.drainCtx n) s

theorem startDrain_part {d : Drain} (h : d.obj = .part q) : s.startDrain d = (s.beginPart d.cut q).withDrain d := by
  unfold State.startDrain State.beginPart
  rw [h]
  cases hcut : d.cut with
  | false => simp only [Bool.false_eq_true, if_false, State.withDrain]
  | true =>
    simp only [if_true, State.cutObj, State.withDrain]
    rfl

/-- A drain or a cut of a partition whose records go to the host leaves no access waiting, and its contexts in DRAINING. -/
theorem beginPart_begins {cut : Bool} (hs : s.Sound) (hcredit : cut = false → ∀ n ∈ s.ctxsOf q, (s.ctx n).creditSpace ≠ 0)
    (hring : cut = true → ∀ n ∈ s.ctxsOf q, (s.ctx n).ringSpace ≠ 0) :
    (s.beginPart cut q).stalled = false ∧ ∀ n ∈ s.ctxsOf q, ((s.beginPart cut q).ctx n).state = .draining := by
  unfold State.beginPart
  cases cut with
  | false =>
    obtain ⟨hsound, hstands⟩ := drainCtxs_drain hs (hcredit rfl)
    exact ⟨hsound.served, fun n hn => (spaces_of_standing (hstands n)).2.2.2.1 hn⟩
  | true =>
    have hmark := markCtxs_drain (s.ctxsOf q) hs.tables.ctxs
    have honward : s.Onward true 4 ((s.ctxsOf q).foldl (fun s n => s.modCtx n Ctx.draining) s) :=
      (State.Onward.refl true s).foldl fun _ _ hu => .modCtx (deep := 1) hu
    dsimp only
    rw [if_pos rfl]
    generalize hm : (s.ctxsOf q).foldl (fun s n => s.modCtx n Ctx.draining) s = w at hmark honward ⊢
    have htables := honward.tables hs.tables
    have hspace : ∀ n ∈ w.ctxsOf q, (w.ctx n).ringSpace ≠ 0 := fun n hn => by
      obtain ⟨-, hringSpace, hpart, -, hstate⟩ := spaces_of_standing (hmark n)
      rw [hringSpace]
      by_cases hin : n ∈ s.ctxsOf q
      · exact hring rfl n hin
      · rw [mem_ctxsOf htables.ctxs, hstate hin, hpart, ← mem_ctxsOf hs.tables.ctxs] at hn
        exact absurd hn hin
    have hcut := cutCtxs_host (w.ctxsOf q) htables hspace (.refl true w)
    refine ⟨hcut.stalled rfl (honward.stalled rfl hs.served), fun n hn => ?_⟩
    rw [state_of_stands hcut htables n]
    exact (spaces_of_standing (hmark n)).2.2.2.1 hn

/-! ### Drains that requests begin -/

/-- The state in which a request begins a drain: the clock read, and its path waiting. -/
def State.toBegin (s : State) (path : Nat) : State := s.sample.1.await path

theorem toBegin_keeps (hs : s.Sound) (path : Nat) : (s.toBegin path).Sound ∧ (s.toBegin path).ctxs = s.ctxs := by
  have honward : s.Onward true 4 (s.toBegin path) := .await (deep := 3) (.sample (.refl true s))
  exact ⟨State.sound_iff.2 ⟨honward.tables hs.tables, honward.stalled rfl hs.served⟩, (congrArg State.ctxs (await_off s.sample.1 path) :)⟩

theorem ctxsOf_of_ctxs (h : v.ctxs = s.ctxs) (q : Nat) : v.ctxsOf q = s.ctxsOf q ∧ ∀ n, v.ctx n = s.ctx n :=
  ⟨by simp only [State.ctxsOf, h],
    fun n => congrArg (fun m => mget ({} : Ctx) m n) h⟩

theorem mem_withDrain (s : State) (d : Drain) : d ∈ (s.withDrain d).drains := List.mem_append_right _ (List.mem_singleton_self d)

/-- A drain or a cut of a partition that a request begins. -/
theorem beginPart_toBegin {cut : Bool} (hs : s.Sound) (path : Nat) (hcredit : cut = false → ∀ n ∈ s.ctxsOf q, (s.ctx n).creditSpace ≠ 0)
    (hring : cut = true → ∀ n ∈ s.ctxsOf q, (s.ctx n).ringSpace ≠ 0) :
    ((s.toBegin path).beginPart cut q).stalled = false ∧ ∀ n ∈ s.ctxsOf q, (((s.toBegin path).beginPart cut q).ctx n).state = .draining := by
  obtain ⟨hsound, hctxs⟩ := toBegin_keeps hs path
  obtain ⟨hof, hctx⟩ := ctxsOf_of_ctxs hctxs q
  have hbegin := beginPart_begins (q := q) (cut := cut) hsound (fun hc n hn => by rw [hctx]; exact hcredit hc n (hof ▸ hn))
    (fun hc n hn => by rw [hctx]; exact hring hc n (hof ▸ hn))
  rw [hof] at hbegin
  exact hbegin

/-- The drain of a partition that a `PART_DESTROY` begins. -/
def destroyDrain (path q deadline : Nat) : Drain := { obj := .part q, deadline, after := .partDestroy, path := some path }

theorem exec_partDestroy (h : s.InHand path 0x0403 t u) (hq : u.num 1 = q) (hq8 : q < 8) (hus1 : 1 ≤ (u.num? 2).getD 10000)
    (hus2 : (u.num? 2).getD 10000 ≤ 10000000) (hlive : (s.part q).live = true) (hkeep : s.isKeeper q = false) :
    exec (.partDestroy path) s = s.waits (.next (if s.partBusy q then s.reply path 2 1 []
      else (s.toBegin path).startDrain (destroyDrain path q (s.sample.1.inUs ((u.num? 2).getD 10000))))) := by
  subst hq
  refine congrArg s.waits (next_of_inHand h ((checked_of_kept ?_).trans rfl))
  simp [firstBroken, drainTimeoutOk, hq8, hlive, hkeep, hus1, hus2]

/-- What a request that destroys a partition answers, or begins. -/
theorem partDestroy_begins (hs : s.Sound) (h : s.InHand path 0x0403 t u) (hq : u.num 1 = q) (hq8 : q < 8) (hus1 : 1 ≤ (u.num? 2).getD 10000)
    (hus2 : (u.num? 2).getD 10000 ≤ 10000000) :
    ((s.part q).live = true → s.isKeeper q = false → s.partBusy q = false → (∀ n ∈ s.ctxsOf q, (s.ctx n).creditSpace ≠ 0) →
      ∃ x d, exec (.partDestroy path) s = .next x ∧ d ∈ x.drains ∧
      d.obj = .part q ∧ d.after = .partDestroy ∧ d.path = some path ∧ s.now + 1000 * (u.num? 2).getD 10000 ≤ d.deadline ∧
      ∀ n ∈ s.ctxsOf q, (x.ctx n).state = .draining) ∧
    ((s.part q).live = false ∨ s.isKeeper q = true → exec (.partDestroy path) s = .next (s.reply path 3 1 [])) ∧
    ((s.part q).live = true → s.isKeeper q = false → s.partBusy q = true → exec (.partDestroy path) s = .next (s.reply path 2 1 [])) := by
  refine ⟨fun hlive hkeep hidle hcredit => ?_, fun hgone => ?_, fun hlive hkeep hbusy => ?_⟩
  · obtain ⟨hserved, hdraining⟩ := beginPart_toBegin (cut := false) hs path (fun _ => hcredit) (fun hc => Bool.noConfusion hc)
    have hstart := startDrain_part (s := s.toBegin path) (d := destroyDrain path q (s.sample.1.inUs ((u.num? 2).getD 10000))) rfl
    rw [exec_partDestroy h hq hq8 hus1 hus2 hlive hkeep, if_neg (by simp [hidle]), hstart]
    exact ⟨_, _, waits_of_served hserved, mem_withDrain _ _, rfl, rfl, rfl, Nat.add_le_add_right (Nat.le_add_right _ _) _, hdraining⟩
  · refine waits_of_next (next_of_inHand h (checked_of_broken ?_)) (reply_served hs.served _ _ _)
    rcases hgone with hgone | hgone <;> simp [firstBroken, hq, hgone]
  · rw [exec_partDestroy h hq hq8 hus1 hus2 hlive hkeep, if_pos hbusy]
    exact waits_of_served (reply_served hs.served _ _ _)

/-- The object of a `DISABLE`. -/
def disabled (u : Sub) : DrainObj := if u.num 1 = 1 then .part (u.num 2) else if u.num 1 = 2 then .port (u.num 2) else .core (u.num 2)

/-- The drain or cut that a `DISABLE` begins. -/
def disableDrain (u : Sub) (path deadline : Nat) : Drain :=
  { obj := disabled u, cut := decide (u.num 3 = 1), deadline, after := if u.num 1 = 3 ∧ u.num 5 = 1 then .substitute else .disable, path := some path }

/-- Whether the object of a `DISABLE` is there. -/
def State.disables (s : State) (u : Sub) : Bool :=
  match u.num 1 with
  | 1 => decide (u.num 2 < 8) && (s.part (u.num 2)).live && !s.isKeeper (u.num 2)
  | 2 => decide (u.num 2 < 8)
  | _ => decide (u.num 2 < 160) && decide (u.num 2 ∉ s.retired)

theorem exec_disable (h : s.InHand path 0x0404 t u) : exec (.disable path) s = s.waits (.next
    (s.checked path 3 [(decide (1 ≤ u.num 1) && decide (u.num 1 ≤ 3), 1), (s.disables u, 2), (decide (u.num 3 ≤ 1), 3),
        (drainTimeoutOk ((u.num? 4).getD 10000), 4), (decide (u.num 5 ≤ 1) && (decide (u.num 1 = 3) || !u.has 5), 5)]
      (if s.drains.any (fun d => decide (d.obj = disabled u)) || (decide (u.num 1 = 1) && s.partBusy (u.num 2)) then s.reply path 2 2 []
      else (s.toBegin path).startDrain (disableDrain u path (s.sample.1.inUs ((u.num? 4).getD 10000)))))) :=
  congrArg s.waits (next_of_inHand h rfl)

section
variable (h : s.InHand path 0x0404 t u) (h3 : u.num 3 ≤ 1) (h5 : u.num 5 ≤ 1) (hus1 : 1 ≤ (u.num? 4).getD 10000) (hus2 : (u.num? 4).getD 10000 ≤ 10000000)
include h h3 h5 hus1 hus2

/-- A `DISABLE` of an object that is there, and that nothing drains, begins. -/
theorem exec_disable_begins (hkind : 1 ≤ u.num 1) (hkind3 : u.num 1 ≤ 3) (hthere : s.disables u = true) (hrepl : u.num 1 = 3 ∨ u.has 5 = false)
    (hidle : ∀ d ∈ s.drains, d.obj ≠ disabled u) (hbusy : u.num 1 = 1 → s.partBusy (u.num 2) = false) :
    exec (.disable path) s = s.waits (.next ((s.toBegin path).startDrain (disableDrain u path (s.sample.1.inUs ((u.num? 4).getD 10000))))) := by
  have hrules : firstBroken [(decide (1 ≤ u.num 1) && decide (u.num 1 ≤ 3), 1), (s.disables u, 2), (decide (u.num 3 ≤ 1), 3),
      (drainTimeoutOk ((u.num? 4).getD 10000), 4), (decide (u.num 5 ≤ 1) && (decide (u.num 1 = 3) || !u.has 5), 5)] = none := by
    have hlast : (decide (u.num 1 = 3) || !u.has 5) = true := by rcases hrepl with hr | hr <;> simp [hr]
    simp [firstBroken, hkind, hkind3, hthere, h3, h5, drainTimeoutOk, hus1, hus2, hlast]
  have hfree : ¬ (s.drains.any (fun d => decide (d.obj = disabled u)) || (decide (u.num 1 = 1) && s.partBusy (u.num 2))) = true := by
    rw [Bool.or_eq_true, Bool.and_eq_true, decide_eq_true_eq, List.any_eq_true]
    rintro (⟨d, hd, hobj⟩ | ⟨hone, hb⟩)
    · exact hidle d hd (of_decide_eq_true hobj)
    · exact Bool.false_ne_true ((hbusy hone).symm.trans hb)
  rw [exec_disable h, checked_of_kept hrules, if_neg hfree]

end

/-! ### The cut of a core and of a port -/

theorem dropHeld_coresOut (s : State) (r : Reader) : (s.dropHeld r).coresOut = s.coresOut := by
  unfold State.dropHeld
  split <;> rfl

theorem modLaunch_coresOut (s : State) (n : Nat) (f : Launch → Launch) : (s.modLaunch n f).coresOut = s.coresOut := by
  unfold State.modLaunch
  split <;> rfl

theorem packetDone_coresOut (s : State) (ctx pid status detail : Nat) : (s.packetDone ctx pid status detail).coresOut = s.coresOut := rfl

theorem traceEnd_coresOut (s : State) (core pair tag src ctx status : Nat) : (s.traceEnd core pair tag src ctx status).coresOut = s.coresOut :=
  (congrArg State.coresOut (traceEvent_unseen s core pair 2 _) :)

/-- A state without a launch and the crews of it that a core has yet to place. -/
def State.endedLaunch (s : State) (n : Nat) : State := { s with
  launches := merase s.launches n
  cores := mmapVals s.cores (fun _ k => { k with queue := k.queue.filter (fun i => match i with | .fresh m _ => decide (m ≠ n) | .saved _ => true) }) }

theorem endedLaunch_coresOut (s : State) (n : Nat) : (s.endedLaunch n).coresOut = s.coresOut := rfl

theorem checkLaunch_coresOut (s : State) (n : Nat) : (s.checkLaunch n).coresOut = s.coresOut := by
  unfold State.checkLaunch
  split
  · rfl
  next l _ =>
    split
    · rfl
    extract_lets tag status v w
    have hv : v.coresOut = s.coresOut := foldl_fixes State.coresOut (fun s c => traceEnd_coresOut s c _ _ _ _ _) l.cores s
    have hw : w.coresOut = s.coresOut := (endedLaunch_coresOut v n).trans hv
    split
    · exact (packetDone_coresOut w _ _ _ _).trans hw
    split
    · split
      · exact (packetDone_coresOut w _ _ _ _).trans hw
      · exact (packetDone_coresOut w _ _ _ _).trans hw
    · exact (packetDone_coresOut w _ _ _ _).trans hw

theorem checkLaunches_coresOut (ns : List Nat) (s : State) : (s.checkLaunches ns).coresOut = s.coresOut := by
  induction ns generalizing s with
  | nil => rfl
  | cons n ns ih => exact (ih _).trans (checkLaunch_coresOut s n)

theorem cutCore_coresOut (s : State) (c : Nat) : (s.cutCore c).coresOut = s.coresOut := by
  unfold State.cutCore
  extract_lets k crews cox packets u1 u2 u3 u4 u5 u6 u7
  have h1 : u1.coresOut = s.coresOut := foldl_fixes State.coresOut (fun s e => dropHeld_coresOut s _) k.crews s
  have h2 : u2.coresOut = u1.coresOut := dropHeld_coresOut (u1.unwait (.cox c)) (.engine c)
  clear_value u2
  have h3 : u3.coresOut = u2.coresOut := rfl
  clear_value u3
  have h4 : u4.coresOut = u3.coresOut := foldl_fixes State.coresOut (fun s n => modLaunch_coresOut s n _) crews.eraseDups u3
  clear_value u4
  have h5 : u5.coresOut = u4.coresOut := rfl
  clear_value u5
  have h6 : u6.coresOut = u5.coresOut := foldl_fixes State.coresOut (fun s p => packetDone_coresOut s p.1 p.2 1 0) packets u5
  clear_value u6
  have h7 : u7.coresOut = u6.coresOut := rfl
  clear_value u7
  rw [checkLaunches_coresOut, h7, h6, h5, h4, h3, h2, h1]

/-- What the drain of a port begins with. -/
def State.beginPort (s : State) (cut : Bool) (p : Nat) : State :=
  let w := s.setPort p { s.port p with draining := true }
  if cut then w.cutObj (.port p) else w

theorem startDrain_port {d : Drain} {p : Nat} (h : d.obj = .port p) : s.startDrain d = (s.beginPort d.cut p).withDrain d := by
  unfold State.startDrain State.beginPort
  rw [h]
  rfl

theorem beginPort_begins (hs : s.Sound) (cut : Bool) (p : Nat) :
    (s.beginPort cut p).stalled = false ∧ (cut = false → ((s.beginPort cut p).port p).draining = true) := by
  unfold State.beginPort
  cases cut with
  | false =>
    refine ⟨hs.served, fun _ => ?_⟩
    have hport : (s.setPort p { s.port p with draining := true }).port p = { s.port p with draining := true } :=
      mget_mset_same_of_rising _ _ _ hs.tables.ports
    dsimp only
    rw [if_neg Bool.false_ne_true, hport]
  | true =>
    refine ⟨?_, fun hcut => Bool.noConfusion hcut⟩
    dsimp only [State.cutObj]
    rw [if_pos rfl]
    exact (foldl_fixes State.stalled (fun _ _ => rfl) (List.range 4) _).trans hs.served

/-- What the drain of a core begins with. -/
def State.beginCore (s : State) (cut : Bool) (c : Nat) : State := if cut then (s.drainCore c).cutCore c else s.drainCore c

theorem startDrain_core {d : Drain} {c : Nat} (h : d.obj = .core c) : s.startDrain d = (s.beginCore d.cut c).withDrain d := by
  unfold State.startDrain State.beginCore
  rw [h]
  rfl

theorem beginCore_begins (hs : s.Sound) (cut : Bool) (c : Nat) : (s.beginCore cut c).stalled = false ∧ c ∈ (s.beginCore cut c).coresOut := by
  have hout : c ∈ (s.drainCore c).coresOut := mem_sinsert_self _ _
  have hserved : (s.drainCore c).stalled = false := hs.served
  unfold State.beginCore
  cases cut with
  | false => exact ⟨hserved, hout⟩
  | true =>
    refine ⟨(State.Onward.cutCore (deep := 0) (.refl true (s.drainCore c))).stalled rfl hserved, ?_⟩
    rw [if_pos rfl, cutCore_coresOut]
    exact hout

section
variable (hs : s.Sound) (h : s.InHand path 0x0404 t u) (h3 : u.num 3 ≤ 1) (h5 : u.num 5 ≤ 1) (hus1 : 1 ≤ (u.num? 4).getD 10000)
  (hus2 : (u.num? 4).getD 10000 ≤ 10000000)
include hs h h3 h5 hus1 hus2

theorem disable_part (hkind : u.num 1 = 1) (h5' : u.has 5 = false) (hi : u.num 2 < 8) (hlive : (s.part (u.num 2)).live = true)
    (hkeep : s.isKeeper (u.num 2) = false) (hbusy : s.partBusy (u.num 2) = false)
    (hspaces : ∀ n ∈ s.ctxsOf (u.num 2), (s.ctx n).creditSpace ≠ 0 ∧ (s.ctx n).ringSpace ≠ 0) :
    ∃ x, exec (.disable path) s = .next x ∧ disableDrain u path (s.sample.1.inUs ((u.num? 4).getD 10000)) ∈ x.drains := by
  have hobj : disabled u = .part (u.num 2) := if_pos hkind
  have hthere : s.disables u = true := by simp [State.disables, hkind, hi, hlive, hkeep]
  have hidle : ∀ d ∈ s.drains, d.obj ≠ disabled u := fun d hd hd' => by
    rw [State.partBusy, Bool.or_eq_false_iff] at hbusy
    have hnone := List.any_eq_false.1 hbusy.1 d hd
    rw [hobj] at hd'
    simp [hd'] at hnone
  have hexec := exec_disable_begins h h3 h5 hus1 hus2 (by omega) (by omega) hthere (.inr h5') hidle (fun _ => hbusy)
  obtain ⟨hserved, -⟩ := beginPart_toBegin (cut := decide (u.num 3 = 1)) hs path (fun _ n hn => (hspaces n hn).1) (fun _ n hn => (hspaces n hn).2)
  have hstart := startDrain_part (s := s.toBegin path) (d := disableDrain u path (s.sample.1.inUs ((u.num? 4).getD 10000))) hobj
  rw [hexec, hstart]
  exact ⟨_, waits_of_served hserved, mem_withDrain _ _⟩

theorem disable_port (hkind : u.num 1 = 2) (h5' : u.has 5 = false) (hi : u.num 2 < 8) (hidle : ∀ d ∈ s.drains, d.obj ≠ .port (u.num 2)) :
    ∃ x, exec (.disable path) s = .next x ∧ disableDrain u path (s.sample.1.inUs ((u.num? 4).getD 10000)) ∈ x.drains ∧
      (u.num 3 = 0 → (x.port (u.num 2)).draining = true) := by
  have hobj : disabled u = .port (u.num 2) := (if_neg (by omega)).trans (if_pos hkind)
  have hthere : s.disables u = true := by simp [State.disables, hkind, hi]
  have hexec := exec_disable_begins h h3 h5 hus1 hus2 (by omega) (by omega) hthere (.inr h5') (fun d hd => by rw [hobj]; exact hidle d hd)
    (fun hone => by omega)
  obtain ⟨hserved, hdraining⟩ := beginPort_begins (toBegin_keeps hs path).1 (decide (u.num 3 = 1)) (u.num 2)
  have hstart := startDrain_port (s := s.toBegin path) (d := disableDrain u path (s.sample.1.inUs ((u.num? 4).getD 10000))) hobj
  rw [hexec, hstart]
  exact ⟨_, waits_of_served hserved, mem_withDrain _ _, fun hzero => hdraining (by simp [hzero])⟩

theorem disable_core (hkind : u.num 1 = 3) (hi : u.num 2 < 160) (hin : u.num 2 ∉ s.retired) (hidle : ∀ d ∈ s.drains, d.obj ≠ .core (u.num 2)) :
    ∃ x, exec (.disable path) s = .next x ∧ disableDrain u path (s.sample.1.inUs ((u.num? 4).getD 10000)) ∈ x.drains ∧ u.num 2 ∈ x.coresOut := by
  have hobj : disabled u = .core (u.num 2) := (if_neg (by omega)).trans (if_neg (by omega))
  have hthere : s.disables u = true := by simp [State.disables, hkind, hi, hin]
  have hexec := exec_disable_begins h h3 h5 hus1 hus2 (by omega) (by omega) hthere (.inl hkind) (fun d hd => by rw [hobj]; exact hidle d hd)
    (fun hone => by omega)
  obtain ⟨hserved, hout⟩ := beginCore_begins (toBegin_keeps hs path).1 (decide (u.num 3 = 1)) (u.num 2)
  have hstart := startDrain_core (s := s.toBegin path) (d := disableDrain u path (s.sample.1.inUs ((u.num? 4).getD 10000))) hobj
  rw [hexec, hstart]
  exact ⟨_, waits_of_served hserved, mem_withDrain _ _, hout⟩

end

/-! ### Regulators -/

/-- The bucket that a request describes, from what it holds. -/
def setBucketOf (u : Sub) (b : Bucket) : Bucket :=
  { b with rate := u.num 3, burst := u.num 4, borrow := decide (u.num 5 = 1), byInstaller := true,
           level := min b.level ((u.num 4 * 10485760 : Nat) : Int) }

/-- The rules of a regulator's setting (R249, R326). -/
def State.regRules (s : State) (u : Sub) : List (Bool × Nat) :=
  let q := if decide (u.num 1 = 0xFF) then 8 else u.num 1
  [(decide (u.num 1 = 0xFF) || (decide (q < 8) && (s.part q).live), 1),
    (decide (u.num 2 < 24) || (!decide (u.num 1 = 0xFF) && decide (32 ≤ u.num 2) && decide (u.num 2 < 40)), 2),
    (decide (u.num 3 ≤ 1024) && s.rateFits (u.num 2) q (u.num 3), 3), (decide (1 ≤ u.num 4) && decide (u.num 4 ≤ 4095), 4), (decide (u.num 5 ≤ 1), 5)]

theorem exec_regSet (h : s.InHand path 0x0405 t u) : exec (.regSet path) s = .next (s.checked path 3 (s.regRules u)
    ((s.refill.setBucket (16 * u.num 2 + (if decide (u.num 1 = 0xFF) then 8 else u.num 1))
      (setBucketOf u (s.refill.bucket (16 * u.num 2 + (if decide (u.num 1 = 0xFF) then 8 else u.num 1))))).reply path 0 0 [])) :=
  next_of_inHand h rfl

theorem bucket_setBucket_set (v : State) (k : Nat) (u : Sub) (b : Bucket) : (v.setBucket k (setBucketOf u b)).bucket k = setBucketOf u b := by
  refine mget_mset_same_of_ne _ _ (fun heq => ?_)
  exact Bool.noConfusion (congrArg Bucket.byInstaller heq : true = false)

theorem bucket_setBucket_other (v : State) {k j : Nat} (u : Sub) (b : Bucket) (hj : j ≠ k) : (v.setBucket k (setBucketOf u b)).bucket j = v.bucket j := by
  have hne : setBucketOf u b ≠ {} := fun heq => Bool.noConfusion (congrArg Bucket.byInstaller heq : true = false)
  rw [State.bucket, State.setBucket, mset, if_neg hne, mget_minsert_other _ _ _ _ _ hj]
  rfl

/-- A request on a regulator that is there: its rules but the fit of its rate hold. -/
theorem regRules_first {q : Nat} (hq : if u.num 1 = 0xFF then q = 8 else q = u.num 1 ∧ q < 8 ∧ (s.part q).live = true)
    (hr : u.num 2 < 24 ∨ (q < 8 ∧ 32 ≤ u.num 2 ∧ u.num 2 < 40)) (h4 : 1 ≤ u.num 4) (h4' : u.num 4 ≤ 4095) (h5 : u.num 5 ≤ 1) :
    (if decide (u.num 1 = 0xFF) then 8 else u.num 1) = q ∧
      (u.num 3 ≤ 1024 → s.rateFits (u.num 2) q (u.num 3) = true → firstBroken (s.regRules u) = none) ∧
      (1024 < u.num 3 ∨ s.rateFits (u.num 2) q (u.num 3) = false → firstBroken (s.regRules u) = some 3) := by
  have hnum : (if decide (u.num 1 = 0xFF) then 8 else u.num 1) = q := by
    by_cases hmig : u.num 1 = 0xFF
    · rw [if_pos hmig] at hq
      simp [hmig, hq]
    · rw [if_neg hmig] at hq
      simp [hmig, hq.1]
  have hfirst : (decide (u.num 1 = 0xFF) || (decide (q < 8) && (s.part q).live)) = true := by
    by_cases hmig : u.num 1 = 0xFF
    · simp [hmig]
    · rw [if_neg hmig] at hq
      simp [hq.2]
  have hsecond : (decide (u.num 2 < 24) || (!decide (u.num 1 = 0xFF) && decide (32 ≤ u.num 2) && decide (u.num 2 < 40))) = true := by
    rcases hr with hr | ⟨hq8, hlo, hhi⟩
    · simp [hr]
    · have hmig : u.num 1 ≠ 0xFF := fun hmig => by
        rw [if_pos hmig] at hq
        omega
      simp [hmig, hlo, hhi]
  refine ⟨hnum, fun h3 hfit => ?_, fun hout => ?_⟩
  · simp only [State.regRules, firstBroken, hnum, hfirst, hsecond, h3, hfit, h4, h4', h5, decide_true, Bool.and_self, if_true]
  · have hthird : (decide (u.num 3 ≤ 1024) && s.rateFits (u.num 2) q (u.num 3)) = false := by
      rcases hout with hout | hout
      · simp [show ¬ u.num 3 ≤ 1024 by omega]
      · simp [hout]
    simp only [State.regRules, firstBroken, hnum, hfirst, hsecond, hthird, if_true, Bool.false_eq_true, if_false]

/-! ### Cores with entry points -/

theorem hostCoreDenied_of_own {q h : Nat} (hq : t.part = some q) (hh : h < 40) (hr : h ∉ s.conf.repair.hostRetired) (hg : h / 2 ∈ s.galleriesOf q) :
    s.hostCoreDenied t h = none := by
  rw [State.hostCoreDenied, if_neg (by rintro (hb | hb) <;> [omega; exact hr hb]), hq]
  exact if_pos hg

theorem hostCoreDenied_of_foreign {q h : Nat} (hq : t.part = some q) (hh : h < 40) (hr : h ∉ s.conf.repair.hostRetired) (hg : h / 2 ∉ s.galleriesOf q) :
    s.hostCoreDenied t h = some 4 := by
  rw [State.hostCoreDenied, if_neg (by rintro (hb | hb) <;> [omega; exact hr hb]), hq]
  exact if_neg hg

/-- A host core as it is set. -/
def State.withHostCore (s : State) (h : Nat) (x : HostCore) : State := { s with hostCores := minsert s.hostCores h x }

theorem withHostCore_keeps (s : State) (h : Nat) (x : HostCore) : (s.withHostCore h x).cores = s.cores ∧ (s.withHostCore h x).gals = s.gals ∧
    mget {} (s.withHostCore h x).hostCores h = x := ⟨rfl, rfl, mget_minsert_same _ _ _ _⟩

/-- A gallery that work wakes runs (Table 15-6). -/
theorem wakeGal_wakes (hg : rising s.gals) {g : Nat} (hst : (s.gal g).st = 1 ∨ (s.gal g).st = 2) : ((s.wakeGal g).gal g).st = 3 := by
  obtain ⟨hgal, -⟩ := galState_changes hg g 3
  rw [State.wakeGal, if_pos hst, hgal]

theorem wakeGal_hostCores (s : State) (g : Nat) : (s.wakeGal g).hostCores = s.hostCores := (congrArg State.hostCores (wakeGal_unseen s g) :)

/-- What a boot of a host core leaves (R283). -/
theorem hostcoreBoot_boots {h : Nat} (hs : s.Sound) (hin : s.InHand path 0x0406 t u) (hh : u.num 1 = h) (hfree : s.hostCoreDenied t h = none) :
    ((mget ({} : HostCore) s.hostCores h).run ≠ 1 → u.num 2 < 2 ^ 48 → ∃ v : State, exec (.hostcoreBoot path) s = .next (v.reply path 0 0 []) ∧
      mget ({} : HostCore) v.hostCores h = { run := 1, entry := u.num 2, arg := u.num 3 } ∧ v.cores = s.cores ∧
      ((s.gal (h / 2)).st = 1 ∨ (s.gal (h / 2)).st = 2 → (v.gal (h / 2)).st = 3)) ∧
    ((mget ({} : HostCore) s.hostCores h).run = 1 → exec (.hostcoreBoot path) s = .next (s.reply path 3 1 [])) := by
  subst hh
  refine ⟨fun hrun hentry => ?_, fun hrun => next_of_inHand hin ?_⟩
  · obtain ⟨hcores, hgals, hset⟩ := withHostCore_keeps s (u.num 1) { run := 1, entry := u.num 2, arg := u.num 3 }
    refine ⟨(s.withHostCore (u.num 1) { run := 1, entry := u.num 2, arg := u.num 3 }).wakeGal (u.num 1 / 2), next_of_inHand hin ?_, ?_, ?_, fun hst => ?_⟩
    · dsimp only
      rw [hfree]
      exact (if_neg hrun).trans (if_neg (not_le.2 hentry))
    · rw [wakeGal_hostCores, hset]
    · rw [wakeGal_cores, hcores]
    · exact wakeGal_wakes (by rw [hgals]; exact hs.tables.gals) (by rw [State.gal, hgals]; exact hst)
  · dsimp only
    rw [hfree]
    exact if_pos hrun

/-- Settles O40: a partition comes into being with its galleries powered, a drain leaves its contexts in DRAINING, and a setting reaches its own
bucket or host core. -/
theorem partitionCommands : Obligations.PartitionCommands := by
  unfold Obligations.PartitionCommands
  intro s path t u hs gives turns
  refine ⟨fun p h h4 h8 hp => partCreate_creates hs h h4 h8 hp, fun q h hq hq8 => ?_, ?_, ?_, ?_, ?_⟩
  · intro x ceiling device fabric hlive hgals hgroups hpersist hgne hglt hrne hrlt hgheld hrheld hpf0 hfit hforeign hbusy hpre hmoves
    subst hq
    have hrules := resizeRules_ceilings (p := resizedPart u (u.num 1) x) hq8 hgals hgroups rfl hgne hglt hrlt hgheld hrheld hpf0 hfit hpersist
    obtain ⟨hpart, hkept⟩ := resizedPart_kept hgals hgroups (q := u.num 1) (x := x)
    refine ⟨fun hc1 hc2 hd hf => ⟨_, exec_partResize_kept hs h hq8 hlive rfl (hrules.1 hc1 hc2 hd hf) hkept.2 hkept.1 hrne hbusy hpre hmoves ?_, ?_⟩,
      fun hc => exec_partResize_broken hs h hq8 hlive rfl (hrules.2.1 hc), fun hc1 hc2 hd => exec_partResize_broken hs h hq8 hlive rfl (hrules.2.2 hc1 hc2 hd)⟩
    · rw [hkept.2]
      exact hforeign
    · obtain ⟨hregions, hhbm, hctxs, -⟩ := keeps_of_offCeilings (ceiled_off s (resizedPart u (u.num 1) x))
      exact ⟨ceiled_sets hs.tables.parts hkept.2, hregions, hhbm, hctxs⟩
  · intro q h hq us hq8 hus1 hus2
    exact partDestroy_begins hs h hq hq8 hus1 hus2
  · intro i h hi h3 h5 us kind begun hus1 hus2
    refine ⟨?_, ?_, ?_, ?_⟩
    · intro hkind h5' hi8 hlive hkeep hbusy hspaces
      subst hi
      obtain ⟨x, hexec, hmem⟩ := disable_part hs h h3 h5 hus1 hus2 hkind h5' hi8 hlive hkeep hbusy hspaces
      exact ⟨x, hexec, _, hmem, if_pos hkind, if_neg (by omega), rfl, decide_eq_true_iff, Nat.add_le_add_right (Nat.le_add_right _ _) _⟩
    · intro hkind h5' hi8 hidle
      subst hi
      obtain ⟨x, hexec, hmem, hdraining⟩ := disable_port hs h h3 h5 hus1 hus2 hkind h5' hi8 hidle
      exact ⟨x, hexec, ⟨_, hmem, (if_neg (by omega)).trans (if_pos hkind), if_neg (by omega), rfl, decide_eq_true_iff,
        Nat.add_le_add_right (Nat.le_add_right _ _) _⟩, hdraining⟩
    · intro hkind hi160 hin hidle
      subst hi
      obtain ⟨x, hexec, hmem, hout⟩ := disable_core hs h h3 h5 hus1 hus2 hkind hi160 hin hidle
      refine ⟨x, hexec, ⟨_, hmem, (if_neg (by omega)).trans (if_neg (by omega)), ?_, rfl, decide_eq_true_iff,
        Nat.add_le_add_right (Nat.le_add_right _ _) _⟩, hout⟩
      simp only [disableDrain, show u.num 1 = 3 from hkind, true_and]
    · intro hkind
      refine (exec_disable h).trans (waits_of_next (congrArg (fun x => (.next x : Outcome)) (checked_of_broken ?_)) (reply_served hs.served _ _ _))
      have hout : (decide (1 ≤ u.num 1) && decide (u.num 1 ≤ 3)) = false := by
        simp only [Bool.and_eq_false_iff, decide_eq_false_iff_not]
        omega
      rw [hout]
      rfl
  · intro q h hq r hr h4 h4' h5
    obtain ⟨hnum, hkept, hbroken⟩ := regRules_first hq hr h4 h4' h5
    have hexec := exec_regSet h
    rw [hnum] at hexec
    refine ⟨fun h3 hfit => ⟨_, hexec.trans (by rw [checked_of_kept (hkept h3 hfit)]), ?_⟩, fun hout => hexec.trans (by rw [checked_of_broken (hbroken hout)])⟩
    have hset := bucket_setBucket_set s.refill (16 * u.num 2 + q) u (s.refill.bucket (16 * u.num 2 + q))
    intro b
    have hb : b = setBucketOf u (s.refill.bucket (16 * u.num 2 + q)) := hset
    rw [hb]
    exact ⟨rfl, rfl, decide_eq_true_iff, rfl, fun k hk => bucket_setBucket_other _ _ _ hk, rfl⟩
  · intro q hq h x hh hr
    refine ⟨fun hin hown => hostcoreBoot_boots hs hin rfl (hostCoreDenied_of_own hq hh hr hown), fun hin hown => ⟨fun hrun => ?_, fun hrun => ?_⟩,
      fun hforeign => ⟨fun hin => ?_, fun hin => ?_⟩⟩
    · refine next_of_inHand hin ?_
      dsimp only
      rw [hostCoreDenied_of_own hq hh hr hown]
      exact if_neg (not_not.2 hrun)
    · refine next_of_inHand hin ?_
      dsimp only
      rw [hostCoreDenied_of_own hq hh hr hown]
      exact if_pos hrun
    · refine next_of_inHand hin ?_
      dsimp only
      rw [hostCoreDenied_of_foreign hq hh hr hforeign]
    · refine next_of_inHand hin ?_
      dsimp only
      rw [hostCoreDenied_of_foreign hq hh hr hforeign]

end Sys2Proof.Machine
end

section
/-! What answering a request changes, and the obligation `MemoryManagement` (R244, R247). -/

namespace Sys2Proof.Machine

open Sys2Proof

variable {s v : State} {path : Nat}

/-! ### The reach of an answer -/

/-- A state without what the taking and answering of requests changes: the requests with their keys and audit, the store that records them, and
what the answer tells its function. -/
def State.offReply (s : State) : State := { s.inner with
  taken := [], audit := [], auditNext := 0, keyLast := [], conf := {}, mailboxes := [], free := 0, now := 0, writing := none, writeNo := 0
  storeDirty := false, bankA := {}, bankB := {} }

theorem offReply_of_inner (h : v.inner = s.inner) : v.offReply = s.offReply :=
  (congrArg (fun x : State => { x with
    taken := [], audit := [], auditNext := 0, keyLast := [], conf := {}, mailboxes := [], free := 0, now := 0, writing := none, writeNo := 0
    storeDirty := false, bankA := {}, bankB := {} }) h :)

theorem setTaken_offReply (s : State) (p : Nat) (t : Taken) : (s.setTaken p t).offReply = s.offReply := rfl

theorem persist_offReply (s : State) : s.persist.offReply = s.offReply := by
  unfold State.persist
  split
  · rfl
  · unfold State.startWrite State.setBank
    split <;> rfl

theorem auditAdd_offReply (s : State) (p role gen keyId code counter result : Nat) (accepted : Bool) (req : List Byte) :
    (s.auditAdd p role gen keyId code counter result accepted req).1.offReply = s.offReply := rfl

theorem auditEnd_offReply (s : State) (seq : Option Nat) (status : Nat) : (s.auditEnd seq status).offReply = s.offReply := by
  unfold State.auditEnd
  split
  · rfl
  split <;> rfl

theorem post_offReply (s : State) (p via : Nat) (discard : Bool) (msg : List Byte) : (s.post p via discard msg).offReply = s.offReply := by
  unfold State.post
  split
  · rfl
  split
  · rfl
  · exact (offReply_of_inner (raise_inner _ _ _)).trans rfl

theorem deliverTaken_offReply (s : State) (p : Nat) : (s.deliverTaken p).offReply = s.offReply := by
  unfold State.deliverTaken
  split
  · rfl
  · exact post_offReply _ _ _ _ _

theorem addResponse_offReply (s : State) (p status : Nat) (resp : List Byte) : (s.addResponse p status resp).offReply = s.offReply := by
  unfold State.addResponse
  split <;> rfl

/-- The counter of a key's request noted. -/
def State.noteKey (s : State) (u : Sub) : State := if u.keyId = 0 then s else { s with keyLast := minsert s.keyLast u.keyId u.counter }

theorem noteKey_offReply (s : State) (u : Sub) : (s.noteKey u).offReply = s.offReply := by
  unfold State.noteKey
  split <;> rfl

theorem accept_offReply (s : State) (p : Nat) (u : Sub) : (s.accept p u).offReply = s.offReply := by
  unfold State.accept
  split
  · rfl
  next t _ =>
    have hkey := noteKey_offReply s u
    unfold State.noteKey at hkey
    generalize (if u.keyId = 0 then s else { s with keyLast := minsert s.keyLast u.keyId u.counter }) = w at hkey ⊢
    have hpair : (if audited u.code (decide (u.keyId ≠ 0)) 0 = true then
          ((w.auditAdd p t.role u.gen u.keyId u.code u.counter 0 true u.bytes).1,
            some (w.auditAdd p t.role u.gen u.keyId u.code u.counter 0 true u.bytes).2)
        else (w, none)).1.offReply = s.offReply := by
      split
      · exact (auditAdd_offReply w p t.role u.gen u.keyId u.code u.counter 0 true u.bytes).trans hkey
      · exact hkey
    dsimp only
    generalize (if audited u.code (decide (u.keyId ≠ 0)) 0 = true then
          ((w.auditAdd p t.role u.gen u.keyId u.code u.counter 0 true u.bytes).1,
            some (w.auditAdd p t.role u.gen u.keyId u.code u.counter 0 true u.bytes).2)
        else (w, none)) = r at hpair ⊢
    split
    · exact ((addResponse_offReply _ _ _ _).trans (auditEnd_offReply _ _ _)).trans hpair
    · exact (setTaken_offReply _ _ _).trans hpair

theorem beginSub_offReply (s : State) (p gen : Nat) (bs : List Byte) (form : Bool) : (s.beginSub p gen bs form).offReply = s.offReply := by
  unfold State.beginSub
  split
  · rfl
  dsimp only
  split
  · refine (addResponse_offReply _ _ _ _).trans ?_
    split
    · exact auditAdd_offReply s p _ _ _ _ _ _ _ _
    · rfl
  · exact accept_offReply s p _
  · exact persist_offReply _

theorem nextSubs_offReply (rest : List (List Byte)) (s : State) (p : Nat) : (s.nextSubs p rest).offReply = s.offReply := by
  induction rest generalizing s with
  | nil =>
    unfold State.nextSubs
    exact deliverTaken_offReply s p
  | cons b rest ih =>
    unfold State.nextSubs
    split
    · rfl
    next t _ =>
      extract_lets s1 s2
      have h2 : s2.offReply = s.offReply := by
        unfold s2
        split
        · exact (beginSub_offReply s1 _ _ _ _).trans rfl
        · exact (beginSub_offReply s1 _ _ _ _).trans rfl
      split
      · exact (ih _).trans (addResponse_offReply s1 _ _ _)
      split
      · rfl
      split
      · exact h2
      · exact (ih _).trans h2

theorem goOn_offReply (s : State) (p : Nat) : (s.goOn p).offReply = s.offReply := by
  unfold State.goOn
  split
  · split
    · rfl
    · exact nextSubs_offReply _ s p
  · rfl

/-- What a reply leaves as it was. -/
theorem reply_offReply (s : State) (p status detail : Nat) (fields : List (List Byte)) : (s.reply p status detail fields).offReply = s.offReply := by
  unfold State.reply
  split
  · rfl
  · exact (goOn_offReply _ _).trans ((addResponse_offReply _ _ _ _).trans (auditEnd_offReply _ _ _))

theorem reply_hbm (s : State) (p status detail : Nat) (fields : List (List Byte)) : (s.reply p status detail fields).hbm = s.hbm :=
  (congrArg State.hbm (reply_offReply s p status detail fields) :)

/-! ### A region takes lines that hold something -/

/-- The creation of a region of 2 MiB at 0 on die 0. -/
def bornRegion : Sub := { gen := 2, code := 0x0301, tag := 0, fields := [(2, toBytes 4 (2 ^ 21))] }

/-- Partition 0 with one group, whose first line has a byte left in it, and its operator's request for a region. -/
def usedLines : State := {
  parts := [(0, { live := true, groups := 1 })], hbm := [(0, 1)]
  taken := [(0, { role := 1, part := some 0, cur := some bornRegion })] }

theorem usedLines_sound : usedLines.Sound := by
  simp [State.Sound, rising, usedLines, mwf]

theorem regionCreate_usedLines (h : exec (.regionCreate 0) usedLines = .next v) : v.hbm = [] := by
  have hrun : (match exec (.regionCreate 0) usedLines with
      | .next t => t.hbm
      | _ => [(0, 1)]) = [] := by decide +kernel
  rw [h] at hrun
  exact hrun

/-- Refutes O39: a region that is created takes its lines as zeros, so that a byte left in them is gone from the HBM. -/
theorem not_memoryManagement : ¬ Obligations.MemoryManagement := by
  unfold Obligations.MemoryManagement
  intro h
  obtain ⟨hregion, -⟩ := h usedLines 0 { role := 1, part := some 0, cur := some bornRegion } bornRegion usedLines_sound
  have hroom := hregion 0 ⟨rfl, rfl, rfl, rfl, rfl⟩ rfl rfl (by decide +kernel) (by decide +kernel) (by decide +kernel) (by decide +kernel) (by decide +kernel)
    (by decide +kernel) (by decide +kernel) 0 (by decide +kernel)
  obtain ⟨-, hmade⟩ := hroom
  cases hv : usedLines.allocate (.region 0 0) false 16384 (usedLines.targetLists 1 0 0 (fun _ => false)) with
  | none =>
    have hsome : (usedLines.allocate (.region 0 0) false 16384 (usedLines.targetLists 1 0 0 (fun _ => false))).isSome = true := by decide +kernel
    rw [hv] at hsome
    exact Bool.false_ne_true hsome
  | some r =>
    obtain ⟨x, hx, -, -, hhbm⟩ := hmade r.1 r.2 hv
    have hend := regionCreate_usedLines hx
    rw [reply_hbm, hhbm] at hend
    exact absurd hend (by decide)

end Sys2Proof.Machine
end

section
/-! What leaves the fabric and the operations in progress as they are: lemmas for the commands that end associations and begin drains. -/

namespace Sys2Proof.Machine

open Sys2Proof

variable {s t v w : State} {path : Nat}

/-! ### What leaves the fabric and the operations in progress as they are

Accesses of memory, the slots, and the work of packets write no association, port, drain, move or test. -/

/-- The associations and ports of a state, with the operations that Mitor has in progress. -/
def State.fabric (s : State) : Map Assoc × List Drain × Map FabPort × Map SubPort × List MoveJob × List SelfTest :=
  (s.assocs, s.drains, s.ports, s.subPorts, s.moveJobs, s.selfTests)


theorem State.Onward.fabric {b : Bool} (h : s.Onward b 0 t) : t.fabric = s.fabric := (congrArg State.fabric (h.access rfl) :)

theorem vaWrite_fabric (s : State) (w : Requester) (va : Nat) (bs : List Byte) : (s.vaWrite w va bs).1.fabric = s.fabric :=
  (State.Onward.vaWrite (.refl false s)).fabric

theorem recordWrite_fabric (s : State) (ctx space addr : Nat) (bs : List Byte) : (s.recordWrite ctx space addr bs).fabric = s.fabric :=
  (State.Onward.recordWrite (.refl false s)).fabric

theorem reply_fabric (s : State) (p status detail : Nat) (fs : List (List Byte)) : (s.reply p status detail fs).fabric = s.fabric :=
  (congrArg State.fabric (reply_offReply s p status detail fs) :)

theorem answer_fabric (s : State) (p : Option Nat) (status detail : Nat) (fs : List (List Byte)) : (s.answer p status detail fs).fabric = s.fabric := by
  cases p with
  | none => rfl
  | some p => exact reply_fabric s p status detail fs

theorem notify_fabric (s : State) (p : Party) (status gen : Nat) : (s.notify p status gen).fabric = s.fabric := by
  unfold State.notify
  split
  · rfl
  · rfl
  · split
    · dsimp only
      split
      · split <;> rfl
      · split <;> rfl
    · rfl

theorem notifyAll_fabric (ps : List Party) (s : State) (status gen : Nat) : (s.notifyAll status gen ps).fabric = s.fabric := by
  induction ps generalizing s with
  | nil => rfl
  | cons p ps ih => exact (ih _).trans (notify_fabric s p status gen)

theorem traceRelease_fabric (s : State) (key gen status : Nat) : (s.traceRelease key gen status).fabric = s.fabric :=
  (State.Onward.traceRelease (.refl false s)).fabric

theorem releaseSlot_fabric (s : State) (key gen : Nat) : (s.releaseSlot key gen).fabric = s.fabric :=
  (traceRelease_fabric _ _ _ _).trans (notifyAll_fabric _ _ _ _)

theorem tellSubscribers_fabric (s : State) (key kind gen status : Nat) : (s.tellSubscribers key kind gen status).fabric = s.fabric := rfl

theorem setSlot_fabric (s : State) (key : Nat) (x : Slot) : (s.setSlot key x).fabric = s.fabric := rfl

theorem modSlot_fabric (s : State) (key : Nat) (f : Slot → Slot) : (s.modSlot key f).fabric = s.fabric := rfl

theorem realign_fabric (s : State) (ctx lid period : Nat) : (s.realign ctx lid period).fabric = s.fabric := by
  unfold State.realign
  dsimp only
  split
  · rfl
  split
  · rfl
  · rfl

theorem loseSlot_fabric (s : State) (key : Nat) : (s.loseSlot key).fabric = s.fabric := by
  unfold State.loseSlot
  extract_lets x u v w
  have hw : w.fabric = s.fabric := notifyAll_fabric _ v _ _
  split
  · rfl
  · exact hw

theorem loseSlots_fabric (ks : List Nat) (s : State) : (s.loseSlots ks).fabric = s.fabric := by
  induction ks generalizing s with
  | nil => rfl
  | cons k ks ih => exact (ih _).trans (loseSlot_fabric s k)

theorem ras_fabric (s : State) (e : RasEvent) : (s.ras e).fabric = s.fabric := (State.Onward.ras (.refl false s)).fabric

theorem slotError_fabric (s : State) (key : Nat) : (s.slotError key).fabric = s.fabric := by
  unfold State.slotError
  dsimp only
  split
  · exact (loseSlot_fabric _ _).trans (ras_fabric _ _)
  · rfl

theorem meetSlot_fabric (s : State) (key : Nat) : (s.meetSlot key).fabric = s.fabric := by
  unfold State.meetSlot
  split
  · split
    · rfl
    · exact slotError_fabric s key
  · exact slotError_fabric s key

theorem arriveFull_fabric (key f c : Nat) (s : State) : (s.arriveFull key f c).fabric = s.fabric := by
  induction f generalizing s c with
  | zero => rfl
  | succ f ih =>
    unfold State.arriveFull
    extract_lets x t u1 gen u2 u3 u4 u5 u6
    have h3 : u3.fabric = u2.fabric := by
      dsimp only [u3]
      split
      · exact (realign_fabric _ _ _ _).trans (realign_fabric _ _ _ _)
      · rfl
    have h2 : u2.fabric = s.fabric := (modSlot_fabric u1 key _).trans (setSlot_fabric s key _)
    have h4 : u4.fabric = u3.fabric := releaseSlot_fabric u3 key gen
    have h6 : u6.fabric = u4.fabric := (modSlot_fabric u5 key _).trans (tellSubscribers_fabric u4 key 1 gen 0)
    clear_value u6
    split
    · rfl
    split
    · rfl
    split
    · rfl
    · exact (ih _ _).trans (h6.trans (h4.trans (h3.trans h2)))

theorem arrive_fabric (s : State) (key ctx c : Nat) : (s.arrive key ctx c).fabric = s.fabric := by
  unfold State.arrive
  extract_lets u x
  have hu : u.fabric = s.fabric := meetSlot_fabric s key
  clear_value u
  rw [← hu]
  split
  · rfl
  · rfl
  split
  · rfl
  split
  · split
    · exact (tellSubscribers_fabric _ _ _ _ _).trans ((releaseSlot_fabric _ _ _).trans (setSlot_fabric _ _ _))
    · exact arriveFull_fabric _ _ _ _
  · rfl

theorem finishEntry_fabric (s : State) (ctx queue no status : Nat) : (s.finishEntry ctx queue no status).fabric = s.fabric := by
  unfold State.finishEntry
  extract_lets q
  split
  · rfl
  next e _ =>
    extract_lets size at' u lid
    have hu : u.fabric = s.fabric := (vaWrite_fabric _ _ _ _).trans ((vaWrite_fabric _ _ _ _).trans rfl)
    clear_value u
    split
    · exact hu
    split
    · exact (arrive_fabric u _ _ _).trans hu
    · exact hu

theorem finishEntries_fabric (ns : List Nat) (s : State) (ctx queue status : Nat) : (s.finishEntries ctx queue status ns).fabric = s.fabric := by
  induction ns generalizing s with
  | nil => rfl
  | cons n ns ih => exact (ih _).trans (finishEntry_fabric s ctx queue n status)

theorem abortEntries_fabric (s : State) (a status : Nat) : (s.abortEntries a status).fabric = s.fabric := by
  refine foldl_fixes State.fabric (fun t e => ?_) s.queues s
  split
  · exact finishEntries_fabric _ _ _ _ _
  · rfl

theorem unwaitAll_fabric (ps : List Pkt) (s : State) (ctx : Nat) : (s.unwaitAll ctx ps).fabric = s.fabric := by
  induction ps generalizing s with
  | nil => rfl
  | cons p ps ih =>
    unfold State.unwaitAll
    split
    · exact ih _
    · exact ih _

theorem dropRunAhead_fabric (s : State) (ctx : Nat) (gone : Nat → Bool) : (s.dropRunAhead ctx gone).fabric = s.fabric := by
  unfold State.dropRunAhead
  dsimp only
  split <;> rfl

theorem dropUndispatched_fabric (s : State) (ctx : Nat) : (s.dropUndispatched ctx).fabric = s.fabric :=
  (dropRunAhead_fabric _ ctx _).trans (unwaitAll_fabric _ s ctx)

theorem endPreempt_fabric (s : State) (ctx status : Nat) : (s.endPreempt ctx status).fabric = s.fabric := by
  unfold State.endPreempt
  extract_lets c u v
  have hv : v.fabric = s.fabric := by
    dsimp only [v]
    split
    · exact answer_fabric _ _ _ _ _
    · rfl
  exact (answer_fabric v _ _ _ _).trans hv

theorem drainCtx_fabric (s : State) (n : Nat) : (s.drainCtx n).fabric = s.fabric :=
  (dropUndispatched_fabric _ n).trans ((recordWrite_fabric _ _ _ _ _).trans (endPreempt_fabric s n 1))

end Sys2Proof.Machine
end

section
/-! What the installer's commands do on the fabric, on power and thresholds, with self-tests, and to prepare a removal: the obligation
`InstallerCommands`. -/

namespace Sys2Proof.Machine

open Sys2Proof

variable {s v w : State} {path : Nat} {t : Taken} {u : Sub}

/-! ### PORT_MODE -/

/-- What a state in which a request begins an operation shares with the one before. -/
theorem toBegin_off (s : State) (path : Nat) : { s.toBegin path with taken := [], free := 0, now := 0 } = { s with taken := [], free := 0, now := 0 } :=
  (congrArg (fun v : State => ({ v with free := 0, now := 0 } : State)) (await_off s.sample.1 path) :)

theorem toBegin_now (s : State) (path : Nat) : s.now ≤ (s.toBegin path).now := by
  have hnow : (s.toBegin path).now = s.sample.1.now := (congrArg State.now (await_off s.sample.1 path) :)
  rw [hnow]
  exact Nat.le_add_right _ _

/-- The request in hand waits once its operation has begun. -/
theorem toBegin_waits {code : Nat} (h : s.InHand path code t u) :
    mfind (s.toBegin path).taken path = some { t with cur := some { u with stage := .waiting } } := by
  obtain ⟨htaken, hcur, -⟩ := h
  have htaken' : mfind s.sample.1.taken path = some t := htaken
  rw [State.toBegin, State.await]
  simp only [htaken', hcur]
  exact mfind_minsert_same _ _ _

/-- The drain of a port that is to change its mode. -/
def modeDrain (u : Sub) (path deadline : Nat) : Drain :=
  { obj := .port (u.num 1), deadline, after := .portMode (u.num 2) (u.num 3) (u.num 4) (decide (u.num 5 = 1)), path := some path }

/-- The rules of a port's mode (R303, R305). -/
def modeRules (u : Sub) : List (Bool × Nat) :=
  [(decide (u.num 1 < 8), 1), (decide (u.num 2 ≤ 3), 2), (decide (u.num 3 ≤ 2), 3),
    (decide (u.num 2 = 0) || (decide (1500 ≤ u.num 4) && decide (u.num 4 ≤ 9216)), 4), (decide (u.num 5 ≤ 1), 5)]

theorem exec_portMode (h : s.InHand path 0x0501 t u) : exec (.portMode path) s = s.waits (.next (s.checked path 3 (modeRules u)
    (if s.drains.any (fun d => decide (d.obj = .port (u.num 1))) then s.reply path 2 1 []
    else (s.toBegin path).startDrain (modeDrain u path (s.sample.1.inUs 10000))))) :=
  congrArg s.waits (next_of_inHand h rfl)

theorem portMode_refused {k : Nat} (hs : s.Sound) (h : s.InHand path 0x0501 t u) (hk : firstBroken (modeRules u) = some k) :
    exec (.portMode path) s = .next (s.reply path 3 k []) := by
  rw [exec_portMode h, checked_of_broken hk]
  exact waits_of_served (reply_served hs.served _ _ _)

section
variable (hs : s.Sound) (h : s.InHand path 0x0501 t u) (hkept : firstBroken (modeRules u) = none)
include hs h hkept

theorem portMode_busy (hbusy : ∃ d ∈ s.drains, d.obj = .port (u.num 1)) : exec (.portMode path) s = .next (s.reply path 2 1 []) := by
  obtain ⟨d, hd, hobj⟩ := hbusy
  rw [exec_portMode h, checked_of_kept hkept, if_pos (List.any_eq_true.2 ⟨d, hd, decide_eq_true hobj⟩)]
  exact waits_of_served (reply_served hs.served _ _ _)

theorem portMode_begins (hidle : ∀ d ∈ s.drains, d.obj ≠ .port (u.num 1)) :
    ∃ x d, exec (.portMode path) s = .next x ∧ mfind x.taken path = some { t with cur := some { u with stage := .waiting } } ∧
      x.drains = s.drains ++ [d] ∧ d.obj = .port (u.num 1) ∧ d.after = .portMode (u.num 2) (u.num 3) (u.num 4) (decide (u.num 5 = 1)) ∧
      d.path = some path ∧ x.port (u.num 1) = { s.port (u.num 1) with draining := true } ∧ ∀ k, k ≠ u.num 1 → x.port k = s.port k := by
  have hnone : ¬ s.drains.any (fun d => decide (d.obj = .port (u.num 1))) = true := by
    rw [List.any_eq_true]
    rintro ⟨d, hd, hobj⟩
    exact hidle d hd (of_decide_eq_true hobj)
  obtain ⟨hserved, -⟩ := beginPort_begins (toBegin_keeps hs path).1 false (u.num 1)
  have hstart := startDrain_port (s := s.toBegin path) (d := modeDrain u path (s.sample.1.inUs 10000)) rfl
  have hoff := toBegin_off s path
  have hdrains : (s.toBegin path).drains = s.drains := (congrArg State.drains hoff :)
  have hports : (s.toBegin path).ports = s.ports := (congrArg State.ports hoff :)
  have hport (k : Nat) : (s.toBegin path).port k = s.port k := congrArg (fun m => mget ({} : FabPort) m k) hports
  have hrise : rising (s.toBegin path).ports := hports ▸ hs.tables.ports
  have hwaits := toBegin_waits h
  rw [exec_portMode h, checked_of_kept hkept, if_neg hnone, hstart]
  generalize s.toBegin path = w at hserved hdrains hport hrise hwaits ⊢
  refine ⟨_, _, waits_of_served hserved, hwaits, congrArg (· ++ _) hdrains, rfl, rfl, rfl, ?_, fun k hk => ?_⟩
  · rw [← hport]
    exact mget_mset_same_of_rising _ _ _ hrise
  · exact (mget_mset_other_of_rising _ _ hk hrise).trans (hport k)

end

theorem portMode_settles (hs : s.Sound) (h : s.InHand path 0x0501 t u) (p cls mtu : Nat) (hp : u.num 1 = p) (hcls : u.num 2 = cls)
    (hmtu : u.num 4 = mtu) :
    (p < 8 → cls ≤ 3 → u.num 3 ≤ 2 → cls = 0 ∨ (1500 ≤ mtu ∧ mtu ≤ 9216) → u.num 5 ≤ 1 → firstBroken (modeRules u) = none) ∧
    (p < 8 → 3 < cls → exec (.portMode path) s = .next (s.reply path 3 2 [])) ∧
    (p < 8 → 1 ≤ cls → cls ≤ 3 → u.num 3 ≤ 2 → mtu < 1500 ∨ 9216 < mtu → exec (.portMode path) s = .next (s.reply path 3 4 [])) := by
  subst hp hcls hmtu
  refine ⟨fun hp hcls h3 hmtu h5 => ?_, fun hp hcls => portMode_refused hs h ?_, fun hp hcls hcls' h3 hmtu => portMode_refused hs h ?_⟩
  · simpa [modeRules, firstBroken, hp, hcls, h3, h5] using or_iff_not_imp_left.1 hmtu
  · simp [modeRules, firstBroken, hp, hcls]
  · have hzero : u.num 2 ≠ 0 := by omega
    have hrange : (decide (1500 ≤ u.num 4) && decide (u.num 4 ≤ 9216)) = false := by
      rw [Bool.and_eq_false_iff, decide_eq_false_iff_not, decide_eq_false_iff_not]
      omega
    simp only [modeRules, firstBroken, hp, hcls', h3, hzero, hrange, decide_true, decide_false, Bool.false_or]
    rfl

/-! ### FAB_ADDR -/

theorem assoc_setAssoc {a : Nat} (x : Assoc) (h : rising s.assocs) : (s.setAssoc a x).assoc a = x := mget_mset_same_of_rising _ _ _ h

theorem assoc_setAssoc_other {a b : Nat} (x : Assoc) (hb : b ≠ a) (h : rising s.assocs) : (s.setAssoc a x).assoc b = s.assoc b :=
  mget_mset_other_of_rising _ _ hb h

theorem setAssoc_keeps_rising (a : Nat) (x : Assoc) (h : rising s.assocs) : rising (s.setAssoc a x).assocs := mset_keeps_rising ({} : Assoc) a x h

theorem resolve_off (s : State) (k : KPath) : { s.resolve k with out := [] } = { s with out := [] } := by
  unfold State.resolve
  dsimp only
  split <;> rfl

theorem resolveAll_off (m : Map KPath) (s : State) : { s.resolveAll m with out := [] } = { s with out := [] } :=
  foldl_fixes (fun v : State => ({ v with out := [] } : State)) (fun v e => resolve_off v e.2) m s

/-- What a rebuild of the paths leaves as it is: the sub-ports, the UDP port, the store, and the paths themselves, which change in their turn. -/
structure State.Readdresses (s t : State) : Prop where
  rise : rising t.assocs
  subPorts : t.subPorts = s.subPorts
  udpPort : t.udpPort = s.udpPort
  paths : ∀ a, (t.assoc a).paths = (s.assoc a).paths

theorem rebuildPaths_readdresses (h : rising s.assocs) : s.Readdresses s.rebuildPaths := by
  suffices hfold : ∀ (es : Map Assoc) (v : State), s.Readdresses v → s.Readdresses (es.foldl (fun t e =>
      if e.2.live then
        ((t.buildPaths e.2).1.setAssoc e.1
          { (t.buildPaths e.2).1.assoc e.1 with pathMove := pathChanges e.2.paths (t.buildPaths e.2).2 }).resolveAll (t.buildPaths e.2).2
      else t) v) from hfold s.assocs s ⟨h, rfl, rfl, fun _ => rfl⟩
  intro es
  induction es with
  | nil => exact fun v hv => hv
  | cons e es ih =>
    refine fun v hv => ih _ ?_
    dsimp only
    split
    · set x : Assoc := { (v.buildPaths e.2).1.assoc e.1 with pathMove := pathChanges e.2.paths (v.buildPaths e.2).2 }
      have hpaths : x.paths = (v.assoc e.1).paths := rfl
      clear_value x
      have hoff := resolveAll_off (v.buildPaths e.2).2 ((v.buildPaths e.2).1.setAssoc e.1 x)
      generalize State.resolveAll _ _ = y at hoff ⊢
      have hassocs : y.assocs = mset {} v.assocs e.1 x := (congrArg State.assocs hoff :)
      refine ⟨hassocs ▸ mset_keeps_rising _ _ _ hv.rise, (congrArg State.subPorts hoff :).trans hv.subPorts,
        (congrArg State.udpPort hoff :).trans hv.udpPort, fun a => ?_⟩
      rw [← hv.paths a, State.assoc, hassocs]
      by_cases ha : a = e.1
      · rw [ha, mget_mset_same_of_rising _ _ _ hv.rise, hpaths]
      · rw [mget_mset_other_of_rising _ _ ha hv.rise]
        rfl
    · exact hv

/-- The addresses of a sub-port as a request gives them, in the store's form. -/
def State.addrBytes (s : State) (u : Sub) : List Byte :=
  u.bytesOf 2 ++ (if u.has 3 then u.bytesOf 3 else (s.subPort (u.num 1)).ip4) ++ toBytes 1 (u.num 4)

/-- The state in which a request has put a sub-port's addresses into the store and in force. -/
def State.addressed (s : State) (u : Sub) : State :=
  let addrs := minsert s.conf.addrs (u.num 1) (s.addrBytes u)
  let addrs := if u.has 5 then minsert addrs 32 (u.bytesOf 5) else addrs
  { s with conf := { s.conf with addrs }, udpPort := if u.has 5 then some (u.num 5) else s.udpPort }.takeAddr (u.num 1) (s.addrBytes u)

theorem exec_fabAddr (h : s.InHand path 0x0502 t u) : exec (.fabAddr path) s = .next (s.checked path 3
    [(decide (u.num 1 < 32), 1), (decide (u.num 4 < 64), 4)] ((s.addressed u).rebuildPaths.replyStored path [])) :=
  next_of_inHand h rfl

/-- The addresses that stand after a request, of which IPv4 may be left out. -/
theorem takeAddr_subPort {k : Nat} {ip6 ip4 : List Byte} {dscp : Nat} (hs : rising s.subPorts) (h6 : ip6.length = 16) (h4 : ip4 = [] ∨ ip4.length = 4)
    (hdscp : dscp < 64) :
    (s.takeAddr k (ip6 ++ ip4 ++ toBytes 1 dscp)).subPort k = { s.subPort k with ip6 := ip6, ip4 := ip4, dscp := dscp } := by
  have hone : (toBytes 1 dscp).length = 1 := length_toBytes _ _
  have hlen : (ip6 ++ ip4 ++ toBytes 1 dscp).length = 17 + ip4.length := by
    simp only [List.length_append, h6, hone]
    omega
  have hip6 : (ip6 ++ ip4 ++ toBytes 1 dscp).take 16 = ip6 := by
    rw [List.append_assoc, ← h6, List.take_left]
  have hdrop : (ip6 ++ ip4 ++ toBytes 1 dscp).drop 16 = ip4 ++ toBytes 1 dscp := by
    rw [List.append_assoc, ← h6, List.drop_left]
  have hfield : field (ip6 ++ ip4 ++ toBytes 1 dscp) ((ip6 ++ ip4 ++ toBytes 1 dscp).length - 1) 1 = dscp := by
    have hcut : (ip6 ++ ip4 ++ toBytes 1 dscp).length - 1 = (ip6 ++ ip4).length := by
      simp only [List.length_append, hone]
      omega
    rw [field, hcut, List.drop_left, List.take_of_length_le (by rw [hone]), ofBytes_toBytes]
    exact Nat.mod_eq_of_lt (by omega)
  have hip4 : (if (ip6 ++ ip4 ++ toBytes 1 dscp).length = 21 then ((ip6 ++ ip4 ++ toBytes 1 dscp).drop 16).take 4 else []) = ip4 := by
    rw [hlen, hdrop]
    rcases h4 with h4 | h4
    · rw [h4]
      rfl
    · rw [if_pos (by omega), ← h4, List.take_left]
  refine (mget_mset_same_of_rising _ _ _ hs).trans ?_
  rw [hip6, hfield, hip4]

theorem fabAddr_sets (hs : s.Sound) (h : s.InHand path 0x0502 t u) {ip4 : List Byte}
    (hip4 : (if u.has 3 then u.bytesOf 3 else (s.subPort (u.num 1)).ip4) = ip4) (hk : u.num 1 < 32) (hdscp : u.num 4 < 64)
    (h6 : (u.bytesOf 2).length = 16) (h4 : ip4 = [] ∨ ip4.length = 4) :
    ∃ x : State, exec (.fabAddr path) s = .next (x.replyStored path []) ∧
      x.subPort (u.num 1) = { s.subPort (u.num 1) with ip6 := u.bytesOf 2, ip4 := ip4, dscp := u.num 4 } ∧
      (∀ j, j ≠ u.num 1 → x.subPort j = s.subPort j) ∧ (x.udpPort = if u.has 5 = true then some (u.num 5) else s.udpPort) ∧
      ∀ a, (x.assoc a).paths = (s.assoc a).paths := by
  subst hip4
  have hre := rebuildPaths_readdresses (s := s.addressed u) hs.tables.assocs
  rw [exec_fabAddr h, checked_of_kept (by simp [firstBroken, hk, hdscp])]
  refine ⟨_, rfl, ?_, fun j hj => ?_, hre.udpPort, hre.paths⟩
  · exact (congrArg (fun m => mget ({} : SubPort) m (u.num 1)) hre.subPorts :).trans (takeAddr_subPort hs.tables.subPorts h6 h4 hdscp)
  · exact (congrArg (fun m => mget ({} : SubPort) m j) hre.subPorts :).trans (mget_mset_other_of_rising _ _ hj hs.tables.subPorts)

theorem fabAddr_refused (h : s.InHand path 0x0502 t u) (hk : 32 ≤ u.num 1) : exec (.fabAddr path) s = .next (s.reply path 3 1 []) := by
  rw [exec_fabAddr h, checked_of_broken]
  simp [firstBroken, Nat.not_lt.2 hk]

/-! ### ASSOC_SET -/

/-- An association as a request sets it. -/
def State.asked (s : State) (u : Sub) : Assoc := {
  live := true, part := u.num 2, target := u.num 3, peerHash := u.bytesOf 4, peerPart := u.num 5
  peers := chunks20 ((u.bytesOf 6).length / 20) (u.bytesOf 6)
  windows := if (s.assoc (u.num 1)).live ∧ (s.assoc (u.num 1)).part = u.num 2 then (s.assoc (u.num 1)).windows else [] }

/-- The state in which an association has been set, and its neighbours asked for. -/
def State.associated (s : State) (u : Sub) : State :=
  ((s.buildPaths (s.asked u)).1.setAssoc (u.num 1) { s.asked u with paths := (s.buildPaths (s.asked u)).2 }).resolveAll (s.buildPaths (s.asked u)).2

theorem exec_assocSet (h : s.InHand path 0x0503 t u) : exec (.assocSet path) s = .next (s.checked path 3
    [(decide (u.num 1 < 128), 1), (decide (u.num 2 < 8) && (s.part (u.num 2)).live, 2), (decide (u.num 3 < 64), 3), (decide (u.num 5 < 8), 5)]
    (if (s.assoc (u.num 1)).live ∧ (s.assoc (u.num 1)).state ≠ .idle ∧ (s.assoc (u.num 1)).state ≠ .failed then s.reply path 2 1 []
    else ((s.associated u).sendHello (u.num 1)).reply path 0 0 [])) :=
  next_of_inHand h rfl

/-- What the sending of a handshake message leaves of the associations and the store: the association counts one packet more. -/
structure State.Hails (a : Nat) (s t : State) : Prop where
  rise : rising t.assocs
  conf : t.conf = s.conf
  same : { t.assoc a with txPkts := 0 } = { s.assoc a with txPkts := 0 }
  other : ∀ b, b ≠ a → t.assoc b = s.assoc b

theorem State.Hails.refl (a : Nat) (h : rising s.assocs) : s.Hails a s := ⟨h, rfl, rfl, fun _ _ => rfl⟩

/-- An association that counts one packet more. -/
def Assoc.counted (x : Assoc) : Assoc := { x with txPkts := (x.txPkts + 1) % 2 ^ 64 }

theorem sendPacket_counts (s : State) (a : Nat) (k : KPath) (bs : List Byte) :
    (s.sendPacket a k bs).assocs = (s.setAssoc a (s.assoc a).counted).assocs ∧ (s.sendPacket a k bs).conf = s.conf := by
  unfold State.sendPacket Assoc.counted
  exact ⟨rfl, rfl⟩

theorem sendPacket_hails (a : Nat) (k : KPath) (bs : List Byte) (h : rising s.assocs) : s.Hails a (s.sendPacket a k bs) := by
  obtain ⟨hassocs, hconf⟩ := sendPacket_counts s a k bs
  have hassoc (b : Nat) : (s.sendPacket a k bs).assoc b = (s.setAssoc a (s.assoc a).counted).assoc b :=
    congrArg (fun m => mget ({} : Assoc) m b) hassocs
  refine ⟨hassocs ▸ setAssoc_keeps_rising a _ h, hconf, ?_, fun b hb => (hassoc b).trans (assoc_setAssoc_other _ hb h)⟩
  rw [hassoc, assoc_setAssoc _ h]
  rfl

theorem sendHandshake_hails (a epoch : Nat) (body : List Byte) (h : rising s.assocs) : s.Hails a (s.sendHandshake a epoch body) := by
  unfold State.sendHandshake
  split
  next i k _ _ _ =>
    dsimp only
    split
    · exact ⟨h, rfl, rfl, fun _ _ => rfl⟩
    · obtain ⟨hrise, hconf, hsame, hother⟩ := sendPacket_hails (s := s.sample.1) a k
        (kftHead 4 0 i epoch 0 0 0 s.sample.2 ++ body) h
      exact ⟨hrise, hconf, hsame, hother⟩
  · exact .refl a h

/-- What a `HELLO` leaves of an association: what the installer has set stands, and its handshake has begun. -/
structure State.Greets (a : Nat) (s t : State) : Prop where
  conf : t.conf = s.conf
  live : (t.assoc a).live = (s.assoc a).live
  part : (t.assoc a).part = (s.assoc a).part
  target : (t.assoc a).target = (s.assoc a).target
  peerHash : (t.assoc a).peerHash = (s.assoc a).peerHash
  peerPart : (t.assoc a).peerPart = (s.assoc a).peerPart
  peers : (t.assoc a).peers = (s.assoc a).peers
  keys : (t.assoc a).keys = (s.assoc a).keys
  begun : s.seed ≠ none → (t.assoc a).state = (if (s.assoc a).keys = [] then .handshake else .rekeying) ∧ (t.assoc a).initiator = true ∧
    (t.assoc a).next = none
  other : ∀ b, b ≠ a → t.assoc b = s.assoc b

theorem tagFor_keeps (s : State) (a : Nat) : (s.tagFor a).1.assocs = s.assocs ∧ (s.tagFor a).1.conf = s.conf := by
  unfold State.tagFor
  dsimp only
  split <;> exact ⟨rfl, rfl⟩

theorem sendHello_greets (a : Nat) (h : rising s.assocs) : s.Greets a (s.sendHello a) := by
  unfold State.sendHello
  extract_lets x
  split
  next hnone =>
    refine ⟨rfl, rfl, rfl, rfl, rfl, rfl, rfl, rfl, fun hseed => ?_, fun _ _ => rfl⟩
    cases hs : s.seed with
    | none => exact absurd hs hseed
    | some sd => simp [State.partKey, hs] at hnone
  next key _ =>
    obtain ⟨hassocs, hconf⟩ := tagFor_keeps s.draw32.1.draw32.1 a
    dsimp only
    generalize hw : s.draw32.1.draw32.1.tagFor a = w at hassocs hconf ⊢
    set y : Assoc := { x with
      state := if x.keys = [] then .handshake else .rekeying, initiator := true, eph := s.draw32.2
      hello := hsFields a x.newEpoch w.2 (Config.x25519Public s.draw32.2) s.draw32.1.draw32.2 w.1.sample.1.conf.chain (w.1.sample.1.partCertOf x.part) ++
        Config.ed25519Sign key (hsFields a x.newEpoch w.2 (Config.x25519Public s.draw32.2) s.draw32.1.draw32.2 w.1.sample.1.conf.chain
          (w.1.sample.1.partCertOf x.part))
      reply := [], next := none, ownTag := w.2, began := w.1.sample.2 } with hy
    have hrise : rising w.1.sample.1.assocs := hassocs ▸ h
    have hhail := sendHandshake_hails a x.newEpoch y.hello (setAssoc_keeps_rising (s := w.1.sample.1) a y hrise)
    have hsame := hhail.same
    rw [assoc_setAssoc y hrise] at hsame
    generalize State.sendHandshake _ _ _ _ = z at hhail hsame ⊢
    refine ⟨hhail.conf.trans hconf, ?_, ?_, ?_, ?_, ?_, ?_, ?_, fun _ => ⟨?_, ?_, ?_⟩, fun b hb => ?_⟩
    · exact (congrArg Assoc.live hsame :)
    · exact (congrArg Assoc.part hsame :)
    · exact (congrArg Assoc.target hsame :)
    · exact (congrArg Assoc.peerHash hsame :)
    · exact (congrArg Assoc.peerPart hsame :)
    · exact (congrArg Assoc.peers hsame :)
    · exact (congrArg Assoc.keys hsame :)
    · exact (congrArg Assoc.state hsame :)
    · exact (congrArg Assoc.initiator hsame :)
    · exact (congrArg Assoc.next hsame :)
    · rw [hhail.other b hb, assoc_setAssoc_other y hb hrise]
      exact congrArg (fun m => mget ({} : Assoc) m b) hassocs

/-- What an association is set to before its handshake begins. -/
theorem associated_sets (h : rising s.assocs) (u : Sub) :
    rising (s.associated u).assocs ∧ (s.associated u).conf = s.conf ∧ (s.associated u).seed = s.seed ∧
      (s.associated u).assoc (u.num 1) = { s.asked u with paths := (s.buildPaths (s.asked u)).2 } ∧
      ∀ b, b ≠ u.num 1 → (s.associated u).assoc b = s.assoc b := by
  have hoff := resolveAll_off (s.buildPaths (s.asked u)).2
    ((s.buildPaths (s.asked u)).1.setAssoc (u.num 1) { s.asked u with paths := (s.buildPaths (s.asked u)).2 })
  have hassocs : (s.associated u).assocs = mset {} s.assocs (u.num 1) { s.asked u with paths := (s.buildPaths (s.asked u)).2 } :=
    (congrArg State.assocs hoff :)
  refine ⟨hassocs ▸ mset_keeps_rising _ _ _ h, (congrArg State.conf hoff :), (congrArg State.seed hoff :), ?_, fun b hb => ?_⟩
  · rw [State.assoc, hassocs, mget_mset_same_of_rising _ _ _ h]
  · rw [State.assoc, hassocs, mget_mset_other_of_rising _ _ hb h]
    rfl

section
variable (hs : s.Sound) (h : s.InHand path 0x0503 t u) (ha : u.num 1 < 128) (hq : u.num 2 < 8) (hlive : (s.part (u.num 2)).live = true)
  (h3 : u.num 3 < 64) (h5 : u.num 5 < 8)
include h ha hq hlive h3 h5

theorem assocSet_inUse (hold : (s.assoc (u.num 1)).live = true) (hidle : (s.assoc (u.num 1)).state ≠ .idle)
    (hfailed : (s.assoc (u.num 1)).state ≠ .failed) : exec (.assocSet path) s = .next (s.reply path 2 1 []) := by
  rw [exec_assocSet h, checked_of_kept (by simp [firstBroken, ha, hq, hlive, h3, h5]), if_pos ⟨hold, hidle, hfailed⟩]

include hs in
theorem assocSet_sets (hfree : (s.assoc (u.num 1)).live = false ∨ (s.assoc (u.num 1)).state = .idle ∨ (s.assoc (u.num 1)).state = .failed) :
    ∃ x : State, exec (.assocSet path) s = .next (x.reply path 0 0 []) ∧
      (x.assoc (u.num 1)).live = true ∧ (x.assoc (u.num 1)).part = u.num 2 ∧ (x.assoc (u.num 1)).target = u.num 3 ∧
      (x.assoc (u.num 1)).peerHash = u.bytesOf 4 ∧ (x.assoc (u.num 1)).peerPart = u.num 5 ∧
      (x.assoc (u.num 1)).peers = chunks20 ((u.bytesOf 6).length / 20) (u.bytesOf 6) ∧ (x.assoc (u.num 1)).keys = [] ∧
      (s.seed ≠ none → (x.assoc (u.num 1)).state = .handshake ∧ (x.assoc (u.num 1)).initiator = true) ∧
      x.conf = s.conf ∧ ∀ b, b ≠ u.num 1 → x.assoc b = s.assoc b := by
  have hnot : ¬ ((s.assoc (u.num 1)).live = true ∧ (s.assoc (u.num 1)).state ≠ .idle ∧ (s.assoc (u.num 1)).state ≠ .failed) := by
    rintro ⟨hold, hidle, hfailed⟩
    rcases hfree with hfree | hfree | hfree
    · exact Bool.false_ne_true (hfree.symm.trans hold)
    · exact hidle hfree
    · exact hfailed hfree
  obtain ⟨hrise, hconf, hseed, hsame, hother⟩ := associated_sets hs.tables.assocs u
  obtain ⟨gconf, glive, gpart, gtarget, ghash, gpeerPart, gpeers, gkeys, gbegun, gother⟩ := sendHello_greets (u.num 1) hrise
  rw [exec_assocSet h, checked_of_kept (by simp [firstBroken, ha, hq, hlive, h3, h5]), if_neg hnot]
  rw [hsame] at glive gpart gtarget ghash gpeerPart gpeers gkeys gbegun
  exact ⟨_, rfl, glive, gpart, gtarget, ghash, gpeerPart, gpeers, gkeys,
    fun hne => (gbegun (by rwa [hseed])).imp (·.trans (if_pos rfl)) And.left, gconf.trans hconf,
    fun b hb => (gother b hb).trans (hother b hb)⟩

end

/-! ### ASSOC_REMOVE -/

theorem exec_assocRemove (h : s.InHand path 0x0504 t u) : exec (.assocRemove path) s = s.waits (.next
    (if 128 ≤ u.num 1 ∨ (s.assoc (u.num 1)).live = false then s.reply path 3 1 []
    else ((s.closeAssoc (u.num 1)).setAssoc (u.num 1) {}).reply path 0 0 [])) :=
  congrArg s.waits (next_of_inHand h rfl)

theorem raise_assoc (h : rising s.funcs) (fn a : Nat) : bit ((s.raise fn (.kftAssoc a)).func fn).assoc a = true := by
  have hr := (raise_rings_raised h fn (.kftAssoc a)).func fn
  rw [func_setFunc_same_of_rising _ _ h] at hr
  have hassoc : ((s.raise fn (.kftAssoc a)).func fn).assoc = setBit (s.func fn).assoc a true := (congrArg Func.assoc hr :)
  rw [hassoc, bit_setBit_same]

/-- The causes of the associations stand while an entry of an event log is told of. -/
theorem raise_event_assoc (h : rising s.funcs) (fn b k : Nat) : ((s.raise fn (.event b)).func k).assoc = (s.func k).assoc := by
  have hr := (raise_rings_raised h fn (.event b)).func k
  have hassoc : ((s.raise fn (.event b)).func k).assoc = ((s.setFunc fn (s.raised fn (.event b))).func k).assoc := (congrArg Func.assoc hr :)
  refine hassoc.trans ?_
  by_cases hk : k = fn
  · rw [hk, func_setFunc_same_of_rising _ _ h]
    rfl
  · rw [func_setFunc_other_of_rising _ hk h]

theorem logEvent_assoc (h : rising s.funcs) (fn kind k : Nat) (body : List Byte) : ((s.logEvent fn kind body).func k).assoc = (s.func k).assoc := by
  simp only [State.logEvent]
  split
  · refine (raise_event_assoc (raise_rings (s := s.sample.1.setEvlog fn _) h _).2 fn 1 k).trans ?_
    exact raise_event_assoc (s := s.sample.1.setEvlog fn _) h fn 0 k
  · exact raise_event_assoc (s := s.sample.1.setEvlog fn _) h fn 0 k

/-- What the end of an association leaves: it is told to the installer, its landing messages are gone, and no other association has changed. -/
structure State.Parts (a : Nat) (s t : State) : Prop where
  rise : rising t.assocs
  other : ∀ b, b ≠ a → t.assoc b = s.assoc b
  gone : ∀ l ∈ t.ldgMsgs, l.assoc ≠ a
  told : bit (t.func 0).assoc a = true

/-- An association as its end leaves it. -/
def Assoc.ended (x : Assoc) (st : AssocState) : Assoc := { x with
  state := st, keys := [], next := none, eph := [], hello := [], reply := [], confirm := [], transcript := [], peerPub := [], sendQ := []
  retxQ := [], sent := [], outMsgs := [], rxMsgs := [], rxDone := [], rxLow := 0, nextSeq := 0, rxPaths := [] }

/-- The state in which an association has lost its entries, its mirrors and subscribers, and its keys. -/
def State.severed (s : State) (a : Nat) (st : AssocState) : State :=
  let v := (s.abortEntries a 0x25).loseSlots
    (((s.abortEntries a 0x25).slots.filter (fun e => decide (e.2.mirror.map (·.1) = some a))).map (·.1))
  let w := { v with
    slots := mmapVals v.slots (fun _ x => { x with subs := x.subs.filter (fun p => decide (p.1 ≠ a)) })
    ldgMsgs := v.ldgMsgs.filter (fun l => decide (l.assoc ≠ a)) }
  w.setAssoc a ((w.assoc a).ended st)

/-- An association's cause is raised at a function, with its entry in the event log. -/
def State.tellAssoc (s : State) (a reason fn : Nat) : State := (s.raise fn (.kftAssoc a)).logEvent fn 3 (kftEvent a 2 0 0 reason)

theorem endAssoc_severed (s : State) (a : Nat) (st : AssocState) (reason : Nat) : s.endAssoc a st reason =
    (if (s.severed a st).fnOf (s.assoc a).part = 0 then s.severed a st
      else (s.severed a st).tellAssoc a reason ((s.severed a st).fnOf (s.assoc a).part)).tellAssoc a reason 0 := by
  unfold State.endAssoc State.severed State.tellAssoc
  rfl

theorem tellAssoc_keeps (s : State) (a reason fn : Nat) :
    (s.tellAssoc a reason fn).assocs = s.assocs ∧ (s.tellAssoc a reason fn).ldgMsgs = s.ldgMsgs := by
  have hoff : (s.tellAssoc a reason fn).offAccess = s.offAccess := (State.Onward.logEvent (.raise (.refl (deep := 0) true s))).access rfl
  generalize s.tellAssoc a reason fn = t at hoff ⊢
  exact ⟨(congrArg State.assocs hoff :), (congrArg State.ldgMsgs hoff :)⟩

theorem tellAssoc_raises (h : rising s.funcs) (a reason fn : Nat) :
    rising (s.tellAssoc a reason fn).funcs ∧ bit ((s.tellAssoc a reason fn).func fn).assoc a = true := by
  have hrise := (raise_rings (fn := fn) h (.kftAssoc a)).2
  refine ⟨((State.Tells.refl hrise).logEvent fn 3 _).funcs, ?_⟩
  rw [State.tellAssoc, logEvent_assoc hrise]
  exact raise_assoc h fn a

theorem endAssoc_parts (hs : s.Tables) (a : Nat) (st : AssocState) (reason : Nat) : s.Parts a (s.endAssoc a st reason) := by
  have hrise : rising s.assocs := hs.assocs
  have hfuncs : rising (s.severed a st).funcs :=
    (State.Onward.tables (State.Onward.loseSlots (deep := 3) (.abortEntries (.refl false s))) hs).funcs
  have hassocs : (s.severed a st).assocs = mset {} s.assocs a ((s.severed a st).assoc a) := by
    have hkept := (loseSlots_fabric (((s.abortEntries a 0x25).slots.filter (fun e => decide (e.2.mirror.map (·.1) = some a))).map (·.1))
      (s.abortEntries a 0x25)).trans (abortEntries_fabric s a 0x25)
    unfold State.severed
    extract_lets v w
    have hw : w.assocs = s.assocs := (congrArg Prod.fst hkept :)
    have hwrise : rising w.assocs := hw ▸ hrise
    rw [assoc_setAssoc _ hwrise, ← hw]
    rfl
  have hgone : ∀ l ∈ (s.severed a st).ldgMsgs, l.assoc ≠ a := fun l hl => of_decide_eq_true (List.mem_filter.1 hl).2
  rw [endAssoc_severed]
  generalize s.severed a st = v at hfuncs hassocs hgone ⊢
  generalize hw : (if v.fnOf (s.assoc a).part = 0 then v else v.tellAssoc a reason (v.fnOf (s.assoc a).part)) = w
  have hkeeps : rising w.funcs ∧ w.assocs = v.assocs ∧ w.ldgMsgs = v.ldgMsgs := by
    rw [← hw]
    split
    · exact ⟨hfuncs, rfl, rfl⟩
    · exact ⟨(tellAssoc_raises hfuncs a reason _).1, tellAssoc_keeps v a reason _⟩
  obtain ⟨hwfuncs, hwassocs, hwmsgs⟩ := hkeeps
  obtain ⟨hzassocs, hzmsgs⟩ := tellAssoc_keeps w a reason 0
  refine ⟨?_, fun b hb => ?_, ?_, (tellAssoc_raises hwfuncs a reason 0).2⟩
  · rw [hzassocs, hwassocs, hassocs]
    exact mset_keeps_rising _ _ _ hrise
  · rw [State.assoc, hzassocs, hwassocs, hassocs, mget_mset_other_of_rising _ _ hb hrise]
    rfl
  · rwa [hzmsgs, hwmsgs]

theorem closeAssoc_parts (hs : s.Tables) (a : Nat) : s.Parts a (s.closeAssoc a) := by
  unfold State.closeAssoc
  extract_lets x fs v
  have hv : v.Tables ∧ ∀ b, b ≠ a → v.assoc b = s.assoc b := by
    dsimp only [v]
    split
    · split
      · exact ⟨(State.Onward.sendHandshake (deep := 3) (.refl false s)).tables hs, (sendHandshake_hails a _ _ hs.assocs).other⟩
      · exact ⟨hs, fun _ _ => rfl⟩
    · exact ⟨hs, fun _ _ => rfl⟩
  have hend := endAssoc_parts hv.1 a .idle 0
  exact ⟨hend.rise, fun b hb => (hend.other b hb).trans (hv.2 b hb), hend.gone, hend.told⟩

theorem assocRemove_removes (hs : s.Sound) (h : s.InHand path 0x0504 t u) (ha : u.num 1 < 128) (hlive : (s.assoc (u.num 1)).live = true)
    (hserved : (s.closeAssoc (u.num 1)).stalled = false) :
    ∃ x : State, exec (.assocRemove path) s = .next (x.reply path 0 0 []) ∧ x.assoc (u.num 1) = {} ∧
      (∀ b, b ≠ u.num 1 → x.assoc b = s.assoc b) ∧ (∀ l ∈ x.ldgMsgs, l.assoc ≠ u.num 1) ∧ bit (x.func 0).assoc (u.num 1) = true := by
  have hparts := closeAssoc_parts hs.tables (u.num 1)
  have hnot : ¬ (128 ≤ u.num 1 ∨ (s.assoc (u.num 1)).live = false) := by simp [hlive, ha]
  rw [exec_assocRemove h, if_neg hnot]
  generalize s.closeAssoc (u.num 1) = v at hserved hparts ⊢
  exact ⟨_, waits_of_served (reply_served (s := v.setAssoc (u.num 1) {}) hserved _ _ _), assoc_setAssoc _ hparts.rise,
    fun b hb => (assoc_setAssoc_other _ hb hparts.rise).trans (hparts.other b hb), hparts.gone, hparts.told⟩

theorem assocRemove_refused (hs : s.Sound) (h : s.InHand path 0x0504 t u) (hnone : 128 ≤ u.num 1 ∨ (s.assoc (u.num 1)).live = false) :
    exec (.assocRemove path) s = .next (s.reply path 3 1 []) := by
  rw [exec_assocRemove h, if_pos hnone]
  exact waits_of_served (reply_served hs.served _ _ _)

/-! ### POWER_CAP -/

/-- The settings of the module with one of the request's, where it gives it. -/
def capOne (u : Sub) (m : Map Nat) (i : Nat) : Map Nat := match u.num? i with | some x => minsert m (16 * i) x | none => m

/-- The settings of the module with one of the request's for each partition, where it gives them. -/
def capMany (u : Sub) (m : Map Nat) (i : Nat) (xs : List Nat) : Map Nat :=
  if u.has i then (List.range 8).foldl (fun m q => minsert m (16 * i + q) (xs.getD q 0)) m else m

/-- The state with the settings that a request gives. -/
def State.capped (s : State) (u : Sub) : State := { s with conf := { s.conf with
  caps := capMany u (capMany u ([1, 2, 3, 4].foldl (capOne u) s.conf.caps) 5 (words8 (u.bytesOf 5))) 6 (words8 (u.bytesOf 6)) } }

/-- The rules of the settings of Table 15-4. -/
def State.capRules (s : State) (u : Sub) : List (Bool × Nat) :=
  [(inRange (u.num? 1) 1200 3600 && decide ((u.num? 2).getD s.floorLinks + (u.num? 3).getD s.floorMem + 450 ≤ (u.num? 1).getD s.capW), 1),
    (inRange (u.num? 2) 200 1000, 2), (inRange (u.num? 3) 150 800, 3), (inRange (u.num? 4) 0 1000, 4),
    (!u.has 5 || (words8 (u.bytesOf 5)).all (fun x => inRange (some x) 1 100), 5),
    (!u.has 6 || (words8 (u.bytesOf 6)).all (fun x => decide (x = 0) || inRange (some x) 10 10000000), 6)]

theorem exec_powerCap (h : s.InHand path 0x0601 t u) : exec (.powerCap path) s = .next (s.checked path 3 (s.capRules u)
    (if u.fields = [] then (s.capped u).reply path 0 0 (s.capped u).capFields else (s.capped u).replyStored path (s.capped u).capFields)) :=
  next_of_inHand h rfl

theorem mfind_capOne (u : Sub) (m : Map Nat) (i k : Nat) :
    mfind (capOne u m i) k = if k = 16 * i then (u.num? i).or (mfind m k) else mfind m k := by
  unfold capOne
  split
  next x hx =>
    split
    next hk => rw [hk, mfind_minsert_same, hx, Option.some_or]
    next hk => exact mfind_minsert_other _ _ _ _ hk
  next hx => rw [hx, Option.none_or, ite_self]

theorem mfind_foldl_minsert (base n : Nat) (xs : List Nat) (m : Map Nat) (k : Nat) :
    mfind ((List.range n).foldl (fun m q => minsert m (base + q) (xs.getD q 0)) m) k =
      if base ≤ k ∧ k < base + n then some (xs.getD (k - base) 0) else mfind m k := by
  induction n with
  | zero => rw [if_neg (by omega)]; rfl
  | succ n ih =>
    rw [List.range_succ, List.foldl_append, List.foldl_cons, List.foldl_nil]
    by_cases hk : k = base + n
    · subst hk
      rw [mfind_minsert_same, if_pos (by omega), Nat.add_sub_cancel_left]
    · rw [mfind_minsert_other _ _ _ _ hk, ih]
      by_cases hin : base ≤ k ∧ k < base + n
      · rw [if_pos hin, if_pos (by omega)]
      · rw [if_neg hin, if_neg (by omega)]

theorem mfind_capMany (u : Sub) (m : Map Nat) (i k : Nat) (xs : List Nat) :
    mfind (capMany u m i xs) k = if u.has i = true ∧ 16 * i ≤ k ∧ k < 16 * i + 8 then some (xs.getD (k - 16 * i) 0) else mfind m k := by
  unfold capMany
  split
  next hi => simp only [mfind_foldl_minsert, hi, true_and]
  next hi => rw [if_neg (fun h => hi h.1)]

/-- One of the four settings of the module. -/
theorem mfind_capped_one (s : State) (u : Sub) {i : Nat} (hi : i ∈ [1, 2, 3, 4]) :
    mfind (s.capped u).conf.caps (16 * i) = (u.num? i).or (mfind s.conf.caps (16 * i)) := by
  rw [State.capped, mfind_capMany, mfind_capMany]
  simp only [List.mem_cons, List.not_mem_nil, or_false] at hi
  rcases hi with rfl | rfl | rfl | rfl <;> simp [mfind_capOne]

theorem capSet_capped_one (s : State) (u : Sub) {i : Nat} (hi : i ∈ [1, 2, 3, 4]) (dflt : Nat) :
    (s.capped u).capSet i 0 dflt = (u.num? i).getD (s.capSet i 0 dflt) := by
  rw [State.capSet, Nat.add_zero, mfind_capped_one s u hi, State.capSet, Nat.add_zero]
  cases u.num? i <;> rfl

theorem getD_words8 (bs : List Byte) {q : Nat} (hq : q < 8) : (words8 bs).getD q 0 = field bs (4 * q) 4 := by
  simp [words8, hq]

/-- A setting that each partition has. -/
theorem capSet_capped_many (s : State) (u : Sub) {i q : Nat} (hi : i = 5 ∨ i = 6) (hq : q < 8) (dflt : Nat) :
    (s.capped u).capSet i q dflt = if u.has i = true then field (u.bytesOf i) (4 * q) 4 else s.capSet i q dflt := by
  rw [State.capSet, State.capped, mfind_capMany, mfind_capMany]
  rcases hi with rfl | rfl
  · rw [if_neg (by omega)]
    by_cases h5 : u.has 5 = true
    · rw [if_pos ⟨h5, by omega, by omega⟩, if_pos h5, Nat.add_sub_cancel_left, getD_words8 _ hq]
      rfl
    · rw [if_neg (fun h => h5 h.1), if_neg h5]
      simp only [List.foldl_cons, List.foldl_nil, mfind_capOne]
      rw [if_neg (by omega), if_neg (by omega), if_neg (by omega), if_neg (by omega)]
      rfl
  · by_cases h6 : u.has 6 = true
    · rw [if_pos ⟨h6, by omega, by omega⟩, if_pos h6, Nat.add_sub_cancel_left, getD_words8 _ hq]
      rfl
    · rw [if_neg (fun h => h6 h.1), if_neg (by omega), if_neg h6]
      simp only [List.foldl_cons, List.foldl_nil, mfind_capOne]
      rw [if_neg (by omega), if_neg (by omega), if_neg (by omega), if_neg (by omega)]
      rfl

theorem all_words8 (bs : List Byte) (p : Nat → Bool) : (words8 bs).all p = true ↔ ∀ q < 8, p (field bs (4 * q) 4) = true := by
  simp [words8]

section
variable (h : s.InHand path 0x0601 t u)
include h

theorem powerCap_sets (hcap : (u.num? 2).getD s.floorLinks + (u.num? 3).getD s.floorMem + 450 ≤ (u.num? 1).getD s.capW)
    (h1 : inRange (u.num? 1) 1200 3600 = true) (h2 : inRange (u.num? 2) 200 1000 = true) (h3 : inRange (u.num? 3) 150 800 = true)
    (h4 : inRange (u.num? 4) 0 1000 = true)
    (h5 : u.has 5 = true → ∀ q < 8, 1 ≤ field (u.bytesOf 5) (4 * q) 4 ∧ field (u.bytesOf 5) (4 * q) 4 ≤ 100)
    (h6 : u.has 6 = true → ∀ q < 8, let x := field (u.bytesOf 6) (4 * q) 4; x = 0 ∨ (10 ≤ x ∧ x ≤ 10000000)) :
    ∃ x : State, (u.fields ≠ [] → exec (.powerCap path) s = .next (x.replyStored path x.capFields)) ∧
      (u.fields = [] → exec (.powerCap path) s = .next (x.reply path 0 0 x.capFields)) ∧ x.capW = (u.num? 1).getD s.capW ∧
      x.floorLinks = (u.num? 2).getD s.floorLinks ∧ x.floorMem = (u.num? 3).getD s.floorMem ∧ x.paddleUs = (u.num? 4).getD s.paddleUs ∧
      (∀ q < 8, x.shareOf q = (if u.has 5 = true then field (u.bytesOf 5) (4 * q) 4 else s.shareOf q) ∧
        x.retentionUs q = if u.has 6 = true then field (u.bytesOf 6) (4 * q) 4 else s.retentionUs q) ∧ x.gals = s.gals := by
  have hshares : (!u.has 5 || (words8 (u.bytesOf 5)).all (fun x => inRange (some x) 1 100)) = true := by
    rw [Bool.or_eq_true, Bool.not_eq_true', all_words8]
    cases hhas : u.has 5 with
    | false => exact .inl rfl
    | true => exact .inr fun q hq => by simpa [inRange] using h5 hhas q hq
  have hrets : (!u.has 6 || (words8 (u.bytesOf 6)).all (fun x => decide (x = 0) || inRange (some x) 10 10000000)) = true := by
    rw [Bool.or_eq_true, Bool.not_eq_true', all_words8]
    cases hhas : u.has 6 with
    | false => exact .inl rfl
    | true => exact .inr fun q hq => by simpa [inRange] using h6 hhas q hq
  have hkept : firstBroken (s.capRules u) = none := by
    simp only [State.capRules, firstBroken, h1, h2, h3, h4, hshares, hrets, hcap, decide_true, Bool.and_true, if_true]
  have hexec := exec_powerCap h
  rw [checked_of_kept hkept] at hexec
  refine ⟨s.capped u, fun hf => hexec.trans ?_, fun hf => hexec.trans ?_, capSet_capped_one s u (by simp) _, capSet_capped_one s u (by simp) _,
    capSet_capped_one s u (by simp) _, capSet_capped_one s u (by simp) _,
    fun q hq => ⟨capSet_capped_many s u (.inl rfl) hq _, capSet_capped_many s u (.inr rfl) hq _⟩, rfl⟩
  · rw [if_neg hf]
  · rw [if_pos hf]

theorem powerCap_refused (hcap : (u.num? 1).getD s.capW < (u.num? 2).getD s.floorLinks + (u.num? 3).getD s.floorMem + 450) :
    exec (.powerCap path) s = .next (s.reply path 3 1 []) := by
  rw [exec_powerCap h, checked_of_broken]
  simp only [State.capRules, firstBroken, Nat.not_le.2 hcap, decide_false, Bool.and_false]
  rfl

end

/-! ### THRESHOLDS -/

/-- The table of Table 14-13 as a response tells it. -/
def State.thresholdTable (s : State) : List Byte :=
  (List.range 16).flatMap (fun i =>
    toBytes 2 (i + 1) ++ zeros 2 ++ toBytes 4 (s.setting (i + 1) (match thresholdItem (i + 1) with | some x => x.2.2 | none => 0)))

/-- The elements of a request's `SETTINGS`. -/
def settingsOf (bs : List Byte) : List (Nat × Nat) := (List.range (bs.length / 8)).map (fun i => (field bs (8 * i) 2, field bs (8 * i + 4) 4))

/-- The state with the settings that a request gives. -/
def State.withSettings (s : State) (es : List (Nat × Nat)) : State :=
  { s with thresholds := es.foldl (fun (m : Map Nat) (e : Nat × Nat) => minsert m e.1 e.2) s.thresholds }

theorem exec_thresholds (h : s.InHand path 0x0602 t u) : exec (.thresholds path) s = .next (
    if (settingsOf (u.bytesOf 1)).all settingOk = false then s.reply path 3 1 []
    else if settingsOf (u.bytesOf 1) = [] then
      (s.withSettings (settingsOf (u.bytesOf 1))).reply path 0 0 [(s.withSettings (settingsOf (u.bytesOf 1))).thresholdTable]
    else (s.withSettings (settingsOf (u.bytesOf 1))).replyStored path [(s.withSettings (settingsOf (u.bytesOf 1))).thresholdTable]) :=
  next_of_inHand h rfl

theorem thresholdTable_tells (s : State) : s.thresholdTable.length = 128 ∧ ∀ i dflt lo hi, 1 ≤ i → thresholdItem i = some (lo, hi, dflt) →
    field s.thresholdTable (8 * (i - 1) + 4) 4 = s.setting i dflt % 2 ^ 32 := by
  refine ⟨by simp [State.thresholdTable, zeros], fun i dflt lo hi hi1 hitem => ?_⟩
  have hi16 : i - 1 < 16 := by
    rw [thresholdItem, List.getElem?_eq_some_iff] at hitem
    exact hitem.1
  obtain ⟨rest, hrest⟩ := drop_flatMap_words (fun i =>
    toBytes 2 (i + 1) ++ zeros 2 ++ toBytes 4 (s.setting (i + 1) (match thresholdItem (i + 1) with | some x => x.2.2 | none => 0))) 8
    (fun i => by simp [zeros]) hi16
  refine field_of_drop (rest := rest) ?_
  rw [← List.drop_drop, State.thresholdTable, hrest, Nat.sub_add_cancel hi1, hitem]
  simp [toBytes, zeros]

theorem thresholds_told (h : s.InHand path 0x0602 t u) (hbs : u.bytesOf 1 = []) :
    exec (.thresholds path) s = .next (s.reply path 0 0 [s.thresholdTable]) := by
  have hexec := exec_thresholds h
  rw [hbs] at hexec
  exact hexec

theorem settingsOf_one {i x : Nat} (hi : i < 2 ^ 16) (hx : x < 2 ^ 32) : settingsOf (toBytes 2 i ++ zeros 2 ++ toBytes 4 x) = [(i, x)] := by
  have hlen : (toBytes 2 i ++ zeros 2 ++ toBytes 4 x).length = 8 := by simp [zeros]
  have hitem : field (toBytes 2 i ++ zeros 2 ++ toBytes 4 x) (8 * 0) 2 = i :=
    (field_of_drop (rest := zeros 2 ++ toBytes 4 x) (by simp)).trans (Nat.mod_eq_of_lt hi)
  have hvalue : field (toBytes 2 i ++ zeros 2 ++ toBytes 4 x) (8 * 0 + 4) 4 = x :=
    (field_of_drop (rest := []) (by simp [toBytes, zeros])).trans (Nat.mod_eq_of_lt hx)
  rw [settingsOf, hlen, show List.range (8 / 8) = [0] from rfl, List.map_singleton, hitem, hvalue]

section
variable {i x : Nat} (h : s.InHand path 0x0602 t u) (hi : i < 2 ^ 16) (hx : x < 2 ^ 32) (hbs : u.bytesOf 1 = toBytes 2 i ++ zeros 2 ++ toBytes 4 x)
include h hi hx hbs

theorem thresholds_sets (hok : settingOk (i, x) = true) : ∃ v : State, exec (.thresholds path) s = .next (v.replyStored path [v.thresholdTable]) ∧
    mfind v.thresholds i = some x ∧ ∀ j, j ≠ i → mfind v.thresholds j = mfind s.thresholds j := by
  rw [exec_thresholds h, hbs, settingsOf_one hi hx, if_neg (by simp [hok]), if_neg (by simp)]
  exact ⟨_, rfl, mfind_minsert_same _ _ _, fun j hj => mfind_minsert_other _ _ _ _ hj⟩

theorem thresholds_refused (hok : settingOk (i, x) = false) : exec (.thresholds path) s = .next (s.reply path 3 1 []) := by
  rw [exec_thresholds h, hbs, settingsOf_one hi hx, if_pos (by simp [hok])]

end

/-! ### SELF_TEST -/

/-- The test that a request asks for. -/
def State.asks (s : State) (path : Nat) (t : Taken) (u : Sub) : SelfTest := {
  kind := u.num 1, unit := u.num 2, deadline := s.now + 1000000 * u.num 3, force := bit (u.num 4) 1, path := some path
  lent := decide (t.role = 1) }

/-- A request waits for its test, which joins the tests that wait. -/
def State.queueTest (s : State) (path : Nat) (d : SelfTest) : State := { s.await path with selfTests := s.selfTests ++ [d] }

/-- The tests of the installer that an operator lends a unit to. -/
def State.lends (s : State) (kind unit : Nat) : State :=
  { s with selfTests := s.selfTests.map (fun d => if d.kind = kind ∧ d.unit = unit then { d with lent := true } else d) }

/-- A request that passes its checks begins its test. -/
def State.beginTest (s : State) (path : Nat) (t : Taken) (u : Sub) : State :=
  let test := s.asks path t u
  if test.force then
    match s.forceFree (u.num 1) (u.num 2) with
    | none => s.reply path 3 2 []
    | some s => s.queueTest path test
  else
    let s := if decide (t.role = 1) && bit (u.num 4) 0 then s.lends (u.num 1) (u.num 2) else s
    let s := if decide (t.role = 1) || s.testFree test then s else s.askLend (u.num 1) (u.num 2) (u.num 3)
    s.queueTest path test

theorem exec_selfTest (h : s.InHand path 0x0603 t u) : exec (.selfTest path) s = s.waits (.next (
    if u.num 1 = 0 ∨ 8 < u.num 1 then s.reply path 3 1 []
    else if unitOk (u.num 1) (u.num 2) = false then s.reply path 3 2 []
    else if decide (t.role = 1) && (decide (t.part = none) || decide (s.unitPart (u.num 1) (u.num 2) ≠ t.part)) then s.reply path 4 2 []
    else if decide (t.role = 1) && bit (u.num 4) 1 then s.reply path 4 4 []
    else s.checked path 3 [(decide (1 ≤ u.num 3) && decide (u.num 3 ≤ 60000), 3), (decide (u.num 4 < 4), 4)] (s.sample.1.beginTest path t u))) :=
  congrArg s.waits (next_of_inHand h rfl)

/-- The request of a test answers at once. -/
theorem selfTest_turns (hs : s.Sound) {status detail : Nat} (h : exec (.selfTest path) s = s.waits (.next (s.reply path status detail []))) :
    exec (.selfTest path) s = .next (s.reply path status detail []) := h.trans (waits_of_served (reply_served hs.served _ _ _))

theorem selfTest_unknown (hs : s.Sound) (h : s.InHand path 0x0603 t u) (hkind : u.num 1 = 0 ∨ 8 < u.num 1) :
    exec (.selfTest path) s = .next (s.reply path 3 1 []) :=
  selfTest_turns hs ((exec_selfTest h).trans (by rw [if_pos hkind]))

/-- The unit of a test is the requester's own. -/
def State.ownUnit (s : State) (t : Taken) (u : Sub) : Prop := t.part ≠ none ∧ s.unitPart (u.num 1) (u.num 2) = t.part

theorem not_foreign {own : State.ownUnit s t u} :
    ¬ (decide (t.role = 1) && (decide (t.part = none) || decide (s.unitPart (u.num 1) (u.num 2) ≠ t.part))) = true := by
  simp [own.1, own.2]

section
variable (hs : s.Sound) (h : s.InHand path 0x0603 t u) (hkind : ¬ (u.num 1 = 0 ∨ 8 < u.num 1)) (hunit : unitOk (u.num 1) (u.num 2) = true)
include hs h hkind hunit

theorem selfTest_foreign (hrole : t.role = 1) (hmine : ¬ s.ownUnit t u) : exec (.selfTest path) s = .next (s.reply path 4 2 []) := by
  refine selfTest_turns hs ((exec_selfTest h).trans ?_)
  have hforeign : (decide (t.role = 1) && (decide (t.part = none) || decide (s.unitPart (u.num 1) (u.num 2) ≠ t.part))) = true := by
    rw [State.ownUnit, not_and_or, not_not] at hmine
    simpa [hrole] using hmine
  rw [if_neg hkind, if_neg (by simp [hunit]), if_pos hforeign]

theorem selfTest_forcing (hrole : t.role = 1) (hmine : s.ownUnit t u) (hforce : bit (u.num 4) 1 = true) :
    exec (.selfTest path) s = .next (s.reply path 4 4 []) := by
  refine selfTest_turns hs ((exec_selfTest h).trans ?_)
  rw [if_neg hkind, if_neg (by simp [hunit]), if_neg (not_foreign (own := hmine)), if_pos (by simp [hrole, hforce])]

theorem selfTest_timing (hrole : t.role ≠ 1) (hms : u.num 3 = 0 ∨ 60000 < u.num 3) : exec (.selfTest path) s = .next (s.reply path 3 3 []) := by
  refine selfTest_turns hs ((exec_selfTest h).trans ?_)
  have hrange : (decide (1 ≤ u.num 3) && decide (u.num 3 ≤ 60000)) = false := by
    rw [Bool.and_eq_false_iff, decide_eq_false_iff_not, decide_eq_false_iff_not]
    omega
  rw [if_neg hkind, if_neg (by simp [hunit]), if_neg (by simp [hrole]), if_neg (by simp [hrole]), checked_of_broken]
  simp only [firstBroken, hrange]
  rfl

variable (hms : 1 ≤ u.num 3) (hms' : u.num 3 ≤ 60000) (hflags : u.num 4 < 4)
include hms hms' hflags

omit hs in
theorem exec_selfTest_begins (hrole : t.role ≠ 1 ∨ s.ownUnit t u ∧ bit (u.num 4) 1 = false) :
    exec (.selfTest path) s = s.waits (.next (s.sample.1.beginTest path t u)) := by
  have hforeign : ¬ (decide (t.role = 1) && (decide (t.part = none) || decide (s.unitPart (u.num 1) (u.num 2) ≠ t.part))) = true := by
    rcases hrole with hrole | ⟨hmine, -⟩
    · simp [hrole]
    · exact not_foreign (own := hmine)
  have hforcing : ¬ (decide (t.role = 1) && bit (u.num 4) 1) = true := by
    rcases hrole with hrole | ⟨-, hforce⟩
    · simp [hrole]
    · simp [hforce]
  rw [exec_selfTest h, if_neg hkind, if_neg (by simp [hunit]), if_neg hforeign, if_neg hforcing,
    checked_of_kept (by simp [firstBroken, hms, hms', hflags])]

end

/-- A request waits for its test. -/
def State.Begun (s x : State) (path : Nat) (t : Taken) (u : Sub) (rest : List SelfTest) (force lent : Bool) : Prop :=
  mfind x.taken path = some { t with cur := some { u with stage := .waiting } } ∧ ∃ d : SelfTest, x.selfTests = rest ++ [d] ∧
    d.kind = u.num 1 ∧ d.unit = u.num 2 ∧ d.force = force ∧ d.lent = lent ∧ d.path = some path ∧ s.now + 1000000 * u.num 3 ≤ d.deadline

theorem await_waits {code : Nat} (h : s.InHand path code t u) (htaken : v.taken = s.taken) :
    mfind (v.await path).taken path = some { t with cur := some { u with stage := .waiting } } := by
  obtain ⟨hmem, hcur, -⟩ := h
  have hmem' : mfind v.taken path = some t := (congrArg (fun m => mfind m path) htaken).trans hmem
  rw [State.await]
  simp only [hmem', hcur]
  exact mfind_minsert_same _ _ _

theorem await_served (h : s.stalled = false) (path : Nat) : (s.await path).stalled = false :=
  (congrArg State.stalled (await_off s path) :).trans h

/-- What a state needs for a test to begin in it. -/
theorem queueTest_begun (h : s.InHand path 0x0603 t u) (htaken : v.taken = s.taken) {force lent : Bool} (hforce : bit (u.num 4) 1 = force)
    (hlent : decide (t.role = 1) = lent) : s.Begun (v.queueTest path (s.sample.1.asks path t u)) path t u v.selfTests force lent :=
  ⟨await_waits h htaken, _, rfl, rfl, rfl, hforce, hlent, rfl, Nat.add_le_add_right (Nat.le_add_right _ _) _⟩

/-- A message to a function leaves what Mitor has taken, the tests that wait, and no access waiting. -/
theorem notifyFn_keeps (h : rising s.funcs) (fn kind : Nat) (body : List Byte) :
    (s.notifyFn fn kind body).taken = s.taken ∧ (s.notifyFn fn kind body).selfTests = s.selfTests ∧ (s.notifyFn fn kind body).stalled = s.stalled := by
  have htells : s.Tells (s.notifyFn fn kind body) := by
    have hsample : s.Tells s.sample.1 := (State.Tells.refl h).sample
    simp only [State.notifyFn]
    split
    · exact hsample.setEvlog _ _
    · exact (hsample.setEvlog _ _).raise _ _
  exact ⟨(congrArg State.taken htells.off :), (congrArg State.selfTests htells.off :), (congrArg State.stalled htells.off :)⟩

theorem askLend_keeps (h : rising s.funcs) (kind unit ms : Nat) :
    (s.askLend kind unit ms).taken = s.taken ∧ (s.askLend kind unit ms).selfTests = s.selfTests ∧ (s.askLend kind unit ms).stalled = s.stalled := by
  unfold State.askLend
  split
  · exact notifyFn_keeps h _ _ _
  · exact ⟨rfl, rfl, rfl⟩

theorem forceFree_core {c : Nat} (hbusy : ¬ s.testFree ⟨2, c, 0, false, none, false⟩ = true)
    (hnone : ¬ s.drains.any (fun d => decide (d.obj = .core c)) = true) :
    s.forceFree 2 c = some (s.startDrain { obj := .core c, deadline := s.inUs 10000, after := .selfTest }) :=
  (if_neg hbusy).trans (if_neg hnone)

section
variable (hs : s.Sound) (h : s.InHand path 0x0603 t u) (hkind : ¬ (u.num 1 = 0 ∨ 8 < u.num 1)) (hunit : unitOk (u.num 1) (u.num 2) = true)
  (hms : 1 ≤ u.num 3) (hms' : u.num 3 ≤ 60000) (hflags : u.num 4 < 4)
include hs h hkind hunit hms hms' hflags

/-- The installer's test of a unit, which its operator is asked to lend where it is not free. -/
theorem selfTest_waits (hrole : t.role ≠ 1) (hforce : bit (u.num 4) 1 = false) :
    ∃ x, exec (.selfTest path) s = .next x ∧ s.Begun x path t u s.selfTests false false := by
  have hexec := exec_selfTest_begins h hkind hunit hms hms' hflags (.inl hrole)
  have hbegin : s.sample.1.beginTest path t u = State.queueTest (if s.sample.1.testFree (s.sample.1.asks path t u) then s.sample.1
      else s.sample.1.askLend (u.num 1) (u.num 2) (u.num 3)) path (s.sample.1.asks path t u) := by
    have hnot : ¬ (s.sample.1.asks path t u).force = true := by simp [State.asks, hforce]
    simp only [State.beginTest]
    rw [if_neg hnot]
    simp only [hrole, decide_false, Bool.false_and, Bool.false_or, Bool.false_eq_true, if_false]
  have hkeeps := askLend_keeps (s := s.sample.1) hs.tables.funcs (u.num 1) (u.num 2) (u.num 3)
  rw [hexec, hbegin]
  split
  · exact ⟨_, waits_of_served (await_served (s := s.sample.1) hs.served path), queueTest_begun (v := s.sample.1) h rfl hforce (by simp [hrole])⟩
  · obtain ⟨htaken, htests, hserved⟩ := hkeeps
    generalize State.askLend _ _ _ _ = v at htaken htests hserved ⊢
    refine ⟨_, waits_of_served (await_served (hserved.trans hs.served) path), ?_⟩
    have hbegun := queueTest_begun h (v := v) htaken hforce (decide_eq_false hrole)
    rwa [htests] at hbegun

/-- An operator's test of a unit of its own, which lends the unit to the tests that wait for it. -/
theorem selfTest_lends (hrole : t.role = 1) (hmine : s.ownUnit t u) (hforce : bit (u.num 4) 1 = false) :
    ∃ x, exec (.selfTest path) s = .next x ∧ s.Begun x path t u (if bit (u.num 4) 0 then
      s.selfTests.map (fun d => if d.kind = u.num 1 ∧ d.unit = u.num 2 then { d with lent := true } else d) else s.selfTests) false true := by
  have hexec := exec_selfTest_begins h hkind hunit hms hms' hflags (.inr ⟨hmine, hforce⟩)
  have hbegin : s.sample.1.beginTest path t u = State.queueTest (if bit (u.num 4) 0 then s.sample.1.lends (u.num 1) (u.num 2) else s.sample.1) path
      (s.sample.1.asks path t u) := by
    have hnot : ¬ (s.sample.1.asks path t u).force = true := by simp [State.asks, hforce]
    simp only [State.beginTest]
    rw [if_neg hnot]
    simp only [hrole, decide_true, Bool.true_and, Bool.true_or, if_true]
  rw [hexec, hbegin]
  split
  · exact ⟨_, waits_of_served (await_served (s := s.sample.1.lends _ _) hs.served path),
      queueTest_begun (v := s.sample.1.lends (u.num 1) (u.num 2)) h rfl hforce (by simp [hrole])⟩
  · exact ⟨_, waits_of_served (await_served (s := s.sample.1) hs.served path), queueTest_begun (v := s.sample.1) h rfl hforce (by simp [hrole])⟩

section
variable (hrole : t.role ≠ 1) (hforce : bit (u.num 4) 1 = true)
include hrole hforce

omit hs in
/-- The installer's test of a unit that a forced test makes free. -/
theorem exec_selfTest_forced (hfree : s.sample.1.forceFree (u.num 1) (u.num 2) = some v) :
    exec (.selfTest path) s = s.waits (.next (v.queueTest path (s.sample.1.asks path t u))) := by
  rw [exec_selfTest_begins h hkind hunit hms hms' hflags (.inl hrole), State.beginTest]
  dsimp only
  rw [if_pos (show (s.sample.1.asks path t u).force = true from hforce), hfree]

theorem selfTest_forces_idle (h18 : u.num 1 = 1 ∨ u.num 1 = 8) :
    ∃ x, exec (.selfTest path) s = .next x ∧ s.Begun x path t u s.selfTests true false := by
  have hfree : s.sample.1.forceFree (u.num 1) (u.num 2) = some s.sample.1 := by
    rcases h18 with h18 | h18 <;> rw [h18] <;> rfl
  rw [exec_selfTest_forced h hkind hunit hms hms' hflags hrole hforce hfree]
  exact ⟨_, waits_of_served (await_served (s := s.sample.1) hs.served path), queueTest_begun (v := s.sample.1) h rfl hforce (by simp [hrole])⟩

theorem selfTest_forces_core (h2 : u.num 1 = 2) (hbusy : s.testFree ⟨2, u.num 2, 0, false, none, false⟩ = false)
    (hidle : ∀ d ∈ s.drains, d.obj ≠ .core (u.num 2)) :
    ∃ (x : State) (d : Drain), exec (.selfTest path) s = .next x ∧ s.Begun x path t u s.selfTests true false ∧
      x.drains = s.drains ++ [d] ∧ d.obj = .core (u.num 2) ∧ d.after = .selfTest ∧ u.num 2 ∈ x.coresOut := by
  have hnone : ¬ s.drains.any (fun d => decide (d.obj = .core (u.num 2))) = true := by
    rw [List.any_eq_true]
    rintro ⟨d, hd, hobj⟩
    exact hidle d hd (of_decide_eq_true hobj)
  have hsampled : ¬ s.sample.1.testFree ⟨2, u.num 2, 0, false, none, false⟩ = true := Bool.eq_false_iff.1 hbusy
  have hfree : s.sample.1.forceFree (u.num 1) (u.num 2) = some (s.sample.1.startDrain
      { obj := .core (u.num 2), deadline := s.sample.1.inUs 10000, after := .selfTest }) := by
    rw [h2]
    exact forceFree_core hsampled hnone
  rw [exec_selfTest_forced h hkind hunit hms hms' hflags hrole hforce hfree, startDrain_core rfl]
  generalize hd : ({ obj := .core (u.num 2), deadline := s.sample.1.inUs 10000, after := .selfTest } : Drain) = d
  have hobj : d.obj = .core (u.num 2) := by rw [← hd]
  have hafter : d.after = .selfTest := by rw [← hd]
  have hcut : d.cut = false := by rw [← hd]
  have hw : ((s.sample.1.beginCore d.cut (u.num 2)).withDrain d).taken = s.taken ∧
      ((s.sample.1.beginCore d.cut (u.num 2)).withDrain d).selfTests = s.selfTests ∧
      ((s.sample.1.beginCore d.cut (u.num 2)).withDrain d).stalled = s.stalled ∧
      ((s.sample.1.beginCore d.cut (u.num 2)).withDrain d).drains = s.drains ++ [d] ∧
      u.num 2 ∈ ((s.sample.1.beginCore d.cut (u.num 2)).withDrain d).coresOut := by
    rw [hcut]
    exact ⟨rfl, rfl, rfl, rfl, mem_sinsert_self _ _⟩
  obtain ⟨htaken, htests, hserved, hdrains, hout⟩ := hw
  generalize State.withDrain _ _ = w at htaken htests hserved hdrains hout ⊢
  have hoff := await_off w path
  refine ⟨_, d, waits_of_served (await_served (hserved.trans hs.served) path), ?_, (congrArg State.drains hoff :).trans hdrains, hobj, hafter, ?_⟩
  · have hbegun := queueTest_begun h (v := w) htaken hforce (decide_eq_false hrole)
    rwa [htests] at hbegun
  · exact (congrArg State.coresOut hoff :) ▸ hout

theorem selfTest_forces_gallery {q : Nat} (h3 : u.num 1 = 3) (hpart : s.partOfGallery (u.num 2) = some q)
    (hlast : (s.part q).galleries = 2 ^ u.num 2) :
    ∃ x : State, exec (.selfTest path) s = .next (x.reply path 3 2 []) ∧ x.parts = s.parts ∧ x.selfTests = s.selfTests := by
  have hfree : s.sample.1.forceFree (u.num 1) (u.num 2) = none := by
    have hpart' : s.sample.1.partOfGallery (u.num 2) = some q := hpart
    have hlast' : (s.sample.1.part q).galleries = 2 ^ u.num 2 := hlast
    rw [h3]
    simp only [State.forceFree, hpart']
    rw [if_pos (.inl (by rw [hlast', Nat.sub_self]))]
  have hbegin : s.sample.1.beginTest path t u = s.sample.1.reply path 3 2 [] := by
    rw [State.beginTest]
    dsimp only
    rw [if_pos (show (s.sample.1.asks path t u).force = true from hforce), hfree]
  rw [exec_selfTest_begins h hkind hunit hms hms' hflags (.inl hrole), hbegin]
  exact ⟨s.sample.1, waits_of_served (reply_served (s := s.sample.1) hs.served _ _ _), rfl, rfl⟩

end

end

/-! ### PREPARE_REMOVAL -/

/-- The drain of a partition before the module's removal. -/
def removalDrain (path q deadline : Nat) : Drain := { obj := .part q, deadline, after := .removal, path := some path }

/-- The drains of partitions before the module's removal. -/
def State.beginRemoval (s : State) (path us : Nat) (qs : List Nat) : State :=
  qs.foldl (fun s q => s.startDrain (removalDrain path q (s.inUs us))) s

theorem exec_prepareRemoval (h : s.InHand path 0x0604 t u) (h1 : 1 ≤ (u.num? 1).getD 10000) (h2 : (u.num? 1).getD 10000 ≤ 10000000) :
    exec (.prepareRemoval path) s = s.waits (.next (
      if s.liveParts.any s.partBusy || s.drains.any (fun d => decide (d.after = .removal)) then s.reply path 2 0 []
      else (s.toBegin path).beginRemoval path ((u.num? 1).getD 10000) (if (s.toBegin path).liveParts = [] then [0] else (s.toBegin path).liveParts))) := by
  refine congrArg s.waits (next_of_inHand h ((checked_of_kept ?_).trans ?_))
  · simp [firstBroken, drainTimeoutOk, h1, h2]
  · rfl

theorem prepareRemoval_busy (hs : s.Sound) (h : s.InHand path 0x0604 t u) (h1 : 1 ≤ (u.num? 1).getD 10000) (h2 : (u.num? 1).getD 10000 ≤ 10000000)
    (hbusy : ∃ q ∈ s.liveParts, s.partBusy q = true) : exec (.prepareRemoval path) s = .next (s.reply path 2 0 []) := by
  rw [exec_prepareRemoval h h1 h2, if_pos (by simp [List.any_eq_true.2 hbusy])]
  exact waits_of_served (reply_served hs.served _ _ _)

/-- What the drains of partitions leave as it is: the associations, the partitions of contexts and where their records go; contexts have only
entered DRAINING. -/
structure State.Empties (s v : State) : Prop where
  sound : v.Sound
  now : s.now ≤ v.now
  assocs : v.assocs = s.assocs
  place : ∀ n, (v.ctx n).part = (s.ctx n).part ∧ (v.ctx n).creditSpace = (s.ctx n).creditSpace
  state : ∀ n, (v.ctx n).state = (s.ctx n).state ∨ (v.ctx n).state = .draining ∧ (s.ctx n).state ≠ .free

theorem State.Empties.ctxsOf (h : s.Empties v) (hs : rising s.ctxs) {n q : Nat} : n ∈ v.ctxsOf q ↔ n ∈ s.ctxsOf q := by
  have hfree : (v.ctx n).state ≠ .free ↔ (s.ctx n).state ≠ .free := by
    rcases h.state n with hstate | ⟨hstate, hne⟩
    · rw [hstate]
    · rw [hstate]
      exact ⟨fun _ => hne, fun _ => by decide⟩
  rw [mem_ctxsOf h.sound.tables.ctxs, mem_ctxsOf hs, hfree, (h.place n).1]

theorem drainCtxs_fabric (ns : List Nat) (s : State) : (ns.foldl (fun s n => s.drainCtx n) s).fabric = s.fabric :=
  foldl_fixes State.fabric (fun s n => drainCtx_fabric s n) ns s

/-- One more partition drains. -/
theorem State.Empties.drain (h : s.Empties v) (hs : s.Sound) (hcredit : ∀ n, (s.ctx n).state ≠ .free → (s.ctx n).creditSpace ≠ 0) {d : Drain} {q : Nat}
    (hobj : d.obj = .part q) (hcut : d.cut = false) :
    s.Empties (v.startDrain d) ∧ (v.startDrain d).drains = v.drains ++ [d] ∧ (∀ n ∈ s.ctxsOf q, ((v.startDrain d).ctx n).state = .draining) ∧
      ∀ n, (v.ctx n).state = .draining → ((v.startDrain d).ctx n).state = .draining := by
  have hspace : ∀ n ∈ v.ctxsOf q, (v.ctx n).creditSpace ≠ 0 := fun n hn => by
    rw [(h.place n).2]
    exact hcredit n ((mem_ctxsOf hs.tables.ctxs).1 ((h.ctxsOf hs.tables.ctxs).1 hn)).1
  have hstart : v.startDrain d = ((v.ctxsOf q).foldl (fun s n => s.drainCtx n) v).withDrain d := by
    rw [startDrain_part hobj, hcut]
    rfl
  obtain ⟨hsound, hstands⟩ := drainCtxs_drain h.sound hspace
  have hnow : v.now ≤ ((v.ctxsOf q).foldl (fun s n => s.drainCtx n) v).now :=
    ((State.Onward.refl (deep := 3) false v).foldl fun _ _ hu => .drainCtx (deep := 0) hu).now
  have hfabric := drainCtxs_fabric (v.ctxsOf q) v
  rw [hstart]
  generalize (v.ctxsOf q).foldl (fun s n => s.drainCtx n) v = w at hsound hstands hnow hfabric ⊢
  have hassocs : w.assocs = v.assocs := (congrArg Prod.fst hfabric :)
  have hdrains : w.drains = v.drains := (congrArg (fun p => p.2.1) hfabric :)
  have hspaces (n : Nat) := spaces_of_standing (hstands n)
  refine ⟨⟨hsound, h.now.trans hnow, hassocs.trans h.assocs, fun n => ?_, fun n => ?_⟩, congrArg (· ++ [d]) hdrains, fun n hn => ?_, fun n hn => ?_⟩
  · obtain ⟨hc, -, hp, -, -⟩ := hspaces n
    exact ⟨hp.trans (h.place n).1, hc.trans (h.place n).2⟩
  · obtain ⟨-, -, -, hin, hout⟩ := hspaces n
    by_cases hn : n ∈ v.ctxsOf q
    · exact .inr ⟨hin hn, ((mem_ctxsOf hs.tables.ctxs).1 ((h.ctxsOf hs.tables.ctxs).1 hn)).1⟩
    · exact (h.state n).imp (fun hstate => (hout hn).trans hstate) (fun ⟨hstate, hne⟩ => ⟨(hout hn).trans hstate, hne⟩)
  · exact (hspaces n).2.2.2.1 ((h.ctxsOf hs.tables.ctxs).2 hn)
  · by_cases hin : n ∈ v.ctxsOf q
    · exact (hspaces n).2.2.2.1 hin
    · exact ((hspaces n).2.2.2.2 hin).trans hn

/-- A partition drains before the module's removal. -/
def State.Removing (s x : State) (path us q : Nat) : Prop :=
  (∃ d ∈ x.drains, d.obj = .part q ∧ d.after = .removal ∧ d.path = some path ∧ s.now + 1000 * us ≤ d.deadline) ∧
    ∀ n ∈ s.ctxsOf q, (x.ctx n).state = .draining

theorem beginRemoval_removes (hs : s.Sound) (hcredit : ∀ n, (s.ctx n).state ≠ .free → (s.ctx n).creditSpace ≠ 0) (path us : Nat) (qs : List Nat)
    (h : s.Empties v) : s.Empties (v.beginRemoval path us qs) ∧ (∀ q, s.Removing v path us q → s.Removing (v.beginRemoval path us qs) path us q) ∧
      ∀ q ∈ qs, s.Removing (v.beginRemoval path us qs) path us q := by
  induction qs generalizing v with
  | nil => exact ⟨h, fun _ hq => hq, fun q hq => absurd hq List.not_mem_nil⟩
  | cons p qs ih =>
    obtain ⟨hempties, hdrains, hnew, hold⟩ := h.drain hs hcredit (d := removalDrain path p (v.inUs us)) (q := p) rfl rfl
    have hstep : (v.beginRemoval path us (p :: qs)) = (v.startDrain (removalDrain path p (v.inUs us))).beginRemoval path us qs := rfl
    have hkeeps : ∀ q, s.Removing v path us q → s.Removing (v.startDrain (removalDrain path p (v.inUs us))) path us q := by
      rintro q ⟨⟨d, hd, hprops⟩, hctxs⟩
      exact ⟨⟨d, hdrains ▸ List.mem_append_left _ hd, hprops⟩, fun n hn => hold n (hctxs n hn)⟩
    have hfirst : s.Removing (v.startDrain (removalDrain path p (v.inUs us))) path us p :=
      ⟨⟨_, hdrains ▸ List.mem_append_right _ (List.mem_singleton_self _), rfl, rfl, rfl, Nat.add_le_add_right h.now _⟩, hnew⟩
    rw [hstep]
    generalize v.startDrain (removalDrain path p (v.inUs us)) = w at hempties hkeeps hfirst ⊢
    obtain ⟨hend, hkept, hall⟩ := ih hempties
    refine ⟨hend, fun q hq => hkept q (hkeeps q hq), fun q hq => ?_⟩
    rcases List.mem_cons.1 hq with rfl | hq
    · exact hkept q hfirst
    · exact hall q hq

theorem prepareRemoval_begins (hs : s.Sound) (h : s.InHand path 0x0604 t u) (h1 : 1 ≤ (u.num? 1).getD 10000) (h2 : (u.num? 1).getD 10000 ≤ 10000000)
    (hnone : ∀ d ∈ s.drains, d.after ≠ .removal) (hidle : ∀ q ∈ s.liveParts, s.partBusy q = false)
    (hcredit : ∀ n, (s.ctx n).state ≠ .free → (s.ctx n).creditSpace ≠ 0) :
    ∃ x, exec (.prepareRemoval path) s = .next x ∧ x.assocs = s.assocs ∧ ∀ q ∈ s.liveParts, s.Removing x path ((u.num? 1).getD 10000) q := by
  have hnot : ¬ (s.liveParts.any s.partBusy || s.drains.any (fun d => decide (d.after = .removal))) = true := by
    rw [Bool.or_eq_true, List.any_eq_true, List.any_eq_true]
    rintro (⟨q, hq, hbusy⟩ | ⟨d, hd, hafter⟩)
    · exact Bool.false_ne_true ((hidle q hq).symm.trans hbusy)
    · exact hnone d hd (of_decide_eq_true hafter)
  obtain ⟨hsound, hctxs⟩ := toBegin_keeps hs path
  have hctx (n : Nat) : (s.toBegin path).ctx n = s.ctx n := congrArg (fun m => mget ({} : Ctx) m n) hctxs
  have hempties : s.Empties (s.toBegin path) :=
    ⟨hsound, toBegin_now s path, (congrArg State.assocs (toBegin_off s path) :), fun n => by rw [hctx]; exact ⟨rfl, rfl⟩, fun n => .inl (by rw [hctx])⟩
  obtain ⟨hend, -, hall⟩ := beginRemoval_removes hs hcredit path ((u.num? 1).getD 10000) (if s.liveParts = [] then [0] else s.liveParts) hempties
  have hlive : (s.toBegin path).liveParts = s.liveParts := by
    have hparts : (s.toBegin path).parts = s.parts := (congrArg State.parts (toBegin_off s path) :)
    simp only [State.liveParts, State.part, hparts]
  rw [exec_prepareRemoval h h1 h2, if_neg hnot, hlive]
  refine ⟨_, waits_of_served hend.sound.served, hend.assocs, fun q hq => hall q ?_⟩
  rw [if_neg (List.ne_nil_of_mem hq)]
  exact hq

/-! ### The obligation -/

/-- Settles O41: a port's mode and a removal begin drains that leave the rest as it is; addresses, associations, settings and thresholds are those
that the request gives; a self-test joins those that wait, its unit made free or lent as the request says. -/
theorem installerCommands : Obligations.InstallerCommands := by
  unfold Obligations.InstallerCommands
  intro s path t u hs gives stores turns waits
  refine ⟨?_, ?_, ?_, ?_, ?_, ?_, ?_, ?_⟩
  · intro h
    obtain ⟨hkept, hclass, hunits⟩ := portMode_settles hs h _ _ _ rfl rfl rfl
    refine ⟨fun hp hcls h3 hmtu h5 => ⟨fun hidle => portMode_begins hs h (hkept hp hcls h3 hmtu h5) hidle,
      fun hbusy => portMode_busy hs h (hkept hp hcls h3 hmtu h5) hbusy⟩, hclass, hunits⟩
  · intro h k ip4
    exact ⟨fun hk hdscp h6 h4 => fabAddr_sets hs h rfl hk hdscp h6 h4, fun hk => fabAddr_refused h hk⟩
  · intro h
    dsimp only
    intro ha hq hlive h3 h5
    exact ⟨fun hfree => assocSet_sets hs h ha hq hlive h3 h5 hfree,
      fun hold hidle hfailed => assocSet_inUse h ha hq hlive h3 h5 hold hidle hfailed⟩
  · intro h a
    exact ⟨fun ha hlive hserved => assocRemove_removes hs h ha hlive hserved, fun hnone => assocRemove_refused hs h hnone⟩
  · intro h cap links mem
    exact ⟨fun hcap h1 h2 h3 h4 h5 h6 => powerCap_sets h hcap h1 h2 h3 h4 h5 h6, fun hcap => powerCap_refused h hcap⟩
  · intro h bs now
    refine ⟨fun hbs => ⟨_, thresholds_told h hbs, thresholdTable_tells s⟩, fun i v hi hv hbs => ⟨fun hok => ?_, fun hok => ?_⟩⟩
    · obtain ⟨x, hexec, hset, hother⟩ := thresholds_sets h hi hv hbs hok
      exact ⟨x, _, hexec, thresholdTable_tells x, hset, hother⟩
    · exact thresholds_refused h hi hv hbs hok
  · intro h
    dsimp only
    refine ⟨fun hkind => selfTest_unknown hs h hkind, fun h1 h8 hunit => ?_⟩
    have hkind : ¬ (u.num 1 = 0 ∨ 8 < u.num 1) := by omega
    refine ⟨fun hrole hmine => selfTest_foreign hs h hkind hunit hrole hmine,
      fun hrole hmine hforce => selfTest_forcing hs h hkind hunit hrole hmine hforce,
      fun hrole hms => selfTest_timing hs h hkind hunit hrole hms, fun hms hms' hflags => ⟨?_, ?_, ?_, ?_, ?_⟩⟩
    · exact fun hrole hforce => selfTest_waits hs h hkind hunit hms hms' hflags hrole hforce
    · exact fun hrole hmine hforce => selfTest_lends hs h hkind hunit hms hms' hflags hrole hmine hforce
    · exact fun hrole hforce h18 => selfTest_forces_idle hs h hkind hunit hms hms' hflags hrole hforce h18
    · exact fun hrole hforce h2 hbusy hidle => selfTest_forces_core hs h hkind hunit hms hms' hflags hrole hforce h2 hbusy hidle
    · exact fun q hrole hforce h3 hpart hlast => selfTest_forces_gallery hs h hkind hunit hms hms' hflags hrole hforce h3 hpart hlast
  · intro h us h1 h2 hnone
    exact ⟨fun hidle hcredit => prepareRemoval_begins hs h h1 h2 hnone hidle hcredit, fun hbusy => prepareRemoval_busy hs h h1 h2 hbusy⟩

end Sys2Proof.Machine
end

section
/-! Self-tests of the ways of a slice: the obligation `BackgroundEvents` meets the partition numbers that no module has. -/

namespace Sys2Proof.Machine

open Sys2Proof

variable {s v : State}

/-! ### A state that waits goes on waiting -/

theorem debit_stalled (s : State) (r q bytes : Nat) : (s.debit r q bytes).stalled = s.stalled := rfl

theorem charge_waits (h : s.stalled = true) (r q bytes : Nat) : (s.charge r q bytes).stalled = true := by
  unfold State.charge
  extract_lets v b rate
  have hv : v.stalled = true := h
  clear_value v
  split
  · exact hv
  split
  · exact hv
  generalize hpick : (if b.borrow = true then v.pick 2 else (v, 1)) = w
  have hw : w.1.stalled = true := by
    rw [← hpick]
    split <;> exact hv
  dsimp only
  split
  · exact hw
  split
  · rfl
  · exact hw

theorem chargeRoute_waits (route : List (Nat × Nat)) (h : s.stalled = true) (q : Nat) : (s.chargeRoute q route).stalled = true := by
  induction route generalizing s with
  | nil => exact h
  | cons e route ih =>
    obtain ⟨a, b⟩ := e
    unfold State.chargeRoute
    split
    · exact ih (charge_waits h _ _ _)
    · exact ih h

theorem chargeHop_waits (h : s.stalled = true) (q src dst : Nat) : (s.chargeHop q src dst).stalled = true := by
  unfold State.chargeHop
  extract_lets v
  have hv : v.stalled = true := h
  clear_value v
  split
  · exact hv
  split
  · exact charge_waits hv _ _ _
  split
  · exact charge_waits hv _ _ _
  · exact chargeRoute_waits _ hv _

theorem countGal_stalled (s : State) (g ev n : Nat) : (s.countGal g ev n).stalled = s.stalled := by
  unfold State.countGal
  split <;> rfl

theorem chargeHbm_waits {payer g cell : Nat} {write : Bool} (h : (s.chargeStack payer cell write).stalled = true) :
    (s.chargeHbm payer g cell write).stalled = true := by
  unfold State.chargeHbm
  dsimp only
  split <;> exact chargeHop_waits ((countGal_stalled _ _ _ _).trans h) _ _ _

theorem rasRepaired_stalled (h : rising s.funcs) (e : RasEvent) : (s.rasRepaired e).stalled = s.stalled := by
  have htells : s.Tells (s.rasRepaired e) := by
    unfold State.rasRepaired
    generalize s.reachOf e.part = fns
    suffices hall : ∀ v : State, s.Tells v → s.Tells (fns.foldl (fun s fn => s.logEvent fn 1 (rasBody e (s.rasSeen e.source e.unit) fn)) v) from
      hall s (.refl h)
    induction fns with
    | nil => exact fun _ hv => hv
    | cons fn fns ih => exact fun v hv => ih _ (hv.logEvent _ _ _)
  exact (congrArg State.stalled htells.off :)

/-! ### A bucket without a rate -/

/-- A refill at the moment of the last one adds nothing. -/
theorem refill_now (h : s.bucketTime = s.now) : s.refill = { s with
    buckets := mmapVals s.buckets (fun _ b => { b with level := min b.level ((b.burst * 10485760 : Nat) : Int) }) } := by
  unfold State.refill
  rw [h, Nat.sub_self]
  simp only [Nat.mul_zero, Nat.cast_zero, add_zero]

/-- The bucket of partition 16 at stack 32 is empty, and its resource has no rate. -/
theorem charge_far (hbuckets : s.buckets = [(528, { rate := 1, burst := 1 })]) (htime : s.bucketTime = s.now) (hports : s.ports = [(1, { cls := 1 })])
    (bytes : Nat) : (s.charge 32 16 bytes).stalled = true := by
  have hrate : s.resourceRate 32 = 0 := by
    simp only [State.resourceRate, hports]
    rfl
  have hbucket : s.refill.bucket (16 * 32 + 16) = { rate := 1, burst := 1 } := by
    rw [refill_now htime, hbuckets]
    rfl
  have hrefill : s.refill.resourceRate 32 = 0 := hrate
  unfold State.charge
  extract_lets v b rate
  have hb : b = { rate := 1, burst := 1 } := hbucket
  have hzero : rate = 0 := by
    dsimp only [rate]
    rw [hrefill, Nat.mul_zero]
  clear_value rate b
  subst hb hzero
  rfl

/-! ### The test that waits -/

/-- A slice whose locked way 0 is empty, and whose way 1, into which a failed way 0 moves, holds the line of partition 16, modified. -/
def farSlot : Slice := { enabled := true, locked := 1, lines := [(1, { line := 16 * 2 ^ 45, dirty := true })] }

/-- The module with that slice, and a test of its way 0 that waits; the regulators have been refilled when the test runs. -/
def farTest : State :=
  { farHome [] [] [(0, farSlot)] with bucketTime := Config.elapsed 0, selfTests := [{ kind := 7, unit := 0, deadline := 0, force := false }] }

theorem farTest_sound : farTest.Sound := farHome_sound (homes := []) (hostLines := []) rising_nil rising_nil (rising_singleton _ _)

theorem farTest_flows : farTest.Flows := farHome_flows [] [] [(0, farSlot)]

/-- The module while the test runs. -/
def farTesting : State := { farTest.sample.1 with selfTests := [] }

theorem farTesting_now : farTesting.bucketTime = farTesting.now := (Nat.zero_add _).symm

theorem chargeStack_far (hbuckets : s.buckets = farTesting.buckets) (htime : s.bucketTime = s.now) (hports : s.ports = farTesting.ports)
    (hstacks : s.hbmStacks = []) : (s.chargeStack 16 (2048 * 9437184 * 128) true).stalled = true := by
  have hk : stackOf (2048 * 9437184 * 128) = 32 := by decide +kernel
  have hstack : s.stack 32 = {} := congrArg (fun m => mget ({} : Stack) m 32) hstacks
  have hwake : (s.wakeStack 32 [32 / 2]).buckets = s.buckets ∧ (s.wakeStack 32 [32 / 2]).bucketTime = s.bucketTime ∧
      (s.wakeStack 32 [32 / 2]).now = s.now ∧ (s.wakeStack 32 [32 / 2]).ports = s.ports := by
    unfold State.wakeStack
    rw [hstack]
    exact ⟨rfl, rfl, rfl, rfl⟩
  unfold State.chargeStack
  dsimp only
  rw [hk, hstack, if_neg (by decide)]
  obtain ⟨hb, ht, hn, hp⟩ := hwake
  exact charge_far (hb.trans hbuckets) (ht.trans (htime.trans hn.symm)) (hp.trans hports) 128

theorem gcOut_far : (farTesting.gcOut 0 true { line := 16 * 2 ^ 45, dirty := true }).stalled = true := by
  have hcell : farTesting.cellOf (16 * 2 ^ 45 / 2 ^ 45) (16 * 2 ^ 45 % 2 ^ 45 * 128) = some (2048 * 9437184 * 128) :=
    (rfl : _ = farTest.cellOf (16 * 2 ^ 45 / 2 ^ 45) (16 * 2 ^ 45 % 2 ^ 45 * 128)).trans (by decide +kernel)
  unfold State.gcOut
  rw [hcell]
  have hcount : farTesting.countGal 0 4 1 = farTesting := rfl
  dsimp only
  rw [if_pos rfl, if_pos rfl, hcount]
  exact chargeHbm_waits (chargeStack_far rfl farTesting_now rfl rfl)

theorem disableWay_far : (farTesting.disableWay 0 0).stalled = true := by
  have hslice : farTesting.slice 0 = farSlot := rfl
  have hfree : farSlot.freeWay 0 = some 1 := by decide +kernel
  have hlines : farSlot.lines.filter (fun e => decide (e.1 % 16 = 1)) = farSlot.lines := by decide +kernel
  have hdrop : (farTesting.dropWay 0 1).stalled = true := by
    unfold State.dropWay
    rw [hslice, hlines]
    exact gcOut_far
  unfold State.disableWay
  dsimp only
  rw [hslice, if_pos (by decide), hfree]
  exact hdrop

theorem farTesting_sound : farTesting.Sound := farTest_sound

theorem persist_keeps (s : State) : s.persist.funcs = s.funcs ∧ s.persist.stalled = s.stalled := by
  unfold State.persist State.startWrite State.setBank
  split
  · exact ⟨rfl, rfl⟩
  · split <;> exact ⟨rfl, rfl⟩

/-- What the failure of a way's test brings. -/
theorem testFailed_repairs (hdisabled : ¬ bit (v.slice 0).disabledWays 0 = true) (hauto : ¬ v.setting 14 1 = 0) : ∃ f e,
    v.testFailed { kind := 7, unit := 0, deadline := 0, force := false } = (((v.disableWay 0 0).raiseGallery 0).modRepair f).persist.rasRepaired e := by
  simp only [State.testFailed, Nat.zero_div, Nat.zero_mod]
  rw [if_neg hdisabled, if_neg hauto]
  exact ⟨_, _, rfl⟩

/-- The repair of the way waits, since the line that leaves way 1 waits at its stack. -/
theorem testFailed_far : (farTesting.testFailed { kind := 7, unit := 0, deadline := 0, force := false }).stalled = true := by
  have hdisabled : ¬ bit (farTesting.slice 0).disabledWays 0 = true := by decide
  have hauto : ¬ farTesting.setting 14 1 = 0 := by decide
  have hfuncs : rising (farTesting.disableWay 0 0).funcs :=
    ((State.Onward.disableWay (deep := 3) (.refl false farTesting)).tables farTesting_sound.tables).funcs
  have hwaits := disableWay_far
  obtain ⟨f, e, hrepair⟩ := testFailed_repairs hdisabled hauto
  rw [hrepair]
  generalize farTesting.disableWay _ _ = x at hfuncs hwaits
  have hraise : rising (x.raiseGallery 0).funcs ∧ (x.raiseGallery 0).stalled = true := by
    unfold State.raiseGallery
    split
    next q _ =>
      obtain ⟨hoff, hrise⟩ := raise_rings (fn := x.fnOf q) hfuncs (.gallery 0)
      exact ⟨hrise, (congrArg State.stalled hoff :).trans hwaits⟩
    · exact ⟨hfuncs, hwaits⟩
  generalize x.raiseGallery _ = y at hraise
  obtain ⟨hyfuncs, hystalled⟩ := hraise
  have hpersist := persist_keeps (y.modRepair f)
  rw [rasRepaired_stalled]
  · exact hpersist.2.trans hystalled
  · exact hpersist.1.symm ▸ hyfuncs

/-- The test goes on waiting. -/
theorem selfTestRun_farTest : exec (.selfTestRun 0 false 0) farTest = .next (farTest.orWait
    (farTesting.testFailed { kind := 7, unit := 0, deadline := 0, force := false })) := by
  have hfree : ¬ farTest.testFree { kind := 7, unit := 0, deadline := 0, force := false } = false := by decide +kernel
  have htests : farTest.selfTests[0]? = some { kind := 7, unit := 0, deadline := 0, force := false } := rfl
  have hrun : exec (.selfTestRun 0 false 0) farTest = farTest.waits (match farTest.selfTests[0]? with
      | none => .next farTest
      | some d => if farTest.testFree d = false then .next farTest
        else .next (({ farTest.sample.1 with selfTests := farTest.sample.1.selfTests.eraseIdx 0 }.returnCore d).testFailed d |>.answer d.path 0 0
          [toBytes 1 2, toBytes 8 0])) := rfl
  rw [hrun, htests]
  dsimp only
  rw [if_neg hfree]
  rfl

/-- Refutes O52: the test of a locked way that fails does not end, where the way that its lines are to move into holds a modified line of partition 16,
whose bucket at stack 32 is empty while that resource has no rate. -/
theorem not_backgroundEvents : ¬ Obligations.BackgroundEvents := by
  unfold Obligations.BackgroundEvents
  intro h
  obtain ⟨-, -, -, -, -, htests⟩ := h farTest farTest_sound
  obtain ⟨t, ht, hgone, -⟩ := (htests 0 { kind := 7, unit := 0, deadline := 0, force := false } false 0 rfl).1 (by decide +kernel)
    (.inr (.inr farTest_flows))
  rw [selfTestRun_farTest, State.orWait, if_pos testFailed_far] at ht
  obtain rfl : _ = t := by injection ht
  exact absurd hgone (by decide)

end Sys2Proof.Machine
end

section
/-! The packets that hand work to an engine: the obligation `WorkPackets` meets packets of one number. -/

namespace Sys2Proof.Machine

open Sys2Proof

/-- A `LAUNCH_COX` packet whose program lies at 1. -/
def coxPacket : Pkt := { pid := 0, opcode := 0x31, data := zeros 16 ++ [1], len := 3, tag := 0, offset := 0, depth := 0 }

/-- A context that holds, before a `LAUNCH_COX` packet, a completed packet of the same number and without data. -/
def twinPackets : State :=
  { parts := [(0, { live := true, galleries := 1 })]
    ctxs := [(0, { state := .active, pkts := [{ coxPacket with data := [], stage := .completed }, coxPacket] })] }

theorem launchCox_twinPackets {t : State} {l : CoxLaunch} (h : exec (.launchCox 0) twinPackets = .next t) (hl : t.coxLaunch twinPackets.nextLaunch = some l) :
    l.program = 0 := by
  have hrun : (match exec (.launchCox 0) twinPackets with
      | .next t => (t.coxLaunch twinPackets.nextLaunch).map (·.program)
      | _ => none) = some 0 := by decide +kernel
  rw [h] at hrun
  dsimp only at hrun
  rw [hl] at hrun
  exact Option.some.inj hrun

/-- Refutes O19, which asks for no sound state: a launch takes its program from the first packet of its packet's number, here one that has completed
and holds no data. -/
theorem not_workPackets : ¬ Obligations.WorkPackets := by
  unfold Obligations.WorkPackets
  intro h
  obtain ⟨-, -, -, hcox, -⟩ := h twinPackets 0 coxPacket
  obtain ⟨t, l, j, ht, -, hl, -, -, hprogram, -⟩ := hcox ⟨by decide +kernel, rfl, rfl, rfl, rfl⟩ 0 (by decide +kernel) (by decide +kernel)
    (by decide +kernel) (by decide +kernel)
  exact absurd ((launchCox_twinPackets ht hl).symm.trans hprogram) (by decide +kernel)

end Sys2Proof.Machine
end

section
/-! Packets without an engine at the dispatch point: the obligation `SimplePackets` meets packets of one number. -/

namespace Sys2Proof.Machine

open Sys2Proof

/-- A `FENCE` packet whose scope has no fabric writes. -/
def fencePacket : Pkt := { pid := 0, opcode := 0x04, data := [], len := 1, tag := 0, offset := 0, depth := 0 }

/-- A completed packet of the fence's number, where a fence would ask for fabric writes. -/
def fenceTwin : Pkt := { fencePacket with opcode := 0x00, data := zeros 16 ++ [4], stage := .completed }

/-- A context that holds both, and has taken a work entry that has not completed. -/
def twinFence : State :=
  { ctxs := [(0, { state := .active, pkts := [fenceTwin, fencePacket] })], kftOpen := [(0, 7)] }

theorem twinFence_sound : twinFence.Sound := by simp [State.Sound, rising, twinFence, mwf]

/-- The fence goes on waiting for the work entry. -/
theorem fence_twinFence {t : State} (h : exec (.fence 0) twinFence = .next t) : ¬ t.Staged 0 0 (.workDone 0 0) := by
  have hrun : (match exec (.fence 0) twinFence with
      | .next t => (t.ctx 0).pkts.all (fun p => decide (p.stage = .dispatched))
      | _ => false) = true := by decide +kernel
  rw [h] at hrun
  rintro ⟨p, hp, -, hstage⟩
  have hdispatched := of_decide_eq_true (List.all_eq_true.1 hrun p hp)
  exact PStage.noConfusion (hdispatched.symm.trans hstage)

/-- Refutes O17: a `FENCE` whose scope has no fabric writes waits for them where an earlier packet of the context has its number, whose data the fence
reads in place of its own. -/
theorem not_simplePackets : ¬ Obligations.SimplePackets := by
  unfold Obligations.SimplePackets
  intro h
  obtain ⟨-, -, -, -, -, -, -, -, -, hfence⟩ := h twinFence 0 fencePacket twinFence_sound
  obtain ⟨t, ht, hdone⟩ := (hfence ⟨by decide +kernel, rfl, rfl, rfl, rfl⟩ (by decide +kernel) (by decide +kernel)).1 (.inl (by decide +kernel))
  exact fence_twinFence ht hdone

end Sys2Proof.Machine
end

section
/-! Packets that report: the obligation `StreamEvents` meets packets of one number. -/

namespace Sys2Proof.Machine

open Sys2Proof

/-- A `REPORT` packet with tag 2. -/
def reportPacket : Pkt := { pid := 0, opcode := 0x03, data := [], len := 1, tag := 2, offset := 0, depth := 0 }

/-- A context that holds, before a `REPORT` packet, a completed packet of the same number with tag 1. -/
def twinReport : State :=
  { linkUp := true, funcs := [(0, { bme := true })]
    ctxs := [(0, { state := .active, ringSpace := 1, pkts := [{ reportPacket with opcode := 0x00, tag := 1, stage := .completed }, reportPacket] })] }

theorem twinReport_sound : twinReport.Sound := by simp [State.Sound, rising, twinReport, mwf]

/-- The tag of a completion record among what has left the module, below what left last. -/
def recordTag (out : List OutEvent) : List Byte :=
  match out with
  | _ :: .hostWrite _ _ bs :: _ => bs.take 4
  | _ => []

/-- The record holds the other packet's tag. -/
theorem report_twinReport {t : State} (h : exec (.report 0) twinReport = .next t) : recordTag t.out = toBytes 4 1 := by
  have hrun : (match exec (.report 0) twinReport with
      | .next t => recordTag t.out
      | _ => []) = toBytes 4 1 := by decide +kernel
  rw [h] at hrun
  exact hrun

/-- Refutes O18: a `REPORT` writes its record with the tag of an earlier packet of the context that has its number. -/
theorem not_streamEvents : ¬ Obligations.StreamEvents := by
  unfold Obligations.StreamEvents
  intro h
  obtain ⟨-, -, hreport, -⟩ := h
  obtain ⟨t, v, ht, -, -, -, hout⟩ := (hreport twinReport 0 reportPacket twinReport_sound).2.1 ⟨by decide +kernel, rfl, rfl, rfl, rfl⟩
    (by decide +kernel) (by decide +kernel) rfl (by decide +kernel) (by decide +kernel)
  have htag := report_twinReport ht
  rw [hout] at htag
  have hhead : (2 : Byte) = 1 := Option.some.inj (congrArg List.head? htag)
  exact absurd hhead (by decide)

end Sys2Proof.Machine
end

section
/-! What a translation leaves of a core that holds a crew: the core stays occupied, whichever lines its L1 is made to give up on the way. -/

namespace Sys2Proof.Machine

open Sys2Proof

theorem mget_merase_below {α : Type} {d : α} {m : Map α} {j k : Nat} (h : mget d m j ≠ d) (hkj : k < j) : mget d (merase m k) j = mget d m j := by
  induction m with
  | nil => rfl
  | cons e m ih =>
    obtain ⟨k', v'⟩ := e
    simp only [mget, merase] at h ⊢
    by_cases hkk : k' = k
    · have hlt : ¬ j < k' := by omega
      rw [if_pos hkk, if_neg (by omega), if_neg hlt]
    · rw [if_neg hkk]
      split
      · rfl
      · simp only [mget]
        by_cases hk : k' = j
        · rw [if_pos hk, if_pos hk]
        · rw [if_neg hk] at h
          rw [if_neg hk, if_neg hk]
          split
          · rfl
          · rename_i hlt
            rw [if_neg hlt] at h
            exact ih h

/-- A value other than the default one is found in any list, and a write of another key leaves it there. -/
theorem mget_mset_other_of_listed {α : Type} [DecidableEq α] {d : α} {m : Map α} {j k : Nat} (v : α) (h : mget d m j ≠ d) (hjk : j ≠ k) :
    mget d (mset d m k v) j = mget d m j := by
  rcases Nat.lt_or_gt_of_ne hjk with hlt | hlt
  · exact mget_mset_above v h hlt
  · unfold mset
    split
    · exact mget_merase_below h hlt
    · exact mget_minsert_other d m k j v hjk

/-- A core holds a crew. -/
def State.Manned (s : State) (core : Nat) : Prop := (s.core core).crews ≠ []

namespace State.Manned

variable {s t : State} {core : Nat}

theorem of_cores (h : s.Manned core) (e : t.cores = s.cores) : t.Manned core := by
  unfold State.Manned
  rw [core_of_cores e]
  exact h

theorem listed (h : s.Manned core) : s.core core ≠ {} := fun he => h (congrArg Core.crews he)

/-- An occupied core reads back what is written to it, so long as that leaves it occupied. -/
theorem core_modCore (h : s.Manned core) (f : Core → Core) (hf : (f (s.core core)).crews = (s.core core).crews) :
    (s.modCore core f).core core = f (s.core core) :=
  mget_mset_same_of_ne _ _ fun he => h (by rw [← hf, he])

theorem modCore (h : s.Manned core) (j : Nat) {f : Core → Core} (hf : ∀ k, (f k).crews = k.crews) : (s.modCore j f).Manned core := by
  unfold State.Manned
  by_cases hj : core = j
  · subst hj
    rw [h.core_modCore f (hf _), hf]
    exact h
  · have hkept : (s.modCore j f).core core = s.core core := mget_mset_other_of_listed _ h.listed hj
    rw [hkept]
    exact h

theorem ite {c : Prop} [Decidable c] {u : State} (ht : t.Manned core) (hu : u.Manned core) : (if c then t else u).Manned core := by
  split
  · exact ht
  · exact hu

theorem foldl {α : Type} {f : State → α → State} {l : List α} (h : t.Manned core) (hf : ∀ u x, u.Manned core → (f u x).Manned core) :
    (l.foldl f t).Manned core := by
  induction l generalizing t with
  | nil => exact h
  | cons x l ih => exact ih (hf t x h)

theorem of_eq {α : Type} {p : State × α} {u : State} {a : α} (h : p.1.Manned core) (e : p = (u, a)) : u.Manned core := by
  rw [e] at h
  exact h

/-! ### Counters, interrupts and charges -/

theorem countGal {g ev n} (h : t.Manned core) : (t.countGal g ev n).Manned core := by
  unfold State.countGal
  exact .ite h h

theorem deliver {fn} (h : t.Manned core) : (t.deliver fn).Manned core := by
  unfold State.deliver
  extract_lets src u f bound v
  have hu : u.Manned core := .ite h h
  clear_value u
  exact .ite (.ite hu (.ite hu (.ite hu (.ite hu hu)))) (.ite hu (.ite (.ite hu hu) (.ite hu hu)))

theorem driveAttn (h : t.Manned core) : t.driveAttn.Manned core := by
  unfold State.driveAttn
  extract_lets f low u wake
  have hu : u.Manned core := .ite h h
  clear_value u
  exact .ite hu hu

theorem raise {fn c} (h : t.Manned core) : (t.raise fn c).Manned core := by
  unfold State.raise
  exact .driveAttn (.deliver h)

theorem hostError {fn kind write ctx addr} (h : t.Manned core) : (t.hostError fn kind write ctx addr).Manned core := by
  unfold State.hostError
  exact .raise (.ite h h)

theorem hostRead {fn ctx addr n} (h : t.Manned core) : (t.hostRead fn ctx addr n).1.Manned core := by
  unfold State.hostRead
  extract_lets u
  have hu : u.Manned core := h
  clear_value u
  split
  · split
    · exact hu
    · dsimp only
      split
      · exact .hostError hu
      · split
        · exact .hostError hu
        · split
          · exact hu
          · exact hu
  · exact .hostError hu

theorem postWrites {fn size addr bytes fuel} (h : t.Manned core) : (t.postWrites fn size addr bytes fuel).Manned core := by
  induction fuel generalizing t addr bytes with
  | zero => exact h
  | succ f ih =>
    unfold State.postWrites
    exact .ite h (ih h)

theorem hostWrite {fn ctx addr bytes} (h : t.Manned core) : (t.hostWrite fn ctx addr bytes).Manned core := by
  unfold State.hostWrite
  exact .ite (.postWrites h) (.hostError h)

theorem charge {r q bytes} (h : t.Manned core) : (t.charge r q bytes).Manned core := by
  unfold State.charge
  dsimp only
  have hpick (p : State × Nat) (hp : p.1.Manned core) : p.1.Manned core := hp
  refine .ite h (.ite h ?_)
  split
  · exact .ite h (.ite h h)
  · exact .ite h (.ite h h)

theorem chargeRoute {q rest} (h : t.Manned core) : (t.chargeRoute q rest).Manned core := by
  induction rest generalizing t with
  | nil => exact h
  | cons x xs ih =>
    unfold State.chargeRoute
    split
    · exact ih (.charge h)
    · exact ih h

theorem chargeHop {q src dst} (h : t.Manned core) : (t.chargeHop q src dst).Manned core := by
  unfold State.chargeHop
  dsimp only
  exact .ite h (.ite (.charge h) (.ite (.charge h) (.chargeRoute h)))

theorem wakeStack {k dies} (h : t.Manned core) : (t.wakeStack k dies).Manned core := by
  unfold State.wakeStack
  extract_lets x u
  have hu : u.Manned core := .ite h h
  exact hu

theorem chargeStack {payer cell write} (h : t.Manned core) : (t.chargeStack payer cell write).Manned core := by
  unfold State.chargeStack
  exact .ite h (charge (wakeStack h))

theorem chargeHbm {payer g cell write} (h : t.Manned core) : (t.chargeHbm payer g cell write).Manned core := by
  unfold State.chargeHbm
  exact .ite (.chargeHop (.countGal (.chargeStack h))) (.chargeHop (.countGal (.chargeStack h)))

/-! ### A line at its home -/

theorem setHomePoison {q pa mask} (h : t.Manned core) : (t.setHomePoison q pa mask).Manned core := by
  unfold State.setHomePoison
  split
  · exact h
  · split
    · exact h
    · exact h

theorem homeWrite {q pa runs} (h : t.Manned core) : (t.homeWrite q pa runs).Manned core := by
  unfold State.homeWrite
  split
  · exact h
  · split
    · exact h
    · exact h

theorem gcOut {g paid c} (h : t.Manned core) : (t.gcOut g paid c).Manned core := by
  unfold State.gcOut
  split
  · split
    · extract_lets u
      have hu : u.Manned core := .ite (.chargeHbm (.countGal h)) (.countGal h)
      exact hu
    · exact h
  · exact h

theorem throughSlice {q pa write full} (h : t.Manned core) : (t.throughSlice q pa write full).Manned core := by
  unfold State.throughSlice
  split
  · exact h
  · extract_lets g x
    split
    · exact .countGal h
    · refine .ite (.chargeHbm (.countGal h)) ?_
      split
      next u way e =>
        have hu : u.Manned core := by
          split at e
          · cases e
            exact .countGal h
          · cases e
            exact countGal h
        extract_lets v w
        have hv : v.Manned core := by
          unfold v
          split
          · exact .gcOut hu
          · exact hu
        exact (ite hv (.chargeHbm hv) : w.Manned core)

theorem lineWrite {line bytes poison} (h : t.Manned core) : (t.lineWrite line bytes poison).Manned core := by
  unfold State.lineWrite
  exact .ite (.homeWrite (.throughSlice h)) (setHomePoison (homeWrite (throughSlice h)))

theorem setDir {line d} (h : t.Manned core) : (t.setDir line d).Manned core := h

theorem setHostLine {k x} (h : t.Manned core) : (t.setHostLine k x).Manned core := h

theorem recalled {line agent keep paid} (h : t.Manned core) : (t.recall line agent keep paid).Manned core := by
  unfold State.recall
  dsimp only
  exact .ite (h.modCore _ fun _ => rfl) (.ite h (.setHostLine (.ite (.lineWrite (.ite (.chargeHop h) h)) h)))

theorem dropCopies {line paid rest} (h : t.Manned core) : (t.dropCopies line paid rest).Manned core := by
  induction rest generalizing t with
  | nil => exact h
  | cons a as ih => exact ih (.recalled h)

theorem reachHome {q pa} (h : t.Manned core) : (t.reachHome q pa).Manned core := by
  unfold State.reachHome
  exact .ite h h

theorem askOwner {q pa} (h : t.Manned core) : (t.askOwner q pa).Manned core := by
  unfold State.askOwner
  dsimp only
  split
  · exact .ite (.setDir (.recalled (.countGal (reachHome h)))) (reachHome h)
  · exact .reachHome h

theorem homeIoRead {q pa die} (h : t.Manned core) : (t.homeIoRead q pa die).Manned core := by
  unfold State.homeIoRead
  exact .chargeHop (.throughSlice (.askOwner h))

theorem homeIoWrite {q pa die full} (h : t.Manned core) : (t.homeIoWrite q pa die full).Manned core := by
  unfold State.homeIoWrite
  exact .throughSlice (.chargeHop (.ite (.reachHome h) (.setDir (.dropCopies (.countGal (.reachHome h))))))

theorem segSeen {i line} (h : t.Manned core) : (t.segSeen i line).Manned core := by
  unfold State.segSeen
  split
  · exact h
  · refine .ite h ?_
    unfold State.segMark State.dropSegLine
    refine .foldl h fun u q hu => ?_
    extract_lets k d v
    have hv : v.Manned core := .ite hu (.setDir (.dropCopies hu))
    exact hv

/-! ### Accesses of the tables, and the walk -/

theorem paRead {die q ctx pa n} (h : t.Manned core) : (t.paRead (.io die) q ctx pa n).1.Manned core := by
  unfold State.paRead
  split
  · exact .homeIoRead h
  · split
    · exact h
    · dsimp only
      split
      · exact .homeIoRead (.segSeen h)
      · exact .segSeen h
      · exact .segSeen h
  · split
    next e => exact h.hostRead.of_eq e
    next e => exact h.hostRead.of_eq e
    next e => exact h.hostRead.of_eq e
  · exact h

theorem paWrite {die q ctx pa bytes} (h : t.Manned core) : (t.paWrite (.io die) q ctx pa bytes).1.Manned core := by
  unfold State.paWrite
  split
  · exact .homeWrite (.homeIoWrite h)
  · exact .hostWrite h
  · exact h

theorem walk {q va p level table} (h : t.Manned core) : (t.walk q va p level table).1.Manned core := by
  fun_induction State.walk t q va p level table with
  | case1 => exact h
  | case8 | case9 => exact of_eq (paWrite (of_eq (paRead h) ‹State.paRead _ _ _ _ _ _ = _›)) ‹State.paWrite _ _ _ _ _ _ = _›
  | case12 =>
    rename_i ih
    exact ih (of_eq (paRead h) ‹State.paRead _ _ _ _ _ _ = _›)
  | _ => exact of_eq (paRead h) ‹State.paRead _ _ _ _ _ _ = _›

theorem tlbAdd {e} (h : t.Manned core) : (t.tlbAdd e).Manned core := by
  unfold State.tlbAdd
  extract_lets mine
  refine .ite h ?_
  dsimp only
  split
  · exact h
  · exact h

theorem translate {cache q ctx root va p fill} (h : t.Manned core) : (t.translate cache q ctx root va p fill).1.Manned core := by
  unfold State.translate
  split
  · exact h
  extract_lets hit
  clear_value hit
  split
  next u useOld e =>
    have hu : u.Manned core := by
      split at e
      · have hp : (t.pick 2).1.Manned core := h
        cases e
        exact hp
      · cases e
        exact h
    split
    · exact hu
    · split
      next e => exact of_eq (walk hu) e
      next e => exact of_eq (walk hu) e
      next e => exact of_eq (walk hu) e
      next v _ _ _ _ _ _ e =>
        have hv : v.Manned core := of_eq (walk hu) e
        split
        · exact hv
        · split
          · exact hv
          · exact .ite (.tlbAdd hv) hv

theorem xlate {w va p} (h : t.Manned core) : (t.xlate w va p).1.Manned core := translate h

end State.Manned

end Sys2Proof.Machine
end

section
/-! Settled: what a ready `FDMA` or cache instruction does. -/

namespace Sys2Proof.Machine

open Sys2Proof

variable {s t : State} {c : CrewId} {z : Issue} {y : Crew}

theorem known_cache {op : Nat} (h : s.Ready c z 0xD op) (hop : op ≤ 4) : z.i.known = true := by
  obtain ⟨hcls, hop'⟩ := ready_cls h
  simp [Inst.known, hcls, hop', hop]

theorem known_fdma (h : s.Ready c z 0xC 0) : z.i.known = true := by
  obtain ⟨hcls, hop'⟩ := ready_cls h
  simp [Inst.known, hcls, hop']

theorem effect_fdma (h : s.Ready c z 0xC 0) (hroom : (s.core z.core).engine.queue.length < 16)
    (hlanding : z.i.mode = 1 ∨ s.landing z.x.ctx z.lid (.fromCore z.core) ≠ .unmapped) :
    ∃ ch : Chain, s.effect z = ((s.modCore z.core (fun k => { k with engine := { k.engine with queue := k.engine.queue ++ [ch] } })).advance
        z).modCrew z.core z.key (fun c => { c with copies := c.copies + 1 }) ∧
      ch.ctx = z.x.ctx ∧ ch.addr = z.x.ureg z.i.ureg ∧ ch.landing = (if z.i.mode = 1 then none else some z.lid) ∧
      ch.owner = .crew z.key z.x.launch z.x.idx := by
  have hfdma : s.effect z = s.fdma z := by simp [State.effect, (ready_cls h).1]
  rw [hfdma]
  unfold State.fdma
  extract_lets e lid unmapped
  have hmapped : unmapped = false := by
    unfold unmapped lid
    by_cases hmode : z.i.mode = 1
    · simp [hmode]
    · simpa [hmode] using hlanding
  have hroom' : ¬ engineDepth ≤ e.queue.length := Nat.not_le.2 hroom
  rw [if_neg (by simp [hmapped]), if_neg hroom']
  split
  exact ⟨_, rfl, rfl, rfl, rfl, rfl⟩

theorem effect_cache {op : Nat} (h : s.Ready c z 0xD op) : s.effect z = s.cacheClass z := by simp [State.effect, (ready_cls h).1]

theorem State.OnlyCrew.ctx (h : s.OnlyCrew t z y) (n : Nat) : t.ctx n = s.ctx n :=
  congrArg (mget ({} : Ctx) · n) (congrArg State.ctxs h.1 :)

theorem State.OnlyCrew.hbm (h : s.OnlyCrew t z y) : t.hbm = s.hbm := (congrArg State.hbm h.1 :)

theorem State.OnlyCrew.served {cls op : Nat} (h : s.OnlyCrew t z y) (hready : s.Ready c z cls op) : t.stalled = false :=
  h.stalled.trans hready.1

theorem State.OnlyCrew.manned (h : s.OnlyCrew t z y) : t.Manned z.core := crews_ne_of_crew h.crew

/-! ### The cache instructions of one thread -/

/-- The line that a cache instruction names in its one thread: the thread's address, translated behind the instruction. -/
def State.Names (s : State) (z : Issue) (th va pa : Nat) (s1 : State) : Prop :=
  z.threads = [th] ∧ placeOf z.i.space (z.ea th) = .global va ∧ (s.advance z).xlate (z.requester false) va { r := true } = (s1, .ok pa)

section
variable {th va pa : Nat} {s1 : State}

theorem effect_names {op : Nat} (h : s.Ready c z 0xD op) (hop : op ≤ 2) (hline : s.Names z th va pa s1) :
    s.effect z = (s.advance z).cacheLine z th := by
  obtain ⟨hth, -, -⟩ := hline
  obtain ⟨-, rfl⟩ := ready_cls h
  have h3 : z.i.op ≠ 3 := by omega
  have h4 : z.i.op ≠ 4 := by omega
  rw [effect_cache h]
  unfold State.cacheClass
  split
  · contradiction
  · contradiction
  · simp [hth, State.cacheLines]

theorem effect_pfL1 (h : s.Ready c z 0xD 0) (hline : s.Names z th va pa s1) (hlocal : ∀ a, s1.locate (s.ctx z.x.ctx).part pa ≠ .host a) :
    s.effect z = (s1.paRead (.crew z.core false) (s.ctx z.x.ctx).part z.x.ctx (pa / 128 * 128) 128).1 := by
  rw [effect_names h (by omega) hline]
  obtain ⟨-, hplace, hx⟩ := hline
  simp only [State.cacheLine, hplace, hx, (ready_cls h).2, (advance_onlyCrew (ready_crew h)).ctx]

theorem effect_pfGc (h : s.Ready c z 0xD 1) (hline : s.Names z th va pa s1) (hserves : s1.lineServes (s.ctx z.x.ctx).part pa = true)
    (hgood : s1.homePoison (s.ctx z.x.ctx).part pa = 0) :
    s.effect z = (s1.reachHome (s.ctx z.x.ctx).part pa).throughSlice (s.ctx z.x.ctx).part pa false false := by
  rw [effect_names h (by omega) hline]
  obtain ⟨-, hplace, hx⟩ := hline
  simp only [State.cacheLine, hplace, hx, (ready_cls h).2, (advance_onlyCrew (ready_crew h)).ctx, hserves, hgood, decide_true,
    Bool.and_self, if_true]

theorem effect_invL1 (h : s.Ready c z 0xD 2) (hline : s.Names z th va pa s1) :
    s.effect z = s1.l1Drop z.core (lineKey (s.ctx z.x.ctx).part pa) := by
  rw [effect_names h (by omega) hline]
  obtain ⟨-, hplace, hx⟩ := hline
  simp only [State.cacheLine, hplace, hx, (ready_cls h).2, (advance_onlyCrew (ready_crew h)).ctx]

theorem names_manned {cls op : Nat} (h : s.Ready c z cls op) (hline : s.Names z th va pa s1) : s1.Manned z.core :=
  State.Manned.of_eq (State.Manned.xlate (advance_onlyCrew (ready_crew h)).manned) hline.2.2

end

/-! ### Lines leave an L1 -/

theorem leaveShared_cores (line agent : Nat) : (t.leaveShared line agent).cores = t.cores := by
  unfold State.leaveShared
  split
  · split
    · rfl
    · rfl
  · rfl

theorem leaveShared_hbm (line agent : Nat) : (t.leaveShared line agent).hbm = t.hbm := by
  unfold State.leaveShared
  split
  · split
    · rfl
    · rfl
  · rfl

theorem leaveShared_stalled (line agent : Nat) : (t.leaveShared line agent).stalled = t.stalled := by
  unfold State.leaveShared
  split
  · split
    · rfl
    · rfl
  · rfl

theorem l1Drop_hbm (core line : Nat) : (t.l1Drop core line).hbm = t.hbm := leaveShared_hbm _ _

theorem l1Drop_stalled (core line : Nat) : (t.l1Drop core line).stalled = t.stalled := leaveShared_stalled _ _

theorem l1Drop_core {core : Nat} (h : t.Manned core) (line : Nat) :
    (t.l1Drop core line).core core = { t.core core with l1 := sremove (t.core core).l1 line } :=
  (core_of_cores (leaveShared_cores line core) core).trans (h.core_modCore _ rfl)

theorem l1Drop_manned {core : Nat} (h : t.Manned core) (line : Nat) : (t.l1Drop core line).Manned core :=
  (h.modCore core (f := fun k => { k with l1 := sremove k.l1 line }) fun _ => rfl).of_cores (leaveShared_cores line core)

/-- A change of an occupied core, beside what an instruction has done to its crew. -/
theorem State.OnlyCrew.modCore (h : s.OnlyCrew t z y) (f : Core → Core) (hf : ∀ k, (f k).crews = k.crews) :
    (t.modCore z.core f).offCores = s.offCores ∧
      (t.modCore z.core f).core z.core = f { s.core z.core with crews := minsert (s.core z.core).crews z.key y } ∧
      ∀ j, j ≠ z.core → (t.modCore z.core f).core j = s.core j := by
  have hmanned := h.manned
  obtain ⟨hoff, hcore, hother⟩ := h
  refine ⟨hoff, (hmanned.core_modCore f (hf _)).trans (by rw [hcore]), fun j hj => ?_⟩
  rw [← hother j hj, State.modCore, modCore_of_crews (by rw [hf]; exact hmanned)]
  exact mget_minsert_other _ _ _ _ _ hj

theorem l1DropAll_hbm (core : Nat) (ls : List Nat) : (t.l1DropAll core ls).hbm = t.hbm := by
  induction ls generalizing t with
  | nil => rfl
  | cons l ls ih => exact ih.trans (l1Drop_hbm core l)

theorem l1DropAll_stalled (core : Nat) (ls : List Nat) : (t.l1DropAll core ls).stalled = t.stalled := by
  induction ls generalizing t with
  | nil => rfl
  | cons l ls ih => exact ih.trans (l1Drop_stalled core l)

theorem l1DropAll_core {core : Nat} (h : t.Manned core) (ls : List Nat) :
    (t.l1DropAll core ls).core core = { t.core core with l1 := (t.core core).l1.filter (fun x => x ∉ ls) } := by
  induction ls generalizing t with
  | nil => simp [State.l1DropAll]
  | cons l ls ih =>
    rw [State.l1DropAll, ih (l1Drop_manned h l), l1Drop_core h]
    simp [sremove, List.filter_filter, Bool.and_comm]

/-! ### The clauses -/

/-- `INV_L1`: the line has left the core's L1. -/
theorem invL1_drops {th va pa : Nat} {s1 : State} (h : s.Ready c z 0xD 2) (hline : s.Names z th va pa s1) (hs : s1.stalled = false) :
    ∃ t, s.thread c 0xD 2 = t ∧ lineKey (s.ctx z.x.ctx).part pa ∉ (t.core z.core).l1 ∧ t.hbm = s1.hbm := by
  have heffect := effect_invL1 h hline
  have hserved : (s.effect z).stalled = false := by rw [heffect, l1Drop_stalled, hs]
  refine ⟨_, (thread_of_served (known_cache h (by omega)) h hserved).trans heffect, ?_, l1Drop_hbm _ _⟩
  rw [l1Drop_core (names_manned h hline)]
  simp [sremove]

/-- `INV_L1ALL`: every line has left the core's L1. -/
theorem invL1all_drops (h : s.Ready c z 0xD 3) (hact : z.act ≠ 0) :
    ∃ t, s.thread c 0xD 3 = t ∧ (t.core z.core).l1 = [] ∧ t.hbm = s.hbm ∧
      t.crew z.core z.key = some (z.after (s.core z.core).clock [] 0) := by
  have hgo := advance_onlyCrew (ready_crew h)
  have heffect : s.effect z = (s.advance z).l1DropAll z.core ((s.advance z).core z.core).l1 := by
    rw [effect_cache h]
    simp [State.cacheClass, (ready_cls h).2, hact]
  have hserved : (s.effect z).stalled = false := by rw [heffect, l1DropAll_stalled, hgo.served h]
  refine ⟨_, (thread_of_served (known_cache h (by omega)) h hserved).trans heffect, ?_, (l1DropAll_hbm _ _).trans hgo.hbm, ?_⟩
  · rw [l1DropAll_core hgo.manned]
    simp
  · rw [← hgo.crew, State.crew, State.crew, l1DropAll_core hgo.manned]

/-- `INV_IC`: the core's instruction cache is empty. -/
theorem invIc_empties (h : s.Ready c z 0xD 4) (hact : z.act ≠ 0) :
    ∃ t, s.thread c 0xD 4 = t ∧ t.offCores = s.offCores ∧
      t.core z.core = { s.core z.core with
        icache := [], icachePa := [], crews := minsert (s.core z.core).crews z.key (z.after (s.core z.core).clock [] 0) } ∧
      ∀ j, j ≠ z.core → t.core j = s.core j := by
  have hgo := advance_onlyCrew (ready_crew h)
  have heffect : s.effect z = (s.advance z).modCore z.core (fun k => { k with icache := [], icachePa := [] }) := by
    rw [effect_cache h]
    simp [State.cacheClass, (ready_cls h).2, hact]
  generalize s.advance z = u at hgo heffect
  have hserved : (s.effect z).stalled = false := by rw [heffect]; exact hgo.served h
  refine ⟨_, (thread_of_served (known_cache h (by omega)) h hserved).trans heffect, ?_⟩
  exact hgo.modCore (fun k => { k with icache := [], icachePa := [] }) fun _ => rfl

/-- `FDMA`: the chain joins the engine of the crew's core, and the crew goes on with one copy more outstanding. -/
theorem fdma_joins (h : s.Ready c z 0xC 0) (hroom : (s.core z.core).engine.queue.length < 16)
    (hlanding : z.i.mode = 1 ∨ s.landing z.x.ctx z.lid (.fromCore z.core) ≠ .unmapped) :
    ∃ t ch, s.thread c 0xC 0 = t ∧ t.offCores = s.offCores ∧ ch.ctx = z.x.ctx ∧ ch.addr = z.x.ureg z.i.ureg ∧
      ch.landing = (if z.i.mode = 1 then none else some z.lid) ∧ ch.owner = .crew z.key z.x.launch z.x.idx ∧
      t.core z.core = { s.core z.core with
        engine := { (s.core z.core).engine with queue := (s.core z.core).engine.queue ++ [ch] }
        crews := minsert (s.core z.core).crews z.key { z.after (s.core z.core).clock [] 0 with copies := z.x.copies + 1 } } ∧
      ∀ j, j ≠ z.core → t.core j = s.core j := by
  obtain ⟨ch, heffect, hctx, haddr, hland, howner⟩ := effect_fdma h hroom hlanding
  have hcrew := ready_crew h
  have hmanned : s.Manned z.core := crews_ne_of_crew hcrew
  have hcore := hmanned.core_modCore (fun k => { k with engine := { k.engine with queue := k.engine.queue ++ [ch] } }) rfl
  generalize hu : s.modCore z.core (fun k => { k with engine := { k.engine with queue := k.engine.queue ++ [ch] } }) = u at hcore heffect
  have hstalled : u.stalled = s.stalled := by subst hu; rfl
  have hoff : u.offCores = s.offCores := by subst hu; rfl
  have hother (j : Nat) (hj : j ≠ z.core) : u.core j = s.core j := by
    rw [← hu, State.modCore, modCore_of_crews (by exact hmanned)]
    exact mget_minsert_other _ _ _ _ _ hj
  have hgo := (advance_onlyCrew (s := u) (z := z) (by rw [State.crew, hcore]; exact hcrew)).modCrew (fun c => { c with copies := c.copies + 1 })
  have hserved : (s.effect z).stalled = false := by rw [heffect, hgo.stalled, hstalled, h.1]
  obtain ⟨hoff', hcore', hother'⟩ := hgo
  refine ⟨_, ch, (thread_of_served (known_fdma h) h hserved).trans heffect, hoff'.trans hoff, hctx, haddr, hland, howner, ?_,
    fun j hj => (hother' j hj).trans (hother j hj)⟩
  rw [hcore', hcore]
  rfl

/-- Settles O15: each instruction advances its path, and what it does beside that is said of the state behind the advance. -/
theorem copyAndCacheInstructions : Obligations.CopyAndCacheInstructions := by
  unfold Obligations.CopyAndCacheInstructions
  intro s c z
  dsimp only
  refine ⟨fun h hroom hlanding => ?_, fun h th pa s1 hr hlocal hserved => ?_, fun h th pa s1 hr hserves hgood hserved => ?_,
    fun h th pa s1 hr hs => ?_, fun h hact => ?_, fun h hact => ?_⟩
  · obtain ⟨t, ch, ht, hrest⟩ := fdma_joins h hroom hlanding
    exact ⟨t, ch, congrArg _ ht, hrest⟩
  · obtain ⟨hth, va, hplace, hx⟩ := hr
    have heffect := effect_pfL1 h ⟨hth, hplace, hx⟩ hlocal
    exact congrArg _ ((thread_of_served (known_cache h (by omega)) h (by rw [heffect]; exact hserved)).trans heffect)
  · obtain ⟨hth, va, hplace, hx⟩ := hr
    have heffect := effect_pfGc h ⟨hth, hplace, hx⟩ hserves hgood
    exact congrArg _ ((thread_of_served (known_cache h (by omega)) h (by rw [heffect]; exact hserved)).trans heffect)
  · obtain ⟨hth, va, hplace, hx⟩ := hr
    obtain ⟨t, ht, hrest⟩ := invL1_drops h ⟨hth, hplace, hx⟩ hs
    exact ⟨t, congrArg _ ht, hrest⟩
  · obtain ⟨t, ht, hrest⟩ := invL1all_drops h hact
    exact ⟨t, congrArg _ ht, hrest⟩
  · obtain ⟨t, ht, hrest⟩ := invIc_empties h hact
    exact ⟨t, congrArg _ ht, hrest⟩

end Sys2Proof.Machine
end

section
/-! Handshakes of associations: what a `HELLO`, a `REPLY` and a `CLOSE` that pass their checks leave, and the end of an epoch. -/

namespace Sys2Proof.Machine

open Sys2Proof

variable {s u : State} {h : Handshake} {k : HsPacket} {a : Nat}

/-! ### Arrival -/

theorem hsArrive_shut (hexists : s.subExists k.sub = true) (hup : (s.subPort k.sub).up = true) (hudp : s.udpPort ≠ none)
    (hbad : k.head.verType ≠ 0x14 ∨ 4 ≤ k.head.flags) : s.hsArrive k = (s.subCount k.sub 8 1, false) := by
  simp [State.hsArrive, hexists, hup, hudp, hbad]

/-- A sub-port as the limit of R333 sees it: its second begins anew once it is over. -/
def SubPort.renewed (x : SubPort) (now : Nat) : SubPort := if x.hsStart + 1000000000 ≤ now then { x with hsStart := now, hsCount := 0 } else x

theorem renewed_hsCount_le (x : SubPort) (now : Nat) : (x.renewed now).hsCount ≤ x.hsCount := by
  unfold SubPort.renewed
  split
  · exact Nat.zero_le _
  · exact Nat.le_refl _

theorem hsAdmit_eq (s : State) (sub : Nat) :
    s.hsAdmit sub = if ((s.subPort sub).renewed s.sample.2).hsCount < 1000 then
        (s.sample.1.setSubPort sub { (s.subPort sub).renewed s.sample.2 with hsCount := ((s.subPort sub).renewed s.sample.2).hsCount + 1 }, true)
      else ((s.sample.1.setSubPort sub ((s.subPort sub).renewed s.sample.2)).hsCountUp sub true, false) := rfl

theorem hsAdmit_under {sub : Nat} (hcount : (s.subPort sub).hsCount < 1000) : (s.hsAdmit sub).2 = true := by
  rw [hsAdmit_eq, if_pos (Nat.lt_of_le_of_lt (renewed_hsCount_le _ _) hcount)]

theorem hsArrive_under (hexists : s.subExists k.sub = true) (hup : (s.subPort k.sub).up = true) (hudp : s.udpPort ≠ none)
    (hver : k.head.verType = 0x14) (hflags : k.head.flags < 4) (hcount : (s.subPort k.sub).hsCount < 1000) : (s.hsArrive k).2 = true := by
  have hok : ¬ (k.head.verType ≠ 0x14 ∨ 4 ≤ k.head.flags) := by simp [hver, hflags]
  have hadmit := hsAdmit_under hcount
  unfold State.hsArrive
  rw [if_neg (by simp [hexists, hup]), if_neg hudp, if_neg hok]
  split
  · rfl
  next e => simpa [e] using hadmit

theorem hsAdmit_udpPort (s : State) (sub : Nat) : (s.hsAdmit sub).1.udpPort = s.udpPort := by
  rw [hsAdmit_eq]
  generalize (s.subPort sub).renewed s.sample.2 = y
  split
  · rfl
  · rfl

/-- The counters of a handshake packet that reaches Mitor. -/
def State.hsCounted (s : State) (k : HsPacket) : State :=
  (((s.subCount k.sub 1 1).subCount k.sub 3 k.len).subCount k.sub 5 (b2n k.ce)).countWide (17 + 2 * (k.sub / 4)) k.len

theorem subCount_udpPort (s : State) (sub k n : Nat) : (s.subCount sub k n).udpPort = s.udpPort := rfl

theorem countWide_udpPort (s : State) (k n : Nat) : (s.countWide k n).udpPort = s.udpPort := rfl

theorem hsCounted_udpPort (s : State) (k : HsPacket) : (s.hsCounted k).udpPort = s.udpPort := by
  simp only [State.hsCounted, countWide_udpPort, subCount_udpPort]

theorem hsArrive_udpPort (s : State) (k : HsPacket) : (s.hsArrive k).1.udpPort = s.udpPort := by
  have hadmit := hsAdmit_udpPort s k.sub
  unfold State.hsArrive
  split
  · rfl
  split
  · rfl
  split
  · rfl
  split
  next v e =>
    rw [e] at hadmit
    exact (hsCounted_udpPort v k).trans hadmit
  · exact hadmit

theorem hello_stops (harrive : s.hsArrive h.pkt = (u, false)) : exec (.hello h) s = .next u := by
  show execHello h s = _
  simp only [execHello, harrive]

theorem reply_stops (harrive : s.hsArrive h.pkt = (u, false)) : exec (.reply h) s = .next u := by
  show execReply h s = _
  simp only [execReply, harrive]

theorem close_stops (harrive : s.hsArrive k = (u, false)) (b : CloseBody) : exec (.close k b) s = .next u := by
  show execClose k b s = _
  simp only [execClose, harrive]

theorem hello_foreign (harrive : s.hsArrive h.pkt = (u, true)) (hnone : u.hsAssoc h [] = none) :
    exec (.hello h) s = .next (u.hsCountUp h.pkt.sub false) := by
  show execHello h s = _
  simp only [execHello, harrive, hnone]

theorem reply_foreign (harrive : s.hsArrive h.pkt = (u, true)) (hnone : u.hsAssoc h (u.assoc h.assoc).hello = none) :
    exec (.reply h) s = .next (u.hsCountUp h.pkt.sub false) := by
  show execReply h s = _
  simp only [execReply, harrive, hnone]

/-! ### The answer to a `HELLO` -/

/-- A `HELLO` as it stands in the transcript. -/
def helloMessage (h : Handshake) : List Byte := helloFields h ++ h.sig

theorem helloMessage_ne_nil (h : Handshake) : (helloMessage h) ≠ [] := by
  intro hnil
  have hlen := congrArg List.length hnil
  simp [helloMessage, helloFields, hsFields, be] at hlen

theorem tagFor_off (s : State) (a : Nat) : { (s.tagFor a).1 with free := 0 } = { s with free := 0 } := by
  unfold State.tagFor
  dsimp only
  split
  · rfl
  · rfl

theorem tagFor_ne_zero (s : State) (a : Nat) : (s.tagFor a).2 ≠ 0 := by
  unfold State.tagFor
  dsimp only
  split
  next hne => exact hne
  · dsimp only
    omega

/-- The state in which the module has drawn what its `REPLY` needs: two secrets, its tag and the time. -/
def State.drawn (s : State) (a : Nat) : State := (s.draw32.1.draw32.1.tagFor a).1.sample.1

theorem drawn_off (s : State) (a : Nat) : { s.drawn a with free := 0, now := 0 } = { s with free := 0, now := 0 } := by
  have htag := tagFor_off s.draw32.1.draw32.1 a
  exact (congrArg (fun t : State => { t with now := 0 }) htag :)

/-- The association with its `REPLY` made and its keys derived. -/
def State.answering (s : State) (h : Handshake) (a : Nat) (pub key : List Byte) : Assoc :=
  let x := s.assoc a
  let tag := (s.draw32.1.draw32.1.tagFor a).2
  let t := (s.draw32.1.draw32.1.tagFor a).1.sample.2
  let fs := hsFields a h.epoch tag (Config.x25519Public s.draw32.2) s.draw32.1.draw32.2 (s.drawn a).conf.chain ((s.drawn a).partCertOf x.part)
  let reply := fs ++ Config.ed25519Sign key ((helloMessage h) ++ fs)
  { x with
    state := if x.keys = [] then .handshake else .rekeying, initiator := false, hello := (helloMessage h), reply, eph := []
    next := some (deriveKeys s.draw32.2 h.pub (helloMessage h) reply h.epoch h.tag t false), ownTag := tag, began := t, peerPub := pub
    confirm := Config.sha512 ((helloMessage h) ++ reply) }

theorem hello_answers {pub key : List Byte} (harrive : s.hsArrive h.pkt = (u, true)) (hassoc : u.hsAssoc h [] = some (a, pub))
    (hkey : u.partKey (u.assoc a).part = some key) (hkeys : (u.assoc a).keys = []) (hstate : (u.assoc a).state ≠ .failed)
    (hfresh : (u.assoc a).hello = []) (htag : h.tag ≠ 0) :
    exec (.hello h) s = .next (((u.drawn a).setAssoc a (u.answering h a pub key)).sendHandshake a h.epoch (u.answering h a pub key).reply) := by
  have hnew : ¬ ((u.assoc a).state = .failed ∨ (u.assoc a).hello = helloMessage h ∨ h.tag = 0) := by
    rw [hfresh]
    simp [hstate, htag, (helloMessage_ne_nil h).symm]
  unfold helloMessage at hnew
  show execHello h s = _
  simp only [execHello, harrive, hassoc, hkey]
  rw [if_neg (by simp [hkeys]), if_neg hnew, if_neg (by simp [hfresh])]
  rfl

/-- A handshake message that fits the MTU leaves on the association's first path in service. -/
theorem sendHandshake_leaves {i : Nat} {p : KPath} {rest : Map KPath} (epoch : Nat) {body : List Byte} (hudp : s.udpPort ≠ none)
    (hpath : s.freePaths (s.assoc a) = (i, p) :: rest) (hfits : frameSize p.peer (24 + body.length) ≤ (s.port (p.sub / 4)).mtu + 18) :
    ∃ f, (s.sendHandshake a epoch body).out = .frame (p.sub / 4) (p.sub % 4) f :: s.out := by
  obtain ⟨n, hn⟩ := Option.ne_none_iff_exists'.1 hudp
  have hlen : ∀ t : Nat, (kftHead 4 0 i epoch 0 0 0 t ++ body).length = 24 + body.length := by
    intro t
    simp only [kftHead, be, List.length_append, List.length_reverse, length_toBytes]
  unfold State.sendHandshake
  simp only [hn, hpath, hlen]
  have hnot : ¬ (s.sample.1.port (p.sub / 4)).mtu + 18 < frameSize p.peer (24 + body.length) := Nat.not_lt.2 hfits
  rw [if_neg hnot]
  exact ⟨_, rfl⟩

/-! ### The keys of a `REPLY` -/

/-- The association as a packet under a key leaves it, beside its count of packets. -/
def Assoc.sealing (x : Assoc) (path : Nat) (key : EpochKey) (p : KPath) : Assoc :=
  { x.modKey key.epoch (fun k => { k with ctr := k.ctr + 1 }) with paths := minsert x.paths path { p with psn := (p.psn + 1) % 2 ^ 32 } }

theorem sealSend_packet (s : State) (a path typ flags : Nat) (key : EpochKey) (body : List Byte) :
    s.sealSend a path typ flags key body = s ∨
      ∃ p bs, s.sealSend a path typ flags key body = (s.sample.1.setAssoc a ((s.assoc a).sealing path key p)).sendPacket a p bs := by
  unfold State.sealSend
  extract_lets x
  split
  · exact .inl rfl
  next p _ => exact .inr ⟨p, _, rfl⟩

theorem sealSend_hails (path typ flags : Nat) (key : EpochKey) (body : List Byte) (hr : rising s.assocs) :
    ∃ y, (y = s.assoc a ∨ ∃ p, y = (s.assoc a).sealing path key p) ∧
      { (s.sealSend a path typ flags key body).assoc a with txPkts := 0 } = { y with txPkts := 0 } := by
  rcases sealSend_packet s a path typ flags key body with h | ⟨p, bs, h⟩
  · rw [h]
    exact ⟨_, .inl rfl, rfl⟩
  · have hsame := (sendPacket_hails a p bs (setAssoc_keeps_rising (s := s.sample.1) a ((s.assoc a).sealing path key p) hr)).same
    rw [assoc_setAssoc (s := s.sample.1) _ hr] at hsame
    rw [h]
    exact ⟨_, .inr ⟨p, rfl⟩, hsame⟩

theorem sealing_next {x : Assoc} {path : Nat} {key n : EpochKey} {p : KPath} (hnext : x.next = some n) :
    ∃ m, (x.sealing path key p).next = some m ∧ m.epoch = n.epoch ∧ m.tag = n.tag := by
  refine ⟨_, by simp only [Assoc.sealing, Assoc.modKey, hnext, Option.map_some]; rfl, ?_, ?_⟩
  · split
    · rfl
    · rfl
  · split
    · rfl
    · rfl

/-- A packet under a key leaves the key of the epoch being established with its epoch and tag, and the peer's key. -/
theorem sealSend_next (path typ flags : Nat) (key : EpochKey) {n : EpochKey} (body : List Byte) (hr : rising s.assocs)
    (hnext : (s.assoc a).next = some n) :
    ((s.sealSend a path typ flags key body).assoc a).peerPub = (s.assoc a).peerPub ∧
      ∃ m, ((s.sealSend a path typ flags key body).assoc a).next = some m ∧ m.epoch = n.epoch ∧ m.tag = n.tag := by
  obtain ⟨y, hy, hsame⟩ := sealSend_hails (s := s) (a := a) path typ flags key body hr
  have hpub : ((s.sealSend a path typ flags key body).assoc a).peerPub = y.peerPub := (congrArg Assoc.peerPub hsame :)
  have hn : ((s.sealSend a path typ flags key body).assoc a).next = y.next := (congrArg Assoc.next hsame :)
  rw [hpub, hn]
  rcases hy with rfl | ⟨p, rfl⟩
  · exact ⟨rfl, n, hnext, rfl, rfl⟩
  · exact ⟨rfl, sealing_next hnext⟩

/-- The association with the `REPLY` taken and its keys derived. -/
def State.agreeing (s : State) (h : Handshake) (pub : List Byte) : Assoc :=
  let x := s.assoc h.assoc
  { x with reply := (helloMessage h), eph := [], next := some (deriveKeys x.eph h.pub x.hello (helloMessage h) h.epoch h.tag s.sample.2 true), peerPub := pub }

theorem reply_agrees {pub : List Byte} (hr : rising u.assocs) (harrive : s.hsArrive h.pkt = (u, true))
    (hassoc : u.hsAssoc h (u.assoc h.assoc).hello = some (h.assoc, pub)) (hinit : (u.assoc h.assoc).initiator = true)
    (hhello : (u.assoc h.assoc).hello ≠ []) (hnone : (u.assoc h.assoc).next = none) (hepoch : h.epoch = (u.assoc h.assoc).newEpoch)
    (htag : h.tag ≠ 0) :
    ∃ t, exec (.reply h) s = .next t ∧ (t.assoc h.assoc).peerPub = pub ∧
      ∃ n, (t.assoc h.assoc).next = some n ∧ n.epoch = h.epoch ∧ n.tag = h.tag := by
  have hok : ¬ ((u.assoc h.assoc).initiator = false ∨ (u.assoc h.assoc).hello = [] ∨ (u.assoc h.assoc).next ≠ none ∨
      h.epoch ≠ (u.assoc h.assoc).newEpoch ∨ h.tag = 0) := by
    simp [hinit, hhello, hnone, ← hepoch, htag]
  have hset := assoc_setAssoc (s := u.sample.1) (a := h.assoc) (u.agreeing h pub) hr
  show ∃ t, execReply h s = _ ∧ _
  simp only [execReply, harrive, hassoc]
  rw [if_neg hok]
  split
  next i p rest _ =>
    obtain ⟨hpub, n, hn, he, ht⟩ := sealSend_next (s := u.sample.1.setAssoc h.assoc (u.agreeing h pub)) (a := h.assoc) i 1 1
      (deriveKeys (u.assoc h.assoc).eph h.pub (u.assoc h.assoc).hello (helloMessage h) h.epoch h.tag u.sample.2 true)
      (Config.sha512 ((u.assoc h.assoc).hello ++ (helloMessage h))) (setAssoc_keeps_rising (s := u.sample.1) h.assoc _ hr)
      (congrArg Assoc.next hset :)
    exact ⟨_, rfl, hpub.trans (congrArg Assoc.peerPub hset), n, hn, he, ht⟩
  · exact ⟨_, rfl, (congrArg Assoc.peerPub hset :), _, (congrArg Assoc.next hset :), rfl, rfl⟩

/-! ### The end of an association -/

theorem endAssoc_ended (hr : rising s.assocs) (a : Nat) (st : AssocState) (reason : Nat) :
    (s.endAssoc a st reason).assoc a = (s.assoc a).ended st := by
  have hassocs : (s.severed a st).assocs = mset {} s.assocs a ((s.assoc a).ended st) := by
    have hkept := (loseSlots_fabric (((s.abortEntries a 0x25).slots.filter (fun e => decide (e.2.mirror.map (·.1) = some a))).map (·.1))
      (s.abortEntries a 0x25)).trans (abortEntries_fabric s a 0x25)
    unfold State.severed
    extract_lets v w
    have hw : w.assocs = s.assocs := (congrArg Prod.fst hkept :)
    simp only [State.setAssoc, State.assoc, hw]
  rw [endAssoc_severed, State.assoc, (tellAssoc_keeps _ a reason 0).1]
  generalize s.severed a st = v at hassocs ⊢
  have hkept : (if v.fnOf (s.assoc a).part = 0 then v else v.tellAssoc a reason (v.fnOf (s.assoc a).part)).assocs = v.assocs := by
    split
    · rfl
    · exact (tellAssoc_keeps _ a reason _).1
  rw [hkept, hassocs, mget_mset_same_of_rising _ _ _ hr]

theorem close_ends (hs : u.Tables) (harrive : s.hsArrive k = (u, true)) {b : CloseBody}
    (hgood : hsHeadOk k.head = true ∧ (u.assoc b.assoc).live = true ∧ (u.assoc b.assoc).state ≠ .idle ∧ (u.assoc b.assoc).state ≠ .failed ∧
      Config.ed25519Verify (u.assoc b.assoc).peerPub ((u.assoc b.assoc).earlier ++ closeFields b.assoc b.reason) b.sig = true)
    (hend : (u.endAssoc b.assoc .idle b.reason).stalled = false) :
    ∃ t, exec (.close k b) s = .next t ∧ (t.assoc b.assoc).state = .idle ∧ (t.assoc b.assoc).keys = [] ∧ (t.assoc b.assoc).outMsgs = [] ∧
      bit (t.func 0).assoc b.assoc = true := by
  have htold := (endAssoc_parts hs b.assoc .idle b.reason).told
  have hended := endAssoc_ended hs.assocs b.assoc .idle b.reason
  show ∃ t, execClose k b s = _ ∧ _
  simp only [execClose, harrive]
  rw [if_pos hgood]
  generalize u.endAssoc b.assoc .idle b.reason = v at hend htold hended
  refine ⟨v, waits_of_served hend, ?_, ?_, ?_, htold⟩
  · rw [hended]
    rfl
  · rw [hended]
    rfl
  · rw [hended]
    rfl

theorem close_refused (harrive : s.hsArrive k = (u, true)) {b : CloseBody}
    (hbad : ¬ (hsHeadOk k.head = true ∧ (u.assoc b.assoc).live = true ∧ (u.assoc b.assoc).state ≠ .idle ∧ (u.assoc b.assoc).state ≠ .failed ∧
      Config.ed25519Verify (u.assoc b.assoc).peerPub ((u.assoc b.assoc).earlier ++ closeFields b.assoc b.reason) b.sig = true)) :
    exec (.close k b) s = .next (u.hsCountUp k.sub false) := by
  show execClose k b s = _
  simp only [execClose, harrive]
  rw [if_neg hbad]

/-- What the answer to a `HELLO` leaves. -/
theorem hello_answered {pub key : List Byte} (hr : rising u.assocs) (hudp : u.udpPort ≠ none) (hkeys : (u.assoc a).keys = []) :
    let t := ((u.drawn a).setAssoc a (u.answering h a pub key)).sendHandshake a h.epoch (u.answering h a pub key).reply
    let y := t.assoc a
    y.state = .handshake ∧ y.initiator = false ∧ y.ownTag ≠ 0 ∧ y.peerPub = pub ∧ (∃ n, y.next = some n ∧ n.epoch = h.epoch ∧ n.tag = h.tag) ∧
      (∀ b, b ≠ a → t.assoc b = u.assoc b) ∧
      ∀ i p rest, u.freePaths (u.assoc a) = (i, p) :: rest → frameSize p.peer (24 + y.reply.length) ≤ (u.port (p.sub / 4)).mtu + 18 →
        ∃ f, t.out = .frame (p.sub / 4) (p.sub % 4) f :: u.out := by
  have hoff := drawn_off u a
  have hassocs : (u.drawn a).assocs = u.assocs := (congrArg State.assocs hoff :)
  have hout : (u.drawn a).out = u.out := (congrArg State.out hoff :)
  have hports : (u.drawn a).ports = u.ports := (congrArg State.ports hoff :)
  have hsubs : (u.drawn a).subPorts = u.subPorts := (congrArg State.subPorts hoff :)
  have hport' : (u.drawn a).udpPort = u.udpPort := (congrArg State.udpPort hoff :)
  have hudp' : (u.drawn a).udpPort ≠ none := hport' ▸ hudp
  obtain ⟨hstate, hinit, htag, hpub, hnext, hpaths, hmove⟩ : (u.answering h a pub key).state = .handshake ∧
      (u.answering h a pub key).initiator = false ∧ (u.answering h a pub key).ownTag ≠ 0 ∧ (u.answering h a pub key).peerPub = pub ∧
      (∃ n, (u.answering h a pub key).next = some n ∧ n.epoch = h.epoch ∧ n.tag = h.tag) ∧
      (u.answering h a pub key).paths = (u.assoc a).paths ∧ (u.answering h a pub key).pathMove = (u.assoc a).pathMove :=
    ⟨if_pos hkeys, rfl, tagFor_ne_zero _ _, rfl, ⟨_, rfl, rfl, rfl⟩, rfl, rfl⟩
  generalize u.answering h a pub key = y at *
  generalize u.drawn a = v at *
  have hrise : rising v.assocs := hassocs ▸ hr
  have hset := assoc_setAssoc (a := a) y hrise
  have hhail := sendHandshake_hails a h.epoch y.reply (setAssoc_keeps_rising a y hrise)
  have hleaves (i : Nat) (p : KPath) (rest : Map KPath) := sendHandshake_leaves (s := v.setAssoc a y) (a := a) (i := i) (p := p) (rest := rest)
    h.epoch (body := y.reply) hudp'
  rw [hset] at hleaves
  have hsame := hhail.same
  rw [hset] at hsame
  have hother := hhail.other
  generalize (v.setAssoc a y).sendHandshake a h.epoch y.reply = t at *
  dsimp only
  refine ⟨(congrArg Assoc.state hsame :).trans hstate, (congrArg Assoc.initiator hsame :).trans hinit, ?_, (congrArg Assoc.peerPub hsame :).trans hpub,
    ?_, fun b hb => ?_, fun i p rest hpath hfits => ?_⟩
  · have hown : (t.assoc a).ownTag = y.ownTag := (congrArg Assoc.ownTag hsame :)
    rwa [hown]
  · have hkey : (t.assoc a).next = y.next := (congrArg Assoc.next hsame :)
    rwa [hkey]
  · rw [hother b hb, assoc_setAssoc_other y hb hrise, State.assoc, hassocs]
    rfl
  · have hreply : (t.assoc a).reply = y.reply := (congrArg Assoc.reply hsame :)
    have hfree : (v.setAssoc a y).freePaths y = u.freePaths (u.assoc a) := by
      simp only [State.freePaths, State.pathUp, Assoc.moving, hpaths, hmove, State.subPort, State.setAssoc, hsubs]
    have hport : (v.setAssoc a y).port (p.sub / 4) = u.port (p.sub / 4) := congrArg (fun m => mget ({} : FabPort) m (p.sub / 4)) hports
    rw [hreply] at hfits
    obtain ⟨f, hf⟩ := hleaves i p rest (hfree.trans hpath) (by rw [hport]; exact hfits)
    exact ⟨f, hf.trans (congrArg _ hout)⟩

/-! ### Epochs -/

theorem rekeyStart_greets {key : EpochKey} {keys : List EpochKey} (hr : rising s.assocs) (hkeys : (s.assoc a).keys = key :: keys)
    (hup : (s.assoc a).state = .up) (hseed : s.seed ≠ none) :
    ∃ t, exec (.rekeyStart a) s = .next t ∧ (t.assoc a).state = .rekeying ∧ (t.assoc a).initiator = true ∧
      (t.assoc a).keys = (s.assoc a).keys ∧ (t.assoc a).next = none ∧ (key.ctr < 2 ^ 31 → key.born + 82800000000000 ≤ t.now) := by
  have hne : (s.assoc a).keys ≠ [] := by simp [hkeys]
  show ∃ t, execRekeyStart a s = _ ∧ _
  simp only [execRekeyStart, hkeys, hup, ne_eq, not_true_eq_false, if_false]
  split
  next hctr =>
    have hgreets := sendHello_greets a hr
    obtain ⟨hstate, hinit, hnext⟩ := hgreets.begun hseed
    exact ⟨_, rfl, hstate.trans (if_neg hne), hinit, hgreets.keys.trans hkeys, hnext, fun hlt => absurd hctr (by omega)⟩
  next =>
    have hgreets := sendHello_greets (s := s.until (key.born + 23 * hourNs)) a hr
    obtain ⟨hstate, hinit, hnext⟩ := hgreets.begun hseed
    have hnow := (State.Onward.sendHello (a := a) (deep := 0) (.refl (deep := 1) true (s.until (key.born + 23 * hourNs)))).now
    exact ⟨_, rfl, hstate.trans (if_neg hne), hinit, hgreets.keys.trans hkeys, hnext, fun _ => (le_max_right _ _).trans hnow⟩

theorem rekeyTimeout_fails (hs : s.Sound) (hlive : (s.assoc a).live = true) (hstate : (s.assoc a).state = .rekeying)
    (hend : ((s.until ((s.assoc a).began + 10000000000)).endAssoc a .failed 0x25).stalled = false) :
    ∃ t, exec (.rekeyTimeout a) s = .next t ∧ (s.assoc a).began + 10000000000 ≤ t.now ∧ (t.assoc a).state = .failed ∧ (t.assoc a).keys = [] ∧
      bit (t.func 0).assoc a = true := by
  have htables : (s.until ((s.assoc a).began + 10000000000)).Tables := { hs.tables with }
  have htold := (endAssoc_parts htables a .failed 0x25).told
  have hended := endAssoc_ended htables.assocs a .failed 0x25
  have hnow := (State.Onward.endAssoc (a := a) (st := .failed) (reason := 0x25) (deep := 0)
    (.refl (deep := 1) false (s.until ((s.assoc a).began + 10000000000)))).now
  show ∃ t, execRekeyTimeout a s = _ ∧ _
  simp only [execRekeyTimeout, hlive, hstate, and_self, if_true]
  generalize State.endAssoc _ _ _ _ = v at hend htold hended hnow ⊢
  refine ⟨v, waits_of_served hend, (le_max_right _ _).trans hnow, ?_, ?_, htold⟩
  · rw [hended]
    rfl
  · rw [hended]
    rfl

theorem oldEpochErase_erases {key old : EpochKey} {rest : List EpochKey} (hkeys : (s.assoc a).keys = key :: old :: rest) :
    exec (.oldEpochErase a) s = .next ((s.until (s.assoc a).oldUntil).setAssoc a { s.assoc a with keys := [key] }) := by
  show execOldEpochErase a s = _
  simp only [execOldEpochErase, hkeys]

/-- Settles O46: each handshake message that reaches Mitor leaves what its own lemma says, and each timer that of an epoch. -/
theorem handshakeCommands : Obligations.HandshakeCommands := by
  unfold Obligations.HandshakeCommands
  intro s hs
  refine ⟨fun h u reaches => ?_, fun a key keys => ?_, fun a hlive hstate hend => rekeyTimeout_fails hs hlive hstate hend,
    fun a key old rest => ?_⟩
  · intro k hexists hup hudp harrive
    have honward : s.Onward false 1 u := by
      have h1 := State.Onward.hsArrive (k := k) (deep := 0) (.refl (deep := 1) false s)
      rwa [harrive] at h1
    have htables : u.Tables := honward.tables hs.tables
    have hudp' : u.udpPort ≠ none := by
      have h1 := hsArrive_udpPort s k
      rw [harrive] at h1
      exact h1 ▸ hudp
    refine ⟨fun hbad => ?_, fun hver hflags hcount => ?_, fun hno => ?_, fun hyes => ?_⟩
    · have h1 := (hsArrive_shut hexists hup hudp hbad).symm.trans harrive
      exact ⟨(congrArg Prod.snd h1).symm, (congrArg Prod.fst h1).symm⟩
    · have h1 := hsArrive_under hexists hup hudp hver hflags hcount
      rwa [harrive] at h1
    · subst hno
      exact ⟨hello_stops harrive, reply_stops harrive, close_stops harrive⟩
    · subst hyes
      refine ⟨hello_foreign harrive, fun a pub key hassoc hkey => ?_, ⟨reply_foreign harrive, fun pub => reply_agrees htables.assocs harrive⟩,
        fun b => ⟨close_refused harrive, close_ends htables harrive⟩⟩
      intro x hkeys hstate hfresh htag
      exact ⟨_, hello_answers harrive hassoc hkey hkeys hstate hfresh htag, hello_answered htables.assocs hudp' hkeys⟩
  · exact rekeyStart_greets hs.tables.assocs
  · exact oldEpochErase_erases

end Sys2Proof.Machine
end

section
/-! What the operations of the fabric ports leave of the ports, their sub-ports and their events. -/

namespace Sys2Proof.Machine

open Sys2Proof

variable {s t : State} {sub : Nat}

/-- The links of the fabric ports, with what stands while they go up and down. -/
def State.wires (s : State) : Map FabPort × Map SubPort × Map Nat × Map Ctx × Map Assoc × StoreData :=
  (s.ports, s.subPorts, s.portEvents, s.ctxs, s.assocs, s.conf)

/-- Bit b of a port's events is set. -/
def State.hasEvent (s : State) (port b : Nat) : Prop := bit (mget 0 s.portEvents port) b = true

theorem State.hasEvent.of_portEvents {port b : Nat} (h : s.hasEvent port b) (e : t.portEvents = s.portEvents) : t.hasEvent port b := by
  unfold State.hasEvent
  rw [e]
  exact h

theorem port_setPort (h : rising s.ports) (p : Nat) (x : FabPort) : (s.setPort p x).port p = x := mget_mset_same_of_rising _ _ _ h

theorem port_setPort_other {p q : Nat} (h : rising s.ports) (x : FabPort) (hq : q ≠ p) : (s.setPort p x).port q = s.port q :=
  mget_mset_other_of_rising _ _ hq h

theorem subPort_setSubPort (h : rising s.subPorts) (k : Nat) (x : SubPort) : (s.setSubPort k x).subPort k = x :=
  mget_mset_same_of_rising _ _ _ h

theorem subPort_setSubPort_other {j k : Nat} (h : rising s.subPorts) (x : SubPort) (hj : j ≠ k) : (s.setSubPort k x).subPort j = s.subPort j :=
  mget_mset_other_of_rising _ _ hj h

theorem setSubPort_keeps_rising (h : rising s.subPorts) (k : Nat) (x : SubPort) : rising (s.setSubPort k x).subPorts := mset_keeps_rising _ _ _ h

theorem setPort_keeps_rising (h : rising s.ports) (k : Nat) (x : FabPort) : rising (s.setPort k x).ports := mset_keeps_rising _ _ _ h

/-! ### Events -/

/-- The state with a bit of a port's events set, before the cause of PF0 is. -/
def State.portMarked (s : State) (p b : Nat) : State := { s with portEvents := mset 0 s.portEvents p (setBit (mget 0 s.portEvents p) b true) }

theorem raise_wires (fn : Nat) (c : Cause) : (s.raise fn c).wires = s.wires := (congrArg State.wires (raise_inner s fn c) :)

theorem raise_now (fn : Nat) (c : Cause) : (s.raise fn c).now = s.now := (congrArg State.now (raise_inner s fn c) :)

theorem portEvent_wires (p b : Nat) : (s.portEvent p b).wires = (s.portMarked p b).wires := raise_wires _ _

theorem portEvent_now (p b : Nat) : (s.portEvent p b).now = s.now := raise_now _ _

theorem portEvent_ports (p b : Nat) : (s.portEvent p b).ports = s.ports := (congrArg (·.1) (portEvent_wires p b) :)

theorem portEvent_subPorts (p b : Nat) : (s.portEvent p b).subPorts = s.subPorts := (congrArg (·.2.1) (portEvent_wires p b) :)

theorem portEvent_portEvents (p b : Nat) : (s.portEvent p b).portEvents = (s.portMarked p b).portEvents :=
  (congrArg (·.2.2.1) (portEvent_wires p b) :)

theorem portEvent_ctxs (p b : Nat) : (s.portEvent p b).ctxs = s.ctxs := (congrArg (·.2.2.2.1) (portEvent_wires p b) :)

theorem portEvent_assocs (p b : Nat) : (s.portEvent p b).assocs = s.assocs := (congrArg (·.2.2.2.2.1) (portEvent_wires p b) :)

theorem portEvent_conf (p b : Nat) : (s.portEvent p b).conf = s.conf := (congrArg (·.2.2.2.2.2) (portEvent_wires p b) :)

theorem ne_zero_of_bit {v i : Nat} (h : bit v i = true) : v ≠ 0 := by
  rintro rfl
  simp [bit] at h

theorem portMarked_events (p b : Nat) : mget 0 (s.portMarked p b).portEvents p = setBit (mget 0 s.portEvents p) b true :=
  mget_mset_same_of_ne _ _ (ne_zero_of_bit (bit_setBit_same _ _))

theorem portEvent_event (p b : Nat) : (s.portEvent p b).hasEvent p b := by
  rw [State.hasEvent, portEvent_portEvents, portMarked_events]
  exact bit_setBit_same _ _

theorem State.hasEvent.portEvent {port b : Nat} (h : s.hasEvent port b) (p b' : Nat) : (s.portEvent p b').hasEvent port b := by
  rw [State.hasEvent, portEvent_portEvents]
  by_cases hp : port = p
  · subst hp
    rw [portMarked_events]
    exact covers_setBit _ _ b h
  · rw [State.portMarked, mset, if_neg (ne_zero_of_bit (bit_setBit_same _ _)), mget_minsert_other _ _ _ _ _ hp]
    exact h

/-! ### Frames, records and the store -/

theorem sendLane_wires (sub code lane seq seed : Nat) : (s.sendLane sub code lane seq seed).wires = s.wires := rfl

theorem sendLane_now (sub code lane seq seed : Nat) : (s.sendLane sub code lane seq seed).now = s.now := rfl

theorem sendLane_out (sub code lane seq seed : Nat) :
    (s.sendLane sub code lane seq seed).out = .laneFrame sub (lanePayload code lane seq (sub % 4) seed) :: s.out := rfl

theorem persist_wires (s : State) : s.persist.wires = s.wires := by
  unfold State.persist State.startWrite State.setBank
  split
  · rfl
  · dsimp only
    split
    · rfl
    · rfl

theorem rasRepaired_wires (e : RasEvent) : (s.rasRepaired e).wires = s.wires :=
  (congrArg State.wires ((State.Onward.rasRepaired (deep := 0) (.refl true s)).access rfl) :)

/-- A lane control frame of the command's own code reaches it. -/
theorem laneFrame_framed {sub code : Nat} {b : List Byte} (hsub : s.subExists sub = true) (hup : (s.subPort sub).up = true)
    (hver : beField b 0 1 = 1) (hcode : beField b 1 1 = code) (h1 : 1 ≤ code) (h6 : code ≤ 6) (f : State → State) :
    s.laneFrame sub code b f = f s := by
  unfold State.laneFrame
  rw [if_neg (by simp [hsub, hup]), if_neg (by omega), if_pos hcode]

/-! ### Offers of sparing (R307) -/

/-- What an offer leaves alone. -/
def State.besides (s : State) : Map FabPort × Map Nat × Map Ctx × Map Assoc × StoreData := (s.ports, s.portEvents, s.ctxs, s.assocs, s.conf)

/-- A sub-port with an offer made at a moment. -/
def SubPort.offering (x : SubPort) (now : Nat) : SubPort :=
  { x with offerSeq := (x.offerSeq + 1) % 256, offerAt := some now, offered := now }

theorem offerOn_eq (s : State) (sub : Nat) : s.offerOn sub =
    ((s.pick 256).1.sample.1.setSubPort sub ((s.subPort sub).offering (s.pick 256).1.sample.2)).sendLane sub 1 0
      (((s.subPort sub).offerSeq + 1) % 256) (s.pick 256).2 := rfl

theorem offerOn_besides (s : State) (sub : Nat) : (s.offerOn sub).besides = s.besides := rfl

theorem offerOn_now (s : State) (sub : Nat) : s.now ≤ (s.offerOn sub).now := Nat.le_add_right _ _

theorem offerOn_subPorts (s : State) (sub : Nat) :
    (s.offerOn sub).subPorts = (s.setSubPort sub ((s.subPort sub).offering (s.offerOn sub).now)).subPorts := rfl

theorem offerOn_subPort (h : rising s.subPorts) (sub : Nat) :
    (s.offerOn sub).subPort sub = (s.subPort sub).offering (s.offerOn sub).now := by
  rw [State.subPort, offerOn_subPorts]
  exact subPort_setSubPort h _ _

theorem offerOn_subPort_other (h : rising s.subPorts) {j sub : Nat} (hj : j ≠ sub) : (s.offerOn sub).subPort j = s.subPort j := by
  rw [State.subPort, offerOn_subPorts]
  exact subPort_setSubPort_other h _ hj

theorem offerOn_keeps_rising (h : rising s.subPorts) (sub : Nat) : rising (s.offerOn sub).subPorts := by
  rw [offerOn_subPorts]
  exact setSubPort_keeps_rising h _ _

theorem offerOn_frame (s : State) (sub : Nat) : ∃ seed < 256,
    .laneFrame sub (lanePayload 1 0 (((s.subPort sub).offerSeq + 1) % 256) (sub % 4) seed) ∈ (s.offerOn sub).out :=
  ⟨_, pick_lt s 256 (by omega), List.mem_cons_self⟩

/-- From s to t sparing has been offered on the sub-ports ks, once on each. -/
structure State.Offers (ks : List Nat) (s t : State) : Prop where
  besides : t.besides = s.besides
  now : s.now ≤ t.now
  rise : rising t.subPorts
  off : ∀ k, k ∉ ks → t.subPort k = s.subPort k
  up : ∀ k, (t.subPort k).up = (s.subPort k).up
  on : ∀ k ∈ ks, (t.subPort k).offerSeq = ((s.subPort k).offerSeq + 1) % 256 ∧ s.now ≤ (t.subPort k).offered

theorem offerAll_offers {ks : List Nat} (h : rising s.subPorts) (hks : ks.Nodup) : s.Offers ks (s.offerAll ks) := by
  induction ks generalizing s with
  | nil => exact ⟨rfl, le_refl _, h, fun _ _ => rfl, fun _ => rfl, fun k hk => nomatch hk⟩
  | cons j ks ih =>
    obtain ⟨hj, hks⟩ := List.nodup_cons.1 hks
    obtain ⟨hbesides, hnow, hrise, hoff, hup, hon⟩ := ih (offerOn_keeps_rising h j) hks
    have hsame := offerOn_subPort h j
    have hother {k : Nat} (hk : k ≠ j) := offerOn_subPort_other h hk
    have hnow' := offerOn_now s j
    have hb := offerOn_besides s j
    have hall : s.offerAll (j :: ks) = (s.offerOn j).offerAll ks := rfl
    rw [hall]
    generalize (s.offerOn j).offerAll ks = t at *
    generalize s.offerOn j = u at *
    refine ⟨hbesides.trans hb, hnow'.trans hnow, hrise, fun k hk => ?_, fun k => ?_, fun k hk => ?_⟩
    · rw [List.mem_cons, not_or] at hk
      rw [hoff k hk.2, hother hk.1]
    · rw [hup k]
      by_cases hkj : k = j
      · rw [hkj, hsame]
        rfl
      · rw [hother hkj]
    · by_cases hkj : k = j
      · subst hkj
        rw [hoff k hj, hsame]
        exact ⟨rfl, hnow'⟩
      · rw [← hother hkj]
        obtain ⟨hseq, hle⟩ := hon k ((List.mem_cons.1 hk).resolve_left hkj)
        exact ⟨hseq, hnow'.trans hle⟩

theorem upSubs_nodup (s : State) (port : Nat) : (s.upSubs port).Nodup := by
  refine List.Nodup.filter _ (List.Nodup.map (fun i j hij => ?_) List.nodup_range)
  omega

theorem mem_upSubs {port k : Nat} (h : k ∈ s.upSubs port) : (s.subPort k).up = true := by
  have hk := (List.mem_filter.1 h).2
  rw [Bool.and_eq_true] at hk
  exact hk.2

/-! ### A sub-port goes down (R308 to R310) -/

theorem release_failed (p : FabPort) (i : Nat) : (p.release i).failed = p.failed := by
  unfold FabPort.release
  dsimp only
  split
  · split
    · rfl
    · rfl
  · split
    · rfl
    · rfl

/-- The state in which a sub-port has gone down, before lane 8 is given up and its paths' packets go to others. -/
def State.downed (s : State) (sub : Nat) : State :=
  s.sample.1.setSubPort sub { s.subPort sub with up := false, trainAt := s.sample.2, candAt := none, offerAt := none }

/-- The state in which the packets that a sub-port's paths have not had acknowledged go to others. -/
def State.rerouted (s : State) (sub : Nat) : State :=
  { s with assocs := mmapVals s.assocs (fun _ (a : Assoc) =>
      let on := a.sent.filter (fun (p : SentPkt) => match mfind a.paths p.path with | some k => decide (k.sub = sub) | none => false)
      { a.lose on with paths := mmapVals a.paths (fun _ k => if k.sub = sub then { k with live := false } else k) }) }

/-- The state in which lane 8 no longer serves a sub-port. -/
def State.unserved (s : State) (sub : Nat) : State :=
  (s.portEvent (sub / 4) 0).setPort (sub / 4) ((s.port (sub / 4)).release (sub % 4))

theorem subDown_eq (hup : (s.subPort sub).up = true) : s.subDown sub =
    if (s.port (sub / 4)).spare = some (sub % 4) then
      (((s.downed sub).rerouted sub).unserved sub).offerAll ((((s.downed sub).rerouted sub).unserved sub).upSubs (sub / 4))
    else ((s.downed sub).rerouted sub).unserved sub := by
  have hnot : ¬ (s.sample.1.subPort sub).up = false := by
    intro hdown
    exact Bool.false_ne_true (hdown.symm.trans hup)
  unfold State.subDown
  dsimp only
  rw [if_neg hnot]
  rfl

/-- A sub-port that goes down: the events and the failed lanes of every port stand. -/
structure State.Downs (sub : Nat) (s t : State) : Prop where
  up : (t.subPort sub).up = false
  event : ∀ p b, s.hasEvent p b → t.hasEvent p b
  failed : ∀ p, (t.port p).failed = (s.port p).failed

theorem downed_subPort (hr : rising s.subPorts) : (((s.downed sub).rerouted sub).subPort sub).up = false := by
  have h := subPort_setSubPort (s := s.sample.1) hr sub { s.subPort sub with up := false, trainAt := s.sample.2, candAt := none, offerAt := none }
  exact (congrArg SubPort.up h :)

theorem unserved_downs (hp : rising s.ports) (hdown : (s.subPort sub).up = false) : s.Downs sub (s.unserved sub) := by
  have hports := portEvent_ports (s := s) (sub / 4) 0
  have hsubs := portEvent_subPorts (s := s) (sub / 4) 0
  have hevent (p b : Nat) (h : s.hasEvent p b) := h.portEvent (sub / 4) 0
  unfold State.unserved
  generalize s.portEvent (sub / 4) 0 = u at *
  have hrise : rising u.ports := hports ▸ hp
  refine ⟨?_, fun p b h => hevent p b h, fun p => ?_⟩
  · rwa [State.subPort, ← hsubs] at hdown
  · by_cases h : p = sub / 4
    · subst h
      rw [port_setPort hrise, release_failed]
    · rw [port_setPort_other hrise _ h, State.port, hports]
      rfl

theorem subDown_downs (hs : rising s.subPorts) (hp : rising s.ports) (hup : (s.subPort sub).up = true) : s.Downs sub (s.subDown sub) := by
  have hdown := downed_subPort (s := s) (sub := sub) hs
  have hrise : rising ((s.downed sub).rerouted sub).subPorts :=
    setSubPort_keeps_rising (s := s.sample.1) hs sub { s.subPort sub with up := false, trainAt := s.sample.2, candAt := none, offerAt := none }
  have hevent (p b : Nat) (h : s.hasEvent p b) : ((s.downed sub).rerouted sub).hasEvent p b := h
  have hport (p : Nat) : ((s.downed sub).rerouted sub).port p = s.port p := rfl
  have hports : rising ((s.downed sub).rerouted sub).ports := hp
  rw [subDown_eq hup]
  generalize (s.downed sub).rerouted sub = u at *
  obtain ⟨hup', hevents, hfailed⟩ := unserved_downs hports hdown
  have hsubs : rising (u.unserved sub).subPorts := by
    have h := portEvent_subPorts (s := u) (sub / 4) 0
    exact h ▸ hrise
  generalize u.unserved sub = v at *
  have hall : s.Downs sub v := ⟨hup', fun p b h => hevents p b (hevent p b h), fun p => (hfailed p).trans (congrArg _ (hport p))⟩
  split
  · have hoffers := offerAll_offers hsubs (upSubs_nodup v (sub / 4))
    generalize v.offerAll (v.upSubs (sub / 4)) = w at *
    refine ⟨(hoffers.up sub).trans hup', fun p b h => (hall.event p b h).of_portEvents (congrArg (·.2.1) hoffers.besides), fun p => ?_⟩
    have hkept : w.ports = v.ports := congrArg (·.1) hoffers.besides
    rw [State.port, hkept]
    exact hall.failed p
  · exact hall

end Sys2Proof.Machine
end

section
/-! Settled: what happens on the links of the fabric ports. -/

namespace Sys2Proof.Machine

open Sys2Proof

variable {s : State} {sub port lane : Nat} {b : List Byte}

/-! ### Training -/

theorem resolveAll_foldl_off (f : Nat × Assoc → Map KPath) (es : Map Assoc) (s : State) :
    { es.foldl (fun t e => t.resolveAll (f e)) s with out := [] } = { s with out := [] } :=
  foldl_fixes (fun v : State => ({ v with out := [] } : State)) (fun v e => resolveAll_off (f e) v) es s

theorem linkUp_rises (hs : rising s.subPorts) (hexists : s.subExists sub = true) (hdown : (s.subPort sub).up = false)
    (hdrain : (s.port (sub / 4)).draining = false) (hfailed : (s.port (sub / 4)).failed = []) (hsupply : s.supply = 2)
    (hstay : s.removalPrepared = false) :
    ∃ t, exec (.linkUp sub) s = .next t ∧ (t.subPort sub).up = true ∧ t.hasEvent (sub / 4) 0 ∧ t.ctxs = s.ctxs ∧ t.assocs = s.assocs ∧
      ∃ seed < 256, .laneFrame sub (lanePayload 1 0 (((s.subPort sub).offerSeq + 1) % 256) (sub % 4) seed) ∈ t.out := by
  show ∃ t, execLinkUp sub s = _ ∧ _
  simp only [execLinkUp, hexists, hdown, hdrain, hfailed, hsupply, hstay, List.any_nil, Bool.false_eq_true, Bool.true_eq_false, or_self,
    ne_eq, not_true_eq_false, if_false]
  generalize hu : (s.setSubPort sub { s.subPort sub with up := true }).portEvent (sub / 4) 0 = u
  have hset := subPort_setSubPort hs sub { s.subPort sub with up := true }
  have hsubs : u.subPorts = (s.setSubPort sub { s.subPort sub with up := true }).subPorts := by rw [← hu, portEvent_subPorts]
  have hevent : u.hasEvent (sub / 4) 0 := by rw [← hu]; exact portEvent_event _ _
  have hctxs : u.ctxs = s.ctxs := by rw [← hu, portEvent_ctxs]; rfl
  have hassocs : u.assocs = s.assocs := by rw [← hu, portEvent_assocs]; rfl
  have hoff := resolveAll_foldl_off (fun e => e.2.paths.filter (fun k => decide (k.2.sub = sub))) u.assocs u
  generalize List.foldl _ u u.assocs = v at hoff ⊢
  have hvsubs : v.subPorts = u.subPorts := (congrArg State.subPorts hoff :)
  have hx : v.subPort sub = { s.subPort sub with up := true } := by
    rw [State.subPort, hvsubs, hsubs]
    exact hset
  have hrise : rising v.subPorts := by
    rw [hvsubs, hsubs]
    exact setSubPort_keeps_rising hs _ _
  have hbesides := offerOn_besides v sub
  have hup := offerOn_subPort hrise sub
  have hframe := offerOn_frame v sub
  rw [hx] at hup hframe
  generalize v.offerOn sub = t at *
  refine ⟨t, rfl, congrArg SubPort.up hup, hevent.of_portEvents ((congrArg (·.2.1) hbesides).trans (congrArg State.portEvents hoff :)),
    ((congrArg (·.2.2.1) hbesides).trans (congrArg State.ctxs hoff :)).trans hctxs,
    ((congrArg (·.2.2.2.1) hbesides).trans (congrArg State.assocs hoff :)).trans hassocs, hframe⟩

theorem subCount_subPort (hs : rising s.subPorts) (k n : Nat) : (s.subCount sub k n).subPort sub =
    { s.subPort sub with ctrs := mset 0 (s.subPort sub).ctrs k ((mget 0 (s.subPort sub).ctrs k + n) % 2 ^ 64) } :=
  subPort_setSubPort hs _ _

theorem trainRetry_counts (hs : rising s.subPorts) (hexists : s.subExists sub = true) (hdown : (s.subPort sub).up = false) :
    ∃ t, exec (.trainRetry sub) s = .next t ∧ (s.subPort sub).trainAt + 5000000000 ≤ t.now ∧
      t.subPort sub = { s.subPort sub with
        trainAt := t.now, ctrs := mset 0 (s.subPort sub).ctrs 14 ((mget 0 (s.subPort sub).ctrs 14 + 1) % 2 ^ 64) } := by
  show ∃ t, execTrainRetry sub s = _ ∧ _
  unfold execTrainRetry
  dsimp only
  rw [if_neg (by simp [hexists, hdown])]
  refine ⟨_, rfl, le_max_right _ _, ?_⟩
  have hset := subPort_setSubPort (s := s.until ((s.subPort sub).trainAt + 5000000000)) hs sub
    { s.subPort sub with trainAt := (s.until ((s.subPort sub).trainAt + 5000000000)).now }
  rw [subCount_subPort (setSubPort_keeps_rising (s := s.until _) hs _ _), hset]
  rfl

theorem foreign_counts (hexists : s.subExists sub = true) (corrupt : Bool) :
    exec (.foreign sub corrupt) s = .next (s.subCount sub (if corrupt then 6 else 7) 1) := by
  show execForeign sub corrupt s = _
  simp [execForeign, hexists]

/-! ### Sparing -/

/-- A lane control frame of a code reaches a sub-port that is up. -/
def State.Framed (s : State) (sub code : Nat) (b : List Byte) : Prop :=
  s.subExists sub = true ∧ (s.subPort sub).up = true ∧ beField b 0 1 = 1 ∧ beField b 1 1 = code

theorem State.Framed.runs {code : Nat} (h : s.Framed sub code b) (h1 : 1 ≤ code) (h6 : code ≤ 6) (f : State → State) :
    s.laneFrame sub code b f = f s := by
  obtain ⟨hsub, hup, hver, hcode⟩ := h
  exact laneFrame_framed hsub hup hver hcode h1 h6 f

/-- Lane 8 is free for a sub-port: it serves none, or that one. -/
theorem free_iff (p : FabPort) (i : Nat) : ¬ (p.served.isSome = true ∧ p.served ≠ some i) ↔ p.served = none ∨ p.served = some i := by
  cases p.served <;> simp

theorem offer_accepts (h : s.Framed sub 1 b) : exec (.offer sub b) s = .next (
    if (s.port (sub / 4)).served = none ∨ (s.port (sub / 4)).served = some (sub % 4) then
      (s.setPort (sub / 4) { s.port (sub / 4) with pattern := some (sub % 4, beField b 5 1), txLane := none }).sendLane sub 2 0 (beField b 3 1) 0
    else s) := by
  show execOffer sub b s = _
  unfold execOffer
  rw [h.runs (by omega) (by omega)]
  dsimp only
  by_cases hfree : (s.port (sub / 4)).served = none ∨ (s.port (sub / 4)).served = some (sub % 4)
  · rw [if_pos hfree, if_neg ((free_iff _ _).2 hfree)]
  · rw [if_neg hfree, if_pos (by rwa [← free_iff, not_not] at hfree)]

theorem accept_stands (hs : rising s.subPorts) (h : s.Framed sub 2 b) {o : Nat} (hoffer : (s.subPort sub).offerAt = some o)
    (hseq : beField b 3 1 = (s.subPort sub).offerSeq) (hspare : (s.port (sub / 4)).spare = none) :
    ∃ t v, exec (.accept sub b) s = .next t ∧ s.now ≤ v ∧
      (v ≤ o + 10000000 → t.subPort sub = { s.subPort sub with candAt := some v, offerAt := none }) ∧
      (o + 10000000 < v → t.subPort sub = s.subPort sub) ∧ t.ports = s.ports := by
  have hset := subPort_setSubPort (s := s.sample.1) hs sub { s.subPort sub with candAt := some s.sample.2, offerAt := none }
  have hx : s.sample.1.subPort sub = s.subPort sub := rfl
  have hp : s.sample.1.port (sub / 4) = s.port (sub / 4) := rfl
  have hports : s.sample.1.ports = s.ports := rfl
  have hnow : s.now ≤ s.sample.2 := Nat.le_add_right _ _
  show ∃ t v, execAccept sub b s = _ ∧ _
  unfold execAccept
  rw [h.runs (by omega) (by omega)]
  dsimp only
  generalize s.sample = w at *
  rw [hx, hoffer, hp]
  dsimp only
  by_cases hlate : w.2 ≤ o + 10000000
  · rw [if_pos ⟨hseq, hlate, hspare⟩]
    exact ⟨_, w.2, rfl, hnow, fun _ => hset, fun hlt => absurd hlate (by omega), hports⟩
  · rw [if_neg (fun hall => hlate hall.2.1)]
    exact ⟨_, w.2, rfl, hnow, fun hle => absurd hle hlate, fun _ => hx, hports⟩

theorem shadowReq_answers (h : s.Framed sub 3 b) (hmine : (s.port (sub / 4)).pattern.map (·.1) = some (sub % 4))
    (hfree : (s.port (sub / 4)).served = none ∨ (s.port (sub / 4)).served = some (sub % 4)) (hlane : beField b 2 1 < 8)
    (hsub : s.subOfLane (sub / 4) (beField b 2 1) = sub)
    (htx : (s.port (sub / 4)).txLane = none ∨ (s.port (sub / 4)).txLane = some (beField b 2 1)) :
    exec (.shadowReq sub b) s = .next ((s.setPort (sub / 4) { s.port (sub / 4) with txLane := some (beField b 2 1) }).sendLane sub 4
      (beField b 2 1) (beField b 3 1) 0) := by
  have htx' : ¬ ((s.port (sub / 4)).txLane.isSome = true ∧ (s.port (sub / 4)).txLane ≠ some (beField b 2 1)) := by
    rcases htx with h | h <;> simp [h]
  show execShadowReq sub b s = _
  unfold execShadowReq
  rw [h.runs (by omega) (by omega)]
  dsimp only
  rw [if_neg]
  rintro (h | h | h | h | h)
  · exact h hmine
  · omega
  · exact h hsub
  · exact (free_iff _ _).2 hfree h
  · exact htx' h

theorem shadowOn_marks (h : s.Framed sub 4 b) {l n first last : Nat} {on : Bool}
    (hrequest : (s.port (sub / 4)).request = some (l, n, first, last, on)) (hn : n = beField b 3 1) :
    exec (.shadowOn sub b) s = .next (s.setPort (sub / 4) { s.port (sub / 4) with request := some (l, n, first, last, true) }) := by
  show execShadowOn sub b s = _
  unfold execShadowOn
  rw [h.runs (by omega) (by omega)]
  dsimp only
  rw [hrequest]
  dsimp only
  rw [if_pos hn]

/-! ### Lanes in the repair map -/

/-- The lanes that a repair map holds of a port's direction are gone. -/
def RepairMap.lanesBut (m : RepairMap) (port dir : Nat) : List (Nat × Nat × Nat) := m.fabLanes.filter (fun e => decide ((e.1, e.2.1) ≠ (port, dir)))

theorem not_mem_lanesBut (m : RepairMap) (port dir l : Nat) : (port, dir, l) ∉ m.lanesBut port dir := by simp [RepairMap.lanesBut]

theorem recordLane_wires (port dir lane : Nat) : (s.recordLane port dir lane).wires =
    (s.modRepair (fun m => { m with fabLanes := m.lanesBut port dir ++ [(port, dir, lane)] })).wires := by
  unfold State.recordLane
  exact (rasRepaired_wires _).trans (persist_wires _)

theorem recordLane_ports (port dir lane : Nat) : (s.recordLane port dir lane).ports = s.ports := (congrArg (·.1) (recordLane_wires port dir lane) :)

theorem recordLane_portEvents (port dir lane : Nat) : (s.recordLane port dir lane).portEvents = s.portEvents :=
  (congrArg (·.2.2.1) (recordLane_wires port dir lane) :)

theorem recordLane_mem (port dir lane : Nat) : (port, dir, lane) ∈ (s.recordLane port dir lane).conf.repair.fabLanes := by
  have h : (s.recordLane port dir lane).conf = _ := congrArg (·.2.2.2.2.2) (recordLane_wires port dir lane)
  rw [h]
  exact List.mem_append_right _ List.mem_cons_self

/-- The state in which no lane of a port's direction is spared, with the repair map on its way to the store. -/
def State.unlaned (s : State) (port dir : Nat) : State := (s.modRepair (fun m => { m with fabLanes := m.lanesBut port dir })).persist

theorem unlaned_wires (port dir : Nat) :
    (s.unlaned port dir).wires = (s.modRepair (fun m => { m with fabLanes := m.lanesBut port dir })).wires := persist_wires _

theorem unlaned_ports (port dir : Nat) : (s.unlaned port dir).ports = s.ports := (congrArg (·.1) (unlaned_wires port dir) :)

theorem unlaned_portEvents (port dir : Nat) : (s.unlaned port dir).portEvents = s.portEvents := (congrArg (·.2.2.1) (unlaned_wires port dir) :)

theorem unlaned_not_mem (port dir l : Nat) : (port, dir, l) ∉ (s.unlaned port dir).conf.repair.fabLanes := by
  have h : (s.unlaned port dir).conf = _ := congrArg (·.2.2.2.2.2) (unlaned_wires port dir)
  rw [h]
  exact not_mem_lanesBut _ _ _ _

theorem swapDone_own (hp : rising s.ports) {l n first last : Nat} (hrequest : (s.port (sub / 4)).request = some (l, n, first, last, true)) :
    ∃ t, exec (.swapDone sub true b) s = .next t ∧ t.port (sub / 4) = { s.port (sub / 4) with rxLane := some l, request := none } ∧
      t.hasEvent (sub / 4) 2 ∧ (sub / 4, 0, l) ∈ t.conf.repair.fabLanes ∧ .laneFrame sub (lanePayload 5 l n (sub % 4) 0) ∈ t.out := by
  have hset := port_setPort hp (sub / 4) { s.port (sub / 4) with rxLane := some l, request := none }
  have hports := portEvent_ports (s := s.setPort (sub / 4) { s.port (sub / 4) with rxLane := some l, request := none }) (sub / 4) 2
  have hevent := portEvent_event (s := s.setPort (sub / 4) { s.port (sub / 4) with rxLane := some l, request := none }) (sub / 4) 2
  show ∃ t, execSwapDone sub true b s = _ ∧ _
  simp only [execSwapDone, if_true, hrequest]
  generalize State.portEvent _ _ _ = u at *
  have hrports := recordLane_ports (s := u) (sub / 4) 0 l
  have hrevents := recordLane_portEvents (s := u) (sub / 4) 0 l
  have hmem := recordLane_mem (s := u) (sub / 4) 0 l
  generalize u.recordLane (sub / 4) 0 l = v at *
  refine ⟨_, rfl, ?_, (hevent.of_portEvents hrevents).of_portEvents rfl, hmem, List.mem_cons_self⟩
  have hv : v.port (sub / 4) = _ := (congrArg (fun m => mget ({} : FabPort) m (sub / 4)) (hrports.trans hports)).trans hset
  exact hv

theorem swapDone_partner (h : s.Framed sub 5 b) (htx : (s.port (sub / 4)).txLane = some (beField b 2 1))
    (hmine : (s.port (sub / 4)).pattern.map (·.1) = some (sub % 4)) :
    ∃ t, exec (.swapDone sub false b) s = .next t ∧ t.ports = s.ports ∧ t.hasEvent (sub / 4) 2 ∧
      (sub / 4, 1, beField b 2 1) ∈ t.conf.repair.fabLanes := by
  have hrports := recordLane_ports (s := s) (sub / 4) 1 (beField b 2 1)
  have hmem := recordLane_mem (s := s) (sub / 4) 1 (beField b 2 1)
  show ∃ t, execSwapDone sub false b s = _ ∧ _
  unfold execSwapDone
  dsimp only
  rw [if_neg Bool.false_ne_true, h.runs (by omega) (by omega), htx]
  dsimp only
  rw [if_pos ⟨rfl, hmine⟩]
  generalize s.recordLane (sub / 4) 1 (beField b 2 1) = v at *
  exact ⟨_, rfl, (portEvent_ports _ _).trans hrports, portEvent_event _ _, by rwa [portEvent_conf]⟩

theorem shadowOff_own (hp : rising s.ports) {l : Nat} (hrx : (s.port (sub / 4)).rxLane = some l)
    (hspare : (s.port (sub / 4)).spare = some (sub % 4)) :
    ∃ t, exec (.shadowOff sub true b) s = .next t ∧
      t.port (sub / 4) = { s.port (sub / 4) with rxLane := none, failed := sremove (s.port (sub / 4)).failed l } ∧ t.hasEvent (sub / 4) 2 ∧
      (∀ m, (sub / 4, 0, m) ∉ t.conf.repair.fabLanes) ∧ .laneFrame sub (lanePayload 6 l 0 (sub % 4) 0) ∈ t.out := by
  have hset := port_setPort hp (sub / 4) { s.port (sub / 4) with rxLane := none, failed := sremove (s.port (sub / 4)).failed l }
  have hports := portEvent_ports (s := s.setPort (sub / 4) { s.port (sub / 4) with rxLane := none, failed := sremove (s.port (sub / 4)).failed l })
    (sub / 4) 2
  have hevent := portEvent_event (s := s.setPort (sub / 4) { s.port (sub / 4) with rxLane := none, failed := sremove (s.port (sub / 4)).failed l })
    (sub / 4) 2
  show ∃ t, execShadowOff sub true b s = _ ∧ _
  unfold execShadowOff
  dsimp only
  rw [if_pos rfl, hrx]
  dsimp only
  rw [if_neg (not_not.2 hspare)]
  generalize State.portEvent _ _ _ = u at *
  have hback := unlaned_ports (s := u) (sub / 4) 0
  have hbackEvents := unlaned_portEvents (s := u) (sub / 4) 0
  have hgone := unlaned_not_mem (s := u) (sub / 4) 0
  refine ⟨(u.unlaned (sub / 4) 0).sendLane sub 6 l 0 0, rfl, ?_, ?_, hgone, List.mem_cons_self⟩
  · exact (congrArg (fun m => mget ({} : FabPort) m (sub / 4)) (hback.trans hports)).trans hset
  · exact hevent.of_portEvents hbackEvents

theorem shadowOff_partner (hp : rising s.ports) (h : s.Framed sub 6 b) (htx : (s.port (sub / 4)).txLane = some (beField b 2 1))
    (hmine : (s.port (sub / 4)).pattern.map (·.1) = some (sub % 4)) :
    ∃ t, exec (.shadowOff sub false b) s = .next t ∧ t.port (sub / 4) = { s.port (sub / 4) with txLane := none } ∧ t.hasEvent (sub / 4) 2 ∧
      ∀ m, (sub / 4, 1, m) ∉ t.conf.repair.fabLanes := by
  have hset := port_setPort hp (sub / 4) { s.port (sub / 4) with txLane := none }
  show ∃ t, execShadowOff sub false b s = _ ∧ _
  unfold execShadowOff
  dsimp only
  rw [if_neg Bool.false_ne_true, h.runs (by omega) (by omega), if_pos ⟨htx, hmine⟩]
  generalize s.setPort (sub / 4) _ = u at *
  have hback := unlaned_ports (s := u) (sub / 4) 1
  have hgone := unlaned_not_mem (s := u) (sub / 4) 1
  refine ⟨(u.unlaned (sub / 4) 1).portEvent (sub / 4) 2, rfl, ?_, portEvent_event _ _, fun m => ?_⟩
  · exact (congrArg (fun m => mget ({} : FabPort) m (sub / 4)) ((portEvent_ports _ _).trans hback)).trans hset
  · rw [portEvent_conf]
    exact hgone m

/-! ### Offers and candidates -/

theorem mem_le_foldl_min (ts : List Nat) (t : Nat) : ts.foldl min t = t ∨ ts.foldl min t ∈ ts := by
  induction ts generalizing t with
  | nil => exact .inl rfl
  | cons u ts ih =>
    rcases ih (min t u) with h | h
    · rw [List.foldl_cons, h]
      rcases Nat.le_total t u with hle | hle
      · exact .inl (min_eq_left hle)
      · exact .inr (by simp [min_eq_right hle])
    · exact .inr (List.mem_cons_of_mem _ h)

theorem offerRepeat_offers (hs : rising s.subPorts) (hspare : (s.port port).spare = none) (hsome : s.upSubs port ≠ []) :
    ∃ t v, exec (.offerRepeat port) s = .next t ∧ s.now ≤ v ∧ (∃ k ∈ s.upSubs port, (s.subPort k).offered + 60000000000 ≤ v) ∧
      ∀ k ∈ s.upSubs port,
        ((s.subPort k).offered + 60000000000 ≤ v → (t.subPort k).offerSeq = ((s.subPort k).offerSeq + 1) % 256 ∧ v ≤ (t.subPort k).offered) ∧
        (v < (s.subPort k).offered + 60000000000 → t.subPort k = s.subPort k) := by
  show ∃ t v, execOfferRepeat port s = _ ∧ _
  unfold execOfferRepeat
  split
  next hnil => exact absurd (List.map_eq_nil_iff.1 hnil) hsome
  next first rest hlist =>
    rw [if_neg (not_not.2 hspare)]
    dsimp only
    have hfirst : ∃ k ∈ s.upSubs port, (s.subPort k).offered + 60000000000 = rest.foldl min first := by
      refine List.mem_map.1 ?_
      rw [hlist]
      rcases mem_le_foldl_min rest first with h | h
      · rw [h]
        exact List.mem_cons_self
      · exact List.mem_cons_of_mem _ h
    generalize rest.foldl min first = m at *
    have hoffers := offerAll_offers (s := s.until m)
      (ks := (s.upSubs port).filter (fun k => decide ((s.subPort k).offered + 60000000000 ≤ (s.until m).now))) hs ((upSubs_nodup s port).filter _)
    obtain ⟨k, hk, hfirst⟩ := hfirst
    refine ⟨_, (s.until m).now, rfl, le_max_left _ _, ⟨k, hk, hfirst ▸ le_max_right _ _⟩, fun k hk => ⟨fun hle => ?_, fun hlt => ?_⟩⟩
    · exact hoffers.on k (List.mem_filter.2 ⟨hk, decide_eq_true hle⟩)
    · refine hoffers.off k fun hmem => ?_
      have := of_decide_eq_true (List.mem_filter.1 hmem).2
      omega

/-- The state in which no sub-port of a list is a candidate for lane 8. -/
def State.uncandidate (s : State) (ks : List Nat) : State := ks.foldl (fun s k => s.setSubPort k { s.subPort k with candAt := none }) s

theorem uncandidate_keeps (ks : List Nat) (s : State) : (s.uncandidate ks).ports = s.ports ∧ (s.uncandidate ks).now = s.now := by
  induction ks generalizing s with
  | nil => exact ⟨rfl, rfl⟩
  | cons k ks ih => exact ih (s.setSubPort k { s.subPort k with candAt := none })

theorem uncandidate_stays (hs : rising s.subPorts) (ks : List Nat) {k : Nat} (h : (s.subPort k).candAt = none) :
    ((s.uncandidate ks).subPort k).candAt = none := by
  induction ks generalizing s with
  | nil => exact h
  | cons j ks ih =>
    refine ih (setSubPort_keeps_rising hs j { s.subPort j with candAt := none }) ?_
    by_cases hj : k = j
    · rw [hj, subPort_setSubPort hs]
    · rw [subPort_setSubPort_other hs _ hj]
      exact h

theorem uncandidate_none (hs : rising s.subPorts) {ks : List Nat} {k : Nat} (hk : k ∈ ks) : ((s.uncandidate ks).subPort k).candAt = none := by
  induction ks generalizing s with
  | nil => nomatch hk
  | cons j ks ih =>
    have hrise := setSubPort_keeps_rising hs j { s.subPort j with candAt := none }
    rcases List.mem_cons.1 hk with rfl | hk
    · exact uncandidate_stays hrise ks (by rw [subPort_setSubPort hs])
    · exact ih hrise hk

theorem spareAssign_assigns (hs : rising s.subPorts) (hp : rising s.ports) {c : Nat} (hcand : s.candidate port = some sub)
    (hat : (s.subPort sub).candAt = some c) (hspare : (s.port port).spare = none)
    (hfree : (s.port port).served = none ∨ (s.port port).served = some (sub % 4)) (hsoon : s.now ≤ c + 100000000) :
    ∃ t, exec (.spareAssign port sub) s = .next t ∧ c + 1000000 ≤ t.now ∧ t.port port = { s.port port with spare := some (sub % 4) } ∧
      ∀ k ∈ s.upSubs port, (t.subPort k).candAt = none := by
  have hnow : (s.until (c + 1000000)).now ≤ c + 100000000 := max_le hsoon (by omega)
  obtain ⟨hports, hkeep⟩ := uncandidate_keeps (s.upSubs port) (s.until (c + 1000000))
  have hnone {k : Nat} (hk : k ∈ s.upSubs port) := uncandidate_none (s := s.until (c + 1000000)) hs hk
  show ∃ t, execSpareAssign port sub s = _ ∧ _
  unfold execSpareAssign
  rw [hat]
  dsimp only
  rw [if_neg]
  · refine ⟨((s.until (c + 1000000)).uncandidate (s.upSubs port)).setPort port
      { ((s.until (c + 1000000)).uncandidate (s.upSubs port)).port port with spare := some (sub % 4) }, rfl, ?_, ?_, fun k hk => hnone hk⟩
    · exact (le_max_right s.now _).trans hkeep.ge
    · rw [port_setPort (hports ▸ hp), State.port, hports]
      rfl
  · rintro (h | h | h | h)
    · exact h hcand
    · exact h hspare
    · omega
    · exact (free_iff _ _).2 hfree h

/-- A candidate that gives up leaves the others: what is found next is the lowest of them. -/
theorem candidate_after (hs : rising s.subPorts) (sub port : Nat) :
    (s.setSubPort sub { s.subPort sub with candAt := none }).candidate port =
      (s.upSubs port).find? (fun k => decide (k ≠ sub) && (s.subPort k).candAt.isSome) := by
  have hat (k : Nat) : ((s.setSubPort sub { s.subPort sub with candAt := none }).subPort k).up = (s.subPort k).up ∧
      ((s.setSubPort sub { s.subPort sub with candAt := none }).subPort k).candAt.isSome = (decide (k ≠ sub) && (s.subPort k).candAt.isSome) := by
    by_cases hk : k = sub
    · rw [hk, subPort_setSubPort hs]
      simp
    · rw [subPort_setSubPort_other hs _ hk]
      simp [hk]
  have hups : (s.setSubPort sub { s.subPort sub with candAt := none }).upSubs port = s.upSubs port := by
    unfold State.upSubs
    refine List.filter_congr fun k _ => ?_
    rw [(hat k).1]
    rfl
  unfold State.candidate
  rw [hups]
  congr 1
  funext k
  exact (hat k).2

theorem lane8PatternTimeout_passes (hs : rising s.subPorts) {c : Nat} (hcand : s.candidate port = some sub)
    (hat : (s.subPort sub).candAt = some c) :
    ∃ t, exec (.lane8PatternTimeout port) s = .next t ∧ c + 100000000 ≤ t.now ∧ (t.subPort sub).candAt = none ∧ t.ports = s.ports ∧
      ∀ k, (s.upSubs port).find? (fun k => decide (k ≠ sub) && (s.subPort k).candAt.isSome) = some k → (t.subPort k).candAt = some t.now := by
  have hafter := candidate_after (s := s.until (c + 100000000)) hs sub port
  have hset := subPort_setSubPort (s := s.until (c + 100000000)) hs sub { s.subPort sub with candAt := none }
  have hrise := setSubPort_keeps_rising (s := s.until (c + 100000000)) hs sub { s.subPort sub with candAt := none }
  have hnow : c + 100000000 ≤ (s.until (c + 100000000)).now := le_max_right _ _
  show ∃ t, execLane8PatternTimeout port s = _ ∧ _
  unfold execLane8PatternTimeout
  rw [hcand]
  dsimp only
  rw [hat]
  dsimp only
  have hfind : ((s.until (c + 100000000)).setSubPort sub { s.subPort sub with candAt := none }).candidate port =
      (s.upSubs port).find? (fun k => decide (k ≠ sub) && (s.subPort k).candAt.isSome) := hafter
  rw [hfind]
  generalize hu : (s.until (c + 100000000)).setSubPort sub { s.subPort sub with candAt := none } = u at *
  have hunow : c + 100000000 ≤ u.now := by rw [← hu]; exact hnow
  have huports : u.ports = s.ports := by rw [← hu]; rfl
  cases hnext : (s.upSubs port).find? (fun k => decide (k ≠ sub) && (s.subPort k).candAt.isSome) with
  | none => exact ⟨u, rfl, hunow, by rw [hset], huports, fun k hk => nomatch hk⟩
  | some k =>
    have hk : k ≠ sub := by
      have h := List.find?_some hnext
      rw [Bool.and_eq_true] at h
      exact of_decide_eq_true h.1
    refine ⟨_, rfl, hunow, ?_, huports, fun j hj => ?_⟩
    · rw [subPort_setSubPort_other hrise _ hk.symm, hset]
    · obtain rfl := Option.some.inj hj
      rw [subPort_setSubPort hrise]
      rfl

/-! ### Lanes that fail (R309) -/

theorem laneFail_reported (hp : (s.port port).count ≠ 0) (hlane : lane < 8) (hup : (s.subPort (s.subOfLane port lane)).up = true)
    (hgood : lane ∉ (s.port port).failed) (hoff : s.setting 12 1 = 0) :
    ∃ t, exec (.laneFail port lane) s = .next t ∧ t.ports = s.ports ∧ t.subPorts = s.subPorts := by
  have hwires := rasRepaired_wires (s := s) { cls := 1, source := 0x0B, action := 0, unit := port, site := lane }
  show ∃ t, execLaneFail port lane s = _ ∧ _
  unfold execLaneFail
  dsimp only
  rw [if_neg (by omega : ¬ lane = 8), if_neg (by simp [hp, hup, hgood]; omega), if_pos hoff]
  exact ⟨_, rfl, congrArg (·.1) hwires, congrArg (·.2.1) hwires⟩

/-- The state in which a lane of a port counts as failed. -/
def State.failing (s : State) (port lane : Nat) : State :=
  (s.setPort port { s.port port with failed := sinsert (s.port port).failed lane }).portEvent port 1

theorem failing_port (hp : rising s.ports) : (s.failing port lane).port port = { s.port port with failed := sinsert (s.port port).failed lane } := by
  rw [State.port, State.failing, portEvent_ports]
  exact port_setPort hp _ _

theorem failing_ports (hp : rising s.ports) : rising (s.failing port lane).ports := by
  rw [State.failing, portEvent_ports]
  exact setPort_keeps_rising hp _ _

theorem failing_subPorts : (s.failing port lane).subPorts = s.subPorts := by
  rw [State.failing, portEvent_subPorts]
  rfl

theorem failing_event : (s.failing port lane).hasEvent port 1 := portEvent_event _ _

theorem exec_laneFail (hp : (s.port port).count ≠ 0) (hlane : lane < 8) (hup : (s.subPort (s.subOfLane port lane)).up = true)
    (hgood : lane ∉ (s.port port).failed) (hon : s.setting 12 1 ≠ 0) : exec (.laneFail port lane) s =
      if (s.port port).spare = some (s.subOfLane port lane % 4) ∧ (s.port port).rxLane = none ∧ (s.port port).request = none then
        (.next (((((s.failing port lane).sample.1.pick 256).1.setPort port { ((s.failing port lane).sample.1.pick 256).1.port port with
          request := some (lane, ((s.failing port lane).sample.1.pick 256).2, (s.failing port lane).sample.2, (s.failing port lane).sample.2, false)
          }).sendLane (s.subOfLane port lane) 3 lane ((s.failing port lane).sample.1.pick 256).2 0)) : Outcome)
      else .next ((s.failing port lane).subDown (s.subOfLane port lane)) := by
  show execLaneFail port lane s = _
  unfold execLaneFail
  dsimp only
  rw [if_neg (by omega : ¬ lane = 8), if_neg (by simp [hp, hup, hgood]; omega), if_neg hon, if_neg (by omega : ¬ lane = 8)]
  rfl

theorem laneFail_asks (hports : rising s.ports) (hp : (s.port port).count ≠ 0) (hlane : lane < 8)
    (hup : (s.subPort (s.subOfLane port lane)).up = true) (hgood : lane ∉ (s.port port).failed) (hon : s.setting 12 1 ≠ 0)
    (hspare : (s.port port).spare = some (s.subOfLane port lane % 4)) (hrx : (s.port port).rxLane = none) (hrequest : (s.port port).request = none) :
    ∃ t n v, exec (.laneFail port lane) s = .next t ∧ n < 256 ∧
      t.port port = { s.port port with failed := sinsert (s.port port).failed lane, request := some (lane, n, v, v, false) } ∧ t.hasEvent port 1 ∧
      .laneFrame (s.subOfLane port lane) (lanePayload 3 lane n (s.subOfLane port lane % 4) 0) ∈ t.out ∧
      (t.subPort (s.subOfLane port lane)).up = true := by
  have hport := failing_port (lane := lane) (port := port) hports
  have hrise := failing_ports (lane := lane) (port := port) hports
  have hsubs := failing_subPorts (s := s) (lane := lane) (port := port)
  have hevent := failing_event (s := s) (lane := lane) (port := port)
  rw [exec_laneFail hp hlane hup hgood hon, if_pos ⟨hspare, hrx, hrequest⟩]
  generalize s.failing port lane = u at *
  have hset := port_setPort (s := (u.sample.1.pick 256).1) hrise port
    { u.port port with request := some (lane, (u.sample.1.pick 256).2, u.sample.2, u.sample.2, false) }
  refine ⟨_, _, _, rfl, pick_lt _ 256 (by omega), hset.trans (by rw [hport]), hevent, List.mem_cons_self, ?_⟩
  rwa [State.subPort, ← hsubs] at hup

theorem laneFail_downs (hs : rising s.subPorts) (hports : rising s.ports) (hp : (s.port port).count ≠ 0) (hlane : lane < 8)
    (hup : (s.subPort (s.subOfLane port lane)).up = true) (hgood : lane ∉ (s.port port).failed) (hon : s.setting 12 1 ≠ 0)
    (hbusy : (s.port port).spare ≠ some (s.subOfLane port lane % 4) ∨ (s.port port).rxLane ≠ none ∨ (s.port port).request ≠ none) :
    ∃ t, exec (.laneFail port lane) s = .next t ∧ (t.subPort (s.subOfLane port lane)).up = false ∧ lane ∈ (t.port port).failed ∧
      t.hasEvent port 1 := by
  have hport := failing_port (lane := lane) (port := port) hports
  have hrise := failing_ports (lane := lane) (port := port) hports
  have hsubs := failing_subPorts (s := s) (lane := lane) (port := port)
  have hevent := failing_event (s := s) (lane := lane) (port := port)
  rw [exec_laneFail hp hlane hup hgood hon, if_neg (by rintro ⟨h1, h2, h3⟩; simp [h1, h2, h3] at hbusy)]
  generalize s.failing port lane = u at *
  have hup' : (u.subPort (s.subOfLane port lane)).up = true := by
    rwa [State.subPort, ← hsubs] at hup
  obtain ⟨hdown, hevents, hfailed⟩ := subDown_downs (hsubs ▸ hs) hrise hup'
  refine ⟨_, rfl, hdown, ?_, hevents port 1 hevent⟩
  rw [hfailed, hport]
  exact mem_sinsert_self _ _

theorem exec_laneFail_eight (hp : (s.port port).count ≠ 0) (hup : (s.subPort (4 * port + (s.port port).spare.getD 0)).up = true)
    (hgood : 8 ∉ (s.port port).failed) (hon : s.setting 12 1 ≠ 0) : exec (.laneFail port 8) s =
      .next (if (s.port port).rxLane.isSome || (s.port port).request.isSome then
          (s.portEvent port 1).subDown (4 * port + (s.port port).spare.getD 0)
        else (s.portEvent port 1).setPort port { s.port port with spare := none }) := by
  show execLaneFail port 8 s = _
  unfold execLaneFail
  dsimp only
  rw [if_pos rfl, if_neg (by simp [hp, hup, hgood]), if_neg hon, if_pos rfl]

theorem laneFail_eight (hs : rising s.subPorts) (hports : rising s.ports) (hp : (s.port port).count ≠ 0)
    (hup : (s.subPort (4 * port + (s.port port).spare.getD 0)).up = true) (hgood : 8 ∉ (s.port port).failed) (hon : s.setting 12 1 ≠ 0) :
    ∃ t, exec (.laneFail port 8) s = .next t ∧
      ((s.port port).rxLane = none → (s.port port).request = none →
        t.port port = { s.port port with spare := none } ∧ (t.subPort (4 * port + (s.port port).spare.getD 0)).up = true) ∧
      ((s.port port).rxLane ≠ none ∨ (s.port port).request ≠ none → (t.subPort (4 * port + (s.port port).spare.getD 0)).up = false) := by
  have hsubs := portEvent_subPorts (s := s) port 1
  have hkept := portEvent_ports (s := s) port 1
  rw [exec_laneFail_eight hp hup hgood hon]
  generalize s.portEvent port 1 = u at *
  have hup' : (u.subPort (4 * port + (s.port port).spare.getD 0)).up = true := by
    rwa [State.subPort, ← hsubs] at hup
  refine ⟨_, rfl, fun hrx hrequest => ?_, fun hbusy => ?_⟩
  · rw [if_neg (by simp [hrx, hrequest])]
    exact ⟨port_setPort (hkept ▸ hports) _ _, hup'⟩
  · rw [if_pos (by simpa [Option.isSome_iff_ne_none] using hbusy)]
    exact (subDown_downs (hsubs ▸ hs) (hkept ▸ hports) hup').up

/-! ### Requests, strangers and frames -/

theorem exec_shadowReqRepeat {l n first last : Nat} (hrequest : (s.port port).request = some (l, n, first, last, false)) :
    exec (.shadowReqRepeat port) s =
      if first + 100000000 ≤ (s.until (last + 10000000)).now then
        (.next ((s.until (last + 10000000)).subDown (4 * port + (s.port port).spare.getD 0)) : Outcome)
      else .next (((s.until (last + 10000000)).setPort port
          { s.port port with request := some (l, n, first, (s.until (last + 10000000)).now, false) }).sendLane
        (4 * port + (s.port port).spare.getD 0) 3 l n 0) := by
  show execShadowReqRepeat port s = _
  unfold execShadowReqRepeat
  dsimp only
  rw [hrequest]

theorem shadowReqRepeat_ends (hs : rising s.subPorts) (hports : rising s.ports) {l n first last : Nat}
    (hrequest : (s.port port).request = some (l, n, first, last, false)) (hlate : first + 100000000 ≤ s.now)
    (hup : (s.subPort (4 * port + (s.port port).spare.getD 0)).up = true) :
    ∃ t, exec (.shadowReqRepeat port) s = .next t ∧ (t.subPort (4 * port + (s.port port).spare.getD 0)).up = false := by
  have hnow : first + 100000000 ≤ (s.until (last + 10000000)).now := hlate.trans (le_max_left _ _)
  rw [exec_shadowReqRepeat hrequest, if_pos hnow]
  exact ⟨_, rfl, (subDown_downs (s := s.until (last + 10000000)) hs hports hup).up⟩

theorem shadowReqRepeat_repeats (hports : rising s.ports) {l n first last : Nat}
    (hrequest : (s.port port).request = some (l, n, first, last, false)) (hsoon : s.now < first + 100000000) (hlast : last < first + 90000000) :
    ∃ t, exec (.shadowReqRepeat port) s = .next t ∧ last + 10000000 ≤ t.now ∧
      t.port port = { s.port port with request := some (l, n, first, t.now, false) } ∧
      .laneFrame (4 * port + (s.port port).spare.getD 0) (lanePayload 3 l n ((4 * port + (s.port port).spare.getD 0) % 4) 0) ∈ t.out := by
  have hnow : (s.until (last + 10000000)).now < first + 100000000 := max_lt hsoon (by omega)
  rw [exec_shadowReqRepeat hrequest, if_neg (by omega)]
  exact ⟨_, rfl, le_max_right _ _, port_setPort (s := s.until (last + 10000000)) hports port _, List.mem_cons_self⟩

/-- The state in which the stranger cause of a port may be raised: a second after it last was. -/
def State.calm (s : State) (port : Nat) : State :=
  match (s.port port).strangerAt with
  | some t => s.until (t + 1000000000)
  | none => s

theorem calm_now {c : Nat} (hat : (s.port port).strangerAt = some c) : c + 1000000000 ≤ (s.calm port).now := by
  unfold State.calm
  rw [hat]
  exact le_max_right _ _

theorem calm_keeps (s : State) (port : Nat) : (s.calm port).ports = s.ports ∧ (s.calm port).subPorts = s.subPorts := by
  unfold State.calm
  split
  · exact ⟨rfl, rfl⟩
  · exact ⟨rfl, rfl⟩

theorem strangerAttention_raises (hports : rising s.ports) (hport : port < 8) (hnew : s.strangers port ≠ (s.port port).strangerSum) :
    ∃ t, exec (.strangerAttention port) s = .next t ∧ t.hasEvent port 3 ∧
      t.port port = { s.port port with strangerAt := some t.now, strangerSum := s.strangers port } ∧
      (∀ c, (s.port port).strangerAt = some c → c + 1000000000 ≤ t.now) ∧ t.subPorts = s.subPorts := by
  obtain ⟨hkept, hsubs⟩ := calm_keeps s port
  have hcalm {c : Nat} (hat : (s.port port).strangerAt = some c) := calm_now hat
  have hexec : exec (.strangerAttention port) s = .next (((s.calm port).setPort port
      { s.port port with strangerAt := some (s.calm port).now, strangerSum := s.strangers port }).portEvent port 3) := by
    show execStrangerAttention port s = _
    unfold execStrangerAttention
    dsimp only
    rw [if_neg (by simp [hnew]; omega)]
    rfl
  rw [hexec]
  generalize s.calm port = u at *
  have hset := port_setPort (s := u) (hkept ▸ hports) port { s.port port with strangerAt := some u.now, strangerSum := s.strangers port }
  have hnow : (u.setPort port { s.port port with strangerAt := some u.now, strangerSum := s.strangers port }).now = u.now := rfl
  have hsubs' : (u.setPort port { s.port port with strangerAt := some u.now, strangerSum := s.strangers port }).subPorts = s.subPorts := hsubs
  generalize State.setPort u port _ = v at *
  refine ⟨_, rfl, portEvent_event _ _, ?_, fun c hc => ?_, (portEvent_subPorts _ _).trans hsubs'⟩
  · rw [State.port, portEvent_ports, portEvent_now, hnow]
    exact hset
  · rw [portEvent_now, hnow]
    exact hcalm hc

/-- Settles O43: each command of a link leaves what its own lemma says. -/
theorem linkCommands : Obligations.LinkCommands := by
  unfold Obligations.LinkCommands
  intro s hs
  have hsubs : rising s.subPorts := hs.tables.subPorts
  have hports : rising s.ports := hs.tables.ports
  dsimp only
  refine ⟨fun sub => ⟨linkUp_rises hsubs, trainRetry_counts hsubs, fun h => ⟨foreign_counts h true, foreign_counts h false⟩⟩, fun sub b => ?_,
    fun port => ?_, fun f hexists hup hip => ?_⟩
  · refine ⟨fun h => offer_accepts h, fun o h => accept_stands hsubs h, fun h => shadowReq_answers h,
      fun l n first last on h => shadowOn_marks h, fun l n first last => swapDone_own hports, fun h => swapDone_partner h, fun l => shadowOff_own hports,
      fun h => shadowOff_partner hports h⟩
  · refine ⟨offerRepeat_offers hsubs, fun sub c hcand hat => ⟨spareAssign_assigns hsubs hports hcand hat, lane8PatternTimeout_passes hsubs hcand hat⟩,
      fun lane hlane hp hup hgood => ⟨fun hon => laneFail_asks hports hp hlane hup hgood hon, fun hon => laneFail_downs hsubs hports hp hlane hup hgood hon,
        fun hoff => laneFail_reported hp hlane hup hgood hoff⟩, laneFail_eight hsubs hports,
      fun l n first last hrequest => ⟨shadowReqRepeat_ends hsubs hports hrequest, shadowReqRepeat_repeats hports hrequest⟩,
      strangerAttention_raises hports⟩
  · have hopen : ¬ (s.subExists f.sub = false ∨ (s.subPort f.sub).up = false ∨ (s.subPort f.sub).ip6 = []) := by simp [hexists, hup, hip]
    have hexec : exec (.arpNdIcmpFrame f) s = execArpNdIcmpFrame f s := rfl
    rw [hexec]
    unfold execArpNdIcmpFrame
    dsimp only
    rw [if_neg hopen]
    refine ⟨fun h3 => ?_, fun h2 hmine hne => ?_, fun h2 hmine hne => ?_, fun hother h3 => ?_⟩
    · rw [if_pos h3]
    · rw [if_neg (by omega), if_neg (by omega), if_neg (by simp [← hmine, hne]), if_neg (by omega), if_neg (by omega)]
      rfl
    · rw [if_neg (by omega), if_neg (by omega), if_neg (by simp [← hmine, hne]), if_pos h2, if_pos h2]
      rfl
    · rw [if_neg (by omega), if_neg (by omega), if_pos (.inl hother)]

end Sys2Proof.Machine
end

section
/-! Paths of associations: their timers, and the packets that leave on them. -/

namespace Sys2Proof.Machine

open Sys2Proof

variable {s u : State} {a path : Nat}

/-! ### Packets under a key -/

theorem sealSend_found {typ flags : Nat} {key : EpochKey} {body : List Byte} {p : KPath} (h : mfind (s.assoc a).paths path = some p) :
    ∃ bs, s.sealSend a path typ flags key body = (s.sample.1.setAssoc a ((s.assoc a).sealing path key p)).sendPacket a p bs := by
  unfold State.sealSend
  dsimp only
  rw [h]
  exact ⟨_, rfl⟩

theorem sendPacket_out (s : State) (a : Nat) (p : KPath) (bs : List Byte) :
    ∃ f, (s.sendPacket a p bs).out = .frame (p.sub / 4) (p.sub % 4) f :: s.out := ⟨_, rfl⟩

theorem sendPacket_assoc (h : rising s.assocs) (a : Nat) (p : KPath) (bs : List Byte) :
    (s.sendPacket a p bs).assoc a = (s.assoc a).counted :=
  (congrArg (fun m => mget ({} : Assoc) m a) (sendPacket_counts s a p bs).1).trans (assoc_setAssoc _ h)

theorem sendPacket_now (s : State) (a : Nat) (p : KPath) (bs : List Byte) : (s.sendPacket a p bs).now = s.now := rfl

/-- What a packet under a key leaves, where its path is in the table: the path's number and the key's counter advance, and a frame leaves. -/
structure State.Seals (a path : Nat) (key : EpochKey) (p : KPath) (s t : State) : Prop where
  assoc : t.assoc a = ((s.assoc a).sealing path key p).counted
  rise : rising t.assocs
  now : s.now ≤ t.now
  out : ∃ f, t.out = .frame (p.sub / 4) (p.sub % 4) f :: s.out
  stalled : t.stalled = s.stalled

theorem sealSend_seals {typ flags : Nat} {key : EpochKey} {body : List Byte} {p : KPath} (hr : rising s.assocs)
    (h : mfind (s.assoc a).paths path = some p) : s.Seals a path key p (s.sealSend a path typ flags key body) := by
  obtain ⟨bs, he⟩ := sealSend_found (typ := typ) (flags := flags) (key := key) (body := body) h
  have hset := assoc_setAssoc (s := s.sample.1) (a := a) ((s.assoc a).sealing path key p) hr
  have hrise := setAssoc_keeps_rising (s := s.sample.1) a ((s.assoc a).sealing path key p) hr
  have hnow : s.now ≤ (s.sample.1.setAssoc a ((s.assoc a).sealing path key p)).now := Nat.le_add_right _ _
  have hout : (s.sample.1.setAssoc a ((s.assoc a).sealing path key p)).out = s.out := rfl
  have hst : (s.sample.1.setAssoc a ((s.assoc a).sealing path key p)).stalled = s.stalled := rfl
  rw [he]
  generalize s.sample.1.setAssoc a _ = u at *
  obtain ⟨f, hf⟩ := sendPacket_out u a p bs
  exact ⟨by rw [sendPacket_assoc hrise, hset], (sendPacket_hails a p bs hrise).rise, hnow, ⟨f, by rw [hf, hout]⟩, hst⟩

theorem mfind_sealing {x : Assoc} {key : EpochKey} {p : KPath} :
    mfind (x.sealing path key p).counted.paths path = some { p with psn := (p.psn + 1) % 2 ^ 32 } := mfind_minsert_same _ _ _

/-! ### Timers -/

theorem ackDelay_acks {c : Nat} (h : (mget ({} : RxPath) (s.assoc a).rxPaths path).since = some c) :
    exec (.ackDelay a path) s = .next ((s.until (c + 5000)).sendAck a path 0) := by
  show execAckDelay a path s = _
  unfold execAckDelay
  rw [h]

theorem retxTimer_waits (hr : rising s.assocs) {psn : Nat} {p : SentPkt} {k : KPath} (hk : mfind (s.assoc a).paths path = some k)
    (hp : (s.assoc a).sent.find? (fun p => decide (p.path = path) && decide (p.psn = psn)) = some p) :
    ∃ t k', exec (.retxTimer a path psn) s = .next t ∧ p.at' + p.timer ≤ t.now ∧
      t.assoc a = { s.assoc a with
        paths := minsert (s.assoc a).paths path k', sent := (s.assoc a).sent.filter (fun q => decide (q ≠ p))
        retxQ := if p.segs = [] then (s.assoc a).retxQ else (s.assoc a).retxQ ++ [{ p with timer := min 10000000 (2 * p.timer) }] } ∧
      (k.changed + k.srtt ≤ t.now → k' = { k with rate := max (1 / 10) (k.rate * (1 / 2)), changed := t.now, good := 0, incr := 1 / 200 }) ∧
      (t.now < k.changed + k.srtt → k' = k) := by
  show ∃ t k', execRetxTimer a path psn s = _ ∧ _
  unfold execRetxTimer
  dsimp only
  rw [hp, hk]
  refine ⟨_, k.slow (s.until (p.at' + p.timer)).now (1 / 2), rfl, le_max_right _ _, assoc_setAssoc (s := s.until _) _ hr, fun hle => ?_, fun hlt => ?_⟩
  · exact if_pos hle
  · exact if_neg (Nat.not_le.2 hlt)

theorem segmentTimeout_fails (hs : s.Sound) {psn : Nat} {p : SentPkt}
    (hp : ((s.assoc a).sent ++ (s.assoc a).retxQ).find? (fun p => decide (p.path = path) && decide (p.psn = psn) && decide (p.segs ≠ [])) = some p)
    (hend : ((s.until (p.first + 100000000)).endAssoc a .failed 0x25).stalled = false) :
    ∃ t, exec (.segmentTimeout a path psn) s = .next t ∧ p.first + 100000000 ≤ t.now ∧ (t.assoc a).state = .failed ∧ (t.assoc a).keys = [] ∧
      (t.assoc a).sent = [] ∧ (t.assoc a).outMsgs = [] ∧ bit (t.func 0).assoc a = true := by
  have htables : (s.until (p.first + 100000000)).Tables := { hs.tables with }
  have htold := (endAssoc_parts htables a .failed 0x25).told
  have hended := endAssoc_ended htables.assocs a .failed 0x25
  have hnow := (State.Onward.endAssoc (a := a) (st := .failed) (reason := 0x25) (deep := 0)
    (.refl (deep := 1) false (s.until (p.first + 100000000)))).now
  show ∃ t, execSegmentTimeout a path psn s = _ ∧ _
  unfold execSegmentTimeout
  dsimp only
  rw [hp]
  dsimp only
  generalize State.endAssoc _ _ _ _ = v at hend htold hended hnow ⊢
  exact ⟨v, waits_of_served hend, (le_max_right _ _).trans hnow, congrArg Assoc.state hended, congrArg Assoc.keys hended,
    congrArg Assoc.sent hended, congrArg Assoc.outMsgs hended, htold⟩

/-- A path with one probe more under way. -/
def KPath.probing (k : KPath) (now : Nat) : KPath :=
  { k with probeAt := now, unanswered := k.unanswered + 1, live := k.live && decide (k.unanswered < 3) }

/-- An association with one probe more under way on a path. -/
def Assoc.probing (x : Assoc) (path : Nat) (k : KPath) (now : Nat) : Assoc := { x with
  paths := minsert x.paths path (k.probing now)
  sent := x.sent.filter (fun q => decide (q.path ≠ path) || decide (q.segs ≠ [])) ++
    [{ path, psn := k.psn, at' := now, first := now, timer := k.timer, size := 0, segs := [] }] }

theorem exec_probeTimer {k : KPath} {key : EpochKey} {keys : List EpochKey} (hk : mfind (s.assoc a).paths path = some k)
    (hkeys : (s.assoc a).keys = key :: keys) (hcarries : (s.assoc a).carries = true) (hup : (s.subPort k.sub).up = true)
    (hstill : (s.assoc a).moving path = false) (husable : (s.until (k.probeAt + 100000000)).keyUsable key = true) :
    exec (.probeTimer a path) s = .next (((s.until (k.probeAt + 100000000)).setAssoc a
      ((s.assoc a).probing path k (s.until (k.probeAt + 100000000)).now)).sealSend a path 3 1 key []) := by
  have hgo : ¬ ((s.subPort k.sub).up = false ∨ (s.assoc a).carries = false ∨ (s.assoc a).moving path = true ∨
      (s.until (k.probeAt + 100000000)).keyUsable key = false) := by simp [hup, hcarries, hstill, husable]
  show execProbeTimer a path s = _
  unfold execProbeTimer
  dsimp only
  split
  next k' key' keys' hk' hkeys' =>
    obtain rfl := Option.some.inj (hk.symm.trans hk')
    obtain rfl := (List.cons.inj (hkeys.symm.trans hkeys')).1
    rw [if_neg hgo]
    rfl
  next hnone => exact absurd hkeys (hnone k key keys hk)

theorem probeTimer_probes (hr : rising s.assocs) {k : KPath} {key : EpochKey} {keys : List EpochKey} (hk : mfind (s.assoc a).paths path = some k)
    (hkeys : (s.assoc a).keys = key :: keys) (hcarries : (s.assoc a).carries = true) (hup : (s.subPort k.sub).up = true)
    (hstill : (s.assoc a).moving path = false) (husable : (s.until (k.probeAt + 100000000)).keyUsable key = true) :
    ∃ t k', exec (.probeTimer a path) s = .next t ∧ mfind (t.assoc a).paths path = some k' ∧ k.probeAt + 100000000 ≤ k'.probeAt ∧
      k'.unanswered = k.unanswered + 1 ∧ k'.live = (k.live && decide (k.unanswered < 3)) ∧ k'.psn = (k.psn + 1) % 2 ^ 32 ∧
      ∃ f, t.out = .frame (k.sub / 4) (k.sub % 4) f :: s.out := by
  rw [exec_probeTimer hk hkeys hcarries hup hstill husable]
  have hprobe : k.probeAt + 100000000 ≤ (s.until (k.probeAt + 100000000)).now := le_max_right _ _
  have hout : (s.until (k.probeAt + 100000000)).out = s.out := rfl
  have hrise : rising (s.until (k.probeAt + 100000000)).assocs := hr
  generalize s.until (k.probeAt + 100000000) = v at *
  have hset := assoc_setAssoc (a := a) ((s.assoc a).probing path k v.now) hrise
  have hfind : mfind ((v.setAssoc a ((s.assoc a).probing path k v.now)).assoc a).paths path = some (k.probing v.now) := by
    rw [hset]
    exact mfind_minsert_same _ _ _
  have hseals := sealSend_seals (typ := 3) (flags := 1) (key := key) (body := []) (setAssoc_keeps_rising a _ hrise) hfind
  refine ⟨_, { k.probing v.now with psn := (k.psn + 1) % 2 ^ 32 }, rfl, ?_, hprobe, rfl, rfl, rfl, ?_⟩
  · rw [hseals.assoc]
    exact mfind_sealing
  · obtain ⟨f, hf⟩ := hseals.out
    exact ⟨f, hf.trans (congrArg _ hout)⟩

theorem resolve_assocs (s : State) (k : KPath) : (s.resolve k).assocs = s.assocs := (congrArg State.assocs (resolve_off s k) :)

theorem pathMove_moves (hr : rising s.assocs) {k : Option KPath} {rest : Map (Option KPath)} (hmove : (s.assoc a).pathMove = (path, k) :: rest) :
    ∃ t, exec (.pathMove a path) s = .next t ∧ (∀ b, b ≠ a → t.assoc b = s.assoc b) ∧
      (∀ new, k = some new → t.assoc a = { s.assoc a with
        paths := minsert (s.assoc a).paths path (match mfind (s.assoc a).paths path with
          | some old => { new with psn := old.psn }
          | none => new)
        pathMove := rest }) ∧
      (k = none → (t.assoc a).paths = merase (s.assoc a).paths path ∧ (t.assoc a).pathMove = rest ∧
        ∀ p ∈ (t.assoc a).sent, p ∈ (s.assoc a).sent ∧ p.path ≠ path) := by
  show ∃ t, execPathMove a path s = _ ∧ _
  unfold execPathMove
  dsimp only
  rw [hmove]
  dsimp only
  rw [if_neg (by simp)]
  cases k with
  | some new =>
    dsimp only
    refine ⟨_, rfl, fun b hb => ?_, fun n hn => ?_, fun h => nomatch h⟩
    · rw [State.assoc, resolve_assocs]
      exact assoc_setAssoc_other _ hb hr
    · obtain rfl := Option.some.inj hn
      rw [State.assoc, resolve_assocs]
      exact assoc_setAssoc _ hr
  | none =>
    refine ⟨_, rfl, fun b hb => assoc_setAssoc_other _ hb hr, fun n hn => absurd hn.symm (Option.some_ne_none n), fun _ => ?_⟩
    rw [assoc_setAssoc _ hr]
    refine ⟨rfl, rfl, fun p hp => ?_⟩
    obtain ⟨hsent, hgone⟩ := List.mem_filter.1 hp
    refine ⟨hsent, fun hpath => ?_⟩
    simp [hsent, hpath] at hgone

end Sys2Proof.Machine
end

section
/-! Settled: how a work entry becomes a message, how packets leave, and the timers of paths and segments. -/

namespace Sys2Proof.Machine

open Sys2Proof

variable {s u : State} {a room path : Nat}

/-! ### Packets that leave (R323, R324) -/

/-- A bucket without a burst admits everything, and only the refilling of the buckets is seen (R249). -/
theorem charge_unlimited {r q : Nat} (bytes : Nat) (h : (s.bucket (16 * r + q)).burst = 0) : s.charge r q bytes = s.refill := by
  have hburst : (s.refill.bucket (16 * r + q)).burst = 0 := by
    rw [← h]
    exact mget_mmapVals_keeps (g := Bucket.burst) (f := fun k b =>
      { b with level := min (b.level + ((b.rate * s.resourceRate (k / 16) * (s.now - s.bucketTime) : Nat) : Int)) ((b.burst * 10485760 : Nat) : Int) })
      (fun _ _ => rfl) _ _ _
  unfold State.charge
  dsimp only
  rw [if_pos hburst]

theorem packSegs_one {room : Nat} {g : Seg} (h : 32 + g.data.length ≤ room) : packSegs room [g] = ([g], []) := by
  simp [packSegs, Nat.not_lt.2 h]

theorem foldl_best_mem (es : Map KPath) (e : Nat × KPath) :
    es.foldl (fun b e => if b.2.credit < e.2.credit then e else b) e ∈ e :: es := by
  induction es generalizing e with
  | nil => exact List.mem_cons_self
  | cons f es ih =>
    rw [List.foldl_cons]
    rcases List.mem_cons.1 (ih (if e.2.credit < f.2.credit then f else e)) with h | h
    · rw [h]
      split
      · exact List.mem_cons_of_mem _ List.mem_cons_self
      · exact List.mem_cons_self
    · exact List.mem_cons_of_mem _ (List.mem_cons_of_mem _ h)

/-- The path whose turn it is is one of those that may send. -/
theorem spray_ready {ready fed : Map KPath} (h : spray ready = some (path, fed)) : ∃ k, (path, k) ∈ ready := by
  unfold spray at h
  dsimp only at h
  split at h
  · exact absurd h.symm (Option.some_ne_none _)
  next e es hfed =>
    have hmem := foldl_best_mem es e
    rw [← hfed] at hmem
    obtain ⟨f, hf, he⟩ := List.mem_map.1 hmem
    have hpath : (es.foldl (fun b e => if b.2.credit < e.2.credit then e else b) e).1 = path := congrArg Prod.fst (Option.some.inj h)
    refine ⟨f.2, ?_⟩
    rw [← hpath, ← he]
    exact hf

/-- The state in which a packet that has left under a key counts as sent. -/
def State.noteSent (s : State) (a : Nat) (p : SentPkt) : State :=
  s.setAssoc a { s.assoc a with sent := (s.assoc a).sent ++ [p], retx := ((s.assoc a).retx + 0) % 2 ^ 64 }

theorem noteSent_stalled (w : State) (a : Nat) (p : SentPkt) (sub : Nat) : ((w.noteSent a p).subCount sub 4 0).stalled = w.stalled := rfl

theorem sealSend_served {typ flags : Nat} {key : EpochKey} {bs : List Byte} (h : s.stalled = false) :
    (s.sealSend a path typ flags key bs).stalled = false :=
  (State.Onward.sealSend (deep := 0) (.refl true s)).stalled rfl h

theorem refilled_served (h : u.stalled = false) (n a : Nat) (y : Assoc) : ((u.until n).refill.setAssoc a y).stalled = false := h

theorem kftSend_packet {fed : Map KPath} {k : KPath} {key : EpochKey} {keys : List EpochKey} {g : Seg} (hs : s.stalled = false) :
    let u := s.queueLandings a
    let x := u.assoc a
    x.carries = true → spray (x.paths.filter (fun e => u.pathReady x e.1)) = some (path, fed) → mfind fed path = some k → x.keys = key :: keys →
    x.retxQ = [] → x.sendQ = [g] → (u.bucket (16 * (32 + k.sub / 4) + x.part)).burst = 0 → 32 + g.data.length ≤ room →
    32 + g.data.length ≤ (u.port (k.sub / 4)).mtu - (if k.peer.length = 4 then 20 else 40) - 8 - 40 →
    ∃ (y : Assoc) (n : Nat) (bs : List Byte) (p : SentPkt),
      exec (.kftSend a room) s = .next (((((u.until k.nextAt).refill.setAssoc a y).sealSend a path 1 0 key bs).noteSent a p).subCount k.sub 4 0) ∧
      mfind y.paths path = some { k with nextAt := n } ∧ y.sendQ = [] ∧ y.sent = x.sent ∧ y.txPkts = x.txPkts ∧
      p.path = path ∧ p.psn = k.psn ∧ p.segs = [g] ∧ p.at' = (((u.until k.nextAt).refill.setAssoc a y).sealSend a path 1 0 key bs).now := by
  have hserved : (s.queueLandings a).stalled = false := (State.Onward.queueLandings (deep := 3) (.refl true s)).stalled rfl hs
  intro u x hcarries hspray hk hkeys hretx hsend hburst hroom hmtu
  have hexec : exec (.kftSend a room) s = execKftSend a room s := rfl
  rw [hexec]
  unfold execKftSend
  extract_lets ready others retx
  have hothers : others = [] := by
    unfold others
    split
    next l ls hl => exact absurd (hl.symm.trans hretx) (List.cons_ne_nil _ _)
    · rfl
  rw [if_neg (by simp [hcarries]), hothers, if_pos rfl]
  split
  next path' fed' key' keys' hspray' hkeys' =>
    obtain ⟨rfl, rfl⟩ := Prod.mk.inj (Option.some.inj (hspray.symm.trans hspray'))
    obtain rfl := (List.cons.inj (hkeys.symm.trans hkeys')).1
    split
    next hnone => exact absurd (hk.symm.trans hnone) (Option.some_ne_none _)
    next k' hk' =>
      obtain rfl := Option.some.inj (hk.symm.trans hk')
      extract_lets room'
      have hroom' : 32 + g.data.length ≤ room' := le_min hroom hmtu
      have hretx' : retx = false := by simp [retx, hretx]
      split
      next segs first timer y heq =>
        split at heq
        next l ls hl => exact absurd (hl.symm.trans hretx) (List.cons_ne_nil _ _)
        next =>
          rw [hsend, packSegs_one hroom'] at heq
          obtain ⟨rfl, rfl, rfl, rfl⟩ : [g] = segs ∧ _ = first ∧ _ = timer ∧ _ = y := by simpa using heq
          rw [if_neg (List.cons_ne_nil _ _)]
          extract_lets body size v next paths w p y
          have hv : v = (u.until k.nextAt).refill := charge_unlimited size hburst
          have hw : w = (((u.until k.nextAt).refill.setAssoc a { x with sendQ := [], paths := paths }).sealSend a path 1 0 key body) := by
            unfold w
            rw [hretx', hv]
            rfl
          have hfind : mfind paths path = some { k with nextAt := next } := mfind_minsert_same _ _ _
          clear_value paths body size next
          have hlast : (w.setAssoc a { y with sent := y.sent ++ [p], retx := (y.retx + b2n retx) % 2 ^ 64 }).subCount k.sub 4 (b2n retx) =
              (w.noteSent a p).subCount k.sub 4 0 := by
            rw [hretx']
            rfl
          rw [hlast]
          have hp : p.path = path ∧ p.psn = k.psn ∧ p.segs = [g] ∧ p.at' = w.now := ⟨rfl, rfl, rfl, rfl⟩
          clear_value p w
          have hstalled : w.stalled = false := by
            rw [hw]
            exact sealSend_served (refilled_served (u := u) hserved _ _ _)
          rw [waits_of_served ((noteSent_stalled w a p k.sub).trans hstalled)]
          obtain ⟨hpath, hpsn, hsegs, hat⟩ := hp
          exact ⟨{ x with sendQ := [], paths := paths }, next, body, p, by rw [← hw], hfind, rfl, rfl, rfl, hpath, hpsn, hsegs, by rw [← hw, hat]⟩
  next hnone => exact absurd hkeys (hnone path fed key keys hspray)

theorem kftSend_idle (hs : s.stalled = false)
    (hidle : ((s.queueLandings a).assoc a).carries = false ∨
      ((s.queueLandings a).assoc a).paths.filter (fun e => (s.queueLandings a).pathReady ((s.queueLandings a).assoc a) e.1) = []) :
    exec (.kftSend a room) s = .next (s.queueLandings a) := by
  have hserved : (s.queueLandings a).stalled = false := (State.Onward.queueLandings (deep := 3) (.refl true s)).stalled rfl hs
  show execKftSend a room s = _
  refine (congrArg s.waits (?_ : _ = .next (s.queueLandings a))).trans (waits_of_served hserved)
  extract_lets u x ready others
  split
  · rfl
  next hcarries =>
    have hready : ready = [] := hidle.resolve_left hcarries
    have hothers : others = [] := by
      unfold others
      split
      · rw [hready]
        rfl
      · rfl
    rw [hothers, if_pos rfl, hready]
    rfl

theorem noteSent_assoc (h : rising s.assocs) (p : SentPkt) (sub : Nat) : ((s.noteSent a p).subCount sub 4 0).assoc a =
    { s.assoc a with sent := (s.assoc a).sent ++ [p], retx := ((s.assoc a).retx + 0) % 2 ^ 64 } := assoc_setAssoc _ h

theorem noteSent_out (w : State) (a : Nat) (p : SentPkt) (sub : Nat) : ((w.noteSent a p).subCount sub 4 0).out = w.out := rfl

/-- What the packet of `KFT_SEND` leaves: one message segment is on its way on the path whose turn it is. -/
theorem kftSend_sends (hs : s.Sound) {fed : Map KPath} {k : KPath} {key : EpochKey} {keys : List EpochKey} {g : Seg} :
    let u := s.queueLandings a
    let x := u.assoc a
    x.carries = true → spray (x.paths.filter (fun e => u.pathReady x e.1)) = some (path, fed) → mfind fed path = some k → x.keys = key :: keys →
    x.retxQ = [] → x.sendQ = [g] → (u.bucket (16 * (32 + k.sub / 4) + x.part)).burst = 0 → 32 + g.data.length ≤ room →
    32 + g.data.length ≤ (u.port (k.sub / 4)).mtu - (if k.peer.length = 4 then 20 else 40) - 8 - 40 →
    ∃ t, exec (.kftSend a room) s = .next t ∧ u.pathReady x path = true ∧ (t.assoc a).sendQ = [] ∧ (t.assoc a).txPkts = (x.txPkts + 1) % 2 ^ 64 ∧
      ∃ p, (t.assoc a).sent = x.sent ++ [p] ∧ p.path = path ∧ p.psn = k.psn ∧ p.segs = [g] ∧ u.now ≤ p.at' ∧
        ∃ f, t.out = .frame (k.sub / 4) (k.sub % 4) f :: u.out := by
  have hpacket := kftSend_packet (a := a) (room := room) (path := path) (fed := fed) (k := k) (key := key) (keys := keys) (g := g) hs.served
  have hrise : rising (s.queueLandings a).assocs :=
    ((State.Onward.queueLandings (a := a) (deep := 3) (.refl true s)).tables hs.tables).assocs
  intro u x hcarries hspray hk hkeys hretx hsend hburst hroom hmtu
  obtain ⟨y, n, bs, p, hexec, hfind, hsendQ, hsent, htx, hpath, hpsn, hsegs, hat⟩ :=
    hpacket hcarries hspray hk hkeys hretx hsend hburst hroom hmtu
  have hready : u.pathReady x path = true := by
    obtain ⟨k', hmem⟩ := spray_ready hspray
    exact (List.mem_filter.1 hmem).2
  have hvrise : rising (u.until k.nextAt).refill.assocs := hrise
  have hvnow : u.now ≤ (u.until k.nextAt).refill.now := le_max_left _ _
  have hvout : (u.until k.nextAt).refill.out = u.out := rfl
  generalize (u.until k.nextAt).refill = v at *
  have hset := assoc_setAssoc (a := a) y hvrise
  have hseals := sealSend_seals (typ := 1) (flags := 0) (key := key) (body := bs) (setAssoc_keeps_rising a y hvrise)
    (by rw [hset]; exact hfind)
  generalize (v.setAssoc a y).sealSend a path 1 0 key bs = w at *
  obtain ⟨hassoc, hwrise, hnow, ⟨f, hf⟩, -⟩ := hseals
  rw [hset] at hassoc
  have hnote := noteSent_assoc (a := a) hwrise p k.sub
  refine ⟨_, hexec, hready, ?_, ?_, p, ?_, hpath, hpsn, hsegs, ?_, f, ?_⟩
  · rw [hnote, hassoc]
    exact hsendQ
  · rw [hnote, hassoc, ← htx]
    rfl
  · rw [hnote, hassoc, ← hsent]
    rfl
  · rw [hat]
    exact hvnow.trans hnow
  · rw [noteSent_out, hf]
    exact congrArg _ hvout

/-! ### Work entries (R316, R317) -/

section
variable {ctx queue op : Nat} {e : List Byte} {q : SendQueue}

/-- The operations that a command's queue entry may be of: its own, or a reserved one. -/
def State.isOp (op : Nat) (e : List Byte) : Bool := decide (field e 0 1 = op) || decide (field e 0 1 = 0) || decide (4 < field e 0 1)

theorem sendQueue_setSendQueue_of_live (s : State) (key : Nat) {q : SendQueue} (h : q.live = true) : (s.setSendQueue key q).sendQueue key = q := by
  refine mget_mset_same_of_ne _ _ fun he => ?_
  rw [he] at h
  exact Bool.false_ne_true h

theorem setSendQueue_twice (s : State) (key : Nat) {q r : SendQueue} (hq : q.live = true) (hr : r.live = true) :
    (s.setSendQueue key q).setSendQueue key r = s.setSendQueue key r := by
  have hne {q : SendQueue} (h : q.live = true) : q ≠ {} := fun he => by
    rw [he] at h
    exact Bool.false_ne_true h
  simp only [State.setSendQueue, mset, if_neg (hne hq), if_neg (hne hr), minsert_minsert_same]

theorem takeEntry_next (hlive : (s.sendQueue (8 * ctx + queue)).live = true) (hgo : (s.sendQueue (8 * ctx + queue)).stopped = false)
    (hawake : (s.sendQueue (8 * ctx + queue)).awake = true) (hnone : (s.sendQueue (8 * ctx + queue)).entries = [])
    (hroom : (s.assoc (s.sendQueue (8 * ctx + queue)).assoc).outMsgs.length < 4096) :
    s.takeEntry ctx queue op = s.nextEntry ctx queue (s.sendQueue (8 * ctx + queue)) (State.isOp op) := by
  have hwake : s.wakeQueue ctx queue = s := by simp [State.wakeQueue, hawake]
  unfold State.takeEntry
  dsimp only
  rw [hwake, if_neg (by simp [hlive, hgo]; omega)]
  simp only [SendQueue.due, hnone, List.find?_nil, hawake, if_true]
  rfl

/-- The ring's next place reads as the entry `e`, and `u` is the state after the read. -/
def State.ReadsEntry (s : State) (ctx : Nat) (q : SendQueue) (u : State) (e : List Byte) : Prop :=
  s.vaRead (kftEngine ctx) (q.ring + 64 * (q.taken % 2 ^ q.log2)) 64 = (u, .ok e)

theorem nextEntry_sleeps (hread : s.ReadsEntry ctx q u e) (hphase : field e 1 1 % 2 = q.taken / 2 ^ q.log2 % 2) (mine : List Byte → Bool) :
    s.nextEntry ctx queue q mine = (u.dropHeld (ringReader ctx queue)).setSendQueue (8 * ctx + queue) { q with awake := false } := by
  unfold State.ReadsEntry at hread
  unfold State.nextEntry
  dsimp only
  rw [hread]
  dsimp only [State.orHeld]
  rw [if_pos (by omega)]

/-- An entry as it is taken from its ring. -/
def SendQueue.takes (q : SendQueue) (no : Nat) (e : List Byte) : WorkEntry := { k := q.taken, no, bytes := e, held := false, sent := true }

/-- The state in which the entry of a ring that was empty counts as taken. -/
def State.tookEntry (s : State) (ctx queue : Nat) (q : SendQueue) (e : List Byte) : State :=
  { s.setSendQueue (8 * ctx + queue) { q with taken := q.taken + 1, entries := [q.takes s.nextWork e] } with
    nextWork := s.nextWork + 1, kftOpen := s.kftOpen ++ [(ctx, s.nextWork)] }

theorem tookEntry_queue (hlive : q.live = true) : (s.tookEntry ctx queue q e).sendQueue (8 * ctx + queue) =
    { q with taken := q.taken + 1, entries := [q.takes s.nextWork e] } :=
  sendQueue_setSendQueue_of_live s _ hlive

/-- The message that an entry becomes, beside its number. -/
def outMsgOf (ctx queue no : Nat) (e : List Byte) (mop : Nat) : OutMsg :=
  { seq := 0, mop, ctx, queue, entry := some no, no, addr := field e 8 8, len := field e 4 4 }

/-- The operation that the message of an entry asks for (Table 12-6). -/
def mopOf (op : Nat) : Nat := if op = 1 then 1 else if op = 2 then 2 else if op = 3 then 4 else 7

/-- The segment that an entry becomes, beside its number. -/
def segOf (e : List Byte) (op : Nat) (data : List Byte) : Seg := {
  mop := mopOf op, seq := 0, total := if op ≤ 2 then field e 4 4 else if op = 3 then 16 else 0, addr := field e 16 8
  arg := if op = 3 then field e 2 1 else if op = 4 then field e 24 8 else 0, data }

/-- The state in which an entry is marked as sent. -/
def State.markSent (s : State) (ctx queue no : Nat) : State :=
  s.setSendQueue (8 * ctx + queue) { s.sendQueue (8 * ctx + queue) with
    entries := (s.sendQueue (8 * ctx + queue)).entries.map (fun e => if e.no = no then { e with held := false, sent := !false } else e) }

section
variable {w : WorkEntry} (hok : entryOk w.bytes = true)
  (hup : ¬ (((s.markSent ctx queue w.no).assoc (s.sendQueue (8 * ctx + queue)).assoc).live = false ∨
    ((s.markSent ctx queue w.no).assoc (s.sendQueue (8 * ctx + queue)).assoc).state = .failed ∨
    ((s.markSent ctx queue w.no).assoc (s.sendQueue (8 * ctx + queue)).assoc).state = .idle))
include hok hup

theorem sendEntry_write {v : State} {bs : List Byte} (hop : field w.bytes 0 1 = 1)
    (hread : (s.markSent ctx queue w.no).vaRead (kftEngine ctx) (field w.bytes 8 8) (field w.bytes 4 4) = (v, .ok bs)) :
    s.sendEntry ctx queue w = (v.dropHeld (entryReader w.no)).newMessage (s.sendQueue (8 * ctx + queue)).assoc (outMsgOf ctx queue w.no w.bytes 1)
      (segOf w.bytes 1 bs) := by
  unfold State.sendEntry
  extract_lets key q mark t e op x remote m
  have ht : t = s.markSent ctx queue w.no := rfl
  have hup' : ¬ (x.live = false ∨ x.state = .failed ∨ x.state = .idle) := hup
  rw [if_neg (by simp [e, hok]), if_neg hup', show op = 1 from hop]
  dsimp only
  rw [ht, hread]
  rfl

theorem sendEntry_plain {data : List Byte} (hop : field w.bytes 0 1 = op) (h1 : 2 ≤ op) (h4 : op ≤ 4)
    (hdata : data = if op = 3 then be 8 (field w.bytes 24 8) ++ be 8 (field w.bytes 32 8) else []) :
    s.sendEntry ctx queue w = (s.markSent ctx queue w.no).newMessage (s.sendQueue (8 * ctx + queue)).assoc
      (outMsgOf ctx queue w.no w.bytes (mopOf op)) (segOf w.bytes op data) := by
  subst hdata
  unfold State.sendEntry
  extract_lets key q mark t e op' x remote m
  have hup' : ¬ (x.live = false ∨ x.state = .failed ∨ x.state = .idle) := hup
  rw [if_neg (by simp [e, hok]), if_neg hup', show op' = op from hop]
  obtain rfl | rfl | rfl : op = 2 ∨ op = 3 ∨ op = 4 := by omega
  · rfl
  · rfl
  · rfl

end

theorem nextEntry_takes (hnone : q.entries = []) (hread : s.ReadsEntry ctx q u e)
    (hphase : field e 1 1 % 2 ≠ q.taken / 2 ^ q.log2 % 2) {mine : List Byte → Bool} (hmine : mine e = true) :
    ∃ w : WorkEntry, w = { k := q.taken, no := (u.dropHeld (ringReader ctx queue)).nextWork, bytes := e, held := false } ∧
      s.nextEntry ctx queue q mine = ({ (u.dropHeld (ringReader ctx queue)).setSendQueue (8 * ctx + queue)
            { q with taken := q.taken + 1, entries := [w] } with
          nextWork := (u.dropHeld (ringReader ctx queue)).nextWork + 1
          kftOpen := (u.dropHeld (ringReader ctx queue)).kftOpen ++ [(ctx, w.no)] } : State).sendEntry ctx queue w := by
  refine ⟨_, rfl, ?_⟩
  unfold State.ReadsEntry at hread
  unfold State.nextEntry
  dsimp only
  rw [hread]
  dsimp only [State.orHeld]
  rw [if_neg (by omega), if_neg (by simp [hmine]), if_neg (by simp [hnone]), hnone]
  simp only [ne_eq, not_true_eq_false, decide_false, Bool.and_false, List.nil_append]

end

end Sys2Proof.Machine
end

section
/-! Settled: work entries, sending, and the timers of paths and associations (R316, R317, R321 to R324, R331, R332). -/

namespace Sys2Proof.Machine

open Sys2Proof

section
variable {s u v : State} {ctx queue op : Nat} {e : List Byte} {q : SendQueue}

/-- The state in which an entry has just been taken, before its message is queued. -/
def State.holdEntry (s : State) (ctx queue : Nat) (q : SendQueue) (w : WorkEntry) : State :=
  { s.setSendQueue (8 * ctx + queue) { q with taken := q.taken + 1, entries := [w] } with
    nextWork := s.nextWork + 1, kftOpen := s.kftOpen ++ [(ctx, w.no)] }

theorem holdEntry_queue (hlive : q.live = true) (w : WorkEntry) :
    (s.holdEntry ctx queue q w).sendQueue (8 * ctx + queue) = { q with taken := q.taken + 1, entries := [w] } :=
  sendQueue_setSendQueue_of_live s _ hlive

theorem holdEntry_assoc (w : WorkEntry) (a : Nat) : (s.holdEntry ctx queue q w).assoc a = s.assoc a := rfl

theorem holdEntry_twice (hlive : q.live = true) (w w' : WorkEntry) (hno : w'.no = w.no) :
    (s.holdEntry ctx queue q w).setSendQueue (8 * ctx + queue) { q with taken := q.taken + 1, entries := [w'] } = s.holdEntry ctx queue q w' := by
  have htwice := setSendQueue_twice s (8 * ctx + queue) (q := { q with taken := q.taken + 1, entries := [w] })
    (r := { q with taken := q.taken + 1, entries := [w'] }) hlive hlive
  unfold State.holdEntry
  rw [hno, ← htwice]
  rfl

/-- An entry that has been taken and is marked as sent stands in its queue as the statement's `taken` has it. -/
theorem holdEntry_markSent (hlive : q.live = true) {w : WorkEntry} (hw : w = { k := q.taken, no := s.nextWork, bytes := e, held := false }) :
    (s.holdEntry ctx queue q w).markSent ctx queue w.no = s.tookEntry ctx queue q e := by
  unfold State.markSent
  rw [holdEntry_queue hlive]
  simp only [List.map_cons, List.map_nil, if_true]
  rw [holdEntry_twice hlive w _ (by simp), hw]
  rfl

theorem entryOk_op (h : entryOk e = true) : 1 ≤ field e 0 1 ∧ field e 0 1 ≤ 4 := by
  unfold entryOk at h
  simp only [Bool.and_eq_true, decide_eq_true_eq] at h
  omega

/-- The command of an operation's entry is the operation's own. -/
theorem isOp_field (e : List Byte) : State.isOp (field e 0 1) e = true := by simp [State.isOp]

theorem tookEntry_assoc (a : Nat) : (s.tookEntry ctx queue q e).assoc a = s.assoc a := rfl

theorem newMessage_hbm (a : Nat) (m : OutMsg) (g : Seg) : (s.newMessage a m g).hbm = s.hbm := rfl

theorem newMessage_sendQueue (a : Nat) (m : OutMsg) (g : Seg) (k : Nat) : (s.newMessage a m g).sendQueue k = s.sendQueue k := rfl

theorem newMessage_stalled (a : Nat) (m : OutMsg) (g : Seg) : (s.newMessage a m g).stalled = s.stalled := rfl

theorem newMessage_assoc (h : rising s.assocs) (a : Nat) (m : OutMsg) (g : Seg) : (s.newMessage a m g).assoc a = { s.assoc a with
    nextSeq := ((s.assoc a).nextSeq + 1) % 2 ^ 32, outMsgs := (s.assoc a).outMsgs ++ [{ m with seq := (s.assoc a).nextSeq }]
    sendQ := (s.assoc a).sendQ ++ [{ g with seq := (s.assoc a).nextSeq }] } := assoc_setAssoc _ h

/-- What one entry of a ring leaves when it is taken and becomes a message: the state `v` is where its bytes have been read, in `t` it is queued. -/
structure State.Entered (s v t : State) (ctx queue : Nat) (q : SendQueue) (e : List Byte) (bs : List Byte) : Prop where
  taken : (t.sendQueue (8 * ctx + queue)).taken = q.taken + 1
  entries : (t.sendQueue (8 * ctx + queue)).entries = [q.takes s.nextWork e]
  hbm : t.hbm = v.hbm
  nextSeq : (t.assoc q.assoc).nextSeq = ((s.assoc q.assoc).nextSeq + 1) % 2 ^ 32
  outMsgs : (t.assoc q.assoc).outMsgs.length = (s.assoc q.assoc).outMsgs.length + 1
  sendQ : (t.assoc q.assoc).sendQ = (s.assoc q.assoc).sendQ ++ [{ segOf e (field e 0 1) bs with seq := (s.assoc q.assoc).nextSeq }]

/-- A message queued where the queues and the associations are those of the entry taken. -/
theorem newMessage_entered {w : State} {m : OutMsg} {bs : List Byte} (hlive : q.live = true) (hrise : rising s.assocs)
    (hassocs : w.assocs = s.assocs) (hqueues : w.queues = (s.tookEntry ctx queue q e).queues) (hhbm : w.hbm = v.hbm) :
    s.Entered v (w.newMessage q.assoc m (segOf e (field e 0 1) bs)) ctx queue q e bs := by
  have hqueue : w.sendQueue (8 * ctx + queue) = { q with taken := q.taken + 1, entries := [q.takes s.nextWork e] } := by
    have h : w.sendQueue (8 * ctx + queue) = (s.tookEntry ctx queue q e).sendQueue (8 * ctx + queue) := by simp only [State.sendQueue, hqueues]
    exact h.trans (tookEntry_queue hlive)
  have hassoc : w.assoc q.assoc = s.assoc q.assoc := by simp only [State.assoc, hassocs]
  have hnew := newMessage_assoc (s := w) (by rw [hassocs]; exact hrise) q.assoc m (segOf e (field e 0 1) bs)
  rw [hassoc] at hnew
  refine ⟨?_, ?_, (newMessage_hbm _ _ _).trans hhbm, ?_, ?_, ?_⟩
  · rw [newMessage_sendQueue, hqueue]
  · rw [newMessage_sendQueue, hqueue]
  · rw [hnew]
  · rw [hnew]
    simp
  · rw [hnew]

/-- What the read of a work entry or of its data leaves as it is. -/
theorem Onward.access_of (h : State.Onward false 0 s u) : u.assocs = s.assocs ∧ u.queues = s.queues ∧ u.nextWork = s.nextWork := by
  have ha := h.access rfl
  exact ⟨(congrArg State.assocs ha :), (congrArg State.queues ha :), (congrArg State.nextWork ha :)⟩

theorem vaRead_access (w : Requester) (va n : Nat) (r : Reader) : ((s.vaRead w va n).1.dropHeld r).assocs = s.assocs ∧
    ((s.vaRead w va n).1.dropHeld r).queues = s.queues ∧ ((s.vaRead w va n).1.dropHeld r).nextWork = s.nextWork :=
  Onward.access_of (State.Onward.dropHeld (.vaRead (.refl false s)))

/-- An entry that is taken from its ring becomes a message, its data read as the operation says. -/
theorem sendEntry_entered (hlive : q.live = true) (hrise : rising s.assocs) (hok : entryOk e = true)
    (hx : (s.assoc q.assoc).live = true) (hfailed : (s.assoc q.assoc).state ≠ .failed) (hidle : (s.assoc q.assoc).state ≠ .idle)
    {w : WorkEntry} (hw : w = { k := q.taken, no := s.nextWork, bytes := e, held := false }) {bs : List Byte}
    (hread : if field e 0 1 = 1 then (s.tookEntry ctx queue q e).vaRead (kftEngine ctx) (field e 8 8) (field e 4 4) = (v, .ok bs)
      else v = s.tookEntry ctx queue q e ∧ bs = if field e 0 1 = 3 then be 8 (field e 24 8) ++ be 8 (field e 32 8) else []) :
    ((s.holdEntry ctx queue q w).sendEntry ctx queue w).stalled = v.stalled ∧
      s.Entered v ((s.holdEntry ctx queue q w).sendEntry ctx queue w) ctx queue q e bs := by
  have hmark := holdEntry_markSent (ctx := ctx) (queue := queue) hlive hw
  have hqueue := congrArg SendQueue.assoc (holdEntry_queue (s := s) (ctx := ctx) (queue := queue) hlive w)
  have hbytes : w.bytes = e := by rw [hw]
  have hup : ¬ ((((s.holdEntry ctx queue q w).markSent ctx queue w.no).assoc ((s.holdEntry ctx queue q w).sendQueue (8 * ctx + queue)).assoc).live = false ∨
      (((s.holdEntry ctx queue q w).markSent ctx queue w.no).assoc ((s.holdEntry ctx queue q w).sendQueue (8 * ctx + queue)).assoc).state = .failed ∨
      (((s.holdEntry ctx queue q w).markSent ctx queue w.no).assoc ((s.holdEntry ctx queue q w).sendQueue (8 * ctx + queue)).assoc).state = .idle) := by
    rw [hmark, hqueue, tookEntry_assoc]
    simp [hx, hfailed, hidle]
  obtain ⟨h1, h4⟩ := entryOk_op hok
  by_cases hop : field e 0 1 = 1
  · rw [if_pos hop] at hread
    obtain ⟨hassocs, hqueues, -⟩ := vaRead_access (s := s.tookEntry ctx queue q e) (kftEngine ctx) (field e 8 8) (field e 4 4) (entryReader w.no)
    rw [hread] at hassocs hqueues
    rw [sendEntry_write (by rw [hbytes]; exact hok) hup (by rw [hbytes]; exact hop) (by rw [hmark, hbytes]; exact hread), hqueue, hbytes]
    refine ⟨dropHeld_stalled _, ?_⟩
    rw [← hop]
    exact newMessage_entered hlive hrise hassocs hqueues (dropHeld_keeps v _).2.1
  · rw [if_neg hop] at hread
    obtain ⟨rfl, hbs⟩ := hread
    rw [sendEntry_plain (by rw [hbytes]; exact hok) hup rfl (by rw [hbytes]; omega) (by rw [hbytes]; exact h4) (by rw [hbytes]), hqueue, hbytes, hmark, hbs]
    exact ⟨rfl, newMessage_entered (w := s.tookEntry ctx queue q e) hlive hrise rfl rfl rfl⟩

/-- A send queue that is awake and empty, with an association that has room for a message. -/
structure State.Listens (s : State) (ctx queue : Nat) : Prop where
  live : (s.sendQueue (8 * ctx + queue)).live = true
  going : (s.sendQueue (8 * ctx + queue)).stopped = false
  awake : (s.sendQueue (8 * ctx + queue)).awake = true
  empty : (s.sendQueue (8 * ctx + queue)).entries = []
  room : (s.assoc (s.sendQueue (8 * ctx + queue)).assoc).outMsgs.length < 4096

theorem takeEntry_listens (h : s.Listens ctx queue) :
    s.takeEntry ctx queue op = s.nextEntry ctx queue (s.sendQueue (8 * ctx + queue)) (State.isOp op) :=
  takeEntry_next h.live h.going h.awake h.empty h.room

/-- The command of each operation of a work entry (R317). -/
def EntryRun (ctx queue : Nat) (r : Nat × Instr) : Prop :=
  r ∈ [(1, Instr.remoteWrite ctx queue), (2, .remoteRead ctx queue), (3, .remoteAtomic ctx queue), (4, .remoteLandingArrive ctx queue)]

theorem exec_entryRun {r : Nat × Instr} (hr : EntryRun ctx queue r) : exec r.2 s = s.waits (.next (s.takeEntry ctx queue r.1)) := by
  simp only [EntryRun, List.mem_cons, List.not_mem_nil, or_false] at hr
  rcases hr with rfl | rfl | rfl | rfl <;> rfl

theorem takeEntry_sleeps (h : s.Listens ctx queue) (hread : s.ReadsEntry ctx (s.sendQueue (8 * ctx + queue)) u e) (hs : u.stalled = false)
    (hphase : field e 1 1 % 2 = (s.sendQueue (8 * ctx + queue)).taken / 2 ^ (s.sendQueue (8 * ctx + queue)).log2 % 2)
    {r : Nat × Instr} (hr : EntryRun ctx queue r) :
    exec r.2 s = .next ((u.dropHeld (ringReader ctx queue)).setSendQueue (8 * ctx + queue) { s.sendQueue (8 * ctx + queue) with awake := false }) := by
  rw [exec_entryRun hr, takeEntry_listens h, nextEntry_sleeps hread hphase]
  exact waits_of_served ((dropHeld_stalled _).trans hs)

theorem takeEntry_enters (hs : s.Sound) (h : s.Listens ctx queue) (hread : s.ReadsEntry ctx (s.sendQueue (8 * ctx + queue)) u e)
    (hphase : field e 1 1 % 2 ≠ (s.sendQueue (8 * ctx + queue)).taken / 2 ^ (s.sendQueue (8 * ctx + queue)).log2 % 2)
    (hok : entryOk e = true) (hx : (s.assoc (s.sendQueue (8 * ctx + queue)).assoc).live = true)
    (hfailed : (s.assoc (s.sendQueue (8 * ctx + queue)).assoc).state ≠ .failed) (hidle : (s.assoc (s.sendQueue (8 * ctx + queue)).assoc).state ≠ .idle)
    {r : Nat × Instr} (hr : EntryRun ctx queue r) (hop : r.1 = field e 0 1) {bs : List Byte}
    (hdata : if field e 0 1 = 1 then ((u.dropHeld (ringReader ctx queue)).tookEntry ctx queue (s.sendQueue (8 * ctx + queue)) e).vaRead
        (kftEngine ctx) (field e 8 8) (field e 4 4) = (v, .ok bs)
      else v = (u.dropHeld (ringReader ctx queue)).tookEntry ctx queue (s.sendQueue (8 * ctx + queue)) e ∧
        bs = if field e 0 1 = 3 then be 8 (field e 24 8) ++ be 8 (field e 32 8) else []) (hserved : v.stalled = false) :
    ∃ t, exec r.2 s = .next t ∧ (u.dropHeld (ringReader ctx queue)).Entered v t ctx queue (s.sendQueue (8 * ctx + queue)) e bs ∧
      (u.dropHeld (ringReader ctx queue)).assocs = s.assocs := by
  obtain ⟨hassocs, -, -⟩ := vaRead_access (s := s) (kftEngine ctx)
    ((s.sendQueue (8 * ctx + queue)).ring + 64 * ((s.sendQueue (8 * ctx + queue)).taken % 2 ^ (s.sendQueue (8 * ctx + queue)).log2)) 64 (ringReader ctx queue)
  have hu := congrArg Prod.fst hread
  dsimp only at hu
  rw [hu] at hassocs
  have hassoc (a : Nat) : (u.dropHeld (ringReader ctx queue)).assoc a = s.assoc a := by simp only [State.assoc, hassocs]
  obtain ⟨w, hw, htake⟩ := nextEntry_takes h.empty hread hphase (mine := State.isOp r.1) (by rw [hop]; exact isOp_field e)
  rw [exec_entryRun hr, takeEntry_listens h, htake]
  generalize u.dropHeld (ringReader ctx queue) = u' at *
  obtain ⟨hstalled, hentered⟩ := sendEntry_entered (s := u') h.live (by rw [hassocs]; exact hs.tables.assocs) hok (by rw [hassoc]; exact hx)
    (by rw [hassoc]; exact hfailed) (by rw [hassoc]; exact hidle) hw hdata
  exact ⟨_, waits_of_served (hstalled.trans hserved), hentered, hassocs⟩

end

/-- Settles O45: an entry that the ring holds is taken once its phase has turned, and becomes one message of its association; a packet leaves on
the path whose turn it is; each timer does what it is for. -/
theorem sendCommands : Obligations.SendCommands := by
  unfold Obligations.SendCommands
  intro s hs
  refine ⟨fun ctx queue u e => ?_, fun a room => ?_, fun a path c => ackDelay_acks, fun a path psn p k => retxTimer_waits hs.tables.assocs,
    fun a path psn p => segmentTimeout_fails hs, fun a path k key keys => probeTimer_probes hs.tables.assocs, fun a path k rest => pathMove_moves hs.tables.assocs⟩
  · intro q size x op runs hlive hgo hawake hnone hroom hread hserved
    have hlistens : s.Listens ctx queue := ⟨hlive, hgo, hawake, hnone, hroom⟩
    refine ⟨fun hphase r hr => takeEntry_sleeps hlistens hread hserved hphase hr, fun hphase hok hx hfailed hidle => ?_⟩
    intro w taken r hr hop v bs hdata hv
    obtain ⟨t, hexec, hin, hassocs⟩ := takeEntry_enters hs hlistens hread hphase hok hx hfailed hidle hr hop hdata hv
    have hassoc : (u.dropHeld (ringReader ctx queue)).assoc q.assoc = x := by simp only [State.assoc, hassocs, x]
    obtain ⟨htaken, hentries, hhbm, hseq, hmsgs, hsend⟩ := hin
    refine ⟨t, hexec, htaken, hentries, hhbm, ?_, ?_, ?_⟩
    · rw [hseq, hassoc]
    · rw [hmsgs, hassoc]
    · rw [hsend, hassoc]
      rfl
  · by_cases hidle : ((s.queueLandings a).assoc a).carries = false ∨
      ((s.queueLandings a).assoc a).paths.filter (fun e => (s.queueLandings a).pathReady ((s.queueLandings a).assoc a) e.1) = []
    · refine ⟨_, kftSend_idle hs.served hidle, fun _ => rfl, fun path fed k key keys g hcarries hspray => ?_⟩
      have hready := hidle.resolve_left (by rw [hcarries]; exact Bool.false_ne_true ∘ Eq.symm)
      rw [hready] at hspray
      exact absurd hspray.symm (Option.some_ne_none _)
    · obtain ⟨t, ht, -⟩ := exec_goes (s := s) (.kftSend a room) (fun p h => Instr.noConfusion h)
      refine ⟨t, ht, fun h => absurd h hidle, fun path fed k key keys g hcarries hspray hk hkeys hretx hsend hburst hroom hmtu => ?_⟩
      obtain ⟨t', ht', hsends⟩ := kftSend_sends hs hcarries hspray hk hkeys hretx hsend hburst hroom hmtu
      obtain rfl : t = t' := by simpa using ht.symm.trans ht'
      exact hsends

end Sys2Proof.Machine
end

section
/-! The module's start-up and its loss of power: what the operations behind them leave as it is (R351, R376, R381, R432, R433, R437, R442). -/

namespace Sys2Proof.Machine

open Sys2Proof

variable {s t u v : State}

/-! ### What Mitor's answers keep of the flash -/

/-- A state without the work that answers end and without what they write. -/
def State.offWork (s : State) : State := { s.offReply with
  ctxs := [], drains := [], moveJobs := [], selfTests := [], activation := none, linkUp := false }

theorem offWork_of_offReply (h : t.offReply = s.offReply) : t.offWork = s.offWork :=
  (congrArg (fun x : State => { x with ctxs := [], drains := [], moveJobs := [], selfTests := [], activation := none, linkUp := false }) h :)

/-- From s to t requests have been answered: the current record, the slot that boots and the floor of its version are as they were, and a record
that is being written is still being written. -/
structure State.Answers (s t : State) : Prop where
  off : t.offWork = s.offWork
  bank : t.bank t.curBank = s.bank s.curBank
  slot : t.conf.slot = s.conf.slot
  floor : t.conf.floor = s.conf.floor
  writing : s.writing ≠ none → t.writing ≠ none

theorem State.Answers.refl (s : State) : s.Answers s := ⟨rfl, rfl, rfl, rfl, id⟩

theorem State.Answers.trans (h : s.Answers t) (h' : t.Answers u) : s.Answers u :=
  ⟨h'.off.trans h.off, h'.bank.trans h.bank, h'.slot.trans h.slot, h'.floor.trans h.floor, fun hw => h'.writing (h.writing hw)⟩

/-- A change of other fields. -/
theorem State.Answers.change (h : s.Answers t) (off : u.offWork = t.offWork) (bankA : u.bankA = t.bankA) (bankB : u.bankB = t.bankB)
    (conf : u.conf = t.conf) (writing : u.writing = t.writing) : s.Answers u where
  off := off.trans h.off
  bank := by
    have hcur : u.curBank = t.curBank := (congrArg State.curBank off :)
    rw [← h.bank, State.bank, State.bank, bankA, bankB, hcur]
  slot := conf ▸ h.slot
  floor := conf ▸ h.floor
  writing := writing ▸ h.writing

theorem State.Answers.inner (h : s.Answers t) (hi : u.inner = t.inner) : s.Answers u :=
  h.change (offWork_of_offReply (offReply_of_inner hi)) (congrArg State.bankA hi :) (congrArg State.bankB hi :) (congrArg State.conf hi :)
    (congrArg State.writing hi :)

theorem bank_setBank_other (s : State) (k : Nat) (x : StoreBank) : (s.setBank (1 - k) x).bank k = s.bank k := by
  unfold State.setBank State.bank
  split
  · split
    · omega
    · rfl
  · split
    · rfl
    · omega

theorem persist_bank (s : State) : s.persist.bank s.persist.curBank = s.bank s.curBank := by
  unfold State.persist
  split
  · rfl
  · have hcur : s.startWrite.curBank = s.curBank := by
      unfold State.startWrite State.setBank
      split <;> rfl
    rw [hcur]
    exact bank_setBank_other s s.curBank {}

theorem persist_conf (s : State) : s.persist.conf = s.conf := by
  unfold State.persist State.startWrite State.setBank
  split
  · rfl
  split <;> rfl

theorem State.Answers.persist (h : s.Answers t) : s.Answers t.persist := by
  refine h.trans ⟨offWork_of_offReply (persist_offReply t), persist_bank t, by rw [persist_conf], by rw [persist_conf], fun hw => ?_⟩
  unfold State.persist
  rw [if_pos (Option.isSome_iff_ne_none.2 hw)]
  exact hw

theorem State.Answers.setTaken (h : s.Answers t) (p : Nat) (x : Taken) : s.Answers (t.setTaken p x) := h.change rfl rfl rfl rfl rfl

theorem State.Answers.auditAdd (h : s.Answers t) {p role gen keyId code counter result : Nat} {accepted : Bool} {req : List Byte} :
    s.Answers (t.auditAdd p role gen keyId code counter result accepted req).1 := h.change rfl rfl rfl rfl rfl

theorem State.Answers.auditEnd (h : s.Answers t) {seq : Option Nat} {status : Nat} : s.Answers (t.auditEnd seq status) := by
  unfold State.auditEnd
  split
  · exact h
  split
  · exact h.change rfl rfl rfl rfl rfl
  · exact h

theorem State.Answers.post (h : s.Answers t) {p via : Nat} {discard : Bool} {msg : List Byte} : s.Answers (t.post p via discard msg) := by
  unfold State.post
  split
  · exact h.change rfl rfl rfl rfl rfl
  split
  · exact h
  · extract_lets m w
    have hw : s.Answers w := h.change rfl rfl rfl rfl rfl
    exact hw.inner (raise_inner _ _ _)

theorem State.Answers.deliverTaken (h : s.Answers t) {p : Nat} : s.Answers (t.deliverTaken p) := by
  unfold State.deliverTaken
  split
  · exact h
  · have hw : s.Answers { t with taken := merase t.taken p } := h.change rfl rfl rfl rfl rfl
    exact hw.post

theorem State.Answers.addResponse (h : s.Answers t) {p status : Nat} {resp : List Byte} : s.Answers (t.addResponse p status resp) := by
  unfold State.addResponse
  split
  · exact h.setTaken _ _
  · exact h

theorem State.Answers.noteKey (h : s.Answers t) {x : Sub} : s.Answers (t.noteKey x) := by
  unfold State.noteKey
  split
  · exact h
  · exact h.change rfl rfl rfl rfl rfl

theorem State.Answers.accept (h : s.Answers t) {p : Nat} {x : Sub} : s.Answers (t.accept p x) := by
  unfold State.accept
  split
  · exact h
  next y _ =>
    extract_lets w
    have hw : s.Answers w := h.noteKey
    clear_value w
    dsimp only
    have hr : s.Answers (if audited x.code (decide (x.keyId ≠ 0)) 0 = true then
          ((w.auditAdd p y.role x.gen x.keyId x.code x.counter 0 true x.bytes).1,
            some (w.auditAdd p y.role x.gen x.keyId x.code x.counter 0 true x.bytes).2)
        else (w, none)).1 := by
      split
      · exact hw.auditAdd
      · exact hw
    split
    · exact .addResponse (.auditEnd hr)
    · exact hr.setTaken _ _

theorem State.Answers.beginSub (h : s.Answers t) {p gen : Nat} {bs : List Byte} {form : Bool} : s.Answers (t.beginSub p gen bs form) := by
  unfold State.beginSub
  split
  · exact h
  dsimp only
  split
  · refine .addResponse ?_
    split
    · exact h.auditAdd
    · exact h
  · exact h.accept
  · exact .persist ⟨h.off, h.bank, h.slot, h.floor, h.writing⟩

theorem State.Answers.nextSubs (h : s.Answers t) {p : Nat} {rest : List (List Byte)} : s.Answers (t.nextSubs p rest) := by
  induction rest generalizing t with
  | nil => exact h.deliverTaken
  | cons b rest ih =>
    unfold State.nextSubs
    split
    · exact h
    next y _ =>
      extract_lets s1 s2
      have h1 : s.Answers s1 := h.setTaken _ _
      have h2 : s.Answers s2 := by
        unfold s2
        split
        · exact h1.beginSub
        · exact h1.beginSub
      clear_value s2 s1
      split
      · exact ih h1.addResponse
      split
      · exact h.setTaken _ _
      split
      · exact h2
      · exact ih h2

theorem State.Answers.goOn (h : s.Answers t) {p : Nat} : s.Answers (t.goOn p) := by
  unfold State.goOn
  split
  · split
    · exact h
    · exact h.nextSubs
  · exact h

theorem State.Answers.reply (h : s.Answers t) {p status detail : Nat} {fields : List (List Byte)} : s.Answers (t.reply p status detail fields) := by
  unfold State.reply
  split
  · exact h
  · exact .goOn (.addResponse (.auditEnd h))

theorem State.Answers.answer (h : s.Answers t) {p : Option Nat} {status detail : Nat} {fields : List (List Byte)} :
    s.Answers (t.answer p status detail fields) := by
  unfold State.answer
  split
  · exact h.reply
  · exact h

theorem State.Answers.foldl {α : Type} {f : State → α → State} (h : s.Answers t) (hf : ∀ w a, s.Answers w → s.Answers (f w a)) (xs : List α) :
    s.Answers (xs.foldl f t) := by
  induction xs generalizing t with
  | nil => exact h
  | cons x xs ih => exact ih (hf _ x h)

theorem State.Answers.endPreempt (h : s.Answers t) {ctx status : Nat} : s.Answers (t.endPreempt ctx status) := by
  unfold State.endPreempt
  extract_lets c w x
  have hw : s.Answers w := h.change rfl rfl rfl rfl rfl
  have hx : s.Answers x := by
    unfold x
    split
    · exact hw.answer
    · exact hw
  exact hx.answer

theorem State.Answers.abortDrains (h : s.Answers t) {gone : Drain → Bool} : s.Answers (t.abortDrains gone) := by
  unfold State.abortDrains
  extract_lets ds w
  have hw : s.Answers w := h.change rfl rfl rfl rfl rfl
  exact hw.foldl (fun _ _ hx => hx.answer) ds

theorem State.Answers.interruptTaken (h : s.Answers t) {p : Nat} : s.Answers (t.interruptTaken p) := by
  unfold State.interruptTaken
  split
  · exact h
  next y _ =>
    extract_lets w x
    have hw : s.Answers w := by
      unfold w
      split
      · exact .addResponse (.auditEnd h)
      · exact h
    have hx : s.Answers x := hw.foldl (fun _ _ hx => hx.addResponse) _
    split
    · exact hw
    · exact hx.deliverTaken

theorem State.Answers.interruptAll (h : s.Answers t) : s.Answers t.interruptAll := by
  unfold State.interruptAll
  extract_lets w
  have h1 : s.Answers ((t.taken.map (·.1)).foldl (fun s p => s.interruptTaken p) t) := h.foldl (fun _ _ hx => hx.interruptTaken) _
  have hw : s.Answers w := h1.change rfl rfl rfl rfl rfl
  exact hw.foldl (fun _ _ hx => hx.goOn) _

end Sys2Proof.Machine
end

section
/-! What the loss of the rails leaves, and what it tells (R351, R381, R437). -/

namespace Sys2Proof.Machine

open Sys2Proof

variable {s t u v : State}

/-! ### The event log (R363) -/

/-- A state without what an entry of an event log changes. -/
def State.offLogs (s : State) : State := { s.inner with logs := [], free := 0, now := 0 }

theorem offLogs_of_inner (h : t.inner = s.inner) : t.offLogs = s.offLogs :=
  (congrArg (fun x : State => { x with logs := [], free := 0, now := 0 }) h :)

/-- The log as an entry extends it, before its cause is raised. -/
def State.logged (s : State) (fn kind : Nat) (body : List Byte) : State :=
  s.sample.1.setEvlog fn { s.evlog fn with
    events := (if 1024 ≤ (s.evlog fn).events.length then (s.evlog fn).events.drop 1 else (s.evlog fn).events) ++ [logEntry kind s.sample.2 body] }

theorem logEvent_eq (s : State) (fn kind : Nat) (body : List Byte) : s.logEvent fn kind body =
    if 1024 ≤ (s.evlog fn).events.length then ((s.logged fn kind body).raise fn (.event 0)).raise fn (.event 1)
    else (s.logged fn kind body).raise fn (.event 0) := by
  unfold State.logEvent State.logged
  simp only [decide_eq_true_eq]
  rfl

theorem logEvent_inner (s : State) (fn kind : Nat) (body : List Byte) : (s.logEvent fn kind body).inner = (s.logged fn kind body).inner := by
  rw [logEvent_eq]
  split
  · exact (raise_inner _ _ _).trans (raise_inner _ _ _)
  · exact raise_inner _ _ _

theorem logEvent_offLogs (s : State) (fn kind : Nat) (body : List Byte) : (s.logEvent fn kind body).offLogs = s.offLogs :=
  (offLogs_of_inner (logEvent_inner s fn kind body)).trans rfl

theorem manage_offLogs (s : State) (fn code value : Nat) : (s.manage fn code value).offLogs = s.offLogs := logEvent_offLogs _ _ _ _

/-- The new entry stands behind the others, the oldest of which has gone if the log was full. -/
theorem logEvent_events (s : State) (fn kind : Nat) (body : List Byte) : ((s.logEvent fn kind body).evlog fn).events =
    (if 1024 ≤ (s.evlog fn).events.length then (s.evlog fn).events.drop 1 else (s.evlog fn).events) ++ [logEntry kind s.sample.2 body] := by
  have hlogs : (s.logEvent fn kind body).logs = (s.logged fn kind body).logs := (congrArg State.logs (logEvent_inner s fn kind body) :)
  have hevlog : (s.logEvent fn kind body).evlog fn = (s.logged fn kind body).evlog fn := by simp only [State.evlog, hlogs]
  rw [hevlog]
  refine congrArg EventLog.events (mget_mset_same_of_ne _ _ fun he => ?_)
  have hevents := congrArg EventLog.events he
  simp at hevents

/-- The log of PF0 keeps its entries while it has room for the new one. -/
structure State.Logs (s t : State) (n : Nat) : Prop where
  off : t.offLogs = s.offLogs
  length : (t.evlog 0).events.length = (s.evlog 0).events.length + n
  keeps : ∀ e ∈ (s.evlog 0).events, e ∈ (t.evlog 0).events

theorem State.Logs.trans {m n : Nat} (h : s.Logs t m) (h' : t.Logs u n) : s.Logs u (m + n) :=
  ⟨h'.off.trans h.off, by rw [h'.length, h.length, Nat.add_assoc], fun e he => h'.keeps e (h.keeps e he)⟩

theorem logEvent_logs (s : State) (kind : Nat) (body : List Byte) (h : (s.evlog 0).events.length < 1024) : s.Logs (s.logEvent 0 kind body) 1 := by
  have hevents := logEvent_events s 0 kind body
  rw [if_neg (Nat.not_le.2 h)] at hevents
  refine ⟨logEvent_offLogs s 0 kind body, ?_, fun e he => ?_⟩
  · rw [hevents, List.length_append, List.length_singleton]
  · rw [hevents]
    exact List.mem_append_left _ he

theorem logEvent_entered (s : State) (kind : Nat) (body : List Byte) : logEntry kind s.sample.2 body ∈ ((s.logEvent 0 kind body).evlog 0).events := by
  rw [logEvent_events]
  exact List.mem_append_right _ List.mem_cons_self

/-- The removal of `PWR_EN` tells two things of a partition. -/
theorem tellRemoval_logs (s : State) (q : Nat) (h : (s.evlog 0).events.length + 2 ≤ 1024) : s.Logs (s.tellRemoval q) 2 ∧
    ∃ v, logEntry 5 v (toBytes 2 7 ++ zeros 2 ++ toBytes 4 q) ∈ ((s.tellRemoval q).evlog 0).events := by
  have hpick : s.Logs (s.pick 256).1 0 := ⟨rfl, rfl, fun e he => he⟩
  unfold State.tellRemoval
  generalize s.pick 256 = r at hpick ⊢
  obtain ⟨w, src⟩ := r
  dsimp only at hpick ⊢
  have hfirst := hpick.trans (logEvent_logs w 1 (rasBody { cls := 4, source := src, part := some q, unit := q } 1 0) (by
    rw [hpick.length]
    omega))
  generalize w.logEvent 0 1 (rasBody { cls := 4, source := src, part := some q, unit := q } 1 0) = x at hfirst ⊢
  exact ⟨hfirst.trans (logEvent_logs x 5 _ (by rw [hfirst.length]; omega)), _, logEvent_entered x 5 _⟩

theorem tellRemovals_logs (qs : List Nat) (s : State) (h : (s.evlog 0).events.length + 2 * qs.length ≤ 1024) :
    s.Logs (qs.foldl (fun s q => s.tellRemoval q) s) (2 * qs.length) ∧
    ∀ q ∈ qs, ∃ v, logEntry 5 v (toBytes 2 7 ++ zeros 2 ++ toBytes 4 q) ∈ ((qs.foldl (fun s q => s.tellRemoval q) s).evlog 0).events := by
  induction qs generalizing s with
  | nil => exact ⟨⟨rfl, rfl, fun _ he => he⟩, fun q hq => by cases hq⟩
  | cons q qs ih =>
    rw [List.length_cons] at h
    obtain ⟨hlogs, v, hv⟩ := tellRemoval_logs s q (by omega)
    obtain ⟨hrest, htold⟩ := ih (s.tellRemoval q) (by rw [hlogs.length]; omega)
    refine ⟨?_, fun p hp => ?_⟩
    · rw [List.length_cons, Nat.mul_add, Nat.mul_one, Nat.add_comm]
      exact hlogs.trans hrest
    · rcases List.mem_cons.1 hp with rfl | hp
      · exact ⟨v, hrest.keeps _ hv⟩
      · exact htold p hp

/-! ### The rails go off (R381, R437) -/

theorem driveAttn_funcs (s : State) : s.driveAttn.funcs = s.funcs := by
  unfold State.driveAttn
  extract_lets f low w wake
  have hw : w.funcs = s.funcs := by
    unfold w
    split <;> rfl
  split
  · exact hw
  · exact hw

/-- `ATTN_N` is low as its causes say. -/
theorem driveAttn_attnLow (s : State) :
    s.driveAttn.attnLow = (s.musLost || s.lockout || (s.mitorReady && decide ((s.func 0).summary &&& (s.func 0).attnMask ≠ 0))) := by
  unfold State.driveAttn
  extract_lets f low w wake
  have hw : w.attnLow = low := by
    unfold w
    split
    next h => exact h.symm
    · rfl
  split
  · exact hw
  · exact hw

/-- What the loss of the IO die's rails takes with it. -/
def State.isLost (t : State) : Prop := t.pwrGood = false ∧ t.linkUp = false ∧ t.hbm = [] ∧ t.ctxs = [] ∧ t.parts = [] ∧ t.cores = [] ∧
  t.regions = [] ∧ t.segs = [] ∧ t.slots = [] ∧ t.funcs = []

theorem unpowered_isLost (s : State) : s.unpowered.isLost := ⟨rfl, rfl, rfl, rfl, rfl, rfl, rfl, rfl, rfl, rfl⟩

theorem boathouse_isLost (s : State) : s.boathouse.isLost := ⟨rfl, rfl, rfl, rfl, rfl, rfl, rfl, rfl, rfl, rfl⟩

theorem isLost_of_inner (h : s.isLost) (hi : t.inner = s.inner) (hf : t.funcs = s.funcs) : t.isLost := by
  obtain ⟨hgood, hlink, hhbm, hctxs, hparts, hcores, hregions, hsegs, hslots, hfuncs⟩ := h
  exact ⟨(congrArg State.pwrGood hi :).trans hgood, (congrArg State.linkUp hi :).trans hlink, (congrArg State.hbm hi :).trans hhbm,
    (congrArg State.ctxs hi :).trans hctxs, (congrArg State.parts hi :).trans hparts, (congrArg State.cores hi :).trans hcores,
    (congrArg State.regions hi :).trans hregions, (congrArg State.segs hi :).trans hsegs, (congrArg State.slots hi :).trans hslots, hf.trans hfuncs⟩

/-- The state before the boathouse is left alone: the operations that need the rails have been answered. -/
theorem railsOff_boathouse (s : State) : ∃ w, s.Answers w ∧ s.railsOff.inner = w.boathouse.inner ∧ s.railsOff.funcs = w.boathouse.funcs ∧
    s.railsOff.attnLow = (w.musLost || w.lockout) := by
  unfold State.railsOff
  extract_lets good u1 u2 u3 u4 u5 u6
  have h0 : s.Answers { s with linkUp := false } := (State.Answers.refl s).change rfl rfl rfl rfl rfl
  have h1 : s.Answers u1 := h0.foldl (fun _ _ hw => hw.endPreempt) _
  have h2 : s.Answers u2 := h1.abortDrains
  have h2' : s.Answers { u2 with moveJobs := [] } := h2.change rfl rfl rfl rfl rfl
  have h3 : s.Answers u3 := h2'.foldl (fun _ _ hw => hw.answer) _
  have h3' : s.Answers { u3 with selfTests := [] } := h3.change rfl rfl rfl rfl rfl
  have h4 : s.Answers u4 := h3'.foldl (fun _ _ hw => hw.answer) _
  have h6 : u6.inner = u5.inner ∧ u6.funcs = u5.funcs ∧ u6.musLost = u5.musLost ∧ u6.lockout = u5.lockout ∧ u6.mitorReady = u5.mitorReady := by
    unfold u6
    split
    · exact ⟨rfl, rfl, rfl, rfl, rfl⟩
    · exact ⟨rfl, rfl, rfl, rfl, rfl⟩
  obtain ⟨hinner, hfuncs, hlost, hlock, hready⟩ := h6
  have hattn := driveAttn_attnLow u6
  rw [hlost, hlock, hready] at hattn
  refine ⟨u4, h4, (driveAttn_inner u6).trans hinner, (driveAttn_funcs u6).trans hfuncs, hattn.trans ?_⟩
  exact Bool.or_false _

/-- What stands after the rails have gone off. -/
structure State.Falls (s t : State) : Prop where
  lost : t.isLost
  supply : t.supply = 1
  curBank : t.curBank = s.curBank
  bank : t.bank t.curBank = s.bank s.curBank
  fwSlots : t.fwSlots = s.fwSlots
  mitorUp : t.mitorUp = s.mitorUp
  pwrEn : t.pwrEn = s.pwrEn
  lockout : t.lockout = s.lockout
  logs : t.logs = s.logs
  attnLow : t.attnLow = (s.musLost || s.lockout)

theorem railsOff_falls (s : State) : s.Falls s.railsOff := by
  obtain ⟨w, hw, hinner, hfuncs, hattn⟩ := railsOff_boathouse s
  generalize s.railsOff = t at *
  have hoff := hw.off
  have hcur : t.curBank = w.curBank := (congrArg State.curBank hinner :)
  have hbank : t.bank w.curBank = w.bank w.curBank := by
    have hA : t.bankA = w.bankA := (congrArg State.bankA hinner :)
    have hB : t.bankB = w.bankB := (congrArg State.bankB hinner :)
    rw [State.bank, State.bank, hA, hB]
  exact {
    lost := isLost_of_inner (boathouse_isLost w) hinner hfuncs
    supply := (congrArg State.supply hinner :)
    curBank := hcur.trans (congrArg State.curBank hoff :)
    bank := by rw [hcur, hbank, hw.bank]
    fwSlots := (congrArg State.fwSlots hinner :).trans (congrArg State.fwSlots hoff :)
    mitorUp := (congrArg State.mitorUp hinner :).trans (congrArg State.mitorUp hoff :)
    pwrEn := (congrArg State.pwrEn hinner :).trans (congrArg State.pwrEn hoff :)
    lockout := (congrArg State.lockout hinner :).trans (congrArg State.lockout hoff :)
    logs := (congrArg State.logs hinner :).trans (congrArg State.logs hoff :)
    attnLow := by
      have hlost : w.musLost = s.musLost := (congrArg State.musLost hoff :)
      have hlock : w.lockout = s.lockout := (congrArg State.lockout hoff :)
      rw [hattn, hlost, hlock] }

end Sys2Proof.Machine
end

section
/-! The module falls back to Standby, loses its supply, or locks itself out (R351, R381, R437); Mitor's soft reset (R442). -/

namespace Sys2Proof.Machine

open Sys2Proof

variable {s t u v : State}

/-! ### Standby and the loss of the input -/

theorem tellRemoval_offLogs (s : State) (q : Nat) : (s.tellRemoval q).offLogs = s.offLogs := by
  unfold State.tellRemoval
  exact (manage_offLogs _ _ _ _).trans (logEvent_offLogs _ _ _ _)

theorem tellRemovals_offLogs (qs : List Nat) (s : State) : (qs.foldl (fun s q => s.tellRemoval q) s).offLogs = s.offLogs :=
  foldl_fixes State.offLogs tellRemoval_offLogs qs s

/-- What an entry of a log changes is nothing of the flash, the supply or Mitor. -/
theorem State.Falls.of_offLogs (h : u.Falls t) (hu : u.offLogs = s.offLogs) : t.bank t.curBank = s.bank s.curBank ∧ t.curBank = s.curBank ∧
    t.fwSlots = s.fwSlots ∧ t.mitorUp = s.mitorUp ∧ t.pwrEn = s.pwrEn ∧ t.lockout = s.lockout := by
  have hA : u.bankA = s.bankA := (congrArg State.bankA hu :)
  have hB : u.bankB = s.bankB := (congrArg State.bankB hu :)
  have hcur : u.curBank = s.curBank := (congrArg State.curBank hu :)
  have hbank : u.bank u.curBank = s.bank s.curBank := by rw [State.bank, State.bank, hA, hB, hcur]
  exact ⟨h.bank.trans hbank, h.curBank.trans hcur, h.fwSlots.trans (congrArg State.fwSlots hu :), h.mitorUp.trans (congrArg State.mitorUp hu :),
    h.pwrEn.trans (congrArg State.pwrEn hu :), h.lockout.trans (congrArg State.lockout hu :)⟩

theorem evlog_of_logs (h : t.logs = s.logs) (fn : Nat) : t.evlog fn = s.evlog fn := by simp only [State.evlog, h]

theorem length_liveParts (s : State) : s.liveParts.length ≤ 8 :=
  (List.length_filter_le _ _).trans (le_of_eq (List.length_range ..))

/-- The state that the flash is in, beside its banks' other record. -/
def State.sameFlash (s t : State) : Prop := t.curBank = s.curBank ∧ t.bank t.curBank = s.bank s.curBank ∧ t.fwSlots = s.fwSlots

theorem pwrEnDeassert_falls (h : s.supply = 2) : ∃ t, exec .pwrEnDeassert s = .next t ∧ t.pwrEn = false ∧ t.supply = 1 ∧ t.isLost ∧ s.sameFlash t ∧
    t.mitorUp = s.mitorUp ∧ ∀ q ∈ s.liveParts, (s.evlog 0).events.length + 16 ≤ 1024 →
      ∃ v, logEntry 5 v (toBytes 2 7 ++ zeros 2 ++ toBytes 4 q) ∈ (t.evlog 0).events := by
  have hexec : exec .pwrEnDeassert s = .next (s.liveParts.foldl (fun (s : State) q => s.tellRemoval q) { s with pwrEn := false }).railsOff := by
    show execPwrEnDeassert s = _
    unfold execPwrEnDeassert
    dsimp only
    rw [if_neg (fun hne => hne h)]
    rfl
  have hoff := tellRemovals_offLogs s.liveParts { s with pwrEn := false }
  have hfalls := railsOff_falls (s.liveParts.foldl (fun (s : State) q => s.tellRemoval q) { s with pwrEn := false })
  obtain ⟨hbank, hcur, hslots, hup, hen, -⟩ := hfalls.of_offLogs hoff
  refine ⟨_, hexec, hen, hfalls.supply, hfalls.lost, ⟨hcur, hbank, hslots⟩, hup, fun q hq hroom => ?_⟩
  have hlen := length_liveParts s
  have hevents : (({ s with pwrEn := false } : State).evlog 0).events.length = (s.evlog 0).events.length := rfl
  obtain ⟨-, htold⟩ := tellRemovals_logs s.liveParts { s with pwrEn := false } (by omega)
  rw [evlog_of_logs hfalls.logs]
  exact htold q hq

/-- The state after the loss of the input, before what the pins tell of it. -/
theorem supplyLoss_drops (h : s.supply ≠ 0) : ∃ t, exec .supplyLoss s = .next t ∧ ∃ e a w, t = { s.unpowered with out := e, attnLow := a, wakeLow := w } := by
  show ∃ t, execSupplyLoss s = _ ∧ _
  unfold execSupplyLoss
  rw [if_neg h]
  extract_lets u1 u2
  refine ⟨_, rfl, ?_⟩
  have h1 : ∃ e, u1 = { s.unpowered with out := e } := by
    unfold u1
    split
    · exact ⟨_, rfl⟩
    · exact ⟨_, rfl⟩
  obtain ⟨e1, h1⟩ := h1
  have h2 : ∃ e, u2 = { s.unpowered with out := e } := by
    unfold u2
    rw [h1]
    split
    · exact ⟨_, rfl⟩
    · exact ⟨_, rfl⟩
  obtain ⟨e2, h2⟩ := h2
  rw [h2]
  split
  · exact ⟨_, _, _, rfl⟩
  · exact ⟨_, _, _, rfl⟩

theorem supplyLoss_loses (h : s.supply ≠ 0) : ∃ t, exec .supplyLoss s = .next t ∧ t.supply = 0 ∧ t.isLost ∧ s.sameFlash t ∧ t.bankA = s.bankA ∧
    t.bankB = s.bankB ∧ t.audit = s.audit ∧ t.writing = none ∧ t.mitorUp = false ∧ t.logs = [] := by
  obtain ⟨t, ht, e, a, w, rfl⟩ := supplyLoss_drops h
  exact ⟨_, ht, rfl, unpowered_isLost s, ⟨rfl, rfl, rfl⟩, rfl, rfl, rfl, rfl, rfl, rfl⟩

theorem supplyLockout_locks (h : s.supply ≠ 0) (hopen : s.lockout = false) (hvin : 66000 < s.readings.vin ∨ s.readings.vin < 36000) :
    ∃ t, exec .supplyLockout s = .next t ∧ t.lockout = true ∧ t.attnLow = true ∧ t.supply = 1 ∧ t.isLost ∧ s.sameFlash t ∧ t.mitorUp = s.mitorUp ∧
      ∃ v, logEntry 5 v (toBytes 2 6 ++ zeros 2 ++ toBytes 4 0) ∈ (t.evlog 0).events := by
  have hexec : exec .supplyLockout s = .next ({ s.sample.1.manage 0 6 0 with lockout := true } : State).railsOff := by
    show execSupplyLockout s = _
    unfold execSupplyLockout
    have hsample : s.sample.1.supply = s.supply ∧ s.sample.1.lockout = s.lockout ∧ s.sample.1.readings = s.readings := ⟨rfl, rfl, rfl⟩
    generalize s.sample = r at hsample ⊢
    obtain ⟨w, n⟩ := r
    obtain ⟨hsupply, hlock, hread⟩ := hsample
    dsimp only at hsupply hlock hread ⊢
    rw [if_neg]
    rw [hsupply, hlock, State.lockoutDue, hread]
    simp [h, hopen]
    omega
  have hoff := manage_offLogs s.sample.1 0 6 0
  have hentered := logEvent_entered s.sample.1 5 (toBytes 2 6 ++ zeros 2 ++ toBytes 4 0)
  change _ ∈ ((s.sample.1.manage 0 6 0).evlog 0).events at hentered
  generalize s.sample.1.manage 0 6 0 = w at hoff hentered hexec
  have hsample : s.sample.1.offLogs = s.offLogs := rfl
  have hfalls := railsOff_falls { w with lockout := true }
  have hlocked : ({ w with lockout := true } : State).offLogs = ({ s with lockout := true } : State).offLogs :=
    (congrArg (fun x : State => { x with lockout := true }) (hoff.trans hsample) :)
  obtain ⟨hbank, hcur, hslots, hup, -, hlock⟩ := hfalls.of_offLogs hlocked
  refine ⟨_, hexec, hlock, ?_, hfalls.supply, hfalls.lost, ⟨hcur, hbank, hslots⟩, hup, s.sample.1.sample.2, ?_⟩
  · rw [hfalls.attnLow]
    exact Bool.or_true _
  · rw [evlog_of_logs hfalls.logs]
    exact hentered

/-! ### Mitor's soft reset (R442) -/

/-- The image that Mitor starts is that of the slot which the store names, or the other (R376). -/
theorem startImage_offLogs (s : State) : (s.slotBoots s.conf.slot = true ∧ s.startImage = { s with running := mget [] s.fwSlots s.conf.slot }) ∨
    (s.slotBoots s.conf.slot = false ∧ s.slotBoots (1 - s.conf.slot) = true ∧ s.startImage =
      ({ s with running := mget [] s.fwSlots (1 - s.conf.slot), conf := { s.conf with slot := 1 - s.conf.slot } } : State).manage 0 1 (1 - s.conf.slot)) ∨
    (s.slotBoots s.conf.slot = false ∧ s.slotBoots (1 - s.conf.slot) = false ∧ s.startImage = { s with bootStopped := true }) := by
  unfold State.startImage
  dsimp only
  by_cases hslot : s.slotBoots s.conf.slot = true
  · exact .inl ⟨hslot, if_pos hslot⟩
  rw [if_neg hslot]
  by_cases hother : s.slotBoots (1 - s.conf.slot) = true
  · exact .inr (.inl ⟨Bool.eq_false_iff.2 hslot, hother, if_pos hother⟩)
  · exact .inr (.inr ⟨Bool.eq_false_iff.2 hslot, Bool.eq_false_iff.2 hother, if_neg hother⟩)

/-- A state without what the start of an image changes. -/
def State.offStart (s : State) : State := { s.offLogs with running := [], conf := {}, softResets := [], bootStopped := false, keyLast := [] }

theorem offStart_of_offLogs (h : t.offLogs = s.offLogs) : t.offStart = s.offStart :=
  (congrArg (fun x : State => { x with running := [], conf := {}, softResets := [], bootStopped := false, keyLast := [] }) h :)

theorem slotBoots_of (hslots : t.fwSlots = s.fwSlots) (hfloor : t.conf.floor = s.conf.floor) (k : Nat) : t.slotBoots k = s.slotBoots k := by
  unfold State.slotBoots
  rw [hslots, hfloor]

theorem startImage_offStart (s : State) : s.startImage.offStart = s.offStart := by
  obtain ⟨-, h⟩ | ⟨-, -, h⟩ | ⟨-, -, h⟩ := startImage_offLogs s
  · rw [h]
    rfl
  · rw [h]
    exact (offStart_of_offLogs (manage_offLogs _ _ _ _)).trans rfl
  · rw [h]
    rfl

/-- Both management units have rebooted at the given moment, and what was taken is gone. -/
def State.restarting (s : State) (now : Nat) : State := { s with
  mitorUp := false, mitorReady := false, muAsleep := false
  softResets := now :: s.softResets.filter (fun t => decide (now < t + hourNs)), taken := []
  storeDirty := s.storeDirty || s.writing.isSome, writing := none }

/-- The state in which the restart has been told, before an image starts. -/
def State.rebooted (s : State) (now : Nat) : State := (s.restarting now).resumeCounters.manage 0 5 0

theorem rebooted_offLogs (s : State) (now : Nat) : (s.rebooted now).offLogs = (s.restarting now).resumeCounters.offLogs := manage_offLogs _ _ _ _

/-- The image of the other slot runs. -/
def State.swapImage (s : State) : State :=
  { s with running := mget [] s.fwSlots (1 - s.conf.slot), softResets := [], conf := { s.conf with slot := 1 - s.conf.slot } }

/-- The image that starts after a restart: at the third within an hour that of the other slot, if it verifies. -/
def State.startAgain (s : State) (n : Nat) : State :=
  if 3 ≤ n && s.slotBoots (1 - s.conf.slot) then s.swapImage.manage 0 1 (1 - s.conf.slot)
  else s.startImage

theorem startAgain_offStart (s : State) (n : Nat) : (s.startAgain n).offStart = s.offStart := by
  unfold State.startAgain
  split
  · exact (offStart_of_offLogs (manage_offLogs _ _ _ _)).trans rfl
  · exact startImage_offStart s

theorem exec_mitorSoftReset (h : s.supply ≠ 0) (hboot : s.bootStopped = false) (hunits : s.musLost = false) :
    exec .mitorSoftReset s = .next ((s.sample.1.interruptAll.rebooted s.sample.2).startAgain (s.sample.1.interruptAll.restarting s.sample.2).softResets.length).driveAttn := by
  show execMitorSoftReset s = _
  unfold execMitorSoftReset
  rw [if_neg (by simp [h, hboot, hunits])]
  rfl

/-- What a restart of Mitor does to the fields that partitions do not see. -/
theorem rebooted_restarts {now : Nat} (h : s.Answers t) (hlink : t.linkUp = s.linkUp) (n : Nat) :
    let u := ((t.rebooted now).startAgain n).driveAttn
    u.mitorUp = false ∧ u.mitorReady = false ∧ u.writing = none ∧ (s.writing ≠ none → u.storeDirty = true) ∧ u.parts = s.parts ∧
      u.cores = s.cores ∧ u.hbm = s.hbm ∧ u.linkUp = s.linkUp := by
  intro u
  have hrebooted : (t.rebooted now).offStart = (t.restarting now).offStart := (offStart_of_offLogs (rebooted_offLogs t now)).trans rfl
  have hu : u.offStart = (t.restarting now).offStart :=
    (offStart_of_offLogs (offLogs_of_inner (driveAttn_inner _))).trans ((startAgain_offStart _ n).trans hrebooted)
  have hoff := h.off
  refine ⟨(congrArg State.mitorUp hu :), (congrArg State.mitorReady hu :), (congrArg State.writing hu :), fun hw => ?_,
    (congrArg State.parts hu :).trans (congrArg State.parts hoff :), (congrArg State.cores hu :).trans (congrArg State.cores hoff :),
    (congrArg State.hbm hu :).trans (congrArg State.hbm hoff :), (congrArg State.linkUp hu :).trans hlink⟩
  have hdirty : u.storeDirty = (t.storeDirty || t.writing.isSome) := (congrArg State.storeDirty hu :)
  rw [hdirty, Option.isSome_iff_ne_none.2 (h.writing hw), Bool.or_true]

theorem rebooted_softResets (t : State) (now : Nat) :
    (t.rebooted now).softResets = now :: t.softResets.filter (fun x => decide (now < x + hourNs)) :=
  (congrArg State.softResets (rebooted_offLogs t now) :)

/-- Which image starts after a restart, and what is remembered of it. -/
theorem rebooted_starts {now : Nat} (h : s.Answers t) (n : Nat) (hn : n = (t.restarting now).softResets.length) :
    let u := ((t.rebooted now).startAgain n).driveAttn
    (s.softResets = [] → u.softResets = [now] ∧
      (s.slotBoots s.conf.slot = true → u.conf.slot = s.conf.slot ∧ u.running = mget [] s.fwSlots s.conf.slot)) ∧
    (2 ≤ (s.softResets.filter (fun x => decide (now < x + 3600000000000))).length → s.slotBoots (1 - s.conf.slot) = true →
      u.conf.slot = 1 - s.conf.slot ∧ u.running = mget [] s.fwSlots (1 - s.conf.slot) ∧ u.softResets = []) := by
  intro u
  have hoff := h.off
  have hsoft : t.softResets = s.softResets := (congrArg State.softResets hoff :)
  have hw := rebooted_offLogs t now
  have hwsoft := rebooted_softResets t now
  have hconf : (t.rebooted now).conf = t.conf := (congrArg State.conf hw :)
  have hwslots : (t.rebooted now).fwSlots = s.fwSlots := (congrArg State.fwSlots hw :).trans (congrArg State.fwSlots hoff :)
  have hslot : (t.rebooted now).conf.slot = s.conf.slot := by rw [hconf, h.slot]
  have hboots := slotBoots_of hwslots (show (t.rebooted now).conf.floor = s.conf.floor by rw [hconf, h.floor])
  have hdrive : u.offLogs = ((t.rebooted now).startAgain n).offLogs := offLogs_of_inner (driveAttn_inner _)
  have hlen : n = (s.softResets.filter (fun x => decide (now < x + hourNs))).length + 1 := by
    rw [hn, ← hsoft]
    rfl
  generalize t.rebooted now = w at *
  clear_value u
  constructor
  · intro hnone
    have hstart : w.startAgain n = w.startImage := by
      unfold State.startAgain
      rw [if_neg (by simp [hlen, hnone])]
    rw [hstart] at hdrive
    have hfirst : w.softResets = [now] := by rw [hwsoft, hsoft, hnone, List.filter_nil]
    obtain ⟨hboot, hi⟩ | ⟨hnot, -, hi⟩ | ⟨hnot, -, hi⟩ := startImage_offLogs w
    · rw [hi] at hdrive
      refine ⟨(congrArg State.softResets hdrive :).trans hfirst, fun _ => ⟨?_, ?_⟩⟩
      · exact (congrArg (fun x : State => x.conf.slot) hdrive :).trans hslot
      · exact (congrArg State.running hdrive :).trans (by rw [hslot, hwslots]; rfl)
    · rw [hi] at hdrive
      refine ⟨(congrArg State.softResets (hdrive.trans (manage_offLogs _ _ _ _)) :).trans hfirst, fun hb => ?_⟩
      rw [hslot, hboots, hb] at hnot
      cases hnot
    · rw [hi] at hdrive
      refine ⟨(congrArg State.softResets hdrive :).trans hfirst, fun hb => ?_⟩
      rw [hslot, hboots, hb] at hnot
      cases hnot
  · intro htwo hb
    have hstart : w.startAgain n = w.swapImage.manage 0 1 (1 - w.conf.slot) := by
      unfold State.startAgain
      have hthree : 3 ≤ n := by
        rw [hlen]
        exact Nat.succ_le_succ htwo
      rw [if_pos (by rw [hslot, hboots, hb]; simpa using hthree)]
    rw [hstart] at hdrive
    have hall := hdrive.trans (manage_offLogs _ _ _ _)
    refine ⟨?_, ?_, (congrArg State.softResets hall :)⟩
    · exact (congrArg (fun x : State => x.conf.slot) hall :).trans (by rw [← hslot]; rfl)
    · exact (congrArg State.running hall :).trans (by rw [← hslot, ← hwslots]; rfl)

theorem mitorSoftReset_restarts (h : s.supply ≠ 0) (hboot : s.bootStopped = false) (hunits : s.musLost = false) :
    ∃ t v, exec .mitorSoftReset s = .next t ∧ s.now ≤ v ∧
      t.mitorUp = false ∧ t.mitorReady = false ∧ t.writing = none ∧ (s.writing ≠ none → t.storeDirty = true) ∧ t.parts = s.parts ∧
      t.cores = s.cores ∧ t.hbm = s.hbm ∧ t.linkUp = s.linkUp ∧
      (s.softResets = [] → t.softResets = [v] ∧
        (s.slotBoots s.conf.slot = true → t.conf.slot = s.conf.slot ∧ t.running = mget [] s.fwSlots s.conf.slot)) ∧
      (2 ≤ (s.softResets.filter (fun x => decide (v < x + 3600000000000))).length → s.slotBoots (1 - s.conf.slot) = true →
        t.conf.slot = 1 - s.conf.slot ∧ t.running = mget [] s.fwSlots (1 - s.conf.slot) ∧ t.softResets = []) := by
  have hanswers : s.Answers s.sample.1.interruptAll := (State.Answers.change (.refl s) rfl rfl rfl rfl rfl : s.Answers s.sample.1).interruptAll
  have hlink : s.sample.1.interruptAll.linkUp = s.linkUp :=
    (State.Onward.interruptAll (deep := 0) (.sample (.refl false s))).link (by omega)
  obtain ⟨h1, h2, h3, h4, h5, h6, h7, h8⟩ := rebooted_restarts hanswers hlink (s.sample.1.interruptAll.restarting s.sample.2).softResets.length
    (now := s.sample.2)
  obtain ⟨h9, h10⟩ := rebooted_starts hanswers _ (Eq.refl (s.sample.1.interruptAll.restarting s.sample.2).softResets.length)
  exact ⟨_, s.sample.2, exec_mitorSoftReset h hboot hunits, Nat.le_add_right _ _, h1, h2, h3, h4, h5, h6, h7, h8, h9, h10⟩

end Sys2Proof.Machine
end

section
/-! Settled: the power-on sequence up to Mitor's readiness, the power-enable pin, the loss of the input, the lockout and the recovery from it, and
Mitor's soft reset (R351, R361, R368, R376, R381, R432, R433, R437, R438, R442). -/

namespace Sys2Proof.Machine

open Sys2Proof

variable {s t u v w : State}

/-! ### The supply while partitions are made (R434) -/

/-- The supply with its lockout, and the pins that Mitor's work does not drive. -/
def State.pins (s : State) : Nat × Bool × Bool × Bool := (s.supply, s.pwrGood, s.pwrEn, s.lockout)

theorem pins_of_offLogs (h : t.offLogs = s.offLogs) : t.pins = s.pins := (congrArg State.pins h :)

theorem pins_of_inner (h : t.inner = s.inner) : t.pins = s.pins := (congrArg State.pins h :)

theorem pins_of_offReply (h : t.offReply = s.offReply) : t.pins = s.pins := (congrArg State.pins h :)

theorem pins_of_offStacks (h : t.offStacks = s.offStacks) : t.pins = s.pins := (congrArg State.pins h :)

theorem pins_of_offBuckets (h : t.offBuckets = s.offBuckets) : t.pins = s.pins := (congrArg State.pins h :)

theorem persist_pins (s : State) : s.persist.pins = s.pins := pins_of_offReply (persist_offReply s)

theorem powerStacks_pins (s : State) : s.powerStacks.pins = s.pins := pins_of_offStacks (powerStacks_off s)

theorem addGallery_pins (s : State) (g : Nat) : (s.addGallery g).pins = s.pins := by
  have hclear : ((List.range 8).foldl (fun (s : State) j => s.clearCore (8 * g + j)) s).pins = s.pins :=
    foldl_fixes (f := fun (s : State) j => s.clearCore (8 * g + j)) State.pins (fun _ _ => rfl) _ s
  rw [addGallery_eq]
  exact hclear

theorem newPart_pins (s : State) (p : LayoutPart) : (s.newPart p).pins = s.pins := by
  have hpeopled : (s.peopled p).pins = s.pins := (foldl_fixes State.pins addGallery_pins _ _).trans rfl
  have hbuckets : ((s.peopled p).defaultBuckets p.part p.groups p.galleries).pins = (s.peopled p).pins :=
    pins_of_offBuckets (defaultBuckets_off _ _ _ _)
  have hgen (x : State) : (x.countGen p.part).pins = x.pins := rfl
  rw [newPart_eq, powerStacks_pins, hgen, hbuckets, hpeopled]

theorem startTableMove_pins {q groups : Nat} {out : Nat → Bool} (h : s.startTableMove q groups out = some v) : v.pins = s.pins := by
  unfold State.startTableMove at h
  split at h
  · rw [← Option.some.inj h]
  · obtain ⟨r, -, hr⟩ := Option.map_eq_some_iff.1 h
    rw [← hr]
    rfl

theorem moveForeign_pins {groups : Nat} (ps : List Nat) (s : State) (h : s.moveForeign groups ps = some v) : v.pins = s.pins := by
  induction ps generalizing s with
  | nil => rw [← Option.some.inj h]
  | cons p ps ih =>
    unfold State.moveForeign at h
    split at h
    · exact ih s h
    split at h
    next x hx => exact (ih x h).trans (startTableMove_pins hx)
    next => cases h

theorem makePart_pins {p : LayoutPart} (h : s.makePart p = .made v ∨ s.makePart p = .moving v) : v.pins = s.pins := by
  unfold State.makePart at h
  split at h
  · simp at h
  split at h
  · simp at h
  split at h
  · split at h
    next x hx =>
      obtain rfl : x = v := by simpa using h
      exact moveForeign_pins _ _ hx
    next => simp at h
  · split at h
    next x hx =>
      obtain rfl : x.newPart p = v := by simpa using h
      obtain ⟨r, -, hr⟩ := Option.map_eq_some_iff.1 hx
      refine (newPart_pins x p).trans ?_
      rw [← hr]
      rfl
    next => simp at h

theorem endTableMove_pins (s : State) (m : TableMove) : (s.endTableMove m).pins = s.pins := by
  unfold State.endTableMove
  extract_lets x
  exact (powerStacks_pins _).trans rfl

theorem endTableMoves_pins (s : State) : s.endTableMoves.pins = s.pins := foldl_fixes State.pins endTableMove_pins _ s

theorem manage_pins (s : State) (fn code value : Nat) : (s.manage fn code value).pins = s.pins := pins_of_offLogs (manage_offLogs s fn code value)

theorem applyParts_pins (ps : List LayoutPart) (s : State) : (s.applyParts ps).pins = s.pins := by
  induction ps generalizing s with
  | nil => rfl
  | cons p ps ih =>
    unfold State.applyParts
    extract_lets r x
    have hr : ∀ y, r = .made y → y.pins = s.pins := by
      intro y hy
      unfold r at hy
      split at hy
      next z hz => exact (makePart_pins (.inl hy)).trans ((endTableMoves_pins z).trans (makePart_pins (.inr hz)))
      next => exact makePart_pins (.inl hy)
    have hx : x.pins = s.pins := by
      unfold x
      clear_value r
      split
      next y => exact (persist_pins _).trans ((manage_pins _ _ _ _).trans (hr y rfl))
      next => exact manage_pins _ _ _ _
    exact (ih x).trans hx

theorem applyLayout_pins (s : State) : s.applyLayout.pins = s.pins := by
  unfold State.applyLayout
  split
  · rfl
  extract_lets x
  have hx : x.pins = s.pins := rfl
  split
  · exact hx
  · exact (manage_pins _ _ _ _).trans ((applyParts_pins _ x).trans hx)

/-! ### Mitor's readiness (R433) -/

/-- A function that has been told that Mitor is ready. -/
def Func.told (f : Func) : Prop := bit f.mbx 4 = true ∧ bit f.summary 3 = true

theorem raise_ready (h : rising s.funcs) (fn : Nat) :
    rising (s.raise fn (.mailbox 4)).funcs ∧ (∀ k, ((s.raise fn (.mailbox 4)).func k).attnMask = (s.func k).attnMask) ∧
      ∀ k, k = fn ∨ (s.func k).told → ((s.raise fn (.mailbox 4)).func k).told := by
  have hrings := raise_rings_raised h fn (.mailbox 4)
  generalize s.raise fn (.mailbox 4) = t at hrings ⊢
  have hfunc (k : Nat) : ((t.func k).mbx = ((s.setFunc fn (s.raised fn (.mailbox 4))).func k).mbx) ∧
      ((t.func k).summary = ((s.setFunc fn (s.raised fn (.mailbox 4))).func k).summary) ∧
      ((t.func k).attnMask = ((s.setFunc fn (s.raised fn (.mailbox 4))).func k).attnMask) :=
    ⟨(congrArg Func.mbx (hrings.func k) :), (congrArg Func.summary (hrings.func k) :), (congrArg Func.attnMask (hrings.func k) :)⟩
  have hself := func_setFunc_same_of_rising fn (s.raised fn (.mailbox 4)) h
  refine ⟨hrings.funcs, fun k => ?_, fun k hk => ?_⟩
  · obtain ⟨-, -, hmask⟩ := hfunc k
    rw [hmask]
    by_cases he : k = fn
    · rw [he, hself]
      rfl
    · rw [func_setFunc_other_of_rising _ he h]
  · obtain ⟨hmbx, hsummary, -⟩ := hfunc k
    rw [Func.told, hmbx, hsummary]
    by_cases he : k = fn
    · rw [he, hself]
      exact ⟨bit_setBit_same _ _, bit_setBit_same _ _⟩
    · rw [func_setFunc_other_of_rising _ he h]
      exact hk.resolve_left he

theorem raiseReadies_ready (fns : List Nat) (s : State) (h : rising s.funcs) :
    let t := fns.foldl (fun s fn => s.raise fn (.mailbox 4)) s
    t.inner = s.inner ∧ (∀ k, (t.func k).attnMask = (s.func k).attnMask) ∧ ∀ k, k ∈ fns ∨ (s.func k).told → (t.func k).told := by
  induction fns generalizing s with
  | nil => exact ⟨rfl, fun _ => rfl, fun k hk => hk.resolve_left List.not_mem_nil⟩
  | cons fn fns ih =>
    obtain ⟨hrise, hmask, htold⟩ := raise_ready h fn
    obtain ⟨hinner, hmasks, htolds⟩ := ih _ hrise
    refine ⟨hinner.trans (raise_inner _ _ _), fun k => (hmasks k).trans (hmask k), fun k hk => htolds k ?_⟩
    rcases hk with hk | hk
    · rcases List.mem_cons.1 hk with he | hk
      · exact .inr (htold k (.inl he))
      · exact .inl hk
    · exact .inr (htold k (.inr hk))

/-- The state before the layout is applied. -/
def State.readied (s : State) : State :=
  ({ s with mitorReady := true }.modFunc 0 (fun f => { f with attnMask := 0x60100 })).raiseReady.driveAttn

theorem readyToFunctions_eq (s : State) : s.readyToFunctions = s.readied.applyLayout := rfl

theorem raiseReady_inner (s : State) : s.raiseReady.inner = s.inner := foldl_fixes State.inner (fun _ _ => raise_inner _ _ _) _ s

theorem readied_inner (s : State) : s.readied.inner = ({ s with mitorReady := true } : State).inner := by
  unfold State.readied State.modFunc
  rw [driveAttn_inner, raiseReady_inner, setFunc_inner]

theorem readied_pins (s : State) : s.readied.pins = s.pins := (pins_of_inner (readied_inner s)).trans rfl

theorem readied_funcs (h : rising s.funcs) : (s.readied.func 0).attnMask = 0x60100 ∧ ∀ fn < 9, (s.readied.func fn).told := by
  have hfirst : rising ({ s with mitorReady := true }.modFunc 0 (fun f => { f with attnMask := 0x60100 })).funcs := setFunc_keeps_rising _ _ h
  obtain ⟨-, hmask, htold⟩ := raiseReadies_ready (List.range 9) _ hfirst
  have hdrive (x : State) (k : Nat) : x.driveAttn.func k = x.func k := by simp only [State.func, driveAttn_funcs]
  refine ⟨?_, fun fn hfn => ?_⟩
  · rw [State.readied, hdrive, State.raiseReady, hmask]
    exact congrArg Func.attnMask (func_setFunc_same_of_rising (s := { s with mitorReady := true }) 0 _ h)
  · rw [State.readied, hdrive]
    exact htold fn (.inl (List.mem_range.2 hfn))

theorem readyToFunctions_pins (s : State) : s.readyToFunctions.pins = s.pins := (applyLayout_pins _).trans (readied_pins s)

/-- The state in which Mitor is up and its record is on its way, if one is due. -/
def State.wakes (s : State) : State :=
  if s.boots ≠ (s.bank s.curBank).data.boots ∨ s.storeDirty = true then { s with mitorUp := true }.persist else { s with mitorUp := true }

theorem exec_mitorReady (hup : s.mitorUp = false) (hboot : s.bootStopped = false) (hunits : s.musLost = false) (hsupply : s.supply ≠ 0) :
    exec .mitorReady s = .next (if s.wakes.supply = 2 then s.wakes.readyToFunctions else s.wakes) := by
  show execMitorReady s = _
  unfold execMitorReady
  rw [if_neg (by simp [hup, hboot, hunits, hsupply])]
  rfl

theorem wakes_offReply (s : State) : s.wakes.offReply = ({ s with mitorUp := true } : State).offReply := by
  unfold State.wakes
  split
  · exact persist_offReply _
  · rfl

theorem wakes_funcs (s : State) : s.wakes.funcs = s.funcs := by
  unfold State.wakes
  split
  · exact (persist_keeps _).1
  · rfl

theorem mitor_of_offReply (h : t.offReply = s.offReply) :
    t.mitorUp = s.mitorUp ∧ t.mitorReady = s.mitorReady ∧ t.supply = s.supply ∧ t.layoutDue = s.layoutDue ∧ t.parts = s.parts :=
  ⟨(congrArg State.mitorUp h :), (congrArg State.mitorReady h :), (congrArg State.supply h :), (congrArg State.layoutDue h :), (congrArg State.parts h :)⟩

theorem wakes_keeps (s : State) : s.wakes.mitorUp = true ∧ s.wakes.mitorReady = s.mitorReady ∧ s.wakes.supply = s.supply ∧
    s.wakes.layoutDue = s.layoutDue ∧ s.wakes.parts = s.parts := mitor_of_offReply (wakes_offReply s)

theorem readied_keeps (s : State) : s.readied.mitorUp = s.mitorUp ∧ s.readied.mitorReady = true ∧ s.readied.supply = s.supply ∧
    s.readied.layoutDue = s.layoutDue ∧ s.readied.parts = s.parts := mitor_of_offReply (offReply_of_inner (readied_inner s))

theorem mitorReady_standby (hup : s.mitorUp = false) (hboot : s.bootStopped = false) (hunits : s.musLost = false) (hsupply : s.supply = 1) :
    ∃ t, exec .mitorReady s = .next t ∧ t.mitorUp = true ∧ t.mitorReady = s.mitorReady ∧ t.supply = 1 ∧
      (s.boots ≠ (s.bank s.curBank).data.boots → s.writing = none → t.writing = some s.snapshot) := by
  obtain ⟨hwup, hwready, hwsupply, -, -⟩ := wakes_keeps s
  have hone : s.wakes.supply = 1 := hwsupply.trans hsupply
  refine ⟨s.wakes, ?_, hwup, hwready, hone, fun hboots hidle => ?_⟩
  · rw [exec_mitorReady hup hboot hunits (by omega), if_neg (by omega)]
  · unfold State.wakes
    rw [if_pos (.inl hboots), State.persist, if_neg (by simp [hidle])]
    unfold State.startWrite State.setBank
    split <;> rfl

theorem mitorReady_functions (hr : rising s.funcs) (hup : s.mitorUp = false) (hboot : s.bootStopped = false) (hunits : s.musLost = false)
    (hsupply : s.supply = 2) (hlayout : s.layoutDue = false) :
    ∃ t, exec .mitorReady s = .next t ∧ t.mitorUp = true ∧ t.mitorReady = true ∧ (t.func 0).attnMask = 0x60100 ∧
      (∀ fn < 9, bit (t.func fn).mbx 4 = true ∧ bit (t.func fn).summary 3 = true) ∧ t.parts = s.parts := by
  obtain ⟨hwup, -, hwsupply, hwdue, hwparts⟩ := wakes_keeps s
  obtain ⟨hrup, hrready, -, hrdue, hrparts⟩ := readied_keeps s.wakes
  obtain ⟨hmask, htold⟩ := readied_funcs (s := s.wakes) (by rw [wakes_funcs]; exact hr)
  have hready : s.wakes.readyToFunctions = s.wakes.readied := by
    rw [readyToFunctions_eq, State.applyLayout, if_pos (hrdue.trans (hwdue.trans hlayout))]
  refine ⟨s.wakes.readied, ?_, hrup.trans hwup, hrready, hmask, htold, hrparts.trans hwparts⟩
  rw [exec_mitorReady hup hboot hunits (by omega), if_pos (hwsupply.trans hsupply), hready]

/-! ### The IO die's rails (R432) -/

/-- A state without what the IO die's rails bring up. -/
def State.offIo (s : State) : State := { s.offLogs with
  supply := 0, pwrGood := false, layoutDue := false, udpPort := none, subPorts := [], buckets := [], bucketTime := 0 }

theorem offIo_of_offLogs (h : t.offLogs = s.offLogs) : t.offIo = s.offIo :=
  (congrArg (fun x : State => { x with
    supply := 0, pwrGood := false, layoutDue := false, udpPort := none, subPorts := [], buckets := [], bucketTime := 0 }) h :)

/-- The state in which the rails are up, before the addresses of the store are taken. -/
def State.railed (s : State) : State :=
  { s with supply := 2, pwrGood := true, layoutDue := true, udpPort := (mfind s.conf.addrs 32).map ofBytes }

/-- A state without its sub-ports and buckets, which the addresses and the migration engine set. -/
def State.offWays (s : State) : State := { s.inner with subPorts := [], buckets := [], bucketTime := 0 }

theorem migrationBuckets_offWays (s : State) : s.migrationBuckets.offWays = s.offWays := by
  unfold State.migrationBuckets
  exact foldl_fixes (f := fun (x : State) r => x.setBucket (16 * r + 8) (fullBucket 51 64 false false)) State.offWays (fun _ _ => rfl) _ { s with bucketTime := s.now }

theorem ioDieOn_offWays (s : State) : s.ioDieOn.offWays = s.railed.offWays := by
  unfold State.ioDieOn
  extract_lets x y
  have hy : y.offWays = x.offWays := by
    refine foldl_fixes State.offWays (fun z k => ?_) _ x
    split
    · rfl
    · rfl
  have hemit (z : State) : (z.emit (.pwrGood true)).offWays = z.offWays := rfl
  rw [hemit, migrationBuckets_offWays, hy]
  rfl

theorem of_offWays (h : t.offWays = s.offWays) : t.offIo = s.offIo ∧ t.pins = s.pins := ⟨(congrArg State.offIo h :), (congrArg State.pins h :)⟩

theorem railed_keeps (s : State) : s.railed.offIo = s.offIo ∧ s.railed.pins = (2, true, s.pwrEn, s.lockout) := ⟨rfl, rfl⟩

theorem ioDieOn_offIo (s : State) : s.ioDieOn.offIo = s.offIo := (of_offWays (ioDieOn_offWays s)).1.trans (railed_keeps s).1

theorem ioDieOn_pins (s : State) : s.ioDieOn.pins = (2, true, s.pwrEn, s.lockout) := (of_offWays (ioDieOn_offWays s)).2.trans (railed_keeps s).2

/-- The rails come up, and Mitor becomes ready to the functions where it is up. -/
def State.comeUp (s : State) : State := if s.ioDieOn.mitorUp then s.ioDieOn.readyToFunctions else s.ioDieOn

theorem comeUp_pins (s : State) : s.comeUp.pins = (2, true, s.pwrEn, s.lockout) := by
  unfold State.comeUp
  split
  · exact (readyToFunctions_pins _).trans (ioDieOn_pins s)
  · exact ioDieOn_pins s

theorem pwrEnAssert_opens (hsupply : s.supply = 1) (hboot : s.bootStopped = false) (hlock : s.lockout = false) :
    ∃ t, exec .pwrEnAssert s = .next t ∧ t.pwrEn = true ∧ t.supply = 2 ∧ t.pwrGood = true := by
  have hpins := comeUp_pins { s with pwrEn := true }
  obtain ⟨hsup, hpair⟩ := Prod.mk.inj hpins
  obtain ⟨hgood, hrest⟩ := Prod.mk.inj hpair
  obtain ⟨hen, -⟩ := Prod.mk.inj hrest
  refine ⟨_, ?_, hen, hsup, hgood⟩
  show execPwrEnAssert s = _
  unfold execPwrEnAssert
  dsimp only
  rw [if_neg (by simp [hsupply, hboot, hlock])]
  rfl

/-- The state in which the lockout has ended. -/
def State.unlocked (s : State) (since : Nat) : State := ({ s with lockout := false }.until (since + 100000000)).driveAttn

theorem unlocked_inner (s : State) (since : Nat) :
    (s.unlocked since).inner = (({ s with lockout := false } : State).until (since + 100000000)).inner := driveAttn_inner _

theorem unlocked_keeps (s : State) (since : Nat) : (s.unlocked since).pwrEn = s.pwrEn ∧ (s.unlocked since).bootStopped = s.bootStopped ∧
    (s.unlocked since).supply = s.supply ∧ (s.unlocked since).lockout = false ∧ since + 100000000 ≤ (s.unlocked since).now := by
  have h := unlocked_inner s since
  have hnow : (s.unlocked since).now = max s.now (since + 100000000) := (congrArg State.now h :)
  refine ⟨(congrArg State.pwrEn h :), (congrArg State.bootStopped h :), (congrArg State.supply h :), (congrArg State.lockout h :), ?_⟩
  rw [hnow]
  exact le_max_right _ _

theorem comeUp_now (s : State) : s.now ≤ s.comeUp.now := by
  have hon : s.Onward false 4 s.ioDieOn := .ioDieOn (deep := 0) (.refl false s)
  unfold State.comeUp
  split
  · exact (State.Onward.readyToFunctions (deep := 0) hon).now
  · exact hon.now

theorem lockoutRecovery_recovers {since : Nat} (hsince : s.goodSince = some since) (hlock : s.lockout = true) :
    ∃ t, exec .lockoutRecovery s = .next t ∧ t.lockout = false ∧ since + 100000000 ≤ t.now ∧
      (s.pwrEn = true → s.bootStopped = false → t.supply = 2 ∧ t.pwrGood = true) ∧ (s.pwrEn = false → t.supply = s.supply) := by
  obtain ⟨hen, hboot, hsupply, hlocked, hnow⟩ := unlocked_keeps s since
  have hexec : exec .lockoutRecovery s = .next (if (s.unlocked since).pwrEn = false ∨ (s.unlocked since).bootStopped = true then s.unlocked since
      else (s.unlocked since).comeUp) := by
    show execLockoutRecovery s = _
    unfold execLockoutRecovery
    split
    next hnone => exact absurd (hnone.symm.trans hsince).symm (Option.some_ne_none _)
    next x hx =>
      obtain rfl := Option.some.inj (hx.symm.trans hsince)
      rw [if_neg (by simp [hlock])]
      extract_lets w
      have hw : s.unlocked x = w := rfl
      rw [hw]
      by_cases hstay : w.pwrEn = false ∨ w.bootStopped = true
      · rw [if_pos hstay, if_pos hstay]
      · rw [if_neg hstay, if_neg hstay]
        rfl
  rw [hexec]
  generalize s.unlocked since = w at *
  have hlater := comeUp_now w
  obtain ⟨htwo, hpair⟩ := Prod.mk.inj (comeUp_pins w)
  obtain ⟨hgood, hrest⟩ := Prod.mk.inj hpair
  obtain ⟨-, hup⟩ := Prod.mk.inj hrest
  refine ⟨_, rfl, ?_⟩
  split
  next hstay =>
    refine ⟨hlocked, hnow, fun hon hgo => ?_, fun _ => hsupply⟩
    rw [hen, hboot, hon, hgo] at hstay
    simp at hstay
  next hgo =>
    refine ⟨hup.trans hlocked, hnow.trans hlater, fun _ _ => ⟨htwo, hgood⟩, fun hoff => ?_⟩
    rw [hen, hoff] at hgo
    simp at hgo

/-! ### Power-on (R376, R432) -/

/-- The boathouse as it starts when the input comes. -/
def State.powered (s : State) (pwrEn : Bool) : State :=
  { s.unpowered with now := 0, supply := 1, pwrEn, readings := { vin := 44000 }, goodSince := some 0 }

/-- The state that has taken a record of the store. -/
def State.loaded (s : State) (cur : Nat) (d : StoreData) : State :=
  { s with curBank := cur, conf := d, retired := d.retired, thresholds := d.thresholds, boots := d.boots + 1, seed := Config.pufSeed d.helper }

/-- The bank whose record is the current one. -/
def State.newestBank (s : State) : Nat := if s.bankA.valid && (!s.bankB.valid || decide (s.bankB.seq ≤ s.bankA.seq)) then 0 else 1

/-- The rails of the IO die come up where `PWR_EN` asks for them and an image has started. -/
def State.started (s : State) (pwrEn : Bool) : State := if s.bootStopped then s else (if pwrEn then s.ioDieOn else s).driveAttn

theorem exec_powerOn_empty {pwrEn : Bool} (h : s.supply = 0) (hA : s.bankA.valid = false) (hB : s.bankB.valid = false) :
    exec (.powerOn pwrEn) s = .next { s.powered pwrEn with bootStopped := true } := by
  show execPowerOn pwrEn s = _
  unfold execPowerOn
  rw [if_neg (fun hne => hne h)]
  exact if_pos ⟨hA, hB⟩

theorem exec_powerOn_loaded {pwrEn : Bool} (h : s.supply = 0) (hvalid : ¬ (s.bankA.valid = false ∧ s.bankB.valid = false)) :
    exec (.powerOn pwrEn) s = .next
      ((((s.powered pwrEn).loaded s.newestBank (s.bank s.newestBank).data).resumeCounters.chooseUnit.startImage).started pwrEn) := by
  have hpowered : ¬ ((s.powered pwrEn).bankA.valid = false ∧ (s.powered pwrEn).bankB.valid = false) := hvalid
  show execPowerOn pwrEn s = _
  unfold execPowerOn
  rw [if_neg (fun hne => hne h)]
  refine (if_neg hpowered).trans ?_
  extract_lets w cur d x y
  have hy : ((s.powered pwrEn).loaded s.newestBank (s.bank s.newestBank).data).resumeCounters.chooseUnit.startImage = y := rfl
  rw [hy]
  unfold State.started
  split
  · rfl
  · rfl

theorem started_offIo (s : State) (pwrEn : Bool) : (s.started pwrEn).offIo = s.offIo := by
  unfold State.started
  split
  · rfl
  refine (offIo_of_offLogs (offLogs_of_inner (driveAttn_inner _))).trans ?_
  split
  · exact ioDieOn_offIo s
  · rfl

theorem started_pins (s : State) (pwrEn : Bool) : (s.started pwrEn).pins =
    if s.bootStopped = false ∧ pwrEn = true then (2, true, s.pwrEn, s.lockout) else s.pins := by
  unfold State.started
  cases hstop : s.bootStopped
  · rw [if_neg Bool.false_ne_true]
    refine (pins_of_inner (driveAttn_inner _)).trans ?_
    cases pwrEn
    · rw [if_neg Bool.false_ne_true, if_neg (by simp)]
    · rw [if_pos rfl, if_pos ⟨rfl, rfl⟩]
      exact ioDieOn_pins s
  · rw [if_pos rfl, if_neg (by simp)]

/-- A state without the image that runs and the slot that the store names. -/
def State.offImage (s : State) : State := { s.offIo with running := [], conf := { s.conf with slot := 0 }, bootStopped := false }

theorem offImage_of_offIo (h : t.offIo = s.offIo) : t.offImage = s.offImage :=
  (congrArg (fun x : State => { x with running := [], conf := { x.conf with slot := 0 }, bootStopped := false }) h :)

theorem offImage_of_offLogs (h : t.offLogs = s.offLogs) : t.offImage = s.offImage := offImage_of_offIo (offIo_of_offLogs h)

theorem startImage_offImage (s : State) : s.startImage.offImage = s.offImage := by
  obtain ⟨-, h⟩ | ⟨-, -, h⟩ | ⟨-, -, h⟩ := startImage_offLogs s
  · rw [h]
    rfl
  · rw [h]
    exact (offImage_of_offLogs (manage_offLogs _ _ _ _)).trans rfl
  · rw [h]
    rfl

theorem startImage_pins (s : State) : s.startImage.pins = s.pins := by
  obtain ⟨-, h⟩ | ⟨-, -, h⟩ | ⟨-, -, h⟩ := startImage_offLogs s
  · rw [h]
    rfl
  · rw [h]
    exact (manage_pins _ _ _ _).trans rfl
  · rw [h]
    rfl

/-- The state that the boot ROM finds: the record taken, its counters resumed and the unit chosen. -/
def State.found (s : State) (pwrEn : Bool) (cur : Nat) (d : StoreData) : State := ((s.powered pwrEn).loaded cur d).resumeCounters.chooseUnit

theorem chooseUnit_cases (s : State) : (∃ u, s.chooseUnit = { s with activeMu := u } ∧ (s.conf.repair.units = [] → u = 0)) ∨
    (s.chooseUnit = { s with musLost := true } ∧ s.conf.repair.units ≠ []) := by
  unfold State.chooseUnit
  extract_lets us
  have hus : s.conf.repair.units = [] → us = [0, 1] := fun hnone => by simp [us, hnone, List.range_succ]
  clear_value us
  split
  next u us' => exact .inl ⟨u, rfl, fun hnone => (List.cons.inj (hus hnone)).1⟩
  next => exact .inr ⟨rfl, fun hnone => absurd (hus hnone).symm (List.cons_ne_nil _ _)⟩

/-- What the boot ROM finds of the flash and the record. -/
theorem found_finds (s : State) (pwrEn : Bool) (cur : Nat) (d : StoreData) : let w := s.found pwrEn cur d
    w.mitorUp = false ∧ w.bankA = s.bankA ∧ w.bankB = s.bankB ∧ w.fwSlots = s.fwSlots ∧ w.retired = d.retired ∧ w.thresholds = d.thresholds ∧
      w.boots = d.boots + 1 ∧ w.seed = Config.pufSeed d.helper ∧ w.conf = d ∧ w.bootStopped = false ∧
      w.keyLast = d.keys.map (fun k => (k.1, mget 0 d.reserv k.1 + 2 ^ 20)) ∧ (d.repair.units = [] → w.activeMu = 0) ∧
      w.pins = (1, false, pwrEn, false) := by
  have hkeys : ((s.powered pwrEn).loaded cur d).resumeCounters.keyLast = d.keys.map (fun k => (k.1, mget 0 d.reserv k.1 + 2 ^ 20)) := by
    show (d.keys.map (·.1)).map _ = _
    rw [List.map_map]
    rfl
  intro w
  obtain ⟨u, h, hu⟩ | ⟨h, hu⟩ := chooseUnit_cases ((s.powered pwrEn).loaded cur d).resumeCounters
  · rw [show w = _ from h]
    exact ⟨rfl, rfl, rfl, rfl, rfl, rfl, rfl, rfl, rfl, rfl, hkeys, hu, rfl⟩
  · rw [show w = _ from h]
    exact ⟨rfl, rfl, rfl, rfl, rfl, rfl, rfl, rfl, rfl, rfl, hkeys, fun hnone => absurd hnone hu, rfl⟩

theorem keeps_of_offImage (h : t.offImage = s.offImage) : t.mitorUp = s.mitorUp ∧ t.bankA = s.bankA ∧ t.bankB = s.bankB ∧ t.fwSlots = s.fwSlots ∧
    t.retired = s.retired ∧ t.thresholds = s.thresholds ∧ t.boots = s.boots ∧ t.seed = s.seed ∧ t.keyLast = s.keyLast ∧ t.activeMu = s.activeMu ∧
    ({ t.conf with slot := 0 } : StoreData) = { s.conf with slot := 0 } :=
  ⟨(congrArg State.mitorUp h :), (congrArg State.bankA h :), (congrArg State.bankB h :), (congrArg State.fwSlots h :), (congrArg State.retired h :),
    (congrArg State.thresholds h :), (congrArg State.boots h :), (congrArg State.seed h :), (congrArg State.keyLast h :),
    (congrArg State.activeMu h :), (congrArg State.conf h :)⟩

/-- Which image runs after power-on, if one does. -/
theorem started_image (s : State) (pwrEn : Bool) (hgo : s.bootStopped = false) : let t := s.startImage.started pwrEn
    (s.slotBoots s.conf.slot = true → t.conf.slot = s.conf.slot ∧ t.running = mget [] s.fwSlots s.conf.slot ∧ t.bootStopped = false) ∧
    (s.slotBoots s.conf.slot = false → s.slotBoots (1 - s.conf.slot) = true → t.conf.slot = 1 - s.conf.slot ∧
      t.running = mget [] s.fwSlots (1 - s.conf.slot) ∧ t.bootStopped = false) ∧
    (s.slotBoots s.conf.slot = false → s.slotBoots (1 - s.conf.slot) = false → t.bootStopped = true ∧ t.pins = s.pins) := by
  intro t
  have hio : t.offIo = s.startImage.offIo := started_offIo _ pwrEn
  have hpins := started_pins s.startImage pwrEn
  have hstop : t.bootStopped = s.startImage.bootStopped := (congrArg State.bootStopped hio :)
  have hslot : t.conf.slot = s.startImage.conf.slot := (congrArg (fun x : State => x.conf.slot) hio :)
  have hrun : t.running = s.startImage.running := (congrArg State.running hio :)
  rw [hstop, hslot, hrun]
  obtain ⟨hboots, hi⟩ | ⟨hnot, hother, hi⟩ | ⟨hnot, hneither, hi⟩ := startImage_offLogs s
  · rw [hi]
    refine ⟨fun _ => ⟨rfl, rfl, hgo⟩, fun hno => ?_, fun hno => ?_⟩
    · rw [hboots] at hno
      cases hno
    · rw [hboots] at hno
      cases hno
  · have hall := manage_offLogs { s with running := mget [] s.fwSlots (1 - s.conf.slot), conf := { s.conf with slot := 1 - s.conf.slot } } 0 1 (1 - s.conf.slot)
    rw [← hi] at hall
    refine ⟨fun hyes => ?_, fun _ _ => ⟨(congrArg (fun x : State => x.conf.slot) hall :), (congrArg State.running hall :),
      (congrArg State.bootStopped hall :).trans hgo⟩, fun _ hno => ?_⟩
    · rw [hnot] at hyes
      cases hyes
    · rw [hother] at hno
      cases hno
  · refine ⟨fun hyes => ?_, fun _ hyes => ?_, fun _ _ => ⟨?_, ?_⟩⟩
    · rw [hnot] at hyes
      cases hyes
    · rw [hneither] at hyes
      cases hyes
    · rw [hi]
    · rw [hpins, if_neg (by rw [hi]; simp)]
      exact startImage_pins s

/-- What power-on leaves of the record `d` that it takes. -/
theorem powerOn_loads (pwrEn : Bool) (h : s.supply = 0) (hvalid : ¬ (s.bankA.valid = false ∧ s.bankB.valid = false)) :
    let t := (s.found pwrEn s.newestBank (s.bank s.newestBank).data).startImage.started pwrEn
    let d := (s.bank s.newestBank).data
    let at' : State := { s with conf := d }
    exec (.powerOn pwrEn) s = .next t ∧ t.mitorUp = false ∧ t.bankA = s.bankA ∧ t.bankB = s.bankB ∧ t.fwSlots = s.fwSlots ∧
      t.retired = d.retired ∧ t.thresholds = d.thresholds ∧ t.boots = d.boots + 1 ∧ t.seed = Config.pufSeed d.helper ∧
      t.conf = { d with slot := t.conf.slot } ∧
      t.keyLast = d.keys.map (fun k => (k.1, mget 0 d.reserv k.1 + 2 ^ 20)) ∧ (d.repair.units = [] → t.activeMu = 0) ∧
      (at'.slotBoots d.slot = true → t.conf.slot = d.slot ∧ t.running = mget [] s.fwSlots d.slot ∧ t.bootStopped = false) ∧
      (at'.slotBoots d.slot = false → at'.slotBoots (1 - d.slot) = true → t.conf.slot = 1 - d.slot ∧
        t.running = mget [] s.fwSlots (1 - d.slot) ∧ t.bootStopped = false) ∧
      (at'.slotBoots d.slot = false → at'.slotBoots (1 - d.slot) = false → t.bootStopped = true ∧ t.supply = 1 ∧ t.pwrGood = false) ∧
      (t.bootStopped = false → (pwrEn = true → t.supply = 2 ∧ t.pwrGood = true) ∧ (pwrEn = false → t.supply = 1 ∧ t.pwrGood = false)) := by
  intro t d at'
  obtain ⟨hup, hA, hB, hslots, hretired, hthresholds, hboots, hseed, hconf, hgo, hkeys, hmu, hpins⟩ := found_finds s pwrEn s.newestBank d
  have hexec : exec (.powerOn pwrEn) s = .next t := exec_powerOn_loaded h hvalid
  have ht : (s.found pwrEn s.newestBank d).startImage.started pwrEn = t := rfl
  have hio : t.offImage = (s.found pwrEn s.newestBank d).offImage :=
    (offImage_of_offIo (started_offIo _ pwrEn)).trans (startImage_offImage _)
  have himage := started_image (s.found pwrEn s.newestBank d) pwrEn hgo
  have hbooted := slotBoots_of (t := s.found pwrEn s.newestBank d) (s := at') hslots (by rw [hconf])
  have hstop : t.bootStopped = (s.found pwrEn s.newestBank d).startImage.bootStopped := (congrArg State.bootStopped (started_offIo _ pwrEn) :)
  have hlast := started_pins (s.found pwrEn s.newestBank d).startImage pwrEn
  dsimp only at himage
  rw [ht] at himage hlast
  rw [startImage_pins, hpins, ← hstop] at hlast
  obtain ⟨kup, kA, kB, kslots, kretired, kthresholds, kboots, kseed, kkeys, kmu, kconf⟩ := keeps_of_offImage hio
  clear_value t
  rw [hconf, hbooted, hbooted, hslots, hpins] at himage
  obtain ⟨hfirst, hsecond, hneither⟩ := himage
  rw [hconf] at kconf
  refine ⟨hexec, kup.trans hup, kA.trans hA, kB.trans hB, kslots.trans hslots, kretired.trans hretired, kthresholds.trans hthresholds,
    kboots.trans hboots, kseed.trans hseed, ?_, kkeys.trans hkeys, fun hnone => kmu.trans (hmu hnone), hfirst, hsecond, fun hno hno' => ?_, fun hrun => ?_⟩
  · exact (congrArg (fun x : StoreData => { x with slot := t.conf.slot }) kconf :)
  · obtain ⟨hstopped, hpin⟩ := hneither hno hno'
    exact ⟨hstopped, (Prod.mk.inj hpin).1, (Prod.mk.inj (Prod.mk.inj hpin).2).1⟩
  · refine ⟨fun hen => ?_, fun hen => ?_⟩
    · rw [if_pos ⟨hrun, hen⟩] at hlast
      exact ⟨(Prod.mk.inj hlast).1, (Prod.mk.inj (Prod.mk.inj hlast).2).1⟩
    · rw [if_neg (by simp [hen])] at hlast
      exact ⟨(Prod.mk.inj hlast).1, (Prod.mk.inj (Prod.mk.inj hlast).2).1⟩

/-- The record that power-on takes is that of the newest valid bank. -/
theorem newestBank_data {d : StoreData}
    (h : (s.bankA.valid = true ∧ (s.bankB.valid = false ∨ s.bankB.seq ≤ s.bankA.seq) ∧ d = s.bankA.data) ∨
      (s.bankB.valid = true ∧ (s.bankA.valid = false ∨ s.bankA.seq < s.bankB.seq) ∧ d = s.bankB.data)) :
    ¬ (s.bankA.valid = false ∧ s.bankB.valid = false) ∧ (s.bank s.newestBank).data = d := by
  obtain ⟨hvalid, hnewer, rfl⟩ | ⟨hvalid, hnewer, rfl⟩ := h
  · have hbank : s.newestBank = 0 := by
      unfold State.newestBank
      rw [if_pos]
      rcases hnewer with hB | hle
      · simp [hvalid, hB]
      · simp [hvalid, hle]
    refine ⟨by simp [hvalid], ?_⟩
    rw [hbank]
    rfl
  · have hbank : s.newestBank = 1 := by
      unfold State.newestBank
      rw [if_neg]
      rcases hnewer with hA | hlt
      · simp [hA]
      · simp [hvalid, hlt]
    refine ⟨by simp [hvalid], ?_⟩
    rw [hbank]
    rfl

/-- Settles O47: power-on starts the image that the store names, or the other, and brings the rails up; Mitor's readiness, the power-enable pin, the
loss of the input, the lockout with its recovery, and the soft reset each leave what survives them. -/
theorem startUpCommands : Obligations.StartUpCommands := by
  unfold Obligations.StartUpCommands
  intro s hs flash lost open'
  refine ⟨fun pwrEn hoff => ?_, fun hup hboot hunits => ⟨fun hsupply => mitorReady_standby hup hboot hunits hsupply,
      fun hsupply hlayout => mitorReady_functions hs.tables.funcs hup hboot hunits hsupply hlayout⟩,
    fun hsupply hboot hlock => pwrEnAssert_opens hsupply hboot hlock, fun hoff => ⟨?_, ?_⟩, fun hsupply => pwrEnDeassert_falls hsupply,
    fun hsupply => ?_, fun hsupply hlock hvin => supplyLockout_locks hsupply hlock hvin, fun since hsince hlock => lockoutRecovery_recovers hsince hlock,
    fun hsupply hboot hunits => mitorSoftReset_restarts hsupply hboot hunits⟩
  · by_cases hvalid : s.bankA.valid = false ∧ s.bankB.valid = false
    · refine ⟨_, exec_powerOn_empty hoff hvalid.1 hvalid.2, rfl, rfl, rfl, rfl, fun _ _ => ⟨rfl, rfl, unpowered_isLost s⟩, fun d hd => ?_⟩
      exact absurd hvalid (newestBank_data hd).1
    · obtain ⟨hexec, hup, hA, hB, hslots, hrest⟩ := powerOn_loads pwrEn hoff hvalid
      refine ⟨_, hexec, hup, hA, hB, hslots, fun hA hB => absurd ⟨hA, hB⟩ hvalid, fun d hd => ?_⟩
      obtain rfl := (newestBank_data hd).2
      exact hrest
  · show execPwrEnAssert s = _
    exact if_pos (.inl (by simp [hoff]))
  · show execPwrEnDeassert s = _
    exact if_pos (by simp [hoff])
  · exact supplyLoss_loses hsupply

end Sys2Proof.Machine
end

section
/-! An arriving KFT packet: the checks that drop it (R312, R314, R331, R333). -/

namespace Sys2Proof.Machine

open Sys2Proof

variable {s t u v w : State} {k : KftPacket} {o : Opened}

/-- The bytes of a packet whose header breaks R314. -/
def kftBad (b : List Byte) : Prop :=
  b.length < (if beField b 0 1 % 16 = 4 then 24 else 40) ∨ beField b 0 1 / 16 ≠ 1 ∨ beField b 0 1 % 16 = 0 ∨
    4 < beField b 0 1 % 16 ∨ 4 ≤ beField b 1 1

theorem strangerPacket_drops (h : s.openPacket k = (t, none)) : exec (.strangerPacket k) s = .next t := by
  show execStrangerPacket k s = _
  unfold execStrangerPacket
  rw [h]

theorem openPacket_absent (h : s.udpPort = none ∨ s.subExists k.sub = false) : s.openPacket k = (s.subCount k.sub 7 1, none) := by
  unfold State.openPacket
  exact if_pos h

section
variable (hport : s.udpPort ≠ none) (hsub : s.subExists k.sub = true)
include hport hsub

theorem openPacket_bad (h : kftBad k.bytes) : s.openPacket k = (s.subCount k.sub 8 1, none) := by
  unfold State.openPacket
  extract_lets bs typ
  rw [if_neg (by simp [hport, hsub])]
  exact if_pos h

theorem openPacket_handshake (h : ¬ kftBad k.bytes) (htyp : beField k.bytes 0 1 % 16 = 4) : s.openPacket k = (s, none) := by
  unfold State.openPacket
  extract_lets bs typ
  rw [if_neg (by simp [hport, hsub])]
  exact (if_neg h).trans (if_pos htyp)

variable (hgood : ¬ kftBad k.bytes) (htyp : beField k.bytes 0 1 % 16 ≠ 4)
include hgood htyp

theorem openPacket_homeless (h : ∀ e ∈ s.assocs, ¬ (e.2.live = true ∧ e.2.ownTag = beField k.bytes 4 4)) :
    s.openPacket k = (s.subCount k.sub 9 1, none) := by
  have hnone : s.assocs.find? (fun e => e.2.live && decide (e.2.ownTag = beField k.bytes 4 4) && decide (beField k.bytes 4 4 ≠ 0)) = none := by
    refine List.find?_eq_none.2 fun e he hyes => ?_
    simp only [Bool.and_eq_true, decide_eq_true_eq] at hyes
    exact h e he hyes.1
  unfold State.openPacket
  extract_lets bs typ tag epoch ctr
  rw [if_neg (by simp [hport, hsub])]
  refine (if_neg hgood).trans ((if_neg htyp).trans ?_)
  rw [hnone]

variable {a : Nat} {x : Assoc} (hzero : beField k.bytes 4 4 ≠ 0)
  (hhome : ∀ e ∈ s.assocs, (e.2.live = true ∧ e.2.ownTag = beField k.bytes 4 4) ↔ e = (a, x)) (hmem : (a, x) ∈ s.assocs)
  (hnext : x.next = none) (hcarries : x.carries = true)

omit hport hsub hgood htyp in
include hzero hhome hmem in
/-- A packet's association is the one whose tag it names. -/
theorem find_home : s.assocs.find? (fun e => e.2.live && decide (e.2.ownTag = beField k.bytes 4 4) && decide (beField k.bytes 4 4 ≠ 0)) = some (a, x) := by
  rcases hfind : s.assocs.find? (fun e => e.2.live && decide (e.2.ownTag = beField k.bytes 4 4) && decide (beField k.bytes 4 4 ≠ 0)) with _ | e
  · refine absurd ?_ (List.find?_eq_none.1 hfind _ hmem)
    simp only [Bool.and_eq_true, decide_eq_true_eq]
    exact ⟨(hhome _ hmem).2 rfl, hzero⟩
  · have hyes := List.find?_some hfind
    simp only [Bool.and_eq_true, decide_eq_true_eq] at hyes
    rw [hfind, (hhome e (List.mem_of_find?_eq_some hfind)).1 hyes.1]

include hzero hhome hmem hnext hcarries

theorem openPacket_unkeyed (h : ∀ key ∈ x.keys, key.epoch ≠ beField k.bytes 3 1) : s.openPacket k = (s.subCount k.sub 9 1, none) := by
  have hnone : x.keys.find? (fun n => decide (n.epoch = beField k.bytes 3 1)) = none :=
    List.find?_eq_none.2 fun n hn hyes => h n hn (of_decide_eq_true hyes)
  have hfind := find_home hzero hhome hmem
  unfold State.openPacket
  extract_lets bs typ tag epoch ctr
  rw [if_neg (by simp [hport, hsub])]
  refine (if_neg hgood).trans ((if_neg htyp).trans ?_)
  rw [hfind]
  dsimp only
  rw [hcarries, hnext, if_pos rfl, List.append_nil, hnone]

variable {key : EpochKey} (hkeys : x.keys = [key]) (hepoch : key.epoch = beField k.bytes 3 1)
include hkeys hepoch

theorem openPacket_forged (h : Config.gcmOpen key.recvKey (key.recvSalt ++ be 8 (beField k.bytes 8 8)) (k.bytes.take 24) (k.bytes.drop 24) = none) :
    s.openPacket k = (s.subCount k.sub 10 1, none) := by
  have hkey : x.keys.find? (fun n => decide (n.epoch = beField k.bytes 3 1)) = some key := by simp [hkeys, hepoch]
  have hfind := find_home hzero hhome hmem
  unfold State.openPacket
  extract_lets bs typ tag epoch ctr
  rw [if_neg (by simp [hport, hsub])]
  refine (if_neg hgood).trans ((if_neg htyp).trans ?_)
  rw [hfind]
  dsimp only
  rw [hcarries, hnext, if_pos rfl, List.append_nil, hkey]
  dsimp only
  rw [h]

theorem openPacket_replayed {body : List Byte}
    (h : Config.gcmOpen key.recvKey (key.recvSalt ++ be 8 (beField k.bytes 8 8)) (k.bytes.take 24) (k.bytes.drop 24) = some body)
    (hseen : key.takes (beField k.bytes 8 8) = false) : s.openPacket k = (s.subCount k.sub 11 1, none) := by
  have hkey : x.keys.find? (fun n => decide (n.epoch = beField k.bytes 3 1)) = some key := by simp [hkeys, hepoch]
  have hfind := find_home hzero hhome hmem
  unfold State.openPacket
  extract_lets bs typ tag epoch ctr
  rw [if_neg (by simp [hport, hsub])]
  refine (if_neg hgood).trans ((if_neg htyp).trans ?_)
  rw [hfind]
  dsimp only
  rw [hcarries, hnext, if_pos rfl, List.append_nil, hkey]
  dsimp only
  rw [h]
  exact if_pos (by rw [hseen]; rfl)

end

end Sys2Proof.Machine
end

section
/-! An arriving KFT packet: what its opening and acceptance leave of its association (R322, R329, R331). -/

namespace Sys2Proof.Machine

open Sys2Proof

variable {s t u v w : State} {k : KftPacket} {o : Opened} {a : Nat}

/-! ### What a packet that leaves keeps -/

/-- From s to t an association has been counted on, in its paths and keys: what it may do, where it stands and whom it serves are as they were. -/
structure State.Serves (a : Nat) (s t : State) : Prop where
  rise : rising t.assocs
  ctxs : t.ctxs = s.ctxs
  windows : (t.assoc a).windows = (s.assoc a).windows
  target : (t.assoc a).target = (s.assoc a).target
  part : (t.assoc a).part = (s.assoc a).part

/-- Its state, its epoch and the absence of a next one stay as well. -/
structure State.Settles (a : Nat) (s t : State) : Prop extends State.Serves a s t where
  state : (t.assoc a).state = (s.assoc a).state
  epoch : (t.assoc a).epoch = (s.assoc a).epoch
  next : (s.assoc a).next = none → (t.assoc a).next = none

theorem State.Serves.refl (h : rising s.assocs) : s.Serves a s := ⟨h, rfl, rfl, rfl, rfl⟩

theorem State.Serves.trans (h : s.Serves a t) (h' : t.Serves a u) : s.Serves a u :=
  ⟨h'.rise, h'.ctxs.trans h.ctxs, h'.windows.trans h.windows, h'.target.trans h.target, h'.part.trans h.part⟩

theorem State.Settles.refl (h : rising s.assocs) : s.Settles a s := ⟨.refl h, rfl, rfl, id⟩

theorem State.Settles.trans (h : s.Settles a t) (h' : t.Settles a u) : s.Settles a u :=
  ⟨h.toServes.trans h'.toServes, h'.state.trans h.state, h'.epoch.trans h.epoch, fun hn => h'.next (h.next hn)⟩

theorem setAssoc_serves (h : rising s.assocs) {x : Assoc} (hw : x.windows = (s.assoc a).windows) (ht : x.target = (s.assoc a).target)
    (hp : x.part = (s.assoc a).part) : s.Serves a (s.setAssoc a x) := by
  have hset := assoc_setAssoc (s := s) (a := a) x h
  exact ⟨setAssoc_keeps_rising a x h, rfl, by rw [hset, hw], by rw [hset, ht], by rw [hset, hp]⟩

theorem setAssoc_settles (h : rising s.assocs) {x : Assoc} (hw : x.windows = (s.assoc a).windows) (ht : x.target = (s.assoc a).target)
    (hp : x.part = (s.assoc a).part) (hs : x.state = (s.assoc a).state) (he : x.epoch = (s.assoc a).epoch)
    (hn : (s.assoc a).next = none → x.next = none) : s.Settles a (s.setAssoc a x) := by
  have hset := assoc_setAssoc (s := s) (a := a) x h
  exact ⟨setAssoc_serves h hw ht hp, by rw [hset, hs], by rw [hset, he], fun hnone => by rw [hset, hn hnone]⟩

theorem sendPacket_settles (p : KPath) (bs : List Byte) (h : rising s.assocs) : s.Settles a (s.sendPacket a p bs) := by
  have hctxs : (s.sendPacket a p bs).ctxs = s.ctxs := rfl
  obtain ⟨hrise, -, hsame, -⟩ := sendPacket_hails a p bs h
  generalize s.sendPacket a p bs = t at *
  exact ⟨⟨hrise, hctxs, (congrArg Assoc.windows hsame :), (congrArg Assoc.target hsame :), (congrArg Assoc.part hsame :)⟩,
    (congrArg Assoc.state hsame :), (congrArg Assoc.epoch hsame :), fun hn => (congrArg Assoc.next hsame :).trans hn⟩

theorem sealSend_settles {path typ flags : Nat} {key : EpochKey} {bs : List Byte} (h : rising s.assocs) :
    s.Settles a (s.sealSend a path typ flags key bs) := by
  obtain he | ⟨p, payload, he⟩ := sealSend_packet s a path typ flags key bs
  · rw [he]
    exact .refl h
  · rw [he]
    have hseal : s.Settles a (s.sample.1.setAssoc a ((s.assoc a).sealing path key p)) := by
      have hset := setAssoc_settles (s := s.sample.1) (a := a) h (x := (s.assoc a).sealing path key p) rfl rfl rfl rfl rfl
        (fun hn => congrArg (Option.map _) hn)
      exact ⟨⟨hset.rise, hset.ctxs, hset.windows, hset.target, hset.part⟩, hset.state, hset.epoch, hset.next⟩
    exact hseal.trans (sendPacket_settles p payload hseal.rise)

theorem sendAck_settles {path flags : Nat} (h : rising s.assocs) : s.Settles a (s.sendAck a path flags) := by
  unfold State.sendAck
  extract_lets x key
  split
  next key' p ps _ _ =>
    have hpick : s.Settles a (s.pick (p :: ps).length).1 := ⟨⟨h, rfl, rfl, rfl, rfl⟩, rfl, rfl, id⟩
    split
    next y i he =>
    rw [he] at hpick
    extract_lets z x'
    have hz : s.Settles a z := hpick.trans (sealSend_settles hpick.rise)
    clear_value z
    exact hz.trans (setAssoc_settles hz.rise rfl rfl rfl rfl rfl id)
  next => exact .refl h

theorem promote_serves (h : rising s.assocs) : s.Serves a (s.promote a) := by
  unfold State.promote
  dsimp only
  split
  · exact setAssoc_serves h rfl rfl rfl
  · exact .refl h

/-- The epoch that was being established is the current one. -/
theorem promote_up (h : rising s.assocs) {n : EpochKey} (hn : (s.assoc a).next = some n) :
    ((s.promote a).assoc a).state = .up ∧ ((s.promote a).assoc a).epoch = n.epoch ∧ ((s.promote a).assoc a).next = none := by
  unfold State.promote
  dsimp only
  rw [hn]
  dsimp only
  rw [assoc_setAssoc _ h]
  exact ⟨rfl, rfl, rfl⟩

/-- The counters that an accepted packet adds to. -/
def State.countIn (s : State) (k : KftPacket) : State :=
  (((s.subCount k.sub 1 1).subCount k.sub 3 k.len).subCount k.sub 5 (b2n k.ce)).countWide (17 + 2 * (k.sub / 4)) k.len

theorem subCount_keeps (s : State) (sub i n : Nat) : (s.subCount sub i n).assocs = s.assocs ∧ (s.subCount sub i n).ctxs = s.ctxs := ⟨rfl, rfl⟩

theorem countWide_keeps (s : State) (i n : Nat) : (s.countWide i n).assocs = s.assocs ∧ (s.countWide i n).ctxs = s.ctxs := ⟨rfl, rfl⟩

theorem countIn_keeps (s : State) (k : KftPacket) : (s.countIn k).assocs = s.assocs ∧ (s.countIn k).ctxs = s.ctxs := by
  simp only [State.countIn, countWide_keeps, subCount_keeps, and_self]

theorem settles_of_keeps (h : rising s.assocs) (ha : t.assocs = s.assocs) (hc : t.ctxs = s.ctxs) : s.Settles a t := by
  have hassoc : t.assoc a = s.assoc a := by simp only [State.assoc, ha]
  refine ⟨⟨ha ▸ h, hc, ?_, ?_, ?_⟩, ?_, ?_, fun hn => ?_⟩
  all_goals rw [hassoc]
  exact hn

/-- What the acceptance of a packet leaves: the association counted on, its next epoch promoted where the packet is the first of it, and perhaps an
acknowledgement sent. -/
def State.Accepts (s : State) (o : Opened) (t : State) : Prop := ∃ v, s.Settles o.assoc v ∧ (v.assoc o.assoc).next = (s.assoc o.assoc).next ∧
  ∃ w, w = (if o.fresh && ((s.assoc o.assoc).initiator || o.confirm) then v.promote o.assoc else v) ∧ (t = w ∨ t = w.sendAck o.assoc o.path 0)

theorem acceptWith_steps (note : RxPath → Nat → Nat → Bool → Bool → RxPath × Bool) (h : rising s.assocs) (k : KftPacket) (o : Opened) :
    s.Accepts o (s.acceptWith note k o) := by
  unfold State.acceptWith
  split
  next y now he =>
    have hkeeps : s.sample.1.assocs = s.assocs ∧ s.sample.1.ctxs = s.ctxs := ⟨rfl, rfl⟩
    rw [he] at hkeeps
    obtain ⟨hya, hyc⟩ := hkeeps
    dsimp only at hya hyc
    obtain ⟨hca, hcc⟩ := countIn_keeps y k
    unfold State.countIn at hca hcc
    extract_lets z x
    change z.assocs = _ at hca
    change z.ctxs = _ at hcc
    clear_value z
    have hz : s.Settles o.assoc z := settles_of_keeps h (hca.trans hya) (hcc.trans hyc)
    have hx : x = s.assoc o.assoc := by simp only [x, State.assoc, hca, hya]
    split
    next r gap _ =>
      extract_lets r' v w
      have hv : s.Settles o.assoc v := hz.trans (setAssoc_settles hz.rise rfl rfl rfl rfl rfl id)
      have hnext : (v.assoc o.assoc).next = (s.assoc o.assoc).next := by
        rw [← hx]
        exact (congrArg Assoc.next (assoc_setAssoc (s := z) (a := o.assoc) _ hz.rise) :)
      refine ⟨v, hv, hnext, w, by rw [← hx], ?_⟩
      split
      · exact .inr rfl
      · exact .inl rfl

theorem acceptPacket_steps (h : rising s.assocs) (k : KftPacket) (o : Opened) : s.Accepts o (s.acceptPacket k o) := by
  rw [acceptPacket_eq]
  exact acceptWith_steps _ h k o

theorem acceptPacket_serves (h : rising s.assocs) (k : KftPacket) (o : Opened) : s.Serves o.assoc (s.acceptPacket k o) := by
  obtain ⟨v, hv, -, w, hw, he⟩ := acceptPacket_steps h k o
  have hserves : s.Serves o.assoc w := by
    rw [hw]
    split
    · exact hv.toServes.trans (promote_serves hv.rise)
    · exact hv.toServes
  obtain he | he := he
  · rw [he]
    exact hserves
  · rw [he]
    exact hserves.trans (sendAck_settles hserves.rise).toServes

/-- The first packet of a new epoch that the responder waits for brings the association up (R329). -/
theorem acceptPacket_up (h : rising s.assocs) {n : EpochKey} (hconfirm : o.confirm = true) (hfresh : o.fresh = true)
    (hn : (s.assoc o.assoc).next = some n) : ((s.acceptPacket k o).assoc o.assoc).state = .up ∧
      ((s.acceptPacket k o).assoc o.assoc).epoch = n.epoch ∧ ((s.acceptPacket k o).assoc o.assoc).next = none := by
  obtain ⟨v, hv, hnext, w, hw, he⟩ := acceptPacket_steps h k o
  rw [if_pos (by simp [hconfirm, hfresh])] at hw
  obtain ⟨hstate, hepoch, hnone⟩ := promote_up (a := o.assoc) hv.rise (hnext.trans hn)
  have hrise := (promote_serves (a := o.assoc) hv.rise).rise
  rw [← hw] at hstate hepoch hnone hrise
  obtain he | he := he
  · rw [he]
    exact ⟨hstate, hepoch, hnone⟩
  · rw [he]
    have hack := sendAck_settles (a := o.assoc) (path := o.path) (flags := 0) hrise
    exact ⟨hack.state.trans hstate, hack.epoch.trans hepoch, hack.next hnone⟩

end Sys2Proof.Machine
end

section
/-! An arriving message whose turn it is: how it is performed and answered (R318 to R320). -/

namespace Sys2Proof.Machine

open Sys2Proof

variable {s t u v w : State} {k : KftPacket} {o : Opened} {g r : Seg} {a : Nat}

/-! ### Packets that are opened -/

/-- A packet of a type is authentic, and `u` is the state in which its association carries data and it is accepted. -/
def State.OpensUp (s : State) (k : KftPacket) (typ : Nat) (u : State) (o : Opened) : Prop :=
  ∃ t, s.openPacket k = (t, some o) ∧ o.typ = typ ∧ o.confirm = false ∧ u = t.acceptPacket k o ∧ (u.assoc o.assoc).carries = true

theorem openPacket_keeps (hs : s.Sound) (h : s.openPacket k = (t, some o)) : rising t.assocs ∧ t.stalled = false := by
  have hon : s.Onward true 1 t := by
    have hopen := State.Onward.openPacket (k := k) (deep := 0) (.refl true s)
    rw [h] at hopen
    exact hopen
  exact ⟨(hon.tables hs.tables).assocs, hon.stalled rfl hs.served⟩

theorem State.OpensUp.rise {typ : Nat} (h : s.OpensUp k typ u o) (hs : s.Sound) : rising u.assocs := by
  obtain ⟨t, hopen, -, -, rfl, -⟩ := h
  exact (acceptPacket_serves (openPacket_keeps hs hopen).1 k o).rise

theorem State.OpensUp.served {typ : Nat} (h : s.OpensUp k typ u o) (hs : s.Sound) : u.stalled = false := by
  obtain ⟨t, hopen, -, -, rfl, -⟩ := h
  exact (State.Onward.acceptPacket (deep := 0) (.refl true t)).stalled rfl (openPacket_keeps hs hopen).2

theorem kftRow_opens {typ : Nat} {mop : Option Nat} (h : s.OpensUp k typ u o) (hmop : o.segs.head?.map (·.mop) = mop) (f : State → Opened → State) :
    s.kftRow k typ mop f = f u o := by
  obtain ⟨t, hopen, htyp, hconfirm, hu, hcarries⟩ := h
  unfold State.kftRow
  rw [hopen]
  dsimp only
  rw [if_pos ⟨htyp, hconfirm, hmop⟩, ← hu, if_pos hcarries]

/-- No read of the packet meets a segment line in repair. -/
def State.NoneHeld (s : State) (k : KftPacket) (o : Opened) : Prop := ∀ v, s.openPacket k = (v, some o) → v.readHeld o.assoc o.segs = none

theorem noneHeld_of_mop (hsegs : o.segs = [g]) (hmop : g.mop ≠ 2) : s.NoneHeld k o := by
  intro v _
  rw [hsegs]
  unfold State.readHeld
  dsimp only
  rw [if_neg (fun h => hmop h.1)]
  rfl

theorem msgRow_opens (h : s.OpensUp k 1 u o) (hsegs : o.segs = [g]) (hheld : s.NoneHeld k o) :
    s.msgRow k g.mop = u.performSegs k.sub o.assoc [g] := by
  obtain ⟨t, hopen, -⟩ := id h
  unfold State.msgRow
  extract_lets held
  have hnone : held = none := by
    unfold held
    rw [hopen]
    dsimp only
    rw [hheld t hopen]
    split <;> rfl
  rw [hnone]
  dsimp only
  rw [kftRow_opens h (by rw [hsegs]; rfl), hsegs]

/-! ### Requests in their turn -/

/-- A message in its turn, as its operation performs it. -/
def State.performs (s : State) (a : Nat) (g : Seg) : State :=
  match g.mop with
  | 1 => s.performWrite a g
  | 2 => s.performRead a g
  | 4 => s.performAtomic a g
  | _ => s.applyLanding a g.seq g.mop g.addr g.arg

theorem performs_write (h : g.mop = 1) : s.performs a g = s.performWrite a g := by
  unfold State.performs
  split
  next => rfl
  next h2 => exact absurd (h.symm.trans h2) (by decide)
  next h4 => exact absurd (h.symm.trans h4) (by decide)
  next h1 _ _ => exact absurd h h1

theorem performs_read (h : g.mop = 2) : s.performs a g = s.performRead a g := by
  unfold State.performs
  split
  next h1 => exact absurd (h.symm.trans h1) (by decide)
  next => rfl
  next h4 => exact absurd (h.symm.trans h4) (by decide)
  next _ h2 _ => exact absurd h h2

theorem performs_atomic (h : g.mop = 4) : s.performs a g = s.performAtomic a g := by
  unfold State.performs
  split
  next h1 => exact absurd (h.symm.trans h1) (by decide)
  next h2 => exact absurd (h.symm.trans h2) (by decide)
  next => rfl
  next _ _ h4 => exact absurd h h4

theorem performs_landing (h1 : g.mop ≠ 1) (h2 : g.mop ≠ 2) (h4 : g.mop ≠ 4) : s.performs a g = s.applyLanding a g.seq g.mop g.addr g.arg := by
  unfold State.performs
  split
  next h => exact absurd h h1
  next h => exact absurd h h2
  next h => exact absurd h h4
  next => rfl

/-- A message has been performed and is answered by a segment. -/
def State.replies (s : State) (a : Nat) (r : Seg) (seq : Nat) : State := (s.queueSeg a r).msgDone a seq

/-- The operations of the answers (Table 12-6). -/
def isAnswer (mop : Nat) : Prop := mop = 3 ∨ mop = 5 ∨ mop = 6 ∨ mop = 10

/-- The message that comes next is in its turn. -/
structure State.InTurn (s : State) (a : Nat) (g : Seg) : Prop where
  low : (s.assoc a).rxLow = g.seq
  done : (s.assoc a).rxDone = []
  msgs : (s.assoc a).rxMsgs = []

theorem performRequest_turn (h : s.InTurn a g) (sub : Nat) : s.performRequest sub a g = (s.performs a g).landingsDue a 4096 := by
  have hzero : (g.seq + 2 ^ 32 - (s.assoc a).rxLow) % 2 ^ 32 = 0 := by
    rw [h.low, Nat.add_sub_cancel_left, Nat.mod_self]
  unfold State.performRequest
  extract_lets x d m y
  have hd : d = 0 := hzero
  have hdone : g.seq ∉ x.rxDone := by simp [x, h.done]
  rw [if_neg (by rw [hd]; simp [hdone]), if_neg (by omega)]
  refine congrArg (fun t => State.landingsDue t a 4096) ?_
  unfold y
  split
  next h1 => exact (performs_write h1).symm
  next h2 => exact (performs_read h2).symm
  next h4 => exact (performs_atomic h4).symm
  next h1 h2 h4 => exact (if_pos hd).trans (performs_landing h1 h2 h4).symm

theorem performSegs_request (hmop : ¬ isAnswer g.mop) (sub : Nat) : s.performSegs sub a [g] = s.performRequest sub a g := by
  unfold State.performSegs
  exact (congrArg (fun t => State.performSegs t sub a []) (if_neg hmop)).trans rfl

theorem performSegs_answer (hmop : isAnswer g.mop) (sub : Nat) : s.performSegs sub a [g] = s.performAnswer a g := by
  unfold State.performSegs
  exact (congrArg (fun t => State.performSegs t sub a []) (if_pos hmop)).trans rfl

/-- The lowest number that is not performed counts on when it is performed. -/
theorem absorb_turn (n low : Nat) : absorb (n + 2) low [low] = ((low + 1) % 2 ^ 32, []) := by
  have hgone : sremove [low] low = [] := by simp [sremove]
  unfold absorb
  rw [if_pos List.mem_cons_self, hgone]
  unfold absorb
  exact if_neg List.not_mem_nil

theorem queueSeg_assoc (h : rising s.assocs) (r : Seg) : (s.queueSeg a r).assoc a = { s.assoc a with sendQ := (s.assoc a).sendQ ++ [r] } :=
  assoc_setAssoc _ h

theorem queueSeg_rise (h : rising s.assocs) (r : Seg) : rising (s.queueSeg a r).assocs := setAssoc_keeps_rising _ _ h

theorem msgDone_turn (hr : rising s.assocs) (h : s.InTurn a g) : (s.msgDone a g.seq).assoc a =
    { s.assoc a with rxLow := ((s.assoc a).rxLow + 1) % 2 ^ 32 } := by
  have habsorb := absorb_turn 4095 (s.assoc a).rxLow
  unfold State.msgDone
  dsimp only
  rw [← h.low, h.done, habsorb]
  refine (assoc_setAssoc _ hr).trans ?_
  rw [h.msgs, List.filter_nil]

theorem replies_assoc (hr : rising s.assocs) (h : s.InTurn a g) (r : Seg) : (s.replies a r g.seq).assoc a =
    { s.assoc a with sendQ := (s.assoc a).sendQ ++ [r], rxLow := ((s.assoc a).rxLow + 1) % 2 ^ 32 } := by
  have hqueue := queueSeg_assoc (a := a) hr r
  have hturn : (s.queueSeg a r).InTurn a g := by
    refine ⟨?_, ?_, ?_⟩
    all_goals rw [hqueue]
    · exact h.low
    · exact h.done
    · exact h.msgs
  rw [State.replies, msgDone_turn (queueSeg_rise hr r) hturn, hqueue]

theorem replies_landingsDue (hr : rising s.assocs) (h : s.InTurn a g) (r : Seg) (n : Nat) :
    (s.replies a r g.seq).landingsDue a n = s.replies a r g.seq := by
  have hnone : ((s.replies a r g.seq).assoc a).rxMsgs = [] := by
    rw [replies_assoc hr h]
    exact h.msgs
  cases n with
  | zero => rfl
  | succ n =>
    unfold State.landingsDue
    extract_lets x
    have hx : x.rxMsgs = [] := hnone
    split
    next m hm =>
      rw [hx] at hm
      cases hm
    next => rfl

/-- A message of a packet whose turn it is, alone in its packet. -/
structure State.Turn (s : State) (k : KftPacket) (u : State) (o : Opened) (g : Seg) : Prop where
  opens : s.OpensUp k 1 u o
  segs : o.segs = [g]
  turn : u.InTurn o.assoc g

/-- A message in its turn that is answered by a segment: the state in which it is performed stands, with the answer queued and the number counted
on. -/
theorem State.Turn.answers (hs : s.Sound) (h : s.Turn k u o g) (hheld : s.NoneHeld k o) (hmop : ¬ isAnswer g.mop)
    (hperform : u.performs o.assoc g = w.replies o.assoc r g.seq) (hassocs : w.assocs = u.assocs) (hserved : w.stalled = false) :
    s.waits (.next (s.msgRow k g.mop)) = .next (w.replies o.assoc r g.seq) ∧ (w.replies o.assoc r g.seq).assoc o.assoc =
      { u.assoc o.assoc with sendQ := (u.assoc o.assoc).sendQ ++ [r], rxLow := ((u.assoc o.assoc).rxLow + 1) % 2 ^ 32 } := by
  have hassoc : w.assoc o.assoc = u.assoc o.assoc := by simp only [State.assoc, hassocs]
  have hrise : rising w.assocs := hassocs ▸ h.opens.rise hs
  have hturn : w.InTurn o.assoc g := ⟨by rw [hassoc]; exact h.turn.low, by rw [hassoc]; exact h.turn.done, by rw [hassoc]; exact h.turn.msgs⟩
  rw [msgRow_opens h.opens h.segs hheld, performSegs_request hmop, performRequest_turn h.turn, hperform, replies_landingsDue hrise hturn,
    replies_assoc hrise hturn, hassoc]
  exact ⟨waits_of_served hserved, rfl⟩

end Sys2Proof.Machine
end

section
/-! Settled: what an arriving KFT packet does (R312, R314, R317 to R320, R322, R329, R331, R333). -/

namespace Sys2Proof.Machine

open Sys2Proof

variable {s t u v w y : State} {k : KftPacket} {o : Opened} {g r : Seg} {a n : Nat}

/-! ### What a request in its turn answers (R318, R319) -/

theorem replies_keeps (s : State) (a : Nat) (r : Seg) (n : Nat) :
    (s.replies a r n).hbm = s.hbm ∧ (s.replies a r n).slots = s.slots ∧ (s.replies a r n).ctxs = s.ctxs := ⟨rfl, rfl, rfl⟩

theorem refuse_eq (s : State) (a n status : Nat) : s.refuse a n status = s.replies a { mop := 10, seq := n, arg := status } n := rfl

theorem acknowledge_eq (s : State) (a n : Nat) : s.acknowledge a n = s.replies a { mop := 6, seq := n } n := rfl

/-- A segment is queued for the peer, and the number of the message is performed. -/
def State.Answered (u t : State) (a : Nat) (r : Seg) : Prop :=
  t.assoc a = { u.assoc a with sendQ := (u.assoc a).sendQ ++ [r], rxLow := ((u.assoc a).rxLow + 1) % 2 ^ 32 }

/-- A message is refused with a status, and nothing else changes that a partition sees. -/
def State.Refused (u t : State) (a : Nat) (g : Seg) (status : Nat) : Prop :=
  u.Answered t a { mop := 10, seq := g.seq, arg := status } ∧ t.hbm = u.hbm ∧ t.slots = u.slots ∧ t.ctxs = u.ctxs

section
variable (hs : s.Sound) (h : s.Turn k u o g) (hheld : s.NoneHeld k o) (hmop : ¬ isAnswer g.mop) (ht : s.waits (.next (s.msgRow k g.mop)) = .next t)
include hs h hheld hmop ht

theorem State.Turn.answered (hperform : u.performs o.assoc g = w.replies o.assoc r g.seq) (hassocs : w.assocs = u.assocs)
    (hserved : w.stalled = false) : u.Answered t o.assoc r ∧ t.hbm = w.hbm ∧ t.slots = w.slots ∧ t.ctxs = w.ctxs := by
  obtain ⟨hexec, hassoc⟩ := h.answers hs hheld hmop hperform hassocs hserved
  obtain rfl : t = w.replies o.assoc r g.seq := by simpa using ht.symm.trans hexec
  exact ⟨hassoc, replies_keeps _ _ _ _⟩

theorem State.Turn.refused {status : Nat} (hperform : u.performs o.assoc g = u.refuse o.assoc g.seq status) : u.Refused t o.assoc g status :=
  h.answered hs hheld hmop ht hperform rfl (h.opens.served hs)

end

theorem performWrite_refuses (h : s.targetLive (s.assoc a) = false ∨ (s.assoc a).allows g.addr g.total (·.w) = false) :
    s.performWrite a g = s.refuse a g.seq 0x22 := by
  unfold State.performWrite
  dsimp only
  rw [if_pos]
  rcases h with h | h
  · simp [h]
  · simp [h]

theorem performWrite_writes {bs : List Byte} (hturn : s.InTurn a g) (hoff : g.off = 0) (hlen : g.data.length = g.total)
    (hlive : s.targetLive (s.assoc a) = true) (hallows : (s.assoc a).allows g.addr g.total (·.w) = true)
    (hwrite : s.vaWrite (kftEngine (s.assoc a).target) g.addr g.data = (w, .ok bs)) :
    s.performWrite a g = w.acknowledge a g.seq := by
  unfold State.performWrite
  dsimp only
  rw [if_neg (by simp [hlive, hallows, hoff, hlen]), hturn.msgs]
  simp [hoff, hwrite, InMsg.covered, sum, hlen]

theorem performRead_refuses (h : s.targetLive (s.assoc a) = false ∨ (s.assoc a).allows g.addr g.total (·.r) = false) :
    s.performRead a g = s.refuse a g.seq 0x22 := by
  unfold State.performRead
  dsimp only
  rw [if_pos]
  rcases h with h | h
  · simp [h]
  · simp [h]

theorem performRead_reads {bs : List Byte} (hlive : s.targetLive (s.assoc a) = true) (hallows : (s.assoc a).allows g.addr g.total (·.r) = true)
    (hread : s.remoteRead a g = (w, .ok bs)) :
    s.performRead a g = w.replies a { mop := 3, seq := g.seq, total := g.total, addr := g.addr, data := bs } g.seq := by
  unfold State.performRead
  dsimp only
  rw [if_neg (by simp [hlive, hallows]), hread]
  rfl

theorem assocs_of_onward {b : Bool} (h : State.Onward b 0 s t) : t.assocs = s.assocs := congrArg Prod.fst h.fabric

theorem remoteRead_keeps (s : State) (a : Nat) (g : Seg) : (s.remoteRead a g).1.assocs = s.assocs :=
  assocs_of_onward (.remoteRead (.refl false s))

/-- A read that was not held before the packet was accepted, or may not be made, is not held. -/
theorem noneHeld_of_refused (hs : s.Sound) (h : s.OpensUp k 1 u o) (hsegs : o.segs = [g])
    (hno : u.targetLive (u.assoc o.assoc) = false ∨ (u.assoc o.assoc).allows g.addr g.total (·.r) = false) : s.NoneHeld k o := by
  intro v hv
  obtain ⟨t, hopen, -, -, rfl, -⟩ := h
  obtain rfl : v = t := (Prod.mk.inj (hv.symm.trans hopen)).1
  have hserves := acceptPacket_serves (openPacket_keeps hs hopen).1 k o
  generalize v.acceptPacket k o = x at *
  have hallows : (x.assoc o.assoc).allows g.addr g.total (·.r) = (v.assoc o.assoc).allows g.addr g.total (·.r) := by
    rw [Assoc.allows, Assoc.allows, hserves.windows]
  have hctx (n : Nat) : x.ctx n = v.ctx n := by rw [State.ctx, State.ctx, hserves.ctxs]
  have hlive : x.targetLive (x.assoc o.assoc) = v.targetLive (v.assoc o.assoc) := by
    rw [State.targetLive, State.targetLive, hserves.target, hserves.part, hctx]
  rw [hallows, hlive] at hno
  rw [hsegs]
  unfold State.readHeld
  dsimp only
  rw [if_neg (by rcases hno with hno | hno <;> simp [hno])]
  rfl

/-! ### Atomics (R129, R318) -/

theorem performAtomic_refuses (h : s.targetLive (s.assoc a) = false ∨ (s.assoc a).allows g.addr 8 (·.a) = false ∨ 6 < g.arg % 256) :
    s.performAtomic a g = s.refuse a g.seq 0x22 := by
  unfold State.performAtomic
  extract_lets x w
  by_cases hmay : (!(s.targetLive x && x.allows g.addr 8 (·.a))) = true
  · exact if_pos hmay
  · rw [if_neg hmay]
    have hop : aopOf (g.arg % 256) = none := by
      have hlarge : 6 < g.arg % 256 := by
        rcases h with h | h | h
        · simp [x, h] at hmay
        · simp [x, h] at hmay
        · exact h
      exact List.getElem?_eq_none (by simpa using Nat.succ_le_of_lt hlarge)
    rw [hop]

theorem performAtomic_unaligned (hlive : s.targetLive (s.assoc a) = true) (hallows : (s.assoc a).allows g.addr 8 (·.a) = true)
    (hop : g.arg % 256 ≤ 6) (haddr : g.addr % 8 ≠ 0) : s.performAtomic a g = s.refuse a g.seq 0x23 := by
  unfold State.performAtomic
  extract_lets x w
  rw [if_neg (by simp [x, hlive, hallows])]
  split
  next hnone =>
    have hlong := List.getElem?_eq_none_iff.1 hnone
    simp at hlong
    omega
  next => exact if_pos haddr

/-- The word that an atomic leaves, if it changes it. -/
def State.storesAtomic (s : State) (q ctx pa : Nat) (new : Option Nat) : State :=
  match new with
  | some n => (s.paWrite (.io 4) q ctx pa (toBytes 8 n)).1
  | none => s

theorem performAtomic_swaps {op pa : Nat} {bs : List Byte} (hlive : s.targetLive (s.assoc a) = true)
    (hallows : (s.assoc a).allows g.addr 8 (·.a) = true) (hop : aopOf (g.arg % 256) = some op) (haddr : g.addr % 8 = 0)
    (hxlate : s.xlate (kftEngine (s.assoc a).target) g.addr { r := true, w := true } = (w, .ok pa))
    (hplace : ∀ i off, w.locate (s.assoc a).part pa ≠ .segment i off)
    (hread : w.paRead (.io 4) (s.assoc a).part (s.assoc a).target pa 8 = (v, .ok bs)) :
    s.performAtomic a g = (v.storesAtomic (s.assoc a).part (s.assoc a).target pa
        (atomicOp op 8 false (ofBytes bs) (beField g.data 0 8) (beField g.data 8 8))).replies a
      { mop := 5, seq := g.seq, total := 8, data := be 8 (ofBytes bs) } g.seq := by
  unfold State.performAtomic
  extract_lets x e
  rw [if_neg (by simp [x, hlive, hallows]), hop]
  dsimp only
  rw [if_neg (by simp [haddr]), hxlate]
  dsimp only
  split
  next i off hseg => exact absurd hseg (hplace i off)
  next =>
    rw [hread]
    dsimp only
    generalize atomicOp op 8 false (ofBytes bs) (beField g.data 0 8) (beField g.data 8 8) = new
    cases new with
    | none => rfl
    | some n => rfl

/-! ### Landing messages (R280, R318, R320) -/

theorem applyLanding_arrives {addr arg : Nat} (hmirror : (s.slot (20000 + addr % 256)).mirror = none)
    (hstate : (s.slot (20000 + addr % 256)).state ≠ .free) (hsub : ∃ p ∈ (s.slot (20000 + addr % 256)).subs, p.1 = a) :
    s.applyLanding a n 7 addr arg =
      (s.arrive (20000 + addr % 256) (s.slot (20000 + addr % 256)).owner (arg % 65536)).acknowledge a n := by
  obtain ⟨p, hp, hpa⟩ := hsub
  unfold State.applyLanding
  extract_lets key x
  rw [if_pos rfl]
  exact if_pos ⟨hmirror, hstate, List.any_eq_true.2 ⟨p, hp, decide_eq_true hpa⟩⟩

theorem applyLanding_refuses {addr arg : Nat} (h : (s.slot (20000 + addr % 256)).mirror ≠ none ∨ (s.slot (20000 + addr % 256)).state = .free ∨
    ∀ p ∈ (s.slot (20000 + addr % 256)).subs, p.1 ≠ a) : s.applyLanding a n 7 addr arg = s.refuse a n 0x22 := by
  unfold State.applyLanding
  extract_lets key x
  rw [if_pos rfl]
  refine if_neg fun ⟨hmirror, hstate, hsub⟩ => ?_
  obtain ⟨p, hp, hpa⟩ := List.any_eq_true.1 hsub
  rcases h with h | h | h
  · exact h hmirror
  · exact hstate h
  · exact h p hp (of_decide_eq_true hpa)

section
variable {m addr arg : Nat}

theorem applyLanding_unmirrored {mop : Nat} (hmop : mop ≠ 7) (h : (s.slot (20000 + addr % 256)).mirror = none) :
    s.applyLanding a n mop addr arg = s.refuse a n 0x22 := by
  unfold State.applyLanding
  extract_lets key x
  rw [if_neg hmop]
  exact if_pos (by simp [x, key, h])

theorem applyLanding_releases (h : (s.slot (20000 + addr % 256)).mirror = some (a, m)) (harg : arg < 2 ^ 32) :
    s.applyLanding a n 8 addr arg =
      ((s.setSlot (20000 + addr % 256) { s.slot (20000 + addr % 256) with gen := arg, count := arg }).releaseSlot
        (20000 + addr % 256) arg).acknowledge a n := by
  have hgen : arg % 2 ^ 32 = arg := Nat.mod_eq_of_lt harg
  have hstatus : arg / 2 ^ 32 % 65536 = 0 := by rw [Nat.div_eq_of_lt harg, Nat.zero_mod]
  unfold State.applyLanding
  extract_lets key x gen status t
  rw [if_neg (by decide), if_neg (by simp [x, key, h]), if_pos rfl, if_pos hstatus]
  have hg : gen = arg := hgen
  clear_value gen
  subst hg
  rfl

theorem applyLanding_loses (h : (s.slot (20000 + addr % 256)).mirror = some (a, m)) :
    s.applyLanding a n 9 addr arg = (s.loseSlot (20000 + addr % 256)).acknowledge a n := by
  unfold State.applyLanding
  extract_lets key x gen status t
  rw [if_neg (by decide), if_neg (by simp [x, key, h]), if_neg (by decide)]

end

/-! ### Answers of the peer (R317, R319) -/

section
variable {m : OutMsg} (hfind : (s.assoc a).outMsgs.find? (fun m => decide (m.seq = g.seq)) = some m)
include hfind

theorem performAnswer_read (hmop : g.mop = 3) : s.performAnswer a g = if m.mop = 2 then s.readReturns a m g else s := by
  unfold State.performAnswer
  rw [hfind]
  dsimp only
  split
  next => rfl
  next h5 => exact absurd (hmop.symm.trans h5) (by decide)
  next h6 => exact absurd (hmop.symm.trans h6) (by decide)
  next h3 _ _ => exact absurd hmop h3

theorem performAnswer_atomic (hmop : g.mop = 5) (hm : m.mop = 4) (hentry : m.entry ≠ none) {bs : List Byte}
    (hwrite : s.vaWrite (kftEngine m.ctx) m.addr (toBytes 8 (beField g.data 0 8)) = (w, .ok bs)) :
    s.performAnswer a g = w.answered a m 0 := by
  unfold State.performAnswer
  rw [hfind]
  dsimp only
  split
  next h3 => exact absurd (hmop.symm.trans h3) (by decide)
  next =>
    rw [if_pos hm, State.writeLocal, if_neg hentry, Nat.add_zero, hwrite]
  next h6 => exact absurd (hmop.symm.trans h6) (by decide)
  next _ h5 _ => exact absurd hmop h5

theorem performAnswer_atomicOther (hmop : g.mop = 5) (hm : m.mop ≠ 4) : s.performAnswer a g = s := by
  unfold State.performAnswer
  rw [hfind]
  dsimp only
  split
  next h3 => exact absurd (hmop.symm.trans h3) (by decide)
  next => exact if_neg hm
  next h6 => exact absurd (hmop.symm.trans h6) (by decide)
  next _ h5 _ => exact absurd hmop h5

theorem performAnswer_ack (hmop : g.mop = 6) (h2 : m.mop ≠ 2) (h4 : m.mop ≠ 4) : s.performAnswer a g = s.answered a m 0 := by
  unfold State.performAnswer
  rw [hfind]
  dsimp only
  split
  next h3 => exact absurd (hmop.symm.trans h3) (by decide)
  next h5 => exact absurd (hmop.symm.trans h5) (by decide)
  next => exact if_neg (by simp [h2, h4])
  next _ _ h6 => exact absurd hmop h6

theorem performAnswer_nak (hmop : g.mop = 10) : s.performAnswer a g = s.answered a m (g.arg % 65536) := by
  unfold State.performAnswer
  rw [hfind]
  dsimp only
  split
  next h3 => exact absurd (hmop.symm.trans h3) (by decide)
  next h5 => exact absurd (hmop.symm.trans h5) (by decide)
  next h6 => exact absurd (hmop.symm.trans h6) (by decide)
  next => rfl

end

theorem readReturns_all {m : OutMsg} {bs : List Byte} (hentry : m.entry ≠ none) (hgot : m.got = []) (hoff : g.off = 0) (hlen : m.len ≤ g.data.length)
    (hwrite : s.vaWrite (kftEngine m.ctx) m.addr g.data = (w, .ok bs)) :
    s.readReturns a m g = w.answered a { m with got := [(0, g.data.length)] } 0 := by
  unfold State.readReturns
  rw [if_neg (by simp [hgot]), State.writeLocal, if_neg hentry, hoff, Nat.add_zero, hwrite]
  dsimp only
  rw [hgot]
  exact if_pos (by simpa [sum] using hlen)

/-- The command of an answer performs it where it is accepted. -/
theorem answerRow (h : s.OpensUp k 1 u o) (hsegs : o.segs = [g]) (hmop : isAnswer g.mop) : s.msgRow k g.mop = u.performAnswer o.assoc g := by
  have hheld : s.NoneHeld k o := noneHeld_of_mop hsegs fun h2 => by
    rw [h2] at hmop
    revert hmop
    unfold isAnswer
    decide
  rw [msgRow_opens h hsegs hheld, performSegs_answer hmop]

/-! ### Acknowledgements of paths (R322) -/

theorem beField_lt (bs : List Byte) (off n : Nat) : beField bs off n < 256 ^ n := by
  refine (ofBytes_lt _).trans_le (Nat.pow_le_pow_right (by decide) ?_)
  rw [List.length_reverse, List.length_take]
  exact min_le_left _ _

/-- How far a packet's number lies above the one that an acknowledgement expects next, modulo 2^32. -/
theorem distance_cum {cum : Nat} (h : cum < 2 ^ 32) : 2 ^ 31 ≤ (cum + 2 ^ 32 - (cum + 1) % 2 ^ 32) % 2 ^ 32 := by
  by_cases hlast : cum + 1 = 2 ^ 32
  · rw [hlast, Nat.mod_self]
    omega
  · rw [Nat.mod_eq_of_lt (by omega : cum + 1 < 2 ^ 32)]
    omega

theorem ackEntry_frees {path ce cum map ts : Nat} {r : KPath} (hr : rising s.assocs) (hpath : mfind (s.assoc a).paths path = some r)
    (hcum : cum < 2 ^ 32) {p : SentPkt} (hp : p ∈ ((s.ackEntry a path ce cum map ts).assoc a).sent) :
    p ∈ (s.assoc a).sent ∧ ¬ (p.path = path ∧ p.psn = cum) := by
  unfold State.ackEntry at hp
  split at hp
  next y now he =>
  have hy : s.sample.1.assocs = s.assocs := rfl
  rw [he] at hy
  dsimp only at hy
  have hassoc : y.assoc a = s.assoc a := by simp only [State.assoc, hy]
  extract_lets x dist acked mine lost done at hp
  have hx : x = s.assoc a := hassoc
  split at hp
  next hnone =>
    rw [hx, hpath] at hnone
    cases hnone
  next k' _ =>
    extract_lets k1 k2 x' at hp
    rw [assoc_setAssoc _ (hy ▸ hr)] at hp
    have hkept : p ∈ x'.sent := (List.mem_filter.1 hp).1
    obtain ⟨hsent, hopen⟩ := List.mem_filter.1 hkept
    rw [hx] at hsent
    refine ⟨hsent, fun ⟨hmine, hpsn⟩ => of_decide_eq_true hopen ?_⟩
    have hacked : acked p = true := by
      have hdist : 2 ^ 31 ≤ dist p.psn := by
        rw [hpsn]
        exact distance_cum hcum
      exact Bool.or_eq_true_iff.2 (.inl (decide_eq_true hdist))
    refine List.mem_filter.2 ⟨List.mem_filter.2 ⟨?_, decide_eq_true hmine⟩, hacked⟩
    rw [hx]
    exact hsent

theorem ackEntries_one {body : List Byte} (h : body.length = 20) (n : Nat) : s.ackEntries a (n + 2) body =
    s.ackEntry a (beField body 0 1) (beField body 2 2) (beField body 4 4) (beField body 8 8) (beField body 16 4) := by
  unfold State.ackEntries
  rw [if_neg (by omega)]
  unfold State.ackEntries
  exact if_pos (by rw [List.length_drop]; omega)

/-! ### Assembly -/

/-- The row of each operation that a packet's messages may be of. -/
theorem exec_of_goes {i : Instr} (h : ∀ p, i ≠ .powerOn p) : ∃ t, exec i s = .next t := by
  obtain ⟨t, ht, -⟩ := exec_goes (s := s) i h
  exact ⟨t, ht⟩

/-- The drops of a packet (R333), as the obligation states them. -/
theorem strangerPacket_rules (s : State) (k : KftPacket) : let b := k.bytes
    let typ := beField b 0 1 % 16
    let dropped := fun (i : Nat) => exec (.strangerPacket k) s = .next (s.subCount k.sub i 1)
    let home := fun (e : Nat × Assoc) => e.2.live = true ∧ e.2.ownTag = beField b 4 4
    (s.udpPort = none ∨ s.subExists k.sub = false → dropped 7) ∧
    (s.udpPort ≠ none → s.subExists k.sub = true →
      (kftBad b → dropped 8) ∧ (¬ kftBad b → typ = 4 → exec (.strangerPacket k) s = .next s) ∧
      (¬ kftBad b → typ ≠ 4 → (∀ e ∈ s.assocs, ¬ home e) → dropped 9) ∧
      (∀ a x, ¬ kftBad b → typ ≠ 4 → beField b 4 4 ≠ 0 → (∀ e ∈ s.assocs, home e ↔ e = (a, x)) → (a, x) ∈ s.assocs → x.next = none → x.carries = true →
        ((∀ key ∈ x.keys, key.epoch ≠ beField b 3 1) → dropped 9) ∧
        (∀ key, x.keys = [key] → key.epoch = beField b 3 1 →
          let opened := Config.gcmOpen key.recvKey (key.recvSalt ++ be 8 (beField b 8 8)) (b.take 24) (b.drop 24)
          (opened = none → dropped 10) ∧ (∀ body, opened = some body → key.takes (beField b 8 8) = false → dropped 11)))) := by
  intro b typ dropped home
  refine ⟨fun habsent => strangerPacket_drops (openPacket_absent habsent), fun hport hsub => ⟨fun hbad => strangerPacket_drops (openPacket_bad hport hsub hbad),
    fun hgood htyp => strangerPacket_drops (openPacket_handshake hport hsub hgood htyp),
    fun hgood htyp hno => strangerPacket_drops (openPacket_homeless hport hsub hgood htyp hno), fun a x hgood htyp hzero hhome hmem hnext hcarries => ⟨?_, ?_⟩⟩⟩
  · exact fun hno => strangerPacket_drops (openPacket_unkeyed hport hsub hgood htyp hzero hhome hmem hnext hcarries hno)
  · refine fun key hkeys hepoch => ⟨fun hnone => ?_, fun body hbody hseen => ?_⟩
    · exact strangerPacket_drops (openPacket_forged hport hsub hgood htyp hzero hhome hmem hnext hcarries hkeys hepoch hnone)
    · exact strangerPacket_drops (openPacket_replayed hport hsub hgood htyp hzero hhome hmem hnext hcarries hkeys hepoch hbody hseen)

theorem not_isAnswer_of {m : Nat} (h : g.mop = m) (hm : m ≠ 3 ∧ m ≠ 5 ∧ m ≠ 6 ∧ m ≠ 10) : ¬ isAnswer g.mop := by
  rw [h]
  unfold isAnswer
  omega

section
variable (hs : s.Sound) (h : s.Turn k u o g)
include hs h

theorem msgWrite_performs (hmop : g.mop = 1) (hoff : g.off = 0) (hlen : g.data.length = g.total) (ht : exec (.msgWrite k) s = .next t) :
    let x := u.assoc o.assoc
    (u.targetLive x = false ∨ x.allows g.addr g.total (·.w) = false → u.Refused t o.assoc g 0x22) ∧
    (∀ w bs, u.targetLive x = true → x.allows g.addr g.total (·.w) = true → u.vaWrite (kftEngine x.target) g.addr g.data = (w, .ok bs) →
      w.stalled = false → u.Answered t o.assoc { mop := 6, seq := g.seq } ∧ t.hbm = w.hbm) := by
  intro x
  have hrow : s.waits (.next (s.msgRow k g.mop)) = .next t := by
    rw [hmop]
    exact ht
  have hheld : s.NoneHeld k o := noneHeld_of_mop h.segs (by omega)
  have hreq := not_isAnswer_of hmop (by omega)
  refine ⟨fun hno => ?_, fun w bs hlive hallows hwrite hserved => ?_⟩
  · exact h.refused hs hheld hreq hrow ((performs_write hmop).trans (performWrite_refuses hno))
  · have hkeep := assocs_of_onward (State.Onward.vaWrite (w := kftEngine x.target) (va := g.addr) (bytes := g.data) (.refl (deep := 0) false u))
    rw [hwrite] at hkeep
    obtain ⟨hanswer, hhbm, -, -⟩ := h.answered hs hheld hreq hrow
      ((performs_write hmop).trans (performWrite_writes h.turn hoff hlen hlive hallows hwrite)) hkeep hserved
    exact ⟨hanswer, hhbm⟩

theorem readReq_performs (hmop : g.mop = 2) (ht : exec (.readReq k) s = .next t) : let x := u.assoc o.assoc
    (u.targetLive x = false ∨ x.allows g.addr g.total (·.r) = false → u.Refused t o.assoc g 0x22) ∧
    (∀ v w bs, s.openPacket k = (v, some o) → v.readHeld o.assoc o.segs = none → u.targetLive x = true →
      x.allows g.addr g.total (·.r) = true → u.remoteRead o.assoc g = (w, .ok bs) → w.stalled = false →
      u.Answered t o.assoc { mop := 3, seq := g.seq, total := g.total, addr := g.addr, data := bs }) := by
  intro x
  have hrow : s.waits (.next (s.msgRow k g.mop)) = .next t := by
    rw [hmop]
    exact ht
  have hreq := not_isAnswer_of hmop (by omega)
  refine ⟨fun hno => ?_, fun v w bs hopen hnone hlive hallows hread hserved => ?_⟩
  · exact h.refused hs (noneHeld_of_refused hs h.opens h.segs hno) hreq hrow ((performs_read hmop).trans (performRead_refuses hno))
  · have hheld : s.NoneHeld k o := fun v' hv' => by
      rw [(Prod.mk.inj (hv'.symm.trans hopen)).1]
      exact hnone
    have hkeep := remoteRead_keeps u o.assoc g
    rw [hread] at hkeep
    exact (h.answered hs hheld hreq hrow ((performs_read hmop).trans (performRead_reads hlive hallows hread)) hkeep hserved).1

theorem msgAtomic_performs (hmop : g.mop = 4) (ht : exec (.msgAtomic k) s = .next t) : let x := u.assoc o.assoc
    (u.targetLive x = false ∨ x.allows g.addr 8 (·.a) = false ∨ 6 < g.arg % 256 → u.Refused t o.assoc g 0x22) ∧
    (u.targetLive x = true → x.allows g.addr 8 (·.a) = true → g.arg % 256 ≤ 6 → g.addr % 8 ≠ 0 → u.Refused t o.assoc g 0x23) ∧
    (∀ op pa w v bs, u.targetLive x = true → x.allows g.addr 8 (·.a) = true → aopOf (g.arg % 256) = some op → g.addr % 8 = 0 →
      u.xlate (kftEngine x.target) g.addr { r := true, w := true } = (w, .ok pa) → (∀ i off, w.locate x.part pa ≠ .segment i off) →
      w.paRead (.io 4) x.part x.target pa 8 = (v, .ok bs) → let old := ofBytes bs
      (∀ new, atomicOp op 8 false old (beField g.data 0 8) (beField g.data 8 8) = some new →
        let y := (v.paWrite (.io 4) x.part x.target pa (toBytes 8 new)).1
        y.stalled = false → u.Answered t o.assoc { mop := 5, seq := g.seq, total := 8, data := be 8 old } ∧ t.hbm = y.hbm) ∧
      (atomicOp op 8 false old (beField g.data 0 8) (beField g.data 8 8) = none → v.stalled = false →
        u.Answered t o.assoc { mop := 5, seq := g.seq, total := 8, data := be 8 old } ∧ t.hbm = v.hbm)) := by
  intro x
  have hrow : s.waits (.next (s.msgRow k g.mop)) = .next t := by
    rw [hmop]
    exact ht
  have hheld : s.NoneHeld k o := noneHeld_of_mop h.segs (by omega)
  have hreq := not_isAnswer_of hmop (by omega)
  refine ⟨fun hno => ?_, fun hlive hallows hop haddr => ?_, fun op pa w v bs hlive hallows hop haddr hxlate hplace hread => ?_⟩
  · exact h.refused hs hheld hreq hrow ((performs_atomic hmop).trans (performAtomic_refuses hno))
  · exact h.refused hs hheld hreq hrow ((performs_atomic hmop).trans (performAtomic_unaligned hlive hallows hop haddr))
  · have hw : State.Onward false 0 u w := by
      have hon := State.Onward.xlate (w := kftEngine x.target) (va := g.addr) (p := { r := true, w := true }) (.refl (deep := 0) false u)
      rw [hxlate] at hon
      exact hon
    have hv : State.Onward false 0 u v := by
      have hon := State.Onward.paRead (m := .io 4) (q := x.part) (ctx := x.target) (pa := pa) (n := 8) hw
      rw [hread] at hon
      exact hon
    have hperform := (performs_atomic hmop).trans (performAtomic_swaps hlive hallows hop haddr hxlate hplace hread)
    refine ⟨fun new hnew => ?_, fun hnone hserved => ?_⟩
    · intro y hserved
      have hy : y.assocs = u.assocs := assocs_of_onward (State.Onward.paWrite hv)
      rw [hnew] at hperform
      obtain ⟨hanswer, hhbm, -, -⟩ := h.answered hs hheld hreq hrow (w := y) hperform hy hserved
      exact ⟨hanswer, hhbm⟩
    · rw [hnone] at hperform
      obtain ⟨hanswer, hhbm, -, -⟩ := h.answered hs hheld hreq hrow (w := v) hperform (assocs_of_onward hv) hserved
      exact ⟨hanswer, hhbm⟩

/-- A landing message in its turn is applied. -/
theorem landing_performs (hmop : 7 ≤ g.mop ∧ g.mop ≤ 9) (hrow : s.waits (.next (s.msgRow k g.mop)) = .next t) :
    (∀ w : State, u.applyLanding o.assoc g.seq g.mop g.addr g.arg = w.acknowledge o.assoc g.seq → w.assocs = u.assocs → w.stalled = false →
      u.Answered t o.assoc { mop := 6, seq := g.seq } ∧ t.slots = w.slots ∧ t.ctxs = w.ctxs) ∧
    (u.applyLanding o.assoc g.seq g.mop g.addr g.arg = u.refuse o.assoc g.seq 0x22 → u.Refused t o.assoc g 0x22) := by
  have hheld : s.NoneHeld k o := noneHeld_of_mop h.segs (by omega)
  have hreq : ¬ isAnswer g.mop := by
    unfold isAnswer
    omega
  have happly := performs_landing (s := u) (a := o.assoc) (g := g) (by omega) (by omega) (by omega)
  refine ⟨fun w hw hassocs hserved => ?_, fun hno => h.refused hs hheld hreq hrow (happly.trans hno)⟩
  obtain ⟨hanswer, -, hslots, hctxs⟩ := h.answered hs hheld hreq hrow (happly.trans hw) hassocs hserved
  exact ⟨hanswer, hslots, hctxs⟩

theorem msgLdgArrive_performs (hmop : g.mop = 7) (ht : exec (.msgLdgArrive k) s = .next t) : let key := 20000 + g.addr % 256
    let y := u.slot key
    (y.mirror = none → y.state ≠ .free → (∃ p ∈ y.subs, p.1 = o.assoc) → let w := u.arrive key y.owner (g.arg % 65536)
      w.stalled = false → t.slot key = w.slot key ∧ t.ctxs = w.ctxs ∧ u.Answered t o.assoc { mop := 6, seq := g.seq }) ∧
    (y.mirror ≠ none ∨ y.state = .free ∨ (∀ p ∈ y.subs, p.1 ≠ o.assoc) → u.Refused t o.assoc g 0x22) := by
  intro key y
  have hrow : s.waits (.next (s.msgRow k g.mop)) = .next t := by
    rw [hmop]
    exact ht
  obtain ⟨hdone, hrefused⟩ := landing_performs hs h (by omega) hrow
  rw [hmop] at hdone hrefused
  refine ⟨fun hmirror hstate hsub => ?_, fun hno => hrefused (applyLanding_refuses hno)⟩
  intro w hserved
  obtain ⟨hanswer, hslots, hctxs⟩ := hdone w (applyLanding_arrives hmirror hstate hsub) (congrArg Prod.fst (arrive_fabric _ _ _ _)) hserved
  exact ⟨by rw [State.slot, State.slot, hslots], hctxs, hanswer⟩

theorem ldgRelease_performs (hmop : g.mop = 8) (ht : exec (.ldgRelease k) s = .next t) : let key := 20000 + g.addr % 256
    let y := u.slot key
    (∀ m, y.mirror = some (o.assoc, m) → g.arg < 2 ^ 32 → let w := (u.setSlot key { y with gen := g.arg, count := g.arg }).releaseSlot key g.arg
      t.slot key = w.slot key ∧ t.ctxs = w.ctxs ∧ u.Answered t o.assoc { mop := 6, seq := g.seq }) ∧
    (y.mirror = none → u.Refused t o.assoc g 0x22) := by
  intro key y
  have hrow : s.waits (.next (s.msgRow k g.mop)) = .next t := by
    rw [hmop]
    exact ht
  obtain ⟨hdone, hrefused⟩ := landing_performs hs h (by omega) hrow
  rw [hmop] at hdone hrefused
  refine ⟨fun m hmirror harg => ?_, fun hno => hrefused (applyLanding_unmirrored (by decide) hno)⟩
  intro w
  have hserved : w.stalled = false :=
    (State.Onward.releaseSlot (deep := 0) (.setSlot (.refl true u))).stalled rfl (h.opens.served hs)
  have hassocs : w.assocs = u.assocs := congrArg Prod.fst ((releaseSlot_fabric _ _ _).trans (setSlot_fabric _ _ _))
  obtain ⟨hanswer, hslots, hctxs⟩ := hdone w (applyLanding_releases hmirror harg) hassocs hserved
  exact ⟨by rw [State.slot, State.slot, hslots], hctxs, hanswer⟩

theorem ldgLoss_performs (hmop : g.mop = 9) (ht : exec (.ldgLoss k) s = .next t) : let key := 20000 + g.addr % 256
    let y := u.slot key
    (∀ m, y.mirror = some (o.assoc, m) → let w := u.loseSlot key
      t.slot key = w.slot key ∧ t.ctxs = w.ctxs ∧ u.Answered t o.assoc { mop := 6, seq := g.seq }) ∧
    (y.mirror = none → u.Refused t o.assoc g 0x22) := by
  intro key y
  have hrow : s.waits (.next (s.msgRow k g.mop)) = .next t := by
    rw [hmop]
    exact ht
  obtain ⟨hdone, hrefused⟩ := landing_performs hs h (by omega) hrow
  rw [hmop] at hdone hrefused
  refine ⟨fun m hmirror => ?_, fun hno => hrefused (applyLanding_unmirrored (by decide) hno)⟩
  intro w
  have hserved : w.stalled = false := (State.Onward.loseSlot (deep := 0) (.refl true u)).stalled rfl (h.opens.served hs)
  obtain ⟨hanswer, hslots, hctxs⟩ := hdone w (applyLanding_loses hmirror) (congrArg Prod.fst (loseSlot_fabric _ _)) hserved
  exact ⟨by rw [State.slot, State.slot, hslots], hctxs, hanswer⟩

end

section
variable (hs : s.Sound) (h : s.OpensUp k 1 u o) (hsegs : o.segs = [g]) {m : OutMsg}
  (hfind : (u.assoc o.assoc).outMsgs.find? (fun m => decide (m.seq = g.seq)) = some m)
include h hsegs

/-- An answer that has been performed stands, unless an access of it waits. -/
theorem answer_stands (hmop : isAnswer g.mop) (hrow : s.waits (.next (s.msgRow k g.mop)) = .next t) (hperform : u.performAnswer o.assoc g = w)
    (hserved : w.stalled = false) : t = w := by
  rw [answerRow h hsegs hmop, hperform, waits_of_served hserved] at hrow
  simpa using hrow.symm

include hs hfind

theorem readResp_performs (hmop : g.mop = 3) (ht : exec (.readResp k) s = .next t) : (m.mop ≠ 2 → t = u) ∧
    (∀ w bs, m.mop = 2 → m.entry ≠ none → m.got = [] → g.off = 0 → m.len ≤ g.data.length →
      u.vaWrite (kftEngine m.ctx) m.addr g.data = (w, .ok bs) → let y := w.answered o.assoc { m with got := [(0, g.data.length)] } 0
      y.stalled = false → t = y) := by
  have hrow : s.waits (.next (s.msgRow k g.mop)) = .next t := by
    rw [hmop]
    exact ht
  have hperform := performAnswer_read hfind hmop
  refine ⟨fun hother => ?_, fun w bs hread hentry hgot hoff hlen hwrite => ?_⟩
  · exact answer_stands h hsegs (.inl hmop) hrow (hperform.trans (if_neg hother)) (h.served hs)
  · intro y hserved
    exact answer_stands h hsegs (.inl hmop) hrow (hperform.trans ((if_pos hread).trans (readReturns_all hentry hgot hoff hlen hwrite))) hserved

theorem atomicResp_performs (hmop : g.mop = 5) (ht : exec (.atomicResp k) s = .next t) : (m.mop ≠ 4 → t = u) ∧
    (∀ w bs, m.mop = 4 → m.entry ≠ none → u.vaWrite (kftEngine m.ctx) m.addr (toBytes 8 (beField g.data 0 8)) = (w, .ok bs) →
      (w.answered o.assoc m 0).stalled = false → t = w.answered o.assoc m 0) := by
  have hrow : s.waits (.next (s.msgRow k g.mop)) = .next t := by
    rw [hmop]
    exact ht
  refine ⟨fun hother => ?_, fun w bs hatomic hentry hwrite hserved => ?_⟩
  · exact answer_stands h hsegs (.inr (.inl hmop)) hrow (performAnswer_atomicOther hfind hmop hother) (h.served hs)
  · exact answer_stands h hsegs (.inr (.inl hmop)) hrow (performAnswer_atomic hfind hmop hatomic hentry hwrite) hserved

omit hs in
theorem writeAck_performs (hmop : g.mop = 6) (ht : exec (.writeAck k) s = .next t) (h2 : m.mop ≠ 2) (h4 : m.mop ≠ 4)
    (hserved : (u.answered o.assoc m 0).stalled = false) : t = u.answered o.assoc m 0 := by
  have hrow : s.waits (.next (s.msgRow k g.mop)) = .next t := by
    rw [hmop]
    exact ht
  exact answer_stands h hsegs (.inr (.inr (.inl hmop))) hrow (performAnswer_ack hfind hmop h2 h4) hserved

omit hs in
theorem nak_performs (hmop : g.mop = 10) (ht : exec (.nak k) s = .next t) (hserved : (u.answered o.assoc m (g.arg % 65536)).stalled = false) :
    t = u.answered o.assoc m (g.arg % 65536) := by
  have hrow : s.waits (.next (s.msgRow k g.mop)) = .next t := by
    rw [hmop]
    exact ht
  exact answer_stands h hsegs (.inr (.inr (.inr hmop))) hrow (performAnswer_nak hfind hmop) hserved

end

theorem kftAck_frees {r : KPath} (hs : s.Sound) (h : s.OpensUp k 2 u o) (hsegs : o.segs = []) (hlen : o.body.length = 20)
    (hpath : mfind (u.assoc o.assoc).paths (beField o.body 0 1) = some r) (ht : exec (.kftAck k) s = .next t) :
    ∀ p ∈ (t.assoc o.assoc).sent, p ∈ (u.assoc o.assoc).sent ∧ ¬ (p.path = beField o.body 0 1 ∧ p.psn = beField o.body 4 4) := by
  have hexec : exec (.kftAck k) s = .next (u.ackEntries o.assoc 200 o.body) := by
    show execKftAck k s = _
    unfold execKftAck
    rw [kftRow_opens h (by rw [hsegs]; rfl)]
  obtain rfl : t = u.ackEntries o.assoc 200 o.body := by simpa using ht.symm.trans hexec
  rw [ackEntries_one hlen]
  exact fun p hp => ackEntry_frees (h.rise hs) hpath (beField_lt _ _ _) hp

theorem probe_answers (h : s.OpensUp k 3 u o) (hsegs : o.segs = []) : exec (.probe k) s = .next (u.sendAck o.assoc o.path 1) := by
  show execProbe k s = _
  unfold execProbe
  rw [kftRow_opens h (by rw [hsegs]; rfl)]

theorem confirm_accepts (h : s.openPacket k = (u, some o)) (hconfirm : o.confirm = true) : exec (.confirm k) s = .next (u.acceptPacket k o) := by
  show execConfirm k s = _
  unfold execConfirm
  rw [h]
  exact if_pos hconfirm

/-- Settles O44: a packet that fails a check is dropped under its reason; a single message in its turn is performed and answered; an acknowledgement
frees its packets, a probe is answered, and a confirmation brings the association up. -/
theorem packetCommands : Obligations.PacketCommands := by
  unfold Obligations.PacketCommands
  intro s k hs b typ bad dropped home opens one answers naks mine
  have hone {u o g} (h : one u o g) : s.Turn k u o g := by
    obtain ⟨hopens, hsegs, hlow, hdone, hmsgs⟩ := h
    exact ⟨hopens, hsegs, hlow, hdone, hmsgs⟩
  obtain ⟨habsent, hpresent⟩ := strangerPacket_rules s k
  have hrun (i : Instr) (hi : ∀ p, i ≠ .powerOn p) : ∃ t, exec i s = .next t := exec_of_goes hi
  refine ⟨habsent, hpresent, ?_, ?_, ?_, ?_, ?_, ?_, ?_, ?_, ?_, ?_, ?_, ?_, ?_⟩
  · obtain ⟨t, ht⟩ := hrun (.msgWrite k) (fun p h => Instr.noConfusion h)
    exact ⟨t, ht, fun u o g h hmop hoff hlen => msgWrite_performs hs (hone h) hmop hoff hlen ht⟩
  · obtain ⟨t, ht⟩ := hrun (.readReq k) (fun p h => Instr.noConfusion h)
    exact ⟨t, ht, fun u o g h hmop => readReq_performs hs (hone h) hmop ht⟩
  · obtain ⟨t, ht⟩ := hrun (.msgAtomic k) (fun p h => Instr.noConfusion h)
    exact ⟨t, ht, fun u o g h hmop => msgAtomic_performs hs (hone h) hmop ht⟩
  · obtain ⟨t, ht⟩ := hrun (.msgLdgArrive k) (fun p h => Instr.noConfusion h)
    exact ⟨t, ht, fun u o g h hmop => msgLdgArrive_performs hs (hone h) hmop ht⟩
  · obtain ⟨t, ht⟩ := hrun (.ldgRelease k) (fun p h => Instr.noConfusion h)
    exact ⟨t, ht, fun u o g h hmop => ldgRelease_performs hs (hone h) hmop ht⟩
  · obtain ⟨t, ht⟩ := hrun (.ldgLoss k) (fun p h => Instr.noConfusion h)
    exact ⟨t, ht, fun u o g h hmop => ldgLoss_performs hs (hone h) hmop ht⟩
  · obtain ⟨t, ht⟩ := hrun (.readResp k) (fun p h => Instr.noConfusion h)
    exact ⟨t, ht, fun u o g m ⟨hopens, hsegs, hfind⟩ hmop => readResp_performs hs hopens hsegs hfind hmop ht⟩
  · obtain ⟨t, ht⟩ := hrun (.atomicResp k) (fun p h => Instr.noConfusion h)
    exact ⟨t, ht, fun u o g m ⟨hopens, hsegs, hfind⟩ hmop => atomicResp_performs hs hopens hsegs hfind hmop ht⟩
  · obtain ⟨t, ht⟩ := hrun (.writeAck k) (fun p h => Instr.noConfusion h)
    exact ⟨t, ht, fun u o g m ⟨hopens, hsegs, hfind⟩ hmop h2 h4 hserved => writeAck_performs hopens hsegs hfind hmop ht h2 h4 hserved⟩
  · obtain ⟨t, ht⟩ := hrun (.nak k) (fun p h => Instr.noConfusion h)
    exact ⟨t, ht, fun u o g m ⟨hopens, hsegs, hfind⟩ hmop hserved => nak_performs hopens hsegs hfind hmop ht hserved⟩
  · obtain ⟨t, ht⟩ := hrun (.kftAck k) (fun p h => Instr.noConfusion h)
    exact ⟨t, ht, fun u o r hopens hsegs hlen hpath => kftAck_frees hs hopens hsegs hlen hpath ht⟩
  · obtain ⟨t, ht⟩ := hrun (.probe k) (fun p h => Instr.noConfusion h)
    refine ⟨t, ht, fun u o hopens hsegs => ?_⟩
    simpa using ht.symm.trans (probe_answers hopens hsegs)
  · obtain ⟨t, ht⟩ := hrun (.confirm k) (fun p h => Instr.noConfusion h)
    refine ⟨t, ht, fun u o n hopen hconfirm hfresh _ hn => ?_⟩
    obtain rfl : t = u.acceptPacket k o := by simpa using ht.symm.trans (confirm_accepts hopen hconfirm)
    exact acceptPacket_up (openPacket_keeps hs hopen).1 hconfirm hfresh hn

end Sys2Proof.Machine
end
